-- ==== Sys2Proof/Word.lean ====
section
/-!
DEFINITION. The widths the specification counts in: 32-bit registers (R7) and bytes.
-/

namespace Sys2Proof

/-- A register or memory word: 32 bits (R7). -/
abbrev Word := BitVec 32

/-- A byte of memory or of a frame. -/
abbrev Byte := BitVec 8

end Sys2Proof
end

