-- ==== Sys2Proof/Syntax.lean ====
section
/-!
DEFINITION. The commands the block takes: one constructor of `Instr` per row of the
specification's table of operations, and the operand types they carry. An operand is what the
row's environment supplies: the writer of a register and the word written, a port, a frame's
bytes, a measured value.
-/

namespace Sys2Proof

/-- The requester of a register access: its partition master ID (R337) and world (R44). -/
structure Master where
  pmid : BitVec 6
  indigo : Bool
  deriving DecidableEq, Repr

/-- The size of an access (R30). -/
inductive AccessSize where
  | byte | half | word | double
  deriving DecidableEq, Repr

/-- Bytes of an access. -/
def AccessSize.bytes : AccessSize → Nat
  | .byte => 1
  | .half => 2
  | .word => 4
  | .double => 8

/-- The clock islands of R14; the PORT islands are named by port group. -/
inductive Island where
  | pg0 | pg1 | pg2 | pg3 | pg4
  | fabric | classify | ritik | cipher | tm | app | rt | mem | system | seq | edge | aon
  deriving DecidableEq, Repr

/-- The two power dies and their sequencers. -/
inductive Die where
  | a | b
  deriving DecidableEq, Repr

/-- A protected power channel OUT[0..47]. -/
abbrev Out := Fin 48

/-- An error at the end of a received frame (R66, R75). -/
inductive RxError where
  | none | symbol | fcs | assembly
  deriving DecidableEq, Repr

/-- A present port number 0 to 36 (R50). -/
abbrev Port := Fin 37

/-- An external port 0 to 31. -/
abbrev ExtPort := Fin 32

/-- A traffic class. -/
abbrev TrafficClass := Fin 8

/-- What the checks of the two scheduler copies find in one cell time (R82). -/
inductive SchedCheck where
  | agree | activeFails | standbyFails | differ
  deriving DecidableEq, Repr

/-- A memory word that an error correction code protects: a register word by key, a live word by
bank and key, a word of an engine memory that no register window shows, an MRAM word by address,
or a flow entry by slot. -/
inductive MemCell where
  | reg (key : Nat)
  | live (bank key : Nat)
  | engine (i : Nat)
  | mram (a : Nat)
  | flow (slot : Nat)
  /-- A word of a memory that the map does not show, by its memory number in R444. -/
  | array (memory : Fin 7)
  deriving DecidableEq, Repr

/-- A frame inside the module, by the number the model gave it at its arrival. -/
abbrev FrameId := Nat

/-- A generation number (R132). -/
abbrev Gen := Fin 4

/-- The image loaders (R172, R194): the packet engines', those of the two power sequencers, the wake
unit's. -/
inductive Loader where
  | rtk | pwcA | pwcB | wak
  deriving DecidableEq, Repr

/-- A Ritik thread: packet threads 0 to 191, threads of sequencer A 192 to 195, of sequencer B
196 to 199, the wake thread 200 (R140). -/
abbrev ThreadId := Fin 201

/-- A general register g0 to g15 (R141). -/
abbrev Gpr := Fin 16

/-- The conditions of a branch (R148); the reserved one takes ILLEGAL. -/
inductive Cond where
  | eq | ne | hs | lo | mi | pl | vs | vc | hi | ls | ge | lt | gt | le | al
  deriving DecidableEq, Repr

/-- The spaces of a memory instruction (R149). -/
inductive MemSpace where
  | d | h | m
  deriving DecidableEq, Repr

/-- The sizes of a memory instruction (R149). -/
inductive MemSize where
  | byte | half | word
  deriving DecidableEq, Repr

/-- Where the cipher engine meets a memory error (R255, R268). -/
inductive CipherMem where
  | sa (n : Fin 1024)
  | secy (n : Fin 512)
  | key (n : Fin 1280)
  | holdFrame (f : FrameId)
  | holdJob (j : Fin 160)
  deriving DecidableEq, Repr

/-- How a CAN reception ended (R302): a good frame, an error that counts 1, or an error that counts 8 (a
dominant bit first after the error flag, ISO 11898-1). -/
inductive CanRx where
  | good | error | dominant
  deriving DecidableEq, Repr

/-- What the selective-wake decoder saw (R304): a classic frame, an FD frame, or a frame in error. -/
inductive CanWake where
  | classic | fd | error
  deriving DecidableEq, Repr

/-- What a thread fetched that is no instruction of its profile: a reserved word, or, with `unit`, a PDCMD word
whose command code R359 does not list (R145, R359). -/
structure BadWord where
  thread : ThreadId
  unit : Bool
  deriving DecidableEq, Repr

/-- A LIN header: its identifier, and the nanoseconds since its break field (R298, R305). -/
structure LinHeader where
  ident : Fin 64
  ago : BitVec 32
  deriving DecidableEq, Repr

/-- The end of a CAN transmission: whether it was good, and the nanoseconds since its start of frame (R298,
R303). -/
structure CanSent where
  good : Bool
  ago : BitVec 32
  deriving DecidableEq, Repr

/-- The end of a serial transmission: its channel, and the nanoseconds since its first start bit (R298, R306). -/
structure SerSent where
  chan : Fin 4
  ago : BitVec 32
  deriving DecidableEq, Repr

/-- How a LIN response ended (R305). -/
inductive LinError where
  | none | noResponse | checksum | framing
  deriving DecidableEq, Repr

/-- A channel of the gateway. -/
inductive GwyChan where
  | can (c : Fin 16)
  | lin (l : Fin 8)
  | ser (s : Fin 4)
  deriving DecidableEq, Repr

/-- What a power link copy delivers of a command: good CRC, bad CRC, or nothing (R12). -/
inductive LinkCopy where
  | good | bad | silent
  deriving DecidableEq, Repr

/-- What is measured of one channel in a tick: the ten calibrated samples in mA (R363), the ten
samples of the die's own sensing in mA (R373), junction temperature in 0.125 °C and output voltage
in mV (R159). -/
structure ChanSample where
  currents : List Int
  dieCurrents : List Int
  junction : Int
  voltage : Nat
  deriving DecidableEq, Repr

/-- How a completion from the link ends (R318). -/
inductive CplStatus where
  | ok | ur | ca | poison | ecrc
  deriving DecidableEq, Repr

/-- The TLP that an uncorrectable error in a bridge buffer meets (R323): a posted write waiting, by
place; the completion of a request, by its number; an inbound TLP, by bus address and requester. -/
inductive BufferTlp where
  | posted (k : Nat)
  | completion (id : Nat)
  | inbound (addr : BitVec 64) (rid : BitVec 16)
  deriving DecidableEq, Repr

/-- The request that an error message identifies: window, bus address and requester (R319). -/
structure FailedRequest where
  win : Fin 64
  addr : BitVec 64
  master : Master
  deriving DecidableEq, Repr

/-- What a hardware monitor finds outside its window (R444). -/
inductive MonitorTrip where
  /-- An internal supply rail. -/
  | rail (n : BitVec 32)
  /-- The junction temperature of the Core die, in units of 0.125 °C. -/
  | junction (t : BitVec 16)
  /-- The clock of an island. -/
  | clock (i : Island)
  deriving DecidableEq, Repr

/-- The commands: one constructor per row of the table of operations. -/
inductive Instr where
  /-- ADD (R153): rd := ra + rb with arithmetic flags. -/
  | add (t : ThreadId) (rd ra rb : Gpr)
  /-- SUB (R153): rd := ra - rb with arithmetic flags. -/
  | sub (t : ThreadId) (rd ra rb : Gpr)
  /-- AND (R153): rd := ra and rb with logic flags. -/
  | and (t : ThreadId) (rd ra rb : Gpr)
  /-- OR (R153): rd := ra or rb with logic flags. -/
  | or (t : ThreadId) (rd ra rb : Gpr)
  /-- XOR (R153): rd := ra xor rb with logic flags. -/
  | xor (t : ThreadId) (rd ra rb : Gpr)
  /-- SHL (R153): Shift left by rb[4:0]. -/
  | shl (t : ThreadId) (rd ra rb : Gpr)
  /-- SHR (R153): Logical shift right by rb[4:0]. -/
  | shr (t : ThreadId) (rd ra rb : Gpr)
  /-- SAR (R153): Arithmetic shift right by rb[4:0]. -/
  | sar (t : ThreadId) (rd ra rb : Gpr)
  /-- ROR (R153): Rotate right by rb[4:0]. -/
  | ror (t : ThreadId) (rd ra rb : Gpr)
  /-- MUL (R153): Low 32 bits of the product. -/
  | mul (t : ThreadId) (rd ra rb : Gpr)
  /-- MULQ (R153): Saturated Q16.16 product. -/
  | mulq (t : ThreadId) (rd ra rb : Gpr)
  /-- ADDS (R153): Signed saturating add. -/
  | adds (t : ThreadId) (rd ra rb : Gpr)
  /-- SUBS (R153): Signed saturating subtract. -/
  | subs (t : ThreadId) (rd ra rb : Gpr)
  /-- CMP (R153): Compare two registers, setting arithmetic flags. -/
  | cmp (t : ThreadId) (ra rb : Gpr)
  /-- TST (R153): AND two registers, setting logic flags. -/
  | tst (t : ThreadId) (ra rb : Gpr)
  /-- MIN (R153): Signed minimum. -/
  | min (t : ThreadId) (rd ra rb : Gpr)
  /-- MAX (R153): Signed maximum. -/
  | max (t : ThreadId) (rd ra rb : Gpr)
  /-- CLZ (R153): Count leading zero bits. -/
  | clz (t : ThreadId) (rd ra : Gpr)
  /-- POPC (R153): Count one bits. -/
  | popc (t : ThreadId) (rd ra : Gpr)
  /-- CSUPD (R153): RFC 1624 incremental checksum update. -/
  | csupd (t : ThreadId) (rd ra rb : Gpr)
  /-- JR (R153): Jump to the index in ra. -/
  | jr (t : ThreadId) (ra : Gpr)
  /-- JLR (R153): Jump to ra and link pc + 1 in g15. -/
  | jlr (t : ThreadId) (ra : Gpr)
  /-- RDS (R153): Read a special value by selector. -/
  | rds (t : ThreadId) (rd : Gpr) (sel : Fin 16)
  /-- WRF (R153): Write the four flags from ra. -/
  | wrf (t : ThreadId) (ra : Gpr)
  /-- ADDI (R154): Add a sign-extended immediate. -/
  | addi (t : ThreadId) (rd ra : Gpr) (imm : BitVec 16)
  /-- ANDI (R154): AND with a zero-extended immediate. -/
  | andi (t : ThreadId) (rd ra : Gpr) (imm : BitVec 16)
  /-- ORI (R154): OR with a zero-extended immediate. -/
  | ori (t : ThreadId) (rd ra : Gpr) (imm : BitVec 16)
  /-- XORI (R154): XOR with a zero-extended immediate. -/
  | xori (t : ThreadId) (rd ra : Gpr) (imm : BitVec 16)
  /-- SHLI (R154): Shift left by an immediate. -/
  | shli (t : ThreadId) (rd ra : Gpr) (n : Fin 32)
  /-- SHRI (R154): Logical shift right by an immediate. -/
  | shri (t : ThreadId) (rd ra : Gpr) (n : Fin 32)
  /-- SARI (R154): Arithmetic shift right by an immediate. -/
  | sari (t : ThreadId) (rd ra : Gpr) (n : Fin 32)
  /-- MOVI (R154): Load a zero-extended 16-bit immediate. -/
  | movi (t : ThreadId) (rd : Gpr) (imm : BitVec 16)
  /-- MOVHI (R154): Set the high half of rd from the immediate. -/
  | movhi (t : ThreadId) (rd : Gpr) (imm : BitVec 16)
  /-- CMPI (R154): Compare with a sign-extended immediate. -/
  | cmpi (t : ThreadId) (ra : Gpr) (imm : BitVec 16)
  /-- TSTI (R154): AND with an immediate, setting logic flags. -/
  | tsti (t : ThreadId) (ra : Gpr) (imm : BitVec 16)
  /-- EXT (R154): Extract a bit field. -/
  | ext (t : ThreadId) (rd ra : Gpr) (p wm1 : Fin 32)
  /-- INS (R154): Insert a bit field. -/
  | ins (t : ThreadId) (rd ra : Gpr) (p wm1 : Fin 32)
  /-- B_COND (R148): Conditional branch by a signed offset. -/
  | bCond (t : ThreadId) (cond : Cond) (off : BitVec 24)
  /-- BL_COND (R148): Conditional branch that links pc + 1 in g15 when taken. -/
  | blCond (t : ThreadId) (cond : Cond) (off : BitVec 24)
  /-- LD (R156): Zero-extending load from D, H or M. -/
  | ld (t : ThreadId) (rd ra : Gpr) (sp : MemSpace) (sz : MemSize) (off : BitVec 12)
  /-- LDS (R156): Sign-extending load from D, H or M. -/
  | lds (t : ThreadId) (rd ra : Gpr) (sp : MemSpace) (sz : MemSize) (off : BitVec 12)
  /-- ST (R156): Store to D, H or M. -/
  | st (t : ThreadId) (rd ra : Gpr) (sp : MemSpace) (sz : MemSize) (off : BitVec 12)
  /-- AADD (R156): Atomic add to a D word, returning the old value. -/
  | aadd (t : ThreadId) (rd ra : Gpr) (off : BitVec 12)
  /-- ASWP (R156): Atomic swap of a D word. -/
  | aswp (t : ThreadId) (rd ra : Gpr) (off : BitVec 12)
  /-- YIELD (R157): The thread gives up the engine for one round-robin turn. -/
  | yield (t : ThreadId)
  /-- TIME (R157): Latch or read the thread's time snapshot. -/
  | time (t : ThreadId) (rd : Gpr) (sel dom : Fin 4)
  /-- EXIT (R157): A C or W thread stops until the owning block restarts it. -/
  | exit (t : ThreadId)
  /-- BRK (R169): Breakpoint: halts the thread with debug enabled, otherwise traps BREAK. -/
  | brk (t : ThreadId)
  /-- LKUP (R158): Start a table lookup with its result into M, and yield. -/
  | lkup (t : ThreadId) (ra : Gpr) (tbl : Fin 32) (m : Fin 64) (async : Bool)
  /-- WAITL (R158): Yield until no lookup is outstanding. -/
  | waitl (t : ThreadId)
  /-- METER (R158): Apply a traffic-manager meter to the frame and yield. -/
  | meter (t : ThreadId) (ra : Gpr) (m : Fin 64) (pre : Fin 4)
  /-- CNT (R185): Add one frame and its length to a packet-engine counter pair. -/
  | cnt (t : ThreadId) (ra : Gpr)
  /-- HPUSH (R163): Insert zero bytes into H. -/
  | hpush (t : ThreadId) (ra rb : Gpr)
  /-- HPOP (R163): Remove bytes from H. -/
  | hpop (t : ThreadId) (ra rb : Gpr)
  /-- CSUMH (R158): Ones'-complement sum over a range of H. -/
  | csumh (t : ThreadId) (rd ra rb : Gpr)
  /-- TSINS (R158): Request an egress timestamp insertion. -/
  | tsins (t : ThreadId) (ra rb : Gpr) (fmt : Fin 4) (adj : Bool)
  /-- SEAL (R158): Select an SA context for egress sealing. -/
  | seal (t : ThreadId) (ra : Gpr)
  /-- LEARN (R158): Queue a flow insert of the frame's key. -/
  | learn (t : ThreadId) (ra rb : Gpr)
  /-- FWD (R181): End the program and forward the frame as M[46] directs. -/
  | fwd (t : ThreadId)
  /-- DROP (R185): End the program and drop the frame under a reason counter. -/
  | drop (t : ThreadId) (why : BitVec 8)
  /-- TRAP (R158): End the program and send the frame to an exception queue with a program code. -/
  | trap (t : ThreadId) (code : BitVec 8) (tgt : Bool)
  /-- RECIRC (R188): End the program and return the frame through port 36, or trap RECIRC_LIMIT. -/
  | recirc (t : ThreadId) (ra : Gpr) (st : Bool)
  /-- SNS (R159): Read a calibrated channel sample. -/
  | sns (t : ThreadId) (rd ra : Gpr) (q : Fin 4)
  /-- TICK (R159): Yield until the next tick, or return at once and count an overrun. -/
  | tick (t : ThreadId)
  /-- WAITE (R395): Wait for a wake-unit event in the mask and return the oldest. -/
  | waite (t : ThreadId) (rd ra : Gpr)
  /-- PWRQ_UMBER (R395): PWRQ 0: from Slate go to Umber, or awake consent with sleep depth Umber. -/
  | pwrqUmber (t : ThreadId) (ra : Gpr)
  /-- PWRQ_SLATE (R395): PWRQ 1: awake consent with sleep depth Slate; no effect while asleep. -/
  | pwrqSlate (t : ThreadId) (ra : Gpr)
  /-- PWRQ_PEWTER (R395): PWRQ 2: wake to Pewter, or withdraw consent. -/
  | pwrqPewter (t : ThreadId) (ra : Gpr)
  /-- PWRQ_IVORY (R395): PWRQ 3: wake to Ivory, or withdraw consent and go from Pewter to Ivory. -/
  | pwrqIvory (t : ThreadId) (ra : Gpr)
  /-- ON (R368): Command ON sets the desired state on and starts a Mogul sequence. -/
  | on (t : ThreadId) (ra rb : Gpr)
  /-- OFF (R359): Command OFF sets the desired state off and cancels any Mogul sequence. -/
  | off (t : ThreadId) (ra rb : Gpr)
  /-- DUTY (R377): Command DUTY sets the PWM duty from the next period. -/
  | duty (t : ThreadId) (ra rb : Gpr)
  /-- TRIP (R369): Command TRIP switches the channel off as a trip with cause INST or SOFT. -/
  | trip (t : ThreadId) (ra rb : Gpr)
  /-- CLEAR (R372): Command CLEAR removes latched causes, or is refused while a condition holds. -/
  | clear (t : ThreadId) (ra rb : Gpr)
  /-- THMODE (R371): Command THMODE sets hysteresis or latch thermal mode. -/
  | thmode (t : ThreadId) (ra rb : Gpr)
  /-- HOLD (R375): Command HOLD puts a channel or the whole die in last-state hold. -/
  | hold (t : ThreadId) (ra rb : Gpr)
  /-- ATTACH (R376): Command ATTACH compares the digest with the held state and leaves hold, or is refused. -/
  | attach (t : ThreadId) (ra rb : Gpr)
  /-- RUNOUTCLR (R374): Command RUNOUTCLR clears a Runout trip when the accumulator is 0. -/
  | runoutclr (t : ThreadId) (ra rb : Gpr)
  /-- CALGAIN (R362): Command CALGAIN requests a gain step at the next allowed time. -/
  | calgain (t : ThreadId) (ra rb : Gpr)
  /-- ILLEGAL (R145): A Ritik thread fetches a word with a reserved format, opcode, condition or field, such as 0x0000_0000, and takes the trap ILLEGAL; or, of a PDCMD word
  whose command code R359 does not list, UNIT. -/
  | illegal (x : BadWord)
  /-- PC_RANGE (R155): A Ritik thread fetches at an index that is negative or at or beyond program memory, and takes the trap PC_RANGE at fetch. -/
  | pcRange (t : ThreadId)
  /-- REGISTER_WRITE (R8): Write to a register field that has no row of its own; it acts according to its access type, including CFG refusal with CFGDENY and BLK_DENYADDR capture. -/
  | registerWrite (m : Master) (addr : BitVec 40) (size : AccessSize) (data : BitVec 64)
  /-- SNAP_READ (R8): Read of a SNAP register latches a consistent snapshot across the field or register pair. -/
  | snapRead (m : Master) (addr : BitVec 40) (size : AccessSize)
  /-- BIT_ALIAS_WRITE (R43): Write through the bit-alias window atomically updates one bit according to its field type. -/
  | bitAliasWrite (m : Master) (addr : BitVec 40) (data : Word)
  /-- BLK_ENABLE (R36): Writing 1 to BLK_CTRL.EN enables the block at once, or cancels a quiesce in progress. -/
  | blkEnable (m : Master) (blk : Fin 128)
  /-- BLK_QUIESCE_START (R36): Writing 0 to BLK_CTRL.EN starts a quiesce: BUSY sets and the block stops accepting new operations. -/
  | blkQuiesceStart (m : Master) (blk : Fin 128)
  /-- BLK_QUIESCE_DONE (R36): In-flight operations have completed; EN reads 0 and BUSY clears. -/
  | blkQuiesceDone (blk : Fin 128)
  /-- COMMIT_IMMEDIATE (R39): BLK_COMMIT GO with MODE 0 makes a shadow table live atomically, or is rejected with a CODE. -/
  | commitImmediate (m : Master) (blk : Fin 128) (table : BitVec 8) (index : BitVec 8)
  /-- COMMIT_TIMED (R206): BLK_COMMIT GO with MODE 1 latches a Slalom list and its admin parameters into the port's pending bank for its change time. -/
  | commitTimed (m : Master) (blk : Fin 128) (table : BitVec 8) (index : BitVec 8)
  /-- COMMIT_GENERATION (R41): BLK_COMMIT GO with MODE 2 stages a banked table for the next generation, or advances the current generation (CLS table 0x00). -/
  | commitGeneration (m : Master) (blk : Fin 128) (table : BitVec 8) (index : BitVec 8)
  /-- COMMIT_DONE (R39): The copy-back of a commit completes; PENDING clears and DONE sets. -/
  | commitDone (blk : Fin 128)
  /-- WORLD_LOCK (R45): Writing 1 to SYS_WORLDLOCK.LOCK makes SYS_BLKWORLD read-only until the next power-on reset of the Core die. -/
  | worldLock (m : Master)
  /-- REGION_LOCK (R46): Writing 1 to a region descriptor's LOCK bit makes it read-only until the next power-on reset. -/
  | regionLock (m : Master) (n : Fin 256)
  /-- PARTITION_LOCK (R338): Writing 1 to CPX_PARTLOCK.LOCK makes the partition table and HOME fields read-only. -/
  | partitionLock (m : Master)
  /-- EDGE_WRITE_APPLIED (R33): A write queued in the Traverse register channel is applied in order at the Edge die. -/
  | edgeWriteApplied
  /-- AON_WRITE_APPLIED (R32): A WAK write to an AON field is applied in AON, and WAK's BUSY clears. -/
  | aonWriteApplied
  /-- ISLAND_STOP (R34): An island closes its crossing, lets accesses past it complete and stops. -/
  | islandStop (isl : Island)
  /-- ISLAND_READY (R389): A restarting island reports ready and accepts register accesses again. -/
  | islandReady (isl : Island)
  /-- CORE_RESET_RELEASE (R483): The Core die is released from reset as a power-on reset of the Core die, and the locks and measurement registers are at their reset values. -/
  | coreResetRelease
  /-- TRAVERSE_FLIT_REPLAY (R10): A Traverse flit with a bad CRC-32C is replayed from the sender's replay buffer. -/
  | traverseFlitReplay
  /-- TRAVERSE_RETRAIN_START (R11): A lane loses alignment, or replays exceed 16 in 1 ms; the link starts a retrain and reports recovering. -/
  | traverseRetrainStart
  /-- TRAVERSE_RETRAIN_DONE (R11): A Traverse retrain completes; held traffic resumes and a corrected fault is raised. -/
  | traverseRetrainDone
  /-- TRAVERSE_RETRAIN_TIMEOUT (R11): A retrain not complete within 100 µs is a link failure. -/
  | traverseRetrainTimeout
  /-- TRAVERSE_LOSS_TIMEOUT (R11): The collector's Traverse loss timer expires; the link is declared lost and queued writes are discarded. -/
  | traverseLossTimeout
  /-- POWER_LINK_COMMAND (R12): The power die receives a command copy and acts on the first copy whose CRC is good; a bad copy is counted. -/
  | powerLinkCommand (d : Die) (a b : LinkCopy)
  /-- POWER_LINK_COPY_SILENT (R12): One power link copy stays silent for 100 µs while its twin works; a degraded fault is raised. -/
  | powerLinkCopySilent (d : Die) (copyB : Bool)
  /-- POWER_LINKS_LOST (R25): Both power links of a die are lost; the die loses commands and a critical fault is raised. -/
  | powerLinksLost (d : Die)
  /-- HEARTBEAT_TOGGLE (R12): Every 100 µs the Core die toggles each heartbeat line. -/
  | heartbeatToggle
  /-- HEARTBEAT_LOSS (R375): A power die sees no heartbeat edge for 5 ms and enters die-wide last-state hold. -/
  | heartbeatLoss (d : Die)
  /-- SEQ_STATE_REFRESH (R13): Every 100 µs the sequencer refreshes its copy of live channel state from the power die. -/
  | seqStateRefresh (d : Die) (feed : BitVec 16) (avgA : BitVec 8)
  /-- FEED_LOSS (R21): The OR-ed logic feed stays below 13.5 V for 20 µs; the hold-up sequence stops islands, saves state to MRAM and holds the Core die in reset. -/
  | feedLoss
  /-- FEED_APPLY (R413): A feed enters the operating range from no supply; the hold-up bank charges and the module starts. -/
  | feedApply (d : Die)
  /-- FEED_OUT_OF_RANGE (R466): One feed leaves its operating range; the logic runs from the other feed and a degraded fault is raised. -/
  | feedOutOfRange (d : Die)
  /-- HOLDUP_CHARGED (R468): The hold-up bank reaches 40 V and the SYSTEM island is released from reset. -/
  | holdupCharged
  /-- RESET_N_ASSERT (R479): RESET_N is held low for at least 10 µs; the Core die and the Edge die are reset. -/
  | resetNAssert
  /-- RESET_N_RELEASE (R479): RESET_N is released; the module cold-starts into Ivory with a POWER wake record. -/
  | resetNRelease
  /-- MDIO_ADDRESS (R54): PRT_MDIOCMD GO with OP 0 starts a Clause 45 address frame; ignored with COLL set while BUSY. -/
  | mdioAddress (m : Master) (phyad reg : BitVec 5) (c45 : Bool) (data : BitVec 16)
  /-- MDIO_WRITE (R54): PRT_MDIOCMD GO with OP 1 starts an MDIO write transaction. -/
  | mdioWrite (m : Master) (phyad reg : BitVec 5) (c45 : Bool) (data : BitVec 16)
  /-- MDIO_READ_INCREMENT (R54): PRT_MDIOCMD GO with OP 2 starts a Clause 45 read-increment transaction. -/
  | mdioReadIncrement (m : Master) (phyad reg : BitVec 5) (c45 : Bool) (data : BitVec 16)
  /-- MDIO_READ (R54): PRT_MDIOCMD GO with OP 3 starts an MDIO read transaction. -/
  | mdioRead (m : Master) (phyad reg : BitVec 5) (c45 : Bool) (data : BitVec 16)
  /-- MDIO_DONE (R54): An MDIO transaction completes; read data appears in PRT_MDIODATA and BUSY clears. -/
  | mdioDone (data : BitVec 16)
  /-- PORT_ENABLE (R70): PEN is written 1; mode registers are sampled and the port enters TRAINING, or stays DISABLED with BADMODE. -/
  | portEnable (m : Master) (p : Port)
  /-- PORT_DISABLE (R71): PEN is written 0; the port stops receiving at a frame boundary and drains its egress staging. -/
  | portDisable (m : Master) (p : Port)
  /-- PORT_DISABLE_DONE (R71): Egress staging is sent; PEN reads 0 and LSTATE becomes DISABLED. -/
  | portDisableDone (p : Port)
  /-- LINK_UP (R70): PCS lock or PHY link has been stable for 1 ms; the port goes from TRAINING to UP. -/
  | linkUp (p : ExtPort) (rate : Fin 8)
  /-- LINK_DOWN (R70): PCS lock or PHY link has been lost for 50 µs; the port goes to TRAINING, logs LINK_DOWN and counts LINK_DOWN_CNT. -/
  | linkDown (p : ExtPort)
  /-- T1_SPEED_TRY_TIMEOUT (R56): In fallback mode, 200 ms pass without a link and the port tries the other T1 speed. -/
  | t1SpeedTryTimeout (p : ExtPort)
  /-- PHY_MIRROR_REFRESH (R57): Every 10 µs the Edge die mirrors PHY status, including SQI, into the Core-die port registers. -/
  | phyMirrorRefresh (p : ExtPort) (sqi : Fin 8)
  /-- PLCA_BEACON_LOSS (R59): A follower sees no BEACON for 4 cycle estimates, reverts to CSMA/CD, sets PLCAFALLBK and logs the event. -/
  | plcaBeaconLoss (p : ExtPort)
  /-- PLCA_BEACON_RECEIVED (R59): A follower in CSMA/CD fallback receives a BEACON and returns to PLCA. -/
  | plcaBeaconReceived (p : ExtPort)
  /-- PLCA_COLLISION (R60): A collision on a PLCA segment; the frame is retried under backoff and abandoned after 16 attempts with a degraded fault. -/
  | plcaCollision (p : ExtPort)
  /-- TC10_SLEEP_REQUEST (R62): Writing SLEEPREQ sends the TC10 low-power-sleep request to the partner. -/
  | tc10SleepRequest (m : Master) (p : ExtPort)
  /-- TC10_PARTNER_SLEEP_REQUEST (R62): A sleep request from the partner is accepted, or declined and counted TC10_DECLINE. -/
  | tc10PartnerSleepRequest (p : ExtPort)
  /-- TC10_SLEEP_COMPLETE (R62): The queues are empty and the handshake is done; the port enters SLEEP. -/
  | tc10SleepComplete (p : ExtPort)
  /-- TC10_WAKE (R63): A TC10 wake pulse or request ends the handshake or wakes the port, is reported to WAK and is forwarded to ports with WAKEFWD. -/
  | tc10Wake (p : ExtPort) (stoppedSending : Bool)
  /-- PREEMPT_VERIFY_SUCCESS (R65): Preemption verification succeeds and preemption becomes active. -/
  | preemptVerifySuccess (p : ExtPort)
  /-- PREEMPT_VERIFY_TIMEOUT (R65): Verification does not succeed within VTIME; PVSTAT reports failed. -/
  | preemptVerifyTimeout (p : ExtPort)
  /-- FRAME_RECEIVE (R17): A frame begins to arrive on a port (or an internal port) and enters the frame path, with its receive timestamp. -/
  | frameReceive (p : Port) (head : List Byte) (latency : BitVec 16)
  /-- FRAME_RECEIVE_END (R75): The tail of a frame arrives; MAC errors are counted and logged, or the frame is stomped if its head has left. -/
  | frameReceiveEnd (f : FrameId) (rest : List Byte) (err : RxError)
  /-- PFC_RECEIVE (R69): A received PFC frame stops egress of its enabled unscheduled classes for its quanta, or is counted and discarded. -/
  | pfcReceive (p : ExtPort) (enables : BitVec 8) (quanta : List (BitVec 16))
  /-- PAUSE_RECEIVE (R69): A received PAUSE frame stops egress of all unscheduled classes for its quanta, or is counted and discarded. -/
  | pauseReceive (p : ExtPort) (quanta : BitVec 16)
  /-- FLOW_CONTROL_STOP_EXPIRY (R69): A received PFC or PAUSE stop has lasted its quanta; the class may send again. -/
  | flowControlStopExpiry (p : ExtPort) (c : TrafficClass)
  /-- PFC_REFRESH (R68): While XOFF holds, the PFC or PAUSE frame is repeated every QUANTA/2 quanta. -/
  | pfcRefresh (p : ExtPort) (c : TrafficClass)
  /-- MACSEC_VERIFY (R254): An ingress frame on a port with an active SecY is checked; it is released to classification verified or unverified, or dropped. -/
  | macsecVerify (f : FrameId)
  /-- CELL_ADMIT (R84): An arriving cell is placed in reservation, the Drift spill tail, the shared pool or headroom, with XOFF/congestion updates, or its frame is refused or dropped. -/
  | cellAdmit (f : FrameId)
  /-- CELL_FREE (R83): The last copy of a cell has left the egress MAC, or its frame is dropped; the cell is freed and counts are updated. -/
  | cellFree (f : FrameId) (i : Nat)
  /-- SCHEDULER_CELL_TIME (R81): Each 8 ns cell time, both scheduler copies compute a request-grant-accept matching, which is compared and used to move cells. -/
  | schedulerCellTime (r : SchedCheck)
  /-- SCHEDULER_SWAP (R82): Writing FAB_SCHED.SWAP makes the standby copy active at the next cell time if it is in service. -/
  | schedulerSwap (m : Master)
  /-- FRAME_ENQUEUE (R95): A forwarded frame is enqueued to its VOQ or multicast queue, with its multicast fanout latched from its generation's group table. -/
  | frameEnqueue (f : FrameId)
  /-- DRIFT_SPILL (R91): A spill-tail cell is written to the Drift region when capacity and bandwidth allow. -/
  | driftSpill (g : Fin 7) (p : Port) (c : TrafficClass)
  /-- DRIFT_RETURN (R91): A cell returns from the Drift region to the head segment; a VOQ with empty middle and tail leaves Drift state. -/
  | driftReturn (g : Fin 7) (p : Port) (c : TrafficClass)
  /-- DRIFT_DRAIN_START (R94): A request to stop the MEM island stops new spills and sets DRAINING. -/
  | driftDrainStart
  /-- DRIFT_DRAIN_DONE (R94): The Drift region holds no cells; the fabric reports ready for the MEM stop. -/
  | driftDrainDone
  /-- LINK_DOWN_HOLD_EXPIRY (R98): An egress port is still not UP after FAB_LDHOLD.MS; its frames are redirected to the exception queue. -/
  | linkDownHoldExpiry (p : Port)
  /-- CELL_MEMORY_ERROR (R102): An uncorrectable error in cell memory or the Drift region discards or stomps the frame, counts MEM_LOSS and reports a fault. -/
  | cellMemoryError (f : FrameId)
  /-- CLASSIFY_PASS (R108): A frame passes classification: generation stamp, parse, exceptions, pattern match, key and hash, TCAM and flow lookup, and action selection. -/
  | classifyPass (f : FrameId)
  /-- L3_LENGTH_TAIL_CHECK (R131): A stored frame whose tail arrives after classification is compared with its parsed L3 length; a short frame takes MAL_LEN's action. -/
  | l3LengthTailCheck (f : FrameId)
  /-- FLOWCMD_LOOKUP (R127): CLS_FLOWCMD GO with OP 1 queues a lookup by key that returns the entry in CLS_FLOWDATA. -/
  | flowcmdLookup (m : Master) (slot : BitVec 18)
  /-- FLOWCMD_INSERT (R127): CLS_FLOWCMD GO with OP 2 queues a software insert from CLS_FLOWDATA. -/
  | flowcmdInsert (m : Master) (slot : BitVec 18)
  /-- FLOWCMD_DELETE_KEY (R127): CLS_FLOWCMD GO with OP 3 queues a delete by key. -/
  | flowcmdDeleteKey (m : Master) (slot : BitVec 18)
  /-- FLOWCMD_READ_SLOT (R127): CLS_FLOWCMD GO with OP 4 queues a read of one slot. -/
  | flowcmdReadSlot (m : Master) (slot : BitVec 18)
  /-- FLOWCMD_DELETE_SLOT (R127): CLS_FLOWCMD GO with OP 5 queues a delete of one slot. -/
  | flowcmdDeleteSlot (m : Master) (slot : BitVec 18)
  /-- FLOWCMD_FLUSH (R127): CLS_FLOWCMD GO with OP 6 queues a flush of every entry whose PIN is 0. -/
  | flowcmdFlush (m : Master) (slot : BitVec 18)
  /-- FLOW_QUEUE_EXECUTE (R126): A queued flow operation executes: an insert is stored, displaced, refreshed or found existing, or a command completes with its RES. -/
  | flowQueueExecute
  /-- AGING_SWEEP (R128): The aging sweep visits a slot, removes an expired unpinned entry, counts it and optionally reports it. -/
  | agingSweep (slot : Fin 163840)
  /-- FORCED_RETIRE_EXPIRY (R136): A RETIRING generation's forced-retire timer expires with frames in flight; they become orphans and the sweep begins. -/
  | forcedRetireExpiry (g : Gen)
  /-- GENERATION_SWEEP_DONE (R137): The generation sweep completes; RETIRED sets, the retire interrupt is raised and the generation becomes FREE. -/
  | generationSweepDone (g : Gen)
  /-- TCAM_PARITY_CHECK (R138): The background check reads a TCAM entry; a parity error disables the entry, is logged and raises a degraded fault. -/
  | tcamParityCheck (e : Fin 4096) (bad : Bool)
  /-- FRAME_DISPATCH (R175): A classified frame enters its thread's dispatch queue, stalls the lane while the queue is full, or is trapped RTK_OFFLINE. -/
  | frameDispatch (f : FrameId)
  /-- THREAD_START (R177): An idle thread takes the head frame, reads its action record and starts the program with H and M loaded, or traps NO_ACTION or GEN_LOST. -/
  | threadStart (t : ThreadId)
  /-- LOOKUP_COMPLETE (R160): A lookup or meter request completes; its result words are written and the thread may become ready. -/
  | lookupComplete (t : ThreadId) (i : Fin 2)
  /-- PROGRAM_BUDGET_EXPIRY (R192): A thread reaches its program time limit and takes the trap BUDGET. -/
  | programBudgetExpiry (t : ThreadId)
  /-- RTK_IMAGE_LOAD (R194): RTK_LOADCTL GO starts loading a program image into the shadow program memory and data memory. -/
  | rtkImageLoad (m : Master) (entbase : BitVec 12) (commit : Bool)
  /-- PWC_IMAGE_LOAD (R172): GO on a PWC loader starts loading a profile C image while EN reads 0. -/
  | pwcImageLoad (m : Master) (d : Die)
  /-- WAK_IMAGE_LOAD (R172): GO on the WAK loader starts loading a profile W image while EN reads 0. -/
  | wakImageLoad (m : Master)
  /-- IMAGE_LOAD_DONE (R172): A load ends: the image is written, and committed if requested, or rejected with its RES. -/
  | imageLoadDone (l : Loader)
  /-- MEMORY_SCRUB (R195): At the memory scrub interval a memory word is read and a corrected value written back; an uncorrectable word is handled and reported. -/
  | memoryScrub (cell : MemCell) (uncorrectable : Bool)
  /-- STREAM_STAGE (R212): After FWD, step 6 identifies the stream, filters and meters it and applies its FRER function. -/
  | streamStage (f : FrameId)
  /-- FRER_RESET_TIMER (R217): No frame has passed for RESETMS; the recovery function sets take-any and counts RESETS. -/
  | frerResetTimer (f : Fin 1024)
  /-- FRER_WATCHDOG_EXPIRY (R218): The stream watchdog expires after WDMS plus grace; fault 0x2141 is raised. -/
  | frerWatchdogExpiry (f : Fin 1024)
  /-- METER_FILL (R215): A write of meter word 4 fills both buckets. -/
  | meterFill (m : Master) (n : Fin 1024) (data : Word)
  /-- SELCFG_WRITE (R203): A TM_SELCFG write is checked; an illegal CBSEN sets BADCFG and acts as 0. -/
  | selcfgWrite (m : Master) (p : Port) (data : Word)
  /-- SELECTION_OPPORTUNITY (R201): A port's MAC can start a frame; the TM selects an eligible queue by strict priority and DRR, and the frame starts. -/
  | selectionOpportunity (p : Port) (express : Bool) (latency : BitVec 16)
  /-- FRAME_TRANSMIT_END (R202): A frame's transmission ends; its length is charged to the DRR deficit and the next head is checked for fit and SDU. -/
  | frameTransmitEnd (p : Port) (express : Bool)
  /-- GATE_ENTRY_CHANGE (R205): A Slalom list entry's interval ends, or a cycle starts; the next entry's gate states apply. -/
  | gateEntryChange (p : ExtPort)
  /-- GATE_HOLD_ASSERT (R207): HOLDADV before an OP 1 entry the hold is asserted and preemptable frames are preempted. -/
  | gateHoldAssert (p : ExtPort)
  /-- LIST_CHANGE_TIME (R206): A pending timed list change reaches its change time and the new list becomes operational. -/
  | listChangeTime (p : ExtPort)
  /-- TIME_SAMPLE_SUBMIT (R227): TIM_SMPCTL GO submits an offset sample, which is rejected or applied by the servo and lock rules. -/
  | timeSampleSubmit (m : Master) (d : Fin 4)
  /-- SYNC_TIMEOUT (R229): A LOCKED domain has no accepted sample for SYNCTMO plus grace and enters HOLDOVER. -/
  | syncTimeout (d : Fin 4)
  /-- HOLDOVER_EXPIRY (R229): HOLDMAX passes without a sample; the domain becomes FREERUN and LOCK_LOSS is raised. -/
  | holdoverExpiry (d : Fin 4)
  /-- TIME_SET (R230): TIM_SETCTL GO sets a GRANDMASTER domain's time, as a step, or is rejected. -/
  | timeSet (m : Master) (d : Fin 4)
  /-- DOMAIN_ENABLE (R225): TIM_DOMCFG.EN written 1 starts the domain in FREERUN. -/
  | domainEnable (m : Master) (d : Fin 4)
  /-- DOMAIN_DISABLE (R225): TIM_DOMCFG.EN written 0 steps the domain to LT and clears its rate and anchor. -/
  | domainDisable (m : Master) (d : Fin 4)
  /-- TIME_SNAPSHOT (R240): TIM_SNAPCTL GO latches LT and all four working clocks in one TM cycle. -/
  | timeSnapshot (m : Master)
  /-- TIME_CONVERT (R236): TIM_CONVCTL GO converts an LT value with a domain's current parameters. -/
  | timeConvert (m : Master) (d : Fin 4)
  /-- LT_ALIGN_FLIT (R233): A timing flit every 1 µs aligns the Edge die's LT copy; a large realignment after retrain raises a fault. -/
  | ltAlignFlit (moved residual : Int)
  /-- TIME_IN_EDGE (R237): A TIME_IN edge is captured and, with DISC set, applied to the grandmaster domain. -/
  | timeInEdge (error : Int)
  /-- TIME_IN_LOSS (R237): No TIME_IN edge or cycle for the loss time; LOST sets and a degraded fault is raised. -/
  | timeInLoss
  /-- TIME_OUT_PULSE (R238): TIME_OUT drives its next 1PPS or 10 MHz edge from the working clock. -/
  | timeOutPulse
  /-- OSC_DEVIATION (R241): The reference oscillator deviates from the RC by more than 1,000 ppm; a critical fault is raised. -/
  | oscDeviation
  /-- LANE_MISMATCH (R248): A lane's partner comparison fails; the block is reissued and the lane goes out of service. -/
  | laneMismatch (lane : Fin 4)
  /-- LANE_RETURN_TEST (R248): 1 ms after removal a lane runs its known-answer test and returns to service if it passes. -/
  | laneReturnTest (lane : Fin 4) (pass : Bool)
  /-- ENTROPY_HEALTH_FAIL (R249): An entropy health test fails and the source is retried. -/
  | entropyHealthFail
  /-- ENTROPY_RETRY_EXPIRY (R249): The failure persists for 10 ms; SAs are disabled, jobs aborted and a critical fault raised. -/
  | entropyRetryExpiry
  /-- DRBG_RESEED (R249): After 2^20 requests or 1 s the DRBG reseeds. -/
  | drbgReseed
  /-- CIP_RNG_READ (R249): A read of CIP_RNG returns fresh DRBG bits. -/
  | cipRngRead (m : Master)
  /-- VLT_RNG_READ (R271): A read of VLT_RNG returns fresh bits from the vault's DRBG. -/
  | vltRngRead (m : Master)
  /-- SA_ENABLE (R253): A write to an SA context's EN enables it if its key is LOADED for MACsec, or disables it and clears DISABLED. -/
  | saEnable (m : Master) (sa : Fin 1024) (en : Bool)
  /-- KEY_CONTEXT_LOADED (R259): A key context finishes building its masked schedule and becomes LOADED. -/
  | keyContextLoaded (k : Fin 1280)
  /-- KEY_CLEAR (R259): CIP_KEYCMD CLEAR overwrites a key context and makes it REVOKED with cause 2. -/
  | keyClear (m : Master) (ctx : BitVec 11)
  /-- JOB_CLAIM (R260): CLAIM on a FREE job context makes it CLAIMED by the writer. -/
  | jobClaim (m : Master) (j : Fin 160)
  /-- JOB_GO (R261): GO queues a job, or refuses it with BAD_ARG. -/
  | jobGo (m : Master) (j : Fin 160)
  /-- JOB_START (R262): A queued job is scheduled on a lane once it has priority and, for decrypt, hold-buffer space. -/
  | jobStart (j : Fin 160)
  /-- JOB_ABORT (R264): ABORT stops a job at its next block boundary with ABORTED. -/
  | jobAbort (m : Master) (j : Fin 160)
  /-- JOB_RELEASE (R260): RELEASE returns a DONE or CLAIMED context to FREE. -/
  | jobRelease (m : Master) (j : Fin 160)
  /-- JOB_DONE (R264): A job ends DONE with its result; CIP_JOBDONE sets and the interrupt is raised if requested. -/
  | jobDone (j : Fin 160)
  /-- CONTEXT_ECC_ERROR (R268): An ECC error in a context memory is counted, or disables the SA or revokes the key. -/
  | contextEccError (c : CipherMem) (uncorrectable : Bool)
  /-- VAULT_READY (R273): Both roots are reconstructed and the vault leaves INIT for READY, or becomes DEAD. -/
  | vaultReady (rootOk identityOk : Bool)
  /-- PROVISION (R279): The vault checks a KPM and writes the slot and counter atomically, or rejects it. -/
  | provision (c : Fin 4)
  /-- DERIVE (R282): The vault derives a key from a slot into a cipher key context after its policy checks. -/
  | derive (c : Fin 4) (badTag : Option (Fin 512))
  /-- INVALIDATE (R284): The vault makes a slot and its descendants INVALID and signals the cipher engine. -/
  | invalidate (c : Fin 4)
  /-- OVERWRITE (R285): The vault invalidates a slot, overwrites its records and leaves it EMPTY. -/
  | overwrite (c : Fin 4)
  /-- EXTEND (R280): The vault extends a measurement register with a digest. -/
  | extend (c : Fin 4)
  /-- VERIFY (R287): The vault verifies a signature over a digest against an anchor. -/
  | verify (c : Fin 4)
  /-- ENROL (R287): In DEAD with the loop intact, the vault creates a new vault root and becomes READY with empty slots. -/
  | enrol (c : Fin 4)
  /-- TAMPER_SAMPLE (R476): Every 4 ms the AON monitor samples the tamper loop; two open samples detect tamper. -/
  | tamperSample (loopOpen : Bool)
  /-- VAULT_ZEROIZE_DONE (R289): The background overwrite of all records completes and the vault becomes DEAD. -/
  | vaultZeroizeDone
  /-- GLITCH_TRIP (R292): A glitch sensor trips; vault and cipher operations abort, and a third trip in 1 s starts the tamper response. -/
  | glitchTrip
  /-- CAN_FRAME_RECEIVED (R299): A CAN frame is accepted, timestamped and queued toward port 34, or counted as overrun. -/
  | canFrameReceived (c : Fin 16) (how : CanRx) (ident : BitVec 29) (flags : BitVec 5) (data : List Byte) (ago : BitVec 32)
  /-- LIN_HEADER_RECEIVED (R305): A LIN header arrives; a responder answers from a valid response buffer. -/
  | linHeaderReceived (l : Fin 8) (h : LinHeader)
  /-- LIN_FRAME_RECEIVED (R305): A LIN response is received, or fails, and is delivered toward port 34. -/
  | linFrameReceived (l : Fin 8) (ident : Fin 64) (data : List Byte) (err : LinError) (ago : BitVec 32)
  /-- LIN_SCHEDULE_SLOT (R305): A commander's schedule slot ends and the next entry's header is sent. -/
  | linScheduleSlot (l : Fin 8)
  /-- SER_FRAME_END (R306): A serial frame ends after GAP idle characters or MAXLEN bytes and is delivered. -/
  | serFrameEnd (c : Fin 4) (data : List Byte) (err : Bool) (ago : BitVec 32)
  /-- DIN_SAMPLE (R307): Every 100 µs the inputs are sampled and debounced; enabled edges send events. -/
  | dinSample (levels : BitVec 32)
  /-- AIN_CONVERSION (R307): An AIN conversion completes; threshold crossings send events. -/
  | ainConversion (i : Fin 16) (value : BitVec 12)
  /-- AIN_PERIODIC_REPORT (R307): Every PERIOD ms an AIN event is sent. -/
  | ainPeriodicReport (i : Fin 16)
  /-- GATEWAY_TX_FRAME (R300): A frame from port 34 is checked at the Edge die and enters its channel's transmit or response buffer, or is discarded. -/
  | gatewayTxFrame
  /-- CAN_TRANSMIT (R303): A buffered CAN frame wins arbitration and is transmitted, with an optional confirmation. -/
  | canTransmit (c : Fin 16) (x : CanSent)
  /-- CAN_TX_TIMEOUT (R300): A frame is not transmitted within TXTMO and returns with reason 2. -/
  | canTxTimeout (c : Fin 16)
  /-- CAN_BUS_OFF (R302): A CAN channel enters bus-off; its buffered frames return with reason 1. -/
  | canBusOff (c : Fin 16)
  /-- CAN_BUSOFF_RECOVERY (R302): After 128 × 11 recessive bits an auto-recovering channel rejoins the bus. -/
  | canBusoffRecovery (c : Fin 16)
  /-- CAN_DOMINANT_TIMEOUT (R301): The transceiver's TXD dominant time-out sets DOMTO and raises a degraded fault. -/
  | canDominantTimeout (c : Fin 16)
  /-- GWY_CHANNEL_ENABLE (R297): A channel's EN is written 1 and its configuration is sampled. -/
  | gwyChannelEnable (m : Master) (ch : GwyChan)
  /-- GWY_CHANNEL_DISABLE (R309): A channel's EN is written 0; it stops and its buffered frames return with reason 3. -/
  | gwyChannelDisable (m : Master) (ch : GwyChan)
  /-- CAN_SELECTIVE_WAKE (R304): In Slate a CAN frame matches a selective-wake filter, or the frame error counter overflows. -/
  | canSelectiveWake (c : Fin 8) (kind : CanWake) (ide : Bool) (ident : BitVec 29) (dlc : BitVec 4) (data : BitVec 64)
  /-- LIN_WAKE_PULSE (R392): In Slate a LIN wake pulse arrives on a channel with WAKEEN. -/
  | linWakePulse (l : Fin 8)
  /-- PCIE_LINK_UP (R312): The PCI Express link trains to L0. -/
  | pcieLinkUp (width : Fin 3) (speed : Fin 4) (vc1 : Bool)
  /-- PCIE_LINK_DOWN (R319): The link goes down; outstanding requests end, posted writes are discarded and logged. -/
  | pcieLinkDown (byPm : Bool)
  /-- OUTBOUND_REQUEST (R314): A master's access to an outbound window is checked, translated and queued to the link. -/
  | outboundRequest (m : Master) (addr : BitVec 40) (size : AccessSize) (write : Bool) (data : BitVec 64)
  /-- OUTBOUND_COMPLETION (R318): A completion for an outbound non-posted request arrives and ends the request. -/
  | outboundCompletion (id : Nat) (st : CplStatus) (data : List Byte)
  /-- COMPLETION_TIMEOUT (R322): An outbound non-posted request has no completion within US plus grace and ends in a bus error. -/
  | completionTimeout (id : Nat)
  /-- PCIE_REPLAY (R322): The data link layer replays; completion timers pause. -/
  | pcieReplay
  /-- INBOUND_REQUEST (R321): An inbound TLP is matched to an inbound window and passed to the system fabric, or refused. -/
  | inboundRequest (write urgent bar2 : Bool) (rid : BitVec 16) (addr : BitVec 64) (bytes : List (Option Byte))
  /-- ERROR_MESSAGE_RECEIVED (R319): An error message arrives; an error-log entry is written and ERR is raised. -/
  | errorMessageReceived (sev : Fin 3) (rid : BitVec 16) (failing : Option FailedRequest)
  /-- BRIDGE_BUFFER_ERROR (R323): An uncorrectable error in a bridge buffer discards the TLP and raises a fault. -/
  | bridgeBufferError (tlp : BufferTlp)
  /-- FENCE (R320): HBR_FENCE GO sends a zero-length read through an outbound window. -/
  | fence (m : Master) (w : Fin 64)
  /-- FENCE_DONE (R320): The fence completes and FENCESTAT.RES reports delivery. -/
  | fenceDone (st : CplStatus)
  /-- PREFETCH_EXPIRY (R317): Prefetched data unused for 10 µs is discarded and logged. -/
  | prefetchExpiry (k : Fin 16)
  /-- POLL_READ (R324): A poll descriptor's period elapses and its word is read, or the read is skipped. -/
  | pollRead (d : Fin 64)
  /-- POLL_COMPLETION (R324): A poll read completes; a hit or an error is recorded. -/
  | pollCompletion (d : Fin 64) (st : CplStatus) (data : List Byte)
  /-- SIGNAL_TRIGGER (R325): A write to HBR_SIGTRIG sends the selected signal writes or MSI-X messages. -/
  | signalTrigger (m : Master) (sig unmasked : Word)
  /-- RING_TAIL_WRITE (R326): A write of a ring TAIL hands descriptors to the bridge. -/
  | ringTailWrite (m : Master) (r : Fin 2) (tail : Word)
  /-- RING_TX_FRAME (R326): The bridge moves a transmit-ring frame into port 35 and clears OWN. -/
  | ringTxFrame (own : Bool) (tc : Fin 8) (len : BitVec 16) (bytes : List Byte)
  /-- RING_RX_FRAME (R326): A frame from port 35 fills an owned receive descriptor. -/
  | ringRxFrame (own : Bool) (buffer : BitVec 64)
  /-- MJPART_WRITE (R336): A write to MJPART is checked against HOME and sets the world and PMID of later accesses. -/
  | mjpartWrite (u : Fin 6) (v : Word)
  /-- SOFTWARE_INTERRUPT (R340): A write to CPX_SWIRQ asserts a software interrupt source. -/
  | softwareInterrupt (m : Master) (n : BitVec 9)
  /-- PAIR_RUN (R342): CPX_PAIRCTL.RUN written 1 releases a unit from reset after its self-test. -/
  | pairRun (m : Master) (u : Fin 6)
  /-- COMPARATOR_SELFTEST_DONE (R343): A pair's comparator self-test ends; a failure puts the pair OUT. -/
  | comparatorSelftestDone (u : Fin 6) (pass : Bool)
  /-- LOCKSTEP_MISMATCH (R344): An output mismatch isolates the pair and fails its partitions over to the survivor. -/
  | lockstepMismatch (u : Fin 6)
  /-- SPARE_RETURN_TEST (R347): 10 ms after isolation the pair self-tests and becomes SPARE or OUT. -/
  | spareReturnTest (u : Fin 6) (pass : Bool)
  /-- GROOMER_SCRUB (R348): At each Groomer interval the architectural-state signatures of a pair are compared. -/
  | groomerScrub (u : Fin 6) (agree : Bool)
  /-- RESYNC_DONE (R349): The checker has been resynchronised and the pair returns to RUNNING. -/
  | resyncDone (u : Fin 6)
  /-- CHECKPOINT_COMMIT (R345): A write to CPX_CKPTCOMMIT records a partition's checkpoint sequence number. -/
  | checkpointCommit (m : Master) (pmid : BitVec 6) (seq : BitVec 16)
  /-- DEBUG_OPEN (R351): CPX_DBGCTL GO checks a debug certificate and opens its scopes. -/
  | debugOpen (m : Master)
  /-- DEBUG_EXPIRY (R351): The RTC passes NOTAFTER and debug closes. -/
  | debugExpiry
  /-- DEBUG_HALT (R352): A halt request halts both copies of a pair at one retirement point. -/
  | debugHalt (u : Fin 6) (halt : Bool)
  /-- SEQ_TICK (R358): Every 100 µs the tick timers fire and the sense unit writes the mean-square words. -/
  | seqTick (samples : List ChanSample)
  /-- THETA_WRITE (R365): A write to PWC_THETA is checked for the floor and the trip limit, and may trip the channel with cause MODEL. -/
  | thetaWrite (m : Master) (n : Out) (v : Word)
  /-- MODEL_STALL (R365): An on channel's THETA is not written for 4 model steps; the channel enters hold. -/
  | modelStall (n : Out)
  /-- MODEL_SNAPSHOT (R366): Every PERIOD ms the model state is written to the older snapshot bank. -/
  | modelSnapshot
  /-- OFFSET_CALIBRATION (R361): An off interval of at least 200 µs ends and updates the channel's offset. -/
  | offsetCalibration (n : Out) (avg : Int)
  /-- CALIBRATION_STALE (R361): No offset or gain update for STALES seconds; CALSTALE sets and a fault is raised. -/
  | calibrationStale (n : Out) (gain : Bool)
  /-- GAIN_STEP (R362): A 100 mA reference step is superposed on the live current and the gain is measured. -/
  | gainStep (n : Out) (before during after : List Int)
  /-- FAST_LIMIT_TRIP (R356): The die's fast limit switches a channel off with cause FAST. -/
  | fastLimitTrip (n : Out)
  /-- THERMAL_SHUTDOWN (R371): A channel's junction reaches shutdown level and it switches off with cause THERM. -/
  | thermalShutdown (n : Out)
  /-- THERMAL_RESTART_READY (R371): In hysteresis mode the junction has cooled by the hysteresis and a restart is requested. -/
  | thermalRestartReady (n : Out)
  /-- ELEVATED_WINDOW_END (R368): The elevated window closes and the instantaneous level returns to INST. -/
  | elevatedWindowEnd (n : Out)
  /-- MOGUL_SUCCESS (R368): The channel has stayed on for WIN plus 100 ms; its retry count returns to 0. -/
  | mogulSuccess (n : Out)
  /-- MOGUL_RETRY_REQUEST (R369): SPACING after a trip a retry is requested, or the channel latches when none is left. -/
  | mogulRetryRequest (n : Out)
  /-- RESTART_SLOT (R370): Each millisecond the die arbiter grants waiting restarts by age, group and budget. -/
  | restartSlot (d : Die)
  /-- RUNOUT_TRIP (R373): A channel's Runout accumulator reaches its limit; the die latches it off with cause RUNOUT. -/
  | runoutTrip (n : Out)
  /-- DIE_OVERLOAD_SHED (R357): The die's 1 s average exceeds its effective limit and the highest sheddable channel is switched off. -/
  | dieOverloadShed (d : Die) (avgA : BitVec 8)
  /-- OPEN_LOAD (R356): An on-state or off-state open load is detected; OLON or OLOFF sets and the interrupt is raised. -/
  | openLoad (n : Out) (on : Bool)
  /-- LOAD_DUMP (R379): A feed rises above 40 V; the die's channels switch off with their states kept. -/
  | loadDump (d : Die)
  /-- LOAD_DUMP_END (R379): The feed has been below 37 V for 2 ms; desired channels are restored in restart slots. -/
  | loadDumpEnd (d : Die)
  /-- FEED_REVERSED (R379): A die's feed is reversed; its channels switch on in reverse and the die is reported lost. -/
  | feedReversed (d : Die)
  /-- GROUND_LOSS (R379): Both grounds are lost; channels switch off and the logic resets. -/
  | groundLoss
  /-- GROUND_SHIFT (R379): One ground is lost and the grounds differ by more than 1 V; GND_SHIFT is raised and limits may change. -/
  | groundShift
  /-- CHANNEL_SUPERVISION_EXPIRY (R455): A channel desired on stays off, unlatched and not in hold for 20 ms plus grace; fault 0x2415 is raised. -/
  | channelSupervisionExpiry (n : Out)
  /-- STATE_REQUEST_PEWTER (R387): WAK_STATECTL GO with REQ 2 moves the module from Ivory to Pewter. -/
  | stateRequestPewter (m : Master)
  /-- STATE_REQUEST_IVORY (R387): WAK_STATECTL GO with REQ 3 moves the module from Pewter to Ivory. -/
  | stateRequestIvory (m : Master)
  /-- TRANSITION_DONE (R389): A power-state transition completes and a STATE event is raised. -/
  | transitionDone
  /-- WAKE_PIN_EDGE (R392): A WAKE pin edge per WAK_PINCFG is a wake source event. -/
  | wakePinEdge (pin : Fin 4) (rising : Bool)
  /-- KEY_ASSERT (R392): KEY asserts; it is a wake source and may withhold consent. -/
  | keyAssert
  /-- RTC_ALARM (R392): An enabled RTC alarm fires, clears its EN and is a wake source. -/
  | rtcAlarm (a : Fin 2)
  /-- WAKE_TIMER_TICK (R395): Every WAK_WTMR ms a TIMER event is raised for the W program. -/
  | wakeTimerTick
  /-- FALSE_WAKE_TIMEOUT (R394): FWTMO passes without traffic while consent holds; the module returns to sleep and marks the wake FALSE. -/
  | falseWakeTimeout
  /-- RTC_SET (R386): WAK_RTCCTL GO sets the RTC seconds, clears ticks and makes it valid. -/
  | rtcSet (m : Master)
  /-- RTC_INVALID (R386): AON supply loss or an oscillator deviation clears RTC VALID. -/
  | rtcInvalid
  /-- VOTE_WRITE (R398): A write to WAK_CONSENT.VOTE changes consent and may be a wake request. -/
  | voteWrite (m : Master) (vote : BitVec 16)
  /-- CHAIR_START (R401): A leader with consent and SEGDONE 0 starts a CHAIR of the current epoch. -/
  | chairStart (top : Bool)
  /-- CHAIR_RECEIVED (R401): A CHAIR frame arrives; the node adopts a newer epoch, re-emits it, completes the ring or answers an older epoch with ABORT. -/
  | chairReceived (payload : List Byte) (addrTop : Bool) (can : Bool)
  /-- COMMIT_RECEIVED (R402): A COMMIT arrives; the node sets its deadline and re-floods it, or finds it void and sends ABORT. -/
  | commitReceived (payload : List Byte) (addrTop : Bool) (can : Bool) (residence : Nat)
  /-- ABORT_RECEIVED (R403): An ABORT arrives; a newer one is adopted, re-flooded and chairs restart. -/
  | abortReceived (payload : List Byte) (addrTop : Bool) (can : Bool)
  /-- CHAIR_TIMEOUT (R401): CHAIRTMO passes without a new copy and the origin re-emits the newest chair. -/
  | chairTimeout (top : Bool)
  /-- LEADER_TIMEOUT (R401): A backup sees no chair for LDRTMO and starts one itself, acting as leader. -/
  | leaderTimeout
  /-- MAXAWAKE_EXPIRY (R404): MAXAWAKE expires; the node overrides its own consent, or the origin overrides a stalled member. -/
  | maxawakeExpiry
  /-- COMMIT_DEADLINE (R390): A node's sleep deadline arrives with a valid COMMIT and entry into Slate or Umber begins. -/
  | commitDeadline
  /-- SLEEP_ENTRY_DONE (R391): Sleep entry completes with the Core die off; a held wake event then starts a wake. -/
  | sleepEntryDone
  /-- DOWAKE_TIMER (R403): 1 ms after the deadline a node that aborted late sends TC10 and CAN wake requests. -/
  | dowakeTimer
  /-- OPEN (R427): BOOT_SCMD OPEN reads a manifest and queues its verification. -/
  | openImage (m : Master) (ch : Fin 3)
  /-- MANIFEST_VERIFY_DONE (R428): A manifest verification completes; the first valid channel takes the lock and the remaining OPEN checks run. -/
  | manifestVerifyDone
  /-- STREAM (R429): BOOT_SCMD STREAM presents the next segment for verification and installation. -/
  | stream (m : Master) (ch : Fin 3)
  /-- SEGMENT_DONE (R429): A segment is verified and installed, or fails; after a component's last segment its hash is checked. -/
  | segmentDone (flashOk : Bool)
  /-- FINISH (R429): BOOT_SCMD FINISH writes the manifest so the slot becomes installed. -/
  | finish (m : Master) (ch : Fin 3)
  /-- ARM (R430): BOOT_SCMD ARM sets PENDING and TRIAL and the session becomes TRIAL. -/
  | arm (m : Master) (ch : Fin 3)
  /-- SESSION_ABORT (R426): BOOT_SCMD ABORT aborts the session, releases the lock and leaves the inactive slot empty. -/
  | sessionAbort (m : Master) (ch : Fin 3)
  /-- SESSION_TIMEOUT (R426): Ten minutes pass without progress and the session is aborted with TIMEOUT. -/
  | sessionTimeout
  /-- UPDATE_COMMIT (R431): BOOT_CTL COMMIT makes PENDING active, raises anti-rollback counters and records the update. -/
  | updateCommit (m : Master)
  /-- BOOT_ABORT (R431): BOOT_CTL ABORT aborts the session or clears TRIAL. -/
  | bootAbort (m : Master)
  /-- MRAM_WRITE (R409): A write of NVS_WDATAH stores one 64-bit word in the settings store, or is refused outside it. -/
  | mramWrite (m : Master) (data : Word)
  /-- BB_RECORD_WRITE (R434): A queued black-box record is committed to MRAM, skipping freeze areas, or is lost when the queue is full. -/
  | bbRecordWrite
  /-- SOFTWARE_RECORD (R434): NVS_BBCMD SWREC queues a software black-box record. -/
  | softwareRecord (m : Master) (code : BitVec 16)
  /-- BB_EXPORT (R437): A write of the export mark releases freeze areas, or is refused. -/
  | bbExport (m : Master) (data : Word)
  /-- BB_CLEAR (R438): NVS_BBCMD CLEAR checks a signed clear message and zeros the exported records. -/
  | bbClear (m : Master)
  /-- FAULT_REPORT (R452): The collector logs or coalesces a fault report, queues a black-box record and applies FAULT_N and the reactions. -/
  | faultReport
  /-- ISOLATE_TIMEOUT (R451): 2 ms after detection, what an ISOLATE reaction has not quiesced is stopped. -/
  | isolateTimeout
  /-- COLLECTOR_MISMATCH (R447): The two collector copies disagree; FAULT_N[0] asserts and a fatal fault is raised. -/
  | collectorMismatch
  /-- DATAPATH_CHECK (R445): A datapath stage's check code or idle check pattern fails and a critical fault is raised. -/
  | datapathCheck (stage : BitVec 32) (f : Option FrameId)
  /-- HARDWARE_MONITOR_TRIP (R444): A supply rail, junction temperature or island clock monitor leaves its window. -/
  | hardwareMonitorTrip (t : MonitorTrip)
  /-- WATCHDOG_ENABLE (R450): Writing 1 to FLT_WDOG.EN starts a unit's watchdog. -/
  | watchdogEnable (m : Master) (u : Fin 6)
  /-- WATCHDOG_KICK (R450): A write to FLT_WDKICK advances or completes the service sequence, or counts as expiry. -/
  | watchdogKick (m : Master) (u : Fin 6) (key : Word)
  /-- WATCHDOG_EXPIRY (R450): TIMEOUT passes without service; EXPIRED sets and the watchdog fault is raised. -/
  | watchdogExpiry (u : Fin 6)
  /-- FAULT_N1_RELEASE (R452): Writing 1 to FLT_FAULTN.N1 releases FAULT_N[1]. -/
  | faultN1Release (m : Master)
  /-- COUNTER_MODE_WRITE (R458): A write of MON_MODE changes the module-wide counter mode, or is refused. -/
  | counterModeWrite (m : Master) (mode : BitVec 2)
  /-- OVF_CLEAR (R459): Writing MON_OVFCLR clears OVF in every governed counter pair. -/
  | ovfClear (m : Master)
  /-- COUNTER_SNAPSHOT (R463): MON_SNAPCTL GO copies all MON counters into MON_SNAPVAL in one SYSTEM cycle. -/
  | counterSnapshot (m : Master)
  /-- PWM_EDGE (R377): At each rising-edge time of a PWM channel's schedule, the die starts the slew and a pending DUTY takes effect for that period. -/
  | pwmEdge (n : Out) (rising : Bool)
  /-- FEED_RETURN (R379): A feed that was out of range or reversed returns to its operating range while the module runs; FLT_GSTAT.SUPPLY clears and a reversed die returns with every channel off, ready to attach. -/
  | feedReturn (d : Die)
  /-- GROUND_RESTORE (R379): After the loss of both grounds, ground is restored; the module restarts with every channel off and a POWER wake record with sub-source 2. -/
  | groundRestore
  /-- FLOOR_TIMER_EXPIRY (R367): A channel's wire-model floor timer runs out, so FLOOR clears and later THETA writes below THCONT are stored as written. -/
  | floorTimerExpiry (n : Out)
  /-- SER_TRANSMIT (R306): An RS-485 channel transmits a frame from its transmit buffer, driving the line in half duplex, and returns a confirmation when TXCONF is set. -/
  | serTransmit (x : SerSent)
  /-- KEY_DEASSERT (R398): The KEY input deasserts, so KEY no longer withholds consent and the node's CONSENT may become true. -/
  | keyDeassert
  /-- PERST_N_CHANGE (R478): In endpoint mode the PERST_N input changes level: low holds the PCI Express link in reset, and release lets it train. -/
  | perstNChange (level : Bool)
  deriving DecidableEq, Repr

end Sys2Proof
end

