-- ==== Sys2Proof/Decode.lean ====
section
/-!
DEFINITION. The words of commands. The table of operations gives no row any bits, so no table word spells a
command. The words of a Ritik program do spell commands (R145 to R159): their decoder, which rejects
every other word as ILLEGAL, and an encoder from the same tables.
-/

namespace Sys2Proof

/-- The command that a word spells by the bits of the table of operations: the table gives none. -/
def decodeTableWord (_nbits _w : Nat) : Option Instr := none

/-! ## Fields of a Ritik word (R145 to R150) -/

/-- The field of `n` bits of a word, lowest bit `lo`. -/
def fieldOf (w : Word) (lo n : Nat) : Nat := w.toNat / 2 ^ lo % 2 ^ n

/-- A register field. -/
def gprAt (w : Word) (lo : Nat) : Gpr := Fin.ofNat 16 (fieldOf w lo 4)

/-- A word of formats A and X: format, opcode, RD, RA, RB, and the low 12 bits. -/
def regWord (fmt op rd ra rb arg : Nat) : Word :=
  BitVec.ofNat 32 (fmt * 2 ^ 29 + op * 2 ^ 24 + rd * 2 ^ 20 + ra * 2 ^ 16 + rb * 2 ^ 12 + arg)

/-- A word of format I. -/
def immWord (op rd ra imm : Nat) : Word :=
  BitVec.ofNat 32 (2 ^ 29 + op * 2 ^ 24 + rd * 2 ^ 20 + ra * 2 ^ 16 + imm)

/-- A word of format B. -/
def branchWord (cond link off : Nat) : Word :=
  BitVec.ofNat 32 (2 * 2 ^ 29 + cond * 2 ^ 25 + link * 2 ^ 24 + off)

/-- A word of format M. -/
def memWord (op rd ra sp sz off : Nat) : Word :=
  BitVec.ofNat 32
    (3 * 2 ^ 29 + op * 2 ^ 24 + rd * 2 ^ 20 + ra * 2 ^ 16 + sp * 2 ^ 14 + sz * 2 ^ 12 + off)

/-- The code of a condition (R148). -/
def condCode : Cond → Nat
  | .eq => 0 | .ne => 1 | .hs => 2 | .lo => 3 | .mi => 4 | .pl => 5 | .vs => 6 | .vc => 7
  | .hi => 8 | .ls => 9 | .ge => 10 | .lt => 11 | .gt => 12 | .le => 13 | .al => 14

/-- The condition of a code; 0xF is reserved. -/
def condOf (n : Nat) : Option Cond :=
  [Cond.eq, .ne, .hs, .lo, .mi, .pl, .vs, .vc, .hi, .ls, .ge, .lt, .gt, .le, .al][n]?

/-- The codes of the spaces and of the sizes (R149). -/
def spaceCode : MemSpace → Nat
  | .d => 0 | .h => 1 | .m => 2
def sizeCode : MemSize → Nat
  | .byte => 0 | .half => 1 | .word => 2

/-- The space and the size of a code; 3 is reserved. -/
def spaceOf (n : Nat) : Option MemSpace := [MemSpace.d, .h, .m][n]?
def sizeOf (n : Nat) : Option MemSize := [MemSize.byte, .half, .word][n]?

/-! ## The decoder -/

/-- The command, when the fields it does not use are 0; else ILLEGAL (R145). -/
def orIllegal (t : ThreadId) (ok : Bool) (i : Instr) : Option Instr := some (if ok then i else .illegal ⟨t, false⟩)

/-- Format A (R153): `rd`, `ra`, `rb` are the fields, and the low bits must be 0. -/
def decodeA (t : ThreadId) (w : Word) : Option Instr :=
  let rd := gprAt w 20
  let ra := gprAt w 16
  let rb := gprAt w 12
  let z := fieldOf w 0 12 == 0
  match fieldOf w 24 5 with
  | 1 => orIllegal t z (.add t rd ra rb)
  | 2 => orIllegal t z (.sub t rd ra rb)
  | 3 => orIllegal t z (.and t rd ra rb)
  | 4 => orIllegal t z (.or t rd ra rb)
  | 5 => orIllegal t z (.xor t rd ra rb)
  | 6 => orIllegal t z (.shl t rd ra rb)
  | 7 => orIllegal t z (.shr t rd ra rb)
  | 8 => orIllegal t z (.sar t rd ra rb)
  | 9 => orIllegal t z (.ror t rd ra rb)
  | 10 => orIllegal t z (.mul t rd ra rb)
  | 11 => orIllegal t z (.mulq t rd ra rb)
  | 12 => orIllegal t z (.adds t rd ra rb)
  | 13 => orIllegal t z (.subs t rd ra rb)
  | 16 => orIllegal t z (.min t rd ra rb)
  | 17 => orIllegal t z (.max t rd ra rb)
  | 20 => orIllegal t z (.csupd t rd ra rb)
  | 14 => orIllegal t (z && rd == 0) (.cmp t ra rb)
  | 15 => orIllegal t (z && rd == 0) (.tst t ra rb)
  | 18 => orIllegal t (z && rb == 0) (.clz t rd ra)
  | 19 => orIllegal t (z && rb == 0) (.popc t rd ra)
  | 21 => orIllegal t (z && rd == 0 && rb == 0) (.jr t ra)
  | 22 => orIllegal t (z && rd == 0 && rb == 0) (.jlr t ra)
  | 23 => orIllegal t (z && ra == 0) (.rds t rd rb)
  | 24 => orIllegal t (z && rd == 0 && rb == 0) (.wrf t ra)
  | _ => some (.illegal ⟨t, false⟩)

/-- Format I (R154). -/
def decodeI (t : ThreadId) (w : Word) : Option Instr :=
  let rd := gprAt w 20
  let ra := gprAt w 16
  let imm : BitVec 16 := BitVec.ofNat 16 (fieldOf w 0 16)
  let n : Fin 32 := Fin.ofNat 32 (fieldOf w 0 5)
  let wm1 : Fin 32 := Fin.ofNat 32 (fieldOf w 5 5)
  match fieldOf w 24 5 with
  | 0 => some (.addi t rd ra imm)
  | 1 => some (.andi t rd ra imm)
  | 2 => some (.ori t rd ra imm)
  | 3 => some (.xori t rd ra imm)
  | 4 => orIllegal t (fieldOf w 5 11 == 0) (.shli t rd ra n)
  | 5 => orIllegal t (fieldOf w 5 11 == 0) (.shri t rd ra n)
  | 6 => orIllegal t (fieldOf w 5 11 == 0) (.sari t rd ra n)
  | 7 => orIllegal t (ra == 0) (.movi t rd imm)
  | 8 => orIllegal t (ra == 0) (.movhi t rd imm)
  | 9 => orIllegal t (rd == 0) (.cmpi t ra imm)
  | 10 => orIllegal t (rd == 0) (.tsti t ra imm)
  | 11 => orIllegal t (fieldOf w 10 6 == 0) (.ext t rd ra n wm1)
  | 12 => orIllegal t (fieldOf w 10 6 == 0) (.ins t rd ra n wm1)
  | _ => some (.illegal ⟨t, false⟩)

/-- Format B (R148). -/
def decodeB (t : ThreadId) (w : Word) : Option Instr :=
  let off : BitVec 24 := BitVec.ofNat 24 (fieldOf w 0 24)
  match condOf (fieldOf w 25 4) with
  | some c => some (if fieldOf w 24 1 = 1 then .blCond t c off else .bCond t c off)
  | none => some (.illegal ⟨t, false⟩)

/-- Format M (R149, R156): an M-space access is of a word. -/
def decodeM (t : ThreadId) (w : Word) : Option Instr :=
  let rd := gprAt w 20
  let ra := gprAt w 16
  let off : BitVec 12 := BitVec.ofNat 12 (fieldOf w 0 12)
  match spaceOf (fieldOf w 14 2), sizeOf (fieldOf w 12 2) with
  | some sp, some sz =>
    let ok := sp != .m || sz == .word
    match fieldOf w 24 5 with
    | 0 => orIllegal t ok (.ld t rd ra sp sz off)
    | 1 => orIllegal t ok (.lds t rd ra sp sz off)
    | 2 => orIllegal t ok (.st t rd ra sp sz off)
    | 3 => orIllegal t (sp == .d && sz == .word) (.aadd t rd ra off)
    | 4 => orIllegal t (sp == .d && sz == .word) (.aswp t rd ra off)
    | _ => some (.illegal ⟨t, false⟩)
  | _, _ => some (.illegal ⟨t, false⟩)

/-- PDCMD by its command code (R359); another code takes UNIT and has no row of its own: the row ILLEGAL stands
for it, with `unit` set.
DESIGN CHOICE, safe (log entry 122). -/
def decodePd (t : ThreadId) (ra rb : Gpr) (code : Nat) : Option Instr :=
  match code with
  | 1 => some (.on t ra rb)
  | 2 => some (.off t ra rb)
  | 3 => some (.duty t ra rb)
  | 4 => some (.trip t ra rb)
  | 5 => some (.clear t ra rb)
  | 6 => some (.thmode t ra rb)
  | 7 => some (.hold t ra rb)
  | 8 => some (.attach t ra rb)
  | 9 => some (.runoutclr t ra rb)
  | 10 => some (.calgain t ra rb)
  | _ => some (.illegal ⟨t, true⟩)

/-- PWRQ by ra[3:0] (R395); a code from 4 on takes UNIT in each of its rows. -/
def decodePwrq (t : ThreadId) (ra : Gpr) (code : Nat) : Instr :=
  match code with
  | 1 => .pwrqSlate t ra
  | 2 => .pwrqPewter t ra
  | 3 => .pwrqIvory t ra
  | _ => .pwrqUmber t ra

/-- Format X (R157 to R159): `val` is what the thread's registers hold. -/
def decodeX (t : ThreadId) (val : Gpr → Word) (w : Word) : Option Instr :=
  let rd := gprAt w 20
  let ra := gprAt w 16
  let rb := gprAt w 12
  let arg := fieldOf w 0 12
  let m : Fin 64 := Fin.ofNat 64 (fieldOf w 0 6)
  let nod := rd == 0
  let noa := ra == 0
  let nob := rb == 0
  let no := nod && noa && nob && arg == 0
  match fieldOf w 24 5 with
  | 1 => orIllegal t no (.yield t)
  | 2 => orIllegal t (nod && nob)
      (.lkup t ra (Fin.ofNat 32 (fieldOf w 6 5)) m (fieldOf w 11 1 == 1))
  | 3 => orIllegal t no (.waitl t)
  | 4 => orIllegal t (nod && nob && fieldOf w 8 4 == 0)
      (.meter t ra m (Fin.ofNat 4 (fieldOf w 6 2)))
  | 5 => orIllegal t (nod && nob && arg == 0) (.cnt t ra)
  | 6 => orIllegal t (noa && nob && fieldOf w 4 8 == 0)
      (.time t rd (Fin.ofNat 4 (fieldOf w 0 2)) (Fin.ofNat 4 (fieldOf w 2 2)))
  | 7 => orIllegal t (nod && arg == 0) (.hpush t ra rb)
  | 8 => orIllegal t (nod && arg == 0) (.hpop t ra rb)
  | 9 => orIllegal t (arg == 0) (.csumh t rd ra rb)
  | 10 => orIllegal t (nod && fieldOf w 3 9 == 0 && (fieldOf w 2 1 == 1 || nob))
      (.tsins t ra rb (Fin.ofNat 4 (fieldOf w 0 2)) (fieldOf w 2 1 == 1))
  | 11 => orIllegal t (nod && nob && arg == 0) (.seal t ra)
  | 12 => orIllegal t (nod && arg == 0) (.learn t ra rb)
  | 13 => orIllegal t no (.fwd t)
  | 14 => orIllegal t (nod && noa && nob && fieldOf w 8 4 == 0) (.drop t (BitVec.ofNat 8 (fieldOf w 0 8)))
  | 15 => orIllegal t (nod && noa && nob && fieldOf w 9 3 == 0)
      (.trap t (BitVec.ofNat 8 (fieldOf w 0 8)) (fieldOf w 8 1 == 1))
  | 16 => orIllegal t (nod && nob && fieldOf w 1 11 == 0 && (fieldOf w 0 1 == 1 || noa))
      (.recirc t ra (fieldOf w 0 1 == 1))
  | 17 => orIllegal t (nob && fieldOf w 2 10 == 0) (.sns t rd ra (Fin.ofNat 4 (fieldOf w 0 2)))
  | 18 => if nod && fieldOf w 8 4 == 0 then decodePd t ra rb (fieldOf w 0 8) else some (.illegal ⟨t, false⟩)
  | 19 => orIllegal t no (.tick t)
  | 20 => orIllegal t (nob && arg == 0) (.waite t rd ra)
  | 21 => orIllegal t (nod && nob && arg == 0) (decodePwrq t ra ((val ra).toNat % 16))
  | 22 => orIllegal t no (.exit t)
  | 23 => orIllegal t no (.brk t)
  | _ => some (.illegal ⟨t, false⟩)

/-- The command that thread `t` issues for a program word (R145). -/
def ritikDecode (t : ThreadId) (val : Gpr → Word) (w : Word) : Option Instr :=
  match fieldOf w 29 3 with
  | 0 => decodeA t w
  | 1 => decodeI t w
  | 2 => decodeB t w
  | 3 => decodeM t w
  | 4 => decodeX t val w
  | _ => some (.illegal ⟨t, false⟩)

/-! ## The encoder -/

/-- A word of format X. -/
def unitWord (op : Nat) (rd ra rb : Gpr) (arg : Nat) : Word := regWord 4 op rd.val ra.val rb.val arg

/-- A Bool as a bit. -/
def bitOf (b : Bool) : Nat := if b then 1 else 0

/-- The program word of a Ritik instruction; none for every other command. -/
def ritikEncode (i : Instr) : Option Word :=
  match i with
  | .add _ rd ra rb => some (regWord 0 1 rd.val ra.val rb.val 0)
  | .sub _ rd ra rb => some (regWord 0 2 rd.val ra.val rb.val 0)
  | .and _ rd ra rb => some (regWord 0 3 rd.val ra.val rb.val 0)
  | .or _ rd ra rb => some (regWord 0 4 rd.val ra.val rb.val 0)
  | .xor _ rd ra rb => some (regWord 0 5 rd.val ra.val rb.val 0)
  | .shl _ rd ra rb => some (regWord 0 6 rd.val ra.val rb.val 0)
  | .shr _ rd ra rb => some (regWord 0 7 rd.val ra.val rb.val 0)
  | .sar _ rd ra rb => some (regWord 0 8 rd.val ra.val rb.val 0)
  | .ror _ rd ra rb => some (regWord 0 9 rd.val ra.val rb.val 0)
  | .mul _ rd ra rb => some (regWord 0 10 rd.val ra.val rb.val 0)
  | .mulq _ rd ra rb => some (regWord 0 11 rd.val ra.val rb.val 0)
  | .adds _ rd ra rb => some (regWord 0 12 rd.val ra.val rb.val 0)
  | .subs _ rd ra rb => some (regWord 0 13 rd.val ra.val rb.val 0)
  | .min _ rd ra rb => some (regWord 0 16 rd.val ra.val rb.val 0)
  | .max _ rd ra rb => some (regWord 0 17 rd.val ra.val rb.val 0)
  | .csupd _ rd ra rb => some (regWord 0 20 rd.val ra.val rb.val 0)
  | .cmp _ ra rb => some (regWord 0 14 0 ra.val rb.val 0)
  | .tst _ ra rb => some (regWord 0 15 0 ra.val rb.val 0)
  | .clz _ rd ra => some (regWord 0 18 rd.val ra.val 0 0)
  | .popc _ rd ra => some (regWord 0 19 rd.val ra.val 0 0)
  | .jr _ ra => some (regWord 0 21 0 ra.val 0 0)
  | .jlr _ ra => some (regWord 0 22 0 ra.val 0 0)
  | .rds _ rd sel => some (regWord 0 23 rd.val 0 sel.val 0)
  | .wrf _ ra => some (regWord 0 24 0 ra.val 0 0)
  | .addi _ rd ra imm => some (immWord 0 rd.val ra.val imm.toNat)
  | .andi _ rd ra imm => some (immWord 1 rd.val ra.val imm.toNat)
  | .ori _ rd ra imm => some (immWord 2 rd.val ra.val imm.toNat)
  | .xori _ rd ra imm => some (immWord 3 rd.val ra.val imm.toNat)
  | .shli _ rd ra n => some (immWord 4 rd.val ra.val n.val)
  | .shri _ rd ra n => some (immWord 5 rd.val ra.val n.val)
  | .sari _ rd ra n => some (immWord 6 rd.val ra.val n.val)
  | .movi _ rd imm => some (immWord 7 rd.val 0 imm.toNat)
  | .movhi _ rd imm => some (immWord 8 rd.val 0 imm.toNat)
  | .cmpi _ ra imm => some (immWord 9 0 ra.val imm.toNat)
  | .tsti _ ra imm => some (immWord 10 0 ra.val imm.toNat)
  | .ext _ rd ra p wm1 => some (immWord 11 rd.val ra.val (p.val + 32 * wm1.val))
  | .ins _ rd ra p wm1 => some (immWord 12 rd.val ra.val (p.val + 32 * wm1.val))
  | .bCond _ c off => some (branchWord (condCode c) 0 off.toNat)
  | .blCond _ c off => some (branchWord (condCode c) 1 off.toNat)
  | .ld _ rd ra sp sz off => some (memWord 0 rd.val ra.val (spaceCode sp) (sizeCode sz) off.toNat)
  | .lds _ rd ra sp sz off => some (memWord 1 rd.val ra.val (spaceCode sp) (sizeCode sz) off.toNat)
  | .st _ rd ra sp sz off => some (memWord 2 rd.val ra.val (spaceCode sp) (sizeCode sz) off.toNat)
  | .aadd _ rd ra off => some (memWord 3 rd.val ra.val 0 2 off.toNat)
  | .aswp _ rd ra off => some (memWord 4 rd.val ra.val 0 2 off.toNat)
  | .yield _ => some (unitWord 1 0 0 0 0)
  | .lkup _ ra tbl m async =>
    some (unitWord 2 0 ra 0 (m.val + 64 * tbl.val + 2048 * bitOf async))
  | .waitl _ => some (unitWord 3 0 0 0 0)
  | .meter _ ra m pre => some (unitWord 4 0 ra 0 (m.val + 64 * pre.val))
  | .cnt _ ra => some (unitWord 5 0 ra 0 0)
  | .time _ rd sel dom => some (unitWord 6 rd 0 0 (sel.val + 4 * dom.val))
  | .hpush _ ra rb => some (unitWord 7 0 ra rb 0)
  | .hpop _ ra rb => some (unitWord 8 0 ra rb 0)
  | .csumh _ rd ra rb => some (unitWord 9 rd ra rb 0)
  | .tsins _ ra rb fmt adj => some (unitWord 10 0 ra rb (fmt.val + 4 * bitOf adj))
  | .seal _ ra => some (unitWord 11 0 ra 0 0)
  | .learn _ ra rb => some (unitWord 12 0 ra rb 0)
  | .fwd _ => some (unitWord 13 0 0 0 0)
  | .drop _ why => some (unitWord 14 0 0 0 why.toNat)
  | .trap _ code tgt => some (unitWord 15 0 0 0 (code.toNat + 256 * bitOf tgt))
  | .recirc _ ra st => some (unitWord 16 0 ra 0 (bitOf st))
  | .sns _ rd ra q => some (unitWord 17 rd ra 0 q.val)
  | .tick _ => some (unitWord 19 0 0 0 0)
  | .waite _ rd ra => some (unitWord 20 rd ra 0 0)
  | .pwrqUmber _ ra | .pwrqSlate _ ra | .pwrqPewter _ ra | .pwrqIvory _ ra =>
    some (unitWord 21 0 ra 0 0)
  | .exit _ => some (unitWord 22 0 0 0 0)
  | .brk _ => some (unitWord 23 0 0 0 0)
  | .on _ ra rb => some (unitWord 18 0 ra rb 1)
  | .off _ ra rb => some (unitWord 18 0 ra rb 2)
  | .duty _ ra rb => some (unitWord 18 0 ra rb 3)
  | .trip _ ra rb => some (unitWord 18 0 ra rb 4)
  | .clear _ ra rb => some (unitWord 18 0 ra rb 5)
  | .thmode _ ra rb => some (unitWord 18 0 ra rb 6)
  | .hold _ ra rb => some (unitWord 18 0 ra rb 7)
  | .attach _ ra rb => some (unitWord 18 0 ra rb 8)
  | .runoutclr _ ra rb => some (unitWord 18 0 ra rb 9)
  | .calgain _ ra rb => some (unitWord 18 0 ra rb 10)
  | _ => none

end Sys2Proof
end

