-- ==== Sys2Proof/Config.lean ====
section
/-!
DEFINITION. What the specification leaves open or takes from outside: the free values and the
cryptographic functions it names by their standards. Each is opaque: nothing in Lean can
evaluate it, so a statement that holds, holds for every choice of it.
-/

namespace Sys2Proof.Config

/-- The n-th fresh 32-bit draw of a random source (R249, R271) or other open value. -/
opaque freeWord : Nat → Word

/-- The n-th open choice of a bounded or unbounded number. -/
opaque freeNat : Nat → Nat

/-- The n-th open yes-or-no choice. -/
opaque freeBool : Nat → Bool

/-- SHA-384 (FIPS 180-4): the 48-byte digest of a message.
DEDUCED, safe (log entry 5). -/
opaque sha384 : List Byte → List Byte

/-- HMAC-SHA-384 (FIPS 198-1) of a message under a key. -/
opaque hmac384 : List Byte → List Byte → List Byte

/-- AES-GCM encryption (SP 800-38D): key, IV, additional data, plaintext; ciphertext. -/
opaque gcmEncrypt : List Byte → List Byte → List Byte → List Byte → List Byte

/-- The AES-GCM tag: key, IV, additional data, ciphertext; 16 bytes. -/
opaque gcmTag : List Byte → List Byte → List Byte → List Byte → List Byte

/-- AES-GCM decryption: key, IV, ciphertext; plaintext. -/
opaque gcmDecrypt : List Byte → List Byte → List Byte → List Byte

/-- AES-CMAC (SP 800-38B): key, message; 16 bytes. -/
opaque cmac : List Byte → List Byte → List Byte

/-- AES-CTR (SP 800-38A): key, initial counter block, data. -/
opaque ctr : List Byte → List Byte → List Byte → List Byte

/-- AES-XTS (IEEE 1619) of one data unit: encrypt flag, key 1, key 2, tweak, data. -/
opaque xts : Bool → List Byte → List Byte → List Byte → List Byte → List Byte

/-- ECDSA P-384 verification: public key, digest, signature r and s. -/
opaque ecdsaVerify : List Byte → List Byte → List Byte → Bool

/-- The ECDH P-384 shared secret of a private key and a public key. -/
opaque ecdh : List Byte → List Byte → List Byte

/-- The bytes are an uncompressed SEC1 point of the curve P-384. -/
opaque onCurve : List Byte → Bool

/-- The identity root of the module, and the n-th vault root enrolled (R270).
DESIGN CHOICE, unsafe (log entry 148). -/
opaque identityRoot : List Byte
opaque vaultRoot : Nat → List Byte

/-- The bytes of the vault record that the n-th enrolment makes: the helper data of its root (R270). -/
opaque helperByte : Nat → Nat → Byte

/-- A key derived from the vault root: for integrity (0) and the two of the encryption (1, 2) (R271). -/
opaque vaultKey : List Byte → Nat → List Byte

/-- The keyed position of a slot's records under the vault root (R271). -/
opaque vaultPosition : List Byte → Nat → Nat

/-- The random bits that FIPS 186-5 appendix A.2.1 takes from the identity root (R275). -/
opaque identityBits : List Byte → Nat

/-- The public key of a P-384 private scalar: X and Y, 96 bytes. -/
opaque ecPublic : List Byte → List Byte

/-- AES key unwrap: key-encryption key, wrapped key; the key, or none when its check fails. -/
opaque keyUnwrap : List Byte → List Byte → Option (List Byte)


/-- Frames that the transmit buffer of a serial channel holds beyond one: its size is not given (R300,
R306).
DESIGN CHOICE, safe (log entry 85). -/
opaque serBuffer : Nat

/-- Bytes of the 128-bit unique identifier VLT_UID, word by word. -/
opaque uidWord : Nat → Word

end Sys2Proof.Config
end

