-- ==== Sys2Proof/Machine/Bits.lean ====
section
/-!
DEFINITION. Bit fields, sign extension and byte order: the helpers every register access,
frame parse and instruction uses.
-/

namespace Sys2Proof.Machine

/-- The field of `width` bits of a word, lowest bit `lo`, as a number. -/
def getBits (x : Word) (lo width : Nat) : Nat := x.toNat / 2 ^ lo % 2 ^ width

/-- The word with the field of `width` bits at `lo` replaced by `v` (its low `width` bits). -/
def setBits (x : Word) (lo width v : Nat) : Word :=
  BitVec.ofNat 32
    (x.toNat - getBits x lo width * 2 ^ lo + v % 2 ^ width * 2 ^ lo)

/-- Bit `b` of a word. -/
def getBit (x : Word) (b : Nat) : Bool := x.getLsbD b

/-- A Bool as a bit. -/
def b2n (b : Bool) : Nat := if b then 1 else 0

/-- The word with bit `b` set to `v`. -/
def putBit (x : Word) (b : Nat) (v : Bool) : Word := setBits x b 1 (b2n v)

/-- A number of `width` bits read as two's complement. -/
def signed (width n : Nat) : Int :=
  if n % 2 ^ width < 2 ^ (width - 1) then (n % 2 ^ width : Nat)
  else (n % 2 ^ width : Nat) - (2 ^ width : Nat)

/-- An integer as a word, modulo 2^32. -/
def wordOfInt (i : Int) : Word := BitVec.ofInt 32 i

/-- An integer limited to `[lo, hi]`. -/
def clampInt (lo hi i : Int) : Int := if i < lo then lo else if hi < i then hi else i

/-- A number limited from below and above: settings that act as the nearest legal value. -/
def clampNat (lo hi n : Nat) : Nat := if n < lo then lo else if hi < n then hi else n

/-- Byte `k` of a number, least significant first. -/
def byteOf (n k : Nat) : Byte := BitVec.ofNat 8 (n / 2 ^ (8 * k))

/-- `len` bytes of a number, least significant first (registers and MRAM, R7). -/
def bytesLE (len n : Nat) : List Byte := (List.range len).map (byteOf n)

/-- `len` bytes of a number in network order (R7). -/
def bytesBE (len n : Nat) : List Byte := (bytesLE len n).reverse

/-- The number that bytes in network order spell. -/
def natBE (bs : List Byte) : Nat := bs.foldl (fun acc b => acc * 256 + b.toNat) 0

/-- The number that little-endian bytes spell. -/
def natLE (bs : List Byte) : Nat := natBE bs.reverse

/-- `len` bytes from offset `off`; bytes beyond the end read 0. -/
def bytesAt (bs : List Byte) (off len : Nat) : List Byte :=
  (List.range len).map (fun k => bs.getD (off + k) 0)

/-- The number in network order at offset `off`; bytes beyond the end read 0. -/
def natAt (bs : List Byte) (off len : Nat) : Nat := natBE (bytesAt bs off len)

/-- The list with element `k` replaced; unchanged when there is none. -/
def setAt {α : Type} : List α → Nat → α → List α
  | [], _, _ => []
  | _ :: t, 0, v => v :: t
  | h :: t, k + 1, v => h :: setAt t k v

/-- The FCS of a frame under IEEE 802.3: the reflected CRC-32, as a number whose low byte is sent first. -/
def crc32 (bs : List Byte) : Nat :=
  (bs.foldl (fun crc b => (List.range 8).foldl
    (fun c _ => if c % 2 = 1 then (c / 2) ^^^ 0xEDB88320 else c / 2) (crc ^^^ b.toNat)) 0xFFFFFFFF) ^^^
    0xFFFFFFFF

/-- One step of the reflected CRC-32C (R171): a byte folded in, bit by bit. -/
def crc32cByte (crc : Nat) (b : Byte) : Nat :=
  (List.range 8).foldl
    (fun c _ => if c % 2 = 1 then (c / 2) ^^^ 0x82F63B78 else c / 2) (crc ^^^ b.toNat)

/-- CRC-32C over bytes from a starting register value, with the final inversion (R119). -/
def crc32cWith (start : Nat) (bs : List Byte) : Nat := (bs.foldl crc32cByte start) ^^^ 0xFFFFFFFF

/-- CRC-32C over bytes: reflected, initial value and final inversion 0xFFFF_FFFF (R171). -/
def crc32c (bs : List Byte) : Nat := crc32cWith 0xFFFFFFFF bs

/-- An item put into a sorted list, before the first entry it may precede. -/
def insertBy {α : Type} (le : α → α → Bool) (x : α) : List α → List α
  | [] => [x]
  | y :: rest => if le x y then x :: y :: rest else y :: insertBy le x rest

/-- A list put in order; equal entries keep their order. -/
def sortBy {α : Type} (le : α → α → Bool) (l : List α) : List α := l.foldr (insertBy le) []

end Sys2Proof.Machine
end

