-- ==== Sys2Proof/Machine/RegMap.lean ====
section
/-!
DEFINITION. The register map: for every block index of R27, the rows of registers its chapter
gives, each with the bit ranges, access types (R8) and reset values of its register table.
One row stands for an array of words; a word that no row covers is reserved or unimplemented
(R28). A field whose write is a row of the command table is typed `own`: REGISTER_WRITE leaves it.
-/

namespace Sys2Proof.Machine

/-- The access types of R8, and `own` for a field whose write is a command of its own. -/
inductive FieldType where
  | rw | ro | wo | w1c | w1s | cfg | snap | own
  deriving DecidableEq, Repr

/-- A bit field of a register: lowest bit, width, access type, reset value. -/
structure FieldDesc where
  lo : Nat
  width : Nat
  ty : FieldType
  reset : Nat
  deriving DecidableEq, Repr

/-- A condition, beyond the access types, under which a row refuses or ignores a write. -/
inductive Gate where
  /-- No condition beyond R8. -/
  | open
  /-- Port page registers sampled at PEN (R73). -/
  | pen
  /-- Field-bus channel registers sampled at the channel's EN (R297). -/
  | gwyCh
  /-- An SA context is written only while its EN is 0 (R253). -/
  | saEn
  /-- Shadow bank of the block's operating table `t` (R38, R40). -/
  | table (t : Nat)
  /-- A locked region descriptor (R46). -/
  | rgnLock
  /-- SYS_BLKWORLD under SYS_WORLDLOCK (R45). -/
  | worldLock
  /-- HOME fields under CPX_PARTLOCK (R338, R339). -/
  | partLock
  /-- The partition table: CPX_PARTLOCK and the table's commit (R338). -/
  | partTbl
  /-- MON_VAL, written only in TEST (R461). -/
  | monTest
  /-- A job context, written by its owner while CLAIMED (R260). -/
  | jobOwner
  /-- Tightly coupled memory of a real-time pair (R334). -/
  | tcm
  /-- An update channel's registers (R425). -/
  | updCh
  deriving DecidableEq, Repr

/-- One row of a register table: words at `base + i * s1 + j * s2` for `i < n1`, `j < n2`.
`pair` marks a word of a counter or timestamp pair, where R30 allows a 64-bit access. -/
structure Row where
  base : Nat
  n1 : Nat
  s1 : Nat
  n2 : Nat
  s2 : Nat
  gate : Gate
  pair : Bool
  fields : List FieldDesc
  deriving DecidableEq, Repr

/-- The outer index of an offset in a row. -/
def Row.outer (r : Row) (off : Nat) : Nat := (off - r.base) / r.s1

/-- The inner index of an offset in a row. -/
def Row.inner (r : Row) (off : Nat) : Nat := (off - r.base - r.outer off * r.s1) / r.s2

/-- The row covers the word at `off`. -/
def Row.covers (r : Row) (off : Nat) : Bool :=
  decide (r.base ≤ off) && decide (r.outer off < r.n1) && decide (r.inner off < r.n2) &&
    decide (off = r.base + r.outer off * r.s1 + r.inner off * r.s2)

/-- The header words every block instance begins with (R28): BLK_ID, BLK_CTRL, BLK_STATUS and
BLK_DENYADDR. -/
def headerRows (typ inst : Nat) : List Row :=
  [ ⟨0x0, 1, 0, 1, 0, .open, false, [⟨16, 16, .ro, typ⟩, ⟨8, 8, .ro, 2⟩, ⟨0, 8, .ro, inst⟩]⟩,
    ⟨0x4, 1, 0, 1, 0, .open, false, [⟨0, 1, .own, 0⟩]⟩,
    ⟨0x8, 1, 0, 1, 0, .open, false, [⟨0, 1, .w1c, 0⟩, ⟨1, 1, .ro, 0⟩]⟩,
    ⟨0xC, 1, 0, 1, 0, .open, false, [⟨0, 20, .ro, 0⟩, ⟨20, 6, .ro, 0⟩]⟩ ]

/-- BLK_COMMIT and BLK_COMMITSTAT of a block with operating tables (R38). -/
def commitRows : List Row :=
  [ ⟨0x10, 1, 0, 1, 0, .open, false,
      [⟨0, 8, .wo, 0⟩, ⟨8, 8, .wo, 0⟩, ⟨16, 2, .wo, 0⟩, ⟨31, 1, .own, 0⟩]⟩,
    ⟨0x14, 1, 0, 1, 0, .open, false,
      [⟨0, 1, .ro, 0⟩, ⟨1, 1, .w1c, 0⟩, ⟨2, 1, .w1c, 0⟩, ⟨4, 2, .ro, 0⟩, ⟨8, 8, .ro, 0⟩]⟩ ]

/-- The registers of block index 0x00, beyond its header. -/
def rows00 : List Row :=
  [
    -- SYS_CAPS (R48): CIP PWC_A PWC_B P4_11 VARIANT
    ⟨0x10, 1, 0x0, 1, 0x0, .open, false, [⟨0, 1, .ro, 0⟩, ⟨1, 1, .ro, 0⟩, ⟨2, 1, .ro, 0⟩, ⟨3, 1, .ro, 0⟩, ⟨8, 8, .ro, 0⟩]⟩,
    -- SYS_BERRADDRL (R49): ADDR
    ⟨0x20, 1, 0x0, 1, 0x0, .open, false, [⟨0, 32, .ro, 0⟩]⟩,
    -- SYS_BERRADDRH (R49): ADDR
    ⟨0x24, 1, 0x0, 1, 0x0, .open, false, [⟨0, 8, .ro, 0⟩]⟩,
    -- SYS_BERRINFO (R49): MASTER WORLD WRITE CAUSE OVF VALID
    ⟨0x28, 1, 0x0, 1, 0x0, .open, false, [⟨0, 6, .ro, 0⟩, ⟨6, 1, .ro, 0⟩, ⟨7, 1, .ro, 0⟩, ⟨8, 3, .ro, 0⟩, ⟨30, 1, .w1c, 0⟩, ⟨31, 1, .w1c, 0⟩]⟩,
    -- SYS_BLKWORLD (R45): W
    ⟨0x40, 4, 0x4, 1, 0x0, .worldLock, false, [⟨0, 32, .rw, 0xffffffff⟩]⟩,
    -- SYS_WORLDLOCK (R45): LOCK
    ⟨0x50, 1, 0x0, 1, 0x0, .open, false, [⟨0, 1, .w1s, 0⟩]⟩,
    -- SYS_RGNBASE (R46): BASE
    ⟨0x1000, 256, 0x10, 1, 0x0, .rgnLock, false, [⟨0, 28, .rw, 0⟩]⟩,
    -- SYS_RGNLIM (R46): LIMIT
    ⟨0x1004, 256, 0x10, 1, 0x0, .rgnLock, false, [⟨0, 28, .rw, 0⟩]⟩,
    -- SYS_RGNATTR (R46): EN WORLD RD WR EX LOCK
    ⟨0x1008, 256, 0x10, 1, 0x0, .rgnLock, false, [⟨0, 1, .rw, 0⟩, ⟨1, 1, .rw, 1⟩, ⟨2, 1, .rw, 0⟩, ⟨3, 1, .rw, 0⟩, ⟨4, 1, .rw, 0⟩, ⟨5, 1, .w1s, 0⟩]⟩
  ]

/-- The registers of block index 0x01, beyond its header. -/
def rows01 : List Row :=
  [
    -- FLT_GSTAT (R449): FLAGS GOK
    ⟨0x20, 1, 0x0, 1, 0x0, .open, false, [⟨0, 8, .ro, 0x42⟩, ⟨31, 1, .ro, 0⟩]⟩,
    -- FLT_SCRUB (R449): INTERVAL
    ⟨0x24, 1, 0x0, 1, 0x0, .open, false, [⟨0, 6, .rw, 8⟩]⟩,
    -- FLT_SAFECFG (R453): CHOFF
    ⟨0x28, 1, 0x0, 1, 0x0, .open, false, [⟨0, 1, .rw, 0⟩]⟩,
    -- FLT_FAULTN (R452): N0 N1
    ⟨0x2C, 1, 0x0, 1, 0x0, .open, false, [⟨0, 1, .ro, 1⟩, ⟨1, 1, .own, 0⟩]⟩,
    -- FLT_RECCFG (R455): PWCGRACE
    ⟨0x30, 1, 0x0, 1, 0x0, .open, false, [⟨0, 11, .rw, 0x1f4⟩]⟩,
    -- FLT_LOGHEAD (R448): HEAD OVF
    ⟨0x34, 1, 0x0, 1, 0x0, .open, false, [⟨0, 6, .ro, 0⟩, ⟨16, 16, .w1c, 0⟩]⟩,
    -- FLT_WDOG (R450): TIMEOUT EN EXPIRED
    ⟨0x40, 6, 0x4, 1, 0x0, .open, false, [⟨0, 16, .rw, 0x3e8⟩, ⟨16, 1, .own, 0⟩, ⟨17, 1, .ro, 0⟩]⟩,
    -- FLT_WDKICK (R450): KEY
    ⟨0x60, 6, 0x4, 1, 0x0, .open, false, [⟨0, 32, .own, 0⟩]⟩,
    -- CNT[FAULTS_INFO FAULTS_CORR FAULTS_DEGR FAULTS_CRIT FAULTS_FATAL COALESCED SAFESTOPS] LOW (R457): LOW
    ⟨0x100, 7, 0x8, 1, 0x0, .open, true, [⟨0, 32, .ro, 0⟩]⟩,
    -- CNT HIGH (R457): HIGH OVF WRAP
    ⟨0x104, 7, 0x8, 1, 0x0, .open, true, [⟨0, 30, .ro, 0⟩, ⟨30, 1, .ro, 0⟩, ⟨31, 1, .ro, 0⟩]⟩,
    -- FLT_REACT cls0-1 (R451): REACT
    ⟨0x400, 32, 0x4, 1, 0x0, .open, false, [⟨0, 6, .rw, 0⟩]⟩,
    -- FLT_REACT cls2 (R451): REACT
    ⟨0x480, 16, 0x4, 1, 0x0, .open, false, [⟨0, 6, .rw, 1⟩]⟩,
    -- FLT_REACT cls3 (R451): REACT
    ⟨0x4C0, 16, 0x4, 1, 0x0, .open, false, [⟨0, 6, .rw, 3⟩]⟩,
    -- FLT_REACT cls4 (R451): REACT
    ⟨0x500, 16, 0x4, 1, 0x0, .open, false, [⟨0, 6, .rw, 9⟩]⟩,
    -- FLT_LOG w0 (R448): CODE COUNT VALID
    ⟨0x1000, 64, 0x10, 1, 0x0, .open, false, [⟨0, 16, .ro, 0⟩, ⟨16, 15, .ro, 0⟩, ⟨31, 1, .w1c, 0⟩]⟩,
    -- FLT_LOG w1-3 (R448): W
    ⟨0x1004, 64, 0x10, 3, 0x4, .open, false, [⟨0, 32, .ro, 0⟩]⟩
  ]

/-- The registers of block index 0x02, beyond its header. -/
def rows02 : List Row :=
  [
    -- MON_MODE (R458): MODE
    ⟨0x20, 1, 0x0, 1, 0x0, .open, false, [⟨0, 2, .own, 0⟩]⟩,
    -- MON_SNAPCTL (R463): GO
    ⟨0x24, 1, 0x0, 1, 0x0, .open, false, [⟨31, 1, .own, 0⟩]⟩,
    -- MON_OVFCLR (R459): CLR
    ⟨0x28, 1, 0x0, 1, 0x0, .open, false, [⟨0, 1, .own, 0⟩]⟩,
    -- MON_CFG even (R460): EVENT EDGE CHAIN EN OVF
    ⟨0x10000, 768, 0x8, 1, 0x0, .open, false, [⟨0, 11, .rw, 0⟩, ⟨12, 1, .rw, 1⟩, ⟨13, 1, .rw, 0⟩, ⟨14, 1, .rw, 0⟩, ⟨15, 1, .w1c, 0⟩]⟩,
    -- MON_CFG odd (R460): EVENT EDGE EN OVF
    ⟨0x10004, 768, 0x8, 1, 0x0, .open, false, [⟨0, 11, .rw, 0⟩, ⟨12, 1, .rw, 1⟩, ⟨14, 1, .rw, 0⟩, ⟨15, 1, .w1c, 0⟩]⟩,
    -- MON_VAL (R461): VALUE
    ⟨0x20000, 1536, 0x4, 1, 0x0, .monTest, true, [⟨0, 32, .rw, 0⟩]⟩,
    -- MON_SNAPVAL (R463): VALUE
    ⟨0x30000, 1536, 0x4, 1, 0x0, .open, true, [⟨0, 32, .ro, 0⟩]⟩
  ]

/-- The registers of block index 0x04, beyond its header. -/
def rows04 : List Row :=
  [
    -- PRT_MDIOCMD (R54): DATA REG PHYAD OP C45 COLL BUSY GO
    ⟨0x40, 1, 0x0, 1, 0x0, .open, false, [⟨0, 16, .rw, 0⟩, ⟨16, 5, .rw, 0⟩, ⟨21, 5, .rw, 0⟩, ⟨26, 2, .rw, 0⟩, ⟨28, 1, .rw, 0⟩, ⟨29, 1, .w1c, 0⟩, ⟨30, 1, .ro, 0⟩, ⟨31, 1, .own, 0⟩]⟩,
    -- PRT_MDIODATA (R54): DATA
    ⟨0x44, 1, 0x0, 1, 0x0, .open, false, [⟨0, 16, .ro, 0⟩]⟩,
    -- PRT_PEN (R73): PEN
    ⟨0x20, 1, 0x0, 1, 0x0, .open, false, [⟨0, 12, .own, 0⟩]⟩,
    -- PRT_PCTRL (R73): FCMODE PREEMPT LOOP CNTMODE
    ⟨0x10000, 12, 0x1000, 1, 0x0, .open, false, [⟨0, 2, .rw, 0⟩, ⟨2, 1, .rw, 0⟩, ⟨3, 1, .rw, 0⟩, ⟨4, 1, .ro, 1⟩]⟩,
    -- PRT_PMODE p0-3 (R73): MODE FEC ROLE
    ⟨0x10004, 4, 0x1000, 1, 0x0, .pen, false, [⟨0, 4, .rw, 1⟩, ⟨4, 2, .rw, 0⟩, ⟨6, 1, .rw, 0⟩]⟩,
    -- PRT_PMODE p4-11 (R73): MODE FEC ROLE
    ⟨0x14004, 8, 0x1000, 1, 0x0, .pen, false, [⟨0, 4, .rw, 2⟩, ⟨4, 2, .rw, 0⟩, ⟨6, 1, .rw, 0⟩]⟩,
    -- PRT_PSTAT (R70): LSTATE SPEED SQI PVSTAT PHYSTALE PLCAFALLBK BADMODE
    ⟨0x10008, 12, 0x1000, 1, 0x0, .open, false, [⟨0, 2, .ro, 0⟩, ⟨2, 4, .ro, 0⟩, ⟨6, 3, .ro, 0⟩, ⟨9, 2, .ro, 0⟩, ⟨11, 1, .ro, 0⟩, ⟨12, 1, .ro, 0⟩, ⟨13, 1, .w1c, 0⟩]⟩,
    -- PRT_PREEMPT (R73): EXPRESS ADDFRAG NOVERIFY VTIME
    ⟨0x1000C, 12, 0x1000, 1, 0x0, .pen, false, [⟨0, 8, .rw, 0xc0⟩, ⟨8, 2, .rw, 0⟩, ⟨10, 1, .rw, 0⟩, ⟨16, 8, .rw, 0xa⟩]⟩,
    -- PRT_PFCCFG (R73): QUANTA RXEN
    ⟨0x10010, 12, 0x1000, 1, 0x0, .pen, false, [⟨0, 16, .rw, 0xffff⟩, ⟨16, 8, .rw, 0xff⟩]⟩,
    -- PRT_PLCA (R73): NODEID NODECNT TOTMR BURST BURSTTMR
    ⟨0x10014, 12, 0x1000, 1, 0x0, .pen, false, [⟨0, 3, .rw, 0⟩, ⟨4, 4, .rw, 8⟩, ⟨8, 8, .rw, 0x20⟩, ⟨16, 8, .rw, 0⟩, ⟨24, 8, .rw, 0x80⟩]⟩,
    -- PRT_TC10 (R73): EN SLEEPREQ ACCEPT WAKEFWD
    ⟨0x10018, 12, 0x1000, 1, 0x0, .open, false, [⟨0, 1, .rw, 0⟩, ⟨1, 1, .own, 0⟩, ⟨2, 1, .rw, 0⟩, ⟨3, 1, .rw, 0⟩]⟩,
    -- PRT_MAXFRM (R73): MAX
    ⟨0x1001C, 12, 0x1000, 1, 0x0, .pen, false, [⟨0, 14, .rw, 0x5f2⟩]⟩,
    -- CNT[RX_FRAMES RX_BYTES TX_FRAMES TX_BYTES RX_FCS_ERR RX_RUNT RX_OVERSIZE RX_SYMBOL_ERR RX_MACCTRL RX_PFC_SCHED TX_PFC MMS_ASSY_ERR TX_EXCESS_COL TC10_DECLINE LINK_DOWN_CNT SCHUSS_STOMP] LOW (R74): LOW
    ⟨0x10100, 12, 0x1000, 16, 0x8, .open, true, [⟨0, 32, .ro, 0⟩]⟩,
    -- CNT HIGH (R74): HIGH OVF WRAP
    ⟨0x10104, 12, 0x1000, 16, 0x8, .open, true, [⟨0, 30, .ro, 0⟩, ⟨30, 1, .ro, 0⟩, ⟨31, 1, .ro, 0⟩]⟩,
    -- PRT_ELOG w0 (R76): TYPE TC LEN VALID
    ⟨0x10200, 12, 0x1000, 16, 0x10, .open, false, [⟨0, 8, .ro, 0⟩, ⟨8, 3, .ro, 0⟩, ⟨16, 15, .ro, 0⟩, ⟨31, 1, .w1c, 0⟩]⟩,
    -- PRT_ELOG w1 (R76): W
    ⟨0x10204, 12, 0x1000, 16, 0x10, .open, false, [⟨0, 32, .ro, 0⟩]⟩,
    -- PRT_ELOG w2 (R76): W
    ⟨0x10208, 12, 0x1000, 16, 0x10, .open, false, [⟨0, 32, .ro, 0⟩]⟩,
    -- PRT_ELOG w3 (R76): W
    ⟨0x1020C, 12, 0x1000, 16, 0x10, .open, false, [⟨0, 32, .ro, 0⟩]⟩,
    -- PRT_ELOGHEAD (R76): HEAD OVF
    ⟨0x10300, 12, 0x1000, 1, 0x0, .open, false, [⟨0, 4, .ro, 0⟩, ⟨16, 16, .w1c, 0⟩]⟩
  ]

/-- The registers of block index 0x05, beyond its header. -/
def rows05 : List Row :=
  [
    -- PRT_PEN (R73): PEN
    ⟨0x20, 1, 0x0, 1, 0x0, .open, false, [⟨0, 16, .own, 0⟩]⟩,
    -- PRT_PCTRL p12-19 (R73): FCMODE PREEMPT LOOP CNTMODE
    ⟨0x10000, 8, 0x1000, 1, 0x0, .open, false, [⟨0, 2, .rw, 0⟩, ⟨2, 1, .rw, 0⟩, ⟨3, 1, .rw, 0⟩, ⟨4, 1, .ro, 1⟩]⟩,
    -- PRT_PCTRL p20-27 (R73): FCMODE LOOP CNTMODE
    ⟨0x18000, 8, 0x1000, 1, 0x0, .open, false, [⟨0, 2, .rw, 0⟩, ⟨3, 1, .rw, 0⟩, ⟨4, 1, .ro, 1⟩]⟩,
    -- PRT_PMODE p12-19 (R73): MODE FEC ROLE
    ⟨0x10004, 8, 0x1000, 1, 0x0, .pen, false, [⟨0, 4, .rw, 8⟩, ⟨4, 2, .rw, 0⟩, ⟨6, 1, .rw, 0⟩]⟩,
    -- PRT_PMODE p20-27 (R73): MODE FEC ROLE
    ⟨0x18004, 8, 0x1000, 1, 0x0, .pen, false, [⟨0, 4, .rw, 0xa⟩, ⟨4, 2, .rw, 0⟩, ⟨6, 1, .rw, 0⟩]⟩,
    -- PRT_PSTAT (R70): LSTATE SPEED SQI PVSTAT PHYSTALE PLCAFALLBK BADMODE
    ⟨0x10008, 16, 0x1000, 1, 0x0, .open, false, [⟨0, 2, .ro, 0⟩, ⟨2, 4, .ro, 0⟩, ⟨6, 3, .ro, 0⟩, ⟨9, 2, .ro, 0⟩, ⟨11, 1, .ro, 0⟩, ⟨12, 1, .ro, 0⟩, ⟨13, 1, .w1c, 0⟩]⟩,
    -- PRT_PREEMPT (R73): EXPRESS ADDFRAG NOVERIFY VTIME
    ⟨0x1000C, 16, 0x1000, 1, 0x0, .pen, false, [⟨0, 8, .rw, 0xc0⟩, ⟨8, 2, .rw, 0⟩, ⟨10, 1, .rw, 0⟩, ⟨16, 8, .rw, 0xa⟩]⟩,
    -- PRT_PFCCFG (R73): QUANTA RXEN
    ⟨0x10010, 16, 0x1000, 1, 0x0, .pen, false, [⟨0, 16, .rw, 0xffff⟩, ⟨16, 8, .rw, 0xff⟩]⟩,
    -- PRT_PLCA (R73): NODEID NODECNT TOTMR BURST BURSTTMR
    ⟨0x10014, 16, 0x1000, 1, 0x0, .pen, false, [⟨0, 3, .rw, 0⟩, ⟨4, 4, .rw, 8⟩, ⟨8, 8, .rw, 0x20⟩, ⟨16, 8, .rw, 0⟩, ⟨24, 8, .rw, 0x80⟩]⟩,
    -- PRT_TC10 (R73): EN SLEEPREQ ACCEPT WAKEFWD
    ⟨0x10018, 16, 0x1000, 1, 0x0, .open, false, [⟨0, 1, .rw, 0⟩, ⟨1, 1, .own, 0⟩, ⟨2, 1, .rw, 0⟩, ⟨3, 1, .rw, 0⟩]⟩,
    -- PRT_MAXFRM (R73): MAX
    ⟨0x1001C, 16, 0x1000, 1, 0x0, .pen, false, [⟨0, 14, .rw, 0x5f2⟩]⟩,
    -- CNT[RX_FRAMES RX_BYTES TX_FRAMES TX_BYTES RX_FCS_ERR RX_RUNT RX_OVERSIZE RX_SYMBOL_ERR RX_MACCTRL RX_PFC_SCHED TX_PFC MMS_ASSY_ERR TX_EXCESS_COL TC10_DECLINE LINK_DOWN_CNT SCHUSS_STOMP] LOW (R74): LOW
    ⟨0x10100, 16, 0x1000, 16, 0x8, .open, true, [⟨0, 32, .ro, 0⟩]⟩,
    -- CNT HIGH (R74): HIGH OVF WRAP
    ⟨0x10104, 16, 0x1000, 16, 0x8, .open, true, [⟨0, 30, .ro, 0⟩, ⟨30, 1, .ro, 0⟩, ⟨31, 1, .ro, 0⟩]⟩,
    -- PRT_ELOG w0 (R76): TYPE TC LEN VALID
    ⟨0x10200, 16, 0x1000, 16, 0x10, .open, false, [⟨0, 8, .ro, 0⟩, ⟨8, 3, .ro, 0⟩, ⟨16, 15, .ro, 0⟩, ⟨31, 1, .w1c, 0⟩]⟩,
    -- PRT_ELOG w1 (R76): W
    ⟨0x10204, 16, 0x1000, 16, 0x10, .open, false, [⟨0, 32, .ro, 0⟩]⟩,
    -- PRT_ELOG w2 (R76): W
    ⟨0x10208, 16, 0x1000, 16, 0x10, .open, false, [⟨0, 32, .ro, 0⟩]⟩,
    -- PRT_ELOG w3 (R76): W
    ⟨0x1020C, 16, 0x1000, 16, 0x10, .open, false, [⟨0, 32, .ro, 0⟩]⟩,
    -- PRT_ELOGHEAD (R76): HEAD OVF
    ⟨0x10300, 16, 0x1000, 1, 0x0, .open, false, [⟨0, 4, .ro, 0⟩, ⟨16, 16, .w1c, 0⟩]⟩
  ]

/-- The registers of block index 0x06, beyond its header. -/
def rows06 : List Row :=
  [
    -- PRT_PEN (R73): PEN
    ⟨0x20, 1, 0x0, 1, 0x0, .open, false, [⟨0, 4, .own, 0⟩]⟩,
    -- PRT_PCTRL (R73): FCMODE LOOP CNTMODE
    ⟨0x10000, 4, 0x1000, 1, 0x0, .open, false, [⟨0, 2, .rw, 0⟩, ⟨3, 1, .rw, 0⟩, ⟨4, 1, .ro, 1⟩]⟩,
    -- PRT_PMODE p28-31 (R73): MODE FEC ROLE
    ⟨0x10004, 4, 0x1000, 1, 0x0, .pen, false, [⟨0, 4, .rw, 0xc⟩, ⟨4, 2, .rw, 0⟩, ⟨6, 1, .rw, 0⟩]⟩,
    -- PRT_PSTAT (R70): LSTATE SPEED SQI PVSTAT PHYSTALE PLCAFALLBK BADMODE
    ⟨0x10008, 4, 0x1000, 1, 0x0, .open, false, [⟨0, 2, .ro, 0⟩, ⟨2, 4, .ro, 0⟩, ⟨6, 3, .ro, 0⟩, ⟨9, 2, .ro, 0⟩, ⟨11, 1, .ro, 0⟩, ⟨12, 1, .ro, 0⟩, ⟨13, 1, .w1c, 0⟩]⟩,
    -- PRT_PREEMPT (R73): EXPRESS ADDFRAG NOVERIFY VTIME
    ⟨0x1000C, 4, 0x1000, 1, 0x0, .pen, false, [⟨0, 8, .rw, 0xc0⟩, ⟨8, 2, .rw, 0⟩, ⟨10, 1, .rw, 0⟩, ⟨16, 8, .rw, 0xa⟩]⟩,
    -- PRT_PFCCFG (R73): QUANTA RXEN
    ⟨0x10010, 4, 0x1000, 1, 0x0, .pen, false, [⟨0, 16, .rw, 0xffff⟩, ⟨16, 8, .rw, 0xff⟩]⟩,
    -- PRT_PLCA (R73): NODEID NODECNT TOTMR BURST BURSTTMR
    ⟨0x10014, 4, 0x1000, 1, 0x0, .pen, false, [⟨0, 3, .rw, 0⟩, ⟨4, 4, .rw, 8⟩, ⟨8, 8, .rw, 0x20⟩, ⟨16, 8, .rw, 0⟩, ⟨24, 8, .rw, 0x80⟩]⟩,
    -- PRT_TC10 (R73): EN SLEEPREQ ACCEPT WAKEFWD
    ⟨0x10018, 4, 0x1000, 1, 0x0, .open, false, [⟨0, 1, .rw, 0⟩, ⟨1, 1, .own, 0⟩, ⟨2, 1, .rw, 0⟩, ⟨3, 1, .rw, 0⟩]⟩,
    -- PRT_MAXFRM (R73): MAX
    ⟨0x1001C, 4, 0x1000, 1, 0x0, .pen, false, [⟨0, 14, .rw, 0x5f2⟩]⟩,
    -- CNT[RX_FRAMES RX_BYTES TX_FRAMES TX_BYTES RX_FCS_ERR RX_RUNT RX_OVERSIZE RX_SYMBOL_ERR RX_MACCTRL RX_PFC_SCHED TX_PFC MMS_ASSY_ERR TX_EXCESS_COL TC10_DECLINE LINK_DOWN_CNT SCHUSS_STOMP] LOW (R74): LOW
    ⟨0x10100, 4, 0x1000, 16, 0x8, .open, true, [⟨0, 32, .ro, 0⟩]⟩,
    -- CNT HIGH (R74): HIGH OVF WRAP
    ⟨0x10104, 4, 0x1000, 16, 0x8, .open, true, [⟨0, 30, .ro, 0⟩, ⟨30, 1, .ro, 0⟩, ⟨31, 1, .ro, 0⟩]⟩,
    -- PRT_ELOG w0 (R76): TYPE TC LEN VALID
    ⟨0x10200, 4, 0x1000, 16, 0x10, .open, false, [⟨0, 8, .ro, 0⟩, ⟨8, 3, .ro, 0⟩, ⟨16, 15, .ro, 0⟩, ⟨31, 1, .w1c, 0⟩]⟩,
    -- PRT_ELOG w1 (R76): W
    ⟨0x10204, 4, 0x1000, 16, 0x10, .open, false, [⟨0, 32, .ro, 0⟩]⟩,
    -- PRT_ELOG w2 (R76): W
    ⟨0x10208, 4, 0x1000, 16, 0x10, .open, false, [⟨0, 32, .ro, 0⟩]⟩,
    -- PRT_ELOG w3 (R76): W
    ⟨0x1020C, 4, 0x1000, 16, 0x10, .open, false, [⟨0, 32, .ro, 0⟩]⟩,
    -- PRT_ELOGHEAD (R76): HEAD OVF
    ⟨0x10300, 4, 0x1000, 1, 0x0, .open, false, [⟨0, 4, .ro, 0⟩, ⟨16, 16, .w1c, 0⟩]⟩
  ]

/-- The registers of block index 0x07, beyond its header. -/
def rows07 : List Row :=
  [
    -- PRT_PEN (R73): PEN
    ⟨0x20, 1, 0x0, 1, 0x0, .open, false, [⟨0, 5, .own, 0⟩]⟩,
    -- PRT_PCTRL (R73): LOOP CNTMODE
    ⟨0x10000, 5, 0x1000, 1, 0x0, .open, false, [⟨3, 1, .rw, 0⟩, ⟨4, 1, .ro, 1⟩]⟩,
    -- PRT_PMODE p32-36 (R73): MODE FEC ROLE
    ⟨0x10004, 5, 0x1000, 1, 0x0, .pen, false, [⟨0, 4, .ro, 0xf⟩, ⟨4, 2, .rw, 0⟩, ⟨6, 1, .rw, 0⟩]⟩,
    -- PRT_PSTAT (R70): LSTATE SPEED SQI PVSTAT PHYSTALE PLCAFALLBK BADMODE
    ⟨0x10008, 5, 0x1000, 1, 0x0, .open, false, [⟨0, 2, .ro, 0⟩, ⟨2, 4, .ro, 0⟩, ⟨6, 3, .ro, 0⟩, ⟨9, 2, .ro, 0⟩, ⟨11, 1, .ro, 0⟩, ⟨12, 1, .ro, 0⟩, ⟨13, 1, .w1c, 0⟩]⟩,
    -- PRT_PREEMPT (R73): EXPRESS ADDFRAG NOVERIFY VTIME
    ⟨0x1000C, 5, 0x1000, 1, 0x0, .pen, false, [⟨0, 8, .rw, 0xc0⟩, ⟨8, 2, .rw, 0⟩, ⟨10, 1, .rw, 0⟩, ⟨16, 8, .rw, 0xa⟩]⟩,
    -- PRT_PFCCFG (R73): QUANTA RXEN
    ⟨0x10010, 5, 0x1000, 1, 0x0, .pen, false, [⟨0, 16, .rw, 0xffff⟩, ⟨16, 8, .rw, 0xff⟩]⟩,
    -- PRT_PLCA (R73): NODEID NODECNT TOTMR BURST BURSTTMR
    ⟨0x10014, 5, 0x1000, 1, 0x0, .pen, false, [⟨0, 3, .rw, 0⟩, ⟨4, 4, .rw, 8⟩, ⟨8, 8, .rw, 0x20⟩, ⟨16, 8, .rw, 0⟩, ⟨24, 8, .rw, 0x80⟩]⟩,
    -- PRT_TC10 (R73): EN SLEEPREQ ACCEPT WAKEFWD
    ⟨0x10018, 5, 0x1000, 1, 0x0, .open, false, [⟨0, 1, .rw, 0⟩, ⟨1, 1, .own, 0⟩, ⟨2, 1, .rw, 0⟩, ⟨3, 1, .rw, 0⟩]⟩,
    -- PRT_MAXFRM (R73): MAX
    ⟨0x1001C, 5, 0x1000, 1, 0x0, .pen, false, [⟨0, 14, .rw, 0x5f2⟩]⟩,
    -- CNT[RX_FRAMES RX_BYTES TX_FRAMES TX_BYTES] LOW (R74): LOW
    ⟨0x10100, 5, 0x1000, 4, 0x8, .open, true, [⟨0, 32, .ro, 0⟩]⟩,
    -- CNT HIGH (R74): HIGH OVF WRAP
    ⟨0x10104, 5, 0x1000, 4, 0x8, .open, true, [⟨0, 30, .ro, 0⟩, ⟨30, 1, .ro, 0⟩, ⟨31, 1, .ro, 0⟩]⟩
  ]

/-- The registers of block index 0x08, beyond its header. -/
def rows08 : List Row :=
  [
    -- FAB_SCHED (R82): ACTIVE STBYOK SWAP
    ⟨0x20, 1, 0x0, 1, 0x0, .open, false, [⟨0, 1, .ro, 0⟩, ⟨1, 1, .ro, 1⟩, ⟨2, 1, .own, 0⟩]⟩,
    -- FAB_SCHEDMASK (R83): SCHED
    ⟨0x24, 1, 0x0, 1, 0x0, .open, false, [⟨0, 8, .cfg, 0xc0⟩]⟩,
    -- FAB_POOL (R83): FREE OVERCOMMIT
    ⟨0x28, 1, 0x0, 1, 0x0, .open, false, [⟨0, 16, .ro, 0⟩, ⟨16, 1, .ro, 0⟩]⟩,
    -- FAB_POOLTHR (R85): XOFF XON
    ⟨0x2C, 1, 0x0, 1, 0x0, .open, false, [⟨0, 16, .rw, 0x800⟩, ⟨16, 16, .rw, 0x1000⟩]⟩,
    -- FAB_DRIFTBASE (R90): BASE
    ⟨0x30, 1, 0x0, 1, 0x0, .open, false, [⟨0, 20, .cfg, 0x1000⟩]⟩,
    -- FAB_DRIFTSIZE (R90): MIB
    ⟨0x34, 1, 0x0, 1, 0x0, .open, false, [⟨0, 10, .cfg, 0⟩]⟩,
    -- FAB_DRIFTCLS (R91): SPILL
    ⟨0x38, 1, 0x0, 1, 0x0, .open, false, [⟨0, 8, .rw, 0x3f⟩]⟩,
    -- FAB_DRIFTSTAT (R90): CELLS AVAIL DRAINING BADREGION
    ⟨0x3C, 1, 0x0, 1, 0x0, .open, false, [⟨0, 22, .ro, 0⟩, ⟨24, 1, .ro, 0⟩, ⟨25, 1, .ro, 0⟩, ⟨26, 1, .w1c, 0⟩]⟩,
    -- FAB_DRIFTCAP (R93): PCT
    ⟨0x40, 1, 0x0, 1, 0x0, .open, false, [⟨0, 6, .cfg, 0x28⟩]⟩,
    -- FAB_LDHOLD (R98): MS TGT
    ⟨0x44, 1, 0x0, 1, 0x0, .open, false, [⟨0, 10, .rw, 0x32⟩, ⟨16, 1, .rw, 0⟩]⟩,
    -- FAB_SCHUSS (R99): EN
    ⟨0x48, 1, 0x0, 1, 0x0, .open, false, [⟨0, 1, .rw, 1⟩]⟩,
    -- CNT[SCHED_OVER SCHUSS_FWD SCHUSS_STOMP DRIFT_SPILL DRIFT_RETURN SCHED_RESYNC SCHED_SWAP MEM_LOSS LINKDOWN_REDIR NOADMIT DRIFT_CAPHIT] LOW (R105): LOW
    ⟨0x100, 11, 0x8, 1, 0x0, .open, true, [⟨0, 32, .ro, 0⟩]⟩,
    -- CNT HIGH (R105): HIGH OVF WRAP
    ⟨0x104, 11, 0x8, 1, 0x0, .open, true, [⟨0, 30, .ro, 0⟩, ⟨30, 1, .ro, 0⟩, ⟨31, 1, .ro, 0⟩]⟩,
    -- FAB_DRIFTLIM (R92): CELLS
    ⟨0x400, 37, 0x4, 1, 0x0, .open, false, [⟨0, 22, .rw, 0x200000⟩]⟩
  ]

/-- The registers of block index 0x09, beyond its header. -/
def rows09 : List Row :=
  [
    -- FAB_BUFCFG w0 (R85): XOFF XON
    ⟨0x1000, 37, 0x80, 8, 0x10, .open, false, [⟨0, 16, .rw, 0x100⟩, ⟨16, 16, .rw, 0xc0⟩]⟩,
    -- FAB_BUFCFG w1 (R83): HDRM
    ⟨0x1004, 37, 0x80, 8, 0x10, .open, false, [⟨0, 16, .cfg, 0x20⟩]⟩,
    -- FAB_BUFCFG w2 TC0-5 (R83): EGLIM EGRESUME
    ⟨0x1008, 37, 0x80, 6, 0x10, .open, false, [⟨0, 16, .cfg, 0x400⟩, ⟨16, 16, .rw, 0x300⟩]⟩,
    -- FAB_BUFCFG w2 TC6-7 (R83): EGLIM EGRESUME
    ⟨0x1068, 37, 0x80, 2, 0x10, .open, false, [⟨0, 16, .cfg, 0x40⟩, ⟨16, 16, .rw, 0x300⟩]⟩,
    -- FAB_BUFSTAT w0 (R85): INCELLS XOFFST HDRMUSE
    ⟨0x3000, 37, 0x80, 8, 0x10, .open, false, [⟨0, 16, .snap, 0⟩, ⟨16, 1, .snap, 0⟩, ⟨17, 1, .snap, 0⟩]⟩,
    -- FAB_BUFSTAT w1 (R85): EGCELLS CONG
    ⟨0x3004, 37, 0x80, 8, 0x10, .open, false, [⟨0, 16, .snap, 0⟩, ⟨16, 1, .snap, 0⟩]⟩,
    -- CNT[NOADMIT SCHED_OVER LINKDOWN_REDIR XOFF_EVENTS] LOW (R105): LOW
    ⟨0x5000, 37, 0x20, 4, 0x8, .open, true, [⟨0, 32, .ro, 0⟩]⟩,
    -- CNT HIGH (R105): HIGH OVF WRAP
    ⟨0x5004, 37, 0x20, 4, 0x8, .open, true, [⟨0, 30, .ro, 0⟩, ⟨30, 1, .ro, 0⟩, ⟨31, 1, .ro, 0⟩]⟩
  ]

/-- The registers of block index 0x0A, beyond its header. -/
def rows0A : List Row :=
  [
    -- FAB_VOQSTAT w0 (R80): CELLS DRIFT HELD ELIG
    ⟨0x1000, 2240, 0x8, 1, 0x0, .open, false, [⟨0, 16, .ro, 0⟩, ⟨29, 1, .ro, 0⟩, ⟨30, 1, .ro, 0⟩, ⟨31, 1, .ro, 0⟩]⟩,
    -- FAB_VOQSTAT w1 (R80): DCELLS
    ⟨0x1004, 2240, 0x8, 1, 0x0, .open, false, [⟨0, 22, .ro, 0⟩]⟩,
    -- FAB_MCQSTAT w0 (R80): CELLS DRIFT HELD ELIG
    ⟨0x6000, 56, 0x8, 1, 0x0, .open, false, [⟨0, 16, .ro, 0⟩, ⟨29, 1, .ro, 0⟩, ⟨30, 1, .ro, 0⟩, ⟨31, 1, .ro, 0⟩]⟩,
    -- FAB_MCQSTAT w1 (R80): DCELLS
    ⟨0x6004, 56, 0x8, 1, 0x0, .open, false, [⟨0, 22, .ro, 0⟩]⟩
  ]

/-- The registers of block index 0x0B, beyond its header. -/
def rows0B : List Row :=
  [
    -- FAB_MCGRP w0 (R96): PORTS_LO
    ⟨0x10000, 4096, 0x8, 1, 0x0, .table 1, false, [⟨0, 32, .rw, 0⟩]⟩,
    -- FAB_MCGRP w1 (R96): PORTS_HI
    ⟨0x10004, 4096, 0x8, 1, 0x0, .table 1, false, [⟨0, 5, .rw, 0⟩]⟩
  ]

/-- The registers of block index 0x0C, beyond its header. -/
def rows0C : List Row :=
  [
    -- CLS_GENCTL (R136): FORCE_MS FLOWREVAL
    ⟨0x20, 1, 0x0, 1, 0x0, .open, false, [⟨0, 10, .rw, 0x64⟩, ⟨16, 1, .rw, 0⟩]⟩,
    -- CLS_GENSTAT (R132): CUR STATE RETIRED FORCED
    ⟨0x24, 1, 0x0, 1, 0x0, .open, false, [⟨0, 2, .ro, 0⟩, ⟨2, 8, .ro, 1⟩, ⟨16, 4, .w1c, 0⟩, ⟨20, 4, .w1c, 0⟩]⟩,
    -- CLS_HASHSEED (R120): SEED
    ⟨0x2C, 1, 0x0, 1, 0x0, .open, false, [⟨0, 32, .cfg, 0⟩]⟩,
    -- CLS_EXCFG (R130): LEN DEPTH HDR CSUMACT FRAGTGT CSUMEN GLTGT
    ⟨0x30, 1, 0x0, 1, 0x0, .open, false, [⟨0, 2, .rw, 0⟩, ⟨2, 2, .rw, 0⟩, ⟨4, 2, .rw, 0⟩, ⟨6, 2, .rw, 0⟩, ⟨8, 1, .rw, 0⟩, ⟨9, 1, .rw, 0⟩, ⟨10, 1, .rw, 0⟩]⟩,
    -- CLS_GENINFL (R135): COUNT
    ⟨0x40, 4, 0x4, 1, 0x0, .open, false, [⟨0, 24, .ro, 0⟩]⟩,
    -- CNT[FRAG MAL_LEN MAL_DEPTH MAL_HDR MAL_CSUM MAL_DROP GEN_LOST TCAM_HIT TCAM_MISS FLOW_HIT FLOW_MISS FLOW_STALE FLOW_INSERT FLOW_EXISTS FLOW_REFRESH FLOW_FULL FLOW_AGED FLOW_OFF FLOW_ECC CT_INVALID] LOW (R139): LOW
    ⟨0x100, 20, 0x8, 1, 0x0, .open, true, [⟨0, 32, .ro, 0⟩]⟩,
    -- CNT HIGH (R139): HIGH OVF WRAP
    ⟨0x104, 20, 0x8, 1, 0x0, .open, true, [⟨0, 30, .ro, 0⟩, ⟨30, 1, .ro, 0⟩, ⟨31, 1, .ro, 0⟩]⟩,
    -- CLS_PORTCFG (R109): START ZONE
    ⟨0x400, 37, 0x4, 1, 0x0, .open, false, [⟨0, 6, .rw, 0⟩, ⟨8, 8, .rw, 0⟩]⟩,
    -- CLS_STATE w0 (R111): BASE LOFF LEN_EN LSHR LMASK LMUL
    ⟨0x10000, 64, 0x80, 1, 0x0, .table 1, false, [⟨0, 8, .rw, 0⟩, ⟨8, 7, .rw, 0⟩, ⟨15, 1, .rw, 0⟩, ⟨16, 3, .rw, 0⟩, ⟨19, 8, .rw, 0⟩, ⟨27, 4, .rw, 0⟩]⟩,
    -- CLS_STATE w1 (R111): KIND CSUM L3LEN TLOFF TLADJ FRAGCHK
    ⟨0x10004, 64, 0x80, 1, 0x0, .table 1, false, [⟨0, 4, .rw, 0⟩, ⟨4, 1, .rw, 0⟩, ⟨5, 1, .rw, 0⟩, ⟨6, 7, .rw, 0⟩, ⟨13, 8, .rw, 0⟩, ⟨21, 1, .rw, 0⟩]⟩,
    -- CLS_STATE w2-5 (R111): SRC DST XLEN XEN
    ⟨0x10008, 64, 0x80, 4, 0x4, .table 1, false, [⟨0, 7, .rw, 0⟩, ⟨7, 7, .rw, 0⟩, ⟨14, 5, .rw, 0⟩, ⟨19, 1, .rw, 0⟩]⟩,
    -- CLS_STATE w6 (R111): SOFF SEL16 DEFNEXT DEFKIND PROFILE
    ⟨0x10018, 64, 0x80, 1, 0x0, .table 1, false, [⟨0, 7, .rw, 0⟩, ⟨7, 1, .rw, 0⟩, ⟨8, 6, .rw, 0⟩, ⟨14, 2, .rw, 1⟩, ⟨16, 4, .rw, 0⟩]⟩,
    -- CLS_STATE w7+2t (R111): VALUE MASK
    ⟨0x1001C, 64, 0x80, 8, 0x8, .table 1, false, [⟨0, 16, .rw, 0⟩, ⟨16, 16, .rw, 0⟩]⟩,
    -- CLS_STATE w8+2t (R111): NEXT TKIND TVALID
    ⟨0x10020, 64, 0x80, 8, 0x8, .table 1, false, [⟨0, 6, .rw, 0⟩, ⟨6, 2, .rw, 0⟩, ⟨8, 1, .rw, 0⟩]⟩,
    -- CLS_PROFILE w0 (R113): BANKS WIDE FLOWEN PMEN MISSACT
    ⟨0x20000, 16, 0x80, 1, 0x0, .table 2, false, [⟨0, 8, .rw, 0⟩, ⟨8, 1, .rw, 0⟩, ⟨9, 1, .rw, 0⟩, ⟨10, 1, .rw, 0⟩, ⟨16, 16, .rw, 0⟩]⟩,
    -- CLS_PROFILE w1-19 (R113): SEL0 SEL1 SEL2 SEL3
    ⟨0x20004, 16, 0x80, 19, 0x4, .table 2, false, [⟨0, 7, .rw, 0x7f⟩, ⟨8, 7, .rw, 0x7f⟩, ⟨16, 7, .rw, 0x7f⟩, ⟨24, 7, .rw, 0x7f⟩]⟩
  ]

/-- The registers of block index 0x0D, beyond its header. -/
def rows0D : List Row :=
  [
    -- CLS_TCAMPAIR (R116): PAIR
    ⟨0x20, 1, 0x0, 1, 0x0, .open, false, [⟨0, 4, .cfg, 0⟩]⟩,
    -- CLS_TCAMCONF (R134): NUM FIRST
    ⟨0x24, 1, 0x0, 1, 0x0, .open, false, [⟨0, 13, .ro, 0⟩, ⟨16, 13, .ro, 0⟩]⟩,
    -- CLS_TCAMERR (R138): INDEX VALID
    ⟨0x28, 1, 0x0, 1, 0x0, .open, false, [⟨0, 12, .ro, 0⟩, ⟨31, 1, .w1c, 0⟩]⟩,
    -- CLS_TCAM w0-19 (R115): W
    ⟨0x10000, 4096, 0x80, 20, 0x4, .table 3, false, [⟨0, 32, .rw, 0⟩]⟩,
    -- CLS_TCAM w20 (R115): GENMASK OVERRIDE ACTION
    ⟨0x10050, 4096, 0x80, 1, 0x0, .table 3, false, [⟨0, 4, .rw, 0⟩, ⟨4, 1, .rw, 0⟩, ⟨16, 16, .rw, 0⟩]⟩
  ]

/-- The registers of block index 0x0E, beyond its header. -/
def rows0E : List Row :=
  [
    -- CLS_FLOWCMD (R127): OP SLOT RES BUSY GO
    ⟨0x20, 1, 0x0, 1, 0x0, .open, false, [⟨0, 3, .rw, 0⟩, ⟨3, 18, .rw, 0⟩, ⟨24, 4, .ro, 0⟩, ⟨30, 1, .ro, 0⟩, ⟨31, 1, .own, 0⟩]⟩,
    -- CLS_AGECFG (R128): SWEEP REPORT TGT
    ⟨0x30, 1, 0x0, 1, 0x0, .open, false, [⟨0, 6, .rw, 1⟩, ⟨8, 1, .rw, 0⟩, ⟨9, 1, .rw, 0⟩]⟩,
    -- CLS_AGETMO0 (R128): EST TCPOTHER
    ⟨0x34, 1, 0x0, 1, 0x0, .open, false, [⟨0, 16, .rw, 0xe10⟩, ⟨16, 16, .rw, 0x78⟩]⟩,
    -- CLS_AGETMO1 (R128): CLOSED NONTCP
    ⟨0x38, 1, 0x0, 1, 0x0, .open, false, [⟨0, 16, .rw, 0xa⟩, ⟨16, 16, .rw, 0x3c⟩]⟩,
    -- CLS_FLOWSTAT (R128): ENTRIES QDEPTH CLEARED
    ⟨0x3C, 1, 0x0, 1, 0x0, .open, false, [⟨0, 18, .ro, 0⟩, ⟨18, 11, .ro, 0⟩, ⟨31, 1, .w1c, 0⟩]⟩,
    -- CLS_FLOWDATA (R127): W
    ⟨0x40, 16, 0x4, 1, 0x0, .open, false, [⟨0, 32, .rw, 0⟩]⟩
  ]

/-- The registers of block index 0x0F, beyond its header. -/
def rows0F : List Row :=
  [
    -- CLS_PATTERN w0-7 (R114): W
    ⟨0x10000, 256, 0x40, 8, 0x4, .table 4, false, [⟨0, 32, .rw, 0⟩]⟩,
    -- CLS_PATTERN w8 (R114): PLEN ANCHOR OFFSET
    ⟨0x10020, 256, 0x40, 1, 0x0, .table 4, false, [⟨0, 5, .rw, 0⟩, ⟨5, 1, .rw, 0⟩, ⟨6, 6, .rw, 0⟩]⟩
  ]

/-- The registers of block index 0x10, beyond its header. -/
def rows10 : List Row :=
  [
    -- RTK_BUDGET (R192): UNITS
    ⟨0x20, 1, 0x0, 1, 0x0, .open, false, [⟨0, 16, .rw, 0x96⟩]⟩,
    -- RTK_EXCFG (R189): FLTTGT TC RCMAX
    ⟨0x24, 1, 0x0, 1, 0x0, .open, false, [⟨0, 1, .rw, 0⟩, ⟨1, 3, .rw, 1⟩, ⟨4, 3, .rw, 3⟩]⟩,
    -- RTK_DISPSTAT (R175): QUEUED STALL
    ⟨0x28, 1, 0x0, 1, 0x0, .open, false, [⟨0, 12, .snap, 0⟩, ⟨16, 1, .snap, 0⟩]⟩,
    -- RTK_LOADADDRL (R194): ADDR
    ⟨0x30, 1, 0x0, 1, 0x0, .open, false, [⟨0, 32, .rw, 0⟩]⟩,
    -- RTK_LOADADDRH (R194): ADDR
    ⟨0x34, 1, 0x0, 1, 0x0, .open, false, [⟨0, 8, .rw, 0⟩]⟩,
    -- RTK_LOADCTL (R194): ENTBASE COMMIT GO
    ⟨0x38, 1, 0x0, 1, 0x0, .open, false, [⟨0, 12, .rw, 0⟩, ⟨16, 1, .rw, 0⟩, ⟨31, 1, .own, 0⟩]⟩,
    -- RTK_LOADSTAT (R194): BUSY DONE RES
    ⟨0x3C, 1, 0x0, 1, 0x0, .open, false, [⟨0, 1, .ro, 0⟩, ⟨1, 1, .w1c, 0⟩, ⟨8, 4, .ro, 0⟩]⟩,
    -- CNT[DISPATCH DISP_STALL TRAP_PROG RTK_FAULT RTK_OFFLINE RECIRC RECIRC_LIMIT NO_ACTION EGR_MTU EXQ_REDIR LKUP_ERR BUDGET] LOW (R197): LOW
    ⟨0x100, 12, 0x8, 1, 0x0, .open, true, [⟨0, 32, .ro, 0⟩]⟩,
    -- CNT HIGH (R197): HIGH OVF WRAP
    ⟨0x104, 12, 0x8, 1, 0x0, .open, true, [⟨0, 30, .ro, 0⟩, ⟨30, 1, .ro, 0⟩, ⟨31, 1, .ro, 0⟩]⟩,
    -- RTK_PAIR frames/bytes LOW (R185): LOW
    ⟨0x10000, 2048, 0x8, 1, 0x0, .open, true, [⟨0, 32, .ro, 0⟩]⟩,
    -- RTK_PAIR frames/bytes HIGH (R185): HIGH OVF WRAP
    ⟨0x10004, 2048, 0x8, 1, 0x0, .open, true, [⟨0, 30, .ro, 0⟩, ⟨30, 1, .ro, 0⟩, ⟨31, 1, .ro, 0⟩]⟩,
    -- RTK_DROP LOW (R185): LOW
    ⟨0x14000, 256, 0x8, 1, 0x0, .open, true, [⟨0, 32, .ro, 0⟩]⟩,
    -- RTK_DROP HIGH (R185): HIGH OVF WRAP
    ⟨0x14004, 256, 0x8, 1, 0x0, .open, true, [⟨0, 30, .ro, 0⟩, ⟨30, 1, .ro, 0⟩, ⟨31, 1, .ro, 0⟩]⟩,
    -- RTK_TBLDESC w0 (R187): TYPE KLEN
    ⟨0x20000, 32, 0x10, 1, 0x0, .table 2, false, [⟨0, 2, .rw, 0⟩, ⟨2, 2, .rw, 0⟩]⟩,
    -- RTK_TBLDESC w1 (R187): BASEL
    ⟨0x20004, 32, 0x10, 1, 0x0, .table 2, false, [⟨0, 32, .rw, 0⟩]⟩,
    -- RTK_TBLDESC w2 (R187): BASEH
    ⟨0x20008, 32, 0x10, 1, 0x0, .table 2, false, [⟨0, 8, .rw, 0⟩]⟩,
    -- RTK_TBLDESC w3 (R187): COUNT
    ⟨0x2000C, 32, 0x10, 1, 0x0, .table 2, false, [⟨0, 24, .rw, 0⟩]⟩,
    -- RTK_PMEM (R193): W
    ⟨0x40000, 32768, 0x4, 1, 0x0, .table 3, false, [⟨0, 32, .rw, 0⟩]⟩,
    -- RTK_ENTRY (R193): PC
    ⟨0x60000, 4096, 0x4, 1, 0x0, .table 3, false, [⟨0, 15, .rw, 0⟩]⟩,
    -- RTK_ACTION w0 (R177): ENTRY HLOAD VALID
    ⟨0x80000, 16384, 0x20, 1, 0x0, .table 1, false, [⟨0, 12, .rw, 0⟩, ⟨12, 4, .rw, 4⟩, ⟨16, 1, .rw, 0⟩]⟩,
    -- RTK_ACTION w1-7 (R177): W
    ⟨0x80004, 16384, 0x20, 7, 0x4, .table 1, false, [⟨0, 32, .rw, 0⟩]⟩
  ]

/-- The registers of block index 0x11, beyond its header. -/
def rows11 : List Row :=
  [
    -- RTK_DBG (R169): DBGEN HALTED
    ⟨0x20, 1, 0x0, 1, 0x0, .open, false, [⟨0, 1, .ro, 0⟩, ⟨8, 8, .ro, 0⟩]⟩,
    -- RTK_THRSTAT (R197): STATE OUTST QLEN PC
    ⟨0x800, 64, 0x4, 1, 0x0, .open, false, [⟨0, 3, .ro, 0⟩, ⟨3, 2, .ro, 0⟩, ⟨5, 5, .ro, 0⟩, ⟨16, 15, .ro, 0⟩]⟩,
    -- RTK_DMEM (R144): W
    ⟨0x40000, 65536, 0x4, 1, 0x0, .open, false, [⟨0, 32, .rw, 0⟩]⟩
  ]

/-- The registers of block index 0x14, beyond its header. -/
def rows14 : List Row :=
  [
    -- TM_EXCFG (R219): TGT
    ⟨0x20, 1, 0x0, 1, 0x0, .open, false, [⟨0, 1, .rw, 0⟩]⟩,
    -- TM_QUIET (R211): PORT EN
    ⟨0x24, 1, 0x0, 1, 0x0, .open, false, [⟨0, 6, .rw, 0⟩, ⟨8, 1, .rw, 0⟩]⟩,
    -- TM_METER w0 (R215): CIR
    ⟨0x10000, 1024, 0x20, 1, 0x0, .open, false, [⟨0, 32, .rw, 0⟩]⟩,
    -- TM_METER w1 (R215): CBS
    ⟨0x10004, 1024, 0x20, 1, 0x0, .open, false, [⟨0, 24, .rw, 0⟩]⟩,
    -- TM_METER w2 (R215): EIR
    ⟨0x10008, 1024, 0x20, 1, 0x0, .open, false, [⟨0, 32, .rw, 0⟩]⟩,
    -- TM_METER w3 (R215): EBS
    ⟨0x1000C, 1024, 0x20, 1, 0x0, .open, false, [⟨0, 24, .rw, 0⟩]⟩,
    -- TM_METER w4 (R215): CF
    ⟨0x10010, 1024, 0x20, 1, 0x0, .open, false, [⟨0, 1, .own, 0⟩]⟩,
    -- TM_METER w5 (R215): BC
    ⟨0x10014, 1024, 0x20, 1, 0x0, .open, false, [⟨0, 24, .snap, 0⟩]⟩,
    -- TM_METER w6 (R215): BE
    ⟨0x10018, 1024, 0x20, 1, 0x0, .open, false, [⟨0, 24, .snap, 0⟩]⟩
  ]

/-- The registers of block index 0x15, beyond its header. -/
def rows15 : List Row :=
  [
    -- TM_PORTCFG (R204): GATEEN PREMODE DOMAIN HOLDADV
    ⟨0x10000, 37, 0x1000, 1, 0x0, .open, false, [⟨0, 1, .rw, 0⟩, ⟨1, 1, .rw, 1⟩, ⟨2, 2, .cfg, 0⟩, ⟨4, 8, .rw, 0⟩]⟩,
    -- TM_SELCFG (R201): STRICT CBSEN
    ⟨0x10004, 37, 0x1000, 1, 0x0, .open, false, [⟨0, 8, .own, 0xc0⟩, ⟨8, 8, .own, 0⟩]⟩,
    -- TM_ADMINLEN (R206): LEN
    ⟨0x10008, 37, 0x1000, 1, 0x0, .open, false, [⟨0, 11, .rw, 1⟩]⟩,
    -- TM_BASENS (R206): NS
    ⟨0x1000C, 37, 0x1000, 1, 0x0, .open, false, [⟨0, 30, .rw, 0⟩]⟩,
    -- TM_BASESECL (R206): SEC
    ⟨0x10010, 37, 0x1000, 1, 0x0, .open, false, [⟨0, 32, .rw, 0⟩]⟩,
    -- TM_BASESECH (R206): SEC
    ⟨0x10014, 37, 0x1000, 1, 0x0, .open, false, [⟨0, 16, .rw, 0⟩]⟩,
    -- TM_CYCLE (R206): NS
    ⟨0x10018, 37, 0x1000, 1, 0x0, .open, false, [⟨0, 30, .rw, 0xf4240⟩]⟩,
    -- TM_CYCLEEXT (R206): NS
    ⟨0x1001C, 37, 0x1000, 1, 0x0, .open, false, [⟨0, 30, .rw, 0⟩]⟩,
    -- TM_GSTAT (R206): ENTRY GATES HOLD PEND TSTATE BADENTRY BADCFG
    ⟨0x10020, 37, 0x1000, 1, 0x0, .open, false, [⟨0, 10, .snap, 0⟩, ⟨10, 8, .snap, 0xff⟩, ⟨18, 1, .snap, 0⟩, ⟨19, 1, .snap, 0⟩, ⟨20, 2, .snap, 0⟩, ⟨22, 1, .w1c, 0⟩, ⟨23, 1, .w1c, 0⟩]⟩,
    -- TM_OPERCYCLE (R206): NS
    ⟨0x10024, 37, 0x1000, 1, 0x0, .open, false, [⟨0, 30, .ro, 0⟩]⟩,
    -- TM_QUANTUM (R202): Q
    ⟨0x10040, 37, 0x1000, 8, 0x4, .open, false, [⟨0, 24, .rw, 0x600⟩]⟩,
    -- TM_MAXSDU (R208): SDU
    ⟨0x10060, 37, 0x1000, 8, 0x4, .open, false, [⟨0, 14, .rw, 0⟩]⟩,
    -- TM_MAXWIN (R209): WIN
    ⟨0x10080, 37, 0x1000, 8, 0x4, .open, false, [⟨0, 28, .ro, 0xfffffff⟩]⟩,
    -- TM_QSTAT (R202): DEFICIT OPEN STOPPED
    ⟨0x100A0, 37, 0x1000, 8, 0x4, .open, false, [⟨0, 24, .snap, 0⟩, ⟨24, 1, .snap, 1⟩, ⟨25, 1, .snap, 0⟩]⟩,
    -- TM_CBS w0 (R203): IDLESLOPE
    ⟨0x10100, 37, 0x1000, 8, 0x10, .open, false, [⟨0, 32, .rw, 0⟩]⟩,
    -- TM_CBS w1 (R203): HICREDIT
    ⟨0x10104, 37, 0x1000, 8, 0x10, .open, false, [⟨0, 32, .rw, 0x7fffffff⟩]⟩,
    -- TM_CBS w2 (R203): LOCREDIT
    ⟨0x10108, 37, 0x1000, 8, 0x10, .open, false, [⟨0, 32, .rw, 0x80000000⟩]⟩,
    -- TM_CBS w3 (R203): CREDIT
    ⟨0x1010C, 37, 0x1000, 8, 0x10, .open, false, [⟨0, 32, .snap, 0⟩]⟩,
    -- CNT[GATE_OVERRUN NO_FIT SDU_OVER LIST_CHANGE LIST_REALIGN] LOW (R223): LOW
    ⟨0x10400, 37, 0x1000, 5, 0x8, .open, true, [⟨0, 32, .ro, 0⟩]⟩,
    -- CNT HIGH (R223): HIGH OVF WRAP
    ⟨0x10404, 37, 0x1000, 5, 0x8, .open, true, [⟨0, 30, .ro, 0⟩, ⟨30, 1, .ro, 0⟩, ⟨31, 1, .ro, 0⟩]⟩,
    -- TM_LIST w0 (R204): GATES OP QUIET
    ⟨0x80000, 37, 0x2000, 1024, 0x8, .table 1, false, [⟨0, 8, .rw, 0xff⟩, ⟨8, 2, .rw, 0⟩, ⟨10, 1, .rw, 0⟩]⟩,
    -- TM_LIST w1 (R204): INTERVAL
    ⟨0x80004, 37, 0x2000, 1024, 0x8, .table 1, false, [⟨0, 27, .rw, 1⟩]⟩
  ]

/-- The registers of block index 0x16, beyond its header. -/
def rows16 : List Row :=
  [
    -- TM_SFBLOCK (R214): B
    ⟨0x20, 64, 0x4, 1, 0x0, .open, false, [⟨0, 32, .w1c, 0⟩]⟩,
    -- TM_IDENT w0 (R213): MACLO
    ⟨0x10000, 2048, 0x10, 1, 0x0, .table 1, false, [⟨0, 32, .rw, 0⟩]⟩,
    -- TM_IDENT w1 (R213): MACHI VID
    ⟨0x10004, 2048, 0x10, 1, 0x0, .table 1, false, [⟨0, 16, .rw, 0⟩, ⟨16, 12, .rw, 0⟩]⟩,
    -- TM_IDENT w2 (R213): MODE TAGGED VALID
    ⟨0x10008, 2048, 0x10, 1, 0x0, .table 1, false, [⟨0, 2, .rw, 0⟩, ⟨2, 2, .rw, 0⟩, ⟨4, 1, .rw, 0⟩]⟩,
    -- TM_FILTER w0 (R214): METER METEREN AWARE REDPASS YELDEI OVBLOCK MAXSDU
    ⟨0x30000, 2048, 0x10, 1, 0x0, .table 2, false, [⟨0, 10, .rw, 0⟩, ⟨10, 1, .rw, 0⟩, ⟨11, 1, .rw, 0⟩, ⟨12, 1, .rw, 0⟩, ⟨13, 1, .rw, 0⟩, ⟨14, 1, .rw, 0⟩, ⟨16, 14, .rw, 0⟩]⟩,
    -- TM_FILTER w1 (R214): FRER FREREN
    ⟨0x30004, 2048, 0x10, 1, 0x0, .table 2, false, [⟨0, 10, .rw, 0⟩, ⟨10, 1, .rw, 0⟩]⟩,
    -- CNT[MATCH YELLOW RED_DROP SDU_DROP] LOW (R223): LOW
    ⟨0x50000, 2048, 0x20, 4, 0x8, .open, true, [⟨0, 32, .ro, 0⟩]⟩,
    -- CNT HIGH (R223): HIGH OVF WRAP
    ⟨0x50004, 2048, 0x20, 4, 0x8, .open, true, [⟨0, 30, .ro, 0⟩, ⟨30, 1, .ro, 0⟩, ⟨31, 1, .ro, 0⟩]⟩
  ]

/-- The registers of block index 0x17, beyond its header. -/
def rows17 : List Row :=
  [
    -- TM_FRER w0 (R216): VALID KIND HIST TAKENOSEQ
    ⟨0x10000, 1024, 0x20, 1, 0x0, .table 1, false, [⟨0, 1, .rw, 0⟩, ⟨1, 1, .rw, 0⟩, ⟨2, 6, .rw, 0⟩, ⟨8, 1, .rw, 0⟩]⟩,
    -- TM_FRER w1 (R216): RESETMS
    ⟨0x10004, 1024, 0x20, 1, 0x0, .table 1, false, [⟨0, 16, .rw, 0x3e8⟩]⟩,
    -- TM_FRER w2 (R216): WDMS GRACEMS
    ⟨0x10008, 1024, 0x20, 1, 0x0, .table 1, false, [⟨0, 16, .rw, 0x64⟩, ⟨16, 16, .rw, 0xa⟩]⟩,
    -- TM_FRERSTAT (R217): RECSEQ TAKEANY RECOVERING
    ⟨0x30000, 1024, 0x8, 1, 0x0, .open, false, [⟨0, 16, .snap, 0⟩, ⟨16, 1, .snap, 1⟩, ⟨17, 1, .snap, 0⟩]⟩,
    -- CNT[PASSED ELIMINATED ROGUE LOST OUTOFORDER RESETS] LOW (R223): LOW
    ⟨0x40000, 1024, 0x40, 6, 0x8, .open, true, [⟨0, 32, .ro, 0⟩]⟩,
    -- CNT HIGH (R223): HIGH OVF WRAP
    ⟨0x40004, 1024, 0x40, 6, 0x8, .open, true, [⟨0, 30, .ro, 0⟩, ⟨30, 1, .ro, 0⟩, ⟨31, 1, .ro, 0⟩]⟩
  ]

/-- The registers of block index 0x18, beyond its header. -/
def rows18 : List Row :=
  [
    -- TIM_SNAPCTL (R240): GO
    ⟨0x20, 1, 0x0, 1, 0x0, .open, false, [⟨31, 1, .own, 0⟩]⟩,
    -- TIM_SNAPLT ns (R240): NS
    ⟨0x30, 1, 0x0, 1, 0x0, .open, true, [⟨0, 32, .ro, 0⟩]⟩,
    -- TIM_SNAPLT s (R240): SEC
    ⟨0x34, 1, 0x0, 1, 0x0, .open, true, [⟨0, 32, .ro, 0⟩]⟩,
    -- TIM_SNAPLT hi (R240): SECH FRAC
    ⟨0x38, 1, 0x0, 1, 0x0, .open, false, [⟨0, 16, .ro, 0⟩, ⟨16, 16, .ro, 0⟩]⟩,
    -- TIM_SNAPD ns (R240): NS
    ⟨0x40, 4, 0x10, 1, 0x0, .open, true, [⟨0, 32, .ro, 0⟩]⟩,
    -- TIM_SNAPD s (R240): SEC
    ⟨0x44, 4, 0x10, 1, 0x0, .open, true, [⟨0, 32, .ro, 0⟩]⟩,
    -- TIM_SNAPD hi (R240): SECH FRAC
    ⟨0x48, 4, 0x10, 1, 0x0, .open, false, [⟨0, 16, .ro, 0⟩, ⟨16, 16, .ro, 0⟩]⟩,
    -- TIM_SNAPD w3 (R240): STEPCNT
    ⟨0x4C, 4, 0x10, 1, 0x0, .open, false, [⟨0, 8, .ro, 0⟩]⟩,
    -- TIM_CONVIN ns (R236): NS
    ⟨0x80, 1, 0x0, 1, 0x0, .open, true, [⟨0, 32, .rw, 0⟩]⟩,
    -- TIM_CONVIN s (R236): SEC
    ⟨0x84, 1, 0x0, 1, 0x0, .open, true, [⟨0, 32, .rw, 0⟩]⟩,
    -- TIM_CONVIN hi (R236): SECH FRAC
    ⟨0x88, 1, 0x0, 1, 0x0, .open, false, [⟨0, 16, .rw, 0⟩, ⟨16, 16, .rw, 0⟩]⟩,
    -- TIM_CONVCTL (R236): DOM GO
    ⟨0x8C, 1, 0x0, 1, 0x0, .open, false, [⟨0, 2, .rw, 0⟩, ⟨31, 1, .own, 0⟩]⟩,
    -- TIM_CONVOUT ns (R236): NS
    ⟨0x90, 1, 0x0, 1, 0x0, .open, true, [⟨0, 32, .ro, 0⟩]⟩,
    -- TIM_CONVOUT s (R236): SEC
    ⟨0x94, 1, 0x0, 1, 0x0, .open, true, [⟨0, 32, .ro, 0⟩]⟩,
    -- TIM_CONVOUT hi (R236): SECH FRAC
    ⟨0x98, 1, 0x0, 1, 0x0, .open, false, [⟨0, 16, .ro, 0⟩, ⟨16, 16, .ro, 0⟩]⟩,
    -- TIM_CONVSTAT (R236): STEPCNT
    ⟨0x9C, 1, 0x0, 1, 0x0, .open, false, [⟨0, 8, .ro, 0⟩]⟩,
    -- TIM_PINCFG (R237): INMODE INDOM DISC OUTMODE OUTDOM PWIDTH
    ⟨0xA0, 1, 0x0, 1, 0x0, .open, false, [⟨0, 2, .rw, 0⟩, ⟨2, 2, .rw, 0⟩, ⟨4, 1, .rw, 0⟩, ⟨8, 2, .rw, 0⟩, ⟨10, 2, .rw, 0⟩, ⟨16, 8, .rw, 0x64⟩]⟩,
    -- TIM_TODSEC (R237): SEC
    ⟨0xA4, 1, 0x0, 1, 0x0, .open, false, [⟨0, 32, .rw, 0⟩]⟩,
    -- TIM_INTS ns (R237): NS
    ⟨0xA8, 1, 0x0, 1, 0x0, .open, true, [⟨0, 32, .ro, 0⟩]⟩,
    -- TIM_INTS s (R237): SEC
    ⟨0xAC, 1, 0x0, 1, 0x0, .open, true, [⟨0, 32, .ro, 0⟩]⟩,
    -- TIM_INTS hi (R237): SECH FRAC
    ⟨0xB0, 1, 0x0, 1, 0x0, .open, false, [⟨0, 16, .ro, 0⟩, ⟨16, 16, .ro, 0⟩]⟩,
    -- TIM_INSTAT (R237): VALID LOST
    ⟨0xB4, 1, 0x0, 1, 0x0, .open, false, [⟨0, 1, .w1c, 0⟩, ⟨1, 1, .w1c, 0⟩]⟩,
    -- TIM_DELIV (R239): PWMDOM GWYDOM
    ⟨0xC0, 1, 0x0, 1, 0x0, .open, false, [⟨0, 2, .rw, 0⟩, ⟨2, 2, .rw, 0⟩]⟩,
    -- CNT[STEPS SAMPLE_OK SAMPLE_REJ HOLDOVER_ENTRY LOCK_LOSS TS_RING_OVF TS_SEALED TIME_IN_EDGES] LOW (R243): LOW
    ⟨0x100, 8, 0x8, 1, 0x0, .open, true, [⟨0, 32, .ro, 0⟩]⟩,
    -- CNT HIGH (R243): HIGH OVF WRAP
    ⟨0x104, 8, 0x8, 1, 0x0, .open, true, [⟨0, 30, .ro, 0⟩, ⟨30, 1, .ro, 0⟩, ⟨31, 1, .ro, 0⟩]⟩,
    -- TIM_PORTCFG (R234): TSDOM CAPEN
    ⟨0x400, 37, 0x4, 1, 0x0, .open, false, [⟨0, 2, .rw, 0⟩, ⟨8, 1, .rw, 0⟩]⟩,
    -- TIM_EXTLAT (R232): RXLAT TXLAT
    ⟨0x500, 12, 0x4, 1, 0x0, .open, false, [⟨0, 16, .rw, 0⟩, ⟨16, 16, .rw, 0⟩]⟩,
    -- TIM_LATSTAT (R232): RXLAST TXLAST
    ⟨0x600, 32, 0x4, 1, 0x0, .open, false, [⟨0, 16, .snap, 0⟩, ⟨16, 16, .snap, 0⟩]⟩,
    -- TIM_RINGSTAT (R234): RXHEAD TXHEAD OVF
    ⟨0x700, 32, 0x4, 1, 0x0, .open, false, [⟨0, 4, .ro, 0⟩, ⟨4, 4, .ro, 0⟩, ⟨16, 16, .w1c, 0⟩]⟩,
    -- TIM_DOMCFG (R225): EN GM KP KI
    ⟨0x1000, 4, 0x100, 1, 0x0, .open, false, [⟨0, 1, .own, 0⟩, ⟨1, 1, .rw, 0⟩, ⟨16, 5, .rw, 2⟩, ⟨24, 5, .rw, 5⟩]⟩,
    -- TIM_LOCKCFG (R228): LOCKTHR LOCKN
    ⟨0x1004, 4, 0x100, 1, 0x0, .open, false, [⟨0, 16, .rw, 0x64⟩, ⟨16, 8, .rw, 8⟩]⟩,
    -- TIM_STEPTHR (R228): NS
    ⟨0x1008, 4, 0x100, 1, 0x0, .open, false, [⟨0, 30, .rw, 0x3e8⟩]⟩,
    -- TIM_SYNCTMO (R229): MS HOLDMAX
    ⟨0x100C, 4, 0x100, 1, 0x0, .open, false, [⟨0, 16, .rw, 0x64⟩, ⟨16, 16, .rw, 0xa⟩]⟩,
    -- TIM_SMPLT ns (R227): NS
    ⟨0x1010, 4, 0x100, 1, 0x0, .open, true, [⟨0, 32, .rw, 0⟩]⟩,
    -- TIM_SMPLT s (R227): SEC
    ⟨0x1014, 4, 0x100, 1, 0x0, .open, true, [⟨0, 32, .rw, 0⟩]⟩,
    -- TIM_SMPLT hi (R227): SECH FRAC
    ⟨0x1018, 4, 0x100, 1, 0x0, .open, false, [⟨0, 16, .rw, 0⟩, ⟨16, 16, .rw, 0⟩]⟩,
    -- TIM_SMPMST ns (R227): NS
    ⟨0x1020, 4, 0x100, 1, 0x0, .open, true, [⟨0, 32, .rw, 0⟩]⟩,
    -- TIM_SMPMST s (R227): SEC
    ⟨0x1024, 4, 0x100, 1, 0x0, .open, true, [⟨0, 32, .rw, 0⟩]⟩,
    -- TIM_SMPMST hi (R227): SECH FRAC
    ⟨0x1028, 4, 0x100, 1, 0x0, .open, false, [⟨0, 16, .rw, 0⟩, ⟨16, 16, .rw, 0⟩]⟩,
    -- TIM_SMPCTL (R227): GO
    ⟨0x102C, 4, 0x100, 1, 0x0, .open, false, [⟨31, 1, .own, 0⟩]⟩,
    -- TIM_SETTIME ns (R230): NS
    ⟨0x1030, 4, 0x100, 1, 0x0, .open, true, [⟨0, 32, .rw, 0⟩]⟩,
    -- TIM_SETTIME s (R230): SEC
    ⟨0x1034, 4, 0x100, 1, 0x0, .open, true, [⟨0, 32, .rw, 0⟩]⟩,
    -- TIM_SETTIME hi (R230): SECH FRAC
    ⟨0x1038, 4, 0x100, 1, 0x0, .open, false, [⟨0, 16, .rw, 0⟩, ⟨16, 16, .rw, 0⟩]⟩,
    -- TIM_SETCTL (R230): GO
    ⟨0x103C, 4, 0x100, 1, 0x0, .open, false, [⟨31, 1, .own, 0⟩]⟩,
    -- TIM_DSTAT (R226): STATE VALIDTB STEPCNT LOCKRUN
    ⟨0x1040, 4, 0x100, 1, 0x0, .open, false, [⟨0, 2, .ro, 0⟩, ⟨2, 1, .ro, 0⟩, ⟨8, 8, .ro, 0⟩, ⟨16, 8, .ro, 0⟩]⟩,
    -- TIM_DOFFS (R227): OFFSET
    ⟨0x1044, 4, 0x100, 1, 0x0, .open, false, [⟨0, 32, .ro, 0⟩]⟩,
    -- TIM_DRATE (R225): RATE
    ⟨0x1048, 4, 0x100, 1, 0x0, .open, false, [⟨0, 32, .ro, 0⟩]⟩,
    -- TIM_RING ns (R234): NS
    ⟨0x10000, 32, 0x200, 32, 0x10, .open, true, [⟨0, 32, .ro, 0⟩]⟩,
    -- TIM_RING s (R234): SEC
    ⟨0x10004, 32, 0x200, 32, 0x10, .open, true, [⟨0, 32, .ro, 0⟩]⟩,
    -- TIM_RING hi (R234): SECH FRAC
    ⟨0x10008, 32, 0x200, 32, 0x10, .open, false, [⟨0, 16, .ro, 0⟩, ⟨16, 16, .ro, 0⟩]⟩,
    -- TIM_RING w3 (R234): MSGTYPE DOMNUM VALID SEQID
    ⟨0x1000C, 32, 0x200, 32, 0x10, .open, false, [⟨0, 4, .ro, 0⟩, ⟨4, 8, .ro, 0⟩, ⟨15, 1, .w1c, 0⟩, ⟨16, 16, .ro, 0⟩]⟩
  ]

/-- The registers of block index 0x19, beyond its header. -/
def rows19 : List Row :=
  [
    -- CIP_LANECFG (R246): JOBMIN
    ⟨0x20, 1, 0x0, 1, 0x0, .open, false, [⟨0, 6, .rw, 2⟩]⟩,
    -- CIP_LANESTAT (R248): INSVC PERMOUT
    ⟨0x24, 1, 0x0, 1, 0x0, .open, false, [⟨0, 4, .ro, 0xf⟩, ⟨4, 4, .ro, 0⟩]⟩,
    -- CIP_RNG (R249): VALUE
    ⟨0x28, 1, 0x0, 1, 0x0, .open, false, [⟨0, 32, .ro, 0⟩]⟩,
    -- CIP_KEYCMD (R259): CTX CLEAR
    ⟨0x2C, 1, 0x0, 1, 0x0, .open, false, [⟨0, 11, .rw, 0⟩, ⟨31, 1, .own, 0⟩]⟩,
    -- CIP_ENTSTAT (R249): HEALTHY FAILED
    ⟨0x34, 1, 0x0, 1, 0x0, .open, false, [⟨0, 1, .ro, 0⟩, ⟨1, 1, .ro, 0⟩]⟩,
    -- CIP_HOLDSTAT (R263): JOBUSED
    ⟨0x38, 1, 0x0, 1, 0x0, .open, false, [⟨0, 6, .ro, 0⟩]⟩,
    -- CNT[IN_OK IN_UNTAGGED IN_UNTAGGED_DROP IN_BADTAG IN_NOSA IN_LATE IN_INVALID OUT_SEALED OUT_SA_DISABLED OUT_PN_EXH SEAL_WAIT KEY_REVOKED LANE_MISMATCH LANE_RETURN HOLD_ERR IN_NOLANE] LOW (R269): LOW
    ⟨0x100, 16, 0x8, 1, 0x0, .open, true, [⟨0, 32, .ro, 0⟩]⟩,
    -- CNT HIGH (R269): HIGH OVF WRAP
    ⟨0x104, 16, 0x8, 1, 0x0, .open, true, [⟨0, 30, .ro, 0⟩, ⟨30, 1, .ro, 0⟩, ⟨31, 1, .ro, 0⟩]⟩,
    -- CIP_PNTHRST (R257): SECY
    ⟨0x200, 16, 0x4, 1, 0x0, .open, false, [⟨0, 32, .w1c, 0⟩]⟩,
    -- CIP_JOBDONE 0-4 (R264): JOB
    ⟨0x280, 5, 0x4, 1, 0x0, .open, false, [⟨0, 32, .w1c, 0⟩]⟩,
    -- CIP_JOBFREE (R260): JOB
    ⟨0x300, 5, 0x4, 1, 0x0, .open, false, [⟨0, 32, .ro, 0xffffffff⟩]⟩,
    -- CIP_PORTCFG (R251): EN DEFSECY EAPOLCLR
    ⟨0x400, 32, 0x4, 1, 0x0, .open, false, [⟨0, 1, .rw, 0⟩, ⟨1, 4, .rw, 0⟩, ⟨5, 1, .rw, 1⟩]⟩,
    -- CIP_SECY w0 (R252): EN PROTECT CONF OFFSET STRICT REPLAY INCSCI ES SCB TXAN
    ⟨0x10000, 512, 0x40, 1, 0x0, .open, false, [⟨0, 1, .rw, 0⟩, ⟨1, 1, .rw, 1⟩, ⟨2, 1, .rw, 1⟩, ⟨3, 2, .rw, 0⟩, ⟨5, 1, .rw, 1⟩, ⟨6, 1, .rw, 1⟩, ⟨7, 1, .rw, 1⟩, ⟨8, 1, .rw, 0⟩, ⟨9, 1, .rw, 0⟩, ⟨10, 2, .rw, 0⟩]⟩,
    -- CIP_SECY w1-5 (R252): W
    ⟨0x10004, 512, 0x40, 5, 0x4, .open, false, [⟨0, 32, .rw, 0⟩]⟩,
    -- CIP_SECY w6-9 (R252): SA0 SA1
    ⟨0x10018, 512, 0x40, 4, 0x4, .open, false, [⟨0, 10, .rw, 0⟩, ⟨16, 10, .rw, 0⟩]⟩,
    -- CIP_SECY w10 (R252): PNTHRL
    ⟨0x10028, 512, 0x40, 1, 0x0, .open, false, [⟨0, 32, .rw, 0xc0000000⟩]⟩,
    -- CIP_SECY w11 (R252): PNTHRH
    ⟨0x1002C, 512, 0x40, 1, 0x0, .open, false, [⟨0, 32, .rw, 0⟩]⟩,
    -- CIP_SA w0 (R253): EN RX XPN SECY DISABLED DCAUSE
    ⟨0x20000, 1024, 0x20, 1, 0x0, .saEn, false, [⟨0, 1, .own, 0⟩, ⟨1, 1, .rw, 0⟩, ⟨2, 1, .rw, 0⟩, ⟨3, 9, .rw, 0⟩, ⟨12, 1, .ro, 0⟩, ⟨13, 3, .ro, 0⟩]⟩,
    -- CIP_SA w1 (R253): NEXTPNL
    ⟨0x20004, 1024, 0x20, 1, 0x0, .saEn, false, [⟨0, 32, .rw, 1⟩]⟩,
    -- CIP_SA w2 (R253): NEXTPNH
    ⟨0x20008, 1024, 0x20, 1, 0x0, .saEn, false, [⟨0, 32, .rw, 0⟩]⟩,
    -- CIP_SA w3-6 (R253): W
    ⟨0x2000C, 1024, 0x20, 4, 0x4, .saEn, false, [⟨0, 32, .rw, 0⟩]⟩,
    -- CIP_SACNT LOW (R269): LOW
    ⟨0x30000, 2048, 0x8, 1, 0x0, .open, true, [⟨0, 32, .ro, 0⟩]⟩,
    -- CIP_SACNT HIGH (R269): HIGH OVF WRAP
    ⟨0x30004, 2048, 0x8, 1, 0x0, .open, true, [⟨0, 30, .ro, 0⟩, ⟨30, 1, .ro, 0⟩, ⟨31, 1, .ro, 0⟩]⟩,
    -- CIP_KEYSTAT (R259): STATE LEN256 USAGE PARENT CAUSE
    ⟨0x40000, 1280, 0x4, 1, 0x0, .open, false, [⟨0, 2, .ro, 0⟩, ⟨2, 1, .ro, 0⟩, ⟨3, 7, .ro, 0⟩, ⟨16, 9, .ro, 0⟩, ⟨28, 3, .ro, 0⟩]⟩,
    -- CIP_JOB w0 (R260): OP PRIO IRQ INIT FINAL KEY CLAIM ABORT RELEASE GO
    ⟨0x50000, 160, 0x40, 1, 0x0, .jobOwner, false, [⟨0, 4, .rw, 0⟩, ⟨4, 2, .rw, 0⟩, ⟨6, 1, .rw, 0⟩, ⟨7, 1, .rw, 1⟩, ⟨8, 1, .rw, 1⟩, ⟨16, 8, .rw, 0⟩, ⟨28, 1, .own, 0⟩, ⟨29, 1, .own, 0⟩, ⟨30, 1, .own, 0⟩, ⟨31, 1, .own, 0⟩]⟩,
    -- CIP_JOB w1 (R260): W
    ⟨0x50004, 160, 0x40, 1, 0x0, .jobOwner, false, [⟨0, 32, .rw, 0⟩]⟩,
    -- CIP_JOB w2 (R260): SRCH
    ⟨0x50008, 160, 0x40, 1, 0x0, .jobOwner, false, [⟨0, 8, .rw, 0⟩]⟩,
    -- CIP_JOB w3 (R260): W
    ⟨0x5000C, 160, 0x40, 1, 0x0, .jobOwner, false, [⟨0, 32, .rw, 0⟩]⟩,
    -- CIP_JOB w4 (R260): DSTH
    ⟨0x50010, 160, 0x40, 1, 0x0, .jobOwner, false, [⟨0, 8, .rw, 0⟩]⟩,
    -- CIP_JOB w5 (R260): LEN
    ⟨0x50014, 160, 0x40, 1, 0x0, .jobOwner, false, [⟨0, 24, .rw, 0⟩]⟩,
    -- CIP_JOB w6 (R260): W
    ⟨0x50018, 160, 0x40, 1, 0x0, .jobOwner, false, [⟨0, 32, .rw, 0⟩]⟩,
    -- CIP_JOB w7 (R260): AADH
    ⟨0x5001C, 160, 0x40, 1, 0x0, .jobOwner, false, [⟨0, 8, .rw, 0⟩]⟩,
    -- CIP_JOB w8 (R260): AADLEN
    ⟨0x50020, 160, 0x40, 1, 0x0, .jobOwner, false, [⟨0, 13, .rw, 0⟩]⟩,
    -- CIP_JOB w9-12 (R260): W
    ⟨0x50024, 160, 0x40, 4, 0x4, .jobOwner, false, [⟨0, 32, .rw, 0⟩]⟩,
    -- CIP_JOB w13 (R260): W
    ⟨0x50034, 160, 0x40, 1, 0x0, .jobOwner, false, [⟨0, 32, .rw, 0⟩]⟩,
    -- CIP_JOB w14 (R260): TAGH
    ⟨0x50038, 160, 0x40, 1, 0x0, .jobOwner, false, [⟨0, 8, .rw, 0⟩]⟩,
    -- CIP_JOB w15 (R260): STATE RES OWNER
    ⟨0x5003C, 160, 0x40, 1, 0x0, .jobOwner, false, [⟨0, 3, .ro, 0⟩, ⟨8, 4, .ro, 0⟩, ⟨12, 6, .ro, 0⟩]⟩
  ]

/-- The registers of block index 0x1A, beyond its header. -/
def rows1A : List Row :=
  [
    -- VLT_STAT (R273): STATE NOROOT LOOPOPEN TAMPER GLITCH
    ⟨0x20, 1, 0x0, 1, 0x0, .open, false, [⟨0, 2, .ro, 0⟩, ⟨2, 1, .ro, 0⟩, ⟨3, 1, .ro, 0⟩, ⟨8, 1, .w1c, 0⟩, ⟨9, 1, .w1c, 0⟩]⟩,
    -- VLT_RNG (R271): VALUE
    ⟨0x24, 1, 0x0, 1, 0x0, .open, false, [⟨0, 32, .ro, 0⟩]⟩,
    -- VLT_PCTR L (R274): COUNT
    ⟨0x28, 1, 0x0, 1, 0x0, .open, true, [⟨0, 32, .ro, 0⟩]⟩,
    -- VLT_PCTR H (R274): COUNT
    ⟨0x2C, 1, 0x0, 1, 0x0, .open, true, [⟨0, 32, .ro, 0⟩]⟩,
    -- VLT_UID (R274): UID
    ⟨0x30, 4, 0x4, 1, 0x0, .open, false, [⟨0, 32, .ro, 0⟩]⟩,
    -- CNT[PROV_OK PROV_REJ DERIVE_OK DERIVE_REJ INVALIDATED EXTENDS VERIFY_OK VERIFY_FAIL] LOW (R295): LOW
    ⟨0x100, 8, 0x8, 1, 0x0, .open, true, [⟨0, 32, .ro, 0⟩]⟩,
    -- CNT HIGH (R295): HIGH OVF WRAP
    ⟨0x104, 8, 0x8, 1, 0x0, .open, true, [⟨0, 30, .ro, 0⟩, ⟨30, 1, .ro, 0⟩, ⟨31, 1, .ro, 0⟩]⟩,
    -- VLT_MR (R280): MR
    ⟨0x200, 8, 0x40, 12, 0x4, .open, false, [⟨0, 32, .ro, 0⟩]⟩,
    -- VLT_ANCHOR (R276): HASH
    ⟨0x400, 8, 0x40, 12, 0x4, .open, false, [⟨0, 32, .ro, 0⟩]⟩,
    -- VLT_IDPUB (R275): XY
    ⟨0x600, 24, 0x4, 1, 0x0, .open, false, [⟨0, 32, .ro, 0⟩]⟩,
    -- VLT_SLOTSTAT (R284): STATE KIND DEPTH
    ⟨0x800, 512, 0x4, 1, 0x0, .open, false, [⟨0, 2, .ro, 0⟩, ⟨2, 2, .ro, 0⟩, ⟨4, 2, .ro, 0⟩]⟩,
    -- VLT_CMD (R287): OP SLOT GO
    ⟨0x10000, 4, 0x1000, 1, 0x0, .open, false, [⟨0, 4, .rw, 0⟩, ⟨8, 9, .rw, 0⟩, ⟨31, 1, .own, 0⟩]⟩,
    -- VLT_ARG (R287): ARG
    ⟨0x10004, 4, 0x1000, 1, 0x0, .open, false, [⟨0, 11, .rw, 0⟩]⟩,
    -- VLT_CHSTAT (R286): STATE RES COLL DONEIRQ
    ⟨0x10008, 4, 0x1000, 1, 0x0, .open, false, [⟨0, 2, .ro, 0⟩, ⟨8, 4, .ro, 0⟩, ⟨12, 1, .w1c, 0⟩, ⟨13, 1, .w1c, 0⟩]⟩,
    -- VLT_CHCFG (R286): IRQEN
    ⟨0x1000C, 4, 0x1000, 1, 0x0, .open, false, [⟨0, 1, .rw, 0⟩]⟩,
    -- VLT_BUF (R286): W
    ⟨0x10100, 4, 0x1000, 128, 0x4, .open, false, [⟨0, 32, .rw, 0⟩]⟩
  ]

/-- The registers of block index 0x1C, beyond its header. -/
def rows1C : List Row :=
  [
    -- TX_BADHDR LOW (R310): LOW
    ⟨0x100, 1, 0x0, 1, 0x0, .open, true, [⟨0, 32, .ro, 0⟩]⟩,
    -- TX_BADHDR HIGH (R310): HIGH OVF WRAP
    ⟨0x104, 1, 0x0, 1, 0x0, .open, true, [⟨0, 30, .ro, 0⟩, ⟨30, 1, .ro, 0⟩, ⟨31, 1, .ro, 0⟩]⟩,
    -- GWY_CANCTL[0] (R303): EN FD LISTEN AUTOREC ACFOUT BRIEF ACFBUS TXTMO
    ⟨0x10000, 1, 0x0, 1, 0x0, .gwyCh, false, [⟨0, 1, .own, 0⟩, ⟨1, 1, .rw, 0⟩, ⟨2, 1, .rw, 0⟩, ⟨3, 1, .rw, 1⟩, ⟨4, 1, .rw, 0⟩, ⟨5, 1, .rw, 0⟩, ⟨8, 5, .rw, 0⟩, ⟨16, 16, .rw, 0x64⟩]⟩,
    -- GWY_CANCTL[1] (R303): EN FD LISTEN AUTOREC ACFOUT BRIEF ACFBUS TXTMO
    ⟨0x11000, 1, 0x0, 1, 0x0, .gwyCh, false, [⟨0, 1, .own, 0⟩, ⟨1, 1, .rw, 0⟩, ⟨2, 1, .rw, 0⟩, ⟨3, 1, .rw, 1⟩, ⟨4, 1, .rw, 0⟩, ⟨5, 1, .rw, 0⟩, ⟨8, 5, .rw, 1⟩, ⟨16, 16, .rw, 0x64⟩]⟩,
    -- GWY_CANCTL[2] (R303): EN FD LISTEN AUTOREC ACFOUT BRIEF ACFBUS TXTMO
    ⟨0x12000, 1, 0x0, 1, 0x0, .gwyCh, false, [⟨0, 1, .own, 0⟩, ⟨1, 1, .rw, 0⟩, ⟨2, 1, .rw, 0⟩, ⟨3, 1, .rw, 1⟩, ⟨4, 1, .rw, 0⟩, ⟨5, 1, .rw, 0⟩, ⟨8, 5, .rw, 2⟩, ⟨16, 16, .rw, 0x64⟩]⟩,
    -- GWY_CANCTL[3] (R303): EN FD LISTEN AUTOREC ACFOUT BRIEF ACFBUS TXTMO
    ⟨0x13000, 1, 0x0, 1, 0x0, .gwyCh, false, [⟨0, 1, .own, 0⟩, ⟨1, 1, .rw, 0⟩, ⟨2, 1, .rw, 0⟩, ⟨3, 1, .rw, 1⟩, ⟨4, 1, .rw, 0⟩, ⟨5, 1, .rw, 0⟩, ⟨8, 5, .rw, 3⟩, ⟨16, 16, .rw, 0x64⟩]⟩,
    -- GWY_CANCTL[4] (R303): EN FD LISTEN AUTOREC ACFOUT BRIEF ACFBUS TXTMO
    ⟨0x14000, 1, 0x0, 1, 0x0, .gwyCh, false, [⟨0, 1, .own, 0⟩, ⟨1, 1, .rw, 0⟩, ⟨2, 1, .rw, 0⟩, ⟨3, 1, .rw, 1⟩, ⟨4, 1, .rw, 0⟩, ⟨5, 1, .rw, 0⟩, ⟨8, 5, .rw, 4⟩, ⟨16, 16, .rw, 0x64⟩]⟩,
    -- GWY_CANCTL[5] (R303): EN FD LISTEN AUTOREC ACFOUT BRIEF ACFBUS TXTMO
    ⟨0x15000, 1, 0x0, 1, 0x0, .gwyCh, false, [⟨0, 1, .own, 0⟩, ⟨1, 1, .rw, 0⟩, ⟨2, 1, .rw, 0⟩, ⟨3, 1, .rw, 1⟩, ⟨4, 1, .rw, 0⟩, ⟨5, 1, .rw, 0⟩, ⟨8, 5, .rw, 5⟩, ⟨16, 16, .rw, 0x64⟩]⟩,
    -- GWY_CANCTL[6] (R303): EN FD LISTEN AUTOREC ACFOUT BRIEF ACFBUS TXTMO
    ⟨0x16000, 1, 0x0, 1, 0x0, .gwyCh, false, [⟨0, 1, .own, 0⟩, ⟨1, 1, .rw, 0⟩, ⟨2, 1, .rw, 0⟩, ⟨3, 1, .rw, 1⟩, ⟨4, 1, .rw, 0⟩, ⟨5, 1, .rw, 0⟩, ⟨8, 5, .rw, 6⟩, ⟨16, 16, .rw, 0x64⟩]⟩,
    -- GWY_CANCTL[7] (R303): EN FD LISTEN AUTOREC ACFOUT BRIEF ACFBUS TXTMO
    ⟨0x17000, 1, 0x0, 1, 0x0, .gwyCh, false, [⟨0, 1, .own, 0⟩, ⟨1, 1, .rw, 0⟩, ⟨2, 1, .rw, 0⟩, ⟨3, 1, .rw, 1⟩, ⟨4, 1, .rw, 0⟩, ⟨5, 1, .rw, 0⟩, ⟨8, 5, .rw, 7⟩, ⟨16, 16, .rw, 0x64⟩]⟩,
    -- GWY_CANCTL[8] (R303): EN FD LISTEN AUTOREC ACFOUT BRIEF ACFBUS TXTMO
    ⟨0x18000, 1, 0x0, 1, 0x0, .gwyCh, false, [⟨0, 1, .own, 0⟩, ⟨1, 1, .rw, 0⟩, ⟨2, 1, .rw, 0⟩, ⟨3, 1, .rw, 1⟩, ⟨4, 1, .rw, 0⟩, ⟨5, 1, .rw, 0⟩, ⟨8, 5, .rw, 8⟩, ⟨16, 16, .rw, 0x64⟩]⟩,
    -- GWY_CANCTL[9] (R303): EN FD LISTEN AUTOREC ACFOUT BRIEF ACFBUS TXTMO
    ⟨0x19000, 1, 0x0, 1, 0x0, .gwyCh, false, [⟨0, 1, .own, 0⟩, ⟨1, 1, .rw, 0⟩, ⟨2, 1, .rw, 0⟩, ⟨3, 1, .rw, 1⟩, ⟨4, 1, .rw, 0⟩, ⟨5, 1, .rw, 0⟩, ⟨8, 5, .rw, 9⟩, ⟨16, 16, .rw, 0x64⟩]⟩,
    -- GWY_CANCTL[10] (R303): EN FD LISTEN AUTOREC ACFOUT BRIEF ACFBUS TXTMO
    ⟨0x1A000, 1, 0x0, 1, 0x0, .gwyCh, false, [⟨0, 1, .own, 0⟩, ⟨1, 1, .rw, 0⟩, ⟨2, 1, .rw, 0⟩, ⟨3, 1, .rw, 1⟩, ⟨4, 1, .rw, 0⟩, ⟨5, 1, .rw, 0⟩, ⟨8, 5, .rw, 0xa⟩, ⟨16, 16, .rw, 0x64⟩]⟩,
    -- GWY_CANCTL[11] (R303): EN FD LISTEN AUTOREC ACFOUT BRIEF ACFBUS TXTMO
    ⟨0x1B000, 1, 0x0, 1, 0x0, .gwyCh, false, [⟨0, 1, .own, 0⟩, ⟨1, 1, .rw, 0⟩, ⟨2, 1, .rw, 0⟩, ⟨3, 1, .rw, 1⟩, ⟨4, 1, .rw, 0⟩, ⟨5, 1, .rw, 0⟩, ⟨8, 5, .rw, 0xb⟩, ⟨16, 16, .rw, 0x64⟩]⟩,
    -- GWY_CANCTL[12] (R303): EN FD LISTEN AUTOREC ACFOUT BRIEF ACFBUS TXTMO
    ⟨0x1C000, 1, 0x0, 1, 0x0, .gwyCh, false, [⟨0, 1, .own, 0⟩, ⟨1, 1, .rw, 0⟩, ⟨2, 1, .rw, 0⟩, ⟨3, 1, .rw, 1⟩, ⟨4, 1, .rw, 0⟩, ⟨5, 1, .rw, 0⟩, ⟨8, 5, .rw, 0xc⟩, ⟨16, 16, .rw, 0x64⟩]⟩,
    -- GWY_CANCTL[13] (R303): EN FD LISTEN AUTOREC ACFOUT BRIEF ACFBUS TXTMO
    ⟨0x1D000, 1, 0x0, 1, 0x0, .gwyCh, false, [⟨0, 1, .own, 0⟩, ⟨1, 1, .rw, 0⟩, ⟨2, 1, .rw, 0⟩, ⟨3, 1, .rw, 1⟩, ⟨4, 1, .rw, 0⟩, ⟨5, 1, .rw, 0⟩, ⟨8, 5, .rw, 0xd⟩, ⟨16, 16, .rw, 0x64⟩]⟩,
    -- GWY_CANCTL[14] (R303): EN FD LISTEN AUTOREC ACFOUT BRIEF ACFBUS TXTMO
    ⟨0x1E000, 1, 0x0, 1, 0x0, .gwyCh, false, [⟨0, 1, .own, 0⟩, ⟨1, 1, .rw, 0⟩, ⟨2, 1, .rw, 0⟩, ⟨3, 1, .rw, 1⟩, ⟨4, 1, .rw, 0⟩, ⟨5, 1, .rw, 0⟩, ⟨8, 5, .rw, 0xe⟩, ⟨16, 16, .rw, 0x64⟩]⟩,
    -- GWY_CANCTL[15] (R303): EN FD LISTEN AUTOREC ACFOUT BRIEF ACFBUS TXTMO
    ⟨0x1F000, 1, 0x0, 1, 0x0, .gwyCh, false, [⟨0, 1, .own, 0⟩, ⟨1, 1, .rw, 0⟩, ⟨2, 1, .rw, 0⟩, ⟨3, 1, .rw, 1⟩, ⟨4, 1, .rw, 0⟩, ⟨5, 1, .rw, 0⟩, ⟨8, 5, .rw, 0xf⟩, ⟨16, 16, .rw, 0x64⟩]⟩,
    -- GWY_CANNBT (R303): BRP TSEG1 TSEG2 SJW
    ⟨0x10004, 16, 0x1000, 1, 0x0, .gwyCh, false, [⟨0, 8, .rw, 0⟩, ⟨8, 8, .rw, 0x7e⟩, ⟨16, 7, .rw, 0x1f⟩, ⟨24, 7, .rw, 0x1f⟩]⟩,
    -- GWY_CANDBT (R303): BRP TSEG1 TSEG2 SJW TDC
    ⟨0x10008, 16, 0x1000, 1, 0x0, .gwyCh, false, [⟨0, 8, .rw, 0⟩, ⟨8, 8, .rw, 0x1c⟩, ⟨16, 7, .rw, 9⟩, ⟨24, 7, .rw, 9⟩, ⟨31, 1, .rw, 1⟩]⟩,
    -- GWY_CANSTAT (R302): ESTATE REC TEC DOMTO TXFULL
    ⟨0x1000C, 16, 0x1000, 1, 0x0, .open, false, [⟨0, 2, .ro, 3⟩, ⟨8, 8, .ro, 0⟩, ⟨16, 9, .ro, 0⟩, ⟨28, 1, .w1c, 0⟩, ⟨29, 1, .ro, 0⟩]⟩,
    -- GWY_SWCFG (R304): SWEN RATE FECWAKE
    ⟨0x10010, 8, 0x1000, 1, 0x0, .gwyCh, false, [⟨0, 1, .rw, 0⟩, ⟨1, 2, .rw, 2⟩, ⟨3, 1, .rw, 0⟩]⟩,
    -- GWY_SWF w0 (R304): ID IDE FEN
    ⟨0x10200, 8, 0x1000, 4, 0x20, .open, false, [⟨0, 29, .rw, 0⟩, ⟨29, 1, .rw, 0⟩, ⟨30, 1, .rw, 0⟩]⟩,
    -- GWY_SWF w1 (R304): IDMASK
    ⟨0x10204, 8, 0x1000, 4, 0x20, .open, false, [⟨0, 29, .rw, 0x1fffffff⟩]⟩,
    -- GWY_SWF w2 (R304): DLC DATAEN
    ⟨0x10208, 8, 0x1000, 4, 0x20, .open, false, [⟨0, 4, .rw, 8⟩, ⟨4, 1, .rw, 0⟩]⟩,
    -- GWY_SWF w3 (R304): W
    ⟨0x1020C, 8, 0x1000, 4, 0x20, .open, false, [⟨0, 32, .rw, 0⟩]⟩,
    -- GWY_SWF w4 (R304): W
    ⟨0x10210, 8, 0x1000, 4, 0x20, .open, false, [⟨0, 32, .rw, 0⟩]⟩,
    -- CNT[RX_FRAMES TX_FRAMES RX_OVERRUN TX_FAIL BUS_ERR BUSOFF_CNT] LOW (R310): LOW
    ⟨0x10100, 16, 0x1000, 6, 0x8, .open, true, [⟨0, 32, .ro, 0⟩]⟩,
    -- CNT HIGH (R310): HIGH OVF WRAP
    ⟨0x10104, 16, 0x1000, 6, 0x8, .open, true, [⟨0, 30, .ro, 0⟩, ⟨30, 1, .ro, 0⟩, ⟨31, 1, .ro, 0⟩]⟩
  ]

/-- The registers of block index 0x1D, beyond its header. -/
def rows1D : List Row :=
  [
    -- GWY_LINCTL[0] (R305): EN CMDR WAKEEN SCHEDEN ACFOUT ACFBUS BAUD
    ⟨0x10000, 1, 0x0, 1, 0x0, .gwyCh, false, [⟨0, 1, .own, 0⟩, ⟨1, 1, .rw, 1⟩, ⟨2, 1, .rw, 0⟩, ⟨3, 1, .rw, 0⟩, ⟨4, 1, .rw, 0⟩, ⟨8, 5, .rw, 0⟩, ⟨16, 16, .rw, 0x4b00⟩]⟩,
    -- GWY_LINCTL[1] (R305): EN CMDR WAKEEN SCHEDEN ACFOUT ACFBUS BAUD
    ⟨0x11000, 1, 0x0, 1, 0x0, .gwyCh, false, [⟨0, 1, .own, 0⟩, ⟨1, 1, .rw, 1⟩, ⟨2, 1, .rw, 0⟩, ⟨3, 1, .rw, 0⟩, ⟨4, 1, .rw, 0⟩, ⟨8, 5, .rw, 1⟩, ⟨16, 16, .rw, 0x4b00⟩]⟩,
    -- GWY_LINCTL[2] (R305): EN CMDR WAKEEN SCHEDEN ACFOUT ACFBUS BAUD
    ⟨0x12000, 1, 0x0, 1, 0x0, .gwyCh, false, [⟨0, 1, .own, 0⟩, ⟨1, 1, .rw, 1⟩, ⟨2, 1, .rw, 0⟩, ⟨3, 1, .rw, 0⟩, ⟨4, 1, .rw, 0⟩, ⟨8, 5, .rw, 2⟩, ⟨16, 16, .rw, 0x4b00⟩]⟩,
    -- GWY_LINCTL[3] (R305): EN CMDR WAKEEN SCHEDEN ACFOUT ACFBUS BAUD
    ⟨0x13000, 1, 0x0, 1, 0x0, .gwyCh, false, [⟨0, 1, .own, 0⟩, ⟨1, 1, .rw, 1⟩, ⟨2, 1, .rw, 0⟩, ⟨3, 1, .rw, 0⟩, ⟨4, 1, .rw, 0⟩, ⟨8, 5, .rw, 3⟩, ⟨16, 16, .rw, 0x4b00⟩]⟩,
    -- GWY_LINCTL[4] (R305): EN CMDR WAKEEN SCHEDEN ACFOUT ACFBUS BAUD
    ⟨0x14000, 1, 0x0, 1, 0x0, .gwyCh, false, [⟨0, 1, .own, 0⟩, ⟨1, 1, .rw, 1⟩, ⟨2, 1, .rw, 0⟩, ⟨3, 1, .rw, 0⟩, ⟨4, 1, .rw, 0⟩, ⟨8, 5, .rw, 4⟩, ⟨16, 16, .rw, 0x4b00⟩]⟩,
    -- GWY_LINCTL[5] (R305): EN CMDR WAKEEN SCHEDEN ACFOUT ACFBUS BAUD
    ⟨0x15000, 1, 0x0, 1, 0x0, .gwyCh, false, [⟨0, 1, .own, 0⟩, ⟨1, 1, .rw, 1⟩, ⟨2, 1, .rw, 0⟩, ⟨3, 1, .rw, 0⟩, ⟨4, 1, .rw, 0⟩, ⟨8, 5, .rw, 5⟩, ⟨16, 16, .rw, 0x4b00⟩]⟩,
    -- GWY_LINCTL[6] (R305): EN CMDR WAKEEN SCHEDEN ACFOUT ACFBUS BAUD
    ⟨0x16000, 1, 0x0, 1, 0x0, .gwyCh, false, [⟨0, 1, .own, 0⟩, ⟨1, 1, .rw, 1⟩, ⟨2, 1, .rw, 0⟩, ⟨3, 1, .rw, 0⟩, ⟨4, 1, .rw, 0⟩, ⟨8, 5, .rw, 6⟩, ⟨16, 16, .rw, 0x4b00⟩]⟩,
    -- GWY_LINCTL[7] (R305): EN CMDR WAKEEN SCHEDEN ACFOUT ACFBUS BAUD
    ⟨0x17000, 1, 0x0, 1, 0x0, .gwyCh, false, [⟨0, 1, .own, 0⟩, ⟨1, 1, .rw, 1⟩, ⟨2, 1, .rw, 0⟩, ⟨3, 1, .rw, 0⟩, ⟨4, 1, .rw, 0⟩, ⟨8, 5, .rw, 7⟩, ⟨16, 16, .rw, 0x4b00⟩]⟩,
    -- GWY_LINLEN (R305): LEN
    ⟨0x10200, 8, 0x1000, 8, 0x4, .gwyCh, false, [⟨0, 32, .rw, 0x88888888⟩]⟩,
    -- GWY_LINSCH (R305): ID PUB SLOT VALID
    ⟨0x10400, 8, 0x1000, 64, 0x4, .gwyCh, false, [⟨0, 6, .rw, 0⟩, ⟨6, 1, .rw, 0⟩, ⟨8, 8, .rw, 0⟩, ⟨16, 1, .rw, 0⟩]⟩,
    -- CNT[RX_FRAMES TX_FRAMES RX_OVERRUN TX_FAIL LIN_ERR] LOW (R310): LOW
    ⟨0x10100, 8, 0x1000, 5, 0x8, .open, true, [⟨0, 32, .ro, 0⟩]⟩,
    -- CNT HIGH (R310): HIGH OVF WRAP
    ⟨0x10104, 8, 0x1000, 5, 0x8, .open, true, [⟨0, 30, .ro, 0⟩, ⟨30, 1, .ro, 0⟩, ⟨31, 1, .ro, 0⟩]⟩,
    -- GWY_SERCTL (R306): EN FDX PARITY STOP2 ADDRLEN
    ⟨0x20000, 4, 0x1000, 1, 0x0, .gwyCh, false, [⟨0, 1, .own, 0⟩, ⟨1, 1, .rw, 0⟩, ⟨2, 2, .rw, 0⟩, ⟨4, 1, .rw, 0⟩, ⟨5, 3, .rw, 0⟩]⟩,
    -- GWY_SERBAUD (R306): BAUD
    ⟨0x20004, 4, 0x1000, 1, 0x0, .gwyCh, false, [⟨0, 25, .rw, 0x1c200⟩]⟩,
    -- GWY_SERFRM (R306): GAP MAXLEN
    ⟨0x20008, 4, 0x1000, 1, 0x0, .gwyCh, false, [⟨0, 8, .rw, 4⟩, ⟨8, 11, .rw, 0x100⟩]⟩,
    -- CNT[RX_FRAMES TX_FRAMES RX_OVERRUN TX_FAIL SER_ERR] LOW (R310): LOW
    ⟨0x20100, 4, 0x1000, 5, 0x8, .open, true, [⟨0, 32, .ro, 0⟩]⟩,
    -- CNT HIGH (R310): HIGH OVF WRAP
    ⟨0x20104, 4, 0x1000, 5, 0x8, .open, true, [⟨0, 30, .ro, 0⟩, ⟨30, 1, .ro, 0⟩, ⟨31, 1, .ro, 0⟩]⟩,
    -- GWY_DINCFG (R307): WET10 EDGE WAKE INV DEBOUNCE
    ⟨0x30000, 32, 0x4, 1, 0x0, .open, false, [⟨0, 1, .rw, 0⟩, ⟨1, 2, .rw, 0⟩, ⟨3, 1, .rw, 0⟩, ⟨4, 1, .rw, 0⟩, ⟨8, 8, .rw, 0xa⟩]⟩,
    -- GWY_DINSTATE (R307): STATE
    ⟨0x30100, 1, 0x0, 1, 0x0, .open, false, [⟨0, 32, .ro, 0⟩]⟩,
    -- GWY_AINVAL (R307): VALUE
    ⟨0x40000, 16, 0x4, 1, 0x0, .open, false, [⟨0, 12, .ro, 0⟩]⟩,
    -- GWY_AINTHR w0 (R307): LO HI
    ⟨0x40100, 16, 0x8, 1, 0x0, .open, false, [⟨0, 12, .rw, 0⟩, ⟨16, 12, .rw, 0xfff⟩]⟩,
    -- GWY_AINTHR w1 (R307): PERIOD EVEN
    ⟨0x40104, 16, 0x8, 1, 0x0, .open, false, [⟨0, 16, .rw, 0⟩, ⟨16, 1, .rw, 0⟩]⟩
  ]

/-- The registers of block index 0x1E, beyond its header. -/
def rows1E : List Row :=
  [
    -- HBR_PCFG (R312): ROLE MAXW MAXSPD VC1EN ECRC
    ⟨0x20, 1, 0x0, 1, 0x0, .open, false, [⟨0, 1, .cfg, 0⟩, ⟨1, 2, .cfg, 2⟩, ⟨3, 3, .cfg, 4⟩, ⟨6, 1, .cfg, 1⟩, ⟨7, 1, .cfg, 0⟩]⟩,
    -- HBR_PSTAT (R312): LINKUP WIDTH SPEED VC1 ROLE
    ⟨0x24, 1, 0x0, 1, 0x0, .open, false, [⟨0, 1, .ro, 0⟩, ⟨1, 3, .ro, 0⟩, ⟨4, 3, .ro, 0⟩, ⟨7, 1, .ro, 0⟩, ⟨8, 1, .ro, 0⟩]⟩,
    -- HBR_CTO (R322): US GRACE
    ⟨0x28, 1, 0x0, 1, 0x0, .open, false, [⟨0, 16, .rw, 0x2710⟩, ⟨16, 16, .rw, 0x64⟩]⟩,
    -- HBR_BARCFG (R314): BAR0SZ BAR2SZ
    ⟨0x2C, 1, 0x0, 1, 0x0, .open, false, [⟨0, 6, .cfg, 0x14⟩, ⟨8, 6, .cfg, 0x1e⟩]⟩,
    -- HBR_FENCE (R320): WIN GO
    ⟨0x30, 1, 0x0, 1, 0x0, .open, false, [⟨0, 6, .rw, 0⟩, ⟨31, 1, .own, 0⟩]⟩,
    -- HBR_FENCESTAT (R320): BUSY RES DONE
    ⟨0x34, 1, 0x0, 1, 0x0, .open, false, [⟨0, 1, .ro, 0⟩, ⟨1, 3, .ro, 0⟩, ⟨31, 1, .w1c, 0⟩]⟩,
    -- HBR_ELOGHEAD (R323): HEAD OVF
    ⟨0x38, 1, 0x0, 1, 0x0, .open, false, [⟨0, 4, .ro, 0⟩, ⟨16, 16, .w1c, 0⟩]⟩,
    -- HBR_PFLOGL (R317): ADDR
    ⟨0x40, 1, 0x0, 1, 0x0, .open, false, [⟨0, 32, .ro, 0⟩]⟩,
    -- HBR_PFLOGH (R317): ADDR
    ⟨0x44, 1, 0x0, 1, 0x0, .open, false, [⟨0, 8, .ro, 0⟩]⟩,
    -- HBR_IRQ (R319): ERR FENCE POLL PF
    ⟨0x48, 1, 0x0, 1, 0x0, .open, false, [⟨0, 1, .w1c, 0⟩, ⟨1, 1, .w1c, 0⟩, ⟨2, 1, .w1c, 0⟩, ⟨3, 1, .w1c, 0⟩]⟩,
    -- HBR_SIGTRIG (R325): SIG
    ⟨0x50, 1, 0x0, 1, 0x0, .open, false, [⟨0, 32, .own, 0⟩]⟩,
    -- HBR_POLLHIT (R324): HIT
    ⟨0x58, 2, 0x4, 1, 0x0, .open, false, [⟨0, 32, .w1c, 0⟩]⟩,
    -- HBR_POLLERR (R324): ERR
    ⟨0x60, 2, 0x4, 1, 0x0, .open, false, [⟨0, 32, .w1c, 0⟩]⟩,
    -- CNT[OUT_POSTED OUT_NP IN_POSTED IN_NP CPL_TIMEOUT HBR_PFDISCARD ERR_LOGGED LINK_DOWN REPLAY POLL_READS POLL_SKIP FENCES RING_TX_FRAMES RING_RX_FRAMES] LOW (R329): LOW
    ⟨0x100, 14, 0x8, 1, 0x0, .open, true, [⟨0, 32, .ro, 0⟩]⟩,
    -- CNT HIGH (R329): HIGH OVF WRAP
    ⟨0x104, 14, 0x8, 1, 0x0, .open, true, [⟨0, 30, .ro, 0⟩, ⟨30, 1, .ro, 0⟩, ⟨31, 1, .ro, 0⟩]⟩,
    -- HBR_OWIN w0 (R313): MBASEL
    ⟨0x10000, 64, 0x20, 1, 0x0, .table 1, false, [⟨12, 20, .rw, 0⟩]⟩,
    -- HBR_OWIN w1 (R313): MBASEH
    ⟨0x10004, 64, 0x20, 1, 0x0, .table 1, false, [⟨0, 32, .rw, 0⟩]⟩,
    -- HBR_OWIN w2 (R313): TBASEL
    ⟨0x10008, 64, 0x20, 1, 0x0, .table 1, false, [⟨12, 20, .rw, 0⟩]⟩,
    -- HBR_OWIN w3 (R313): TBASEH
    ⟨0x1000C, 64, 0x20, 1, 0x0, .table 1, false, [⟨0, 32, .rw, 0⟩]⟩,
    -- HBR_OWIN w4 (R313): EN SIZE WORLD URGENT PF LANES BAR
    ⟨0x10010, 64, 0x20, 1, 0x0, .table 1, false, [⟨0, 1, .rw, 0⟩, ⟨1, 6, .rw, 0xc⟩, ⟨7, 1, .rw, 1⟩, ⟨8, 1, .rw, 0⟩, ⟨9, 1, .rw, 0⟩, ⟨10, 3, .rw, 0⟩, ⟨13, 1, .rw, 0⟩]⟩,
    -- HBR_IWIN w0 (R313): MBASEL
    ⟨0x10800, 32, 0x20, 1, 0x0, .table 2, false, [⟨12, 20, .rw, 0⟩]⟩,
    -- HBR_IWIN w1 (R313): MBASEH
    ⟨0x10804, 32, 0x20, 1, 0x0, .table 2, false, [⟨0, 32, .rw, 0⟩]⟩,
    -- HBR_IWIN w2 (R313): TBASEL
    ⟨0x10808, 32, 0x20, 1, 0x0, .table 2, false, [⟨12, 20, .rw, 0⟩]⟩,
    -- HBR_IWIN w3 (R313): TBASEH
    ⟨0x1080C, 32, 0x20, 1, 0x0, .table 2, false, [⟨0, 32, .rw, 0⟩]⟩,
    -- HBR_IWIN w4 (R313): EN SIZE WORLD URGENT PF LANES BAR
    ⟨0x10810, 32, 0x20, 1, 0x0, .table 2, false, [⟨0, 1, .rw, 0⟩, ⟨1, 6, .rw, 0xc⟩, ⟨7, 1, .rw, 1⟩, ⟨8, 1, .rw, 0⟩, ⟨9, 1, .rw, 0⟩, ⟨10, 3, .rw, 0⟩, ⟨13, 1, .rw, 0⟩]⟩,
    -- HBR_POLL w0 (R324): EN COND ONCE WIN PERIOD
    ⟨0x20000, 64, 0x20, 1, 0x0, .open, false, [⟨0, 1, .rw, 0⟩, ⟨1, 2, .rw, 0⟩, ⟨3, 1, .rw, 0⟩, ⟨4, 6, .rw, 0⟩, ⟨12, 20, .rw, 0x64⟩]⟩,
    -- HBR_POLL w1 (R324): OFFSET
    ⟨0x20004, 64, 0x20, 1, 0x0, .open, false, [⟨0, 32, .rw, 0⟩]⟩,
    -- HBR_POLL w2 (R324): MASK
    ⟨0x20008, 64, 0x20, 1, 0x0, .open, false, [⟨0, 32, .rw, 0xffffffff⟩]⟩,
    -- HBR_POLL w3 (R324): VALUE
    ⟨0x2000C, 64, 0x20, 1, 0x0, .open, false, [⟨0, 32, .rw, 0⟩]⟩,
    -- HBR_POLL w4 (R324): LAST
    ⟨0x20010, 64, 0x20, 1, 0x0, .open, false, [⟨0, 32, .ro, 0⟩]⟩,
    -- HBR_SIG w0-2 (R325): W
    ⟨0x21000, 32, 0x10, 3, 0x4, .open, false, [⟨0, 32, .rw, 0⟩]⟩,
    -- HBR_ELOG w0 (R323): TYPE DIR WIN WORLD PMID VALID
    ⟨0x22000, 16, 0x20, 1, 0x0, .open, false, [⟨0, 4, .ro, 0⟩, ⟨4, 1, .ro, 0⟩, ⟨5, 6, .ro, 0⟩, ⟨11, 1, .ro, 0⟩, ⟨12, 6, .ro, 0⟩, ⟨31, 1, .w1c, 0⟩]⟩,
    -- HBR_ELOG w1-7 (R323): W
    ⟨0x22004, 16, 0x20, 7, 0x4, .open, false, [⟨0, 32, .ro, 0⟩]⟩,
    -- HBR_RING w0 (R326): EN LOG2 WIN
    ⟨0x23000, 2, 0x20, 1, 0x0, .open, false, [⟨0, 1, .rw, 0⟩, ⟨12, 4, .rw, 0⟩, ⟨16, 6, .rw, 0⟩]⟩,
    -- HBR_RING w1 (R326): OFF
    ⟨0x23004, 2, 0x20, 1, 0x0, .open, false, [⟨0, 32, .rw, 0⟩]⟩,
    -- HBR_RING w2 (R326): HEAD
    ⟨0x23008, 2, 0x20, 1, 0x0, .open, false, [⟨0, 32, .ro, 0⟩]⟩,
    -- HBR_RING w3 (R326): TAIL
    ⟨0x2300C, 2, 0x20, 1, 0x0, .open, false, [⟨0, 32, .own, 0⟩]⟩
  ]

/-- The registers of block index 0x20, beyond its header. -/
def rows20 : List Row :=
  [
    -- CPX_APPMODE (R331): SPLIT MAIN
    ⟨0x20, 1, 0x0, 1, 0x0, .open, false, [⟨0, 1, .ro, 0⟩, ⟨1, 2, .ro, 0⟩]⟩,
    -- CPX_GROOMCFG (R348): INTERVAL
    ⟨0x30, 1, 0x0, 1, 0x0, .open, false, [⟨0, 7, .rw, 0xa⟩]⟩,
    -- CPX_PAIRCTL u0-3 (R342): RUN STATE
    ⟨0x40, 4, 0x4, 1, 0x0, .open, false, [⟨0, 1, .own, 0⟩, ⟨1, 3, .ro, 0⟩]⟩,
    -- CPX_RVEC lo (R344): VEC
    ⟨0x60, 4, 0x8, 1, 0x0, .open, false, [⟨0, 32, .cfg, 0⟩]⟩,
    -- CPX_RVEC hi (R344): VEC
    ⟨0x64, 4, 0x8, 1, 0x0, .open, false, [⟨0, 8, .cfg, 0⟩]⟩
  ]

/-- The registers of block index 0x21, beyond its header. -/
def rows21 : List Row :=
  [
    -- CPX_IMSIC (R340): SETEIPNUM
    ⟨0x10000, 36, 0x1000, 2, 0x4, .open, false, [⟨0, 32, .wo, 0⟩]⟩
  ]

/-- The registers of block index 0x22, beyond its header. -/
def rows22 : List Row :=
  [
    -- CPX_APLIC APP (R340): W
    ⟨0x10000, 8192, 0x4, 1, 0x0, .open, false, [⟨0, 32, .rw, 0⟩]⟩
  ]

/-- The registers of block index 0x23, beyond its header. -/
def rows23 : List Row :=
  [
    -- CPX_PARTLOCK (R338): LOCK
    ⟨0x20, 1, 0x0, 1, 0x0, .open, false, [⟨0, 1, .w1s, 0⟩]⟩,
    -- CPX_DBGCTL (R351): OPEN RES GO
    ⟨0x30, 1, 0x0, 1, 0x0, .open, false, [⟨0, 7, .ro, 0⟩, ⟨8, 4, .ro, 0⟩, ⟨31, 1, .own, 0⟩]⟩,
    -- CPX_GROOMCFG RT (R348): INTERVAL
    ⟨0x34, 1, 0x0, 1, 0x0, .open, false, [⟨0, 7, .rw, 0xa⟩]⟩,
    -- CPX_CKPTCOMMIT (R345): PMID SEQ
    ⟨0x38, 1, 0x0, 1, 0x0, .open, false, [⟨0, 6, .own, 0⟩, ⟨16, 16, .own, 0⟩]⟩,
    -- CPX_SWIRQ (R340): SRC
    ⟨0x40, 1, 0x0, 1, 0x0, .open, false, [⟨0, 9, .own, 0⟩]⟩,
    -- CPX_PAIRCTL u4-5 (R342): RUN STATE
    ⟨0x48, 2, 0x4, 1, 0x0, .open, false, [⟨0, 1, .own, 0⟩, ⟨1, 3, .ro, 0⟩]⟩,
    -- CPX_RVEC RT (R344): VEC
    ⟨0x50, 2, 0x4, 1, 0x0, .open, false, [⟨0, 32, .cfg, 0x30000000⟩]⟩,
    -- CNT[LOCKSTEP_OUT LATENT_DIVERGE SCRUBS SPARE_RETURN DBG_OPEN FAILOVERS] LOW (R354): LOW
    ⟨0x100, 6, 0x8, 1, 0x0, .open, true, [⟨0, 32, .ro, 0⟩]⟩,
    -- CNT HIGH (R354): HIGH OVF WRAP
    ⟨0x104, 6, 0x8, 1, 0x0, .open, true, [⟨0, 30, .ro, 0⟩, ⟨30, 1, .ro, 0⟩, ⟨31, 1, .ro, 0⟩]⟩,
    -- CPX_FOREC w0 (R346): FAILED SURVIVOR LATENT VALID
    ⟨0x400, 2, 0x20, 1, 0x0, .open, false, [⟨0, 3, .ro, 0⟩, ⟨3, 3, .ro, 0⟩, ⟨8, 1, .ro, 0⟩, ⟨31, 1, .w1c, 0⟩]⟩,
    -- CPX_FOREC w1-4 (R346): W
    ⟨0x404, 2, 0x20, 4, 0x4, .open, false, [⟨0, 32, .ro, 0⟩]⟩,
    -- CPX_CKPTSEQ (R345): SEQ
    ⟨0x600, 48, 0x4, 1, 0x0, .open, false, [⟨0, 16, .ro, 0⟩]⟩,
    -- CPX_PARTHOME (R339): HOME
    ⟨0x800, 48, 0x4, 1, 0x0, .partLock, false, [⟨0, 3, .rw, 0⟩]⟩,
    -- CPX_APLIC RT (R340): W
    ⟨0x20000, 4112, 0x4, 1, 0x0, .open, false, [⟨0, 32, .rw, 0⟩]⟩,
    -- CPX_DBGCERT (R350): W
    ⟨0x3000, 57, 0x4, 1, 0x0, .open, false, [⟨0, 32, .rw, 0⟩]⟩,
    -- CPX_PART w0-11 (R338): W
    ⟨0x10000, 64, 0x40, 12, 0x4, .partTbl, false, [⟨0, 32, .rw, 0xffffffff⟩]⟩,
    -- CPX_TCM (R334): W
    ⟨0x40000, 2, 0x40000, 65536, 0x4, .tcm, false, [⟨0, 32, .rw, 0⟩]⟩
  ]

/-- The registers of block index 0x24, beyond its header. -/
def rows24 : List Row :=
  [
    -- PWC_SEQSTAT (R376): RUN HBEAT LINKOK DIESTATE
    ⟨0x20, 1, 0x0, 1, 0x0, .open, false, [⟨0, 4, .ro, 0⟩, ⟨4, 1, .ro, 0⟩, ⟨5, 2, .ro, 0⟩, ⟨8, 2, .ro, 0⟩]⟩,
    -- PWC_DIECFG (R357): LIMIT GLLIMIT GLSHED RSTMAX
    ⟨0x24, 1, 0x0, 1, 0x0, .open, false, [⟨0, 7, .rw, 0x50⟩, ⟨8, 7, .rw, 0x3c⟩, ⟨16, 1, .rw, 0⟩, ⟨17, 3, .rw, 2⟩]⟩,
    -- PWC_DIESTATE (R379): FEED LOADDUMP GNDSHIFT SHED AVGA
    ⟨0x28, 1, 0x0, 1, 0x0, .open, false, [⟨0, 16, .ro, 0⟩, ⟨16, 1, .ro, 0⟩, ⟨17, 1, .w1c, 0⟩, ⟨18, 1, .w1c, 0⟩, ⟨24, 8, .ro, 0⟩]⟩,
    -- PWC_LOADADDRL (R172): ADDR
    ⟨0x30, 1, 0x0, 1, 0x0, .open, false, [⟨0, 32, .rw, 0⟩]⟩,
    -- PWC_LOADADDRH (R172): ADDR
    ⟨0x34, 1, 0x0, 1, 0x0, .open, false, [⟨0, 8, .rw, 0⟩]⟩,
    -- PWC_LOADCTL (R172): GO
    ⟨0x38, 1, 0x0, 1, 0x0, .open, false, [⟨31, 1, .own, 0⟩]⟩,
    -- PWC_LOADSTAT (R172): BUSY DONE RES
    ⟨0x3C, 1, 0x0, 1, 0x0, .open, false, [⟨0, 1, .ro, 0⟩, ⟨1, 1, .w1c, 0⟩, ⟨8, 4, .ro, 0⟩]⟩,
    -- PWC_CALCFG (R361): ANYTIME STALES
    ⟨0x40, 1, 0x0, 1, 0x0, .open, false, [⟨0, 1, .rw, 0⟩, ⟨8, 8, .rw, 0x3c⟩]⟩,
    -- PWC_SNAPCFG (R366): PERIOD
    ⟨0x44, 1, 0x0, 1, 0x0, .open, false, [⟨0, 16, .rw, 0x3e8⟩]⟩,
    -- PWC_SNAPSTAT (R367): CASE
    ⟨0x48, 1, 0x0, 1, 0x0, .open, false, [⟨0, 2, .ro, 0⟩]⟩,
    -- PWC_TRAP (R360): CAUSE PC VALID
    ⟨0x50, 4, 0x4, 1, 0x0, .open, false, [⟨0, 6, .ro, 0⟩, ⟨16, 13, .ro, 0⟩, ⟨31, 1, .w1c, 0⟩]⟩,
    -- PWC_THRSTAT (R358): STATE OVERRUN
    ⟨0x60, 4, 0x4, 1, 0x0, .open, false, [⟨0, 2, .ro, 0⟩, ⟨16, 16, .w1c, 0⟩]⟩,
    -- PWC_CMDQ (R359): DEPTH
    ⟨0x70, 1, 0x0, 1, 0x0, .open, false, [⟨0, 5, .snap, 0⟩]⟩,
    -- CNT[CMD_REFUSED LINK_CRC_A LINK_CRC_B HOLD_ENTRY ATTACH_REJ DIE_SHED LOADDUMP_OFF] LOW (R382): LOW
    ⟨0x100, 7, 0x8, 1, 0x0, .open, true, [⟨0, 32, .ro, 0⟩]⟩,
    -- CNT HIGH (R382): HIGH OVF WRAP
    ⟨0x104, 7, 0x8, 1, 0x0, .open, true, [⟨0, 30, .ro, 0⟩, ⟨30, 1, .ro, 0⟩, ⟨31, 1, .ro, 0⟩]⟩,
    -- PWC_CHCFG (R358): THREAD PWMEN OLOFFEN SHED
    ⟨0x10000, 24, 0x100, 1, 0x0, .open, false, [⟨0, 2, .cfg, 0⟩, ⟨2, 1, .cfg, 0⟩, ⟨3, 1, .cfg, 0⟩, ⟨4, 1, .rw, 0⟩]⟩,
    -- PWC_PWMPER (R377): PERIOD
    ⟨0x10004, 24, 0x100, 1, 0x0, .open, false, [⟨0, 27, .cfg, 0x4c4b40⟩]⟩,
    -- PWC_PWMPHASE (R377): PHASE
    ⟨0x10008, 24, 0x100, 1, 0x0, .open, false, [⟨0, 27, .cfg, 0⟩]⟩,
    -- PWC_MOGUL (R369): RETRIES SPACING
    ⟨0x1000C, 24, 0x100, 1, 0x0, .open, false, [⟨0, 4, .rw, 3⟩, ⟨8, 7, .rw, 0xa⟩]⟩,
    -- PWC_ELEV (R368): WIN
    ⟨0x10010, 24, 0x100, 1, 0x0, .open, false, [⟨0, 16, .rw, 0x32⟩]⟩,
    -- PWC_LEVELS (R368): ELEVI ELEVSTEP INST
    ⟨0x10014, 24, 0x100, 1, 0x0, .open, false, [⟨0, 10, .rw, 0⟩, ⟨10, 10, .rw, 0⟩, ⟨20, 10, .rw, 0⟩]⟩,
    -- PWC_CHSTAT (R368): DESIRED ACTUAL CAUSE LATCH USED ELEV HOLD OLON OLOFF CALSTALE MODELSTALL REFUSED BADPWM LEVEL
    ⟨0x10018, 24, 0x100, 1, 0x0, .open, false, [⟨0, 1, .ro, 0⟩, ⟨1, 1, .ro, 0⟩, ⟨2, 7, .ro, 0⟩, ⟨9, 1, .ro, 0⟩, ⟨10, 4, .ro, 0⟩, ⟨14, 1, .ro, 0⟩, ⟨15, 1, .ro, 0⟩, ⟨16, 1, .w1c, 0⟩, ⟨17, 1, .w1c, 0⟩, ⟨18, 1, .ro, 0⟩, ⟨19, 1, .w1c, 0⟩, ⟨20, 1, .w1c, 0⟩, ⟨21, 1, .w1c, 0⟩, ⟨22, 10, .ro, 0⟩]⟩,
    -- PWC_CHDUTY (R377): DUTY
    ⟨0x1001C, 24, 0x100, 1, 0x0, .open, false, [⟨0, 16, .ro, 0⟩]⟩,
    -- PWC_THETA (R365): THETA
    ⟨0x10020, 24, 0x100, 1, 0x0, .open, false, [⟨0, 32, .own, 0⟩]⟩,
    -- PWC_MODELCFG (R364): ALPHA DTSH FLOOR
    ⟨0x10024, 24, 0x100, 1, 0x0, .open, false, [⟨0, 16, .rw, 0x70⟩, ⟨16, 4, .rw, 0xa⟩, ⟨31, 1, .ro, 0⟩]⟩,
    -- PWC_THLIM (R365): THLIM
    ⟨0x10028, 24, 0x100, 1, 0x0, .open, false, [⟨0, 32, .rw, 0x410000⟩]⟩,
    -- PWC_THCONT (R365): THCONT
    ⟨0x1002C, 24, 0x100, 1, 0x0, .open, false, [⟨0, 32, .rw, 0x280000⟩]⟩,
    -- PWC_THRESET (R372): THRESET
    ⟨0x10030, 24, 0x100, 1, 0x0, .open, false, [⟨0, 32, .rw, 0x280000⟩]⟩,
    -- PWC_KW (R364): KW
    ⟨0x10034, 24, 0x100, 1, 0x0, .open, false, [⟨0, 32, .rw, 0x199a⟩]⟩,
    -- PWC_CHOFS (R361): OFS
    ⟨0x10040, 24, 0x100, 1, 0x0, .open, false, [⟨0, 16, .ro, 0⟩]⟩,
    -- PWC_CHGAIN (R362): GAIN
    ⟨0x10044, 24, 0x100, 1, 0x0, .open, false, [⟨0, 16, .ro, 0x4000⟩]⟩,
    -- PWC_RACC (R373): RACC
    ⟨0x10048, 24, 0x100, 1, 0x0, .open, false, [⟨0, 32, .ro, 0⟩]⟩,
    -- CNT[TRIP_FAST TRIP_INST TRIP_MODEL TRIP_THERM TRIP_RUNOUT RETRIES ARB_DELAY CAL_GAIN CAL_DISCARD ON_IGNORED] LOW (R382): LOW
    ⟨0x10080, 24, 0x100, 10, 0x8, .open, true, [⟨0, 32, .ro, 0⟩]⟩,
    -- CNT HIGH (R382): HIGH OVF WRAP
    ⟨0x10084, 24, 0x100, 10, 0x8, .open, true, [⟨0, 30, .ro, 0⟩, ⟨30, 1, .ro, 0⟩, ⟨31, 1, .ro, 0⟩]⟩,
    -- PWC_DMEM (R144): W
    ⟨0x40000, 4096, 0x4, 1, 0x0, .open, false, [⟨0, 32, .rw, 0⟩]⟩
  ]

/-- The registers of block index 0x26, beyond its header. -/
def rows26 : List Row :=
  [
    -- WAK_STATE (R383): CUR TARGET TRANS RESUMED
    ⟨0x20, 1, 0x0, 1, 0x0, .open, false, [⟨0, 2, .ro, 3⟩, ⟨2, 2, .ro, 3⟩, ⟨4, 1, .ro, 0⟩, ⟨5, 1, .ro, 0⟩]⟩,
    -- WAK_STATECTL (R387): REQ GO
    ⟨0x24, 1, 0x0, 1, 0x0, .open, false, [⟨0, 2, .rw, 3⟩, ⟨31, 1, .own, 0⟩]⟩,
    -- WAK_SRCEN (R392): EN ENFIX ENH
    ⟨0x28, 1, 0x0, 1, 0x0, .open, false, [⟨0, 8, .rw, 6⟩, ⟨8, 2, .ro, 3⟩, ⟨10, 6, .rw, 0⟩]⟩,
    -- WAK_SRCTGT (R392): IVORY
    ⟨0x2C, 1, 0x0, 1, 0x0, .open, false, [⟨0, 16, .rw, 0xffff⟩]⟩,
    -- WAK_TIMERS (R394): FWTMO MAXAWAKE
    ⟨0x30, 1, 0x0, 1, 0x0, .open, false, [⟨0, 10, .rw, 0x14⟩, ⟨16, 11, .rw, 0x2d⟩]⟩,
    -- WAK_SLEEPCFG (R403): DEPTH KEYHOLD DOWAKE WAKEGUARD
    ⟨0x34, 1, 0x0, 1, 0x0, .open, false, [⟨0, 1, .rw, 0⟩, ⟨1, 1, .rw, 1⟩, ⟨2, 1, .rw, 1⟩, ⟨4, 4, .rw, 2⟩]⟩,
    -- WAK_CONSENT (R398): VOTE WCONS OVR CONSENT
    ⟨0x38, 1, 0x0, 1, 0x0, .open, false, [⟨0, 16, .own, 0⟩, ⟨16, 1, .ro, 1⟩, ⟨17, 1, .ro, 0⟩, ⟨18, 1, .ro, 0⟩]⟩,
    -- WAK_PEWPORTS (R383): PORTS
    ⟨0x3C, 1, 0x0, 1, 0x0, .open, false, [⟨0, 32, .rw, 0xf⟩]⟩,
    -- WAK_PEWCFG (R383): HBR
    ⟨0x40, 1, 0x0, 1, 0x0, .open, false, [⟨0, 1, .rw, 0⟩]⟩,
    -- WAK_PINCFG (R392): EDGE KEYLOW
    ⟨0x44, 1, 0x0, 1, 0x0, .open, false, [⟨0, 8, .rw, 0x55⟩, ⟨8, 1, .rw, 0⟩]⟩,
    -- WAK_RTCSEC (R386): SEC
    ⟨0x50, 1, 0x0, 1, 0x0, .open, false, [⟨0, 32, .ro, 0⟩]⟩,
    -- WAK_RTCSUB (R386): TICKS VALID
    ⟨0x54, 1, 0x0, 1, 0x0, .open, false, [⟨0, 15, .ro, 0⟩, ⟨31, 1, .ro, 0⟩]⟩,
    -- WAK_RTCSET (R386): SEC
    ⟨0x58, 1, 0x0, 1, 0x0, .open, false, [⟨0, 32, .rw, 0⟩]⟩,
    -- WAK_RTCCTL (R386): GO
    ⟨0x5C, 1, 0x0, 1, 0x0, .open, false, [⟨31, 1, .own, 0⟩]⟩,
    -- WAK_ALARM sec (R392): SEC
    ⟨0x60, 2, 0x8, 1, 0x0, .open, false, [⟨0, 32, .rw, 0⟩]⟩,
    -- WAK_ALARM en (R392): EN
    ⟨0x64, 2, 0x8, 1, 0x0, .open, false, [⟨0, 1, .rw, 0⟩]⟩,
    -- WAK_WKHEAD (R393): HEAD OVF
    ⟨0x70, 1, 0x0, 1, 0x0, .open, false, [⟨0, 5, .ro, 0⟩, ⟨16, 16, .w1c, 0⟩]⟩,
    -- WAK_LOADADDRL (R172): ADDR
    ⟨0x80, 1, 0x0, 1, 0x0, .open, false, [⟨0, 32, .rw, 0⟩]⟩,
    -- WAK_LOADADDRH (R172): ADDR
    ⟨0x84, 1, 0x0, 1, 0x0, .open, false, [⟨0, 8, .rw, 0⟩]⟩,
    -- WAK_LOADCTL (R172): GO
    ⟨0x88, 1, 0x0, 1, 0x0, .open, false, [⟨31, 1, .own, 0⟩]⟩,
    -- WAK_LOADSTAT (R172): BUSY DONE RES
    ⟨0x8C, 1, 0x0, 1, 0x0, .open, false, [⟨0, 1, .ro, 0⟩, ⟨1, 1, .w1c, 0⟩, ⟨8, 4, .ro, 0⟩]⟩,
    -- WAK_WSTAT (R395): STATE CAUSE PC VALID
    ⟨0x90, 1, 0x0, 1, 0x0, .open, false, [⟨0, 2, .ro, 0⟩, ⟨8, 6, .ro, 0⟩, ⟨16, 11, .ro, 0⟩, ⟨31, 1, .w1c, 0⟩]⟩,
    -- WAK_WTMR (R395): MS
    ⟨0x94, 1, 0x0, 1, 0x0, .open, false, [⟨0, 16, .rw, 0⟩]⟩,
    -- CNT[WAKES FALSE_WAKES IGNORED_WAKES CHAIR_FWD COMMITS ABORTS_SENT ABORTS_RCVD OVERRIDES VOID_COMMITS RING_BAD] LOW (R406): LOW
    ⟨0x100, 10, 0x8, 1, 0x0, .open, true, [⟨0, 32, .ro, 0⟩]⟩,
    -- CNT HIGH (R406): HIGH OVF WRAP
    ⟨0x104, 10, 0x8, 1, 0x0, .open, true, [⟨0, 30, .ro, 0⟩, ⟨30, 1, .ro, 0⟩, ⟨31, 1, .ro, 0⟩]⟩,
    -- WAK_RINGCFG (R396): RINGEN LEADER BACKUP TOPLEADER CANXP CODE CHAIRTMO LDRTMO
    ⟨0x200, 1, 0x0, 1, 0x0, .open, false, [⟨0, 1, .rw, 0⟩, ⟨1, 1, .rw, 0⟩, ⟨2, 1, .rw, 0⟩, ⟨3, 1, .rw, 0⟩, ⟨4, 1, .rw, 0⟩, ⟨8, 8, .rw, 0xf0⟩, ⟨16, 8, .rw, 0x32⟩, ⟨24, 8, .rw, 0xa⟩]⟩,
    -- WAK_NODEID (R396): ID
    ⟨0x204, 1, 0x0, 1, 0x0, .open, false, [⟨0, 16, .rw, 0⟩]⟩,
    -- WAK_SEGMAC lo (R397): MAC
    ⟨0x208, 1, 0x0, 1, 0x0, .open, false, [⟨0, 32, .rw, 0⟩]⟩,
    -- WAK_SEGMAC hi (R397): MAC
    ⟨0x20C, 1, 0x0, 1, 0x0, .open, false, [⟨0, 16, .rw, 0⟩]⟩,
    -- WAK_TOPMAC lo (R397): MAC
    ⟨0x210, 1, 0x0, 1, 0x0, .open, false, [⟨0, 32, .rw, 0⟩]⟩,
    -- WAK_TOPMAC hi (R397): MAC
    ⟨0x214, 1, 0x0, 1, 0x0, .open, false, [⟨0, 16, .rw, 0⟩]⟩,
    -- WAK_OWNMAC lo (R397): MAC
    ⟨0x218, 1, 0x0, 1, 0x0, .open, false, [⟨0, 32, .rw, 0⟩]⟩,
    -- WAK_OWNMAC hi (R397): MAC
    ⟨0x21C, 1, 0x0, 1, 0x0, .open, false, [⟨0, 16, .rw, 0⟩]⟩,
    -- WAK_CANXP (R397): IDENT IDE
    ⟨0x220, 1, 0x0, 1, 0x0, .open, false, [⟨0, 29, .rw, 0⟩, ⟨29, 1, .rw, 0⟩]⟩,
    -- WAK_CANCH (R397): CH
    ⟨0x224, 1, 0x0, 1, 0x0, .open, false, [⟨0, 4, .rw, 0⟩]⟩,
    -- WAK_SEGMAP (R396): MAP
    ⟨0x240, 8, 0x4, 1, 0x0, .open, false, [⟨0, 32, .rw, 0⟩]⟩,
    -- WAK_TOPMAP (R396): MAP
    ⟨0x260, 8, 0x4, 1, 0x0, .open, false, [⟨0, 32, .rw, 0⟩]⟩,
    -- WAK_OVRMAP (R404): MAP
    ⟨0x280, 8, 0x4, 1, 0x0, .open, false, [⟨0, 32, .ro, 0⟩]⟩,
    -- WAK_EPOCH (R400): EPOCH PHASE WOKE SEGDONE ACTING
    ⟨0x2A0, 1, 0x0, 1, 0x0, .open, false, [⟨0, 16, .ro, 0⟩, ⟨16, 2, .ro, 0⟩, ⟨18, 1, .ro, 0⟩, ⟨19, 1, .ro, 0⟩, ⟨20, 1, .ro, 0⟩]⟩,
    -- WAK_DEADLINE (R402): US
    ⟨0x2A4, 1, 0x0, 1, 0x0, .open, false, [⟨0, 16, .ro, 0⟩]⟩,
    -- WAK_REC w0 (R393): SRC SUB COUNT
    ⟨0x800, 32, 0x10, 1, 0x0, .open, false, [⟨0, 8, .ro, 0⟩, ⟨8, 8, .ro, 0⟩, ⟨16, 16, .ro, 0⟩]⟩,
    -- WAK_REC w1 (R393): IDENT
    ⟨0x804, 32, 0x10, 1, 0x0, .open, false, [⟨0, 32, .ro, 0⟩]⟩,
    -- WAK_REC w2 (R393): SEC
    ⟨0x808, 32, 0x10, 1, 0x0, .open, false, [⟨0, 32, .ro, 0⟩]⟩,
    -- WAK_REC w3 (R393): TICKS IGNORED FALSE RTCBAD BEFORE REACHED VALID
    ⟨0x80C, 32, 0x10, 1, 0x0, .open, false, [⟨0, 15, .ro, 0⟩, ⟨16, 1, .ro, 0⟩, ⟨17, 1, .ro, 0⟩, ⟨18, 1, .ro, 0⟩, ⟨20, 2, .ro, 0⟩, ⟨22, 2, .ro, 0⟩, ⟨31, 1, .w1c, 0⟩]⟩
  ]

/-- The registers of block index 0x28, beyond its header. -/
def rows28 : List Row :=
  [
    -- NVS_WADDR (R409): OFFSET
    ⟨0x20, 1, 0x0, 1, 0x0, .open, false, [⟨3, 20, .rw, 0⟩]⟩,
    -- NVS_WDATAL (R409): DATA
    ⟨0x24, 1, 0x0, 1, 0x0, .open, false, [⟨0, 32, .rw, 0⟩]⟩,
    -- NVS_WDATAH (R409): DATA
    ⟨0x28, 1, 0x0, 1, 0x0, .open, false, [⟨0, 32, .own, 0⟩]⟩,
    -- NVS_STAT (R409): BUSY UNCORR
    ⟨0x2C, 1, 0x0, 1, 0x0, .open, false, [⟨0, 1, .ro, 0⟩, ⟨2, 1, .w1c, 0⟩]⟩,
    -- NVS_BBHEAD L (R435): SEQ
    ⟨0x30, 1, 0x0, 1, 0x0, .open, true, [⟨0, 32, .ro, 0⟩]⟩,
    -- NVS_BBHEAD H (R435): SEQ
    ⟨0x34, 1, 0x0, 1, 0x0, .open, true, [⟨0, 32, .ro, 0⟩]⟩,
    -- NVS_BBSTAT (R436): FRZCNT FRZFULL REFUSED CLRBUSY CLRRES
    ⟨0x38, 1, 0x0, 1, 0x0, .open, false, [⟨0, 6, .ro, 0⟩, ⟨8, 1, .w1c, 0⟩, ⟨9, 1, .w1c, 0⟩, ⟨10, 1, .ro, 0⟩, ⟨12, 4, .ro, 0⟩]⟩,
    -- NVS_BBEXPORT L (R437): MARK
    ⟨0x40, 1, 0x0, 1, 0x0, .open, false, [⟨0, 32, .rw, 0⟩]⟩,
    -- NVS_BBEXPORT H (R437): MARK
    ⟨0x44, 1, 0x0, 1, 0x0, .open, false, [⟨0, 32, .own, 0⟩]⟩,
    -- NVS_BBCMD (R434): CODE CLEAR SWREC
    ⟨0x48, 1, 0x0, 1, 0x0, .open, false, [⟨0, 16, .rw, 0⟩, ⟨30, 1, .own, 0⟩, ⟨31, 1, .own, 0⟩]⟩,
    -- NVS_BBSWDATA (R434): W
    ⟨0x80, 8, 0x4, 1, 0x0, .open, false, [⟨0, 32, .rw, 0⟩]⟩,
    -- CNT[BB_RECORDS BB_LOST MRAM_UNCORR] LOW (R441): LOW
    ⟨0x100, 3, 0x8, 1, 0x0, .open, true, [⟨0, 32, .ro, 0⟩]⟩,
    -- CNT HIGH (R441): HIGH OVF WRAP
    ⟨0x104, 3, 0x8, 1, 0x0, .open, true, [⟨0, 30, .ro, 0⟩, ⟨30, 1, .ro, 0⟩, ⟨31, 1, .ro, 0⟩]⟩,
    -- NVS_CLRBUF (R437): W
    ⟨0x200, 59, 0x4, 1, 0x0, .open, false, [⟨0, 32, .rw, 0⟩]⟩
  ]

/-- The registers of block index 0x29, beyond its header. -/
def rows29 : List Row :=
  [
    -- BOOT_STATE (R412): ACTIVE PENDING TRIAL ATTEMPTS BOOTED KIND HOLD MARKER
    ⟨0x20, 1, 0x0, 1, 0x0, .open, false, [⟨0, 1, .ro, 0⟩, ⟨1, 1, .ro, 0⟩, ⟨2, 1, .ro, 0⟩, ⟨3, 2, .ro, 0⟩, ⟨5, 2, .ro, 0⟩, ⟨7, 1, .ro, 0⟩, ⟨8, 1, .ro, 0⟩, ⟨9, 2, .ro, 0⟩]⟩,
    -- BOOT_SESSION (R426): STATE SRC COMP SEG
    ⟨0x24, 1, 0x0, 1, 0x0, .open, false, [⟨0, 3, .ro, 0⟩, ⟨4, 2, .ro, 0⟩, ⟨8, 5, .ro, 0⟩, ⟨16, 16, .ro, 0⟩]⟩,
    -- BOOT_CTL (R431): COMMIT ABORT
    ⟨0x28, 1, 0x0, 1, 0x0, .open, false, [⟨0, 1, .own, 0⟩, ⟨1, 1, .own, 0⟩]⟩,
    -- BOOT_IDLE (R426): SEC
    ⟨0x2C, 1, 0x0, 1, 0x0, .open, false, [⟨0, 10, .ro, 0⟩]⟩,
    -- BOOT_STARTS (R412): COUNT
    ⟨0x30, 1, 0x0, 1, 0x0, .open, false, [⟨0, 32, .ro, 0⟩]⟩,
    -- CNT[SESSIONS COMMITS ABORTS BUSY_REJ FALLBACKS SEG_FAIL] LOW (R441): LOW
    ⟨0x100, 6, 0x8, 1, 0x0, .open, true, [⟨0, 32, .ro, 0⟩]⟩,
    -- CNT HIGH (R441): HIGH OVF WRAP
    ⟨0x104, 6, 0x8, 1, 0x0, .open, true, [⟨0, 30, .ro, 0⟩, ⟨30, 1, .ro, 0⟩, ⟨31, 1, .ro, 0⟩]⟩,
    -- BOOT_ARC (R424): VALUE
    ⟨0x200, 64, 0x4, 1, 0x0, .open, false, [⟨0, 32, .ro, 0⟩]⟩,
    -- BOOT_SCMD (R426): OP GO
    ⟨0x10000, 3, 0x1000, 1, 0x0, .updCh, false, [⟨0, 3, .rw, 0⟩, ⟨31, 1, .own, 0⟩]⟩,
    -- BOOT_SSTAT (R426): BUSY DONE RES
    ⟨0x10004, 3, 0x1000, 1, 0x0, .updCh, false, [⟨0, 1, .ro, 0⟩, ⟨1, 1, .w1c, 0⟩, ⟨8, 4, .ro, 0⟩]⟩,
    -- BOOT_SADDRL (R425): ADDR
    ⟨0x10008, 3, 0x1000, 1, 0x0, .updCh, false, [⟨0, 32, .rw, 0⟩]⟩,
    -- BOOT_SADDRH (R425): ADDR
    ⟨0x1000C, 3, 0x1000, 1, 0x0, .updCh, false, [⟨0, 8, .rw, 0⟩]⟩,
    -- BOOT_SLEN (R425): LEN
    ⟨0x10010, 3, 0x1000, 1, 0x0, .updCh, false, [⟨0, 17, .rw, 0⟩]⟩
  ]

/-- Every present block: its index and its rows, header first (R27). -/
def blockTable : List (Nat × List Row) :=
  [ (0, headerRows 0x5359 0 ++ rows00),
    (1, headerRows 0x464C 0 ++ rows01),
    (2, headerRows 0x4D4F 0 ++ rows02),
    (4, headerRows 0x5052 0 ++ rows04),
    (5, headerRows 0x5052 1 ++ rows05),
    (6, headerRows 0x5052 2 ++ rows06),
    (7, headerRows 0x5052 3 ++ rows07),
    (8, headerRows 0x4641 0 ++ rows08),
    (9, headerRows 0x4641 1 ++ rows09),
    (10, headerRows 0x4641 2 ++ rows0A),
    (11, headerRows 0x4641 3 ++ commitRows ++ rows0B),
    (12, headerRows 0x434C 0 ++ commitRows ++ rows0C),
    (13, headerRows 0x434C 1 ++ commitRows ++ rows0D),
    (14, headerRows 0x434C 2 ++ rows0E),
    (15, headerRows 0x434C 3 ++ commitRows ++ rows0F),
    (16, headerRows 0x5254 0 ++ commitRows ++ rows10),
    (17, headerRows 0x5254 1 ++ rows11),
    (18, headerRows 0x5254 2 ++ rows11),
    (19, headerRows 0x5254 3 ++ rows11),
    (20, headerRows 0x544D 0 ++ rows14),
    (21, headerRows 0x544D 1 ++ commitRows ++ rows15),
    (22, headerRows 0x544D 2 ++ commitRows ++ rows16),
    (23, headerRows 0x544D 3 ++ commitRows ++ rows17),
    (24, headerRows 0x5449 0 ++ rows18),
    (25, headerRows 0x4349 0 ++ rows19),
    (26, headerRows 0x564C 0 ++ rows1A),
    (28, headerRows 0x4757 0 ++ rows1C),
    (29, headerRows 0x4757 1 ++ rows1D),
    (30, headerRows 0x4842 0 ++ commitRows ++ rows1E),
    (32, headerRows 0x4350 0 ++ rows20),
    (33, headerRows 0x4350 1 ++ rows21),
    (34, headerRows 0x4350 2 ++ rows22),
    (35, headerRows 0x4350 3 ++ commitRows ++ rows23),
    (36, headerRows 0x5057 0 ++ rows24),
    (37, headerRows 0x5057 1 ++ rows24),
    (38, headerRows 0x5741 0 ++ rows26),
    (40, headerRows 0x4E56 0 ++ rows28),
    (41, headerRows 0x424F 0 ++ rows29) ]

/-- The rows of a block index: none where R27 lists no block. -/
def rowsOf (blk : Nat) : List Row := (blockTable.lookup blk).getD []

/-- The index is one that R27 lists. -/
def blockListed (blk : Nat) : Bool := (blockTable.lookup blk).isSome

/-- A register is named by its block index and byte offset: `blk * 2 ^ 20 + offset`. -/
def regKey (blk off : Nat) : Nat := blk * 0x100000 + off

/-- The row that covers a register, if the word exists. -/
def rowAt (key : Nat) : Option Row :=
  (rowsOf (key / 0x100000)).find? (fun r => r.covers (key % 0x100000))

/-- The word a list of fields holds at reset. -/
def fieldsReset (fs : List FieldDesc) : Nat := fs.foldr (fun f acc => acc + f.reset * 2 ^ f.lo) 0

/-- The reset value of the register at a key: 0 where no register stands.
DESIGN CHOICE, unsafe (log entry 7). -/
def resetWord (key : Nat) : Word :=
  match rowAt key with
  | some r => BitVec.ofNat 32 (fieldsReset r.fields)
  | none => 0

end Sys2Proof.Machine
end

