-- ==== Sys2Proof/Machine/RegNames.lean ====
section
/-!
DEFINITION. The names of the registers: for each register of the register tables its key
(block index and byte offset), with its instance indices as arguments, and the same for the
counter pairs (`Cnt`). Fields are then read and written by their bit positions.
-/

namespace Sys2Proof.Machine

/-- The port page of port `p` (R72). -/
def prtPage (p : Nat) : Nat :=
  if p < 12 then regKey 4 (0x10000 + 0x1000 * p)
  else if p < 28 then regKey 5 (0x10000 + 0x1000 * (p - 12))
  else if p < 32 then regKey 6 (0x10000 + 0x1000 * (p - 28))
  else regKey 7 (0x10000 + 0x1000 * (p - 32))

abbrev Reg.SYS_CAPS : Nat := regKey 0 (0x10)
abbrev Reg.SYS_BERRADDRL : Nat := regKey 0 (0x20)
abbrev Reg.SYS_BERRADDRH : Nat := regKey 0 (0x24)
abbrev Reg.SYS_BERRINFO : Nat := regKey 0 (0x28)
abbrev Reg.SYS_BLKWORLD (i : Nat) : Nat := regKey 0 (0x40 + 0x4 * i)
abbrev Reg.SYS_WORLDLOCK : Nat := regKey 0 (0x50)
abbrev Reg.SYS_RGNBASE (i : Nat) : Nat := regKey 0 (0x1000 + 0x10 * i)
abbrev Reg.SYS_RGNLIM (i : Nat) : Nat := regKey 0 (0x1004 + 0x10 * i)
abbrev Reg.SYS_RGNATTR (i : Nat) : Nat := regKey 0 (0x1008 + 0x10 * i)
abbrev Reg.FLT_GSTAT : Nat := regKey 1 (0x20)
abbrev Reg.FLT_SCRUB : Nat := regKey 1 (0x24)
abbrev Reg.FLT_SAFECFG : Nat := regKey 1 (0x28)
abbrev Reg.FLT_FAULTN : Nat := regKey 1 (0x2C)
abbrev Reg.FLT_RECCFG : Nat := regKey 1 (0x30)
abbrev Reg.FLT_LOGHEAD : Nat := regKey 1 (0x34)
abbrev Reg.FLT_WDOG (i : Nat) : Nat := regKey 1 (0x40 + 0x4 * i)
abbrev Reg.FLT_WDKICK (i : Nat) : Nat := regKey 1 (0x60 + 0x4 * i)
abbrev Cnt.FLT_FAULTS_INFO : Nat := regKey 1 (0x100)
abbrev Cnt.FLT_FAULTS_CORR : Nat := regKey 1 (0x108)
abbrev Cnt.FLT_FAULTS_DEGR : Nat := regKey 1 (0x110)
abbrev Cnt.FLT_FAULTS_CRIT : Nat := regKey 1 (0x118)
abbrev Cnt.FLT_FAULTS_FATAL : Nat := regKey 1 (0x120)
abbrev Cnt.FLT_COALESCED : Nat := regKey 1 (0x128)
abbrev Cnt.FLT_SAFESTOPS : Nat := regKey 1 (0x130)
abbrev Reg.FLT_REACT_cls0_1 (i : Nat) : Nat := regKey 1 (0x400 + 0x4 * i)
abbrev Reg.FLT_REACT_cls2 (i : Nat) : Nat := regKey 1 (0x480 + 0x4 * i)
abbrev Reg.FLT_REACT_cls3 (i : Nat) : Nat := regKey 1 (0x4C0 + 0x4 * i)
abbrev Reg.FLT_REACT_cls4 (i : Nat) : Nat := regKey 1 (0x500 + 0x4 * i)
abbrev Reg.FLT_LOG_w0 (i : Nat) : Nat := regKey 1 (0x1000 + 0x10 * i)
abbrev Reg.FLT_LOG_w1_3 (i j : Nat) : Nat := regKey 1 (0x1004 + 0x10 * i + 0x4 * j)
abbrev Reg.MON_MODE : Nat := regKey 2 (0x20)
abbrev Reg.MON_SNAPCTL : Nat := regKey 2 (0x24)
abbrev Reg.MON_OVFCLR : Nat := regKey 2 (0x28)
abbrev Reg.MON_CFG_even (i : Nat) : Nat := regKey 2 (0x10000 + 0x8 * i)
abbrev Reg.MON_CFG_odd (i : Nat) : Nat := regKey 2 (0x10004 + 0x8 * i)
abbrev Reg.MON_VAL (i : Nat) : Nat := regKey 2 (0x20000 + 0x4 * i)
abbrev Reg.MON_SNAPVAL (i : Nat) : Nat := regKey 2 (0x30000 + 0x4 * i)
abbrev Reg.PRT_MDIOCMD : Nat := regKey 4 (0x40)
abbrev Reg.PRT_MDIODATA : Nat := regKey 4 (0x44)
abbrev Reg.PRT_PCTRL (p : Nat) : Nat := prtPage p + 0x0
abbrev Reg.PRT_PMODE (p : Nat) : Nat := prtPage p + 0x4
abbrev Reg.PRT_PSTAT (p : Nat) : Nat := prtPage p + 0x8
abbrev Reg.PRT_PREEMPT (p : Nat) : Nat := prtPage p + 0xC
abbrev Reg.PRT_PFCCFG (p : Nat) : Nat := prtPage p + 0x10
abbrev Reg.PRT_PLCA (p : Nat) : Nat := prtPage p + 0x14
abbrev Reg.PRT_TC10 (p : Nat) : Nat := prtPage p + 0x18
abbrev Reg.PRT_MAXFRM (p : Nat) : Nat := prtPage p + 0x1C
abbrev Cnt.PRT_RX_FRAMES (p : Nat) : Nat := prtPage p + 0x100
abbrev Cnt.PRT_RX_BYTES (p : Nat) : Nat := prtPage p + 0x108
abbrev Cnt.PRT_TX_FRAMES (p : Nat) : Nat := prtPage p + 0x110
abbrev Cnt.PRT_TX_BYTES (p : Nat) : Nat := prtPage p + 0x118
abbrev Cnt.PRT_RX_FCS_ERR (p : Nat) : Nat := prtPage p + 0x120
abbrev Cnt.PRT_RX_RUNT (p : Nat) : Nat := prtPage p + 0x128
abbrev Cnt.PRT_RX_OVERSIZE (p : Nat) : Nat := prtPage p + 0x130
abbrev Cnt.PRT_RX_SYMBOL_ERR (p : Nat) : Nat := prtPage p + 0x138
abbrev Cnt.PRT_RX_MACCTRL (p : Nat) : Nat := prtPage p + 0x140
abbrev Cnt.PRT_RX_PFC_SCHED (p : Nat) : Nat := prtPage p + 0x148
abbrev Cnt.PRT_TX_PFC (p : Nat) : Nat := prtPage p + 0x150
abbrev Cnt.PRT_MMS_ASSY_ERR (p : Nat) : Nat := prtPage p + 0x158
abbrev Cnt.PRT_TX_EXCESS_COL (p : Nat) : Nat := prtPage p + 0x160
abbrev Cnt.PRT_TC10_DECLINE (p : Nat) : Nat := prtPage p + 0x168
abbrev Cnt.PRT_LINK_DOWN_CNT (p : Nat) : Nat := prtPage p + 0x170
abbrev Cnt.PRT_SCHUSS_STOMP (p : Nat) : Nat := prtPage p + 0x178
abbrev Reg.PRT_ELOG_w0 (p e : Nat) : Nat := prtPage p + (0x200 + 0x10 * e)
abbrev Reg.PRT_ELOG_w1 (p e : Nat) : Nat := prtPage p + (0x204 + 0x10 * e)
abbrev Reg.PRT_ELOG_w2 (p e : Nat) : Nat := prtPage p + (0x208 + 0x10 * e)
abbrev Reg.PRT_ELOG_w3 (p e : Nat) : Nat := prtPage p + (0x20C + 0x10 * e)
abbrev Reg.PRT_ELOGHEAD (p : Nat) : Nat := prtPage p + 0x300
abbrev Reg.FAB_SCHED : Nat := regKey 8 (0x20)
abbrev Reg.FAB_SCHEDMASK : Nat := regKey 8 (0x24)
abbrev Reg.FAB_POOL : Nat := regKey 8 (0x28)
abbrev Reg.FAB_POOLTHR : Nat := regKey 8 (0x2C)
abbrev Reg.FAB_DRIFTBASE : Nat := regKey 8 (0x30)
abbrev Reg.FAB_DRIFTSIZE : Nat := regKey 8 (0x34)
abbrev Reg.FAB_DRIFTCLS : Nat := regKey 8 (0x38)
abbrev Reg.FAB_DRIFTSTAT : Nat := regKey 8 (0x3C)
abbrev Reg.FAB_DRIFTCAP : Nat := regKey 8 (0x40)
abbrev Reg.FAB_LDHOLD : Nat := regKey 8 (0x44)
abbrev Reg.FAB_SCHUSS : Nat := regKey 8 (0x48)
abbrev Cnt.FAB_SCHED_OVER : Nat := regKey 8 (0x100)
abbrev Cnt.FAB_SCHUSS_FWD : Nat := regKey 8 (0x108)
abbrev Cnt.FAB_SCHUSS_STOMP : Nat := regKey 8 (0x110)
abbrev Cnt.FAB_DRIFT_SPILL : Nat := regKey 8 (0x118)
abbrev Cnt.FAB_DRIFT_RETURN : Nat := regKey 8 (0x120)
abbrev Cnt.FAB_SCHED_RESYNC : Nat := regKey 8 (0x128)
abbrev Cnt.FAB_SCHED_SWAP : Nat := regKey 8 (0x130)
abbrev Cnt.FAB_MEM_LOSS : Nat := regKey 8 (0x138)
abbrev Cnt.FAB_LINKDOWN_REDIR : Nat := regKey 8 (0x140)
abbrev Cnt.FAB_NOADMIT : Nat := regKey 8 (0x148)
abbrev Cnt.FAB_DRIFT_CAPHIT : Nat := regKey 8 (0x150)
abbrev Reg.FAB_DRIFTLIM (i : Nat) : Nat := regKey 8 (0x400 + 0x4 * i)
abbrev Reg.FAB_BUFCFG_w0 (i j : Nat) : Nat := regKey 9 (0x1000 + 0x80 * i + 0x10 * j)
abbrev Reg.FAB_BUFCFG_w1 (i j : Nat) : Nat := regKey 9 (0x1004 + 0x80 * i + 0x10 * j)
abbrev Reg.FAB_BUFCFG_w2_TC0_5 (i j : Nat) : Nat := regKey 9 (0x1008 + 0x80 * i + 0x10 * j)
abbrev Reg.FAB_BUFCFG_w2_TC6_7 (i j : Nat) : Nat := regKey 9 (0x1068 + 0x80 * i + 0x10 * j)
abbrev Reg.FAB_BUFSTAT_w0 (i j : Nat) : Nat := regKey 9 (0x3000 + 0x80 * i + 0x10 * j)
abbrev Reg.FAB_BUFSTAT_w1 (i j : Nat) : Nat := regKey 9 (0x3004 + 0x80 * i + 0x10 * j)
abbrev Cnt.FABP_NOADMIT (i : Nat) : Nat := regKey 9 (0x5000 + 0x20 * i)
abbrev Cnt.FABP_SCHED_OVER (i : Nat) : Nat := regKey 9 (0x5008 + 0x20 * i)
abbrev Cnt.FABP_LINKDOWN_REDIR (i : Nat) : Nat := regKey 9 (0x5010 + 0x20 * i)
abbrev Cnt.FABP_XOFF_EVENTS (i : Nat) : Nat := regKey 9 (0x5018 + 0x20 * i)
abbrev Reg.FAB_VOQSTAT_w0 (i : Nat) : Nat := regKey 10 (0x1000 + 0x8 * i)
abbrev Reg.FAB_VOQSTAT_w1 (i : Nat) : Nat := regKey 10 (0x1004 + 0x8 * i)
abbrev Reg.FAB_MCQSTAT_w0 (i : Nat) : Nat := regKey 10 (0x6000 + 0x8 * i)
abbrev Reg.FAB_MCQSTAT_w1 (i : Nat) : Nat := regKey 10 (0x6004 + 0x8 * i)
abbrev Reg.FAB_MCGRP_w0 (i : Nat) : Nat := regKey 11 (0x10000 + 0x8 * i)
abbrev Reg.FAB_MCGRP_w1 (i : Nat) : Nat := regKey 11 (0x10004 + 0x8 * i)
abbrev Reg.CLS_GENCTL : Nat := regKey 12 (0x20)
abbrev Reg.CLS_GENSTAT : Nat := regKey 12 (0x24)
abbrev Reg.CLS_HASHSEED : Nat := regKey 12 (0x2C)
abbrev Reg.CLS_EXCFG : Nat := regKey 12 (0x30)
abbrev Reg.CLS_GENINFL (i : Nat) : Nat := regKey 12 (0x40 + 0x4 * i)
abbrev Cnt.CLS_FRAG : Nat := regKey 12 (0x100)
abbrev Cnt.CLS_MAL_LEN : Nat := regKey 12 (0x108)
abbrev Cnt.CLS_MAL_DEPTH : Nat := regKey 12 (0x110)
abbrev Cnt.CLS_MAL_HDR : Nat := regKey 12 (0x118)
abbrev Cnt.CLS_MAL_CSUM : Nat := regKey 12 (0x120)
abbrev Cnt.CLS_MAL_DROP : Nat := regKey 12 (0x128)
abbrev Cnt.CLS_GEN_LOST : Nat := regKey 12 (0x130)
abbrev Cnt.CLS_TCAM_HIT : Nat := regKey 12 (0x138)
abbrev Cnt.CLS_TCAM_MISS : Nat := regKey 12 (0x140)
abbrev Cnt.CLS_FLOW_HIT : Nat := regKey 12 (0x148)
abbrev Cnt.CLS_FLOW_MISS : Nat := regKey 12 (0x150)
abbrev Cnt.CLS_FLOW_STALE : Nat := regKey 12 (0x158)
abbrev Cnt.CLS_FLOW_INSERT : Nat := regKey 12 (0x160)
abbrev Cnt.CLS_FLOW_EXISTS : Nat := regKey 12 (0x168)
abbrev Cnt.CLS_FLOW_REFRESH : Nat := regKey 12 (0x170)
abbrev Cnt.CLS_FLOW_FULL : Nat := regKey 12 (0x178)
abbrev Cnt.CLS_FLOW_AGED : Nat := regKey 12 (0x180)
abbrev Cnt.CLS_FLOW_OFF : Nat := regKey 12 (0x188)
abbrev Cnt.CLS_FLOW_ECC : Nat := regKey 12 (0x190)
abbrev Cnt.CLS_CT_INVALID : Nat := regKey 12 (0x198)
abbrev Reg.CLS_PORTCFG (i : Nat) : Nat := regKey 12 (0x400 + 0x4 * i)
abbrev Reg.CLS_STATE_w0 (i : Nat) : Nat := regKey 12 (0x10000 + 0x80 * i)
abbrev Reg.CLS_STATE_w1 (i : Nat) : Nat := regKey 12 (0x10004 + 0x80 * i)
abbrev Reg.CLS_STATE_w2_5 (i j : Nat) : Nat := regKey 12 (0x10008 + 0x80 * i + 0x4 * j)
abbrev Reg.CLS_STATE_w6 (i : Nat) : Nat := regKey 12 (0x10018 + 0x80 * i)
abbrev Reg.CLS_STATE_w7_2t (i j : Nat) : Nat := regKey 12 (0x1001C + 0x80 * i + 0x8 * j)
abbrev Reg.CLS_STATE_w8_2t (i j : Nat) : Nat := regKey 12 (0x10020 + 0x80 * i + 0x8 * j)
abbrev Reg.CLS_PROFILE_w0 (i : Nat) : Nat := regKey 12 (0x20000 + 0x80 * i)
abbrev Reg.CLS_PROFILE_w1_19 (i j : Nat) : Nat := regKey 12 (0x20004 + 0x80 * i + 0x4 * j)
abbrev Reg.CLS_TCAMPAIR : Nat := regKey 13 (0x20)
abbrev Reg.CLS_TCAMCONF : Nat := regKey 13 (0x24)
abbrev Reg.CLS_TCAMERR : Nat := regKey 13 (0x28)
abbrev Reg.CLS_TCAM_w0_19 (i j : Nat) : Nat := regKey 13 (0x10000 + 0x80 * i + 0x4 * j)
abbrev Reg.CLS_TCAM_w20 (i : Nat) : Nat := regKey 13 (0x10050 + 0x80 * i)
abbrev Reg.CLS_FLOWCMD : Nat := regKey 14 (0x20)
abbrev Reg.CLS_AGECFG : Nat := regKey 14 (0x30)
abbrev Reg.CLS_AGETMO0 : Nat := regKey 14 (0x34)
abbrev Reg.CLS_AGETMO1 : Nat := regKey 14 (0x38)
abbrev Reg.CLS_FLOWSTAT : Nat := regKey 14 (0x3C)
abbrev Reg.CLS_FLOWDATA (i : Nat) : Nat := regKey 14 (0x40 + 0x4 * i)
abbrev Reg.CLS_PATTERN_w0_7 (i j : Nat) : Nat := regKey 15 (0x10000 + 0x40 * i + 0x4 * j)
abbrev Reg.CLS_PATTERN_w8 (i : Nat) : Nat := regKey 15 (0x10020 + 0x40 * i)
abbrev Reg.RTK_BUDGET : Nat := regKey 16 (0x20)
abbrev Reg.RTK_EXCFG : Nat := regKey 16 (0x24)
abbrev Reg.RTK_DISPSTAT : Nat := regKey 16 (0x28)
abbrev Reg.RTK_LOADADDRL : Nat := regKey 16 (0x30)
abbrev Reg.RTK_LOADADDRH : Nat := regKey 16 (0x34)
abbrev Reg.RTK_LOADCTL : Nat := regKey 16 (0x38)
abbrev Reg.RTK_LOADSTAT : Nat := regKey 16 (0x3C)
abbrev Cnt.RTK_DISPATCH : Nat := regKey 16 (0x100)
abbrev Cnt.RTK_DISP_STALL : Nat := regKey 16 (0x108)
abbrev Cnt.RTK_TRAP_PROG : Nat := regKey 16 (0x110)
abbrev Cnt.RTK_RTK_FAULT : Nat := regKey 16 (0x118)
abbrev Cnt.RTK_RTK_OFFLINE : Nat := regKey 16 (0x120)
abbrev Cnt.RTK_RECIRC : Nat := regKey 16 (0x128)
abbrev Cnt.RTK_RECIRC_LIMIT : Nat := regKey 16 (0x130)
abbrev Cnt.RTK_NO_ACTION : Nat := regKey 16 (0x138)
abbrev Cnt.RTK_EGR_MTU : Nat := regKey 16 (0x140)
abbrev Cnt.RTK_EXQ_REDIR : Nat := regKey 16 (0x148)
abbrev Cnt.RTK_LKUP_ERR : Nat := regKey 16 (0x150)
abbrev Cnt.RTK_BUDGET : Nat := regKey 16 (0x158)
abbrev Reg.RTK_PAIR_frames_bytes_LOW (i : Nat) : Nat := regKey 16 (0x10000 + 0x8 * i)
abbrev Reg.RTK_PAIR_frames_bytes_HIGH (i : Nat) : Nat := regKey 16 (0x10004 + 0x8 * i)
abbrev Reg.RTK_DROP_LOW (i : Nat) : Nat := regKey 16 (0x14000 + 0x8 * i)
abbrev Reg.RTK_DROP_HIGH (i : Nat) : Nat := regKey 16 (0x14004 + 0x8 * i)
abbrev Reg.RTK_TBLDESC_w0 (i : Nat) : Nat := regKey 16 (0x20000 + 0x10 * i)
abbrev Reg.RTK_TBLDESC_w1 (i : Nat) : Nat := regKey 16 (0x20004 + 0x10 * i)
abbrev Reg.RTK_TBLDESC_w2 (i : Nat) : Nat := regKey 16 (0x20008 + 0x10 * i)
abbrev Reg.RTK_TBLDESC_w3 (i : Nat) : Nat := regKey 16 (0x2000C + 0x10 * i)
abbrev Reg.RTK_PMEM (i : Nat) : Nat := regKey 16 (0x40000 + 0x4 * i)
abbrev Reg.RTK_ENTRY (i : Nat) : Nat := regKey 16 (0x60000 + 0x4 * i)
abbrev Reg.RTK_ACTION_w0 (i : Nat) : Nat := regKey 16 (0x80000 + 0x20 * i)
abbrev Reg.RTK_ACTION_w1_7 (i j : Nat) : Nat := regKey 16 (0x80004 + 0x20 * i + 0x4 * j)
abbrev Reg.RTK_DBG (c : Nat) : Nat := regKey (17 + c) (0x20)
abbrev Reg.RTK_THRSTAT (c : Nat) (i : Nat) : Nat := regKey (17 + c) (0x800 + 0x4 * i)
abbrev Reg.RTK_DMEM (c : Nat) (i : Nat) : Nat := regKey (17 + c) (0x40000 + 0x4 * i)
abbrev Reg.TM_EXCFG : Nat := regKey 20 (0x20)
abbrev Reg.TM_QUIET : Nat := regKey 20 (0x24)
abbrev Reg.TM_METER_w0 (i : Nat) : Nat := regKey 20 (0x10000 + 0x20 * i)
abbrev Reg.TM_METER_w1 (i : Nat) : Nat := regKey 20 (0x10004 + 0x20 * i)
abbrev Reg.TM_METER_w2 (i : Nat) : Nat := regKey 20 (0x10008 + 0x20 * i)
abbrev Reg.TM_METER_w3 (i : Nat) : Nat := regKey 20 (0x1000C + 0x20 * i)
abbrev Reg.TM_METER_w4 (i : Nat) : Nat := regKey 20 (0x10010 + 0x20 * i)
abbrev Reg.TM_METER_w5 (i : Nat) : Nat := regKey 20 (0x10014 + 0x20 * i)
abbrev Reg.TM_METER_w6 (i : Nat) : Nat := regKey 20 (0x10018 + 0x20 * i)
abbrev Reg.TM_PORTCFG (i : Nat) : Nat := regKey 21 (0x10000 + 0x1000 * i)
abbrev Reg.TM_SELCFG (i : Nat) : Nat := regKey 21 (0x10004 + 0x1000 * i)
abbrev Reg.TM_ADMINLEN (i : Nat) : Nat := regKey 21 (0x10008 + 0x1000 * i)
abbrev Reg.TM_BASENS (i : Nat) : Nat := regKey 21 (0x1000C + 0x1000 * i)
abbrev Reg.TM_BASESECL (i : Nat) : Nat := regKey 21 (0x10010 + 0x1000 * i)
abbrev Reg.TM_BASESECH (i : Nat) : Nat := regKey 21 (0x10014 + 0x1000 * i)
abbrev Reg.TM_CYCLE (i : Nat) : Nat := regKey 21 (0x10018 + 0x1000 * i)
abbrev Reg.TM_CYCLEEXT (i : Nat) : Nat := regKey 21 (0x1001C + 0x1000 * i)
abbrev Reg.TM_GSTAT (i : Nat) : Nat := regKey 21 (0x10020 + 0x1000 * i)
abbrev Reg.TM_OPERCYCLE (i : Nat) : Nat := regKey 21 (0x10024 + 0x1000 * i)
abbrev Reg.TM_QUANTUM (i j : Nat) : Nat := regKey 21 (0x10040 + 0x1000 * i + 0x4 * j)
abbrev Reg.TM_MAXSDU (i j : Nat) : Nat := regKey 21 (0x10060 + 0x1000 * i + 0x4 * j)
abbrev Reg.TM_MAXWIN (i j : Nat) : Nat := regKey 21 (0x10080 + 0x1000 * i + 0x4 * j)
abbrev Reg.TM_QSTAT (i j : Nat) : Nat := regKey 21 (0x100A0 + 0x1000 * i + 0x4 * j)
abbrev Reg.TM_CBS_w0 (i j : Nat) : Nat := regKey 21 (0x10100 + 0x1000 * i + 0x10 * j)
abbrev Reg.TM_CBS_w1 (i j : Nat) : Nat := regKey 21 (0x10104 + 0x1000 * i + 0x10 * j)
abbrev Reg.TM_CBS_w2 (i j : Nat) : Nat := regKey 21 (0x10108 + 0x1000 * i + 0x10 * j)
abbrev Reg.TM_CBS_w3 (i j : Nat) : Nat := regKey 21 (0x1010C + 0x1000 * i + 0x10 * j)
abbrev Cnt.TMP_GATE_OVERRUN (i : Nat) : Nat := regKey 21 (0x10400 + 0x1000 * i)
abbrev Cnt.TMP_NO_FIT (i : Nat) : Nat := regKey 21 (0x10408 + 0x1000 * i)
abbrev Cnt.TMP_SDU_OVER (i : Nat) : Nat := regKey 21 (0x10410 + 0x1000 * i)
abbrev Cnt.TMP_LIST_CHANGE (i : Nat) : Nat := regKey 21 (0x10418 + 0x1000 * i)
abbrev Cnt.TMP_LIST_REALIGN (i : Nat) : Nat := regKey 21 (0x10420 + 0x1000 * i)
abbrev Reg.TM_LIST_w0 (i j : Nat) : Nat := regKey 21 (0x80000 + 0x2000 * i + 0x8 * j)
abbrev Reg.TM_LIST_w1 (i j : Nat) : Nat := regKey 21 (0x80004 + 0x2000 * i + 0x8 * j)
abbrev Reg.TM_SFBLOCK (i : Nat) : Nat := regKey 22 (0x20 + 0x4 * i)
abbrev Reg.TM_IDENT_w0 (i : Nat) : Nat := regKey 22 (0x10000 + 0x10 * i)
abbrev Reg.TM_IDENT_w1 (i : Nat) : Nat := regKey 22 (0x10004 + 0x10 * i)
abbrev Reg.TM_IDENT_w2 (i : Nat) : Nat := regKey 22 (0x10008 + 0x10 * i)
abbrev Reg.TM_FILTER_w0 (i : Nat) : Nat := regKey 22 (0x30000 + 0x10 * i)
abbrev Reg.TM_FILTER_w1 (i : Nat) : Nat := regKey 22 (0x30004 + 0x10 * i)
abbrev Cnt.TMF_MATCH (i : Nat) : Nat := regKey 22 (0x50000 + 0x20 * i)
abbrev Cnt.TMF_YELLOW (i : Nat) : Nat := regKey 22 (0x50008 + 0x20 * i)
abbrev Cnt.TMF_RED_DROP (i : Nat) : Nat := regKey 22 (0x50010 + 0x20 * i)
abbrev Cnt.TMF_SDU_DROP (i : Nat) : Nat := regKey 22 (0x50018 + 0x20 * i)
abbrev Reg.TM_FRER_w0 (i : Nat) : Nat := regKey 23 (0x10000 + 0x20 * i)
abbrev Reg.TM_FRER_w1 (i : Nat) : Nat := regKey 23 (0x10004 + 0x20 * i)
abbrev Reg.TM_FRER_w2 (i : Nat) : Nat := regKey 23 (0x10008 + 0x20 * i)
abbrev Reg.TM_FRERSTAT (i : Nat) : Nat := regKey 23 (0x30000 + 0x8 * i)
abbrev Cnt.TMR_PASSED (i : Nat) : Nat := regKey 23 (0x40000 + 0x40 * i)
abbrev Cnt.TMR_ELIMINATED (i : Nat) : Nat := regKey 23 (0x40008 + 0x40 * i)
abbrev Cnt.TMR_ROGUE (i : Nat) : Nat := regKey 23 (0x40010 + 0x40 * i)
abbrev Cnt.TMR_LOST (i : Nat) : Nat := regKey 23 (0x40018 + 0x40 * i)
abbrev Cnt.TMR_OUTOFORDER (i : Nat) : Nat := regKey 23 (0x40020 + 0x40 * i)
abbrev Cnt.TMR_RESETS (i : Nat) : Nat := regKey 23 (0x40028 + 0x40 * i)
abbrev Reg.TIM_SNAPCTL : Nat := regKey 24 (0x20)
abbrev Reg.TIM_SNAPLT_ns : Nat := regKey 24 (0x30)
abbrev Reg.TIM_SNAPLT_s : Nat := regKey 24 (0x34)
abbrev Reg.TIM_SNAPLT_hi : Nat := regKey 24 (0x38)
abbrev Reg.TIM_SNAPD_ns (i : Nat) : Nat := regKey 24 (0x40 + 0x10 * i)
abbrev Reg.TIM_SNAPD_s (i : Nat) : Nat := regKey 24 (0x44 + 0x10 * i)
abbrev Reg.TIM_SNAPD_hi (i : Nat) : Nat := regKey 24 (0x48 + 0x10 * i)
abbrev Reg.TIM_SNAPD_w3 (i : Nat) : Nat := regKey 24 (0x4C + 0x10 * i)
abbrev Reg.TIM_CONVIN_ns : Nat := regKey 24 (0x80)
abbrev Reg.TIM_CONVIN_s : Nat := regKey 24 (0x84)
abbrev Reg.TIM_CONVIN_hi : Nat := regKey 24 (0x88)
abbrev Reg.TIM_CONVCTL : Nat := regKey 24 (0x8C)
abbrev Reg.TIM_CONVOUT_ns : Nat := regKey 24 (0x90)
abbrev Reg.TIM_CONVOUT_s : Nat := regKey 24 (0x94)
abbrev Reg.TIM_CONVOUT_hi : Nat := regKey 24 (0x98)
abbrev Reg.TIM_CONVSTAT : Nat := regKey 24 (0x9C)
abbrev Reg.TIM_PINCFG : Nat := regKey 24 (0xA0)
abbrev Reg.TIM_TODSEC : Nat := regKey 24 (0xA4)
abbrev Reg.TIM_INTS_ns : Nat := regKey 24 (0xA8)
abbrev Reg.TIM_INTS_s : Nat := regKey 24 (0xAC)
abbrev Reg.TIM_INTS_hi : Nat := regKey 24 (0xB0)
abbrev Reg.TIM_INSTAT : Nat := regKey 24 (0xB4)
abbrev Reg.TIM_DELIV : Nat := regKey 24 (0xC0)
abbrev Cnt.TIM_STEPS : Nat := regKey 24 (0x100)
abbrev Cnt.TIM_SAMPLE_OK : Nat := regKey 24 (0x108)
abbrev Cnt.TIM_SAMPLE_REJ : Nat := regKey 24 (0x110)
abbrev Cnt.TIM_HOLDOVER_ENTRY : Nat := regKey 24 (0x118)
abbrev Cnt.TIM_LOCK_LOSS : Nat := regKey 24 (0x120)
abbrev Cnt.TIM_TS_RING_OVF : Nat := regKey 24 (0x128)
abbrev Cnt.TIM_TS_SEALED : Nat := regKey 24 (0x130)
abbrev Cnt.TIM_TIME_IN_EDGES : Nat := regKey 24 (0x138)
abbrev Reg.TIM_PORTCFG (i : Nat) : Nat := regKey 24 (0x400 + 0x4 * i)
abbrev Reg.TIM_EXTLAT (i : Nat) : Nat := regKey 24 (0x500 + 0x4 * i)
abbrev Reg.TIM_LATSTAT (i : Nat) : Nat := regKey 24 (0x600 + 0x4 * i)
abbrev Reg.TIM_RINGSTAT (i : Nat) : Nat := regKey 24 (0x700 + 0x4 * i)
abbrev Reg.TIM_DOMCFG (i : Nat) : Nat := regKey 24 (0x1000 + 0x100 * i)
abbrev Reg.TIM_LOCKCFG (i : Nat) : Nat := regKey 24 (0x1004 + 0x100 * i)
abbrev Reg.TIM_STEPTHR (i : Nat) : Nat := regKey 24 (0x1008 + 0x100 * i)
abbrev Reg.TIM_SYNCTMO (i : Nat) : Nat := regKey 24 (0x100C + 0x100 * i)
abbrev Reg.TIM_SMPLT_ns (i : Nat) : Nat := regKey 24 (0x1010 + 0x100 * i)
abbrev Reg.TIM_SMPLT_s (i : Nat) : Nat := regKey 24 (0x1014 + 0x100 * i)
abbrev Reg.TIM_SMPLT_hi (i : Nat) : Nat := regKey 24 (0x1018 + 0x100 * i)
abbrev Reg.TIM_SMPMST_ns (i : Nat) : Nat := regKey 24 (0x1020 + 0x100 * i)
abbrev Reg.TIM_SMPMST_s (i : Nat) : Nat := regKey 24 (0x1024 + 0x100 * i)
abbrev Reg.TIM_SMPMST_hi (i : Nat) : Nat := regKey 24 (0x1028 + 0x100 * i)
abbrev Reg.TIM_SMPCTL (i : Nat) : Nat := regKey 24 (0x102C + 0x100 * i)
abbrev Reg.TIM_SETTIME_ns (i : Nat) : Nat := regKey 24 (0x1030 + 0x100 * i)
abbrev Reg.TIM_SETTIME_s (i : Nat) : Nat := regKey 24 (0x1034 + 0x100 * i)
abbrev Reg.TIM_SETTIME_hi (i : Nat) : Nat := regKey 24 (0x1038 + 0x100 * i)
abbrev Reg.TIM_SETCTL (i : Nat) : Nat := regKey 24 (0x103C + 0x100 * i)
abbrev Reg.TIM_DSTAT (i : Nat) : Nat := regKey 24 (0x1040 + 0x100 * i)
abbrev Reg.TIM_DOFFS (i : Nat) : Nat := regKey 24 (0x1044 + 0x100 * i)
abbrev Reg.TIM_DRATE (i : Nat) : Nat := regKey 24 (0x1048 + 0x100 * i)
abbrev Reg.TIM_RING_ns (i j : Nat) : Nat := regKey 24 (0x10000 + 0x200 * i + 0x10 * j)
abbrev Reg.TIM_RING_s (i j : Nat) : Nat := regKey 24 (0x10004 + 0x200 * i + 0x10 * j)
abbrev Reg.TIM_RING_hi (i j : Nat) : Nat := regKey 24 (0x10008 + 0x200 * i + 0x10 * j)
abbrev Reg.TIM_RING_w3 (i j : Nat) : Nat := regKey 24 (0x1000C + 0x200 * i + 0x10 * j)
abbrev Reg.CIP_LANECFG : Nat := regKey 25 (0x20)
abbrev Reg.CIP_LANESTAT : Nat := regKey 25 (0x24)
abbrev Reg.CIP_RNG : Nat := regKey 25 (0x28)
abbrev Reg.CIP_KEYCMD : Nat := regKey 25 (0x2C)
abbrev Reg.CIP_ENTSTAT : Nat := regKey 25 (0x34)
abbrev Reg.CIP_HOLDSTAT : Nat := regKey 25 (0x38)
abbrev Cnt.CIP_IN_OK : Nat := regKey 25 (0x100)
abbrev Cnt.CIP_IN_UNTAGGED : Nat := regKey 25 (0x108)
abbrev Cnt.CIP_IN_UNTAGGED_DROP : Nat := regKey 25 (0x110)
abbrev Cnt.CIP_IN_BADTAG : Nat := regKey 25 (0x118)
abbrev Cnt.CIP_IN_NOSA : Nat := regKey 25 (0x120)
abbrev Cnt.CIP_IN_LATE : Nat := regKey 25 (0x128)
abbrev Cnt.CIP_IN_INVALID : Nat := regKey 25 (0x130)
abbrev Cnt.CIP_OUT_SEALED : Nat := regKey 25 (0x138)
abbrev Cnt.CIP_OUT_SA_DISABLED : Nat := regKey 25 (0x140)
abbrev Cnt.CIP_OUT_PN_EXH : Nat := regKey 25 (0x148)
abbrev Cnt.CIP_SEAL_WAIT : Nat := regKey 25 (0x150)
abbrev Cnt.CIP_KEY_REVOKED : Nat := regKey 25 (0x158)
abbrev Cnt.CIP_LANE_MISMATCH : Nat := regKey 25 (0x160)
abbrev Cnt.CIP_LANE_RETURN : Nat := regKey 25 (0x168)
abbrev Cnt.CIP_HOLD_ERR : Nat := regKey 25 (0x170)
abbrev Cnt.CIP_IN_NOLANE : Nat := regKey 25 (0x178)
abbrev Reg.CIP_PNTHRST (i : Nat) : Nat := regKey 25 (0x200 + 0x4 * i)
abbrev Reg.CIP_JOBDONE_0_4 (i : Nat) : Nat := regKey 25 (0x280 + 0x4 * i)
abbrev Reg.CIP_JOBFREE (i : Nat) : Nat := regKey 25 (0x300 + 0x4 * i)
abbrev Reg.CIP_PORTCFG (i : Nat) : Nat := regKey 25 (0x400 + 0x4 * i)
abbrev Reg.CIP_SECY_w0 (i : Nat) : Nat := regKey 25 (0x10000 + 0x40 * i)
abbrev Reg.CIP_SECY_w1_5 (i j : Nat) : Nat := regKey 25 (0x10004 + 0x40 * i + 0x4 * j)
abbrev Reg.CIP_SECY_w6_9 (i j : Nat) : Nat := regKey 25 (0x10018 + 0x40 * i + 0x4 * j)
abbrev Reg.CIP_SECY_w10 (i : Nat) : Nat := regKey 25 (0x10028 + 0x40 * i)
abbrev Reg.CIP_SECY_w11 (i : Nat) : Nat := regKey 25 (0x1002C + 0x40 * i)
abbrev Reg.CIP_SA_w0 (i : Nat) : Nat := regKey 25 (0x20000 + 0x20 * i)
abbrev Reg.CIP_SA_w1 (i : Nat) : Nat := regKey 25 (0x20004 + 0x20 * i)
abbrev Reg.CIP_SA_w2 (i : Nat) : Nat := regKey 25 (0x20008 + 0x20 * i)
abbrev Reg.CIP_SA_w3_6 (i j : Nat) : Nat := regKey 25 (0x2000C + 0x20 * i + 0x4 * j)
abbrev Reg.CIP_SACNT_LOW (i : Nat) : Nat := regKey 25 (0x30000 + 0x8 * i)
abbrev Reg.CIP_SACNT_HIGH (i : Nat) : Nat := regKey 25 (0x30004 + 0x8 * i)
abbrev Reg.CIP_KEYSTAT (i : Nat) : Nat := regKey 25 (0x40000 + 0x4 * i)
abbrev Reg.CIP_JOB_w0 (i : Nat) : Nat := regKey 25 (0x50000 + 0x40 * i)
abbrev Reg.CIP_JOB_w1 (i : Nat) : Nat := regKey 25 (0x50004 + 0x40 * i)
abbrev Reg.CIP_JOB_w2 (i : Nat) : Nat := regKey 25 (0x50008 + 0x40 * i)
abbrev Reg.CIP_JOB_w3 (i : Nat) : Nat := regKey 25 (0x5000C + 0x40 * i)
abbrev Reg.CIP_JOB_w4 (i : Nat) : Nat := regKey 25 (0x50010 + 0x40 * i)
abbrev Reg.CIP_JOB_w5 (i : Nat) : Nat := regKey 25 (0x50014 + 0x40 * i)
abbrev Reg.CIP_JOB_w6 (i : Nat) : Nat := regKey 25 (0x50018 + 0x40 * i)
abbrev Reg.CIP_JOB_w7 (i : Nat) : Nat := regKey 25 (0x5001C + 0x40 * i)
abbrev Reg.CIP_JOB_w8 (i : Nat) : Nat := regKey 25 (0x50020 + 0x40 * i)
abbrev Reg.CIP_JOB_w9_12 (i j : Nat) : Nat := regKey 25 (0x50024 + 0x40 * i + 0x4 * j)
abbrev Reg.CIP_JOB_w13 (i : Nat) : Nat := regKey 25 (0x50034 + 0x40 * i)
abbrev Reg.CIP_JOB_w14 (i : Nat) : Nat := regKey 25 (0x50038 + 0x40 * i)
abbrev Reg.CIP_JOB_w15 (i : Nat) : Nat := regKey 25 (0x5003C + 0x40 * i)
abbrev Reg.VLT_STAT : Nat := regKey 26 (0x20)
abbrev Reg.VLT_RNG : Nat := regKey 26 (0x24)
abbrev Reg.VLT_PCTR_L : Nat := regKey 26 (0x28)
abbrev Reg.VLT_PCTR_H : Nat := regKey 26 (0x2C)
abbrev Reg.VLT_UID (i : Nat) : Nat := regKey 26 (0x30 + 0x4 * i)
abbrev Cnt.VLT_PROV_OK : Nat := regKey 26 (0x100)
abbrev Cnt.VLT_PROV_REJ : Nat := regKey 26 (0x108)
abbrev Cnt.VLT_DERIVE_OK : Nat := regKey 26 (0x110)
abbrev Cnt.VLT_DERIVE_REJ : Nat := regKey 26 (0x118)
abbrev Cnt.VLT_INVALIDATED : Nat := regKey 26 (0x120)
abbrev Cnt.VLT_EXTENDS : Nat := regKey 26 (0x128)
abbrev Cnt.VLT_VERIFY_OK : Nat := regKey 26 (0x130)
abbrev Cnt.VLT_VERIFY_FAIL : Nat := regKey 26 (0x138)
abbrev Reg.VLT_MR (i j : Nat) : Nat := regKey 26 (0x200 + 0x40 * i + 0x4 * j)
abbrev Reg.VLT_ANCHOR (i j : Nat) : Nat := regKey 26 (0x400 + 0x40 * i + 0x4 * j)
abbrev Reg.VLT_IDPUB (i : Nat) : Nat := regKey 26 (0x600 + 0x4 * i)
abbrev Reg.VLT_SLOTSTAT (i : Nat) : Nat := regKey 26 (0x800 + 0x4 * i)
abbrev Reg.VLT_CMD (i : Nat) : Nat := regKey 26 (0x10000 + 0x1000 * i)
abbrev Reg.VLT_ARG (i : Nat) : Nat := regKey 26 (0x10004 + 0x1000 * i)
abbrev Reg.VLT_CHSTAT (i : Nat) : Nat := regKey 26 (0x10008 + 0x1000 * i)
abbrev Reg.VLT_CHCFG (i : Nat) : Nat := regKey 26 (0x1000C + 0x1000 * i)
abbrev Reg.VLT_BUF (i j : Nat) : Nat := regKey 26 (0x10100 + 0x1000 * i + 0x4 * j)
abbrev Reg.TX_BADHDR_LOW : Nat := regKey 28 (0x100)
abbrev Reg.TX_BADHDR_HIGH : Nat := regKey 28 (0x104)
abbrev Reg.GWY_CANCTL (i : Nat) : Nat := regKey 28 (0x10000 + 0x1000 * i)
abbrev Reg.GWY_CANNBT (i : Nat) : Nat := regKey 28 (0x10004 + 0x1000 * i)
abbrev Reg.GWY_CANDBT (i : Nat) : Nat := regKey 28 (0x10008 + 0x1000 * i)
abbrev Reg.GWY_CANSTAT (i : Nat) : Nat := regKey 28 (0x1000C + 0x1000 * i)
abbrev Reg.GWY_SWCFG (i : Nat) : Nat := regKey 28 (0x10010 + 0x1000 * i)
abbrev Reg.GWY_SWF_w0 (i j : Nat) : Nat := regKey 28 (0x10200 + 0x1000 * i + 0x20 * j)
abbrev Reg.GWY_SWF_w1 (i j : Nat) : Nat := regKey 28 (0x10204 + 0x1000 * i + 0x20 * j)
abbrev Reg.GWY_SWF_w2 (i j : Nat) : Nat := regKey 28 (0x10208 + 0x1000 * i + 0x20 * j)
abbrev Reg.GWY_SWF_w3 (i j : Nat) : Nat := regKey 28 (0x1020C + 0x1000 * i + 0x20 * j)
abbrev Reg.GWY_SWF_w4 (i j : Nat) : Nat := regKey 28 (0x10210 + 0x1000 * i + 0x20 * j)
abbrev Cnt.CAN_RX_FRAMES (i : Nat) : Nat := regKey 28 (0x10100 + 0x1000 * i)
abbrev Cnt.CAN_TX_FRAMES (i : Nat) : Nat := regKey 28 (0x10108 + 0x1000 * i)
abbrev Cnt.CAN_RX_OVERRUN (i : Nat) : Nat := regKey 28 (0x10110 + 0x1000 * i)
abbrev Cnt.CAN_TX_FAIL (i : Nat) : Nat := regKey 28 (0x10118 + 0x1000 * i)
abbrev Cnt.CAN_BUS_ERR (i : Nat) : Nat := regKey 28 (0x10120 + 0x1000 * i)
abbrev Cnt.CAN_BUSOFF_CNT (i : Nat) : Nat := regKey 28 (0x10128 + 0x1000 * i)
abbrev Reg.GWY_LINCTL (i : Nat) : Nat := regKey 29 (0x10000 + 0x1000 * i)
abbrev Reg.GWY_LINLEN (i j : Nat) : Nat := regKey 29 (0x10200 + 0x1000 * i + 0x4 * j)
abbrev Reg.GWY_LINSCH (i j : Nat) : Nat := regKey 29 (0x10400 + 0x1000 * i + 0x4 * j)
abbrev Cnt.LIN_RX_FRAMES (i : Nat) : Nat := regKey 29 (0x10100 + 0x1000 * i)
abbrev Cnt.LIN_TX_FRAMES (i : Nat) : Nat := regKey 29 (0x10108 + 0x1000 * i)
abbrev Cnt.LIN_RX_OVERRUN (i : Nat) : Nat := regKey 29 (0x10110 + 0x1000 * i)
abbrev Cnt.LIN_TX_FAIL (i : Nat) : Nat := regKey 29 (0x10118 + 0x1000 * i)
abbrev Cnt.LIN_LIN_ERR (i : Nat) : Nat := regKey 29 (0x10120 + 0x1000 * i)
abbrev Reg.GWY_SERCTL (i : Nat) : Nat := regKey 29 (0x20000 + 0x1000 * i)
abbrev Reg.GWY_SERBAUD (i : Nat) : Nat := regKey 29 (0x20004 + 0x1000 * i)
abbrev Reg.GWY_SERFRM (i : Nat) : Nat := regKey 29 (0x20008 + 0x1000 * i)
abbrev Cnt.SER_RX_FRAMES (i : Nat) : Nat := regKey 29 (0x20100 + 0x1000 * i)
abbrev Cnt.SER_TX_FRAMES (i : Nat) : Nat := regKey 29 (0x20108 + 0x1000 * i)
abbrev Cnt.SER_RX_OVERRUN (i : Nat) : Nat := regKey 29 (0x20110 + 0x1000 * i)
abbrev Cnt.SER_TX_FAIL (i : Nat) : Nat := regKey 29 (0x20118 + 0x1000 * i)
abbrev Cnt.SER_SER_ERR (i : Nat) : Nat := regKey 29 (0x20120 + 0x1000 * i)
abbrev Reg.GWY_DINCFG (i : Nat) : Nat := regKey 29 (0x30000 + 0x4 * i)
abbrev Reg.GWY_DINSTATE : Nat := regKey 29 (0x30100)
abbrev Reg.GWY_AINVAL (i : Nat) : Nat := regKey 29 (0x40000 + 0x4 * i)
abbrev Reg.GWY_AINTHR_w0 (i : Nat) : Nat := regKey 29 (0x40100 + 0x8 * i)
abbrev Reg.GWY_AINTHR_w1 (i : Nat) : Nat := regKey 29 (0x40104 + 0x8 * i)
abbrev Reg.HBR_PCFG : Nat := regKey 30 (0x20)
abbrev Reg.HBR_PSTAT : Nat := regKey 30 (0x24)
abbrev Reg.HBR_CTO : Nat := regKey 30 (0x28)
abbrev Reg.HBR_BARCFG : Nat := regKey 30 (0x2C)
abbrev Reg.HBR_FENCE : Nat := regKey 30 (0x30)
abbrev Reg.HBR_FENCESTAT : Nat := regKey 30 (0x34)
abbrev Reg.HBR_ELOGHEAD : Nat := regKey 30 (0x38)
abbrev Reg.HBR_PFLOGL : Nat := regKey 30 (0x40)
abbrev Reg.HBR_PFLOGH : Nat := regKey 30 (0x44)
abbrev Reg.HBR_IRQ : Nat := regKey 30 (0x48)
abbrev Reg.HBR_SIGTRIG : Nat := regKey 30 (0x50)
abbrev Reg.HBR_POLLHIT (i : Nat) : Nat := regKey 30 (0x58 + 0x4 * i)
abbrev Reg.HBR_POLLERR (i : Nat) : Nat := regKey 30 (0x60 + 0x4 * i)
abbrev Cnt.HBR_OUT_POSTED : Nat := regKey 30 (0x100)
abbrev Cnt.HBR_OUT_NP : Nat := regKey 30 (0x108)
abbrev Cnt.HBR_IN_POSTED : Nat := regKey 30 (0x110)
abbrev Cnt.HBR_IN_NP : Nat := regKey 30 (0x118)
abbrev Cnt.HBR_CPL_TIMEOUT : Nat := regKey 30 (0x120)
abbrev Cnt.HBR_HBR_PFDISCARD : Nat := regKey 30 (0x128)
abbrev Cnt.HBR_ERR_LOGGED : Nat := regKey 30 (0x130)
abbrev Cnt.HBR_LINK_DOWN : Nat := regKey 30 (0x138)
abbrev Cnt.HBR_REPLAY : Nat := regKey 30 (0x140)
abbrev Cnt.HBR_POLL_READS : Nat := regKey 30 (0x148)
abbrev Cnt.HBR_POLL_SKIP : Nat := regKey 30 (0x150)
abbrev Cnt.HBR_FENCES : Nat := regKey 30 (0x158)
abbrev Cnt.HBR_RING_TX_FRAMES : Nat := regKey 30 (0x160)
abbrev Cnt.HBR_RING_RX_FRAMES : Nat := regKey 30 (0x168)
abbrev Reg.HBR_OWIN_w0 (i : Nat) : Nat := regKey 30 (0x10000 + 0x20 * i)
abbrev Reg.HBR_OWIN_w1 (i : Nat) : Nat := regKey 30 (0x10004 + 0x20 * i)
abbrev Reg.HBR_OWIN_w2 (i : Nat) : Nat := regKey 30 (0x10008 + 0x20 * i)
abbrev Reg.HBR_OWIN_w3 (i : Nat) : Nat := regKey 30 (0x1000C + 0x20 * i)
abbrev Reg.HBR_OWIN_w4 (i : Nat) : Nat := regKey 30 (0x10010 + 0x20 * i)
abbrev Reg.HBR_IWIN_w0 (i : Nat) : Nat := regKey 30 (0x10800 + 0x20 * i)
abbrev Reg.HBR_IWIN_w1 (i : Nat) : Nat := regKey 30 (0x10804 + 0x20 * i)
abbrev Reg.HBR_IWIN_w2 (i : Nat) : Nat := regKey 30 (0x10808 + 0x20 * i)
abbrev Reg.HBR_IWIN_w3 (i : Nat) : Nat := regKey 30 (0x1080C + 0x20 * i)
abbrev Reg.HBR_IWIN_w4 (i : Nat) : Nat := regKey 30 (0x10810 + 0x20 * i)
abbrev Reg.HBR_POLL_w0 (i : Nat) : Nat := regKey 30 (0x20000 + 0x20 * i)
abbrev Reg.HBR_POLL_w1 (i : Nat) : Nat := regKey 30 (0x20004 + 0x20 * i)
abbrev Reg.HBR_POLL_w2 (i : Nat) : Nat := regKey 30 (0x20008 + 0x20 * i)
abbrev Reg.HBR_POLL_w3 (i : Nat) : Nat := regKey 30 (0x2000C + 0x20 * i)
abbrev Reg.HBR_POLL_w4 (i : Nat) : Nat := regKey 30 (0x20010 + 0x20 * i)
abbrev Reg.HBR_SIG_w0_2 (i j : Nat) : Nat := regKey 30 (0x21000 + 0x10 * i + 0x4 * j)
abbrev Reg.HBR_ELOG_w0 (i : Nat) : Nat := regKey 30 (0x22000 + 0x20 * i)
abbrev Reg.HBR_ELOG_w1_7 (i j : Nat) : Nat := regKey 30 (0x22004 + 0x20 * i + 0x4 * j)
abbrev Reg.HBR_RING_w0 (i : Nat) : Nat := regKey 30 (0x23000 + 0x20 * i)
abbrev Reg.HBR_RING_w1 (i : Nat) : Nat := regKey 30 (0x23004 + 0x20 * i)
abbrev Reg.HBR_RING_w2 (i : Nat) : Nat := regKey 30 (0x23008 + 0x20 * i)
abbrev Reg.HBR_RING_w3 (i : Nat) : Nat := regKey 30 (0x2300C + 0x20 * i)
abbrev Reg.CPX_APPMODE : Nat := regKey 32 (0x20)
abbrev Reg.CPX_GROOMCFG : Nat := regKey 32 (0x30)
abbrev Reg.CPX_PAIRCTL_u0_3 (i : Nat) : Nat := regKey 32 (0x40 + 0x4 * i)
abbrev Reg.CPX_RVEC_lo (i : Nat) : Nat := regKey 32 (0x60 + 0x8 * i)
abbrev Reg.CPX_RVEC_hi (i : Nat) : Nat := regKey 32 (0x64 + 0x8 * i)
abbrev Reg.CPX_PARTLOCK : Nat := regKey 35 (0x20)
abbrev Reg.CPX_DBGCTL : Nat := regKey 35 (0x30)
abbrev Reg.CPX_GROOMCFG_RT : Nat := regKey 35 (0x34)
abbrev Reg.CPX_CKPTCOMMIT : Nat := regKey 35 (0x38)
abbrev Reg.CPX_SWIRQ : Nat := regKey 35 (0x40)
abbrev Reg.CPX_PAIRCTL_u4_5 (i : Nat) : Nat := regKey 35 (0x48 + 0x4 * i)
abbrev Reg.CPX_RVEC_RT (i : Nat) : Nat := regKey 35 (0x50 + 0x4 * i)
abbrev Cnt.CPX_LOCKSTEP_OUT : Nat := regKey 35 (0x100)
abbrev Cnt.CPX_LATENT_DIVERGE : Nat := regKey 35 (0x108)
abbrev Cnt.CPX_SCRUBS : Nat := regKey 35 (0x110)
abbrev Cnt.CPX_SPARE_RETURN : Nat := regKey 35 (0x118)
abbrev Cnt.CPX_DBG_OPEN : Nat := regKey 35 (0x120)
abbrev Cnt.CPX_FAILOVERS : Nat := regKey 35 (0x128)
abbrev Reg.CPX_FOREC_w0 (i : Nat) : Nat := regKey 35 (0x400 + 0x20 * i)
abbrev Reg.CPX_FOREC_w1_4 (i j : Nat) : Nat := regKey 35 (0x404 + 0x20 * i + 0x4 * j)
abbrev Reg.CPX_CKPTSEQ (i : Nat) : Nat := regKey 35 (0x600 + 0x4 * i)
abbrev Reg.CPX_PARTHOME (i : Nat) : Nat := regKey 35 (0x800 + 0x4 * i)
abbrev Reg.CPX_IMSIC (i j : Nat) : Nat := regKey 33 (0x10000 + 0x1000 * i + 0x4 * j)
abbrev Reg.CPX_APLIC_APP (i : Nat) : Nat := regKey 34 (0x10000 + 0x4 * i)
abbrev Reg.CPX_APLIC_RT (i : Nat) : Nat := regKey 35 (0x20000 + 0x4 * i)
abbrev Reg.CPX_DBGCERT (i : Nat) : Nat := regKey 35 (0x3000 + 0x4 * i)
abbrev Reg.CPX_PART_w0_11 (i j : Nat) : Nat := regKey 35 (0x10000 + 0x40 * i + 0x4 * j)
abbrev Reg.CPX_TCM (i j : Nat) : Nat := regKey 35 (0x40000 + 0x40000 * i + 0x4 * j)
abbrev Reg.PWC_SEQSTAT (die : Nat) : Nat := regKey (36 + die) (0x20)
abbrev Reg.PWC_DIECFG (die : Nat) : Nat := regKey (36 + die) (0x24)
abbrev Reg.PWC_DIESTATE (die : Nat) : Nat := regKey (36 + die) (0x28)
abbrev Reg.PWC_LOADADDRL (die : Nat) : Nat := regKey (36 + die) (0x30)
abbrev Reg.PWC_LOADADDRH (die : Nat) : Nat := regKey (36 + die) (0x34)
abbrev Reg.PWC_LOADCTL (die : Nat) : Nat := regKey (36 + die) (0x38)
abbrev Reg.PWC_LOADSTAT (die : Nat) : Nat := regKey (36 + die) (0x3C)
abbrev Reg.PWC_CALCFG (die : Nat) : Nat := regKey (36 + die) (0x40)
abbrev Reg.PWC_SNAPCFG (die : Nat) : Nat := regKey (36 + die) (0x44)
abbrev Reg.PWC_SNAPSTAT (die : Nat) : Nat := regKey (36 + die) (0x48)
abbrev Reg.PWC_TRAP (die : Nat) (i : Nat) : Nat := regKey (36 + die) (0x50 + 0x4 * i)
abbrev Reg.PWC_THRSTAT (die : Nat) (i : Nat) : Nat := regKey (36 + die) (0x60 + 0x4 * i)
abbrev Reg.PWC_CMDQ (die : Nat) : Nat := regKey (36 + die) (0x70)
abbrev Cnt.PWC_CMD_REFUSED (die : Nat) : Nat := regKey (36 + die) (0x100)
abbrev Cnt.PWC_LINK_CRC_A (die : Nat) : Nat := regKey (36 + die) (0x108)
abbrev Cnt.PWC_LINK_CRC_B (die : Nat) : Nat := regKey (36 + die) (0x110)
abbrev Cnt.PWC_HOLD_ENTRY (die : Nat) : Nat := regKey (36 + die) (0x118)
abbrev Cnt.PWC_ATTACH_REJ (die : Nat) : Nat := regKey (36 + die) (0x120)
abbrev Cnt.PWC_DIE_SHED (die : Nat) : Nat := regKey (36 + die) (0x128)
abbrev Cnt.PWC_LOADDUMP_OFF (die : Nat) : Nat := regKey (36 + die) (0x130)
abbrev Reg.PWC_CHCFG (die : Nat) (i : Nat) : Nat := regKey (36 + die) (0x10000 + 0x100 * i)
abbrev Reg.PWC_PWMPER (die : Nat) (i : Nat) : Nat := regKey (36 + die) (0x10004 + 0x100 * i)
abbrev Reg.PWC_PWMPHASE (die : Nat) (i : Nat) : Nat := regKey (36 + die) (0x10008 + 0x100 * i)
abbrev Reg.PWC_MOGUL (die : Nat) (i : Nat) : Nat := regKey (36 + die) (0x1000C + 0x100 * i)
abbrev Reg.PWC_ELEV (die : Nat) (i : Nat) : Nat := regKey (36 + die) (0x10010 + 0x100 * i)
abbrev Reg.PWC_LEVELS (die : Nat) (i : Nat) : Nat := regKey (36 + die) (0x10014 + 0x100 * i)
abbrev Reg.PWC_CHSTAT (die : Nat) (i : Nat) : Nat := regKey (36 + die) (0x10018 + 0x100 * i)
abbrev Reg.PWC_CHDUTY (die : Nat) (i : Nat) : Nat := regKey (36 + die) (0x1001C + 0x100 * i)
abbrev Reg.PWC_THETA (die : Nat) (i : Nat) : Nat := regKey (36 + die) (0x10020 + 0x100 * i)
abbrev Reg.PWC_MODELCFG (die : Nat) (i : Nat) : Nat := regKey (36 + die) (0x10024 + 0x100 * i)
abbrev Reg.PWC_THLIM (die : Nat) (i : Nat) : Nat := regKey (36 + die) (0x10028 + 0x100 * i)
abbrev Reg.PWC_THCONT (die : Nat) (i : Nat) : Nat := regKey (36 + die) (0x1002C + 0x100 * i)
abbrev Reg.PWC_THRESET (die : Nat) (i : Nat) : Nat := regKey (36 + die) (0x10030 + 0x100 * i)
abbrev Reg.PWC_KW (die : Nat) (i : Nat) : Nat := regKey (36 + die) (0x10034 + 0x100 * i)
abbrev Reg.PWC_CHOFS (die : Nat) (i : Nat) : Nat := regKey (36 + die) (0x10040 + 0x100 * i)
abbrev Reg.PWC_CHGAIN (die : Nat) (i : Nat) : Nat := regKey (36 + die) (0x10044 + 0x100 * i)
abbrev Reg.PWC_RACC (die : Nat) (i : Nat) : Nat := regKey (36 + die) (0x10048 + 0x100 * i)
abbrev Cnt.PWCCH_TRIP_FAST (die : Nat) (i : Nat) : Nat := regKey (36 + die) (0x10080 + 0x100 * i)
abbrev Cnt.PWCCH_TRIP_INST (die : Nat) (i : Nat) : Nat := regKey (36 + die) (0x10088 + 0x100 * i)
abbrev Cnt.PWCCH_TRIP_MODEL (die : Nat) (i : Nat) : Nat := regKey (36 + die) (0x10090 + 0x100 * i)
abbrev Cnt.PWCCH_TRIP_THERM (die : Nat) (i : Nat) : Nat := regKey (36 + die) (0x10098 + 0x100 * i)
abbrev Cnt.PWCCH_TRIP_RUNOUT (die : Nat) (i : Nat) : Nat := regKey (36 + die) (0x100A0 + 0x100 * i)
abbrev Cnt.PWCCH_RETRIES (die : Nat) (i : Nat) : Nat := regKey (36 + die) (0x100A8 + 0x100 * i)
abbrev Cnt.PWCCH_ARB_DELAY (die : Nat) (i : Nat) : Nat := regKey (36 + die) (0x100B0 + 0x100 * i)
abbrev Cnt.PWCCH_CAL_GAIN (die : Nat) (i : Nat) : Nat := regKey (36 + die) (0x100B8 + 0x100 * i)
abbrev Cnt.PWCCH_CAL_DISCARD (die : Nat) (i : Nat) : Nat := regKey (36 + die) (0x100C0 + 0x100 * i)
abbrev Cnt.PWCCH_ON_IGNORED (die : Nat) (i : Nat) : Nat := regKey (36 + die) (0x100C8 + 0x100 * i)
abbrev Reg.PWC_DMEM (die : Nat) (i : Nat) : Nat := regKey (36 + die) (0x40000 + 0x4 * i)
abbrev Reg.WAK_STATE : Nat := regKey 38 (0x20)
abbrev Reg.WAK_STATECTL : Nat := regKey 38 (0x24)
abbrev Reg.WAK_SRCEN : Nat := regKey 38 (0x28)
abbrev Reg.WAK_SRCTGT : Nat := regKey 38 (0x2C)
abbrev Reg.WAK_TIMERS : Nat := regKey 38 (0x30)
abbrev Reg.WAK_SLEEPCFG : Nat := regKey 38 (0x34)
abbrev Reg.WAK_CONSENT : Nat := regKey 38 (0x38)
abbrev Reg.WAK_PEWPORTS : Nat := regKey 38 (0x3C)
abbrev Reg.WAK_PEWCFG : Nat := regKey 38 (0x40)
abbrev Reg.WAK_PINCFG : Nat := regKey 38 (0x44)
abbrev Reg.WAK_RTCSEC : Nat := regKey 38 (0x50)
abbrev Reg.WAK_RTCSUB : Nat := regKey 38 (0x54)
abbrev Reg.WAK_RTCSET : Nat := regKey 38 (0x58)
abbrev Reg.WAK_RTCCTL : Nat := regKey 38 (0x5C)
abbrev Reg.WAK_ALARM_sec (i : Nat) : Nat := regKey 38 (0x60 + 0x8 * i)
abbrev Reg.WAK_ALARM_en (i : Nat) : Nat := regKey 38 (0x64 + 0x8 * i)
abbrev Reg.WAK_WKHEAD : Nat := regKey 38 (0x70)
abbrev Reg.WAK_LOADADDRL : Nat := regKey 38 (0x80)
abbrev Reg.WAK_LOADADDRH : Nat := regKey 38 (0x84)
abbrev Reg.WAK_LOADCTL : Nat := regKey 38 (0x88)
abbrev Reg.WAK_LOADSTAT : Nat := regKey 38 (0x8C)
abbrev Reg.WAK_WSTAT : Nat := regKey 38 (0x90)
abbrev Reg.WAK_WTMR : Nat := regKey 38 (0x94)
abbrev Cnt.WAK_WAKES : Nat := regKey 38 (0x100)
abbrev Cnt.WAK_FALSE_WAKES : Nat := regKey 38 (0x108)
abbrev Cnt.WAK_IGNORED_WAKES : Nat := regKey 38 (0x110)
abbrev Cnt.WAK_CHAIR_FWD : Nat := regKey 38 (0x118)
abbrev Cnt.WAK_COMMITS : Nat := regKey 38 (0x120)
abbrev Cnt.WAK_ABORTS_SENT : Nat := regKey 38 (0x128)
abbrev Cnt.WAK_ABORTS_RCVD : Nat := regKey 38 (0x130)
abbrev Cnt.WAK_OVERRIDES : Nat := regKey 38 (0x138)
abbrev Cnt.WAK_VOID_COMMITS : Nat := regKey 38 (0x140)
abbrev Cnt.WAK_RING_BAD : Nat := regKey 38 (0x148)
abbrev Reg.WAK_RINGCFG : Nat := regKey 38 (0x200)
abbrev Reg.WAK_NODEID : Nat := regKey 38 (0x204)
abbrev Reg.WAK_SEGMAC_lo : Nat := regKey 38 (0x208)
abbrev Reg.WAK_SEGMAC_hi : Nat := regKey 38 (0x20C)
abbrev Reg.WAK_TOPMAC_lo : Nat := regKey 38 (0x210)
abbrev Reg.WAK_TOPMAC_hi : Nat := regKey 38 (0x214)
abbrev Reg.WAK_OWNMAC_lo : Nat := regKey 38 (0x218)
abbrev Reg.WAK_OWNMAC_hi : Nat := regKey 38 (0x21C)
abbrev Reg.WAK_CANXP : Nat := regKey 38 (0x220)
abbrev Reg.WAK_CANCH : Nat := regKey 38 (0x224)
abbrev Reg.WAK_SEGMAP (i : Nat) : Nat := regKey 38 (0x240 + 0x4 * i)
abbrev Reg.WAK_TOPMAP (i : Nat) : Nat := regKey 38 (0x260 + 0x4 * i)
abbrev Reg.WAK_OVRMAP (i : Nat) : Nat := regKey 38 (0x280 + 0x4 * i)
abbrev Reg.WAK_EPOCH : Nat := regKey 38 (0x2A0)
abbrev Reg.WAK_DEADLINE : Nat := regKey 38 (0x2A4)
abbrev Reg.WAK_REC_w0 (i : Nat) : Nat := regKey 38 (0x800 + 0x10 * i)
abbrev Reg.WAK_REC_w1 (i : Nat) : Nat := regKey 38 (0x804 + 0x10 * i)
abbrev Reg.WAK_REC_w2 (i : Nat) : Nat := regKey 38 (0x808 + 0x10 * i)
abbrev Reg.WAK_REC_w3 (i : Nat) : Nat := regKey 38 (0x80C + 0x10 * i)
abbrev Reg.NVS_WADDR : Nat := regKey 40 (0x20)
abbrev Reg.NVS_WDATAL : Nat := regKey 40 (0x24)
abbrev Reg.NVS_WDATAH : Nat := regKey 40 (0x28)
abbrev Reg.NVS_STAT : Nat := regKey 40 (0x2C)
abbrev Reg.NVS_BBHEAD_L : Nat := regKey 40 (0x30)
abbrev Reg.NVS_BBHEAD_H : Nat := regKey 40 (0x34)
abbrev Reg.NVS_BBSTAT : Nat := regKey 40 (0x38)
abbrev Reg.NVS_BBEXPORT_L : Nat := regKey 40 (0x40)
abbrev Reg.NVS_BBEXPORT_H : Nat := regKey 40 (0x44)
abbrev Reg.NVS_BBCMD : Nat := regKey 40 (0x48)
abbrev Reg.NVS_BBSWDATA (i : Nat) : Nat := regKey 40 (0x80 + 0x4 * i)
abbrev Cnt.NVS_BB_RECORDS : Nat := regKey 40 (0x100)
abbrev Cnt.NVS_BB_LOST : Nat := regKey 40 (0x108)
abbrev Cnt.NVS_MRAM_UNCORR : Nat := regKey 40 (0x110)
abbrev Reg.NVS_CLRBUF (i : Nat) : Nat := regKey 40 (0x200 + 0x4 * i)
abbrev Reg.BOOT_STATE : Nat := regKey 41 (0x20)
abbrev Reg.BOOT_SESSION : Nat := regKey 41 (0x24)
abbrev Reg.BOOT_CTL : Nat := regKey 41 (0x28)
abbrev Reg.BOOT_IDLE : Nat := regKey 41 (0x2C)
abbrev Reg.BOOT_STARTS : Nat := regKey 41 (0x30)
abbrev Cnt.BOOT_SESSIONS : Nat := regKey 41 (0x100)
abbrev Cnt.BOOT_COMMITS : Nat := regKey 41 (0x108)
abbrev Cnt.BOOT_ABORTS : Nat := regKey 41 (0x110)
abbrev Cnt.BOOT_BUSY_REJ : Nat := regKey 41 (0x118)
abbrev Cnt.BOOT_FALLBACKS : Nat := regKey 41 (0x120)
abbrev Cnt.BOOT_SEG_FAIL : Nat := regKey 41 (0x128)
abbrev Reg.BOOT_ARC (i : Nat) : Nat := regKey 41 (0x200 + 0x4 * i)
abbrev Reg.BOOT_SCMD (i : Nat) : Nat := regKey 41 (0x10000 + 0x1000 * i)
abbrev Reg.BOOT_SSTAT (i : Nat) : Nat := regKey 41 (0x10004 + 0x1000 * i)
abbrev Reg.BOOT_SADDRL (i : Nat) : Nat := regKey 41 (0x10008 + 0x1000 * i)
abbrev Reg.BOOT_SADDRH (i : Nat) : Nat := regKey 41 (0x1000C + 0x1000 * i)
abbrev Reg.BOOT_SLEN (i : Nat) : Nat := regKey 41 (0x10010 + 0x1000 * i)

/-- BLK_ID, BLK_CTRL, BLK_STATUS, BLK_DENYADDR, BLK_COMMIT and BLK_COMMITSTAT of a block index
(R28, R38). -/
abbrev Reg.BLK_ID (b : Nat) : Nat := regKey b 0x0
abbrev Reg.BLK_CTRL (b : Nat) : Nat := regKey b 0x4
abbrev Reg.BLK_STATUS (b : Nat) : Nat := regKey b 0x8
abbrev Reg.BLK_DENYADDR (b : Nat) : Nat := regKey b 0xC
abbrev Reg.BLK_COMMITSTAT (b : Nat) : Nat := regKey b 0x14

/-- PRT_PEN of a port: its instance's control-page register, and the port's bit in it (R73). -/
def prtPenKey (p : Nat) : Nat :=
  if p < 12 then regKey 4 0x20 else if p < 28 then regKey 5 0x20
  else if p < 32 then regKey 6 0x20 else regKey 7 0x20

/-- The bit of a port in its instance's PRT_PEN (R73). -/
def prtPenBit (p : Nat) : Nat :=
  if p < 12 then p else if p < 28 then p - 12 else if p < 32 then p - 28 else p - 32

/-- The block index of a port's PRT instance (R50). -/
def prtBlk (p : Nat) : Nat := if p < 12 then 4 else if p < 28 then 5 else if p < 32 then 6 else 7

end Sys2Proof.Machine
end

