-- ==== Sys2Proof/Machine/Store.lean ====
section
/-!
DEFINITION. Sparse stores in one canonical form: a list of keys and values, keys strictly rising,
no entry equal to what an unlisted key reads as. Equal stores are equal lists. Registers, live
banks and every array of engine records are held in such stores, each with its own default.
-/

namespace Sys2Proof.Machine

/-- A sparse store: entries by rising key; an unlisted key reads as the store's default. -/
abbrev Store (α : Type) := List (Nat × α)

/-- The entry listed at a key, if any. -/
def Store.find {α : Type} : Store α → Nat → Option α
  | [], _ => none
  | (k', v) :: t, k => if k' = k then some v else Store.find t k

/-- The value at a key. -/
def Store.get {α : Type} (d : Nat → α) (m : Store α) (k : Nat) : α :=
  match Store.find m k with
  | some v => v
  | none => d k

/-- List a value at a key, in key order. -/
def Store.put {α : Type} : Store α → Nat → α → Store α
  | [], k, v => [(k, v)]
  | (k', v') :: t, k, v =>
      if k < k' then (k, v) :: (k', v') :: t
      else if k = k' then (k, v) :: t
      else (k', v') :: Store.put t k v

/-- Unlist a key. -/
def Store.drop {α : Type} (m : Store α) (k : Nat) : Store α := m.filter (fun e => e.1 != k)

/-- Write a value at a key, keeping the canonical form. -/
def Store.set {α : Type} [DecidableEq α] (d : Nat → α) (m : Store α) (k : Nat) (v : α) : Store α :=
  if v = d k then Store.drop m k else Store.put m k v

/-- Keys strictly rising. -/
def Store.rising {α : Type} : Store α → Bool
  | [] => true
  | (k, _) :: t => t.all (fun e => decide (k < e.1)) && Store.rising t

/-- The canonical form: keys strictly rising, no entry at its default. -/
def Store.wf {α : Type} [DecidableEq α] (d : Nat → α) (m : Store α) : Bool :=
  Store.rising m && m.all (fun e => decide (e.2 ≠ d e.1))

/-- Unlist every key of `[lo, hi)`: they read as their defaults. -/
def Store.clear {α : Type} (m : Store α) (lo hi : Nat) : Store α :=
  m.filter (fun e => !(decide (lo ≤ e.1) && decide (e.1 < hi)))

/-- Write a list of entries, in order. -/
def Store.setAll {α : Type} [DecidableEq α] (d : Nat → α) (m : Store α) (es : Store α) : Store α :=
  es.foldl (fun acc e => Store.set d acc e.1 e.2) m

/-- The entries of `[lo, hi)`, moved by adding `up` and subtracting `down` to their keys. -/
def Store.slice {α : Type} (m : Store α) (lo hi up down : Nat) : Store α :=
  (m.filter (fun e => decide (lo ≤ e.1) && decide (e.1 < hi))).map (fun e => (e.1 + up - down, e.2))

end Sys2Proof.Machine
end

