-- ==== Sys2Proof/Machine/State.lean ====
section
/-!
DEFINITION. The machine's state as plain data: the registers of every block in one store keyed
by block index and offset, the live banks of the operating tables, memory, and the state of the
engines behind the registers, each in a record of its own; and the queue of waiting commands.
-/

namespace Sys2Proof.Machine

open Sys2Proof

/-- Why a run stops with a fault. No command of this block ends in one: every bus error, trap and
memory error the specification describes is an effect on the state. The constructor stands for
a step that no rule gives an effect; nothing raises it. Safe: the machine stops. -/
inductive Fault where
  | noEffectGiven
  deriving DecidableEq, Repr

/-- Why a command is refused. -/
inductive Refusal where
  /-- The command has no meaning in this model. Raised by the dispatch only. Safe: it stops. -/
  | notModelled (mnemonic : String)
  deriving DecidableEq, Repr

/-- The five variants of R2, by SYS_CAPS.VARIANT.
DESIGN CHOICE, safe (log entry 8). -/
inductive Variant where
  | jzm4832s | jzm4832 | jzm2432s | jzm0032s | jzm4824s
  deriving DecidableEq, Repr

/-- A timer: when it was started, and for how long the Traverse link had reported recovering by then (R454). -/
structure Timer where
  start : Nat := 0
  recovered : Nat := 0
  deriving DecidableEq, Repr

/-- A clock (R225): its anchor point in units of 2^-16 ns, its rate in units of 2^-40, and the rate
without the phase correction that is being spread over a sample interval, which ends at a local time (R227). -/
structure Clock where
  w0 : Nat := 0
  lt0 : Nat := 0
  rho : Int := 0
  base : Int := 0
  slewEnd : Option Nat := none
  deriving DecidableEq, Repr

/-- The servo state of a gPTP domain (R225 to R228, R240): its clock, whose rate TIM_DRATE shows, the local
time of the last accepted sample, and the candidate clock. -/
structure Domain where
  clk : Clock := {}
  lastSample : Option Nat := none
  cand : Option Clock := none
  /-- The cycle in which a SETTIME applied (R240). -/
  setAt : Option Nat := none
  /-- The SYNCTMO timer, and when the domain entered HOLDOVER (R229). -/
  sync : Timer := {}
  holdAt : Nat := 0
  deriving DecidableEq, Repr

/-- The time unit's engines (chapter *Time unit*). -/
structure TimeState where
  /-- Seconds of local time at the start of the Core die (R224), and the time of that start. -/
  ltSec : Nat := 0
  ltStart : Nat := 0
  domains : Store Domain := []
  /-- Difference of the Edge die's copy of local time, in units of 2^-16 ns (R233). -/
  edgeSkew : Int := 0
  /-- A retrain has ended since the last alignment (R233). -/
  realign : Bool := false
  /-- Local time of the last TIME_IN edge (R237). -/
  timeInLast : Option Nat := none
  /-- Cycles of TIME_IN counted in 10 MHz mode, and the local time from which they count (R237). -/
  cycles : Nat := 0
  cycleRef : Option Nat := none
  /-- Level of TIME_OUT, and the local time of its last rising edge (R238). -/
  timeOut : Bool := false
  timeOutRise : Nat := 0
  deriving DecidableEq, Repr

/-- The real-time clock of the always-on domain: ticks held and the time they were set (R386). -/
structure RtcState where
  ticks : Nat := 0
  since : Nat := 0
  deriving DecidableEq, Repr

/-- A write waiting in the Traverse register channel or toward AON (R32, R33). -/
structure BusWrite where
  master : Master
  /-- The address of the access. -/
  addr : Nat
  key : Nat
  data : BitVec 64
  wide : Bool := false
  /-- The one bit that a bit-alias write addresses (R43). -/
  bit : Option Nat := none
  deriving DecidableEq, Repr

/-- What the last bus access returned to its master: data, or a bus error (R35). -/
structure BusReply where
  data : BitVec 64 := 0
  error : Bool := false
  deriving DecidableEq, Repr

/-- A commit in progress in a block: its table, instance and mode (R38 to R41). -/
structure CommitState where
  active : Bool := false
  table : Nat := 0
  index : Nat := 0
  mode : Nat := 0
  deriving DecidableEq, Repr

/-- An island's state: running, stopped (isolated), or restarting until it reports ready (R34). -/
inductive IslandState where
  | running | stopped | restarting
  deriving DecidableEq, Repr

/-- The Traverse link (R11): up, retraining ("recovering"), failed, or declared lost. -/
inductive TraverseState where
  | up | recovering | failed | lost
  deriving DecidableEq, Repr

/-- What the Edge die holds while the Traverse link retrains: link changes of ports 12 to 31 (R57), and
frames and flow control that arrive on them (R11).
DESIGN CHOICE, safe (log entry 124). -/
inductive HeldEvent where
  | linkUp (p rate : Nat)
  | linkDown (p : Nat)
  | rxBegin (f : Nat)
  | rxEnd (f : Nat) (rest : List Byte) (err : RxError)
  | pfc (p enables : Nat) (quanta : List (BitVec 16))
  | pause (p : Nat) (quanta : BitVec 16)
  deriving DecidableEq, Repr

/-- The Traverse link's supervision. -/
structure TraverseLink where
  state : TraverseState := .up
  /-- Held until the retrain is over, oldest first. -/
  held : List HeldEvent := []
  /-- Replays counted in the current millisecond (R11). -/
  replays : Nat := 0
  /-- Time at which that millisecond began. -/
  replaySince : Nat := 0
  /-- Time at which the retrain in progress began. -/
  retrainSince : Nat := 0
  /-- Nanoseconds spent in earlier retrains. -/
  recovered : Nat := 0
  deriving DecidableEq, Repr

/-- The power links and heartbeat line of one die (R12). -/
structure PowerLink where
  copyAOk : Bool := true
  copyBOk : Bool := true
  /-- Level of the hardwired heartbeat line. -/
  heartbeat : Bool := false
  /-- Time of the line's last edge (R375). -/
  edgeAt : Nat := 0
  deriving DecidableEq, Repr

/-- The supplies of the module (R21, R379, R468). -/
structure Supply where
  feedAOk : Bool := true
  feedBOk : Bool := true
  feedAReversed : Bool := false
  feedBReversed : Bool := false
  holdupCharged : Bool := true
  /-- FEED_LOSS was declared and the hold-up sequence runs (R21, R22). -/
  feedLoss : Bool := false
  groundsLost : Bool := false
  /-- RESET_N is held low (R479). -/
  resetN : Bool := false
  deriving DecidableEq, Repr

/-- A report waiting at the fault collector: code, log data word and time (R448). -/
structure FaultReport where
  code : Nat
  data : Nat
  at_ : Nat
  deriving DecidableEq, Repr

/-- A black-box record waiting to be written (R434, R435). -/
structure BoxRecord where
  type : Nat
  code : Nat
  freeze : Bool
  pmid : Nat
  rtcBad : Bool
  rtcSec : Nat
  rtcTicks : Nat
  ns : Nat
  data : List Word
  deriving DecidableEq, Repr

/-- A flow-control frame that a port's own logic has sent: port, PFC or PAUSE, class mask and quanta
(R68). -/
structure FlowFrame where
  port : Nat
  pfc : Bool
  classes : Nat
  quanta : Nat
  deriving DecidableEq, Repr

/-- An SA context as it stands when a frame uses it (R253): usable, extended numbering, SSCI, salt and key. -/
structure SaKey where
  sa : Nat
  live : Bool
  xpn : Bool
  ssci : Nat
  salt : Nat
  key : List Byte
  deriving DecidableEq, Repr

/-- An enabled SecY as it stands when a frame reaches step 2: word 0, replay window, RXSCI, and the receive SA
contexts by association number. -/
structure RxSecy where
  n : Nat
  w0 : Word
  window : Nat
  sci : Nat
  sas : List SaKey
  deriving DecidableEq, Repr

/-- The settings a frame is checked under, as they stood when it reached step 2 (R251, R253): EAPOLCLR, every
SecY of the port Strict, and the enabled SecYs, lowest first. -/
structure RxCheck where
  eapolClear : Bool
  strict : Bool
  secys : List RxSecy
  deriving DecidableEq, Repr

/-- Where a frame stands on the path of R17. -/
inductive FrameStage where
  /-- In the retrain buffer of the Edge die (R11). -/
  | retrain
  /-- Arriving, or held in the MACsec slice of its port (steps 1 and 2). -/
  | receiving
  /-- Waiting for classification (step 3). -/
  | toClassify
  /-- Classified and waiting at the dispatch stage of its lane. -/
  | toDispatch
  /-- In its thread's dispatch queue. -/
  | waiting
  /-- Its program runs (step 4). -/
  | running
  /-- Its program ended with FWD: step 6 follows. -/
  | toStream
  /-- Waiting to be enqueued (step 7). -/
  | toEnqueue
  /-- In the fabric and the egress queues (steps 7 to 10). -/
  | queued
  /-- Dropped: its cells are still to be freed (R83). -/
  | dropped
  deriving DecidableEq, Repr

/-- Where a cell of a frame is held (R84, R91). -/
inductive CellPlace where
  | reservation | shared | headroom | drift
  deriving DecidableEq, Repr

/-- An admitted cell of a frame: its place, the ports it is counted for and its copies not yet
transmitted, and whether it has been freed. -/
structure CellRec where
  place : CellPlace
  ports : List Nat
  copies : List Nat
  freed : Bool := false
  deriving DecidableEq, Repr

/-- A frame inside the module. Bytes exclude the FCS. -/
structure Frame where
  /-- Bytes arrived so far. -/
  bytes : List Byte := []
  /-- The whole frame has arrived. -/
  tailIn : Bool := false
  stage : FrameStage := .receiving
  /-- Original ingress port. -/
  inPort : Nat := 0
  /-- Receive timestamp: local time, units of 2^-16 ns (R232). -/
  rxTime : Nat := 0
  macsecV : Bool := false
  /-- Held in the MACsec slice of its port: the settings it is checked under. -/
  check : Option RxCheck := none
  /-- A later frame of the port has begun before this one's tail: it is in preemption reassembly (R66,
  R71). -/
  interrupted : Bool := false
  /-- Length of the frame on the wire with FCS as received, for the counters (R122). -/
  wireLen : Nat := 0
  stamped : Bool := false
  gen : Nat := 0
  /-- Orphan of a forced retire (R136). -/
  orphan : Bool := false
  rcPass : Bool := false
  rcCount : Nat := 0
  /-- Parse state a recirculating program named (R109). -/
  startState : Option Nat := none
  /-- Hash H and whether this pass built it. -/
  hash : Word := 0
  action : Nat := 0xFFFF
  tag : Nat := 0
  /-- Metadata words M[0] to M[39] as classification built them (R180). -/
  mwords : List Word := []
  /-- M[48] to M[55] carried over a recirculation (R188). -/
  carried : List Word := []
  /-- Canonical key and insertion data of the frame, for LEARN (R126). -/
  flowKey : List Word := []
  tcpFlags : Option Nat := none
  dirLow : Bool := true
  /-- The pass looked at bytes beyond 127 or recirculated: every copy is stored (R99). -/
  mustStore : Bool := false
  /-- Parsed L3 length and whether it is consistent (R131). -/
  l3Len : Nat := 0
  l3Ok : Bool := false
  /-- The tail arrived after step 3: the L3 length is compared at the tail (R131). -/
  checkTail : Bool := false
  /-- LEN of M[0] at entry (R181). -/
  len : Nat := 0
  /-- Header length at entry and the header as the program left it (R183). -/
  hlen0 : Nat := 0
  head : List Byte := []
  /-- The assembled frame: set when the program ends. -/
  assembled : Bool := false
  /-- Egress: multicast flag, destination port or group, class, keep-ingress (R182). -/
  mc : Bool := false
  dest : Nat := 0
  tc : Nat := 0
  keepIn : Bool := false
  /-- Words M[56] and M[57] for step 6 (R212). -/
  m56 : Word := 0
  m57 : Word := 0
  /-- Timestamp insertion asked for by TSINS: format, offset, and the offset of a checksum to
  adjust (R158). -/
  tsins : Option (Nat × Nat × Option Nat) := none
  /-- SA context named by SEAL (R158). -/
  sealSa : Option Nat := none
  /-- Exception: code, H, trap record, M[47], intended egress port (R190). -/
  exc : Option Nat := none
  excHash : Word := 0
  excTrap : Word := 0
  excM47 : Word := 0
  excPort : Nat := 0
  /-- The frame is an exception frame with its header: unscheduled internal traffic (R189). -/
  trapped : Bool := false
  /-- On its way to port 36, from which it returns to classification (R17, R188). -/
  recirc : Bool := false
  /-- The fanout latched when a forced retire took the frame's generation (R97, R136). -/
  latched : Option (List Nat) := none
  /-- Length in bytes as stored at ingress, which gives its cells (R78). -/
  storedLen : Nat := 0
  /-- Egress ports the frame still has copies for. -/
  fanout : List Nat := []
  /-- Egress ports on which the head has left (R101). -/
  headLeft : List Nat := []
  /-- Egress ports on which the frame is to be ended with an inverted FCS (R101). -/
  stomps : List Nat := []
  /-- Taking the Schuss path, by egress port (R99). -/
  schuss : List Nat := []
  /-- Egress ports whose first cell has crossed (R80). -/
  crossing : List Nat := []
  cells : List CellRec := []
  deriving DecidableEq, Repr

/-- The engines behind a port's registers (chapter *Ports and PHYs*). -/
structure PortState where
  /-- PEN was written 0 and the port is draining its egress staging (R71). -/
  draining : Bool := false
  /-- Fallback mode: the speed being tried is 1000BASE-T1 (R56). -/
  try1000 : Bool := true
  /-- TC10 handshake: asked for locally, or accepted from the partner (R62). -/
  sleepAsked : Bool := false
  sleepAccepted : Bool := false
  /-- Collisions of the frame in transmission (R60). -/
  attempts : Nat := 0
  /-- Classes stopped by received PFC or PAUSE, as a mask (R69). -/
  stopped : Nat := 0
  /-- Times at which the stops of the classes end (R69). -/
  stopEnds : Store Nat := []
  /-- Times at which the port left UP (R98), and at which it began to try the present T1 speed (R56). -/
  downAt : Nat := 0
  triedAt : Nat := 0
  /-- The link-down hold has run out and frames are redirected (R98). -/
  redirecting : Bool := false
  deriving DecidableEq, Repr

/-- The segments of a VOQ (R91): on-chip head, Drift region, on-chip spill tail. -/
inductive Segment where
  | head | middle | tail
  deriving DecidableEq, Repr

/-- A cell waiting in a VOQ or multicast queue: frame, cell number, segment, and for a multicast
cell the egress ports not yet delivered (R80, R91, R95). -/
structure QCell where
  frame : Nat
  idx : Nat
  seg : Segment := .head
  ports : List Nat := []
  deriving DecidableEq, Repr

/-- A VOQ: its cells from head to tail, and Drift state (R80, R91). -/
structure Voq where
  cells : List QCell := []
  drift : Bool := false
  deriving DecidableEq, Repr

/-- Accounting of an ingress (port, class): cells in headroom, and what set it XOFF (R85). -/
structure Ingress where
  headroom : Nat := 0
  /-- Congested egress (port, class) pairs that set it XOFF, as 8 × port + class. -/
  byEgress : List Nat := []
  deriving DecidableEq, Repr

/-- The fabric behind its registers (chapter *Fabric, buffers and the Drift region*).
DESIGN CHOICE, safe (log entry 114). -/
structure FabricState where
  /-- Unicast VOQs by 320 × group + 8 × port + class. -/
  voqs : Store Voq := []
  /-- Multicast queues by 8 × group + class. -/
  mcqs : Store Voq := []
  /-- Egress staging: frame and cell numbers by 8 × port + class (R80, R199). -/
  staging : Store (List (Nat × Nat)) := []
  /-- Frames delivered at internal ports 34 and 35, oldest first, until their unit takes them. -/
  delivered : Store (List (List Byte)) := []
  /-- Bytes of the frame last delivered or sent at each port. -/
  lastOut : Store (List Byte) := []
  ingress : Store Ingress := []
  /-- Reservation cells in use by 8 × port + class (R83). -/
  reserved : Store Nat := []
  /-- Cells of each egress port in the Drift region (R92). -/
  driftOf : Store Nat := []
  /-- Spill bandwidth used in the current 1 µs window, in cells, and when it began (R92). -/
  capUsed : Nat := 0
  capSince : Nat := 0
  /-- Times at which the DRAM accesses of spills and returns in flight end (R92, R104). -/
  driftOps : List Nat := []
  /-- The cell time in which DRIFT_CAPHIT was last counted, from 1 (R92). -/
  capHitAt : Nat := 0
  /-- The Drift region was accepted at enable (R90). -/
  driftOk : Bool := false
  /-- Grant pointer of each egress link, accept pointer of each ingress group, and VOQ pointer of
  each (group, link) as 8 × group + link (R81). -/
  grantPtr : Store Nat := []
  acceptPtr : Store Nat := []
  voqPtr : Store Nat := []
  /-- A swap takes effect at the next cell time (R82). -/
  swapAsked : Bool := false
  /-- The fabric has reported ready for a stop of the MEM island (R94). -/
  memReady : Bool := false
  /-- Admission is closed: quiesce or safe stop (R103, R453). -/
  closed : Bool := false
  deriving DecidableEq, Repr

/-- A flow operation waiting (R126, R127): source, fields and the frame's data for an insert. -/
inductive FlowOp where
  | insert (key : List Word) (action tag gen : Nat) (dirLow : Bool) (tcp : Option Nat)
  | command (op slot : Nat) (data : List Word)
  deriving DecidableEq, Repr

/-- The classifier behind its registers (chapter *Parsing and classification*). -/
structure ClassifyState where
  /-- Flow entries by slot: 16 words, none where the slot is empty (R122). -/
  flows : Store (List Word) := []
  queue : List FlowOp := []
  /-- The seed the flow table is built with, once adopted (R120). -/
  seedBuilt : Option Word := none
  /-- Banked tables staged since the last advance, as block × 256 + table (R133). -/
  staged : List Nat := []
  /-- Order in which generations were made current (R124): advance number by generation. -/
  madeAt : Store Nat := []
  advances : Nat := 0
  /-- Generations retired by force, marked lost (R136). -/
  lost : Store Bool := []
  /-- The forced-retire timer of each generation (R136). -/
  retiring : Store Timer := []
  /-- TCAM entries with a parity error: they match nothing (R138). -/
  badParity : Store Bool := []
  /-- The frame that waits at the dispatch stage of a stalled lane, 0 or 1 (R175). -/
  stall : Store (Option Nat) := []
  deriving DecidableEq, Repr

/-- The four flags of a Ritik thread (R141). -/
structure Flags where
  z : Bool := false
  n : Bool := false
  c : Bool := false
  v : Bool := false
  deriving DecidableEq, Repr

/-- A lookup or meter request outstanding (R160, R161). -/
structure Request where
  meter : Bool := false
  /-- Table number, or meter index. -/
  table : Nat := 0
  /-- First result word. -/
  m : Nat := 0
  /-- The key, read at issue. -/
  key : List Byte := []
  /-- Pre-colour of a meter request. -/
  pre : Nat := 0
  /-- Stores to its reserved words, held until it completes. -/
  held : List (Nat × Word) := []
  /-- The MEM island was stopped when the lookup was issued (R187). -/
  denied : Bool := false
  deriving DecidableEq, Repr

/-- What a thread that has given up the engine waits for (R157 to R162).
DESIGN CHOICE, safe (log entry 60). -/
inductive Waiting where
  /-- One round-robin turn: the ready threads of its engine that have not yet issued. -/
  | turn (others : List Nat)
  /-- No request outstanding. -/
  | requests
  /-- Fewer than two requests outstanding. -/
  | slot
  /-- Completion of the request that reserves a result word. -/
  | word (m : Nat)
  /-- Room in the insert queue or the command queue: stalled at a bound. -/
  | room
  /-- The next tick. -/
  | tick
  /-- A wake-unit event of a mask; its code goes to a register. -/
  | event (rd : Nat) (mask : Word)
  deriving DecidableEq, Repr

/-- What a thread is doing. -/
inductive ThreadStatus where
  /-- Holding no frame (P), or stopped (C, W). -/
  | idle
  | ready
  | waiting (w : Waiting)
  /-- Halted at a BRK by a debugger (R169). -/
  | halted
  /-- Stopped by a trap (C, W). -/
  | trapped
  deriving DecidableEq, Repr

/-- A Ritik thread (R141 to R143).
DEDUCED, safe (log entry 55). -/
structure Thread where
  status : ThreadStatus := .idle
  pc : Word := 0
  /-- Time of the start of a packet program (R192). -/
  startedAt : Nat := 0
  /-- pc of the instruction issued last: what a PC_RANGE trap records (R155). -/
  lastPc : Word := 0
  /-- g1 to g15; an unlisted register reads 0, and so does g0. -/
  regs : Store Word := []
  flags : Flags := {}
  /-- Instructions issued since the start (RDS 2). -/
  issued : Word := 0
  /-- The snapshot of TIME: nanoseconds or ticks, seconds, and the third word. -/
  snap0 : Word := 0
  snap1 : Word := 0
  snap2 : Word := 0
  /-- The frame a packet thread holds. -/
  frame : Option Nat := none
  /-- The header buffer: HLEN is its length. -/
  h : List Byte := []
  /-- Metadata words; an unlisted word reads 0. -/
  m : Store Word := []
  /-- Requests outstanding, oldest first. -/
  reqs : List Request := []
  /-- The thread has executed a TICK. -/
  ticked : Bool := false
  /-- A tick has passed since the previous TICK. -/
  tickPassed : Bool := false
  deriving DecidableEq, Repr


/-- A program image load in progress (R194): the master whose world its reads take. -/
structure LoadJob where
  busy : Bool := false
  indigo : Bool := false
  pmid : Nat := 0
  deriving DecidableEq, Repr

/-- The Ritik engines behind their registers. -/
structure RitikState where
  /-- Threads: packet threads 0 to 191, threads of sequencer A 192 to 195, of sequencer B 196 to
  199, the wake thread 200. -/
  threads : Store Thread := []
  /-- The thread each engine last issued from, plus 1; 0 before its first (R152). -/
  lastIssued : Store Nat := []
  /-- Dispatch queues, oldest frame first (R175). -/
  queues : Store (List Nat) := []
  /-- Memories without a register window: program memory of sequencer q at 8192 × q, of the wake
  sequencer at 16384; data memory words of the wake sequencer at 32768. -/
  mem : Store Word := []
  /-- Entry tables of the loaded images: sequencers 0 and 1, wake sequencer 2. -/
  entries : Store (List Word) := []
  /-- Word ranges of the shadow program memory of the packet engines that loaded images occupy: first word
  and number of words (R145). -/
  images : List (Nat × Nat) := []
  /-- Loads in progress: RTK 0, PWC 1 and 2, WAK 3. -/
  loads : Store LoadJob := []
  deriving DecidableEq, Repr

/-- A flow meter's buckets, in units of 1/8,000,000 byte, as of a time in ns (R215). -/
structure Meter where
  bc : Nat := 0
  be : Nat := 0
  at_ : Nat := 0
  deriving DecidableEq, Repr

/-- The admin parameters of a Slalom list, as sampled at GO: base time in units of 2^-16 ns, cycle
and cycle extension in ns, entries (R206). -/
structure ListParams where
  base : Nat := 0
  cycle : Nat := 1000000
  ext : Nat := 0
  len : Nat := 1
  deriving DecidableEq, Repr

/-- What seals a frame, as it stood when the frame reached step 9 (R253, R256): SA context and PN, word 0 and
TXSCI of the SecY, key and IV. -/
structure Seal where
  sa : Nat
  pn : Nat
  w0 : Word := 0
  sci : Nat := 0
  key : List Byte := []
  iv : List Byte := []
  deriving DecidableEq, Repr

/-- A frame in transmission: number, class, the transmit timestamp (R232), what seals it, and, when its key
was revoked during transmission, the bytes sent before (R265). -/
structure Sending where
  frame : Nat
  cls : Nat
  start : Nat
  sealing : Option Seal := none
  spoiled : Option Nat := none
  /-- Time at which the fragment being sent began, in ns, and the bytes sent in earlier fragments (R66). -/
  since : Nat := 0
  done : Nat := 0
  /-- The frame has been preempted and waits for its remainder to be sent. -/
  paused : Bool := false
  /-- The frame is to be preempted at its next allowed point from this time (R207). -/
  stopFrom : Option Nat := none
  deriving DecidableEq, Repr

/-- The traffic manager's engine of one port. -/
structure TmPort where
  /-- The operational list, and the pending one with its change time (R206). -/
  oper : Option ListParams := none
  pend : Option (ListParams × Nat) := none
  /-- The operational list runs: in HOLD it waits after lock for its first cycle start (R210). -/
  started : Bool := false
  /-- Start of the current cycle in the domain's time, the current entry and its offset in the
  cycle in ns (R205). -/
  cycleStart : Nat := 0
  entry : Nat := 0
  offset : Nat := 0
  /-- A hold is in force (R207). -/
  hold : Bool := false
  /-- The domain's time has stepped: the list realigns at the end of its cycle (R210). -/
  realign : Bool := false
  /-- DRR: deficits by class, the class that has the turn, and whether its visit has been credited
  (R202). -/
  deficits : List Int := [0, 0, 0, 0, 0, 0, 0, 0]
  turn : Option Nat := none
  /-- Shaper credits by class in units of 10^-9 bit, as of a time of the port's domain (R203, R239). -/
  credits : List Int := [0, 0, 0, 0, 0, 0, 0, 0]
  creditAt : Nat := 0
  /-- Frames in transmission: express, or any frame without preemption; and preemptable. -/
  express : Option Sending := none
  preempt : Option Sending := none
  /-- A frame start waits for issue slots of the cipher engine (R247). -/
  sealWait : Bool := false
  deriving DecidableEq, Repr

/-- An FRER function's state (R216 to R218): next number or RECSEQ, history from bit 0, take-any,
the time of the last passed frame, and what has been reported since. -/
structure FrerState where
  seq : Nat := 0
  hist : List Bool := []
  takeAny : Bool := true
  lastPass : Nat := 0
  timed : Bool := false
  silent : Bool := false
  deriving DecidableEq, Repr

/-- The traffic manager behind its registers. -/
structure TmState where
  meters : Store Meter := []
  ports : Store TmPort := []
  frer : Store FrerState := []
  deriving DecidableEq, Repr

/-- The memory of a job of the cipher engine (R260 to R264): the GO that ordered it, its master, and
the message bytes of a hash or HMAC in parts. -/
structure CipherJob where
  order : Nat := 0
  indigo : Bool := false
  pmid : Nat := 0
  message : List Byte := []
  /-- Blocks of the output written so far by a job that writes block by block (R263). -/
  released : Nat := 0
  deriving DecidableEq, Repr

/-- A lane of the cipher engine (R248): time of its last return to service, if it has failed before. -/
structure CipherLane where
  returned : Option Nat := none
  /-- Time of its last removal. -/
  removedAt : Nat := 0
  deriving DecidableEq, Repr

/-- The cipher engine behind its registers. -/
structure CipherState where
  /-- Key bytes by key context. -/
  keys : Store (List Byte) := []
  /-- Job memories by context. -/
  jobs : Store CipherJob := []
  /-- GO numbers given. -/
  orders : Nat := 0
  lanes : Store CipherLane := []
  /-- A health test of the entropy source has failed and it is being retried (R249). -/
  retrying : Bool := false
  failedAt : Nat := 0
  /-- Generate requests since the last reseed (R249). -/
  requests : Nat := 0
  deriving DecidableEq, Repr

/-- The content of a key slot (R271, R277): policy, the key or seed, and the provisioning counter. -/
structure VaultSlot where
  policy : Nat := 0
  value : List Byte := []
  counter : Nat := 0
  /-- The mask r of the two shares as they are stored (R271). -/
  mask : List Byte := []
  deriving DecidableEq, Repr

/-- A vault command as its GO found it: OP, SLOT, ARG and master, and the buffer as read at its start (R286). -/
structure VaultCmd where
  op : Nat := 0
  slot : Nat := 0
  arg : Nat := 0
  pmid : Nat := 0
  buf : List Byte := []
  deriving DecidableEq, Repr

/-- The key vault behind its registers. Its own partition of MRAM is stored encrypted under keys that
never leave it, so the slots are held here as they read inside the vault.
DEDUCED, safe (log entry 112). -/
structure VaultState where
  slots : Store VaultSlot := []
  /-- The vault record of the PUF helper data is present (R270, R289). -/
  record : Bool := true
  /-- The identity root was not reconstructed (R273). -/
  noIdentity : Bool := false
  /-- The roots as reconstructed, none before that, and the number of the vault root that the vault record
  gives; the roots have been looked for since the release of the Core die (R270, R273). -/
  identity : List Byte := []
  root : List Byte := []
  rootNo : Nat := 0
  started : Bool := false
  /-- Channels with a command waiting or running, in the order of their GO writes, 4 standing for the path of
  the BOOT block; the one whose command runs; and the commands (R286, R287). -/
  order : List Nat := []
  running : Option Nat := none
  cmds : Store VaultCmd := []
  /-- EXTENDs made since the last cold start, register and value, oldest first (R418). -/
  extends_ : List (Nat × List Byte) := []
  /-- Consecutive open samples of the tamper loop (R476). -/
  openSamples : Nat := 0
  /-- A tamper was detected while the Core die was off: the next start zeroizes first (R290). -/
  pendingTamper : Bool := false
  /-- Times of the glitch trips of the last second (R292). -/
  glitches : List Nat := []
  deriving DecidableEq, Repr

/-- A request of a channel for a restart slot (R370). -/
structure Restart where
  /-- Time of the trip, which orders requests. -/
  since : Nat := 0
  /-- Slots waited. -/
  waited : Nat := 0
  /-- A restoration after a load dump: it uses no retry. -/
  restore : Bool := false
  deriving DecidableEq, Repr

/-- A protected power channel: the die's switch and the sequencer's record of it. -/
structure Channel where
  desired : Bool := false
  on : Bool := false
  /-- PWM in force in the die: duty, the duty of the next period, and the period in ns. -/
  pwm : Bool := false
  duty : Nat := 0
  nextDuty : Nat := 0
  period : Nat := 0
  /-- The switch is closed: follows the PWM edges of a PWM channel (R377). -/
  level : Bool := false
  latch : Bool := false
  /-- Causes, in the bit order of PWC_CHSTAT.CAUSE: FAST, INST, MODEL, THERM, RUNOUT, SOFT, MOGUL. -/
  cause : Nat := 0
  /-- A Mogul sequence runs; retries used; its elevated window is open. -/
  sequence : Bool := false
  used : Nat := 0
  elev : Bool := false
  /-- Last-state hold of the channel. -/
  hold : Bool := false
  /-- Thermal mode: latch. -/
  thLatch : Bool := true
  /-- A hysteresis shutdown waits for the junction to cool. -/
  cooling : Bool := false
  /-- A trip waits for its retry request, SPACING after this time. -/
  tripped : Option Nat := none
  /-- The restart request waiting for a slot. -/
  restart : Option Restart := none
  /-- Off for a load dump with its state kept (R379). -/
  dumped : Bool := false
  /-- Latest calibrated samples: current in mA, junction in 0.125 °C, voltage in mV (R159). -/
  current : Int := 0
  junction : Int := 0
  voltage : Nat := 0
  /-- The junction is above the restart level (R372). -/
  hot : Bool := false
  /-- Runout accumulator, in units of 10^-11 A²s (R373). -/
  racc : Nat := 0
  /-- A gain step was asked for (CALGAIN). -/
  gainAsked : Bool := false
  /-- Offset, and gain, not updated for STALES seconds (R361). -/
  staleOffset : Bool := false
  staleGain : Bool := false
  /-- Time of the last trip, which orders restart requests (R370). -/
  tripAt : Nat := 0
  /-- The bit of the cause of the last trip; 7 before any (R380). -/
  tripBit : Nat := 7
  /-- End of the floor timer of the wire model (R367). -/
  floorUntil : Option Nat := none
  badPwm : Bool := false
  /-- Time of the last gain step (R362). -/
  gainAt : Option Nat := none
  /-- Time at which the on-phase of the PWM period in progress ends (R377). -/
  fallAt : Nat := 0
  /-- Times of the last switch-on (R368), of the last write of THETA (R365), and of the last updates of offset and
  gain (R361). -/
  onAt : Nat := 0
  thetaAt : Nat := 0
  offsetAt : Nat := 0
  gainedAt : Nat := 0
  /-- Supervision of a channel desired on and off (R455): since when, for how long it paused, since when it
  pauses, and whether it has reported. -/
  offSince : Option Nat := none
  paused : Nat := 0
  askedAt : Option Nat := none
  overdue : Bool := false
  deriving DecidableEq, Repr

/-- A command in a sequencer's queue: code, channel index (255 the die), argument (R359). -/
structure PowerCmd where
  code : Nat
  ch : Nat
  arg : Word
  /-- The thread that sent it, 0 to 3. -/
  thread : Nat := 0
  deriving DecidableEq, Repr

/-- A power die and its sequencer's command path. -/
structure PowerDie where
  /-- Die-wide last-state hold: a die waits in it until a sequencer attaches (R376). -/
  hold : Bool := true
  /-- The die is reported lost, or reversed (R379). -/
  reversed : Bool := false
  /-- Off for a load dump. -/
  dump : Bool := false
  /-- Commands on their way, oldest first, at most 16. -/
  queue : List PowerCmd := []
  /-- The sequencer has read the die's state since its EN was set. -/
  stateRead : Bool := false
  /-- The die was in last-state hold since the last snapshot (R367). -/
  heldSince : Bool := false
  /-- Time of the last shedding (R357). -/
  shedAt : Option Nat := none
  deriving DecidableEq, Repr

/-- The power dies. -/
structure PowerState where
  /-- Channels by OUT number. -/
  channels : Store Channel := []
  /-- Time of the last gain step that a quiet slot placed (R362). -/
  stepAt : Option Nat := none
  /-- Time of the last model snapshot (R366). -/
  snapAt : Option Nat := none
  dieA : PowerDie := {}
  dieB : PowerDie := {}
  deriving DecidableEq, Repr

/-- An event waiting for WAITE (R395): code, sub-source, and the wake record of a source. -/
structure WakeEvent where
  code : Nat
  sub : Nat := 0
  record : Option Nat := none
  deriving DecidableEq, Repr

/-- A Chairlift frame's fields (R397). MAP and OVR hold bit i in bit i. -/
structure Chair where
  epoch : Nat := 0
  top : Bool := false
  segment : Nat := 0
  origin : Nat := 0
  sender : Nat := 0
  delay : Nat := 0
  map : Nat := 0
  ovr : Nat := 0
  deriving DecidableEq, Repr

/-- The agent's state on one ring, segment or top (R401, R402). -/
structure RingState where
  /-- This node's MAP bit is set in this epoch. -/
  mine : Bool := false
  /-- This node is the origin of a chair that is not complete. -/
  origin : Bool := false
  /-- The chair this node started is complete. -/
  complete : Bool := false
  /-- The newest copy seen. -/
  newest : Option Chair := none
  /-- When it was seen, or the epoch began. -/
  seenAt : Nat := 0
  /-- A copy held until this node consents. -/
  held : Option Chair := none
  deriving DecidableEq, Repr

/-- The wake unit and the Chairlift agent. -/
structure WakeState where
  /-- A W trap taken while the Core die was off: its fault code and data, raised at the next start
  (R395). -/
  trapFault : Option (Nat × Nat) := none
  /-- Events waiting for WAITE, oldest first. -/
  events : List WakeEvent := []
  /-- Record of the source event WAITE returned last, with no PWRQ since (R395). -/
  taken : Option Nat := none
  /-- KEY is asserted. -/
  key : Bool := false
  /-- The copies AON holds of WAK_SRCEN, WAK_SRCTGT and WAK_SLEEPCFG while asleep. -/
  srcen : Word := 0x0306
  srctgt : Word := 0xFFFF
  sleepcfg : Word := 2
  /-- The record of the wake in progress (R393). -/
  waking : Option Nat := none
  /-- The state the module last woke from, and the record of that wake if an event made it (R394). -/
  wokeFrom : Option (Nat × Option Nat) := none
  /-- Wake events held during sleep entry: record and target (R391). -/
  heldWake : List (Nat × Nat) := []
  /-- Records not yet copied into the black box (R393). -/
  unboxed : List Nat := []
  /-- Sleep depth asked for by PWRQ for the next entry: Slate 1, Umber 0 (R395). -/
  depth : Option Nat := none
  /-- The RTC was lost since the last start of the Core die (R386). -/
  rtcLost : Bool := false
  /-- The rings. -/
  seg : RingState := {}
  topRing : RingState := {}
  /-- The deadline, while a valid COMMIT stands, in ns of model time. -/
  deadline : Option Nat := none
  /-- MAXAWAKE has run out in this epoch (R404). -/
  maxed : Bool := false
  /-- When the first chair of this epoch was sent or received (R404). -/
  chairAt : Option Nat := none
  /-- Time of the last TIMER event (R395). -/
  timerAt : Nat := 0
  /-- An ABORT was sent within WAKEGUARD of this deadline (R403). -/
  lateAbort : Option Nat := none
  /-- Since when every condition of a false wake has held (R394). -/
  quietSince : Nat := 0
  /-- Ports on which TC10 wake requests were sent by DOWAKE, newest last (R403). -/
  wakeSent : List Nat := []
  deriving DecidableEq, Repr

/-- A freeze area of the black box (R436): SEQ of the record that opened it, its first slot, and the
newest slot written in it. -/
structure FreezeArea where
  seq : Nat
  first : Nat
  last : Nat
  deriving DecidableEq, Repr

/-- The black-box writer behind its registers. -/
structure BoxState where
  /-- Slot of the newest record; before the first record, the last slot. -/
  slot : Nat := 65535
  areas : List FreezeArea := []
  deriving DecidableEq, Repr

/-- The boot controller and the patch engine behind their registers. The boot state record's layout in
MRAM is not given; what it holds and the registers do not show is here.
DESIGN CHOICE, unsafe (log entry 110). -/
structure BootState where
  /-- Manifests read by OPEN and waiting for verification, in the order of the writes: channel and
  bytes (R428). -/
  opens : List (Nat × List Byte) := []
  /-- The manifest of the session. -/
  manifest : List Byte := []
  /-- A segment presented and not yet processed: channel and bytes. -/
  segment : Option (Nat × List Byte) := none
  /-- Plain payload bytes accepted so far of the component being streamed. -/
  payload : List Byte := []
  /-- Every component of the session has been streamed and checked. -/
  complete : Bool := false
  /-- Time of the last progress (R426). -/
  progressAt : Nat := 0
  /-- No bootable image was found: the start has halted (R414). -/
  halted : Bool := false
  /-- The retention image of the fast-resume store (R385, R418): the tables, live banks and
  configuration kept, and the slot and manifest digest it names; none when it is not valid. -/
  retention : Option (Nat × List Byte) := none
  /-- FEED_LOSS has run since the last start: the next start is cold (R22). -/
  afterLoss : Bool := false
  deriving DecidableEq, Repr

/-- A frame on its way from the gateway to port 34: its source, its bytes with pseudo-header, and
whether it was received (and so uses its source's receive buffer). -/
structure GwyFrame where
  bus : Nat
  chan : Nat
  bytes : List Byte
  rx : Bool
  deriving DecidableEq, Repr

/-- A frame in a CAN transmit buffer: its bytes, the identifier it competes with, and the time it
entered (R303). -/
structure GwyTx where
  bytes : List Byte
  key : Nat
  entered : Nat
  deriving DecidableEq, Repr

/-- A LIN response buffer: its frame, and whether a header for it has arrived (R305). -/
structure LinBuffer where
  bytes : List Byte
  sent : Bool
  deriving DecidableEq, Repr

/-- The field-bus gateway behind its registers. -/
structure GwyState where
  /-- Frames toward port 34 in the order of acceptance (R299). -/
  inbox : List GwyFrame := []
  /-- CAN transmit buffers by channel, in order of arrival. -/
  canTx : Store (List GwyTx) := []
  /-- Transmit buffers of the serial channels, in order of arrival. -/
  serTx : Store (List (List Byte)) := []
  /-- LIN response buffers by 64 × channel + identifier. -/
  linBuf : Store (Option LinBuffer) := []
  /-- Next schedule entry of each LIN channel. -/
  linAt : Store Nat := []
  /-- Consecutive samples of each input that differ from its debounced state. -/
  dinRun : Store Nat := []
  /-- An input event has been lost to overrun. -/
  eventLost : Bool := false
  /-- The frame each channel transmitted last, keyed 256 × BUS + CHANNEL. -/
  lastTx : Store (List Byte) := []
  /-- Frame error counters of the selective-wake decoders, by CAN channel (R304). -/
  swErrors : Store Nat := []
  /-- Times of the last periodic reports of the analogue inputs (R307). -/
  ainAt : Store Nat := []
  deriving DecidableEq, Repr

/-- What an outstanding outbound non-posted request is for (R318, R320, R324). -/
inductive HbrKind where
  | read
  | fence
  | poll (d : Nat)
  deriving DecidableEq, Repr

/-- An outstanding outbound non-posted request: number, purpose, requester, window, local and bus
address, and size in bytes; and of the window it matched the byte-lane rule, and whether data beyond it may
be kept as prefetched (R314); the time its completion timer ends, and the nanoseconds that replays may still
delay it (R322). -/
structure HbrRequest where
  id : Nat
  kind : HbrKind
  master : Master
  win : Nat
  addr : Nat
  bus : Nat
  size : Nat
  urgent : Bool
  lanes : Nat := 0
  pf : Bool := false
  due : Nat := 0
  grace : Nat := 0
  deriving DecidableEq, Repr

/-- A posted write in a buffer toward the link: its number in the order of all requests, its class, window,
local and bus address, requester, and its bytes by bus address. -/
structure HbrPosted where
  id : Nat := 0
  urgent : Bool
  win : Nat
  addr : Nat
  bus : Nat
  master : Master
  cells : List (Nat × Byte)
  deriving DecidableEq, Repr

/-- Prefetched data of an outbound window: its world, local and bus address, the bytes as they lie on
the bus, whether a read has been served from it, and the time of its last use (R317). -/
structure PfBlock where
  win : Nat
  indigo : Bool
  addr : Nat
  bus : Nat
  bytes : List Byte
  served : Bool := false
  used : Nat := 0
  deriving DecidableEq, Repr

/-- The completion that the bridge sent last for an inbound non-posted request: its status (0 successful,
1 Unsupported Request, 4 Completer Abort), requester ID, class and data. -/
structure HbrCompletion where
  status : Nat
  rid : Nat
  urgent : Bool
  data : List Byte
  deriving DecidableEq, Repr

/-- The host bridge behind its registers. -/
structure HbrState where
  /-- HBR_PCFG as sampled at the first enable after a reset (R312). -/
  pcfg : Option Word := none
  /-- Level of PERST_N as an input in endpoint mode (R478). -/
  perst : Bool := true
  requests : List HbrRequest := []
  /-- Number of the next request, posted or not. -/
  nextId : Nat := 0
  /-- Posted writes in the buffers toward the link, oldest first. -/
  posted : List HbrPosted := []
  /-- The posted write that left for the link last, and the most recent one made. -/
  sent : Option HbrPosted := none
  latest : Option HbrPosted := none
  /-- Prefetched blocks, oldest first, at most 16 (R327). -/
  prefetched : List PfBlock := []
  /-- An error message has been received since the fence's GO (R320). -/
  fenceError : Bool := false
  /-- Poll descriptors that have read their word since EN was set (R324). -/
  polled : Store Bool := []
  /-- The time each poll descriptor's next read is due (R324). -/
  pollAt : Store Nat := []
  /-- Pending bits of the MSI-X vectors (R325). -/
  msixPending : Word := 0
  completion : Option HbrCompletion := none
  /-- The error last reported to the root under AER in endpoint mode: 1 Unsupported Request, 4 Completer
  Abort (R321). -/
  aerSent : Option Nat := none
  deriving DecidableEq, Repr

/-- The compute complex behind its registers. -/
structure CpxState where
  /-- MJPART of app harts 0 to 3 and of RT pairs 0 and 1, by unit (R336). -/
  mjpart : Store Word := []
  /-- The last write of MJPART raised an illegal-instruction exception in its core (R336). -/
  illegal : Bool := false
  /-- Times at which units became SPARE and ISOLATED (R347), and of their last latent divergence (R349). -/
  spareAt : Store (Option Nat) := []
  isolatedAt : Store Nat := []
  latentAt : Store (Option Nat) := []
  /-- NOTAFTER of the open debug certificate (R351). -/
  notAfter : Nat := 0
  /-- Interrupt identities set pending in the IMSIC files, by file and identity (R340). -/
  eip : Store Bool := []
  deriving DecidableEq, Repr

/-- The fault collector behind its registers. -/
structure FltState where
  /-- The first pair to run after a reset has not passed its comparator self-test (R452). -/
  faultN0Start : Bool := true
  /-- A fatal fault or a safe stop has asserted FAULT_N[0]: it stays until the next reset of the Core
  die (R452). -/
  fatal : Bool := false
  /-- A safe stop is in force (R453). -/
  safeStop : Bool := false
  /-- Blocks that an ISOLATE reaction is quiescing, with the time of detection (R451). -/
  isolating : List (Nat × Nat) := []
  /-- Units whose first service value is outstanding, and when each unit's watchdog was started or last
  served (R450). -/
  kickOpen : Store Bool := []
  servedAt : Store Nat := []
  /-- A RESET reaction waits for the black-box record to be committed (R451). -/
  resetPending : Bool := false
  /-- Time of the first report of the newest log entry (R448). -/
  newestAt : Nat := 0
  deriving DecidableEq, Repr

/-- The state of the block. -/
structure State where
  /-- Commands waiting, first in first out. -/
  pending : List Instr := []
  tim : TimeState := {}
  rtc : RtcState := {}
  /-- The build (R2). -/
  variant : Variant := .jzm4832s
  /-- Time since the model's origin, in nanoseconds. -/
  nowNs : Nat := 0
  /-- The model's own counter of open choices: each free value takes the next one. -/
  freeCtr : Nat := 0
  /-- Every register and table word, by key. -/
  regs : Store Word := []
  /-- Live banks of the operating tables: bank 0 to 3 by generation, 4 the ungenerationed live
  bank, 5 the pending bank of the Slalom lists; keyed `bank * 2 ^ 27 + key`. -/
  live : Store Word := []
  /-- Memory by address. -/
  mem : List Host.Cell := []
  /-- The reply of the last bus access. -/
  busReply : BusReply := {}
  /-- Bit-alias and register writes on their way to the Edge die, oldest first (R33). -/
  edgeQueue : List BusWrite := []
  /-- WAK writes accepted in the EDGE island and not yet applied in AON (R32). -/
  aonQueue : List BusWrite := []
  /-- Islands not running, by island number. -/
  islands : Store IslandState := []
  /-- The Core die is held in reset. -/
  coreHeld : Bool := false
  /-- Blocks quiescing (R36). -/
  quiescing : Store Bool := []
  /-- The commit in progress of each block. -/
  commits : Store CommitState := []
  /-- Saturated counter pairs (R458). -/
  saturated : Store Bool := []
  /-- Level events of MON that were asserted at the last SYSTEM cycle (R460). -/
  monLevels : Store Bool := []
  traverse : TraverseLink := {}
  powerLinkA : PowerLink := {}
  powerLinkB : PowerLink := {}
  supply : Supply := {}
  /-- Reports waiting at the fault collector, oldest first (R448). -/
  reports : List FaultReport := []
  /-- Black-box records waiting, oldest first, at most 64 (R434). -/
  bbQueue : List BoxRecord := []
  /-- Records lost since the last LOST record (R434). -/
  bbLost : Nat := 0
  /-- Interrupt sources asserted as edges and not yet claimed (R340). -/
  irqs : List Nat := []
  /-- Flow-control frames the ports have sent, newest first (R68). -/
  flowFrames : List FlowFrame := []
  /-- Frames inside the module, by number; the next number to give. -/
  frames : Store (Option Frame) := []
  nextFrame : Nat := 0
  ports : Store PortState := []
  fab : FabricState := {}
  cls : ClassifyState := {}
  rtk : RitikState := {}
  /-- Memory words that hold an uncorrectable error (R167, R195). -/
  eccBad : List MemCell := []
  /-- Debug scopes open, as the SCOPE mask of R350. -/
  debugScope : Nat := 0
  tm : TmState := {}
  cip : CipherState := {}
  vlt : VaultState := {}
  power : PowerState := {}
  wak : WakeState := {}
  boot : BootState := {}
  box : BoxState := {}
  gwy : GwyState := {}
  hbr : HbrState := {}
  cpx : CpxState := {}
  flt : FltState := {}
  deriving DecidableEq, Repr

/-- The machine right after reset: every register at the reset value of its table, every engine
idle, nothing waiting.
DESIGN CHOICE, unsafe (log entry 10). -/
def State.reset : State := {}

end Sys2Proof.Machine
end

