-- ==== Sys2Proof/Machine/Ops.lean ====
section
/-!
DEFINITION. The named operations over registers, memory, counters, faults, black-box requests and
interrupts that every command's meaning is written from.
-/

namespace Sys2Proof.Machine

open Sys2Proof

/-! ## Registers -/

/-- The stored word of a register. -/
def State.rd (s : State) (k : Nat) : Word := Store.get resetWord s.regs k

/-- The state with a register's stored word replaced. -/
def State.wr (s : State) (k : Nat) (w : Word) : State :=
  { s with regs := Store.set resetWord s.regs k w }

/-- A register's field as a number. -/
def State.fld (s : State) (k lo width : Nat) : Nat := getBits (s.rd k) lo width

/-- A register bit. -/
def State.bit (s : State) (k b : Nat) : Bool := getBit (s.rd k) b

/-- The state with a register's field replaced. -/
def State.setFld (s : State) (k lo width v : Nat) : State := s.wr k (setBits (s.rd k) lo width v)

/-- The state with a register's bit replaced. -/
def State.setBit (s : State) (k b : Nat) (v : Bool) : State := s.setFld k b 1 (b2n v)

/-- A register read as a number. -/
def State.rdN (s : State) (k : Nat) : Nat := (s.rd k).toNat

/-- The state with a register set to a number. -/
def State.wrN (s : State) (k v : Nat) : State := s.wr k (BitVec.ofNat 32 v)

/-- Write consecutive words from a key. -/
def State.wrWords (s : State) (k : Nat) : List Word → State
  | [] => s
  | w :: ws => State.wrWords (s.wr k w) (k + 4) ws

/-- Read `n` consecutive words from a key. -/
def State.rdWords (s : State) (k n : Nat) : List Word :=
  (List.range n).map (fun i => s.rd (k + 4 * i))

/-! ## Live banks of the operating tables (R38, R132) -/

/-- The span of keys of one bank. -/
def bankSpan : Nat := 0x8000000

/-- The ungenerationed live bank. -/
def liveBank : Nat := 4

/-- The pending bank of the Slalom lists (R206). -/
def pendBank : Nat := 5

/-- What an unlisted live word reads as: the reset content of its table. -/
def liveDefault (k : Nat) : Word := resetWord (k % bankSpan)

/-- A live word of a bank. -/
def State.rdLive (s : State) (bank k : Nat) : Word :=
  Store.get liveDefault s.live (bankSpan * bank + k)

/-- The field of a live word. -/
def State.fldLive (s : State) (bank k lo width : Nat) : Nat := getBits (s.rdLive bank k) lo width

/-- The state with a live word replaced. -/
def State.wrLive (s : State) (bank k : Nat) (w : Word) : State :=
  { s with live := Store.set liveDefault s.live (bankSpan * bank + k) w }

/-- Copy the shadow words of `[lo, hi)` into a live bank. -/
def State.shadowToLive (s : State) (bank lo hi : Nat) : State :=
  let base := bankSpan * bank
  { s with
    live := Store.setAll liveDefault (Store.clear s.live (base + lo) (base + hi))
      (Store.slice s.regs lo hi base 0) }

/-- Copy the words of `[lo, hi)` from one live bank to another. -/
def State.liveToLive (s : State) (src dst lo hi : Nat) : State :=
  { s with
    live := Store.setAll liveDefault
      (Store.clear s.live (bankSpan * dst + lo) (bankSpan * dst + hi))
      (Store.slice s.live (bankSpan * src + lo) (bankSpan * src + hi)
        (bankSpan * dst) (bankSpan * src)) }

/-- Copy the words of `[lo, hi)` from a live bank back to the shadow (R39). -/
def State.liveToShadow (s : State) (bank lo hi : Nat) : State :=
  { s with
    regs := Store.setAll resetWord (Store.clear s.regs lo hi)
      (Store.slice s.live (bankSpan * bank + lo) (bankSpan * bank + hi) 0 (bankSpan * bank)) }

/-! ## Memory (R26, R407, R410) -/

/-- What a byte of memory that nothing has written reads as: 0, except that the commit words of
the monotonic counters partition (R410) hold the value 0 with its complement in their upper
half, so that they are valid (R409).
DESIGN CHOICE, unsafe (log entry 9). -/
def memDefault (a : Nat) : Byte :=
  if (0x10011190 ≤ a ∧ a < 0x10011198 ∨ 0x10011200 ≤ a ∧ a < 0x10011400) ∧ 4 ≤ a % 8 then 0xFF
  else 0

/-- A byte of memory. -/
def State.rdByte (s : State) (a : Nat) : Byte := Store.get memDefault s.mem a

/-- The state with a byte of memory replaced. -/
def State.wrByte (s : State) (a : Nat) (b : Byte) : State :=
  { s with mem := Store.set memDefault s.mem a b }

/-- `n` bytes of memory from an address. -/
def State.rdBytes (s : State) (a n : Nat) : List Byte :=
  (List.range n).map (fun i => s.rdByte (a + i))

/-- Store bytes at consecutive addresses. -/
def State.wrBytes (s : State) (a : Nat) : List Byte → State
  | [] => s
  | b :: bs => State.wrBytes (s.wrByte a b) (a + 1) bs

/-- Bytes of memory erased: they read as bytes that nothing has written. -/
def State.erase (s : State) (a n : Nat) : State := { s with mem := Store.clear s.mem a (a + n) }

/-- A little-endian word of memory. -/
def State.rdMem32 (s : State) (a : Nat) : Nat := natLE (s.rdBytes a 4)

/-- Memory in its canonical form. -/
def Memory.wf (m : List Host.Cell) : Bool := Store.wf memDefault m

/-! ## Free values -/

/-- The next open choice, and the state that has used it up.
DESIGN CHOICE, safe (log entry 4). -/
def State.takeFree (s : State) : Nat × State := (s.freeCtr, { s with freeCtr := s.freeCtr + 1 })

/-! ## Counter pairs (R458, R459) and MON counters (R460, R461) -/

/-- MON_MODE.MODE is SERVICE. -/
def State.serviceMode (s : State) : Bool := s.fld Reg.MON_MODE 0 2 == 0

/-- Add `n` to the counter pair whose LOW word is at `k`, under the counter mode (R458). -/
def State.bumpBy (s : State) (k n : Nat) : State :=
  if Store.get (fun _ => false) s.saturated k then s
  else
    let low := s.rdN k
    let high := s.fld (k + 4) 0 30
    if s.serviceMode then
      let total := 0x100000000 * high + low + n
      if total < 0x3FFFFFFF * 0x100000000 + 0x100000000 then
        (s.wrN k (total % 0x100000000)).setFld (k + 4) 0 30 (total / 0x100000000)
      else
        { (s.wrN k 0xFFFFFFFF).setFld (k + 4) 0 30 0x3FFFFFFF with
          saturated := Store.set (fun _ => false) s.saturated k true }
    else
      let s' := s.wrN k ((low + n) % 0x100000000)
      if low + n < 0x100000000 then s' else s'.setBit (k + 4) 30 true

/-- Count one in a counter pair. -/
def State.bump (s : State) (k : Nat) : State := s.bumpBy k 1

/-- An interrupt source asserted as an edge (R340): kept until the complex claims it.
DEDUCED, unsafe (log entry 26). -/
def State.irq (s : State) (n : Nat) : State :=
  if s.irqs.contains n then s else { s with irqs := s.irqs ++ [n] }

/-- Key of MON_CFG[i] (R460). -/
def monCfgKey (i : Nat) : Nat := regKey 2 (0x10000 + 4 * i)

/-- MON counter i is the second half of a chained pair (R461). -/
def State.monChained (s : State) (i : Nat) : Bool := i % 2 == 1 && s.bit (monCfgKey (i - 1)) 13

/-- The enabled MON counters that count an event. An enabled counter's MON_CFG differs from its
reset value, so only listed registers need be searched. -/
def State.monCounters (s : State) (ev : Nat) : List Nat :=
  ((Store.slice s.regs (monCfgKey 0) (monCfgKey 1536) 0 (monCfgKey 0)).filter
    (fun e => getBit e.2 14 && getBits e.2 0 11 == ev && !s.monChained (e.1 / 4))).map
    (fun e => e.1 / 4)

/-- MON counter i counts `n` more (R460, R461). -/
def State.monAdd (s : State) (i n : Nat) : State :=
  if s.bit (monCfgKey i) 13 && i % 2 == 0 then s.bumpBy (Reg.MON_VAL i) n
  else
    let v := s.rdN (Reg.MON_VAL i) + n
    let s' := s.wrN (Reg.MON_VAL i) (v % 0x100000000)
    if v < 0x100000000 then s' else (s'.setBit (monCfgKey i) 15 true).irq 3

/-- An occurrence event of MON happens `n` times (R460, R462). -/
def State.monEvents (s : State) (ev n : Nat) : State :=
  (s.monCounters ev).foldl (fun acc i => acc.monAdd i n) s

/-- An occurrence event of MON happens once. -/
def State.monEvent (s : State) (ev : Nat) : State := s.monEvents ev 1

/-! ## Blocks -/

/-- BLK_CTRL.EN of a block index. -/
def State.blkEn (s : State) (b : Nat) : Bool := s.bit (Reg.BLK_CTRL b) 0

/-- The block is quiescing (R36). -/
def State.blkQuiescing (s : State) (b : Nat) : Bool := Store.get (fun _ => false) s.quiescing b

/-- The block is enabled and not quiescing: it accepts new operations (R36). -/
def State.blkAccepts (s : State) (b : Nat) : Bool := s.blkEn b && !s.blkQuiescing b

/-- A refused CFG or shadow write: CFGDENY sets, and captures the write if it was clear (R29). -/
def State.deny (s : State) (key pmid : Nat) : State :=
  let b := key / 0x100000
  if s.bit (Reg.BLK_STATUS b) 0 then s
  else
    ((s.setBit (Reg.BLK_STATUS b) 0 true).setFld (Reg.BLK_DENYADDR b) 0 20 (key % 0x100000)).setFld
      (Reg.BLK_DENYADDR b) 20 6 pmid

/-! ## Islands -/

/-- The number an island is stored under. -/
def islandIx : Island → Nat
  | .pg0 => 0 | .pg1 => 1 | .pg2 => 2 | .pg3 => 3 | .pg4 => 4
  | .fabric => 5 | .classify => 6 | .ritik => 7 | .cipher => 8 | .tm => 9
  | .app => 10 | .rt => 11 | .mem => 12 | .system => 13 | .seq => 14 | .edge => 15 | .aon => 16

/-- The island number of fault 0x340D: the row of R14's table. -/
def islandRow : Island → Nat
  | .pg0 => 0 | .pg1 => 0 | .pg2 => 0 | .pg3 => 1 | .pg4 => 1
  | .fabric => 2 | .classify => 3 | .ritik => 4 | .cipher => 5 | .tm => 6
  | .app => 7 | .rt => 8 | .mem => 9 | .system => 10 | .seq => 11 | .edge => 12 | .aon => 13

/-- An island's state; islands run unless listed. -/
def State.island (s : State) (i : Island) : IslandState :=
  Store.get (fun _ => IslandState.running) s.islands (islandIx i)

/-- The island is running. -/
def State.running (s : State) (i : Island) : Bool := s.island i == .running

/-- The island runs and its die is not held in reset: the engines in it act (R14, R34). -/
def State.up (s : State) (i : Island) : Bool :=
  s.running i && (!s.coreHeld || i == .edge || i == .aon)

/-- The state with an island's state replaced. -/
def State.setIsland (s : State) (i : Island) (v : IslandState) : State :=
  { s with islands := Store.set (fun _ => IslandState.running) s.islands (islandIx i) v }

/-- The Core die's islands. -/
def coreIslands : List Island :=
  [.pg0, .pg1, .pg2, .pg3, .pg4, .fabric, .classify, .ritik, .cipher, .tm, .app, .rt, .mem,
    .system, .seq]

/-- The Traverse link carries register traffic: it is up (R32). -/
def State.edgeReachable (s : State) : Bool := s.traverse.state == .up

/-! ## Variants (R2, R48) -/

/-- The cipher engine is present. -/
def State.hasCip (s : State) : Bool := s.variant != .jzm4832

/-- A power die is present. -/
def State.hasDie (s : State) (d : Nat) : Bool :=
  if d = 0 then s.variant != .jzm0032s
  else s.variant != .jzm0032s && s.variant != .jzm2432s

/-- A port is present. -/
def State.hasPort (s : State) (p : Nat) : Bool :=
  if 4 ≤ p ∧ p < 12 then s.variant != .jzm4824s else decide (p < 37)

/-- SYS_CAPS.VARIANT (R48). -/
def variantCode : Variant → Nat
  | .jzm4832s => 0 | .jzm4832 => 1 | .jzm2432s => 2 | .jzm0032s => 3 | .jzm4824s => 4

/-- The word SYS_CAPS presents (R48). -/
def State.capsWord (s : State) : Word :=
  BitVec.ofNat 32
    (b2n s.hasCip + 2 * b2n (s.hasDie 0) + 4 * b2n (s.hasDie 1) + 8 * b2n (s.hasPort 4)
      + 256 * variantCode s.variant)

/-! ## Time bases (R224, R225, R231, R386) -/

/-- Units of 2^-16 ns in a second. -/
def tkPerSec : Nat := 1000000000 * 65536

/-- Local time in units of 2^-16 ns (R224). -/
def State.lt (s : State) : Nat := tkPerSec * s.tim.ltSec + 65536 * (s.nowNs - s.tim.ltStart)

/-- A domain's servo state. -/
def State.dom (s : State) (d : Nat) : Domain := Store.get (fun _ => {}) s.tim.domains d

/-- The state with a domain's servo state replaced. -/
def State.setDom (s : State) (d : Nat) (v : Domain) : State :=
  { s with tim := { s.tim with domains := Store.set (fun _ => {}) s.tim.domains d v } }

/-- What a clock shows at a local time (R225). -/
def Clock.at_ (k : Clock) (lt : Nat) : Nat :=
  let run : Int → Int → Int := fun dl rho => dl + Int.fdiv (dl * rho) (2 ^ 40)
  match k.slewEnd with
  | some e =>
    if e < lt then
      ((k.w0 : Int) + run ((e : Int) - k.lt0) k.rho + run ((lt : Int) - e) k.base).toNat
    else ((k.w0 : Int) + run ((lt : Int) - k.lt0) k.rho).toNat
  | none => ((k.w0 : Int) + run ((lt : Int) - k.lt0) k.rho).toNat

/-- Nanoseconds for which the Traverse link has reported recovering (R11). -/
def State.recovered (s : State) : Nat :=
  s.traverse.recovered +
    (if s.traverse.state = .recovering then s.nowNs - s.traverse.retrainSince else 0)

/-- A timer that starts now. -/
def State.timer (s : State) : Timer := { start := s.nowNs, recovered := s.recovered }

/-- A timer has run for a time: it pauses while the Traverse link recovers, for at most 100 µs (R454).
DESIGN CHOICE, safe (log entry 3). -/
def State.ran (s : State) (t : Timer) (ns : Nat) : Bool :=
  decide (t.start + ns + Nat.min 100000 (s.recovered - t.recovered) ≤ s.nowNs)

/-- The rate of a clock at a local time (R225, R227). -/
def Clock.rate (k : Clock) (lt : Nat) : Int :=
  match k.slewEnd with
  | some e => if e ≤ lt then k.base else k.rho
  | none => k.rho

/-- A clock whose phase correction has been spread goes on at its rate without it (R227). -/
def Clock.settled (k : Clock) (lt : Nat) : Clock :=
  match k.slewEnd with
  | some e => if e ≤ lt then { w0 := k.at_ e, lt0 := e, rho := k.base, base := k.base } else k
  | none => k

/-- The working clock W_d at a local time, in units of 2^-16 ns (R225). -/
def State.wAt (s : State) (d : Nat) (lt : Nat) : Nat :=
  if s.bit (Reg.TIM_DOMCFG d) 0 then (s.dom d).clk.at_ lt else lt

/-- The working clock W_d now. -/
def State.wNow (s : State) (d : Nat) : Nat := s.wAt d s.lt

/-- The Edge die's copy of local time at a capture, which has a resolution of 0.5 ns (R231, R233). -/
def State.edgeLt (s : State) : Nat := ((s.lt : Int) + s.tim.edgeSkew).toNat / 32768 * 32768

/-- The domain has a valid time base (R226). -/
def State.validTb (s : State) (d : Nat) : Bool := s.bit (Reg.TIM_DSTAT d) 2

/-- The nanosecond word of a time (R231). -/
def tkNs (t : Nat) : Nat := t / 65536 % 1000000000

/-- The seconds of a time, modulo 2^48 (R231). -/
def tkSec (t : Nat) : Nat := t / tkPerSec % 2 ^ 48

/-- The fraction of a time in units of 2^-16 ns (R231). -/
def tkFrac (t : Nat) : Nat := t % 65536

/-- Write a time into the three words of R231 at a key. -/
def State.wrTime (s : State) (k t : Nat) : State :=
  ((s.wrN k (tkNs t)).wrN (k + 4) (tkSec t % 2 ^ 32)).wr (k + 8)
    (BitVec.ofNat 32 (tkSec t / 2 ^ 32 + 65536 * tkFrac t))

/-- The time that three words of R231 at a key hold. -/
def State.rdTime (s : State) (k : Nat) : Nat :=
  tkPerSec * (s.rdN (k + 4) + 2 ^ 32 * s.fld (k + 8) 0 16) + 65536 * s.rdN k + s.fld (k + 8) 16 16

/-- The RTC in ticks of 1/32,768 s (R386). -/
def State.rtcTicks (s : State) : Nat :=
  s.rtc.ticks + 32768 * (s.nowNs - s.rtc.since) / 1000000000

/-- RTC seconds. -/
def State.rtcSec (s : State) : Nat := s.rtcTicks / 32768 % 2 ^ 32

/-- The RTC is valid. -/
def State.rtcValid (s : State) : Bool := s.bit Reg.WAK_RTCSUB 31

/-- Nanoseconds of domain 0, or 0 without a valid time base (R435, R448). -/
def State.dom0Ns (s : State) : Nat := if s.validTb 0 then tkNs (s.wNow 0) else 0

/-! ## Faults and the black box (R434, R448) -/

/-- Report a fault code with its log data word to the collector.
DESIGN CHOICE, unsafe (log entry 27). -/
def State.fault (s : State) (code data : Nat) : State :=
  { s with reports := s.reports ++ [⟨code, data % 2 ^ 32, s.nowNs⟩] }

/-- A frame was received that a false wake does not have: its time runs anew (R394).
DEDUCED, unsafe (log entry 152). -/
def State.heardFrame (s : State) : State := { s with wak := { s.wak with quietSince := s.nowNs } }

/-- Queue a black-box record; with the queue full it is lost, counted and reported (R434).
DESIGN CHOICE, safe (log entry 32). -/
def State.blackBox (s : State) (type code : Nat) (freeze : Bool) (pmid : Nat)
    (data : List Word) : State :=
  if s.bbQueue.length < 64 then
    { s with
      bbQueue := s.bbQueue ++
        [⟨type, code, freeze, pmid, !s.rtcValid, s.rtcSec, s.rtcTicks % 32768, s.dom0Ns, data⟩] }
  else
    (({ s with bbLost := s.bbLost + 1 }.bump Cnt.NVS_BB_LOST).monEvent 0x284).fault 0x2383 0

/-- A bus error: logged if the log is free, else OVF sets; counted and reported (R49). -/
def State.busError (s : State) (m : Master) (addr : Nat) (write : Bool) (cause : Nat) : State :=
  let s := (s.monEvent (0x400 + cause)).fault 0x0401 (addr % 2 ^ 32)
  let s := { s with busReply := { data := 0, error := true } }
  if s.bit Reg.SYS_BERRINFO 31 then s.setBit Reg.SYS_BERRINFO 30 true
  else
    (((((((s.irq 1).wrN Reg.SYS_BERRADDRL (addr % 2 ^ 32)).wrN Reg.SYS_BERRADDRH (addr / 2 ^ 32 % 256)).setFld
      Reg.SYS_BERRINFO 0 6 m.pmid.toNat).setBit Reg.SYS_BERRINFO 6 m.indigo).setBit
      Reg.SYS_BERRINFO 7 write).setFld Reg.SYS_BERRINFO 8 3 cause).setBit Reg.SYS_BERRINFO 31 true

/-! ## Guarantee conditions (R449) -/

/-- Recompute one flag of FLT_GSTAT; a flag that goes from 0 to 1 raises 0x2413 (R449). -/
def State.setGstat (s : State) (flag : Nat) (v : Bool) : State :=
  let was := s.bit Reg.FLT_GSTAT flag
  let s := s.setBit Reg.FLT_GSTAT flag v
  let s := s.setBit Reg.FLT_GSTAT 31 (s.fld Reg.FLT_GSTAT 0 8 == 0)
  if v && !was then s.fault 0x2413 (s.rdN Reg.FLT_GSTAT) else s

end Sys2Proof.Machine
end

