-- ==== Sys2Proof/Machine/Windows.lean ====
section
/-!
DEFINITION. The windows of the host bridge: what a live window holds, which window covers an address, and
where it leads (R313, R314).
-/

namespace Sys2Proof.Machine

open Sys2Proof

/-- SIZE of a window word 4: 12 to 32. -/
def winSize (w4 : Word) : Nat := clampNat 12 32 (getBits w4 1 6)

/-- A live window as the hardware uses it. -/
structure Window where
  base : Nat
  target : Nat
  size : Nat
  indigo : Bool
  urgent : Bool
  pf : Bool
  lanes : Nat
  bar2 : Bool
  deriving DecidableEq, Repr

/-- A window from its five live words, when enabled. -/
def windowOf (w0 w1 w2 w3 w4 : Word) : Option Window :=
  if getBit w4 0 then
    some
      { base := w0.toNat + 2 ^ 32 * w1.toNat, target := w2.toNat + 2 ^ 32 * w3.toNat,
        size := 2 ^ winSize w4, indigo := getBit w4 7, urgent := getBit w4 8, pf := getBit w4 9,
        lanes := getBits w4 10 3, bar2 := getBit w4 13 }
  else none

/-- Outbound and inbound window `w`. -/
def State.outWindow (s : State) (w : Nat) : Option Window :=
  let r := s.rdLive liveBank
  windowOf (r (Reg.HBR_OWIN_w0 w)) (r (Reg.HBR_OWIN_w1 w)) (r (Reg.HBR_OWIN_w2 w))
    (r (Reg.HBR_OWIN_w3 w)) (r (Reg.HBR_OWIN_w4 w))
def State.inWindow (s : State) (w : Nat) : Option Window :=
  let r := s.rdLive liveBank
  windowOf (r (Reg.HBR_IWIN_w0 w)) (r (Reg.HBR_IWIN_w1 w)) (r (Reg.HBR_IWIN_w2 w))
    (r (Reg.HBR_IWIN_w3 w)) (r (Reg.HBR_IWIN_w4 w))

/-- An address lies in a window. -/
def Window.covers (x : Window) (a : Nat) : Bool := decide (x.base ≤ a) && decide (a < x.base + x.size)

/-- Translation: TBASE + (address − MBASE). -/
def Window.map (x : Window) (a : Nat) : Nat := x.target + (a - x.base)

/-- The lowest enabled window that satisfies a test, among `n`. -/
def firstWindow (win : Nat → Option Window) (f : Window → Bool) (n : Nat) : Option (Nat × Window) :=
  (List.range n).findSome? (fun w =>
    match win w with
    | some x => if f x then some (w, x) else none
    | none => none)

/-- The enabled outbound window that an address goes through. -/
def State.outboundWindow (s : State) (a : Nat) : Option (Nat × Window) :=
  firstWindow s.outWindow (fun x => x.covers a) 64

end Sys2Proof.Machine
end

