-- ==== Sys2Proof/Machine/Bus.lean ====
section
/-!
DEFINITION. The system bus: address decode (R26, R27), the checks of every access and the cause of
the bus error each ends in (R30, R32, R44 to R49, R338), reads, and the write of a register word
field by field according to its access types (R8, R29, R40).
-/

namespace Sys2Proof.Machine

open Sys2Proof

/-- What an address reaches (R26, R42). -/
inductive Target where
  | rom | mram | sram | flash | outbound | dram | unmapped
  /-- A register word, by key. -/
  | reg (key : Nat)
  /-- A bit of a control-page word, through the bit-alias window. -/
  | bitAlias (key bit : Nat)
  deriving DecidableEq, Repr

/-- Address decode (R26, R27, R42). -/
def targetOf (a : Nat) : Target :=
  if a < 0x20000 then .rom
  else if 0x10000000 ≤ a ∧ a < 0x10800000 then .mram
  else if 0x20000000 ≤ a ∧ a < 0x20400000 then .sram
  else if 0x40000000 ≤ a ∧ a < 0x48000000 then .reg (a % 0x8000000)
  else if 0x48000000 ≤ a ∧ a < 0x49000000 then
    .bitAlias (0x100000 * (a % 0x1000000 / 0x20000) + a / 32 % 4096 / 4 * 4) (a / 4 % 32)
  else if 0x60000000 ≤ a ∧ a < 0x70000000 then .flash
  else if 0x80000000 ≤ a ∧ a < 0x100000000 then .outbound
  else if 0x100000000 ≤ a ∧ a < 0x300000000 then .dram
  else .unmapped

/-- Blocks whose world is Indigo whatever SYS_BLKWORLD is written to (R45). -/
def fixedIndigo (b : Nat) : Bool := [0x00, 0x01, 0x02, 0x1A, 0x28, 0x29].contains b

/-- The world of a block index: Indigo or Amber (R44, R45). -/
def State.blkIndigo (s : State) (b : Nat) : Bool :=
  fixedIndigo b || s.bit (Reg.SYS_BLKWORLD (b / 32)) (b % 32)

/-- The block index is present on this variant (R2). -/
def State.blkPresent (s : State) (b : Nat) : Bool :=
  if b = 0x19 then s.hasCip else if b = 0x24 then s.hasDie 0 else if b = 0x25 then s.hasDie 1
  else blockListed b

/-- The first port of a PRT instance, and how many port pages it has room for: ports 0 to 11, 12 to 27, 28
to 31, and 32 to 39 (R50, R72). -/
def instPorts (b : Nat) : Nat × Nat :=
  if b = 4 then (0, 12) else if b = 5 then (12, 16) else if b = 6 then (28, 4) else (32, 8)

/-- The port whose page a PRT key lies in, if it lies in one (R72). -/
def portOfKey (key : Nat) : Option Nat :=
  let b := key / 0x100000
  let off := key % 0x100000
  if 4 ≤ b ∧ b ≤ 7 ∧ 0x10000 ≤ off ∧ off / 0x1000 - 16 < (instPorts b).2 then
    some ((instPorts b).1 + (off / 0x1000 - 16))
  else none

/-- The port group of a port (R50). -/
def portGroup (p : Nat) : Nat :=
  if p < 4 then 0 else if p < 8 then 1 else if p < 12 then 2 else if p < 20 then 3
  else if p < 32 then 4 else if p < 36 then 5 else 6

/-- The island of a port group's registers: PORT islands for PG0 to PG4, FABRIC beyond (R14). -/
def groupIsland (g : Nat) : Island :=
  if g = 0 then .pg0 else if g = 1 then .pg1 else if g = 2 then .pg2 else if g = 3 then .pg3
  else if g = 4 then .pg4 else .fabric

/-- The island that serves a register (R13, R72). -/
def islandOfKey (key : Nat) : Island :=
  let b := key / 0x100000
  if 4 ≤ b ∧ b ≤ 7 then
    match portOfKey key with
    | some p => groupIsland (portGroup p)
    | none => if b = 4 then .pg0 else if b = 5 then .pg3 else if b = 6 then .pg4 else .fabric
  else if 8 ≤ b ∧ b ≤ 0xB then .fabric
  else if 0xC ≤ b ∧ b ≤ 0xF then .classify
  else if 0x10 ≤ b ∧ b ≤ 0x13 then .ritik
  else if 0x14 ≤ b ∧ b ≤ 0x18 then .tm
  else if b = 0x19 then .cipher
  else if b = 0x1C ∨ b = 0x1D then .edge
  else if 0x20 ≤ b ∧ b ≤ 0x22 then .app
  else if b = 0x23 then .rt
  else if b = 0x24 ∨ b = 0x25 then .seq
  else if b = 0x26 then .edge
  else .system

/-- The block's registers are on the Edge die, behind the Traverse link (R32). -/
def edgeBlock (b : Nat) : Bool := b = 0x1C || b = 0x1D || b = 0x26

/-- The register's island can be reached (R32, R34). -/
def State.reachable (s : State) (key : Nat) : Bool :=
  s.running (islandOfKey key) && (!edgeBlock (key / 0x100000) || s.edgeReachable)

/-- A port page that is absent: ports 4 to 11 where the build lacks them, and 37 to 39 (R72). -/
def State.absentPage (s : State) (key : Nat) : Bool :=
  match portOfKey key with
  | some p => !s.hasPort p
  | none => false

/-- The word exists: some row of the register map covers it. -/
def wordExists (key : Nat) : Bool := (rowAt key).isSome

/-- The word is one of a pair that allows a 64-bit access (R30). -/
def pairWord (key : Nat) : Bool :=
  match rowAt key with
  | some r => r.pair
  | none => false

/-- Size and alignment of a register access (R30). -/
def sizeOk (key : Nat) (size : AccessSize) : Bool :=
  match size with
  | .word => key % 4 == 0
  | .double => key % 8 == 0 && pairWord key && pairWord (key + 4)
  | _ => false

/-- The partition table allows a master's register access to a block (R338). -/
def State.partBlkOk (s : State) (pmid b : Nat) : Bool :=
  getBit (s.rdLive liveBank (Reg.CPX_PART_w0_11 pmid (8 + b / 32))) (b % 32)

/-- The enabled region descriptors, lowest index first (R46, R47). -/
def State.enabledRegions (s : State) : List Nat :=
  ((Store.slice s.regs (Reg.SYS_RGNATTR 0) (Reg.SYS_RGNATTR 256) 0 (Reg.SYS_RGNATTR 0)).filter
    (fun e => e.1 % 16 == 0 && getBit e.2 0)).map (fun e => e.1 / 16)

/-- The region descriptor that decides an address, if an enabled one covers it (R47). -/
def State.decidingRegion (s : State) (a : Nat) : Option Nat :=
  s.enabledRegions.find? (fun n =>
    decide (s.fld (Reg.SYS_RGNBASE n) 0 28 ≤ a / 4096) &&
      decide (a / 4096 ≤ s.fld (Reg.SYS_RGNLIM n) 0 28))

/-- What an access does at its target. -/
inductive AccessKind where
  | read | write | fetch
  deriving DecidableEq, Repr

/-- The world, permission and partition checks of a memory access (R44, R47, R338): the cause of
the bus error, or none. -/
def State.regionCheck (s : State) (m : Master) (a : Nat) (k : AccessKind) : Option Nat :=
  match s.decidingRegion a with
  | none => if m.indigo then none else some 4
  | some n =>
    if s.bit (Reg.SYS_RGNATTR n) 1 && !m.indigo then some 4
    else
      let perm := match k with
        | .read => s.bit (Reg.SYS_RGNATTR n) 2
        | .write => s.bit (Reg.SYS_RGNATTR n) 3
        | .fetch => s.bit (Reg.SYS_RGNATTR n) 4
      if !perm then some 5
      else if getBit (s.rdLive liveBank (Reg.CPX_PART_w0_11 m.pmid.toNat (n / 32))) (n % 32)
      then none
      else some 5

/-- An outbound address needs an enabled window of a world that the access may reach (R26, R314). -/
def State.windowCheck (s : State) (m : Master) (a : Nat) : Option Nat :=
  match s.outboundWindow a with
  | none => some 6
  | some (_, x) => if x.indigo && !m.indigo then some 4 else none

/-- The checks of a memory access at an address: the cause of the bus error, or none.
DESIGN CHOICE, unsafe (log entry 22). -/
def State.memCheck (s : State) (m : Master) (a : Nat) (k : AccessKind) : Option Nat :=
  match targetOf a with
  | .rom | .mram | .flash =>
    match s.regionCheck m a k with
    | some c => some c
    | none => if k = .write then some 5 else none
  | .sram => s.regionCheck m a k
  | .dram =>
    match s.regionCheck m a k with
    | some c => some c
    | none => if s.running .mem then none else some 2
  | .outbound =>
    match s.regionCheck m a k with
    | some c => some c
    | none => s.windowCheck m a
  | _ => some 6

/-- The checks of an access to `n` bytes of memory, granule by granule of 4 KiB (R46, R47): the address and
cause of the first bus error, or none; nothing is checked where no byte is accessed. -/
def State.memFault (s : State) (m : Master) (a n : Nat) (k : AccessKind) : Option (Nat × Nat) :=
  let at_ := fun x => (s.memCheck m x k).map (fun c => (x, c))
  if n = 0 then none
  else
    match at_ a with
    | some e => some e
    | none =>
      (List.range ((a + n - 1) / 4096 - a / 4096)).findSome?
        (fun i => at_ (4096 * (a / 4096 + i + 1)))

/-- The cause of the first bus error of an access to `n` bytes of memory. -/
def State.memCheckRange (s : State) (m : Master) (a n : Nat) (k : AccessKind) : Option Nat :=
  (s.memFault m a n k).map (fun e => e.2)

/-- A memory word with an uncorrectable error among `n` bytes from an address. -/
def State.badMem (s : State) (a n : Nat) : Option Nat :=
  s.eccBad.findSome? (fun c => match c with
    | .mram x => if x < a + n ∧ a < x + 4 then some x else none
    | _ => none)

/-- A read meets a word with an uncorrectable error: it is reported before the value is used (R24, R440,
R444). -/
def State.badRead (s : State) (x : Nat) : State :=
  if 0x20000000 ≤ x ∧ x < 0x20400000 then (s.monEvent 0x421).fault 0x200B 1
  else if 0x100000000 ≤ x then (s.monEvent 0x425).fault 0x200B 5
  else ((s.setBit Reg.NVS_STAT 2 true).bump Cnt.NVS_MRAM_UNCORR).fault 0x2382 0

/-- Bytes written to memory; a word written whole is free of errors again. -/
def State.wrMem (s : State) (a : Nat) (bs : List Byte) : State :=
  { s.wrBytes a bs with
    eccBad := s.eccBad.filter (fun c => match c with
      | .mram x => !(decide (a ≤ x) && decide (x + 4 ≤ a + bs.length))
      | _ => true) }

/-- The state of unit `u` in CPX_PAIRCTL (R342). -/
def State.unitState (s : State) (u : Nat) : Nat :=
  if u < 4 then s.fld (Reg.CPX_PAIRCTL_u0_3 u) 1 3 else s.fld (Reg.CPX_PAIRCTL_u4_5 (u - 4)) 1 3

/-- A gate that ends an access in PERM: TCM of a pair that is not OFF, ISOLATED or SPARE (R334),
an update channel's page (R425), a job context claimed by another master (R260). -/
def State.gatePerm (s : State) (m : Master) (key : Nat) (write : Bool) : Bool :=
  match rowAt key with
  | none => true
  | some r =>
    match r.gate with
    | .tcm =>
      let st := s.unitState (4 + (key % 0x100000 / 0x40000 - 1))
      st == 0 || st == 4 || st == 6
    | .updCh =>
      !write || if key % 0x100000 / 0x1000 = 17 then m.pmid.toNat == 0x31 else m.indigo
    | .jobOwner =>
      let w15 := key / 64 * 64 + 60
      !write || s.fld w15 0 3 == 0 || s.fld w15 12 6 == m.pmid.toNat
    | _ => true

/-- Word 20 of a TCAM entry in the odd bank of a pair: reserved while the pair is set (R116). -/
def State.pairReserved (s : State) (key : Nat) : Bool :=
  let o := key - Reg.CLS_TCAM_w20 0
  let e := o / 0x80
  decide (Reg.CLS_TCAM_w20 0 ≤ key ∧ o % 0x80 = 0 ∧ e < 4096 ∧ e / 512 % 2 = 1) &&
    s.bit Reg.CLS_TCAMPAIR (e / 1024)

/-- The checks of a register access, in the order in which the fabric and then the block make
them: the cause of the bus error, or none (R3, R27, R30, R32, R44, R72, R338).
DEDUCED, unsafe (log entry 6). -/
def State.regCheck (s : State) (m : Master) (key : Nat) (size : AccessSize) (write : Bool) :
    Option Nat :=
  let b := key / 0x100000
  if !blockListed b then some 6
  else if !sizeOk key size then some 3
  else if s.blkIndigo b && !m.indigo then some 4
  else if !s.partBlkOk m.pmid.toNat b then some 5
  else if !s.blkPresent b then (if key % 0x100000 = 0 then none else some 1)
  else if !s.reachable key then some 2
  else if s.absentPage key then some 1
  else if !wordExists key || s.pairReserved key then some 0
  else if !s.gatePerm m key write then some 5
  else none

/-- A register word of a present block: what the checks pass to the block itself. -/
def State.regThere (s : State) (key : Nat) : Bool := s.blkPresent (key / 0x100000)

/-! ## Reads -/

/-- The value a read of a register word presents: computed words, the WRAP bit of a governed pair,
WO fields as 0, and otherwise the stored word (R8, R48, R459). -/
def State.presented (s : State) (key : Nat) : Word :=
  if !s.regThere key then 0
  else if key = Reg.SYS_CAPS then s.capsWord
  else if key = Reg.WAK_RTCSEC then BitVec.ofNat 32 s.rtcSec
  else if key = Reg.WAK_RTCSUB then setBits (s.rd key) 0 15 (s.rtcTicks % 32768)
  else
    match rowAt key with
    | none => 0
    | some r =>
      let w := s.rd key
      if r.fields.any (fun f => decide (f.lo = 31) && decide (f.ty = .ro)) &&
          r.fields.any (fun f => decide (f.lo = 30) && decide (f.width = 1)) && r.pair then
        putBit w 31 (!s.serviceMode)
      else r.fields.foldl (fun acc f => if f.ty = .wo then setBits acc f.lo f.width 0 else acc) w

/-! ## Writes -/

/-- One field of a write: what the field holds after value `v` is written to it (R8). `cfgOpen`
says that CFG fields accept writes.
DEDUCED, unsafe (log entry 21). -/
def fieldAfter (f : FieldDesc) (cfgOpen : Bool) (old v : Word) : Nat :=
  let o := getBits old f.lo f.width
  let n := getBits v f.lo f.width
  match f.ty with
  | .rw => n
  | .cfg => if cfgOpen then n else o
  | .w1c => o &&& (n ^^^ (2 ^ f.width - 1))
  | .w1s => o ||| n
  | .ro | .wo | .snap | .own => o

/-- The word a register holds after a write, field by field. -/
def wordAfter (fs : List FieldDesc) (cfgOpen : Bool) (old v : Word) : Word :=
  fs.foldl (fun acc f => setBits acc f.lo f.width (fieldAfter f cfgOpen old v)) old

/-- The register has a CFG field. -/
def hasCfg (fs : List FieldDesc) : Bool := fs.any (fun f => decide (f.ty = .cfg))

/-- The commit in progress of a block. -/
def State.commit (s : State) (b : Nat) : CommitState := Store.get (fun _ => {}) s.commits b

/-- The state with a block's commit in progress replaced. -/
def State.setCommit (s : State) (b : Nat) (c : CommitState) : State :=
  { s with commits := Store.set (fun _ => {}) s.commits b c }

/-- Table `t` of a block has a commit in progress (R40). -/
def State.tablePending (s : State) (b t : Nat) : Bool :=
  (s.commit b).active && (s.commit b).table == t

/-- How a gate treats a write that the bus let through. -/
inductive GateVerdict where
  /-- The write is applied. -/
  | accept
  /-- The write completes and is ignored; CFGDENY captures it (R29). -/
  | refuse
  /-- The write completes and is ignored. -/
  | ignore
  deriving DecidableEq, Repr

/-- The channel EN that a field-bus channel register is sampled under (R297). -/
def gwyChannelEn (s : State) (key : Nat) : Bool :=
  let b := key / 0x100000
  let off := key % 0x100000
  if b = 0x1C then s.bit (Reg.GWY_CANCTL (off / 0x1000 - 16)) 0
  else if off < 0x20000 then s.bit (Reg.GWY_LINCTL (off / 0x1000 - 16)) 0
  else s.bit (Reg.GWY_SERCTL (off / 0x1000 - 32)) 0

/-- What a row's gate says to a write.
DESIGN CHOICE, unsafe (log entry 18). -/
def State.gateVerdict (s : State) (r : Row) (key : Nat) : GateVerdict :=
  let b := key / 0x100000
  match r.gate with
  | .open | .jobOwner | .tcm | .updCh => .accept
  | .pen =>
    match portOfKey key with
    | some p => if s.bit (prtPenKey p) (prtPenBit p) then .refuse else .accept
    | none => .accept
  | .gwyCh => if gwyChannelEn s key then .refuse else .accept
  | .saEn => if s.bit (Reg.CIP_SA_w0 (key % 0x100000 / 32 - 0x1000)) 0 then .refuse else .accept
  | .table t => if s.tablePending b t then .refuse else .accept
  | .rgnLock =>
    if s.bit (Reg.SYS_RGNATTR ((key % 0x100000 - 0x1000) / 16)) 5 then .ignore else .accept
  | .worldLock => if s.bit Reg.SYS_WORLDLOCK 0 then .ignore else .accept
  | .partLock => if s.bit Reg.CPX_PARTLOCK 0 then .ignore else .accept
  | .partTbl =>
    if s.bit Reg.CPX_PARTLOCK 0 then .ignore
    else if s.tablePending b 1 then .refuse else .accept
  | .monTest => if s.fld Reg.MON_MODE 0 2 == 2 then .accept else .ignore

/-- Bits of a register that hold 1 whatever is written: the fixed worlds of R45. -/
def forcedOnes (key : Nat) : Nat :=
  if key = Reg.SYS_BLKWORLD 0 then 0x04000007
  else if key = Reg.SYS_BLKWORLD 1 then 0x300
  else 0

/-- Write a register word: gates, CFG refusal and each field by its type (R8, R29, R40). A memory word
written whole is free of errors again (R167). -/
def State.regWrite (s : State) (m : Master) (key : Nat) (v : Word) : State :=
  match rowAt key with
  | none => s
  | some r =>
    match s.gateVerdict r key with
    | .ignore => s
    | .refuse => s.deny key m.pmid.toNat
    | .accept =>
      let cfgOpen := !s.blkEn (key / 0x100000)
      let s := if hasCfg r.fields && !cfgOpen then s.deny key m.pmid.toNat else s
      { s.wr key (wordAfter r.fields cfgOpen (s.rd key) v ||| BitVec.ofNat 32 (forcedOnes key)) with
        eccBad := s.eccBad.filter (fun c => c != .reg key) }

/-- The reply of an access that completed. -/
def State.reply (s : State) (d : BitVec 64) : State := { s with busReply := { data := d } }

/-- A register write that is a command of its own: checked like every write (R32, R35, R44, R49),
then its effect; at BLK_ID of an absent block it completes without effect (R3). -/
def guardReg (m : Master) (key : Nat) (eff : State → State) (s : State) : State :=
  match s.regCheck m key .word true with
  | some c => s.busError m (0x40000000 + key) true c
  | none => if s.regThere key then eff (s.reply 0) else s.reply 0

/-- Writes to an Edge block wait before a new one: in the Traverse register channel, or toward AON. -/
def State.edgeBehind (s : State) (b : Nat) : Bool :=
  edgeBlock b && (!s.edgeQueue.isEmpty || (b == 0x26 && !s.aonQueue.isEmpty))

/-- A register write that is a command of its own in a block that may lie on the Edge die: behind writes
that wait it takes its place in their order (R33); otherwise it acts now. `data` is the word written, or
the bit written to bit `bit`.
DESIGN CHOICE, safe (log entry 119). -/
def guardEdge (m : Master) (key : Nat) (bit : Option Nat) (data : Word) (eff : State → State) (s : State) :
    State :=
  if s.edgeBehind (key / 0x100000) then
    match s.regCheck m key .word true with
    | some c => s.busError m (0x40000000 + key) true c
    | none =>
      { s.reply 0 with
        edgeQueue := s.edgeQueue ++
          [{ master := m, addr := 0x40000000 + key, key := key, data := data.setWidth 64, bit := bit }] }
  else guardReg m key eff s

end Sys2Proof.Machine
end

