-- ==== Sys2Proof/Machine/Frames.lean ====
section
/-!
DEFINITION. Frames inside the module: access, departure from a generation's in-flight count (R97,
R135), drops, and the way of a frame to an exception queue (R189).
-/

namespace Sys2Proof.Machine

open Sys2Proof

/-- The frame of a number, if it is inside the module. -/
def State.frame (s : State) (f : Nat) : Option Frame := Store.get (fun _ => none) s.frames f

/-- The state with a frame replaced. -/
def State.setFrame (s : State) (f : Nat) (v : Frame) : State :=
  { s with frames := Store.set (fun _ => none) s.frames f (some v) }

/-- The state with a frame gone from the module. -/
def State.delFrame (s : State) (f : Nat) : State :=
  { s with frames := Store.set (fun _ => none) s.frames f none }

/-- Some earlier frame of the same ingress port still stands at one of some stages, so a later one waits for
it (R18, R107): of the same flow where `flow` says so. A frame in preemption reassembly holds up no other
frame, and one that left the path as an exception none.
DEDUCED, safe (log entry 125). -/
def State.heldUpAt (s : State) (f : Nat) (v : Frame) (stages : List FrameStage) (flow : Bool) : Bool :=
  s.frames.any (fun e => decide (e.1 < f) && match e.2 with
    | some g =>
      g.inPort == v.inPort && g.rcPass == v.rcPass && g.recirc == v.recirc &&
        (g.tailIn || !g.interrupted) && g.exc.isNone && stages.contains g.stage &&
        (!(flow || v.rcPass) || g.hash == v.hash)
    | none => false)

/-- State of a generation: 0 FREE, 1 CURRENT, 2 RETIRING, 3 SWEEPING (R132). -/
def State.genState (s : State) (g : Nat) : Nat := s.fld Reg.CLS_GENSTAT (2 + 2 * g) 2

/-- The state with a generation's state replaced. -/
def State.setGenState (s : State) (g v : Nat) : State := s.setFld Reg.CLS_GENSTAT (2 + 2 * g) 2 v

/-- Frames stamped with a generation that have not departed (R135). -/
def State.inFlight (s : State) (g : Nat) : Nat := s.fld (Reg.CLS_GENINFL g) 0 24

/-- A frame's departure is reported to its generation, an orphan's to none; a RETIRING generation
whose count reaches 0 begins its sweep (R97, R135, R136). -/
def State.depart (s : State) (v : Frame) : State :=
  if v.stamped && !v.orphan then
    let s := s.setFld (Reg.CLS_GENINFL v.gen) 0 24 (s.inFlight v.gen - 1)
    if s.genState v.gen == 2 && s.inFlight v.gen == 0 then s.setGenState v.gen 3 else s
  else s

/-- A frame is dropped: it departs, and its cells wait to be freed (R83, R97). -/
def State.dropFrame (s : State) (f : Nat) : State :=
  match s.frame f with
  | none => s
  | some v =>
    let s := s.depart v
    if v.cells.all (·.freed) && v.tailIn then s.delFrame f
    else s.setFrame f { v with stage := .dropped, fanout := [], stamped := false }

/-- A frame is sent to the exception queue of a port, as received, in a class (R189).
DEDUCED, unsafe (log entry 62). -/
def State.toException (s : State) (f code port tc : Nat) (hash : Word) : State :=
  match s.frame f with
  | none => s
  | some v =>
    s.setFrame f
      { v with
        stage := .toEnqueue, exc := some code, mc := false, dest := port, tc := tc
        assembled := false, excHash := hash, keepIn := false, mustStore := true
        tsins := none, sealSa := none }

/-- The class of exception frames other than program traps: RTK_EXCFG.TC (R189). -/
def State.excTc (s : State) : Nat := s.fld Reg.RTK_EXCFG 1 3

/-- The port of the engines' own exceptions: RTK_EXCFG.FLTTGT (R189). -/
def State.fltPort (s : State) : Nat := if s.bit Reg.RTK_EXCFG 0 then 33 else 32

/-- An exception that the engines raise on a frame (R189). -/
def State.engineException (s : State) (f code : Nat) (hash : Word) : State :=
  s.toException f code s.fltPort s.excTc hash

/-- The frame as assembled under R183: the header the program left, then the frame's bytes from
the header length at entry. -/
def Frame.body (v : Frame) : List Byte :=
  if v.assembled then v.head ++ v.bytes.drop v.hlen0 else v.bytes

/-- The length of a copy in bytes, FCS excluded, where the tail has not arrived: from LEN of M[0]
(R181). -/
def Frame.bodyLen (v : Frame) : Nat :=
  let n := if v.tailIn then v.bytes.length else v.len - 4
  if v.assembled then v.head.length + n - v.hlen0 else n

/-- The length with FCS of what has arrived of a copy for a port (R183): internal ports carry no FCS. -/
def Frame.arrivedLen (v : Frame) (p : Nat) : Nat :=
  if p < 32 then (if v.tailIn then max v.body.length 60 else v.body.length) + 4 else v.body.length

/-- The next cell of a frame has arrived: its bytes are in, and more of the frame remains. -/
def Frame.nextCell (v : Frame) : Bool :=
  if v.tailIn then decide (256 * v.cells.length < v.storedLen)
  else decide (256 * (v.cells.length + 1) ≤ v.bytes.length)

/-- The 20-byte pseudo-header of a frame at port 34 (R298). -/
def pseudoHeader (bus channel flags ident len status ns sec : Nat) : List Byte :=
  bytesBE 1 bus ++ bytesBE 1 channel ++ bytesBE 2 flags ++ bytesBE 4 ident ++ bytesBE 2 len ++
    bytesBE 1 status ++ [0] ++ bytesBE 4 ns ++ bytesBE 4 sec

/-- A whole frame that an internal source hands to the switch (R19): it carries no FCS, so LEN is
its length + 4 (R180). -/
def State.injectFrame (s : State) (port : Nat) (bs : List Byte) : State :=
  { s.setFrame s.nextFrame
      { bytes := bs, tailIn := true, stage := .toClassify, inPort := port, rxTime := s.lt,
        wireLen := bs.length + 4, len := bs.length + 4 } with
    nextFrame := s.nextFrame + 1 }

end Sys2Proof.Machine
end

