-- ==== Sys2Proof/Machine/Parse.lean ====
section
/-!
DEFINITION. The parse graph, the key profiles, the payload patterns and the TCAM: what
classification reads from a frame's bytes and the banks of its generation (R109 to R119, R129,
R131).
-/

namespace Sys2Proof.Machine

open Sys2Proof

/-- The frame bytes a pass sees. A byte of a field that lies beyond the arrived bytes is not stated
by the specification: it is a free value drawn from `pad`. -/
structure FrameView where
  bytes : List Byte
  pad : Nat

/-- A byte of the view. -/
def FrameView.byte (v : FrameView) (i : Nat) : Byte :=
  match v.bytes[i]? with
  | some b => b
  | none => (Config.freeWord (v.pad + i)).setWidth 8

/-- The number of `n` bytes in network order. -/
def FrameView.num (v : FrameView) (off n : Nat) : Nat :=
  natBE ((List.range n).map (fun k => v.byte (off + k)))

/-- A parsed header: KIND, offset and length. -/
structure Header where
  kind : Nat
  off : Nat
  len : Nat
  deriving DecidableEq, Repr

/-- What parsing finds (R110 to R112, R129, R131). -/
structure Parsed where
  /-- 0, or the class by exception code: MAL_LEN 1, MAL_DEPTH 2, MAL_HDR 3, MAL_CSUM 4, FRAG 5. -/
  exc : Nat := 0
  lastState : Nat := 0
  profile : Nat := 0
  /-- E: the end of the parsed headers. -/
  e : Nat := 0
  headers : List Header := []
  fv : List Byte := List.replicate 96 0
  /-- End declared by the last L3LEN header, and the least end declared so far. -/
  l3 : Option Nat := none
  bound : Option Nat := none
  deriving DecidableEq, Repr

/-- KIND with reserved values acting as 0 (R112). -/
def legalKind (k : Nat) : Nat := if k = 3 ∨ 10 < k then 0 else k

/-- Header length of a parse state at a position (R111). -/
def State.headerLen (s : State) (g st pos : Nat) (v : FrameView) : Nat :=
  let w := s.rdLive g (Reg.CLS_STATE_w0 st)
  getBits w 0 8 +
    (if getBit w 15 then
      ((v.byte (pos + getBits w 8 7)).toNat / 2 ^ getBits w 16 3 &&& getBits w 19 8)
        * getBits w 27 4
    else 0)

/-- Write the bytes of one extract into the field vector (R111). -/
def extractInto (v : FrameView) (pos len : Nat) (w : Word) (fv : List Byte) : List Byte :=
  if getBit w 19 then
    let src := getBits w 0 7
    let dst := getBits w 7 7
    (List.range (clampNat 1 16 (getBits w 14 5))).foldl
      (fun acc j => if src + j < len then setAt acc (dst + j) (v.byte (pos + src + j)) else acc) fv
  else fv

/-- Where a state's select leads: kind 0 to a state, 1 END, 2 or 3 MAL_HDR (R111).
DEDUCED, unsafe (log entry 48). -/
def State.transition (s : State) (g st pos : Nat) (v : FrameView) : Nat × Nat :=
  let w6 := s.rdLive g (Reg.CLS_STATE_w6 st)
  let o := pos + getBits w6 0 7
  let sel := if getBit w6 7 then v.num o 2 else (v.byte o).toNat
  match (List.range 8).find? (fun t =>
      getBit (s.rdLive g (Reg.CLS_STATE_w8_2t st t)) 8 &&
        ((sel ^^^ s.fldLive g (Reg.CLS_STATE_w7_2t st t) 0 16) &&&
          s.fldLive g (Reg.CLS_STATE_w7_2t st t) 16 16) == 0) with
  | some t => (s.fldLive g (Reg.CLS_STATE_w8_2t st t) 6 2, s.fldLive g (Reg.CLS_STATE_w8_2t st t) 0 6)
  | none => (getBits w6 14 2, getBits w6 8 6)

/-- The 16-bit ones'-complement sum of bytes, an odd last byte padded with 0 (R129). -/
def sum16 : List Byte → Nat
  | [] => 0
  | [a] => a.toNat * 256
  | a :: b :: t =>
    let x := a.toNat * 256 + b.toNat + sum16 t
    if x < 65536 then x else x % 65536 + 1

/-- FRAGCHK finds a fragment in a header (R112, R129). -/
def isFragment (kind pos : Nat) (v : FrameView) : Bool :=
  if kind = 7 then true
  else if kind = 4 then
    (v.byte (pos + 6)).getLsbD 5 || decide (v.num (pos + 6) 2 % 8192 ≠ 0)
  else false

/-- Parse from state `st` at position `pos`. `fuel` bounds the headers by 11; `short` is the frame's
length when it is below 128 bytes (R110, R111, R129). -/
def State.parseFrom (s : State) (g : Nat) (v : FrameView) (short : Option Nat) (csumEn : Bool) :
    Nat → Nat → Nat → Parsed → Parsed
  | 0, _, _, r => { r with exc := 2 }
  | fuel + 1, st, pos, r =>
    if 10 ≤ r.headers.length then { r with exc := 2 }
    else
      let w1 := s.rdLive g (Reg.CLS_STATE_w1 st)
      let len := s.headerLen g st pos v
      let last := pos + len
      let own := if getBit w1 5 then some (pos + v.num (pos + getBits w1 6 7) 2 + getBits w1 13 8)
        else none
      let beyond := fun (o : Option Nat) => match o with
        | some n => decide (n < last)
        | none => false
      if beyond short || beyond r.bound || beyond own then { r with exc := 1 }
      else if 128 < last then { r with exc := 2 }
      else
        let kind := legalKind (getBits w1 0 4)
        let r := { r with
          lastState := st, profile := s.fldLive g (Reg.CLS_STATE_w6 st) 16 4, e := last
          headers := r.headers ++ [⟨kind, pos, len⟩]
          fv := (List.range 4).foldl
            (fun fv x => extractInto v pos len (s.rdLive g (Reg.CLS_STATE_w2_5 st x)) fv) r.fv
          l3 := match own with
            | some n => some n
            | none => r.l3
          bound := match own, r.bound with
            | some n, some b => some (min n b)
            | some n, none => some n
            | none, b => b }
        let next := s.transition g st pos v
        if 2 ≤ next.1 then { r with exc := 3 }
        else if csumEn && getBit w1 4 &&
            sum16 ((List.range len).map (fun k => v.byte (pos + k))) != 0xFFFF then
          { r with exc := 4 }
        else if getBit w1 21 && isFragment kind pos v then { r with exc := 5 }
        else if next.1 = 1 then r
        else State.parseFrom s g v short csumEn fuel next.2 last r

/-- Parse a frame from its start state (R108, R110).
DEDUCED, unsafe (log entry 47). -/
def State.parse (s : State) (g : Nat) (v : FrameView) (whole csumEn : Bool) (start : Nat) : Parsed :=
  let short := if whole && decide (v.bytes.length < 128) then some v.bytes.length else none
  s.parseFrom g v short csumEn 11 start 0
    { lastState := start, profile := s.fldLive g (Reg.CLS_STATE_w6 start) 16 4 }

/-! ## Layer 3 and layer 4 (R112, R119) -/

/-- The last IPv4 or IPv6 header parsed and the headers after it. -/
def lastL3 : List Header → Option (Header × List Header)
  | [] => none
  | h :: t =>
    match lastL3 t with
    | some r => some r
    | none => if h.kind = 4 ∨ h.kind = 5 then some (h, t) else none

/-- Where the addresses, the ports and the protocol of a frame lie. -/
structure Layers where
  v6 : Bool := false
  l3 : Nat := 0xFF
  l4 : Option Header := none
  proto : Nat := 0
  deriving DecidableEq, Repr

/-- The last L3 header, its L4 header with only IPv6 extension headers between, and the protocol:
byte 9 of IPv4, or the Next Header field of the last IPv6 or extension header before it. -/
def layersOf (r : Parsed) (v : FrameView) : Option Layers :=
  match lastL3 r.headers with
  | none => none
  | some (h, t) =>
    let exts := t.takeWhile (fun x => x.kind == 6)
    let l4 := match t.dropWhile (fun x => x.kind == 6) with
      | [] => none
      | x :: _ => if x.kind = 8 ∨ x.kind = 9 then some x else none
    let proto :=
      if h.kind = 4 then (v.byte (h.off + 9)).toNat
      else match exts.getLast? with
        | some x => (v.byte x.off).toNat
        | none => (v.byte (h.off + 6)).toNat
    some { v6 := h.kind == 5, l3 := h.off, l4 := l4, proto := proto }

/-! ## The canonical key (R119, R122) -/

/-- The ten key words of a flow: key type, zone, protocol, lower and higher endpoint. -/
def keyWords (kt zone proto : Nat) (low high : List Word) (lowPort highPort : Nat) : List Word :=
  BitVec.ofNat 32 (zone % 256 + 256 * (proto % 256) + 65536 * kt) :: low ++ high ++
    [BitVec.ofNat 32 (lowPort + 65536 * highPort)]

/-- An address of up to 16 bytes, left-aligned in four words (R122). -/
def addrWords (n size : Nat) : List Word :=
  let x := n * 2 ^ (8 * (16 - size))
  [BitVec.ofNat 32 (x / 2 ^ 96), BitVec.ofNat 32 (x / 2 ^ 64), BitVec.ofNat 32 (x / 2 ^ 32),
    BitVec.ofNat 32 x]

/-- Key words from a source and a destination endpoint, the lower first, and whether the direction
is low (R119). With equal endpoints the direction is low.
DESIGN CHOICE, unsafe (log entry 141). -/
def endpointKey (kt zone proto size : Nat) (src dst sport dport : Nat) : List Word × Bool :=
  if 65536 * src + sport ≤ 65536 * dst + dport then
    (keyWords kt zone proto (addrWords src size) (addrWords dst size) sport dport, true)
  else (keyWords kt zone proto (addrWords dst size) (addrWords src size) dport sport, false)

/-- The canonical key of a frame, and whether its direction is low (R119). -/
def canonicalKey (r : Parsed) (v : FrameView) (zone inPort : Nat) : List Word × Bool :=
  match layersOf r v with
  | some l =>
    let size := if l.v6 then 16 else 4
    let a := l.l3 + (if l.v6 then 8 else 12)
    let ports := match l.l4 with
      | some h => (v.num h.off 2, v.num (h.off + 2) 2)
      | none => (0, 0)
    endpointKey (if l.v6 then 1 else 0) zone l.proto size (v.num a size) (v.num (a + size) size)
      ports.1 ports.2
  | none =>
    match (if inPort = 34 then r.headers.find? (fun h => h.kind == 10) else none) with
    | some h =>
      (keyWords 3 zone 0
        [BitVec.ofNat 32 (65536 * v.num h.off 2), BitVec.ofNat 32 (v.num (h.off + 4) 4), 0, 0]
        [0, 0, 0, 0] 0 0, true)
    | none => endpointKey 2 zone 0 6 (v.num 6 6) (v.num 0 6) 0 0

/-- The canonical key bytes of ten key words (R119, R122). -/
def canonicalBytes (k : List Word) : List Byte :=
  let w := fun i => (k.getD i 0).toNat
  let zone := bytesBE 1 (w 0)
  let ports := w 9
  match getBits (k.getD 0 0) 16 2 with
  | 0 => zone ++ bytesBE 1 (w 0 / 256) ++ bytesBE 4 (w 1) ++ bytesBE 2 ports ++ bytesBE 4 (w 5) ++
      bytesBE 2 (ports / 65536)
  | 1 => zone ++ bytesBE 1 (w 0 / 256) ++ bytesBE 4 (w 1) ++ bytesBE 4 (w 2) ++ bytesBE 4 (w 3) ++
      bytesBE 4 (w 4) ++ bytesBE 2 ports ++ bytesBE 4 (w 5) ++ bytesBE 4 (w 6) ++ bytesBE 4 (w 7) ++
      bytesBE 4 (w 8) ++ bytesBE 2 (ports / 65536)
  | 2 => zone ++ [0] ++ bytesBE 4 (w 1) ++ bytesBE 2 (w 2 / 65536) ++ bytesBE 4 (w 5) ++
      bytesBE 2 (w 6 / 65536)
  | _ => zone ++ bytesBE 2 (w 1 / 65536) ++ bytesBE 4 (w 2)

/-- The symmetric hash H of a key under CLS_HASHSEED (R119). -/
def State.hashOf (s : State) (k : List Word) : Word :=
  BitVec.ofNat 32 (crc32cWith (s.rdN Reg.CLS_HASHSEED) (canonicalBytes k))

/-! ## Payload patterns (R114) -/

/-- The end of the matcher window for a frame whose length is `len`. -/
def windowEnd (e len : Nat) : Nat := min (min (e + 64) 192) len

/-- Pattern `i` of a generation matches in the window from `e` to before `last`. -/
def State.patternHit (s : State) (g i e last : Nat) (v : FrameView) : Bool :=
  let w8 := s.rdLive g (Reg.CLS_PATTERN_w8 i)
  let n := min (getBits w8 0 5) 16
  let word := fun k => (s.rdLive g (Reg.CLS_PATTERN_w0_7 i k)).toNat
  let at_ := fun o => decide (e ≤ o) && decide (o + n ≤ last) &&
    (List.range n).all (fun j =>
      ((v.byte (o + j)).toNat ^^^ (byteOf (word (j / 4)) (j % 4)).toNat) &&&
        (byteOf (word (4 + j / 4)) (j % 4)).toNat == 0)
  n != 0 &&
    (if getBit w8 5 then at_ (e + getBits w8 6 6)
    else (List.range (last - e)).any (fun k => at_ (e + k)))

/-- The patterns of a generation that match: the enabled ones are those listed. -/
def State.patternHits (s : State) (g e last : Nat) (v : FrameView) : List Nat :=
  if s.blkEn 0xF then
    let lo := bankSpan * g + Reg.CLS_PATTERN_w8 0
    ((Store.slice s.live lo (bankSpan * g + Reg.CLS_PATTERN_w8 256) 0 lo).filter
      (fun x => x.1 % 64 == 0 && s.patternHit g (x.1 / 64) e last v)).map (fun x => x.1 / 64)
  else []

/-- The match vector, 256 bits in eight words (R180). -/
def hitVector (hits : List Nat) : List Word :=
  (List.range 8).map (fun i =>
    BitVec.ofNat 32 ((hits.filter (fun h => h / 32 == i)).foldl (fun acc h => acc + 2 ^ (h % 32)) 0))

/-! ## The TCAM (R113, R115 to R117) -/

/-- The lookup key of a profile: 40 bytes, or 80 for a wide profile (R113). -/
def State.tcamKey (s : State) (g p b1 b2 b3 : Nat) (fv : List Byte) : List Byte :=
  let wide := getBit (s.rdLive g (Reg.CLS_PROFILE_w0 p)) 8
  [BitVec.ofNat 8 p, BitVec.ofNat 8 b1, BitVec.ofNat 8 b2, BitVec.ofNat 8 b3] ++
    (List.range (if wide then 76 else 36)).map (fun k =>
      fv.getD (s.fldLive g (Reg.CLS_PROFILE_w1_19 p (k / 4)) (8 * (k % 4)) 7) 0)

/-- Half an entry, 40 key bytes, matches: (key XOR VALUE) AND MASK is 0 over every bit, and the
entry has no parity error (R117, R138). -/
def State.tcamHalf (s : State) (e : Nat) (key : List Byte) : Bool :=
  !Store.get (fun _ => false) s.cls.badParity e &&
    (List.range 10).all (fun i =>
      ((natLE (bytesAt key (4 * i) 4)) ^^^ (s.rdLive liveBank (Reg.CLS_TCAM_w0_19 e i)).toNat) &&&
        (s.rdLive liveBank (Reg.CLS_TCAM_w0_19 e (10 + i))).toNat == 0)

/-- The bank of an entry is the even or odd half of a pair (R116).
DEDUCED, unsafe (log entry 51). -/
def State.tcamPaired (s : State) (e : Nat) : Bool := s.bit Reg.CLS_TCAMPAIR (e / 512 / 2)

/-- A frame of generation `g` matches entry `e` (R117). -/
def State.tcamMatches (s : State) (g banks : Nat) (wide : Bool) (key : List Byte) (e : Nat) : Bool :=
  Nat.testBit banks (e / 512) && s.tcamPaired e == wide && !(wide && e / 512 % 2 == 1) &&
    Nat.testBit (s.fldLive liveBank (Reg.CLS_TCAM_w20 e) 0 4) g &&
    s.tcamHalf e key && (!wide || s.tcamHalf (e + 512) (key.drop 40))

/-- The result of a TCAM lookup: the matching entry of lowest index. Entries of a generation have a
GENMASK bit, so only listed words need be searched. With instance 1's EN 0 every lookup misses
(R106). -/
def State.tcamLookup (s : State) (g p : Nat) (key : List Byte) : Option Nat :=
  if s.blkEn 0xD then
    let w0 := s.rdLive g (Reg.CLS_PROFILE_w0 p)
    let lo := bankSpan * liveBank + Reg.CLS_TCAM_w20 0
    ((Store.slice s.live lo (bankSpan * liveBank + Reg.CLS_TCAM_w20 4096) 0 lo).find?
      (fun x => x.1 % 128 == 0 && s.tcamMatches g (getBits w0 0 8) (getBit w0 8) key (x.1 / 128))).map
      (fun x => x.1 / 128)
  else none

end Sys2Proof.Machine
end

