-- ==== Sys2Proof/Machine/FlowTable.lean ====
section
/-!
DEFINITION. The flow table: candidate slots, hits, connection tracking, inserts with displacement,
commands, aging and the sweep of a generation (R121 to R128, R137).
-/

namespace Sys2Proof.Machine

open Sys2Proof

/-- Slots of the flow table (R121). -/
def flowSlots : Nat := 163840

/-- The candidate slot of a hash in way `k` (R121). -/
def flowSlot (h : Word) (k : Nat) : Nat :=
  let n := h.toNat
  let slice := if k = 0 then n % 65536 else if k = 1 then n / 65536
    else if k = 2 then n / 256 % 65536 else n % 256 * 256 + n / 0x1000000
  40960 * k + slice * 5 / 8

/-- The four candidate slots of a hash.
DEDUCED, safe (log entry 49). -/
def flowCandidates (h : Word) : List Nat := (List.range 4).map (flowSlot h)

/-- The entry in a slot: 16 words, or none. -/
def State.flowEntry (s : State) (slot : Nat) : List Word := Store.get (fun _ => []) s.cls.flows slot

/-- The state with a slot's entry replaced; no words empty it. -/
def State.setFlow (s : State) (slot : Nat) (e : List Word) : State :=
  { s with cls := { s.cls with flows := Store.set (fun _ => []) s.cls.flows slot e } }

/-- The slot holds a valid entry. -/
def State.flowValid (s : State) (slot : Nat) : Bool := getBit ((s.flowEntry slot).getD 0 0) 18

/-- The key words of an entry: ZONE, PROTO, KT, addresses and ports (R122). -/
def flowKeyOf (e : List Word) : List Word :=
  (e.getD 0 0 &&& 0x3FFFF) :: (e.drop 1).take 9

/-- The candidate slot that holds a key, if any (R121). -/
def State.flowFind (s : State) (key : List Word) : Option Nat :=
  (flowCandidates (s.hashOf key)).find? (fun c => s.flowValid c && flowKeyOf (s.flowEntry c) == key)

/-- The CLASSIFY millisecond count (R122). -/
def State.classifyMs (s : State) : Nat := s.nowNs / 1000000 % 2 ^ 32

/-- Generation `a` was made current later than `b` (R124). -/
def State.newer (s : State) (a b : Nat) : Bool :=
  decide (Store.get (fun _ => 0) s.cls.madeAt b < Store.get (fun _ => 0) s.cls.madeAt a)

/-- The current generation. -/
def State.curGen (s : State) : Nat := s.fld Reg.CLS_GENSTAT 0 2

/-- CLS_GENCTL.FLOWREVAL. -/
def State.flowReval (s : State) : Bool := s.bit Reg.CLS_GENCTL 16

/-! ## Connection tracking (R125) -/

/-- FIN, SYN, RST and ACK of a TCP flags byte. -/
def tcpFin (f : Nat) : Bool := Nat.testBit f 0
def tcpSyn (f : Nat) : Bool := Nat.testBit f 1
def tcpRst (f : Nat) : Bool := Nat.testBit f 2
def tcpAck (f : Nat) : Bool := Nat.testBit f 4

/-- The transition of a first-pass match: the new CTSTATE and FIN_LOW, or none where no row fits.
`low` is the frame's direction, `init` whether it comes from the initiator.
DEDUCED, unsafe (log entry 50). -/
def ctStep (st f : Nat) (low init finLow : Bool) : Option (Nat × Bool) :=
  if tcpRst f then some (6, finLow)
  else if tcpFin f && (st == 1 || st == 2 || st == 3) then some (4, low)
  else if tcpFin f && st == 4 && low != finLow then some (5, finLow)
  else if st == 1 && tcpSyn f && tcpAck f && !init then some (2, finLow)
  else if st == 2 && tcpAck f && init then some (3, finLow)
  else if st == 5 && tcpAck f then some (6, finLow)
  else none

/-- A match without a transition is consistent with its state. -/
def ctConsistent (st f : Nat) (init : Bool) : Bool :=
  if st = 1 then tcpSyn f && !tcpAck f && init
  else if st = 2 then (tcpSyn f && tcpAck f && !init) || (tcpSyn f && !tcpAck f && init)
  else if 3 ≤ st ∧ st ≤ 6 then !tcpSyn f
  else false

/-- CTSTATE and INIT_LOW of an insertion from a frame (R125). -/
def ctInsert (key : List Word) (tcp : Option Nat) (low : Bool) : Nat × Bool :=
  match tcp with
  | some f =>
    if 2 ≤ getBits (key.getD 0 0) 16 2 then (0, low)
    else if tcpSyn f && tcpAck f then (2, !low)
    else if tcpSyn f then (1, low)
    else (3, low)
  | none => (0, low)

/-! ## Lookup of a frame (R123, R124) -/

/-- What a flow lookup gives a frame. -/
structure FlowResult where
  slot : Option Nat := none
  hit : Bool := false
  action : Nat := 0
  tag : Nat := 0
  ct : Nat := 0
  invalid : Bool := false
  deriving DecidableEq, Repr

/-- A 64-bit pair of words with a number added, wrapping at 2^64. -/
def addPair (lo hi : Word) (n : Nat) : List Word :=
  let t := (lo.toNat + 2 ^ 32 * hi.toNat + n) % 2 ^ 64
  [BitVec.ofNat 32 t, BitVec.ofNat 32 (t / 2 ^ 32)]

/-- A key match as a first pass leaves the entry: CTSTATE, GEN, LAST_SEEN, PKTS, BYTES; and
whether the flags were invalid (R123 to R125). -/
def State.flowTouch (s : State) (e : List Word) (gen len : Nat) (tcp : Option Nat) (low : Bool) :
    List Word × Bool :=
  let w0 := e.getD 0 0
  let st := getBits w0 21 3
  let init := low == getBit w0 20
  let ct := match tcp with
    | some f => if getBits w0 16 2 < 2 then ctStep st f low init (getBit w0 27) else none
    | none => none
  let bad := match tcp with
    | some f => decide (getBits w0 16 2 < 2) && ct.isNone && !ctConsistent st f init
    | none => false
  let w0 := match ct with
    | some (n, fin) => putBit (setBits w0 21 3 n) 27 fin
    | none => w0
  let w0 := if !getBit w0 19 && getBits w0 24 2 != gen && !s.flowReval &&
      s.newer gen (getBits w0 24 2) then setBits w0 24 2 gen else w0
  (w0 :: (e.drop 1).take 10 ++ [BitVec.ofNat 32 s.classifyMs] ++
    addPair (e.getD 12 0) (e.getD 13 0) 1 ++ addPair (e.getD 14 0) (e.getD 15 0) len, bad)

/-- The flow lookup of a frame: a pass from port 36 changes nothing (R123). -/
def State.flowLookup (s : State) (key : List Word) (gen len : Nat) (first : Bool)
    (tcp : Option Nat) (low : Bool) : FlowResult × State :=
  match (if s.blkEn 0xE then s.flowFind key else none) with
  | none => ({}, (s.bump Cnt.CLS_FLOW_MISS).monEvent 0x149)
  | some slot =>
    let e := s.flowEntry slot
    let w0 := e.getD 0 0
    let hit := !getBit w0 19 && (getBits w0 24 2 == gen || !s.flowReval)
    let t := if first then s.flowTouch e gen len tcp low else (e, false)
    let s := s.setFlow slot t.1
    let s := if hit then (s.bump Cnt.CLS_FLOW_HIT).monEvent 0x148 else s.bump Cnt.CLS_FLOW_STALE
    let s := if t.2 then s.bump Cnt.CLS_CT_INVALID else s
    ({ slot := some slot, hit := hit, action := getBits (e.getD 10 0) 0 16,
       tag := getBits (e.getD 10 0) 16 16, ct := getBits (t.1.getD 0 0) 21 3, invalid := t.2 }, s)

/-! ## Inserts (R126) -/

/-- The words of a new entry. -/
def State.newFlow (s : State) (key : List Word) (action tag gen ct : Nat) (initLow finLow pin : Bool) :
    List Word :=
  BitVec.ofNat 32 (2 ^ 18 + (key.getD 0 0).toNat + 2 ^ 20 * b2n initLow + 2 ^ 21 * ct
      + 2 ^ 24 * gen + 2 ^ 26 * b2n pin + 2 ^ 27 * b2n finLow) :: key.drop 1 ++
    [BitVec.ofNat 32 (action + 65536 * tag), BitVec.ofNat 32 s.classifyMs, 0, 0, 0, 0]

/-- Displacement paths from a slot by at most `k` moves that visit no slot twice: each lists the
slots from the first to the free one. -/
def State.flowPaths (s : State) : Nat → List Nat → Nat → List (List Nat)
  | 0, _, slot => if s.flowValid slot then [] else [[slot]]
  | k + 1, seen, slot =>
    if s.flowValid slot then
      (((flowCandidates (s.hashOf (flowKeyOf (s.flowEntry slot)))).filter
        (fun c => c != slot && !seen.contains c)).flatMap
        (fun c => State.flowPaths s k (slot :: seen) c)).map (fun p => slot :: p)
    else [[slot]]

/-- The slots a search of at most 3 moves can reach. -/
def State.flowReach (s : State) (cands : List Nat) : List Nat :=
  let more := fun (l : List Nat) =>
    (l ++ l.flatMap (fun c => if s.flowValid c then
      flowCandidates (s.hashOf (flowKeyOf (s.flowEntry c))) else [])).eraseDups
  more (more (more cands))

/-- Apply a path from its far end: each entry moves one slot on, and the first slot takes the new
entry (R126). -/
def State.flowShift (s : State) (e : List Word) : List Nat → State
  | [] => s
  | c :: rest => (State.flowShift s (s.flowEntry c) rest).setFlow c e

/-- Store a new entry: in the free candidate of lowest way, else along a displacement path. Which
path is taken, and whether one is found where the search is cut at 64 slots, is left open by the
specification (two free choices). The result is RES of R127: 0, or 3 FULL. -/
def State.flowPlace (s : State) (key e : List Word) : Nat × State :=
  let cands := flowCandidates (s.hashOf key)
  match cands.find? (fun c => !s.flowValid c) with
  | some c => (0, ((s.setFlow c e).bump Cnt.CLS_FLOW_INSERT).monEvent 0x14A)
  | none =>
    let paths := cands.flatMap (fun c => s.flowPaths 3 [] c)
    let n := s.freeCtr
    let s := { s with freeCtr := n + 2 }
    if paths.isEmpty || (decide (64 < (s.flowReach cands).length) && Config.freeBool n) then
      (3, s.bump Cnt.CLS_FLOW_FULL)
    else
      (0, ((s.flowShift e (paths.getD (Config.freeNat (n + 1) % paths.length) [])).bump
        Cnt.CLS_FLOW_INSERT).monEvent 0x14A)

/-- An insert: discarded while instance 2's EN is 0; a key present is refreshed by a newer
generation and otherwise unchanged (R106, R126). -/
def State.flowInsert (s : State) (key : List Word) (action tag gen ct : Nat)
    (initLow finLow pin : Bool) : Nat × State :=
  if !s.blkEn 0xE then (6, s.bump Cnt.CLS_FLOW_OFF)
  else
    match s.flowFind key with
    | some slot =>
      let e := s.flowEntry slot
      let w0 := e.getD 0 0
      if s.newer gen (getBits w0 24 2) then
        (4, (s.setFlow slot (putBit (setBits w0 24 2 gen) 19 false :: (e.drop 1).take 9 ++
          BitVec.ofNat 32 (action + 65536 * tag) :: e.drop 11)).bump Cnt.CLS_FLOW_REFRESH)
      else (1, s.bump Cnt.CLS_FLOW_EXISTS)
    | none => s.flowPlace key (s.newFlow key action tag gen ct initLow finLow pin)

/-! ## Commands (R127) -/

/-- Write the sixteen words of CLS_FLOWDATA. -/
def State.setFlowData (s : State) (e : List Word) : State := s.wrWords (Reg.CLS_FLOWDATA 0) e

/-- The words of a slot without a valid entry: VALID 0, the rest not stated (free). -/
def State.emptySlot (s : State) : List Word × State :=
  let n := s.freeCtr
  (putBit (Config.freeWord n) 18 false ::
    (List.range 15).map (fun i => Config.freeWord (n + 1 + i)), { s with freeCtr := n + 16 })

/-- The outcome of a software command on the data it copied at GO: RES and the state. A SLOT beyond the table
ends BAD_ARG in OP 4 and 5.
DESIGN CHOICE, unsafe (log entry 140). -/
def State.flowCommand (s : State) (op slot : Nat) (data : List Word) : Nat × State :=
  let key := flowKeyOf data
  let w0 := data.getD 0 0
  match op with
  | 1 =>
    match s.flowFind key with
    | some c => (0, s.setFlowData (s.flowEntry c))
    | none => (2, s)
  | 2 =>
    let ct := getBits w0 21 3
    if !s.blkEn 0xE then (6, s.bump Cnt.CLS_FLOW_OFF)
    else if ct = 7 ∨ ct ≠ 0 ∧ ¬(getBits w0 16 2 < 2 ∧ getBits w0 8 8 = 6) then (5, s)
    else
      s.flowInsert key (getBits (data.getD 10 0) 0 16) (getBits (data.getD 10 0) 16 16) s.curGen ct
        (getBit w0 20) (getBit w0 27) (getBit w0 26)
  | 3 =>
    match s.flowFind key with
    | some c => (0, s.setFlow c [])
    | none => (2, s)
  | 4 =>
    if flowSlots ≤ slot then (5, s)
    else if s.flowValid slot then (0, s.setFlowData (s.flowEntry slot))
    else
      let r := s.emptySlot
      (0, r.2.setFlowData r.1)
  | 5 =>
    if flowSlots ≤ slot then (5, s)
    else if s.flowValid slot then (0, s.setFlow slot [])
    else (2, s)
  | 6 =>
    (0, { s with
      cls := { s.cls with flows := s.cls.flows.filter (fun x => getBit (x.2.getD 0 0) 26) } })
  | _ => (5, s)

/-- GO of CLS_FLOWCMD with an operation and slot: ignored while BUSY; otherwise the command copies
CLS_FLOWDATA and joins the queue (R127).
DESIGN CHOICE, unsafe (log entry 20). -/
def State.flowGo (s : State) (op slot : Nat) : State :=
  if s.bit Reg.CLS_FLOWCMD 30 then s
  else
    let s := (((s.setFld Reg.CLS_FLOWCMD 0 3 op).setFld Reg.CLS_FLOWCMD 3 18 slot)).setBit
      Reg.CLS_FLOWCMD 30 true
    { s with
      cls := { s.cls with
        queue := s.cls.queue ++ [.command op slot (s.rdWords (Reg.CLS_FLOWDATA 0) 16)] } }

/-! ## Aging and the sweep of a generation (R128, R137) -/

/-- The timeout of a CTSTATE in seconds (R128). -/
def State.flowTimeout (s : State) (ct : Nat) : Nat :=
  if ct = 3 then s.fld Reg.CLS_AGETMO0 0 16
  else if ct = 6 then s.fld Reg.CLS_AGETMO1 0 16
  else if ct = 0 then s.fld Reg.CLS_AGETMO1 16 16
  else s.fld Reg.CLS_AGETMO0 16 16

/-- An entry as the sweep of generation `g` leaves it (R137). -/
def State.sweptFlow (s : State) (g : Nat) (e : List Word) : List Word :=
  let w0 := e.getD 0 0
  if getBits w0 24 2 = g then
    (if s.flowReval then putBit w0 19 true else setBits w0 24 2 s.curGen) :: e.drop 1
  else e

end Sys2Proof.Machine
end

