-- ==== Sys2Proof/Machine/PrefetchOps.lean ====
section
/-!
DEFINITION. Prefetched data of the host bridge: its discard and what a discard reports (R317).
-/

namespace Sys2Proof.Machine

open Sys2Proof

/-- An interrupt cause of HBR_IRQ: 0 ERR, 1 FENCE, 2 POLL, 3 PF. -/
def State.hbrIrq (s : State) (b : Nat) : State := (s.setBit Reg.HBR_IRQ b true).irq 224

/-- A block is discarded: data never served is counted, its address logged, and PF raised. -/
def State.dropPrefetch (s : State) (x : PfBlock) : State :=
  if x.served then s
  else
    let s := ((s.bump Cnt.HBR_HBR_PFDISCARD).monEvent 0x326).wrN Reg.HBR_PFLOGL (x.addr % 2 ^ 32)
    (s.wrN Reg.HBR_PFLOGH (x.addr / 2 ^ 32 % 256)).hbrIrq 3

/-- Discard the blocks that satisfy a test. -/
def State.discardPrefetch (s : State) (f : PfBlock → Bool) : State :=
  let out := s.hbr.prefetched.filter f
  let s := { s with
    hbr := { s.hbr with prefetched := s.hbr.prefetched.filter (fun x => !f x) } }
  out.foldl (fun acc x => acc.dropPrefetch x) s

end Sys2Proof.Machine
end

