-- ==== Sys2Proof/Machine/PortOps.lean ====
section
/-!
DEFINITION. Operations of the ports: link state, speed and length limit, the error log, and
flow-control signalling (R50, R51, R68 to R70, R74, R76).
-/

namespace Sys2Proof.Machine

open Sys2Proof

/-- A port's engine state. -/
def State.port (s : State) (p : Nat) : PortState := Store.get (fun _ => {}) s.ports p

/-- The state with a port's engine state replaced. -/
def State.setPort (s : State) (p : Nat) (v : PortState) : State :=
  { s with ports := Store.set (fun _ => {}) s.ports p v }

/-- The island of a port's group runs: its MAC acts (R14). -/
def State.portRuns (s : State) (p : Nat) : Bool := s.up (groupIsland (portGroup p))

/-- A port whose traffic crosses the Traverse link: an Edge-die PHY, or the field-bus gateway (R11). -/
def viaTraverse (p : Nat) : Bool := (decide (12 ≤ p) && decide (p < 32)) || p == 34

/-- The way from the fabric to a port's MAC is open: while the Traverse link is not up, egress toward the
Edge die is held (R11). -/
def State.wayOpen (s : State) (p : Nat) : Bool := !viaTraverse p || s.edgeReachable

/-- PEN of a port. -/
def State.pen (s : State) (p : Nat) : Bool := s.bit (prtPenKey p) (prtPenBit p)

/-- LSTATE of a port (R70). -/
def State.lstate (s : State) (p : Nat) : Nat := s.fld (Reg.PRT_PSTAT p) 0 2

/-- The port is UP: the link state that forwards (R70). -/
def State.portUp (s : State) (p : Nat) : Bool := s.hasPort p && s.lstate p == 2

/-- Rate in Mb/s by SPEED code (R73). -/
def speedRate (n : Nat) : Nat :=
  [0, 10, 100, 1000, 2500, 5000, 10000, 25000].getD n 0

/-- A port's rate in Mb/s: from PRT_PSTAT.SPEED, or the internal rate of R50. -/
def State.rateOf (s : State) (p : Nat) : Nat :=
  if p < 32 then speedRate (s.fld (Reg.PRT_PSTAT p) 2 4)
  else [20000, 2000, 2000, 32000, 100000].getD (p - 32) 0

/-- The longest frame of a port, FCS included on external ports (R51). -/
def State.maxFrm (s : State) (p : Nat) : Nat :=
  if p < 32 then clampNat 1518 9216 (s.fld (Reg.PRT_MAXFRM p) 0 14) else 9216

/-- An entry of a port's error log: type, class, frame length, and hash (R76).
DEDUCED, unsafe (log entry 61). -/
def State.portLog (s : State) (p type tc len : Nat) (hash : Word) : State :=
  let e := s.fld (Reg.PRT_ELOGHEAD p) 0 4
  let ovf := s.fld (Reg.PRT_ELOGHEAD p) 16 16
  let s := if s.bit (Reg.PRT_ELOG_w0 p e) 31 then
      s.setFld (Reg.PRT_ELOGHEAD p) 16 16 (min (ovf + 1) 0xFFFF) else s
  let s := s.wrN (Reg.PRT_ELOG_w0 p e) (2 ^ 31 + type + 256 * tc + 65536 * (len % 2 ^ 15))
  let s := s.wrN (Reg.PRT_ELOG_w1 p e) (tkNs (s.wNow 0))
  let s := s.wrN (Reg.PRT_ELOG_w2 p e) (tkSec (s.wNow 0) % 2 ^ 32)
  let s := s.wr (Reg.PRT_ELOG_w3 p e) hash
  (s.setFld (Reg.PRT_ELOGHEAD p) 0 4 ((e + 1) % 16)).irq (16 + p)

/-- FCMODE of a port: 3 acts as 0, and ports 28 and above signal nothing (R67). -/
def State.fcMode (s : State) (p : Nat) : Nat :=
  let n := s.fld (Reg.PRT_PCTRL p) 0 2
  if 28 ≤ p ∨ n = 3 then 0 else n

/-- A flow-control frame that a port sends, counted in its own pair and the general ones (R68, R74). -/
def State.sendFlow (s : State) (p : Nat) (pfc : Bool) (classes quanta : Nat) : State :=
  let s := { s with flowFrames := ⟨p, pfc, classes, quanta⟩ :: s.flowFrames }
  (((s.bump (Cnt.PRT_TX_PFC p)).bump (Cnt.PRT_TX_FRAMES p)).bumpBy (Cnt.PRT_TX_BYTES p) 64).monEvent
    (8 * p + 1)

/-- QUANTA of a port. -/
def State.quanta (s : State) (p : Nat) : Nat := s.fld (Reg.PRT_PFCCFG p) 0 16

/-- Class `c` of ingress port `p` is XOFF. -/
def State.xoff (s : State) (p c : Nat) : Bool := s.bit (Reg.FAB_BUFSTAT_w0 p c) 16

/-- Any class of a port is XOFF. -/
def State.anyXoff (s : State) (p : Nat) : Bool := (List.range 8).any (s.xoff p)

/-- The XOFF classes of a port as a mask. -/
def State.xoffMask (s : State) (p : Nat) : Nat :=
  (List.range 8).foldl (fun acc c => if s.xoff p c then acc + 2 ^ c else acc) 0

/-- Port `p` signals that class `c` went XOFF (R68). -/
def State.signalXoff (s : State) (p c : Nat) : State :=
  if s.portUp p then
    match s.fcMode p with
    | 2 => s.sendFlow p true (2 ^ c) (s.quanta p)
    | 1 => s.sendFlow p false 0xFF (s.quanta p)
    | _ => s
  else s

/-- Port `p` signals that class `c` returned to XON: quanta 0 in PFC mode, and in PAUSE mode when
the last class has returned (R68). -/
def State.signalXon (s : State) (p c : Nat) : State :=
  if s.portUp p then
    match s.fcMode p with
    | 2 => s.sendFlow p true (2 ^ c) 0
    | 1 => if s.anyXoff p then s else s.sendFlow p false 0xFF 0
    | _ => s
  else s

/-- Preemption is active on a port: PREEMPT with verification succeeded or not asked for (R65). -/
def State.preemptActive (s : State) (p : Nat) : Bool :=
  decide (p < 20) && s.bit (Reg.PRT_PCTRL p) 2 &&
    (s.fld (Reg.PRT_PSTAT p) 9 2 == 2 || s.bit (Reg.PRT_PREEMPT p) 10)

/-- A class is preemptable on a port with preemption active (R65). -/
def State.preemptable (s : State) (p c : Nat) : Bool :=
  s.preemptActive p && !s.bit (Reg.PRT_PREEMPT p) c

/-- Class `c` of a port is stopped by received PFC or PAUSE (R69). -/
def State.stopped (s : State) (p c : Nat) : Bool := Nat.testBit (s.port p).stopped c

/-- The class is scheduled: FAB_SCHEDMASK (R83). -/
def State.scheduled (s : State) (c : Nat) : Bool := s.bit Reg.FAB_SCHEDMASK c

end Sys2Proof.Machine
end

