-- ==== Sys2Proof/Machine/FabOps.lean ====
section
/-!
DEFINITION. The fabric's accounts and queues: the pool, congestion and XOFF, VOQs, multicast queues,
staging, the freeing of cells, the end of a copy, diversion to exception queues, and bad frames
(R78 to R80, R83 to R89, R91 to R98, R101).
-/

namespace Sys2Proof.Machine

open Sys2Proof

/-! ## Counts of cells -/

/-- Cells in all (R78). -/
def poolCells : Nat := 49152

/-- Word 2 of FAB_BUFCFG. -/
def bufcfg2 (p c : Nat) : Nat :=
  if c < 6 then Reg.FAB_BUFCFG_w2_TC0_5 p c else Reg.FAB_BUFCFG_w2_TC6_7 p (c - 6)

/-- A field that configures a port: settings of an absent port have no effect, so it acts as at reset (R3). -/
def State.portFld (s : State) (p k lo width : Nat) : Nat :=
  if s.hasPort p then s.fld k lo width else getBits (resetWord k) lo width

/-- EGLIM of an egress (port, class): an absent port has no reservation (R83). -/
def State.egLim (s : State) (p c : Nat) : Nat :=
  if s.scheduled c && !s.hasPort p then 0 else s.portFld p (bufcfg2 p c) 0 16

/-- EGRESUME of an egress (port, class). -/
def State.egResume (s : State) (p c : Nat) : Nat := s.portFld p (bufcfg2 p c) 16 16

/-- HDRM of an ingress (port, class); 0 for internal ports and scheduled classes. -/
def State.hdrm (s : State) (p c : Nat) : Nat :=
  if 32 ≤ p ∨ s.scheduled c then 0 else s.fld (Reg.FAB_BUFCFG_w1 p c) 0 16

/-- INCELLS and EGCELLS (R85). -/
def State.inCells (s : State) (p c : Nat) : Nat := s.fld (Reg.FAB_BUFSTAT_w0 p c) 0 16
def State.egCells (s : State) (p c : Nat) : Nat := s.fld (Reg.FAB_BUFSTAT_w1 p c) 0 16

/-- Congestion of an egress (port, class).
DEDUCED, unsafe (log entry 43). -/
def State.congested (s : State) (p c : Nat) : Bool := s.bit (Reg.FAB_BUFSTAT_w1 p c) 16

/-- Free cells of the shared pool; none while OVERCOMMIT (R83). -/
def State.poolFree (s : State) : Nat :=
  if s.bit Reg.FAB_POOL 16 then 0 else s.fld Reg.FAB_POOL 0 16

/-- The ingress account of a (port, class). -/
def State.ingress (s : State) (p c : Nat) : Ingress :=
  Store.get (fun _ => {}) s.fab.ingress (8 * p + c)

/-- The state with an ingress account replaced. -/
def State.setIngress (s : State) (p c : Nat) (v : Ingress) : State :=
  { s with fab := { s.fab with ingress := Store.set (fun _ => {}) s.fab.ingress (8 * p + c) v } }

/-- Reservation cells in use by an egress (port, class). -/
def State.reservedUsed (s : State) (p c : Nat) : Nat :=
  Store.get (fun _ => 0) s.fab.reserved (8 * p + c)

/-- The state with that number replaced. -/
def State.setReserved (s : State) (p c n : Nat) : State :=
  { s with fab := { s.fab with reserved := Store.set (fun _ => 0) s.fab.reserved (8 * p + c) n } }

/-- Cells of an egress port in the Drift region (R92). -/
def State.driftOf (s : State) (p : Nat) : Nat := Store.get (fun _ => 0) s.fab.driftOf p

/-- The state with that number replaced. -/
def State.setDriftOf (s : State) (p n : Nat) : State :=
  { s with fab := { s.fab with driftOf := Store.set (fun _ => 0) s.fab.driftOf p n } }

/-- Cells in the Drift region. -/
def State.driftCells (s : State) : Nat := s.fld Reg.FAB_DRIFTSTAT 0 22

/-- Count an on-chip cell in INCELLS and in EGCELLS of its ports. -/
def State.countCell (s : State) (ip c : Nat) (ports : List Nat) : State :=
  let s := s.setFld (Reg.FAB_BUFSTAT_w0 ip c) 0 16 (s.inCells ip c + 1)
  ports.foldl (fun acc q => acc.setFld (Reg.FAB_BUFSTAT_w1 q c) 0 16 (acc.egCells q c + 1)) s

/-- Take an on-chip cell out of INCELLS and EGCELLS. -/
def State.uncountCell (s : State) (ip c : Nat) (ports : List Nat) : State :=
  let s := s.setFld (Reg.FAB_BUFSTAT_w0 ip c) 0 16 (s.inCells ip c - 1)
  ports.foldl (fun acc q => acc.setFld (Reg.FAB_BUFSTAT_w1 q c) 0 16 (acc.egCells q c - 1)) s

/-- Take a cell from its place. -/
def State.takePlace (s : State) (ip c : Nat) (ports : List Nat) : CellPlace → State
  | .reservation => ports.foldl (fun acc q => acc.setReserved q c (acc.reservedUsed q c + 1)) s
  | .shared => s.setFld Reg.FAB_POOL 0 16 (s.fld Reg.FAB_POOL 0 16 - 1)
  | .headroom =>
    let s := s.setIngress ip c { s.ingress ip c with headroom := (s.ingress ip c).headroom + 1 }
    s.setBit (Reg.FAB_BUFSTAT_w0 ip c) 17 true
  | .drift => s

/-- Give a cell back to its place. -/
def State.givePlace (s : State) (ip c : Nat) (ports : List Nat) : CellPlace → State
  | .reservation => ports.foldl (fun acc q => acc.setReserved q c (acc.reservedUsed q c - 1)) s
  | .shared => s.setFld Reg.FAB_POOL 0 16 (s.fld Reg.FAB_POOL 0 16 + 1)
  | .headroom =>
    let n := (s.ingress ip c).headroom - 1
    let s := s.setIngress ip c { s.ingress ip c with headroom := n }
    s.setBit (Reg.FAB_BUFSTAT_w0 ip c) 17 (decide (0 < n))
  | .drift => s

/-! ## XOFF, XON and congestion (R85) -/

/-- An ingress (port, class) of an unscheduled class goes XOFF: counted, and signalled (R68, R85). -/
def State.goXoff (s : State) (p c : Nat) : State :=
  if s.xoff p c then s
  else ((s.setBit (Reg.FAB_BUFSTAT_w0 p c) 16 true).bump
    (regKey 9 (0x5000 + 0x20 * p + 24))).signalXoff p c

/-- After a cell of (ip, c) for `ports` has been admitted: the conditions of XOFF. -/
def State.checkXoff (s : State) (ip c : Nat) (ports : List Nat) : State :=
  let cong := (ports.filter (fun q => s.congested q c)).map (fun q => 8 * q + c)
  let s := if cong.isEmpty then s
    else s.setIngress ip c
      { s.ingress ip c with byEgress := ((s.ingress ip c).byEgress ++ cong).eraseDups }
  if decide (s.fld (Reg.FAB_BUFCFG_w0 ip c) 0 16 ≤ s.inCells ip c) || !cong.isEmpty ||
      decide (s.poolFree < s.fld Reg.FAB_POOLTHR 0 16) then s.goXoff ip c
  else s

/-- An ingress (port, class) returns to XON when all the conditions hold (R85). -/
def State.checkXon (s : State) (p c : Nat) : State :=
  let left := (s.ingress p c).byEgress.filter (fun x => s.congested (x / 8) (x % 8))
  let s := s.setIngress p c { s.ingress p c with byEgress := left }
  if s.xoff p c && decide (s.inCells p c ≤ s.fld (Reg.FAB_BUFCFG_w0 p c) 16 16) && left.isEmpty &&
      decide (s.fld Reg.FAB_POOLTHR 16 16 ≤ s.poolFree) then
    (s.setBit (Reg.FAB_BUFSTAT_w0 p c) 16 false).signalXon p c
  else s

/-- The ingress (port, class) pairs that are XOFF. -/
def State.xoffPairs (s : State) : List (Nat × Nat) :=
  ((Store.slice s.regs (Reg.FAB_BUFSTAT_w0 0 0) (Reg.FAB_BUFSTAT_w0 37 0) 0
      (Reg.FAB_BUFSTAT_w0 0 0)).filter (fun e => e.1 % 16 == 0 && getBit e.2 16)).map
    (fun e => (e.1 / 128, e.1 / 16 % 8))

/-- Egress ports leave congestion at EGRESUME; then every XOFF pair is looked at again. -/
def State.release (s : State) (c : Nat) (ports : List Nat) : State :=
  let s := ports.foldl
    (fun acc q =>
      if acc.congested q c && decide (acc.egCells q c ≤ acc.egResume q c) then
        acc.setBit (Reg.FAB_BUFSTAT_w1 q c) 16 false
      else acc) s
  s.xoffPairs.foldl (fun acc x => acc.checkXon x.1 x.2) s

/-- The egress (port, class) pairs that are congested. -/
def State.congPairs (s : State) : List (Nat × Nat) :=
  ((Store.slice s.regs (Reg.FAB_BUFSTAT_w0 0 0) (Reg.FAB_BUFSTAT_w0 37 0) 0
      (Reg.FAB_BUFSTAT_w0 0 0)).filter (fun e => e.1 % 16 == 4 && getBit e.2 16)).map
    (fun e => (e.1 / 128, e.1 / 16 % 8))

/-- A threshold has been written: congestion ends and XOFF pairs return to XON where their conditions hold
now (R85). -/
def State.recheckFlow (s : State) : State :=
  let s := s.congPairs.foldl
    (fun acc x => if acc.egCells x.1 x.2 ≤ acc.egResume x.1 x.2 then
      acc.setBit (Reg.FAB_BUFSTAT_w1 x.1 x.2) 16 false else acc) s
  s.xoffPairs.foldl (fun acc x => acc.checkXon x.1 x.2) s

/-- The port at which a frame entered the fabric's accounts: 36 after a recirculation. -/
def Frame.ingress (v : Frame) : Nat := if v.rcPass then 36 else v.inPort

/-- Free cell `i` of a frame record: its place and counts (R83). -/
def State.freeCell (s : State) (v : Frame) (i : Nat) : State × Frame :=
  match v.cells[i]? with
  | none => (s, v)
  | some r =>
    if r.freed then (s, v)
    else
      let s := s.givePlace v.ingress v.tc r.ports r.place
      let s := if r.place = .drift then
          (r.ports.foldl (fun acc q => acc.setDriftOf q (acc.driftOf q - 1)) s).setFld
            Reg.FAB_DRIFTSTAT 0 22 (s.driftCells - 1)
        else s.uncountCell v.ingress v.tc r.ports
      ((s.release v.tc r.ports).monEvent 0x101,
        { v with cells := setAt v.cells i { r with freed := true } })

/-! ## Queues -/

/-- A VOQ's number (R80). -/
def voqKey (g p c : Nat) : Nat := 320 * g + 8 * p + c

/-- A VOQ. -/
def State.voq (s : State) (k : Nat) : Voq := Store.get (fun _ => {}) s.fab.voqs k

/-- The state with a VOQ replaced. -/
def State.setVoq (s : State) (k : Nat) (v : Voq) : State :=
  { s with fab := { s.fab with voqs := Store.set (fun _ => {}) s.fab.voqs k v } }

/-- A multicast queue. -/
def State.mcq (s : State) (k : Nat) : Voq := Store.get (fun _ => {}) s.fab.mcqs k

/-- The state with a multicast queue replaced. -/
def State.setMcq (s : State) (k : Nat) (v : Voq) : State :=
  { s with fab := { s.fab with mcqs := Store.set (fun _ => {}) s.fab.mcqs k v } }

/-- The egress staging of a (port, class). -/
def State.stage (s : State) (p c : Nat) : List (Nat × Nat) :=
  Store.get (fun _ => []) s.fab.staging (8 * p + c)

/-- The state with an egress staging replaced. -/
def State.setStage (s : State) (p c : Nat) (l : List (Nat × Nat)) : State :=
  { s with fab := { s.fab with staging := Store.set (fun _ => []) s.fab.staging (8 * p + c) l } }

/-- A VOQ with a segment rule kept: it leaves Drift state when middle and tail are empty (R91). -/
def Voq.settle (v : Voq) : Voq :=
  if v.drift && v.cells.all (fun q => q.seg == .head) then { v with drift := false } else v

/-- Remove the cells of a frame bound for port `p` from every queue and staging. -/
def State.unqueue (s : State) (f p : Nat) : State :=
  let voqs := s.fab.voqs.filterMap (fun e =>
    let v : Voq := if e.1 / 8 % 40 = p then
        ({ e.2 with cells := e.2.cells.filter (fun q => q.frame != f) } : Voq).settle
      else e.2
    if v = {} then none else some (e.1, v))
  let mcqs := s.fab.mcqs.filterMap (fun e =>
    let v : Voq := { e.2 with
      cells := (e.2.cells.map (fun q =>
        if q.frame = f then { q with ports := q.ports.filter (fun x => x != p) } else q)).filter
          (fun q => !(q.frame == f && q.ports.isEmpty)) }
    if v = {} then none else some (e.1, v))
  let staging := s.fab.staging.filterMap (fun e =>
    let l := if e.1 / 8 = p then e.2.filter (fun x => x.1 != f) else e.2
    if l = [] then none else some (e.1, l))
  { s with fab := { s.fab with voqs := voqs, mcqs := mcqs, staging := staging } }

/-! ## The end of copies and frames -/

/-- Every admitted cell of the frame has been freed and no more will come. -/
def Frame.allFreed (v : Frame) : Bool := v.cells.all (·.freed)

/-- Free every cell of a frame without a copy left. -/
def State.freeDone (s : State) (f : Nat) : State :=
  match s.frame f with
  | none => s
  | some v =>
    let r := (List.range v.cells.length).foldl
      (fun (acc : State × Frame) i =>
        match acc.2.cells[i]? with
        | some c => if c.copies.isEmpty then acc.1.freeCell acc.2 i else acc
        | none => acc) (s, v)
    r.1.setFrame f r.2

/-- The TM engine of a port. -/
def State.tmPort (s : State) (p : Nat) : TmPort := Store.get (fun _ => {}) s.tm.ports p

/-- The state with a port's TM engine replaced. -/
def State.setTmPort (s : State) (p : Nat) (v : TmPort) : State :=
  { s with tm := { s.tm with ports := Store.set (fun _ => {}) s.tm.ports p v } }

/-- A queue that goes empty loses its deficit (R202). -/
def State.loseDeficit (s : State) (p c : Nat) : State :=
  if (s.stage p c).isEmpty then
    let t := s.tmPort p
    s.setTmPort p { t with deficits := setAt t.deficits c 0 }
  else s

/-- The copy of frame `f` for port `p` is over: its cells wait no longer for that port. -/
def State.endCopy (s : State) (f p : Nat) : State :=
  let s := s.unqueue f p
  match s.frame f with
  | none => s
  | some v =>
    (s.loseDeficit p v.tc).setFrame f
      { v with
        fanout := v.fanout.filter (fun x => x != p)
        headLeft := v.headLeft.filter (fun x => x != p)
        schuss := v.schuss.filter (fun x => x != p)
        stomps := v.stomps.filter (fun x => x != p)
        crossing := v.crossing.filter (fun x => x != p)
        cells := v.cells.map (fun c => { c with copies := c.copies.filter (fun x => x != p) }) }

/-- A frame is dropped in the fabric: out of every queue; it departs; its cells are freed (R84, R87,
R97). -/
def State.dropQueued (s : State) (f : Nat) : State :=
  match s.frame f with
  | none => s
  | some v =>
    let s := (v.fanout.foldl (fun acc p => acc.endCopy f p) s).freeDone f
    s.dropFrame f

/-- A frame that has no copy left, whose cells are all freed and whose tail is in, leaves the module:
it departs with its last cell (R83, R97); a dropped frame has departed already. -/
def State.reap (s : State) (f : Nat) : State :=
  match s.frame f with
  | none => s
  | some v =>
    if v.tailIn && v.allFreed && v.fanout.isEmpty && (v.stage == .queued || v.stage == .dropped)
    then (s.depart v).delFrame f
    else s

/-- A bad frame (R75, R101): copies whose head has left are to be stomped, every other copy is
discarded; with no head left the frame is dropped. -/
def State.badFrame (s : State) (f : Nat) : State :=
  match s.frame f with
  | none => s
  | some v =>
    if v.headLeft.isEmpty then s.dropQueued f
    else
      let s := (v.fanout.filter (fun p => !v.headLeft.contains p)).foldl
        (fun acc p => acc.endCopy f p) s
      match s.frame f with
      | none => s
      | some v => s.setFrame f { v with stomps := v.headLeft }

/-- A multicast copy as a frame of its own, on its way to an exception queue; it departs with no
generation (R98, R189). -/
def State.copyToException (s : State) (f code port p : Nat) : State :=
  match s.frame f with
  | none => s
  | some v =>
    let n := s.nextFrame
    let s := { s.setFrame n
        { v with
          stamped := false, cells := [], fanout := [], headLeft := [], schuss := [], crossing := []
          stomps := [], excPort := p } with nextFrame := n + 1 }
    s.toException n code port s.excTc v.hash

/-- The frame's copy for egress port `p` goes to the exception queue of a port instead: the whole
frame when it is unicast, else that copy alone. A redirected frame departs (R97, R98). -/
def State.divert (s : State) (f p code port : Nat) (departs : Bool) : State :=
  match s.frame f with
  | none => s
  | some v =>
    if v.mc then ((s.copyToException f code port p).endCopy f p).freeDone f
    else
      let s := (s.endCopy f p).freeDone f
      match s.frame f with
      | none => s
      | some v =>
        let s := if departs then s.depart v else s
        let s := s.setFrame f
          { v with cells := [], excPort := p, stamped := v.stamped && !departs }
        s.toException f code port s.excTc v.hash

/-- The members of a multicast group in a generation's bank; reserved bits and port 36, which only
RECIRC reaches (R182), are removed (R95). -/
def State.groupMembers (s : State) (gen g : Nat) : List Nat :=
  (List.range 36).filter (fun p =>
    if p < 32 then getBit (s.rdLive gen (Reg.FAB_MCGRP_w0 g)) p
    else getBit (s.rdLive gen (Reg.FAB_MCGRP_w1 g)) (p - 32))

/-- The fanout of a frame as its program directs it: as latched, for an orphan whose last program had ended
(R97). -/
def State.fanoutOf (s : State) (v : Frame) : List Nat :=
  match v.latched with
  | some ports => ports
  | none =>
    if v.mc then (s.groupMembers v.gen v.dest).filter (fun p => v.keepIn || p != v.inPort)
    else [v.dest]

/-- The redirect port of the link-down rule: port 33 during sleep entry (R98, R390). -/
def State.redirectPort (s : State) : Nat :=
  if s.bit Reg.FAB_LDHOLD 16 || s.fld Reg.WAK_EPOCH 16 2 == 3 then 33 else 32

/-- The copy for port `p` is redirected under the link-down rule, and counted (R98). -/
def State.redirect (s : State) (f p : Nat) : State :=
  ((s.divert f p 0x07 s.redirectPort true).bump Cnt.FAB_LINKDOWN_REDIR).bump
    (regKey 9 (0x5000 + 0x20 * p + 16))

/-- Frames that go to a port that is not UP are redirected rather than held: the hold has run, or
the fabric is quiescing (R98, R103). -/
def State.redirects (s : State) (p : Nat) : Bool :=
  !s.portUp p && ((s.port p).redirecting || s.fab.closed)

/-- Not admitted: discarded at the MAC, counted for the port (R88, R103). -/
def State.noAdmit (s : State) (p : Nat) : State :=
  ((s.bump Cnt.FAB_NOADMIT).bump (regKey 9 (0x5000 + 0x20 * p))).monEvent 0x105

/-! ## The Drift region (R90 to R94) -/

/-- Size of the region in cells: 0 when it was rejected at enable. -/
def State.driftSize (s : State) : Nat :=
  if s.fab.driftOk then 4096 * min (s.fld Reg.FAB_DRIFTSIZE 0 10) 512 else 0

/-- The region is enabled and MEM runs: FAB_DRIFTSTAT.AVAIL. -/
def State.driftAvail (s : State) : Bool := decide (0 < s.driftSize) && s.running .mem

/-- Spill bandwidth used in the current 1 µs window, in cells (R93). -/
def State.capUsedNow (s : State) : Nat := if s.nowNs < s.fab.capSince + 1000 then s.fab.capUsed else 0

/-- The cap leaves room for `n` more cells: DRAM peak is 68,264 bytes per µs, and PCT 0, which the rule does
not list, acts as 0 percent (R93).
DESIGN CHOICE, unsafe (log entry 127). -/
def State.capRoom (s : State) (n : Nat) : Bool :=
  decide (25600 * (s.capUsedNow + n) ≤ 68264 * min (s.fld Reg.FAB_DRIFTCAP 0 6) 40)

/-- Accesses of the Drift region's DRAM in flight stay below 512 with one more (R92, R104). -/
def State.dramRoom (s : State) : Bool :=
  decide ((s.fab.driftOps.filter (fun t => decide (s.nowNs < t))).length < 512)

/-- One access of a cell begins: charged to the cap, and in flight for a time that the specification does
not give.
DESIGN CHOICE, safe (log entry 128). -/
def State.chargeCap (s : State) : State :=
  { s with
    freeCtr := s.freeCtr + 1
    fab := { s.fab with
      capUsed := s.capUsedNow + 1
      capSince := if s.nowNs < s.fab.capSince + 1000 then s.fab.capSince else s.nowNs
      driftOps := s.fab.driftOps.filter (fun t => decide (s.nowNs < t)) ++
        [s.nowNs + 1 + Config.freeNat s.freeCtr] } }

/-- The queue has a spilled cell and its egress (port, class) is below EGRESUME: a return is due (R91).
Returned cells are placed in the shared pool.
DESIGN CHOICE, unsafe (log entry 129). -/
def State.returnDue (s : State) (k : Nat) (v : Voq) : Bool :=
  v.cells.any (fun q => q.seg == .middle) && decide (0 < s.poolFree) && s.running .mem &&
    decide (s.egCells (k / 8 % 40) (k % 8) < s.egResume (k / 8 % 40) (k % 8))

/-- Returns that are due: they go before spills within the cap (R92). -/
def State.returnsDue (s : State) : Nat := (s.fab.voqs.filter (fun e => s.returnDue e.1 e.2)).length

/-- Drift capacity apart from the cap and the in-flight bound (R92, R94): none while the fabric is closed.
DESIGN CHOICE, safe (log entry 130). -/
def State.driftPlace (s : State) (p : Nat) : Bool :=
  s.driftAvail && !s.bit Reg.FAB_DRIFTSTAT 25 && !s.fab.closed &&
    decide (s.driftOf p < s.portFld p (Reg.FAB_DRIFTLIM p) 0 22) && decide (s.driftCells < s.driftSize)

/-- Drift capacity is available to a cell for an egress port (R92). -/
def State.driftRoom (s : State) (p : Nat) : Bool :=
  s.driftPlace p && s.dramRoom && s.capRoom (1 + s.returnsDue)

/-- Class `c` may spill: FAB_DRIFTCLS, scheduled classes never (R86, R91). -/
def State.maySpill (s : State) (c : Nat) : Bool := s.bit Reg.FAB_DRIFTCLS c && !s.scheduled c

/-! ## Division of the pool (R83) -/

/-- The sum over present ports below `n` and the classes of a kind. -/
def State.sumPorts (s : State) (n : Nat) (sched : Bool) (f : Nat → Nat → Nat) : Nat :=
  ((List.range n).map (fun p =>
    if s.hasPort p then
      ((List.range 8).map (fun c => if s.scheduled c == sched then f p c else 0)).foldl (· + ·) 0
    else 0)).foldl (· + ·) 0

/-- FAB instance 1's EN goes from 0 to 1: the pool is divided. Reservations and headroom together
are what the pool must hold (R83). -/
def State.dividePool (s : State) : State :=
  let need := s.sumPorts 37 true s.egLim + s.sumPorts 32 false s.hdrm
  (s.setFld Reg.FAB_POOL 0 16 (poolCells - need)).setBit Reg.FAB_POOL 16 (decide (poolCells < need))

/-- FAB instance 0's EN goes from 0 to 1: the Drift region is checked (R90). -/
def State.checkDrift (s : State) : State :=
  let mib := min (s.fld Reg.FAB_DRIFTSIZE 0 10) 512
  let base := s.fld Reg.FAB_DRIFTBASE 0 20
  let ok := decide (0x1000 ≤ base ∧ base + mib ≤ 0x3000)
  let s := { s with fab := { s.fab with driftOk := ok } }
  if ok || mib == 0 then s else s.setBit Reg.FAB_DRIFTSTAT 26 true

end Sys2Proof.Machine
end

