-- ==== Sys2Proof/Machine/TmOps.lean ====
section
/-!
DEFINITION. Operations of the traffic manager: meters, Slalom lists and gates, windows and the
frame-fit rule, shapers, deficit round robin, and stream functions (R198 to R218).
-/

namespace Sys2Proof.Machine

open Sys2Proof

/-! ## Meters (R215) -/

/-- The unit of bucket contents: 1/8,000,000 byte, so that 1 kb/s gives one unit per ns. -/
def meterUnit : Nat := 8000000

/-- A meter's buckets. -/
def State.meter (s : State) (m : Nat) : Meter := Store.get (fun _ => {}) s.tm.meters m

/-- The state with a meter's buckets replaced. -/
def State.setMeter (s : State) (m : Nat) (v : Meter) : State :=
  { s with tm := { s.tm with meters := Store.set (fun _ => {}) s.tm.meters m v } }

/-- The buckets of a meter brought up to now: the committed bucket's overflow goes to the excess
bucket when CF is 1. -/
def State.meterNow (s : State) (m : Nat) : Meter :=
  let v := s.meter m
  let dt := s.nowNs - v.at_
  let cbs := s.fld (Reg.TM_METER_w1 m) 0 24 * meterUnit
  let ebs := s.fld (Reg.TM_METER_w3 m) 0 24 * meterUnit
  let bc := v.bc + s.rdN (Reg.TM_METER_w0 m) * dt
  let spill := if s.bit (Reg.TM_METER_w4 m) 0 then bc - cbs else 0
  { bc := min cbs bc, be := min ebs (v.be + s.rdN (Reg.TM_METER_w2 m) * dt + spill), at_ := s.nowNs }

/-- The colours of a meter: green 0, yellow 1, red 2. -/
def green : Nat := 0
def yellow : Nat := 1
def red : Nat := 2

/-- One update of a meter for a frame of `len` bytes and a pre-colour (2 and 3 red): the colour and
the state. With instance 0's EN 0 every request returns green and buckets are frozen (R198).
DEDUCED, unsafe (log entry 66). -/
def State.meterUpdate (s : State) (m len pre : Nat) : Nat × State :=
  if !s.blkEn 0x14 then (green, s)
  else
    let v := s.meterNow m
    let l := len * meterUnit
    if 2 ≤ pre then (red, s.setMeter m v)
    else if pre = 0 ∧ l ≤ v.bc then (green, s.setMeter m { v with bc := v.bc - l })
    else if l ≤ v.be then (yellow, s.setMeter m { v with be := v.be - l })
    else (red, s.setMeter m v)

/-- Both buckets of a meter are filled. -/
def State.fillMeter (s : State) (m : Nat) : State :=
  s.setMeter m { bc := s.fld (Reg.TM_METER_w1 m) 0 24 * meterUnit,
                 be := s.fld (Reg.TM_METER_w3 m) 0 24 * meterUnit, at_ := s.nowNs }

/-! ## Slalom lists (R204 to R210) -/

/-- The gPTP domain of a port's list. -/
def State.listDomain (s : State) (p : Nat) : Nat := s.fld (Reg.TM_PORTCFG p) 2 2

/-- The current time of a port's domain. -/
def State.listNow (s : State) (p : Nat) : Nat := s.wNow (s.listDomain p)

/-- The keys of a port's list in the table (R204). -/
def listLo (p : Nat) : Nat := Reg.TM_LIST_w0 p 0
def listHi (p : Nat) : Nat := Reg.TM_LIST_w0 (p + 1) 0

/-- GATES of entry `e` of the operational list. -/
def State.entryGates (s : State) (p e : Nat) : Nat := s.fldLive liveBank (Reg.TM_LIST_w0 p e) 0 8

/-- OP of an entry; 3 acts as 0, and without active preemption 1 and 2 do (R204, R207). -/
def State.entryOp (s : State) (p e : Nat) : Nat :=
  let n := s.fldLive liveBank (Reg.TM_LIST_w0 p e) 8 2
  if n = 3 ∨ s.preemptActive p = false then 0 else n

/-- INTERVAL of an entry, in ns (R204). -/
def State.entryNs (s : State) (p e : Nat) : Nat :=
  8 * clampNat 1 125000000 (s.fldLive liveBank (Reg.TM_LIST_w1 p e) 0 27)

/-- The admin parameters as the registers hold them (R206). -/
def State.adminParams (s : State) (p : Nat) : ListParams :=
  { base := tkPerSec * (s.rdN (Reg.TM_BASESECL p) + 2 ^ 32 * s.fld (Reg.TM_BASESECH p) 0 16)
      + 65536 * s.fld (Reg.TM_BASENS p) 0 30
    cycle := clampNat 1000 1000000000 (s.fld (Reg.TM_CYCLE p) 0 30)
    ext := s.fld (Reg.TM_CYCLEEXT p) 0 30
    len := clampNat 1 1024 (s.fld (Reg.TM_ADMINLEN p) 0 11) }

/-- The first base + n × cycle later than a time (R206). -/
def ListParams.firstAfter (a : ListParams) (now : Nat) : Nat :=
  if now < a.base then a.base
  else a.base + ((now - a.base) / (65536 * a.cycle) + 1) * (65536 * a.cycle)

/-- The list of a port is in force: GATEEN with a list made operational (R205).
DEDUCED, unsafe (log entry 67). -/
def State.listInForce (s : State) (p : Nat) : Bool :=
  decide (p < 32) && s.bit (Reg.TM_PORTCFG p) 0 && (s.tmPort p).oper.isSome

/-- The port holds its scheduled gates closed before time lock: GATEEN with PREMODE HOLD, whether or not a
list has been made operational (R210).
DEDUCED, unsafe (log entry 67). -/
def State.holdBeforeLock (s : State) (p : Nat) : Bool :=
  decide (p < 32) && s.bit (Reg.TM_PORTCFG p) 0 && !s.bit (Reg.TM_PORTCFG p) 1 &&
    !s.validTb (s.listDomain p)

/-- The gate of class `c` of a port is open now. -/
def State.gateOpen (s : State) (p c : Nat) : Bool :=
  if s.holdBeforeLock p then !s.scheduled c
  else if !s.listInForce p then true
  else if !(s.tmPort p).started then !s.scheduled c
  else Nat.testBit (s.entryGates p (s.tmPort p).entry) c

/-- A hold is in force on a port. -/
def State.holdInForce (s : State) (p : Nat) : Bool :=
  s.listInForce p && !s.holdBeforeLock p && s.preemptActive p && (s.tmPort p).hold

/-- End of entry `e` within the cycle, in ns: the last entry's state holds to the cycle's end, and
an entry is cut there (R205). -/
def State.entryEnd (s : State) (p : Nat) (a : ListParams) (e offset : Nat) : Nat :=
  if a.len ≤ e + 1 then a.cycle else min a.cycle (offset + s.entryNs p e)

/-- Open time of class `c` from offset `from_` of a cycle, following the list from entry `e` that
began at `offset`, over at most `fuel` entries, in ns; the last entry's state is held `gap` ns
beyond the end of the current cycle. -/
def State.openFrom (s : State) (p c : Nat) (a : ListParams) : Nat → Nat → Nat → Nat → Nat → Nat
  | 0, _, _, _, _ => 0
  | fuel + 1, gap, e, offset, from_ =>
    if Nat.testBit (s.entryGates p e) c then
      let stop := s.entryEnd p a e offset
      (stop - from_) +
        (if stop < a.cycle then State.openFrom s p c a fuel gap (e + 1) stop stop
        else gap + State.openFrom s p c a fuel 0 0 0 0)
    else 0

/-- End of the current cycle of a port's operational list. -/
def TmPort.cycleEnd (t : TmPort) (a : ListParams) : Nat := t.cycleStart + 65536 * a.cycle

/-- The next cycle is not started: a change comes less than its CYCLEEXT after it (R206). -/
def TmPort.extended (t : TmPort) (a : ListParams) : Bool :=
  match t.pend with
  | some (b, change) => decide (change < t.cycleEnd a + 65536 * b.ext)
  | none => false

/-- How long the last entry's state is held beyond the end of the current cycle, in ns: until the
change of an extended cycle, or until the first cycle start under the new time (R206, R210). -/
def TmPort.held (t : TmPort) (a : ListParams) : Nat :=
  if t.extended a then 2 * a.cycle
  else if t.realign then (a.firstAfter (t.cycleEnd a - 1) - t.cycleEnd a) / 65536
  else 0

/-- The runs of open time of class `c` over a cycle: the longest run, the run still open, and the
first run when the cycle begins open. -/
def State.openRuns (s : State) (p c : Nat) (a : ListParams) :
    Nat → Nat → Nat → Nat × Nat × Option Nat → Nat × Nat × Option Nat
  | 0, _, _, acc => acc
  | fuel + 1, e, offset, (best, run, first) =>
    let stop := s.entryEnd p a e offset
    let acc := if Nat.testBit (s.entryGates p e) c then
        (max best (run + (stop - offset)), run + (stop - offset), first)
      else (best, 0, match first with
        | none => some run
        | some n => some n)
    if stop < a.cycle then State.openRuns s p c a fuel (e + 1) stop acc else acc

/-- The remaining window of class `c`, in units of 2^-16 ns, or none when nothing ends it: until
the gate next closes, across entries and the cycle boundary; a pending change time ends it
(R208). -/
def State.window (s : State) (p c : Nat) : Option Nat :=
  if !s.gateOpen p c then some 0
  else
    let t := s.tmPort p
    let change := match t.pend with
      | some x => if s.bit (Reg.TM_PORTCFG p) 0 && !s.holdBeforeLock p then some (x.2 - s.listNow p)
          else none
      | none => none
    let list := match t.oper with
      | none => none
      | some a =>
        if !s.listInForce p || s.holdBeforeLock p || !t.started then none
        else
          let at_ := min (s.listNow p - t.cycleStart) (65536 * a.cycle)
          let n := s.openFrom p c a (2 * a.len + 2) (t.held a) t.entry t.offset (at_ / 65536)
          if (s.openRuns p c a (a.len + 1) 0 0 (0, 0, none)).2.2.isNone then none
          else some (65536 * n - at_ % 65536 - (s.listNow p - t.cycleEnd a))
    match list, change with
    | some x, some y => some (min x y)
    | some x, none => some x
    | none, y => y

/-- TM_MAXWIN of a class, in units of 8 ns (R209). -/
def State.maxWin (s : State) (p c : Nat) : Nat :=
  match (s.tmPort p).oper with
  | none => 0xFFFFFFF
  | some a =>
    if !s.listInForce p then 0xFFFFFFF
    else
      let r := s.openRuns p c a (a.len + 1) 0 0 (0, 0, none)
      match r.2.2 with
      | none => 0xFFFFFFF
      | some first => min 0xFFFFFFE (max r.1 (r.2.1 + first) / 8)

/-- TM_MAXWIN of every class is computed, and TM_OPERCYCLE shows the operational cycle (R209). -/
def State.refreshWindows (s : State) (p : Nat) : State :=
  let s := (List.range 8).foldl (fun acc c => acc.wrN (Reg.TM_MAXWIN p c) (acc.maxWin p c)) s
  match (s.tmPort p).oper with
  | some a => s.wrN (Reg.TM_OPERCYCLE p) a.cycle
  | none => s

/-- Some entry of the list has the reserved OP (R204). -/
def State.badEntry (s : State) (bank p len : Nat) : Bool :=
  (List.range len).any (fun e => s.fldLive bank (Reg.TM_LIST_w0 p e) 8 2 == 3)

/-! ## Fit (R208) -/

/-- A SecY is active on a port: CIP enabled, the port's EN, and at least one of its SecYs (R251). -/
def State.secyActive (s : State) (p : Nat) : Bool :=
  decide (p < 32) && s.hasPort p && s.hasCip && s.blkEn 0x19 && s.bit (Reg.CIP_PORTCFG p) 0 &&
    (List.range 16).any (fun n => s.bit (Reg.CIP_SECY_w0 (16 * p + n)) 0)

/-- The length of a frame's copy with FCS (R183): internal ports carry none. -/
def Frame.copyLen (v : Frame) (p : Nat) : Nat :=
  if p < 32 then max v.bodyLen 60 + 4 else v.bodyLen

/-- A queue's maximum SDU. -/
def State.maxSdu (s : State) (p c : Nat) : Nat :=
  let n := s.portFld p (Reg.TM_MAXSDU p c) 0 14
  if n = 0 then s.maxFrm p else n

/-- The fit length F of a frame at a queue. -/
def State.fitLen (s : State) (p c : Nat) (v : Frame) : Nat :=
  let l := if v.tailIn then v.copyLen p
    else if v.l3Ok then v.len
    else min v.len (s.maxSdu p c)
  if s.preemptable p c then min l (64 * (1 + s.fld (Reg.PRT_PREEMPT p) 8 2) + 63) else l

/-- Transmission bits of a frame, and the test of T against a time in units of 2^-16 ns: T is
(F + 20 + X) × 8 / r. -/
def State.fitsIn (s : State) (p c : Nat) (v : Frame) (window : Nat) : Bool :=
  decide ((s.fitLen p c v + 20 + (if s.secyActive p then 32 else 0)) * 8 * 1000 * 65536
    ≤ window * s.rateOf p)

/-- The frame fits the remaining window of its class (R208).
DEDUCED, unsafe (log entry 69). -/
def State.fits (s : State) (p c : Nat) (v : Frame) : Bool :=
  match s.window p c with
  | none => true
  | some w => s.fitsIn p c v w

/-! ## Bytes sent -/

/-- Bytes of a frame that have left a MAC at a time, behind the 8 bytes of preamble and SFD. -/
def State.sentAt (s : State) (p : Nat) (x : Sending) (t : Nat) : Nat :=
  if x.paused then x.done else x.done + ((t - x.since) * s.rateOf p / 8000 - 8)

/-- Bytes of a frame in transmission that have left the MAC. -/
def State.sentBytes (s : State) (p : Nat) (x : Sending) : Nat := s.sentAt p x s.nowNs

/-! ## Shapers (R203) -/

/-- A TM_SELCFG word that R203 allows: at most four CBSEN bits, each of a strict class. -/
def selcfgLegal (w : Word) : Bool :=
  decide (((List.range 8).filter (fun c => getBit w (8 + c))).length ≤ 4) &&
    (List.range 8).all (fun c => !getBit w (8 + c) || getBit w c)

/-- The shaper of a class is enabled: CBSEN of a legal setting; shapers exist on ports 0 to 31. -/
def State.shaped (s : State) (p c : Nat) : Bool :=
  decide (p < 32) && selcfgLegal (s.rd (Reg.TM_SELCFG p)) && s.bit (Reg.TM_SELCFG p) (8 + c)

/-- A number of credit bits in units of 10^-9 bit. -/
def creditUnit : Int := 1000000000

/-- Credit of a class brought up to now, in the time of the port's domain (R203, R239): it rises at IDLESLOPE
while the queue waits or is below 0, falls while one of its frames is sent, and is held while its gate is
closed. -/
def State.creditNow (s : State) (p c : Nat) : Int :=
  let t := s.tmPort p
  let v := t.credits.getD c 0
  let dt : Int := (s.listNow p - t.creditAt : Nat)
  let slope : Int := (s.rdN (Reg.TM_CBS_w0 p c) : Nat) * 1000
  let part : Int → Int := fun rate => Int.fdiv (rate * dt) 65536
  let sending := t.express.any (fun x => x.cls == c) ||
    t.preempt.any (fun x => x.cls == c && !x.paused)
  let waits := !(s.stage p c).isEmpty
  let raw :=
    if !s.gateOpen p c then v
    else if sending then v + part (slope - 1000000 * (s.rateOf p : Int))
    else if waits then v + part slope
    else if 0 < v then 0
    else min 0 (v + part slope)
  clampInt (signed 32 (s.rdN (Reg.TM_CBS_w2 p c)) * creditUnit)
    (signed 32 (s.rdN (Reg.TM_CBS_w1 p c)) * creditUnit) raw

/-- Bring every credit of a port up to now: done before anything that changes a slope. -/
def State.settleCredits (s : State) (p : Nat) : State :=
  let cs := (List.range 8).map (fun c => if s.shaped p c then s.creditNow p c else 0)
  s.setTmPort p { s.tmPort p with credits := cs, creditAt := s.listNow p }

/-! ## Selection (R200 to R202) -/

/-- The head frame of a queue. -/
def State.headFrame (s : State) (p c : Nat) : Option (Nat × Frame) :=
  match s.stage p c with
  | [] => none
  | (f, _) :: _ => (s.frame f).map (fun v => (f, v))

/-- A frame of class `c` is in transmission on the port. -/
def State.sendingClass (s : State) (p c : Nat) : Bool :=
  let t := s.tmPort p
  (t.express.any (fun x => x.cls == c)) || (t.preempt.any (fun x => x.cls == c))

/-- A queue is eligible for a selection opportunity (R200). -/
def State.eligible (s : State) (p c : Nat) (express : Bool) : Bool :=
  match s.headFrame p c with
  | none => false
  | some (_, v) =>
    !s.sendingClass p c && s.gateOpen p c && s.fits p c v && !(s.stopped p c && !s.scheduled c) &&
      (!s.shaped p c || decide (0 ≤ s.creditNow p c)) &&
      (if s.preemptActive p then
        s.preemptable p c != express && !(s.preemptable p c && s.holdInForce p)
      else express)

/-- The head's length for DRR: exact with the tail in, else LEN (R202). -/
def Frame.drrLen (v : Frame) (p : Nat) : Nat := if v.tailIn then v.copyLen p else v.len

/-- The visits of deficit round robin: from the class that has the turn, down from TC7 to TC0 and
around. A visit of an eligible queue credits the quantum once; a queue that is not eligible keeps its
deficit. A queue keeps the turn while its head is within the deficit and it is eligible. At most
`fuel` visits.
DEDUCED, unsafe (log entry 68). -/
def State.drrVisit (s : State) (p : Nat) (express : Bool) :
    Nat → Option Nat → Bool → List Int → Option Nat × List Int × Option Nat
  | 0, turn, _, ds => (none, ds, turn)
  | fuel + 1, turn, credited, ds =>
    let set := (List.range 8).filter (fun c => !s.bit (Reg.TM_SELCFG p) c && (s.headFrame p c).isSome)
    match set.getLast? with
    | none => (none, ds, none)
    | some top =>
      let next := fun (c : Nat) => ((set.filter (fun x => decide (x < c))).getLast?).getD top
      match turn with
      | some c =>
        if set.contains c then
          let ds := if credited || !s.eligible p c express then ds
            else setAt ds c (clampInt (-0x800000) 0x7FFFFF
              (ds.getD c 0 + (s.fld (Reg.TM_QUANTUM p c) 0 24 : Nat)))
          match s.headFrame p c with
          | some (_, v) =>
            if s.eligible p c express && decide ((v.drrLen p : Int) ≤ ds.getD c 0) then
              (some c, ds, some c)
            else State.drrVisit s p express fuel (some (next c)) false ds
          | none => (none, ds, turn)
        else State.drrVisit s p express fuel (some (next c)) false ds
      | none => State.drrVisit s p express fuel (some top) false ds

/-- The class a port selects, with the DRR state that leaves (R201, R202). -/
def State.select (s : State) (p : Nat) (express : Bool) : Option Nat × TmPort :=
  let t := s.tmPort p
  let ok := (List.range 8).filter (fun c => s.eligible p c express)
  match (ok.filter (fun c => s.bit (Reg.TM_SELCFG p) c)).getLast? with
  | some c => (some c, t)
  | none =>
    if ok.isEmpty then (none, t)
    else
      let r := s.drrVisit p express 0x40000 t.turn t.turn.isSome t.deficits
      (r.1, { t with deficits := r.2.1, turn := r.2.2 })

/-! ## FRER functions (R216 to R218) -/

/-- An FRER function's state. -/
def State.frer (s : State) (f : Nat) : FrerState := Store.get (fun _ => {}) s.tm.frer f

/-- The state with an FRER function's state replaced. -/
def State.setFrer (s : State) (f : Nat) (v : FrerState) : State :=
  { s with tm := { s.tm with frer := Store.set (fun _ => {}) s.tm.frer f v } }

/-- A function is enabled: number 0, or take-any with an empty history and its timers restarted
(R216). -/
def State.enableFrer (s : State) (f : Nat) : State :=
  s.setFrer f { lastPass := s.nowNs, timed := true }

/-- VALID of a function as committed. -/
def State.frerValid (s : State) (f : Nat) : Bool :=
  getBit (s.rdLive liveBank (Reg.TM_FRER_w0 f)) 0

/-- The functions whose VALID is set: those have a listed word 0. -/
def State.frerValids (s : State) : List Nat :=
  let lo := bankSpan * liveBank + Reg.TM_FRER_w0 0
  ((Store.slice s.live lo (bankSpan * liveBank + Reg.TM_FRER_w0 1024) 0 lo).filter
    (fun e => e.1 % 32 == 0 && getBit e.2 0)).map (fun e => e.1 / 32)

/-- The function reports recovering: a 0 bit between bit 0 and its highest 1 bit (R218). -/
def FrerState.recovering (v : FrerState) : Bool :=
  (v.hist.reverse.dropWhile (fun b => !b)).any (fun b => !b)

/-- A quiet slot of at least `ns` is signalled to the channel sequencers: the current entry of the list of
port TM_QUIET.PORT is marked QUIET and that list runs (R211). -/
def State.quietSlot (s : State) (ns : Nat) : Bool :=
  let p := s.fld Reg.TM_QUIET 0 6
  let t := s.tmPort p
  s.bit Reg.TM_QUIET 8 && s.hasPort p && s.up .tm && s.listInForce p && !s.holdBeforeLock p && t.started &&
    getBit (s.rdLive liveBank (Reg.TM_LIST_w0 p t.entry)) 10 &&
    match t.oper with
    | some a => decide (ns ≤ s.entryEnd p a t.entry t.offset - t.offset)
    | none => false

end Sys2Proof.Machine
end

