-- ==== Sys2Proof/Machine/Commit.lean ====
section
/-!
DEFINITION. Commits of the operating tables (R38 to R41): the tables of every block, what each
accepts, what a commit does to the live banks, and its end.
-/

namespace Sys2Proof.Machine

open Sys2Proof

/-! ## The operating tables -/

/-- The keys `[lo, hi)` of an operating table of a block, if the block has it; a Slalom list takes its
port as index. The flow table, which R38 lists among the operating tables, has no commit here: its chapter gives
instance 2 commands and no BLK_COMMIT.
DESIGN CHOICE, unsafe (log entry 142). -/
def tableKeys (b t i : Nat) : Option (Nat × Nat) :=
  match b, t with
  | 0x0B, 1 => some (Reg.FAB_MCGRP_w0 0, Reg.FAB_MCGRP_w0 4096)
  | 0x0C, 1 => some (Reg.CLS_STATE_w0 0, Reg.CLS_STATE_w0 64)
  | 0x0C, 2 => some (Reg.CLS_PROFILE_w0 0, Reg.CLS_PROFILE_w0 16)
  | 0x0D, 3 => some (Reg.CLS_TCAM_w0_19 0 0, Reg.CLS_TCAM_w0_19 4096 0)
  | 0x0F, 4 => some (Reg.CLS_PATTERN_w0_7 0 0, Reg.CLS_PATTERN_w0_7 256 0)
  | 0x10, 1 => some (Reg.RTK_ACTION_w0 0, Reg.RTK_ACTION_w0 16384)
  | 0x10, 2 => some (Reg.RTK_TBLDESC_w0 0, Reg.RTK_TBLDESC_w0 32)
  | 0x10, 3 => some (Reg.RTK_PMEM 0, Reg.RTK_ENTRY 4096)
  | 0x15, 1 => if i < 37 then some (listLo i, listHi i) else none
  | 0x16, 1 => some (Reg.TM_IDENT_w0 0, Reg.TM_IDENT_w0 2048)
  | 0x16, 2 => some (Reg.TM_FILTER_w0 0, Reg.TM_FILTER_w0 2048)
  | 0x17, 1 => some (Reg.TM_FRER_w0 0, Reg.TM_FRER_w0 1024)
  | 0x1E, 1 => some (Reg.HBR_OWIN_w0 0, Reg.HBR_OWIN_w0 64)
  | 0x1E, 2 => some (Reg.HBR_IWIN_w0 0, Reg.HBR_IWIN_w0 32)
  | 0x23, 1 => some (Reg.CPX_PART_w0_11 0 0, Reg.CPX_PART_w0_11 64 0)
  | _, _ => none

/-- The tables whose commits are generation commits (R41, R96, R133, R187). -/
def generationTable (b t : Nat) : Bool :=
  (b == 0x0B && t == 1) || (b == 0x0C && decide (t ≤ 2)) || (b == 0x0D && t == 3) ||
    (b == 0x0F && t == 4) || (b == 0x10 && t == 2)

/-- The banked tables, one bank per generation (R133). -/
def bankedTables : List (Nat × Nat) := [(0x0B, 1), (0x0C, 1), (0x0C, 2), (0x0F, 4), (0x10, 2)]

/-- The table exists, with its index (R38); table 0 of CLS instance 0 is the advance (R133). -/
def tableExists (b t i : Nat) : Bool :=
  if b = 0x0C ∧ t = 0 then i == 0
  else if b = 0x15 then (tableKeys b t i).isSome
  else (tableKeys b t i).isSome && i == 0

/-! ## Host bridge windows (R314) -/

/-- A number has no bit set below bit `n`. -/
def aligned (n a : Nat) : Bool := a % 2 ^ n == 0

/-- Two ranges overlap. -/
def overlap (a n b m : Nat) : Bool := decide (a < b + m) && decide (b < a + n)

/-- Root port role in force (R312). -/
def State.rootPort (s : State) : Bool := s.bit Reg.HBR_PSTAT 8

/-- Size of a BAR, as a power of two. -/
def State.barSize (s : State) (bar2 : Bool) : Nat :=
  if bar2 then clampNat 20 36 (s.fld Reg.HBR_BARCFG 8 6) else clampNat 20 32 (s.fld Reg.HBR_BARCFG 0 6)

/-- An enabled window keeps every rule of R314; words 0 to 4 as given. -/
def State.windowLegal (s : State) (outbound : Bool) (w : List Word) : Bool :=
  let w4 := w.getD 4 0
  let n := winSize w4
  let mb := (w.getD 0 0).toNat + 2 ^ 32 * (w.getD 1 0).toNat
  let tb := (w.getD 2 0).toNat + 2 ^ 32 * (w.getD 3 0).toNat
  let ep := !outbound && !s.rootPort
  let bar2 := getBit w4 13
  !getBit w4 0 ||
    (aligned n mb && aligned n tb &&
      (if outbound then decide (0x80000000 ≤ mb) && decide (mb + 2 ^ n ≤ 0x100000000)
        else decide (tb + 2 ^ n ≤ 2 ^ 40)) &&
      (!ep || decide (mb + 2 ^ n ≤ 2 ^ s.barSize bar2)) &&
      getBits w4 10 3 != 4 &&
      !(getBit w4 9 &&
        (overlap tb (2 ^ n) 0x40000000 0x9000000 || (ep && !bar2))))

/-- Every enabled window of the shadow bank of a table keeps the rules.
DEDUCED, unsafe (log entry 54). -/
def State.windowsLegal (s : State) (t : Nat) : Bool :=
  if t = 1 then
    (List.range 64).all (fun w => s.windowLegal true (s.rdWords (Reg.HBR_OWIN_w0 w) 5))
  else (List.range 32).all (fun w => s.windowLegal false (s.rdWords (Reg.HBR_IWIN_w0 w) 5))

/-! ## What a commit request is answered (R38 to R41, R133, R206) -/

/-- CODE of a commit request: 0 accepted, 1 BUSY, 2 GEN_FULL, 3 BAD_ARG, 4 NO_TIME. -/
def State.commitCode (s : State) (b t i mode : Nat) : Nat :=
  if (s.commit b).active then 1
  else if mode = 3 ∨ tableExists b t i = false then 3
  else if generationTable b t then
    if mode ≠ 2 then 3 else if s.genState ((s.curGen + 1) % 4) ≠ 0 then 2 else 0
  else if b = 0x15 then
    if mode = 2 then 3
    else if 32 ≤ i then 0
    else if mode = 0 ∧ (s.tmPort i).oper.isSome then 3
    else if (s.tmPort i).pend.isSome then 1
    else if mode = 1 ∧ s.validTb (s.listDomain i) = false then 4
    else 0
  else if mode ≠ 0 then 3
  else if b = 0x1E ∧ s.windowsLegal t = false then 3
  else 0

/-! ## What an accepted commit does -/

/-- Words of a live range rewritten by a commit hold no error any more (R195). -/
def State.clearBad (s : State) (bank lo hi : Nat) : State :=
  { s with
    eccBad := s.eccBad.filter (fun c => match c with
      | .live b k => !(b == bank && decide (lo ≤ k) && decide (k < hi))
      | _ => true) }

/-- The shadow bank of a table becomes a live bank. -/
def State.load (s : State) (bank lo hi : Nat) : State := (s.shadowToLive bank lo hi).clearBad bank lo hi

/-- The 20 words of value and mask of a TCAM entry, from the live or the shadow bank. -/
def State.tcamWords (s : State) (shadow : Bool) (e : Nat) : List Word :=
  (List.range 20).map (fun i =>
    if shadow then s.rd (Reg.CLS_TCAM_w0_19 e i) else s.rdLive liveBank (Reg.CLS_TCAM_w0_19 e i))

/-- Rows of an entry: a paired entry has a second half in the odd bank (R116). -/
def State.tcamRows (s : State) (e : Nat) : List Nat := if s.tcamPaired e then [e, e + 512] else [e]

/-- The entries of the TCAM: odd banks of a pair hold no entry of their own (R116). -/
def State.tcamEntries (s : State) : List Nat :=
  (List.range 4096).filter (fun e => !(s.tcamPaired e && e / 512 % 2 == 1))

/-- The generations that are live, as a mask. -/
def State.liveGens (s : State) : Nat :=
  (List.range 4).foldl (fun acc g => if s.genState g != 0 then acc + 2 ^ g else acc) 0

/-- One entry of a TCAM commit for generation `n`, and whether it conflicts (R134). -/
def State.tcamCommitEntry (s : State) (n e : Nat) : Bool × State :=
  let w20 := s.rdLive liveBank (Reg.CLS_TCAM_w20 e)
  let new20 := s.rd (Reg.CLS_TCAM_w20 e)
  let write := fun (acc : State) (r : Nat) =>
    let acc := (List.range 20).foldl
      (fun a i => a.wrLive liveBank (Reg.CLS_TCAM_w0_19 r i) (s.rd (Reg.CLS_TCAM_w0_19 r i))) acc
    { acc with cls := { acc.cls with badParity := Store.set (fun _ => false) acc.cls.badParity r false } }
  if getBits w20 0 4 &&& s.liveGens = 0 then
    let s' := (s.tcamRows e).foldl write s
    let s' := (s.tcamRows e).foldl
      (fun acc r => acc.wrLive liveBank (Reg.CLS_TCAM_w20 r) (s.rd (Reg.CLS_TCAM_w20 r))) s'
    (false, s'.wrLive liveBank (Reg.CLS_TCAM_w20 e)
      (setBits new20 0 4 (getBits new20 0 4 &&& 2 ^ n)))
  else
    let same := (s.tcamRows e).all (fun r => s.tcamWords true r == s.tcamWords false r) &&
      getBit new20 4 == getBit w20 4 && getBits new20 16 16 == getBits w20 16 16
    if same then
      (false, ((s.tcamRows e).foldl write s).wrLive liveBank (Reg.CLS_TCAM_w20 e)
        (putBit w20 n (getBit new20 n)))
    else (true, s.wrLive liveBank (Reg.CLS_TCAM_w20 e) (putBit w20 n false))

/-- A MODE 2 commit of the TCAM for generation `n` (R134). -/
def State.tcamCommit (s : State) (n : Nat) : State :=
  let r := s.tcamEntries.foldl
    (fun (acc : State × List Nat) e =>
      let x := acc.1.tcamCommitEntry n e
      (x.2, if x.1 then acc.2 ++ [e] else acc.2)) (s, [])
  (r.1.setFld Reg.CLS_TCAMCONF 0 13 r.2.length).setFld Reg.CLS_TCAMCONF 16 13 (r.2.headD 0)

/-- A table is recorded as staged for the next advance (R133). -/
def State.stageTable (s : State) (b t : Nat) : State :=
  if s.cls.staged.contains (b * 256 + t) then s
  else { s with cls := { s.cls with staged := s.cls.staged ++ [b * 256 + t] } }

/-- GENMASK bit `n` takes bit `old` in every TCAM entry (R133). -/
def State.copyGenmask (s : State) (old n : Nat) : State :=
  let lo := bankSpan * liveBank + Reg.CLS_TCAM_w20 0
  ((Store.slice s.live lo (bankSpan * liveBank + Reg.CLS_TCAM_w20 4096) 0 lo).filter
    (fun e => e.1 % 128 == 0)).foldl
    (fun acc e => acc.wrLive liveBank (Reg.CLS_TCAM_w20 (e.1 / 128))
      (putBit e.2 n (getBit e.2 old))) s

/-- The advance: the next generation becomes CURRENT and the old one retires (R132, R133).
DEDUCED, unsafe (log entry 52). -/
def State.advance (s : State) : State :=
  let old := s.curGen
  let n := (old + 1) % 4
  let s := bankedTables.foldl
    (fun acc x =>
      if s.cls.staged.contains (x.1 * 256 + x.2) then acc
      else match tableKeys x.1 x.2 0 with
        | some k => acc.liveToLive old n k.1 k.2
        | none => acc) s
  let s := if s.cls.staged.contains (0x0D * 256 + 3) then s else s.copyGenmask old n
  let s := { s with
    cls := { s.cls with
      staged := []
      advances := s.cls.advances + 1
      madeAt := Store.set (fun _ => 0) s.cls.madeAt n (s.cls.advances + 1)
      retiring := Store.set (fun _ => {}) s.cls.retiring old s.timer } }
  let s := ((s.setFld Reg.CLS_GENSTAT 0 2 n).setGenState n 1).setGenState old
    (if s.inFlight old = 0 then 3 else 2)
  (s.setFld (Reg.BLK_COMMITSTAT 0xC) 4 2 n).monEvent 0x14B

/-- The functions whose committed word 0 is listed: every other one has its reset value. -/
def State.frerListed (s : State) : List Nat :=
  let lo := bankSpan * liveBank + Reg.TM_FRER_w0 0
  ((Store.slice s.live lo (bankSpan * liveBank + Reg.TM_FRER_w0 1024) 0 lo).filter
    (fun e => e.1 % 32 == 0)).map (fun e => e.1 / 32)

/-- FRER functions after a commit: a change of KIND or HIST resets one to take-any, and a VALID that
goes to 1 enables it (R216). `old` is the state before. -/
def State.frerCommit (s old : State) : State :=
  (s.frerListed ++ old.frerListed).eraseDups.foldl
    (fun acc f =>
      let a := old.rdLive liveBank (Reg.TM_FRER_w0 f)
      let b := s.rdLive liveBank (Reg.TM_FRER_w0 f)
      if !getBit a 0 && getBit b 0 then acc.enableFrer f
      else if getBits a 1 7 != getBits b 1 7 then acc.setFrer f { acc.frer f with takeAny := true }
      else acc) s

/-- A Slalom list and its admin parameters are latched into the port's pending bank (R206). -/
def State.latchList (s : State) (p : Nat) : State :=
  let a := s.adminParams p
  let s := s.shadowToLive pendBank (listLo p) (listHi p)
  if 32 ≤ p then s.shadowToLive liveBank (listLo p) (listHi p)
  else
    let s := if s.badEntry pendBank p a.len then s.setBit (Reg.TM_GSTAT p) 22 true else s
    s.setTmPort p { s.tmPort p with pend := some (a, a.firstAfter (s.listNow p)) }

/-- Outbound windows are committed: prefetched data is discarded, and none is kept of the requests that
matched the windows before (R317). -/
def State.dropWindows (s : State) : State :=
  let out := s.hbr.requests.map (fun x => ({ x with pf := false } : HbrRequest))
  { s with hbr := { s.hbr with requests := out } }.discardPrefetch (fun _ => true)

/-- The effect of an accepted commit. -/
def State.commitApply (s : State) (b t i : Nat) : State :=
  let n := (s.curGen + 1) % 4
  match tableKeys b t i with
  | none => s.advance
  | some k =>
    if b = 0x0D then (s.tcamCommit n).stageTable b t
    else if generationTable b t then (s.load n k.1 k.2).stageTable b t
    else if b = 0x15 then s.latchList i
    else if b = 0x17 then (s.load liveBank k.1 k.2).frerCommit s
    else if b = 0x1E ∧ t = 1 then (s.load liveBank k.1 k.2).dropWindows
    else s.load liveBank k.1 k.2

/-- BLK_COMMIT GO: the commit starts, or is rejected with its CODE (R38 to R41). -/
def State.commitGo (s : State) (b t i mode : Nat) : State :=
  match s.commitCode b t i mode with
  | 0 =>
    let s := (s.setFld (Reg.BLK_COMMITSTAT b) 8 8 0).setBit (Reg.BLK_COMMITSTAT b) 0 true
    (s.setCommit b { active := true, table := t, index := i, mode := mode }).commitApply b t i
  | c => (s.setFld (Reg.BLK_COMMITSTAT b) 8 8 c).setBit (Reg.BLK_COMMITSTAT b) 2 true

/-- Offset 0x010 of a block is BLK_COMMIT: the block has operating tables (R38). -/
def commitKey (b : Nat) : Nat := regKey b 0x10

/-- A GO written to BLK_COMMIT with a mode. -/
def commitRow (m : Master) (blk : Fin 128) (table index : BitVec 8) (mode : Nat) (s : State) :
    Host.Outcome State Fault Refusal :=
  .next (guardReg m (commitKey blk.val)
    (fun s => s.commitGo blk.val table.toNat index.toNat mode) s)

/-- COMMIT_IMMEDIATE (R39).
DEDUCED, unsafe (log entry 53). -/
def execCommitImmediate (m : Master) (blk : Fin 128) (table index : BitVec 8) (s : State) :
    Host.Outcome State Fault Refusal := commitRow m blk table index 0 s

/-- COMMIT_TIMED (R206). -/
def execCommitTimed (m : Master) (blk : Fin 128) (table index : BitVec 8) (s : State) :
    Host.Outcome State Fault Refusal := commitRow m blk table index 1 s

/-- COMMIT_GENERATION (R41). -/
def execCommitGeneration (m : Master) (blk : Fin 128) (table index : BitVec 8) (s : State) :
    Host.Outcome State Fault Refusal := commitRow m blk table index 2 s

/-- The copy-back of a commit into the shadow bank (R39): the live bank, or the pending list of a
Slalom commit. -/
def State.copyBack (s : State) (b : Nat) (c : CommitState) : State :=
  match tableKeys b c.table c.index with
  | none => s
  | some k =>
    if b = 0x15 then s.liveToShadow pendBank k.1 k.2
    else if generationTable b c.table && b != 0x0D then s
    else s.liveToShadow liveBank k.1 k.2

/-- COMMIT_DONE: the copy-back completes, PENDING clears and DONE sets (R39). -/
def execCommitDone (blk : Fin 128) (s : State) : Host.Outcome State Fault Refusal :=
  .next (
    let c := s.commit blk.val
    if !c.active then s
    else
      ((((s.copyBack blk.val c).setBit (Reg.BLK_COMMITSTAT blk.val) 0 false).setBit
        (Reg.BLK_COMMITSTAT blk.val) 1 true).setCommit blk.val {}))

end Sys2Proof.Machine
end

