-- ==== Sys2Proof/Machine/BridgeOps.lean ====
section
/-!
DEFINITION. The host bridge's shared operations: byte lanes, the error log, posted writes
and non-posted requests toward the link, and how a request ends (R313 to R323).
-/

namespace Sys2Proof.Machine

open Sys2Proof

/-! ## Byte lanes (R316) -/

/-- W of a byte-lane rule. -/
def laneWidth (lanes : Nat) : Nat :=
  match lanes % 4 with
  | 1 => 2
  | 2 => 4
  | 3 => 8
  | _ => 1

/-- The address on the other side of a byte at address `a` in an access of `size` bytes; the rule is its
own inverse. -/
def laneAddr (lanes size a : Nat) : Nat :=
  let w := laneWidth lanes
  let g := if lanes < 4 then min size w else w
  a / g * g + (g - 1 - a % g)

/-! ## The error log (R323) -/

/-- Direction, window, world, requester and addresses of an error-log entry. -/
structure HbrError where
  inbound : Bool := false
  win : Nat := 0
  master : Master
  bus : Nat := 0
  rid : Nat := 0
  addr : Nat := 0
  deriving DecidableEq, Repr

/-- Write an error-log entry of a type: the newest overwrites the oldest; fault 0x0281. -/
def State.hbrLog (s : State) (type : Nat) (e : HbrError) : State :=
  let h := s.fld Reg.HBR_ELOGHEAD 0 4
  let s := if s.bit (Reg.HBR_ELOG_w0 h) 31 then
      s.setFld Reg.HBR_ELOGHEAD 16 16 (min 0xFFFF (s.fld Reg.HBR_ELOGHEAD 16 16 + 1))
    else s
  let w := fun (j v : Nat) (s : State) => s.wrN (Reg.HBR_ELOG_w1_7 h j) (v % 2 ^ 32)
  let s := s.wrN (Reg.HBR_ELOG_w0 h)
    (2 ^ 31 + type + 16 * b2n e.inbound + 32 * e.win + 2 ^ 11 * b2n e.master.indigo +
      2 ^ 12 * e.master.pmid.toNat)
  let t := s.wNow 0
  let s := w 0 e.bus (w 1 (e.bus / 2 ^ 32) (w 2 (e.rid % 65536) s))
  let s := w 3 (tkNs t) (w 4 (tkSec t) (w 5 (e.addr / 2 ^ 32 % 256) (w 6 e.addr s)))
  ((s.setFld Reg.HBR_ELOGHEAD 0 4 ((h + 1) % 16)).bump Cnt.HBR_ERR_LOGGED).fault 0x0281 0

/-- The bridge's own accesses carry its partition master ID (R337). -/
def bridgeMaster (indigo : Bool) : Master := ⟨0x31, indigo⟩

/-- The link is in L0 or L1. -/
def State.linkUp (s : State) : Bool := s.bit Reg.HBR_PSTAT 0

/-! ## Posted writes (R315, R319) -/

/-- Posted writes of a class in the buffers, and their bytes. -/
def State.postedIn (s : State) (urgent : Bool) : List HbrPosted :=
  s.hbr.posted.filter (fun x => x.urgent == urgent)

/-- A posted write of `n` bytes finds room: 32 headers and 8 KiB, urgent 8 and 2 KiB. -/
def State.postRoom (s : State) (urgent : Bool) (n : Nat) : Bool :=
  let q := s.postedIn urgent
  let used := (q.map (fun x => x.cells.length)).sum
  decide (q.length < if urgent then 8 else 32) &&
    (q.isEmpty || decide (used + n ≤ if urgent then 2048 else 8192))

/-- The oldest posted write of a class leaves for the link.
DEDUCED, unsafe (log entry 88). -/
def State.sendPosted (s : State) (urgent : Bool) : State :=
  match s.hbr.posted.find? (fun x => x.urgent == urgent) with
  | none => s
  | some x =>
    if s.linkUp then { s with hbr := { s.hbr with posted := s.hbr.posted.erase x, sent := some x } }
    else s

/-- The oldest posted writes of a class leave until one of `n` bytes finds room. -/
def State.makeRoom (s : State) (urgent : Bool) (n : Nat) : State :=
  (List.range (s.postedIn urgent).length).foldl
    (fun acc _ => if acc.postRoom urgent n then acc else acc.sendPosted urgent) s

/-- A posted write enters its buffer, when the buffer has room for it (R315); with the link down it is
discarded and logged. -/
def State.post (s : State) (x : HbrPosted) : State :=
  let s := ((s.bump Cnt.HBR_OUT_POSTED).monEvent 0x320).discardPrefetch
    (fun p => x.cells.any (fun c => c.1 / 4096 == p.bus / 4096))
  if s.linkUp then
    let s := s.makeRoom x.urgent x.cells.length
    let x := { x with id := s.hbr.nextId }
    { s with
      hbr := { s.hbr with
        posted := s.hbr.posted ++ [x], latest := some x, nextId := s.hbr.nextId + 1 } }
  else s.hbrLog 0xC { master := x.master, bus := 1 }

/-- Posted writes of a class made before request `id` leave for the link, in their order: no request
passes them (R315). -/
def State.flushPosted (s : State) (urgent : Bool) (id : Nat) : State :=
  match ((s.postedIn urgent).filter (fun x => decide (x.id < id))).getLast? with
  | none => s
  | some x =>
    { s with
      hbr := { s.hbr with
        posted := s.hbr.posted.filter (fun y => y.urgent != urgent || decide (id ≤ y.id))
        sent := some x } }

/-- A write of bytes at a bus address under a window's byte-lane rule, as 8-byte accesses. -/
def laneCells (lanes bus : Nat) (bs : List Byte) : List (Nat × Byte) :=
  (List.range bs.length).map (fun i => (laneAddr lanes 8 (bus + i), bs.getD i 0))

/-- Bytes that fit into one TLP from a bus address: at most 512, and not beyond a 4 KiB boundary (R311). -/
def tlpBytes (bus n : Nat) : Nat := min n (min (512 - bus % 512) (4096 - bus % 4096))

/-- Bytes posted through a window, as TLPs in address order. -/
def State.postAll (s : State) (m : Master) (w : Nat) (x : Window) : Nat → Nat → List Byte → State
  | 0, _, _ => s
  | _, _, [] => s
  | fuel + 1, addr, bs =>
    let n := tlpBytes (x.map addr) bs.length
    State.postAll
      (s.post
        { urgent := x.urgent, win := w, addr := addr, bus := x.map addr, master := m,
          cells := laneCells x.lanes (x.map addr) (bs.take n) })
      m w x fuel (addr + n) (bs.drop n)

/-! ## Non-posted requests (R318, R327) -/

/-- A non-posted request of a class finds room: 224 bulk, 32 urgent. -/
def State.npRoom (s : State) (urgent : Bool) : Bool :=
  decide ((s.hbr.requests.filter (fun x => x.urgent == urgent)).length < if urgent then 32 else 224)

/-- The completion timer of a request sent now: HBR_CTO.US, 50 to 64,000 µs; and the grace that replays may add,
at most 1,000 µs (R322). -/
def State.cplDue (s : State) : Nat := s.nowNs + 1000 * clampNat 50 64000 (s.fld Reg.HBR_CTO 0 16)
def State.cplGrace (s : State) : Nat := 1000 * min 1000 (s.fld Reg.HBR_CTO 16 16)

/-- A replay of `n` nanoseconds pauses the timer of a request, within its grace. -/
def HbrRequest.pause (x : HbrRequest) (n : Nat) : HbrRequest :=
  { x with due := x.due + min x.grace n, grace := x.grace - min x.grace n }

/-- A non-posted request is sent. -/
def State.request (s : State) (x : HbrRequest) : State :=
  let s := (s.bump Cnt.HBR_OUT_NP).monEvent 0x321
  { s with
    hbr := { s.hbr with
      requests := s.hbr.requests ++
        [{ x with id := s.hbr.nextId, due := s.cplDue, grace := s.cplGrace }]
      nextId := s.hbr.nextId + 1 } }

/-- The request of a number. -/
def State.requestOf (s : State) (id : Nat) : Option HbrRequest :=
  s.hbr.requests.find? (fun x => x.id == id)

/-- A request is no longer outstanding. -/
def State.closeRequest (s : State) (id : Nat) : State :=
  { s with hbr := { s.hbr with requests := s.hbr.requests.filter (fun x => x.id != id) } }

/-- The fence ends with RES (R320). -/
def State.endFence (s : State) (res : Nat) : State :=
  (((s.setBit Reg.HBR_FENCESTAT 0 false).setFld Reg.HBR_FENCESTAT 1 3 res).setBit Reg.HBR_FENCESTAT 31
    true).hbrIrq 1

/-- A poll read ends in an error: EN clears, POLLERR sets, a POLL entry (R324). -/
def State.pollFail (s : State) (d : Nat) (e : HbrError) : State :=
  ((s.setBit (Reg.HBR_POLL_w0 d) 0 false).setBit (Reg.HBR_POLLERR (d / 32)) (d % 32) true).hbrLog 0xE
    { e with win := d }

/-- A bus error toward a master for a request on the link; its CAUSE is not among those of R49.
DESIGN CHOICE, safe (log entry 24). -/
def State.linkBusError (s : State) (m : Master) (a : Nat) : State :=
  let f := s.takeFree
  f.2.busError m a false (Config.freeNat f.1 % 8)

/-- A request ends in an error of a log type: a bus error for a read, RES for a fence, a stop for a
poll (R318, R320, R324). -/
def State.failRequest (s : State) (x : HbrRequest) (type : Nat) : State :=
  let s := s.closeRequest x.id
  let e : HbrError := { win := x.win, master := x.master, bus := x.bus, addr := x.addr }
  match x.kind with
  | .read => (s.hbrLog type e).linkBusError x.master x.addr
  | .fence => (s.hbrLog type e).endFence (if type = 5 then 3 else if type = 0xC then 4 else 2)
  | .poll d => s.pollFail d e

/-- The completion status as the bridge takes it: ECRC is checked only when HBR_PCFG.ECRC was 1 as sampled
(R311, R312). -/
def State.cplStatus (s : State) (st : CplStatus) : CplStatus :=
  if st = .ecrc ∧ (match s.hbr.pcfg with
      | some c => getBit c 7
      | none => false) = false then .ok
  else st

/-- The log type of a completion status. -/
def cplType (st : CplStatus) : Nat :=
  match st with
  | .ok => 0
  | .ur => 1
  | .ca => 2
  | .poison => 3
  | .ecrc => 4

/-! ## Accesses of the engines to memory (R24, R26, R314) -/

/-- What a read of a byte of the address space returns; what the host answers at an outbound address is
open. -/
def State.busByte (s : State) (a : Nat) : Byte :=
  if targetOf a = .outbound then (Config.freeWord (s.freeCtr + a)).setWidth 8 else s.rdByte a

/-- The open values that reads of outbound addresses took are used up. -/
def State.useHostData (s : State) : State := { s with freeCtr := s.freeCtr + 2 ^ 33 }

/-- Memory that an engine reads through the system bus: the bytes, or the cause of the bus error. A word
with an uncorrectable error is reported, and its value not used (R24).
DESIGN CHOICE, safe (log entry 120). -/
def State.busRead (s : State) (m : Master) (a n : Nat) : Except Nat (List Byte) × State :=
  match s.memFault m a n .read with
  | some (x, c) => (.error c, s.busError m x false c)
  | none =>
    match s.badMem a n with
    | some x => (.error 7, s.badRead x)
    | none =>
      if targetOf a = .outbound then
        if s.linkUp then
          (.ok ((List.range n).map (fun i => s.busByte (a + i))),
            ((s.bumpBy Cnt.HBR_OUT_NP ((n + 511) / 512)).monEvents 0x321 ((n + 511) / 512)).useHostData)
        else (.error 7, (s.hbrLog 0xC { master := m, addr := a }).linkBusError m a)
      else (.ok (s.rdBytes a n), s)

/-- Memory that an engine writes through the system bus; through an outbound window it is posted. -/
def State.busWrite (s : State) (m : Master) (a : Nat) (bs : List Byte) : Bool × State :=
  match s.memFault m a bs.length .write with
  | some (x, c) => (false, s.busError m x true c)
  | none =>
    (true,
      match s.outboundWindow a with
      | some (w, x) =>
        if targetOf a = .outbound then s.postAll m w x bs.length a bs else s.wrMem a bs
      | none => s.wrMem a bs)

end Sys2Proof.Machine
end

