-- ==== Sys2Proof/Machine/CipherOps.lean ====
section
/-!
DEFINITION. MACsec on the ports: which SA seals a frame, and the sealing and checking of one frame
under IEEE 802.1AE as R250 to R257 profile it.
-/

namespace Sys2Proof.Machine

open Sys2Proof

/-- The EtherType of an untagged frame. -/
def etherType (bs : List Byte) : Nat := natAt bs 12 2

/-- The frame is EAPOL (R251). -/
def isEapol (bs : List Byte) : Bool := etherType bs == 0x888E

/-- EAPOLCLR of a port. -/
def State.eapolClear (s : State) (p : Nat) : Bool := s.bit (Reg.CIP_PORTCFG p) 5

/-- The SA context of an association number of a SecY: words 6 and 7 transmit, 8 and 9 receive. -/
def State.secySa (s : State) (n an : Nat) (rx : Bool) : Nat :=
  s.fld (Reg.CIP_SECY_w6_9 n ((if rx then 2 else 0) + an / 2)) (16 * (an % 2)) 10

/-- The SecY that owns an SA context. -/
def State.saSecy (s : State) (sa : Nat) : Nat := s.fld (Reg.CIP_SA_w0 sa) 3 9

/-- The SA context that seals a frame sent on a port, by the first rule of R256 that applies, if its
SecY protects.
DEDUCED, unsafe (log entry 74). -/
def State.sealContext (s : State) (p : Nat) (bs : List Byte) (named : Option Nat) : Option Nat :=
  if !s.secyActive p then none
  else
    let n := 16 * p + s.fld (Reg.CIP_PORTCFG p) 1 4
    let sa := match named with
      | some sa => some sa
      | none =>
        if isEapol bs && s.eapolClear p then none
        else some (s.secySa n (s.fld (Reg.CIP_SECY_w0 n) 10 2) false)
    match sa with
    | some sa => if s.bit (Reg.CIP_SECY_w0 (s.saSecy sa)) 1 then some sa else none
    | none => none

/-- Bytes that sealing under a SecY's word 0 adds: the SecTAG of 8 or 16 bytes, and the ICV (R256). -/
def sealGrowth (w0 : Word) : Nat := (if getBit w0 7 then 16 else 8) + 16

/-- Bytes that sealing with an SA adds. -/
def State.sealBytes (s : State) (sa : Nat) : Nat := sealGrowth (s.rd (Reg.CIP_SECY_w0 (s.saSecy sa)))

/-- Bytes that a seal adds. -/
def Seal.growth (x : Seal) : Nat := sealGrowth x.w0

/-- An SA context is usable: EN and not DISABLED. -/
def State.saLive (s : State) (sa : Nat) : Bool :=
  s.bit (Reg.CIP_SA_w0 sa) 0 && !s.bit (Reg.CIP_SA_w0 sa) 12

/-- NEXTPN of an SA context: 32 bits, or 64 with XPN (R253). -/
def State.nextPn (s : State) (sa : Nat) : Nat :=
  s.rdN (Reg.CIP_SA_w1 sa) +
    (if s.bit (Reg.CIP_SA_w0 sa) 2 then 2 ^ 32 * s.rdN (Reg.CIP_SA_w2 sa) else 0)

/-- The state with NEXTPN set. -/
def State.setNextPn (s : State) (sa n : Nat) : State :=
  let s := s.wrN (Reg.CIP_SA_w1 sa) (n % 2 ^ 32)
  if s.bit (Reg.CIP_SA_w0 sa) 2 then s.wrN (Reg.CIP_SA_w2 sa) (n / 2 ^ 32 % 2 ^ 32) else s

/-- The largest PN of an SA (R257). -/
def State.pnLimit (s : State) (sa : Nat) : Nat :=
  if s.bit (Reg.CIP_SA_w0 sa) 2 then 0xFFFFFFFFFFFFFFFF else 0xFFFFFFFF

/-- The key bytes that a key context holds; the engine keeps them behind no register. -/
def State.keyOf (s : State) (k : Nat) : List Byte := Store.get (fun _ => []) s.cip.keys k


/-- An SA context as it stands now. -/
def State.saNow (s : State) (sa : Nat) : SaKey :=
  { sa := sa, live := s.saLive sa, xpn := s.bit (Reg.CIP_SA_w0 sa) 2
    ssci := s.rdN (Reg.CIP_SA_w3_6 sa 0)
    salt := s.rdN (Reg.CIP_SA_w3_6 sa 1) + 2 ^ 32 * s.rdN (Reg.CIP_SA_w3_6 sa 2)
      + 2 ^ 64 * s.rdN (Reg.CIP_SA_w3_6 sa 3)
    key := s.keyOf sa }

/-- The 12-byte IV of a frame: SCI and PN, or with XPN (SSCI and PN) XOR salt (802.1AE). -/
def SaKey.iv (x : SaKey) (sci pn : Nat) : List Byte :=
  if x.xpn then bytesBE 12 ((2 ^ 64 * x.ssci + pn) ^^^ x.salt) else bytesBE 8 sci ++ bytesBE 4 pn

/-- The confidentiality offset of a SecY in bytes, by its word 0; 3 acts as 0. -/
def confOffset (w0 : Word) : Nat :=
  match getBits w0 3 2 with
  | 1 => 30
  | 2 => 50
  | _ => 0

/-- The 64-bit TXSCI and RXSCI of a SecY. -/
def State.txSci (s : State) (n : Nat) : Nat :=
  s.rdN (Reg.CIP_SECY_w1_5 n 1) + 2 ^ 32 * s.rdN (Reg.CIP_SECY_w1_5 n 2)
def State.rxSci (s : State) (n : Nat) : Nat :=
  s.rdN (Reg.CIP_SECY_w1_5 n 3) + 2 ^ 32 * s.rdN (Reg.CIP_SECY_w1_5 n 4)

/-- PNTHR of a SecY. -/
def State.pnThreshold (s : State) (n : Nat) : Nat :=
  s.rdN (Reg.CIP_SECY_w10 n) + 2 ^ 32 * s.rdN (Reg.CIP_SECY_w11 n)

/-- What seals a frame that reaches step 9 with an SA and a PN. -/
def State.sealNow (s : State) (sa pn : Nat) : Seal :=
  let n := s.saSecy sa
  { sa := sa, pn := pn, w0 := s.rd (Reg.CIP_SECY_w0 n), sci := s.txSci n, key := s.keyOf sa
    iv := (s.saNow sa).iv (s.txSci n) pn }

/-- A frame sealed: SecTAG after the addresses, secure data, ICV (802.1AE clause 9). -/
def Seal.apply (x : Seal) (bs : List Byte) : List Byte :=
  let w0 := x.w0
  let conf := getBit w0 2
  let data := bs.drop 12
  let tci := b2n (getBit w0 8) * 64 + b2n (getBit w0 7) * 32 + b2n (getBit w0 9) * 16
    + (if conf then 12 else 0) + getBits w0 10 2
  let tag := bytesBE 2 0x88E5 ++ bytesBE 1 tci ++
    bytesBE 1 (if data.length < 48 then data.length else 0) ++ bytesBE 4 (x.pn % 2 ^ 32) ++
    (if getBit w0 7 then bytesBE 8 x.sci else [])
  let off := if conf then min (confOffset w0) data.length else data.length
  let aad := bs.take 12 ++ tag ++ data.take off
  let cipher := Config.gcmEncrypt x.key x.iv aad (data.drop off)
  aad ++ cipher ++ Config.gcmTag x.key x.iv aad cipher

/-- What a SecTAG says. -/
structure SecTag where
  sci : Option Nat
  es : Bool
  e : Bool
  c : Bool
  an : Nat
  sl : Nat
  pn : Nat
  len : Nat
  deriving DecidableEq, Repr

/-- The SecTAG of a frame: none without one, and none inside when it is malformed under 802.1AE
clause 9 (version, ES with SC, SCB with SC, SL, too short; PN 0 depends on the SA).
PRESUMED, unsafe (log entry 75). -/
def parseSecTag (bs : List Byte) : Option (Option SecTag) :=
  if natAt bs 12 2 ≠ 0x88E5 then none
  else
    let tci := natAt bs 14 1
    let sl := natAt bs 15 1
    let sc := Nat.testBit tci 5
    let len := if sc then 16 else 8
    let es := Nat.testBit tci 6
    let scb := Nat.testBit tci 4
    let data := bs.length - (12 + len + 16)
    if Nat.testBit tci 7 || (es && sc) || (scb && sc) || decide (48 ≤ sl) ||
        decide (bs.length < 12 + len + 16) || (sl != 0 && decide (data < sl)) ||
        (sl == 0 && decide (data < 48)) then some none
    else
      some (some
        { sci := if sc then some (natAt bs 20 8) else none, es := es, e := Nat.testBit tci 3,
          c := Nat.testBit tci 2, an := tci % 4, sl := sl, pn := natAt bs 16 4, len := len })

/-- The enabled SecYs of a port, lowest first. -/
def State.portSecys (s : State) (p : Nat) : List Nat :=
  ((List.range 16).map (fun i => 16 * p + i)).filter (fun n => s.bit (Reg.CIP_SECY_w0 n) 0)

/-- The settings a frame that reaches step 2 of a port is checked under (R251, R253, R254). -/
def State.rxCheckNow (s : State) (p : Nat) : RxCheck :=
  { eapolClear := s.eapolClear p
    strict := (List.range 16).all (fun i => s.bit (Reg.CIP_SECY_w0 (16 * p + i)) 5)
    secys := (s.portSecys p).map (fun n =>
      { n := n, w0 := s.rd (Reg.CIP_SECY_w0 n), window := s.rdN (Reg.CIP_SECY_w1_5 n 0)
        sci := s.rxSci n
        sas := (List.range 4).map (fun an => s.saNow (s.secySa n an true)) }) }

/-- Recovery of the 64-bit PN from its low half: the value nearest above the lowest acceptable one
(802.1AE clause 10.6.2). -/
def recoverPn (next low : Nat) : Nat :=
  let hi := next / 2 ^ 32
  if low < next % 2 ^ 32 ∧ 2 ^ 31 ≤ next % 2 ^ 32 ∧ low < 2 ^ 31 then 2 ^ 32 * (hi + 1) + low
  else 2 ^ 32 * hi + low

/-- DISABLED and its cause of an SA (R253). -/
def State.markDisabled (s : State) (sa cause : Nat) : State :=
  (s.setBit (Reg.CIP_SA_w0 sa) 12 true).setFld (Reg.CIP_SA_w0 sa) 13 3 cause

/-- An SA in use is disabled. -/
def State.disableSa (s : State) (sa cause : Nat) : State :=
  if s.bit (Reg.CIP_SA_w0 sa) 0 then (s.markDisabled sa cause).monEvent 0x267 else s

/-- The engine is present and its island runs. -/
def State.cipUp (s : State) : Bool := s.hasCip && s.up .cipher

/-! ## Preemption of a frame in transmission (R66, R207) -/

/-- Data bytes of the shortest fragment that is not a frame's last: 64 × (1 + ADDFRAG) with the mCRC (R65). -/
def State.minFragment (s : State) (p : Nat) : Nat := 64 * (1 + s.fld (Reg.PRT_PREEMPT p) 8 2) - 4

/-- The earliest time from `t` at which the minimum of the current fragment has been sent. -/
def State.fragmentSent (s : State) (p : Nat) (x : Sending) (t : Nat) : Nat :=
  max t (x.since + ((s.minFragment p + 8) * 8000 + s.rateOf p - 1) / s.rateOf p)

/-- Bytes of a frame as it is known to the MAC, sealed. -/
def State.knownLen (s : State) (p : Nat) (x : Sending) : Nat :=
  match s.frame x.frame with
  | some v => v.arrivedLen p + (match x.sealing with
    | some y => y.growth
    | none => 0)
  | none => 0

/-- The preemptable frame is preempted at a time, when at least 64 of its bytes remain then. -/
def State.splitAt (s : State) (p : Nat) (x : Sending) (t : Nat) : Option Sending :=
  if !x.paused && decide (s.sentAt p x t + 64 ≤ s.knownLen p x) then
    some { x with done := s.sentAt p x t, paused := true, stopFrom := none }
  else none

/-- A preemption that is due by now has taken place at the first allowed point.
DESIGN CHOICE, safe (log entry 135). -/
def State.settlePreempt (s : State) (p : Nat) : State :=
  let t := s.tmPort p
  match t.preempt with
  | none => s
  | some x =>
    match x.stopFrom with
    | none => s
    | some from_ =>
      let at_ := s.fragmentSent p x from_
      if s.nowNs < at_ then s
      else
        match s.splitAt p x at_ with
        | some y => s.setTmPort p { t with preempt := some y }
        | none => s

/-- The preemptable frame of a port is to be preempted, or no longer, by the hold and its gate (R207). -/
def State.gatePreempt (s : State) (p : Nat) : State :=
  let s := s.settlePreempt p
  let t := s.tmPort p
  match t.preempt with
  | none => s
  | some x =>
    let stop := (s.holdInForce p || !s.gateOpen p x.cls) && s.preemptActive p
    let from_ := if !stop then none else if x.stopFrom.isSome then x.stopFrom else some s.nowNs
    s.setTmPort p { t with preempt := some { x with stopFrom := from_ } }

/-- At least one lane is in service (R248). -/
def State.laneUp (s : State) : Bool := s.fld Reg.CIP_LANESTAT 0 4 != 0

/-- Blocks of GCM for `n` enciphered bytes: theirs, and the one that masks the tag. -/
def gcmBlocks (n : Nat) : Nat := (n + 15) / 16 + 1

/-- Blocks of a frame or of a job are issued, on a lane in service that the rules leave open: events of MON
(R246, R462).
DESIGN CHOICE, unsafe (log entry 157). -/
def State.issueBlocks (s : State) (n : Nat) : State :=
  let lanes := (List.range 4).filter (fun i => s.bit Reg.CIP_LANESTAT i)
  if n = 0 ∨ lanes = [] then s
  else
    let f := s.takeFree
    f.2.monEvents (0x260 + lanes.getD (Config.freeNat f.1 % lanes.length) 0) n

/-- The bytes of the lanes' issue slots in Mb/s: a lane issues 16 bytes in each cycle of 800 MHz (R245). -/
def State.laneRate (s : State) : Nat :=
  102400 * ((List.range 4).filter (fun i => s.bit Reg.CIP_LANESTAT i)).length

/-- A job is queued (R246). -/
def State.jobQueued (s : State) : Bool :=
  (List.range 160).any (fun j => s.fld (Reg.CIP_JOB_w15 j) 0 3 == 2)

/-- A port sends a sealed frame. -/
def State.sealing (s : State) (p : Nat) : Bool :=
  [(s.tmPort p).express, (s.tmPort p).preempt].any (fun x => (x.bind Sending.sealing).isSome)

/-- The line rates of the external ports of a kind. -/
def State.rateSum (s : State) (q : Nat → Bool) : Nat :=
  (((List.range 32).filter q).map s.rateOf).sum

/-- The engine can reserve slots for a frame at the port's line rate: what is left after the ingress of every
port with an active SecY at its line rate, the jobs' share, and the frames in sealing (R246, R247).
DEDUCED, unsafe (log entry 143). -/
def State.sealRoom (s : State) (p : Nat) : Bool :=
  let jobs := if s.jobQueued then s.laneRate * s.fld Reg.CIP_LANECFG 0 6 / 64 else 0
  let ingress := s.rateSum (fun q => s.portUp q && s.secyActive q)
  let egress := s.rateSum (fun q => q != p && s.sealing q)
  s.laneUp && decide (ingress + jobs + egress + s.rateOf p ≤ s.laneRate)

end Sys2Proof.Machine
end

