-- ==== Sys2Proof/Machine/CipherJobs.lean ====
section
/-!
DEFINITION. The cipher engine's shared operations: key contexts and their revocation, jobs and what
each operation computes, and the tamper response of the engine (R259 to R268).
-/

namespace Sys2Proof.Machine

open Sys2Proof

/-! ## Jobs: access and results (R260, R264) -/

/-- A job's memory. -/
def State.job (s : State) (j : Nat) : CipherJob := Store.get (fun _ => {}) s.cip.jobs j

/-- The state with a job's memory replaced. -/
def State.setJob (s : State) (j : Nat) (v : CipherJob) : State :=
  { s with cip := { s.cip with jobs := Store.set (fun _ => {}) s.cip.jobs j v } }

/-- STATE of a job: 0 FREE, 1 CLAIMED, 2 QUEUED, 3 RUNNING, 4 SUSPENDED, 5 PARTIAL, 6 DONE. -/
def State.jobState (s : State) (j : Nat) : Nat := s.fld (Reg.CIP_JOB_w15 j) 0 3

/-- The state with STATE of a job set. -/
def State.setJobState (s : State) (j v : Nat) : State := s.setFld (Reg.CIP_JOB_w15 j) 0 3 v

/-- OP, LEN and the key context of a job. -/
def State.jobOp (s : State) (j : Nat) : Nat := s.fld (Reg.CIP_JOB_w0 j) 0 4
def State.jobLen (s : State) (j : Nat) : Nat := s.fld (Reg.CIP_JOB_w5 j) 0 24
def State.jobKey (s : State) (j : Nat) : Nat := 1024 + s.fld (Reg.CIP_JOB_w0 j) 16 8

/-- A 40-bit address held in two words. -/
def State.addr40 (s : State) (lo hi : Nat) : Nat := s.rdN lo + 2 ^ 32 * s.fld hi 0 8

/-- The job is being worked on: QUEUED, RUNNING, SUSPENDED or PARTIAL. -/
def State.jobLive (s : State) (j : Nat) : Bool := decide (2 ≤ s.jobState j ∧ s.jobState j ≤ 5)

/-- The hold share that a decrypt job reserves, in 4 KiB units (R263). -/
def State.holdUnits (s : State) (j : Nat) : Nat :=
  if s.jobOp j = 2 then (s.jobLen j + 4095) / 4096 else 0

/-- The job has started, so that a decrypt job holds its reservation. -/
def State.jobStarted (s : State) (j : Nat) : Bool := s.jobState j == 3 || s.jobState j == 4

/-- A job ends DONE with a result: JOBDONE, the interrupt, and its reservation freed (R263, R264). -/
def State.endJob (s : State) (j res : Nat) : State :=
  let s := if s.jobStarted j then
      s.setFld Reg.CIP_HOLDSTAT 0 6 (s.fld Reg.CIP_HOLDSTAT 0 6 - s.holdUnits j) else s
  let s := (s.setJobState j 6).setFld (Reg.CIP_JOB_w15 j) 8 4 res
  let s := (s.setBit (Reg.CIP_JOBDONE_0_4 (j / 32)) (j % 32) true).monEvent 0x266
  if s.bit (Reg.CIP_JOB_w0 j) 6 then s.irq 136 else s

/-! ## What the operations compute (R261) -/

/-- The operations that use AES lanes; the others use the hash cores. -/
def aesOp (op : Nat) : Bool := decide (op < 8)

/-- Usage bits that an operation needs of its key, as a bit of USAGE (R259, R261). -/
def opUsage (op : Nat) : Option Nat :=
  match op with
  | 1 => some 1
  | 2 => some 2
  | 3 | 4 => some 3
  | 5 => some 4
  | 6 | 7 => some 5
  | 9 | 10 => some 6
  | _ => none

/-- The operation exists and LEN keeps the rule of its row (R261). -/
def State.jobLegal (s : State) (j : Nat) : Bool :=
  let len := s.jobLen j
  match s.jobOp j with
  | 1 | 2 | 3 | 4 => decide (len ≤ 65536)
  | 5 => true
  | 6 | 7 => len % 16 == 0
  | 8 | 9 | 10 => s.bit (Reg.CIP_JOB_w0 j) 8 || len % 128 == 0
  | _ => false

/-- Usage bit `u` of a key context, LOADED. -/
def State.keyLoaded (s : State) (k : Nat) : Bool := decide (k < 1280) && s.fld (Reg.CIP_KEYSTAT k) 0 2 == 2
def State.keyUsage (s : State) (k u : Nat) : Bool := s.bit (Reg.CIP_KEYSTAT k) (3 + u)

/-- The keys a job uses: XTS takes KEY and KEY + 1. -/
def State.jobKeys (s : State) (j : Nat) : List Nat :=
  match s.jobOp j with
  | 6 | 7 => [s.jobKey j, s.jobKey j + 1]
  | 8 => []
  | _ => [s.jobKey j]

/-- What stops a job at its start: KEY_EMPTY, POLICY, or nothing (R264). -/
def State.keyRefusal (s : State) (j : Nat) : Option Nat :=
  let ks := s.jobKeys j
  if !ks.all s.keyLoaded then some 3
  else
    match opUsage (s.jobOp j) with
    | some u => if ks.all (fun k => s.keyUsage k u) then none else some 4
    | none => none

/-- The IV of a job: the bytes of words 9 to 12. -/
def State.jobIv (s : State) (j : Nat) : List Byte :=
  (List.range 4).flatMap (fun i => bytesLE 4 (s.rdN (Reg.CIP_JOB_w9_12 j i)))

/-- Master and world of a job's accesses: those of the GO write (R260). -/
def CipherJob.master (v : CipherJob) : Master := ⟨BitVec.ofNat 6 v.pmid, v.indigo⟩

/-- What a finished operation gives: a result code, output for DST, and a tag or digest for TAG. -/
structure JobOutput where
  res : Nat
  out : List Byte := []
  tag : List Byte := []
  deriving DecidableEq, Repr

/-- The operation of a job on its input, its additional data, the message so far, and the expected
value (R261). -/
def State.jobCompute (s : State) (j : Nat) (data aad expect : List Byte) : JobOutput :=
  let key := s.keyOf (s.jobKey j)
  let iv := s.jobIv j
  let msg := (s.job j).message ++ data
  match s.jobOp j with
  | 1 =>
    let c := Config.gcmEncrypt key (iv.take 12) aad data
    { res := 0, out := c, tag := (Config.gcmTag key (iv.take 12) aad c).take 16 }
  | 2 =>
    if (Config.gcmTag key (iv.take 12) aad data).take 16 = expect.take 16 then
      { res := 0, out := Config.gcmDecrypt key (iv.take 12) data }
    else { res := 1 }
  | 3 => { res := 0, tag := (Config.cmac key data).take 16 }
  | 4 => { res := if (Config.cmac key data).take 16 = expect.take 16 then 0 else 1 }
  | 5 => { res := 0, out := Config.ctr key iv data }
  | 6 => { res := 0, out := Config.xts true key (s.keyOf (s.jobKey j + 1)) iv data }
  | 7 => { res := 0, out := Config.xts false key (s.keyOf (s.jobKey j + 1)) iv data }
  | 8 => { res := 0, tag := (Config.sha384 msg).take 48 }
  | 9 => { res := 0, tag := (Config.hmac384 key msg).take 48 }
  | _ => { res := if (Config.hmac384 key msg).take 48 = expect then 0 else 1 }

/-- Bytes of the expected value that an operation reads at TAG. -/
def expectLen (op : Nat) : Nat := if op = 2 ∨ op = 4 then 16 else if op = 10 then 48 else 0

/-- Blocks that a job's operation issues on the lanes, none on the hash cores (R245, R261). -/
def jobBlocks (op n : Nat) : Nat :=
  match op with
  | 1 | 2 => gcmBlocks n
  | 3 | 4 => Nat.max 1 ((n + 15) / 16)
  | 5 => (n + 15) / 16
  | 6 | 7 => n / 16 + 1
  | _ => 0

/-- The whole operation of a running job, its reads and its writes; a bus error ends it MEM_ERR. -/
def State.runJob (s : State) (j : Nat) : State :=
  let m := (s.job j).master
  let op := s.jobOp j
  let hash := decide (8 ≤ op)
  let final := !hash || s.bit (Reg.CIP_JOB_w0 j) 8
  match s.busRead m (s.addr40 (Reg.CIP_JOB_w1 j) (Reg.CIP_JOB_w2 j)) (s.jobLen j) with
  | (.error _, s) => s.endJob j 6
  | (.ok data, s) =>
    if !final then
      let v := s.job j
      (s.setJob j { v with message := v.message ++ data }).setJobState j 5
    else
      match s.busRead m (s.addr40 (Reg.CIP_JOB_w6 j) (Reg.CIP_JOB_w7 j))
          (if op ≤ 2 then s.fld (Reg.CIP_JOB_w8 j) 0 13 else 0) with
      | (.error _, s) => s.endJob j 6
      | (.ok aad, s) =>
        let tagAt := s.addr40 (Reg.CIP_JOB_w13 j) (Reg.CIP_JOB_w14 j)
        match s.busRead m tagAt (expectLen op) with
        | (.error _, s) => s.endJob j 6
        | (.ok expect, s) =>
          let s := s.issueBlocks (jobBlocks op data.length)
          let o := s.jobCompute j data aad expect
          let r := s.busWrite m (s.addr40 (Reg.CIP_JOB_w3 j) (Reg.CIP_JOB_w4 j)) o.out
          let t := if r.1 then r.2.busWrite m tagAt o.tag else r
          t.2.endJob j (if t.1 then o.res else 6)

/-- Output that a running job has written when it is stopped or suspended: every operation but a decrypt
writes block by block, so some whole number of blocks, at least as many as at an earlier suspension and how
many being open, has been written (R262, R263).
DESIGN CHOICE, safe (log entry 144). -/
def State.partOutput (s : State) (j : Nat) : State :=
  if s.jobState j ≠ 3 ∨ !(decide (s.jobOp j = 1) || decide (5 ≤ s.jobOp j ∧ s.jobOp j ≤ 7)) then s
  else
    let m := (s.job j).master
    let len := s.jobLen j
    match s.busRead m (s.addr40 (Reg.CIP_JOB_w1 j) (Reg.CIP_JOB_w2 j)) len with
    | (.error _, _) => s
    | (.ok data, s) =>
      let f := s.takeFree
      let v := s.job j
      let n := v.released + Config.freeNat f.1 % (len / 16 + 1 - v.released)
      let o := s.jobCompute j data [] []
      (f.2.busWrite m (s.addr40 (Reg.CIP_JOB_w3 j) (Reg.CIP_JOB_w4 j)) (o.out.take (16 * n))).2.setJob j
        { v with released := n }

/-- A running job is suspended at a block boundary (R244, R262). -/
def State.suspendJob (s : State) (j : Nat) : State :=
  if s.jobState j = 3 then (s.partOutput j).setJobState j 4 else s

/-- A job is stopped before its end. -/
def State.stopJob (s : State) (j res : Nat) : State :=
  if s.jobLive j then (s.partOutput j).endJob j res else s

/-- Stop every job that is being worked on. -/
def State.stopJobs (s : State) (res : Nat) : State :=
  (List.range 160).foldl (fun acc j => acc.stopJob j res) s

/-! ## Revocation (R265) -/

/-- A frame in transmission that one of some SAs seals is spoiled from now on. -/
def State.spoilIf (s : State) (which : Nat → Bool) : State :=
  (List.range 32).foldl (fun acc p =>
    let t := acc.tmPort p
    let mark : Option Sending → Option Sending := fun o => o.map (fun x =>
      if x.sealing.any (fun q => which q.sa) && x.spoiled.isNone then
        { x with spoiled := some (s.sentBytes p x) } else x)
    acc.setTmPort p { t with express := mark t.express, preempt := mark t.preempt }) s

/-- What uses a key context ends: its SA is disabled and a frame it seals spoiled, or the jobs that use it end
KEY_REVOKED. -/
def State.endUses (s : State) (k cause : Nat) : State :=
  if k < 1024 then (s.disableSa k cause).spoilIf (fun sa => sa == k)
  else
    (List.range 160).foldl (fun acc j =>
      if acc.jobLive j && (acc.jobKeys j).contains k then acc.stopJob j 2 else acc) s

/-- A key context is erased and REVOKED with a cause, and what uses it ends.
DEDUCED, unsafe (log entry 77). -/
def State.revokeKey (s : State) (k cause : Nat) : State :=
  let s := s.endUses k cause
  let s := { s with cip := { s.cip with keys := Store.set (fun _ => []) s.cip.keys k [] } }
  (s.setFld (Reg.CIP_KEYSTAT k) 0 2 3).setFld (Reg.CIP_KEYSTAT k) 28 3 cause

/-- The key contexts that hold a key, LOADING or LOADED. -/
def State.heldKeys (s : State) : List Nat :=
  ((Store.slice s.regs (Reg.CIP_KEYSTAT 0) (Reg.CIP_KEYSTAT 1280) 0 (Reg.CIP_KEYSTAT 0)).filter
    (fun e => getBits e.2 0 2 == 1 || getBits e.2 0 2 == 2)).map (fun e => e.1 / 4)

/-- The vault signals a slot: every key context whose parent it is, is revoked (R265). -/
def State.signalSlot (s : State) (slot : Nat) : State :=
  match s.heldKeys.filter (fun k => s.fld (Reg.CIP_KEYSTAT k) 16 9 == slot) with
  | [] => s
  | ks => (ks.foldl (fun acc k => acc.revokeKey k 1) s).fault 0x01C7 0

/-- The SA contexts in use. -/
def State.usedSas (s : State) : List Nat :=
  ((Store.slice s.regs (Reg.CIP_SA_w0 0) (Reg.CIP_SA_w0 1024) 0 (Reg.CIP_SA_w0 0)).filter
    (fun e => e.1 % 32 == 0 && getBit e.2 0)).map (fun e => e.1 / 32)

/-- Disable every SA, in use or not (R249, R266). -/
def State.disableSas (s : State) (cause : Nat) : State :=
  let s := s.usedSas.foldl (fun acc sa => acc.disableSa sa cause) s
  (List.range 1024).foldr (fun sa acc => acc.markDisabled sa cause) s

/-- MACsec frames in process are dropped: those in the ingress slices, and those being sealed end
spoiled (R266). -/
def State.dropMacsec (s : State) : State :=
  let held := (s.frames.filter (fun e => match e.2 with
    | some v => v.check.isSome
    | none => false)).map (fun e => e.1)
  let s := held.foldl (fun acc f => acc.delFrame f) s
  s.spoilIf (fun _ => true)

/-- No block is released any more (R266 step 1): the operations under way stop, jobs that run ending TAMPER;
jobs that wait are left.
DESIGN CHOICE, unsafe (log entry 145). -/
def State.stopCipher (s : State) : State :=
  ((List.range 160).foldl (fun acc j =>
    if acc.jobState j = 3 then acc.stopJob j 8 else acc) s).dropMacsec

/-- The tamper response of the engine (R266). -/
def State.zeroizeCipher (s : State) : State :=
  let s := (s.stopJobs 8).dropMacsec
  (s.heldKeys.foldl (fun acc k => acc.revokeKey k 3) s).disableSas 3

end Sys2Proof.Machine
end

