-- ==== Sys2Proof/Machine/VaultOps.lean ====
section
/-!
DEFINITION. The key vault's shared operations: identity and anchors, slots and their policies, key
derivation, signatures, and measurement registers (R274 to R284).
-/

namespace Sys2Proof.Machine

open Sys2Proof

/-! ## Identity, anchors, counter (R274 to R276, R410) -/

/-- The 16 bytes of the device unique ID. -/
def uidBytes : List Byte := (List.range 4).flatMap (fun i => bytesBE 4 (Config.uidWord i).toNat)

/-- Anchor `a`, from the monotonic counters partition. -/
def State.anchor (s : State) (a : Nat) : List Byte := s.rdBytes (0x10011000 + 48 * a) 48

/-- An anchor of all zero bytes is unset. -/
def State.anchorSet (s : State) (a : Nat) : Bool := (s.anchor a).any (fun b => b != 0)

/-- The provisioning counter, from the monotonic counters partition. -/
def State.provCounter (s : State) : Nat := natLE (s.rdBytes 0x10011180 8)

/-- A signature over a digest, checked against an anchor: 0 OK, 6 ANCHOR, 2 BAD_SIG (R287, R288). -/
def State.verifyWith (s : State) (a : Nat) (pub digest sig : List Byte) : Nat :=
  if !s.anchorSet a then 6
  else if Config.sha384 pub = s.anchor a ∧ Config.ecdsaVerify pub digest sig = true then 0
  else 2

/-! ## Measurement registers (R280) -/

/-- The 48 bytes of a measurement register. -/
def State.mr (s : State) (i : Nat) : List Byte :=
  (List.range 12).flatMap (fun j => bytesBE 4 (s.rdN (Reg.VLT_MR i j)))

/-- EXTEND: MR[i] := SHA-384(MR[i] ‖ D); the EXTEND is recorded for a resume start (R418). -/
def State.extendMr (s : State) (i : Nat) (d : List Byte) : State :=
  let h := Config.sha384 (s.mr i ++ d)
  let s := (List.range 12).foldl
    (fun acc j => acc.wrN (Reg.VLT_MR i j) (natBE (bytesAt h (4 * j) 4))) s
  { s.bump Cnt.VLT_EXTENDS with vlt := { s.vlt with extends_ := s.vlt.extends_ ++ [(i, d)] } }

/-! ## Slots (R273, R277, R283, R284) -/

/-- The vault's STATE: 0 INIT, 1 READY, 2 DEAD, 3 ZEROIZING. -/
def State.vaultState (s : State) : Nat := s.fld Reg.VLT_STAT 0 2

/-- STATE of a slot: 0 EMPTY, 1 VALID, 2 INVALID, 3 ERROR. -/
def State.slotState (s : State) (n : Nat) : Nat := s.fld (Reg.VLT_SLOTSTAT n) 0 2

/-- The state with STATE of a slot set. -/
def State.setSlotState (s : State) (n v : Nat) : State := s.setFld (Reg.VLT_SLOTSTAT n) 0 2 v

/-- A slot's content. -/
def State.slot (s : State) (n : Nat) : VaultSlot := Store.get (fun _ => {}) s.vlt.slots n

/-- The state with a slot's content replaced. -/
def State.setSlot (s : State) (n : Nat) (v : VaultSlot) : State :=
  { s with vlt := { s.vlt with slots := Store.set (fun _ => {}) s.vlt.slots n v } }

/-- A field of a slot's policy. -/
def State.policy (s : State) (n lo width : Nat) : Nat := (s.slot n).policy / 2 ^ lo % 2 ^ width

/-- A bit of a slot's policy. -/
def State.policyBit (s : State) (n b : Nat) : Bool := Nat.testBit (s.slot n).policy b

/-! ### Records (R271, R272, R285) -/

/-- 64 bytes of a record as stored. -/
def recordBytes (bs : List Byte) : List Byte := (List.range 64).map (fun i => bs.getD i 0)

/-- The position of a slot's records in each sub-array. -/
def recordPos (root : List Byte) (n : Nat) : Nat := Config.vaultPosition root n % 512

/-- The address of a record of slot `n`: share 0 in sub-array 0, share 1 in sub-array 1. -/
def recordAddr (root : List Byte) (n share : Nat) : Nat :=
  0x10000000 + 0x8000 * share + 64 * recordPos root n

/-- A record as it is stored (R271): the share, policy and counter, with their tag, encrypted.
DESIGN CHOICE, unsafe (log entry 148). -/
def vaultRecord (root : List Byte) (n share : Nat) (v : VaultSlot) : List Byte :=
  let part := if share = 0 then List.zipWith (fun a b => a ^^^ b) v.value v.mask else v.mask
  let body := part ++ bytesBE 8 v.policy ++ bytesBE 8 v.counter
  let tag := (Config.cmac (Config.vaultKey root 0) (body ++ bytesBE 2 n ++ bytesBE 1 share)).take 16
  recordBytes (Config.xts true (Config.vaultKey root 1) (Config.vaultKey root 2)
    (bytesLE 16 (recordPos root n)) (body ++ tag))

/-- Both records of a slot are written with a fresh mask, under one commit. -/
def State.storeSlot (s : State) (n : Nat) : State :=
  let mask := (List.range 8).flatMap (fun i => bytesLE 4 (Config.freeWord (s.freeCtr + i)).toNat)
  let v := { s.slot n with mask := mask }
  let root := s.vlt.root
  (({ s with freeCtr := s.freeCtr + 8 }.setSlot n v).wrMem (recordAddr root n 0)
    (vaultRecord root n 0 v)).wrMem (recordAddr root n 1) (vaultRecord root n 1 v)

/-- The ancestors of a slot, nearest first: at most three (R283). -/
def State.ancestors (s : State) (n : Nat) : List Nat :=
  let up := fun k => if s.policy k 0 2 = 1 then [s.policy k 21 9] else []
  let a := up n
  let b := a.flatMap up
  a ++ b ++ b.flatMap up

/-- The slots that are not EMPTY, ascending. -/
def State.usedSlots (s : State) : List Nat :=
  ((Store.slice s.regs (Reg.VLT_SLOTSTAT 0) (Reg.VLT_SLOTSTAT 512) 0 (Reg.VLT_SLOTSTAT 0)).filter
    (fun e => getBits e.2 0 2 != 0)).map (fun e => e.1 / 4)

/-- INVALIDATE of a slot: it and every descendant, VALID or in ERROR, become INVALID, in ascending number; each
is signalled to the cipher engine (R284). -/
def State.invalidateSlot (s : State) (n : Nat) : State :=
  if s.slotState n ≠ 1 then s
  else
    (s.usedSlots.filter (fun k =>
        k == n || ((s.slotState k == 1 || s.slotState k == 3) && (s.ancestors k).contains n))).foldl
      (fun acc k =>
        (((acc.setSlotState k 2).bump Cnt.VLT_INVALIDATED).signalSlot k).fault 0x0202 0) s

/-- A slot becomes EMPTY: its records are overwritten, in the end with zeros (R285). -/
def State.emptyKeySlot (s : State) (n : Nat) : State :=
  (((s.setSlot n {}).wrN (Reg.VLT_SLOTSTAT n) 0).erase (recordAddr s.vlt.root n 0) 64).erase
    (recordAddr s.vlt.root n 1) 64

/-- The order of the base point of P-384. -/
def p384Order : Nat :=
  0xFFFFFFFFFFFFFFFFFFFFFFFFFFFFFFFFFFFFFFFFFFFFFFFFC7634D81F4372DDF581A0DB248B0A77AECEC196ACCC52973

/-- The identity key's private scalar, by FIPS 186-5 A.2.1 from the identity root (R275). -/
def identityScalar (root : List Byte) : List Byte :=
  bytesBE 48 (Config.identityBits root % (p384Order - 1) + 1)

/-- A word of VLT_IDPUB (R275). -/
def identityPub (root : List Byte) (i : Nat) : Word :=
  BitVec.ofNat 32 (natBE (bytesAt (Config.ecPublic (identityScalar root)) (4 * i) 4))

/-! ## Derivation (R281, R283) -/

/-- ASCII bytes of a string. -/
def ascii (t : String) : List Byte := t.toList.map (fun c => BitVec.ofNat 8 c.toNat)

/-- The derivation of `len` bytes from slot `n` with key `ki`, target and software context (R281). -/
def State.deriveFrom (s : State) (n : Nat) (ki : List Byte) (target len : Nat) (sw : List Byte) :
    List Byte :=
  let mrsel := s.policy n 13 8
  let mrs := ((List.range 8).filter (Nat.testBit mrsel)).flatMap s.mr
  let context := bytesBE 1 1 ++ bytesBE 1 target ++ bytesBE 2 (s.policy n 3 7 * 8) ++ bytesBE 2 n ++
    bytesBE 1 mrsel ++ bytesBE 1 len ++
    (if s.policyBit n 39 then List.replicate 16 0 else uidBytes) ++ bytesAt sw 0 32 ++ mrs
  (Config.hmac384 ki (bytesBE 4 1 ++ ascii "JZM VAULT KDF 01" ++ [0] ++ context ++
    bytesBE 4 (8 * len))).take len

/-- The effective key of a slot: a ROOT slot's key, or the derivation from its parent's (R283). -/
def State.effectiveKey (s : State) : Nat → Nat → List Byte
  | 0, n => (s.slot n).value
  | fuel + 1, n =>
    if s.policy n 0 2 = 1 then
      s.deriveFrom n (s.effectiveKey fuel (s.policy n 21 9)) 0 32 (s.slot n).value
    else (s.slot n).value

/-- A derivation has read slot `n` and its ancestors: their shares are written again with fresh masks (R272). -/
def State.reshare (s : State) (n : Nat) : State := (n :: s.ancestors n).foldl State.storeSlot s

/-- The tags of a slot fail: it becomes ERROR (R272). -/
def State.tagFailed (s : State) (n : Nat) : State := (s.setSlotState n 3).fault 0x2204 0

/-- The key that a derivation from slot `n` gives for a cipher key context (R281, R282). -/
def State.derivedKey (s : State) (n : Nat) (job : Bool) (sw : List Byte) : List Byte :=
  s.deriveFrom n (s.effectiveKey 3 n) (if job then 2 else 1) (if s.policyBit n 2 then 32 else 16) sw

/-! ## The command queue (R286, R287) -/

/-- The place of the BOOT block's path in the queue, served after channel 3 (R428). -/
def bootPath : Nat := 4

/-- The command of a channel. -/
def State.vltCmd (s : State) (c : Nat) : VaultCmd := Store.get (fun _ => {}) s.vlt.cmds c

/-- The state with a channel's command replaced. -/
def State.setVltCmd (s : State) (c : Nat) (v : VaultCmd) : State :=
  { s with vlt := { s.vlt with cmds := Store.set (fun _ => {}) s.vlt.cmds c v } }

/-- OP of a channel's command, and its arguments, as they stood at its GO. -/
def State.vltOp (s : State) (c : Nat) : Nat := (s.vltCmd c).op
def State.vltSlot (s : State) (c : Nat) : Nat := (s.vltCmd c).slot
def State.vltArg (s : State) (c : Nat) : Nat := (s.vltCmd c).arg

/-- STATE of a channel: 0 IDLE, 1 QUEUED, 2 RUNNING, 3 DONE. -/
def State.chanState (s : State) (c : Nat) : Nat := s.fld (Reg.VLT_CHSTAT c) 0 2

/-- Bytes of the register array of a clear message or a command buffer. -/
def State.regBytes (s : State) (k n : Nat) : List Byte :=
  (List.range n).map (fun i => byteOf (s.rdN (k + i / 4 * 4)) (i % 4))

/-- The vault takes up a command now: in INIT only EXTEND and VERIFY, in ZEROIZING none (R273). -/
def State.vaultServes (s : State) (c : Nat) : Bool :=
  match s.vaultState with
  | 0 => c == bootPath || s.vltOp c == 5 || s.vltOp c == 6
  | 3 => false
  | _ => true

/-- A command starts: it reads its buffer (R286). -/
def State.startVault (s : State) (c : Nat) : State :=
  let s := { s with vlt := { s.vlt with running := some c } }
  if c = bootPath then s
  else (s.setVltCmd c { s.vltCmd c with buf := s.regBytes (Reg.VLT_BUF c 0) 512 }).setFld
    (Reg.VLT_CHSTAT c) 0 2 2

/-- With no command running, the first that the vault serves starts (R286).
DEDUCED, unsafe (log entry 79). -/
def State.nextCommand (s : State) : State :=
  if s.vlt.running.isSome then s
  else
    match s.vlt.order.find? s.vaultServes with
    | some c => s.startVault c
    | none => s

/-- A command is in the queue no longer. -/
def State.leaveQueue (s : State) (c : Nat) : State :=
  { s with vlt := { s.vlt with
      order := s.vlt.order.filter (fun x => x != c)
      running := if s.vlt.running = some c then none else s.vlt.running } }

/-- A command ends with a result (R288). -/
def State.endVault (s : State) (c res : Nat) : State :=
  let k := Reg.VLT_CHSTAT c
  let s := s.leaveQueue c
  let s := ((((s.setFld k 0 2 3).setFld k 8 4 res).setBit k 13 true).monEvent 0x280)
  let s := if s.bit (Reg.VLT_CHCFG c) 0 then s.irq 152 else s
  s.nextCommand

/-- A write of VLT_CMD with GO: a channel QUEUED or RUNNING sets COLL; another OP ends BAD_ARG; else the
command is queued as it stands, with its master (R286, R288). -/
def State.vaultGo (s : State) (m : Master) (c : Nat) : State :=
  let op := s.fld (Reg.VLT_CMD c) 0 4
  if s.chanState c = 1 ∨ s.chanState c = 2 then s.setBit (Reg.VLT_CHSTAT c) 12 true
  else if op = 0 ∨ 7 < op then s.endVault c 1
  else
    let s := (s.setFld (Reg.VLT_CHSTAT c) 0 2 1).setFld (Reg.VLT_CHSTAT c) 8 4 0
    let s := s.setVltCmd c
      { op := op, slot := s.fld (Reg.VLT_CMD c) 8 9, arg := s.fld (Reg.VLT_ARG c) 0 11
        pmid := m.pmid.toNat }
    { s with vlt := { s.vlt with order := s.vlt.order ++ [c] } }.nextCommand

end Sys2Proof.Machine
end

