-- ==== Sys2Proof/Machine/Vcdiff.lean ====
section
/-!
DEFINITION. The patch engine's VCDIFF decoder: RFC 3284 in the subset of R423. A prefix of a stream
gives the output of the windows that it holds whole.
-/

namespace Sys2Proof.Machine

open Sys2Proof

/-- A stream integer of RFC 3284: 7 bits a byte, most significant first; the value and the rest. At most
five bytes. -/
def vcInt : Nat → Nat → List Byte → Option (Nat × List Byte)
  | 0, _, _ => none
  | _, _, [] => none
  | fuel + 1, acc, b :: t =>
    let v := acc * 128 + b.toNat % 128
    if 128 ≤ b.toNat then vcInt fuel v t else some (v, t)

/-- What one half of an instruction of the default code table does. -/
inductive VcOp where
  | noop
  | add (size : Nat)
  | run (size : Nat)
  | copy (size mode : Nat)
  deriving DecidableEq, Repr

/-- The default code table (RFC 3284 section 5.6): a size of 0 is read from the instructions. -/
def vcCode (i : Nat) : VcOp × VcOp :=
  if i = 0 then (.run 0, .noop)
  else if i < 19 then (.add (i - 1), .noop)
  else if i < 163 then
    let k := (i - 19) % 16
    (.copy (if k = 0 then 0 else k + 3) ((i - 19) / 16), .noop)
  else if i < 235 then
    let k := (i - 163) % 12
    (.add (1 + k / 3), .copy (4 + k % 3) ((i - 163) / 12))
  else if i < 247 then (.add (1 + (i - 235) % 4), .copy 4 (6 + (i - 235) / 4))
  else (.copy 4 (i - 247), .add 1)

/-- The address cache with s_near 4 and s_same 3. -/
structure VcCache where
  near : List Nat := [0, 0, 0, 0]
  next : Nat := 0
  same : List Nat := List.replicate 768 0
  deriving DecidableEq, Repr

/-- The cache after an address. -/
def VcCache.update (c : VcCache) (a : Nat) : VcCache :=
  { near := setAt c.near c.next a, next := (c.next + 1) % 4, same := setAt c.same (a % 768) a }

/-- The decoder within a window: what is left of its three sections, the cache, and the target window
so far, newest byte first. -/
structure VcWindow where
  data : List Byte
  inst : List Byte
  addr : List Byte
  cache : VcCache := {}
  rev : List Byte := []
  deriving DecidableEq, Repr

/-- A COPY address in a mode, and the rest of the addresses. -/
def vcAddress (w : VcWindow) (src mode : Nat) : Option (Nat × List Byte) :=
  let here := src + w.rev.length
  if 6 ≤ mode then
    match w.addr with
    | [] => none
    | b :: t => some (w.cache.same.getD ((mode - 6) * 256 + b.toNat) 0, t)
  else
    match vcInt 5 0 w.addr with
    | none => none
    | some (v, t) =>
      if mode = 0 then some (v, t)
      else if mode = 1 then if v ≤ here then some (here - v, t) else none
      else some (w.cache.near.getD (mode - 2) 0 + v, t)

/-- `n` bytes copied from address `a` of source segment followed by target window, byte by byte, so
that a copy may overlap its own output. -/
def vcCopy (src : List Byte) (a : Nat) (rev : List Byte) : Nat → List Byte
  | 0 => rev
  | n + 1 =>
    let b := if a < src.length then src.getD a 0
      else rev.getD (rev.length - 1 - (a - src.length)) 0
    vcCopy src (a + 1) (b :: rev) n

/-- One half of an instruction. -/
def vcHalf (src : List Byte) (op : VcOp) (w : VcWindow) : Option VcWindow :=
  let sized := fun (n : Nat) => if n = 0 then vcInt 5 0 w.inst else some (n, w.inst)
  match op with
  | .noop => some w
  | .add n =>
    match sized n with
    | none => none
    | some (n, rest) =>
      if w.data.length < n then none
      else some { w with inst := rest, rev := (w.data.take n).reverse ++ w.rev, data := w.data.drop n }
  | .run n =>
    match sized n, w.data with
    | some (n, rest), b :: t =>
      some { w with inst := rest, rev := List.replicate n b ++ w.rev, data := t }
    | _, _ => none
  | .copy n mode =>
    match sized n with
    | none => none
    | some (n, rest) =>
      match vcAddress w src.length mode with
      | none => none
      | some (a, addrs) =>
        if src.length + w.rev.length ≤ a then none
        else
          some { w with inst := rest, addr := addrs, cache := w.cache.update a,
                        rev := vcCopy src a w.rev n }

/-- The instructions of a window, each consuming at least one byte. -/
def vcRun (src : List Byte) : Nat → VcWindow → Option VcWindow
  | 0, _ => none
  | fuel + 1, w =>
    match w.inst with
    | [] => some w
    | b :: t =>
      let c := vcCode b.toNat
      match vcHalf src c.1 { w with inst := t } with
      | none => none
      | some w =>
        match vcHalf src c.2 w with
        | none => none
        | some w => if 65536 < w.rev.length then none else vcRun src fuel w

/-- What a decoder step says of its input. -/
inductive VcResult (α : Type) where
  | ok (a : α)
  | more
  | bad
  deriving DecidableEq, Repr

/-- A stream integer, or whether more bytes are needed. -/
def vcNext (bs : List Byte) : VcResult (Nat × List Byte) :=
  match vcInt 5 0 bs with
  | some r => .ok r
  | none => if 5 ≤ bs.length then .bad else .more

/-- One delta encoding (RFC 3284 section 4.3) of `len` bytes over a source segment. -/
def vcDelta (src : List Byte) (enc : List Byte) : Option (List Byte) :=
  match vcInt 5 0 enc with
  | some (target, ind :: t) =>
    if ind ≠ 0 ∨ 65536 < target then none
    else
      match vcInt 5 0 t with
      | none => none
      | some (nd, t) =>
        match vcInt 5 0 t with
        | none => none
        | some (ni, t) =>
          match vcInt 5 0 t with
          | none => none
          | some (na, t) =>
            if nd + ni + na ≠ t.length then none
            else
              match vcRun src (ni + 1)
                  { data := t.take nd, inst := (t.drop nd).take ni, addr := t.drop (nd + ni) } with
              | none => none
              | some w => if w.rev.length = target then some w.rev.reverse else none
  | _ => none

/-- The source segment of a window: by VCD_SOURCE from the base, at most 16 MiB, by VCD_TARGET from the
output so far; both within what exists. -/
def vcSource (base out : List Byte) (ind : Nat) (bs : List Byte) :
    VcResult (List Byte × List Byte) :=
  if ind = 0 then .ok ([], bs)
  else if 3 ≤ ind then .bad
  else
    match vcNext bs with
    | .bad => .bad
    | .more => .more
    | .ok (size, t) =>
      match vcNext t with
      | .bad => .bad
      | .more => .more
      | .ok (pos, t) =>
        let from_ := if ind = 1 then base else out
        if from_.length < pos + size ∨ (ind = 1 ∧ 16777216 < size) then .bad
        else .ok ((from_.drop pos).take size, t)

/-- One window: its output and the rest of the stream. -/
def vcWindow (base out : List Byte) : List Byte → VcResult (List Byte × List Byte)
  | [] => .more
  | ind :: t =>
    match vcSource base out ind.toNat t with
    | .bad => .bad
    | .more => .more
    | .ok (src, t) =>
      match vcNext t with
      | .bad => .bad
      | .more => .more
      | .ok (len, t) =>
        if t.length < len then .more
        else
          match vcDelta src (t.take len) with
          | some o => .ok (o, t.drop len)
          | none => .bad

/-- The windows of a stream: the output so far, and whether the stream ends with a whole window. -/
def vcWindows (base : List Byte) : Nat → List Byte → List Byte → Option (List Byte × Bool)
  | 0, _, _ => none
  | _, out, [] => some (out, true)
  | fuel + 1, out, bs =>
    match vcWindow base out bs with
    | .bad => none
    | .more => some (out, false)
    | .ok (o, rest) => vcWindows base fuel (out ++ o) rest

/-- The header (R423): magic, indicator, an application header skipped. -/
def vcHeader (bs : List Byte) : VcResult (List Byte) :=
  if bs.length < 5 then
    (if bs = ([0xD6, 0xC3, 0xC4, 0x00] : List Byte).take bs.length then .more else .bad)
  else if bs.take 4 ≠ [0xD6, 0xC3, 0xC4, 0x00] then .bad
  else
    match (bs.getD 4 0).toNat with
    | 0 => .ok (bs.drop 5)
    | 4 =>
      match vcNext (bs.drop 5) with
      | .bad => .bad
      | .more => .more
      | .ok (n, t) => if t.length < n then .more else .ok (t.drop n)
    | _ => .bad

/-- The output of the whole windows of a stream's prefix, and whether the prefix ends with one; none when
the stream holds a rejected construct (R423). -/
def vcdiff (base bs : List Byte) : Option (List Byte × Bool) :=
  match vcHeader bs with
  | .bad => none
  | .more => some ([], false)
  | .ok rest => vcWindows base (rest.length + 1) [] rest

end Sys2Proof.Machine
end

