-- ==== Sys2Proof/Machine/BootOps.lean ====
section
/-!
DEFINITION. The shared operations of boot, update and the black box: the boot state, manifests and their
checks, anti-rollback counters, the session lock and its abort, and the black-box writer (R407 to R438).
-/

namespace Sys2Proof.Machine

open Sys2Proof

/-! ## Boot state and session (R410, R426, R440) -/

/-- BOOT_STATE fields. -/
def State.activeSlot (s : State) : Nat := s.fld Reg.BOOT_STATE 0 1
def State.pendingSlot (s : State) : Nat := s.fld Reg.BOOT_STATE 1 1
def State.trial (s : State) : Bool := s.bit Reg.BOOT_STATE 2
def State.inactiveSlot (s : State) : Nat := 1 - s.activeSlot

/-- BOOT_SESSION.STATE: 0 IDLE, 1 OPEN, 2 STREAMING, 3 INSTALLED, 4 TRIAL. -/
def State.session (s : State) : Nat := s.fld Reg.BOOT_SESSION 0 3

/-- The channel holding the lock. -/
def State.lockHolder (s : State) : Nat := s.fld Reg.BOOT_SESSION 4 2

/-- The session state is set. -/
def State.setSession (s : State) (v : Nat) : State := s.setFld Reg.BOOT_SESSION 0 3 v

/-- Progress restarts the 10-minute timer (R426). -/
def State.progress (s : State) : State := { s with boot := { s.boot with progressAt := s.nowNs } }

/-- Whole seconds since the last progress of the session (R426). -/
def State.idleSeconds (s : State) : Nat := (s.nowNs - s.boot.progressAt) / 1000000000

/-- A record of the boot or update events, TYPE 3 or 4: its event code and DATA layout are open. -/
def State.bootRecord (s : State) (type : Nat) : State :=
  let n := s.freeCtr
  { s with freeCtr := n + 9 }.blackBox type ((Config.freeWord n).toNat % 65536) false 0x33
    ((List.range 8).map (fun i => Config.freeWord (n + 1 + i)))

/-- The command of an update channel ends with a result (R440). -/
def State.endUpdate (s : State) (ch res : Nat) : State :=
  let k := Reg.BOOT_SSTAT ch
  (((s.setBit k 0 false).setBit k 1 true).setFld k 8 4 res).irq 376

/-! ## Manifest verifications in the vault's queue (R287, R428) -/

/-- An OPEN that waits puts its verification into the vault's queue, one at a time. -/
def State.queueManifest (s : State) : State :=
  if s.boot.opens.isEmpty || s.vlt.order.contains bootPath then s.nextCommand
  else { s with vlt := { s.vlt with order := s.vlt.order ++ [bootPath] } }.nextCommand

/-- The verification in the queue ends without a result of its own: its OPEN ends ABORTED.
DESIGN CHOICE, unsafe (log entry 149). -/
def State.failManifest (s : State) : State :=
  let s := s.leaveQueue bootPath
  match s.boot.opens with
  | [] => s.nextCommand
  | (ch, _) :: rest =>
    ({ s with boot := { s.boot with opens := rest } }.endUpdate ch 14).queueManifest

/-! ## Flash and manifests (R411, R420, R421) -/

/-- First address of slot A, slot B, or the recovery region. -/
def slotBase (slot : Nat) : Nat :=
  if slot = 0 then 0x61000000 else if slot = 1 then 0x68800000 else 0x60000000

/-- Bytes of a slot, or of the recovery region. -/
def slotSize (slot : Nat) : Nat := if slot < 2 then 0x7800000 else 0x1000000

/-- Fields of a manifest. -/
def manCount (m : List Byte) : Nat := natAt m 6 2
def manFlag (m : List Byte) (b : Nat) : Bool := Nat.testBit (natAt m 0xD 1) b
def manLength (m : List Byte) : Nat := 260 + 128 * manCount m

/-- A field of component `i`, and its hashes. -/
def comp (m : List Byte) (i off len : Nat) : Nat := natAt m (0x40 + 128 * i + off) len
def compBase (m : List Byte) (i : Nat) : List Byte := bytesAt m (0x40 + 128 * i + 0x20) 48
def compResult (m : List Byte) (i : Nat) : List Byte := bytesAt m (0x40 + 128 * i + 0x50) 48

/-- All bytes are zero. -/
def allZero (bs : List Byte) : Bool := bs.all (fun b => b == 0)

/-- One component entry is as R421 states. -/
def compOk (m : List Byte) (slot i : Nat) : Bool :=
  let ty := comp m i 2 1
  let out := comp m i 0x18 4
  let dest := comp m i 0x1C 4
  decide (1 ≤ ty ∧ ty ≤ 9) && decide (comp m i 3 1 ≤ 1) && decide (comp m i 4 1 < 64) &&
    comp m i 5 3 == 0 && (comp m i 3 1 == 1 || allZero (compBase m i)) &&
    dest % 4096 == 0 && decide (0x2000 ≤ dest) && decide (dest + out ≤ slotSize slot) &&
    (ty != 1 || decide (out ≤ 0x100000)) && (ty != 2 || decide (out ≤ 0x4000000))

/-- The regions of two components overlap. -/
def compsMeet (m : List Byte) (i j : Nat) : Bool :=
  decide (comp m i 0x1C 4 < comp m j 0x1C 4 + comp m j 0x18 4) &&
    decide (comp m j 0x1C 4 < comp m i 0x1C 4 + comp m i 0x18 4)

/-- The structure of a manifest is as R420 and R421 state. -/
def manifestOk (m : List Byte) : Bool :=
  let n := manCount m
  let rec_ := manFlag m 2
  let ix := List.range n
  let slot := if rec_ then 2 else 0
  natAt m 0 4 == 0x4C444D31 && natAt m 4 2 == 1 && decide (1 ≤ n ∧ n ≤ 32) &&
    natAt m 8 4 == manLength m && decide (manLength m ≤ m.length) &&
    (if rec_ then natAt m 0xC 1 == 2 else natAt m 0xC 1 == 1) && decide (natAt m 0xD 1 < 8) &&
    (manFlag m 1 || natAt m 0x2A 2 == 0) && decide (natAt m 0x2A 2 < 512) &&
    natAt m 0x2C 20 == 0 && natAt m (0x40 + 128 * n + 97) 3 == 0 &&
    ix.all (fun i => compOk m slot i &&
      ix.all (fun j => i == j || (comp m i 0 2 != comp m j 0 2 && !compsMeet m i j))) &&
    (ix.filter (fun i => comp m i 2 1 == (if rec_ then 9 else 1))).length == 1

/-- The manifest bytes installed in a slot, or none: the slot is empty (R411). -/
def State.slotManifest (s : State) (slot : Nat) : Option (List Byte) :=
  let head := s.rdBytes (slotBase slot) 16
  let m := s.rdBytes (slotBase slot) (min 8192 (manLength head))
  if manifestOk m then some m else none

/-- The digest that is signed, and the digest of the manifest bytes. -/
def manSigned (m : List Byte) : List Byte := Config.sha384 (m.take (manLength m - 96))
def manDigest (m : List Byte) : List Byte := Config.sha384 (m.take (manLength m))

/-- The signature of a manifest against an anchor (R414, R427). -/
def State.manVerifies (s : State) (m : List Byte) (a : Nat) : Bool :=
  let n := 0x40 + 128 * manCount m
  s.verifyWith a (bytesAt m n 97) (manSigned m) (bytesAt m (n + 100) 96) == 0

/-- UID and VARIANTS allow this module (R414). -/
def State.manTargets (s : State) (m : List Byte) : Bool :=
  (allZero (bytesAt m 0x10 16) || bytesAt m 0x10 16 == uidBytes) &&
    Nat.testBit (natAt m 0xE 2) (variantCode s.variant)

/-- Erase the manifest area of a slot: the slot is empty. -/
def State.emptyBootSlot (s : State) (slot : Nat) : State := s.erase (slotBase slot) 8192

/-! ## Anti-rollback counters (R409, R410, R424) -/

/-- The value of a commit word: none when its halves are no complements (R409). -/
def State.commitWord (s : State) (a : Nat) : Option Nat :=
  let v := s.rdMem32 a
  if s.rdMem32 (a + 4) = 0xFFFFFFFF - v then some v else none

/-- Write a commit word. -/
def State.setCommitWord (s : State) (a v : Nat) : State :=
  s.wrMem a (bytesLE 4 v ++ bytesLE 4 (0xFFFFFFFF - v % 2 ^ 32))

/-- Anti-rollback counter `i`; invalid, it reads 0xFFFF_FFFF (R410). -/
def State.arc (s : State) (i : Nat) : Nat := (s.commitWord (0x10011200 + 8 * i)).getD 0xFFFFFFFF

/-- Raise the counters that an image's components name (R424). -/
def State.raiseArcs (s : State) (m : List Byte) : State :=
  (List.range (manCount m)).foldl (fun acc i =>
    let c := comp m i 4 1
    if acc.arc c < comp m i 8 4 then acc.setCommitWord (0x10011200 + 8 * c) (comp m i 8 4) else acc) s

/-- Every SECVER is at least its counter. -/
def State.arcsAllow (s : State) (m : List Byte) : Bool :=
  (List.range (manCount m)).all (fun i => decide (s.arc (comp m i 4 1) ≤ comp m i 8 4))

/-! ## Aborting a session (R426, R431) -/

/-- Abort of the session: the lock is released, the inactive slot is left empty, fault 0x03C1. In TRIAL
it also clears TRIAL. -/
def State.abortSession (s : State) : State :=
  if s.session == 0 then s
  else
    let s := if s.session == 4 then s.setBit Reg.BOOT_STATE 2 false else s
    let s := (s.wr Reg.BOOT_SESSION 0).emptyBootSlot s.inactiveSlot
    let s := { s with boot := { s.boot with manifest := [], payload := [], complete := false } }
    ((s.bump Cnt.BOOT_ABORTS).fault 0x03C1 0).bootRecord 4

/-- The segment that waits is dropped, and its command ends ABORTED. -/
def State.dropSegment (s : State) : State :=
  match s.boot.segment with
  | some (ch, _) => { s with boot := { s.boot with segment := none } }.endUpdate ch 14
  | none => s

/-- The Core die is held in reset: its islands stop. -/
def State.holdCore (s : State) : State :=
  let s := coreIslands.foldl (fun acc i => acc.setIsland i .stopped) s
  { s with coreHeld := true, reports := [] }

/-! ## The black box (R434 to R438) -/

/-- First address of the black-box partition. -/
def boxBase : Nat := 0x10400000

/-- SEQ of the newest record: NVS_BBHEAD. -/
def State.boxSeq (s : State) : Nat := s.rdN Reg.NVS_BBHEAD_L + 2 ^ 32 * s.rdN Reg.NVS_BBHEAD_H

/-- The export mark and the clear counter, in the monotonic counters partition (R410). -/
def State.exportMark (s : State) : Nat := natLE (s.rdBytes 0x10011188 8)
def State.clearCounter (s : State) : Nat := (s.commitWord 0x10011190).getD 0xFFFFFFFF

/-- A slot lies in a freeze area: from its first slot around to its last. -/
def inArea (a : FreezeArea) (slot : Nat) : Bool :=
  decide ((65536 + slot - a.first) % 65536 ≤ (65536 + a.last - a.first) % 65536)

/-- The slot a record goes to: the one after the newest, moved past each freeze area held (R436). -/
def State.boxSlot (s : State) : Nat :=
  (List.range 33).foldl (fun slot _ =>
    match s.box.areas.find? (fun a => inArea a slot) with
    | some a => (a.last + 1) % 65536
    | none => slot) ((s.box.slot + 1) % 65536)

/-- The number of freeze areas held shows in NVS_BBSTAT. -/
def State.showAreas (s : State) : State := s.setFld Reg.NVS_BBSTAT 0 6 s.box.areas.length

/-- The words 0 to 13 of a record (R435). -/
def State.boxWords (s : State) (r : BoxRecord) (seq : Nat) : List Nat :=
  [seq % 2 ^ 32, seq / 2 ^ 32 % 2 ^ 32,
    r.code % 65536 + r.type % 256 * 2 ^ 16 + 2 ^ 24 * b2n r.freeze + 2 ^ 25 * b2n r.rtcBad +
      r.pmid % 64 * 2 ^ 26,
    r.rtcSec % 2 ^ 32, r.rtcTicks % 32768 + s.rdN Reg.BOOT_STARTS % 65536 * 65536, r.ns % 2 ^ 32] ++
  (List.range 8).map (fun i => (r.data.getD i 0).toNat)

/-- A record is written: its slot, its SEQ, its commit word, and the freeze area it opens (R435, R436). -/
def State.writeRecord (s : State) (r : BoxRecord) : State :=
  let seq := (s.boxSeq + 1) % 2 ^ 64
  let slot := s.boxSlot
  let body := (s.boxWords r seq).flatMap (bytesLE 4)
  let s := s.wrMem (boxBase + 64 * slot)
    (body ++ bytesLE 4 (crc32c body) ++ bytesLE 4 (0xFFFFFFFF - seq % 2 ^ 32))
  let s := (s.wrN Reg.NVS_BBHEAD_L (seq % 2 ^ 32)).wrN Reg.NVS_BBHEAD_H (seq / 2 ^ 32)
  let areas := s.box.areas.map (fun a => if seq ≤ a.seq + 1024 then { a with last := slot } else a)
  let room := decide (areas.length < 32)
  let areas := if r.freeze && room then areas ++ [⟨seq, slot, slot⟩] else areas
  let s := { s with box := { s.box with slot := slot, areas := areas } }.showAreas
  let s := (s.bump Cnt.NVS_BB_RECORDS).monEvent 0x283
  if r.freeze && !room then (s.setBit Reg.NVS_BBSTAT 8 true).fault 0x0384 0 else s

/-- The LOST record that carries the count of lost records; the rest of its content is open. -/
def State.lostRecord (s : State) : State :=
  let n := s.freeCtr
  let s := { s with freeCtr := n + 9 }
  let r : BoxRecord :=
    { type := 8, code := (Config.freeWord n).toNat % 65536, freeze := false,
      pmid := (Config.freeWord (n + 8)).toNat % 64,
      rtcBad := !s.rtcValid, rtcSec := s.rtcSec, rtcTicks := s.rtcTicks % 32768, ns := s.dom0Ns,
      data := BitVec.ofNat 32 s.bbLost ::
        (List.range 7).map (fun i => Config.freeWord (n + 1 + i)) }
  { s.writeRecord r with bbLost := 0 }

/-- SEQ of the record in a slot. -/
def State.slotSeq (s : State) (slot : Nat) : Nat := natLE (s.rdBytes (boxBase + 64 * slot) 8)

/-- The checks of a CLEAR in order: CLRRES, 0 when all pass (R438).
DEDUCED, unsafe (log entry 111). -/
def State.clearCheck (s : State) (m : List Byte) : Nat :=
  if natAt m 0 4 ≠ 0x42424331 ∨ natAt m 4 2 ≠ 1 ∨ natAt m 6 2 ≠ 0 ∨ natAt m 0x89 3 ≠ 0 then 1
  else
    match s.verifyWith 4 (bytesAt m 0x28 97) (Config.sha384 (m.take 0x8C)) (bytesAt m 0x8C 96) with
    | 0 =>
      if bytesAt m 8 16 ≠ uidBytes then 3
      else if natAt m 0x20 8 ≠ s.clearCounter + 1 then 4
      else if s.exportMark < natAt m 0x18 8 then 5
      else 0
    | e => e

/-- Zeros over every record with SEQ ≤ `upto`. -/
def State.clearRecords (s : State) (upto : Nat) : State :=
  { s with
    mem := s.mem.filter (fun e =>
      !(decide (boxBase ≤ e.1) && decide (e.1 < boxBase + 0x400000) &&
        decide (s.slotSeq ((e.1 - boxBase) / 64) ≤ upto))) }

end Sys2Proof.Machine
end

