-- ==== Sys2Proof/Machine/PowerOps.lean ====
section
/-!
DEFINITION. The power dies: channels, switching, trips, last-state hold and what a die does with
each command (R355, R359, R368 to R377).
-/

namespace Sys2Proof.Machine

open Sys2Proof

/-- A channel by OUT number. -/
def State.chan (s : State) (n : Nat) : Channel := Store.get (fun _ => {}) s.power.channels n

/-- DESIRED 1, ACTUAL 0, LATCH 0 and HOLD 0: the collector supervises the channel (R455). -/
def Channel.watched (c : Channel) : Bool := c.desired && !c.on && !c.latch && !c.hold

/-- The channel's Mogul sequence has a retry requested or granted. -/
def Channel.asks (c : Channel) : Bool := c.restart.any (fun r => !r.restore)

/-- A channel with its supervision at a time: the timer runs while it is watched, and pauses while its
Mogul sequence asks for a retry (R455). -/
def Channel.timed (now : Nat) (c : Channel) : Channel :=
  if c.watched then
    { c with
      offSince := some (c.offSince.getD now)
      paused := if c.asks then c.paused else c.paused + (now - c.askedAt.getD now)
      askedAt := if c.asks then some (c.askedAt.getD now) else none }
  else { c with offSince := none, paused := 0, askedAt := none, overdue := false }

/-- The time for which supervision has run, with at most `grace` ns of pauses (R455). -/
def Channel.silence (now grace : Nat) (c : Channel) : Nat :=
  now - c.offSince.getD now - Nat.min grace (c.paused + (now - c.askedAt.getD now))

/-- The state with a channel replaced. -/
def State.setChan (s : State) (n : Nat) (c : Channel) : State :=
  { s with power := { s.power with
      channels := Store.set (fun _ => {}) s.power.channels n (c.timed s.nowNs) } }

/-- A power die. -/
def State.die (s : State) (d : Nat) : PowerDie := if d = 0 then s.power.dieA else s.power.dieB

/-- The state with a power die replaced. -/
def State.setDie (s : State) (d : Nat) (v : PowerDie) : State :=
  if d = 0 then { s with power := { s.power with dieA := v } }
  else { s with power := { s.power with dieB := v } }

/-- The classes of R355, by local channel number. -/
inductive ChanClass where
  | h | m | l
  deriving DecidableEq, Repr

/-- The class of local channel `c` (R355). -/
def chanClass (c : Nat) : ChanClass := if c < 4 then .h else if c < 12 then .m else .l

/-- The thermal group of local channel `c` (R355). -/
def thermalGroup (c : Nat) : Nat := if c < 4 then c else if c < 12 then (c - 4) / 2 else (c - 12) / 3

/-- Typical fast limit of a class in units of 0.25 A (R356). -/
def fastLevel : ChanClass → Nat
  | .h => 480 | .m => 192 | .l => 60

/-- Continuous current of a class in mA (R356). -/
def continuousMa : ChanClass → Nat
  | .h => 20000 | .m => 8000 | .l => 2500

/-- Runout base current in mA and limit in units of 10^-11 A²s (R373). -/
def runoutOf : ChanClass → Nat × Nat
  | .h => (22000, 24000 * 10 ^ 11)
  | .m => (9000, 4000 * 10 ^ 11)
  | .l => (2800, 400 * 10 ^ 11)

/-- Bit numbers of PWC_CHSTAT.CAUSE. -/
inductive TripCause where
  | fast | inst | model | therm | runout | soft | mogul
  deriving DecidableEq, Repr

/-- The bit of a cause in CAUSE. -/
def TripCause.bit : TripCause → Nat
  | .fast => 0 | .inst => 1 | .model => 2 | .therm => 3 | .runout => 4 | .soft => 5 | .mogul => 6

/-- A cause mask with one cause added. -/
def addCause (mask : Nat) (c : TripCause) : Nat := mask ||| 2 ^ c.bit

/-- The thread that serves channel `n`: PWC_CHCFG.THREAD (R358). -/
def State.chanThread (s : State) (n : Nat) : Nat := s.fld (Reg.PWC_CHCFG (n / 24) (n % 24)) 0 2

/-- The channel is in last-state hold, of its own or of its die (R375). -/
def State.chanHeld (s : State) (n : Nat) : Bool := (s.chan n).hold || (s.die (n / 24)).hold

/-- PWC_MOGUL.RETRIES of a channel. -/
def State.retries (s : State) (n : Nat) : Nat := s.fld (Reg.PWC_MOGUL (n / 24) (n % 24)) 0 4

/-- The PWM settings of a channel are legal (R377). -/
def State.pwmLegal (s : State) (n : Nat) : Bool :=
  let per := s.fld (Reg.PWC_PWMPER (n / 24) (n % 24)) 0 27
  decide (500000 ≤ per) && decide (per ≤ 100000000) && decide (1000000000 % per = 0) &&
    decide (s.fld (Reg.PWC_PWMPHASE (n / 24) (n % 24)) 0 27 < per)

/-- The instantaneous level in force, in units of 0.25 A; in hold the fast limit alone remains (R368, R380).
DEDUCED, unsafe (log entry 100). -/
def State.chanLevel (s : State) (n : Nat) : Nat :=
  let c := s.chan n
  let k := Reg.PWC_LEVELS (n / 24) (n % 24)
  let fast := fastLevel (chanClass (n % 24))
  if s.chanHeld n then fast
  else if c.elev then Nat.min (s.fld k 0 10 + c.used * s.fld k 10 10) fast
  else if s.fld k 20 10 = 0 then fast else s.fld k 20 10

/-- A channel's switch closes: an attempt of its sequence (R368), or its PWM runs (R377). While
its die is off for a load dump the channel waits for restoration (R379). -/
def State.switchOn (s : State) (n : Nat) : State :=
  let c := s.chan n
  if (s.die (n / 24)).dump then s.setChan n { c with dumped := true }
  else
    let pwm := s.bit (Reg.PWC_CHCFG (n / 24) (n % 24)) 2 && !c.badPwm
    s.setChan n
      { c with
        on := true
        elev := true
        cooling := false
        onAt := s.nowNs
        pwm := pwm
        duty := if pwm then c.nextDuty else 0
        period := if pwm then s.fld (Reg.PWC_PWMPER (n / 24) (n % 24)) 0 27 else 0
        level := !pwm }

/-- A channel with its switch opened. -/
def Channel.off (c : Channel) : Channel :=
  { c with on := false, level := false, elev := false, pwm := false, duty := 0, period := 0 }

/-- A channel latched off: no retry of it is left pending. -/
def Channel.latched (c : Channel) : Channel :=
  { c.off with latch := true, tripped := none, restart := none, cooling := false, sequence := false }

/-- The counter of a trip cause on a channel page (R382). -/
def tripCounter (n : Nat) : TripCause → Option Nat
  | .fast => some (Cnt.PWCCH_TRIP_FAST (n / 24) (n % 24))
  | .inst => some (Cnt.PWCCH_TRIP_INST (n / 24) (n % 24))
  | .model => some (Cnt.PWCCH_TRIP_MODEL (n / 24) (n % 24))
  | .therm => some (Cnt.PWCCH_TRIP_THERM (n / 24) (n % 24))
  | .runout => some (Cnt.PWCCH_TRIP_RUNOUT (n / 24) (n % 24))
  | .soft | .mogul => none

/-- Count a trip, an event of MON (R382, R462). -/
def State.countTrip (s : State) (n : Nat) (k : TripCause) : State :=
  let s := s.monEvent (0x381 + 2 * n)
  match tripCounter n k with
  | some c => s.bump c
  | none => s

/-- A channel latches because no retry is left: causes MOGUL and the trip's own, and fault 0x0310
(R369, R371). -/
def State.latchMogul (s : State) (n : Nat) : State :=
  let c := s.chan n
  (s.setChan n { c.latched with cause := addCause c.cause .mogul }).fault 0x0310 n

/-- A channel trips with a cause (R369, R371, R373, R375). -/
def State.tripChan (s : State) (n : Nat) (k : TripCause) : State :=
  let s := s.countTrip n k
  let c := { s.chan n with cause := addCause (s.chan n).cause k, tripAt := s.nowNs, tripBit := k.bit }
  match k with
  | .model | .runout | .soft | .mogul => s.setChan n c.latched
  | .therm =>
    if c.thLatch || s.chanHeld n then s.setChan n c.latched
    else s.setChan n { c.off with cooling := true }
  | .fast | .inst =>
    if s.chanHeld n || !c.sequence then s.setChan n c.off
    else if c.used < s.retries n then s.setChan n { c.off with tripped := some s.nowNs }
    else (s.setChan n c).latchMogul n

/-- A channel without a retry of any kind pending (R375, R380). -/
def Channel.noRetry (c : Channel) : Channel :=
  { c with sequence := false, tripped := none, restart := none, cooling := false, elev := false }

/-- A channel that enters last-state hold: no retry runs; a restoration after a load dump stays due (R375,
R380). -/
def Channel.held (c : Channel) : Channel :=
  { c.noRetry with restart := c.restart.filter (fun r => r.restore) }

/-- A channel enters last-state hold (R360, R365, R375). -/
def State.holdChan (s : State) (n : Nat) : State :=
  if s.chanHeld n then s
  else
    ((s.setChan n { (s.chan n).held with hold := true }).bump
      (Cnt.PWC_HOLD_ENTRY (n / 24))).fault 0x2319 n

/-- A power die that is there and powered: it acts on its channels. A reversed die counts as absent (R6,
R379). -/
def State.dieWorks (s : State) (d : Nat) : Bool := s.hasDie d && !(s.die d).reversed

/-- An event of a channel in its die: an absent or unpowered die has none (R2, R6, R379). -/
def atOut (n : Nat) (eff : State → State) (s : State) : State := if s.dieWorks (n / 24) then eff s else s

/-- A cause of a channel's interrupt sets in its PWC_CHSTAT (R340). -/
def State.chanFlag (s : State) (n b : Nat) : State :=
  (s.setBit (Reg.PWC_CHSTAT (n / 24) (n % 24)) b true).irq (288 + 32 * (n / 24) + n % 24)

/-- A cause of a die's summary interrupt sets in its PWC_DIESTATE (R340). -/
def State.dieFlag (s : State) (d b : Nat) : State :=
  (s.setBit (Reg.PWC_DIESTATE d) b true).irq (288 + 32 * d + 24)

/-- The OUT numbers of a die. -/
def dieOuts (d : Nat) : List Nat := (List.range 24).map (fun c => 24 * d + c)

/-- A die enters die-wide last-state hold (R375).
DEDUCED, unsafe (log entry 100). -/
def State.holdDie (s : State) (d : Nat) : State :=
  if (s.die d).hold then s
  else
    let s := (dieOuts d).foldl (fun acc n => acc.setChan n (acc.chan n).held) s
    ((s.setDie d { s.die d with hold := true, heldSince := true }).bump
      (Cnt.PWC_HOLD_ENTRY d)).fault 0x3319 d

/-- One entry of the digest of R376. -/
def digestEntry (c : Channel) : List Byte :=
  bytesLE 4 (b2n c.on + 2 * b2n c.pwm + 4 * b2n c.latch + 8 * (c.cause % 128)
      + (if c.pwm then 65536 * (c.duty % 65536) else 0))
    ++ bytesLE 4 (if c.pwm then c.period % 2 ^ 27 else 0)

/-- The digest of the state a die holds (R376). -/
def State.dieDigest (s : State) (d : Nat) : Nat :=
  crc32c ((dieOuts d).flatMap (fun n => digestEntry (s.chan n)))

/-- The die refuses a command of a channel (R359). -/
def State.refuseCmd (s : State) (n : Nat) : State :=
  (s.chanFlag n 20).bump (Cnt.PWC_CMD_REFUSED (n / 24))

/-- A channel after its hold has ended: the desired state is the state held (R376). -/
def Channel.attached (c : Channel) : Channel :=
  { c with hold := false, desired := c.on, sequence := c.on }

/-- ATTACH with a digest: ends the die-wide hold, or the channel holds of the sending thread
(R376). -/
def State.attach (s : State) (d thread : Nat) (arg : Word) : State :=
  let die := s.die d
  let held := (dieOuts d).filter (fun n => (s.chan n).hold && s.chanThread n == thread)
  if !die.hold && held.isEmpty then s
  else if arg.toNat ≠ s.dieDigest d then
    (s.bump (Cnt.PWC_ATTACH_REJ d)).fault 0x231A
      (d + 256 * (if die.hold then 0x3F else held.headD 0x3F))
  else if die.hold then
    (dieOuts d).foldl
      (fun acc n => acc.setChan n { (acc.chan n).attached with thLatch := true })
      (s.setDie d { die with hold := false })
  else held.foldl (fun acc n => acc.setChan n (acc.chan n).attached) s

/-- A channel whose last latched cause is removed stays off until the next ON (R372). -/
def Channel.unlatched (c : Channel) : Channel :=
  if c.latch && c.cause == 0 then { c with latch := false, desired := false } else c

/-- The condition of a cause in a CLEAR mask still holds, or the channel has tripped with it in the same SEQ
cycle of 200 MHz (R372, R380).
DEDUCED, unsafe (log entry 97). -/
def State.clearRefused (s : State) (n mask : Nat) : Bool :=
  (Nat.testBit mask (s.chan n).tripBit && decide ((s.chan n).tripAt / 5 = s.nowNs / 5)) ||
  (Nat.testBit mask TripCause.therm.bit && (s.chan n).hot) ||
    (Nat.testBit mask TripCause.model.bit &&
      decide (s.rdN (Reg.PWC_THRESET (n / 24) (n % 24)) ≤ s.rdN (Reg.PWC_THETA (n / 24) (n % 24)))) ||
    Nat.testBit mask TripCause.runout.bit

/-- What a die does with a command for a channel that is not in hold (R359, R368 to R374). -/
def State.chanCmd (s : State) (n code : Nat) (arg : Word) : State :=
  let c := s.chan n
  match code with
  | 0x01 =>
    if c.sequence || c.latch then s.bump (Cnt.PWCCH_ON_IGNORED (n / 24) (n % 24))
    else (s.setChan n { c with desired := true, sequence := true, used := 0 }).switchOn n
  | 0x02 => s.setChan n { c.off.noRetry with desired := false, dumped := false }
  | 0x03 => s.setChan n { c with nextDuty := getBits arg 0 16 }
  | 0x04 =>
    if arg = 1 then s.tripChan n .inst
    else if arg = 2 then s.tripChan n .soft
    else s.refuseCmd n
  | 0x05 =>
    if s.clearRefused n (getBits arg 0 7) then s.refuseCmd n
    else
      s.setChan n ({ c with cause := c.cause &&& (127 ^^^ getBits arg 0 7) } : Channel).unlatched
  | 0x06 => s.setChan n { c with thLatch := getBit arg 0 }
  | 0x09 =>
    if c.racc = 0 then
      s.setChan n
        ({ c with cause := c.cause &&& (127 ^^^ 2 ^ TripCause.runout.bit) } : Channel).unlatched
    else s.refuseCmd n
  | 0x0A => s.setChan n { c with gainAsked := true }
  | _ => s.refuseCmd n

/-- A die acts on a command (R359, R375, R376). A reversed die is unpowered (R379). -/
def State.dieAct (s : State) (d : Nat) (cmd : PowerCmd) : State :=
  if !s.dieWorks d then s
  else if cmd.ch = 255 then
    if cmd.code = 0x07 then s.holdDie d
    else if cmd.code = 0x08 then s.attach d cmd.thread cmd.arg
    else s
  else
    let n := 24 * d + cmd.ch
    if s.chanHeld n then s.refuseCmd n
    else if cmd.code = 0x07 then s.holdChan n
    else s.chanCmd n cmd.code cmd.arg

/-- LIMIT of a die in A, 1 to 90 (R357). -/
def State.ownLimit (s : State) (d : Nat) : Nat := clampNat 1 90 (s.fld (Reg.PWC_DIECFG d) 0 7)

/-- Effective limit of a die in A: GLLIMIT while a ground shift stands noted in GNDSHIFT (R357, R379).
DEDUCED, unsafe (log entry 153). -/
def State.dieLimit (s : State) (d : Nat) : Nat :=
  if s.bit (Reg.PWC_DIESTATE d) 17 && s.bit (Reg.PWC_DIECFG d) 16 then s.fld (Reg.PWC_DIECFG d) 8 7
  else if d = 0 then s.ownLimit 0
  else Nat.min (s.ownLimit 1) (160 - s.ownLimit 0)

end Sys2Proof.Machine
end

