-- ==== Sys2Proof/Machine/Ritik.lean ====
section
/-!
DEFINITION. The Ritik engines: threads, profiles, memories, the round-robin turn, traps, and the
issue of one instruction (R140 to R144, R152, R164 to R170).
-/

namespace Sys2Proof.Machine

open Sys2Proof

/-- The profiles of R140. -/
inductive Profile where
  | p | c | w
  deriving DecidableEq, Repr

/-- The profile of a thread (R140). -/
def profileOf (t : Nat) : Profile := if t < 192 then .p else if t < 200 then .c else .w

/-- The engine of a thread: 0 to 23 packet engines, 24 and 25 sequencers, 26 the wake sequencer. -/
def engineOf (t : Nat) : Nat := if t < 192 then t / 8 else if t < 200 then 24 + (t - 192) / 4 else 26

/-- The island of a thread's engine (R14). -/
def engineIsland (t : Nat) : Island := if t < 192 then .ritik else if t < 200 then .seq else .aon

/-- The threads of a thread's engine. -/
def engineThreads (t : Nat) : List Nat :=
  if t < 192 then (List.range 8).map (fun k => t / 8 * 8 + k)
  else if t < 200 then (List.range 4).map (fun k => 192 + (t - 192) / 4 * 4 + k)
  else [200]

/-- A thread's number within its engine: THREAD of R142. -/
def threadNo (t : Nat) : Nat := if t < 192 then t % 8 else if t < 200 then (t - 192) % 4 else 0

/-- The sequencer of a profile C thread. -/
def seqOf (t : Nat) : Nat := (t - 192) / 4

/-- The thread register (R142). -/
def threadRegister (t : Nat) : Word :=
  match profileOf t with
  | .p => BitVec.ofNat 32 (t % 8 + 8 * (t / 8) + 256 * (t / 64) + 1024)
  | .c => BitVec.ofNat 32 ((t - 192) % 4 + 8 * seqOf t + 2048)
  | .w => 3072

/-- Program memory size of a profile, in instructions (R140). -/
def pmemSize : Profile → Nat
  | .p => 32768 | .c => 8192 | .w => 2048

/-- Data memory size of a profile, in bytes (R140). -/
def dmemSize : Profile → Nat
  | .p => 262144 | .c => 16384 | .w => 4096

/-! ## Threads -/

/-- A thread. -/
def State.thread (s : State) (t : Nat) : Thread := Store.get (fun _ => {}) s.rtk.threads t

/-- The state with a thread replaced. -/
def State.setThread (s : State) (t : Nat) (v : Thread) : State :=
  { s with rtk := { s.rtk with threads := Store.set (fun _ => {}) s.rtk.threads t v } }

/-- A general register; g0 reads 0 (R141). -/
def Thread.reg (th : Thread) (r : Nat) : Word :=
  if r = 0 then 0 else Store.get (fun _ => 0) th.regs r

/-- The thread with a general register written; a write to g0 is discarded (R141). -/
def Thread.setReg (th : Thread) (r : Nat) (w : Word) : Thread :=
  if r = 0 then th else { th with regs := Store.set (fun _ => 0) th.regs r w }

/-- A metadata word. -/
def Thread.mword (th : Thread) (i : Nat) : Word := Store.get (fun _ => 0) th.m i

/-- The thread with a metadata word written. -/
def Thread.setM (th : Thread) (i : Nat) (w : Word) : Thread :=
  { th with m := Store.set (fun _ => 0) th.m i w }

/-- Result words a request reserves: four for a lookup, one for a meter, none beyond M[63]
(R161). -/
def Request.covers (r : Request) (i : Nat) : Bool :=
  decide (r.m ≤ i) && decide (i < r.m + (if r.meter then 1 else 4)) && decide (i < 64)

/-- A metadata word is reserved by an outstanding request (R161). -/
def Thread.reserved (th : Thread) (i : Nat) : Bool := th.reqs.any (·.covers i)

/-- A thread is able to issue. -/
def State.threadReady (s : State) (t : Nat) : Bool := (s.thread t).status == .ready

/-- The threads of an engine in round-robin order after the thread it last issued from; before its first, from
its thread 0.
DESIGN CHOICE, unsafe (log entry 136). -/
def State.turnOrder (s : State) (t : Nat) : List Nat :=
  let last := Store.get (fun _ => 0) s.rtk.lastIssued (engineOf t)
  let ts := engineThreads t
  ts.filter (fun u => decide (last ≤ u)) ++ ts.filter (fun u => decide (u < last))

/-- The thread is the next ready one of its engine (R152). -/
def State.hasTurn (s : State) (t : Nat) : Bool := (s.turnOrder t).find? s.threadReady == some t

/-- The engine of a thread has issued from it (R152). -/
def State.issuedFrom (s : State) (t : Nat) : State :=
  { s with
    rtk := { s.rtk with
      lastIssued := Store.set (fun _ => 0) s.rtk.lastIssued (engineOf t) (t + 1) } }

/-! ## Memories -/

/-- A word of a memory that no register window shows. -/
def State.engWord (s : State) (i : Nat) : Word := Store.get (fun _ => 0) s.rtk.mem i

/-- The state with such a word written. -/
def State.setEngWord (s : State) (i : Nat) (w : Word) : State :=
  { s with rtk := { s.rtk with mem := Store.set (fun _ => 0) s.rtk.mem i w } }

/-- The cell of a word of a thread's data memory D (R144): the cluster's or sequencer's window, or
the wake sequencer's own memory. -/
def dCell (t i : Nat) : MemCell :=
  match profileOf t with
  | .p => .reg (Reg.RTK_DMEM (t / 64) i)
  | .c => .reg (Reg.PWC_DMEM (seqOf t) i)
  | .w => .engine (32768 + i)

/-- The cell of an instruction word of a thread's program memory. -/
def pCell (t i : Nat) : MemCell :=
  match profileOf t with
  | .p => .live liveBank (Reg.RTK_PMEM i)
  | .c => .engine (8192 * seqOf t + i)
  | .w => .engine (16384 + i)

/-- The word in a memory cell. -/
def State.cellWord (s : State) : MemCell → Word
  | .reg k => s.rd k
  | .live b k => s.rdLive b k
  | .engine i => s.engWord i
  | .mram a => BitVec.ofNat 32 (s.rdMem32 a)
  | .flow _ => 0
  | .array _ => 0

/-- The state with a word of D written; a full word clears an uncorrectable error (R167). -/
def State.setD (s : State) (t i : Nat) (w : Word) : State :=
  let cell := dCell t i
  let s := { s with eccBad := s.eccBad.filter (fun c => c != cell) }
  match cell with
  | .reg k => s.wr k w
  | .engine j => s.setEngWord j w
  | _ => s

/-- A cell holds an uncorrectable error. -/
def State.cellBad (s : State) (c : MemCell) : Bool := s.eccBad.contains c

/-! ## The turn (R152, R157) -/

/-- Thread `t` has issued, or no longer takes part: threads of its engine that wait a round-robin
turn wait for it no longer. -/
def State.passTurn (s : State) (t : Nat) : State :=
  (engineThreads t).foldl
    (fun acc u =>
      match (acc.thread u).status with
      | .waiting (.turn others) =>
        let left := others.filter (fun x => x != t)
        acc.setThread u
          { acc.thread u with status := if left.isEmpty then .ready else .waiting (.turn left) }
      | _ => acc) s

/-- The status of a thread that gives up the engine for one turn: it waits for every other ready
thread of the engine. -/
def State.turnStatus (s : State) (t : Nat) : ThreadStatus :=
  let others := (engineThreads t).filter (fun u => u != t && s.threadReady u)
  if others.isEmpty then .ready else .waiting (.turn others)

/-! ## Traps (R164 to R166) -/

/-- The trap causes of R164. -/
inductive Trap where
  | illegal | profile | misalign | bounds | pcRange | hdrOvf | lkupOvl | budget
  | pmemEcc | dmemEcc | break_ | unit
  deriving DecidableEq, Repr

/-- The number of a trap cause (R164). -/
def Trap.code : Trap → Nat
  | .illegal => 1 | .profile => 2 | .misalign => 3 | .bounds => 4 | .pcRange => 5 | .hdrOvf => 6
  | .lkupOvl => 7 | .budget => 8 | .pmemEcc => 9 | .dmemEcc => 10 | .break_ => 11 | .unit => 12

/-- The trap record of M[63]: cause in [5:0], pc in [30:16] (R165). -/
def trapRecord (k : Trap) (pc : Word) : Word :=
  BitVec.ofNat 32 (k.code + 65536 * (pc.toNat % 2 ^ 15))

/-- A trap in profile P: the program ends, the record goes to M[63], the frame to the exception
queue with RTK_FAULT, and the fault is reported (R165, R484). -/
def State.trapP (s : State) (t : Nat) (k : Trap) (pc : Word) : State :=
  let th := s.thread t
  let s := s.setThread t
    (({ th with status := .idle, frame := none, reqs := [] } : Thread).setM 63 (trapRecord k pc))
  let s := (s.bump Cnt.RTK_RTK_FAULT).monEvent 0x184
  let s := if k = .budget then s.bump Cnt.RTK_BUDGET else s
  let s := s.fault ((if k = .pmemEcc ∨ k = .dmemEcc then 0x2100 else 0x0100) + k.code)
    (k.code + 64 * (t % 8) + 512 * (t / 8) + 65536 * (pc.toNat % 2 ^ 15))
  match th.frame with
  | none => s
  | some f =>
    match s.frame f with
    | none => s
    | some v => (s.setFrame f { v with excTrap := trapRecord k pc }).engineException f 0x09 v.hash

/-- The OUT numbers that a thread of a sequencer serves (R358). -/
def State.servedOuts (s : State) (t : Nat) : List Nat :=
  (dieOuts (seqOf t)).filter (fun n => s.chanThread n == threadNo t)

/-- A trap in profile C: the thread stops, HOLD is sent for its channels, its trap register is
written, and the fault is reported (R166, R360, R484). -/
def State.trapC (s : State) (t : Nat) (k : Trap) (pc : Word) : State :=
  let d := seqOf t
  let s := s.setThread t { s.thread t with status := .trapped }
  let s := (s.wrN (Reg.PWC_TRAP d (threadNo t)) (2 ^ 31 + k.code + 65536 * (pc.toNat % 2 ^ 13))).irq
    (288 + 32 * d + 24)
  let s := s.fault (0x3300 + k.code) (threadNo t + 256 * d + 65536 * (pc.toNat % 2 ^ 13))
  if s.dieWorks d then (s.servedOuts t).foldl (fun acc n => acc.holdChan n) s
  else s

/-- A trap in profile W: the wake sequencer stops, WAK_WSTAT keeps the trap, and the fault is
reported, in Slate at the next start of the Core die (R166, R395). -/
def State.trapW (s : State) (k : Trap) (pc : Word) : State :=
  let s := s.setThread 200 { s.thread 200 with status := .trapped }
  let w := s.rd Reg.WAK_WSTAT
  let s := s.wr Reg.WAK_WSTAT
    (putBit (setBits (setBits w 8 6 k.code) 16 11 pc.toNat) 31 true)
  let data := 65536 * (pc.toNat % 2 ^ 11)
  if s.coreHeld then { s with wak := { s.wak with trapFault := some (0x2340 + k.code, data) } }
  else s.fault (0x2340 + k.code) data

/-- Thread `t` takes a trap whose record holds `pc`. -/
def State.trapAt (s : State) (t : Nat) (k : Trap) (pc : Word) : State :=
  let s := s.passTurn t
  match profileOf t with
  | .p => s.trapP t k pc
  | .c => s.trapC t k pc
  | .w => s.trapW k pc

/-- Thread `t` takes a trap at its pc. -/
def State.trapNow (s : State) (t : Nat) (k : Trap) : State := s.trapAt t k (s.thread t).pc

/-! ## Issue -/

/-- What an instruction's own checks say before it changes anything (R164). -/
inductive Verdict where
  | go
  | trap (k : Trap)
  /-- The thread gives up the engine and the instruction is issued again later. -/
  | wait (w : Waiting)
  deriving DecidableEq, Repr

/-- Issue of an instruction by thread `t`: an engine issues from its next ready thread in round-robin order and
from no other (R152), while its island runs (R14); a fetch at
an index beyond program memory takes PC_RANGE with the pc that named it (R155), a word with an
uncorrectable error PMEM_ECC (R164), then ILLEGAL, PROFILE and the instruction's own checks; then
its effect, on the thread as after the issue: pc + 1, one more instruction issued. -/
def State.issue (s : State) (t : Nat) (ill : Bool) (profs : List Profile)
    (chk : Thread → Verdict) (eff : Thread → State → State) : State :=
  let th := s.thread t
  if !s.hasTurn t || !s.up (engineIsland t) then s
  else
  let s := s.issuedFrom t
  if pmemSize (profileOf t) ≤ th.pc.toNat then s.trapAt t .pcRange th.lastPc
  else if s.cellBad (pCell t th.pc.toNat) then s.trapNow t .pmemEcc
  else if ill then s.trapNow t .illegal
  else if !profs.contains (profileOf t) then s.trapNow t .profile
  else
    match chk th with
    | .trap k => s.trapNow t k
    | .wait w => (s.setThread t { th with status := .waiting w }).passTurn t
    | .go => eff { th with pc := th.pc + 1, lastPc := th.pc, issued := th.issued + 1 } (s.passTurn t)

/-- Threads stalled at a bound may issue again (R126, R196, R222). -/
def State.wakeRoom (s : State) : State :=
  (List.range 192).foldl
    (fun acc t =>
      if (acc.thread t).status == .waiting .room then
        acc.setThread t { acc.thread t with status := .ready }
      else acc) s

/-- METER requests outstanding (R222). -/
def State.metersQueued (s : State) : Nat :=
  (s.rtk.threads.map (fun e => (e.2.reqs.filter (·.meter)).length)).sum

/-- Frames at step 6 (R222). -/
def State.atStep6 (s : State) : Nat :=
  (s.frames.filter (fun e => match e.2 with
    | some v => v.stage == .toStream
    | none => false)).length

/-- Every profile. -/
def allProfiles : List Profile := [.p, .c, .w]

/-- An instruction that changes its thread alone and never traps of its own. -/
def State.threadOp (s : State) (t : Nat) (profs : List Profile) (f : Thread → Thread) : State :=
  s.issue t false profs (fun _ => .go) (fun th s => s.setThread t (f th))

/-! ## Starting threads (R170) -/

/-- A thread as it starts: registers, flags and count 0, at an entry pc. -/
def Thread.started (pc : Word) : Thread := { status := .ready, pc := pc, lastPc := pc }

/-- Start the threads of sequencer or wake sequencer `q` (0, 1, 2) at the entries of its image; a
thread without an entry is not started (R170). -/
def State.startThreads (s : State) (q : Nat) : State :=
  let es := Store.get (fun _ => []) s.rtk.entries q
  (List.range (if q = 2 then 1 else 4)).foldl
    (fun acc i =>
      match es[i]? with
      | some e => acc.setThread (192 + 4 * q + i) (Thread.started (e &&& 0x7FFF))
      | none => acc.setThread (192 + 4 * q + i) {}) s

/-- Stop the threads of a sequencer or of the wake sequencer. -/
def State.stopThreads (s : State) (q : Nat) : State :=
  (List.range (if q = 2 then 1 else 4)).foldl (fun acc i => acc.setThread (192 + 4 * q + i) {}) s

/-- The wake sequencer runs: it is not stopped and has not trapped (R395).
DEDUCED, unsafe (log entry 63). -/
def State.wRunning (s : State) : Bool :=
  match (s.thread 200).status with
  | .idle | .trapped => false
  | _ => true

end Sys2Proof.Machine
end

