-- ==== Sys2Proof/Machine/Flags.lean ====
section
/-!
DEFINITION. The flag computations of R151, by the codes of its table.
-/

namespace Sys2Proof.Machine

open Sys2Proof

/-- Flags *arith* of an addition. -/
def addFlags (a b : Word) : Flags :=
  let r := a + b
  { z := r == 0, n := getBit r 31, c := decide (2 ^ 32 ≤ a.toNat + b.toNat),
    v := decide (a.toInt + b.toInt ≠ r.toInt) }

/-- Flags *arith* of a subtraction: C is 1 when there is no borrow. -/
def subFlags (a b : Word) : Flags :=
  let r := a - b
  { z := r == 0, n := getBit r 31, c := decide (b.toNat ≤ a.toNat),
    v := decide (a.toInt - b.toInt ≠ r.toInt) }

/-- Flags *logic*: C and V unchanged. -/
def logicFlags (old : Flags) (r : Word) : Flags := { old with z := r == 0, n := getBit r 31 }

/-- Flags *shift*: C is the last bit shifted out, unchanged when the amount is 0. -/
def shiftFlags (old : Flags) (r : Word) (out : Option Bool) : Flags :=
  { old with z := r == 0, n := getBit r 31, c := out.getD old.c }

/-- Flags *sat*: V is 1 when the result saturated. -/
def satFlags (old : Flags) (r : Word) (sat : Bool) : Flags :=
  { old with z := r == 0, n := getBit r 31, v := sat }

/-- Flags *count*: N is 0. -/
def countFlags (old : Flags) (r : Word) : Flags := { old with z := r == 0, n := false }

/-- The flags as RDS 1 reads them (R153). -/
def Flags.word (f : Flags) : Word := BitVec.ofNat 32 (b2n f.z + 2 * b2n f.n + 4 * b2n f.c + 8 * b2n f.v)

/-- The flags WRF writes (R153). -/
def flagsOf (w : Word) : Flags := { z := getBit w 0, n := getBit w 1, c := getBit w 2, v := getBit w 3 }

/-- A condition holds (R148). -/
def condHolds (c : Cond) (f : Flags) : Bool :=
  match c with
  | .eq => f.z
  | .ne => !f.z
  | .hs => f.c
  | .lo => !f.c
  | .mi => f.n
  | .pl => !f.n
  | .vs => f.v
  | .vc => !f.v
  | .hi => f.c && !f.z
  | .ls => !f.c || f.z
  | .ge => f.n == f.v
  | .lt => f.n != f.v
  | .gt => !f.z && f.n == f.v
  | .le => f.z || f.n != f.v
  | .al => true

/-- The saturation limits of a signed 32-bit value. -/
def sat32 (i : Int) : Word := wordOfInt (clampInt (-2147483648) 2147483647 i)

/-- The value lies outside the signed 32-bit range. -/
def saturates (i : Int) : Bool := decide (i < -2147483648) || decide (2147483647 < i)

/-- 16-bit ones'-complement addition with end-around carry, +₁. -/
def onesAdd (a b : Nat) : Nat := (a + b) % 65536 + (a + b) / 65536

/-- Complement of 16 bits. -/
def comp16 (a : Nat) : Nat := 65535 - a % 65536

/-- The checksum `c` updated for a half-word that changes from `a` to `b` (RFC 1624, CSUPD). -/
def checksumUpdate (c a b : Nat) : Nat :=
  comp16 (onesAdd (onesAdd (comp16 c) (comp16 a)) (b % 65536))

/-- The ones'-complement sum over big-endian half-words, an odd last byte padded with 0. -/
def onesSum : List Byte → Nat
  | [] => 0
  | [a] => a.toNat * 256
  | a :: b :: t => onesAdd (a.toNat * 256 + b.toNat) (onesSum t)

/-- Leading zero bits of a word. -/
def leadingZeros (w : Word) : Nat :=
  (List.range 32).foldl (fun acc i => if getBit w i then 31 - i else acc) 32

/-- 1 bits of a word. -/
def onesCount (w : Word) : Nat := ((List.range 32).filter (fun i => getBit w i)).length

end Sys2Proof.Machine
end

