-- ==== Sys2Proof/Machine/Operands.lean ====
section
/-!
DEFINITION. Operand forms of the instruction formats (R146 to R150): registers, immediates,
branch targets, and the accesses of the three spaces with the checks they make (R143, R144, R156,
R164).
-/

namespace Sys2Proof.Machine

open Sys2Proof

/-- sext of a 16-bit immediate (R154). -/
def sext16 (imm : BitVec 16) : Word := imm.signExtend 32

/-- zext of a 16-bit immediate (R154). -/
def zext16 (imm : BitVec 16) : Word := imm.zeroExtend 32

/-- A branch target: pc + sext(OFF) (R148). -/
def branchTarget (pc : Word) (off : BitVec 24) : Word := pc + off.signExtend 32

/-- Bytes of a size (R149). -/
def memBytes : MemSize → Nat
  | .byte => 1 | .half => 2 | .word => 4

/-- The effective address ra + OFF, in exact arithmetic (R149).
DEDUCED, unsafe (log entry 57). -/
def effAddr (th : Thread) (ra : Gpr) (off : BitVec 12) : Nat := (th.reg ra.val).toNat + off.toNat

/-- A value sign-extended from a size. -/
def sextSize (sz : MemSize) (n : Nat) : Word :=
  wordOfInt (signed (8 * memBytes sz) n)

/-- SZ other than word on M takes ILLEGAL (R149). -/
def badSize (sp : MemSpace) (sz : MemSize) : Bool := sp == .m && sz != .word

/-- The profiles of a memory instruction: H and M in P only (R149). -/
def spaceProfiles : MemSpace → List Profile
  | .d => allProfiles
  | .h | .m => [.p]

/-- The checks of an access to `n` bytes at `ea` in D of thread `t`: MISALIGN before BOUNDS, and
DMEM_ECC last where the access reads the word or stores less than it (R144, R164, R167). -/
def State.checkD (s : State) (t ea n : Nat) (reads : Bool) : Verdict :=
  if ea % n ≠ 0 then .trap .misalign
  else if dmemSize (profileOf t) < ea + n then .trap .bounds
  else if (reads || decide (n < 4)) && s.cellBad (dCell t (ea / 4)) then .trap .dmemEcc
  else .go

/-- The checks of a load (R143, R156, R161). -/
def State.checkLoad (s : State) (t : Nat) (sp : MemSpace) (n ea : Nat) (th : Thread) : Verdict :=
  match sp with
  | .d => s.checkD t ea n true
  | .h => if 256 < ea + n then .trap .bounds else .go
  | .m =>
    if ea % 4 ≠ 0 then .trap .misalign
    else if 256 < ea + 4 then .trap .bounds
    else if th.reserved (ea / 4) then .wait (.word (ea / 4))
    else .go

/-- The checks of a store (R143, R156, R167). -/
def State.checkStore (s : State) (t : Nat) (sp : MemSpace) (n ea : Nat) (th : Thread) : Verdict :=
  match sp with
  | .d => s.checkD t ea n false
  | .h => if 256 < ea + n ∨ th.h.length < ea + n then .trap .bounds else .go
  | .m =>
    if ea % 4 ≠ 0 then .trap .misalign
    else if 256 < ea + 4 then .trap .bounds
    else .go

/-- The word of D that an address lies in. -/
def State.dWord (s : State) (t ea : Nat) : Word := s.cellWord (dCell t (ea / 4))

/-- The value a load reads, zero-extended: D and M little-endian, H big-endian with 0 beyond HLEN
(R143, R144). -/
def State.loadValue (s : State) (t : Nat) (sp : MemSpace) (n ea : Nat) (th : Thread) : Nat :=
  match sp with
  | .d => getBits (s.dWord t ea) (8 * (ea % 4)) (8 * n)
  | .h => natAt th.h ea n
  | .m => (th.mword (ea / 4)).toNat

/-- H with the low bytes of a value stored big-endian (R143). -/
def storeH (h : List Byte) (ea n : Nat) (w : Word) : List Byte :=
  h.take ea ++ bytesBE n w.toNat ++ h.drop (ea + n)

/-- A store to a metadata word: held while the word is reserved, otherwise written (R161). -/
def Thread.storeM (th : Thread) (i : Nat) (w : Word) : Thread :=
  if th.reserved i then
    { th with
      reqs := th.reqs.map (fun r => if r.covers i then { r with held := r.held ++ [(i, w)] } else r) }
  else th.setM i w

/-- A store performed (R143, R144, R156). -/
def State.storeValue (s : State) (t : Nat) (sp : MemSpace) (n ea : Nat) (th : Thread) (w : Word) :
    State :=
  match sp with
  | .d =>
    (s.setD t (ea / 4) (setBits (s.dWord t ea) (8 * (ea % 4)) (8 * n) w.toNat)).setThread t th
  | .h => s.setThread t { th with h := storeH th.h ea n w }
  | .m => s.setThread t (th.storeM (ea / 4) w)

end Sys2Proof.Machine
end

