-- ==== Sys2Proof/Machine/RitikUnit.lean ====
section
/-!
DEFINITION. The unit operations of Ritik, format X (R157 to R163, R181 to R188, R359).
-/

namespace Sys2Proof.Machine

open Sys2Proof

/-- YIELD (R157). -/
def execYield (t : ThreadId) (s : State) : Host.Outcome State Fault Refusal :=
  .next (s.issue t.val false allProfiles (fun _ => .go)
    (fun th s => s.setThread t.val { th with status := s.turnStatus t.val }))

/-- Latch the time base of a thread into its snapshot: the working clock of a domain, or the RTC
in W (R157). -/
def State.latchTime (s : State) (t dom : Nat) (th : Thread) : Thread :=
  if profileOf t = .w then
    { th with
      snap0 := BitVec.ofNat 32 (s.rtcTicks % 32768), snap1 := BitVec.ofNat 32 s.rtcSec, snap2 := 0 }
  else
    let w := s.wNow dom
    { th with
      snap0 := BitVec.ofNat 32 (tkNs w)
      snap1 := BitVec.ofNat 32 (tkSec w)
      snap2 := BitVec.ofNat 32 (tkSec w / 2 ^ 32 + 65536 * tkFrac w) }

/-- TIME; sel 3, and in W a dom other than 0, take ILLEGAL (R157). -/
def execTime (t : ThreadId) (rd : Gpr) (sel dom : Fin 4) (s : State) :
    Host.Outcome State Fault Refusal :=
  .next (s.issue t.val (sel == 3 || (profileOf t.val == .w && dom != 0)) allProfiles (fun _ => .go)
    (fun th s =>
      let th := if sel = 0 then s.latchTime t.val dom.val th else th
      s.setThread t.val
        (th.setReg rd.val
          (if sel = 0 then th.snap0 else if sel = 1 then th.snap1 else th.snap2))))

/-- EXIT: the thread stops until its block restarts it (R157). -/
def execExit (t : ThreadId) (s : State) : Host.Outcome State Fault Refusal :=
  .next (s.issue t.val false [.c, .w] (fun _ => .go)
    (fun th s => s.setThread t.val { th with status := .idle }))

/-- The debug enable of a thread's engine (R169, R350). -/
def State.debugOpen (s : State) (t : Nat) : Bool :=
  match profileOf t with
  | .p => Nat.testBit s.debugScope 3
  | .c => Nat.testBit s.debugScope 4
  | .w => Nat.testBit s.debugScope 5

/-- BRK: halts the thread at the BRK with debug open, and takes BREAK otherwise (R169). -/
def execBrk (t : ThreadId) (s : State) : Host.Outcome State Fault Refusal :=
  .next (s.issue t.val false allProfiles
    (fun _ => if s.debugOpen t.val then .go else .trap .break_)
    (fun _ s => s.setThread t.val { s.thread t.val with status := .halted }))

/-! ## Lookups and meters (R158, R160, R161, R186) -/

/-- A byte of the metadata words, little-endian (R143). -/
def Thread.mbyte (th : Thread) (a : Nat) : Byte := byteOf (th.mword (a / 4)).toNat (a % 4)

/-- `n` bytes of the metadata words. -/
def Thread.mbytes (th : Thread) (a n : Nat) : List Byte :=
  (List.range n).map (fun i => th.mbyte (a + i))

/-- The generation of the frame a thread holds. -/
def State.threadGen (s : State) (th : Thread) : Nat :=
  match th.frame.bind (fun f => s.frame f) with
  | some v => v.gen
  | none => 0

/-- The received length LEN of the frame a thread holds (R180). -/
def State.threadLen (s : State) (th : Thread) : Nat :=
  match th.frame.bind (fun f => s.frame f) with
  | some v => v.len
  | none => 0

/-- TYPE of a lookup table for a generation: 0 none, 1 INDEX, 2 EXACT, 4 the flow table; reserved
tables and TYPE 3 act as none (R186, R187). -/
def State.tableType (s : State) (gen tbl : Nat) : Nat :=
  if tbl = 0 then 4
  else if tbl < 8 then 0
  else
    let ty := s.fldLive gen (Reg.RTK_TBLDESC_w0 tbl) 0 2
    if ty = 3 then 0 else ty

/-- Length of a table's key in bytes (R186, R187). -/
def State.keyLen (s : State) (gen tbl : Nat) : Nat :=
  match s.tableType gen tbl with
  | 4 => 40
  | 1 => 4
  | 2 => 4 * (s.fldLive gen (Reg.RTK_TBLDESC_w0 tbl) 2 2 + 1)
  | _ => 0

/-- A lookup's first result word: HIT, ERR, TBL, INFO (R161). -/
def resultWord (hit err : Bool) (tbl info : Nat) : Word :=
  BitVec.ofNat 32 (b2n hit + 2 * b2n err + 256 * (tbl % 32) + 65536 * (info % 65536))

/-- Write result words from M[m] on; words beyond M[63] do not exist. -/
def Thread.writeM (th : Thread) (m : Nat) : List Word → Thread
  | [] => th
  | w :: ws => Thread.writeM (if m < 64 then th.setM m w else th) (m + 1) ws

/-- The result of a lookup without a hit: INFO and the three further words are not stated by the
specification and are free (four draws).
DESIGN CHOICE, safe (log entry 59). -/
def State.missResult (s : State) (err : Bool) (tbl : Nat) : List Word × State :=
  let n := s.freeCtr
  ([resultWord false err tbl (Config.freeWord n).toNat, Config.freeWord (n + 1),
      Config.freeWord (n + 2), Config.freeWord (n + 3)], { s with freeCtr := n + 4 })

/-- The checks of a request that reserves `n` words from M[m]: a third request waits, an overlap
takes LKUP_OVL (R160, R161). -/
def requestCheck (th : Thread) (m n : Nat) : Verdict :=
  if 2 ≤ th.reqs.length then .wait .slot
  else if (List.range n).any (fun i => decide (m + i < 64) && th.reserved (m + i)) then
    .trap .lkupOvl
  else .go

/-- The checks of LKUP at issue: the bound, then BOUNDS, then LKUP_OVL (R158, R160, R161). -/
def State.lkupCheck (s : State) (ra : Gpr) (tbl m : Nat) (th : Thread) : Verdict :=
  let n := s.keyLen (s.threadGen th) tbl
  if 2 ≤ th.reqs.length then .wait .slot
  else if 0 < n ∧ 256 < (th.reg ra.val).toNat + n then .trap .bounds
  else requestCheck th m 4

/-- LKUP (R158, R160, R161, R186). -/
def execLkup (t : ThreadId) (ra : Gpr) (tbl : Fin 32) (m : Fin 64) (async : Bool) (s : State) :
    Host.Outcome State Fault Refusal :=
  .next (s.issue t.val false [.p] (s.lkupCheck ra tbl.val m.val)
    (fun th s =>
      let gen := s.threadGen th
      let s := s.monEvent 0x186
      if s.tableType gen tbl.val = 0 then
        let r := s.missResult true tbl.val
        let th := th.writeM m.val r.1
        (r.2.setThread t.val
          { th with
            status := if async then s.turnStatus t.val
              else if th.reqs.isEmpty then .ready else .waiting .requests }).bump Cnt.RTK_LKUP_ERR
      else
        s.setThread t.val
          { th with
            reqs := th.reqs ++
              [{ table := tbl.val, m := m.val,
                 key := th.mbytes (th.reg ra.val).toNat (s.keyLen gen tbl.val)
                 denied := !s.running .mem }]
            status := if async then s.turnStatus t.val else .waiting .requests }))

/-- WAITL: the thread gives up the engine until it has no request outstanding (R158). -/
def execWaitl (t : ThreadId) (s : State) : Host.Outcome State Fault Refusal :=
  .next (s.issue t.val false [.p] (fun _ => .go)
    (fun th s => s.setThread t.val
      { th with status := if th.reqs.isEmpty then .ready else .waiting .requests }))

/-- METER: a request for a colour; a meter index above 1,023 takes UNIT; with 64 meter updates queued it waits
(R158, R160, R222). -/
def execMeter (t : ThreadId) (ra : Gpr) (m : Fin 64) (pre : Fin 4) (s : State) :
    Host.Outcome State Fault Refusal :=
  .next (s.issue t.val false [.p]
    (fun th =>
      match requestCheck th m.val 1 with
      | .go => if 1023 < (th.reg ra.val).toNat then .trap .unit
          else if 64 ≤ s.metersQueued then .wait .room else .go
      | v => v)
    (fun th s => s.setThread t.val
      { th with
        reqs := th.reqs ++
          [{ meter := true, table := (th.reg ra.val).toNat, m := m.val, pre := pre.val }]
        status := .waiting .requests }))

/-! ## Posted operations and requests on the frame (R158, R185) -/

/-- CNT: one frame and its received length on counter pair ra (R185). -/
def execCnt (t : ThreadId) (ra : Gpr) (s : State) : Host.Outcome State Fault Refusal :=
  .next (s.issue t.val false [.p]
    (fun th => if 1023 < (th.reg ra.val).toNat then .trap .unit else .go)
    (fun th s =>
      let i := (th.reg ra.val).toNat
      ((s.setThread t.val th).bump (Reg.RTK_PAIR_frames_bytes_LOW (2 * i))).bumpBy
        (Reg.RTK_PAIR_frames_bytes_LOW (2 * i + 1)) (s.threadLen th)))

/-- HPUSH (R163). -/
def execHpush (t : ThreadId) (ra rb : Gpr) (s : State) : Host.Outcome State Fault Refusal :=
  .next (s.issue t.val false [.p]
    (fun th =>
      let o := (th.reg ra.val).toNat
      let n := (th.reg rb.val).toNat
      if o ≤ th.h.length ∧ th.h.length + n ≤ 256 then .go else .trap .hdrOvf)
    (fun th s =>
      let o := (th.reg ra.val).toNat
      let n := (th.reg rb.val).toNat
      s.setThread t.val { th with h := th.h.take o ++ List.replicate n 0 ++ th.h.drop o }))

/-- HPOP (R163). -/
def execHpop (t : ThreadId) (ra rb : Gpr) (s : State) : Host.Outcome State Fault Refusal :=
  .next (s.issue t.val false [.p]
    (fun th =>
      if (th.reg ra.val).toNat + (th.reg rb.val).toNat ≤ th.h.length then .go else .trap .hdrOvf)
    (fun th s =>
      let o := (th.reg ra.val).toNat
      let n := (th.reg rb.val).toNat
      s.setThread t.val { th with h := th.h.take o ++ th.h.drop (o + n) }))

/-- CSUMH (R158). -/
def execCsumh (t : ThreadId) (rd ra rb : Gpr) (s : State) : Host.Outcome State Fault Refusal :=
  .next (s.issue t.val false [.p]
    (fun th =>
      let n := (th.reg rb.val).toNat
      if 0 < n ∧ 256 < (th.reg ra.val).toNat + n then .trap .bounds else .go)
    (fun th s => s.setThread t.val (th.setReg rd.val (BitVec.ofNat 32
      (onesSum (bytesAt th.h (th.reg ra.val).toNat (th.reg rb.val).toNat))))))

/-- The state with the frame a thread holds changed. -/
def State.onFrame (s : State) (th : Thread) (g : Frame → Frame) : State :=
  match th.frame with
  | none => s
  | some f =>
    match s.frame f with
    | none => s
    | some v => s.setFrame f (g v)

/-- TSINS: a later request replaces an earlier one; format 3 takes UNIT (R158). -/
def execTsins (t : ThreadId) (ra rb : Gpr) (fmt : Fin 4) (adj : Bool) (s : State) :
    Host.Outcome State Fault Refusal :=
  .next (s.issue t.val false [.p] (fun _ => if fmt = 3 then .trap .unit else .go)
    (fun th s => (s.setThread t.val th).onFrame th (fun v =>
      { v with
        tsins := some (fmt.val, (th.reg ra.val).toNat,
          if adj then some (th.reg rb.val).toNat else none) })))

/-- SEAL; takes UNIT above context 1,023 and without a cipher engine (R158). -/
def execSeal (t : ThreadId) (ra : Gpr) (s : State) : Host.Outcome State Fault Refusal :=
  .next (s.issue t.val false [.p]
    (fun th => if 1023 < (th.reg ra.val).toNat ∨ s.hasCip = false then .trap .unit else .go)
    (fun th s => (s.setThread t.val th).onFrame th (fun v =>
      { v with sealSa := some (th.reg ra.val).toNat })))

/-- The insert that LEARN queues for a frame (R126, R158). -/
def learnOp (v : Frame) (action tag : Nat) : FlowOp :=
  .insert v.flowKey action tag v.gen v.dirLow v.tcpFlags

/-- LEARN: stalls while the insert queue of 1,024 operations is full (R126, R158). -/
def execLearn (t : ThreadId) (ra rb : Gpr) (s : State) : Host.Outcome State Fault Refusal :=
  .next (s.issue t.val false [.p]
    (fun _ => if 1024 ≤ s.cls.queue.length then .wait .room else .go)
    (fun th s =>
      let s := s.setThread t.val th
      match th.frame.bind (fun f => s.frame f) with
      | none => s
      | some v =>
        { s with
          cls := { s.cls with
            queue := s.cls.queue ++
              [learnOp v (getBits (th.reg ra.val) 0 16) (getBits (th.reg rb.val) 0 16)] } }))

/-! ## Ending the program (R162, R181 to R188) -/

/-- An ending instruction is performed only with no request outstanding (R162). -/
def endingCheck (th : Thread) (own : Verdict) : Verdict :=
  if th.reqs.isEmpty then own else .wait .requests

/-- A thread whose program has ended: free for the next frame. -/
def Thread.ended (th : Thread) : Thread := { th with status := .idle, frame := none }

/-- The frame as a program leaves it: header, step 6 words, direction by M[46] (R181, R182). -/
def Thread.leave (th : Thread) (v : Frame) : Frame :=
  { v with
    assembled := true, head := th.h, m56 := th.mword 56, m57 := th.mword 57
    tc := getBits (th.mword 46) 13 3, excM47 := th.mword 47 }

/-- FWD; MC 0 with DEST above 35 takes UNIT; with 32 frames at step 6 it stalls (R181, R182, R222). -/
def execFwd (t : ThreadId) (s : State) : Host.Outcome State Fault Refusal :=
  .next (s.issue t.val false [.p]
    (fun th => endingCheck th
      (if getBit (th.mword 46) 12 = false ∧ 35 < getBits (th.mword 46) 0 12 then .trap .unit
       else if 32 ≤ s.atStep6 then .wait .room
       else .go))
    (fun th s => (s.setThread t.val th.ended).onFrame th (fun v =>
      { th.leave v with
        mc := getBit (th.mword 46) 12, dest := getBits (th.mword 46) 0 12
        keepIn := getBit (th.mword 46) 16, mustStore := v.mustStore || getBit (th.mword 46) 17
        stage := .toStream })))

/-- DROP: counted under its reason (R185). -/
def execDrop (t : ThreadId) (why : BitVec 8) (s : State) : Host.Outcome State Fault Refusal :=
  .next (s.issue t.val false [.p] (fun th => endingCheck th .go)
    (fun th s =>
      let s := (s.setThread t.val th.ended).bump (Reg.RTK_DROP_LOW why.toNat)
      match th.frame with
      | some f => s.dropFrame f
      | none => s))

/-- TRAP: the frame as assembled goes to the exception queue of port 32 or 33 in class M[46].TC;
a code below 0x80 takes UNIT (R158, R189, R190). -/
def execTrap (t : ThreadId) (code : BitVec 8) (tgt : Bool) (s : State) :
    Host.Outcome State Fault Refusal :=
  .next (s.issue t.val false [.p]
    (fun th => endingCheck th (if code.toNat < 0x80 then .trap .unit else .go))
    (fun th s =>
      let s := (s.setThread t.val th.ended).bump Cnt.RTK_TRAP_PROG
      match th.frame with
      | none => s
      | some f =>
        match s.frame f with
        | none => s
        | some v =>
          (s.toException f code.toNat (if tgt then 33 else 32) (getBits (th.mword 46) 13 3)
            v.hash).onFrame th (fun v => { th.leave v with tsins := v.tsins })))

/-- RTK_EXCFG.RCMAX: recirculations allowed; 0 acts as 1. -/
def State.rcMax (s : State) : Nat :=
  let n := s.fld Reg.RTK_EXCFG 4 3
  if n = 0 then 1 else n

/-- A frame on its way to port 36, as its program assembled it, in the class of M[46] (R17, R183, R188).
DESIGN CHOICE, unsafe (log entry 137). -/
def Thread.recirculate (th : Thread) (v : Frame) (start : Option Nat) : Frame :=
  { th.leave v with
    rcCount := v.rcCount + 1, startState := start
    carried := (List.range 8).map (fun i => th.mword (48 + i))
    mustStore := true, checkTail := false, tsins := none, sealSa := none
    mc := false, dest := 36, keepIn := false, recirc := true, stage := .toEnqueue }

/-- RECIRC: returns the frame through port 36, or traps it RECIRC_LIMIT (R188). -/
def execRecirc (t : ThreadId) (ra : Gpr) (st : Bool) (s : State) :
    Host.Outcome State Fault Refusal :=
  .next (s.issue t.val false [.p] (fun th => endingCheck th .go)
    (fun th s =>
      let s := s.setThread t.val th.ended
      match th.frame with
      | none => s
      | some f =>
        match s.frame f with
        | none => s
        | some v =>
          if s.rcMax ≤ v.rcCount then
            (s.bump Cnt.RTK_RECIRC_LIMIT).engineException f 0x0C v.hash
          else
            ((s.setFrame f (th.recirculate v
              (if st then some (getBits (th.reg ra.val) 0 6) else none))).bump
                Cnt.RTK_RECIRC).monEvent 0x187))

/-! ## Profiles C and W (R159, R358, R359, R395) -/

/-- SNS: the latest calibrated sample of a channel of the sequencer's die (R159). -/
def execSns (t : ThreadId) (rd ra : Gpr) (q : Fin 4) (s : State) :
    Host.Outcome State Fault Refusal :=
  .next (s.issue t.val false [.c]
    (fun th => if q = 3 ∨ 23 < (th.reg ra.val).toNat then .trap .unit else .go)
    (fun th s =>
      let c := s.chan (24 * seqOf t.val + (th.reg ra.val).toNat)
      s.setThread t.val (th.setReg rd.val
        (if q = 0 then wordOfInt c.current else if q = 1 then wordOfInt c.junction
         else BitVec.ofNat 32 c.voltage))))

/-- TICK: waits for the next tick, or after a missed tick returns at once and counts an overrun
(R159, R358). -/
def execTick (t : ThreadId) (s : State) : Host.Outcome State Fault Refusal :=
  .next (s.issue t.val false [.c] (fun _ => .go)
    (fun th s =>
      if th.tickPassed then
        let k := Reg.PWC_THRSTAT (seqOf t.val) (threadNo t.val)
        let s := (s.setThread t.val { th with ticked := true, tickPassed := false }).setFld k 16 16
          (Nat.min 0xFFFF (s.fld k 16 16 + 1))
        if (s.servedOuts t.val).isEmpty then s else s.fault 0x0316 0
      else s.setThread t.val { th with ticked := true, status := .waiting .tick }))

/-- The word WAITE returns for an event (R395). -/
def WakeEvent.word (e : WakeEvent) : Word :=
  BitVec.ofNat 32 (e.code % 256 + 256 * (e.sub % 256) + 65536 * (e.record.getD 0 % 32))

/-- Bit IGNORED of a wake record (R393). -/
def recordIgnored : Nat := 16

/-- A WAITE after an event with no PWRQ in between sets IGNORED in the event's record (R395). -/
def State.ignoreTaken (s : State) : State :=
  match s.wak.taken with
  | none => s
  | some r =>
    ({ s with wak := { s.wak with taken := none } }.setBit (Reg.WAK_REC_w3 r) recordIgnored
      true).bump Cnt.WAK_IGNORED_WAKES

/-- The oldest pending event of a mask, and the others. -/
def takeEvent (mask : Word) : List WakeEvent → Option (WakeEvent × List WakeEvent)
  | [] => none
  | e :: es =>
    if getBit mask e.code then some (e, es)
    else (takeEvent mask es).map (fun p => (p.1, e :: p.2))

/-- WAITE (R159, R395). -/
def execWaite (t : ThreadId) (rd ra : Gpr) (s : State) : Host.Outcome State Fault Refusal :=
  .next (s.issue t.val false [.w] (fun _ => .go)
    (fun th s =>
      let s := s.ignoreTaken
      match takeEvent (th.reg ra.val) s.wak.events with
      | some (e, es) =>
        { s.setThread t.val (th.setReg rd.val e.word) with
          wak := { s.wak with events := es, taken := e.record } }
      | none => s.setThread t.val { th with status := .waiting (.event rd.val (th.reg ra.val)) }))

/-- PDCMD: places a command in the sequencer's queue of 16, or stalls while it is full; an index
or code outside R359 takes UNIT. -/
def State.pdcmd (s : State) (t : ThreadId) (code : Nat) (dieWide : Bool) (ra rb : Gpr) : State :=
  s.issue t.val false [.c]
    (fun th =>
      let c := (th.reg ra.val).toNat
      if ¬ (c < 24 ∨ c = 255 ∧ dieWide = true) then .trap .unit
      else if 16 ≤ (s.die (seqOf t.val)).queue.length then .wait .room
      else .go)
    (fun th s =>
      let d := seqOf t.val
      (s.setThread t.val th).setDie d
        { s.die d with
          queue := (s.die d).queue ++
            [⟨code, (th.reg ra.val).toNat, th.reg rb.val, threadNo t.val⟩] })

/-- PDCMD ON (R359). -/
def execOn (t : ThreadId) (ra rb : Gpr) (s : State) : Host.Outcome State Fault Refusal :=
  .next (s.pdcmd t 0x01 false ra rb)

/-- PDCMD OFF (R359). -/
def execOff (t : ThreadId) (ra rb : Gpr) (s : State) : Host.Outcome State Fault Refusal :=
  .next (s.pdcmd t 0x02 false ra rb)

/-- PDCMD DUTY (R359). -/
def execDuty (t : ThreadId) (ra rb : Gpr) (s : State) : Host.Outcome State Fault Refusal :=
  .next (s.pdcmd t 0x03 false ra rb)

/-- PDCMD TRIP (R359). -/
def execTrip (t : ThreadId) (ra rb : Gpr) (s : State) : Host.Outcome State Fault Refusal :=
  .next (s.pdcmd t 0x04 false ra rb)

/-- PDCMD CLEAR (R359). -/
def execClear (t : ThreadId) (ra rb : Gpr) (s : State) : Host.Outcome State Fault Refusal :=
  .next (s.pdcmd t 0x05 false ra rb)

/-- PDCMD THMODE (R359). -/
def execThmode (t : ThreadId) (ra rb : Gpr) (s : State) : Host.Outcome State Fault Refusal :=
  .next (s.pdcmd t 0x06 false ra rb)

/-- PDCMD HOLD, of a channel or of the die (R359). -/
def execHold (t : ThreadId) (ra rb : Gpr) (s : State) : Host.Outcome State Fault Refusal :=
  .next (s.pdcmd t 0x07 true ra rb)

/-- PDCMD ATTACH (R359). -/
def execAttach (t : ThreadId) (ra rb : Gpr) (s : State) : Host.Outcome State Fault Refusal :=
  .next (s.pdcmd t 0x08 true ra rb)

/-- PDCMD RUNOUTCLR (R359). -/
def execRunoutclr (t : ThreadId) (ra rb : Gpr) (s : State) : Host.Outcome State Fault Refusal :=
  .next (s.pdcmd t 0x09 false ra rb)

/-- PDCMD CALGAIN (R359). -/
def execCalgain (t : ThreadId) (ra rb : Gpr) (s : State) : Host.Outcome State Fault Refusal :=
  .next (s.pdcmd t 0x0A false ra rb)

end Sys2Proof.Machine
end

