-- ==== Sys2Proof/Machine/Boot.lean ====
section
/-!
DEFINITION. The commands of the patch engine, of trial and commit, and of the NVS block: MRAM writes and
the black box (chapter *Boot, update and the black box*).
-/

namespace Sys2Proof.Machine

open Sys2Proof

/-! ## Update channels (R425 to R429) -/

/-- The patch engine's own accesses (R337, R425). -/
def patchMaster : Master := ⟨0x33, true⟩

/-- A channel's command is in progress. -/
def State.updateBusy (s : State) (ch : Nat) : Bool := s.bit (Reg.BOOT_SSTAT ch) 0

/-- A write of BOOT_SCMD with an operation and GO: checked as a register write; ignored while BUSY. -/
def updateCmd (m : Master) (ch op : Nat) (f : State → State) (s : State) : State :=
  guardReg m (Reg.BOOT_SCMD ch) (fun s =>
    let s := s.setFld (Reg.BOOT_SCMD ch) 0 3 op
    if s.updateBusy ch then s else f s) s

/-- The data that a channel presents. -/
def State.updateData (s : State) (ch : Nat) : Nat × Nat :=
  (s.addr40 (Reg.BOOT_SADDRL ch) (Reg.BOOT_SADDRH ch), s.fld (Reg.BOOT_SLEN ch) 0 17)

/-- The command is in progress: BUSY. -/
def State.startUpdate (s : State) (ch : Nat) : State := s.setBit (Reg.BOOT_SSTAT ch) 0 true

/-- The channel holds the lock. -/
def State.holdsLock (s : State) (ch : Nat) : Bool := s.session != 0 && s.lockHolder == ch

/-- OPEN: the lock, the manifest, its structure; then its verification is queued (R427, R428).
DEDUCED, unsafe (log entry 109). -/
def execOpenImage (m : Master) (ch : Fin 3) (s : State) : Host.Outcome State Fault Refusal :=
  .next (updateCmd m ch.val 1 (fun s =>
    if s.holdsLock ch.val then s.endUpdate ch.val 10
    else if s.session ≠ 0 then (s.bump Cnt.BOOT_BUSY_REJ).endUpdate ch.val 1
    else
      let d := s.updateData ch.val
      if 8192 < d.2 then s.endUpdate ch.val 2
      else
        match s.busRead patchMaster d.1 d.2 with
        | (.error _, s) => s.endUpdate ch.val 15
        | (.ok bs, s) =>
          if !manifestOk bs then s.endUpdate ch.val 2
          else
            let s := s.startUpdate ch.val
            { s with boot := { s.boot with
                opens := s.boot.opens ++ [(ch.val, bs.take (manLength bs))] } }.queueManifest) s)

/-- A DELTA component's base: the entry of the active slot's manifest with its ID. -/
def State.deltaBase (s : State) (id : Nat) : Option (List Byte × Nat) :=
  match s.slotManifest s.activeSlot with
  | none => none
  | some a => ((List.range (manCount a)).find? (fun j => comp a j 0 2 == id)).map (fun j => (a, j))

/-- The bytes of an installed component in flash. -/
def State.installed (s : State) (slot : Nat) (m : List Byte) (i : Nat) : List Byte :=
  s.rdBytes (slotBase slot + comp m i 0x1C 4) (comp m i 0x18 4)

/-- Every DELTA base matches the active slot's component, by hash and by content (R427). -/
def State.basesMatch (s : State) (m : List Byte) : Bool :=
  (List.range (manCount m)).all (fun i =>
    comp m i 3 1 == 0 ||
      match s.deltaBase (comp m i 0 2) with
      | some (a, j) =>
        compBase m i == compResult a j &&
          compBase m i == Config.sha384 (s.installed s.activeSlot a j)
      | none => false)

/-- The checks of OPEN after the lock is taken: RES, 0 when all pass (R427). -/
def State.openCheck (s : State) (m : List Byte) : Nat :=
  if !s.manTargets m then 4
  else if manFlag m 1 && !s.hasCip then 11
  else if !s.arcsAllow m then 5
  else if !s.basesMatch m then 6
  else 0

/-- Every other OPEN that waits ends BUSY. -/
def State.rejectOpens (s : State) : State :=
  let s' := s.boot.opens.foldl (fun acc o => (acc.bump Cnt.BOOT_BUSY_REJ).endUpdate o.1 1) s
  { s' with boot := { s'.boot with opens := [] } }

/-- The slot that a manifest installs into: the inactive slot, or the recovery region. -/
def State.targetSlot (s : State) (m : List Byte) : Nat := if manFlag m 2 then 2 else s.inactiveSlot

/-- A manifest's signature is valid: its channel takes the lock, every other OPEN ends BUSY, and the checks that
follow are made (R427, R428). -/
def State.openSession (s : State) (ch : Nat) (m : List Byte) : State :=
  let s := ((s.setSession 1).setFld Reg.BOOT_SESSION 4 2 ch).bump Cnt.BOOT_SESSIONS
  let s := s.rejectOpens
  match s.openCheck m with
  | 0 =>
    let s := (s.emptyBootSlot (s.targetSlot m)).setSession 2
    let s := { s with boot := { s.boot with manifest := m, payload := [], complete := false } }
    (s.progress.bootRecord 4).endUpdate ch 0
  | r => (s.wr Reg.BOOT_SESSION 0).endUpdate ch r

/-- MANIFEST_VERIFY_DONE: the verification that runs in the vault, of the oldest waiting OPEN; the first valid
signature takes the lock. -/
def execManifestVerifyDone (s : State) : Host.Outcome State Fault Refusal :=
  .next (if s.vlt.running ≠ some bootPath then s
    else
      let s := s.leaveQueue bootPath
      match s.boot.opens with
      | [] => s.nextCommand
      | (ch, m) :: rest =>
        let s := { s with boot := { s.boot with opens := rest } }
        (if s.manVerifies m (natAt m 0xC 1) then s.openSession ch m else s.endUpdate ch 3).queueManifest)

/-- The component being streamed, and the segments accepted in it. -/
def State.compNow (s : State) : Nat := s.fld Reg.BOOT_SESSION 8 5
def State.segNow (s : State) : Nat := s.fld Reg.BOOT_SESSION 16 16

/-- Segments of a payload of `plen` bytes, tags included, and the length of one (R422). -/
def segCount (plen : Nat) : Nat := (65551 + plen) / 65552
def segLen (plen k : Nat) : Nat := min 65552 (plen - 65552 * k)

/-- Every component is complete (R429). -/
def State.streamDone (s : State) : Bool := s.boot.complete

/-- STREAM: the next segment is read and waits (R429). -/
def execStream (m : Master) (ch : Fin 3) (s : State) : Host.Outcome State Fault Refusal :=
  .next (updateCmd m ch.val 2 (fun s =>
    if !s.holdsLock ch.val || s.session != 2 || s.streamDone then s.endUpdate ch.val 10
    else
      let d := s.updateData ch.val
      match s.busRead patchMaster d.1 d.2 with
      | (.error _, s) => s.endUpdate ch.val 15
      | (.ok bs, s) =>
        let s := s.startUpdate ch.val
        { s with boot := { s.boot with segment := some (ch.val, bs) } }) s)

/-- The vault grants the payload key: the slot VALID, derivable into a job key context for GCM decrypt by
the patch engine (R282, R422). -/
def State.payloadKeyOk (s : State) (slot : Nat) : Bool :=
  s.vaultState == 1 && s.slotState slot == 1 && s.policyBit slot 5 && s.policyBit slot 11 &&
    (!s.policyBit slot 38 || s.policy slot 32 6 == 0x33) &&
    (s.ancestors slot).all (fun a => s.slotState a == 1)

/-- A segment's plain bytes when its length and tag are right (R422, R429). -/
def State.openSegment (s : State) (i k : Nat) (bs : List Byte) : Option (List Byte) :=
  let m := s.boot.manifest
  let data := bs.take (bs.length - 16)
  let tag := bs.drop (bs.length - 16)
  let head := bytesBE 2 (comp m i 0 2) ++ bytesBE 4 k
  if bs.length ≠ segLen (comp m i 0x14 4) k ∨ bs.length < 16 then none
  else if manFlag m 1 then
    let slot := natAt m 0x2A 2
    if !s.payloadKeyOk slot then none
    else
      let key := s.derivedKey slot true ((manDigest m).take 32)
      let iv := head ++ List.replicate 6 0
      if (Config.gcmTag key iv [] data).take 16 = tag then some (Config.gcmDecrypt key iv data)
      else none
  else if (Config.sha384 (head ++ data)).take 16 = tag then some data
  else none

/-- The output of the component so far: the payload, or what the patch engine makes of it; none for a
rejected construct. `last` says that the payload is whole. -/
def State.patchOutput (s : State) (i : Nat) (last : Bool) : Option (List Byte) :=
  let m := s.boot.manifest
  if comp m i 3 1 = 0 then some s.boot.payload
  else
    let base := match s.deltaBase (comp m i 0 2) with
      | some (a, j) => s.installed s.activeSlot a j
      | none => []
    match vcdiff base s.boot.payload with
    | some (out, whole) =>
      if (last && !whole) || decide (comp m i 0x18 4 < out.length) then none else some out
    | none => none

/-- The session ends by abort, with a result for the command in progress. -/
def State.failSession (s : State) (ch res : Nat) : State := s.abortSession.endUpdate ch res

/-- An accepted segment passes into the inactive region; after a component's last, its hash is checked. -/
def State.acceptSegment (s : State) (ch : Nat) (plain : List Byte) : State :=
  let m := s.boot.manifest
  let i := s.compNow
  let k := s.segNow
  let last := decide (segCount (comp m i 0x14 4) ≤ k + 1)
  let s := { s with boot := { s.boot with payload := s.boot.payload ++ plain } }
  match s.patchOutput i last with
  | none => s.failSession ch 9
  | some out =>
    let s := s.wrMem (slotBase (s.targetSlot m) + comp m i 0x1C 4) (out.take (comp m i 0x18 4))
    let s := s.progress
    if !last then (s.setFld Reg.BOOT_SESSION 16 16 (k + 1)).endUpdate ch 0
    else if out.length ≠ comp m i 0x18 4 ∨ Config.sha384 out ≠ compResult m i then s.failSession ch 8
    else
      let all := decide (manCount m ≤ i + 1)
      let s := { s with boot := { s.boot with payload := [], complete := all } }
      let s := if all then s.setFld Reg.BOOT_SESSION 16 16 (k + 1)
        else (s.setFld Reg.BOOT_SESSION 8 5 (i + 1)).setFld Reg.BOOT_SESSION 16 16 0
      s.endUpdate ch 0

/-- SEGMENT_DONE: the segment is verified and installed, or fails; `flashOk` says whether erase and program
succeeded. -/
def execSegmentDone (flashOk : Bool) (s : State) : Host.Outcome State Fault Refusal :=
  .next (match s.boot.segment with
    | none => s
    | some (ch, bs) =>
      let s := { s with boot := { s.boot with segment := none } }
      let s := if manFlag s.boot.manifest 1 && s.payloadKeyOk (natAt s.boot.manifest 0x2A 2) then
          s.reshare (natAt s.boot.manifest 0x2A 2) else s
      match s.openSegment s.compNow s.segNow bs with
      | none => (s.bump Cnt.BOOT_SEG_FAIL).endUpdate ch 7
      | some plain =>
        if flashOk then (s.monEvent 0x282).acceptSegment ch plain else s.endUpdate ch 12)

/-- The counters that a committed image raises, and the record of the update (R424, R431). -/
def State.commitImage (s : State) (m : List Byte) : State :=
  (((s.wr Reg.BOOT_SESSION 0).raiseArcs m).bump Cnt.BOOT_COMMITS).bootRecord 4

/-- FINISH: every component complete; the manifest is written; of a recovery image it is the commit too. -/
def execFinish (m : Master) (ch : Fin 3) (s : State) : Host.Outcome State Fault Refusal :=
  .next (updateCmd m ch.val 3 (fun s =>
    if !s.holdsLock ch.val || s.session != 2 || !s.streamDone then s.endUpdate ch.val 10
    else
      let man := s.boot.manifest
      let s := (s.wrMem (slotBase (s.targetSlot man)) man).progress
      let s := if manFlag man 2 then s.commitImage man else s.setSession 3
      s.endUpdate ch.val 0) s)

/-- ARM: the inactive slot becomes PENDING, on trial (R430). -/
def execArm (m : Master) (ch : Fin 3) (s : State) : Host.Outcome State Fault Refusal :=
  .next (updateCmd m ch.val 4 (fun s =>
    if !s.holdsLock ch.val || s.session != 3 then s.endUpdate ch.val 10
    else
      let s := (s.setFld Reg.BOOT_STATE 1 1 s.inactiveSlot).setBit Reg.BOOT_STATE 2 true
      let s := (s.setFld Reg.BOOT_STATE 3 2 0).setSession 4
      (s.bootRecord 4).endUpdate ch.val 0) s)

/-- ABORT on the channel that holds the lock. -/
def execSessionAbort (m : Master) (ch : Fin 3) (s : State) : Host.Outcome State Fault Refusal :=
  .next (updateCmd m ch.val 5 (fun s =>
    if !s.holdsLock ch.val then s.endUpdate ch.val 10 else s.abortSession.endUpdate ch.val 0) s)

/-- SESSION_TIMEOUT: ten minutes have passed without progress; the timer is stopped in TRIAL. -/
def execSessionTimeout (s : State) : Host.Outcome State Fault Refusal :=
  .next (if s.session = 0 ∨ 4 ≤ s.session ∨ s.idleSeconds < 600 then s
    else
      let ch := s.lockHolder
      ({ s with boot := { s.boot with segment := none } }.abortSession).endUpdate ch 13)

/-! ## Commit (R431) -/

/-- UPDATE_COMMIT: accepted only while the main image runs from PENDING with TRIAL set. -/
def execUpdateCommit (m : Master) (s : State) : Host.Outcome State Fault Refusal :=
  .next (guardReg m Reg.BOOT_CTL (fun s =>
    if !s.trial || s.session != 4 || s.fld Reg.BOOT_STATE 5 2 != s.pendingSlot then
      s.deny Reg.BOOT_CTL m.pmid.toNat
    else
      let man := (s.slotManifest s.pendingSlot).getD []
      let s := (s.setFld Reg.BOOT_STATE 0 1 s.pendingSlot).setBit Reg.BOOT_STATE 2 false
      s.commitImage man) s)

/-- BOOT_ABORT: the session, or the trial, is aborted. -/
def execBootAbort (m : Master) (s : State) : Host.Outcome State Fault Refusal :=
  .next (guardReg m Reg.BOOT_CTL (fun s => s.dropSegment.abortSession) s)

/-! ## MRAM and the black box (R409, R434 to R438) -/

/-- MRAM_WRITE: a write of NVS_WDATAH stores the word in the settings store; elsewhere it is refused. -/
def execMramWrite (m : Master) (data : Word) (s : State) : Host.Outcome State Fault Refusal :=
  .next (guardReg m Reg.NVS_WDATAH (fun s =>
    let off := s.fld Reg.NVS_WADDR 3 20 * 8
    let s := s.setFld Reg.NVS_WADDR 3 20 (off / 8 + 1)
    if 0x200000 ≤ off ∧ off < 0x400000 then
      s.wrMem (0x10000000 + off) (bytesLE 4 (s.rdN Reg.NVS_WDATAL) ++ bytesLE 4 data.toNat)
    else s.deny Reg.NVS_WDATAH m.pmid.toNat) s)

/-- BB_RECORD_WRITE: the oldest queued record is written, a LOST record before it when records were
lost; a RESET reaction waits for the last of them (R451). -/
def execBbRecordWrite (s : State) : Host.Outcome State Fault Refusal :=
  .next (match (if s.coreHeld then [] else s.bbQueue) with
    | [] => s
    | r :: rest =>
      let s := if 0 < s.bbLost then s.lostRecord else s
      let s := { s with bbQueue := rest }.writeRecord r
      if s.flt.resetPending && s.bbQueue.isEmpty then s.holdCore else s)

/-- SOFTWARE_RECORD: held by handshake while fewer than 16 places of the queue are free.
DESIGN CHOICE, unsafe (log entry 33). -/
def execSoftwareRecord (m : Master) (code : BitVec 16) (s : State) :
    Host.Outcome State Fault Refusal :=
  .next (guardReg m Reg.NVS_BBCMD (fun s =>
    if 48 < s.bbQueue.length then s
    else
      let s := s.setFld Reg.NVS_BBCMD 0 16 code.toNat
      s.blackBox 5 code.toNat false m.pmid.toNat
        ((List.range 8).map (fun i => s.rd (Reg.NVS_BBSWDATA i)))) s)

/-- BB_EXPORT: a write of word 0x044 applies the mark, or is refused. -/
def execBbExport (m : Master) (data : Word) (s : State) : Host.Outcome State Fault Refusal :=
  .next (guardReg m Reg.NVS_BBEXPORT_H (fun s =>
    let mark := s.rdN Reg.NVS_BBEXPORT_L + 2 ^ 32 * data.toNat
    if mark < s.exportMark ∨ s.boxSeq < mark then s.setBit Reg.NVS_BBSTAT 9 true
    else
      let s := (s.wr Reg.NVS_BBEXPORT_H data).wrMem 0x10011188 (bytesLE 8 mark)
      { s with
        box := { s.box with
          areas := s.box.areas.filter (fun a => decide (mark < a.seq + 1024)) } }.showAreas) s)

/-- BB_CLEAR: the clear message is checked; the records up to UPTO are zeroed, the counter committed and
a CLEAR record written. -/
def execBbClear (m : Master) (s : State) : Host.Outcome State Fault Refusal :=
  .next (guardReg m Reg.NVS_BBCMD (fun s =>
    let msg := s.regBytes (Reg.NVS_CLRBUF 0) 236
    let r := s.clearCheck msg
    let s := s.setFld Reg.NVS_BBSTAT 12 4 r
    if r ≠ 0 then s
    else
      let upto := natAt msg 0x18 8
      let s := (s.clearRecords upto).setCommitWord 0x10011190 (natAt msg 0x20 8)
      let n := s.freeCtr
      let s := { s with freeCtr := n + 7 }
      s.writeRecord
        { type := 9, code := (Config.freeWord n).toNat % 65536, freeze := false,
          pmid := m.pmid.toNat, rtcBad := !s.rtcValid, rtcSec := s.rtcSec,
          rtcTicks := s.rtcTicks % 32768, ns := s.dom0Ns,
          data := [BitVec.ofNat 32 upto, BitVec.ofNat 32 (upto / 2 ^ 32)] ++
            (List.range 6).map (fun i => Config.freeWord (n + 1 + i)) }) s)

end Sys2Proof.Machine
end

