-- ==== Sys2Proof/Machine/Bridge.lean ====
section
/-!
DEFINITION. The commands of the host bridge toward the link: the link itself, outbound requests and their
ends, fences, prefetch, polls, signals and the frame rings (chapter *Host bridge*).
-/

namespace Sys2Proof.Machine

open Sys2Proof

/-! ## The link (R312, R319) -/

/-- PCIE_LINK_UP: the link trains to L0, within the sampled width, rate and VC1 offer. -/
def execPcieLinkUp (width : Fin 3) (speed : Fin 4) (vc1 : Bool) (s : State) :
    Host.Outcome State Fault Refusal :=
  .next (match s.hbr.pcfg with
    | none => s
    | some c =>
      if s.linkUp || !s.blkEn 0x1E || (!s.rootPort && !s.hbr.perst) then s
      else
        let maxW := min 2 (getBits c 1 2)
        let maxS := if 1 ≤ getBits c 3 3 ∧ getBits c 3 3 ≤ 4 then getBits c 3 3 else 4
        let s := (s.setBit Reg.HBR_PSTAT 0 true).setFld Reg.HBR_PSTAT 1 3 (2 ^ min width.val maxW)
        (s.setFld Reg.HBR_PSTAT 4 3 (min (speed.val + 1) maxS)).setBit Reg.HBR_PSTAT 7
          (vc1 && getBit c 6))

/-- The link goes down: outstanding requests end at once; posted writes in the buffers are discarded and
logged as one entry with their number; prefetched data is discarded (R317 to R319, R323). -/
def State.loseLinkPcie (s : State) (byPm : Bool) : State :=
  if !s.linkUp then s
  else
    let s := (s.bump Cnt.HBR_LINK_DOWN).wr Reg.HBR_PSTAT (s.rd Reg.HBR_PSTAT &&& 0x100)
    let s := if byPm then s else s.fault 0x2282 0
    let s := s.hbr.requests.foldl (fun acc x => acc.failRequest x 0xC) s
    let n := s.hbr.posted.length
    let s := { s with hbr := { s.hbr with posted := [] } }
    let s := if n = 0 then s else s.hbrLog 0xC { master := bridgeMaster true, bus := n }
    s.discardPrefetch (fun _ => true)

/-- PCIE_LINK_DOWN: the link leaves L0, by a power-management request or not. -/
def execPcieLinkDown (byPm : Bool) (s : State) : Host.Outcome State Fault Refusal :=
  .next (s.loseLinkPcie byPm)

/-- PERST_N_CHANGE: in endpoint mode a low level holds the link in reset, and release lets it train; as a
root port the module drives the line, and before the first enable it is high-impedance (R478). -/
def execPerstNChange (level : Bool) (s : State) : Host.Outcome State Fault Refusal :=
  .next (
    let s := { s with hbr := { s.hbr with perst := level } }
    if s.hbr.pcfg.isNone || s.rootPort || level then s else s.loseLinkPcie false)

/-! ## Outbound requests (R314 to R318) -/

/-- The bytes of a read, from the aligned 8-byte group of the bus that holds them. -/
def laneRead (lanes bus size : Nat) (group : List Byte) : BitVec 64 :=
  BitVec.ofNat 64 (natLE ((List.range size).map
    (fun i => group.getD (laneAddr lanes size (bus + i) % 8) 0)))

/-- Prefetched data that serves a read of a window in a world (R317). -/
def State.prefetchHit (s : State) (w : Nat) (indigo : Bool) (bus size : Nat) : Option PfBlock :=
  s.hbr.prefetched.find? (fun x =>
    x.win == w && x.indigo == indigo && decide (x.bus ≤ bus / 8 * 8) &&
      decide (bus + size ≤ x.bus + x.bytes.length))

/-- An access of a master to an outbound window. -/
def State.outbound (s : State) (m : Master) (a : Nat) (size : AccessSize) (write : Bool)
    (data : BitVec 64) : State :=
  let n := size.bytes
  match s.memCheck m a (if write then .write else .read) with
  | some c => s.busError m a write c
  | none =>
    match s.outboundWindow a with
    | none => s
    | some (w, x) =>
      let bus := x.map a
      if write then
        if s.postRoom x.urgent n then
          (s.post
            { urgent := x.urgent, win := w, addr := a, bus := bus, master := m,
              cells := (List.range n).map
                (fun i => (laneAddr x.lanes n (bus + i), byteOf data.toNat i)) }).reply 0
        else s
      else
        match (if x.pf then s.prefetchHit w m.indigo bus n else none) with
        | some b =>
          let mark := s.hbr.prefetched.map (fun y => 
            if y = b then { y with served := true, used := s.nowNs } else y)
          { s with hbr := { s.hbr with prefetched := mark } }.reply
            (laneRead x.lanes bus n (bytesAt b.bytes (bus / 8 * 8 - b.bus) 8))
        | none =>
          let r : HbrRequest :=
            { id := 0, kind := .read, master := m, win := w, addr := a, bus := bus, size := n,
              urgent := x.urgent, lanes := x.lanes, pf := x.pf }
          if !s.linkUp then
            (s.hbrLog 0xC { win := w, master := m, bus := bus, addr := a }).linkBusError m a
          else if s.npRoom x.urgent then s.request r
          else s

/-- OUTBOUND_REQUEST: an access is checked, translated and queued; a full buffer holds it. -/
def execOutboundRequest (m : Master) (addr : BitVec 40) (size : AccessSize) (write : Bool)
    (data : BitVec 64) (s : State) : Host.Outcome State Fault Refusal :=
  .next (if targetOf addr.toNat = .outbound then s.outbound m addr.toNat size write data
    else s.busError m addr.toNat write 6)

/-- Bytes that a completion brings beyond its read are kept as prefetched data, up to 512 bytes and to
the end of the 4 KiB page, while a block is free; not when the window was committed meanwhile (R317, R327).
DEDUCED, unsafe (log entry 89). -/
def State.keepPrefetch (s : State) (x : HbrRequest) (data : List Byte) : State :=
  let base := x.bus / 8 * 8
  let n := min (min 512 data.length) (4096 - base % 4096)
  if x.pf && decide (8 < n) && decide (s.hbr.prefetched.length < 16) then
    let b : PfBlock := ⟨x.win, x.master.indigo, x.addr, base, data.take n, false, s.nowNs⟩
    { s with hbr := { s.hbr with prefetched := s.hbr.prefetched ++ [b] } }
  else s

/-- OUTBOUND_COMPLETION: data for a read, from the aligned 8-byte group of the bus that holds its address
and onward, under the window the request matched (R314); or an error. Posted writes of its class made
before it have left (R315). -/
def execOutboundCompletion (id : Nat) (st : CplStatus) (data : List Byte) (s : State) :
    Host.Outcome State Fault Refusal :=
  .next (match s.requestOf id with
    | none => s
    | some x =>
      if x.kind ≠ .read then s
      else
        let st := s.cplStatus st
        let s := s.flushPosted x.urgent id
        if st ≠ .ok then s.failRequest x (cplType st)
        else
          ((s.closeRequest id).keepPrefetch x data).reply (laneRead x.lanes x.bus x.size (data.take 8)))

/-- COMPLETION_TIMEOUT: the completion timer of a request ends: US, plus the replays within its grace (R322). -/
def execCompletionTimeout (id : Nat) (s : State) : Host.Outcome State Fault Refusal :=
  .next (match s.requestOf id with
    | none => s
    | some x =>
      if s.nowNs < x.due then s else ((s.bump Cnt.HBR_CPL_TIMEOUT).monEvent 0x325).failRequest x 5)

/-- PCIE_REPLAY: the data link layer has replayed for a time, which is open, and the completion timers paused
meanwhile.
DESIGN CHOICE, safe (log entry 151). -/
def execPcieReplay (s : State) : Host.Outcome State Fault Refusal :=
  .next (if s.linkUp then
      let f := s.takeFree
      let s := (f.2.bump Cnt.HBR_REPLAY).monEvent 0x324
      { s with hbr := { s.hbr with requests := s.hbr.requests.map (fun x => x.pause (Config.freeNat f.1)) } }
    else s)

/-! ## Errors (R319, R323) -/

/-- ERROR_MESSAGE_RECEIVED: an entry with the failing request, or the most recent posted write; ERR. -/
def execErrorMessageReceived (sev : Fin 3) (rid : BitVec 16) (failing : Option FailedRequest)
    (s : State) : Host.Outcome State Fault Refusal :=
  .next (if !s.linkUp then s
    else
      let e : HbrError := match failing with
        | some f =>
          { win := f.win.val, master := f.master, bus := f.addr.toNat, rid := rid.toNat }
        | none =>
          match s.hbr.latest with
          | some x =>
            { win := x.win, master := x.master, bus := x.bus, addr := x.addr, rid := rid.toNat }
          | none => { master := bridgeMaster true, rid := rid.toNat }
      let s := (s.hbrLog (6 + sev.val) e).hbrIrq 0
      { s with hbr := { s.hbr with fenceError := true } })

/-- BRIDGE_BUFFER_ERROR: the TLP is discarded and logged as POISON; fault 0x2283. -/
def execBridgeBufferError (tlp : BufferTlp) (s : State) : Host.Outcome State Fault Refusal :=
  .next (match tlp with
    | .posted k =>
      match s.hbr.posted[k]? with
      | none => s
      | some x =>
        let s := { s with hbr := { s.hbr with posted := s.hbr.posted.eraseIdx k } }
        (s.hbrLog 3 { win := x.win, master := x.master, bus := x.bus, addr := x.addr }).fault 0x2283 0
    | .completion id =>
      match s.requestOf id with
      | none => s
      | some x => (s.failRequest x 3).fault 0x2283 0
    | .inbound a rid =>
      (s.hbrLog 3 { inbound := true, master := bridgeMaster true, bus := a.toNat,
                    rid := rid.toNat }).fault 0x2283 0)

/-! ## The fence (R320) -/

/-- No fence finds room among the outstanding requests of its window's class: its GO stalls (R327). -/
def State.fenceWaits (s : State) (w : Nat) : Bool :=
  match s.outWindow w with
  | none => false
  | some x => !s.bit Reg.HBR_FENCESTAT 0 && s.linkUp && !s.npRoom x.urgent

/-- FENCE: GO sends a zero-length read behind the posted writes of the window's class. -/
def execFence (m : Master) (w : Fin 64) (s : State) : Host.Outcome State Fault Refusal :=
  .next (guardReg m Reg.HBR_FENCE (fun s =>
    if s.fenceWaits w.val then s
    else
      let s := s.setFld Reg.HBR_FENCE 0 6 w.val
      if s.bit Reg.HBR_FENCESTAT 0 then s
      else
        match s.outWindow w.val with
        | none => s.endFence 5
        | some x =>
          let s := { s.bump Cnt.HBR_FENCES with hbr := { s.hbr with fenceError := false } }
          if !s.linkUp then s.endFence 4
          else
            (s.setBit Reg.HBR_FENCESTAT 0 true).request
              { id := 0, kind := .fence, master := m, win := w.val, addr := x.base, bus := x.target,
                size := 0, urgent := x.urgent, lanes := x.lanes }) s)

/-- FENCE_DONE: every earlier posted write of the class has been delivered; RES. -/
def execFenceDone (st : CplStatus) (s : State) : Host.Outcome State Fault Refusal :=
  .next (match s.hbr.requests.find? (fun x => x.kind == .fence) with
    | none => s
    | some x =>
      let st := s.cplStatus st
      let s := s.flushPosted x.urgent x.id
      if st = .ok then (s.closeRequest x.id).endFence (b2n s.hbr.fenceError)
      else s.failRequest x (cplType st))

/-- PREFETCH_EXPIRY: a block has been unused for 10 µs. -/
def execPrefetchExpiry (k : Fin 16) (s : State) : Host.Outcome State Fault Refusal :=
  .next (match s.hbr.prefetched[k.val]? with
    | none => s
    | some x =>
      if s.nowNs < x.used + 10000 then s
      else
        { s with hbr := { s.hbr with prefetched := s.hbr.prefetched.eraseIdx k.val } }.dropPrefetch x)

/-! ## The poll engine (R324) -/

/-- A read of the descriptor is outstanding. -/
def State.polling (s : State) (d : Nat) : Option HbrRequest :=
  s.hbr.requests.find? (fun x => x.kind == .poll d)

/-- The time a descriptor's next read is due. -/
def State.pollDue (s : State) (d : Nat) : Nat := Store.get (fun _ => 0) s.hbr.pollAt d

/-- The next read of a descriptor is due PERIOD from now: 1 to 1,000,000 units of 10 µs. -/
def State.pollNext (s : State) (d : Nat) : State :=
  let at_ := s.nowNs + 10000 * clampNat 1 1000000 (s.fld (Reg.HBR_POLL_w0 d) 12 20)
  { s with hbr := { s.hbr with pollAt := Store.set (fun _ => 0) s.hbr.pollAt d at_ } }

/-- POLL_READ: the period of an active descriptor elapses.
DESIGN CHOICE, safe (log entry 151). -/
def execPollRead (d : Fin 64) (s : State) : Host.Outcome State Fault Refusal :=
  .next (
    let w := s.fld (Reg.HBR_POLL_w0 d.val) 4 6
    if !s.bit (Reg.HBR_POLL_w0 d.val) 0 || decide (s.nowNs < s.pollDue d.val) then s
    else if (s.polling d.val).isSome then (s.bump Cnt.HBR_POLL_SKIP).pollNext d.val
    else
      match s.outWindow w with
      | none => s.pollFail d.val { master := bridgeMaster true }
      | some x =>
        let off := s.rdN (Reg.HBR_POLL_w1 d.val) / 4 * 4
        if !s.linkUp then
          s.pollFail d.val { master := bridgeMaster x.indigo, bus := x.target + off }
        else if s.npRoom true then
          ((s.bump Cnt.HBR_POLL_READS).pollNext d.val).request
            { id := 0, kind := .poll d.val, master := bridgeMaster x.indigo, win := w,
              addr := x.base + off, bus := x.target + off, size := 4, urgent := true,
              lanes := x.lanes }
        else s)

/-- The word of a poll hits (R324). -/
def State.pollHit (s : State) (d : Nat) (w : Word) : Bool :=
  let mask := s.rd (Reg.HBR_POLL_w2 d)
  match s.fld (Reg.HBR_POLL_w0 d) 1 2 with
  | 1 => w &&& mask != s.rd (Reg.HBR_POLL_w3 d)
  | 2 => Store.get (fun _ => false) s.hbr.polled d && w &&& mask != s.rd (Reg.HBR_POLL_w4 d) &&& mask
  | _ => w &&& mask == s.rd (Reg.HBR_POLL_w3 d)

/-- POLL_COMPLETION: the word after the byte-lane rule is recorded, and a hit; or an error. -/
def execPollCompletion (d : Fin 64) (st : CplStatus) (data : List Byte) (s : State) :
    Host.Outcome State Fault Refusal :=
  .next (match s.polling d.val with
    | none => s
    | some x =>
      let st := s.cplStatus st
      let s := s.flushPosted true x.id
      if st ≠ .ok then s.failRequest x (cplType st)
      else
        let w : Word := (laneRead x.lanes x.bus 4 data).setWidth 32
        let hit := s.pollHit d.val w
        let s := (s.closeRequest x.id).wr (Reg.HBR_POLL_w4 d.val) w
        let s := { s with
          hbr := { s.hbr with polled := Store.set (fun _ => false) s.hbr.polled d.val true } }
        if hit then
          let s := (s.setBit (Reg.HBR_POLLHIT (d.val / 32)) (d.val % 32) true).hbrIrq 2
          if s.bit (Reg.HBR_POLL_w0 d.val) 3 then s.setBit (Reg.HBR_POLL_w0 d.val) 0 false else s
        else s)

/-! ## Signals (R325) -/

/-- One posted 32-bit write to a bus address, in the urgent class. -/
def State.signalWrite (s : State) (m : Master) (bus : Nat) (data : Word) : State :=
  s.post
    { urgent := true, win := 0, addr := 0, bus := bus, master := m,
      cells := (List.range 4).map (fun i => (bus + i, byteOf data.toNat i)) }

/-- SIGNAL_TRIGGER: the selected writes, in ascending order; in endpoint mode MSI-X messages of the
vectors the host has unmasked, with the address and data it programmed, and the rest kept pending.
DESIGN CHOICE, safe (log entry 90). -/
def execSignalTrigger (m : Master) (sig unmasked : Word) (s : State) :
    Host.Outcome State Fault Refusal :=
  .next (guardReg m Reg.HBR_SIGTRIG (fun s =>
    if s.rootPort then
      ((List.range 32).filter (fun i => getBit sig i)).foldl (fun acc i =>
        acc.signalWrite m (acc.rdN (Reg.HBR_SIG_w0_2 i 0) + 2 ^ 32 * acc.rdN (Reg.HBR_SIG_w0_2 i 1))
          (acc.rd (Reg.HBR_SIG_w0_2 i 2))) s
    else
      let want := sig ||| s.hbr.msixPending
      let s := { s with hbr := { s.hbr with msixPending := want &&& ~~~unmasked } }
      ((List.range 32).filter (fun i => getBit (want &&& unmasked) i)).foldl (fun acc _ =>
        let n := acc.freeCtr
        { acc with freeCtr := n + 3 }.signalWrite m
          ((Config.freeWord n).toNat + 2 ^ 32 * (Config.freeWord (n + 1)).toNat)
          (Config.freeWord (n + 2))) s) s)

/-! ## The frame rings (R326) -/

/-- RING_TAIL_WRITE: a write of TAIL hands descriptors to the bridge. -/
def execRingTailWrite (m : Master) (r : Fin 2) (tail : Word) (s : State) :
    Host.Outcome State Fault Refusal :=
  .next (guardReg m (Reg.HBR_RING_w3 r.val) (fun s => s.wr (Reg.HBR_RING_w3 r.val) tail) s)

/-- The number of entries of a ring. -/
def State.ringSize (s : State) (r : Nat) : Nat :=
  2 ^ clampNat 4 12 (s.fld (Reg.HBR_RING_w0 r) 12 4)

/-- The window of a ring that can work now: EN, the link up, the window enabled, and descriptors between
HEAD and TAIL. -/
def State.ringWindow (s : State) (r : Nat) : Option (Nat × Window) :=
  if !s.bit (Reg.HBR_RING_w0 r) 0 || !s.linkUp ||
      s.rdN (Reg.HBR_RING_w2 r) % s.ringSize r == s.rdN (Reg.HBR_RING_w3 r) % s.ringSize r then none
  else
    let w := s.fld (Reg.HBR_RING_w0 r) 16 6
    (s.outWindow w).map (fun x => (w, x))

/-- A write into host memory through a ring's window, at an offset within it.
DEDUCED, unsafe (log entry 91). -/
def State.ringWrite (s : State) (w : Nat) (x : Window) (off : Nat) (bs : List Byte) : State :=
  s.postAll (bridgeMaster x.indigo) w x bs.length (x.base + off) bs

/-- Offset within the window of the descriptor at HEAD. -/
def State.ringOffset (s : State) (r : Nat) : Nat :=
  s.rdN (Reg.HBR_RING_w1 r) / 16 * 16 + 16 * (s.rdN (Reg.HBR_RING_w2 r) % s.ringSize r)

/-- The descriptor at HEAD is done: its length and cleared OWN are written back, and HEAD advances. -/
def State.ringDone (s : State) (r : Nat) (w : Nat) (x : Window) (len tc : Nat) : State :=
  let s := s.ringWrite w x (s.ringOffset r + 8) (bytesLE 2 len ++ bytesLE 1 (2 * tc))
  s.wrN (Reg.HBR_RING_w2 r) ((s.rdN (Reg.HBR_RING_w2 r) + 1) % s.ringSize r)

/-- Port 35 is held by handshake. -/
def State.hostHeld (s : State) : Bool := s.anyXoff 35 || s.poolFree == 0 || s.fab.closed

/-- RING_TX_FRAME: the descriptor at HEAD of the transmit ring and its frame, as host memory holds them,
move into port 35; a length out of range is skipped. -/
def execRingTxFrame (own : Bool) (tc : Fin 8) (len : BitVec 16) (bytes : List Byte) (s : State) :
    Host.Outcome State Fault Refusal :=
  .next (match s.ringWindow 0 with
    | none => s
    | some (w, x) =>
      if !own || s.hostHeld then s
      else if len.toNat < 64 ∨ 9216 < len.toNat then s.ringDone 0 w x 0 tc.val
      else
        let f := s.nextFrame
        let s := s.injectFrame 35 (bytesAt bytes 0 len.toNat)
        let s := match s.frame f with
          | some v => s.setFrame f { v with tc := tc.val }
          | none => s
        (s.bump Cnt.HBR_RING_TX_FRAMES).ringDone 0 w x len.toNat tc.val)

/-- RING_RX_FRAME: the oldest frame from port 35 fills the descriptor at HEAD of the receive ring, when it
is owned; `buffer` is its buffer offset. -/
def execRingRxFrame (own : Bool) (buffer : BitVec 64) (s : State) :
    Host.Outcome State Fault Refusal :=
  .next (match Store.get (fun _ => []) s.fab.delivered 35, s.ringWindow 1 with
    | bs :: rest, some (w, x) =>
      if !own then s
      else
        let s := { s with
          fab := { s.fab with delivered := Store.set (fun _ => []) s.fab.delivered 35 rest } }
        let s := s.ringWrite w x buffer.toNat bs
        (s.bump Cnt.HBR_RING_RX_FRAMES).ringDone 1 w x bs.length 0
    | _, _ => s)

end Sys2Proof.Machine
end

