-- ==== Sys2Proof/Machine/Cipher.lean ====
section
/-!
DEFINITION. The commands of the cipher engine: lanes, the entropy source, SA contexts, key contexts and
general jobs (chapter *Cipher engine*).
-/

namespace Sys2Proof.Machine

open Sys2Proof

/-! ## Lanes (R248) -/

/-- A lane. -/
def State.lane (s : State) (l : Nat) : CipherLane := Store.get (fun _ => {}) s.cip.lanes l

/-- Lanes in service. -/
def State.lanesIn (s : State) : Nat := ((List.range 4).filter (s.bit Reg.CIP_LANESTAT)).length

/-- LANE_MISMATCH: a lane goes out of service, for good when it returned less than 1 s ago. -/
def execLaneMismatch (lane : Fin 4) (s : State) : Host.Outcome State Fault Refusal :=
  .next (if !s.cipUp || !s.bit Reg.CIP_LANESTAT lane.val then s
    else
      let again := match (s.lane lane.val).returned with
        | some t => decide (s.nowNs - t < 1000000000)
        | none => false
      let s := (((s.setBit Reg.CIP_LANESTAT lane.val false).bump Cnt.CIP_LANE_MISMATCH).monEvent
        0x264).fault 0x21C2 0
      let s := { s with cip := { s.cip with
        lanes := Store.set (fun _ => {}) s.cip.lanes lane.val
          { s.lane lane.val with removedAt := s.nowNs } } }
      let s := if again then s.setBit Reg.CIP_LANESTAT (4 + lane.val) true else s
      if s.lanesIn == 2 then s.fault 0x31C3 0 else s)

/-- LANE_RETURN_TEST: 1 ms after its removal, the known-answer test of a lane that is out of service. -/
def execLaneReturnTest (lane : Fin 4) (pass : Bool) (s : State) : Host.Outcome State Fault Refusal :=
  .next (if !s.cipUp || s.bit Reg.CIP_LANESTAT lane.val || s.bit Reg.CIP_LANESTAT (4 + lane.val) || !pass ||
      decide (s.nowNs < (s.lane lane.val).removedAt + 1000000) then s
    else
      { (s.setBit Reg.CIP_LANESTAT lane.val true).bump Cnt.CIP_LANE_RETURN with
        cip := { s.cip with
          lanes := Store.set (fun _ => {}) s.cip.lanes lane.val { returned := some s.nowNs } } })

/-! ## Entropy (R249) -/

/-- CIP_ENTSTAT.FAILED: halted until the next reset of the Core die. -/
def State.entropyFailed (s : State) : Bool := s.bit Reg.CIP_ENTSTAT 1

/-- ENTROPY_HEALTH_FAIL: the source is retried. -/
def execEntropyHealthFail (s : State) : Host.Outcome State Fault Refusal :=
  .next (if !s.cipUp || s.entropyFailed then s
    else { s.setBit Reg.CIP_ENTSTAT 0 false with cip := { s.cip with
        retrying := true, failedAt := if s.cip.retrying then s.cip.failedAt else s.nowNs } })

/-- ENTROPY_RETRY_EXPIRY: the failure has persisted for 10 ms. -/
def execEntropyRetryExpiry (s : State) : Host.Outcome State Fault Refusal :=
  .next (if !s.cipUp || !s.cip.retrying || decide (s.nowNs < s.cip.failedAt + 10000000) then s
    else
      let s := { s.setBit Reg.CIP_ENTSTAT 1 true with cip := { s.cip with retrying := false } }
      ((s.fault 0x31C4 0).disableSas 5).stopJobs 7)

/-- DRBG_RESEED: the source has passed its tests and seeds the DRBG again. -/
def execDrbgReseed (s : State) : Host.Outcome State Fault Refusal :=
  .next (if s.entropyFailed || !s.cipUp then s
    else
      { s.setBit Reg.CIP_ENTSTAT 0 true with
        cip := { s.cip with retrying := false, requests := 0 } })

/-- A read of a register, checked like every read (R32, R35); `eff` gives its data. -/
def guardRead (m : Master) (key : Nat) (eff : State → Word × State) (s : State) : State :=
  match s.regCheck m key .word false with
  | some c => s.busError m (0x40000000 + key) false c
  | none => let r := eff s; r.2.reply (r.1.setWidth 64)

/-- Fresh bits of a random source. -/
def State.draw (s : State) : Word × State := let f := s.takeFree; (Config.freeWord f.1, f.2)

/-- A generate request of the DRBG; after 2^20 of them it is reseeded, unless its source is being retried
(R249, R446). -/
def State.generate (s : State) : State :=
  let n := s.cip.requests + 1
  { s with cip := { s.cip with
      requests := if 2 ^ 20 ≤ n ∧ s.cip.retrying = false ∧ s.entropyFailed = false then 0 else n } }

/-- CIP_RNG_READ. -/
def execCipRngRead (m : Master) (s : State) : Host.Outcome State Fault Refusal :=
  .next (guardRead m Reg.CIP_RNG (fun s => s.generate.draw) s)

/-- VLT_RNG_READ (R271). -/
def execVltRngRead (m : Master) (s : State) : Host.Outcome State Fault Refusal :=
  .next (guardRead m Reg.VLT_RNG State.draw s)

/-! ## SA and key contexts (R253, R259) -/

/-- SA_ENABLE: EN of an SA context is written.
DEDUCED, unsafe (log entry 116). -/
def execSaEnable (m : Master) (sa : Fin 1024) (en : Bool) (s : State) :
    Host.Outcome State Fault Refusal :=
  .next (guardReg m (Reg.CIP_SA_w0 sa.val) (fun s =>
    if !en then (s.setBit (Reg.CIP_SA_w0 sa.val) 0 false).setBit (Reg.CIP_SA_w0 sa.val) 12 false
    else if s.keyLoaded sa.val && s.keyUsage sa.val 0 && !s.entropyFailed then
      s.setBit (Reg.CIP_SA_w0 sa.val) 0 true
    else s.deny (Reg.CIP_SA_w0 sa.val) m.pmid.toNat) s)

/-- KEY_CONTEXT_LOADED: LOADING becomes LOADED. -/
def execKeyContextLoaded (k : Fin 1280) (s : State) : Host.Outcome State Fault Refusal :=
  .next (if s.fld (Reg.CIP_KEYSTAT k.val) 0 2 == 1 then s.setFld (Reg.CIP_KEYSTAT k.val) 0 2 2 else s)

/-- KEY_CLEAR: CIP_KEYCMD is written with CLEAR and a context number. -/
def execKeyClear (m : Master) (ctx : BitVec 11) (s : State) : Host.Outcome State Fault Refusal :=
  .next (guardReg m Reg.CIP_KEYCMD (fun s =>
    let s := s.setFld Reg.CIP_KEYCMD 0 11 ctx.toNat
    if ctx.toNat < 1280 then (s.revokeKey ctx.toNat 2).fault 0x01C7 0 else s) s)

/-! ## Jobs (R260 to R264) -/

/-- JOB_CLAIM: a FREE context becomes CLAIMED by the writer. -/
def execJobClaim (m : Master) (j : Fin 160) (s : State) : Host.Outcome State Fault Refusal :=
  .next (guardReg m (Reg.CIP_JOB_w0 j.val) (fun s =>
    if s.jobState j.val = 0 then
      (s.setJobState j.val 1).setFld (Reg.CIP_JOB_w15 j.val) 12 6 m.pmid.toNat
    else s) s)

/-- JOB_GO: a context that is not FREE and has no job waiting or running is queued; BAD_ARG by R261, and
after an entropy failure new jobs end ABORTED (R249).
DEDUCED, unsafe (log entry 76). -/
def execJobGo (m : Master) (j : Fin 160) (s : State) : Host.Outcome State Fault Refusal :=
  .next (guardReg m (Reg.CIP_JOB_w0 j.val) (fun s =>
    let st := s.jobState j.val
    if st = 0 ∨ (2 ≤ st ∧ st ≤ 4) then s
    else if !s.jobLegal j.val then s.endJob j.val 5
    else if s.entropyFailed then s.endJob j.val 7
    else
      let v := s.job j.val
      let fresh := decide (s.jobOp j.val < 8) || s.bit (Reg.CIP_JOB_w0 j.val) 7
      let s := s.setJob j.val
        { order := s.cip.orders, indigo := m.indigo, pmid := m.pmid.toNat,
          message := if fresh then [] else v.message }
      { s with cip := { s.cip with orders := s.cip.orders + 1 } }.setJobState j.val 2) s)

/-- PRIO of a job. -/
def State.jobPrio (s : State) (j : Nat) : Nat := s.fld (Reg.CIP_JOB_w0 j) 4 2

/-- The job waits for a slot, and for a decrypt job its hold space is free (R263). -/
def State.jobReady (s : State) (j : Nat) : Bool :=
  s.jobState j == 4 ||
    (s.jobState j == 2 && decide (s.fld Reg.CIP_HOLDSTAT 0 6 + s.holdUnits j ≤ 32))

/-- Job `a` goes before job `b`: higher priority, or the older GO within a level (R262). -/
def State.jobBefore (s : State) (a b : Nat) : Bool :=
  decide (s.jobPrio b < s.jobPrio a) ||
    (s.jobPrio a == s.jobPrio b && decide ((s.job a).order < (s.job b).order))

/-- Jobs running on the same kind of unit: lanes or hash cores. -/
def State.runningLike (s : State) (j : Nat) : List Nat :=
  (List.range 160).filter (fun i => s.jobState i == 3 && aesOp (s.jobOp i) == aesOp (s.jobOp j))

/-- Slots for a job: one lane per AES job, one of the two hash cores per hash job (R245, R262). -/
def State.jobSlots (s : State) (j : Nat) : Nat := if aesOp (s.jobOp j) then s.lanesIn else 2

/-- JOB_START: the job that goes first takes a slot, or that of a running job of strictly lower
priority, which is suspended (R244, R248, R262, R263). -/
def execJobStart (j : Fin 160) (s : State) : Host.Outcome State Fault Refusal :=
  .next (
    let n := j.val
    let rivals := (List.range 160).filter (fun i =>
      i != n && s.jobReady i && aesOp (s.jobOp i) == aesOp (s.jobOp n))
    if !s.cipUp || !s.blkAccepts 0x19 || !s.jobReady n || s.jobSlots n == 0 ||
        rivals.any (fun i => s.jobBefore i n) then s
    else
      let go := fun (s : State) =>
        if s.jobState n = 4 then s.setJobState n 3
        else
          match s.keyRefusal n with
          | some r => s.endJob n r
          | none =>
            (s.setJobState n 3).setFld Reg.CIP_HOLDSTAT 0 6 (s.fld Reg.CIP_HOLDSTAT 0 6 + s.holdUnits n)
      let running := s.runningLike n
      if running.length < s.jobSlots n then go s
      else
        let last := running.foldl (fun (acc : Option Nat) i => match acc with
          | none => some i
          | some b => if s.jobBefore b i then some i else some b) none
        match last with
        | some i => if s.jobPrio i < s.jobPrio n then go (s.suspendJob i) else s
        | none => s)

/-- JOB_ABORT: the job stops at its next block boundary. -/
def execJobAbort (m : Master) (j : Fin 160) (s : State) : Host.Outcome State Fault Refusal :=
  .next (guardReg m (Reg.CIP_JOB_w0 j.val) (fun s => s.stopJob j.val 7) s)

/-- JOB_RELEASE: a DONE or CLAIMED context becomes FREE. -/
def execJobRelease (m : Master) (j : Fin 160) (s : State) : Host.Outcome State Fault Refusal :=
  .next (guardReg m (Reg.CIP_JOB_w0 j.val) (fun s =>
    if s.jobState j.val = 1 ∨ s.jobState j.val = 6 then
      ((s.setJobState j.val 0).setFld (Reg.CIP_JOB_w15 j.val) 12 6 0).setJob j.val {}
    else s) s)

/-- JOB_DONE: a running job completes its operation. -/
def execJobDone (j : Fin 160) (s : State) : Host.Outcome State Fault Refusal :=
  .next (if s.cipUp && s.jobState j.val = 3 && (!aesOp (s.jobOp j.val) || s.laneUp) then s.runJob j.val else s)

/-! ## Memory errors (R255, R268) -/

/-- A corrected error of a context memory: counted under its memory number, which is open, and reported (R268).
DESIGN CHOICE, safe (log entry 34). -/
def State.contextCorrected (s : State) : State :=
  let f := s.takeFree
  (f.2.monEvent (0x410 + Config.freeNat f.1 % 16)).fault 0x11C5 0

/-- CONTEXT_ECC_ERROR: a corrected error is counted and reported; an uncorrectable one disables the SA, the
SAs of the SecY, or revokes the key, with cause 4; in the hold buffer the frame or job is discarded.
DEDUCED, unsafe (log entry 78). -/
def execContextEccError (c : CipherMem) (uncorrectable : Bool) (s : State) :
    Host.Outcome State Fault Refusal :=
  .next (if !s.cipUp then s
    else if !uncorrectable then s.contextCorrected
    else
      let s := match c with
        | .sa n => if s.bit (Reg.CIP_SA_w0 n.val) 0 then s.disableSa n.val 4
          else s.markDisabled n.val 4
        | .secy n => (s.usedSas.filter (fun a => s.saSecy a == n.val)).foldl
            (fun acc a => acc.disableSa a 4) s
        | .key k => s.revokeKey k.val 4
        | .holdFrame f =>
          match s.frame f with
          | some v => if v.check.isSome then (s.bump Cnt.CIP_HOLD_ERR).delFrame f else s
          | none => s
        | .holdJob j =>
          if s.jobStarted j.val && s.jobOp j.val == 2 then (s.bump Cnt.CIP_HOLD_ERR).stopJob j.val 6
          else s
      s.fault 0x21C6 0)

end Sys2Proof.Machine
end

