-- ==== Sys2Proof/Machine/TimeOps.lean ====
section
/-!
DEFINITION. Operations of the time unit: domain clocks, steps and what follows them, the servo, and the
timestamp rings (R225 to R235, R210).
-/

namespace Sys2Proof.Machine

open Sys2Proof

/-! ## Clocks -/

/-- A domain's STATE: 0 FREERUN, 1 LOCKED, 2 HOLDOVER, 3 GRANDMASTER (R226). -/
def State.domState (s : State) (d : Nat) : Nat := s.fld (Reg.TIM_DSTAT d) 0 2

/-- TIM_DOMCFG.EN. -/
def State.domEn (s : State) (d : Nat) : Bool := s.bit (Reg.TIM_DOMCFG d) 0

/-- A domain's clock replaced; TIM_DRATE shows its rate (R225). -/
def State.putClock (s : State) (d : Nat) (k : Clock) : State :=
  (s.setDom d { s.dom d with clk := k }).wr (Reg.TIM_DRATE d) (wordOfInt k.rho)

/-- ±200 ppm in units of 2^-40 (R225). -/
def rhoMax : Int := 219902325

/-- A rate within the clamp. -/
def clampRho (r : Int) : Int := clampInt (-rhoMax) rhoMax r

/-- The clock that continues another from a local time, with a new rate (R225). -/
def Clock.continued (k : Clock) (lt : Nat) (rho base : Int) : Clock :=
  { w0 := k.at_ lt, lt0 := lt, rho := rho, base := base }

/-- The servo: an offset seen after an interval moves the rate by offset × 2^-KI per interval, and
offset × 2^-KP of phase is spread over an interval of the same length (R227). -/
def Clock.steered (k : Clock) (lt : Nat) (off : Int) (interval kp ki : Nat) : Clock :=
  if interval = 0 then k.continued lt k.base k.base
  else
    let base := clampRho (k.base + Int.fdiv (2 ^ 40 * off) (2 ^ ki * interval))
    { k.continued lt (clampRho (base + Int.fdiv (2 ^ 40 * off) (2 ^ kp * interval))) base with
      slewEnd := some (lt + interval) }

/-- The phase correction of a domain ends when it has been spread over its interval (R227). -/
def State.endSlew (s : State) (d : Nat) : State :=
  let k := (s.dom d).clk
  if k.settled s.lt = k then s else s.putClock d (k.settled s.lt)

/-! ## What lists do at a step and at lock (R210) -/

/-- The list of a port after a step of its domain from `old` to `new`: the current cycle runs to its
end, then the list realigns. -/
def State.realignPort (s : State) (p old new : Nat) : State :=
  let t := s.tmPort p
  if t.oper.isNone || !t.started || s.holdBeforeLock p then s
  else
    let s := (s.settleCredits p).setTmPort p
      { (s.settleCredits p).tmPort p with
        cycleStart := ((t.cycleStart : Int) + new - old).toNat, realign := true }
    if s.listInForce p then s.bump (Cnt.TMP_LIST_REALIGN p) else s

/-- The list of a port with PREMODE HOLD when its domain has locked: it starts at the first cycle start
after lock, and so does a list that waits for its change time, as computed for MODE 0 (R206, R210). -/
def State.lockPort (s : State) (p : Nat) : State :=
  if s.bit (Reg.TM_PORTCFG p) 1 then s
  else
    let t := s.tmPort p
    let now := s.listNow p
    let t := { t with pend := t.pend.map (fun (x : ListParams × Nat) => (x.1, x.1.firstAfter now)) }
    s.setTmPort p (match t.oper with
      | none => t
      | some a =>
        { t with
          started := false, realign := false, hold := false, entry := 0, offset := 0
          cycleStart := a.firstAfter now })

/-- The ports whose list follows a domain. -/
def State.listPorts (s : State) (d : Nat) : List Nat :=
  (List.range 32).filter (fun p => s.listDomain p == d)

/-- The time of a port's credits moves with its domain's step (R228, R239). -/
def State.rebaseCredits (s : State) (p old new : Nat) : State :=
  let t := s.tmPort p
  s.setTmPort p { t with creditAt := ((t.creditAt : Int) + new - old).toNat }

/-- A step of W_d: `s` is the state after it, `old` W_d before it. STEPCNT and STEPS count, and every
list of the domain realigns (R228). -/
def State.stepped (s : State) (d old : Nat) : State :=
  let n := s.fld (Reg.TIM_DSTAT d) 8 8
  let s := ((s.setFld (Reg.TIM_DSTAT d) 8 8 (n + 1)).bump Cnt.TIM_STEPS).monEvent 0x240
  (s.listPorts d).foldl (fun acc p =>
    (acc.rebaseCredits p old (acc.wNow d)).realignPort p old (acc.wNow d)) s

/-- A domain's STATE changes; a domain that gains a valid time base starts the lists held for it
(R210, R226). -/
def State.setDomState (s : State) (d v : Nat) : State :=
  let was := s.validTb d
  let s := if was == (v != 0) then s else (s.listPorts d).foldl (fun acc p => acc.settleCredits p) s
  let s := (s.setFld (Reg.TIM_DSTAT d) 0 2 v).setBit (Reg.TIM_DSTAT d) 2 (v != 0)
  if v != 0 && !was then (s.listPorts d).foldl (fun acc p => acc.lockPort p) s else s

/-! ## Samples (R227, R228) -/

/-- LOCKRUN of a domain. -/
def State.setLockRun (s : State) (d n : Nat) : State := s.setFld (Reg.TIM_DSTAT d) 16 8 n

/-- TIM_DOFFS: an offset in ns, signed, saturating. -/
def State.setOffset (s : State) (d : Nat) (off : Int) : State :=
  s.wr (Reg.TIM_DOFFS d) (wordOfInt (clampInt (-0x80000000) 0x7FFFFFFF (Int.tdiv off 65536)))

/-- W_d is corrected by a sample: stepped to the master time beyond STEPTHR, slewed otherwise.
DEDUCED, unsafe (log entry 71). -/
def State.correct (s : State) (d lt master interval : Nat) (off : Int) : State :=
  let k := (s.dom d).clk
  let kp := s.fld (Reg.TIM_DOMCFG d) 16 5
  let ki := s.fld (Reg.TIM_DOMCFG d) 24 5
  if 65536 * s.fld (Reg.TIM_STEPTHR d) 0 30 < off.natAbs then
    let old := s.wNow d
    (s.putClock d { w0 := master, lt0 := lt, rho := k.base, base := k.base }).stepped d old
  else s.putClock d (k.steered s.lt off interval kp ki)

/-- A sample in FREERUN: it steers the candidate clock, and LOCKN samples in a row within LOCKTHR of it
make the domain LOCKED with a step (R228). -/
def State.candidateSample (s : State) (d lt master interval : Nat) : State :=
  let v := s.dom d
  let kp := s.fld (Reg.TIM_DOMCFG d) 16 5
  let ki := s.fld (Reg.TIM_DOMCFG d) 24 5
  let r : Clock × Nat := match v.cand with
    | none => ({ w0 := master, lt0 := lt, rho := v.clk.base, base := v.clk.base }, 1)
    | some k =>
      let off : Int := (master : Int) - k.at_ lt
      (k.steered s.lt off interval kp ki,
        if off.natAbs ≤ 65536 * s.fld (Reg.TIM_LOCKCFG d) 0 16 then
          min 255 (s.fld (Reg.TIM_DSTAT d) 16 8 + 1)
        else 0)
  let s := (s.setDom d { s.dom d with cand := some r.1 }).setLockRun d r.2
  let need := max 1 (s.fld (Reg.TIM_LOCKCFG d) 16 8)
  if need ≤ r.2 then
    let old := s.wNow d
    let s := (s.setDom d { s.dom d with cand := none }).putClock d r.1
    (s.stepped d old).setDomState d 1
  else s

/-- An accepted sample of a domain: an LT instant and the master time at it (R227, R228). -/
def State.sample (s : State) (d lt master : Nat) : State :=
  let v := s.dom d
  let interval := match v.lastSample with
    | some x => lt - x
    | none => 0
  let off : Int := (master : Int) - v.clk.at_ lt
  let s := ((s.bump Cnt.TIM_SAMPLE_OK).monEvent 0x241).setOffset d off
  let s := s.setDom d { s.dom d with lastSample := some lt, sync := s.timer }
  match s.domState d with
  | 0 => s.candidateSample d lt master interval
  | 3 => s.correct d lt master interval off
  | _ => (s.correct d lt master interval off).setDomState d 1

/-! ## Timestamp rings (R232, R234) -/

/-- The bytes of the PTP header of a PTP event frame, untagged or behind one VLAN tag.
DEDUCED, unsafe (log entry 73). -/
def ptpEvent (bs : List Byte) : Option (List Byte) :=
  let off := if natAt bs 12 2 = 0x8100 ∨ natAt bs 12 2 = 0x88A8 then 16 else 12
  if natAt bs off 2 = 0x88F7 ∧ natAt bs (off + 2) 1 % 16 ≤ 3 then some (bs.drop (off + 2)) else none

/-- A PTP event frame's timestamp goes into the ring of its port and direction. -/
def State.ptpRing (s : State) (p : Nat) (tx : Bool) (t : Nat) (bs : List Byte) : State :=
  if 32 ≤ p || !s.hasPort p || !s.bit (Reg.TIM_PORTCFG p) 8 then s
  else
    match ptpEvent bs with
    | none => s
    | some h =>
      let lo := if tx then 4 else 0
      let e := s.fld (Reg.TIM_RINGSTAT p) lo 4
      let j := if tx then 16 + e else e
      let s := if s.bit (Reg.TIM_RING_w3 p j) 15 then
          (s.setFld (Reg.TIM_RINGSTAT p) 16 16
            (min 0xFFFF (s.fld (Reg.TIM_RINGSTAT p) 16 16 + 1))).bump Cnt.TIM_TS_RING_OVF
        else s
      let s := s.wrTime (Reg.TIM_RING_ns p j) t
      let s := s.wrN (Reg.TIM_RING_w3 p j)
        (2 ^ 15 + natAt h 0 1 % 16 + natAt h 4 1 * 16 + 65536 * natAt h 30 2)
      s.setFld (Reg.TIM_RINGSTAT p) lo 4 ((e + 1) % 16)

/-- Latency in units of 0.5 ns as units of 2^-16 ns. -/
def halfNs (n : Nat) : Nat := 32768 * n

/-- The capture of a frame at an external port: in the Edge die for a T1 port (R232). -/
def State.capture (s : State) (p : Nat) : Nat := if 12 ≤ p then s.edgeLt else s.lt

/-- A transmit timestamp: the capture now plus the reported latency, which TIM_LATSTAT shows, and the
external latency of a SerDes port (R232). -/
def State.txStamp (s : State) (p latency : Nat) : Nat × State :=
  if 32 ≤ p then (s.lt, s)
  else
    (s.capture p + halfNs latency +
        (if p < 12 then halfNs (s.fld (Reg.TIM_EXTLAT p) 16 16) else 0),
      s.setFld (Reg.TIM_LATSTAT p) 16 16 latency)

/-- A receive timestamp: the capture now less the reported latency and the external latency. -/
def State.rxStamp (s : State) (p latency : Nat) : Nat × State :=
  if 32 ≤ p then (s.lt, s)
  else
    (s.capture p - halfNs latency - (if p < 12 then halfNs (s.fld (Reg.TIM_EXTLAT p) 0 16) else 0),
      s.setFld (Reg.TIM_LATSTAT p) 0 16 latency)

end Sys2Proof.Machine
end

