-- ==== Sys2Proof/Machine/Receive.lean ====
section
/-!
DEFINITION. Reception of a frame on a port: its start and timestamp, the checks of the MAC at its tail,
and the MAC control frames a port consumes (R17, R51, R69, R73 to R76, R101, R106, R232, R234).
-/

namespace Sys2Proof.Machine

open Sys2Proof

/-! ## MAC control frames (R69, R74) -/

/-- A MAC control frame of `n` bytes is received: it counts in the general pairs and in its own. -/
def State.countMacCtrl (s : State) (p n : Nat) : State :=
  (((s.bump (Cnt.PRT_RX_FRAMES p)).bumpBy (Cnt.PRT_RX_BYTES p) n).bump
    (Cnt.PRT_RX_MACCTRL p)).monEvent (8 * p)

/-- One class of a port is stopped for some quanta of 512 bit times, or released by quanta 0 (R69). -/
def State.stopClass (s : State) (p c quanta : Nat) : State :=
  let v := s.port p
  let others := v.stopped - (if Nat.testBit v.stopped c then 2 ^ c else 0)
  let ends := if quanta = 0 then 0 else s.nowNs + 512000 * quanta / s.rateOf p
  s.setPort p
    { v with
      stopped := if quanta = 0 then others else others + 2 ^ c
      stopEnds := Store.set (fun _ => 0) v.stopEnds c ends }

/-- A flow-control frame that acts: `quanta c` for each class it names. Scheduled classes are not
stopped; a stop meant for one counts RX_PFC_SCHED (R69, R86). -/
def State.actOnFlow (s : State) (p : Nat) (classes : List Nat) (quanta : Nat → Nat) : State :=
  let s := (classes.filter (fun c => !s.scheduled c)).foldl
    (fun acc c => acc.stopClass p c (quanta c)) s
  if classes.any (fun c => s.scheduled c && quanta c != 0) then s.bump (Cnt.PRT_RX_PFC_SCHED p) else s

/-- A received PFC frame: it acts while FCMODE is 2, on the classes enabled in it and in RXEN. -/
def State.receivePfc (s : State) (p enables : Nat) (quanta : Nat → Nat) : State :=
  if s.fcMode p = 2 then
    s.actOnFlow p ((List.range 8).filter
      (fun c => Nat.testBit enables c && s.bit (Reg.PRT_PFCCFG p) (16 + c))) quanta
  else s

/-- A received PAUSE frame: it acts while FCMODE is 1, on every class. -/
def State.receivePause (s : State) (p quanta : Nat) : State :=
  if s.fcMode p = 1 then s.actOnFlow p (List.range 8) (fun _ => quanta) else s

/-- The frame is a MAC control frame (EtherType 0x8808). -/
def isMacCtrl (bs : List Byte) : Bool := natAt bs 12 2 == 0x8808

/-- A MAC control frame that arrived as bytes: opcode 0x0101 is PFC, 0x0001 PAUSE; every other one is
discarded without effect (R69). -/
def State.macControl (s : State) (p : Nat) (bs : List Byte) : State :=
  let s := s.countMacCtrl p (bs.length + 4)
  if natAt bs 14 2 = 0x0101 then s.receivePfc p (natAt bs 16 2) (fun c => natAt bs (18 + 2 * c) 2)
  else if natAt bs 14 2 = 0x0001 then s.receivePause p (natAt bs 16 2)
  else s

/-! ## The start of a frame -/

/-- The port takes new frames: it is UP and runs, and neither it nor its instance is being disabled (R14,
R71, R73); an external port takes none during sleep entry (R390). -/
def State.receives (s : State) (p : Nat) : Bool :=
  (decide (32 ≤ p) || s.fld Reg.WAK_EPOCH 16 2 != 3) && s.portUp p && s.portRuns p &&
    !(s.port p).draining && s.blkAccepts (prtBlk p)

/-- A line port of the Edge die while the Traverse link retrains: what arrives is held there (R11). -/
def State.retraining (s : State) (p : Nat) : Bool :=
  decide (12 ≤ p) && decide (p < 32) && s.traverse.state == .recovering

/-- A frame's arrival reaches the Core die. A frame for an active SecY, and a MAC control frame, stay at the
port until their tail; every other frame goes on to classification (R17, R69, R255). -/
def State.takeRx (s : State) (f : Nat) (v : Frame) : State :=
  let check := if s.secyActive v.inPort then some (s.rxCheckNow v.inPort) else none
  let held := check.isSome || (decide (v.inPort < 32) && isMacCtrl v.bytes)
  let s := s.setFrame f
    { v with stage := if held then .receiving else .toClassify, check := check }
  if held || decide (v.bytes.length < 52) then s else s.ptpRing v.inPort false v.rxTime v.bytes

/-- A frame of the retrain buffer goes on to the Core die (R11). -/
def State.releaseRetrained (s : State) (f : Nat) : State :=
  match s.frame f with
  | some v => if v.stage = .retrain then s.takeRx f v else s
  | none => s

/-- What the Edge die holds is added to (R11, R57). -/
def State.holdEvent (s : State) (e : HeldEvent) : State :=
  { s with traverse := { s.traverse with held := s.traverse.held ++ [e] } }

/-- The frames of a port whose tail has not arrived: those whose reception goes on, or is interrupted by a
later frame (R66). -/
def State.openRx (s : State) (p : Nat) : List Nat :=
  (s.frames.filter (fun e => match e.2 with
    | some v => v.inPort == p && !v.tailIn && !v.rcPass
    | none => false)).map (fun e => e.1)

/-- A frame begins while others of its port are still arriving: those are interrupted (R66). -/
def State.interruptRx (s : State) (p : Nat) : State :=
  (s.openRx p).foldl (fun acc f => match acc.frame f with
    | some v => acc.setFrame f { v with interrupted := true }
    | none => acc) s

/-- The first bytes of a frame begin to arrive: at the Core die, or into the retrain buffer; from a lost
Traverse link nothing arrives (R11). -/
def State.beginRx (s : State) (p : Nat) (head : List Byte) (latency : Nat) : State :=
  if p = 36 || !s.receives p || !(s.wayOpen p || s.retraining p) then s
  else
    let t := (s.interruptRx p).rxStamp p latency
    let f := s.nextFrame
    let v : Frame := { bytes := head, inPort := p, rxTime := t.1, stage := .retrain }
    let s := { t.2.setFrame f v with nextFrame := f + 1 }
    if s.retraining p then s.holdEvent (.rxBegin f) else s.takeRx f v

/-! ## The tail of a frame (R75, R76, R101) -/

/-- The frame leaves classification's dispatch stage, if it stalled it there. -/
def State.unstall (s : State) (f : Nat) : State :=
  { s with cls := { s.cls with
    stall := Store.set (fun _ => none)
      (Store.set (fun _ => none) s.cls.stall 0
        (if Store.get (fun _ => none) s.cls.stall 0 = some f then none
         else Store.get (fun _ => none) s.cls.stall 0)) 1
      (if Store.get (fun _ => none) s.cls.stall 1 = some f then none
       else Store.get (fun _ => none) s.cls.stall 1) } }

/-- The counter pair and the log type of a receive error. -/
def rxErrorRecord (p : Nat) : RxError → Nat × Nat
  | .symbol => (Cnt.PRT_RX_SYMBOL_ERR p, 4)
  | .assembly => (Cnt.PRT_MMS_ASSY_ERR p, 6)
  | _ => (Cnt.PRT_RX_FCS_ERR p, 1)

/-- What the MAC finds at the tail of a frame of `n` bytes with FCS: the counter pair and log type of
the first error in the order symbol error, runt, oversize, FCS error, or none (R75).
DEDUCED, unsafe (log entry 41). -/
def State.rxVerdict (s : State) (p n : Nat) (err : RxError) : Option (Nat × Nat) :=
  if 32 ≤ p then none
  else if err = .symbol ∨ err = .assembly then some (rxErrorRecord p err)
  else if n < 64 then some (Cnt.PRT_RX_RUNT p, 2)
  else if s.maxFrm p < n then some (Cnt.PRT_RX_OVERSIZE p, 3)
  else if err = .fcs then some (rxErrorRecord p err)
  else none

/-- An external frame that the switch does not take while classification is disabled: discarded at the
MAC and counted NOADMIT, without a fault; an internal source is held (R106). -/
def State.classifyClosed (s : State) (f : Nat) (v : Frame) : State :=
  if v.inPort < 32 && !v.rcPass && !s.blkAccepts 0xC then (s.noAdmit v.inPort).delFrame f else s

/-- The tail of a frame arrives (R75): counted good, or counted and logged once and discarded at the
MAC, or stomped where its head has left.
DEDUCED, unsafe (log entry 38). -/
def State.endRx (s : State) (f : Nat) (rest : List Byte) (err : RxError) : State :=
  match s.frame f with
  | none => s
  | some v =>
    if v.tailIn then s
    else if s.retraining v.inPort then s.holdEvent (.rxEnd f rest err)
    else
      let p := v.inPort
      let all := v.bytes ++ rest
      let n := all.length + (if p < 32 then 4 else 0)
      match s.rxVerdict p n err with
      | some (cnt, type) =>
        let s := (((s.bump cnt).portLog p type v.tc n v.hash).monEvent (8 * p + 2)).unstall f
        (s.setFrame f
          { v with bytes := all.take (s.maxFrm p - 4), tailIn := true, wireLen := n,
                   storedLen := min n (s.maxFrm p) }).badFrame f
      | none =>
        if p < 32 && isMacCtrl all then (s.macControl p all).delFrame f
        else
          let s := (s.bump (Cnt.PRT_RX_FRAMES p)).bumpBy (Cnt.PRT_RX_BYTES p) n
          let s := if p < 32 then s.monEvent (8 * p) else s
          let s := if p < 32 ∧ natAt all 12 2 ≠ 0x88B5 then s.heardFrame else s
          let s := if v.stage != .receiving && decide (v.bytes.length < 52) then
              s.ptpRing p false v.rxTime all else s
          let v := { v with
            bytes := all, tailIn := true, wireLen := all.length + 4
            storedLen := if v.stage = .queued then n else v.storedLen }
          let s := s.setFrame f v
          match v.stage with
          | .toClassify => s.classifyClosed f v
          | .queued | .dropped => s.reap f
          | _ => s

/-- MAC loopback: what a port sends comes back to the switch on the same port (PRT_PCTRL.LOOP, R73). -/
def State.loopBack (s : State) (p : Nat) (bs : List Byte) (stomped : Bool) : State :=
  if p < 32 && s.bit (Reg.PRT_PCTRL p) 3 && s.receives p then
    let f := s.nextFrame
    (s.beginRx p bs 0).endRx f [] (if stomped then .fcs else .none)
  else s

end Sys2Proof.Machine
end

