-- ==== Sys2Proof/Machine/Classify.lean ====
section
/-!
DEFINITION. The classification commands: the pass of a frame, the L3 length test at the tail, the flow
table's commands and queue, aging, generations and TCAM parity (R106 to R138).
-/

namespace Sys2Proof.Machine

open Sys2Proof

/-! ## CLASSIFY_PASS (R108) -/

/-- Step 1: a first pass is stamped with the current generation, whose count goes up (R135). -/
def State.stamp (s : State) (v : Frame) : State × Frame :=
  if v.rcPass then (s, v)
  else
    let g := s.curGen
    (s.setFld (Reg.CLS_GENINFL g) 0 24 (s.inFlight g + 1), { v with gen := g, stamped := true })

/-- Counter pair and MON event of a class of step 3 by its exception code. -/
def State.countClass (s : State) (code : Nat) : State :=
  match code with
  | 1 => (s.bump Cnt.CLS_MAL_LEN).monEvent 0x142
  | 2 => (s.bump Cnt.CLS_MAL_DEPTH).monEvent 0x143
  | 3 => (s.bump Cnt.CLS_MAL_HDR).monEvent 0x144
  | 4 => (s.bump Cnt.CLS_MAL_CSUM).monEvent 0x145
  | 5 => (s.bump Cnt.CLS_FRAG).monEvent 0x146
  | _ => (s.bump Cnt.CLS_GEN_LOST).monEvent 0x147

/-- The action of CLS_EXCFG for a malformed class: 0 drop, 1 and 2 trap, 3 CONTINUE (R130). -/
def State.malAction (s : State) (code : Nat) : Nat := s.fld Reg.CLS_EXCFG (2 * (code - 1)) 2

/-- A malformed frame under an action other than CONTINUE: dropped and counted MAL_DROP, or trapped
with its class as code. -/
def State.malformed (s : State) (f code : Nat) (hash : Word) : State :=
  match s.malAction code with
  | 0 => (s.bump Cnt.CLS_MAL_DROP).dropFrame f
  | a => s.toException f code (31 + a) s.excTc hash

/-- The frame takes GEN_LOST (R130, R136). -/
def State.genLost (s : State) (f : Nat) (hash : Word) : State :=
  (s.countClass 6).toException f 6 (if s.bit Reg.CLS_EXCFG 10 then 33 else 32) s.excTc hash

/-- What classification puts into M[0] to M[39], M[0] and M[15] apart (R180). -/
def metadata (r : Parsed) (lay : Option Layers) (key : List Word) (hash : Word) (action mal : Nat)
    (low : Bool) (fl : FlowResult) (hits : List Nat) (tcam : Option Nat) (l3 : Option Nat)
    (l3Ok : Bool) : List Word :=
  let n := fun (x : Nat) => BitVec.ofNat 32 x
  [0, hash, n (action + 65536 * (if fl.slot.isSome then fl.tag else 0)),
    n (b2n tcam.isSome + 2 * b2n fl.slot.isSome + 4 * b2n fl.hit + 8 * fl.ct + 64 * b2n low
      + 128 * b2n fl.invalid + 256 * mal + 2048 * b2n (!hits.isEmpty) + 4096 * hits.headD 0
      + 2 ^ 20 * tcam.getD 0),
    n (fl.slot.getD 0 + 2 ^ 31 * b2n fl.slot.isSome),
    n (r.lastState + 64 * r.e + 65536 * (l3.getD 0 % 2 ^ 14) + 2 ^ 30 * b2n l3Ok),
    n ((lay.map (·.l3)).getD 0xFF
      + 256 * (((lay.bind (·.l4)).map (·.off)).getD 0xFF)
      + 65536 * getBits (key.getD 0 0) 16 2 + 2 ^ 20 * r.headers.length
      + 2 ^ 24 * getBits (key.getD 0 0) 8 8)] ++
    hitVector hits ++ [0] ++
    (List.range 24).map (fun i => n (natLE (bytesAt r.fv (4 * i) 4)))

/-- Steps 4 to 7 for a frame that step 3 passed, with the malformed class under CONTINUE or 0. -/
def State.classify (s : State) (f : Nat) (v : Frame) (view : FrameView) (r : Parsed) (mal : Nat) :
    State :=
  let w0 := s.rdLive v.gen (Reg.CLS_PROFILE_w0 r.profile)
  let pmEnd := windowEnd r.e v.bytes.length
  let hits := if getBit w0 10 then s.patternHits v.gen r.e pmEnd view else []
  let zone := s.fld (Reg.CLS_PORTCFG v.inPort) 8 8
  let ck := canonicalKey r view zone v.inPort
  let hash := s.hashOf ck.1
  let lay := layersOf r view
  let key := s.tcamKey v.gen r.profile v.inPort
    (b2n v.macsecV + 2 * b2n (mal != 0) + 4 * b2n (!hits.isEmpty) + 8 * b2n (v.inPort == 34)
      + 16 * b2n v.rcPass) (hits.headD 0) r.fv
  let tcam := s.tcamLookup v.gen r.profile key
  let s := s.bump (if tcam.isSome then Cnt.CLS_TCAM_HIT else Cnt.CLS_TCAM_MISS)
  let tcp := match lay.bind (·.l4) with
    | some h => if h.kind = 9 then some (view.byte (h.off + 13)).toNat else none
    | none => none
  let l3Ok := r.l3.isSome && mal != 1
  let len := if v.rcPass then v.bytes.length + 4
    else if v.tailIn then v.wireLen
    else if l3Ok then r.l3.getD 0 + 4
    else s.maxFrm v.inPort
  let fr := if getBit w0 9 then s.flowLookup ck.1 v.gen len (!v.rcPass) tcp ck.2 else ({}, s)
  let fl := fr.1
  let s := fr.2
  let tw := match tcam with
    | some e => s.rdLive liveBank (Reg.CLS_TCAM_w20 e)
    | none => 0
  let action := if tcam.isSome && getBit tw 4 then getBits tw 16 16
    else if fl.hit then fl.action
    else if tcam.isSome then getBits tw 16 16
    else getBits w0 16 16
  s.setFrame f
    { v with
      stage := .toDispatch, hash := hash, action := action
      tag := if fl.slot.isSome then fl.tag else 0
      mwords := metadata r lay ck.1 hash action mal ck.2 fl hits tcam r.l3 l3Ok
      flowKey := ck.1, tcpFlags := tcp, dirLow := ck.2, l3Len := r.l3.getD 0, l3Ok := l3Ok
      checkTail := !v.tailIn && l3Ok, len := len
      mustStore := v.mustStore || v.rcPass || (getBit w0 10 && decide (128 < pmEnd)) }

/-- Step 3 and what follows, for a parsed frame: the length test when the tail is in, which is MAL_LEN of the
last parsed L3LEN header and so comes before any condition of that header or a later one; then the malformed
class met, then fragments (R129 to R131). -/
def State.afterParse (s : State) (f : Nat) (v : Frame) (view : FrameView) (r : Parsed) : State :=
  let short := match r.l3 with
    | some n => v.tailIn && decide (v.bytes.length < n)
    | none => false
  let mal := if short then 1 else if r.exc = 5 then 0 else r.exc
  if mal = 0 then
    if r.exc = 5 then
      (s.countClass 5).toException f 5 (if s.bit Reg.CLS_EXCFG 8 then 33 else 32) s.excTc 0
    else s.classify f v view r 0
  else
    let s := s.countClass mal
    if s.malAction mal = 3 then s.classify f v view r mal else s.malformed f mal 0

/-- The lane of a pass (R107). -/
def laneOf (v : Frame) : Nat := portGroup (if v.rcPass then 36 else v.inPort) % 2

/-- The bytes that the pattern window of a parsed frame still needs (R114). -/
def State.windowWaits (s : State) (v : Frame) (r : Parsed) : Bool :=
  !v.tailIn && getBit (s.rdLive v.gen (Reg.CLS_PROFILE_w0 r.profile)) 10 &&
    decide (v.bytes.length < min (r.e + 64) 192)

/-- CLASSIFY_PASS: the steps of R108 in order, for the frames of a port in the order of their arrival (R107).
A frame is classified once its tail or its first 128 bytes, and what a pattern window needs, have arrived; a
recirculated frame is stored whole. -/
def execClassifyPass (f : FrameId) (s : State) : Host.Outcome State Fault Refusal :=
  .next (match s.frame f with
    | none => s
    | some v =>
      if v.stage ≠ .toClassify || !(v.tailIn || (!v.rcPass && decide (128 ≤ v.bytes.length))) ||
          !s.up .classify || s.heldUpAt f v [.retrain, .receiving, .toClassify] false then s
      else if !s.blkEn 0xC then (if v.tailIn then s.classifyClosed f v else s)
      else if v.rcPass && v.orphan then s.genLost f 0
      else
        let port := if v.rcPass then 36 else v.inPort
        let start := match (if v.rcPass then v.startState else none) with
          | some st => st
          | none => s.fld (Reg.CLS_PORTCFG port) 0 6
        let gen := if v.rcPass then v.gen else s.curGen
        let view : FrameView := ⟨v.bytes, s.freeCtr⟩
        let r := s.parse gen view v.tailIn (s.bit Reg.CLS_EXCFG 9) start
        if s.windowWaits { v with gen := gen } r then s
        else
          let s := { s with freeCtr := s.freeCtr + 512 }
          let t := (s.monEvent (0x140 + laneOf v)).stamp v
          (t.1.setFrame f t.2).afterParse f t.2 view r)

/-- L3_LENGTH_TAIL_CHECK: a stored frame whose program ended with FWD, shorter than its parsed L3
length (R131). -/
def execL3LengthTailCheck (f : FrameId) (s : State) : Host.Outcome State Fault Refusal :=
  .next (match s.frame f with
    | none => s
    | some v =>
      if !v.checkTail || !v.tailIn || v.exc.isSome || !(v.stage == .toStream || v.stage == .toEnqueue)
      then s
      else
        let s := s.setFrame f { v with checkTail := false }
        if v.l3Len ≤ v.bytes.length then s
        else
          let s := s.countClass 1
          if s.malAction 1 = 3 then s else s.malformed f 1 v.hash)

/-! ## Flow commands (R127) -/

/-- CLS_FLOWCMD GO with an operation.
DEDUCED, safe (log entry 19). -/
def flowCommandGo (m : Master) (op : Nat) (slot : BitVec 18) (s : State) :
    Host.Outcome State Fault Refusal :=
  .next (guardReg m Reg.CLS_FLOWCMD (fun s => s.flowGo op slot.toNat) s)

/-- FLOWCMD_LOOKUP: OP 1. -/
def execFlowcmdLookup (m : Master) (slot : BitVec 18) (s : State) : Host.Outcome State Fault Refusal :=
  flowCommandGo m 1 slot s

/-- FLOWCMD_INSERT: OP 2. -/
def execFlowcmdInsert (m : Master) (slot : BitVec 18) (s : State) : Host.Outcome State Fault Refusal :=
  flowCommandGo m 2 slot s

/-- FLOWCMD_DELETE_KEY: OP 3. -/
def execFlowcmdDeleteKey (m : Master) (slot : BitVec 18) (s : State) :
    Host.Outcome State Fault Refusal := flowCommandGo m 3 slot s

/-- FLOWCMD_READ_SLOT: OP 4. -/
def execFlowcmdReadSlot (m : Master) (slot : BitVec 18) (s : State) :
    Host.Outcome State Fault Refusal := flowCommandGo m 4 slot s

/-- FLOWCMD_DELETE_SLOT: OP 5. -/
def execFlowcmdDeleteSlot (m : Master) (slot : BitVec 18) (s : State) :
    Host.Outcome State Fault Refusal := flowCommandGo m 5 slot s

/-- FLOWCMD_FLUSH: OP 6. -/
def execFlowcmdFlush (m : Master) (slot : BitVec 18) (s : State) : Host.Outcome State Fault Refusal :=
  flowCommandGo m 6 slot s

/-- FLOW_QUEUE_EXECUTE: the oldest queued operation executes (R126, R127). -/
def execFlowQueueExecute (s : State) : Host.Outcome State Fault Refusal :=
  .next (match (if s.up .classify then s.cls.queue else []) with
    | [] => s
    | op :: rest =>
      let s := { s with cls := { s.cls with queue := rest } }
      let s := match op with
        | .insert key action tag gen low tcp =>
          let c := ctInsert key tcp low
          (s.flowInsert key action tag gen c.1 c.2 false false).2
        | .command o slot data =>
          let r := s.flowCommand o slot data
          (r.2.setFld Reg.CLS_FLOWCMD 24 4 r.1).setBit Reg.CLS_FLOWCMD 30 false
      s.wakeRoom)

/-! ## Aging (R128) -/

/-- The synthetic frame of an aged entry: its 64 bytes with exception FLOW_AGED. The specification
gives it no ingress port, generation, hash or tag: they are free.
DESIGN CHOICE, safe (log entry 42). -/
def State.reportAged (s : State) (e : List Word) : State :=
  let n := s.freeCtr
  let f := s.nextFrame
  let port := if s.bit Reg.CLS_AGECFG 9 then 33 else 32
  let bs := e.flatMap (fun w => bytesLE 4 w.toNat)
  let s := { s with freeCtr := n + 4 }.injectFrame (32 + Config.freeNat n % 5) bs
  (match s.frame f with
    | some v => s.setFrame f
        { v with gen := Config.freeNat (n + 1) % 4, tag := Config.freeNat (n + 2) % 65536 }
    | none => s).toException f 0x08 port s.excTc (Config.freeWord (n + 3))

/-- The exception queue of a port is full: a frame for it waits to be taken into the fabric (R89, R128).
DEDUCED, safe (log entry 139). -/
def State.exqFull (s : State) (port : Nat) : Bool :=
  s.frames.any (fun e => match e.2 with
    | some v => (v.stage == .toEnqueue && v.exc.isSome && v.dest == port) ||
        (v.stage == .queued && v.trapped && v.fanout.contains port && v.nextCell)
    | none => false)

/-- AGING_SWEEP: the sweep visits a slot; a report is held while its port's queue is full (R128). -/
def execAgingSweep (slot : Fin 163840) (s : State) : Host.Outcome State Fault Refusal :=
  .next (
    let e := s.flowEntry slot.val
    let w0 := e.getD 0 0
    let age := (2 ^ 32 + s.classifyMs - (e.getD 11 0).toNat) % 2 ^ 32
    if !s.up .classify || s.fld Reg.CLS_AGECFG 0 6 = 0 || !s.flowValid slot.val || getBit w0 26 ||
        decide (age ≤ 1000 * s.flowTimeout (getBits w0 21 3)) ||
        (s.bit Reg.CLS_AGECFG 8 && s.exqFull (if s.bit Reg.CLS_AGECFG 9 then 33 else 32)) then s
    else
      let s := (s.setFlow slot.val []).bump Cnt.CLS_FLOW_AGED
      if s.bit Reg.CLS_AGECFG 8 then s.reportAged e else s)

/-! ## Generations (R132 to R137) -/

/-- A frame of a generation retired by force: an orphan; one whose last program has ended has its fanout
latched (R97, R136). -/
def State.orphaned (s : State) (v : Frame) : Frame :=
  let done := v.exc.isNone && (v.stage == .toStream || v.stage == .toEnqueue)
  { v with orphan := true, latched := if done then some (s.fanoutOf v) else v.latched }

/-- The forced-retire timer of a generation has run for FORCE_MS (R136). -/
def State.retireDue (s : State) (g : Nat) : Bool :=
  s.ran (Store.get (fun _ => {}) s.cls.retiring g) (1000000 * clampNat 1 1000 (s.fld Reg.CLS_GENCTL 0 10))

/-- FORCED_RETIRE_EXPIRY: the generation is marked lost, every frame still carrying it becomes an
orphan, and the sweep begins (R136). -/
def execForcedRetireExpiry (g : Gen) (s : State) : Host.Outcome State Fault Refusal :=
  .next (if s.genState g.val ≠ 2 ∨ s.inFlight g.val = 0 ∨ s.retireDue g.val = false then s
    else
      let orphans := s.frames.map (fun e => (e.1, e.2.map (fun v =>
        if v.stamped && v.gen == g.val then s.orphaned v else v)))
      let s := { s with
        frames := orphans
        cls := { s.cls with lost := Store.set (fun _ => false) s.cls.lost g.val true } }
      (s.setFld (Reg.CLS_GENINFL g.val) 0 24 0).setGenState g.val 3)

/-- GENMASK bit `g` cleared in every live TCAM entry (R137). -/
def State.clearGenmask (s : State) (g : Nat) : State :=
  let lo := bankSpan * liveBank + Reg.CLS_TCAM_w20 0
  ((Store.slice s.live lo (bankSpan * liveBank + Reg.CLS_TCAM_w20 4096) 0 lo).filter
    (fun e => e.1 % 128 == 0)).foldl
    (fun acc e => acc.wrLive liveBank (Reg.CLS_TCAM_w20 (e.1 / 128)) (putBit e.2 g false)) s

/-- GENERATION_SWEEP_DONE: flow entries and TCAM bits are rewritten, RETIRED sets with the retire
interrupt, FORCED after a forced retire, and the generation is FREE (R136, R137). -/
def execGenerationSweepDone (g : Gen) (s : State) : Host.Outcome State Fault Refusal :=
  .next (if s.genState g.val ≠ 3 then s
    else
      let forced := Store.get (fun _ => false) s.cls.lost g.val
      let s := { s with
        cls := { s.cls with
          flows := s.cls.flows.map (fun (x : Nat × List Word) => (x.1, s.sweptFlow g.val x.2))
          lost := Store.set (fun _ => false) s.cls.lost g.val false } }
      let s := ((s.clearGenmask g.val).setGenState g.val 0).setBit Reg.CLS_GENSTAT (16 + g.val) true
      (if forced then s.setBit Reg.CLS_GENSTAT (20 + g.val) true else s).irq 56)

/-- TCAM_PARITY_CHECK: an entry found with a parity error matches no key; its index is logged and a
degraded fault raised (R138). -/
def execTcamParityCheck (e : Fin 4096) (bad : Bool) (s : State) : Host.Outcome State Fault Refusal :=
  .next (if !bad then s
    else
      let s := { s with
        cls := { s.cls with badParity := Store.set (fun _ => false) s.cls.badParity e.val true } }
      ((s.setFld Reg.CLS_TCAMERR 0 12 e.val).setBit Reg.CLS_TCAMERR 31 true).fault 0x20C1 0)

end Sys2Proof.Machine
end

