-- ==== Sys2Proof/Machine/ComputeOps.lean ====
section
/-!
DEFINITION. The compute complex's shared operations: units and their states, failover, and debug scopes
(R330 to R352).
-/

namespace Sys2Proof.Machine

open Sys2Proof

/-! ## Units (R330, R342) -/

/-- CPX_PAIRCTL of a unit. -/
def pairKey (u : Nat) : Nat := if u < 4 then Reg.CPX_PAIRCTL_u0_3 u else Reg.CPX_PAIRCTL_u4_5 (u - 4)

/-- The state with STATE of a unit set. -/
def State.setUnit (s : State) (u v : Nat) : State := s.setFld (pairKey u) 1 3 v

/-- RUN of a unit. -/
def State.setRun (s : State) (u : Nat) (v : Bool) : State := s.setBit (pairKey u) 0 v

/-- Split mode of the app cluster (R331). -/
def State.split (s : State) : Bool := s.bit Reg.CPX_APPMODE 0

/-- The unit exists in the cluster's mode: app units 2 and 3 only in split mode. -/
def State.unitThere (s : State) (u : Nat) : Bool := decide (u < 2) || decide (4 ≤ u) || s.split

/-- The unit is a lockstep pair in the cluster's mode. -/
def State.isPair (s : State) (u : Nat) : Bool := decide (4 ≤ u) || (decide (u < 2) && !s.split)

/-- The main processor: app pair 0, its survivor after a failover, or app core 0 in split mode. -/
def State.mainUnit (s : State) : Nat := s.fld Reg.CPX_APPMODE 1 2

/-- The other pair of a pair's cluster. -/
def twin (u : Nat) : Nat := if u < 4 then 1 - u else 9 - u

/-- HOME of a partition. -/
def State.home (s : State) (p : Nat) : Nat := s.fld (Reg.CPX_PARTHOME p) 0 3

/-- Flags 4 and 6 of FLT_GSTAT: a running unit's watchdog disabled, or any expired; split mode (R449). -/
def State.unitFlags (s : State) : State :=
  let wdog := (List.range 6).any (fun u =>
    s.bit (Reg.FLT_WDOG u) 17 || (s.unitState u == 2 && !s.bit (Reg.FLT_WDOG u) 16))
  (s.setGstat 4 wdog).setGstat 6 s.split

/-- MJPART of a unit at its reset value (R336). -/
def State.resetMjpart (s : State) (u : Nat) : State :=
  { s with cpx := { s.cpx with mjpart := Store.set (fun _ => 0x40) s.cpx.mjpart u 0x40 } }

/-- A unit leaves reset: a pair runs its comparator self-test first; an app unit in split mode runs. -/
def State.releaseUnit (s : State) (u : Nat) : State :=
  let s := s.setRun u true
  if s.unitState u = 6 then (s.setUnit u 2).resetMjpart u
  else if s.unitState u = 0 then (s.setUnit u (if s.isPair u then 1 else 2)).resetMjpart u
  else s

/-- A unit is held in reset: RUN is 0. -/
def State.stopUnit (s : State) (u : Nat) : State :=
  if s.mainUnit = u ∨ s.unitState u = 4 ∨ 6 ≤ s.unitState u then s.setRun u (s.mainUnit == u)
  else (s.setRun u false).setUnit u 0

/-! ## Failover (R344, R346) -/

/-- APLIC target words of a cluster's domains that deliver to hart index `a` deliver to `b`: the target
of source i lies at 0x3000 + 4i of its domain, hart index in bits [31:18] (RISC-V AIA). -/
def State.retarget (s : State) (lo hi a b : Nat) : State :=
  ((Store.slice s.regs lo hi 0 0).filter (fun e => getBits e.2 18 14 == a && e.2 != 0)).foldl
    (fun acc e => acc.setFld e.1 18 14 b) s

/-- Every APLIC source delivered to a unit is retargeted to another of its cluster. -/
def State.retargetUnit (s : State) (u v : Nat) : State :=
  if u < 4 then
    (s.retarget (Reg.CPX_APLIC_APP 0xC01) (Reg.CPX_APLIC_APP 0x1000) u v).retarget
      (Reg.CPX_APLIC_APP 0x1C01) (Reg.CPX_APLIC_APP 0x2000) u v
  else s.retarget (Reg.CPX_APLIC_RT 0xC01) (Reg.CPX_APLIC_RT 0x1000) (u - 4) (v - 4)

/-- The partitions that a unit runs. -/
def State.partsOf (s : State) (u : Nat) : List Nat := (List.range 48).filter (fun p => s.home p == u)

/-- The failover record of a cluster. -/
def State.failRecord (s : State) (u v : Nat) (latent : Bool) (moved : Nat) : State :=
  let k := if u < 4 then 0 else 1
  let t := s.wNow 0
  let s := s.wrN (Reg.CPX_FOREC_w0 k) (2 ^ 31 + u + 8 * v + 256 * b2n latent)
  let s := (s.wrN (Reg.CPX_FOREC_w1_4 k 0) (tkNs t)).wrN (Reg.CPX_FOREC_w1_4 k 1) (tkSec t % 2 ^ 32)
  (s.wrN (Reg.CPX_FOREC_w1_4 k 2) (moved % 2 ^ 32)).wrN (Reg.CPX_FOREC_w1_4 k 3) (moved / 2 ^ 32)

/-- The other pair can survive: RUNNING, SPARE or OFF.
DEDUCED, unsafe (log entry 93). -/
def State.canSurvive (s : State) (u : Nat) : Bool :=
  s.unitState u == 2 || s.unitState u == 6 || s.unitState u == 0

/-- Time since an event is less than a bound. -/
def State.within (s : State) (t : Option Nat) (n : Nat) : Bool :=
  match t with
  | some t => decide (s.nowNs - t < n)
  | none => false

/-- Partitions of a unit move to the survivor of its cluster, whose pair is released when it is OFF or
SPARE; FAILOVER is asserted (R344 step 4). -/
def State.failOver (s : State) (u : Nat) (latent : Bool) : State :=
  let v := twin u
  let parts := s.partsOf u
  let moved := parts.foldl (fun acc p => acc + 2 ^ p) 0
  let s := parts.foldl (fun acc p => acc.setFld (Reg.CPX_PARTHOME p) 0 3 v) s
  let s := (s.retargetUnit u v).failRecord u v latent moved
  let s := if s.unitState v = 2 then s else s.releaseUnit v
  let s := if s.mainUnit = u ∧ u < 4 then s.setFld Reg.CPX_APPMODE 1 2 v else s
  (((s.bump Cnt.CPX_FAILOVERS).monEvent 0x346).irq 256).unitFlags

/-- An output mismatch of a pair (R344, R347): ISOLATED, or OUT within an hour of becoming SPARE; then
failover, or a fatal fault when no pair can survive. -/
def State.lockstepOut (s : State) (u : Nat) (latent : Bool) : State :=
  let again := s.within (Store.get (fun _ => none) s.cpx.spareAt u) 3600000000000
  let s := ((s.setUnit u (if again then 7 else 4)).setRun u false).bump Cnt.CPX_LOCKSTEP_OUT
  let s := { s with cpx := { s.cpx with
    isolatedAt := Store.set (fun _ => 0) s.cpx.isolatedAt u s.nowNs } }
  if s.canSurvive (twin u) then (s.fault 0x32C1 0).failOver u latent
  else (s.fault 0x42C4 0).unitFlags

/-! ## Debug (R351, R352) -/

/-- Debug opens with scopes: the packet engines' DBGEN follows scope 3. -/
def State.setScopes (s : State) (v : Nat) : State :=
  let s := s.setFld Reg.CPX_DBGCTL 0 7 v
  [0x11, 0x12, 0x13].foldl (fun acc b => acc.setBit (regKey b 0x20) 0 (Nat.testBit v 3)) s

/-- The scopes that let a debugger halt a unit. -/
def State.mayHalt (s : State) (u : Nat) : Bool :=
  if u < 4 then s.bit Reg.CPX_DBGCTL 0 || s.bit Reg.CPX_DBGCTL 1 else s.bit Reg.CPX_DBGCTL 2

end Sys2Proof.Machine
end

