-- ==== Sys2Proof/Machine/Compute.lean ====
section
/-!
DEFINITION. The commands of the compute complex: MJPART, interrupts, units and their tests, lockstep,
checkpoints and debug (chapter *Compute complex and lockstep pairs*).
-/

namespace Sys2Proof.Machine

open Sys2Proof

/-- MJPART_WRITE, of a unit that the mode has: refused with an illegal-instruction exception for a fixed PMID,
or one whose HOME is another unit (R336, R337).
DESIGN CHOICE, safe (log entry 92). -/
def execMjpartWrite (u : Fin 6) (v : Word) (s : State) : Host.Outcome State Fault Refusal :=
  .next (
    let p := getBits v 0 6
    if !s.unitThere u.val then s
    else if 48 ≤ p ∨ s.home p ≠ u.val then { s with cpx := { s.cpx with illegal := true } }
    else
      { s with
        cpx := { s.cpx with
          illegal := false
          mjpart := Store.set (fun _ => 0x40) s.cpx.mjpart u.val (v &&& 0x7F) } })

/-- SOFTWARE_INTERRUPT: sources 384 to 511 are asserted as an edge (R340). -/
def execSoftwareInterrupt (m : Master) (n : BitVec 9) (s : State) :
    Host.Outcome State Fault Refusal :=
  .next (guardReg m Reg.CPX_SWIRQ (fun s => if 384 ≤ n.toNat then s.irq n.toNat else s) s)

/-- PAIR_RUN: RUN written 1 releases a unit; the main processor's RUN ignores writes, and so do units that
the mode lacks (R342). -/
def execPairRun (m : Master) (u : Fin 6) (s : State) : Host.Outcome State Fault Refusal :=
  .next (guardReg m (pairKey u.val) (fun s =>
    if !s.unitThere u.val || s.mainUnit == u.val then s else (s.releaseUnit u.val).unitFlags) s)

/-- FAULT_N[0] stays asserted after a reset until the first pair's self-test has passed; the start-up
self-tests are then complete (R449, R452). -/
def State.firstPairPassed (s : State) : State :=
  let s := if s.flt.faultN0Start then s.setGstat 1 false else s
  ({ s with flt := { s.flt with faultN0Start := false } }).setBit Reg.FLT_FAULTN 0 s.flt.fatal

/-- COMPARATOR_SELFTEST_DONE: the pair runs, or is OUT with a fault; of app pair 0 at a start a fatal one,
and start-up stops (R343). -/
def execComparatorSelftestDone (u : Fin 6) (pass : Bool) (s : State) :
    Host.Outcome State Fault Refusal :=
  .next (if s.unitState u.val ≠ 1 then s
    else if pass then (s.setUnit u.val 2).firstPairPassed.unitFlags
    else
      let s := (((s.setUnit u.val 7).setRun u.val false).setGstat 1 true).unitFlags
      if u.val = 0 ∧ s.flt.faultN0Start then
        { s with boot := { s.boot with halted := true } }.fault 0x42C3 0
      else s.fault 0x32C3 0)

/-- LOCKSTEP_MISMATCH: an output mismatch of a pair that is compared (R344, R353). -/
def execLockstepMismatch (u : Fin 6) (s : State) : Host.Outcome State Fault Refusal :=
  .next (
    let st := s.unitState u.val
    if s.isPair u.val && (st == 2 || st == 3 || st == 5) then s.lockstepOut u.val false else s)

/-- SPARE_RETURN_TEST: an isolated pair becomes SPARE or OUT (R347). -/
def execSpareReturnTest (u : Fin 6) (pass : Bool) (s : State) :
    Host.Outcome State Fault Refusal :=
  .next (if s.unitState u.val ≠ 4 ∨
      s.nowNs < Store.get (fun _ => 0) s.cpx.isolatedAt u.val + 10000000 then s
    else if pass then
      let s := { s.setUnit u.val 6 with
        cpx := { s.cpx with
          spareAt := Store.set (fun _ => none) s.cpx.spareAt u.val (some s.nowNs) } }
      (s.bump Cnt.CPX_SPARE_RETURN).irq 258
    else (s.setUnit u.val 7).fault 0x22C6 0)

/-- GROOMER_SCRUB: the signatures of a pair are compared; a difference is a latent divergence, and the
second within 100 ms an output mismatch (R348, R349). -/
def execGroomerScrub (u : Fin 6) (agree : Bool) (s : State) : Host.Outcome State Fault Refusal :=
  .next (
    let u := u.val
    if !s.isPair u || !(s.unitState u == 2 || s.unitState u == 3) then s
    else
      let s := (s.bump Cnt.CPX_SCRUBS).monEvent (0x340 + u)
      if agree then s
      else
        let again := s.within (Store.get (fun _ => none) s.cpx.latentAt u) 100000000
        let s := ((s.bump Cnt.CPX_LATENT_DIVERGE).monEvent 0x347).irq 257
        let s := { s.fault 0x12C2 0 with
          cpx := { s.cpx with
            latentAt := Store.set (fun _ => none) s.cpx.latentAt u (some s.nowNs) } }
        if again then s.lockstepOut u true else (s.setUnit u 5).unitFlags)

/-- RESYNC_DONE: the checker holds the main copy's state; the pair is RUNNING again. -/
def execResyncDone (u : Fin 6) (s : State) : Host.Outcome State Fault Refusal :=
  .next (if s.unitState u.val = 5 then (s.setUnit u.val 2).unitFlags else s)

/-- CHECKPOINT_COMMIT: a partition's checkpoint sequence number (R345).
DEDUCED, unsafe (log entry 96). -/
def execCheckpointCommit (m : Master) (pmid : BitVec 6) (seq : BitVec 16) (s : State) :
    Host.Outcome State Fault Refusal :=
  .next (guardReg m Reg.CPX_CKPTCOMMIT (fun s =>
    if pmid.toNat < 48 then s.setFld (Reg.CPX_CKPTSEQ pmid.toNat) 0 16 seq.toNat else s) s)

/-- The checks of a debug certificate in order: RES, 0 when all pass (R350, R351).
DEDUCED, unsafe (log entry 95). -/
def State.certCheck (s : State) (c : List Byte) : Nat :=
  if natAt c 0 4 ≠ 0x44424731 ∨ natAt c 4 2 ≠ 1 ∨ 128 ≤ natAt c 6 2 ∨ natAt c 0x81 3 ≠ 0 then 1
  else if bytesAt c 8 16 ≠ uidBytes then 2
  else if !s.rtcValid || decide (natAt c 0x18 8 ≤ s.rtcSec) then 3
  else if s.verifyWith 3 (bytesAt c 0x20 97) (Config.sha384 (c.take 0x84)) (bytesAt c 0x84 96) = 0 then 0
  else 4

/-- DEBUG_OPEN: GO checks the certificate; when all pass, its scopes open and MR6 is extended. -/
def execDebugOpen (m : Master) (s : State) : Host.Outcome State Fault Refusal :=
  .next (guardReg m Reg.CPX_DBGCTL (fun s =>
    if s.vaultState = 3 then s.setFld Reg.CPX_DBGCTL 8 4 5
    else
      let c := s.regBytes (Reg.CPX_DBGCERT 0) 228
      let r := s.certCheck c
      let s := s.setFld Reg.CPX_DBGCTL 8 4 r
      if r ≠ 0 then s
      else
        let s := (s.setScopes (natAt c 6 2)).extendMr 6 (Config.sha384 c)
        let s := { s with cpx := { s.cpx with notAfter := natAt c 0x18 8 } }
        ((s.irq 259).fault 0x02C5 0).bump Cnt.CPX_DBG_OPEN) s)

/-- Debug closes; halted harts resume. -/
def State.closeDebug (s : State) : State :=
  (List.range 6).foldl (fun acc u => if acc.unitState u = 3 then acc.setUnit u 2 else acc)
    (s.setScopes 0) |>.unitFlags

/-- DEBUG_EXPIRY: the RTC passes NOTAFTER. -/
def execDebugExpiry (s : State) : Host.Outcome State Fault Refusal :=
  .next (if s.fld Reg.CPX_DBGCTL 0 7 = 0 ∨ s.rtcSec ≤ s.cpx.notAfter then s else s.closeDebug)

/-- DEBUG_HALT: a debugger halts a unit at one retirement point, or lets it resume (R352). -/
def execDebugHalt (u : Fin 6) (halt : Bool) (s : State) : Host.Outcome State Fault Refusal :=
  .next (if !s.mayHalt u.val then s
    else if halt && s.unitState u.val == 2 then (s.setUnit u.val 3).unitFlags
    else if !halt && s.unitState u.val == 3 then (s.setUnit u.val 2).unitFlags
    else s)

end Sys2Proof.Machine
end

