-- ==== Sys2Proof/Machine/WakeOps.lean ====
section
/-!
DEFINITION. The wake unit's shared operations: consent, wake events and records, WAITE events, and
the Chairlift agent's frames and epochs (R383, R386, R392 to R404).
-/

namespace Sys2Proof.Machine

open Sys2Proof

/-! ## States and consent (R383, R395, R398) -/

/-- WAK_STATE.CUR: 0 Umber, 1 Slate, 2 Pewter, 3 Ivory. -/
def State.cur (s : State) : Nat := s.fld Reg.WAK_STATE 0 2

/-- A transition is in progress. -/
def State.trans (s : State) : Bool := s.bit Reg.WAK_STATE 4

/-- A transition toward a state begins. -/
def State.beginTrans (s : State) (target : Nat) : State :=
  (s.setFld Reg.WAK_STATE 2 2 target).setBit Reg.WAK_STATE 4 true

/-- The W program runs now: the sequencer is clocked in every state but Umber (R395). -/
def State.wActive (s : State) : Bool := s.wRunning && s.cur != 0

/-- WCONS: the program's consent, 1 while the sequencer is stopped or has trapped (R395). -/
def State.wcons (s : State) : Bool := !s.wRunning || s.bit Reg.WAK_CONSENT 16

/-- CONSENT (R398). -/
def State.consent (s : State) : Bool :=
  s.bit Reg.WAK_CONSENT 17 ||
    (s.fld Reg.WAK_CONSENT 0 16 == 0 && s.wcons && !(s.bit Reg.WAK_SLEEPCFG 1 && s.wak.key))

/-- WAK_EPOCH.PHASE. -/
def State.phase (s : State) : Nat := s.fld Reg.WAK_EPOCH 16 2

/-- The state with WAK_EPOCH.PHASE set. -/
def State.setPhase (s : State) (v : Nat) : State := s.setFld Reg.WAK_EPOCH 16 2 v

/-! ## WAITE events (R395) -/

/-- An event for the W program: delivered to a WAITE that waits for it, queued otherwise; while the
sequencer does not run there is none. -/
def State.postEvent (s : State) (e : WakeEvent) : State :=
  if !s.wActive then s
  else
    let th := s.thread 200
    let wak := s.wak
    match th.status with
    | .waiting (.event rd mask) =>
      if getBit mask e.code then
        { s.setThread 200 { th.setReg rd e.word with status := .ready } with
          wak := { wak with taken := e.record } }
      else { s with wak := { wak with events := wak.events ++ [e] } }
    | _ => { s with wak := { wak with events := wak.events ++ [e] } }

/-! ## The ring (R396 to R402) -/

/-- A map register array of 8 words as one number. -/
def State.mapOf (s : State) (k : Nat → Nat) : Nat :=
  (List.range 8).foldl (fun acc i => acc + s.rdN (k i) * 2 ^ (32 * i)) 0

/-- This node's ID. -/
def State.nodeId (s : State) : Nat := s.fld Reg.WAK_NODEID 0 16

/-- The epoch. -/
def State.epoch (s : State) : Nat := s.fld Reg.WAK_EPOCH 0 16

/-- `a` is newer than `b` (R400). -/
def epochNewer (a b : Nat) : Bool :=
  let d := (65536 + a - b % 65536) % 65536
  decide (1 ≤ d) && decide (d ≤ 32767)

/-- This node takes part in the top ring: leader, or backup acting for it (R396). -/
def State.onTop (s : State) : Bool := s.bit Reg.WAK_RINGCFG 1 || s.bit Reg.WAK_EPOCH 20

/-- The members of a ring: SEGMAP or TOPMAP. -/
def State.ringMap (s : State) (top : Bool) : Nat :=
  if top then s.mapOf Reg.WAK_TOPMAP else s.mapOf Reg.WAK_SEGMAP

/-- This node's place on a ring: its segment, or its member number. -/
def State.ringPlace (s : State) (top : Bool) : Nat :=
  if top then s.nodeId / 256 else s.nodeId % 256

/-- A node's place on a ring. -/
def placeOf (top : Bool) (node : Nat) : Nat := if top then node / 256 % 256 else node % 256

/-- The member before place `i` in ascending order, wrapping, skipping overridden ones. -/
def predecessor (map ovr i : Nat) : Option Nat :=
  let ms := (List.range 256).filter (fun k => Nat.testBit map k && !Nat.testBit ovr k)
  match (ms.filter (fun k => decide (k < i))).getLast? with
  | some k => some k
  | none => (ms.filter (fun k => decide (i < k))).getLast?

/-- The member after place `i` in ascending order, wrapping, skipping overridden ones. -/
def successor (map ovr i : Nat) : Option Nat :=
  let ms := (List.range 256).filter (fun k => Nat.testBit map k && !Nat.testBit ovr k)
  match (ms.filter (fun k => decide (i < k))).head? with
  | some k => some k
  | none => ms.head?

/-- The agent's state on a ring. -/
def State.ring (s : State) (top : Bool) : RingState := if top then s.wak.topRing else s.wak.seg

/-- The state with a ring's state replaced. -/
def State.setRing (s : State) (top : Bool) (r : RingState) : State :=
  if top then { s with wak := { s.wak with topRing := r } }
  else { s with wak := { s.wak with seg := r } }

/-- A copy of a chair is sent or received: the newest seen; the first of an epoch starts MAXAWAKE (R401,
R404). -/
def State.seeChair (s : State) (top : Bool) (c : Chair) : State :=
  let s := s.setRing top { s.ring top with newest := some c, seenAt := s.nowNs }
  { s with wak := { s.wak with chairAt := s.wak.chairAt <|> some s.nowNs } }

/-- Frame types of R397. -/
inductive ChairType where
  | chair | commit | abort
  deriving DecidableEq, Repr

/-- TYPE of a Chairlift frame. -/
def ChairType.code : ChairType → Nat
  | .chair => 1 | .commit => 2 | .abort => 3

/-- The 80-byte payload of R397. -/
def chairPayload (ty : ChairType) (c : Chair) : List Byte :=
  [1] ++ bytesBE 1 ty.code ++ bytesBE 2 c.epoch ++ bytesBE 1 (b2n c.top) ++
    bytesBE 1 (if c.top then 0 else c.segment) ++ bytesBE 2 c.origin ++ bytesBE 2 c.sender ++
    bytesBE 2 c.delay ++ [0, 0, 0, 0] ++ bytesLE 32 c.map ++ bytesLE 32 c.ovr

/-- The frame that a payload spells, or none where R397 discards it. -/
def parseChair (ty : ChairType) (bs : List Byte) (addrTop can : Bool) : Option Chair :=
  let top := natAt bs 4 1 == 1
  if natAt bs 0 1 = 1 ∧ natAt bs 1 1 = ty.code ∧ bs.length = (if can then 48 else 80) ∧
      natAt bs 12 4 = 0 ∧ natAt bs 4 1 < 2 ∧ top = addrTop ∧ ¬ (can = true ∧ top = true) then
    some
      { epoch := natAt bs 2 2, top := top, segment := natAt bs 5 1, origin := natAt bs 6 2,
        sender := natAt bs 8 2, delay := natAt bs 10 2, map := natLE (bytesAt bs 16 32),
        ovr := if can then 0 else natLE (bytesAt bs 48 32) }
  else none

/-- The six bytes of a MAC address register pair: byte 0 in bits [15:8] of the second word. -/
def State.macOf (s : State) (lo hi : Nat) : List Byte :=
  bytesBE 2 (s.fld hi 0 16) ++ bytesBE 4 (s.rdN lo)

/-- A Chairlift frame as the agent hands it to the switch: Ethernet, or CAN behind the gateway
pseudo-header for a segment with CANXP (R397, R399). -/
def State.chairFrame (s : State) (ty : ChairType) (c : Chair) : List Byte :=
  let p := chairPayload ty c
  if s.bit Reg.WAK_RINGCFG 4 && !c.top then
    pseudoHeader 1 (s.fld Reg.WAK_CANCH 0 4) (4 + b2n (s.bit Reg.WAK_CANXP 29))
      (s.fld Reg.WAK_CANXP 0 29) 48 0 0 0 ++ p.take 48
  else
    (if c.top then s.macOf Reg.WAK_TOPMAC_lo Reg.WAK_TOPMAC_hi
      else s.macOf Reg.WAK_SEGMAC_lo Reg.WAK_SEGMAC_hi) ++
      s.macOf Reg.WAK_OWNMAC_lo Reg.WAK_OWNMAC_hi ++ [0x88, 0xB5] ++ p

/-- The agent emits a frame as port 33 ingress (R399). -/
def State.emitChair (s : State) (ty : ChairType) (c : Chair) : State :=
  s.injectFrame 33 (s.chairFrame ty c)

/-- The agent runs: the node is awake and the FABRIC island runs (R399). -/
def State.agentRuns (s : State) : Bool := decide (2 ≤ s.cur) && s.running .fabric && !s.coreHeld

/-- Adopt an epoch: WOKE, SEGDONE, OVRMAP, OVR and the node's bit state clear (R400, R404). -/
def State.adoptEpoch (s : State) (e : Nat) : State :=
  let s := s.wr Reg.WAK_EPOCH
    (setBits (setBits (s.rd Reg.WAK_EPOCH) 0 16 e) 16 4 (if s.phase = 3 then 3 else 0))
  let s := s.wrN Reg.WAK_DEADLINE 0
  let s := (List.range 8).foldl (fun acc i => acc.wr (Reg.WAK_OVRMAP i) 0) s
  let s := s.setBit Reg.WAK_CONSENT 17 false
  { s with
    wak := { s.wak with
      seg := { seenAt := s.nowNs }, topRing := { seenAt := s.nowNs }, deadline := none, maxed := false
      chairAt := none } }

/-- Emit an ABORT on the segment, and by a leader also on the top ring (R403). -/
def State.floodAbort (s : State) (epoch origin : Nat) : State :=
  let c : Chair :=
    { epoch := epoch % 65536, segment := s.nodeId / 256, origin := origin, sender := s.nodeId }
  let s := s.emitChair .abort c
  if s.onTop then s.emitChair .abort { c with top := true } else s

/-- Send an ABORT of the current epoch + 1 and adopt that epoch; the ABORT may fall within
WAKEGUARD ms of the node's deadline (R403). -/
def State.sendAbort (s : State) : State :=
  let late := s.wak.deadline.filter (fun d =>
    decide (s.nowNs ≤ d) && decide (d ≤ s.nowNs + 1000000 * s.fld Reg.WAK_SLEEPCFG 4 4))
  let e := (s.epoch + 1) % 65536
  let s := ((s.floodAbort e s.nodeId).bump Cnt.WAK_ABORTS_SENT).monEvent 0x3E3
  let s := s.adoptEpoch e
  ({ s with wak := { s.wak with lateAbort := late <|> s.wak.lateAbort } }).postEvent { code := 0x13 }

/-- The node's deadline has come (R402). -/
def State.deadlineCome (s : State) : Bool :=
  match s.wak.deadline with
  | some d => decide (d ≤ s.nowNs)
  | none => false

/-- A wake request of a node that is awake: WOKE sets, and a node whose MAP bit is set sends an
ABORT before its deadline; from the deadline on the entry proceeds (R398, R403, R405). -/
def State.wakeRequest (s : State) : State :=
  if 2 ≤ s.cur ∧ s.phase ≠ 3 ∧ s.deadlineCome = false then
    let pledged := s.wak.seg.mine || s.wak.deadline.isSome
    let s := s.setBit Reg.WAK_EPOCH 18 true
    if pledged then s.sendAbort else s
  else s

/-- A valid deadline is set: the drowse window opens (R402). -/
def State.setDeadline (s : State) (ns : Nat) : State :=
  let s := (s.setPhase 2).wrN Reg.WAK_DEADLINE (Nat.min 65535 (ns / 1000))
  { s with wak := { s.wak with deadline := some (s.nowNs + ns) } }

/-- The copy this node emits of a chair: its bit set, itself the sender. -/
def State.ownCopy (s : State) (top : Bool) (c : Chair) : Chair :=
  { c with map := c.map ||| 2 ^ s.ringPlace top, sender := s.nodeId, delay := 0 }

/-- Emit this node's copy of a chair (R401). -/
def State.forwardChair (s : State) (top : Bool) (c : Chair) : State :=
  let copy := s.ownCopy top c
  let s := if s.phase = 0 then s.setPhase 1 else s
  let s := (s.setRing top { s.ring top with mine := true, held := none }).seeChair top copy
  ((s.emitChair .chair copy).bump Cnt.WAK_CHAIR_FWD).monEvent 0x3E1

/-- This node agrees on a ring: CONSENT on its segment, SEGDONE on the top ring (R401, R402). -/
def State.agrees (s : State) (top : Bool) : Bool :=
  if top then s.bit Reg.WAK_EPOCH 19 else s.consent

/-- Emit a chair held until the node agreed. -/
def State.releaseRing (s : State) (top : Bool) : State :=
  match (s.ring top).held with
  | some c => if s.agrees top then s.forwardChair top c else s
  | none => s

/-- After a change of consent: held chairs go on, and a node without a ring takes its own deadline
40 ms later (R401, R404). -/
def State.releaseHeld (s : State) : State :=
  if !s.agentRuns then s
  else if s.bit Reg.WAK_RINGCFG 0 then (s.releaseRing false).releaseRing true
  else if s.consent && s.phase == 0 && !s.trans then
    let s := if s.bit Reg.WAK_EPOCH 18 then
        ((s.bump Cnt.WAK_VOID_COMMITS).fault 0x0351 0).sendAbort else s
    let s := s.setDeadline 40000000
    s.setRing false { s.wak.seg with mine := true }
  else s

/-! ## Wake events and records (R391 to R395) -/

/-- Bit of WAK_SRCEN that enables a source: always set for tamper and POWER; the AON copy counts
while asleep. -/
def State.sourceEnabled (s : State) (code : Nat) : Bool :=
  code == 8 || code == 9 ||
    (if s.cur < 2 then getBit s.wak.srcen code else s.bit Reg.WAK_SRCEN code)

/-- The state a source wakes the module to: WAK_SRCTGT (R392); POWER goes to Ivory (R387). -/
def State.sourceTarget (s : State) (code : Nat) : Nat :=
  if code = 9 then 3
  else if (if s.cur < 2 then getBit s.wak.srctgt code else s.bit Reg.WAK_SRCTGT code) then 3 else 2

/-- The states a source is armed in (R392). -/
def armedIn (code cur : Nat) : Bool :=
  match code with
  | 1 | 2 | 8 | 9 => true
  | 3 | 4 | 5 => cur == 1
  | 6 | 7 => decide (1 ≤ cur)
  | _ => decide (2 ≤ cur)

/-- The newest record coalesces an event of its source and sub-source while the wake it started
has not reached its target (R393).
DEDUCED, unsafe (log entry 106). -/
def State.coalesces (s : State) (code sub : Nat) : Option Nat :=
  match s.wak.waking with
  | none => none
  | some r =>
    let w0 := s.rd (Reg.WAK_REC_w0 r)
    if s.trans && (r + 1) % 32 == s.fld Reg.WAK_WKHEAD 0 5 && s.bit (Reg.WAK_REC_w3 r) 31 &&
        getBits w0 0 8 == code && getBits w0 8 8 == sub then some r
    else none

/-- Write a wake record for an event, or count it in the newest one (R393). -/
def State.wakeRecord (s : State) (code sub ident : Nat) : State × Nat :=
  match s.coalesces code sub with
  | some r =>
    (s.setFld (Reg.WAK_REC_w0 r) 16 16 (Nat.min 0xFFFF (s.fld (Reg.WAK_REC_w0 r) 16 16 + 1)), r)
  | none =>
    let h := s.fld Reg.WAK_WKHEAD 0 5
    let s := if s.bit (Reg.WAK_REC_w3 h) 31 then
        s.setFld Reg.WAK_WKHEAD 16 16 (Nat.min 0xFFFF (s.fld Reg.WAK_WKHEAD 16 16 + 1)) else s
    let s := s.wrN (Reg.WAK_REC_w0 h) (65536 + code + 256 * sub)
    let s := s.wrN (Reg.WAK_REC_w1 h) ident
    let s := s.wrN (Reg.WAK_REC_w2 h) s.rtcSec
    let s := s.wrN (Reg.WAK_REC_w3 h)
      (2 ^ 31 + s.rtcTicks % 32768 + 2 ^ 18 * b2n (!s.rtcValid) + 2 ^ 20 * s.cur + 2 ^ 22 * s.cur)
    ({ s.setFld Reg.WAK_WKHEAD 0 5 ((h + 1) % 32) with
        wak := { s.wak with unboxed := s.wak.unboxed ++ [h] } }, h)

/-- A wake is decided: a sleeping module begins its transition, with the next epoch; a module in
Pewter goes on to Ivory, where its stopped islands restart (R34, R387, R400). `r` is the record of the event
that made it. -/
def State.startWake (s : State) (target : Nat) (r : Option Nat) : State :=
  if s.cur < 2 then
    if s.trans then
      if s.fld Reg.WAK_STATE 2 2 < target then s.setFld Reg.WAK_STATE 2 2 target else s
    else
      let s := ((s.adoptEpoch ((s.epoch + 1) % 65536)).bump Cnt.WAK_WAKES).monEvent 0x3E0
      { s.beginTrans target with wak := { s.wak with waking := r } }
  else if s.cur = 2 ∧ target = 3 ∧ s.trans = false then
    let s := coreIslands.foldl (fun acc i =>
      if acc.island i = .stopped then acc.setIsland i .restarting else acc) s
    { s.beginTrans 3 with wak := { s.wak with waking := r } }
  else s

/-- An event of a wake source (R391 to R395, R398): recorded; latched from the deadline on (R405); a wake
request while awake; then an event for the W program, or under the fixed behaviour, and for tamper
and POWER always, a wake. -/
def State.wakeEvent (s : State) (code sub ident : Nat) : State :=
  if !armedIn code s.cur || !s.sourceEnabled code then s
  else
    let target := s.sourceTarget code
    let p := s.wakeRecord code sub ident
    let s := p.1
    if s.phase = 3 ∨ 2 ≤ s.cur ∧ s.deadlineCome = true then
      { s with wak := { s.wak with heldWake := s.wak.heldWake ++ [(p.2, target)] } }
    else
      let s := s.wakeRequest
      if code ≠ 8 ∧ code ≠ 9 ∧ s.wActive = true then s.postEvent ⟨code, sub, some p.2⟩
      else s.startWake target (some p.2)

end Sys2Proof.Machine
end

