-- ==== Sys2Proof/Machine/GwyOps.lean ====
section
/-!
DEFINITION. The field-bus gateway's shared operations: the way of frames toward port 34, their return,
ACF messages, and the checks of a frame from the switch (R297 to R308).
-/

namespace Sys2Proof.Machine

open Sys2Proof

/-! ## Toward port 34 (R298, R299) -/

/-- The gateway's time, a number of nanoseconds ago: the Edge die's copy of local time, in domain
TIM_DELIV.GWYDOM (R239). -/
def State.gwyTime (s : State) (ago : Nat) : Nat :=
  s.wAt (s.fld Reg.TIM_DELIV 2 2) (s.edgeLt - 65536 * ago)

/-- Port 34 is held: no cell for it, its ingress XOFF, or admission closed (R19, R89).
DEDUCED, unsafe (log entry 84). -/
def State.gwyHeld (s : State) : Bool :=
  s.anyXoff 34 || s.poolFree == 0 || s.fab.closed || s.coreHeld || !s.edgeReachable

/-- While port 34 is not held, the frames that wait pass over the Traverse link in their order. -/
def State.gwyDrain (s : State) : State :=
  if s.gwyHeld then s
  else
    s.gwy.inbox.foldl (fun acc x => acc.injectFrame 34 x.bytes)
      { s with gwy := { s.gwy with inbox := [] } }

/-- A frame joins the way to port 34. -/
def State.gwyPush (s : State) (bus chan : Nat) (bs : List Byte) (rx : Bool) : State :=
  let x : GwyFrame := ⟨bus, chan, bs, rx⟩
  { s with gwy := { s.gwy with inbox := s.gwy.inbox ++ [x] } }.gwyDrain

/-- The receive buffer of a source has room for a frame of `n` data bytes: 128 CAN frames, 16 LIN frames,
8 KiB of a serial channel, 64 events; a retrain's frames wait in its own buffer (R11, R299). -/
def State.gwyRoom (s : State) (bus chan n : Nat) : Bool :=
  s.traverse.state == .recovering ||
    (let mine := s.gwy.inbox.filter (fun x => x.rx &&
        (if 4 ≤ bus then decide (4 ≤ x.bus) else x.bus == bus && x.chan == chan))
     match bus with
     | 1 => decide (mine.length < 128)
     | 2 => decide (mine.length < 16)
     | 3 => decide ((mine.map (fun x => x.bytes.length - 20)).sum + n ≤ 8192)
     | _ => decide (mine.length < 64))

/-- A counter pair reads 0. -/
def State.pairZero (s : State) (k : Nat) : Bool := s.rdN k == 0 && s.fld (k + 4) 0 30 == 0

/-- A received frame of a channel: counted and queued, or an overrun (R299). -/
def State.gwyReceive (s : State) (bus chan : Nat) (bs : List Byte) (rxCnt ovrCnt : Nat) : State :=
  let s := s.heardFrame
  if s.gwyRoom bus chan (bs.length - 20) then (s.bump rxCnt).gwyPush bus chan bs true
  else
    let first := s.pairZero ovrCnt
    let s := s.bump ovrCnt
    if first then s.fault 0x2242 0 else s

/-- An input event (R307). -/
def State.gwyEvent (s : State) (bus chan : Nat) (data : List Byte) : State :=
  if s.gwyRoom bus chan data.length then
    let t := s.gwyTime 0
    s.gwyPush bus chan
      (pseudoHeader bus chan 0 0 data.length 0 (tkNs t) (tkSec t % 2 ^ 32) ++ data) true
  else if s.gwy.eventLost then s
  else { s with gwy := { s.gwy with eventLost := true } }.fault 0x2242 0

/-! ## Returned frames (R300) -/

/-- FLAGS of a frame with pseudo-header. -/
def gwyFlags (bs : List Byte) : Nat := natAt bs 2 2

/-- A frame with bit `b` of FLAGS set. -/
def withGwyFlag (bs : List Byte) (b : Nat) : List Byte :=
  bs.take 2 ++ bytesBE 2 (gwyFlags bs ||| 2 ^ b) ++ bs.drop 4

/-- A frame that could not be transmitted returns with TXFAIL and a reason. -/
def State.gwyReturn (s : State) (bus chan : Nat) (bs : List Byte) (reason failCnt : Nat) : State :=
  let bs := withGwyFlag bs 7
  (s.bump failCnt).gwyPush bus chan (bs.take 10 ++ bytesBE 1 reason ++ bs.drop 11) false

/-- A transmitted frame: counted, noted as the channel's last, and confirmed when TXCONF asks for it, with the
time of its first edge, `ago` nanoseconds before (R298). -/
def State.gwySent (s : State) (bus chan : Nat) (bs : List Byte) (txCnt ago : Nat) : State :=
  let s := { s.bump txCnt with
    gwy := { s.gwy with lastTx := Store.set (fun _ => []) s.gwy.lastTx (256 * bus + chan) bs } }
  if Nat.testBit (gwyFlags bs) 6 then
    let t := s.gwyTime ago
    s.gwyPush bus chan
      (pseudoHeader bus chan (gwyFlags bs) (natAt bs 4 4) 0 0 (tkNs t) (tkSec t % 2 ^ 32)) false
  else s

/-! ## ACF messages (R308; IEEE 1722-2016 clause 9) -/

/-- A payload padded to quadlets. -/
def quadPad (d : List Byte) : List Byte := d ++ List.replicate ((4 - d.length % 4) % 4) 0

/-- The first quadlet of a message: type, length in quadlets, pad, and 14 further bits. -/
def acfQuad (ty quads pad rest : Nat) : List Byte :=
  bytesBE 4 (2 ^ 25 * ty + 2 ^ 16 * quads + 2 ^ 14 * pad + rest)

/-- An ACF CAN or CAN Brief message of a received frame.
PRESUMED, unsafe (log entry 83). -/
def acfCan (brief : Bool) (busId flags ident sec ns : Nat) (data : List Byte) : List Byte :=
  let pad := (4 - data.length % 4) % 4
  let bit := fun (b k : Nat) => if Nat.testBit flags b then 2 ^ k else 0
  let rest := (if brief then 0 else 2 ^ 13) + bit 1 12 + bit 0 11 + bit 3 10 + bit 2 9 + bit 4 8 +
    busId % 32
  let body := (if brief then [] else bytesBE 8 (1000000000 * sec + ns)) ++ bytesBE 4 ident ++
    quadPad data
  acfQuad (if brief then 2 else 1) (1 + body.length / 4) pad rest ++ body

/-- An ACF LIN message of a received frame. -/
def acfLin (busId ident sec ns : Nat) (data : List Byte) : List Byte :=
  let pad := (4 - data.length % 4) % 4
  let body := bytesBE 8 (1000000000 * sec + ns) ++ quadPad data
  acfQuad 3 (1 + body.length / 4) pad (2 ^ 13 + busId % 32 * 256 + ident % 256) ++ body

/-- What a frame from the switch asks a channel to send: identifier, FLAGS bits 4 to 0, data length. -/
structure GwyRequest where
  ident : Nat
  flags : Nat
  len : Nat
  deriving DecidableEq, Repr

/-- The request of an ACF message of a type that suits its bus, with a consistent length. -/
def acfRequest (bus : Nat) (d : List Byte) : Option GwyRequest :=
  let q := natAt d 0 4
  let ty := q / 2 ^ 25
  let pad := q / 2 ^ 14 % 4
  let head := if ty = 1 then 16 else if ty = 2 then 8 else 12
  let bit := fun (b k : Nat) => if Nat.testBit q b then 2 ^ k else 0
  if q / 2 ^ 16 % 512 * 4 ≠ d.length ∨ d.length < head + pad then none
  else if bus = 1 ∧ (ty = 1 ∨ ty = 2) then
    some ⟨natAt d (head - 4) 4 % 2 ^ 29, bit 11 0 + bit 12 1 + bit 9 2 + bit 10 3 + bit 8 4,
      d.length - head - pad⟩
  else if bus = 2 ∧ ty = 3 then some ⟨q % 256, 0, d.length - head - pad⟩
  else none

/-! ## Frames from the switch (R300, R303, R305, R306) -/

/-- A data length that CAN carries. -/
def canLenOk (fd : Bool) (n : Nat) : Bool :=
  decide (n ≤ 8) || (fd && [12, 16, 20, 24, 32, 48, 64].contains n)

/-- The request of a frame from port 34 that passes the checks of R300. -/
def State.gwyCheck (s : State) (bs : List Byte) : Option GwyRequest :=
  let bus := natAt bs 0 1
  let chan := natAt bs 1 1
  let len := natAt bs 8 2
  let data := bs.drop 20
  let acf := Nat.testBit (gwyFlags bs) 5
  let rtr := bus == 1 && !acf && Nat.testBit (gwyFlags bs) 1
  let lenOk := if rtr then data.isEmpty else len == data.length
  if bs.length < 20 ∨ !lenOk then none
  else
    match (if acf then acfRequest bus data
      else some ⟨natAt bs 4 4 % 2 ^ 29, gwyFlags bs % 32, len⟩) with
    | none => none
    | some r =>
      let fd := Nat.testBit r.flags 2
      let ok := match bus with
        | 1 => decide (chan < 16) && (!fd || s.bit (Reg.GWY_CANCTL chan) 1) &&
            !(fd && Nat.testBit r.flags 1) && canLenOk fd r.len
        | 2 => decide (chan < 8) && decide (1 ≤ r.len ∧ r.len ≤ 8)
        | 3 => decide (chan < 4) && decide (1 ≤ r.len ∧ r.len ≤ 1024) && !acf
        | _ => false
      if ok then some r else none

/-- The value a CAN identifier competes with: a base identifier as ID << 18 (R303). -/
def canKey (r : GwyRequest) : Nat :=
  if Nat.testBit r.flags 0 then r.ident else r.ident % 2 ^ 11 * 2 ^ 18

/-! ## Channels -/

/-- A GWY instance works: its Edge-die registers are powered while the module is awake (R296). -/
def State.gwyOn (s : State) (i : Nat) : Bool := s.blkEn (0x1C + i) && decide (2 ≤ s.cur)

/-- A channel is enabled in an enabled instance. -/
def State.canOn (s : State) (c : Nat) : Bool := s.gwyOn 0 && s.bit (Reg.GWY_CANCTL c) 0
def State.linOn (s : State) (l : Nat) : Bool := s.gwyOn 1 && s.bit (Reg.GWY_LINCTL l) 0
def State.serOn (s : State) (n : Nat) : Bool := s.gwyOn 1 && s.bit (Reg.GWY_SERCTL n) 0

/-- ESTATE of a CAN channel: 0 error-active, 1 error-passive, 2 bus-off, 3 stopped. -/
def State.canState (s : State) (c : Nat) : Nat := s.fld (Reg.GWY_CANSTAT c) 0 2

/-- The transmit buffer of a CAN channel. -/
def State.canTx (s : State) (c : Nat) : List GwyTx := Store.get (fun _ => []) s.gwy.canTx c

/-- The state with a transmit buffer replaced; TXFULL follows. -/
def State.setCanTx (s : State) (c : Nat) (v : List GwyTx) : State :=
  { s with gwy := { s.gwy with canTx := Store.set (fun _ => []) s.gwy.canTx c v } }.setBit
    (Reg.GWY_CANSTAT c) 29 (decide (32 ≤ v.length))

/-- Every frame of a CAN transmit buffer returns with a reason. -/
def State.returnCan (s : State) (c reason : Nat) : State :=
  let q := s.canTx c
  q.foldl (fun acc x => acc.gwyReturn 1 c x.bytes reason (Cnt.CAN_TX_FAIL c)) (s.setCanTx c [])

/-- A CAN channel leaves the bus: its buffered frames return with reason 1 (R302). -/
def State.busOff (s : State) (c : Nat) : State :=
  (((s.setFld (Reg.GWY_CANSTAT c) 0 2 2).bump (Cnt.CAN_BUSOFF_CNT c)).fault 0x2243 0).returnCan c 1

/-- The error counters of a CAN channel, with the state they give it: error-passive above 127, bus-off above
255 (R302; ISO 11898-1).
PRESUMED, unsafe (log entry 82). -/
def State.setCanErrors (s : State) (c rec_ tec : Nat) : State :=
  let k := Reg.GWY_CANSTAT c
  let s := (s.setFld k 8 8 (min 255 rec_)).setFld k 16 9 (min 511 tec)
  if 255 < tec then s.busOff c
  else s.setFld k 0 2 (if 127 < rec_ ∨ 127 < tec then 1 else 0)

/-- REC and TEC. -/
def State.canRec (s : State) (c : Nat) : Nat := s.fld (Reg.GWY_CANSTAT c) 8 8
def State.canTec (s : State) (c : Nat) : Nat := s.fld (Reg.GWY_CANSTAT c) 16 9

/-- A response buffer. -/
def State.linBuf (s : State) (l i : Nat) : Option LinBuffer :=
  Store.get (fun _ => none) s.gwy.linBuf (64 * l + i)

/-- The state with a response buffer replaced. -/
def State.setLinBuf (s : State) (l i : Nat) (v : Option LinBuffer) : State :=
  { s with gwy := { s.gwy with linBuf := Store.set (fun _ => none) s.gwy.linBuf (64 * l + i) v } }

/-- The header of an identifier, `ago` nanoseconds after its break field: a valid response buffer is sent;
identifiers 62 and 63 are not used (R305).
DEDUCED, unsafe (log entry 86). -/
def State.linRespond (s : State) (l i ago : Nat) : State :=
  if 62 ≤ i then s
  else
    match s.linBuf l i with
    | none => s
    | some b =>
      (s.setLinBuf l i (some { b with sent := true })).gwySent 2 l b.bytes (Cnt.LIN_TX_FRAMES l) ago

/-- The parity bits of a LIN identifier, above it: its protected identifier (ISO 17987-3). -/
def linPid (i : Nat) : Nat :=
  let b := fun k => b2n (Nat.testBit i k)
  i + 64 * ((b 0 + b 1 + b 2 + b 4) % 2) + 128 * ((b 1 + b 3 + b 4 + b 5 + 1) % 2)

/-- The checksum of LIN data: the inverted sum with carry, over the protected identifier too for identifiers 0
to 59 (R305; ISO 17987-3). -/
def linChecksum (i : Nat) (data : List Byte) : Nat :=
  255 - data.foldl (fun acc b => let n := acc + b.toNat; if 255 < n then n - 255 else n)
    (if i < 60 then linPid i else 0)

/-- The length of identifier `i`'s response: GWY_LINLEN, 1 to 8 (R305). -/
def State.linLen (s : State) (l i : Nat) : Nat :=
  clampNat 1 8 (s.fld (Reg.GWY_LINLEN l (i / 8)) (i % 8 * 4) 4)

/-- The response a channel takes from the bytes received. A commander takes as many as GWY_LINLEN says: with
fewer there is no whole response, and of more the next byte stands in the checksum's place (R305).
DEDUCED, unsafe (log entry 86). -/
def State.linTaken (s : State) (l i : Nat) (data : List Byte) (err : LinError) : List Byte × LinError :=
  let n := s.linLen l i
  if !s.bit (Reg.GWY_LINCTL l) 1 then (data, err)
  else if data.length < n then (data, if err = .none then .noResponse else err)
  else if n < data.length ∧ err = .none then
    (data.take n,
      if natAt data n 1 = linChecksum i (data.take n) then .none else .checksum)
  else (data.take n, err)

/-- A channel stops: its buffered frames return with reason 3 (R296, R309). -/
def State.stopCan (s : State) (c : Nat) : State :=
  (s.returnCan c 3).setFld (Reg.GWY_CANSTAT c) 0 2 3
def State.stopLin (s : State) (l : Nat) : State :=
  (List.range 64).foldl (fun acc i =>
    match acc.linBuf l i with
    | none => acc
    | some b =>
      let acc := acc.setLinBuf l i none
      if b.sent then acc else acc.gwyReturn 2 l b.bytes 3 (Cnt.LIN_TX_FAIL l)) s

/-- The transmit buffer of a serial channel. -/
def State.serTx (s : State) (c : Nat) : List (List Byte) := Store.get (fun _ => []) s.gwy.serTx c

/-- The state with a serial transmit buffer replaced. -/
def State.setSerTx (s : State) (c : Nat) (v : List (List Byte)) : State :=
  { s with gwy := { s.gwy with serTx := Store.set (fun _ => []) s.gwy.serTx c v } }

/-- A serial channel stops: its buffered frames return with reason 3. -/
def State.stopSer (s : State) (c : Nat) : State :=
  (s.serTx c).foldl (fun acc bs => acc.gwyReturn 3 c bs 3 (Cnt.SER_TX_FAIL c)) (s.setSerTx c [])

/-- A CAN channel starts: its error counters are 0. -/
def State.startCan (s : State) (c : Nat) : State := s.setCanErrors c 0 0

/-- A LIN channel starts: at the first entry of its schedule. -/
def State.startLin (s : State) (l : Nat) : State :=
  { s with gwy := { s.gwy with linAt := Store.set (fun _ => 0) s.gwy.linAt l 0 } }

/-- A GWY instance stops or starts as a whole (R296). -/
def State.stopGwy (s : State) (i : Nat) : State :=
  if i = 0 then (List.range 16).foldl (fun acc c => acc.stopCan c) s
  else
    (List.range 4).foldl (fun acc c => acc.stopSer c)
      ((List.range 8).foldl (fun acc l => acc.stopLin l) s)
def State.startGwy (s : State) (i : Nat) : State :=
  if i = 0 then (List.range 16).foldl (fun acc c =>
    if acc.bit (Reg.GWY_CANCTL c) 0 then acc.startCan c else acc) s
  else (List.range 8).foldl (fun acc l =>
    if acc.bit (Reg.GWY_LINCTL l) 0 then acc.startLin l else acc) s

end Sys2Proof.Machine
end

