-- ==== Sys2Proof/Machine/Gateway.lean ====
section
/-!
DEFINITION. The commands of the field-bus gateway: CAN, LIN and serial frames, inputs, frames from the
switch, channel enables and the bus wake sources (chapter *Field-bus gateway and local I/O*).
-/

namespace Sys2Proof.Machine

open Sys2Proof

/-! ## CAN reception (R299, R302, R308) -/

/-- REC after a good reception (ISO 11898-1).
PRESUMED, unsafe (log entry 82). -/
def recAfterGood (n : Nat) : Nat := if 127 < n then 127 else n - 1

/-- The count of a reception error: 1, or 8 (ISO 11898-1). -/
def canRxWeight : CanRx → Nat
  | .good => 0 | .error => 1 | .dominant => 8

/-- CAN_FRAME_RECEIVED: a frame is accepted and queued, or its reception fails; `ago` is the time since its
start-of-frame, and a remote frame's `data` gives its requested length. -/
def execCanFrameReceived (c : Fin 16) (how : CanRx) (ident : BitVec 29) (flags : BitVec 5)
    (data : List Byte) (ago : BitVec 32) (s : State) : Host.Outcome State Fault Refusal :=
  .next (
    let c := c.val
    let fl := flags.toNat
    if !s.canOn c || decide (2 ≤ s.canState c) then s
    else if how ≠ .good then
      ((s.bump (Cnt.CAN_BUS_ERR c)).monEvent (0x2A2 + 4 * c)).setCanErrors c
        (s.canRec c + canRxWeight how) (s.canTec c)
    else if Nat.testBit fl 2 && !s.bit (Reg.GWY_CANCTL c) 1 then s
    else
      let s := (s.setCanErrors c (recAfterGood (s.canRec c)) (s.canTec c)).monEvent (0x2A0 + 4 * c)
      let t := s.gwyTime ago.toNat
      let sec := tkSec t % 2 ^ 32
      let body := if Nat.testBit fl 1 then [] else data
      let acf := s.bit (Reg.GWY_CANCTL c) 4
      let out := if acf then
          acfCan (s.bit (Reg.GWY_CANCTL c) 5) (s.fld (Reg.GWY_CANCTL c) 8 5) fl ident.toNat sec
            (tkNs t) body
        else body
      let len := if Nat.testBit fl 1 && !acf then data.length else out.length
      s.gwyReceive 1 c
        (pseudoHeader 1 c (fl + 32 * b2n acf) ident.toNat len 0 (tkNs t) sec ++ out)
        (Cnt.CAN_RX_FRAMES c) (Cnt.CAN_RX_OVERRUN c))

/-! ## LIN (R305) -/

/-- Code of a LIN error in STATUS. -/
def linErrorCode : LinError → Nat
  | .none => 0 | .noResponse => 1 | .checksum => 2 | .framing => 3

/-- LIN_HEADER_RECEIVED: a responder answers from a valid response buffer. -/
def execLinHeaderReceived (l : Fin 8) (h : LinHeader) (s : State) : Host.Outcome State Fault Refusal :=
  .next (if s.linOn l.val && !s.bit (Reg.GWY_LINCTL l.val) 1 then
      s.linRespond l.val h.ident.val h.ago.toNat else s)

/-- LIN_FRAME_RECEIVED: a response is received, or fails, and is delivered; `ago` is the time since its
break field. -/
def execLinFrameReceived (l : Fin 8) (ident : Fin 64) (data : List Byte) (err : LinError)
    (ago : BitVec 32) (s : State) : Host.Outcome State Fault Refusal :=
  .next (
    let l := l.val
    let i := ident.val
    if !s.linOn l || decide (62 ≤ i) then s
    else
      let t := s.gwyTime ago.toNat
      let sec := tkSec t % 2 ^ 32
      let taken := s.linTaken l i data err
      let data := taken.1
      let err := taken.2
      let acf := s.bit (Reg.GWY_LINCTL l) 4
      let out := if acf then acfLin (s.fld (Reg.GWY_LINCTL l) 8 5) i sec (tkNs t) data else data
      let bad := err != .none
      let flags := 32 * b2n acf + 256 * b2n (decide (60 ≤ i)) + 512 * b2n bad
      let s := if bad then (s.bump (Cnt.LIN_LIN_ERR l)).monEvent (0x2E1 + 2 * l)
        else s.monEvent (0x2E0 + 2 * l)
      let bs := pseudoHeader 2 l flags i out.length (linErrorCode err) (tkNs t) sec ++ out
      s.gwyReceive 2 l bs (Cnt.LIN_RX_FRAMES l) (Cnt.LIN_RX_OVERRUN l))

/-- The next valid entry of a schedule, from entry `e`, around. -/
def State.linEntry (s : State) (l e : Nat) : Option Nat :=
  ((List.range 64).map (fun k => (e + k) % 64)).find? (fun k => s.bit (Reg.GWY_LINSCH l k) 16)

/-- LIN_SCHEDULE_SLOT: the slot of a commander's entry ends; the next entry's header is sent, and a publish
entry's response after it. -/
def execLinScheduleSlot (l : Fin 8) (s : State) : Host.Outcome State Fault Refusal :=
  .next (
    let l := l.val
    if !s.linOn l || !s.bit (Reg.GWY_LINCTL l) 1 || !s.bit (Reg.GWY_LINCTL l) 3 then s
    else
      match s.linEntry l (Store.get (fun _ => 0) s.gwy.linAt l) with
      | none => s
      | some e =>
        let s := { s with
          gwy := { s.gwy with linAt := Store.set (fun _ => 0) s.gwy.linAt l ((e + 1) % 64) } }
        if s.bit (Reg.GWY_LINSCH l e) 6 then s.linRespond l (s.fld (Reg.GWY_LINSCH l e) 0 6) 0 else s)

/-! ## Serial channels and inputs (R306, R307) -/

/-- SER_FRAME_END: a frame ends after GAP idle characters or at MAXLEN bytes, and is delivered. -/
def execSerFrameEnd (c : Fin 4) (data : List Byte) (err : Bool) (ago : BitVec 32) (s : State) :
    Host.Outcome State Fault Refusal :=
  .next (
    let c := c.val
    if !s.serOn c || data.isEmpty then s
    else
      let d := data.take (clampNat 1 1024 (s.fld (Reg.GWY_SERFRM c) 8 11))
      let t := s.gwyTime ago.toNat
      let ident := natBE (d.take (min 4 (s.fld (Reg.GWY_SERCTL c) 5 3)))
      let s := if err then (s.bump (Cnt.SER_SER_ERR c)).monEvent (0x2F1 + 2 * c)
        else s.monEvent (0x2F0 + 2 * c)
      s.gwyReceive 3 c
        (pseudoHeader 3 c (512 * b2n err) ident d.length (if err then 4 else 0) (tkNs t)
          (tkSec t % 2 ^ 32) ++ d)
        (Cnt.SER_RX_FRAMES c) (Cnt.SER_RX_OVERRUN c))

/-- One sample of an input: its debounced state changes after DEBOUNCE ms of a new level (R307).
DEDUCED, unsafe (log entry 87). -/
def State.dinStep (s : State) (i : Nat) (level : Bool) : State × Bool :=
  let level := level != s.bit (Reg.GWY_DINCFG i) 4
  let setRun := fun (s : State) (n : Nat) =>
    { s with gwy := { s.gwy with dinRun := Store.set (fun _ => 0) s.gwy.dinRun i n } }
  if level = s.bit Reg.GWY_DINSTATE i then (setRun s 0, false)
  else
    let n := Store.get (fun _ => 0) s.gwy.dinRun i + 1
    if n ≤ 10 * s.fld (Reg.GWY_DINCFG i) 8 8 then (setRun s n, false)
    else ((setRun s 0).setBit Reg.GWY_DINSTATE i level, true)

/-- An input's edge: an enabled one sends an event, and one with WAKE set is a wake event. -/
def State.dinEdge (s : State) (i : Nat) : State :=
  let up := s.bit Reg.GWY_DINSTATE i
  let e := s.fld (Reg.GWY_DINCFG i) 1 2
  let s := if s.gwyOn 1 && (e == 3 || (e == 1 && up) || (e == 2 && !up)) then
      (s.monEvent 0x2F8).gwyEvent 4 i (bytesBE 4 (s.rdN Reg.GWY_DINSTATE))
    else s
  if s.bit (Reg.GWY_DINCFG i) 3 then s.wakeEvent 6 i (s.rdN Reg.GWY_DINSTATE) else s

/-- DIN_SAMPLE: every input is sampled and debounced; then the edges act, in ascending input. -/
def execDinSample (levels : BitVec 32) (s : State) : Host.Outcome State Fault Refusal :=
  .next (if s.cur = 0 then s
    else
      let r := (List.range 32).foldl (fun (acc : State × List Nat) i =>
        let x := acc.1.dinStep i (getBit levels i)
        (x.1, if x.2 then acc.2 ++ [i] else acc.2)) (s, [])
      (r.2.foldl (fun acc i => acc.dinEdge i) r.1).gwyDrain)

/-- An AIN event with the latest value. -/
def State.ainEvent (s : State) (i : Nat) : State :=
  if s.gwyOn 1 then
    (s.monEvent 0x2F9).gwyEvent 5 i (bytesBE 2 (s.fld (Reg.GWY_AINVAL i) 0 12))
  else s

/-- AIN_CONVERSION: a new value; a crossing of LO downwards or HI upwards sends an event. -/
def execAinConversion (i : Fin 16) (value : BitVec 12) (s : State) :
    Host.Outcome State Fault Refusal :=
  .next (
    let i := i.val
    let old := s.fld (Reg.GWY_AINVAL i) 0 12
    let lo := s.fld (Reg.GWY_AINTHR_w0 i) 0 12
    let hi := s.fld (Reg.GWY_AINTHR_w0 i) 16 12
    let v := value.toNat
    if s.cur < 2 then s
    else
      let s := s.setFld (Reg.GWY_AINVAL i) 0 12 v
      if s.bit (Reg.GWY_AINTHR_w1 i) 16 &&
          (decide (lo ≤ old ∧ v < lo) || decide (old ≤ hi ∧ hi < v)) then s.ainEvent i
      else s)

/-- AIN_PERIODIC_REPORT: an event every PERIOD ms. -/
def execAinPeriodicReport (i : Fin 16) (s : State) : Host.Outcome State Fault Refusal :=
  let ms := s.fld (Reg.GWY_AINTHR_w1 i.val) 0 16
  .next (if ms = 0 ∨ s.nowNs < Store.get (fun _ => 0) s.gwy.ainAt i.val + 1000000 * ms then s
    else
      ({ s with gwy := { s.gwy with
          ainAt := Store.set (fun _ => 0) s.gwy.ainAt i.val s.nowNs } } : State).ainEvent i.val)

/-! ## Frames from the switch (R300) -/

/-- A checked frame enters its channel: none when its buffer is full, and port 34 egress is held. -/
def State.gwyEnter (s : State) (bs : List Byte) (r : GwyRequest) : Option State :=
  let chan := natAt bs 1 1
  match natAt bs 0 1 with
  | 1 =>
    if !s.canOn chan then some (s.gwyReturn 1 chan bs 3 (Cnt.CAN_TX_FAIL chan))
    else if s.canState chan = 2 then some (s.gwyReturn 1 chan bs 1 (Cnt.CAN_TX_FAIL chan))
    else if 32 ≤ (s.canTx chan).length then none
    else
      let x : GwyTx := ⟨bs, canKey r, s.nowNs⟩
      some (s.setCanTx chan (s.canTx chan ++ [x]))
  | 2 =>
    if !s.linOn chan then some (s.gwyReturn 2 chan bs 3 (Cnt.LIN_TX_FAIL chan))
    else
      let i := r.ident % 64
      let s := match s.linBuf chan i with
        | some b =>
          if !b.sent && Nat.testBit (gwyFlags b.bytes) 6 then
            s.gwyReturn 2 chan b.bytes 4 (Cnt.LIN_TX_FAIL chan) else s
        | none => s
      some (s.setLinBuf chan i (some ⟨bs, false⟩))
  | _ =>
    if !s.serOn chan then some (s.gwyReturn 3 chan bs 3 (Cnt.SER_TX_FAIL chan))
    else if Config.serBuffer < (s.serTx chan).length then none
    else some (s.setSerTx chan (s.serTx chan ++ [bs]))

/-- GATEWAY_TX_FRAME: the oldest frame delivered at port 34 is checked; it enters its channel's buffer, is
discarded, or waits while the buffer is full. -/
def execGatewayTxFrame (s : State) : Host.Outcome State Fault Refusal :=
  .next (match Store.get (fun _ => []) s.fab.delivered 34 with
    | [] => s
    | bs :: rest =>
      if !s.edgeReachable then s
      else
        let pop := fun (s : State) =>
          { s with
            fab := { s.fab with delivered := Store.set (fun _ => []) s.fab.delivered 34 rest } }
        match s.gwyCheck bs with
        | none => ((pop s).bump Reg.TX_BADHDR_LOW).fault 0x0241 0
        | some r =>
          match s.gwyEnter bs r with
          | some t => pop t
          | none => s)

/-! ## CAN transmission (R301 to R303, R309) -/

/-- The frame that wins among a channel's: the lowest identifier, the oldest among equals. -/
def canWinner : List GwyTx → Option GwyTx
  | [] => none
  | x :: t =>
    match canWinner t with
    | some y => if y.key < x.key then some y else some x
    | none => some x

/-- CAN_TRANSMIT: the frame that wins arbitration is transmitted, or ends in an error. -/
def execCanTransmit (c : Fin 16) (x : CanSent) (s : State) : Host.Outcome State Fault Refusal :=
  .next (
    let c := c.val
    if !s.canOn c || decide (2 ≤ s.canState c) || s.bit (Reg.GWY_CANCTL c) 2 then s
    else
      match canWinner (s.canTx c) with
      | none => s
      | some y =>
        if x.good then
          ((s.setCanTx c ((s.canTx c).erase y)).setCanErrors c (s.canRec c) (s.canTec c - 1)
            |>.monEvent (0x2A1 + 4 * c)).gwySent 1 c y.bytes (Cnt.CAN_TX_FRAMES c) x.ago.toNat
        else
          ((s.bump (Cnt.CAN_BUS_ERR c)).monEvent (0x2A2 + 4 * c)).setCanErrors c (s.canRec c)
            (s.canTec c + 8))

/-- CAN_TX_TIMEOUT: the oldest frame of the buffer has waited TXTMO, 0 acting as 1 ms; it returns with
reason 2 (R300, R303). -/
def execCanTxTimeout (c : Fin 16) (s : State) : Host.Outcome State Fault Refusal :=
  .next (match s.canTx c.val with
    | [] => s
    | x :: rest =>
      if s.nowNs < x.entered + 1000000 * max 1 (s.fld (Reg.GWY_CANCTL c.val) 16 16) then s
      else (s.setCanTx c.val rest).gwyReturn 1 c.val x.bytes 2 (Cnt.CAN_TX_FAIL c.val))

/-- CAN_BUS_OFF: the transmit error that takes TEC above 255: the channel leaves the bus, and its buffered
frames return with reason 1. -/
def execCanBusOff (c : Fin 16) (s : State) : Host.Outcome State Fault Refusal :=
  .next (
    let c := c.val
    if !s.canOn c || decide (2 ≤ s.canState c) || s.bit (Reg.GWY_CANCTL c) 2 ||
        decide (s.canTec c + 8 ≤ 255) then s
    else
      ((s.bump (Cnt.CAN_BUS_ERR c)).monEvent (0x2A2 + 4 * c)).setCanErrors c (s.canRec c) (s.canTec c + 8))

/-- CAN_BUSOFF_RECOVERY: 128 × 11 recessive bits have passed; with AUTOREC the channel rejoins. -/
def execCanBusoffRecovery (c : Fin 16) (s : State) : Host.Outcome State Fault Refusal :=
  .next (if s.canOn c.val && s.canState c.val == 2 && s.bit (Reg.GWY_CANCTL c.val) 3 then
      s.startCan c.val else s)

/-- CAN_DOMINANT_TIMEOUT: DOMTO and a degraded fault. -/
def execCanDominantTimeout (c : Fin 16) (s : State) : Host.Outcome State Fault Refusal :=
  .next (if s.canOn c.val then (s.setBit (Reg.GWY_CANSTAT c.val) 28 true).fault 0x2244 0 else s)

/-! ## Channel enables (R297, R309) -/

/-- The control register of a channel, whose bit 0 is EN. -/
def gwyCtl : GwyChan → Nat
  | .can c => Reg.GWY_CANCTL c.val
  | .lin l => Reg.GWY_LINCTL l.val
  | .ser c => Reg.GWY_SERCTL c.val

/-- GWY_CHANNEL_ENABLE: EN goes from 0 to 1; the channel starts with its configuration. -/
def execGwyChannelEnable (m : Master) (ch : GwyChan) (s : State) :
    Host.Outcome State Fault Refusal :=
  .next (guardEdge m (gwyCtl ch) (some 0) 1 (fun s =>
    if s.bit (gwyCtl ch) 0 then s
    else
      let s := s.setBit (gwyCtl ch) 0 true
      match ch with
      | .can c => if s.canOn c.val then s.startCan c.val else s
      | .lin l => s.startLin l.val
      | .ser _ => s) s)

/-- GWY_CHANNEL_DISABLE: EN goes to 0; the channel stops and its buffered frames return. -/
def execGwyChannelDisable (m : Master) (ch : GwyChan) (s : State) :
    Host.Outcome State Fault Refusal :=
  .next (guardEdge m (gwyCtl ch) (some 0) 0 (fun s =>
    let s := s.setBit (gwyCtl ch) 0 false
    match ch with
    | .can c => s.stopCan c.val
    | .lin l => s.stopLin l.val
    | .ser c => s.stopSer c.val) s)

/-- SER_TRANSMIT: the oldest frame of a serial channel's transmit buffer is transmitted (R306). -/
def execSerTransmit (x : SerSent) (s : State) : Host.Outcome State Fault Refusal :=
  .next (
    let c := x.chan.val
    match s.serTx c with
    | [] => s
    | bs :: rest =>
      if s.serOn c then (s.setSerTx c rest).gwySent 3 c bs (Cnt.SER_TX_FRAMES c) x.ago.toNat else s)

/-! ## Bus wake sources (R304, R392) -/

/-- A classic frame matches a selective-wake filter: identifier, IDE, and DLC and data when tested. -/
def State.filterMatches (s : State) (c f : Nat) (ide : Bool) (ident dlc data : Nat) : Bool :=
  let mask := s.fld (Reg.GWY_SWF_w1 c f) 0 29
  let dmask := 2 ^ 32 * s.rdN (Reg.GWY_SWF_w3 c f) + s.rdN (Reg.GWY_SWF_w4 c f)
  s.bit (Reg.GWY_SWF_w0 c f) 30 && s.bit (Reg.GWY_SWF_w0 c f) 29 == ide &&
    ident &&& mask == s.fld (Reg.GWY_SWF_w0 c f) 0 29 &&& mask &&
    (!s.bit (Reg.GWY_SWF_w2 c f) 4 ||
      (dlc == s.fld (Reg.GWY_SWF_w2 c f) 0 4 && data &&& dmask != 0))

/-- The state with a channel's frame error counter replaced. -/
def State.setSwErrors (s : State) (c n : Nat) : State :=
  { s with gwy := { s.gwy with swErrors := Store.set (fun _ => 0) s.gwy.swErrors c n } }

/-- The frame error counter of a channel's wake decoder. -/
def State.swErrors (s : State) (c : Nat) : Nat := Store.get (fun _ => 0) s.gwy.swErrors c

/-- CAN_SELECTIVE_WAKE: in Slate, the wake decoder sees a frame. A classic frame counts the frame error counter
down and wakes when it matches a filter; a frame in error counts it up, and its overflow wakes with FECWAKE; an
FD frame does neither.
PRESUMED, unsafe (log entry 150). -/
def execCanSelectiveWake (c : Fin 8) (kind : CanWake) (ide : Bool) (ident : BitVec 29) (dlc : BitVec 4)
    (data : BitVec 64) (s : State) : Host.Outcome State Fault Refusal :=
  .next (
    let c := c.val
    if s.cur ≠ 1 ∨ !s.bit (Reg.GWY_SWCFG c) 0 then s
    else
      match kind with
      | .fd => s
      | .error =>
        if s.swErrors c < 31 then s.setSwErrors c (s.swErrors c + 1)
        else
          let s := s.setSwErrors c 0
          if s.bit (Reg.GWY_SWCFG c) 3 then s.wakeEvent 3 c 0x80000000 else s
      | .classic =>
        let hit := (List.range 4).any (fun f =>
          s.filterMatches c f ide ident.toNat dlc.toNat data.toNat)
        let s := s.setSwErrors c (s.swErrors c - 1)
        if hit then s.wakeEvent 3 c ident.toNat else s)

/-- LIN_WAKE_PULSE: in Slate, on a channel with WAKEEN. -/
def execLinWakePulse (l : Fin 8) (s : State) : Host.Outcome State Fault Refusal :=
  .next (if s.cur = 1 ∧ s.bit (Reg.GWY_LINCTL l.val) 2 then s.wakeEvent 5 l.val 0 else s)

end Sys2Proof.Machine
end

