-- ==== Sys2Proof/Machine/Scheduler.lean ====
section
/-!
DEFINITION. The fabric scheduler: requests, the three request-grant-accept iterations of a cell
time, and the crossing of cells (R79 to R82, R95).
-/

namespace Sys2Proof.Machine

open Sys2Proof

/-- Ports of an egress group (R79). -/
def groupPorts (g : Nat) : List Nat :=
  (List.range 37).filter (fun p => portGroup p == g)

/-- A copy for a port may cross: the port is UP and not draining (R71, R98) and the way to it is open (R11), a
stored copy has its tail, and the staging has room or the frame has started crossing (R80). -/
def State.mayCross (s : State) (q : QCell) (v : Frame) (p c : Nat) : Bool :=
  s.portUp p && s.wayOpen p && (v.crossing.contains p ||
    (!(s.port p).draining && decide ((s.stage p c).length < 64))) &&
    (v.tailIn || v.schuss.contains p) && decide (q.seg ≠ .middle)

/-- A queue that may request links in a cell time: a VOQ to one port, or a multicast queue. -/
structure XRequest where
  mc : Bool
  /-- Ingress group, class, and for a VOQ its port. -/
  g : Nat
  c : Nat
  p : Nat
  /-- Ports of the head cell that may cross now. -/
  ports : List Nat
  tier : Nat
  deriving DecidableEq, Repr

/-- The tier of a head cell: Schuss frame in progress, scheduled class, others (R81). A Schuss frame counts as
in progress once its first cell has crossed.
DESIGN CHOICE, unsafe (log entry 134). -/
def State.tierOf (s : State) (v : Frame) (ports : List Nat) (c : Nat) : Nat :=
  if ports.any (fun p => v.schuss.contains p && v.crossing.contains p) then 0
  else if s.scheduled c then 1 else 2

/-- The request of a VOQ, if it is eligible. -/
def State.voqRequest (s : State) (k : Nat) (v : Voq) : Option XRequest :=
  match v.cells with
  | [] => none
  | q :: _ =>
    match s.frame q.frame with
    | none => none
    | some f =>
      let p := k / 8 % 40
      if s.mayCross q f p (k % 8) then
        some { mc := false, g := k / 320, c := k % 8, p := p, ports := [p],
               tier := s.tierOf f [p] (k % 8) }
      else none

/-- The request of a multicast queue: every link of its head cell's remaining fanout (R81). -/
def State.mcqRequest (s : State) (k : Nat) (v : Voq) : Option XRequest :=
  match v.cells with
  | [] => none
  | q :: _ =>
    match s.frame q.frame with
    | none => none
    | some f =>
      let ports := q.ports.filter (fun p => s.mayCross q f p (k % 8))
      if ports.isEmpty then none
      else some { mc := true, g := k / 8, c := k % 8, p := 40, ports := ports,
                  tier := s.tierOf f ports (k % 8) }

/-- Every request of a cell time. -/
def State.requests (s : State) : List XRequest :=
  s.fab.voqs.filterMap (fun e => s.voqRequest e.1 e.2) ++
    s.fab.mcqs.filterMap (fun e => s.mcqRequest e.1 e.2)

/-- The request asks for egress link `e`. -/
def XRequest.wants (r : XRequest) (e : Nat) : Bool := r.ports.any (fun p => portGroup p == e)

/-- The place of a request in its (group, link)'s rotation: VOQs from TC7 down to TC0, the
multicast queue of a class after its VOQs. -/
def XRequest.place (r : XRequest) : Nat := (7 - r.c) * 41 + r.p

/-- The element of least (tier, distance from the pointer): the choice of a grant or an accept. -/
def pick {α : Type} (tier dist : α → Nat) : List α → Option α
  | [] => none
  | x :: t =>
    match pick tier dist t with
    | none => some x
    | some y => if tier x < tier y ∨ tier x = tier y ∧ dist x ≤ dist y then some x else some y

/-- Rotation distance of a position from a pointer. -/
def turnsFrom (ptr n x : Nat) : Nat := (x + n - ptr % n) % n

/-- The three rotating pointers of R81. -/
structure Pointers where
  grant : Store Nat
  accept : Store Nat
  voq : Store Nat
  deriving DecidableEq, Repr

/-- A pointer's position. -/
def ptrOf (m : Store Nat) (k : Nat) : Nat := Store.get (fun _ => 0) m k

/-- The state of a matching: pairs (request, links) accepted so far. -/
structure Matching where
  accepted : List (XRequest × List Nat)
  ptrs : Pointers
  deriving DecidableEq, Repr

/-- Best tier among the requests of group `g` for link `e`. -/
def bestTier (rs : List XRequest) (g e : Nat) : Nat :=
  ((rs.filter (fun r => r.g == g && r.wants e)).map (·.tier)).foldl min 3

/-- One iteration of request, grant and accept among what is still unmatched. -/
def iterate (rs : List XRequest) (first : Bool) (m : Matching) : Matching :=
  let usedIn := m.accepted.map (fun a => a.1.g)
  let usedOut := m.accepted.flatMap (fun a => a.2)
  let rs := rs.filter (fun r => !usedIn.contains r.g)
  let grants := (List.range 7).filterMap (fun e =>
    if usedOut.contains e then none
    else
      (pick (fun g => bestTier rs g e) (turnsFrom (ptrOf m.ptrs.grant e) 7)
        ((List.range 7).filter (fun g => rs.any (fun r => r.g == g && r.wants e)))).map
        (fun g => (e, g)))
  (List.range 7).foldl
    (fun m g =>
      let links := (grants.filter (fun x => x.2 == g)).map (fun x => x.1)
      match pick (fun e => bestTier rs g e) (turnsFrom (ptrOf m.ptrs.accept g) 7) links with
      | none => m
      | some e =>
        match pick (fun r => r.tier) (fun r => turnsFrom (ptrOf m.ptrs.voq (8 * g + e)) 328 r.place)
            (rs.filter (fun r => r.g == g && r.wants e)) with
        | none => m
        | some r =>
          let es := if r.mc then links.filter r.wants else [e]
          let ptrs := if first then
              { grant := es.foldl (fun acc x => Store.set (fun _ => 0) acc x ((g + 1) % 7)) m.ptrs.grant
                accept := Store.set (fun _ => 0) m.ptrs.accept g ((e + 1) % 7)
                voq := Store.set (fun _ => 0) m.ptrs.voq (8 * g + e) ((r.place + 1) % 328) }
            else m.ptrs
          { accepted := m.accepted ++ [(r, es)], ptrs := ptrs }) m

/-- The matching of a cell time: three iterations (R81). -/
def State.matching (s : State) : Matching :=
  let rs := s.requests
  iterate rs false (iterate rs false (iterate rs true
    { accepted := [], ptrs := ⟨s.fab.grantPtr, s.fab.acceptPtr, s.fab.voqPtr⟩ }))

/-- A cell arrives in the egress staging of a port. -/
def State.arrive (s : State) (f i p c : Nat) : State :=
  let s := (s.settleCredits p).setStage p c (s.stage p c ++ [(f, i)])
  match s.frame f with
  | some v => s.setFrame f { v with crossing := if v.crossing.contains p then v.crossing
      else v.crossing ++ [p] }
  | none => s

/-- Move the head cell of an accepted queue across its links (R79, R95). -/
def State.cross (s : State) (r : XRequest) (links : List Nat) : State :=
  if r.mc then
    let k := 8 * r.g + r.c
    let v := s.mcq k
    match v.cells with
    | [] => s
    | q :: rest =>
      let now := r.ports.filter (fun p => links.contains (portGroup p))
      let left := q.ports.filter (fun p => !now.contains p)
      let s := s.setMcq k { v with
        cells := if left.isEmpty then rest else { q with ports := left } :: rest }
      let s := now.foldl (fun acc p => acc.arrive q.frame q.idx p r.c) s
      links.foldl (fun acc e => acc.monEvent (0x110 + e)) s
  else
    let k := voqKey r.g r.p r.c
    let v := s.voq k
    match v.cells with
    | [] => s
    | q :: rest =>
      let s := s.setVoq k ({ v with cells := rest } : Voq).settle
      (s.arrive q.frame q.idx r.p r.c).monEvent (0x110 + portGroup r.p)

/-- Use a matching: cells move and pointers advance. -/
def State.useMatching (s : State) (m : Matching) : State :=
  let s := m.accepted.foldl (fun acc a => acc.cross a.1 a.2) s
  { s with
    fab := { s.fab with
      grantPtr := m.ptrs.grant, acceptPtr := m.ptrs.accept, voqPtr := m.ptrs.voq } }

/-- A scheduler copy goes out of service: degraded fault, counted SCHED_SWAP, and the guarantee
narrows (R82, R449). -/
def State.copyOut (s : State) : State :=
  (((s.setBit Reg.FAB_SCHED 1 false).bump Cnt.FAB_SCHED_SWAP).fault 0x2081 0).setGstat 7 true

end Sys2Proof.Machine
end

