-- ==== Sys2Proof/Machine/Fabric.lean ====
section
/-!
DEFINITION. The fabric commands: enqueue, admission, the scheduler, the Drift region, the link-down
rule and cell-memory errors (R77 to R105).
-/

namespace Sys2Proof.Machine

open Sys2Proof

/-- The fabric forwards: EN of instances 0 and 1, and no quiesce (R77, R103). -/
def State.fabricOpen (s : State) : Bool := s.blkAccepts 8 && s.blkAccepts 9

/-! ## Enqueue (R95, R98, R99, R183, R189 to R191) -/

/-- The 32-byte exception header of R190, little-endian words. -/
def State.exceptionHeader (s : State) (v : Frame) (code len : Nat) : List Byte :=
  let t := s.wNow 0
  bytesLE 4 (code + 256 * v.inPort + 16384 * v.gen + 65536 * v.action) ++
    bytesLE 4 v.excHash.toNat ++ bytesLE 4 (len % 2 ^ 14 + 65536 * v.tag) ++
    bytesLE 4 (if code = 0x09 then v.excTrap.toNat else 0) ++
    bytesLE 4 (tkNs t) ++ bytesLE 4 (tkSec t) ++
    bytesLE 4 (if 0x80 ≤ code then v.excM47.toNat else 0) ++
    bytesLE 4 (if code = 0x07 ∨ code = 0x0D ∨ code = 0x0E ∨ code = 0x0F then v.excPort else 0)

/-- A frame as it is delivered to an exception queue: header, then the frame as received, or as
assembled for a program's TRAP. -/
def State.dressed (s : State) (v : Frame) : Frame :=
  match v.exc with
  | none => v
  | some code =>
    { v with
      bytes := s.exceptionHeader v code v.body.length ++ v.body, assembled := false, head := []
      hlen0 := 0, exc := none, trapped := true }

/-- The length of a copy at an egress port, sealing expansion included (R183, R256). -/
def State.egressLen (s : State) (v : Frame) (p : Nat) : Nat :=
  v.copyLen p + match s.sealContext p v.body v.sealSa with
    | some sa => s.sealBytes sa
    | none => 0

/-- A copy takes the Schuss path (R99). -/
def State.schussOk (s : State) (v : Frame) (p : Nat) : Bool :=
  s.bit Reg.FAB_SCHUSS 0 && !v.mustStore && !s.secyActive v.inPort && s.portUp p &&
    decide (s.rateOf p ≤ s.rateOf v.ingress) && (s.stage p v.tc).isEmpty &&
    (s.voq (voqKey (portGroup v.ingress) p v.tc)).cells.isEmpty &&
    !(s.voq (voqKey (portGroup v.ingress) p v.tc)).drift &&
    (if v.mc then (s.mcq (8 * portGroup v.ingress + v.tc)).cells.isEmpty else true) &&
    s.gateOpen p v.tc && s.fits p v.tc v

/-- The copies of an enqueued frame: port by port, redirected, trapped EGR_MTU, or kept. -/
def State.enqueueCopy (s : State) (f p : Nat) : State :=
  match s.frame f with
  | none => s
  | some v =>
    if s.redirects p then s.redirect f p
    else if !v.trapped && v.tailIn && decide (s.maxFrm p < s.egressLen v p) then
      (s.divert f p 0x0D s.fltPort false).bump Cnt.RTK_EGR_MTU
    else s

/-- The fabric takes a frame: fanout latched, exception header made, cells to follow. A frame that no copy
of may cut through is stored whole first (R99). `redirected` counts a frame moved from port 32 to 33 (R191). -/
def State.enqueue (s : State) (f : Nat) (v : Frame) (ports : List Nat) (redirected : Bool) : State :=
  let stored := v.bytes.length + (if v.inPort < 32 && !v.rcPass then 4 else 0)
  let schuss := if v.exc.isSome || v.trapped then [] else ports.filter (s.schussOk v)
  if !v.tailIn && schuss.isEmpty then s.setFrame f { v with mustStore := true }
  else
    let s := s.setFrame f
      { s.dressed v with
        stage := .queued, fanout := ports, schuss := schuss
        storedLen := if v.tailIn then stored else 0 }
    let s := if redirected then s.bump Cnt.RTK_EXQ_REDIR else s
    ports.foldl (fun acc p => acc.enqueueCopy f p) s

/-- A frame whose fanout names no port is redirected whole under the link-down rule (R95). -/
def State.redirectWhole (s : State) (f : Nat) (v : Frame) : State :=
  ((s.setFrame f { v with mc := false }).divert f 0 0x07 s.redirectPort true).bump
    Cnt.FAB_LINKDOWN_REDIR

/-- FRAME_ENQUEUE (R77, R95, R103, R191). With EN of instance 3 at 0 a multicast frame is redirected at once:
its members count as down for longer than the hold (R77).
DESIGN CHOICE, unsafe (log entry 131). -/
def execFrameEnqueue (f : FrameId) (s : State) : Host.Outcome State Fault Refusal :=
  .next (match s.frame f with
    | none => s
    | some v =>
      if v.stage ≠ .toEnqueue || !s.up .fabric || v.checkTail && v.tailIn && v.exc.isNone ||
          v.exc.isNone && s.heldUpAt f v [.toStream, .toEnqueue] true then s
      else if !s.fabricOpen then
        if v.inPort < 32 && v.exc.isNone && !v.trapped && !v.rcPass && !v.recirc then
          (s.noAdmit v.inPort).dropFrame f
        else s
      else if v.exc.isSome && !v.tailIn then s
      else
        let raw := s.fanoutOf v
        let toRt := raw.contains 32 && !s.running .app
        let ports := (raw.map (fun p => if p = 32 ∧ toRt then 33 else p)).eraseDups
        if v.mc && !s.blkEn 0xB then
          if !v.tailIn then s
          else if ports.isEmpty then s.redirectWhole f v
          else (ports.foldl (fun acc p => acc.redirect f p)
            (s.setFrame f { v with fanout := ports, stage := .queued })).reap f
        else if ports.isEmpty then (if v.tailIn then s.redirectWhole f v else s)
        else (s.enqueue f v ports toRt).reap f)

/-! ## Admission (R84 to R89) -/

/-- The cell and its frame record take their place in the accounts and the queues. -/
def State.placeCell (s : State) (f : Nat) (v : Frame) (ports : List Nat) (place : CellPlace)
    (seg : Segment) : State :=
  let ip := v.ingress
  let i := v.cells.length
  let s := (s.takePlace ip v.tc ports place).countCell ip v.tc ports
  let s := s.setFrame f { v with cells := v.cells ++ [⟨place, ports, ports, false⟩] }
  let g := portGroup ip
  let s := if v.mc then
      let q := s.mcq (8 * g + v.tc)
      s.setMcq (8 * g + v.tc) { q with cells := q.cells ++ [⟨f, i, .head, ports⟩] }
    else
      ports.foldl
        (fun acc p =>
          let q := acc.voq (voqKey g p v.tc)
          acc.setVoq (voqKey g p v.tc)
            { cells := q.cells ++ [⟨f, i, seg, []⟩], drift := q.drift || seg == .tail }) s
  s.monEvent 0x100

/-- A scheduled cell: in the reservation of each of its egress (port, class) pairs; a full one
drops the frame, or that copy of a multicast frame (R84, R86, R95). -/
def State.admitScheduled (s : State) (f : Nat) (v : Frame) (ports : List Nat) : State :=
  let full := ports.filter (fun p => decide (s.egLim p v.tc ≤ s.reservedUsed p v.tc))
  let s := full.foldl
    (fun acc p => (((acc.bump Cnt.FAB_SCHED_OVER).bump (regKey 9 (0x5000 + 0x20 * p + 8))).monEvent
      0x104)) s
  let ok := ports.filter (fun p => !full.contains p)
  if ok.isEmpty && v.headLeft.isEmpty then s.dropQueued f
  else
    let s := full.foldl
      (fun acc p =>
        if v.headLeft.contains p then
          match acc.frame f with
          | some w => acc.setFrame f { w with stomps := (w.stomps ++ [p]).eraseDups }
          | none => acc
        else acc.endCopy f p) s
    if ok.isEmpty then s
    else
      match s.frame f with
      | some w => s.placeCell f w ok .reservation .head
      | none => s

/-- A frame's first cell that finds no place is not admitted where its source is a line; an internal source,
and an exception frame's, is held (R84, R89, R189). -/
def Frame.fromLine (v : Frame) : Bool := decide (v.ingress < 32) && !v.trapped

/-- An unscheduled cell, by the rows of R84 below the scheduled one. A cell that joins a spill tail takes a
shared cell also while its ingress (port, class) is XOFF.
DESIGN CHOICE, unsafe (log entry 132). -/
def State.admitUnscheduled (s : State) (f : Nat) (v : Frame) (ports : List Nat) : State :=
  let c := v.tc
  let ip := v.ingress
  let atLimit := ports.filter (fun p => decide (s.egLim p c ≤ s.egCells p c + 1))
  let q := s.voq (voqKey (portGroup ip) (ports.getD 0 0) c)
  let room := !v.mc && ports.all (fun p => s.driftRoom p)
  let drifting := !v.mc && (q.drift || (!atLimit.isEmpty && s.maySpill c && room))
  let place : Option CellPlace :=
    if (drifting || !s.xoff ip c) && decide (0 < s.poolFree) then some .shared
    else if !v.trapped && decide ((s.ingress ip c).headroom < s.hdrm ip c) then some .headroom
    else if !v.cells.isEmpty && v.fromLine then some .headroom
    else none
  match place with
  | none =>
    if v.fromLine && v.cells.isEmpty then
      (((s.noAdmit ip).portLog ip 0x0A c (max v.storedLen v.bytes.length) v.hash).fault 0x2083
        (ip + 256 * c)).dropQueued f
    else s
  | some place =>
    let s := s.placeCell f v ports place (if drifting then .tail else .head)
    let cong := if drifting then (if room then [] else ports) else atLimit
    let s := cong.foldl (fun acc p => acc.setBit (Reg.FAB_BUFSTAT_w1 p c) 16 true) s
    s.checkXoff ip c ports

/-- The fabric runs: EN of instances 0 and 1, also while they quiesce (R77, R103), in a running island. -/
def State.fabricRuns (s : State) : Bool := s.blkEn 8 && s.blkEn 9 && s.up .fabric

/-- CELL_ADMIT (R84): the next cell of an enqueued frame. -/
def execCellAdmit (f : FrameId) (s : State) : Host.Outcome State Fault Refusal :=
  .next (match s.frame f with
    | none => s
    | some v =>
      let ports := v.fanout.filter (fun p => !v.stomps.contains p)
      if v.stage ≠ .queued ∨ ports.isEmpty ∨ v.nextCell = false ∨ s.fabricRuns = false then s
      else if s.scheduled v.tc && !v.trapped then s.admitScheduled f v ports
      else s.admitUnscheduled f v ports)

/-- The last bit of cell `i` of frame `f` has left the MAC of a port that is sending the frame. -/
def State.cellSent (s : State) (f i c p : Nat) : Bool :=
  (s.stage p c).contains (f, i) &&
    ([(s.tmPort p).express, (s.tmPort p).preempt].any (fun x => match x with
      | some x => x.frame == f && decide (256 * (i + 1) ≤ s.sentBytes p x)
      | none => false))

/-- The last copy of cell `i` has left: those of ended copies, and those sent of copies in transmission. -/
def State.cellGone (s : State) (f i : Nat) (v : Frame) (r : CellRec) : Bool :=
  r.copies.all (s.cellSent f i v.tc)

/-- A cell leaves the staging of the ports it has been sent from. -/
def State.unstage (s : State) (f i c : Nat) (ports : List Nat) : State :=
  ports.foldl (fun acc p => acc.setStage p c ((acc.stage p c).filter (fun x => x != (f, i)))) s

/-- CELL_FREE: the last copy of cell `i` has left the egress MAC, or its frame is dropped; the frame
departs with its last cell (R83, R97). -/
def execCellFree (f : FrameId) (i : Nat) (s : State) : Host.Outcome State Fault Refusal :=
  .next (match s.frame f with
    | none => s
    | some v =>
      match v.cells[i]? with
      | none => s
      | some r =>
        if r.freed || !(s.cellGone f i v r || v.stage == .dropped) then s
        else
          let t := (s.unstage f i v.tc r.copies).freeCell v i
          (t.1.setFrame f t.2).reap f)

/-! ## The scheduler (R81, R82) -/

/-- A swap asked for takes effect when the standby copy is in service. -/
def State.applySwap (s : State) : State :=
  if s.fab.swapAsked then
    let s := { s with fab := { s.fab with swapAsked := false } }
    if s.bit Reg.FAB_SCHED 1 then s.setBit Reg.FAB_SCHED 0 (!s.bit Reg.FAB_SCHED 0) else s
  else s

/-- SCHEDULER_CELL_TIME (R81, R82). With one copy out of service the scheduler runs unchecked.
DEDUCED, safe (log entry 46). -/
def execSchedulerCellTime (r : SchedCheck) (s : State) : Host.Outcome State Fault Refusal :=
  .next (
    if !s.fabricRuns then s
    else
    let s := s.applySwap
    if !s.bit Reg.FAB_SCHED 1 then s.useMatching s.matching
    else
      match r with
      | .agree => s.useMatching s.matching
      | .standbyFails => (s.useMatching s.matching).copyOut
      | .activeFails => (s.setBit Reg.FAB_SCHED 0 (!s.bit Reg.FAB_SCHED 0)).copyOut
      | .differ => (s.bump Cnt.FAB_SCHED_RESYNC).fault 0x1082 0)

/-- SCHEDULER_SWAP: writing FAB_SCHED.SWAP (R82). -/
def execSchedulerSwap (m : Master) (s : State) : Host.Outcome State Fault Refusal :=
  .next (guardReg m Reg.FAB_SCHED
    (fun s => { s with fab := { s.fab with swapAsked := s.bit Reg.FAB_SCHED 1 } }) s)

/-! ## The Drift region (R91 to R94) -/

/-- The first cell of a segment, moved to another. -/
def moveFirst (a b : Segment) : List QCell → List QCell
  | [] => []
  | q :: t => if q.seg = a then { q with seg := b } :: t else q :: moveFirst a b t

/-- The first cell of a segment. -/
def firstOf (a : Segment) (l : List QCell) : Option QCell := l.find? (fun q => q.seg == a)

/-- A spill that finds no capacity: its egress (port, class) becomes congested; a cell time in which the cap or
the in-flight bound blocked one is counted once (R79, R92). -/
def State.spillBlocked (s : State) (p c : Nat) : State :=
  let s := s.setBit (Reg.FAB_BUFSTAT_w1 p c) 16 true
  let now := s.nowNs / 8 + 1
  if !s.driftPlace p || s.fab.capHitAt == now then s
  else
    ({ s with fab := { s.fab with capHitAt := now } }.bump Cnt.FAB_DRIFT_CAPHIT).monEvent 0x106

/-- DRIFT_SPILL: the oldest cell of a VOQ's spill tail is written to the region when capacity is
available (R91, R92). The cell's bytes stay in the frame's record: the region's DRAM, whose layout is not
given, does not show them.
DESIGN CHOICE, unsafe (log entry 45). -/
def execDriftSpill (g : Fin 7) (p : Port) (c : TrafficClass) (s : State) :
    Host.Outcome State Fault Refusal :=
  .next (
    let k := voqKey g.val p.val c.val
    let v := s.voq k
    match firstOf .tail v.cells with
    | none => s
    | some q =>
      match s.frame q.frame with
      | none => s
      | some f =>
        match f.cells[q.idx]? with
        | none => s
        | some r =>
          if !s.maySpill c.val then s
          else if s.driftRoom p.val then
            let s := (s.givePlace f.ingress f.tc r.ports r.place).uncountCell f.ingress f.tc r.ports
            let s := s.setFrame q.frame
              { f with cells := setAt f.cells q.idx { r with place := .drift } }
            let s := s.setVoq k { v with cells := moveFirst .tail .middle v.cells }
            let s := (s.setDriftOf p.val (s.driftOf p.val + 1)).setFld Reg.FAB_DRIFTSTAT 0 22
              (s.driftCells + 1)
            ((s.chargeCap.bump Cnt.FAB_DRIFT_SPILL).monEvent 0x102).release f.tc r.ports
          else s.spillBlocked p.val c.val)

/-- DRIFT_RETURN: the oldest spilled cell of a VOQ returns to the end of its head while the egress
(port, class) holds fewer than EGRESUME cells on-chip (R91). -/
def execDriftReturn (g : Fin 7) (p : Port) (c : TrafficClass) (s : State) :
    Host.Outcome State Fault Refusal :=
  .next (
    let k := voqKey g.val p.val c.val
    let v := s.voq k
    match firstOf .middle v.cells with
    | none => s
    | some q =>
      match s.frame q.frame with
      | none => s
      | some f =>
        match f.cells[q.idx]? with
        | none => s
        | some r =>
          if s.returnDue k v && s.capRoom 1 && s.dramRoom then
            let s := (s.takePlace f.ingress f.tc r.ports .shared).countCell f.ingress f.tc r.ports
            let s := s.setFrame q.frame
              { f with cells := setAt f.cells q.idx { r with place := .shared } }
            let s := s.setVoq k
              ({ v with cells := moveFirst .middle .head v.cells } : Voq).settle
            let s := (s.setDriftOf p.val (s.driftOf p.val - 1)).setFld Reg.FAB_DRIFTSTAT 0 22
              (s.driftCells - 1)
            (s.chargeCap.bump Cnt.FAB_DRIFT_RETURN).monEvent 0x103
          else s)

/-- DRIFT_DRAIN_START: a request to stop the MEM island stops new spills (R94). -/
def execDriftDrainStart (s : State) : Host.Outcome State Fault Refusal :=
  .next (s.setBit Reg.FAB_DRIFTSTAT 25 true)

/-- DRIFT_DRAIN_DONE: the region holds no cells; the fabric reports ready for the stop (R94). DRAINING
clears with that report.
DESIGN CHOICE, unsafe (log entry 133). -/
def execDriftDrainDone (s : State) : Host.Outcome State Fault Refusal :=
  .next (if s.bit Reg.FAB_DRIFTSTAT 25 && s.driftCells == 0 then
      { s.setBit Reg.FAB_DRIFTSTAT 25 false with fab := { s.fab with memReady := true } }
    else s)

/-! ## Link-down rule and errors (R98, R101, R102) -/

/-- The frames that have a copy queued for a port. -/
def State.queuedFor (s : State) (p : Nat) : List Nat :=
  (s.frames.filter (fun e => match e.2 with
    | some v => v.stage == .queued && v.fanout.contains p && !v.headLeft.contains p
    | none => false)).map (fun e => e.1)

/-- Port 32 becomes port 33 in a list of ports. -/
def rtPort (ports : List Nat) : List Nat := (ports.map (fun p => if p = 32 then 33 else p)).eraseDups

/-- The accounts of a cell counted for port 32 count for port 33. -/
def State.recountCell (s : State) (c : Nat) (r : CellRec) : State :=
  if r.freed || !r.ports.contains 32 then s
  else
    match r.place with
    | .drift => (s.setDriftOf 32 (s.driftOf 32 - 1)).setDriftOf 33 (s.driftOf 33 + 1)
    | place =>
      let s := (s.setFld (Reg.FAB_BUFSTAT_w1 32 c) 0 16 (s.egCells 32 c - 1)).setFld
        (Reg.FAB_BUFSTAT_w1 33 c) 0 16 (s.egCells 33 c + 1)
      if place = .reservation then
        (s.setReserved 32 c (s.reservedUsed 32 c - 1)).setReserved 33 c (s.reservedUsed 33 c + 1)
      else s

/-- The queued cells of a frame for port 32, in its VOQ, multicast queue and staging, wait for port 33. -/
def State.requeueRt (s : State) (f : Nat) (v : Frame) : State :=
  let g := portGroup v.ingress
  let a := s.voq (voqKey g 32 v.tc)
  let b := s.voq (voqKey g 33 v.tc)
  let moved := (a.cells.filter (fun q => q.frame == f)).map (fun q =>
    if b.drift && q.seg == .head then { q with seg := .tail } else q)
  let s := s.setVoq (voqKey g 32 v.tc)
    ({ a with cells := a.cells.filter (fun q => q.frame != f) } : Voq).settle
  let s := s.setVoq (voqKey g 33 v.tc)
    ({ cells := b.cells ++ moved, drift := b.drift || a.drift } : Voq).settle
  let m := s.mcq (8 * g + v.tc)
  let s := s.setMcq (8 * g + v.tc) { m with
    cells := m.cells.map (fun q => if q.frame = f then { q with ports := rtPort q.ports } else q) }
  let st := s.stage 32 v.tc
  (s.setStage 32 v.tc (st.filter (fun x => x.1 != f))).setStage 33 v.tc
    (s.stage 33 v.tc ++ st.filter (fun x => x.1 == f))

/-- A frame queued for port 32 is delivered to port 33 instead, and counted (R191). -/
def State.moveToRt (s : State) (f : Nat) : State :=
  match s.frame f with
  | none => s
  | some v =>
    let s := s.bump Cnt.RTK_EXQ_REDIR
    if v.fanout.contains 33 then ((s.endCopy f 32).freeDone f).reap f
    else
      let s := v.cells.foldl (fun acc r => acc.recountCell v.tc r) (s.requeueRt f v)
      s.setFrame f
        { v with
          dest := if v.mc || v.dest != 32 then v.dest else 33
          fanout := rtPort v.fanout, schuss := rtPort v.schuss, crossing := rtPort v.crossing
          stomps := rtPort v.stomps
          cells := v.cells.map (fun r =>
            { r with ports := rtPort r.ports, copies := rtPort r.copies }) }

/-- The APP island stops: what is queued for port 32 goes to port 33 (R191). -/
def State.leaveApp (s : State) : State := (s.queuedFor 32).foldl State.moveToRt s

/-- LINK_DOWN_HOLD_EXPIRY: FAB_LDHOLD.MS after a port left UP, every frame and copy queued for it is
redirected if it is still not UP, and so is what comes later (R98).
DEDUCED, unsafe (log entry 44). -/
def execLinkDownHoldExpiry (p : Port) (s : State) : Host.Outcome State Fault Refusal :=
  .next (if s.portUp p.val ∨
      s.nowNs < (s.port p.val).downAt + 1000000 * s.fld Reg.FAB_LDHOLD 0 10 then s
    else
      let s := s.setPort p.val { s.port p.val with redirecting := true }
      (s.queuedFor p.val).foldl (fun acc f => (acc.redirect f p.val).reap f) s)

/-- CELL_MEMORY_ERROR: an uncorrectable error discards the frame, or stomps the copies whose head has
left (R101, R102). -/
def execCellMemoryError (f : FrameId) (s : State) : Host.Outcome State Fault Refusal :=
  .next (match s.frame f with
    | none => s
    | some v =>
      if v.stage ≠ .queued then s
      else (((s.bump Cnt.FAB_MEM_LOSS).monEvent 0x420).fault 0x2084 0).badFrame f)

end Sys2Proof.Machine
end

