-- ==== Sys2Proof/Machine/Port.lean ====
section
/-!
DEFINITION. The commands of the ports: MDIO, enable and link states, PLCA, TC10, preemption
verification, frame reception, flow control, and MACsec ingress (chapters *Ports and PHYs* and
*Cipher engine*, R254 and R255).
-/

namespace Sys2Proof.Machine

open Sys2Proof

/-! ## MDIO (R54) -/

/-- PRT_MDIOCMD is written with GO: ignored with COLL while a transaction runs. -/
def mdioGo (m : Master) (op : Nat) (phyad reg : BitVec 5) (c45 : Bool) (data : BitVec 16)
    (s : State) : Host.Outcome State Fault Refusal :=
  .next (guardReg m Reg.PRT_MDIOCMD (fun s =>
    if s.bit Reg.PRT_MDIOCMD 30 then s.setBit Reg.PRT_MDIOCMD 29 true
    else
      ((((((s.setFld Reg.PRT_MDIOCMD 0 16 data.toNat).setFld Reg.PRT_MDIOCMD 16 5 reg.toNat).setFld
        Reg.PRT_MDIOCMD 21 5 phyad.toNat).setFld Reg.PRT_MDIOCMD 26 2 op).setBit
        Reg.PRT_MDIOCMD 28 c45).setBit Reg.PRT_MDIOCMD 30 true)) s)

/-- MDIO_ADDRESS: OP 0. -/
def execMdioAddress (m : Master) (phyad reg : BitVec 5) (c45 : Bool) (data : BitVec 16) (s : State) :
    Host.Outcome State Fault Refusal := mdioGo m 0 phyad reg c45 data s

/-- MDIO_WRITE: OP 1. -/
def execMdioWrite (m : Master) (phyad reg : BitVec 5) (c45 : Bool) (data : BitVec 16) (s : State) :
    Host.Outcome State Fault Refusal := mdioGo m 1 phyad reg c45 data s

/-- MDIO_READ_INCREMENT: OP 2. -/
def execMdioReadIncrement (m : Master) (phyad reg : BitVec 5) (c45 : Bool) (data : BitVec 16)
    (s : State) : Host.Outcome State Fault Refusal := mdioGo m 2 phyad reg c45 data s

/-- MDIO_READ: OP 3. -/
def execMdioRead (m : Master) (phyad reg : BitVec 5) (c45 : Bool) (data : BitVec 16) (s : State) :
    Host.Outcome State Fault Refusal := mdioGo m 3 phyad reg c45 data s

/-- MDIO_DONE: the transaction in progress ends; a read's data appears in PRT_MDIODATA. -/
def execMdioDone (data : BitVec 16) (s : State) : Host.Outcome State Fault Refusal :=
  .next (if s.bit Reg.PRT_MDIOCMD 30 then
      let s := s.setBit Reg.PRT_MDIOCMD 30 false
      if 2 ≤ s.fld Reg.PRT_MDIOCMD 26 2 then s.setFld Reg.PRT_MDIODATA 0 16 data.toNat else s
    else s)

/-! ## Enable and link states (R51, R52, R67, R70, R71, R73) -/

/-- MODE of a port is legal (R52, R55, R56, R58). -/
def modeLegal (p mode : Nat) : Bool :=
  if p < 4 then decide (1 ≤ mode ∧ mode ≤ 5)
  else if p < 12 then decide (2 ≤ mode ∧ mode ≤ 5)
  else if p < 20 then decide (8 ≤ mode ∧ mode ≤ 10)
  else if p < 28 then mode == 10
  else mode == 12

/-- The FEC option is one that the mode's row lists; ports 12 and above ignore it (R52, R73). -/
def fecLegal (p mode fec : Nat) : Bool :=
  decide (12 ≤ p) || fec == 0 || (mode == 1 && decide (fec ≤ 2)) || (mode == 2 && fec == 1)

/-- A setting that sets BADMODE and lets the port run (R51, R67, R73). -/
def State.badOption (s : State) (p : Nat) : Bool :=
  let n := s.fld (Reg.PRT_MAXFRM p) 0 14
  let fc := s.fld (Reg.PRT_PCTRL p) 0 2
  decide (n < 1518) || decide (9216 < n) || fc == 3 || (decide (28 ≤ p) && fc != 0) ||
    (decide (28 ≤ p) && decide (8 < s.fld (Reg.PRT_PLCA p) 4 4))

/-- LSTATE and SPEED of a port; its shapers' credits are brought up to now at the rate before (R203). The hold
of R98 is counted from the moment it leaves UP, a try of a T1 speed from the start of training (R56). -/
def State.setLinkState (s : State) (p lstate speed : Nat) : State :=
  let v := s.port p
  let s := s.setPort p
    { v with
      downAt := if s.portUp p && lstate != 2 then s.nowNs else v.downAt
      triedAt := if lstate = 1 then s.nowNs else v.triedAt }
  ((s.settleCredits p).setFld (Reg.PRT_PSTAT p) 0 2 lstate).setFld (Reg.PRT_PSTAT p) 2 4 speed

/-- A port that is not UP while the fabric quiesces has its frames redirected at once (R103). -/
def State.linkGone (s : State) (p : Nat) : State :=
  if s.fab.closed then (s.queuedFor p).foldl (fun acc f => (acc.redirect f p).reap f) s else s

/-- The state of preemption verification when a link comes up or PREEMPT changes (R65). -/
def State.verifyState (s : State) (p : Nat) : Nat :=
  if s.bit (Reg.PRT_PCTRL p) 2 && !s.bit (Reg.PRT_PREEMPT p) 10 && decide (p < 20) then 1 else 0

/-- A port enters UP at a speed. -/
def State.enterUp (s : State) (p speed : Nat) : State :=
  let s := (s.setLinkState p 2 speed).setPort p { s.port p with redirecting := false }
  if p < 32 then s.setFld (Reg.PRT_PSTAT p) 9 2 (s.verifyState p) else s

/-- A port leaves UP for TRAINING: frames in reception are cut short, which counts as a symbol error; the
loss is logged and counted (R70, R75). A port in fallback mode goes on with the speed it last tried (R56).
DESIGN CHOICE, unsafe (log entry 126). -/
def State.loseLink (s : State) (p : Nat) : State :=
  let s := (s.openRx p).foldl (fun acc f => acc.endRx f [] .symbol) s
  let s := ((s.portLog p 7 0 0 0).bump (Cnt.PRT_LINK_DOWN_CNT p)).setLinkState p 1 0
  (s.setFld (Reg.PRT_PSTAT p) 9 2 0).linkGone p

/-- A port whose PEN and instance EN are both 1 begins to run: an internal port is UP, an external one
trains, or stays DISABLED with BADMODE, or in a safe stop (R52, R70, R453). -/
def State.startPort (s : State) (p : Nat) : State :=
  if !s.hasPort p then s
  else if 32 ≤ p then s.enterUp p 0
  else if s.flt.safeStop then s
  else
    let mode := s.fld (Reg.PRT_PMODE p) 0 4
    let ok := modeLegal p mode && fecLegal p mode (s.fld (Reg.PRT_PMODE p) 4 2)
    let s := if ok && !s.badOption p then s else s.setBit (Reg.PRT_PSTAT p) 13 true
    if ok then
      (s.setLinkState p 1 0).setPort p { s.port p with draining := false, try1000 := true, attempts := 0 }
    else s

/-- A port becomes DISABLED (R70). -/
def State.stopPort (s : State) (p : Nat) : State :=
  let s := (s.setLinkState p 0 0).setPort p
    { s.port p with draining := false, sleepAsked := false, sleepAccepted := false, stopped := 0 }
  let s := if p < 32 then
      ((s.setFld (Reg.PRT_PSTAT p) 9 2 0).setBit (Reg.PRT_PSTAT p) 12 false).setBit
        (Reg.PRT_TC10 p) 1 false
    else s
  s.linkGone p

/-- PORT_ENABLE: PEN is written 1. The port runs once its instance's EN is 1 too (R70, R73); a PEN that
still reads 1 while the port drains stays as it is (R71).
DEDUCED, unsafe (log entry 35). -/
def execPortEnable (m : Master) (p : Port) (s : State) : Host.Outcome State Fault Refusal :=
  .next (guardReg m (prtPenKey p.val) (fun s =>
    if s.pen p.val then s
    else
      let s := s.setBit (prtPenKey p.val) (prtPenBit p.val) true
      if s.blkEn (prtBlk p.val) then s.startPort p.val else s) s)

/-- Frames in preemption reassembly on a port are discarded, each counted MMS_ASSY_ERR (R66, R71). -/
def State.dropReassembly (s : State) (p : Nat) : State :=
  (s.openRx p).foldl (fun acc f => match acc.frame f with
    | some v => if v.interrupted then acc.endRx f [] .assembly else acc
    | none => acc) s

/-- PORT_DISABLE: PEN is written 0; the port takes no new frame and drains its staging (R71). -/
def execPortDisable (m : Master) (p : Port) (s : State) : Host.Outcome State Fault Refusal :=
  .next (guardReg m (prtPenKey p.val) (fun s =>
    if s.pen p.val then
      (s.setPort p.val { s.port p.val with draining := true }).dropReassembly p.val
    else s) s)

/-- Nothing waits in a port's egress staging and nothing is in transmission. -/
def State.stagingEmpty (s : State) (p : Nat) : Bool :=
  (List.range 8).all (fun c => (s.stage p c).isEmpty) &&
    (s.tmPort p).express.isNone && (s.tmPort p).preempt.isNone

/-- PORT_DISABLE_DONE: the staging has been sent, or is held because the port is not UP; PEN reads 0
and the port is DISABLED (R71). -/
def execPortDisableDone (p : Port) (s : State) : Host.Outcome State Fault Refusal :=
  .next (if (s.port p.val).draining && (s.stagingEmpty p.val || !s.portUp p.val) then
      (s.setBit (prtPenKey p.val) (prtPenBit p.val) false).stopPort p.val
    else s)

/-- What the PHY of a port sends reaches the Core die: ports 12 to 31 need the Traverse link (R57). -/
def State.phySeen (s : State) (p : Nat) : Bool := decide (p < 12) || s.edgeReachable

/-- The SPEED code a link comes up with: fixed by the mode, signalled in band, or the T1 speed being
tried; none for a rate that the mode's row does not list (R52, R56, R58). -/
def State.linkSpeed (s : State) (p rate : Nat) : Option Nat :=
  match s.fld (Reg.PRT_PMODE p) 0 4 with
  | 1 => some 7
  | 2 => some 6
  | 3 => if [6, 5, 4, 3, 2].contains rate then some rate else none
  | 4 => some 4
  | 5 => if [3, 2, 1].contains rate then some rate else none
  | 8 => some (if (s.port p).try1000 then 3 else 2)
  | 9 => some 3
  | 10 => some 2
  | 12 => some 1
  | _ => none

/-- A link that has been stable for 1 ms in TRAINING. -/
def State.linkCameUp (s : State) (p rate : Nat) : State :=
  if s.hasPort p && s.lstate p == 1 then
    match s.linkSpeed p rate with
    | some speed => s.enterUp p speed
    | none => s
  else s

/-- The link of an UP port has been lost for 50 µs. -/
def State.linkWentDown (s : State) (p : Nat) : State := if s.portUp p then s.loseLink p else s

/-- A change of a PHY acts, is held at the Edge die while the Traverse link retrains, or does not reach the
Core die (R57). -/
def State.phyChange (s : State) (p : Nat) (e : HeldEvent) (f : State → State) : State :=
  if s.retraining p then s.holdEvent e else if s.phySeen p then f s else s

/-- LINK_UP: the link has been stable for 1 ms in TRAINING.
DESIGN CHOICE, unsafe (log entry 1). -/
def execLinkUp (p : ExtPort) (rate : Fin 8) (s : State) : Host.Outcome State Fault Refusal :=
  .next (s.phyChange p.val (.linkUp p.val rate.val) (fun s => s.linkCameUp p.val rate.val))

/-- LINK_DOWN: the link of an UP port has been lost for 50 µs.
DESIGN CHOICE, safe (log entry 36). -/
def execLinkDown (p : ExtPort) (s : State) : Host.Outcome State Fault Refusal :=
  .next (s.phyChange p.val (.linkDown p.val) (fun s => s.linkWentDown p.val))

/-- T1_SPEED_TRY_TIMEOUT: after 200 ms a port in fallback mode tries the other speed (R56). -/
def execT1SpeedTryTimeout (p : ExtPort) (s : State) : Host.Outcome State Fault Refusal :=
  .next (if s.lstate p.val == 1 && s.fld (Reg.PRT_PMODE p.val) 0 4 == 8 &&
      decide ((s.port p.val).triedAt + 200000000 ≤ s.nowNs) then
      s.setPort p.val
        { s.port p.val with try1000 := !(s.port p.val).try1000, triedAt := s.nowNs }
    else s)

/-- PHY_MIRROR_REFRESH: the PHY status of an Edge-die port is mirrored; not while the link recovers
(R57). -/
def execPhyMirrorRefresh (p : ExtPort) (sqi : Fin 8) (s : State) : Host.Outcome State Fault Refusal :=
  .next (if p.val < 12 then s
    else if !s.edgeReachable then s.setBit (Reg.PRT_PSTAT p.val) 11 true
    else
      let s := s.setBit (Reg.PRT_PSTAT p.val) 11 false
      if p.val < 28 then s.setFld (Reg.PRT_PSTAT p.val) 6 3 sqi.val else s)

/-! ## PLCA (R59, R60) -/

/-- The port runs PLCA as a follower. -/
def State.plcaFollower (s : State) (p : Nat) : Bool :=
  decide (28 ≤ p) && s.portUp p && s.fld (Reg.PRT_PLCA p) 0 3 != 0

/-- PLCA_BEACON_LOSS: a follower reverts to CSMA/CD. -/
def execPlcaBeaconLoss (p : ExtPort) (s : State) : Host.Outcome State Fault Refusal :=
  .next (if s.plcaFollower p.val && !s.bit (Reg.PRT_PSTAT p.val) 12 then
      (s.setBit (Reg.PRT_PSTAT p.val) 12 true).portLog p.val 9 0 0 0
    else s)

/-- PLCA_BEACON_RECEIVED: a follower returns to PLCA. -/
def execPlcaBeaconReceived (p : ExtPort) (s : State) : Host.Outcome State Fault Refusal :=
  .next (if s.plcaFollower p.val then s.setBit (Reg.PRT_PSTAT p.val) 12 false else s)

/-- PLCA_COLLISION: the frame in transmission is retried; at the 16th attempt it is abandoned (R60). -/
def execPlcaCollision (p : ExtPort) (s : State) : Host.Outcome State Fault Refusal :=
  .next (match (s.tmPort p.val).express with
    | none => s
    | some x =>
      if p.val < 28 then s
      else
        let n := (s.port p.val).attempts + 1
        if n < 16 then s.setPort p.val { s.port p.val with attempts := n }
        else
          let (len, hash) := match s.frame x.frame with
            | some v => (v.copyLen p.val, v.hash)
            | none => (0, 0)
          let s := (s.setPort p.val { s.port p.val with attempts := 0 }).setTmPort p.val
            { s.tmPort p.val with express := none }
          let s := ((s.bump (Cnt.PRT_TX_EXCESS_COL p.val)).portLog p.val 8 x.cls len hash).fault
            0x2041 0
          ((s.endCopy x.frame p.val).freeDone x.frame).reap x.frame)

/-! ## TC10 (R61 to R63) -/

/-- The port implements TC10 and it is enabled. -/
def State.tc10 (s : State) (p : Nat) : Bool :=
  decide (12 ≤ p ∧ p < 28) && s.bit (Reg.PRT_TC10 p) 0

/-- No frame has a copy queued for the port. -/
def State.egressEmpty (s : State) (p : Nat) : Bool :=
  s.stagingEmpty p && s.frames.all (fun e => match e.2 with
    | some v => !(v.stage == .queued && v.fanout.contains p)
    | none => true)

/-- A handshake is over.
DEDUCED, unsafe (log entry 40). -/
def State.endHandshake (s : State) (p : Nat) : State :=
  (s.setPort p { s.port p with sleepAsked := false, sleepAccepted := false }).setBit
    (Reg.PRT_TC10 p) 1 false

/-- TC10_SLEEP_REQUEST: SLEEPREQ is written 1; an UP port with TC10 enabled asks its partner. -/
def execTc10SleepRequest (m : Master) (p : ExtPort) (s : State) : Host.Outcome State Fault Refusal :=
  .next (guardReg m (Reg.PRT_TC10 p.val) (fun s =>
    let s := s.setBit (Reg.PRT_TC10 p.val) 1 true
    if s.tc10 p.val && s.portUp p.val then s.setPort p.val { s.port p.val with sleepAsked := true }
    else s) s)

/-- TC10_PARTNER_SLEEP_REQUEST: accepted with ACCEPT and empty egress queues, else declined (R62). -/
def execTc10PartnerSleepRequest (p : ExtPort) (s : State) : Host.Outcome State Fault Refusal :=
  .next (if s.tc10 p.val && s.portUp p.val then
      if s.bit (Reg.PRT_TC10 p.val) 2 && s.egressEmpty p.val then
        s.setPort p.val { s.port p.val with sleepAccepted := true }
      else s.bump (Cnt.PRT_TC10_DECLINE p.val)
    else s)

/-- TC10_SLEEP_COMPLETE: queues empty and handshake done; the port enters SLEEP. -/
def execTc10SleepComplete (p : ExtPort) (s : State) : Host.Outcome State Fault Refusal :=
  .next (if s.tc10 p.val && s.portUp p.val && s.egressEmpty p.val &&
        ((s.port p.val).sleepAsked || (s.port p.val).sleepAccepted) then
      (((s.endHandshake p.val).setLinkState p.val 3 0).setFld (Reg.PRT_PSTAT p.val) 9 2 0).linkGone p.val
    else s)

/-- The ports a wake of port `p` is forwarded to: those of 12 to 27 with WAKEFWD, in SLEEP (R63). -/
def State.wakeForwards (s : State) (p : Nat) : List Nat :=
  if s.bit (Reg.PRT_TC10 p) 3 then
    (List.range 28).filter (fun q =>
      decide (12 ≤ q) && q != p && s.bit (Reg.PRT_TC10 q) 3 && s.lstate q == 3)
  else []

/-- TC10_WAKE: a wake in the handshake ends it, and the port retrains where the PHY had stopped
sending; a wake in SLEEP, or in Slate, starts training, is reported to WAK and is forwarded (R63). -/
def execTc10Wake (p : ExtPort) (stoppedSending : Bool) (s : State) :
    Host.Outcome State Fault Refusal :=
  .next (
    let v := s.port p.val
    if !s.tc10 p.val then s
    else if s.portUp p.val && (v.sleepAsked || v.sleepAccepted) then
      let s := s.endHandshake p.val
      if stoppedSending then s.loseLink p.val else s
    else if s.lstate p.val == 3 || s.cur == 1 then
      let targets := s.wakeForwards p.val
      let s := if s.lstate p.val == 3 then s.setLinkState p.val 1 0 else s
      let s := targets.foldl (fun acc q => acc.setLinkState q 1 0) s
      s.wakeEvent 4 p.val 0
    else s)

/-! ## Preemption verification (R65) -/

/-- PREEMPT_VERIFY_SUCCESS. -/
def execPreemptVerifySuccess (p : ExtPort) (s : State) : Host.Outcome State Fault Refusal :=
  .next (if s.portUp p.val && s.fld (Reg.PRT_PSTAT p.val) 9 2 == 1 then
      s.setFld (Reg.PRT_PSTAT p.val) 9 2 2 else s)

/-- PREEMPT_VERIFY_TIMEOUT. -/
def execPreemptVerifyTimeout (p : ExtPort) (s : State) : Host.Outcome State Fault Refusal :=
  .next (if s.portUp p.val && s.fld (Reg.PRT_PSTAT p.val) 9 2 == 1 then
      s.setFld (Reg.PRT_PSTAT p.val) 9 2 3 else s)

/-! ## Frames -/

/-- FRAME_RECEIVE: a frame begins to arrive. -/
def execFrameReceive (p : Port) (head : List Byte) (latency : BitVec 16) (s : State) :
    Host.Outcome State Fault Refusal := .next (s.beginRx p.val head latency.toNat)

/-- FRAME_RECEIVE_END: its tail arrives. -/
def execFrameReceiveEnd (f : FrameId) (rest : List Byte) (err : RxError) (s : State) :
    Host.Outcome State Fault Refusal := .next (s.endRx f rest err)

/-! ## Flow control (R68, R69) -/

/-- A PFC frame of 64 bytes reaches the port's MAC control. -/
def State.pfcArrives (s : State) (p enables : Nat) (quanta : List (BitVec 16)) : State :=
  if s.receives p then
    (s.countMacCtrl p 64).receivePfc p enables (fun c => (quanta.getD c 0).toNat)
  else s

/-- A PAUSE frame of 64 bytes reaches it. -/
def State.pauseArrives (s : State) (p : Nat) (quanta : BitVec 16) : State :=
  if s.receives p then (s.countMacCtrl p 64).receivePause p quanta.toNat else s

/-- PFC_RECEIVE: a PFC frame of 64 bytes.
DEDUCED, unsafe (log entry 37). -/
def execPfcReceive (p : ExtPort) (enables : BitVec 8) (quanta : List (BitVec 16)) (s : State) :
    Host.Outcome State Fault Refusal :=
  .next (s.phyChange p.val (.pfc p.val enables.toNat quanta)
    (fun s => s.pfcArrives p.val enables.toNat quanta))

/-- PAUSE_RECEIVE: a PAUSE frame of 64 bytes. -/
def execPauseReceive (p : ExtPort) (quanta : BitVec 16) (s : State) :
    Host.Outcome State Fault Refusal :=
  .next (s.phyChange p.val (.pause p.val quanta) (fun s => s.pauseArrives p.val quanta))

/-- FLOW_CONTROL_STOP_EXPIRY: a class's stop has lasted its quanta. -/
def execFlowControlStopExpiry (p : ExtPort) (c : TrafficClass) (s : State) :
    Host.Outcome State Fault Refusal :=
  .next (if Store.get (fun _ => 0) (s.port p.val).stopEnds c.val ≤ s.nowNs then
      s.stopClass p.val c.val 0
    else s)

/-- PFC_REFRESH: the frame that signals XOFF is repeated (R68). -/
def execPfcRefresh (p : ExtPort) (c : TrafficClass) (s : State) : Host.Outcome State Fault Refusal :=
  .next (if !s.portUp p.val then s
    else if s.fcMode p.val = 2 then
      if s.xoff p.val c.val then s.sendFlow p.val true (2 ^ c.val) (s.quanta p.val) else s
    else if s.fcMode p.val = 1 && s.anyXoff p.val then s.sendFlow p.val false 0xFF (s.quanta p.val)
    else s)

/-! ## MACsec ingress (R251, R254, R255) -/

/-- The frame is released to classification. -/
def State.releaseRx (s : State) (f : Nat) (v : Frame) : State :=
  let v := { v with stage := .toClassify, check := none }
  ((s.ptpRing v.inPort false v.rxTime v.bytes).setFrame f v).classifyClosed f v

/-- Passed unverified. -/
def State.passUnverified (s : State) (f : Nat) (v : Frame) : State := s.releaseRx f v

/-- A "not valid" frame: dropped under Strict or with E 1, else passed unverified (R254). -/
def State.notValid (s : State) (f : Nat) (v : Frame) (strict e : Bool) : State :=
  if strict || e then s.delFrame f else s.passUnverified f v

/-- The SCI of a frame (R254). -/
def RxCheck.frameSci (k : RxCheck) (bs : List Byte) (t : SecTag) : Nat :=
  match t.sci with
  | some n => n
  | none =>
    if t.es then 65536 * natAt bs 6 6 + 1
    else match k.secys with
      | y :: _ => y.sci
      | [] => 0

/-- The plain frame of a sealed one under an SA with its PN, if the ICV verifies: SecTAG and ICV
removed. -/
def openSealed (w0 : Word) (x : SaKey) (sci pn : Nat) (bs : List Byte) (t : SecTag) : Option (List Byte) :=
  let whole := bs.drop (12 + t.len)
  let data := if t.sl = 0 then whole.take (whole.length - 16) else whole.take t.sl
  let icv := (whole.drop data.length).take 16
  let off := if t.c || t.e then min (confOffset w0) data.length else data.length
  let iv := x.iv sci pn
  let aad := bs.take (12 + t.len) ++ data.take off
  if Config.gcmTag x.key iv aad (data.drop off) = icv then
    some (bs.take 12 ++ data.take off ++ Config.gcmDecrypt x.key iv (data.drop off))
  else none

/-- The pair of an SA context: frames passed, and frames dropped or not valid (R269). -/
def State.countSa (s : State) (sa : Nat) (bad : Bool) : State :=
  s.bump (regKey 0x19 (0x30000 + 16 * sa + (if bad then 8 else 0)))

/-- The key of an SA context has been revoked: a frame in verification under it is dropped (R259, R265). -/
def State.saRevoked (s : State) (sa : Nat) : Bool := s.fld (Reg.CIP_KEYSTAT sa) 0 2 == 3

/-- A tagged frame of a known SC: its SA, replay window and ICV (R254). -/
def State.checkSa (s : State) (f : Nat) (v : Frame) (t : SecTag) (y : RxSecy) (x : SaKey) (sci : Nat) :
    State :=
  let strict := getBit y.w0 5
  if !x.live then ((s.bump Cnt.CIP_IN_NOSA).countSa x.sa true).notValid f v strict t.e
  else if s.saRevoked x.sa then s.delFrame f
  else
    let next := s.nextPn x.sa
    let pn := if x.xpn then recoverPn next t.pn else t.pn
    if getBit y.w0 6 && decide (pn + y.window < next) then
      ((s.bump Cnt.CIP_IN_LATE).countSa x.sa true).delFrame f
    else
      let off := if t.e then 28 + t.len + confOffset y.w0 else v.bytes.length
      let s := s.issueBlocks (gcmBlocks (v.bytes.length - off))
      match openSealed y.w0 x sci pn v.bytes t with
      | none => ((s.bump Cnt.CIP_IN_INVALID).countSa x.sa true).notValid f v strict t.e
      | some bs =>
        let s := ((s.bump Cnt.CIP_IN_OK).countSa x.sa false).setNextPn x.sa (max next (pn + 1))
        s.releaseRx f { v with bytes := bs, macsecV := true, wireLen := bs.length + 4 }

/-- The SecY and SA context that a SecTAG names, if an enabled SecY has its SCI. -/
def RxCheck.contextOf (k : RxCheck) (sci : Nat) (t : SecTag) : Option (RxSecy × SaKey) :=
  (k.secys.find? (fun y => y.sci == sci)).bind (fun y => (y.sas[t.an]?).map (fun x => (y, x)))

/-- A frame with a well-formed SecTAG. A PN of 0 is malformed but under XPN, where it is the low half; without
a lane in service no block is released and the frame is dropped (R248). -/
def State.checkTagged (s : State) (f : Nat) (v : Frame) (k : RxCheck) (t : SecTag) : State :=
  let sci := k.frameSci v.bytes t
  let c := k.contextOf sci t
  if t.pn = 0 && !c.any (fun x => x.2.xpn) then (s.bump Cnt.CIP_IN_BADTAG).delFrame f
  else if !s.laneUp then (s.bump Cnt.CIP_IN_NOLANE).delFrame f
  else
    match c with
    | none => (s.bump Cnt.CIP_IN_NOSA).notValid f v k.strict t.e
    | some (y, x) => s.checkSa f v t y x sci

/-- MACSEC_VERIFY: the checks of R254 in order, on a whole frame in its port's slice, in order of arrival,
under the settings of the time it reached step 2 (R251, R253). -/
def execMacsecVerify (f : FrameId) (s : State) : Host.Outcome State Fault Refusal :=
  .next (match s.frame f with
    | none => s
    | some v =>
      match v.check with
      | none => s
      | some k =>
        if v.stage ≠ .receiving || !v.tailIn || s.heldUpAt f v [.retrain, .receiving] false then s
        else if isEapol v.bytes && k.eapolClear then (s.bump Cnt.CIP_IN_UNTAGGED).passUnverified f v
        else
          match parseSecTag v.bytes with
          | none =>
            if k.strict then (s.bump Cnt.CIP_IN_UNTAGGED_DROP).delFrame f
            else (s.bump Cnt.CIP_IN_UNTAGGED).passUnverified f v
          | some none => (s.bump Cnt.CIP_IN_BADTAG).delFrame f
          | some (some t) => s.checkTagged f v k t)

end Sys2Proof.Machine
end

