-- ==== Sys2Proof/Machine/Power.lean ====
section
/-!
DEFINITION. The protected power channels: power links and heartbeat, ticks, the wire model, live
calibration, Mogul sequences, and supply anomalies (R12, R25, R356 to R379, R455).
-/

namespace Sys2Proof.Machine

open Sys2Proof

/-- The number of a die. -/
def dieNo : Die → Nat
  | .a => 0
  | .b => 1

/-- The power link of a die. -/
def State.link (s : State) (d : Nat) : PowerLink := if d = 0 then s.powerLinkA else s.powerLinkB

/-- The state with a die's power link replaced. -/
def State.setLink (s : State) (d : Nat) (v : PowerLink) : State :=
  if d = 0 then { s with powerLinkA := v } else { s with powerLinkB := v }

/-- Threads of a sequencer stalled at the command queue become ready. -/
def State.wakeSeqRoom (s : State) (d : Nat) : State :=
  (List.range 4).foldl
    (fun acc i =>
      let t := 192 + 4 * d + i
      if (acc.thread t).status = .waiting .room then
        acc.setThread t { acc.thread t with status := .ready }
      else acc) s

/-- A copy answers when it delivers anything; that it is lost is decided after 100 µs of silence (R12). -/
def linkOk (was : Bool) (c : LinkCopy) : Bool := was || c != .silent

/-- POWER_LINK_COMMAND: the die receives the oldest command's copies, counts a bad one, and acts
on the first good one (R12). -/
def execPowerLinkCommand (d : Die) (a b : LinkCopy) (s : State) :
    Host.Outcome State Fault Refusal :=
  let d := dieNo d
  .next (match (s.die d).queue with
    | [] => s
    | cmd :: rest =>
      let s := if a = .bad then s.bump (Cnt.PWC_LINK_CRC_A d) else s
      let s := if b = .bad then s.bump (Cnt.PWC_LINK_CRC_B d) else s
      let s := s.setLink d
        { s.link d with copyAOk := linkOk (s.link d).copyAOk a, copyBOk := linkOk (s.link d).copyBOk b }
      if a = .good ∨ b = .good then
        ((s.setDie d { s.die d with queue := rest }).dieAct d cmd).wakeSeqRoom d
      else s)

/-- POWER_LINK_COPY_SILENT: one copy is silent for 100 µs while its twin works (R12). -/
def execPowerLinkCopySilent (d : Die) (copyB : Bool) (s : State) :
    Host.Outcome State Fault Refusal :=
  let d := dieNo d
  let l := s.link d
  .next (if !s.hasDie d then s
    else if copyB then
      (if l.copyAOk && l.copyBOk then (s.setLink d { l with copyBOk := false }).fault 0x2312 0 else s)
    else if l.copyAOk && l.copyBOk then (s.setLink d { l with copyAOk := false }).fault 0x2312 0
    else s)

/-- POWER_LINKS_LOST: both copies are lost; no command reaches the die, and a die whose feed is in range
is reported lost (R25, R381). -/
def execPowerLinksLost (d : Die) (s : State) : Host.Outcome State Fault Refusal :=
  let fed := if d = .a then s.supply.feedAOk else s.supply.feedBOk
  let d := dieNo d
  let l := s.link d
  .next (if s.hasDie d && (l.copyAOk || l.copyBOk) then
      let s := (s.setLink d { l with copyAOk := false, copyBOk := false }).fault 0x331C 0
      if fed then s.fault 0x331B 0 else s
    else s)

/-- The heartbeat of a die is sent: its sequencer block is enabled and the Core die runs. -/
def State.beating (s : State) (d : Nat) : Bool := s.hasDie d && s.blkEn (36 + d) && s.up .seq

/-- HEARTBEAT_TOGGLE: every line whose sequencer is enabled changes level (R12). -/
def execHeartbeatToggle (s : State) : Host.Outcome State Fault Refusal :=
  .next ([0, 1].foldl
    (fun acc d =>
      if acc.beating d then acc.setLink d { acc.link d with heartbeat := !(acc.link d).heartbeat, edgeAt := acc.nowNs }
      else acc) s)

/-- HEARTBEAT_LOSS: no edge for 5 ms puts the die in hold (R375). -/
def execHeartbeatLoss (d : Die) (s : State) : Host.Outcome State Fault Refusal :=
  let d := dieNo d
  .next (if s.dieWorks d && decide ((s.link d).edgeAt + 5000000 ≤ s.nowNs) then s.holdDie d else s)

/-! ## The sequencer's copy (R360) -/

/-- PWC_CHSTAT as the sequencer's copy of a channel: its RO fields; the W1C fields stand. -/
def State.chstatWord (s : State) (n : Nat) : Word :=
  let c := s.chan n
  let old := s.rd (Reg.PWC_CHSTAT (n / 24) (n % 24))
  setBits (putBit (setBits old 0 16
    (b2n c.desired + 2 * b2n c.on + 4 * (c.cause % 128) + 512 * b2n c.latch
      + 1024 * (c.used % 16) + 16384 * b2n c.elev + 32768 * b2n (s.chanHeld n)))
    18 (c.staleOffset || c.staleGain)) 22 10 (s.chanLevel n)

/-- Copy one channel into its registers. -/
def State.refreshChan (s : State) (n : Nat) : State :=
  let c := s.chan n
  let s := s.wr (Reg.PWC_CHSTAT (n / 24) (n % 24)) (s.chstatWord n)
  let s := s.setFld (Reg.PWC_CHDUTY (n / 24) (n % 24)) 0 16 c.duty
  s.wrN (Reg.PWC_RACC (n / 24) (n % 24)) (c.racc / 10 ^ 9)

/-- SEQ_STATE_REFRESH: the sequencer reads its die's state; feed voltage and 1 s average are as
measured (R13, R360, R376). -/
def execSeqStateRefresh (d : Die) (feed : BitVec 16) (avgA : BitVec 8) (s : State) :
    Host.Outcome State Fault Refusal :=
  let d := dieNo d
  .next (if s.dieWorks d && s.up .seq &&
      ((s.link d).copyAOk || (s.link d).copyBOk) then
      let s := (dieOuts d).foldl (fun acc n => acc.refreshChan n) s
      let k := Reg.PWC_DIESTATE d
      (((s.setFld k 0 16 feed.toNat).setBit k 16 (s.die d).dump).setFld k 24 8 avgA.toNat).setDie d
        { s.die d with stateRead := true }
    else s)

/-! ## Ticks and the sense unit (R358, R363, R373) -/

/-- a_j of R363: a current in mA as amperes in Q16.16, rounded up. -/
def ampQ16 (i : Int) : Nat := (65536 * i.natAbs + 999) / 1000

/-- The mean-square word of R363. -/
def meanSquare (is : List Int) : Nat :=
  Nat.min 0x7FFFFFFF
    ((655359 + (is.map (fun i => ampQ16 i * ampQ16 i)).sum) / 655360)

/-- The Runout accumulator after one sample of 10 µs (R373). -/
def runoutStep (base : Nat) (acc : Nat) (i : Int) : Nat :=
  ((acc : Int) + i * i - (base * base : Nat)).toNat

/-- The sample of an OUT in a tick's list; none measured reads as no current. -/
def sampleOf (samples : List ChanSample) (n : Nat) : ChanSample :=
  samples.getD n { currents := [], dieCurrents := [], junction := 0, voltage := 0 }

/-- One channel's part of a tick: the mean-square word, the latest samples, R_acc.
DEDUCED, unsafe (log entry 99). -/
def State.tickChan (s : State) (samples : List ChanSample) (n : Nat) : State :=
  let v := sampleOf samples n
  let c := s.chan n
  let base := (runoutOf (chanClass (n % 24))).1
  (s.setChan n
    { c with
      current := v.currents.getLastD 0, junction := v.junction, voltage := v.voltage
      racc := v.dieCurrents.foldl (runoutStep base) c.racc }).wrN
    (Reg.PWC_DMEM (n / 24) (0xFC0 + n % 24)) (meanSquare v.currents)

/-- A tick at one thread: it becomes ready from a TICK, or has missed a tick (R358). -/
def State.tickThread (s : State) (t : Nat) : State :=
  let th := s.thread t
  match th.status with
  | .waiting .tick => s.setThread t { th with status := .ready, tickPassed := false }
  | .idle | .trapped => s
  | _ => if th.ticked then s.setThread t { th with tickPassed := true } else s

/-- The tick of one sequencer. -/
def State.tickSeq (s : State) (samples : List ChanSample) (d : Nat) : State :=
  if !s.hasDie d then s
  else
    let s := (dieOuts d).foldl (fun acc n => acc.tickChan samples n) s
    let s := (List.range 40).foldl (fun acc i => acc.wr (Reg.PWC_DMEM d (0xFD8 + i)) 0) s
    (List.range 4).foldl (fun acc i => acc.tickThread (192 + 4 * d + i)) s

/-- SEQ_TICK: the tick timers of both sequencers fire in one SEQ cycle (R358, R363). -/
def execSeqTick (samples : List ChanSample) (s : State) : Host.Outcome State Fault Refusal :=
  .next (if s.up .seq then (s.tickSeq samples 0).tickSeq samples 1 else s)

/-! ## The wire model (R364 to R367) -/

/-- The floor timer of a channel runs: PWC_MODELCFG.FLOOR. -/
def State.floorRuns (s : State) (n : Nat) : Bool := s.bit (Reg.PWC_MODELCFG (n / 24) (n % 24)) 31

/-- The value that a write of PWC_THETA stores (R365). -/
def State.thetaStored (s : State) (n : Nat) (v : Word) : Word :=
  let cont := s.rd (Reg.PWC_THCONT (n / 24) (n % 24))
  if s.floorRuns n ∧ v.toNat < cont.toNat then cont else v

/-- A write of PWC_THETA: stored, and at or above the limit the channel trips (R365). -/
def State.writeTheta (s : State) (n : Nat) (v : Word) : State :=
  let v := s.thetaStored n v
  let s := (s.wr (Reg.PWC_THETA (n / 24) (n % 24)) v).setChan n { s.chan n with thetaAt := s.nowNs }
  if s.rdN (Reg.PWC_THLIM (n / 24) (n % 24)) ≤ v.toNat ∧ (s.chan n).latch = false ∧
      s.chanHeld n = false then
    s.tripChan n .model
  else s

/-- THETA_WRITE (R365). -/
def execThetaWrite (m : Master) (n : Out) (v : Word) (s : State) :
    Host.Outcome State Fault Refusal :=
  .next (guardReg m (Reg.PWC_THETA (n.val / 24) (n.val % 24)) (fun s => s.writeTheta n.val v) s)

/-- ALPHA of a channel; 0 acts as 1. -/
def State.alpha (s : State) (n : Nat) : Nat :=
  Nat.max 1 (s.fld (Reg.PWC_MODELCFG (n / 24) (n % 24)) 0 16)

/-- DTSH of a channel; 15 acts as 14. -/
def State.dtsh (s : State) (n : Nat) : Nat :=
  Nat.min 14 (s.fld (Reg.PWC_MODELCFG (n / 24) (n % 24)) 16 4)

/-- A channel has been on, and its THETA not written, for 4 model steps of 100 µs × 2^DTSH (R364, R365). -/
def State.modelStalled (s : State) (n : Nat) : Bool :=
  (s.chan n).on &&
    decide (Nat.max (s.chan n).onAt (s.chan n).thetaAt + 400000 * 2 ^ s.dtsh n ≤ s.nowNs)

/-- MODEL_STALL: an on channel whose THETA was not written for 4 model steps enters hold (R365). -/
def execModelStall (n : Out) (s : State) : Host.Outcome State Fault Refusal :=
  .next (atOut n.val (fun s =>
    if s.modelStalled n.val && !s.chanHeld n.val && s.beating (n.val / 24) then
      ((s.chanFlag n.val 19).fault 0x2317 0).holdChan n.val
    else s) s)

/-- Byte address of a snapshot bank in MRAM (R366, R407). -/
def snapBank (b : Nat) : Nat := 0x10020000 + 0x8000 * b

/-- The record of a channel in a snapshot bank (R366). -/
def State.snapRecord (s : State) (n : Nat) : List Byte :=
  let floorMs := match (s.chan n).floorUntil with
    | some u => (999999 + (u - s.nowNs)) / 1000000
    | none => 0
  bytesLE 4 (s.rdN (Reg.PWC_THETA (n / 24) (n % 24))) ++ bytesLE 4 (s.alpha n) ++
    bytesLE 4 (s.dtsh n) ++ bytesLE 4 (s.rdN (Reg.PWC_THCONT (n / 24) (n % 24))) ++
    bytesLE 4 floorMs ++ List.replicate 12 0

/-- The channel records of a bank and the zero bytes that fill it. -/
def State.snapBody (s : State) : List Byte :=
  (List.range 48).flatMap (fun n => s.snapRecord n) ++ List.replicate 31200 0

/-- The sequence number of a bank whose CRC is right (R366). -/
def State.snapSeq (s : State) (b : Nat) : Option Nat :=
  let hd := s.rdBytes (snapBank b) 28
  if natLE (s.rdBytes (snapBank b + 28) 4) = crc32c (hd ++ s.rdBytes (snapBank b + 32) 32736) then
    some (natLE (hd.take 8))
  else none

/-- The bank that is the snapshot: the highest valid sequence number (R366). -/
def State.newestSnap (s : State) : Option (Nat × Nat) :=
  match s.snapSeq 0, s.snapSeq 1 with
  | some a, some b => if b ≤ a then some (0, a) else some (1, b)
  | some a, none => some (0, a)
  | none, some b => some (1, b)
  | none, none => none

/-- The bits of the channels that are on. -/
def State.onBits (s : State) : Nat :=
  (List.range 48).foldl (fun acc n => acc + b2n (s.chan n).on * 2 ^ n) 0

/-- Write the snapshot to the bank that does not hold the newest valid one: records first, header
last (R366, R21). -/
def State.writeSnapshot (s : State) : State :=
  let b := match s.newestSnap with
    | some (b, q) => (1 - b, q + 1)
    | none => (0, 1)
  let body := s.snapBody
  let hd := bytesLE 8 b.2 ++ bytesLE 8 s.rtcSec ++ bytesLE 4 (s.rtcTicks % 32768) ++
    bytesLE 8 s.onBits
  let s' := (s.wrMem (snapBank b.1 + 32) body).wrMem (snapBank b.1)
    (hd ++ bytesLE 4 (crc32c (hd ++ body)))
  let s' := { s' with power := { s'.power with snapAt := some s.nowNs } }
  (s'.setDie 0 { s'.die 0 with heldSince := (s'.die 0).hold }).setDie 1
    { s'.die 1 with heldSince := (s'.die 1).hold }

/-- A time lies at least `ns` before now, if there was one. -/
def State.passed (s : State) (t : Option Nat) (ns : Nat) : Bool :=
  match t with
  | some t => decide (t + ns ≤ s.nowNs)
  | none => true

/-- PWC_SNAPCFG.PERIOD in ms, 100 to 60,000, of the sequencer that writes the snapshots: die A's while it is
enabled (R366).
DESIGN CHOICE, unsafe (log entry 154). -/
def State.snapPeriod (s : State) : Nat :=
  clampNat 100 60000 (s.fld (Reg.PWC_SNAPCFG (if s.beating 0 then 0 else 1)) 0 16)

/-- MODEL_SNAPSHOT: written every PERIOD by whichever sequencer is enabled (R366). -/
def execModelSnapshot (s : State) : Host.Outcome State Fault Refusal :=
  .next (if (s.beating 0 || s.beating 1) && s.passed s.power.snapAt (1000000 * s.snapPeriod) then
      s.writeSnapshot else s)

/-- e^(num/den) in units of 2^-200, by its series. -/
def expScaled (num den : Nat) : Nat :=
  ((List.range 160).foldl
    (fun (acc : Nat × Nat) k => (acc.1 + acc.2, acc.2 * num / (den * (k + 1)))) (0, 2 ^ 200)).1

/-- ceil(theta × e^(-num/den)), and 0 from 16 time constants on (R367). -/
def decayed (theta num den : Nat) : Nat :=
  if 16 * den ≤ num then 0
  else if num = 0 then theta
  else (2 ^ 200 * theta + expScaled num den - 1) / expScaled num den

/-- The time constant of a wire model in ns, rounded up (R364). -/
def tauNs (alpha dtsh : Nat) : Nat := (100000 * 2 ^ dtsh * 65536 + alpha - 1) / alpha

/-- Restore one channel's model at a start of its sequencer (R367): the state, and the row used. -/
def State.restoreModel (s : State) (n : Nat) : State × Nat :=
  let s := s.setChan n { s.chan n with thetaAt := s.nowNs }
  let key := Reg.PWC_THETA (n / 24) (n % 24)
  let cfg := Reg.PWC_MODELCFG (n / 24) (n % 24)
  let cont := s.rdN (Reg.PWC_THCONT (n / 24) (n % 24))
  let first := fun (tau : Nat) =>
    ((((s.wrN key cont).setBit cfg 31 true).setChan n
      { s.chan n with floorUntil := some (s.nowNs + tau) }, 1) : State × Nat)
  match s.newestSnap with
  | none => first (tauNs (s.alpha n) (s.dtsh n))
  | some (b, _) =>
    let base := snapBank b
    let then_ := 32768 * natLE (s.rdBytes (base + 8) 8) + natLE (s.rdBytes (base + 16) 4)
    let rec_ := base + 32 + 32 * n
    let theta := s.rdMem32 rec_
    let alpha := Nat.max 1 (s.rdMem32 (rec_ + 4))
    let dtsh := Nat.min 14 (s.rdMem32 (rec_ + 8))
    if !s.rtcValid ∨ s.rtcTicks < then_ then first (tauNs alpha dtsh)
    else
      let rem := s.rdMem32 (rec_ + 16)
      let wasOn := Nat.testBit (natLE (s.rdBytes (base + 20) 8)) n
      if wasOn ∧ (s.die (n / 24)).heldSince then
        (((s.wrN key (Nat.max theta cont)).setBit cfg 31 true).setChan n
          { s.chan n with floorUntil := some (s.nowNs + tauNs alpha dtsh) }, 2)
      else
        (((s.wrN key (decayed theta ((s.rtcTicks - then_) * 10000 * alpha)
            (32768 * 2 ^ dtsh * 65536))).setBit cfg 31 (decide (0 < rem))).setChan n
          { s.chan n with
            floorUntil := if rem = 0 then none else some (s.nowNs + 1000000 * rem) }, 3)

/-- A PWC block is enabled: models restored, PWM settings checked, threads started; the die's state
is read by the next refresh (R367, R376, R377). -/
def State.sequencerStart (s : State) (d : Nat) : State :=
  let r := (dieOuts d).foldl
    (fun (acc : State × Nat) n =>
      let x := acc.1.restoreModel n
      (x.1, if acc.2 = 0 then x.2 else Nat.min acc.2 x.2)) (s, 0)
  let s := r.1.setFld (Reg.PWC_SNAPSTAT d) 0 2 r.2
  let s := (dieOuts d).foldl
    (fun acc n =>
      let bad := acc.bit (Reg.PWC_CHCFG d (n % 24)) 2 && !acc.pwmLegal n
      let acc := acc.setChan n { acc.chan n with badPwm := bad }
      if bad then acc.chanFlag n 21 else acc) s
  (s.setDie d { s.die d with stateRead := false }).startThreads d

/-- A PWC block is disabled: HOLD for the whole die, then the threads and the heartbeat stop. -/
def State.sequencerStop (s : State) (d : Nat) : State :=
  (if s.dieWorks d then s.holdDie d else s).stopThreads d

/-- FLOOR_TIMER_EXPIRY: the floor timer has run (R367). -/
def execFloorTimerExpiry (n : Out) (s : State) : Host.Outcome State Fault Refusal :=
  .next (if s.hasDie (n.val / 24) && s.up .seq && s.passed (s.chan n.val).floorUntil 0 then
      (s.setBit (Reg.PWC_MODELCFG (n.val / 24) (n.val % 24)) 31 false).setChan n.val
        { s.chan n.val with floorUntil := none }
    else s)

/-! ## Live calibration (R361, R362) -/

/-- A register value moved toward a target `num / den` by a weight `1 / w`: the specification does
not state the rounding, so the neighbour taken is free when the result is not whole. -/
def State.weighted (s : State) (old num den w : Int) : Int × State :=
  let d := num - old * den
  let q := Int.fdiv d (den * w)
  if d = q * (den * w) then (old + q, s)
  else (old + q + (if Config.freeBool s.freeCtr then 1 else 0), { s with freeCtr := s.freeCtr + 1 })

/-- OFFSET_CALIBRATION: the average of an off interval updates the offset with weight 1/8 (R361).
DESIGN CHOICE, unsafe (log entry 98). -/
def execOffsetCalibration (n : Out) (avg : Int) (s : State) : Host.Outcome State Fault Refusal :=
  let k := Reg.PWC_CHOFS (n.val / 24) (n.val % 24)
  .next (atOut n.val (fun s =>
    if (s.chan n.val).on && !(s.chan n.val).pwm || !s.up .seq then s
    else
      let r := s.weighted (signed 16 (s.fld k 0 16)) avg 1 8
      (r.2.setFld k 0 16 (wordOfInt r.1).toNat).setChan n.val
        { s.chan n.val with staleOffset := false, offsetAt := s.nowNs }) s)

/-- No offset, or no gain, of a channel has been updated for STALES seconds; 0 acts as 1 (R361). -/
def State.calStale (s : State) (n : Nat) (gain : Bool) : Bool :=
  let c := s.chan n
  decide ((if gain then c.gainedAt else c.offsetAt) +
    1000000000 * Nat.max 1 (s.fld (Reg.PWC_CALCFG (n / 24)) 8 8) ≤ s.nowNs)

/-- CALIBRATION_STALE: STALES seconds have passed without an update of offset or gain (R361). -/
def execCalibrationStale (n : Out) (gain : Bool) (s : State) : Host.Outcome State Fault Refusal :=
  let c := s.chan n.val
  .next (if s.hasDie (n.val / 24) && s.up .seq && s.calStale n.val gain then
      (s.setChan n.val (if gain then { c with staleGain := true }
        else { c with staleOffset := true })).fault 0x2313 0
    else s)

/-- No trip of the channel is pending (R362). -/
def Channel.quiet (c : Channel) : Bool :=
  c.on && c.tripped.isNone && c.restart.isNone && !c.cooling

/-- A gain step of channel `n` may be taken now: of a quiet channel, at most once a second, at any tick with
ANYTIME, else in a quiet slot of at least 60 µs and 60 µs after the step of another channel (R362). -/
def State.gainAllowed (s : State) (n : Nat) : Bool :=
  s.dieWorks (n / 24) && s.beating (n / 24) && (s.chan n).quiet &&
    s.passed (s.chan n).gainAt 1000000000 &&
    (s.bit (Reg.PWC_CALCFG (n / 24)) 0 || (s.quietSlot 60000 && s.passed s.power.stepAt 60000))

/-- A gain step of channel `n` is taken. -/
def State.takeStep (s : State) (n : Nat) : State :=
  let s := s.setChan n { s.chan n with gainAsked := false, gainAt := some s.nowNs }
  if s.bit (Reg.PWC_CALCFG (n / 24)) 0 then s
  else { s with power := { s.power with stepAt := some s.nowNs } }

/-- GAIN_STEP: the five samples before, in and after a 100 mA step (R362). -/
def execGainStep (n : Out) (before during after : List Int) (s : State) :
    Host.Outcome State Fault Refusal :=
  let d := n.val / 24
  let c := n.val % 24
  let a := before.sum
  let b := during.sum
  let e := after.sum
  .next (if !s.gainAllowed n.val then s
    else
      let s := s.takeStep n.val
      if (2 * continuousMa (chanClass c) * 5 : Int) < (e - a).natAbs * 100 then
        s.bump (Cnt.PWCCH_CAL_DISCARD d c)
      else if 25 < (b - a - 500).natAbs then s.fault 0x2313 0
      else
        let k := Reg.PWC_CHGAIN d c
        let r := s.weighted (s.fld k 0 16) (16384 * (b - a)) 500 4
        ((r.2.setFld k 0 16 (wordOfInt r.1).toNat).setChan n.val
          { s.chan n.val with staleGain := false, gainedAt := s.nowNs }).bump (Cnt.PWCCH_CAL_GAIN d c))

/-! ## Trips and Mogul sequences (R356, R368 to R373) -/

/-- FAST_LIMIT_TRIP (R356, R369). -/
def execFastLimitTrip (n : Out) (s : State) : Host.Outcome State Fault Refusal :=
  .next (atOut n.val (fun s => if (s.chan n.val).on then s.tripChan n.val .fast else s) s)

/-- A thermal shutdown acts on a channel that is on, and in latch mode on one whose retry is
pending (R371, R380). -/
def State.thermalActs (s : State) (n : Nat) : Bool :=
  let c := s.chan n
  c.on || (c.thLatch && (c.tripped.isSome || c.restart.isSome))

/-- THERMAL_SHUTDOWN (R371). -/
def execThermalShutdown (n : Out) (s : State) : Host.Outcome State Fault Refusal :=
  let s' := s.setChan n.val { s.chan n.val with hot := true }
  .next (atOut n.val (fun s => if s.thermalActs n.val then s'.tripChan n.val .therm else s') s)

/-- THERMAL_RESTART_READY (R371). -/
def execThermalRestartReady (n : Out) (s : State) : Host.Outcome State Fault Refusal :=
  let c := { s.chan n.val with hot := false }
  .next (atOut n.val (fun s =>
    if c.cooling && c.tripped.isNone && c.restart.isNone && !s.chanHeld n.val then
      if c.used < s.retries n.val then
        s.setChan n.val { c with cooling := false, restart := some { since := c.tripAt } }
      else (s.setChan n.val c).latchMogul n.val
    else s.setChan n.val c) s)

/-- WIN of a channel, and `more` ms, have passed since it was switched on (R368). -/
def State.winPassed (s : State) (n more : Nat) : Bool :=
  decide ((s.chan n).onAt + 1000000 * (s.fld (Reg.PWC_ELEV (n / 24) (n % 24)) 0 16 + more) ≤ s.nowNs)

/-- ELEVATED_WINDOW_END: WIN ms after the attempt's switch-on (R368). -/
def execElevatedWindowEnd (n : Out) (s : State) : Host.Outcome State Fault Refusal :=
  .next (atOut n.val (fun s =>
    if s.winPassed n.val 0 then s.setChan n.val { s.chan n.val with elev := false } else s) s)

/-- MOGUL_SUCCESS: the channel has stayed on for WIN + 100 ms (R368). -/
def execMogulSuccess (n : Out) (s : State) : Host.Outcome State Fault Refusal :=
  let c := s.chan n.val
  .next (atOut n.val (fun s =>
    if c.on && c.sequence && s.winPassed n.val 100 then s.setChan n.val { c with used := 0, elev := false } else s) s)

/-- SPACING of a channel in ms, 1 to 100 (R369). -/
def State.spacing (s : State) (n : Nat) : Nat :=
  clampNat 1 100 (s.fld (Reg.PWC_MOGUL (n / 24) (n % 24)) 8 7)

/-- MOGUL_RETRY_REQUEST: SPACING after a trip the retry is requested; with none left the channel
latches (R369). -/
def execMogulRetryRequest (n : Out) (s : State) : Host.Outcome State Fault Refusal :=
  let c := s.chan n.val
  .next (atOut n.val (fun s =>
    match c.tripped with
    | none => s
    | some at_ =>
      if s.nowNs < at_ + 1000000 * s.spacing n.val then s
      else if c.used < s.retries n.val then
        s.setChan n.val { c with tripped := none, restart := some { since := at_ } }
      else s.latchMogul n.val) s)

/-- Requests of a die for restart slots, oldest trip first, then lowest OUT; without a sequencer those for a
restoration only (R375).
DEDUCED, unsafe (log entry 101). -/
def State.slotQueue (s : State) (d : Nat) : List (Nat × Restart) :=
  sortBy (fun x y => decide (x.2.since < y.2.since) || (x.2.since == y.2.since && decide (x.1 ≤ y.1)))
    ((dieOuts d).filterMap (fun n =>
      match (s.chan n).restart with
      | some r => if s.up .seq || r.restore then some (n, r) else none
      | none => none))

/-- A restart is granted: a retry uses one of RETRIES, a restoration none (R369, R370). -/
def State.grantRestart (s : State) (n : Nat) (r : Restart) : State :=
  let c := { s.chan n with restart := none, dumped := false }
  if r.restore then (s.setChan n c).switchOn n
  else
    ((s.setChan n { c with used := c.used + 1 }).bump
      (Cnt.PWCCH_RETRIES (n / 24) (n % 24))).switchOn n

/-- The arbiter's decision on one request, after the groups and the number granted so far. -/
def State.slotStep (d limit : Nat) (acc : State × List Nat × Nat) (x : Nat × Restart) :
    State × List Nat × Nat :=
  let s := acc.1
  let n := x.1
  let g := thermalGroup (n % 24)
  let rstmax := clampNat 1 4 (s.fld (Reg.PWC_DIECFG d) 17 3)
  let elevi := s.fld (Reg.PWC_LEVELS d (n % 24)) 0 10
  let budget := decide (8 ≤ x.2.waited) ||
    decide (4 * s.fld (Reg.PWC_DIESTATE d) 24 8 + elevi ≤ 4 * limit)
  if (s.die d).dump then acc
  else if acc.2.1.contains g || decide (rstmax ≤ acc.2.2) || !budget then
    ((s.setChan n { s.chan n with restart := some { x.2 with waited := x.2.waited + 1 } }).bump
      (Cnt.PWCCH_ARB_DELAY d (n % 24)), acc.2)
  else (s.grantRestart n x.2, g :: acc.2.1, acc.2.2 + 1)

/-- RESTART_SLOT: the die arbiter's grants of one millisecond (R370). -/
def execRestartSlot (d : Die) (s : State) : Host.Outcome State Fault Refusal :=
  let d := dieNo d
  .next (if s.dieWorks d then
      ((s.slotQueue d).foldl (State.slotStep d (s.dieLimit d)) (s, [], 0)).1
    else s)

/-- RUNOUT_TRIP: the accumulator has reached its limit (R373). -/
def execRunoutTrip (n : Out) (s : State) : Host.Outcome State Fault Refusal :=
  let c := s.chan n.val
  .next (atOut n.val (fun s =>
    if c.on then
      ((s.setChan n.val
        { c with racc := Nat.max c.racc (runoutOf (chanClass (n.val % 24))).2 }).tripChan
        n.val .runout).fault 0x2318 n.val
    else s) s)

/-- Channels of a die that may be shed: on, SHED set, not in hold; highest number last. -/
def State.sheddable (s : State) (d : Nat) : List Nat :=
  (dieOuts d).filter
    (fun n => (s.chan n).on && s.bit (Reg.PWC_CHCFG d (n % 24)) 4 && !s.chanHeld n)

/-- DIE_OVERLOAD_SHED: with the average above the effective limit, the highest sheddable channel
is switched off, once per second (R357). -/
def execDieOverloadShed (d : Die) (avgA : BitVec 8) (s : State) :
    Host.Outcome State Fault Refusal :=
  let d := dieNo d
  .next (if s.dieWorks d && s.beating d then
      let s := s.setFld (Reg.PWC_DIESTATE d) 24 8 avgA.toNat
      if s.dieLimit d < avgA.toNat && s.passed (s.die d).shedAt 1000000000 then
        match (s.sheddable d).getLast? with
        | none => s
        | some n =>
          let s := s.setDie d { s.die d with shedAt := some s.nowNs }
          (((s.setChan n { (s.chan n).off.noRetry with desired := false }).dieFlag d 18).bump
            (Cnt.PWC_DIE_SHED d)).fault 0x2315 0
      else s
    else s)

/-- OPEN_LOAD, in on or off state: recorded, and the PWC interrupt raised (R356). -/
def execOpenLoad (n : Out) (on : Bool) (s : State) : Host.Outcome State Fault Refusal :=
  .next (atOut n.val (fun s =>
    if on then (if (s.chan n.val).on then s.chanFlag n.val 16 else s)
    else if !(s.chan n.val).on && s.bit (Reg.PWC_CHCFG (n.val / 24) (n.val % 24)) 3 then
      s.chanFlag n.val 17
    else s) s)

/-! ## Supply anomalies (R379) and supervision (R455) -/

/-- LOAD_DUMP: the die's channels switch off with their states kept (R379). -/
def execLoadDump (d : Die) (s : State) : Host.Outcome State Fault Refusal :=
  let d := dieNo d
  .next (if !s.dieWorks d ∨ (s.die d).dump then s
    else
      let s := (dieOuts d).foldl
        (fun acc n =>
          let c := acc.chan n
          if c.on then acc.setChan n { c.off with dumped := true } else acc) s
      (((s.setDie d { s.die d with dump := true }).setBit (Reg.PWC_DIESTATE d) 16 true).bump
        (Cnt.PWC_LOADDUMP_OFF d)).fault 0x0311 0)

/-- LOAD_DUMP_END: channels that were switched off ask for restoration (R379). -/
def execLoadDumpEnd (d : Die) (s : State) : Host.Outcome State Fault Refusal :=
  let d := dieNo d
  .next (if (s.die d).dump then
      let s := (dieOuts d).foldl
        (fun acc n =>
          let c := acc.chan n
          if c.dumped && !c.latch then
            acc.setChan n { c with restart := some { since := acc.nowNs, restore := true } }
          else acc) s
      (s.setDie d { s.die d with dump := false }).setBit (Reg.PWC_DIESTATE d) 16 false
    else s)

/-- A feed in use lies outside its operating range: FLT_GSTAT.SUPPLY (R449). -/
def State.supplyFlag (s : State) : State :=
  s.setGstat 0 (!s.supply.feedAOk || !s.supply.feedBOk)

/-- FEED_REVERSED: the die's channels conduct in reverse, its logic and links are unpowered, and
the die is reported lost (R379). -/
def execFeedReversed (d : Die) (s : State) : Host.Outcome State Fault Refusal :=
  let d := dieNo d
  let sup := s.supply
  let s := { s with supply :=
    if d = 0 then { sup with feedAOk := false, feedAReversed := true }
    else { sup with feedBOk := false, feedBReversed := true } }
  .next (if s.hasDie d then
      let s := (dieOuts d).foldl
        (fun acc n => acc.setChan n { acc.chan n with on := true, level := true }) s
      (((s.setDie d { s.die d with reversed := true, queue := [] }).setLink d
        { s.link d with copyAOk := false, copyBOk := false }).fault 0x331B 0).supplyFlag
    else s.supplyFlag)

/-- A die as it returns to its supply: every channel off, waiting to be attached. -/
def State.dieReturn (s : State) (d : Nat) : State :=
  let s := (dieOuts d).foldl (fun acc n => acc.setChan n {}) s
  (s.setDie d {}).setLink d {}

/-- FEED_RETURN: a feed is back in its operating range (R379, R449). -/
def execFeedReturn (d : Die) (s : State) : Host.Outcome State Fault Refusal :=
  let d := dieNo d
  let sup := s.supply
  let s := if (s.die d).reversed then s.dieReturn d else s
  .next ({ s with supply :=
    if d = 0 then { sup with feedAOk := true, feedAReversed := false }
    else { sup with feedBOk := true, feedBReversed := false } } : State).supplyFlag

/-- GROUND_SHIFT: one ground is lost and the grounds differ by more than 1 V (R379). -/
def execGroundShift (s : State) : Host.Outcome State Fault Refusal :=
  .next (if s.hasDie 0 || s.hasDie 1 then
      ([0, 1].foldl (fun acc d => if acc.hasDie d then acc.dieFlag d 17 else acc) s).fault 0x2314 0
    else s)

/-- CHANNEL_SUPERVISION_EXPIRY: a channel desired on stayed off, unlatched and not in hold, for 20 ms and
PWCGRACE at most of pauses (R455). -/
def execChannelSupervisionExpiry (n : Out) (s : State) : Host.Outcome State Fault Refusal :=
  let c := s.chan n.val
  let grace := 1000000 * Nat.min 2000 (s.fld Reg.FLT_RECCFG 0 11)
  .next (if s.hasDie (n.val / 24) && c.watched && !c.overdue && !s.chanHeld n.val &&
      decide (20000000 ≤ c.silence s.nowNs grace) then
      (s.setChan n.val { c with overdue := true }).fault 0x2415 n.val
    else s)

/-- A rising slew of channel `n` is due: W of the PWM domain lies within 200 ns of a whole second + PHASE +
k × PERIOD (R239, R377). -/
def State.riseDue (s : State) (n : Nat) : Bool :=
  let per := (s.chan n).period
  let w := tkNs (s.wNow (s.fld Reg.TIM_DELIV 0 2))
  let off := (w + 1000000000 - s.fld (Reg.PWC_PWMPHASE (n / 24) (n % 24)) 0 27) % per
  decide (off ≤ 200) || decide (per ≤ off + 200)

/-- Twice the slew of a class in ns (R356, R377). -/
def twoSlews : ChanClass → Nat
  | .h => 96000 | .m => 48000 | .l => 24000

/-- The on-phase of a PWM period in ns: DUTY × PERIOD, at least two slews, which the off-phase keeps too. -/
def onPhase (k : ChanClass) (duty per : Nat) : Nat :=
  Nat.max (twoSlews k) (Nat.min (duty * per / 65536) (per - twoSlews k))

/-- PWM_EDGE: a new duty takes effect from a rising edge, which starts at its time while the channel is
attached; duty 0 keeps the switch open; a falling edge shortens no pulse (R375, R377, R378). -/
def execPwmEdge (n : Out) (rising : Bool) (s : State) : Host.Outcome State Fault Refusal :=
  let c := s.chan n.val
  let held := s.chanHeld n.val
  .next (if c.on && c.pwm then
      if rising then
        if c.level || !(held || s.riseDue n.val) then s
        else
          let duty := if held then c.duty else c.nextDuty
          s.setChan n.val
            { c with
              duty := duty, level := decide (duty ≠ 0)
              fallAt := s.nowNs + onPhase (chanClass (n.val % 24)) duty c.period }
      else if held || decide (c.fallAt ≤ s.nowNs + 400) then s.setChan n.val { c with level := false }
      else s
    else s)

end Sys2Proof.Machine
end

