-- ==== Sys2Proof/Machine/EnableOps.lean ====
section
/-!
DEFINITION. What a change of BLK_CTRL.EN does in each block: what starts with an enable, what a quiesce
stops at once, when it may end, and what its end leaves (R36, R77, R83, R90, R103, R106, R120, R173, R198,
R215, R216, R244, R296, R312, R367).
-/

namespace Sys2Proof.Machine

open Sys2Proof

/-- The ports of a PRT instance. -/
def instancePorts (b : Nat) : List Nat := (List.range 37).filter (fun p => prtBlk p == b)

/-- The flow table adopts the seed of CLS_HASHSEED; a seed that differs from the one it is built with
clears the table and sets CLEARED (R120). -/
def State.adoptSeed (s : State) : State :=
  let seed := s.rd Reg.CLS_HASHSEED
  let clear := match s.cls.seedBuilt with
    | none => false
    | some old => old != seed
  let s := if clear then s.setBit Reg.CLS_FLOWSTAT 31 true else s
  { s with cls := { s.cls with
      seedBuilt := some seed, flows := if clear then [] else s.cls.flows } }

/-- HBR_PCFG is sampled at the first enable after a reset; PSTAT.ROLE shows the role (R312). -/
def State.samplePcfg (s : State) : State :=
  match s.hbr.pcfg with
  | some _ => s
  | none =>
    { s.setBit Reg.HBR_PSTAT 8 (s.bit Reg.HBR_PCFG 0) with
      hbr := { s.hbr with pcfg := some (s.rd Reg.HBR_PCFG) } }

/-- Admission to the fabric opens, unless sleep entry, a safe stop or a quiesce of instance 0 or 1 holds it
closed (R103). -/
def State.reopen (s : State) : State :=
  if s.phase = 3 ∨ s.flt.safeStop = true ∨ s.blkQuiescing 8 = true ∨ s.blkQuiescing 9 = true then s
  else { s with fab := { s.fab with closed := false } }

/-- What starts when EN of a block goes from 0 to 1. -/
def State.enableEffects (s : State) (b : Nat) : State :=
  match b with
  | 0x08 => s.checkDrift.reopen
  | 0x09 => s.dividePool.reopen
  | 0x0E => s.adoptSeed
  | 0x14 => (List.range 1024).foldl State.fillMeter s
  | 0x17 => s.frerValids.foldl State.enableFrer s
  | 0x1C => s.startGwy 0
  | 0x1D => s.startGwy 1
  | 0x1E => s.samplePcfg
  | 0x24 => s.sequencerStart 0
  | 0x25 => s.sequencerStart 1
  | 0x26 => s.startThreads 2
  | b => if 4 ≤ b ∧ b < 8 then
      (instancePorts b).foldl (fun acc p => if acc.pen p then acc.startPort p else acc) s
    else s

/-- What resumes when a quiesce is cancelled. -/
def State.resumeEffects (s : State) (b : Nat) : State :=
  match b with
  | 0x08 | 0x09 => s.reopen
  | 0x24 => s.startThreads 0
  | 0x25 => s.startThreads 1
  | 0x26 => s.startThreads 2
  | _ => s

/-- BLK_CTRL.EN written 1: the block is enabled at once, or its quiesce is cancelled (R36). -/
def State.enableBlk (s : State) (b : Nat) : State :=
  if s.blkQuiescing b then
    ({ s.setBit (Reg.BLK_STATUS b) 1 false with
      quiescing := Store.set (fun _ => false) s.quiescing b false } : State).resumeEffects b
  else if s.blkEn b then s
  else (s.setBit (Reg.BLK_CTRL b) 0 true).enableEffects b

/-- The fabric closes to new frames; frames for ports that are not UP are redirected at once (R103). -/
def State.closeFabric (s : State) : State :=
  let s := { s with fab := { s.fab with closed := true } }
  ((List.range 37).filter (fun p => !s.portUp p)).foldl
    (fun acc p => (acc.queuedFor p).foldl (fun a f => (a.redirect f p).reap f) acc) s

/-- What a quiesce stops at once. -/
def State.quiesceEffects (s : State) (b : Nat) : State :=
  match b with
  | 0x08 | 0x09 => s.closeFabric
  | 0x19 => (List.range 160).foldl State.suspendJob s
  | 0x24 => s.sequencerStop 0
  | 0x25 => s.sequencerStop 1
  | 0x26 => s.stopThreads 2
  | _ => s

/-- BLK_CTRL.EN written 0: a quiesce begins, and of CPX ends at once (R36). -/
def State.quiesceBlk (s : State) (b : Nat) : State :=
  if !s.blkEn b || s.blkQuiescing b then s
  else if 0x20 ≤ b ∧ b ≤ 0x23 then s.setBit (Reg.BLK_CTRL b) 0 false
  else
    ({ s.setBit (Reg.BLK_STATUS b) 1 true with
      quiescing := Store.set (fun _ => false) s.quiescing b true } : State).quiesceEffects b

/-- Every cell has been freed and no queued frame waits for one: cell memory and the Drift region are empty. -/
def State.fabricEmpty (s : State) : Bool :=
  s.frames.all (fun e => match e.2 with
    | some v => v.allFreed && v.stage != .queued
    | none => true)

/-- No port of a list is in the middle of a frame. -/
def State.nothingSending (s : State) (ps : List Nat) : Bool :=
  ps.all (fun p => (s.tmPort p).express.isNone && (s.tmPort p).preempt.isNone)

/-- No packet thread of the threads `[lo, hi)` holds a frame. -/
def State.noFrameHeld (s : State) (lo hi : Nat) : Bool :=
  s.rtk.threads.all (fun e => decide (e.1 < lo) || decide (hi ≤ e.1) || e.2.frame.isNone)

/-- No frame stands in a classification lane (R106, R175). -/
def State.lanesEmpty (s : State) : Bool :=
  s.frames.all (fun e => match e.2 with
    | some v => v.stage != .toDispatch
    | none => true)

/-- No job runs, and no MACsec frame is in verification or sealing (R244). -/
def State.cipherIdle (s : State) : Bool :=
  (List.range 160).all (fun j => s.jobState j != 3) && (List.range 32).all (fun p => !s.sealing p) &&
    s.frames.all (fun e => match e.2 with
      | some v => v.check.isNone
      | none => true)

/-- The operations in flight in a quiescing block have completed: the quiesce can end.
DEDUCED, unsafe (log entry 113). -/
def State.quiesced (s : State) (b : Nat) : Bool :=
  match b with
  | 0x08 | 0x09 => s.fabricEmpty
  | 0x0C => s.lanesEmpty
  | 0x10 => s.noFrameHeld 0 192
  | 0x11 => s.noFrameHeld 0 64
  | 0x12 => s.noFrameHeld 64 128
  | 0x13 => s.noFrameHeld 128 192
  | 0x15 => s.nothingSending (List.range 37)
  | 0x19 => s.cipherIdle
  | b => if 4 ≤ b ∧ b < 8 then s.nothingSending (instancePorts b) else true

/-- What the end of a quiesce leaves: ports DISABLED, channels stopped, meters frozen. -/
def State.disabledEffects (s : State) (b : Nat) : State :=
  match b with
  | 0x14 => (List.range 1024).foldl (fun acc m => acc.setMeter m (s.meterNow m)) s
  | 0x1C => s.stopGwy 0
  | 0x1D => s.stopGwy 1
  | b => if 4 ≤ b ∧ b < 8 then
      ((instancePorts b).filter s.hasPort).foldl State.stopPort s
    else s

/-- EN reads 0 and BUSY clears. -/
def State.disableBlk (s : State) (b : Nat) : State :=
  ({ (s.setBit (Reg.BLK_CTRL b) 0 false).setBit (Reg.BLK_STATUS b) 1 false with
    quiescing := Store.set (fun _ => false) s.quiescing b false } : State).disabledEffects b

end Sys2Proof.Machine
end

