-- ==== Sys2Proof/Machine/Vault.lean ====
section
/-!
DEFINITION. The commands of the key vault: its start, the seven channel commands, tamper, and glitches
(chapter *Key vault and derivation*).
-/

namespace Sys2Proof.Machine

open Sys2Proof

/-! ## Running commands (R273) -/

/-- The running command of a channel, of operation `op`, ends with what `f` makes of the state; any
but EXTEND, VERIFY and ENROL ends DEAD in DEAD (R273). -/
def State.runVault (s : State) (c op : Nat) (f : State → Nat × State) : State :=
  if s.chanState c ≠ 2 ∨ s.vltOp c ≠ op then s
  else if s.vaultState = 2 ∧ op < 5 then s.endVault c 11
  else
    let r := f s
    r.2.endVault c r.1

/-! ## Start (R270, R273) -/

/-- A root was not reconstructed after three attempts (R273). -/
def State.rootFailed (s : State) : State := s.fault 0x3205 0

/-- The identity root is looked for, and the unique ID shown. -/
def State.readyIdentity (s : State) (ok : Bool) : State :=
  let s := (List.range 4).foldl (fun acc i => acc.wr (Reg.VLT_UID i) (Config.uidWord i))
    { s with vlt := { s.vlt with started := true } }
  if ok then
    (List.range 24).foldl (fun acc i => acc.wr (Reg.VLT_IDPUB i) (identityPub Config.identityRoot i))
      { s with vlt := { s.vlt with identity := Config.identityRoot } }
  else { s with vlt := { s.vlt with noIdentity := true } }.rootFailed

/-- The vault root is looked for: absent or not reconstructed, the vault is DEAD. -/
def State.readyRoot (s : State) (ok : Bool) : State :=
  let s := s.setBit Reg.VLT_STAT 2 (!s.vlt.record)
  if s.vlt.record && ok then
    { s with vlt := { s.vlt with root := Config.vaultRoot s.vlt.rootNo } }.setFld Reg.VLT_STAT 0 2 1
  else (if s.vlt.record then s.rootFailed else s).setFld Reg.VLT_STAT 0 2 2

/-- VAULT_READY: the roots have been looked for, once after each release of the Core die; a vault that is
zeroizing, or was, has its identity root alone. -/
def execVaultReady (rootOk identityOk : Bool) (s : State) : Host.Outcome State Fault Refusal :=
  .next (if s.vlt.started || s.coreHeld then s
    else
      let s := s.readyIdentity identityOk
      if s.vaultState = 0 then (s.readyRoot rootOk).nextCommand else s)

/-! ## PROVISION (R278, R279) -/

/-- Fields of a Key Provisioning Message. -/
def kpmSlot (m : List Byte) : Nat := natAt m 0x20 2
def kpmPolicy (m : List Byte) : Nat := natAt m 0x24 8

/-- The policy grants no more than its parent's: USAGE, TGT_SA, TGT_JOB and TGT_SLOT (R283). -/
def policyWithin (child parent : Nat) : Bool :=
  (List.range 10).all (fun i => !Nat.testBit child (3 + i) || Nat.testBit parent (3 + i))

/-- The rules of R283 for a DERIVED slot. -/
def State.parentAllows (s : State) (slot policy : Nat) : Bool :=
  let parent := policy / 2 ^ 21 % 512
  s.slotState parent == 1 && s.policyBit parent 12 && parent != slot &&
    policyWithin policy (s.slot parent).policy && decide ((s.ancestors parent).length ≤ 2)

/-- The key-encryption key of a KPM: HKDF-SHA-384 of the ECDH secret (R278). -/
def State.kpmKek (s : State) (m : List Byte) : List Byte :=
  let prk := Config.hmac384 uidBytes (Config.ecdh (identityScalar s.vlt.identity) (bytesAt m 0x4C 97))
  (Config.hmac384 prk (ascii "JZM KPM WRAP 01" ++ bytesAt m 0x18 8 ++ bytesAt m 0x20 2 ++ [1])).take 32

/-- Check 7 of R279. -/
def kpmPolicyOk (m : List Byte) : Bool :=
  let p := kpmPolicy m
  decide (p / 2 ^ 40 = 0) && p / 2 ^ 30 % 4 == 0 &&
    (if p % 4 = 0 then p / 2 ^ 21 % 512 == 0 && allZero (bytesAt m 0x2C 32)
     else p % 4 == 1 && allZero (bytesAt m 0xAD 40))

/-- The checks of R279 in order: the result, and the key or seed when all pass.
DEDUCED, unsafe (log entry 80). -/
def State.kpmCheck (s : State) (m : List Byte) : Nat × List Byte :=
  let p := kpmPolicy m
  if natAt m 0 4 ≠ 0x4B504D31 ∨ natAt m 4 2 ≠ 1 ∨ natAt m 6 2 ≠ 0x19C ∨ natAt m 0x22 2 ≠ 0 ∨
      natAt m 0xD5 3 ≠ 0 ∨ natAt m 0x139 3 ≠ 0 ∨ 511 < kpmSlot m then (1, [])
  else
    match s.verifyWith 0 (bytesAt m 0xD8 97) (Config.sha384 (m.take 0x13C)) (bytesAt m 0x13C 96) with
    | 0 =>
      if bytesAt m 8 16 ≠ uidBytes then (3, [])
      else if natAt m 0x18 8 ≠ s.provCounter + 1 then (4, [])
      else if s.slotState (kpmSlot m) ≠ 0 then (7, [])
      else if !kpmPolicyOk m then (1, [])
      else if p % 4 = 1 ∧ !s.parentAllows (kpmSlot m) p then (10, [])
      else if !Config.onCurve (bytesAt m 0x4C 97) then (5, [])
      else if p % 4 = 1 then (0, bytesAt m 0x2C 32)
      else
        match Config.keyUnwrap (s.kpmKek m) (bytesAt m 0xAD 40) with
        | some key => (0, key)
        | none => (5, [])
    | e => (e, [])

/-- The message fails check 1 of R279. -/
def kpmMalformed (m : List Byte) : Bool :=
  natAt m 0 4 != 0x4B504D31 || natAt m 4 2 != 1 || natAt m 6 2 != 0x19C || natAt m 0x22 2 != 0 ||
    natAt m 0xD5 3 != 0 || natAt m 0x139 3 != 0 || decide (511 < kpmSlot m)

/-- PROVISION: the slot and the counter are written under one commit, or the message is rejected. -/
def execProvision (c : Fin 4) (s : State) : Host.Outcome State Fault Refusal :=
  .next (s.runVault c.val 1 (fun s =>
    if s.vlt.noIdentity then (11, s)
    else
      let m := (s.vltCmd c.val).buf.take 412
      match s.kpmCheck m with
      | (0, value) =>
        let n := kpmSlot m
        let p := kpmPolicy m
        let s := (s.setSlot n { policy := p, value := value, counter := natAt m 0x18 8 }).storeSlot n
        let depth := (s.ancestors n).length
        let s := s.wrN (Reg.VLT_SLOTSTAT n) (1 + 4 * (p % 4) + 16 * depth)
        let s := s.wrMem 0x10011180 (bytesLE 8 (natAt m 0x18 8))
        (0, s.bump Cnt.VLT_PROV_OK)
      | (r, _) =>
        let s := s.bump Cnt.VLT_PROV_REJ
        (r, if kpmMalformed m then s else s.fault 0x0201 0)))

/-! ## DERIVE (R281 to R283) -/

/-- Checks 3 to 5 of R282. -/
def State.deriveCheck (s : State) (n k pmid : Nat) : Nat :=
  if 1279 < k then 9
  else if k < 1024 ∧ !(s.policyBit n 10 && s.policyBit n 3) then 8
  else if 1024 ≤ k ∧ !s.policyBit n 11 then 8
  else if s.policy n 3 7 = 0 then 8
  else if s.policyBit n 38 ∧ s.policy n 32 6 ≠ pmid then 8
  else if (s.ancestors n).any (fun a => s.slotState a != 1) then 10
  else 0

/-- The derived key enters its context, which is LOADING (R259). -/
def State.loadKey (s : State) (k n : Nat) (key : List Byte) : State :=
  let s := { s with cip := { s.cip with keys := Store.set (fun _ => []) s.cip.keys k key } }
  s.wrN (Reg.CIP_KEYSTAT k)
    (1 + 4 * b2n (s.policyBit n 2) + 8 * s.policy n 3 7 + 65536 * n)

/-- DERIVE: a key from a slot into a cipher key context. `badTag` names a slot whose record tags fail, which
matters when the derivation reads it: the slot itself, or an ancestor (R272). -/
def execDerive (c : Fin 4) (badTag : Option (Fin 512)) (s : State) : Host.Outcome State Fault Refusal :=
  .next (s.runVault c.val 2 (fun s =>
    let n := s.vltSlot c.val
    let k := s.vltArg c.val
    let reject := fun (r : Nat) (s : State) => (r, s.bump Cnt.VLT_DERIVE_REJ)
    if !s.hasCip then reject 9 s
    else if s.slotState n ≠ 1 then reject 7 s
    else if badTag.any (fun b => b.val == n) then reject 12 (s.tagFailed n)
    else
      match s.deriveCheck n k (s.vltCmd c.val).pmid with
      | 0 =>
        match badTag.filter (fun b => (s.ancestors n).contains b.val) with
        | some b => reject 12 (s.tagFailed b.val)
        | none =>
          let key := s.derivedKey n (decide (1024 ≤ k)) ((s.vltCmd c.val).buf.take 32)
          (0, (((s.reshare n).loadKey k n key).bump Cnt.VLT_DERIVE_OK).monEvent 0x281)
      | r => reject r s))

/-! ## The other commands (R280, R284, R285, R287) -/

/-- INVALIDATE: the slot and its descendants. -/
def execInvalidate (c : Fin 4) (s : State) : Host.Outcome State Fault Refusal :=
  .next (s.runVault c.val 3 (fun s => (0, s.invalidateSlot (s.vltSlot c.val))))

/-- OVERWRITE: as INVALIDATE, then the slot is EMPTY. -/
def execOverwrite (c : Fin 4) (s : State) : Host.Outcome State Fault Refusal :=
  .next (s.runVault c.val 4 (fun s =>
    (0, (s.invalidateSlot (s.vltSlot c.val)).emptyKeySlot (s.vltSlot c.val))))

/-- EXTEND: a measurement register. -/
def execExtend (c : Fin 4) (s : State) : Host.Outcome State Fault Refusal :=
  .next (s.runVault c.val 5 (fun s =>
    if 7 < s.vltArg c.val then (1, s)
    else (0, s.extendMr (s.vltArg c.val) ((s.vltCmd c.val).buf.take 48))))

/-- VERIFY: a signature over a digest against an anchor. -/
def execVerify (c : Fin 4) (s : State) : Host.Outcome State Fault Refusal :=
  .next (s.runVault c.val 6 (fun s =>
    if 7 < s.vltArg c.val then (1, s.bump Cnt.VLT_VERIFY_FAIL)
    else
      let b := (s.vltCmd c.val).buf
      let r := s.verifyWith (s.vltArg c.val) (bytesAt b 144 97) (bytesAt b 0 48) (bytesAt b 48 96)
      (r, s.bump (if r = 0 then Cnt.VLT_VERIFY_OK else Cnt.VLT_VERIFY_FAIL))))

/-- The tamper loop is open now: VLT_STAT.LOOPOPEN. -/
def State.loopOpen (s : State) : Bool := s.bit Reg.VLT_STAT 3

/-- The whole vault partition is overwritten: every slot is EMPTY.
DESIGN CHOICE, unsafe (log entry 148). -/
def State.overwriteVault (s : State) : State :=
  let s := s.usedSlots.foldl (fun acc n => acc.wrN (Reg.VLT_SLOTSTAT n) 0) s
  { s with vlt := { s.vlt with slots := [] } }.erase 0x10000000 0x10000

/-- ENROL: in DEAD with the loop intact, a new vault root; every slot is EMPTY, the vault READY. -/
def execEnrol (c : Fin 4) (s : State) : Host.Outcome State Fault Refusal :=
  .next (s.runVault c.val 7 (fun s =>
    if s.vaultState ≠ 2 ∨ s.loopOpen then (1, s)
    else
      let n := s.vlt.rootNo + 1
      let s := s.overwriteVault.wrMem 0x10010400 ((List.range 1024).map (Config.helperByte n))
      let s := { s with vlt := { s.vlt with record := true, rootNo := n, root := Config.vaultRoot n } }
      (0, (s.setFld Reg.VLT_STAT 0 2 1).setBit Reg.VLT_STAT 2 false)))

/-! ## Tamper and glitches (R289 to R292, R476) -/

/-- A command ends, of a channel with a result and of the BOOT block's path without. -/
def State.endCommand (s : State) (c res : Nat) : State :=
  if c = bootPath then s.failManifest else s.endVault c res

/-- The running command ends ABORTED. -/
def State.abortVault (s : State) : State :=
  match s.vlt.running with
  | some c => s.endCommand c 13
  | none => s

/-- The vault record is erased, and the vault root gone (R270, R289). -/
def State.eraseRecord (s : State) : State :=
  { s with vlt := { s.vlt with record := false, root := [] } }.erase 0x10010400 0x400

/-- Steps 1 to 4 of the tamper response: ZEROIZING, the running command aborted, the cipher engine's
response, the vault record erased, the event recorded; a session is aborted (R289, R439). -/
def State.tamper (s : State) : State :=
  if s.vaultState = 3 then s
  else
    let s := ((s.setFld Reg.VLT_STAT 0 2 3).abortVault).zeroizeCipher
    let s := s.eraseRecord
    let s := (s.setBit Reg.VLT_STAT 2 true).setBit Reg.VLT_STAT 8 true
    let n := s.freeCtr
    let s := { s with freeCtr := n + 10 }.blackBox 6 ((Config.freeWord n).toNat % 65536) true
      ((Config.freeWord (n + 9)).toNat % 64)
      ((List.range 8).map (fun i => Config.freeWord (n + 1 + i)))
    ((s.fault 0x3207 0).dropSegment).abortSession

/-- TAMPER_SAMPLE: the AON monitor's sample of the loop; the second open one in a row detects tamper,
which wakes a sleeping module; with RESET_N low the vault record is erased and reset then holds (R479).
DEDUCED, unsafe (log entry 81). -/
def execTamperSample (loopOpen : Bool) (s : State) : Host.Outcome State Fault Refusal :=
  .next (
    let n := if loopOpen then min 2 (s.vlt.openSamples + 1) else 0
    let fresh := decide (n = 2) && decide (s.vlt.openSamples < 2)
    let s := { s with vlt := { s.vlt with openSamples := n } }
    let awake := decide (2 ≤ s.cur) && !s.coreHeld
    let s := if awake then s.setBit Reg.VLT_STAT 3 (decide (n = 2)) else s
    if !fresh then s
    else if awake then s.tamper
    else
      let s := { s with vlt := { s.vlt with pendingTamper := true } }
      if s.supply.resetN then
        (s.eraseRecord.wakeRecord 8 0 0).1
      else s.wakeEvent 8 0 0)

/-- VAULT_ZEROIZE_DONE: the background overwrite is complete; the vault is DEAD, and the commands that
waited end DEAD. -/
def execVaultZeroizeDone (s : State) : Host.Outcome State Fault Refusal :=
  .next (if s.vaultState ≠ 3 then s
    else
      let s := s.overwriteVault
      let s := s.vlt.order.foldl (fun acc c => acc.endCommand c 11) s
      (s.setFld Reg.VLT_STAT 0 2 2).queueManifest)

/-- GLITCH_TRIP: vault and cipher operations stop; the third trip within 1 s is tamper. -/
def execGlitchTrip (s : State) : Host.Outcome State Fault Refusal :=
  .next (if s.coreHeld || decide (s.cur < 2) then s
    else
      let recent := s.vlt.glitches.filter (fun t => decide (s.nowNs - t < 1000000000)) ++ [s.nowNs]
      let s := { s with vlt := { s.vlt with glitches := recent } }
      let s := ((s.setBit Reg.VLT_STAT 9 true).fault 0x3206 0).abortVault
      let s := if s.hasCip then s.stopCipher else s
      if 3 ≤ recent.length then s.tamper else s)

end Sys2Proof.Machine
end

