-- ==== Sys2Proof/Machine/FaultOps.lean ====
section
/-!
DEFINITION. The fault collector's operations: classes and subsystems of codes, the log, reactions, the
safe stop, and watchdogs (R442, R448 to R453, R456).
-/

namespace Sys2Proof.Machine

open Sys2Proof

/-- The class of a fault code, and its subsystem number (R442). -/
def faultClass (code : Nat) : Nat := code / 4096
def faultSubsystem (code : Nat) : Nat := code / 64 % 64

/-- FLT_REACT of a class and subsystem (R451). -/
def reactKey (cls sub : Nat) : Nat := regKey 1 (0x400 + 4 * (16 * cls + (sub - 1)))

/-- The blocks of a subsystem that ISOLATE acts on (R13, R451). -/
def isolatedBlocks : Nat → List Nat
  | 1 => [4, 5, 6, 7]
  | 2 => [8, 9, 0xA, 0xB]
  | 3 => [0xC, 0xD, 0xE, 0xF]
  | 4 => [0x10, 0x11, 0x12, 0x13]
  | 5 => [0x14, 0x15, 0x16, 0x17]
  | 6 => [0x18]
  | 7 => [0x19]
  | 9 => [0x1C, 0x1D]
  | 10 => [0x1E]
  | 12 => [0x24, 0x25]
  | 13 => [0x26]
  | _ => []

/-- The report that the collector processes next: of those of one instant the highest class, then the
first (R456). -/
def State.nextReport (s : State) : Option FaultReport :=
  match s.reports with
  | [] => none
  | r :: rest => some (rest.foldl (fun best x =>
      if x.at_ = r.at_ ∧ faultClass best.code < faultClass x.code then x else best) r)

/-- The newest entry of the log, and whether a report is coalesced into it (R448). -/
def State.newestEntry (s : State) : Nat := (s.fld Reg.FLT_LOGHEAD 0 6 + 63) % 64
def State.coalesced (s : State) (r : FaultReport) : Bool :=
  let k := Reg.FLT_LOG_w0 s.newestEntry
  decide (faultClass r.code ≤ 1) && s.bit k 31 && s.fld k 0 16 == r.code &&
    decide (r.at_ ≤ 1000000000 + s.flt.newestAt)

/-- A report in the log: it is coalesced, or an entry of its own, with the times of the report, and a black-box
record, whose DATA and requester are open (R434, R448).
DEDUCED, unsafe (log entry 28). -/
def State.logReport (s : State) (r : FaultReport) : State :=
  if s.coalesced r then
    let k := Reg.FLT_LOG_w0 s.newestEntry
    (s.setFld k 16 15 (min 0x7FFF (s.fld k 16 15 + 1))).bump Cnt.FLT_COALESCED
  else
    let e := s.fld Reg.FLT_LOGHEAD 0 6
    let s := if s.bit (Reg.FLT_LOG_w0 e) 31 then
        s.setFld Reg.FLT_LOGHEAD 16 16 (min 0xFFFF (s.fld Reg.FLT_LOGHEAD 16 16 + 1))
      else s
    let then_ : State := { s with nowNs := r.at_ }
    let s := (s.wrN (Reg.FLT_LOG_w0 e) (2 ^ 31 + 65536 + r.code % 65536)).wrN
      (Reg.FLT_LOG_w1_3 e 0) then_.dom0Ns
    let s := ((s.wrN (Reg.FLT_LOG_w1_3 e 1) then_.rtcSec).wrN (Reg.FLT_LOG_w1_3 e 2) r.data).setFld
      Reg.FLT_LOGHEAD 0 6 (e + 1)
    let n := s.freeCtr
    { s with freeCtr := n + 9, flt := { s.flt with newestAt := r.at_ } }.blackBox 1 r.code
      (decide (3 ≤ faultClass r.code)) ((Config.freeWord (n + 8)).toNat % 64)
      ((List.range 8).map (fun i => Config.freeWord (n + i)))

/-- The counter of a class (R457). -/
def classCounter (cls : Nat) : Nat := Cnt.FLT_FAULTS_INFO + 8 * cls

/-- FAULT_N[0] asserts until the next reset of the Core die (R452). -/
def State.assertN0 (s : State) : State :=
  { s with flt := { s.flt with fatal := true } }.setBit Reg.FLT_FAULTN 0 true

/-- OFF for every channel of a die. -/
def State.allOff (s : State) (d : Nat) : State :=
  (List.range 24).foldl (fun acc c => acc.dieAct d { code := 2, ch := c, arg := 0 }) s

/-- Module safe stop (R453).
DEDUCED, unsafe (log entry 31). -/
def State.safeStop (s : State) : State :=
  if s.flt.safeStop then s
  else
    let s := ({ s with flt := { s.flt with safeStop := true } }.assertN0).bump Cnt.FLT_SAFESTOPS
    let s := ((List.range 32).filter s.hasPort).foldl State.stopPort s
    let s := s.closeFabric
    let s := ([0, 1].filter s.dieWorks).foldl
      (fun acc d =>
        (if acc.bit Reg.FLT_SAFECFG 0 then acc.allOff d else acc).holdDie d) s
    s.abortVault

/-- ISOLATE: EN written 0 in every block of the subsystem of a fault detected at a time. -/
def State.isolate (s : State) (sub at_ : Nat) : State :=
  (isolatedBlocks sub).foldl (fun acc b =>
    if acc.blkEn b && acc.blkPresent b then
      let acc := acc.quiesceBlk b
      { acc with flt := { acc.flt with isolating := acc.flt.isolating ++ [(b, at_)] } }
    else acc) s

/-- The RESET reaction; of a watchdog expiry of a unit other than the main processor, the unit's
partitions fail over (R450, R451). -/
def State.resetReaction (s : State) (r : FaultReport) : State :=
  if r.code = 0x3411 then
    if s.isPair r.data && s.canSurvive (twin r.data) then
      ((s.setUnit r.data 4).setRun r.data false).failOver r.data false
    else s
  else
    let s := { s with flt := { s.flt with resetPending := true } }
    if s.bbQueue.isEmpty then s.holdCore else s

/-- The reactions of one report in order: FAULT_N, IRQ, ISOLATE, SAFESTOP, RESET (R451, R452). -/
def State.react (s : State) (r : FaultReport) : State :=
  let cls := faultClass r.code
  let sub := faultSubsystem r.code
  let w := s.rd (reactKey cls sub)
  let on := fun (b : Nat) => getBit w b && !getBit w 5
  let s := if cls = 4 then s.assertN0 else s
  let s := if on 1 then s.setBit Reg.FLT_FAULTN 1 true else s
  let s := if on 0 then s.irq 2 else s
  let s := if on 2 then s.isolate sub r.at_ else s
  let s := if on 3 then s.safeStop else s
  if on 4 then s.resetReaction r else s

/-- The collector processes a report: count, log, black-box record, FAULT_N and reactions (R448, R451, R452). -/
def State.collect (s : State) (r : FaultReport) : State :=
  (((s.bump (classCounter (faultClass r.code))).monEvent (0x408 + faultClass r.code)).logReport r).react r

/-! ## Isolation that did not complete (R451) -/

/-- A frame leaves every place that refers to it: threads, dispatch queues, stalls. -/
def State.forgetFrame (s : State) (f : Nat) : State :=
  let threads := s.rtk.threads.filter (fun e => e.2.frame != some f)
  let queues := s.rtk.queues.filterMap (fun e =>
    let l := e.2.filter (fun x => x != f)
    if l = [] then none else some (e.1, l))
  { s with
    rtk := { s.rtk with threads := threads, queues := queues }
    cls := { s.cls with stall := s.cls.stall.filter (fun e => e.2 != some f) } }

/-- A frame is discarded wherever it stands. -/
def State.discardFrame (s : State) (f : Nat) : State := ((s.forgetFrame f).dropQueued f).reap f

/-- The frames that match. -/
def State.framesWith (s : State) (p : Frame → Bool) : List Nat :=
  (s.frames.filter (fun e => match e.2 with
    | some v => p v
    | none => false)).map (fun e => e.1)

/-- Transmissions of a port end at once. -/
def State.cutPort (s : State) (p : Nat) : State :=
  let t := s.tmPort p
  let fs := (t.express.toList ++ t.preempt.toList).map (fun x => x.frame)
  let s := s.setTmPort p { t with express := none, preempt := none }
  fs.foldl (fun acc f => ((acc.endCopy f p).freeDone f).reap f) s

/-- The in-flight work of a block is discarded. -/
def State.discardWork (s : State) (b : Nat) : State :=
  match b with
  | 0x08 | 0x09 =>
    (s.framesWith (fun v => v.stage == .queued)).foldl State.discardFrame s
  | 0x10 =>
    (s.framesWith (fun v => v.stage == .running)).foldl State.discardFrame s
  | 0x15 => (List.range 37).foldl State.cutPort s
  | 0x19 => ((List.range 160).filter (fun j => s.jobState j == 3)).foldl
      (fun acc j => acc.endJob j 7) s
  | b => if 4 ≤ b ∧ b < 8 then (instancePorts b).foldl State.cutPort s else s

/-! ## Watchdogs (R450) -/

/-- The watchdog of a unit is enabled and has not expired. -/
def State.watchdogRuns (s : State) (u : Nat) : Bool :=
  s.bit (Reg.FLT_WDOG u) 16 && !s.bit (Reg.FLT_WDOG u) 17

/-- The watchdog of a unit expires. -/
def State.watchdogExpire (s : State) (u : Nat) : State :=
  if s.watchdogRuns u then
    ((s.setBit (Reg.FLT_WDOG u) 17 true).fault
      (if s.mainUnit = u then 0x4410 else 0x3411) u).unitFlags
  else s

/-- The state with the first service value of a unit outstanding or not. -/
def State.setKick (s : State) (u : Nat) (v : Bool) : State :=
  { s with flt := { s.flt with kickOpen := Store.set (fun _ => false) s.flt.kickOpen u v } }

/-- TIMEOUT of a unit's watchdog is counted from now. -/
def State.watchdogServed (s : State) (u : Nat) : State :=
  let s := s.setKick u false
  { s with flt := { s.flt with servedAt := Store.set (fun _ => 0) s.flt.servedAt u s.nowNs } }

/-- TIMEOUT ms have passed since EN was set, or since the last completed service. -/
def State.watchdogDue (s : State) (u : Nat) : Bool :=
  decide (Store.get (fun _ => 0) s.flt.servedAt u +
    1000000 * clampNat 1 1000 (s.fld (Reg.FLT_WDOG u) 0 16) ≤ s.nowNs)

/-- EN of a watchdog is set. -/
def State.watchdogStart (s : State) (u : Nat) : State :=
  if s.bit (Reg.FLT_WDOG u) 16 then s
  else ((s.setBit (Reg.FLT_WDOG u) 16 true).watchdogServed u).unitFlags

/-- A write of FLT_WDKICK. -/
def State.watchdogKick (s : State) (u : Nat) (key : Word) : State :=
  if !s.watchdogRuns u then s
  else
    match Store.get (fun _ => false) s.flt.kickOpen u with
    | false => if key = 0x3C5A then s.setKick u true else s.watchdogExpire u
    | true =>
      if key = 0xC3A5 then (s.watchdogServed u).monEvent (0x430 + u) else s.watchdogExpire u

/-! ## Counters (R458, R459, R461, R463) -/

/-- The word is the HIGH word of a pair that follows the carry and wrap rules. -/
def governedHigh (key : Nat) : Bool :=
  match rowAt key with
  | some r => r.pair && r.fields.any (fun f => decide (f.lo = 31) && decide (f.ty = .ro)) &&
      r.fields.any (fun f => decide (f.lo = 30) && decide (f.width = 1))
  | none => false

/-- The HIGH word of a governed pair, or of a chained MON pair. -/
def State.governed (s : State) (key : Nat) : Bool :=
  governedHigh key ||
    (decide (Reg.MON_VAL 0 ≤ key ∧ key < Reg.MON_VAL 1536) && key / 4 % 2 == 1 &&
      s.bit (monCfgKey (((key - Reg.MON_VAL 0) / 8) * 2)) 13)

/-- OVF clears in every governed pair. -/
def State.clearOvf (s : State) : State :=
  ((s.regs.filter (fun e => getBit e.2 30 && s.governed e.1)).map (fun e => e.1)).foldl
    (fun acc k => acc.setBit k 30 false) s

/-- MON_VAL is copied to MON_SNAPVAL. -/
def State.monSnapshot (s : State) : State :=
  { s with
    regs := Store.setAll resetWord
      (Store.clear s.regs (Reg.MON_SNAPVAL 0) (Reg.MON_SNAPVAL 1536))
      (Store.slice s.regs (Reg.MON_VAL 0) (Reg.MON_VAL 1536)
        (Reg.MON_SNAPVAL 0 - Reg.MON_VAL 0) 0) }

/-- A write of MON_MODE: the boot controller may write any mode; while MODE is RECOVERY no one else may,
and software may write SERVICE and TEST only (R458). -/
def State.writeMode (s : State) (m : Master) (mode : Nat) : State :=
  if m.pmid.toNat = 0x33 then s.setFld Reg.MON_MODE 0 2 mode
  else if s.fld Reg.MON_MODE 0 2 = 3 ∨ mode = 1 ∨ mode = 3 then s.deny Reg.MON_MODE m.pmid.toNat
  else s.setFld Reg.MON_MODE 0 2 mode

end Sys2Proof.Machine
end

