-- ==== Sys2Proof/Machine/Time.lean ====
section
/-!
DEFINITION. The time unit's commands: samples, timeouts, setting the time, domains, snapshots and
conversions, alignment of the Edge die, the pins, and the oscillator check (R224 to R241).
-/

namespace Sys2Proof.Machine

open Sys2Proof

/-- Units of 2^-16 ns in a nanosecond. -/
def nsUnits : Nat := 65536

/-- A submitted sample: rejected, or applied by the servo and lock rules (R227). -/
def State.submitSample (s : State) (d : Nat) : State :=
  let lt := s.rdTime (Reg.TIM_SMPLT_ns d)
  let master := s.rdTime (Reg.TIM_SMPMST_ns d)
  let late := match (s.dom d).lastSample with
    | some x => decide (lt ≤ x)
    | none => false
  if !s.domEn d || s.domState d == 3 || decide (s.lt < lt) || decide (tkPerSec + lt < s.lt) || late ||
      decide (1000000000 ≤ s.rdN (Reg.TIM_SMPMST_ns d)) then
    (s.bump Cnt.TIM_SAMPLE_REJ).monEvent 0x242
  else s.sample d lt master

/-- TIME_SAMPLE_SUBMIT: TIM_SMPCTL GO (R227, R228). -/
def execTimeSampleSubmit (m : Master) (d : Fin 4) (s : State) : Host.Outcome State Fault Refusal :=
  .next (guardReg m (Reg.TIM_SMPCTL d.val) (fun s => s.submitSample d.val) s)

/-- SYNCTMO has passed since the last accepted sample of a domain (R229). -/
def State.syncDue (s : State) (d : Nat) : Bool :=
  s.ran (s.dom d).sync (1000000 * Nat.max 1 (s.fld (Reg.TIM_SYNCTMO d) 0 16))

/-- SYNC_TIMEOUT: a LOCKED domain enters HOLDOVER when its SYNCTMO timer has run (R229). -/
def execSyncTimeout (d : Fin 4) (s : State) : Host.Outcome State Fault Refusal :=
  .next (if s.domState d.val ≠ 1 ∨ s.syncDue d.val = false then s
    else
      ((s.setDomState d.val 2).setDom d.val
        { (s.setDomState d.val 2).dom d.val with holdAt := s.nowNs }).bump Cnt.TIM_HOLDOVER_ENTRY)

/-- HOLDMAX seconds have passed since a domain entered HOLDOVER; this timer has no grace (R229). -/
def State.holdoverDue (s : State) (d : Nat) : Bool :=
  decide ((s.dom d).holdAt + 1000000000 * Nat.max 1 (s.fld (Reg.TIM_SYNCTMO d) 16 16) ≤ s.nowNs)

/-- HOLDOVER_EXPIRY: HOLDMAX passes; the domain becomes FREERUN (R229). -/
def execHoldoverExpiry (d : Fin 4) (s : State) : Host.Outcome State Fault Refusal :=
  .next (if s.domState d.val ≠ 2 ∨ s.holdoverDue d.val = false then s
    else
      (((s.setDomState d.val 0).setLockRun d.val 0).bump Cnt.TIM_LOCK_LOSS).fault 0x2181 0)

/-- TIME_SET: TIM_SETCTL GO sets the time of a GRANDMASTER domain, as a step; ignored otherwise and
counted SAMPLE_REJ (R230). -/
def State.setTime (s : State) (d : Nat) : State :=
  if s.domState d ≠ 3 then (s.bump Cnt.TIM_SAMPLE_REJ).monEvent 0x242
  else
    let old := s.wNow d
    let k := (s.dom d).clk
    let s := s.setDom d { s.dom d with setAt := some s.nowNs }
    (s.putClock d { w0 := s.rdTime (Reg.TIM_SETTIME_ns d), lt0 := s.lt, rho := k.base, base := k.base }).stepped
      d old

/-- TIME_SET (R230). -/
def execTimeSet (m : Master) (d : Fin 4) (s : State) : Host.Outcome State Fault Refusal :=
  .next (guardReg m (Reg.TIM_SETCTL d.val) (fun s => s.setTime d.val) s)

/-- GM of an enabled domain decides between GRANDMASTER and the other states: set makes it
GRANDMASTER, cleared in GRANDMASTER makes it FREERUN (R226, R230). -/
def State.checkGm (s : State) (d : Nat) : State :=
  if !s.domEn d then s
  else if s.bit (Reg.TIM_DOMCFG d) 1 then
    (if s.domState d = 3 then s
      else ((s.setDom d { s.dom d with cand := none }).setLockRun d 0).setDomState d 3)
  else if s.domState d = 3 then s.setDomState d 0
  else s

/-- TIM_DOMCFG.EN written 1: the domain starts in FREERUN at rate 0, continuing from LT (R225). -/
def State.enableDomain (s : State) (d : Nat) : State :=
  if s.domEn d then s
  else
    ((s.setBit (Reg.TIM_DOMCFG d) 0 true).putClock d { w0 := s.lt, lt0 := s.lt }).checkGm d

/-- DOMAIN_ENABLE (R225). -/
def execDomainEnable (m : Master) (d : Fin 4) (s : State) : Host.Outcome State Fault Refusal :=
  .next (guardReg m (Reg.TIM_DOMCFG d.val) (fun s => s.enableDomain d.val) s)

/-- TIM_DOMCFG.EN written 0: a step to LT that clears rate, anchor, candidate and LOCKRUN (R225). -/
def State.disableDomain (s : State) (d : Nat) : State :=
  if !s.domEn d then s
  else
    let old := s.wNow d
    let s := (s.setBit (Reg.TIM_DOMCFG d) 0 false).putClock d {}
    let s := (s.setDom d {}).setLockRun d 0
    (s.stepped d old).setDomState d 0

/-- DOMAIN_DISABLE (R225). -/
def execDomainDisable (m : Master) (d : Fin 4) (s : State) : Host.Outcome State Fault Refusal :=
  .next (guardReg m (Reg.TIM_DOMCFG d.val) (fun s => s.disableDomain d.val) s)

/-- TIM_SNAPCTL GO: LT and all four working clocks, with STEPCNT (R240). -/
def State.snapTimes (s : State) : State :=
  (List.range 4).foldl
    (fun acc d => (acc.wrTime (Reg.TIM_SNAPD_ns d) (s.wNow d)).wrN (Reg.TIM_SNAPD_w3 d)
      (s.fld (Reg.TIM_DSTAT d) 8 8))
    (s.wrTime Reg.TIM_SNAPLT_ns s.lt)

/-- TIME_SNAPSHOT (R240). -/
def execTimeSnapshot (m : Master) (s : State) : Host.Outcome State Fault Refusal :=
  .next (guardReg m Reg.TIM_SNAPCTL State.snapTimes s)

/-- TIM_CONVCTL GO: an LT value converted with the domain's current parameters (R236). -/
def State.convert (s : State) (d : Nat) : State :=
  ((s.setFld Reg.TIM_CONVCTL 0 2 d).wrTime Reg.TIM_CONVOUT_ns
    (s.wAt d (s.rdTime Reg.TIM_CONVIN_ns))).wrN Reg.TIM_CONVSTAT (s.fld (Reg.TIM_DSTAT d) 8 8)

/-- TIME_CONVERT (R236). -/
def execTimeConvert (m : Master) (d : Fin 4) (s : State) : Host.Outcome State Fault Refusal :=
  .next (guardReg m Reg.TIM_CONVCTL (fun s => s.convert d.val) s)

/-- LT_ALIGN_FLIT: the Edge die's copy of LT is realigned by `moved` units of 2^-16 ns, with `residual`
left, at most 1 ns; a realignment of more than 2 ns after a retrain is reported (R233). -/
def execLtAlignFlit (moved residual : Int) (s : State) : Host.Outcome State Fault Refusal :=
  .next (if s.traverse.state ≠ .up then s
    else
      let far := s.tim.realign && decide (2 * nsUnits < moved.natAbs)
      let s := { s with
        tim := { s.tim with
          edgeSkew := clampInt (-(nsUnits : Int)) nsUnits residual, realign := false } }
      if far then s.fault 0x1184 0 else s)

/-- TIM_PINCFG.INMODE; 3 acts as 0. -/
def State.timeInMode (s : State) : Nat :=
  let n := s.fld Reg.TIM_PINCFG 0 2
  if n = 3 then 0 else n

/-- The capture of an edge of TIME_IN: within 2 ns, at a resolution of 0.5 ns (R231, R237). -/
def State.edgeTime (s : State) (error : Int) : Nat :=
  ((s.lt : Int) + clampInt (-(2 * nsUnits : Int)) (2 * nsUnits) error).toNat / 32768 * 32768

/-- An edge of TIME_IN is captured and counted (R237). -/
def State.captureEdge (s : State) (t : Nat) : State :=
  ((s.wrTime Reg.TIM_INTS_ns t).setBit Reg.TIM_INSTAT 0 true).bump Cnt.TIM_TIME_IN_EDGES

/-- An edge of TIME_IN disciplines its domain: DISC, and the domain GRANDMASTER (R237). -/
def State.disciplines (s : State) : Bool :=
  s.bit Reg.TIM_PINCFG 4 && s.domState (s.fld Reg.TIM_PINCFG 2 2) == 3

/-- TIME_IN_EDGE in 1PPS mode: with DISC set applied to its GRANDMASTER domain as a sample, but not in the
cycle of a SETTIME (R237, R240). -/
def State.ppsEdge (s : State) (error : Int) : State :=
  let t := s.edgeTime error
  let d := s.fld Reg.TIM_PINCFG 2 2
  let s := s.captureEdge t
  if s.disciplines && (s.dom d).setAt != some s.nowNs then
    (s.sample d t (tkPerSec * s.rdN Reg.TIM_TODSEC)).wr Reg.TIM_TODSEC (s.rd Reg.TIM_TODSEC + 1)
  else s

/-- The rate at which an interval of local time is 1 s of W_d (R225, R237). -/
def rateFor (dl : Nat) : Int := clampRho (Int.fdiv (((tkPerSec : Int) - dl) * 2 ^ 40) (max dl 1))

/-- TIME_IN_EDGE in 10 MHz mode: with DISC set the rate of the GRANDMASTER domain is steered, at the end of
each 10,000,000 cycles to that at which they are 1 s (R237).
DESIGN CHOICE, unsafe (log entry 72). -/
def State.cycleEdge (s : State) (error : Int) : State :=
  let t := s.edgeTime error
  let d := s.fld Reg.TIM_PINCFG 2 2
  let s := s.captureEdge t
  if !s.disciplines then { s with tim := { s.tim with cycles := 0, cycleRef := none } }
  else
    match s.tim.cycleRef with
    | none => { s with tim := { s.tim with cycles := 0, cycleRef := some t } }
    | some r =>
      if s.tim.cycles + 1 < 10000000 then
        { s with tim := { s.tim with cycles := s.tim.cycles + 1 } }
      else
        let rho := rateFor (t - r)
        { s with tim := { s.tim with cycles := 0, cycleRef := some t } }.putClock d
          ((s.dom d).clk.continued s.lt rho rho)

/-- TIME_IN_EDGE (R237).
DESIGN CHOICE, unsafe (log entry 72). -/
def execTimeInEdge (error : Int) (s : State) : Host.Outcome State Fault Refusal :=
  .next (
    let s' := { s with tim := { s.tim with timeInLast := some s.lt } }
    match s.timeInMode with
    | 1 => s'.ppsEdge error
    | 2 => s'.cycleEdge error
    | _ => s)

/-- An edge came within the loss time: 1.5 s in 1PPS mode, 10 µs in 10 MHz mode. -/
def State.timeInFresh (s : State) : Bool :=
  match s.tim.timeInLast with
  | some t => decide (s.lt < t + (if s.timeInMode = 1 then 1500000000 else 10000) * nsUnits)
  | none => false

/-- TIME_IN_LOSS: with DISC set the input is lost (R237). -/
def execTimeInLoss (s : State) : Host.Outcome State Fault Refusal :=
  .next (if s.timeInMode = 0 ∨ s.bit Reg.TIM_PINCFG 4 = false ∨ s.timeInFresh then s
    else
      let s := { s with tim := { s.tim with timeInLast := none, cycles := 0, cycleRef := none } }
      (s.setBit Reg.TIM_INSTAT 1 true).fault 0x2182 0)

/-- TIM_PINCFG.OUTMODE; 3 acts as 0. -/
def State.timeOutMode (s : State) : Nat :=
  let n := s.fld Reg.TIM_PINCFG 8 2
  if n = 3 then 0 else n

/-- The period of TIME_OUT, and how long it is high: 1 s and PWIDTH ms, or 100 ns and 50 ns (R238). -/
def State.timeOutPeriod (s : State) : Nat × Nat :=
  if s.timeOutMode = 1 then
    (tkPerSec, max (50 * nsUnits) (1000000 * nsUnits * s.fld Reg.TIM_PINCFG 16 8))
  else (100 * nsUnits, 50 * nsUnits)

/-- An edge of TIME_OUT is due: a rising one within 2 ns of a multiple of the period in W of OUTDOM, a falling
one from 2 ns before the end of the high time, when the pulse has lasted 50 ns (R238). -/
def State.timeOutDue (s : State) : Bool :=
  let w := s.wNow (s.fld Reg.TIM_PINCFG 10 2)
  let n := s.timeOutPeriod
  if s.tim.timeOut then
    decide (n.2 ≤ w % n.1 + 2 * nsUnits) && decide (s.tim.timeOutRise + 50 * nsUnits ≤ s.lt)
  else decide ((w + 2 * nsUnits) % n.1 ≤ 4 * nsUnits)

/-- TIME_OUT_PULSE: the next edge of TIME_OUT, in the direction that its level leaves, when it is due; off,
the pin is low (R238).
DEDUCED, unsafe (log entry 147). -/
def execTimeOutPulse (s : State) : Host.Outcome State Fault Refusal :=
  .next (
    if s.timeOutMode = 0 then { s with tim := { s.tim with timeOut := false } }
    else if !s.timeOutDue then s
    else
      { s with tim := { s.tim with
          timeOut := !s.tim.timeOut
          timeOutRise := if s.tim.timeOut then s.tim.timeOutRise else s.lt } })

/-- OSC_DEVIATION (R241). -/
def execOscDeviation (s : State) : Host.Outcome State Fault Refusal := .next (s.fault 0x3183 0)

end Sys2Proof.Machine
end

