-- ==== Sys2Proof/Machine/StartOps.lean ====
section
/-!
DEFINITION. What a reset of the Core die keeps, and the two kinds of start: the cold start of the boot ROM
and the resume start (R385, R412 to R419, R430, R483).
-/

namespace Sys2Proof.Machine

open Sys2Proof

/-! ## What a reset keeps (R385, R483) -/

/-- Blocks whose tables and configuration are in the fast-resume retention (R385, R418). -/
def retainedBlock (b : Nat) : Bool := (decide (4 ≤ b) && decide (b ≤ 0x19)) || b == 0x24 || b == 0x25

/-- The word of a retained register after a resume start: configuration fields as they were, the rest at
reset; key and job contexts, and data memory, are not retained; every SA reads EN 0 (R258, R385). -/
def retainWord (key : Nat) (w : Word) : Word :=
  let b := key / 0x100000
  let off := key % 0x100000
  if (b = 0x19 ∧ 0x40000 ≤ off) ∨ (0x11 ≤ b ∧ b ≤ 0x13) ∧ 0x40000 ≤ off then resetWord key
  else
    match rowAt key with
    | none => resetWord key
    | some r =>
      let v := r.fields.foldl (fun acc f =>
        if f.ty = .rw ∨ f.ty = .cfg ∨ f.ty = .own then
          setBits acc f.lo f.width (getBits w f.lo f.width)
        else acc) (resetWord key)
      if b = 0x19 ∧ 0x20000 ≤ off ∧ off < 0x30000 ∧ off % 32 = 0 then putBit v 0 false
      else if 4 ≤ b ∧ b ≤ 7 ∧ 0x10000 ≤ off ∧ off % 0x1000 = 0x18 then putBit v 1 false
      else v

/-- A live word after a resume start, at which generation 0 is CURRENT (R132, R483): the banks and the TCAM
bits of the generation that was current become those of generation 0, and other generations have none.
DESIGN CHOICE, unsafe (log entry 123). -/
def retainLive (g : Nat) (e : Nat × Word) : Option (Nat × Word) :=
  let bank := e.1 / bankSpan
  let key := e.1 % bankSpan
  if !retainedBlock (key / 0x100000) then none
  else if bank < 4 then (if bank = g then some (key, e.2) else none)
  else if Reg.CLS_TCAM_w20 0 ≤ key ∧ key < Reg.CLS_TCAM_w20 4096 ∧ (key - Reg.CLS_TCAM_w20 0) % 128 = 0 then
    some (e.1, setBits e.2 0 4 (b2n (getBit e.2 g)))
  else some e

/-- The registers that a start finds: those of the Edge die and of the wake unit, nonvolatile state, and at
a resume start what was retained.
DEDUCED, unsafe (log entry 103). -/
def State.keptRegs (s : State) (edge resume : Bool) : Store Word :=
  let stays := fun (k : Nat) =>
    let b := k / 0x100000
    b == 0x26 || (edge && (b == 0x1C || b == 0x1D)) || k == Reg.BOOT_STARTS || k == Reg.BOOT_SESSION ||
      k == Reg.NVS_BBHEAD_L || k == Reg.NVS_BBHEAD_H ||
      (decide (Reg.VLT_SLOTSTAT 0 ≤ k) && decide (k < Reg.VLT_SLOTSTAT 512)) ||
      (resume && decide (Reg.CPX_TCM 0 0 ≤ k) && decide (k < Reg.CPX_TCM 1 0))
  let plain := s.regs.filter (fun e => stays e.1)
  let kept := if resume then
      (s.regs.filter (fun e => retainedBlock (e.1 / 0x100000))).map
        (fun e => (e.1, retainWord e.1 e.2))
    else []
  let base := Store.setAll resetWord (Store.setAll resetWord [] plain) kept
  let base := Store.set resetWord base Reg.BOOT_STATE (s.rd Reg.BOOT_STATE &&& 0x1F)
  Store.set resetWord base Reg.NVS_BBSTAT (BitVec.ofNat 32 s.box.areas.length)

/-- Memory that keeps its content without power: MRAM and flash. -/
def nonvolatile (a : Nat) : Bool :=
  (decide (0x10000000 ≤ a) && decide (a < 0x10800000)) ||
    (decide (0x60000000 ≤ a) && decide (a < 0x70000000))

/-- The engines' memories that a start finds: the wake sequencer's, and at a resume start all of them. -/
def RitikState.kept (r : RitikState) (resume : Bool) : RitikState :=
  { threads := r.threads.filter (fun e => e.1 == 200)
    mem := r.mem.filter (fun e => resume || decide (16384 ≤ e.1))
    entries := r.entries.filter (fun e => resume || e.1 == 2)
    loads := r.loads.filter (fun e => e.1 == 3) }

/-- The state right after a reset of the Core die, before its start: locks, measurement registers and every
counter at their reset values. `edge` says that the Edge die's gateway kept its state.
DESIGN CHOICE, unsafe (log entry 17). -/
def State.coreReset (s : State) (edge resume : Bool) : State :=
  { pending := s.pending, variant := s.variant, nowNs := s.nowNs, freeCtr := s.freeCtr
    regs := s.keptRegs edge resume
    live := if resume then
        Store.setAll liveDefault [] (s.live.filterMap (retainLive (s.fld Reg.CLS_GENSTAT 0 2)))
      else []
    mem := s.mem.filter (fun e => nonvolatile e.1)
    aonQueue := s.aonQueue, powerLinkA := s.powerLinkA, powerLinkB := s.powerLinkB
    supply := s.supply, rtc := s.rtc
    tim := { ltSec := s.rtcSec, ltStart := s.nowNs }
    rtk := s.rtk.kept resume
    tm := if resume then
        { ports := s.tm.ports.filterMap (fun e =>
            match e.2.oper with
            | some a => some (e.1, { oper := some a })
            | none => none) }
      else {}
    power := { s.power with dieA := { s.power.dieA with queue := [], stateRead := false }
                            dieB := { s.power.dieB with queue := [], stateRead := false } }
    wak := { s.wak with
      seg := { seenAt := s.nowNs }, topRing := { seenAt := s.nowNs }, deadline := none, maxed := false
      chairAt := none, lateAbort := none
      wakeSent := [] }
    vlt := { slots := s.vlt.slots, record := s.vlt.record, rootNo := s.vlt.rootNo
             extends_ := if resume then s.vlt.extends_ else []
             openSamples := s.vlt.openSamples, pendingTamper := s.vlt.pendingTamper }
    box := s.box
    gwy := if edge then s.gwy else {}
    hbr := { perst := s.hbr.perst } }

/-! ## Islands of the power states (R14, R383) -/

/-- The ports of a port group's island. -/
def islandPorts (g : Nat) : List Nat := (List.range 32).filter (fun p => portGroup p == g)

/-- Port `p` runs in Pewter: WAK_PEWPORTS. -/
def State.pewterPort (s : State) (p : Nat) : Bool := s.bit Reg.WAK_PEWPORTS p

/-- An island runs in a power state: 2 Pewter, 3 Ivory. The island of the first port group of an instance
serves its control page, and runs whenever any port of the instance runs (R72). -/
def State.runsIn (s : State) (state : Nat) (i : Island) : Bool :=
  if state = 3 then true
  else
    match i with
    | .pg0 => (List.range 12).any s.pewterPort
    | .pg1 => (islandPorts 1).any s.pewterPort
    | .pg2 => (islandPorts 2).any s.pewterPort
    | .pg3 => (List.range 28).any (fun p => decide (12 ≤ p) && s.pewterPort p)
    | .pg4 => (islandPorts 4).any s.pewterPort
    | .cipher => (List.range 32).any (fun p => s.pewterPort p && s.secyActive p)
    | .app | .mem => false
    | _ => true

/-- A word of the cipher engine's block across a stop of its island: SAs read EN 0, key and job contexts are
lost (R258). -/
def cipherWord (key : Nat) (w : Word) : Word :=
  let off := key % 0x100000
  if 0x40000 ≤ off then resetWord key
  else if 0x20000 ≤ off ∧ off < 0x30000 ∧ off % 32 = 0 then putBit w 0 false
  else w

/-- The CIPHER island loses what it does not keep: SAs read EN 0 with their NEXTPN, and every key context
reads EMPTY (R258). -/
def State.loseCipher (s : State) : State :=
  let lo := regKey 0x19 0
  let hi := regKey 0x1A 0
  { s with
    regs := Store.setAll resetWord (Store.clear s.regs lo hi)
      ((Store.slice s.regs lo hi 0 0).map (fun e => (e.1, cipherWord e.1 e.2)))
    cip := { s.cip with keys := [], jobs := [] } }

/-- The app cluster's units are off with their island. -/
def State.appOff (s : State) : State :=
  (List.range 4).foldl (fun acc u =>
    if acc.unitState u = 7 then acc else (acc.setRun u false).setUnit u 0) s

/-- An island stops. -/
def State.stopIsland (s : State) (i : Island) : State :=
  let s := s.setIsland i .stopped
  match i with
  | .mem => { s with fab := { s.fab with memReady := false } }
  | .app => s.leaveApp.appOff.unitFlags
  | .cipher => s.loseCipher
  | _ => s

/-- A stopped island begins to restart. -/
def State.requestIsland (s : State) (i : Island) : State :=
  if s.island i = .stopped then s.setIsland i .restarting else s

/-- An island as a power state has it: one that does not run there stops, one that does is requested. -/
def State.placeIsland (s : State) (state : Nat) (i : Island) : State :=
  if s.runsIn state i then s.requestIsland i
  else if s.island i = .stopped then s else s.stopIsland i

/-- Ports that a power state does not run are down, and enabled ports that it runs start (R14). -/
def State.placePorts (s : State) (state : Nat) : State :=
  let runs := fun (p : Nat) => decide (state = 3) || s.pewterPort p
  let s := ((List.range 32).filter (fun p =>
      s.hasPort p && runs p && s.pen p && s.blkEn (prtBlk p) && s.lstate p == 0)).foldl State.startPort s
  ((List.range 32).filter (fun p =>
    s.hasPort p && !runs p && s.lstate p != 0)).foldl State.stopPort s

/-- In Pewter the PORT islands follow WAK_PEWPORTS, and CIPHER the SecYs of the running ports (R14). -/
def State.followPewter (s : State) : State :=
  if s.cur ≠ 2 ∨ s.trans = true ∨ s.coreHeld = true then s
  else
    ([Island.pg0, .pg1, .pg2, .pg3, .pg4, .cipher].foldl
      (fun acc i => acc.placeIsland 2 i) s).placePorts 2

/-- The islands restart toward a power state; SYSTEM and the Edge die run already. -/
def State.restartIslands (s : State) (state : Nat) (app : Bool) : State :=
  let s := coreIslands.foldl (fun acc i =>
    acc.setIsland i
      (if i = .system then .running
       else if s.runsIn state i || (app && (i == .app || i == .mem)) then .restarting
       else .stopped)) s
  s.setIsland .edge .running

/-! ## Image checks (R414) -/

/-- The loader component of a manifest: of type 9 for a recovery image, else of type 1. -/
def loaderComp (m : List Byte) : Nat :=
  ((List.range (manCount m)).find? (fun i => comp m i 2 1 == (if manFlag m 2 then 9 else 1))).getD 0

/-- The manifest of a slot, or of the recovery region, when every check of the boot ROM passes. -/
def State.bootable (s : State) (slot : Nat) : Option (List Byte) :=
  match s.slotManifest slot with
  | none => none
  | some m =>
    let i := loaderComp m
    if manFlag m 2 == (slot == 2) && s.manVerifies m (natAt m 0xC 1) && s.manTargets m &&
        decide (s.arc (comp m i 4 1) ≤ comp m i 8 4) &&
        Config.sha384 (s.installed slot m i) == compResult m i then some m
    else none

/-! ## The cold start (R413 to R415, R419, R430) -/

/-- The marker that MR7 is extended with: NORMAL, TRIAL, RECOVERY or TAMPER-HOLD, padded to 48 bytes. -/
def markerBytes (k : Nat) : List Byte :=
  let t := ascii (match k with
    | 0 => "NORMAL" | 1 => "TRIAL" | 2 => "RECOVERY" | _ => "TAMPER-HOLD")
  t ++ List.replicate (48 - t.length) 0

/-- The main processor starts: split mode from the manifest, its watchdog, its release (R331, R413, R450). -/
def State.startMain (s : State) (split : Bool) : State :=
  let s := s.wr Reg.CPX_APPMODE (BitVec.ofNat 32 (b2n split))
  let s := (s.wrN (Reg.FLT_WDOG 0) 1000).watchdogStart 0
  (s.releaseUnit 0).unitFlags

/-- Steps 4 to 7 with the image chosen: measurement registers, the loader and the manifest copied to
on-chip SRAM at addresses that are open, and the main processor. -/
def State.runImage (s : State) (slot marker : Nat) (m : List Byte) : State :=
  let s := (s.setFld Reg.BOOT_STATE 5 2 slot).setBit Reg.BOOT_STATE 8 (marker == 3)
  let s := s.setFld Reg.BOOT_STATE 9 2 marker
  let i := loaderComp m
  let s := ((s.extendMr 7 (markerBytes marker)).extendMr 0 (manDigest m)).extendMr 0 (compResult m i)
  let n := s.freeCtr
  let at_ := fun (k : Nat) => 0x20000000 + Config.freeNat k % 0x300000
  let s := ({ s with freeCtr := n + 2 }.wrMem (at_ n) (s.installed slot m i)).wrMem (at_ (n + 1)) m
  (s.bootRecord 3).startMain (manFlag m 0)

/-- The recovery image, or the halt when it fails too. -/
def State.runRecovery (s : State) (marker : Nat) : State :=
  let s := s.setFld Reg.MON_MODE 0 2 3
  match s.bootable 2 with
  | some m => (if marker = 2 then s.fault 0x33C4 0 else s).runImage 2 marker m
  | none => { s with boot := { s.boot with halted := true } }.fault 0x43C5 0

/-- The ACTIVE slot, the other slot, or recovery. -/
def State.runActive (s : State) : State :=
  match s.bootable s.activeSlot with
  | some m => s.runImage s.activeSlot 0 m
  | none =>
    let s := s.fault 0x23C3 0
    match s.bootable s.inactiveSlot with
    | some m => s.runImage s.inactiveSlot 0 m
    | none => s.runRecovery 2

/-- The fallback of a trial (R430). -/
def State.fallback (s : State) : State :=
  let s := (s.setBit Reg.BOOT_STATE 2 false).abortSession
  ((s.fault 0x23C2 0).bump Cnt.BOOT_FALLBACKS).bootRecord 4

/-- The slot chosen (R414, R430).
DEDUCED, unsafe (log entry 108). -/
def State.bootSlots (s : State) : State :=
  if s.trial then
    let n := s.fld Reg.BOOT_STATE 3 2
    if n < 3 then
      let s := s.setFld Reg.BOOT_STATE 3 2 (n + 1)
      match s.bootable s.pendingSlot with
      | some m => s.runImage s.pendingSlot 1 m
      | none => s.fallback.runActive
    else s.fallback.runActive
  else s.runActive

/-- The state that the module starts toward. -/
def State.startTarget (s : State) : Nat := if s.trans then s.fld Reg.WAK_STATE 2 2 else s.cur

/-- Tamper was detected while the Core die was off, or the loop is open: the vault zeroizes first (R290,
R291). -/
def State.startTamper (s : State) : State :=
  let opened := decide (s.vlt.openSamples = 2)
  let s := s.setBit Reg.VLT_STAT 3 opened
  if opened || s.vlt.pendingTamper then
    { s.tamper with vlt := { s.tamper.vlt with pendingTamper := false } }
  else s

/-- What every start does first: the start count, STARTUP, faults kept while the Core die was off, wake
records into the black box, and the end of a session before TRIAL (R386, R393, R395, R412, R439, R458).
DESIGN CHOICE, unsafe (log entry 105). -/
def State.startCommon (s : State) : State :=
  let s := (s.wrN Reg.BOOT_STARTS (s.rdN Reg.BOOT_STARTS + 1)).setFld Reg.MON_MODE 0 2 1
  let s := s.startTamper
  let s := if 1 ≤ s.session ∧ s.session ≤ 3 then s.abortSession else s
  let s := match s.wak.trapFault with
    | some (c, d) => { s with wak := { s.wak with trapFault := none } }.fault c d
    | none => s
  let s := if s.wak.rtcLost then
      { s with wak := { s.wak with rtcLost := false } }.fault 0x2352 0
    else s
  let s := s.wak.unboxed.foldl (fun acc r =>
    let n := acc.freeCtr
    { acc with freeCtr := n + 6 }.blackBox 2 ((Config.freeWord n).toNat % 65536) false
      ((Config.freeWord (n + 5)).toNat % 64)
      ([acc.rd (Reg.WAK_REC_w0 r), acc.rd (Reg.WAK_REC_w1 r), acc.rd (Reg.WAK_REC_w2 r),
        acc.rd (Reg.WAK_REC_w3 r)] ++ (List.range 4).map (fun i => Config.freeWord (n + 1 + i)))) s
  ({ s with wak := { s.wak with unboxed := [] } }).setGstat 0
    (!s.supply.feedAOk || !s.supply.feedBOk)

/-- The cold start. -/
def State.coldStart (s : State) : State :=
  let s := s.startCommon.setBit Reg.WAK_STATE 5 false
  let s := s.restartIslands s.startTarget true
  let s := if s.startTarget = 2 then s.beginTrans 2 else s
  if s.vlt.record && !s.loopOpen then s.bootSlots
  else
    let s := s.fault 0x33C6 0
    s.runRecovery 3

/-! ## The resume start (R418) -/

/-- The start is a wake from Slate or Umber by a source other than POWER. -/
def State.resumeTried (s : State) : Bool :=
  decide (s.cur < 2) && s.trans &&
    (match s.wak.waking with
     | some r => s.fld (Reg.WAK_REC_w0 r) 0 8 != 9
     | none => true)

/-- The boot ROM accepts the retention image. -/
def State.resumeOk (s : State) : Bool :=
  s.vlt.record && !s.vlt.pendingTamper && decide (s.vlt.openSamples < 2) &&
    decide (s.vlt.extends_.length ≤ 32) &&
    (match s.boot.retention with
     | none => false
     | some (slot, digest) =>
       slot == (if s.trial then s.pendingSlot else s.activeSlot) &&
         (match s.slotManifest slot with
          | some m => manDigest m == digest
          | none => false))

/-- The recorded EXTENDs are made again. -/
def State.replayExtends (s : State) : State :=
  s.vlt.extends_.foldl (fun acc e => acc.extendMr e.1 e.2) { s with vlt := { s.vlt with extends_ := [] } }

/-- Blocks and domains that were enabled work again, from their retained configuration. -/
def State.restartBlocks (s : State) : State :=
  let blocks := (List.range 128).filter (fun b => retainedBlock b && s.blkPresent b && s.blkEn b)
  let s := blocks.foldl State.enableEffects s
  ((List.range 4).filter (fun d => s.bit (Reg.TIM_DOMCFG d) 0)).foldl
    (fun acc d => (acc.setBit (Reg.TIM_DOMCFG d) 0 false).enableDomain d) s

/-- The resume start: `slot` is the slot in force. -/
def State.resumeStart (s : State) (slot : Nat) : State :=
  let s := s.startCommon.setBit Reg.WAK_STATE 5 true
  let s := s.restartIslands s.startTarget false
  let s := ((s.setFld Reg.BOOT_STATE 5 2 slot).setBit Reg.BOOT_STATE 7 true).setFld Reg.BOOT_STATE 9 2
    (b2n s.trial)
  let s := s.replayExtends.bootRecord 3
  (s.restartBlocks.releaseUnit 4).unitFlags

/-- A start of the Core die: a reset, then a resume start or a cold start (R385, R412). -/
def State.startCore (s : State) (edge : Bool) : State :=
  let tried := s.resumeTried
  let slot := (s.boot.retention.map (fun x => x.1)).getD 0
  let asleep := decide (s.cur < 2)
  if tried && s.resumeOk then (s.coreReset (edge && !asleep) true).resumeStart slot
  else
    let s := (s.coreReset (edge && !asleep) false)
    (if tried then s.fault 0x2353 0 else s).coldStart

end Sys2Proof.Machine
end

