-- ==== Sys2Proof/Machine/Enable.lean ====
section
/-!
DEFINITION. Block enable and quiesce (R36).
-/

namespace Sys2Proof.Machine

open Sys2Proof

/-- BLK_ENABLE: EN is written 1. -/
def execBlkEnable (m : Master) (blk : Fin 128) (s : State) : Host.Outcome State Fault Refusal :=
  .next (guardEdge m (Reg.BLK_CTRL blk.val) (some 0) 1 (fun s => s.enableBlk blk.val) s)

/-- BLK_QUIESCE_START: EN is written 0. -/
def execBlkQuiesceStart (m : Master) (blk : Fin 128) (s : State) :
    Host.Outcome State Fault Refusal :=
  .next (guardEdge m (Reg.BLK_CTRL blk.val) (some 0) 0 (fun s => s.quiesceBlk blk.val) s)

/-- BLK_QUIESCE_DONE: the operations in flight have completed. With CIP no SecY is active any more, so that in
Pewter its island stops (R14, R244). -/
def execBlkQuiesceDone (blk : Fin 128) (s : State) : Host.Outcome State Fault Refusal :=
  .next (if s.blkQuiescing blk.val && s.quiesced blk.val then
      (if blk.val = 0x19 then (s.disableBlk blk.val).followPewter else s.disableBlk blk.val)
    else s)

end Sys2Proof.Machine
end

