-- ==== Sys2Proof/Machine/Engine.lean ====
section
/-!
DEFINITION. The packet engines' commands: dispatch, the start of a program, completion of lookups and
meter requests, and the program time limit (R174 to R180, R186, R187, R192).
-/

namespace Sys2Proof.Machine

open Sys2Proof

/-- The thread a frame is dispatched to (R174). -/
def threadOf (h : Word) : Nat := h.toNat / 65536 * 192 / 65536

/-- The cluster of a packet thread accepts frames (R176). -/
def State.clusterUp (s : State) (t : Nat) : Bool := s.blkAccepts (0x11 + t / 64)

/-- A thread's dispatch queue. -/
def State.dispatchQueue (s : State) (t : Nat) : List Nat := Store.get (fun _ => []) s.rtk.queues t

/-- The state with a dispatch queue replaced. -/
def State.setDispatchQueue (s : State) (t : Nat) (l : List Nat) : State :=
  { s with rtk := { s.rtk with queues := Store.set (fun _ => []) s.rtk.queues t l } }

/-- The frame that stalls a lane, if any (R175). -/
def State.laneStall (s : State) (lane : Nat) : Option Nat := Store.get (fun _ => none) s.cls.stall lane

/-- The state with a lane's stall replaced. -/
def State.setLaneStall (s : State) (lane : Nat) (f : Option Nat) : State :=
  { s with cls := { s.cls with stall := Store.set (fun _ => none) s.cls.stall lane f } }

/-- A frame trapped RTK_OFFLINE (R176). -/
def State.offline (s : State) (f : Nat) (v : Frame) : State :=
  (s.bump Cnt.RTK_RTK_OFFLINE).engineException f 0x0A v.hash

/-- FRAME_DISPATCH: into the thread's queue, in the order of classification; a full queue stalls the lane, and
a frame for an offline cluster is trapped (R107, R175, R176).
DEDUCED, unsafe (log entry 156). -/
def execFrameDispatch (f : FrameId) (s : State) : Host.Outcome State Fault Refusal :=
  .next (match s.frame f with
    | none => s
    | some v =>
      let lane := laneOf v
      if v.stage ≠ .toDispatch || !s.blkAccepts 0x10 || !s.up .classify ||
          s.heldUpAt f v [.toDispatch] false then s
      else if (s.laneStall lane).any (fun x => x != f) then s
      else
        let t := threadOf v.hash
        if !s.clusterUp t then (s.setLaneStall lane none).offline f v
        else if 16 ≤ (s.dispatchQueue t).length then s.setLaneStall lane (some f)
        else
          ((((s.setLaneStall lane none).setDispatchQueue t (s.dispatchQueue t ++ [f])).setFrame f
            { v with stage := .waiting }).bump Cnt.RTK_DISPATCH).monEvent (0x180 + t / 64))

/-- HLOAD of an action record in bytes: 0 acts as 4, and 9 to 15 as 8 (R177). -/
def headerLoad (w0 : Word) : Nat :=
  let n := getBits w0 12 4
  32 * (if n = 0 then 4 else min n 8)

/-- An action record with an uncorrectable word is treated as VALID 0 (R195). -/
def State.recordGood (s : State) (a : Nat) : Bool :=
  getBit (s.rdLive liveBank (Reg.RTK_ACTION_w0 a)) 16 &&
    !s.cellBad (.live liveBank (Reg.RTK_ACTION_w0 a)) &&
    (List.range 7).all (fun j => !s.cellBad (.live liveBank (Reg.RTK_ACTION_w1_7 a j)))

/-- The metadata words at entry: M[0] and M[15] beside those of classification, the record's
constants, and the words a recirculation carried (R180). -/
def State.entryWords (s : State) (v : Frame) (a : Nat) : Store Word :=
  let m0 := v.len % 2 ^ 14 + 2 ^ 14 * b2n v.tailIn + 2 ^ 16 * v.inPort + 2 ^ 22 * v.gen
    + 2 ^ 24 * b2n v.rcPass + 2 ^ 25 * (v.rcCount % 8) + 2 ^ 28 * b2n v.macsecV
    + 2 ^ 29 * b2n (v.inPort == 34)
  let base := setAt (setAt v.mwords 0 (BitVec.ofNat 32 m0)) 15
    (BitVec.ofNat 32 (tkNs (s.wAt 0 v.rxTime)))
  let args := (List.range 6).map (fun j => s.rdLive liveBank (Reg.RTK_ACTION_w1_7 a (j + 1)))
  let all := base ++ args ++ [s.rdLive liveBank (Reg.RTK_ACTION_w1_7 a 0), 0] ++ v.carried
  (List.range all.length).foldl (fun m i => Store.set (fun _ => 0) m i (all.getD i 0)) []

/-- The program of a frame starts on a thread (R177, R179, R180). An uncorrectable entry takes
PC_RANGE before the first fetch, its record holding the entry-table index (R195). -/
def State.startProgram (s : State) (t f : Nat) (v : Frame) : State :=
  let w0 := s.rdLive liveBank (Reg.RTK_ACTION_w0 v.action)
  let entry := getBits w0 0 12
  let pc := BitVec.ofNat 32 (s.fldLive liveBank (Reg.RTK_ENTRY entry) 0 15)
  let n := min (headerLoad w0) v.bytes.length
  let s := s.setFrame f
    { v with
      stage := .running, hlen0 := n, mustStore := v.mustStore || decide (128 < headerLoad w0)
      -- LEN of M[0] is exact once the tail has arrived (R180)
      len := if v.tailIn then (if v.rcPass then v.bytes.length + 4 else v.wireLen) else v.len }
  let v := (s.frame f).getD v
  let s := s.setThread t
    { Thread.started pc with startedAt := s.nowNs, frame := some f, h := v.bytes.take n, m := s.entryWords v v.action }
  if s.cellBad (.live liveBank (Reg.RTK_ENTRY entry)) then
    s.trapAt t .pcRange (BitVec.ofNat 32 entry)
  else s

/-- THREAD_START: an idle thread takes the frame at the head of its queue, reads its action record
and starts the program, or the frame is trapped (R136, R176, R177, R179). -/
def execThreadStart (t : ThreadId) (s : State) : Host.Outcome State Fault Refusal :=
  .next (match (if t.val < 192 && (s.thread t.val).status == .idle && s.blkAccepts 0x10 &&
      s.up .ritik then
      s.dispatchQueue t.val else []) with
    | [] => s
    | f :: rest =>
      let popped := s.setDispatchQueue t.val rest
      match s.frame f with
      | none => popped
      | some v =>
        if v.orphan then popped.genLost f v.hash
        else if !s.clusterUp t.val then popped.offline f v
        else if 16384 ≤ v.action || !s.recordGood v.action then
          (popped.bump Cnt.RTK_NO_ACTION).engineException f 0x0B v.hash
        else if !v.tailIn && decide (v.bytes.length <
            headerLoad (s.rdLive liveBank (Reg.RTK_ACTION_w0 v.action))) then s
        else popped.startProgram t.val f v)

/-! ## Lookups (R186, R187) -/

/-- The master of a packet engine's lookups: PMID 0x30, Indigo (R187, R337). -/
def engineMaster : Master := ⟨0x30, true⟩

/-- Result words of a hit. -/
def hitWords (tbl info : Nat) (a b c : Word) : List Word := [resultWord true false tbl info, a, b, c]

/-- A flow-table lookup: HIT on a valid entry whatever STALE and GEN (R186). -/
def State.flowRequest (s : State) (key : List Byte) : List Word × State :=
  let ws := (List.range 10).map (fun i => BitVec.ofNat 32 (natLE (bytesAt key (4 * i) 4)))
  match (if s.blkEn 0xE then s.flowFind (flowKeyOf ws) else none) with
  | some slot =>
    let e := s.flowEntry slot
    (hitWords 0 (getBits (e.getD 10 0) 0 16) (e.getD 0 0) (BitVec.ofNat 32 (getBits (e.getD 10 0) 16 16))
      (BitVec.ofNat 32 slot), s)
  | none => s.missResult false 0

/-- The base address of a user table; the low five bits must be 0 and are taken so (R187). -/
def State.tableBase (s : State) (gen t : Nat) : Nat :=
  (s.rdLive gen (Reg.RTK_TBLDESC_w1 t)).toNat / 32 * 32
    + 2 ^ 32 * s.fldLive gen (Reg.RTK_TBLDESC_w2 t) 0 8

/-- A descriptor word holds an uncorrectable error (R195). -/
def State.descBad (s : State) (gen t : Nat) : Bool :=
  s.cellBad (.live gen (Reg.RTK_TBLDESC_w0 t)) || s.cellBad (.live gen (Reg.RTK_TBLDESC_w1 t)) ||
    s.cellBad (.live gen (Reg.RTK_TBLDESC_w2 t)) || s.cellBad (.live gen (Reg.RTK_TBLDESC_w3 t))

/-- A 32-byte entry of a user table, unless its read is denied or its memory stopped (R187). -/
def State.tableEntry (s : State) (a : Nat) : Option (List Byte) :=
  if (s.memCheckRange engineMaster a 32 .read).isSome || (s.badMem a 32).isSome then none
  else some (s.rdBytes a 32)

/-- A table entry could not be read: the lookup failed, and an uncorrectable error in it is reported (R24,
R187). -/
def State.tableFault (s : State) (a : Nat) : State :=
  let s := s.bump Cnt.RTK_LKUP_ERR
  match s.badMem a 32 with
  | some x => s.badRead x
  | none => s

/-- The result of a table entry that hits. -/
def entryHit (tbl : Nat) (e : List Byte) : List Word :=
  let w := fun i => BitVec.ofNat 32 (natLE (bytesAt e (4 * i) 4))
  hitWords tbl (getBits (w 4) 16 16) (w 5) (w 6) (w 7)

/-- VALID of a table entry. -/
def entryValid (e : List Byte) : Bool := (e.getD 16 0).getLsbD 0

/-- Search a bucket of four entries from address `a`: the lowest VALID entry whose KEY matches. An
entry that cannot be read ends the lookup with ERR. -/
def State.bucketSearch (s : State) (tbl a : Nat) (key : List Byte) : List Nat → List Word × State
  | [] => s.missResult false tbl
  | i :: rest =>
    match s.tableEntry (a + 32 * i) with
    | none => (s.missResult true tbl).map id (fun s => s.tableFault (a + 32 * i))
    | some e =>
      if entryValid e && e.take 16 == key ++ List.replicate (16 - key.length) 0 then
        (entryHit tbl e, s)
      else State.bucketSearch s tbl a key rest

/-- The banks of a thread's generation are its frame's no longer: the frame is an orphan and its generation has
been released (R136, R137). -/
def State.banksGone (s : State) (th : Thread) : Bool :=
  match th.frame.bind (fun f => s.frame f) with
  | some v => v.orphan && s.genState v.gen != 3
  | none => false

/-- The result of a lookup request at its completion (R186, R187). -/
def State.lookupResult (s : State) (gen : Nat) (r : Request) : List Word × State :=
  match s.tableType gen r.table with
  | 4 => s.flowRequest r.key
  | ty =>
    let base := s.tableBase gen r.table
    let count := s.fldLive gen (Reg.RTK_TBLDESC_w3 r.table) 0 24
    if s.descBad gen r.table || ty == 0 then
      (s.missResult true r.table).map id (fun s => s.bump Cnt.RTK_LKUP_ERR)
    else if ty = 1 then
      let k := natLE r.key
      if k < count then
        match s.tableEntry (base + 32 * k) with
        | none => (s.missResult true r.table).map id (fun s => s.tableFault (base + 32 * k))
        | some e => if entryValid e then (entryHit r.table e, s) else s.missResult false r.table
      else s.missResult false r.table
    else if count = 0 then s.missResult false r.table
    else s.bucketSearch r.table (base + 128 * (crc32c r.key % count)) r.key [0, 1, 2, 3]

/-- A thread that waits becomes ready when its wait is over after a completion (R158, R160, R161). -/
def Thread.afterCompletion (th : Thread) : Thread :=
  match th.status with
  | .waiting .requests => if th.reqs.isEmpty then { th with status := .ready } else th
  | .waiting .slot => { th with status := .ready }
  | .waiting (.word m) => if th.reserved m then th else { th with status := .ready }
  | _ => th

/-- LOOKUP_COMPLETE: request `i` of a thread completes; its result words are written, then the
stores held on them (R160, R161). A lookup issued while MEM was stopped fails (R187), and so does one for an
orphan whose generation's banks have been released.
DESIGN CHOICE, unsafe (log entry 138). -/
def execLookupComplete (t : ThreadId) (i : Fin 2) (s : State) : Host.Outcome State Fault Refusal :=
  .next (
    let th := s.thread t.val
    match th.reqs[i.val]? with
    | none => s
    | some r =>
      let res := if r.meter then
          let u := s.meterUpdate r.table (s.threadLen th) r.pre
          ([BitVec.ofNat 32 u.1], u.2)
        else if (r.denied || s.banksGone th) && 8 ≤ r.table then
          (s.missResult true r.table).map id (fun s => s.bump Cnt.RTK_LKUP_ERR)
        else s.lookupResult (s.threadGen th) r
      let th := th.writeM r.m res.1
      let th := r.held.foldl (fun acc x => acc.setM x.1 x.2) th
      let th := { th with reqs := th.reqs.eraseIdx i.val }
      let s := res.2.setThread t.val th.afterCompletion
      if r.meter then s.wakeRoom else s)

/-- RTK_BUDGET.UNITS × 16 RITIK cycles of 1.2 GHz have passed since a thread's start (R192). -/
def State.budgetSpent (s : State) (th : Thread) : Bool :=
  decide (80 * Nat.max 1 (s.fld Reg.RTK_BUDGET 0 16) ≤ 6 * (s.nowNs - th.startedAt))

/-- PROGRAM_BUDGET_EXPIRY: at its time limit a running program takes BUDGET at once, also while it waits; not
while a debugger halts it (R162, R192). -/
def execProgramBudgetExpiry (t : ThreadId) (s : State) : Host.Outcome State Fault Refusal :=
  .next (match (s.thread t.val).status with
    | .ready | .waiting _ => if t.val < 192 && s.budgetSpent (s.thread t.val) then
        (s.trapNow t.val .budget).monEvent 0x185 else s
    | _ => s)

end Sys2Proof.Machine
end

