-- ==== Sys2Proof/Machine/Faults.lean ====
section
/-!
DEFINITION. The commands of the fault collector and of the event counters (chapter *Faults, safety
reactions and counters*).
-/

namespace Sys2Proof.Machine

open Sys2Proof

/-- FAULT_REPORT: the collector takes the next report: count, log, black-box record, FAULT_N and
reactions (R448, R451, R452, R456). -/
def execFaultReport (s : State) : Host.Outcome State Fault Refusal :=
  .next (if s.coreHeld then s
    else
      match s.nextReport with
      | none => s
      | some r => { s with reports := s.reports.erase r }.collect r)

/-- ISOLATE_TIMEOUT: what an ISOLATE reaction has not quiesced 2 ms after detection is stopped, and its work
discarded. -/
def execIsolateTimeout (s : State) : Host.Outcome State Fault Refusal :=
  .next (
    let due := fun (e : Nat × Nat) => decide (e.2 + 2000000 ≤ s.nowNs)
    let s' := (s.flt.isolating.filter due).foldl
      (fun acc e => if acc.blkQuiescing e.1 then (acc.discardWork e.1).disableBlk e.1 else acc) s
    { s' with flt := { s'.flt with isolating := s.flt.isolating.filter (fun e => !due e) } })

/-- COLLECTOR_MISMATCH: FAULT_N[0] asserts directly (R447). -/
def execCollectorMismatch (s : State) : Host.Outcome State Fault Refusal :=
  .next (if s.coreHeld then s else s.assertN0.fault 0x4412 0)

/-- DATAPATH_CHECK: a check code of a frame, or an idle pattern, fails at a stage; the frame is stomped
where its head has left, and otherwise discarded and counted MEM_LOSS (R445). -/
def execDatapathCheck (stage : BitVec 32) (f : Option FrameId) (s : State) :
    Host.Outcome State Fault Refusal :=
  .next (
    let s := s.fault 0x3409 stage.toNat
    match f with
    | none => s
    | some f =>
      match s.frame f with
      | none => s
      | some v =>
        if !v.headLeft.isEmpty then s.badFrame f
        else (s.bump Cnt.FAB_MEM_LOSS).discardFrame f)

/-- HARDWARE_MONITOR_TRIP: a supply rail, the junction temperature, or an island clock (R444).
DEDUCED, unsafe (log entry 30). -/
def execHardwareMonitorTrip (t : MonitorTrip) (s : State) : Host.Outcome State Fault Refusal :=
  .next (match t with
    | .rail n => s.fault 0x2406 n.toNat
    | .junction t =>
      if 1000 < t.toNat then s.fault 0x3408 t.toNat
      else if 920 < t.toNat then s.fault 0x2407 t.toNat
      else s
    | .clock i => s.fault 0x340D (islandRow i))

/-- WATCHDOG_ENABLE: EN written 1. -/
def execWatchdogEnable (m : Master) (u : Fin 6) (s : State) : Host.Outcome State Fault Refusal :=
  .next (guardReg m (Reg.FLT_WDOG u.val) (fun s => s.watchdogStart u.val) s)

/-- WATCHDOG_KICK: the service sequence advances, completes, or counts as expiry. -/
def execWatchdogKick (m : Master) (u : Fin 6) (key : Word) (s : State) :
    Host.Outcome State Fault Refusal :=
  .next (guardReg m (Reg.FLT_WDKICK u.val) (fun s => s.watchdogKick u.val key) s)

/-- WATCHDOG_EXPIRY: TIMEOUT ms have passed without service. -/
def execWatchdogExpiry (u : Fin 6) (s : State) : Host.Outcome State Fault Refusal :=
  .next (if s.watchdogDue u.val then s.watchdogExpire u.val else s)

/-- FAULT_N1_RELEASE: N1 written 1 (R452).
DEDUCED, unsafe (log entry 29). -/
def execFaultN1Release (m : Master) (s : State) : Host.Outcome State Fault Refusal :=
  .next (guardReg m Reg.FLT_FAULTN (fun s => s.setBit Reg.FLT_FAULTN 1 false) s)

/-- COUNTER_MODE_WRITE: MON_MODE. -/
def execCounterModeWrite (m : Master) (mode : BitVec 2) (s : State) :
    Host.Outcome State Fault Refusal :=
  .next (guardReg m Reg.MON_MODE (fun s => s.writeMode m mode.toNat) s)

/-- OVF_CLEAR: MON_OVFCLR.CLR. -/
def execOvfClear (m : Master) (s : State) : Host.Outcome State Fault Refusal :=
  .next (guardReg m Reg.MON_OVFCLR State.clearOvf s)

/-- COUNTER_SNAPSHOT: MON_SNAPCTL.GO. -/
def execCounterSnapshot (m : Master) (s : State) : Host.Outcome State Fault Refusal :=
  .next (guardReg m Reg.MON_SNAPCTL State.monSnapshot s)

end Sys2Proof.Machine
end

