-- ==== Sys2Proof/Machine/Loader.lean ====
section
/-!
DEFINITION. The program image loaders of the packet engines, the power sequencers and the wake unit
(R171, R172, R194), and the background scrub of memories (R195, R444).
-/

namespace Sys2Proof.Machine

open Sys2Proof

/-! ## Loaders -/

/-- The number a loader is stored under. -/
def loaderIx : Loader → Nat
  | .rtk => 0 | .pwcA => 1 | .pwcB => 2 | .wak => 3

/-- The load job of a loader. -/
def State.load_ (s : State) (l : Loader) : LoadJob := Store.get (fun _ => {}) s.rtk.loads (loaderIx l)

/-- The state with a loader's job replaced. -/
def State.setLoad (s : State) (l : Loader) (v : LoadJob) : State :=
  { s with rtk := { s.rtk with loads := Store.set (fun _ => {}) s.rtk.loads (loaderIx l) v } }

/-- The load status register of a loader. -/
def loadStat : Loader → Nat
  | .rtk => Reg.RTK_LOADSTAT | .pwcA => Reg.PWC_LOADSTAT 0 | .pwcB => Reg.PWC_LOADSTAT 1
  | .wak => Reg.WAK_LOADSTAT

/-- The image address registers of a loader. -/
def loadAddr : Loader → Nat × Nat
  | .rtk => (Reg.RTK_LOADADDRL, Reg.RTK_LOADADDRH)
  | .pwcA => (Reg.PWC_LOADADDRL 0, Reg.PWC_LOADADDRH 0)
  | .pwcB => (Reg.PWC_LOADADDRL 1, Reg.PWC_LOADADDRH 1)
  | .wak => (Reg.WAK_LOADADDRL, Reg.WAK_LOADADDRH)

/-- The profile of a loader's target, and its PROFILE byte. -/
def loadProfile : Loader → Profile
  | .rtk => .p | .pwcA => .c | .pwcB => .c | .wak => .w

/-- PROFILE of R171. -/
def profileByte : Profile → Nat
  | .p => 1 | .c => 2 | .w => 3

/-- The block of a loader. -/
def loadBlk : Loader → Nat
  | .rtk => 0x10 | .pwcA => 0x24 | .pwcB => 0x25 | .wak => 0x26

/-- GO of a loader: ignored while BUSY; the PWC and WAK loaders accept it only while EN reads 0. -/
def State.loadGo (s : State) (l : Loader) (m : Master) : State :=
  if s.bit (loadStat l) 0 || (l != .rtk && s.blkEn (loadBlk l)) then s
  else
    (s.setBit (loadStat l) 0 true).setLoad l
      { busy := true, indigo := m.indigo, pmid := m.pmid.toNat }

/-- RTK_IMAGE_LOAD (R194). -/
def execRtkImageLoad (m : Master) (entbase : BitVec 12) (commit : Bool) (s : State) :
    Host.Outcome State Fault Refusal :=
  .next (guardReg m Reg.RTK_LOADCTL (fun s =>
    ((s.setFld Reg.RTK_LOADCTL 0 12 entbase.toNat).setBit Reg.RTK_LOADCTL 16 commit).loadGo .rtk m) s)

/-- PWC_IMAGE_LOAD (R172). -/
def execPwcImageLoad (m : Master) (d : Die) (s : State) : Host.Outcome State Fault Refusal :=
  .next (match d with
    | .a => guardReg m (Reg.PWC_LOADCTL 0) (fun s => s.loadGo .pwcA m) s
    | .b => guardReg m (Reg.PWC_LOADCTL 1) (fun s => s.loadGo .pwcB m) s)

/-- WAK_IMAGE_LOAD (R172). -/
def execWakImageLoad (m : Master) (s : State) : Host.Outcome State Fault Refusal :=
  .next (guardEdge m Reg.WAK_LOADCTL (some 31) 1 (fun s => s.loadGo .wak m) s)

/-- An image in memory, as the loader reads it. -/
structure Image where
  textBase : Nat
  text : List Byte
  dataBase : Nat
  data : List Byte
  entries : List Byte
  deriving DecidableEq, Repr

/-- The little-endian words of bytes. -/
def wordsLE : List Byte → List Word
  | a :: b :: c :: d :: t => BitVec.ofNat 32 (natLE [a, b, c, d]) :: wordsLE t
  | _ => []

/-- The `n` bytes that a loader reads of an image. -/
def State.imageBytes (s : State) (a n : Nat) : List Byte := (List.range n).map (fun i => s.busByte (a + i))

/-- A read of an image ends in a bus error, or meets an uncorrectable error. -/
def State.imageBad (s : State) (m : Master) (a n : Nat) : Bool :=
  (s.memFault m a n .read).isSome || (s.badMem a n).isSome || (targetOf a == .outbound && !s.linkUp)

/-- The image a loader reads, or the RES of the first check it fails, in the order of R172; 7 when a
read of the image ends in a bus error (R194), with the read.
DEDUCED, unsafe (log entry 64). -/
def State.readImage (s : State) (l : Loader) (job : LoadJob) : Except (Nat × Nat × Nat) Image :=
  let m : Master := ⟨BitVec.ofNat 6 job.pmid, job.indigo⟩
  let base := s.rdN (loadAddr l).1 + 2 ^ 32 * s.fld (loadAddr l).2 0 8
  let u32 := fun (o : Nat) => natLE (s.imageBytes (base + o) 4)
  let u16 := fun (o : Nat) => natLE (s.imageBytes (base + o) 2)
  let u8 := fun (o : Nat) => (s.busByte (base + o)).toNat
  let prof := loadProfile l
  let fail := fun (c : Nat) => Except.error (c, 0, 0)
  if s.imageBad m base 64 then .error (7, base, 64)
  else if u32 0 ≠ 0x4B495452 ∨ u16 4 ≠ 1 ∨ u8 7 ≠ 0 ∨ u16 0x26 ≠ 0 ∨ u32 0x34 ≠ 0 ∨ u32 0x38 ≠ 0 then
    fail 1
  else if crc32c (s.imageBytes base 0x3C) ≠ u32 0x3C then fail 3
  else if u8 6 ≠ profileByte prof then fail 2
  else if pmemSize prof < u32 0x10 + u32 0x0C then fail 4
  else if u32 0x1C % 4 ≠ 0 ∨ u32 0x18 % 4 ≠ 0 ∨ dmemSize prof < u32 0x1C + u32 0x18 then fail 5
  else if 4096 < u16 0x24 + (if l = .rtk then s.fld Reg.RTK_LOADCTL 0 12 else 0) then fail 6
  else
    match [(base + u32 8, 4 * u32 0x0C), (base + u32 0x14, u32 0x18), (base + u32 0x20, 4 * u16 0x24)].find?
        (fun r => s.imageBad m r.1 r.2) with
    | some r => .error (7, r)
    | none =>
      let text := s.imageBytes (base + u32 8) (4 * u32 0x0C)
      let data := s.imageBytes (base + u32 0x14) (u32 0x18)
      let es := s.imageBytes (base + u32 0x20) (4 * u16 0x24)
      if crc32c text ≠ u32 0x28 ∨ crc32c data ≠ u32 0x2C ∨ crc32c es ≠ u32 0x30 then fail 3
      else if (wordsLE es).any (fun e =>
          decide (2 ^ 15 ≤ e.toNat) || decide (e.toNat < u32 0x10) ||
            decide (u32 0x10 + u32 0x0C ≤ e.toNat)) then fail 6
      else .ok ⟨u32 0x10, text, u32 0x1C, data, es⟩

/-- Words of an engine memory written from an index. -/
def State.setEngWords (s : State) (i : Nat) : List Word → State
  | [] => s
  | w :: ws => State.setEngWords (s.setEngWord i w) (i + 1) ws

/-- The data section goes into the data memory of a thread's engine (R194). -/
def State.setDWords (s : State) (t i : Nat) : List Word → State
  | [] => s
  | w :: ws => State.setDWords (s.setD t i w) t (i + 1) ws

/-- The text of a packet-engine image goes into the shadow program memory: the words of the images it
overlaps that it does not occupy are filled with 0x0000_0000 (R145, R194).
DEDUCED, unsafe (log entry 121). -/
def State.writeText (s : State) (base : Nat) (text : List Word) : State :=
  let hit := fun (r : Nat × Nat) => overlap r.1 r.2 base text.length
  let s := (s.rtk.images.filter hit).foldl (fun acc r =>
    { acc with
      regs := Store.clear acc.regs (Reg.RTK_PMEM r.1) (Reg.RTK_PMEM r.1 + 4 * r.2) }) s
  { s.wrWords (Reg.RTK_PMEM base) text with
    rtk := { s.rtk with images := s.rtk.images.filter (fun r => !hit r) ++ [(base, text.length)] } }

/-- A packet-engine image is written: text and entries into the shadow bank, refused while a commit of
table 0x03 is pending (R40), and the data section into the live data memory of all clusters; with COMMIT
set, table 0x03 is committed (R194). -/
def State.writePacketImage (s : State) (pmid : Nat) (g : Image) : Nat × State :=
  let ent := s.fld Reg.RTK_LOADCTL 0 12
  let s := if s.tablePending 0x10 3 then s.deny (Reg.RTK_PMEM g.textBase) pmid
    else (s.writeText g.textBase (wordsLE g.text)).wrWords (Reg.RTK_ENTRY ent) (wordsLE g.entries)
  let s := [0, 64, 128].foldl (fun acc t => acc.setDWords t (g.dataBase / 4) (wordsLE g.data)) s
  if s.bit Reg.RTK_LOADCTL 16 then (if (s.commit 0x10).active then 8 else 0, s.commitGo 0x10 3 0 0)
  else (0, s)

/-- A sequencer image is written: it is the only one of its sequencer, and the rest of the program memory
is filled with 0x0000_0000 (R145, R172). -/
def State.writeSequencerImage (s : State) (q : Nat) (g : Image) : State :=
  let t := if q = 2 then 200 else 192 + 4 * q
  let s := { s with
    rtk := { s.rtk with
      mem := Store.clear s.rtk.mem (8192 * q) (8192 * (q + 1))
      entries := Store.set (fun _ => []) s.rtk.entries q (wordsLE g.entries) }
    eccBad := s.eccBad.filter (fun c => match c with
      | .engine i => !(decide (8192 * q ≤ i) && decide (i < 8192 * (q + 1)))
      | _ => true) }
  (s.setEngWords (8192 * q + g.textBase) (wordsLE g.text)).setDWords t (g.dataBase / 4) (wordsLE g.data)

/-- An accepted image is written: RES of the load and the state (R194). -/
def State.writeImage (s : State) (l : Loader) (pmid : Nat) (g : Image) : Nat × State :=
  match l with
  | .rtk => s.writePacketImage pmid g
  | .pwcA => (0, s.writeSequencerImage 0 g)
  | .pwcB => (0, s.writeSequencerImage 1 g)
  | .wak => (0, s.writeSequencerImage 2 g)

/-- The read of an image that ended in an error is reported as any master's (R49). -/
def State.imageFault (s : State) (job : LoadJob) (r : Nat × Nat) : State :=
  if r.2 = 0 then s else (s.busRead ⟨BitVec.ofNat 6 job.pmid, job.indigo⟩ r.1 r.2).2

/-- IMAGE_LOAD_DONE: the load ends, the image written and committed if asked, or rejected with its RES
(R172, R194). -/
def execImageLoadDone (l : Loader) (s : State) : Host.Outcome State Fault Refusal :=
  .next (
    let job := s.load_ l
    if !job.busy then s
    else
      let r := match s.readImage l job with
        | .error e => (e.1, s.imageFault job e.2)
        | .ok g => s.writeImage l job.pmid g
      ((((r.2.setLoad l {}).setFld (loadStat l) 8 4 r.1).setBit (loadStat l) 0 false).setBit
        (loadStat l) 1 true).useHostData)

/-! ## Scrub -/

/-- The memory number of R444 of a cell in a memory without its own code: cell memory, on-chip SRAM, L2,
L1, tightly coupled memory, module DRAM, Edge-die buffers.
DEDUCED, unsafe (log entry 65). -/
def memoryNumber : MemCell → Option Nat
  | .reg k => if k / 0x100000 = 0x23 then some 4 else none
  | .mram a =>
    if 0x20000000 ≤ a ∧ a < 0x20400000 then some 1
    else if 0x100000000 ≤ a then some 5
    else none
  | .array n => some n.val
  | _ => none

/-- A cell becomes unusable; a memory that the map does not show is not held word by word. -/
def State.markBad (s : State) (c : MemCell) : State :=
  if s.cellBad c || (match c with
      | .array _ => true
      | _ => false) then s else { s with eccBad := s.eccBad ++ [c] }

/-- A corrected error of a memory: counted and reported under its memory number (R444); for a memory that
R444 gives none, the number is open.
DESIGN CHOICE, safe (log entry 34). -/
def State.corrected (s : State) (c : MemCell) : State :=
  match memoryNumber c with
  | some n => (s.monEvent (0x410 + n)).fault 0x100A n
  | none =>
    let f := s.takeFree
    let n := 7 + Config.freeNat f.1 % 9
    (f.2.monEvent (0x410 + n)).fault 0x100A n

/-- MEMORY_SCRUB: a corrected value is written back; an uncorrectable word is handled and reported
(R138, R167, R195, R440, R444). -/
def execMemoryScrub (cell : MemCell) (uncorrectable : Bool) (s : State) :
    Host.Outcome State Fault Refusal :=
  .next (if !uncorrectable then s.corrected cell
    else
      match memoryNumber cell with
      | some n => ((s.markBad cell).monEvent (0x420 + n)).fault 0x200B n
      | none =>
        match cell with
        | .flow e => ((s.setFlow e []).bump Cnt.CLS_FLOW_ECC).fault 0x10C2 0
        | .mram a =>
          (((s.markBad (.mram a)).setBit Reg.NVS_STAT 2 true).bump Cnt.NVS_MRAM_UNCORR).fault 0x2382 0
        | .engine i => s.markBad (.engine i)
        | .reg k =>
          if 0x10 ≤ k / 0x100000 ∧ k / 0x100000 ≤ 0x13 then
            (s.markBad (.reg k)).fault 0x2111 (0x40000000 + k)
          else if k / 0x100000 = 0x24 ∨ k / 0x100000 = 0x25 then s.markBad (.reg k)
          else s
        | .live b k =>
          if k / 0x100000 = 0x10 then (s.markBad (.live b k)).fault 0x2111 (0x40000000 + k) else s
        | .array _ => s)

end Sys2Proof.Machine
end

