-- ==== Sys2Proof/Machine/Start.lean ====
section
/-!
DEFINITION. Resets, supplies and the transitions between power states: RESET_N, feeds, grounds, the
hold-up bank, the start of the Core die, islands, state requests and the end of transitions (R21, R22,
R34, R379, R387 to R391, R412, R466, R468, R479, R483).
-/

namespace Sys2Proof.Machine

open Sys2Proof

/-! ## Start (R412, R468, R483) -/

/-- A feed supplies the logic. -/
def State.supplied (s : State) : Bool :=
  (s.supply.feedAOk || s.supply.feedBOk) && !s.supply.groundsLost

/-- HOLDUP_CHARGED: the bank has reached 40 V; the SYSTEM island leaves reset. -/
def execHoldupCharged (s : State) : Host.Outcome State Fault Refusal :=
  .next (if s.supply.holdupCharged || !s.supplied || !(s.trans && decide (s.cur < 2)) then s
    else
      { s with supply := { s.supply with holdupCharged := true } }.setIsland .system .restarting)

/-- CORE_RESET_RELEASE: the Core die leaves reset and starts. -/
def execCoreResetRelease (s : State) : Host.Outcome State Fault Refusal :=
  .next (if s.coreHeld && s.supply.holdupCharged && !s.supply.resetN && s.supplied &&
      (decide (2 ≤ s.cur) || (s.trans && decide (2 ≤ s.fld Reg.WAK_STATE 2 2))) then
      s.startCore true
    else s)

/-! ## Feeds, grounds and RESET_N (R21, R22, R379, R466, R479) -/

/-- The logic is off: the module stands as in Umber, with nothing in progress. -/
def State.logicOff (s : State) : State :=
  let s := s.holdCore.setIsland .edge .stopped
  let s := (s.setFld Reg.WAK_STATE 0 5 0).setPhase 0
  { s with gwy := {}, boot := { s.boot with retention := none } }

/-- A power die without supply: every channel off, waiting in hold for an attach. -/
def State.dieOff (s : State) (d : Nat) : State := if s.hasDie d then s.dieReturn d else s

/-- Every record waiting for the black box is written. -/
def State.flushBox (s : State) : State :=
  let s := if 0 < s.bbLost then s.lostRecord else s
  s.bbQueue.foldl State.writeRecord { s with bbQueue := [] }

/-- FEED_LOSS: the hold-up sequence runs to its end.
DEDUCED, unsafe (log entry 102). -/
def execFeedLoss (s : State) : Host.Outcome State Fault Refusal :=
  .next (
    let s := { s with supply := { s.supply with feedAOk := false, feedBOk := false, feedLoss := true } }
    if s.coreHeld then { s with supply := { s.supply with holdupCharged := false } }
    else
      let s := s.reports.foldl State.logReport { s with reports := [] }
      let s := ((s.collect { code := 0x3403, data := 0, at_ := s.nowNs }).irq 2).abortVault
      let n := s.freeCtr
      let s := { s with freeCtr := n + 10 }.blackBox 7 ((Config.freeWord n).toNat % 65536) false
        ((Config.freeWord (n + 9)).toNat % 64)
        ((List.range 8).map (fun i => Config.freeWord (n + 1 + i)))
      let s := if s.hasDie 0 || s.hasDie 1 then s.flushBox.writeSnapshot else s.flushBox
      let s := ((s.logicOff.dieOff 0).dieOff 1)
      { s with
        supply := { s.supply with holdupCharged := false }
        boot := { s.boot with afterLoss := true } })

/-- A feed in its operating range. -/
def Supply.feedIn (x : Supply) (d : Die) : Supply :=
  match d with
  | .a => { x with feedAOk := true, feedAReversed := false }
  | .b => { x with feedBOk := true, feedBReversed := false }

/-- The module starts from power-on, with source POWER, unless reset or lost grounds hold it. -/
def State.powerWake (s : State) (sub : Nat) : State :=
  if s.supplied && !s.supply.resetN then s.wakeEvent 9 sub 0 else s

/-- FEED_APPLY: a feed enters its range from no supply. -/
def execFeedApply (d : Die) (s : State) : Host.Outcome State Fault Refusal :=
  .next (if s.coreHeld && (s.supply.feedLoss || (!s.supply.feedAOk && !s.supply.feedBOk)) then
      let s := { s with supply := { s.supply.feedIn d with feedLoss := false } }
      s.powerWake (b2n s.boot.afterLoss)
    else s)

/-- FEED_OUT_OF_RANGE: one feed leaves its range; the logic runs on.
DESIGN CHOICE, safe (log entry 117). -/
def execFeedOutOfRange (d : Die) (s : State) : Host.Outcome State Fault Refusal :=
  .next (
    let was := if d = .a then s.supply.feedAOk else s.supply.feedBOk
    if !was then s
    else
      let s := { s with supply := match d with
        | .a => { s.supply with feedAOk := false }
        | .b => { s.supply with feedBOk := false } }
      if s.coreHeld then s else (s.fault 0x2402 (if d = .a then 0 else 1)).supplyFlag)

/-- RESET_N_ASSERT: the Core die and the Edge die are reset; in Slate and Umber the module stays off. -/
def execResetNAssert (s : State) : Host.Outcome State Fault Refusal :=
  .next (
    let s := { s with supply := { s.supply with resetN := true } }
    if s.cur < 2 ∧ s.trans = false then s else s.logicOff)

/-- RESET_N_RELEASE: a cold start into Ivory. -/
def execResetNRelease (s : State) : Host.Outcome State Fault Refusal :=
  .next (if s.supply.resetN then
      ({ s with supply := { s.supply with resetN := false } } : State).powerWake 0
    else s)

/-- GROUND_LOSS: both grounds are lost: every channel is off, and the logic resets. -/
def execGroundLoss (s : State) : Host.Outcome State Fault Refusal :=
  .next (
    let s := { s with supply := { s.supply with groundsLost := true, holdupCharged := false } }
    (s.logicOff.dieOff 0).dieOff 1)

/-- GROUND_RESTORE: the module restarts, with sub-source 2. -/
def execGroundRestore (s : State) : Host.Outcome State Fault Refusal :=
  .next (if s.supply.groundsLost then
      ({ s with supply := { s.supply with groundsLost := false } } : State).powerWake 2
    else s)

/-! ## Islands (R34, R94, R387, R389) -/

/-- ISLAND_STOP: an island of the Core die stops; MEM not while the Drift region holds cells, and the island
of a control page not while another port group of its instance runs (R72, R94).
DEDUCED, unsafe (log entry 104). -/
def execIslandStop (i : Island) (s : State) : Host.Outcome State Fault Refusal :=
  .next (match i with
    | .system | .aon | .edge => s
    | .mem => if s.driftCells = 0 then s.stopIsland .mem else s
    | .pg0 => if s.island .pg1 = .stopped ∧ s.island .pg2 = .stopped then s.stopIsland .pg0 else s
    | .pg3 => if s.island .pg4 = .stopped then s.stopIsland .pg3 else s
    | i => s.stopIsland i)

/-- An island may start: it is restarting, or it is stopped and the power state that is, or that the module
enters, runs it. -/
def State.mayRun (s : State) (i : Island) : Bool :=
  let state := if s.trans then s.fld Reg.WAK_STATE 2 2 else s.cur
  s.island i == .restarting || (s.island i == .stopped && decide (2 ≤ state) && s.runsIn state i)

/-- ISLAND_READY: an island that starts accepts register accesses (R34). -/
def execIslandReady (i : Island) (s : State) : Host.Outcome State Fault Refusal :=
  .next (if s.mayRun i ∧ s.coreHeld = false then s.setIsland i .running else s)

/-! ## Requests and transitions (R387 to R391, R394, R395) -/

/-- A GO of WAK_STATECTL: REQ holds the request; it is a wake request and an event of source SOFTWARE. -/
def State.softwareRequest (s : State) (req : Nat) : State × Option Nat :=
  let s := s.setFld Reg.WAK_STATECTL 0 2 req
  let s := s.wakeRequest
  if s.sourceEnabled 10 then
    let p := s.wakeRecord 10 0 req
    (p.1.postEvent ⟨10, 0, some p.2⟩, some p.2)
  else (s, none)

/-- STATE_REQUEST_PEWTER: from Ivory; the APP island stops at GO. -/
def execStateRequestPewter (m : Master) (s : State) : Host.Outcome State Fault Refusal :=
  .next (guardEdge m Reg.WAK_STATECTL none 0x80000002 (fun s =>
    let s := (s.softwareRequest 2).1
    if s.cur = 3 ∧ s.trans = false then
      (s.stopIsland .app).beginTrans 2
    else s) s)

/-- STATE_REQUEST_IVORY: from Pewter. -/
def execStateRequestIvory (m : Master) (s : State) : Host.Outcome State Fault Refusal :=
  .next (guardEdge m Reg.WAK_STATECTL none 0x80000003 (fun s =>
    let r := s.softwareRequest 3
    r.1.startWake 3 r.2) s)

/-- The Core die's islands, ports and units as a power state has them. -/
def State.settleIslands (s : State) (state : Nat) : State :=
  let s := (coreIslands.foldl (fun acc i => acc.placeIsland state i) s).placePorts state
  if state = 3 then
    if s.unitState s.mainUnit = 0 ∧ s.mainUnit = 0 then s.startMain s.split else s
  else
    let s := if s.bit Reg.WAK_PEWCFG 0 then s else s.loseLinkPcie true
    let s := if s.unitState 5 = 7 then s else (s.setRun 5 false).setUnit 5 0
    s.appOff.unitFlags

/-- The arrival in Pewter or Ivory: the wake record shows the state reached, and WCONS is 0 while the
program runs. -/
def State.arriveIn (s : State) (state : Nat) : State :=
  let r := s.wak.waking
  let s := match r with
    | some r => s.setFld (Reg.WAK_REC_w3 r) 22 2 state
    | none => s
  let s := { s with wak := { s.wak with waking := none, heldWake := [] } }
  let s := if s.cur < 2 then
      { s with wak := { s.wak with wokeFrom := some (s.cur, r), quietSince := s.nowNs } }
    else s
  let s := if s.wRunning then s.setBit Reg.WAK_CONSENT 16 false else s
  ((s.setFld Reg.WAK_STATE 0 4 (5 * state)).setBit Reg.WAK_STATE 4 false).postEvent { code := 0x11 }

/-- An island that a power state runs has not yet reported ready. -/
def State.islandsWait (s : State) (state : Nat) : Bool :=
  coreIslands.any (fun i => s.runsIn state i && s.island i == .restarting)

/-- TRANSITION_DONE: the module is in the target state, once the islands that run there are ready (R34); MEM
stops only when the Drift region is empty. -/
def execTransitionDone (s : State) : Host.Outcome State Fault Refusal :=
  .next (
    let target := s.fld Reg.WAK_STATE 2 2
    if !s.trans || s.phase == 3 then s
    else if target < 2 then
      if s.cur < 2 then
        ((s.setFld Reg.WAK_STATE 0 2 target).setBit Reg.WAK_STATE 4 false).postEvent { code := 0x11 }
      else s
    else if s.coreHeld then s
    else if target = 2 ∧ s.driftCells ≠ 0 ∨ s.islandsWait target = true then s
    else (s.settleIslands target).arriveIn target)

/-- A wake event held during sleep entry starts an ordinary wake (R391). -/
def State.resumeHeld (s : State) (e : Nat × Nat) : State :=
  let code := s.fld (Reg.WAK_REC_w0 e.1) 0 8
  if code ≠ 8 ∧ code ≠ 9 ∧ s.wActive = true then
    s.postEvent ⟨code, s.fld (Reg.WAK_REC_w0 e.1) 8 8, some e.1⟩
  else s.startWake e.2 (some e.1)

/-- The retention image names the slot in force, with its manifest digest, and at most 32 EXTENDs. -/
def State.retain (s : State) : State :=
  let slot := s.fld Reg.BOOT_STATE 5 2
  let image := match s.slotManifest slot with
    | some m => if slot < 2 ∧ s.vlt.extends_.length ≤ 32 then some (slot, manDigest m) else none
    | none => none
  { s with boot := { s.boot with retention := image } }

/-- SLEEP_ENTRY_DONE: with every queue empty, the channels are off, the retention image and the black box
are written, and the Core die is off; then a held wake starts. -/
def execSleepEntryDone (s : State) : Host.Outcome State Fault Refusal :=
  .next (if s.phase ≠ 3 ∨ !s.fabricEmpty then s
    else
      let target := s.fld Reg.WAK_STATE 2 2
      let s := ([0, 1].filter s.hasDie).foldl State.allOff s
      let s := if s.hasDie 0 || s.hasDie 1 then s.writeSnapshot else s
      let s := (s.dieOff 0).dieOff 1
      let s := s.flushBox.retain
      let s := { s with gwy := { s.gwy with swErrors := [] } }
      let s := (s.holdCore.setIsland .edge .stopped).setPhase 0
      let s := { s with supply := { s.supply with holdupCharged := false } }
      let s := (s.setFld Reg.WAK_STATE 0 4 (5 * target)).setBit Reg.WAK_STATE 4 false
      let held := s.wak.heldWake
      let s := { s with wak := { s.wak with heldWake := [], wokeFrom := none } }
      held.foldl State.resumeHeld (s.postEvent { code := 0x11 }))

end Sys2Proof.Machine
end

