-- ==== Sys2Proof/Machine/Traffic.lean ====
section
/-!
DEFINITION. The traffic manager's commands: the stream stage, FRER timers, meters and shapers,
selection and transmission, and the events of Slalom lists (R198 to R223).
-/

namespace Sys2Proof.Machine

open Sys2Proof

/-! ## Step 6: streams (R212 to R220) -/

/-- A frame's assembled bytes patched from an offset. -/
def Frame.patch (v : Frame) (o : Nat) : List Byte → Frame
  | [] => v
  | b :: bs =>
    let v := if v.assembled then
        (if o < v.head.length then { v with head := setAt v.head o b }
          else { v with bytes := setAt v.bytes (o - v.head.length + v.hlen0) b })
      else { v with bytes := setAt v.bytes o b }
    Frame.patch v (o + 1) bs

/-- The outermost VLAN tag of a frame: its TCI. -/
def outerTag (bs : List Byte) : Option Nat :=
  if natAt bs 12 2 = 0x8100 ∨ natAt bs 12 2 = 0x88A8 then some (natAt bs 14 2) else none

/-- Identification entry `e` matches an assembled frame (R213). -/
def State.identMatches (s : State) (bs : List Byte) (e : Nat) : Bool :=
  let w1 := s.rdLive liveBank (Reg.TM_IDENT_w1 e)
  let w2 := s.rdLive liveBank (Reg.TM_IDENT_w2 e)
  let mac := 2 ^ 32 * getBits w1 0 16 + (s.rdLive liveBank (Reg.TM_IDENT_w0 e)).toNat
  let vid := match outerTag bs with
    | some t => t % 4096
    | none => 0
  let mode := getBits w2 0 2
  getBit w2 4 &&
    ((mode == 1 && natAt bs 0 6 == mac) || (mode == 2 && natAt bs 6 6 == mac)) &&
    getBits w1 16 12 == vid &&
    (match getBits w2 2 2 with
      | 0 => vid != 0
      | 1 => vid == 0
      | _ => true)

/-- The stream handle of a frame: named by its program, or the lowest VALID entry that matches. Valid
entries have a listed word 2, so only those need be searched. -/
def State.streamHandle (s : State) (v : Frame) : Option Nat :=
  if getBit v.m56 11 then some (getBits v.m56 0 11)
  else
    let lo := bankSpan * liveBank + Reg.TM_IDENT_w2 0
    ((Store.slice s.live lo (bankSpan * liveBank + Reg.TM_IDENT_w2 2048) 0 lo).find?
      (fun x => x.1 % 16 == 0 && s.identMatches v.body (x.1 / 16))).map (fun x => x.1 / 16)

/-- A frame passes through a recovery function: counted, and its timers restart (R217). -/
def State.frerPass (s : State) (f : Nat) (v : FrerState) : State :=
  (s.setFrer f { v with lastPass := s.nowNs, timed := true, silent := false }).bump (Cnt.TMR_PASSED f)

/-- A rogue frame is trapped with FRER_ROGUE (R217, R219). -/
def State.frerRogue (s : State) (fr : Nat) (v : Frame) (f : Nat) : State :=
  (s.bump (Cnt.TMR_ROGUE f)).toException fr 0x10 (if s.bit Reg.TM_EXCFG 0 then 33 else 32) s.excTc
    v.hash

/-- The vector recovery algorithm (R217).
DEDUCED, unsafe (log entry 70). -/
def State.frerRecover (s : State) (fr : Nat) (v : Frame) (f : Nat) : State :=
  let w0 := s.rdLive liveBank (Reg.TM_FRER_w0 f)
  let st := s.frer f
  let len := getBits w0 2 6 + 1
  let n := getBits v.m56 12 16
  let onward := fun (s : State) => s.setFrame fr { v with stage := .toEnqueue }
  if !getBit v.m56 28 then
    (if getBit w0 8 then onward (s.frerPass f st) else s.frerRogue fr v f)
  else if st.takeAny then
    onward (s.frerPass f
      { st with
        seq := n, takeAny := false
        hist := (List.range len).map (fun i => i == 0) })
  else
    let d := signed 16 ((65536 + n - st.seq) % 65536)
    if (len : Int) ≤ d ∨ d ≤ -(len : Int) then s.frerRogue fr v f
    else if d ≤ 0 then
      (if st.hist.getD d.natAbs false then (s.bump (Cnt.TMR_ELIMINATED f)).dropFrame fr
      else onward ((s.frerPass f { st with hist := setAt st.hist d.natAbs true }).bump
        (Cnt.TMR_OUTOFORDER f)))
    else
      let k := d.toNat
      let lost := ((st.hist.drop (len - k)).filter (fun b => !b)).length
      let hist := ((List.range k).map (fun i => i == 0) ++ st.hist).take len
      onward ((s.frerPass f { st with seq := n, hist := hist }).bumpBy (Cnt.TMR_LOST f) lost)

/-- A generation function gives the frame the next number (R216). -/
def State.frerGenerate (s : State) (fr : Nat) (v : Frame) (f : Nat) : State :=
  let st := s.frer f
  let o := getBits v.m57 0 8
  let s := s.setFrer f { st with seq := (st.seq + 1) % 65536 }
  if !getBit v.m57 8 then s.setFrame fr { v with stage := .toEnqueue }
  else if v.bodyLen < o + 2 then
    (s.bump (Cnt.TMR_ROGUE f)).setFrame fr { v with stage := .toEnqueue }
  else s.setFrame fr { v.patch o (bytesBE 2 st.seq) with stage := .toEnqueue }

/-- The FRER function of a filter, if the frame comes that far. -/
def State.frerStage (s : State) (fr : Nat) (v : Frame) (w1 : Word) : State :=
  let f := getBits w1 0 10
  if !getBit w1 10 || !s.blkEn 0x17 || !s.frerValid f then
    s.setFrame fr { v with stage := .toEnqueue }
  else if getBit (s.rdLive liveBank (Reg.TM_FRER_w0 f)) 1 then s.frerGenerate fr v f
  else s.frerRecover fr v f

/-- DEI is set in a frame's outermost VLAN tag; a frame with no tag gets no mark (R214). -/
def Frame.markDei (v : Frame) : Frame :=
  if (outerTag v.body).isSome then v.patch 14 [v.body.getD 14 0 ||| 0x10] else v

/-- A blocked filter (R214). -/
def State.filterBlocked (s : State) (h : Nat) : Bool := s.bit (Reg.TM_SFBLOCK (h / 32)) (h % 32)

/-- Filter and meter of a stream, then its FRER function (R214, R215). -/
def State.filterStage (s : State) (fr : Nat) (v : Frame) (h : Nat) : State :=
  let w0 := s.rdLive liveBank (Reg.TM_FILTER_w0 h)
  let w1 := s.rdLive liveBank (Reg.TM_FILTER_w1 h)
  let max := getBits w0 16 14
  let s := s.bump (Cnt.TMF_MATCH h)
  if s.filterBlocked h then (s.bump (Cnt.TMF_SDU_DROP h)).dropFrame fr
  else if max ≠ 0 ∧ max < v.len then
    let s := if getBit w0 14 then s.setBit (Reg.TM_SFBLOCK (h / 32)) (h % 32) true else s
    (s.bump (Cnt.TMF_SDU_DROP h)).dropFrame fr
  else if !getBit w0 10 then s.frerStage fr v w1
  else
    let dei := match outerTag v.body with
      | some t => Nat.testBit t 12
      | none => false
    let r := s.meterUpdate (getBits w0 0 10) v.len (if getBit w0 11 && dei then yellow else green)
    let s := r.2
    if r.1 = red ∧ getBit w0 12 = false then (s.bump (Cnt.TMF_RED_DROP h)).dropFrame fr
    else
      let s := if r.1 = yellow then s.bump (Cnt.TMF_YELLOW h) else s
      let mark := r.1 == red || (r.1 == yellow && getBit w0 13)
      let v := if mark then v.markDei else v
      s.frerStage fr v w1

/-- The bytes that step 6 reads and writes have arrived: the addresses and tag, and the number's
place. -/
def Frame.readyForStep6 (v : Frame) : Bool :=
  v.tailIn || decide (257 + v.hlen0 ≤ v.bytes.length + v.head.length) ||
    decide (128 ≤ v.bytes.length) && !getBit v.m57 8

/-- The filter of a stream has a meter, and the queue of meter updates is full (R222). -/
def State.filterWaits (s : State) (h : Nat) : Bool :=
  getBit (s.rdLive liveBank (Reg.TM_FILTER_w0 h)) 10 && decide (64 ≤ s.metersQueued)

/-- STREAM_STAGE: step 6 of the frame path; a program's frame that waits for a place there goes on (R212,
R222). -/
def execStreamStage (f : FrameId) (s : State) : Host.Outcome State Fault Refusal :=
  .next (match s.frame f with
    | none => s
    | some v =>
      if v.stage ≠ .toStream || !v.readyForStep6 || !s.up .tm || s.heldUpAt f v [.toStream] true then s
      else
        match (if s.blkEn 0x16 then s.streamHandle v else none) with
        | none => (s.setFrame f { v with stage := .toEnqueue }).wakeRoom
        | some h => if s.filterWaits h then s else (s.filterStage f v h).wakeRoom)

/-- A recovery function that runs: VALID, of recovery kind, in an enabled instance. -/
def State.recoveryRuns (s : State) (f : Nat) : Bool :=
  s.blkEn 0x17 && s.frerValid f && !getBit (s.rdLive liveBank (Reg.TM_FRER_w0 f)) 1

/-- FRER_RESET_TIMER: no frame has passed for RESETMS (R217). -/
def execFrerResetTimer (f : Fin 1024) (s : State) : Host.Outcome State Fault Refusal :=
  .next (
    let st := s.frer f.val
    if !s.recoveryRuns f.val || !st.timed ||
        decide (s.nowNs < st.lastPass +
          1000000 * Nat.max 1 (s.fldLive liveBank (Reg.TM_FRER_w1 f.val) 0 16)) then s
    else
      (s.setFrer f.val { st with takeAny := true, timed := false }).bump (Cnt.TMR_RESETS f.val))

/-- FRER_WATCHDOG_EXPIRY: no frame has passed for WDMS, and for GRACEMS more where the function reports
recovering, which only a passed frame changes (R218). -/
def execFrerWatchdogExpiry (f : Fin 1024) (s : State) : Host.Outcome State Fault Refusal :=
  .next (
    let st := s.frer f.val
    let wd := s.fldLive liveBank (Reg.TM_FRER_w2 f.val) 0 16
    let grace := if st.recovering then s.fldLive liveBank (Reg.TM_FRER_w2 f.val) 16 16 else 0
    if !s.recoveryRuns f.val || st.silent || wd == 0 ||
        decide (s.nowNs < st.lastPass + 1000000 * (wd + grace)) then s
    else (s.setFrer f.val { st with silent := true }).fault 0x2141 f.val)

/-! ## Meters and shapers -/

/-- METER_FILL: a write of meter word 4 fills both buckets (R215). -/
def execMeterFill (m : Master) (n : Fin 1024) (data : Word) (s : State) :
    Host.Outcome State Fault Refusal :=
  .next (guardReg m (Reg.TM_METER_w4 n.val)
    (fun s => (s.setBit (Reg.TM_METER_w4 n.val) 0 (getBit data 0)).fillMeter n.val) s)

/-- SELCFG_WRITE: TM_SELCFG is written and checked; a shaper that becomes enabled starts with credit 0
(R203). -/
def State.writeSelcfg (s : State) (p : Nat) (data : Word) : State :=
  let s := s.settleCredits p
  let was := (List.range 8).map (s.shaped p)
  let s := s.wrN (Reg.TM_SELCFG p) (getBits data 0 16)
  let s := if p < 32 ∧ selcfgLegal data = false then s.setBit (Reg.TM_GSTAT p) 23 true else s
  let t := s.tmPort p
  s.setTmPort p
    { t with
      credits := (List.range 8).map (fun c => if was.getD c false then t.credits.getD c 0 else 0) }

/-- SELCFG_WRITE (R203). -/
def execSelcfgWrite (m : Master) (p : Port) (data : Word) (s : State) :
    Host.Outcome State Fault Refusal :=
  .next (guardReg m (Reg.TM_SELCFG p.val) (fun s => s.writeSelcfg p.val data) s)

/-! ## Selection and transmission -/

/-- The head frame of a queue is checked when it reaches the head: NO_FIT, SDU_OVER (R209). At most
`fuel` heads are trapped. -/
def State.headCheck (s : State) (p c : Nat) : Nat → State
  | 0 => s
  | fuel + 1 =>
    match s.headFrame p c with
    | none => s
    | some (f, v) =>
      let win := s.maxWin p c
      let noFit := win != 0xFFFFFFF && !s.fitsIn p c v (win * 8 * 65536)
      let long := v.tailIn && decide (s.maxSdu p c < v.copyLen p)
      if s.sendingClass p c || v.trapped || !(noFit || long) then s
      else
        let s := (s.divert f p (if noFit then 0x0E else 0x0F)
          (if s.bit Reg.TM_EXCFG 0 then 33 else 32) false).bump
            (if noFit then Cnt.TMP_NO_FIT p else Cnt.TMP_SDU_OVER p)
        let s := if p < 32 then s.monEvent (0x1C1 + 4 * p) else s
        State.headCheck (s.reap f) p c fuel

/-- The heads of every queue of a port are checked. -/
def State.headChecks (s : State) (p : Nat) : State :=
  (List.range 8).foldl (fun acc c => acc.headCheck p c (acc.stage p c).length) s

/-- The MAC of a port can start a frame of a kind: an express frame also while a preemptable one waits
preempted, or may be preempted now (R66, R200). -/
def State.macFree (s : State) (p : Nat) (express : Bool) : Bool :=
  let t := s.tmPort p
  s.blkAccepts 0x15 && s.up .tm && s.portUp p && s.portRuns p && s.wayOpen p && t.express.isNone &&
    (match t.preempt with
      | none => true
      | some x => s.preemptActive p && express &&
          (x.paused || (decide (s.fragmentSent p x 0 ≤ s.nowNs) && (s.splitAt p x s.nowNs).isSome)))

/-- The preemptable frame in transmission gives way to an express one that starts (R200). -/
def State.giveWay (s : State) (p : Nat) : State :=
  let t := s.tmPort p
  match t.preempt with
  | none => s
  | some x => match s.splitAt p x s.nowNs with
    | some y => s.setTmPort p { t with preempt := some y }
    | none => s

/-- A preempted frame can go on: no express frame is being sent, no hold is in force and its gate is open
(R207). -/
def State.mayResume (s : State) (p : Nat) (x : Sending) : Bool :=
  s.blkEn 0x15 && s.up .tm && s.portUp p && s.wayOpen p && (s.tmPort p).express.isNone && x.paused &&
    !s.holdInForce p && s.gateOpen p x.cls

/-- The remainder of a preempted frame is sent. -/
def State.resumeFrame (s : State) (p : Nat) (x : Sending) : State :=
  if s.mayResume p x then
    s.setTmPort p { s.tmPort p with preempt := some { x with paused := false, since := s.nowNs } }
  else s

/-- What step 9 does with a frame: send it unsealed, seal it with an SA and PN, or drop it. -/
inductive SealVerdict where
  | plain
  | sealed (sa pn : Nat)
  | saDisabled (sa : Nat)
  | pnExhausted (sa : Nat)
  deriving DecidableEq, Repr

/-- The verdict of step 9 on a frame (R256, R257). -/
def State.sealVerdict (s : State) (p : Nat) (v : Frame) : SealVerdict :=
  match s.sealContext p v.body v.sealSa with
  | none => .plain
  | some sa =>
    if !s.saLive sa then .saDisabled sa
    else if s.nextPn sa = 0 ∨ s.pnLimit sa < s.nextPn sa then .pnExhausted sa
    else .sealed sa (s.nextPn sa)

/-- A PN is used: NEXTPN increments, and PNTHR is watched (R256, R257). -/
def State.usePn (s : State) (sa pn : Nat) : State :=
  let n := s.saSecy sa
  let s := ((s.setNextPn sa (pn + 1)).bump Cnt.CIP_OUT_SEALED).bump (Reg.CIP_SACNT_LOW (2 * sa))
  if s.pnThreshold n < pn + 1 then (s.setBit (Reg.CIP_PNTHRST (n / 32)) (n % 32) true).irq 136 else s

/-- A copy is dropped at step 9 (R256, R257). -/
def State.dropAtSeal (s : State) (f p sa cnt : Nat) : State :=
  ((((s.bump cnt).bump (Reg.CIP_SACNT_LOW (2 * sa + 1))).endCopy f p).freeDone f).reap f

/-- Transmission of the head frame of a queue starts (R200, R247, R256). -/
def State.startFrame (s : State) (p c : Nat) (express : Bool) (latency : Nat) : State :=
  match s.headFrame p c with
  | none => s
  | some (f, v) =>
    let go := fun (s : State) (sealing : Option Seal) =>
      let r := s.txStamp p latency
      let x : Sending := { frame := f, cls := c, start := r.1, sealing := sealing, since := s.nowNs }
      let s := if express then r.2.giveWay p else r.2
      let t := s.tmPort p
      let s := s.setTmPort p
        (if express then { t with express := some x, sealWait := false }
          else { t with preempt := some x, sealWait := false })
      let s := s.setFrame f { v with headLeft := (v.headLeft ++ [p]).eraseDups }
      let s := if v.schuss.contains p then (s.bump Cnt.FAB_SCHUSS_FWD).monEvent (8 * p + 6) else s
      if p < 32 then s.monEvent (0x1C0 + 4 * p) else s
    match s.sealVerdict p v with
    | .plain => go s none
    | .sealed sa pn => if s.sealRoom p then go (s.usePn sa pn) (some (s.sealNow sa pn))
        else s.setTmPort p { s.tmPort p with sealWait := true }
    | .saDisabled sa => s.dropAtSeal f p sa Cnt.CIP_OUT_SA_DISABLED
    | .pnExhausted sa => s.dropAtSeal f p sa Cnt.CIP_OUT_PN_EXH

/-- The preempted frame of a port, at a preemptable opportunity. -/
def State.waitingRemainder (s : State) (p : Nat) (express : Bool) : Option Sending :=
  if express then none else (s.tmPort p).preempt

/-- SELECTION_OPPORTUNITY: the port's MAC can start a frame, express or preemptable; a queue is
selected and its head frame starts, or the remainder of a preempted frame goes on first (R200 to R202,
R207). -/
def execSelectionOpportunity (p : Port) (express : Bool) (latency : BitVec 16) (s : State) :
    Host.Outcome State Fault Refusal :=
  .next (
    let s := s.settlePreempt p.val
    match s.waitingRemainder p.val express with
    | some x => (s.settleCredits p.val).resumeFrame p.val x
    | none =>
    if !s.macFree p.val express then s
    else
      let s := (s.settleCredits p.val).headChecks p.val
      let r := s.select p.val express
      let s := s.setTmPort p.val r.2
      match r.1 with
      | none => s
      | some c => s.startFrame p.val c express latency.toNat)

/-- The bytes a TSINS writes, over `old` (R158, R235). -/
def State.tsBytes (s : State) (p fmt tx rx : Nat) (old : List Byte) : List Byte :=
  let d := s.fld (Reg.TIM_PORTCFG p) 0 2
  let t := s.wAt d tx
  let rho : Int := if s.domEn d then (s.dom d).clk.rate tx else 0
  let dl : Int := (tx : Int) - rx
  match fmt with
  | 0 => bytesBE 4 (tkNs t)
  | 1 => bytesBE 6 (tkSec t) ++ bytesBE 4 (tkNs t)
  | _ => bytesBE 8 (((natBE old : Int) + dl + Int.fdiv (dl * rho + 2 ^ 39) (2 ^ 40)) % 2 ^ 64).toNat

/-- Bytes replaced from an offset; an offset beyond the end replaces nothing. -/
def overwrite (bs : List Byte) (o : Nat) (new : List Byte) : List Byte :=
  bs.take o ++ new ++ bs.drop (o + new.length)

/-- A frame with the insertion TSINS asked for, when it lies within the frame; the checksum is adjusted
for the change (R158, R235). -/
def State.timestamped (s : State) (p tx : Nat) (v : Frame) (bs : List Byte) : List Byte :=
  match v.tsins with
  | none => bs
  | some (fmt, off, adj) =>
    let n := [4, 10, 8].getD fmt 8
    if bs.length < off + n then bs
    else
      let old := bytesAt bs off n
      let new := s.tsBytes p fmt tx v.rxTime old
      let out := overwrite bs off new
      match adj with
      | none => out
      | some c =>
        if bs.length < c + 2 then out
        else
          let pad : List Byte := if (off + c) % 2 = 1 then [0] else []
          overwrite out c
            (bytesBE 2 (checksumUpdate (natAt out c 2) (onesSum (pad ++ old)) (onesSum (pad ++ new))))

/-- The last 16 bytes inverted: a stomped ICV (R101). -/
def invertIcv (bs : List Byte) : List Byte :=
  bs.take (bs.length - 16) ++ (bs.drop (bs.length - 16)).map (fun b => ~~~b)

/-- What leaves the MAC, without FCS: the copy with its insertion, padding on an external port, and
sealed; a revoked key zeroes the rest and inverts the ICV (R183, R235, R256, R265). -/
def State.wireBytes (s : State) (p : Nat) (x : Sending) (v : Frame) (stomp : Bool) : List Byte :=
  let bs := if s.secyActive p then v.body else s.timestamped p x.start v v.body
  let bs := if p < 32 then bs ++ List.replicate (60 - bs.length) 0 else bs
  match x.sealing with
  | none => bs
  | some y =>
    let w := y.apply bs
    match x.spoiled with
    | some n => invertIcv (w.take n ++ List.replicate (w.length - 16 - n) 0 ++ w.drop (max n (w.length - 16)))
    | none => if stomp then invertIcv w else w

/-- A copy is ended on the wire with an inverted FCS: counted, and logged (R101). -/
def State.stompCopy (s : State) (p c len : Nat) (hash : Word) : State :=
  let s := s.bump Cnt.FAB_SCHUSS_STOMP
  if p < 32 then
    ((s.bump (Cnt.PRT_SCHUSS_STOMP p)).portLog p 5 c len hash).monEvent (8 * p + 7)
  else s

/-- Bytes that sealing adds to a frame in transmission. -/
def Sending.growth (x : Sending) : Nat := (x.sealing.map Seal.growth).getD 0

/-- Limits that what has arrived of a copy in transmission exceeds: PRT_MAXFRM, with the sealing expansion,
and the maximum SDU without it (R183, R209, R256). An exception frame has none. -/
def State.outgrown (s : State) (p : Nat) (x : Sending) (v : Frame) : Bool × Bool :=
  (!v.trapped && decide (s.maxFrm p < v.arrivedLen p + x.growth),
    !v.trapped && decide (s.maxSdu p x.cls < v.arrivedLen p))

/-- A cell of frame `f` for port `p` has not crossed yet. -/
def State.uncrossed (s : State) (f p : Nat) : Bool :=
  s.fab.voqs.any (fun e => decide (e.1 / 8 % 40 = p) && e.2.cells.any (fun q => q.frame == f)) ||
    s.fab.mcqs.any (fun e => e.2.cells.any (fun q => q.frame == f && q.ports.contains p))

/-- The transmission of a frame can end: its tail has arrived, all its cells are admitted and have crossed, it
is to be stomped, or it has outgrown a limit. -/
def State.canEnd (s : State) (p : Nat) (x : Sending) (v : Frame) : Bool :=
  let o := s.outgrown p x v
  !x.paused && (v.stomps.contains p || o.1 || o.2 ||
    (v.tailIn && decide (v.storedLen ≤ 256 * v.cells.length) && !s.uncrossed x.frame p))

/-- A frame as it is on the wire: on an external port with its FCS, inverted on a stomped copy (R101, R183). -/
def State.framed (_ : State) (p : Nat) (bs : List Byte) (stomp : Bool) : List Byte :=
  if p < 32 then bs ++ bytesLE 4 (crc32 bs ^^^ (if stomp then 0xFFFFFFFF else 0)) else bs

/-- A frame that has been sent through port 36 returns to classification with its bytes as assembled (R17,
R188). -/
def Frame.returned (v : Frame) : Frame :=
  { v with
    bytes := v.body, tailIn := true, assembled := false, head := [], hlen0 := 0
    rcPass := true, recirc := false, flowKey := [], tcpFlags := none, action := 0xFFFF, tag := 0
    mwords := [], cells := [], storedLen := 0, stage := .toClassify }

/-- The copy of a frame for a port is over: the frame leaves with its last one, or returns to classification
from port 36. -/
def State.finishCopy (s : State) (f p : Nat) (stomp : Bool) : State :=
  let s := (s.endCopy f p).freeDone f
  match s.frame f with
  | none => s
  | some v => if v.recirc && p == 36 && !stomp then s.setFrame f v.returned else s.reap f

/-- A frame's transmission ends at a port (R83, R101, R183, R202, R209, R234).
DESIGN CHOICE, safe (log entry 115). -/
def State.endFrame (s : State) (p : Nat) (x : Sending) (v : Frame) : State :=
  let o := s.outgrown p x v
  let stomp := v.stomps.contains p || o.1 || o.2 || x.spoiled.isSome
  let limit := min (s.maxFrm p) (s.maxSdu p x.cls + x.growth)
  let fcs := if p < 32 then 4 else 0
  let whole := s.wireBytes p x v stomp
  let bs := if o.1 || o.2 then whole.take (limit - fcs) else whole
  let len := bs.length + fcs
  let s := if o.1 then
      (let s := s.bump Cnt.RTK_EGR_MTU
       if p < 32 then s.portLog p 3 x.cls len v.hash else s)
    else s
  let s := if o.2 then
      (let s := s.bump (Cnt.TMP_SDU_OVER p)
       if p < 32 then s.monEvent (0x1C1 + 4 * p) else s)
    else s
  let s := if stomp then s.stompCopy p x.cls len v.hash else s
  let s := if x.spoiled.isSome then s.bump Cnt.CIP_KEY_REVOKED else s
  let s := match x.sealing with
    | some y => s.issueBlocks (gcmBlocks (if getBit y.w0 2 then len - (y.growth + 16 + confOffset y.w0) else 0))
    | none => s
  let s := if v.tsins.isSome && s.secyActive p then s.bump Cnt.TIM_TS_SEALED else s
  let s := s.ptpRing p true x.start v.body
  let s := (s.bump (Cnt.PRT_TX_FRAMES p)).bumpBy (Cnt.PRT_TX_BYTES p) len
  let s := if p < 32 then s.monEvent (8 * p + 1) else s
  let d := Store.get (fun _ => []) s.fab.delivered p
  let s := { s with
    fab := { s.fab with
      lastOut := Store.set (fun _ => []) s.fab.lastOut p (s.framed p bs stomp)
      delivered := if p = 34 ∨ p = 35 then Store.set (fun _ => []) s.fab.delivered p (d ++ [bs])
        else s.fab.delivered } }
  let t := s.tmPort p
  let charge : Int := (len - x.growth + (if s.secyActive p then 32 else 0) : Nat)
  let s := if s.bit (Reg.TM_SELCFG p) x.cls then s
    else s.setTmPort p { t with
      deficits := setAt t.deficits x.cls
        (clampInt (-0x800000) 0x7FFFFF (t.deficits.getD x.cls 0 - charge)) }
  let s := s.finishCopy x.frame p stomp
  (s.setPort p { s.port p with attempts := 0 }).loopBack p bs stomp

/-- FRAME_TRANSMIT_END: the express or preemptable transmission of a port ends; the next head is
checked (R202, R209). -/
def execFrameTransmitEnd (p : Port) (express : Bool) (s : State) :
    Host.Outcome State Fault Refusal :=
  .next (
    let s := s.settlePreempt p.val
    let t := s.tmPort p.val
    match (if express then t.express else t.preempt) with
    | none => s
    | some x =>
      let clear := fun (s : State) =>
        let t := s.tmPort p.val
        s.setTmPort p.val
          (if express then { t with express := none } else { t with preempt := none })
      match s.frame x.frame with
      | none => clear (s.settleCredits p.val)
      | some v =>
        if !s.canEnd p.val x v then s
        else ((clear (s.settleCredits p.val)).endFrame p.val x v).headChecks p.val)

/-! ## Slalom list events -/

/-- A Schuss frame whose gate closes during its transmission completes, and is counted; `was` are the gates
before (R209). -/
def State.countOverrun (s : State) (p : Nat) (was : List Bool) (x : Option Sending) : State :=
  match x with
  | none => s
  | some x =>
    match s.frame x.frame with
    | none => s
    | some v =>
      if v.schuss.contains p && was.getD x.cls false && !s.gateOpen p x.cls then
        (s.bump (Cnt.TMP_GATE_OVERRUN p)).monEvent (0x1C3 + 4 * p)
      else s

/-- The preemptable frame of a port, when it is being sent and too little of it remains to preempt it. -/
def State.unsplit (s : State) (p : Nat) : Option Sending :=
  match (s.tmPort p).preempt with
  | none => none
  | some x =>
    if x.paused || (s.splitAt p x (s.fragmentSent p x s.nowNs)).isSome then none else some x

/-- The gates of a port by class. -/
def State.gates (s : State) (p : Nat) : List Bool := (List.range 8).map (s.gateOpen p)

/-- The entry that has begun asserts or releases the hold (R207); frames in transmission whose gate it closes
are preempted or counted. `was` are the gates before. -/
def State.applyEntry (s : State) (p : Nat) (was : List Bool) : State :=
  let s := s.settlePreempt p
  let t := s.tmPort p
  let s := match s.entryOp p t.entry with
    | 1 => s.setTmPort p { t with hold := true }
    | 2 => s.setTmPort p { t with hold := false }
    | _ => s
  ((s.countOverrun p was (s.tmPort p).express).countOverrun p was (s.unsplit p)).gatePreempt p

/-- GATE_ENTRY_CHANGE: the current entry's interval ends or a cycle starts (R205, R206, R210). -/
def execGateEntryChange (p : ExtPort) (s : State) : Host.Outcome State Fault Refusal :=
  .next (
    let t := s.tmPort p.val
    match (if s.hasPort p.val && s.up .tm then t.oper else none) with
    | none => s
    | some a =>
      let stop := s.entryEnd p.val a t.entry t.offset
      let was := s.gates p.val
      let s := s.settleCredits p.val
      let t := s.tmPort p.val
      if !t.started then (s.setTmPort p.val { t with started := true }).applyEntry p.val was
      else if stop < a.cycle then
        (s.setTmPort p.val { t with entry := t.entry + 1, offset := stop }).applyEntry p.val was
      else if t.extended a then s
      else
        let next := if t.realign then a.firstAfter (t.cycleEnd a - 1) else t.cycleEnd a
        (s.setTmPort p.val
          { t with cycleStart := next, entry := 0, offset := 0, realign := false }).applyEntry p.val was)

/-- OP of the entry that follows the current one: of the list, of its next cycle, or of the pending list whose
change is due within HOLDADV (R206, R207). -/
def State.nextOp (s : State) (p : Nat) : Nat :=
  let t := s.tmPort p
  let first := s.fldLive pendBank (Reg.TM_LIST_w0 p 0) 8 2
  let due := match t.pend with
    | some (_, change) =>
      decide (change ≤ s.listNow p + 65536 * 8 * s.fld (Reg.TM_PORTCFG p) 4 8)
    | none => false
  if due then (if s.preemptActive p && first != 3 then first else 0)
  else
    match t.oper with
    | none => 0
    | some a =>
      if !t.started then 0
      else if s.entryEnd p a t.entry t.offset < a.cycle then s.entryOp p (t.entry + 1)
      else if t.extended a then 0 else s.entryOp p 0

/-- GATE_HOLD_ASSERT: HOLDADV before an entry with OP 1 the hold is asserted (R207). -/
def execGateHoldAssert (p : ExtPort) (s : State) : Host.Outcome State Fault Refusal :=
  .next (if s.up .tm && s.nextOp p.val == 1 then
      let s := s.settlePreempt p.val
      (s.setTmPort p.val { s.tmPort p.val with hold := true }).gatePreempt p.val
    else s)

/-- LIST_CHANGE_TIME: the pending list becomes operational (R206, R209). -/
def execListChangeTime (p : ExtPort) (s : State) : Host.Outcome State Fault Refusal :=
  .next (
    match (if s.up .tm then (s.tmPort p.val).pend else none) with
    | none => s
    | some (a, change) =>
      let was := s.gates p.val
      let s := (s.settleCredits p.val).liveToLive pendBank liveBank (listLo p.val) (listHi p.val)
      let s := s.setTmPort p.val
        { s.tmPort p.val with
          oper := some a, pend := none, started := true, cycleStart := change
          entry := 0, offset := 0, realign := false }
      ((s.bump (Cnt.TMP_LIST_CHANGE p.val)).refreshWindows p.val).applyEntry p.val was)

end Sys2Proof.Machine
end

