-- ==== Sys2Proof/Machine/Wake.lean ====
section
/-!
DEFINITION. The wake unit: wake sources, the RTC, PWRQ, consent, and the Chairlift ring (R386,
R392 to R405).
-/

namespace Sys2Proof.Machine

open Sys2Proof

/-! ## Sources and the RTC -/

/-- WAKE_PIN_EDGE: an edge that WAK_PINCFG selects (R392). -/
def execWakePinEdge (pin : Fin 4) (rising : Bool) (s : State) :
    Host.Outcome State Fault Refusal :=
  let e := s.fld Reg.WAK_PINCFG (2 * pin.val) 2
  .next (if e = 3 ∨ (e = 1 ∧ rising = true) ∨ (e = 2 ∧ rising = false) then
      s.wakeEvent 1 pin.val 0 else s)

/-- KEY_ASSERT: a wake source, and while awake a wake request as such or with KEYHOLD, one for the event;
with KEYHOLD it withholds consent (R392, R398). -/
def execKeyAssert (s : State) : Host.Outcome State Fault Refusal :=
  let s := { s with wak := { s.wak with key := true } }
  .next (if s.sourceEnabled 2 then s.wakeEvent 2 0 0
    else if s.bit Reg.WAK_SLEEPCFG 1 then s.wakeRequest else s)

/-- KEY_DEASSERT: KEY no longer withholds consent (R398). -/
def execKeyDeassert (s : State) : Host.Outcome State Fault Refusal :=
  .next ({ s with wak := { s.wak with key := false } } : State).releaseHeld

/-- RTC_ALARM: an enabled alarm fires and clears its EN (R392). -/
def execRtcAlarm (a : Fin 2) (s : State) : Host.Outcome State Fault Refusal :=
  .next (if s.bit (Reg.WAK_ALARM_en a.val) 0 then
      (s.setBit (Reg.WAK_ALARM_en a.val) 0 false).wakeEvent 7 a.val
        (s.rdN (Reg.WAK_ALARM_sec a.val))
    else s)

/-- WAKE_TIMER_TICK: a TIMER event every WAK_WTMR ms, when that is not 0 (R395). -/
def execWakeTimerTick (s : State) : Host.Outcome State Fault Refusal :=
  let ms := s.fld Reg.WAK_WTMR 0 16
  .next (if ms = 0 ∨ s.nowNs < s.wak.timerAt + 1000000 * ms then s
    else
      ({ s with wak := { s.wak with timerAt := s.nowNs } } : State).postEvent { code := 0x10 })

/-- RTC_SET: the seconds written, ticks 0, valid (R386). -/
def execRtcSet (m : Master) (s : State) : Host.Outcome State Fault Refusal :=
  .next (guardEdge m Reg.WAK_RTCCTL (some 31) 1
    (fun s =>
      { s.setBit Reg.WAK_RTCSUB 31 true with
        rtc := { ticks := 32768 * s.rdN Reg.WAK_RTCSET, since := s.nowNs } }) s)

/-- RTC_INVALID: supply loss or an oscillator deviation; the fault follows at the next start of the
Core die (R386). -/
def execRtcInvalid (s : State) : Host.Outcome State Fault Refusal :=
  .next { s.setBit Reg.WAK_RTCSUB 31 false with wak := { s.wak with rtcLost := true } }

/-! ## PWRQ (R395) -/

/-- WCONS written by the program: from 1 to 0 it is a wake request (R398). -/
def State.setWcons (s : State) (v : Bool) : State :=
  let was := s.wcons
  let s := s.setBit Reg.WAK_CONSENT 16 v
  if was && !v then s.wakeRequest else if v then s.releaseHeld else s

/-- The effect of PWRQ with code 0 to 3 (R387, R395). A wake is that of the event that WAITE returned last;
PWRQ 3 awake is an event of source SOFTWARE, and so a wake request (R392, R398).
DEDUCED, unsafe (log entry 106). -/
def State.pwrqEffect (s : State) (code : Nat) : State :=
  let r := s.wak.taken
  let s := { s with wak := { s.wak with taken := none } }
  if s.cur < 2 then
    match code with
    | 0 => if s.cur = 1 ∧ s.trans = false then s.beginTrans 0 else s
    | 1 => s
    | c => s.startWake c r
  else
    match code with
    | 0 => ({ s with wak := { s.wak with depth := some 0 } } : State).setWcons true
    | 1 => ({ s with wak := { s.wak with depth := some 1 } } : State).setWcons true
    | 2 => s.setWcons false
    | _ =>
      let s := if s.sourceEnabled 10 && !s.wcons then s.wakeRequest else s.setWcons false
      if s.sourceEnabled 10 then
        let p := s.wakeRecord 10 1 3
        (p.1.postEvent ⟨10, 1, some p.2⟩).startWake 3 (some p.2)
      else s.startWake 3 none

/-- PWRQ ra in profile W: ra[3:0] from 4 on takes UNIT; a row acts on its own code (R395). -/
def State.pwrq (s : State) (t : ThreadId) (ra : Gpr) (code : Nat) : State :=
  if (s.thread t.val).status = .ready ∧ getBits ((s.thread t.val).reg ra.val) 0 4 ≠ code ∧
      getBits ((s.thread t.val).reg ra.val) 0 4 < 4 then s
  else
    s.issue t.val false [.w]
      (fun th => if 4 ≤ getBits (th.reg ra.val) 0 4 then .trap .unit else .go)
      (fun th s => (s.setThread t.val th).pwrqEffect code)

/-- PWRQ 0 (R395).
DEDUCED, unsafe (log entry 56). -/
def execPwrqUmber (t : ThreadId) (ra : Gpr) (s : State) : Host.Outcome State Fault Refusal :=
  .next (s.pwrq t ra 0)

/-- PWRQ 1 (R395). -/
def execPwrqSlate (t : ThreadId) (ra : Gpr) (s : State) : Host.Outcome State Fault Refusal :=
  .next (s.pwrq t ra 1)

/-- PWRQ 2 (R395). -/
def execPwrqPewter (t : ThreadId) (ra : Gpr) (s : State) : Host.Outcome State Fault Refusal :=
  .next (s.pwrq t ra 2)

/-- PWRQ 3 (R395). -/
def execPwrqIvory (t : ThreadId) (ra : Gpr) (s : State) : Host.Outcome State Fault Refusal :=
  .next (s.pwrq t ra 3)

/-- VOTE_WRITE: a change from 0 to non-zero is a wake request; a change to 0 may give consent
(R398). -/
def execVoteWrite (m : Master) (vote : BitVec 16) (s : State) :
    Host.Outcome State Fault Refusal :=
  .next (guardEdge m Reg.WAK_CONSENT none (vote.setWidth 32)
    (fun s =>
      let was := s.fld Reg.WAK_CONSENT 0 16
      let s := s.setFld Reg.WAK_CONSENT 0 16 vote.toNat
      if was = 0 ∧ vote ≠ 0 then s.wakeRequest else s.releaseHeld) s)

/-! ## The Chairlift ring (R399 to R404) -/

/-- A node starts a chair of the current epoch with its own bit set (R401, R402). -/
def State.startChair (s : State) (top : Bool) : State :=
  let c : Chair :=
    { epoch := s.epoch, top := top, segment := if top then 0 else s.nodeId / 256,
      origin := s.nodeId, sender := s.nodeId }
  let s := s.setRing top { s.ring top with origin := true, complete := false }
  s.forwardChair top c

/-- CHAIR_START: the leader with consent and SEGDONE 0 on its segment, the top leader with SEGDONE
on the top ring (R401, R402). -/
def execChairStart (top : Bool) (s : State) : Host.Outcome State Fault Refusal :=
  .next (if s.agentRuns && s.bit Reg.WAK_RINGCFG 0 && s.phase != 3 &&
      (if top then s.bit Reg.WAK_RINGCFG 3 && s.bit Reg.WAK_EPOCH 19 &&
          !(s.ring true).origin && !(s.ring true).complete
        else s.bit Reg.WAK_RINGCFG 1 && s.consent && !s.bit Reg.WAK_EPOCH 19 &&
          !(s.ring false).origin) then
      s.startChair top
    else s)

/-- A COMMIT reaches a node of its epoch: void without the node's bit or after a wake request, and
then answered with an ABORT; otherwise the deadline is set (R402). -/
def State.takeCommit (s : State) (delayNs : Nat) : State :=
  if s.bit Reg.WAK_EPOCH 18 ∨ s.wak.seg.mine = false then
    ((s.bump Cnt.WAK_VOID_COMMITS).fault 0x0351 0).sendAbort
  else (((s.setDeadline delayNs).bump Cnt.WAK_COMMITS).monEvent 0x3E2).postEvent { code := 0x12 }

/-- The top ring is complete: the top leader sends COMMIT with a delay of 40,000 µs and floods its
own segment (R402). -/
def State.sendCommit (s : State) : State :=
  let c : Chair :=
    { epoch := s.epoch, top := true, origin := s.nodeId, sender := s.nodeId, delay := 40000 }
  if s.bit Reg.WAK_EPOCH 18 ∨ s.wak.seg.mine = false then s.takeCommit 0
  else
    ((s.emitChair .commit c).emitChair .commit
      { c with top := false, segment := s.nodeId / 256 }).takeCommit 40000000

/-- A chair completes at its origin (R401, R402). -/
def State.completeChair (s : State) (top : Bool) : State :=
  let s := s.setRing top { s.ring top with origin := false, complete := true }
  if top then s.sendCommit else (s.setBit Reg.WAK_EPOCH 19 true).releaseRing true

/-- The node leads a ring: it is the leader of its segment, or the top leader (R396). -/
def State.leads (s : State) (top : Bool) : Bool := s.bit Reg.WAK_RINGCFG (if top then 3 else 1)

/-- A chair of the current epoch arrives (R401, R402); a node with RINGEN 0 skips the ring (R404). A leader's
own chair continues beside that of an acting backup, which drops its chair (R405).
DEDUCED, unsafe (log entry 107). -/
def State.takeChair (s : State) (c : Chair) : State :=
  let top := c.top
  let map := s.ringMap top
  let me := s.ringPlace top
  let from_ := placeOf top c.sender
  let fromPred := predecessor map c.ovr me == some from_ ||
    (Nat.testBit c.ovr from_ && successor map c.ovr from_ == some me)
  if !s.bit Reg.WAK_RINGCFG 0 || ((s.ring top).origin && c.origin != s.nodeId && s.leads top) then s else
  let s := s.seeChair top c
  if (s.ring top).origin && c.origin == s.nodeId then
    if fromPred && ((c.map ||| c.ovr) &&& map) == map then s.completeChair top else s
  else
    let s := if (s.ring top).origin then
        (s.setRing top { s.ring top with origin := false }).setBit Reg.WAK_EPOCH 20 false
      else s
    if !fromPred || Nat.testBit c.ovr me then s
    else if s.agrees top then s.forwardChair top c
    else s.setRing top { s.ring top with held := some c }

/-- A frame concerns this node: its segment, or the top ring of a leader. -/
def State.concerns (s : State) (c : Chair) : Bool :=
  if c.top then s.onTop else c.segment == s.nodeId / 256

/-- CHAIR_RECEIVED (R397, R400, R401, R402). -/
def execChairReceived (payload : List Byte) (addrTop : Bool) (can : Bool) (s : State) :
    Host.Outcome State Fault Refusal :=
  .next (if !s.agentRuns then s
    else
      match parseChair .chair payload addrTop can with
      | none => s.bump Cnt.WAK_RING_BAD
      | some c =>
        if !s.concerns c || s.phase == 3 then s
        else if epochNewer c.epoch s.epoch then (s.adoptEpoch c.epoch).takeChair c
        else if c.epoch = s.epoch then s.takeChair c
        else ((s.floodAbort s.epoch s.nodeId).bump Cnt.WAK_ABORTS_SENT).monEvent 0x3E3)

/-- COMMIT_RECEIVED: `residence` is the time in µs from the receipt to the end of the node's own
re-emission (R402); a node with RINGEN 0 keeps its own deadline (R404). In the drowse window a further copy of
the COMMIT changes nothing, and one of another epoch is taken as at any time (R400, R402). -/
def execCommitReceived (payload : List Byte) (addrTop : Bool) (can : Bool) (residence : Nat)
    (s : State) : Host.Outcome State Fault Refusal :=
  .next (if !s.agentRuns then s
    else
      match parseChair .commit payload addrTop can with
      | none => s.bump Cnt.WAK_RING_BAD
      | some c =>
        if !s.concerns c || s.phase == 3 || s.deadlineCome || (s.phase == 2 && c.epoch == s.epoch) then s
        else
          let s := if epochNewer c.epoch s.epoch then s.adoptEpoch c.epoch else s
          if !s.bit Reg.WAK_RINGCFG 0 then s
          else if c.epoch ≠ s.epoch then ((s.bump Cnt.WAK_VOID_COMMITS).fault 0x0351 0).sendAbort
          else
            let valid := !s.bit Reg.WAK_EPOCH 18 && s.wak.seg.mine
            let s := if valid && c.top && s.onTop then
                s.emitChair .commit
                  { c with top := false, segment := s.nodeId / 256, sender := s.nodeId,
                           delay := c.delay - residence }
              else s
            s.takeCommit (c.delay * 1000))

/-- ABORT_RECEIVED: a newer one is adopted and flooded once more; from the deadline on, or not newer,
it is ignored (R403, R405). -/
def execAbortReceived (payload : List Byte) (addrTop : Bool) (can : Bool) (s : State) :
    Host.Outcome State Fault Refusal :=
  .next (if !s.agentRuns then s
    else
      match parseChair .abort payload addrTop can with
      | none => s.bump Cnt.WAK_RING_BAD
      | some c =>
        if !s.concerns c || s.phase == 3 || s.deadlineCome || !epochNewer c.epoch s.epoch then s
        else
          (((((s.adoptEpoch c.epoch).bump Cnt.WAK_ABORTS_RCVD).monEvent 0x3E4).floodAbort c.epoch
            c.origin)).postEvent { code := 0x13 })

/-- Set the OVR bit of the member after the newest sender, and re-emit the chair with that member
as its sender (R404). Where that member is the last before the origin, the copy is the one that the origin
waits for, and the chair is complete (R401).
DEDUCED, unsafe (log entry 107). -/
def State.overrideNext (s : State) (top : Bool) (c : Chair) : State :=
  match successor (s.ringMap top) c.ovr (placeOf top c.sender) with
  | none => s
  | some k =>
    let c := { c with
      ovr := c.ovr ||| 2 ^ k
      sender := if top then 256 * k else s.nodeId / 256 * 256 + k }
    let s := s.setBit (Reg.WAK_OVRMAP (k / 32)) (k % 32) true
    let s := ((s.seeChair top c).emitChair .chair c).bump Cnt.WAK_OVERRIDES
    let map := s.ringMap top
    if successor map c.ovr k == some (s.ringPlace top) && ((c.map ||| c.ovr) &&& map) == map then
      s.completeChair top
    else s

/-- The origin's action on a stalled chair: re-emit the newest copy, or after MAXAWAKE override the
next member (R401, R404). -/
def State.stalledChair (s : State) (top : Bool) : State :=
  match (s.ring top).newest with
  | none => s
  | some c =>
    if !(s.ring top).origin then s
    else if s.wak.maxed then s.overrideNext top c
    else (s.seeChair top c).emitChair .chair c

/-- CHAIR_TIMEOUT: CHAIRTMO has passed without a new copy (R401, R404). -/
def execChairTimeout (top : Bool) (s : State) : Host.Outcome State Fault Refusal :=
  .next (if s.agentRuns && decide ((s.ring top).seenAt +
      1000000 * Nat.max 1 (s.fld Reg.WAK_RINGCFG 16 8) ≤ s.nowNs) then
      s.stalledChair top
    else s)

/-- No CHAIR of the segment has been seen for LDRTMO (R401). -/
def State.leaderSilent (s : State) : Bool :=
  decide (s.wak.seg.seenAt + 100000000 * Nat.max 1 (s.fld Reg.WAK_RINGCFG 24 8) ≤ s.nowNs)

/-- LEADER_TIMEOUT: a backup with consent starts the chair itself (R401). -/
def execLeaderTimeout (s : State) : Host.Outcome State Fault Refusal :=
  .next (if s.agentRuns && s.bit Reg.WAK_RINGCFG 0 && s.bit Reg.WAK_RINGCFG 2 && s.consent &&
      s.leaderSilent && !s.bit Reg.WAK_EPOCH 19 && s.phase != 3 && !(s.ring false).origin then
      ((s.setBit Reg.WAK_EPOCH 20 true).fault 0x2354 0).startChair false
    else s)

/-- MAXAWAKE minutes have passed since the first chair of the epoch (R404). -/
def State.maxawakeDue (s : State) : Bool :=
  match s.wak.chairAt with
  | some t => decide (t + 60000000000 * clampNat 1 1440 (s.fld Reg.WAK_TIMERS 16 11) ≤ s.nowNs)
  | none => false

/-- MAXAWAKE_EXPIRY: the node overrides its own consent, and an origin its stalled chair (R404). -/
def execMaxawakeExpiry (s : State) : Host.Outcome State Fault Refusal :=
  .next (if !s.agentRuns || s.wak.maxed || !s.maxawakeDue then s
    else
      let s := { s with wak := { s.wak with maxed := true } }
      let s := if s.consent then s
        else
          ((((s.setBit Reg.WAK_CONSENT 17 true).fault 0x0350 0).bump
            Cnt.WAK_OVERRIDES)).releaseHeld
      (s.stalledChair false).stalledChair true)

/-- Sleep entry begins: PHASE ENTERING, the target, the AON copies, and admission closed (R390). -/
def State.beginEntry (s : State) (target : Nat) : State :=
  let s := (s.setPhase 3).beginTrans target
  { s with
    wak := { s.wak with
      srcen := s.rd Reg.WAK_SRCEN, srctgt := s.rd Reg.WAK_SRCTGT
      sleepcfg := s.rd Reg.WAK_SLEEPCFG, deadline := none, depth := none, waking := none }
    fab := { s.fab with closed := true } }

/-- The sleep depth of the next entry: PWRQ's, else WAK_SLEEPCFG.DEPTH (R395). -/
def State.sleepDepth (s : State) : Nat :=
  s.wak.depth.getD (if s.bit Reg.WAK_SLEEPCFG 0 then 0 else 1)

/-- COMMIT_DEADLINE: with a valid COMMIT, entry into the sleep depth begins (R390, R402). -/
def execCommitDeadline (s : State) : Host.Outcome State Fault Refusal :=
  .next (if s.deadlineCome && decide (2 ≤ s.cur) && s.phase == 2 then
      s.beginEntry s.sleepDepth
    else s)

/-- FWTMO, 0.1 s to 60 s, has run with every condition of a false wake (R394). -/
def State.falseWake (s : State) : Bool :=
  s.consent &&
    decide (s.wak.quietSince + 100000000 * clampNat 1 600 (s.fld Reg.WAK_TIMERS 0 10) ≤ s.nowNs)

/-- FALSE_WAKE_TIMEOUT: the module returns to the state it woke from (R394). -/
def execFalseWakeTimeout (s : State) : Host.Outcome State Fault Refusal :=
  .next (match s.wak.wokeFrom with
    | none => s
    | some (prev, r) =>
      if s.falseWake && decide (2 ≤ s.cur) && s.phase != 3 && !s.trans then
        let s := match r with
          | some r => s.setBit (Reg.WAK_REC_w3 r) 17 true
          | none => s
        let s := s.bump Cnt.WAK_FALSE_WAKES
        ({ s with wak := { s.wak with wokeFrom := none } } : State).beginEntry prev
      else s)

/-- 1 ms has passed since the deadline of a node that aborted late (R403). -/
def State.dowakeDue (s : State) : Bool :=
  match s.wak.lateAbort with
  | some d => decide (d + 1000000 ≤ s.nowNs)
  | none => false

/-- DOWAKE_TIMER: 1 ms after the deadline, a node that aborted late wakes its neighbours: TC10
requests on its enabled T1 ports and a CAN wake frame (R403). -/
def execDowakeTimer (s : State) : Host.Outcome State Fault Refusal :=
  .next (if s.dowakeDue && s.agentRuns then
      let ports := ((List.range 16).map (· + 12)).filter (fun p => s.bit (Reg.PRT_TC10 p) 0)
      if s.bit Reg.WAK_SLEEPCFG 2 then
        ({ s with wak := { s.wak with lateAbort := none, wakeSent := s.wak.wakeSent ++ ports } } :
          State).injectFrame 33
            (pseudoHeader 1 (s.fld Reg.WAK_CANCH 0 4) (b2n (s.bit Reg.WAK_CANXP 29))
              (s.fld Reg.WAK_CANXP 0 29) 0 0 0 0)
      else { s with wak := { s.wak with lateAbort := none } }
    else s)

end Sys2Proof.Machine
end

