-- ==== Sys2Proof/Machine/Own.lean ====
section
/-!
DEFINITION. What a written word does through the fields that have a command of their own: enables,
locks, GO bits and values that act (R8). A register write, a bit-alias write, a write that reaches the Edge
die and an inbound write all go through it, so one written word has one effect.
-/

namespace Sys2Proof.Machine

open Sys2Proof

/-- The state a command leaves. -/
def after (o : Host.Outcome State Fault Refusal) (s : State) : State :=
  match o with
  | .next t => t
  | _ => s

/-- Index of a key in an array of `n` registers. -/
def arrayIx (base stride n key : Nat) : Option (Fin n) :=
  if h : (key - base) / stride < n then
    if base ≤ key ∧ (key - base) % stride = 0 then some ⟨(key - base) / stride, h⟩ else none
  else none

/-- An effect at the index of a key in an array, if it has one. -/
def atIx {n : Nat} (s : State) (o : Option (Fin n)) (f : Fin n → State) : State :=
  match o with
  | some i => f i
  | none => s

/-- An effect when a condition holds. -/
def doIf (c : Bool) (f : State → State) (s : State) : State := if c then f s else s

/-- A lock bit is set and stays set. -/
def lockBit (v : Word) (key b : Nat) (s : State) : State := doIf (getBit v b) (fun s => s.setBit key b true) s

/-- SYS, FLT and MON. -/
def ownSystem (m : Master) (key : Nat) (v : Word) (s : State) : State :=
  if key = Reg.SYS_WORLDLOCK then lockBit v key 0 s
  else if key = Reg.FLT_FAULTN then doIf (getBit v 1) (fun s => after (execFaultN1Release m s) s) s
  else if key = Reg.MON_MODE then
    after (execCounterModeWrite m (BitVec.ofNat 2 (getBits v 0 2)) s) s
  else if key = Reg.MON_SNAPCTL then
    doIf (getBit v 31) (fun s => after (execCounterSnapshot m s) s) s
  else if key = Reg.MON_OVFCLR then doIf (getBit v 0) (fun s => after (execOvfClear m s) s) s
  else
    let s := atIx s (arrayIx (Reg.SYS_RGNATTR 0) 16 256 key) (fun _ => lockBit v key 5 s)
    let s := atIx s (arrayIx (Reg.FLT_WDOG 0) 4 6 key)
      (fun u => doIf (getBit v 16) (fun s => after (execWatchdogEnable m u s) s) s)
    atIx s (arrayIx (Reg.FLT_WDKICK 0) 4 6 key) (fun u => after (execWatchdogKick m u v s) s)

/-- The port instances: MDIO, PRT_PEN bit by bit, TC10. -/
def ownPorts (m : Master) (key : Nat) (v : Word) (s : State) : State :=
  if key = Reg.PRT_MDIOCMD then
    doIf (getBit v 31) (fun s =>
      after (mdioGo m (getBits v 26 2) (BitVec.ofNat 5 (getBits v 21 5)) (BitVec.ofNat 5 (getBits v 16 5))
        (getBit v 28) (BitVec.ofNat 16 (getBits v 0 16)) s) s) s
  else
    let s := (List.finRange 37).foldl (fun s p =>
      if prtPenKey p.val = key then
        if getBit v (prtPenBit p.val) then after (execPortEnable m p s) s
        else after (execPortDisable m p s) s
      else s) s
    (List.finRange 32).foldl (fun s p =>
      doIf (Reg.PRT_TC10 p.val == key && getBit v 1)
        (fun s => after (execTc10SleepRequest m p s) s) s) s

/-- The fabric, the classifier, the packet engines and the traffic manager. -/
def ownPath (m : Master) (key : Nat) (v : Word) (s : State) : State :=
  if key = Reg.FAB_SCHED then doIf (getBit v 2) (fun s => after (execSchedulerSwap m s) s) s
  else if key = Reg.CLS_FLOWCMD then
    doIf (getBit v 31) (fun s =>
      if getBits v 0 3 = 0 ∨ getBits v 0 3 = 7 then s.setFld Reg.CLS_FLOWCMD 24 4 5
      else after (flowCommandGo m (getBits v 0 3) (BitVec.ofNat 18 (getBits v 3 18)) s) s) s
  else if key = Reg.RTK_LOADCTL then
    doIf (getBit v 31) (fun s =>
      after (execRtkImageLoad m (BitVec.ofNat 12 (getBits v 0 12)) (getBit v 16) s) s) s
  else
    let s := atIx s (arrayIx (Reg.TM_METER_w4 0) 0x20 1024 key)
      (fun n => after (execMeterFill m n v s) s)
    atIx s (arrayIx (Reg.TM_SELCFG 0) 0x1000 37 key) (fun p => after (execSelcfgWrite m p v s) s)

/-- The time unit. -/
def ownTime (m : Master) (key : Nat) (v : Word) (s : State) : State :=
  if key = Reg.TIM_SNAPCTL then doIf (getBit v 31) (fun s => after (execTimeSnapshot m s) s) s
  else if key = Reg.TIM_CONVCTL then
    doIf (getBit v 31) (fun s => after (execTimeConvert m (Fin.ofNat 4 (getBits v 0 2)) s) s) s
  else
    let s := atIx s (arrayIx (Reg.TIM_DOMCFG 0) 0x100 4 key) (fun d =>
      if getBit v 0 then after (execDomainEnable m d s) s else after (execDomainDisable m d s) s)
    let s := atIx s (arrayIx (Reg.TIM_SMPCTL 0) 0x100 4 key)
      (fun d => doIf (getBit v 31) (fun s => after (execTimeSampleSubmit m d s) s) s)
    atIx s (arrayIx (Reg.TIM_SETCTL 0) 0x100 4 key)
      (fun d => doIf (getBit v 31) (fun s => after (execTimeSet m d s) s) s)

/-- The cipher engine and the vault: in a job word, CLAIM, ABORT, RELEASE and GO act in that order. -/
def ownCipher (m : Master) (key : Nat) (v : Word) (s : State) : State :=
  if key = Reg.CIP_KEYCMD then
    doIf (getBit v 31) (fun s => after (execKeyClear m (BitVec.ofNat 11 (getBits v 0 11)) s) s) s
  else
    let s := atIx s (arrayIx (Reg.CIP_SA_w0 0) 0x20 1024 key) (fun n =>
      if getBit v 0 == s.bit (Reg.CIP_SA_w0 n.val) 0 then s
      else after (execSaEnable m n (getBit v 0) s) s)
    let s := atIx s (arrayIx (Reg.CIP_JOB_w0 0) 0x40 160 key) (fun j =>
      let s := doIf (getBit v 28) (fun s => after (execJobClaim m j s) s) s
      let s := doIf (getBit v 29) (fun s => after (execJobAbort m j s) s) s
      let s := doIf (getBit v 30) (fun s => after (execJobRelease m j s) s) s
      doIf (getBit v 31) (fun s => after (execJobGo m j s) s) s)
    atIx s (arrayIx (Reg.VLT_CMD 0) 0x1000 4 key)
      (fun c => doIf (getBit v 31) (fun s => s.vaultGo m c.val) s)

/-- EN of a field-bus channel. -/
def ownChannel (m : Master) (ch : GwyChan) (v : Word) (s : State) : State :=
  if getBit v 0 then after (execGwyChannelEnable m ch s) s
  else doIf (s.bit (gwyCtl ch) 0) (fun s => after (execGwyChannelDisable m ch s) s) s

/-- The field-bus gateways. -/
def ownGateway (m : Master) (key : Nat) (v : Word) (s : State) : State :=
  let s := atIx s (arrayIx (Reg.GWY_CANCTL 0) 0x1000 16 key) (fun c => ownChannel m (.can c) v s)
  let s := atIx s (arrayIx (Reg.GWY_LINCTL 0) 0x1000 8 key) (fun l => ownChannel m (.lin l) v s)
  atIx s (arrayIx (Reg.GWY_SERCTL 0) 0x1000 4 key) (fun c => ownChannel m (.ser c) v s)

/-- The host bridge; which MSI-X vectors the host has unmasked is an open value here (R325). -/
def ownBridge (m : Master) (key : Nat) (v : Word) (s : State) : State :=
  if key = Reg.HBR_FENCE then
    doIf (getBit v 31) (fun s => after (execFence m (Fin.ofNat 64 (getBits v 0 6)) s) s) s
  else if key = Reg.HBR_SIGTRIG then
    let n := s.freeCtr
    let s := { s with freeCtr := n + 1 }
    after (execSignalTrigger m v (Config.freeWord n) s) s
  else
    atIx s (arrayIx (Reg.HBR_RING_w3 0) 0x20 2 key) (fun r => after (execRingTailWrite m r v s) s)

/-- RUN of a unit: 1 releases it, 0 holds it in reset; ignored for the main processor and for units that
the mode lacks (R342). -/
def ownUnit (m : Master) (u : Fin 6) (v : Word) (s : State) : State :=
  if getBit v 0 then after (execPairRun m u s) s
  else if !s.unitThere u.val then s
  else (s.stopUnit u.val).unitFlags

/-- The compute complex. -/
def ownCompute (m : Master) (key : Nat) (v : Word) (s : State) : State :=
  if key = Reg.CPX_PARTLOCK then lockBit v key 0 s
  else if key = Reg.CPX_DBGCTL then doIf (getBit v 31) (fun s => after (execDebugOpen m s) s) s
  else if key = Reg.CPX_CKPTCOMMIT then
    after (execCheckpointCommit m (BitVec.ofNat 6 (getBits v 0 6)) (BitVec.ofNat 16 (getBits v 16 16)) s) s
  else if key = Reg.CPX_SWIRQ then
    after (execSoftwareInterrupt m (BitVec.ofNat 9 (getBits v 0 9)) s) s
  else
    let s := atIx s (arrayIx (Reg.CPX_PAIRCTL_u0_3 0) 4 4 key)
      (fun u => ownUnit m (u.castLE (by omega)) v s)
    atIx s (arrayIx (Reg.CPX_PAIRCTL_u4_5 0) 4 2 key) (fun u => ownUnit m (Fin.ofNat 6 (u.val + 4)) v s)

/-- The power sequencers and the wake unit. -/
def ownPower (m : Master) (key : Nat) (v : Word) (s : State) : State :=
  if key = Reg.PWC_LOADCTL 0 then
    doIf (getBit v 31) (fun s => after (execPwcImageLoad m .a s) s) s
  else if key = Reg.PWC_LOADCTL 1 then
    doIf (getBit v 31) (fun s => after (execPwcImageLoad m .b s) s) s
  else if key = Reg.WAK_STATECTL then
    doIf (getBit v 31) (fun s =>
      if getBits v 0 2 = 2 then after (execStateRequestPewter m s) s
      else after (execStateRequestIvory m s) s) s
  else if key = Reg.WAK_CONSENT then
    after (execVoteWrite m (BitVec.ofNat 16 (getBits v 0 16)) s) s
  else if key = Reg.WAK_RTCCTL then doIf (getBit v 31) (fun s => after (execRtcSet m s) s) s
  else if key = Reg.WAK_LOADCTL then doIf (getBit v 31) (fun s => after (execWakImageLoad m s) s) s
  else
    let s := atIx s (arrayIx (Reg.PWC_THETA 0 0) 0x100 24 key)
      (fun c => after (execThetaWrite m (Fin.ofNat 48 c.val) v s) s)
    atIx s (arrayIx (Reg.PWC_THETA 1 0) 0x100 24 key)
      (fun c => after (execThetaWrite m (Fin.ofNat 48 (c.val + 24)) v s) s)

/-- GO of an update channel, by OP; a code that R426 does not list does nothing. -/
def ownUpdate (m : Master) (ch : Fin 3) (v : Word) (s : State) : State :=
  if !getBit v 31 then s
  else
    match getBits v 0 3 with
    | 1 => after (execOpenImage m ch s) s
    | 2 => after (execStream m ch s) s
    | 3 => after (execFinish m ch s) s
    | 4 => after (execArm m ch s) s
    | 5 => after (execSessionAbort m ch s) s
    | _ => s

/-- The NVS block and the boot controller. -/
def ownBoot (m : Master) (key : Nat) (v : Word) (s : State) : State :=
  if key = Reg.NVS_WDATAH then after (execMramWrite m v s) s
  else if key = Reg.NVS_BBEXPORT_H then after (execBbExport m v s) s
  else if key = Reg.NVS_BBCMD then
    let s := doIf (getBit v 30) (fun s => after (execBbClear m s) s) s
    doIf (getBit v 31) (fun s =>
      after (execSoftwareRecord m (BitVec.ofNat 16 (getBits v 0 16)) s) s) s
  else if key = Reg.BOOT_CTL then
    if getBit v 0 then after (execUpdateCommit m s) s
    else doIf (getBit v 1) (fun s => after (execBootAbort m s) s) s
  else atIx s (arrayIx (Reg.BOOT_SCMD 0) 0x1000 3 key) (fun ch => ownUpdate m ch v s)

/-- The word is BLK_COMMIT: offset 0x010 of a block with operating tables (R38). -/
def isCommitWord (key : Nat) : Bool :=
  key % 0x100000 == 0x10 &&
    match rowAt key with
    | some r => r.fields.any (fun f => decide (f.lo = 31) && decide (f.ty = .own))
    | none => false

/-- What a word written to a register does through its fields that act, by block.
DEDUCED, safe (log entry 12). -/
def State.ownWrite (s : State) (m : Master) (key : Nat) (v : Word) : State :=
  let b := key / 0x100000
  if h : b < 128 then
    if key % 0x100000 = 4 then
      if getBit v 0 then after (execBlkEnable m ⟨b, h⟩ s) s
      else doIf (s.blkEn b) (fun s => after (execBlkQuiesceStart m ⟨b, h⟩ s) s) s
    else if isCommitWord key && getBit v 31 then
      after (commitRow m ⟨b, h⟩ (BitVec.ofNat 8 (getBits v 0 8)) (BitVec.ofNat 8 (getBits v 8 8))
        (getBits v 16 2) s) s
    else if b ≤ 2 then ownSystem m key v s
    else if b ≤ 7 then ownPorts m key v s
    else if b ≤ 0x17 then ownPath m key v s
    else if b = 0x18 then ownTime m key v s
    else if b ≤ 0x1A then ownCipher m key v s
    else if b ≤ 0x1D then ownGateway m key v s
    else if b = 0x1E then ownBridge m key v s
    else if b ≤ 0x23 then ownCompute m key v s
    else if b ≤ 0x26 then ownPower m key v s
    else ownBoot m key v s
  else s

end Sys2Proof.Machine
end

