-- ==== Sys2Proof/Machine/Views.lean ====
section
/-!
DEFINITION. The register words that show an engine's state: what the hardware presents in them at a read
(R8), computed from the engine and not stored. Every other word presents what it holds.
-/

namespace Sys2Proof.Machine

open Sys2Proof

/-- Both indices of a key in an array of `n1` rows, `s1` apart, of `n2` registers, `s2` apart. -/
def arrayIx2 (base s1 n1 s2 n2 key : Nat) : Option (Nat × Nat) :=
  if base ≤ key ∧ (key - base) / s1 < n1 ∧ (key - base) % s1 / s2 < n2 ∧ (key - base) % s1 % s2 = 0 then
    some ((key - base) / s1, (key - base) % s1 / s2)
  else none

/-- A value at the index of a key in an array, or the word stored. -/
def viewIx {n : Nat} (o : Option (Fin n)) (w : Word) (f : Nat → Word) : Word :=
  match o with
  | some i => f i.val
  | none => w

/-- A number as a register word. -/
def num (n : Nat) : Word := BitVec.ofNat 32 n

/-! ## Fabric and classifier (R80, R90, R128, R175) -/

/-- On-chip cells of a queue, and its cells in the Drift region. -/
def Voq.onChip (v : Voq) : Nat := (v.cells.filter (fun q => q.seg != .middle)).length
def Voq.inDrift (v : Voq) : Nat := (v.cells.filter (fun q => q.seg == .middle)).length

/-- The link-down hold runs: the port is not UP and is not yet redirected (R98). -/
def State.portHeld (s : State) (p : Nat) : Bool := !s.portUp p && !(s.port p).redirecting

/-- Word 0 of FAB_VOQSTAT and FAB_MCQSTAT. -/
def State.voqWord (s : State) (k : Nat) : Word :=
  let v := s.voq k
  num (v.onChip + 2 ^ 29 * b2n v.drift + 2 ^ 30 * b2n (!v.cells.isEmpty && s.portHeld (k / 8 % 40)) +
    2 ^ 31 * b2n (s.voqRequest k v).isSome)
def State.mcqWord (s : State) (k : Nat) : Word :=
  let v := s.mcq k
  let held := match v.cells with
    | [] => false
    | q :: _ => q.ports.any s.portHeld
  num (v.onChip + 2 ^ 30 * b2n held + 2 ^ 31 * b2n (s.mcqRequest k v).isSome)

/-- Valid flow entries. -/
def State.flowEntries (s : State) : Nat := (s.cls.flows.filter (fun e => !e.2.isEmpty)).length

/-- Words of FAB, CLS and RTK instance 0. -/
def State.pathView (s : State) (key : Nat) (w : Word) : Word :=
  if key = Reg.FAB_DRIFTSTAT then putBit w 24 s.driftAvail
  else if key = Reg.CLS_FLOWSTAT then
    setBits (setBits w 0 18 s.flowEntries) 18 11 (min 1024 s.cls.queue.length)
  else if key = Reg.RTK_DISPSTAT then
    num (((List.range 192).map (fun t => (s.dispatchQueue t).length)).sum +
      65536 * b2n ((s.laneStall 0).isSome || (s.laneStall 1).isSome))
  else
    let w := viewIx (arrayIx (Reg.FAB_VOQSTAT_w0 0) 8 2240 key) w s.voqWord
    let w := viewIx (arrayIx (Reg.FAB_VOQSTAT_w1 0) 8 2240 key) w (fun k => num (s.voq k).inDrift)
    viewIx (arrayIx (Reg.FAB_MCQSTAT_w0 0) 8 56 key) w s.mcqWord

/-! ## Threads (R169, R197, R358, R395) -/

/-- STATE of RTK_THRSTAT. -/
def packetState : ThreadStatus → Nat
  | .idle | .trapped => 0
  | .ready => 1
  | .waiting .room => 3
  | .waiting _ => 2
  | .halted => 4

/-- STATE of PWC_THRSTAT and WAK_WSTAT: a thread halted by debug still runs. -/
def sequencerState : ThreadStatus → Nat
  | .idle => 0
  | .ready | .halted => 1
  | .waiting _ => 2
  | .trapped => 3

/-- Words of RTK cluster `c`. -/
def State.clusterView (s : State) (c key : Nat) (w : Word) : Word :=
  if key = Reg.RTK_DBG c then
    num (b2n (s.debugOpen 0) +
      256 * ((List.range 64).filter (fun i => (s.thread (64 * c + i)).status == .halted)).length)
  else
    viewIx (arrayIx (Reg.RTK_THRSTAT c 0) 4 64 key) w (fun i =>
      let t := s.thread (64 * c + i)
      num (packetState t.status + 8 * t.reqs.length + 32 * (s.dispatchQueue (64 * c + i)).length +
        65536 * (t.pc.toNat % 2 ^ 15)))

/-- DIESTATE of PWC_SEQSTAT: 0 absent, 1 attached, 2 hold, 3 reading state (R376). -/
def State.dieStateCode (s : State) (d : Nat) : Nat :=
  if !s.hasDie d || (s.die d).reversed then 0
  else if s.blkEn (36 + d) && !(s.die d).stateRead then 3
  else if (s.die d).hold then 2 else 1

/-- Words of power sequencer `d`. -/
def State.sequencerView (s : State) (d key : Nat) (w : Word) : Word :=
  if key = Reg.PWC_SEQSTAT d then
    let l := s.link d
    let run := (List.range 4).map (fun t =>
      let c := sequencerState (s.thread (192 + 4 * d + t)).status
      if c = 1 ∨ c = 2 then 2 ^ t else 0)
    num (run.sum + 16 * b2n (s.beating d) + 32 * b2n l.copyAOk + 64 * b2n l.copyBOk +
      256 * s.dieStateCode d)
  else if key = Reg.PWC_CMDQ d then num (s.die d).queue.length
  else
    viewIx (arrayIx (Reg.PWC_THRSTAT d 0) 4 4 key) w
      (fun t => setBits w 0 2 (sequencerState (s.thread (192 + 4 * d + t)).status))

/-! ## The traffic manager (R202, R203, R206, R215, R218) -/

/-- TSTATE of TM_GSTAT. -/
def State.listState (s : State) (p : Nat) : Nat :=
  if s.holdBeforeLock p then 3
  else if !s.listInForce p then 0
  else if s.validTb (s.listDomain p) then 1 else 2

/-- TM_GSTAT: its W1C bits stand. -/
def State.gstatWord (s : State) (p : Nat) (w : Word) : Word :=
  let t := s.tmPort p
  let entry := if s.listInForce p then t.entry else 0
  let gates := ((List.range 8).map (fun c => if s.gateOpen p c then 2 ^ c else 0)).sum
  setBits w 0 22 (entry + 2 ^ 10 * gates + 2 ^ 18 * b2n (s.holdInForce p) + 2 ^ 19 * b2n t.pend.isSome +
    2 ^ 20 * s.listState p)

/-- TM_QSTAT of a class. -/
def State.qstatWord (s : State) (p c : Nat) : Word :=
  num ((wordOfInt ((s.tmPort p).deficits.getD c 0)).toNat % 2 ^ 24 + 2 ^ 24 * b2n (s.gateOpen p c) +
    2 ^ 25 * b2n (s.stopped p c))

/-- The buckets of a meter as a read shows them: frozen while instance 0 is disabled (R198). -/
def State.meterShown (s : State) (m : Nat) : Meter := if s.blkEn 0x14 then s.meterNow m else s.meter m

/-- Words of the TM. -/
def State.trafficView (s : State) (key : Nat) (w : Word) : Word :=
  let w := viewIx (arrayIx (Reg.TM_METER_w5 0) 0x20 1024 key) w
    (fun m => num ((s.meterShown m).bc / meterUnit))
  let w := viewIx (arrayIx (Reg.TM_METER_w6 0) 0x20 1024 key) w
    (fun m => num ((s.meterShown m).be / meterUnit))
  let w := viewIx (arrayIx (Reg.TM_GSTAT 0) 0x1000 37 key) w (fun p => s.gstatWord p w)
  let w := viewIx (arrayIx (Reg.TM_FRERSTAT 0) 8 1024 key) w (fun f =>
    let v := s.frer f
    num (v.seq % 65536 + 65536 * b2n v.takeAny + 131072 * b2n v.recovering))
  let w := match arrayIx2 (Reg.TM_QSTAT 0 0) 0x1000 37 4 8 key with
    | some (p, c) => s.qstatWord p c
    | none => w
  match arrayIx2 (Reg.TM_CBS_w3 0 0) 0x1000 37 0x10 8 key with
  | some (p, c) =>
    wordOfInt (Int.fdiv (if s.shaped p c then s.creditNow p c else 0) creditUnit)
  | none => w

/-! ## Cipher engine, vault, wake unit, boot controller -/

/-- CIP_JOBFREE word `i`: bit b shows that job 32i + b is FREE. -/
def State.jobFreeWord (s : State) (i : Nat) : Word :=
  num ((List.range 32).map (fun b => if s.jobState (32 * i + b) = 0 then 2 ^ b else 0)).sum

/-- Words of CIP and VLT. -/
def State.keyView (s : State) (key : Nat) (w : Word) : Word :=
  if key = Reg.VLT_PCTR_L then num (s.provCounter % 2 ^ 32)
  else if key = Reg.VLT_PCTR_H then num (s.provCounter / 2 ^ 32)
  else
    let w := viewIx (arrayIx (Reg.CIP_JOBFREE 0) 4 5 key) w s.jobFreeWord
    match arrayIx2 (Reg.VLT_ANCHOR 0 0) 0x40 8 4 12 key with
    | some (a, j) => num (natBE (bytesAt (s.anchor a) (4 * j) 4))
    | none => w

/-- Words of WAK and BOOT; WAK is BUSY also while writes are on their way to AON (R32). -/
def State.wakeView (s : State) (key : Nat) (w : Word) : Word :=
  if key = Reg.BLK_STATUS 0x26 then putBit w 1 (getBit w 1 || !s.aonQueue.isEmpty)
  else if key = Reg.WAK_CONSENT then putBit (putBit w 16 s.wcons) 18 s.consent
  else if key = Reg.WAK_DEADLINE then num (min 65535 ((s.wak.deadline.getD 0 - s.nowNs) / 1000))
  else if key = Reg.WAK_WSTAT then setBits w 0 2 (sequencerState (s.thread 200).status)
  else if key = Reg.BOOT_IDLE then
    if s.session = 0 then 0 else num (min 1023 s.idleSeconds)
  else viewIx (arrayIx (Reg.BOOT_ARC 0) 4 64 key) w (fun i => num (s.arc i))

/-- WRAP of the upper word of a chained pair of MON counters, live and in the snapshot (R459, R461). -/
def State.monView (s : State) (key : Nat) (w : Word) : Word :=
  let wrap := fun i => if s.monChained i then putBit w 31 (!s.serviceMode) else w
  viewIx (arrayIx (Reg.MON_SNAPVAL 0) 4 1536 key) (viewIx (arrayIx (Reg.MON_VAL 0) 4 1536 key) w wrap) wrap

/-- What a read of a register word presents (R8).
DEDUCED, safe (log entry 14). -/
def State.shown (s : State) (key : Nat) : Word :=
  let b := key / 0x100000
  let w := s.presented key
  if !s.regThere key then 0
  else if b = 2 then s.monView key w
  else if 4 ≤ b ∧ b ≤ 7 then
    match portOfKey key with
    | some p => if key = Reg.PRT_PCTRL p then putBit w 4 s.serviceMode else w
    | none => w
  else if 8 ≤ b ∧ b ≤ 0x10 then s.pathView key w
  else if 0x11 ≤ b ∧ b ≤ 0x13 then s.clusterView (b - 0x11) key w
  else if 0x14 ≤ b ∧ b ≤ 0x17 then s.trafficView key w
  else if b = 0x19 ∨ b = 0x1A then s.keyView key w
  else if b = 0x24 ∨ b = 0x25 then s.sequencerView (b - 0x24) key w
  else if b = 0x26 ∨ b = 0x29 then s.wakeView key w
  else w

end Sys2Proof.Machine
end

