-- ==== Sys2Proof/Machine/Access.lean ====
section
/-!
DEFINITION. An access to the system bus as a whole: register words with everything a written word does,
single bits (R42, R43), memory, outbound windows, and the queues of writes toward the Edge die and the
always-on domain (R32, R33).
-/

namespace Sys2Proof.Machine

open Sys2Proof

/-! ## Writes of one word -/

/-- A write that its block ignores whole, with what it leaves: MDIO and flow commands while BUSY (R54,
R127), a request of WAK_STATECTL that is no state to ask for (R387), COMMIT and ABORT in one write
(R431). -/
def State.heldBack (s : State) (m : Master) (key : Nat) (v : Word) : Option State :=
  if key = Reg.PRT_MDIOCMD && s.bit key 30 then some (s.setBit key 29 true)
  else if key = Reg.CLS_FLOWCMD && s.bit key 30 then some s
  else if key = Reg.WAK_STATECTL && getBits v 0 2 < 2 then some (s.deny key m.pmid.toNat)
  else if key = Reg.BOOT_CTL && getBits v 0 2 == 3 then some (s.deny key m.pmid.toNat)
  else none

/-- A guarantee flag that a setting decides is recomputed: the Groomer's interval, the scrub interval, and
MASK of the reactions of class 2 and above (R449). -/
def State.settingFlags (s : State) (key : Nat) : State :=
  if key = Reg.FLT_SCRUB then s.setGstat 3 (decide (8 < s.fld key 0 6))
  else if key = Reg.CPX_GROOMCFG ∨ key = Reg.CPX_GROOMCFG_RT then
    s.setGstat 2 (decide (10 < s.fld Reg.CPX_GROOMCFG 0 7) || decide (10 < s.fld Reg.CPX_GROOMCFG_RT 0 7))
  else if Reg.FLT_REACT_cls2 0 ≤ key ∧ key < Reg.FLT_REACT_cls2 48 then
    s.setGstat 5 ((List.range 48).any (fun i => s.bit (Reg.FLT_REACT_cls2 i) 5))
  else s

/-- An IMSIC file takes an identity pending; its second word is the big-endian one (R340).
PRESUMED, unsafe (log entry 94). -/
def State.setEip (s : State) (key : Nat) (v : Word) : State :=
  match arrayIx2 (Reg.CPX_IMSIC 0 0) 0x1000 36 4 2 key with
  | some (f, j) =>
    let id := if j = 0 then v.toNat else natBE (bytesLE 4 v.toNat)
    if 1 ≤ id ∧ id ≤ 511 then
      { s with
        cpx := { s.cpx with eip := Store.set (fun _ => false) s.cpx.eip (512 * f + id) true } }
    else s
  | none => s

/-- Some word of an array of `n` registers `stride` apart has a bit of a mask set. -/
def State.anyOf (s : State) (base stride n : Nat) (mask : Word) : Bool :=
  (Store.slice s.regs base (base + stride * n) 0 base).any
    (fun e => e.1 % stride == 0 && e.2 &&& mask != 0)

/-- The level-sensitive interrupt source whose cause a register holds, and whether any cause of that source
is pending (R137, R340). -/
def State.levelSource (s : State) (key : Nat) : Option (Nat × Bool) :=
  let b := key / 0x100000
  if key = Reg.SYS_BERRINFO then some (1, s.bit key 31)
  else if Reg.MON_CFG_even 0 ≤ key ∧ key < Reg.MON_CFG_even 768 then
    some (3, s.anyOf (Reg.MON_CFG_even 0) 4 1536 0x8000)
  else if key = Reg.CLS_GENSTAT then some (56, s.fld key 16 4 != 0)
  else if b = 0x19 ∧ 0x200 ≤ key % 0x100000 ∧ key % 0x100000 < 0x294 then
    some (136, s.anyOf (Reg.CIP_PNTHRST 0) 4 16 0xFFFFFFFF ||
      (List.range 160).any (fun j => s.bit (Reg.CIP_JOBDONE_0_4 (j / 32)) (j % 32) &&
        s.bit (Reg.CIP_JOB_w0 j) 6))
  else if key = Reg.HBR_IRQ then some (224, s.fld key 0 4 != 0)
  else if b = 0x1A then
    (arrayIx (Reg.VLT_CHSTAT 0) 0x1000 4 key).map (fun _ => (152, (List.range 4).any (fun c =>
      s.bit (Reg.VLT_CHSTAT c) 13 && s.bit (Reg.VLT_CHCFG c) 0)))
  else if b = 0x29 then
    (arrayIx (Reg.BOOT_SSTAT 0) 0x1000 3 key).map (fun _ => (376, (List.range 3).any (fun c =>
      s.bit (Reg.BOOT_SSTAT c) 1)))
  else if b = 0x24 ∨ b = 0x25 then
    let d := b - 0x24
    match arrayIx (Reg.PWC_CHSTAT d 0) 0x100 24 key with
    | some c => some (288 + 32 * d + c.val, s.rd key &&& 0x3B0000 != 0)
    | none =>
      if key = Reg.PWC_DIESTATE d ∨ (arrayIx (Reg.PWC_TRAP d 0) 4 4 key).isSome then
        some (288 + 32 * d + 24, s.fld (Reg.PWC_DIESTATE d) 17 2 != 0 ||
          (List.range 4).any (fun t => s.bit (Reg.PWC_TRAP d t) 31))
      else none
  else
    match portOfKey key with
    | some p =>
      if p < 32 ∧ 0x200 ≤ key % 0x1000 ∧ key % 0x1000 < 0x300 then
        some (16 + p, (List.range 16).any (fun e => s.bit (Reg.PRT_ELOG_w0 p e) 31))
      else none
    | none => none

/-- A level-sensitive source is withdrawn when a write has cleared its last cause. -/
def State.withdraw (s : State) (key : Nat) : State :=
  match s.levelSource key with
  | some (n, false) => { s with irqs := s.irqs.filter (fun x => x != n) }
  | _ => s

/-- What a write must find settled: the shaper credits of a port whose slopes or gates the word sets (R203). -/
def State.beforeWrite (s : State) (key : Nat) : State :=
  if key / 0x100000 = 0x15 ∧ 0x10000 ≤ key % 0x100000 ∧ key % 0x100000 < 0x35000 then
    s.settleCredits (key % 0x100000 / 0x1000 - 16)
  else s

/-- What follows a write besides the fields it stores; `was` is the word before. -/
def State.afterWrite (s : State) (key : Nat) (was v : Word) : State :=
  let s := ((s.settingFlags key).setEip key v).withdraw key
  let s := atIx s (arrayIx (Reg.TIM_DOMCFG 0) 0x100 4 key) (fun d => s.checkGm d.val)
  let s := atIx s (arrayIx (Reg.TM_PORTCFG 0) 0x1000 37 key) (fun p =>
    (let s := if !getBit was 0 && s.bit key 0 then s.refreshWindows p.val else s
     (s.setTmPort p.val { s.tmPort p.val with creditAt := s.listNow p.val }).gatePreempt p.val))
  let s := atIx s (arrayIx (Reg.HBR_POLL_w0 0) 0x20 64 key) (fun d =>
    if getBit was 0 && s.bit key 0 then s
    else
      { s with
        hbr := { s.hbr with
          polled := Store.set (fun _ => false) s.hbr.polled d.val false
          pollAt := Store.set (fun _ => 0) s.hbr.pollAt d.val 0 } })
  let s := [0, 1].foldl (fun s d =>
    atIx s (arrayIx (Reg.PWC_THRSTAT d 0) 4 4 key) (fun _ =>
      if getBits v 16 16 = 0 then s else s.setFld key 16 16 0)) s
  let s := if key = Reg.FAB_POOLTHR ∨ (Reg.FAB_BUFCFG_w0 0 0 ≤ key ∧ key < Reg.FAB_BUFCFG_w0 37 0) then
      s.recheckFlow else s
  let s := if key = Reg.WAK_PEWPORTS ∨ key / 0x100000 = 0x19 then s.followPewter else s
  match portOfKey key with
  | some p =>
    if key = Reg.PRT_PCTRL p && getBit was 2 != s.bit key 2 && s.portUp p then
      s.setFld (Reg.PRT_PSTAT p) 9 2 (s.verifyState p)
    else s
  | none => s

/-- The gate of a word lets its own acting fields through although it refuses the others: EN of an SA and
of a field-bus channel (R253, R297). -/
def ownOpen (r : Row) : Bool :=
  (decide (r.gate = .saEn) || decide (r.gate = .gwyCh)) &&
    r.fields.any (fun f => decide (f.lo = 0) && decide (f.ty = .own))

/-- A word is written to a register: the fields that store (R8), then those that act. -/
def State.writeWord (s : State) (m : Master) (key : Nat) (v : Word) : State :=
  match s.heldBack m key v with
  | some t => t
  | none =>
    match rowAt key with
    | none => s
    | some r =>
      let was := s.rd key
      match s.gateVerdict r key with
      | .accept => (((s.beforeWrite key).regWrite m key v).ownWrite m key v).afterWrite key was v
      | .ignore => s
      | .refuse =>
        if ownOpen r then
          let s := if wordAfter r.fields true was v = was then s else s.deny key m.pmid.toNat
          s.ownWrite m key v
        else s.deny key m.pmid.toNat

/-! ## Writes of one bit (R43) -/

/-- Registers of control pages whose acting fields hold a value: the enables, PRT_PEN, MON_MODE, the
vote, RUN of a unit. -/
def holdsValue (key : Nat) : Bool :=
  key % 0x100000 == 4 || key == Reg.MON_MODE || key == Reg.WAK_CONSENT ||
    (List.range 4).any (fun i => key == regKey (4 + i) 0x20) ||
    (List.range 4).any (fun u => key == Reg.CPX_PAIRCTL_u0_3 u) ||
    (List.range 2).any (fun u => key == Reg.CPX_PAIRCTL_u4_5 u)

/-- The word that an alias write of one bit presents to the register: fields that store or hold a value
keep it, fields that act and clear-or-set bits take 0 elsewhere. -/
def State.aliasWord (s : State) (key b : Nat) (fs : List FieldDesc) (v : Bool) : Word :=
  let kept := fs.foldl (fun acc f =>
    match f.ty with
    | .rw | .cfg => setBits acc f.lo f.width (getBits (s.rd key) f.lo f.width)
    | .own => if holdsValue key then setBits acc f.lo f.width (getBits (s.rd key) f.lo f.width) else acc
    | _ => acc) (0 : Word)
  putBit kept b v

/-- A bit of a register is written through the alias window, by the type of its field. -/
def State.writeBit (s : State) (m : Master) (key b : Nat) (v : Bool) : State :=
  match rowAt key with
  | none => s
  | some r =>
    let x := s.aliasWord key b r.fields v
    let was := s.rd key
    match r.fields.find? (fun f => decide (f.lo ≤ b) && decide (b < f.lo + f.width)) with
    | none => s
    | some f =>
      match s.heldBack m key x with
      | some t => t
      | none =>
        match s.gateVerdict r key with
        | .ignore => s
        | .refuse => s.deny key m.pmid.toNat
        | .accept =>
          match f.ty with
          | .ro | .snap | .wo => s
          | .own => (s.ownWrite m key x).afterWrite key was x
          | .cfg =>
            if s.blkEn (key / 0x100000) then s.deny key m.pmid.toNat
            else (s.setBit key b v).afterWrite key was x
          | .rw =>
            let s := (s.beforeWrite key).wr key (putBit was b v ||| num (forcedOnes key))
            s.afterWrite key was x
          | .w1c => doIf v (fun s => (s.setBit key b false).afterWrite key was x) s
          | .w1s => doIf v (fun s => (s.setBit key b true).afterWrite key was x) s

/-! ## Writes toward the Edge die (R32, R33) -/

/-- A write that has reached its block. -/
def State.applyWrite (s : State) (w : BusWrite) : State :=
  match w.bit with
  | some b => s.writeBit w.master w.key b (getBit (w.data.setWidth 32) 0)
  | none =>
    let s := s.writeWord w.master w.key (w.data.setWidth 32)
    if w.wide then s.writeWord w.master (w.key + 4) ((w.data >>> 32).setWidth 32) else s

/-- The oldest write of the Traverse register channel is applied at the Edge die, before those behind it;
one to WAK passes on toward AON, and WAK reads BUSY until it is applied there. The header words of a block
stay in EDGE.
DEDUCED, unsafe (log entry 16). -/
def State.edgeApply (s : State) : State :=
  match s.edgeQueue with
  | [] => s
  | w :: rest =>
    if w.key / 0x100000 = 0x26 ∧ 0x20 ≤ w.key % 0x100000 then
      { s with edgeQueue := rest, aonQueue := s.aonQueue ++ [w] }
    else
      let t := { s with edgeQueue := [] }.applyWrite w
      { t with edgeQueue := rest ++ t.edgeQueue }

/-- The oldest write toward AON is applied. -/
def State.aonApply (s : State) : State :=
  match s.aonQueue with
  | [] => s
  | w :: rest =>
    let t := { s with edgeQueue := [], aonQueue := [] }.applyWrite w
    { t with edgeQueue := s.edgeQueue ++ t.edgeQueue, aonQueue := rest ++ t.aonQueue }

/-- A write of a register word or bit: an Edge block's write is queued, any other is applied. -/
def State.deliver (s : State) (w : BusWrite) : State :=
  if edgeBlock (w.key / 0x100000) then { s with edgeQueue := s.edgeQueue ++ [w] } else s.applyWrite w

/-- How many queued writes a read must see applied first: up to the last one of its master to its block
(R33). -/
def State.writesBefore (s : State) (m : Master) (b : Nat) : Nat :=
  (s.edgeQueue.reverse.dropWhile (fun w => !(w.master == m && w.key / 0x100000 == b))).length

/-- Those writes are applied. -/
def State.catchUp (s : State) (m : Master) (b : Nat) : State :=
  if edgeBlock b then (List.range (s.writesBefore m b)).foldl (fun s _ => s.edgeApply) s else s

/-- The word that a bit write leaves in a register, by the type of the bit's field (R43). -/
def bitAfter (fs : List FieldDesc) (cfgOpen : Bool) (old : Word) (b : Nat) (v : Bool) : Word :=
  match fs.find? (fun f => decide (f.lo ≤ b) && decide (b < f.lo + f.width)) with
  | none => old
  | some f =>
    match f.ty with
    | .rw => putBit old b v
    | .cfg => if cfgOpen then putBit old b v else old
    | .w1c => if v then putBit old b false else old
    | .w1s => if v then putBit old b true else old
    | _ => old

/-- A WAK word as the copy in the EDGE island shows it: with the writes on their way to AON (R32). A vote
is a value like any other there. -/
def State.edgeCopy (s : State) (key : Nat) (w : Word) : Word :=
  match rowAt key with
  | none => w
  | some r =>
    let cfgOpen := !s.blkEn (key / 0x100000)
    s.aonQueue.foldl (fun acc q =>
      if q.key ≠ key then acc
      else
        match q.bit with
        | none =>
          let v : Word := q.data.setWidth 32
          let acc := wordAfter r.fields cfgOpen acc v
          if key = Reg.WAK_CONSENT then setBits acc 0 16 (getBits v 0 16) else acc
        | some b =>
          let v := getBit (q.data.setWidth 32) 0
          if key = Reg.WAK_CONSENT ∧ b < 16 then putBit acc b v
          else bitAfter r.fields cfgOpen acc b v) w

/-- The word of a register as a read returns it; a read of a random source draws fresh bits (R271). -/
def State.readWord (s : State) (key : Nat) : Word × State :=
  if key = Reg.VLT_RNG then s.draw
  else if key = Reg.CIP_RNG then
    { s with cip := { s.cip with requests := s.cip.requests + 1 } }.draw
  else (s.edgeCopy key (s.shown key), s)

/-! ## Accesses -/

/-- The checks of an access to a bit alias: as of its register, but no alias of an absent block's word
exists (R43).
DESIGN CHOICE, unsafe (log entry 15). -/
def State.aliasCheck (s : State) (m : Master) (a key : Nat) (size : AccessSize) (write : Bool) :
    Option Nat :=
  if a % 4 ≠ 0 ∨ size ≠ .word then (if blockListed (key / 0x100000) then some 3 else some 6)
  else
    match s.regCheck m key .word write with
    | some c => some c
    | none => if s.regThere key then none else some 1

/-- A write of a master to any address of the system bus (R26 to R49). -/
def State.write (s : State) (m : Master) (a : Nat) (size : AccessSize) (data : BitVec 64) : State :=
  match targetOf a with
  | .reg key =>
    match s.regCheck m key size true with
    | some c => s.busError m a true c
    | none =>
      if s.regThere key then
        (s.reply 0).deliver
          { master := m, addr := a, key := key, data := data, wide := decide (size = .double) }
      else s.reply 0
  | .bitAlias key b =>
    match s.aliasCheck m a key size true with
    | some c => s.busError m a true c
    | none => (s.reply 0).deliver { master := m, addr := a, key := key, data := data, bit := some b }
  | .outbound => s.outbound m a size true data
  | _ =>
    match s.memCheckRange m a size.bytes .write with
    | some c => s.busError m a true c
    | none => (s.wrMem a (bytesLE size.bytes data.toNat)).reply 0

/-- A read of a master at any address of the system bus; the value of a memory word with an uncorrectable
error is not returned (R24).
DESIGN CHOICE, safe (log entry 120). -/
def State.read (s : State) (m : Master) (a : Nat) (size : AccessSize) : State :=
  match targetOf a with
  | .reg key =>
    match s.regCheck m key size false with
    | some c => s.busError m a false c
    | none =>
      let s := s.catchUp m (key / 0x100000)
      let lo := s.readWord key
      if size = .double then
        let hi := lo.2.readWord (key + 4)
        hi.2.reply (BitVec.ofNat 64 (lo.1.toNat + 2 ^ 32 * hi.1.toNat))
      else lo.2.reply (lo.1.setWidth 64)
  | .bitAlias key b =>
    match s.aliasCheck m a key size false with
    | some c => s.busError m a false c
    | none =>
      let r := (s.catchUp m (key / 0x100000)).readWord key
      r.2.reply (BitVec.ofNat 64 (b2n (getBit r.1 b)))
  | .outbound => s.outbound m a size false 0
  | _ =>
    match s.memCheckRange m a size.bytes .read with
    | some c => s.busError m a false c
    | none =>
      match s.badMem a size.bytes with
      | some x => { s.badRead x with busReply := { data := 0, error := true } }
      | none => s.reply (BitVec.ofNat 64 (natLE (s.rdBytes a size.bytes)))

end Sys2Proof.Machine
end

