-- ==== Sys2Proof/Machine/Inbound.lean ====
section
/-!
DEFINITION. Inbound requests: an inbound window, its byte lanes, the accesses that the request makes on
the system bus, and how it completes (R20, R35, R313, R316, R321).
-/

namespace Sys2Proof.Machine

open Sys2Proof

/-- The enabled inbound window with the lowest index that covers a request of `n` bytes: by bus address
for a root port, by BAR and offset for an endpoint (R313, R314). -/
def State.inboundWindow (s : State) (bar2 : Bool) (a n : Nat) : Option (Nat × Window) :=
  firstWindow s.inWindow
    (fun x => x.covers a && x.covers (a + n - 1) && (s.rootPort || x.bar2 == bar2)) 32

/-- The enabled bytes of an aligned group of `w` form one naturally aligned field: its size. -/
def fieldSize (w : Nat) (offs : List Nat) : Option Nat :=
  match offs with
  | [] => some w
  | o :: _ =>
    let n := offs.length
    if w % n = 0 ∧ o % n = 0 ∧ offs = (List.range n).map (fun i => o + i) ∧ n ∈ [1, 2, 4, 8] then some n
    else none

/-- Bus addresses of the enabled bytes. -/
def enabledBytes (a : Nat) (bytes : List (Option Byte)) : List (Nat × Byte) :=
  (List.range bytes.length).filterMap (fun i =>
    match bytes.getD i none with
    | some v => some (a + i, v)
    | none => none)

/-- Offsets of the enabled bytes in the aligned group of `w` that holds a bus address. -/
def groupOffsets (w : Nat) (cells : List (Nat × Byte)) (b : Nat) : List Nat :=
  (cells.filter (fun c => c.1 / w == b / w)).map (fun c => c.1 % w)

/-- Where the byte at a bus address lands, as a bus address again; none when its group fails (R316). -/
def inboundLane (lanes : Nat) (cells : List (Nat × Byte)) (b : Nat) : Option Nat :=
  let w := laneWidth lanes
  if lanes = 0 then some b
  else if 4 ≤ lanes then some (laneAddr lanes w b)
  else (fieldSize w (groupOffsets w cells b)).map (fun n => laneAddr lanes n b)

/-- The bytes of a request at their local addresses; none when a group fails. -/
def localBytes (x : Window) (cells : List (Nat × Byte)) : Option (List (Nat × Byte)) :=
  cells.mapM (fun c => (inboundLane x.lanes cells c.1).map (fun b => (x.map b, c.2)))

/-- An access of a request: address, size, and the bytes it carries. -/
structure Piece where
  addr : Nat
  size : AccessSize
  data : Nat
  deriving DecidableEq, Repr

/-- The local address is a register or an alias of one. -/
def inRegisters (a : Nat) : Bool :=
  match targetOf a with
  | .reg _ | .bitAlias _ _ => true
  | _ => false

/-- The 64-bit access R30 allows at an address: a pair, aligned. -/
def pairAt (a : Nat) : Bool :=
  match targetOf a with
  | .reg key => sizeOk key .double
  | .bitAlias _ _ => false
  | _ => a % 8 == 0

/-- The value of a byte of a request. -/
def cellAt (cells : List (Nat × Byte)) (a : Nat) : Option Byte := cells.lookup a

/-- The number that `n` enabled bytes from an address spell; none when one is missing. -/
def cellsFrom (cells : List (Nat × Byte)) (a n : Nat) : Option Nat :=
  ((List.range n).mapM (fun i => cellAt cells (a + i))).map natLE

/-- The accesses of a request, in address order: whole pairs and words where they are enabled, single
bytes elsewhere; a byte alone is no legal size for a register. -/
def piecesFrom (cells : List (Nat × Byte)) : Nat → List Nat → List Piece
  | 0, _ => []
  | _, [] => []
  | fuel + 1, a :: rest =>
    match (if pairAt a then cellsFrom cells a 8 else none),
        (if a % 4 = 0 then cellsFrom cells a 4 else none) with
    | some v, _ => ⟨a, .double, v⟩ :: piecesFrom cells fuel (rest.filter (fun b => a + 8 ≤ b))
    | none, some v => ⟨a, .word, v⟩ :: piecesFrom cells fuel (rest.filter (fun b => a + 4 ≤ b))
    | none, none => ⟨a, .byte, ((cellAt cells a).getD 0).toNat⟩ :: piecesFrom cells fuel rest

/-- The accesses of a request. -/
def pieces (cells : List (Nat × Byte)) : List Piece :=
  piecesFrom cells cells.length (sortBy (fun a b => decide (a ≤ b)) (cells.map (fun c => c.1)))

/-- The cause of the bus error that an access of a request would end in. -/
def State.pieceCause (s : State) (m : Master) (write : Bool) (p : Piece) : Option Nat :=
  match targetOf p.addr with
  | .reg key => s.regCheck m key p.size write
  | .bitAlias key _ => s.aliasCheck m p.addr key p.size write
  | _ => s.memCheckRange m p.addr p.size.bytes (if write then .write else .read)

/-- One read of a request: its bytes; what the host answers at an outbound address is open. -/
def State.readPiece (s : State) (m : Master) (p : Piece) : List (Nat × Byte) × State :=
  let n := p.size.bytes
  if targetOf p.addr = .outbound then
    match s.busRead m p.addr n with
    | (.ok bs, s) => ((List.range n).map (fun i => (p.addr + i, bs.getD i 0)), s)
    | (.error _, s) => ([], s)
  else
    let s := s.read m p.addr p.size
    ((List.range n).map (fun i => (p.addr + i, byteOf s.busReply.data.toNat i)), s)

/-- The bridge answers a non-posted request. -/
def State.complete (s : State) (write urgent : Bool) (rid status : Nat) (data : List Byte) : State :=
  if write then s
  else { s with hbr := { s.hbr with completion := some ⟨status, rid, urgent, data⟩ } }

/-- The requester ID, class and direction of an inbound request, for its log entry and completion. -/
structure InboundId where
  write : Bool
  urgent : Bool
  rid : Nat
  bus : Nat
  deriving DecidableEq, Repr

/-- A refused request: logged, completed with a status when it is non-posted, and in endpoint mode reported
to the root as the error that status names (R321). -/
def State.refuseInbound (s : State) (q : InboundId) (type status win addr : Nat) (indigo : Bool) :
    State :=
  let s := (s.hbrLog type
    { inbound := true, win := win, master := bridgeMaster indigo, bus := q.bus, rid := q.rid,
      addr := addr }).complete q.write q.urgent q.rid status []
  if s.rootPort then s else { s with hbr := { s.hbr with aerSent := some status } }

/-- A request whose accesses pass every check: they act in address order. -/
def State.runInbound (s : State) (m : Master) (q : InboundId) (x : Window) (cells : List (Nat × Byte))
    (ps : List Piece) : State :=
  if q.write then ps.foldl (fun s p => s.write m p.addr p.size (BitVec.ofNat 64 p.data)) s
  else
    let r := ps.foldl (fun (acc : List (Nat × Byte) × State) p =>
      let t := acc.2.readPiece m p
      (acc.1 ++ t.1, t.2)) ([], s)
    let data := cells.map (fun c =>
      match inboundLane x.lanes cells c.1 with
      | some b => (r.1.lookup (x.map b)).getD 0
      | none => 0)
    r.2.complete q.write q.urgent q.rid 0 data

/-- INBOUND_REQUEST: a TLP from the host, with its enabled bytes from an address on; of a read the enabled
positions count, at most 512 of them (R311). It is counted, matched to a window, and passed to the fabric or
refused as a whole (R20, R35, R316, R321).
DEDUCED, unsafe (log entry 23). -/
def execInboundRequest (write urgent bar2 : Bool) (rid : BitVec 16) (addr : BitVec 64)
    (bytes : List (Option Byte)) (s : State) : Host.Outcome State Fault Refusal :=
  .next (if !s.linkUp || !s.blkAccepts 0x1E || decide (512 < bytes.length) then s
    else
      let s := if write then (s.bump Cnt.HBR_IN_POSTED).monEvent 0x322
        else (s.bump Cnt.HBR_IN_NP).monEvent 0x323
      let a := addr.toNat
      let q : InboundId := ⟨write, urgent, rid.toNat, a⟩
      match s.inboundWindow bar2 a (max 1 bytes.length) with
      | none => s.refuseInbound q 9 1 0 0 true
      | some (w, x) =>
        let m := bridgeMaster x.indigo
        let cells := enabledBytes a bytes
        match localBytes x cells with
        | none => s.refuseInbound q 0xD 4 w (x.map a) x.indigo
        | some loc =>
          let ps := pieces loc
          match ps.find? (fun p => (s.pieceCause m write p).isSome) with
          | some p =>
            let c := (s.pieceCause m write p).getD 0
            let s := s.busError m p.addr write c
            if c = 4 ∨ c = 5 then s.refuseInbound q 0xA 1 w p.addr x.indigo
            else s.refuseInbound q 0xB 4 w p.addr x.indigo
          | none => s.runInbound m q x cells ps)

end Sys2Proof.Machine
end

