-- ==== Sys2Proof/Machine/Link.lean ====
section
/-!
DEFINITION. The Traverse link between the Core die and the Edge die: replay, retrain and loss (R10,
R11, R32, R33, R57, R233).
-/

namespace Sys2Proof.Machine

open Sys2Proof

/-- PHYSTALE of the ports whose PHYs are on the Edge die (R57). -/
def State.setPhyStale (s : State) (v : Bool) : State :=
  (List.range 32).foldl (fun acc p => if 12 ≤ p then acc.setBit (Reg.PRT_PSTAT p) 11 v else acc) s

/-- What was held is applied, in order, once the retrain is over (R11, R57). -/
def State.applyHeld (s : State) : HeldEvent → State
  | .linkUp p rate => s.linkCameUp p rate
  | .linkDown p => s.linkWentDown p
  | .rxBegin f => s.releaseRetrained f
  | .rxEnd f rest err => s.endRx f rest err
  | .pfc p enables quanta => s.pfcArrives p enables quanta
  | .pause p quanta => s.pauseArrives p quanta

/-- A retrain starts: the link reports recovering, and the Edge die's local time drifts (R11, R233).
DESIGN CHOICE, unsafe (log entry 146). -/
def State.startRetrain (s : State) : State :=
  if s.traverse.state = .up then
    let f := s.takeFree
    let gain := clampInt (-131072) 131072 (signed 32 (Config.freeWord f.1).toNat)
    { f.2 with
      traverse := { s.traverse with state := .recovering, retrainSince := s.nowNs }
      tim := { s.tim with edgeSkew := s.tim.edgeSkew + gain } }.setPhyStale true
  else s

/-- TRAVERSE_FLIT_REPLAY: a flit is replayed; more than 16 replays in 1 ms start a retrain.
DEDUCED, unsafe (log entry 39). -/
def execTraverseFlitReplay (s : State) : Host.Outcome State Fault Refusal :=
  .next (if s.traverse.state ≠ .up then s
    else
      let t := s.traverse
      let t := if s.nowNs - t.replaySince < 1000000 then { t with replays := t.replays + 1 }
        else { t with replays := 1, replaySince := s.nowNs }
      let s := { s with traverse := t }
      if 16 < t.replays then s.startRetrain else s)

/-- TRAVERSE_RETRAIN_START: a lane has lost alignment, or replays exceed 16 in 1 ms. -/
def execTraverseRetrainStart (s : State) : Host.Outcome State Fault Refusal := .next s.startRetrain

/-- TRAVERSE_RETRAIN_DONE: traffic resumes, with what was held first; the time the retrain took is reported
(R11, R57, R444). -/
def execTraverseRetrainDone (s : State) : Host.Outcome State Fault Refusal :=
  .next (if s.traverse.state = .recovering then
      let took := s.nowNs - s.traverse.retrainSince
      let held := s.traverse.held
      let s := { s with
        traverse := { s.traverse with
          state := .up, replays := 0, held := [], recovered := s.recovered }
        tim := { s.tim with realign := true } }
      (held.foldl State.applyHeld (s.setPhyStale false)).fault 0x1404 took
    else s)

/-- The retrain began at least some nanoseconds ago. -/
def State.retrainLasts (s : State) (ns : Nat) : Bool := decide (s.traverse.retrainSince + ns ≤ s.nowNs)

/-- TRAVERSE_RETRAIN_TIMEOUT: not complete within 100 µs, the link has failed. -/
def execTraverseRetrainTimeout (s : State) : Host.Outcome State Fault Refusal :=
  .next (if s.traverse.state = .recovering ∧ s.retrainLasts 100000 = true then
      { s with traverse := { s.traverse with state := .failed, recovered := s.recovered } }
    else s)

/-- The frames of the retrain buffer are lost with the link. -/
def State.dropHeld (s : State) : State :=
  { s with
    traverse := { s.traverse with held := [] }
    frames := s.frames.filter (fun e => match e.2 with
      | some v => v.stage != .retrain
      | none => true) }

/-- TRAVERSE_LOSS_TIMEOUT: the loss timer of 1 ms and the grace of 100 µs that a retrain takes have passed
since it began; the link is declared lost; the writes still queued are discarded, and the
address of the oldest is recorded with the fault (R11, R33, R444).
DEDUCED, unsafe (log entry 155). -/
def execTraverseLossTimeout (s : State) : Host.Outcome State Fault Refusal :=
  .next (if s.traverse.state = .up ∨ s.traverse.state = .lost ∨ s.retrainLasts 1100000 = false then s
    else
      let oldest := match s.edgeQueue with
        | w :: _ => w.addr
        | [] => 0
      let s := s.dropHeld
      { s with traverse := { s.traverse with state := .lost }, edgeQueue := [] }.fault 0x3405 oldest)

end Sys2Proof.Machine
end

