-- ==== Sys2Proof/Machine/Register.lean ====
section
/-!
DEFINITION. The commands of the register interface: writes, reads and bit-alias writes of any address, the
three locks, and the arrival of queued writes at the Edge die and in AON (chapter *Register interface and
address map*).
-/

namespace Sys2Proof.Machine

open Sys2Proof

/-- REGISTER_WRITE: a write of a master; each field acts by its type (R8, R29, R30, R40, R44 to R49). -/
def execRegisterWrite (m : Master) (addr : BitVec 40) (size : AccessSize) (data : BitVec 64)
    (s : State) : Host.Outcome State Fault Refusal :=
  .next (s.write m addr.toNat size data)

/-- SNAP_READ: a read of a master; SNAP fields and pairs are latched at the read (R8, R30).
DESIGN CHOICE, safe (log entry 13). -/
def execSnapRead (m : Master) (addr : BitVec 40) (size : AccessSize) (s : State) :
    Host.Outcome State Fault Refusal :=
  .next (s.read m addr.toNat size)

/-- BIT_ALIAS_WRITE: an aligned 32-bit write in the alias window (R42, R43). -/
def execBitAliasWrite (m : Master) (addr : BitVec 40) (data : Word) (s : State) :
    Host.Outcome State Fault Refusal :=
  .next (match targetOf addr.toNat with
    | .bitAlias _ _ => s.write m addr.toNat .word (data.setWidth 64)
    | _ => s.busError m addr.toNat true 6)

/-- WORLD_LOCK: SYS_WORLDLOCK.LOCK is written 1 (R45). -/
def execWorldLock (m : Master) (s : State) : Host.Outcome State Fault Refusal :=
  .next (guardReg m Reg.SYS_WORLDLOCK (fun s => s.setBit Reg.SYS_WORLDLOCK 0 true) s)

/-- REGION_LOCK: LOCK of a region descriptor is written 1 (R46). -/
def execRegionLock (m : Master) (n : Fin 256) (s : State) : Host.Outcome State Fault Refusal :=
  .next (guardReg m (Reg.SYS_RGNATTR n.val) (fun s => s.setBit (Reg.SYS_RGNATTR n.val) 5 true) s)

/-- PARTITION_LOCK: CPX_PARTLOCK.LOCK is written 1 (R338). -/
def execPartitionLock (m : Master) (s : State) : Host.Outcome State Fault Refusal :=
  .next (guardReg m Reg.CPX_PARTLOCK (fun s => s.setBit Reg.CPX_PARTLOCK 0 true) s)

/-- EDGE_WRITE_APPLIED: the oldest queued write is applied; the channel delivers while the link is up
(R33). -/
def execEdgeWriteApplied (s : State) : Host.Outcome State Fault Refusal :=
  .next (if s.edgeReachable then s.edgeApply else s)

/-- AON_WRITE_APPLIED: the oldest write toward AON is applied (R32). -/
def execAonWriteApplied (s : State) : Host.Outcome State Fault Refusal := .next s.aonApply

end Sys2Proof.Machine
end

