-- ==== Sys2Proof/Machine/RitikAlu.lean ====
section
/-!
DEFINITION. Arithmetic, logic, shift, count and field instructions of Ritik, formats A and I
(R153, R154).
-/

namespace Sys2Proof.Machine

open Sys2Proof

/-- A result with its flags, of two operand values under the old flags. -/
abbrev AluFn := Flags → Word → Word → Word × Flags

/-- rd := the result of ra and a second operand, with the flags (R151). -/
def Thread.alu (th : Thread) (rd : Gpr) (a b : Word) (f : AluFn) : Thread :=
  ({ th with flags := (f th.flags a b).2 } : Thread).setReg rd.val (f th.flags a b).1

/-- A three-register instruction. -/
def State.aluReg (s : State) (t : ThreadId) (profs : List Profile) (rd ra rb : Gpr) (f : AluFn) :
    State :=
  s.threadOp t.val profs (fun th => th.alu rd (th.reg ra.val) (th.reg rb.val) f)

/-- A register and immediate instruction. -/
def State.aluImm (s : State) (t : ThreadId) (rd ra : Gpr) (imm : Word) (f : AluFn) : State :=
  s.threadOp t.val allProfiles (fun th => th.alu rd (th.reg ra.val) imm f)

/-- Addition. -/
def addFn : AluFn := fun _ a b => (a + b, addFlags a b)

/-- Subtraction. -/
def subFn : AluFn := fun _ a b => (a - b, subFlags a b)

/-- A logic operation. -/
def logicFn (op : Word → Word → Word) : AluFn := fun f a b => (op a b, logicFlags f (op a b))

/-- The amount of a shift: the low five bits.
DEDUCED, unsafe (log entry 58). -/
def shiftAmount (b : Word) : Nat := getBits b 0 5

/-- Shift left. -/
def shlFn : AluFn := fun f a b =>
  let n := shiftAmount b
  let r := a <<< n
  (r, shiftFlags f r (if n = 0 then none else some (getBit a (32 - n))))

/-- Logical shift right. -/
def shrFn : AluFn := fun f a b =>
  let n := shiftAmount b
  let r := a >>> n
  (r, shiftFlags f r (if n = 0 then none else some (getBit a (n - 1))))

/-- Arithmetic shift right. -/
def sarFn : AluFn := fun f a b =>
  let n := shiftAmount b
  let r := a.sshiftRight n
  (r, shiftFlags f r (if n = 0 then none else some (getBit a (n - 1))))

/-- Rotate right. -/
def rorFn : AluFn := fun f a b =>
  let n := shiftAmount b
  let r := a.rotateRight n
  (r, shiftFlags f r (if n = 0 then none else some (getBit a (n - 1))))

/-- The Q16.16 product before saturation, rounded towards minus infinity. -/
def mulqExact (a b : Word) : Int := Int.fdiv (a.toInt * b.toInt) 65536

/-- A saturating result. -/
def satFn (op : Word → Word → Int) : AluFn := fun f a b =>
  (sat32 (op a b), satFlags f (sat32 (op a b)) (saturates (op a b)))

/-- Signed minimum. -/
def minFn : AluFn := logicFn (fun a b => if a.toInt ≤ b.toInt then a else b)

/-- Signed maximum. -/
def maxFn : AluFn := logicFn (fun a b => if a.toInt ≤ b.toInt then b else a)

/-- ADD (R153). -/
def execAdd (t : ThreadId) (rd ra rb : Gpr) (s : State) : Host.Outcome State Fault Refusal :=
  .next (s.aluReg t allProfiles rd ra rb addFn)

/-- SUB (R153). -/
def execSub (t : ThreadId) (rd ra rb : Gpr) (s : State) : Host.Outcome State Fault Refusal :=
  .next (s.aluReg t allProfiles rd ra rb subFn)

/-- AND (R153). -/
def execAnd (t : ThreadId) (rd ra rb : Gpr) (s : State) : Host.Outcome State Fault Refusal :=
  .next (s.aluReg t allProfiles rd ra rb (logicFn (· &&& ·)))

/-- OR (R153). -/
def execOr (t : ThreadId) (rd ra rb : Gpr) (s : State) : Host.Outcome State Fault Refusal :=
  .next (s.aluReg t allProfiles rd ra rb (logicFn (· ||| ·)))

/-- XOR (R153). -/
def execXor (t : ThreadId) (rd ra rb : Gpr) (s : State) : Host.Outcome State Fault Refusal :=
  .next (s.aluReg t allProfiles rd ra rb (logicFn (· ^^^ ·)))

/-- SHL (R153). -/
def execShl (t : ThreadId) (rd ra rb : Gpr) (s : State) : Host.Outcome State Fault Refusal :=
  .next (s.aluReg t allProfiles rd ra rb shlFn)

/-- SHR (R153). -/
def execShr (t : ThreadId) (rd ra rb : Gpr) (s : State) : Host.Outcome State Fault Refusal :=
  .next (s.aluReg t allProfiles rd ra rb shrFn)

/-- SAR (R153). -/
def execSar (t : ThreadId) (rd ra rb : Gpr) (s : State) : Host.Outcome State Fault Refusal :=
  .next (s.aluReg t allProfiles rd ra rb sarFn)

/-- ROR (R153). -/
def execRor (t : ThreadId) (rd ra rb : Gpr) (s : State) : Host.Outcome State Fault Refusal :=
  .next (s.aluReg t allProfiles rd ra rb rorFn)

/-- MUL (R153). -/
def execMul (t : ThreadId) (rd ra rb : Gpr) (s : State) : Host.Outcome State Fault Refusal :=
  .next (s.aluReg t allProfiles rd ra rb (logicFn (· * ·)))

/-- MULQ, in P and C only (R153). -/
def execMulq (t : ThreadId) (rd ra rb : Gpr) (s : State) : Host.Outcome State Fault Refusal :=
  .next (s.aluReg t [.p, .c] rd ra rb (satFn mulqExact))

/-- ADDS (R153). -/
def execAdds (t : ThreadId) (rd ra rb : Gpr) (s : State) : Host.Outcome State Fault Refusal :=
  .next (s.aluReg t allProfiles rd ra rb (satFn (fun a b => a.toInt + b.toInt)))

/-- SUBS (R153). -/
def execSubs (t : ThreadId) (rd ra rb : Gpr) (s : State) : Host.Outcome State Fault Refusal :=
  .next (s.aluReg t allProfiles rd ra rb (satFn (fun a b => a.toInt - b.toInt)))

/-- CMP: a subtraction whose result is discarded (R153). -/
def execCmp (t : ThreadId) (ra rb : Gpr) (s : State) : Host.Outcome State Fault Refusal :=
  .next (s.aluReg t allProfiles 0 ra rb subFn)

/-- TST: an AND whose result is discarded (R153). -/
def execTst (t : ThreadId) (ra rb : Gpr) (s : State) : Host.Outcome State Fault Refusal :=
  .next (s.aluReg t allProfiles 0 ra rb (logicFn (· &&& ·)))

/-- MIN (R153). -/
def execMin (t : ThreadId) (rd ra rb : Gpr) (s : State) : Host.Outcome State Fault Refusal :=
  .next (s.aluReg t allProfiles rd ra rb minFn)

/-- MAX (R153). -/
def execMax (t : ThreadId) (rd ra rb : Gpr) (s : State) : Host.Outcome State Fault Refusal :=
  .next (s.aluReg t allProfiles rd ra rb maxFn)

/-- A count with its flags. -/
def countFn (op : Word → Nat) : AluFn := fun f a _ =>
  (BitVec.ofNat 32 (op a), countFlags f (BitVec.ofNat 32 (op a)))

/-- CLZ (R153). -/
def execClz (t : ThreadId) (rd ra : Gpr) (s : State) : Host.Outcome State Fault Refusal :=
  .next (s.aluReg t allProfiles rd ra 0 (countFn leadingZeros))

/-- POPC (R153). -/
def execPopc (t : ThreadId) (rd ra : Gpr) (s : State) : Host.Outcome State Fault Refusal :=
  .next (s.aluReg t allProfiles rd ra 0 (countFn onesCount))

/-- CSUPD: checksum rd updated for a field that changes from ra to rb; no flags (R153). -/
def execCsupd (t : ThreadId) (rd ra rb : Gpr) (s : State) : Host.Outcome State Fault Refusal :=
  .next (s.threadOp t.val [.p] (fun th =>
    th.setReg rd.val (BitVec.ofNat 32
      (checksumUpdate (getBits (th.reg rd.val) 0 16) (getBits (th.reg ra.val) 0 16)
        (getBits (th.reg rb.val) 0 16)))))

/-- The value RDS reads (R153): selectors 3 to 5 read 0 outside P. -/
def State.special (s : State) (t : Nat) (th : Thread) (sel : Nat) : Word :=
  let inP := profileOf t == .p
  match sel with
  | 0 => threadRegister t
  | 1 => th.flags.word
  | 2 => th.issued - 1
  | 3 =>
    match th.frame.bind (fun f => s.frame f) with
    | some v => if inP then BitVec.ofNat 32 v.gen else 0
    | none => 0
  | 4 => if inP then BitVec.ofNat 32 th.reqs.length else 0
  | _ => if inP then BitVec.ofNat 32 th.h.length else 0

/-- RDS; selectors 6 to 15 take ILLEGAL (R153). -/
def execRds (t : ThreadId) (rd : Gpr) (sel : Fin 16) (s : State) :
    Host.Outcome State Fault Refusal :=
  .next (s.issue t.val (decide (6 ≤ sel.val)) allProfiles (fun _ => .go)
    (fun th s => s.setThread t.val (th.setReg rd.val (s.special t.val th sel.val))))

/-- WRF (R153). -/
def execWrf (t : ThreadId) (ra : Gpr) (s : State) : Host.Outcome State Fault Refusal :=
  .next (s.threadOp t.val allProfiles (fun th => { th with flags := flagsOf (th.reg ra.val) }))

/-- ADDI (R154). -/
def execAddi (t : ThreadId) (rd ra : Gpr) (imm : BitVec 16) (s : State) :
    Host.Outcome State Fault Refusal :=
  .next (s.aluImm t rd ra (sext16 imm) addFn)

/-- ANDI (R154). -/
def execAndi (t : ThreadId) (rd ra : Gpr) (imm : BitVec 16) (s : State) :
    Host.Outcome State Fault Refusal :=
  .next (s.aluImm t rd ra (zext16 imm) (logicFn (· &&& ·)))

/-- ORI (R154). -/
def execOri (t : ThreadId) (rd ra : Gpr) (imm : BitVec 16) (s : State) :
    Host.Outcome State Fault Refusal :=
  .next (s.aluImm t rd ra (zext16 imm) (logicFn (· ||| ·)))

/-- XORI (R154). -/
def execXori (t : ThreadId) (rd ra : Gpr) (imm : BitVec 16) (s : State) :
    Host.Outcome State Fault Refusal :=
  .next (s.aluImm t rd ra (zext16 imm) (logicFn (· ^^^ ·)))

/-- SHLI (R154). -/
def execShli (t : ThreadId) (rd ra : Gpr) (n : Fin 32) (s : State) :
    Host.Outcome State Fault Refusal :=
  .next (s.aluImm t rd ra (BitVec.ofNat 32 n.val) shlFn)

/-- SHRI (R154). -/
def execShri (t : ThreadId) (rd ra : Gpr) (n : Fin 32) (s : State) :
    Host.Outcome State Fault Refusal :=
  .next (s.aluImm t rd ra (BitVec.ofNat 32 n.val) shrFn)

/-- SARI (R154). -/
def execSari (t : ThreadId) (rd ra : Gpr) (n : Fin 32) (s : State) :
    Host.Outcome State Fault Refusal :=
  .next (s.aluImm t rd ra (BitVec.ofNat 32 n.val) sarFn)

/-- MOVI (R154). -/
def execMovi (t : ThreadId) (rd : Gpr) (imm : BitVec 16) (s : State) :
    Host.Outcome State Fault Refusal :=
  .next (s.threadOp t.val allProfiles (fun th => th.setReg rd.val (zext16 imm)))

/-- MOVHI (R154). -/
def execMovhi (t : ThreadId) (rd : Gpr) (imm : BitVec 16) (s : State) :
    Host.Outcome State Fault Refusal :=
  .next (s.threadOp t.val allProfiles
    (fun th => th.setReg rd.val (zext16 imm <<< 16 ||| (th.reg rd.val &&& 0xFFFF))))

/-- CMPI (R154). -/
def execCmpi (t : ThreadId) (ra : Gpr) (imm : BitVec 16) (s : State) :
    Host.Outcome State Fault Refusal :=
  .next (s.aluImm t 0 ra (sext16 imm) subFn)

/-- TSTI (R154). -/
def execTsti (t : ThreadId) (ra : Gpr) (imm : BitVec 16) (s : State) :
    Host.Outcome State Fault Refusal :=
  .next (s.aluImm t 0 ra (zext16 imm) (logicFn (· &&& ·)))

/-- EXT: w bits of ra from bit p, bits from beyond bit 31 reading 0 (R154). -/
def execExt (t : ThreadId) (rd ra : Gpr) (p wm1 : Fin 32) (s : State) :
    Host.Outcome State Fault Refusal :=
  .next (s.aluImm t rd ra 0
    (logicFn (fun a _ => BitVec.ofNat 32 (getBits a p.val (wm1.val + 1)))))

/-- INS: rd[p+w-1:p] := ra[w-1:0], bits beyond bit 31 discarded (R154). -/
def execIns (t : ThreadId) (rd ra : Gpr) (p wm1 : Fin 32) (s : State) :
    Host.Outcome State Fault Refusal :=
  .next (s.threadOp t.val allProfiles (fun th =>
    th.alu rd (th.reg ra.val) (th.reg rd.val)
      (logicFn (fun a d => setBits d p.val (Nat.min (wm1.val + 1) (32 - p.val)) a.toNat))))

end Sys2Proof.Machine
end

