-- ==== Sys2Proof/Machine/RitikFlow.lean ====
section
/-!
DEFINITION. Branches and jumps, loads, stores and atomic operations of Ritik, and the two traps a
fetch takes (R145, R148, R153, R155, R156).
-/

namespace Sys2Proof.Machine

open Sys2Proof

/-- A branch: on its condition the pc becomes the target, and with a link g15 the next pc (R148).
The pc of the branch itself is `lastPc` of the thread as issued. -/
def Thread.branch (th : Thread) (cond : Cond) (off : BitVec 24) (link : Bool) : Thread :=
  if condHolds cond th.flags then
    { (if link then th.setReg 15 th.pc else th) with pc := branchTarget th.lastPc off }
  else th

/-- B.cond (R148). -/
def execBCond (t : ThreadId) (cond : Cond) (off : BitVec 24) (s : State) :
    Host.Outcome State Fault Refusal :=
  .next (s.threadOp t.val allProfiles (fun th => th.branch cond off false))

/-- BL.cond (R148). -/
def execBlCond (t : ThreadId) (cond : Cond) (off : BitVec 24) (s : State) :
    Host.Outcome State Fault Refusal :=
  .next (s.threadOp t.val allProfiles (fun th => th.branch cond off true))

/-- JR (R153). -/
def execJr (t : ThreadId) (ra : Gpr) (s : State) : Host.Outcome State Fault Refusal :=
  .next (s.threadOp t.val allProfiles (fun th => { th with pc := th.reg ra.val }))

/-- JLR: the target is ra as it was before g15 is written (R153). -/
def execJlr (t : ThreadId) (ra : Gpr) (s : State) : Host.Outcome State Fault Refusal :=
  .next (s.threadOp t.val allProfiles
    (fun th => { th.setReg 15 th.pc with pc := th.reg ra.val }))

/-- LD (R156). -/
def execLd (t : ThreadId) (rd ra : Gpr) (sp : MemSpace) (sz : MemSize) (off : BitVec 12)
    (s : State) : Host.Outcome State Fault Refusal :=
  .next (s.issue t.val (badSize sp sz) (spaceProfiles sp)
    (fun th => s.checkLoad t.val sp (memBytes sz) (effAddr th ra off) th)
    (fun th s => s.setThread t.val (th.setReg rd.val
      (BitVec.ofNat 32 (s.loadValue t.val sp (memBytes sz) (effAddr th ra off) th)))))

/-- LDS (R156). -/
def execLds (t : ThreadId) (rd ra : Gpr) (sp : MemSpace) (sz : MemSize) (off : BitVec 12)
    (s : State) : Host.Outcome State Fault Refusal :=
  .next (s.issue t.val (badSize sp sz) (spaceProfiles sp)
    (fun th => s.checkLoad t.val sp (memBytes sz) (effAddr th ra off) th)
    (fun th s => s.setThread t.val (th.setReg rd.val
      (sextSize sz (s.loadValue t.val sp (memBytes sz) (effAddr th ra off) th)))))

/-- ST (R156). -/
def execSt (t : ThreadId) (rd ra : Gpr) (sp : MemSpace) (sz : MemSize) (off : BitVec 12)
    (s : State) : Host.Outcome State Fault Refusal :=
  .next (s.issue t.val (badSize sp sz) (spaceProfiles sp)
    (fun th => s.checkStore t.val sp (memBytes sz) (effAddr th ra off) th)
    (fun th s => s.storeValue t.val sp (memBytes sz) (effAddr th ra off) th (th.reg rd.val)))

/-- An atomic operation on a word of D: the old word goes to rd, and a function of the old word
and rd to memory (R156). -/
def State.atomic (s : State) (t : ThreadId) (rd ra : Gpr) (off : BitVec 12)
    (f : Word → Word → Word) : State :=
  s.issue t.val false [.p, .c] (fun th => s.checkD t.val (effAddr th ra off) 4 true)
    (fun th s =>
      let old := s.dWord t.val (effAddr th ra off)
      (s.setD t.val (effAddr th ra off / 4) (f old (th.reg rd.val))).setThread t.val
        (th.setReg rd.val old))

/-- AADD (R156). -/
def execAadd (t : ThreadId) (rd ra : Gpr) (off : BitVec 12) (s : State) :
    Host.Outcome State Fault Refusal :=
  .next (s.atomic t rd ra off (fun old r => old + r))

/-- ASWP (R156). -/
def execAswp (t : ThreadId) (rd ra : Gpr) (off : BitVec 12) (s : State) :
    Host.Outcome State Fault Refusal :=
  .next (s.atomic t rd ra off (fun _ r => r))

/-- ILLEGAL: a word with a reserved format, opcode, condition or field is fetched (R145); or, where it says
`unit`, a PDCMD whose command code R359 does not list, which takes UNIT in profile C and PROFILE elsewhere.
DESIGN CHOICE, safe (log entry 122). -/
def execIllegal (x : BadWord) (s : State) : Host.Outcome State Fault Refusal :=
  .next (s.issue x.thread.val (!x.unit) (if x.unit then [.c] else allProfiles)
    (fun _ => .trap .unit) (fun _ s => s))

/-- PC_RANGE: a thread fetches beyond program memory and takes the trap (R155). -/
def execPcRange (t : ThreadId) (s : State) : Host.Outcome State Fault Refusal :=
  let th := s.thread t.val
  .next (if s.hasTurn t.val = true ∧ s.up (engineIsland t.val) = true ∧
        pmemSize (profileOf t.val) ≤ th.pc.toNat then
      (s.issuedFrom t.val).trapAt t.val .pcRange th.lastPc
    else s)

end Sys2Proof.Machine
end

