-- ==== Sys2Proof/Machine/Dispatch.lean ====
section
/-!
DEFINITION. Dispatch: one arm per command, each a direct call of its meaning.
-/

namespace Sys2Proof.Machine

open Sys2Proof

def exec (i : Instr) (s : State) : Host.Outcome State Fault Refusal :=
  match i with
  | .add t rd ra rb => Sys2Proof.Machine.execAdd t rd ra rb s
  | .sub t rd ra rb => Sys2Proof.Machine.execSub t rd ra rb s
  | .and t rd ra rb => Sys2Proof.Machine.execAnd t rd ra rb s
  | .or t rd ra rb => Sys2Proof.Machine.execOr t rd ra rb s
  | .xor t rd ra rb => Sys2Proof.Machine.execXor t rd ra rb s
  | .shl t rd ra rb => Sys2Proof.Machine.execShl t rd ra rb s
  | .shr t rd ra rb => Sys2Proof.Machine.execShr t rd ra rb s
  | .sar t rd ra rb => Sys2Proof.Machine.execSar t rd ra rb s
  | .ror t rd ra rb => Sys2Proof.Machine.execRor t rd ra rb s
  | .mul t rd ra rb => Sys2Proof.Machine.execMul t rd ra rb s
  | .mulq t rd ra rb => Sys2Proof.Machine.execMulq t rd ra rb s
  | .adds t rd ra rb => Sys2Proof.Machine.execAdds t rd ra rb s
  | .subs t rd ra rb => Sys2Proof.Machine.execSubs t rd ra rb s
  | .cmp t ra rb => Sys2Proof.Machine.execCmp t ra rb s
  | .tst t ra rb => Sys2Proof.Machine.execTst t ra rb s
  | .min t rd ra rb => Sys2Proof.Machine.execMin t rd ra rb s
  | .max t rd ra rb => Sys2Proof.Machine.execMax t rd ra rb s
  | .clz t rd ra => Sys2Proof.Machine.execClz t rd ra s
  | .popc t rd ra => Sys2Proof.Machine.execPopc t rd ra s
  | .csupd t rd ra rb => Sys2Proof.Machine.execCsupd t rd ra rb s
  | .jr t ra => Sys2Proof.Machine.execJr t ra s
  | .jlr t ra => Sys2Proof.Machine.execJlr t ra s
  | .rds t rd sel => Sys2Proof.Machine.execRds t rd sel s
  | .wrf t ra => Sys2Proof.Machine.execWrf t ra s
  | .addi t rd ra imm => Sys2Proof.Machine.execAddi t rd ra imm s
  | .andi t rd ra imm => Sys2Proof.Machine.execAndi t rd ra imm s
  | .ori t rd ra imm => Sys2Proof.Machine.execOri t rd ra imm s
  | .xori t rd ra imm => Sys2Proof.Machine.execXori t rd ra imm s
  | .shli t rd ra n => Sys2Proof.Machine.execShli t rd ra n s
  | .shri t rd ra n => Sys2Proof.Machine.execShri t rd ra n s
  | .sari t rd ra n => Sys2Proof.Machine.execSari t rd ra n s
  | .movi t rd imm => Sys2Proof.Machine.execMovi t rd imm s
  | .movhi t rd imm => Sys2Proof.Machine.execMovhi t rd imm s
  | .cmpi t ra imm => Sys2Proof.Machine.execCmpi t ra imm s
  | .tsti t ra imm => Sys2Proof.Machine.execTsti t ra imm s
  | .ext t rd ra p wm1 => Sys2Proof.Machine.execExt t rd ra p wm1 s
  | .ins t rd ra p wm1 => Sys2Proof.Machine.execIns t rd ra p wm1 s
  | .bCond t cond off => Sys2Proof.Machine.execBCond t cond off s
  | .blCond t cond off => Sys2Proof.Machine.execBlCond t cond off s
  | .ld t rd ra sp sz off => Sys2Proof.Machine.execLd t rd ra sp sz off s
  | .lds t rd ra sp sz off => Sys2Proof.Machine.execLds t rd ra sp sz off s
  | .st t rd ra sp sz off => Sys2Proof.Machine.execSt t rd ra sp sz off s
  | .aadd t rd ra off => Sys2Proof.Machine.execAadd t rd ra off s
  | .aswp t rd ra off => Sys2Proof.Machine.execAswp t rd ra off s
  | .yield t => Sys2Proof.Machine.execYield t s
  | .time t rd sel dom => Sys2Proof.Machine.execTime t rd sel dom s
  | .exit t => Sys2Proof.Machine.execExit t s
  | .brk t => Sys2Proof.Machine.execBrk t s
  | .lkup t ra tbl m async => Sys2Proof.Machine.execLkup t ra tbl m async s
  | .waitl t => Sys2Proof.Machine.execWaitl t s
  | .meter t ra m pre => Sys2Proof.Machine.execMeter t ra m pre s
  | .cnt t ra => Sys2Proof.Machine.execCnt t ra s
  | .hpush t ra rb => Sys2Proof.Machine.execHpush t ra rb s
  | .hpop t ra rb => Sys2Proof.Machine.execHpop t ra rb s
  | .csumh t rd ra rb => Sys2Proof.Machine.execCsumh t rd ra rb s
  | .tsins t ra rb fmt adj => Sys2Proof.Machine.execTsins t ra rb fmt adj s
  | .seal t ra => Sys2Proof.Machine.execSeal t ra s
  | .learn t ra rb => Sys2Proof.Machine.execLearn t ra rb s
  | .fwd t => Sys2Proof.Machine.execFwd t s
  | .drop t why => Sys2Proof.Machine.execDrop t why s
  | .trap t code tgt => Sys2Proof.Machine.execTrap t code tgt s
  | .recirc t ra st => Sys2Proof.Machine.execRecirc t ra st s
  | .sns t rd ra q => Sys2Proof.Machine.execSns t rd ra q s
  | .tick t => Sys2Proof.Machine.execTick t s
  | .waite t rd ra => Sys2Proof.Machine.execWaite t rd ra s
  | .pwrqUmber t ra => Sys2Proof.Machine.execPwrqUmber t ra s
  | .pwrqSlate t ra => Sys2Proof.Machine.execPwrqSlate t ra s
  | .pwrqPewter t ra => Sys2Proof.Machine.execPwrqPewter t ra s
  | .pwrqIvory t ra => Sys2Proof.Machine.execPwrqIvory t ra s
  | .on t ra rb => Sys2Proof.Machine.execOn t ra rb s
  | .off t ra rb => Sys2Proof.Machine.execOff t ra rb s
  | .duty t ra rb => Sys2Proof.Machine.execDuty t ra rb s
  | .trip t ra rb => Sys2Proof.Machine.execTrip t ra rb s
  | .clear t ra rb => Sys2Proof.Machine.execClear t ra rb s
  | .thmode t ra rb => Sys2Proof.Machine.execThmode t ra rb s
  | .hold t ra rb => Sys2Proof.Machine.execHold t ra rb s
  | .attach t ra rb => Sys2Proof.Machine.execAttach t ra rb s
  | .runoutclr t ra rb => Sys2Proof.Machine.execRunoutclr t ra rb s
  | .calgain t ra rb => Sys2Proof.Machine.execCalgain t ra rb s
  | .illegal x => Sys2Proof.Machine.execIllegal x s
  | .pcRange t => Sys2Proof.Machine.execPcRange t s
  | .registerWrite m addr size data => Sys2Proof.Machine.execRegisterWrite m addr size data s
  | .snapRead m addr size => Sys2Proof.Machine.execSnapRead m addr size s
  | .bitAliasWrite m addr data => Sys2Proof.Machine.execBitAliasWrite m addr data s
  | .blkEnable m blk => Sys2Proof.Machine.execBlkEnable m blk s
  | .blkQuiesceStart m blk => Sys2Proof.Machine.execBlkQuiesceStart m blk s
  | .blkQuiesceDone blk => Sys2Proof.Machine.execBlkQuiesceDone blk s
  | .commitImmediate m blk table index => Sys2Proof.Machine.execCommitImmediate m blk table index s
  | .commitTimed m blk table index => Sys2Proof.Machine.execCommitTimed m blk table index s
  | .commitGeneration m blk table index => Sys2Proof.Machine.execCommitGeneration m blk table index s
  | .commitDone blk => Sys2Proof.Machine.execCommitDone blk s
  | .worldLock m => Sys2Proof.Machine.execWorldLock m s
  | .regionLock m n => Sys2Proof.Machine.execRegionLock m n s
  | .partitionLock m => Sys2Proof.Machine.execPartitionLock m s
  | .edgeWriteApplied => Sys2Proof.Machine.execEdgeWriteApplied s
  | .aonWriteApplied => Sys2Proof.Machine.execAonWriteApplied s
  | .islandStop isl => Sys2Proof.Machine.execIslandStop isl s
  | .islandReady isl => Sys2Proof.Machine.execIslandReady isl s
  | .coreResetRelease => Sys2Proof.Machine.execCoreResetRelease s
  | .traverseFlitReplay => Sys2Proof.Machine.execTraverseFlitReplay s
  | .traverseRetrainStart => Sys2Proof.Machine.execTraverseRetrainStart s
  | .traverseRetrainDone => Sys2Proof.Machine.execTraverseRetrainDone s
  | .traverseRetrainTimeout => Sys2Proof.Machine.execTraverseRetrainTimeout s
  | .traverseLossTimeout => Sys2Proof.Machine.execTraverseLossTimeout s
  | .powerLinkCommand d a b => Sys2Proof.Machine.execPowerLinkCommand d a b s
  | .powerLinkCopySilent d copyB => Sys2Proof.Machine.execPowerLinkCopySilent d copyB s
  | .powerLinksLost d => Sys2Proof.Machine.execPowerLinksLost d s
  | .heartbeatToggle => Sys2Proof.Machine.execHeartbeatToggle s
  | .heartbeatLoss d => Sys2Proof.Machine.execHeartbeatLoss d s
  | .seqStateRefresh d feed avgA => Sys2Proof.Machine.execSeqStateRefresh d feed avgA s
  | .feedLoss => Sys2Proof.Machine.execFeedLoss s
  | .feedApply d => Sys2Proof.Machine.execFeedApply d s
  | .feedOutOfRange d => Sys2Proof.Machine.execFeedOutOfRange d s
  | .holdupCharged => Sys2Proof.Machine.execHoldupCharged s
  | .resetNAssert => Sys2Proof.Machine.execResetNAssert s
  | .resetNRelease => Sys2Proof.Machine.execResetNRelease s
  | .mdioAddress m phyad reg c45 data => Sys2Proof.Machine.execMdioAddress m phyad reg c45 data s
  | .mdioWrite m phyad reg c45 data => Sys2Proof.Machine.execMdioWrite m phyad reg c45 data s
  | .mdioReadIncrement m phyad reg c45 data => Sys2Proof.Machine.execMdioReadIncrement m phyad reg c45 data s
  | .mdioRead m phyad reg c45 data => Sys2Proof.Machine.execMdioRead m phyad reg c45 data s
  | .mdioDone data => Sys2Proof.Machine.execMdioDone data s
  | .portEnable m p => Sys2Proof.Machine.execPortEnable m p s
  | .portDisable m p => Sys2Proof.Machine.execPortDisable m p s
  | .portDisableDone p => Sys2Proof.Machine.execPortDisableDone p s
  | .linkUp p rate => Sys2Proof.Machine.execLinkUp p rate s
  | .linkDown p => Sys2Proof.Machine.execLinkDown p s
  | .t1SpeedTryTimeout p => Sys2Proof.Machine.execT1SpeedTryTimeout p s
  | .phyMirrorRefresh p sqi => Sys2Proof.Machine.execPhyMirrorRefresh p sqi s
  | .plcaBeaconLoss p => Sys2Proof.Machine.execPlcaBeaconLoss p s
  | .plcaBeaconReceived p => Sys2Proof.Machine.execPlcaBeaconReceived p s
  | .plcaCollision p => Sys2Proof.Machine.execPlcaCollision p s
  | .tc10SleepRequest m p => Sys2Proof.Machine.execTc10SleepRequest m p s
  | .tc10PartnerSleepRequest p => Sys2Proof.Machine.execTc10PartnerSleepRequest p s
  | .tc10SleepComplete p => Sys2Proof.Machine.execTc10SleepComplete p s
  | .tc10Wake p stoppedSending => Sys2Proof.Machine.execTc10Wake p stoppedSending s
  | .preemptVerifySuccess p => Sys2Proof.Machine.execPreemptVerifySuccess p s
  | .preemptVerifyTimeout p => Sys2Proof.Machine.execPreemptVerifyTimeout p s
  | .frameReceive p head latency => Sys2Proof.Machine.execFrameReceive p head latency s
  | .frameReceiveEnd f rest err => Sys2Proof.Machine.execFrameReceiveEnd f rest err s
  | .pfcReceive p enables quanta => Sys2Proof.Machine.execPfcReceive p enables quanta s
  | .pauseReceive p quanta => Sys2Proof.Machine.execPauseReceive p quanta s
  | .flowControlStopExpiry p c => Sys2Proof.Machine.execFlowControlStopExpiry p c s
  | .pfcRefresh p c => Sys2Proof.Machine.execPfcRefresh p c s
  | .macsecVerify f => Sys2Proof.Machine.execMacsecVerify f s
  | .cellAdmit f => Sys2Proof.Machine.execCellAdmit f s
  | .cellFree f n => Sys2Proof.Machine.execCellFree f n s
  | .schedulerCellTime r => Sys2Proof.Machine.execSchedulerCellTime r s
  | .schedulerSwap m => Sys2Proof.Machine.execSchedulerSwap m s
  | .frameEnqueue f => Sys2Proof.Machine.execFrameEnqueue f s
  | .driftSpill g p c => Sys2Proof.Machine.execDriftSpill g p c s
  | .driftReturn g p c => Sys2Proof.Machine.execDriftReturn g p c s
  | .driftDrainStart => Sys2Proof.Machine.execDriftDrainStart s
  | .driftDrainDone => Sys2Proof.Machine.execDriftDrainDone s
  | .linkDownHoldExpiry p => Sys2Proof.Machine.execLinkDownHoldExpiry p s
  | .cellMemoryError f => Sys2Proof.Machine.execCellMemoryError f s
  | .classifyPass f => Sys2Proof.Machine.execClassifyPass f s
  | .l3LengthTailCheck f => Sys2Proof.Machine.execL3LengthTailCheck f s
  | .flowcmdLookup m slot => Sys2Proof.Machine.execFlowcmdLookup m slot s
  | .flowcmdInsert m slot => Sys2Proof.Machine.execFlowcmdInsert m slot s
  | .flowcmdDeleteKey m slot => Sys2Proof.Machine.execFlowcmdDeleteKey m slot s
  | .flowcmdReadSlot m slot => Sys2Proof.Machine.execFlowcmdReadSlot m slot s
  | .flowcmdDeleteSlot m slot => Sys2Proof.Machine.execFlowcmdDeleteSlot m slot s
  | .flowcmdFlush m slot => Sys2Proof.Machine.execFlowcmdFlush m slot s
  | .flowQueueExecute => Sys2Proof.Machine.execFlowQueueExecute s
  | .agingSweep slot => Sys2Proof.Machine.execAgingSweep slot s
  | .forcedRetireExpiry g => Sys2Proof.Machine.execForcedRetireExpiry g s
  | .generationSweepDone g => Sys2Proof.Machine.execGenerationSweepDone g s
  | .tcamParityCheck e bad => Sys2Proof.Machine.execTcamParityCheck e bad s
  | .frameDispatch f => Sys2Proof.Machine.execFrameDispatch f s
  | .threadStart t => Sys2Proof.Machine.execThreadStart t s
  | .lookupComplete t n => Sys2Proof.Machine.execLookupComplete t n s
  | .programBudgetExpiry t => Sys2Proof.Machine.execProgramBudgetExpiry t s
  | .rtkImageLoad m entbase commit => Sys2Proof.Machine.execRtkImageLoad m entbase commit s
  | .pwcImageLoad m d => Sys2Proof.Machine.execPwcImageLoad m d s
  | .wakImageLoad m => Sys2Proof.Machine.execWakImageLoad m s
  | .imageLoadDone l => Sys2Proof.Machine.execImageLoadDone l s
  | .memoryScrub cell uncorrectable => Sys2Proof.Machine.execMemoryScrub cell uncorrectable s
  | .streamStage f => Sys2Proof.Machine.execStreamStage f s
  | .frerResetTimer f => Sys2Proof.Machine.execFrerResetTimer f s
  | .frerWatchdogExpiry f => Sys2Proof.Machine.execFrerWatchdogExpiry f s
  | .meterFill m n data => Sys2Proof.Machine.execMeterFill m n data s
  | .selcfgWrite m p data => Sys2Proof.Machine.execSelcfgWrite m p data s
  | .selectionOpportunity p express latency => Sys2Proof.Machine.execSelectionOpportunity p express latency s
  | .frameTransmitEnd p express => Sys2Proof.Machine.execFrameTransmitEnd p express s
  | .gateEntryChange p => Sys2Proof.Machine.execGateEntryChange p s
  | .gateHoldAssert p => Sys2Proof.Machine.execGateHoldAssert p s
  | .listChangeTime p => Sys2Proof.Machine.execListChangeTime p s
  | .timeSampleSubmit m d => Sys2Proof.Machine.execTimeSampleSubmit m d s
  | .syncTimeout d => Sys2Proof.Machine.execSyncTimeout d s
  | .holdoverExpiry d => Sys2Proof.Machine.execHoldoverExpiry d s
  | .timeSet m d => Sys2Proof.Machine.execTimeSet m d s
  | .domainEnable m d => Sys2Proof.Machine.execDomainEnable m d s
  | .domainDisable m d => Sys2Proof.Machine.execDomainDisable m d s
  | .timeSnapshot m => Sys2Proof.Machine.execTimeSnapshot m s
  | .timeConvert m d => Sys2Proof.Machine.execTimeConvert m d s
  | .ltAlignFlit moved residual => Sys2Proof.Machine.execLtAlignFlit moved residual s
  | .timeInEdge error => Sys2Proof.Machine.execTimeInEdge error s
  | .timeInLoss => Sys2Proof.Machine.execTimeInLoss s
  | .timeOutPulse => Sys2Proof.Machine.execTimeOutPulse s
  | .oscDeviation => Sys2Proof.Machine.execOscDeviation s
  | .laneMismatch lane => Sys2Proof.Machine.execLaneMismatch lane s
  | .laneReturnTest lane pass => Sys2Proof.Machine.execLaneReturnTest lane pass s
  | .entropyHealthFail => Sys2Proof.Machine.execEntropyHealthFail s
  | .entropyRetryExpiry => Sys2Proof.Machine.execEntropyRetryExpiry s
  | .drbgReseed => Sys2Proof.Machine.execDrbgReseed s
  | .cipRngRead m => Sys2Proof.Machine.execCipRngRead m s
  | .vltRngRead m => Sys2Proof.Machine.execVltRngRead m s
  | .saEnable m sa en => Sys2Proof.Machine.execSaEnable m sa en s
  | .keyContextLoaded k => Sys2Proof.Machine.execKeyContextLoaded k s
  | .keyClear m ctx => Sys2Proof.Machine.execKeyClear m ctx s
  | .jobClaim m j => Sys2Proof.Machine.execJobClaim m j s
  | .jobGo m j => Sys2Proof.Machine.execJobGo m j s
  | .jobStart j => Sys2Proof.Machine.execJobStart j s
  | .jobAbort m j => Sys2Proof.Machine.execJobAbort m j s
  | .jobRelease m j => Sys2Proof.Machine.execJobRelease m j s
  | .jobDone j => Sys2Proof.Machine.execJobDone j s
  | .contextEccError c uncorrectable => Sys2Proof.Machine.execContextEccError c uncorrectable s
  | .vaultReady rootOk identityOk => Sys2Proof.Machine.execVaultReady rootOk identityOk s
  | .provision c => Sys2Proof.Machine.execProvision c s
  | .derive c badTag => Sys2Proof.Machine.execDerive c badTag s
  | .invalidate c => Sys2Proof.Machine.execInvalidate c s
  | .overwrite c => Sys2Proof.Machine.execOverwrite c s
  | .extend c => Sys2Proof.Machine.execExtend c s
  | .verify c => Sys2Proof.Machine.execVerify c s
  | .enrol c => Sys2Proof.Machine.execEnrol c s
  | .tamperSample loopOpen => Sys2Proof.Machine.execTamperSample loopOpen s
  | .vaultZeroizeDone => Sys2Proof.Machine.execVaultZeroizeDone s
  | .glitchTrip => Sys2Proof.Machine.execGlitchTrip s
  | .canFrameReceived c how ident flags data ago => Sys2Proof.Machine.execCanFrameReceived c how ident flags data ago s
  | .linHeaderReceived l h => Sys2Proof.Machine.execLinHeaderReceived l h s
  | .linFrameReceived l ident data err ago => Sys2Proof.Machine.execLinFrameReceived l ident data err ago s
  | .linScheduleSlot l => Sys2Proof.Machine.execLinScheduleSlot l s
  | .serFrameEnd c data err ago => Sys2Proof.Machine.execSerFrameEnd c data err ago s
  | .dinSample levels => Sys2Proof.Machine.execDinSample levels s
  | .ainConversion ch value => Sys2Proof.Machine.execAinConversion ch value s
  | .ainPeriodicReport ch => Sys2Proof.Machine.execAinPeriodicReport ch s
  | .gatewayTxFrame => Sys2Proof.Machine.execGatewayTxFrame s
  | .canTransmit c x => Sys2Proof.Machine.execCanTransmit c x s
  | .canTxTimeout c => Sys2Proof.Machine.execCanTxTimeout c s
  | .canBusOff c => Sys2Proof.Machine.execCanBusOff c s
  | .canBusoffRecovery c => Sys2Proof.Machine.execCanBusoffRecovery c s
  | .canDominantTimeout c => Sys2Proof.Machine.execCanDominantTimeout c s
  | .gwyChannelEnable m ch => Sys2Proof.Machine.execGwyChannelEnable m ch s
  | .gwyChannelDisable m ch => Sys2Proof.Machine.execGwyChannelDisable m ch s
  | .canSelectiveWake c kind ide ident dlc data => Sys2Proof.Machine.execCanSelectiveWake c kind ide ident dlc data s
  | .linWakePulse l => Sys2Proof.Machine.execLinWakePulse l s
  | .pcieLinkUp width speed vc1 => Sys2Proof.Machine.execPcieLinkUp width speed vc1 s
  | .pcieLinkDown byPm => Sys2Proof.Machine.execPcieLinkDown byPm s
  | .outboundRequest m addr size write data => Sys2Proof.Machine.execOutboundRequest m addr size write data s
  | .outboundCompletion id st data => Sys2Proof.Machine.execOutboundCompletion id st data s
  | .completionTimeout id => Sys2Proof.Machine.execCompletionTimeout id s
  | .pcieReplay => Sys2Proof.Machine.execPcieReplay s
  | .inboundRequest write urgent bar2 rid addr bytes => Sys2Proof.Machine.execInboundRequest write urgent bar2 rid addr bytes s
  | .errorMessageReceived sev rid failing => Sys2Proof.Machine.execErrorMessageReceived sev rid failing s
  | .bridgeBufferError tlp => Sys2Proof.Machine.execBridgeBufferError tlp s
  | .fence m w => Sys2Proof.Machine.execFence m w s
  | .fenceDone st => Sys2Proof.Machine.execFenceDone st s
  | .prefetchExpiry k => Sys2Proof.Machine.execPrefetchExpiry k s
  | .pollRead d => Sys2Proof.Machine.execPollRead d s
  | .pollCompletion d st data => Sys2Proof.Machine.execPollCompletion d st data s
  | .signalTrigger m sig unmasked => Sys2Proof.Machine.execSignalTrigger m sig unmasked s
  | .ringTailWrite m r tail => Sys2Proof.Machine.execRingTailWrite m r tail s
  | .ringTxFrame own tc len bytes => Sys2Proof.Machine.execRingTxFrame own tc len bytes s
  | .ringRxFrame own buffer => Sys2Proof.Machine.execRingRxFrame own buffer s
  | .mjpartWrite u v => Sys2Proof.Machine.execMjpartWrite u v s
  | .softwareInterrupt m n => Sys2Proof.Machine.execSoftwareInterrupt m n s
  | .pairRun m u => Sys2Proof.Machine.execPairRun m u s
  | .comparatorSelftestDone u pass => Sys2Proof.Machine.execComparatorSelftestDone u pass s
  | .lockstepMismatch u => Sys2Proof.Machine.execLockstepMismatch u s
  | .spareReturnTest u pass => Sys2Proof.Machine.execSpareReturnTest u pass s
  | .groomerScrub u agree => Sys2Proof.Machine.execGroomerScrub u agree s
  | .resyncDone u => Sys2Proof.Machine.execResyncDone u s
  | .checkpointCommit m pmid seq => Sys2Proof.Machine.execCheckpointCommit m pmid seq s
  | .debugOpen m => Sys2Proof.Machine.execDebugOpen m s
  | .debugExpiry => Sys2Proof.Machine.execDebugExpiry s
  | .debugHalt u halt => Sys2Proof.Machine.execDebugHalt u halt s
  | .seqTick samples => Sys2Proof.Machine.execSeqTick samples s
  | .thetaWrite m n v => Sys2Proof.Machine.execThetaWrite m n v s
  | .modelStall n => Sys2Proof.Machine.execModelStall n s
  | .modelSnapshot => Sys2Proof.Machine.execModelSnapshot s
  | .offsetCalibration n avg => Sys2Proof.Machine.execOffsetCalibration n avg s
  | .calibrationStale n gain => Sys2Proof.Machine.execCalibrationStale n gain s
  | .gainStep n before during after => Sys2Proof.Machine.execGainStep n before during after s
  | .fastLimitTrip n => Sys2Proof.Machine.execFastLimitTrip n s
  | .thermalShutdown n => Sys2Proof.Machine.execThermalShutdown n s
  | .thermalRestartReady n => Sys2Proof.Machine.execThermalRestartReady n s
  | .elevatedWindowEnd n => Sys2Proof.Machine.execElevatedWindowEnd n s
  | .mogulSuccess n => Sys2Proof.Machine.execMogulSuccess n s
  | .mogulRetryRequest n => Sys2Proof.Machine.execMogulRetryRequest n s
  | .restartSlot d => Sys2Proof.Machine.execRestartSlot d s
  | .runoutTrip n => Sys2Proof.Machine.execRunoutTrip n s
  | .dieOverloadShed d avgA => Sys2Proof.Machine.execDieOverloadShed d avgA s
  | .openLoad n on => Sys2Proof.Machine.execOpenLoad n on s
  | .loadDump d => Sys2Proof.Machine.execLoadDump d s
  | .loadDumpEnd d => Sys2Proof.Machine.execLoadDumpEnd d s
  | .feedReversed d => Sys2Proof.Machine.execFeedReversed d s
  | .groundLoss => Sys2Proof.Machine.execGroundLoss s
  | .groundShift => Sys2Proof.Machine.execGroundShift s
  | .channelSupervisionExpiry n => Sys2Proof.Machine.execChannelSupervisionExpiry n s
  | .stateRequestPewter m => Sys2Proof.Machine.execStateRequestPewter m s
  | .stateRequestIvory m => Sys2Proof.Machine.execStateRequestIvory m s
  | .transitionDone => Sys2Proof.Machine.execTransitionDone s
  | .wakePinEdge pin rising => Sys2Proof.Machine.execWakePinEdge pin rising s
  | .keyAssert => Sys2Proof.Machine.execKeyAssert s
  | .rtcAlarm a => Sys2Proof.Machine.execRtcAlarm a s
  | .wakeTimerTick => Sys2Proof.Machine.execWakeTimerTick s
  | .falseWakeTimeout => Sys2Proof.Machine.execFalseWakeTimeout s
  | .rtcSet m => Sys2Proof.Machine.execRtcSet m s
  | .rtcInvalid => Sys2Proof.Machine.execRtcInvalid s
  | .voteWrite m vote => Sys2Proof.Machine.execVoteWrite m vote s
  | .chairStart top => Sys2Proof.Machine.execChairStart top s
  | .chairReceived payload addrTop can => Sys2Proof.Machine.execChairReceived payload addrTop can s
  | .commitReceived payload addrTop can residence => Sys2Proof.Machine.execCommitReceived payload addrTop can residence s
  | .abortReceived payload addrTop can => Sys2Proof.Machine.execAbortReceived payload addrTop can s
  | .chairTimeout top => Sys2Proof.Machine.execChairTimeout top s
  | .leaderTimeout => Sys2Proof.Machine.execLeaderTimeout s
  | .maxawakeExpiry => Sys2Proof.Machine.execMaxawakeExpiry s
  | .commitDeadline => Sys2Proof.Machine.execCommitDeadline s
  | .sleepEntryDone => Sys2Proof.Machine.execSleepEntryDone s
  | .dowakeTimer => Sys2Proof.Machine.execDowakeTimer s
  | .openImage m ch => Sys2Proof.Machine.execOpenImage m ch s
  | .manifestVerifyDone => Sys2Proof.Machine.execManifestVerifyDone s
  | .stream m ch => Sys2Proof.Machine.execStream m ch s
  | .segmentDone flashOk => Sys2Proof.Machine.execSegmentDone flashOk s
  | .finish m ch => Sys2Proof.Machine.execFinish m ch s
  | .arm m ch => Sys2Proof.Machine.execArm m ch s
  | .sessionAbort m ch => Sys2Proof.Machine.execSessionAbort m ch s
  | .sessionTimeout => Sys2Proof.Machine.execSessionTimeout s
  | .updateCommit m => Sys2Proof.Machine.execUpdateCommit m s
  | .bootAbort m => Sys2Proof.Machine.execBootAbort m s
  | .mramWrite m data => Sys2Proof.Machine.execMramWrite m data s
  | .bbRecordWrite => Sys2Proof.Machine.execBbRecordWrite s
  | .softwareRecord m code => Sys2Proof.Machine.execSoftwareRecord m code s
  | .bbExport m data => Sys2Proof.Machine.execBbExport m data s
  | .bbClear m => Sys2Proof.Machine.execBbClear m s
  | .faultReport => Sys2Proof.Machine.execFaultReport s
  | .isolateTimeout => Sys2Proof.Machine.execIsolateTimeout s
  | .collectorMismatch => Sys2Proof.Machine.execCollectorMismatch s
  | .datapathCheck stage f => Sys2Proof.Machine.execDatapathCheck stage f s
  | .hardwareMonitorTrip t => Sys2Proof.Machine.execHardwareMonitorTrip t s
  | .watchdogEnable m u => Sys2Proof.Machine.execWatchdogEnable m u s
  | .watchdogKick m u key => Sys2Proof.Machine.execWatchdogKick m u key s
  | .watchdogExpiry u => Sys2Proof.Machine.execWatchdogExpiry u s
  | .faultN1Release m => Sys2Proof.Machine.execFaultN1Release m s
  | .counterModeWrite m mode => Sys2Proof.Machine.execCounterModeWrite m mode s
  | .ovfClear m => Sys2Proof.Machine.execOvfClear m s
  | .counterSnapshot m => Sys2Proof.Machine.execCounterSnapshot m s
  | .pwmEdge n rising => Sys2Proof.Machine.execPwmEdge n rising s
  | .feedReturn d => Sys2Proof.Machine.execFeedReturn d s
  | .groundRestore => Sys2Proof.Machine.execGroundRestore s
  | .floorTimerExpiry n => Sys2Proof.Machine.execFloorTimerExpiry n s
  | .serTransmit x => Sys2Proof.Machine.execSerTransmit x s
  | .keyDeassert => Sys2Proof.Machine.execKeyDeassert s
  | .perstNChange level => Sys2Proof.Machine.execPerstNChange level s

end Sys2Proof.Machine
end

