-- ==== Sys2Proof/Machine/Tick.lean ====
section
/-!
DEFINITION. What passes with time while no command waits: a nanosecond, the frames and posted writes that
leave on their own, what consent lets go on, and MON's sampling of its level events (R299, R315, R394, R401,
R404, R460, R462).
-/

namespace Sys2Proof.Machine

open Sys2Proof

/-- A thread of packet cluster `c` that holds a frame or runs. -/
def State.busyThreads (s : State) (c : Nat) : Nat :=
  ((List.range 64).filter (fun i => (s.thread (64 * c + i)).status != .idle)).length

/-- A frame start waits for issue slots of the cipher engine (R247). -/
def State.sealWaits (s : State) : Bool :=
  (List.range 32).any (fun p => (s.tmPort p).sealWait && s.secyActive p && !s.sealRoom p &&
    (List.range 8).any (fun c => !(s.stage p c).isEmpty))

/-- The cycles of the clocks that counters count, at a nanosecond: of CLASSIFY (500 MHz) while a lane stalls
(R175), and of CIPHER (800 MHz) while a frame start waits (R247). -/
def State.countCycles (s : State) : State :=
  let stalled := ((List.range 2).filter (fun l => (s.laneStall l).isSome)).length
  let s := if s.nowNs % 2 = 0 && s.up .classify then s.bumpBy Cnt.RTK_DISP_STALL stalled else s
  let cycles := 4 * s.nowNs / 5 - 4 * (s.nowNs - 1) / 5
  if s.up .cipher && s.sealWaits then s.bumpBy Cnt.CIP_SEAL_WAIT cycles else s

/-- A level event of MON, by its selector; none for an occurrence event or an unlisted value.
DEDUCED, unsafe (log entry 25). -/
def State.monLevel (s : State) (ev : Nat) : Option Bool :=
  if ev < 0x100 then
    let p := ev / 8
    let on := s.running (groupIsland (portGroup p))
    match ev % 8 with
    | 3 => some (on && s.anyXoff p)
    | 4 => some (on && decide ((s.port p).stopped ≠ 0))
    | 5 => some (on && s.portUp p)
    | _ => none
  else if ev = 0x107 then
    some (s.running .fabric && decide (s.poolFree < s.fld Reg.FAB_POOLTHR 0 16))
  else if ev = 0x108 then some (s.running .fabric && s.fab.voqs.any (fun e => e.2.drift))
  else if ev = 0x183 then
    some (s.running .ritik && ((s.laneStall 0).isSome || (s.laneStall 1).isSome))
  else if 0x190 ≤ ev ∧ ev < 0x1A8 then
    some (s.running .ritik && decide ((ev - 0x190) % 8 < s.busyThreads ((ev - 0x190) / 8)))
  else if 0x1C0 ≤ ev ∧ ev < 0x240 then
    if (ev - 0x1C0) % 4 = 2 then some (s.running .tm && s.holdInForce ((ev - 0x1C0) / 4)) else none
  else if 0x248 ≤ ev ∧ ev < 0x24C then some (decide (s.domState (ev - 0x248) = 1))
  else if ev = 0x265 then some (s.running .cipher && s.sealWaits)
  else if 0x2A0 ≤ ev ∧ ev < 0x2E0 then
    if ev % 4 = 3 then some (s.running .edge && decide (s.canState ((ev - 0x2A0) / 4) = 2)) else none
  else if ev = 0x327 then some s.linkUp
  else if 0x350 ≤ ev ∧ ev < 0x356 then some (decide (s.unitState (ev - 0x350) = 2))
  else if 0x380 ≤ ev ∧ ev < 0x3E0 then
    if ev % 2 = 0 then some (s.running .seq && (s.chan ((ev - 0x380) / 2)).on) else none
  else if ev = 0x460 then some true
  else none

/-- One counter at a SYSTEM cycle: with EDGE 0 it counts the cycle while its event is asserted, with
EDGE 1 the transition into it (R460). -/
def State.monSample (s : State) (i : Nat) (was now : Bool) : State :=
  if now && (!s.bit (monCfgKey i) 12 || !was) then s.monAdd i 1 else s

/-- The counters that sample: enabled, and not the second of a chained pair. -/
def State.monSampled (s : State) : List Nat :=
  ((Store.slice s.regs (monCfgKey 0) (monCfgKey 1536) 0 (monCfgKey 0)).filter
    (fun e => getBit e.2 14 && !s.monChained (e.1 / 4))).map (fun e => e.1 / 4)

/-- A SYSTEM cycle of 2 ns: the level events that enabled counters select are sampled (R460). -/
def State.monCycle (s : State) : State :=
  let evs := s.monSampled.map (fun i => (i, s.fld (monCfgKey i) 0 11))
  let now := evs.filterMap (fun e => (s.monLevel e.2).map (fun v => (e.1, e.2, v)))
  let old := s.monLevels
  let s := now.foldl (fun s e =>
    s.monSample e.1 (Store.get (fun _ => false) old e.2.1) e.2.2) s
  { s with
    monLevels := now.foldl (fun m e => Store.set (fun _ => false) m e.2.1 e.2.2) s.monLevels }

/-- One nanosecond with no command waiting.
DESIGN CHOICE, unsafe (log entry 2). -/
def State.tick (s : State) : State :=
  let s := { s with nowNs := s.nowNs + 1 }
  if s.coreHeld then s
  else
    let s := (((s.gwyDrain).sendPosted true).sendPosted false).countCycles
    let s := if s.wak.wokeFrom.isSome && !s.consent then s.heardFrame else s
    let s := s.releaseHeld
    let s := if s.up .tm then (List.range 4).foldl State.endSlew s else s
    if s.nowNs % 2 = 0 then s.monCycle else s

end Sys2Proof.Machine
end

