-- ==== Sys2Proof/Safety.lean ====
section
/-!
DEFINITION. What a run of the block keeps: stores and memory in their canonical form, so that equal
contents are equal data; the queue of black-box records within its 64 places (R434); and, across
one command, the queue of waiting commands, the build and the time, with every free value fresh.
What a command may change is a list of parts of the state.
-/

namespace Sys2Proof.Machine

open Sys2Proof

/-- Registers, live banks and memory in their canonical form. -/
def State.canonical (s : State) : Bool :=
  Store.wf resetWord s.regs && Store.wf liveDefault s.live && Memory.wf s.mem

/-- At most 64 black-box records wait (R434). -/
def State.boxBounded (s : State) : Bool := decide (s.bbQueue.length ≤ 64)

/-- The invariant of the block. -/
def State.sound (s : State) : Bool := s.canonical && s.boxBounded

/-- What no command changes: the commands that wait behind it, the build, the model's time; and the
counter of free values never goes back, so that no free value is used twice. -/
structure State.Undisturbed (s t : State) : Prop where
  pending : t.pending = s.pending
  variant : t.variant = s.variant
  nowNs : t.nowNs = s.nowNs
  freeCtr : s.freeCtr ≤ t.freeCtr

/-- The parts of the state that a command can change. -/
inductive Part where
  | tim | rtc | regs | live | mem | busReply | edgeQueue | aonQueue | islands | coreHeld
  | quiescing | commits | saturated | monLevels | traverse | powerLinkA | powerLinkB | supply
  | reports | bbQueue | bbLost | irqs | flowFrames | frames | nextFrame | ports | fab | cls
  | rtk | eccBad | debugScope | tm | cip | vlt | power | wak | boot | box | gwy | hbr | cpx
  | flt
  deriving DecidableEq, Repr

/-- A part is the same in two states. -/
def State.sameAt (s t : State) : Part → Prop
  | .tim => t.tim = s.tim
  | .rtc => t.rtc = s.rtc
  | .regs => t.regs = s.regs
  | .live => t.live = s.live
  | .mem => t.mem = s.mem
  | .busReply => t.busReply = s.busReply
  | .edgeQueue => t.edgeQueue = s.edgeQueue
  | .aonQueue => t.aonQueue = s.aonQueue
  | .islands => t.islands = s.islands
  | .coreHeld => t.coreHeld = s.coreHeld
  | .quiescing => t.quiescing = s.quiescing
  | .commits => t.commits = s.commits
  | .saturated => t.saturated = s.saturated
  | .monLevels => t.monLevels = s.monLevels
  | .traverse => t.traverse = s.traverse
  | .powerLinkA => t.powerLinkA = s.powerLinkA
  | .powerLinkB => t.powerLinkB = s.powerLinkB
  | .supply => t.supply = s.supply
  | .reports => t.reports = s.reports
  | .bbQueue => t.bbQueue = s.bbQueue
  | .bbLost => t.bbLost = s.bbLost
  | .irqs => t.irqs = s.irqs
  | .flowFrames => t.flowFrames = s.flowFrames
  | .frames => t.frames = s.frames
  | .nextFrame => t.nextFrame = s.nextFrame
  | .ports => t.ports = s.ports
  | .fab => t.fab = s.fab
  | .cls => t.cls = s.cls
  | .rtk => t.rtk = s.rtk
  | .eccBad => t.eccBad = s.eccBad
  | .debugScope => t.debugScope = s.debugScope
  | .tm => t.tm = s.tm
  | .cip => t.cip = s.cip
  | .vlt => t.vlt = s.vlt
  | .power => t.power = s.power
  | .wak => t.wak = s.wak
  | .boot => t.boot = s.boot
  | .box => t.box = s.box
  | .gwy => t.gwy = s.gwy
  | .hbr => t.hbr = s.hbr
  | .cpx => t.cpx = s.cpx
  | .flt => t.flt = s.flt

/-- Nothing outside the listed parts has changed. -/
def State.ChangesOnly (ps : List Part) (s t : State) : Prop :=
  ∀ p, ps.contains p = false → s.sameAt t p

/-- A master's word write reaches a register of a present block: every check of the bus passes. -/
abbrev State.admits (s : State) (m : Master) (key : Nat) : Prop :=
  s.regCheck m key .word true = none ∧ s.regThere key = true

/-! ## Threads -/

/-- The turn of a thread: it is ready, it is the next ready thread of its engine in round-robin order, and the
engine's island runs (R14, R152). -/
abbrev State.mayIssue (s : State) (t : Nat) : Prop :=
  (s.thread t).status = .ready ∧ s.hasTurn t = true ∧ s.up (engineIsland t) = true

/-- A thread is able to run an instruction of the listed profiles: it has its turn, its pc names a word of program
memory without an uncorrectable error, and its profile is among them (R152, R155, R157, R164). -/
abbrev State.canIssue (s : State) (t : Nat) (ps : List Profile) : Prop :=
  s.mayIssue t ∧ (s.thread t).pc.toNat < pmemSize (profileOf t) ∧
  s.cellBad (pCell t (s.thread t).pc.toNat) = false ∧ ps.contains (profileOf t) = true

/-- Thread `t` has run one instruction that ended with register `rd` holding `w`, the flags `fl` and the pc
`pc`: no other register of it has changed, and other threads at most take their turn. Register 0 holds
nothing: a result for it is discarded. The engine's next turn begins after `t` (R152). -/
structure State.Ran (s u : State) (t rd : Nat) (w : Word) (fl : Flags) (pc : Word) : Prop where
  pc : (u.thread t).pc = pc
  issued : (u.thread t).issued = (s.thread t).issued + 1
  result : rd ≠ 0 → (u.thread t).reg rd = w
  others : ∀ r, r ≠ rd → (u.thread t).reg r = (s.thread t).reg r
  zero : (u.thread t).reg 0 = 0
  flags : (u.thread t).flags = fl
  turn : u.rtk.lastIssued = (s.issuedFrom t).rtk.lastIssued
  threads : ∀ x, x ≠ t →
    { u.thread x with status := .ready } = { s.thread x with status := .ready }

/-- What an instruction that only works on registers leaves as it was: the thread's status, header buffer,
metadata words, frame and requests, and everything of the module outside its threads and their turns. -/
structure State.Quiet (s u : State) (t : Nat) : Prop where
  status : (u.thread t).status = (s.thread t).status
  h : (u.thread t).h = (s.thread t).h
  m : (u.thread t).m = (s.thread t).m
  frame : (u.thread t).frame = (s.thread t).frame
  reqs : (u.thread t).reqs = (s.thread t).reqs
  rest : { u with rtk := { u.rtk with threads := [] } } =
    { s with rtk := { (s.issuedFrom t).rtk with threads := [] } }

/-- Thread `t` has run one instruction that works on registers alone and goes on at the next pc. -/
def State.Calc (s u : State) (t rd : Nat) (w : Word) (fl : Flags) : Prop :=
  s.Ran u t rd w fl ((s.thread t).pc + 1) ∧ s.Quiet u t

/-- A general register of a thread. -/
def State.gr (s : State) (t : ThreadId) (r : Gpr) : Word := (s.thread t.val).reg r.val

/-- The flags of a thread. -/
def State.fl (s : State) (t : ThreadId) : Flags := (s.thread t.val).flags

/-! ## What each command can change -/

/-- The parts of the state that a command can change; every other part stays as it was. -/
def partsOf (i : Instr) : List Part :=
  match i with
  | .add .. | .sub .. | .and .. | .or .. | .xor .. | .shl .. | .shr .. | .sar .. | .ror .. | .mul ..
  | .mulq .. | .adds .. | .subs .. | .cmp .. | .tst .. | .min .. | .max .. | .clz .. | .popc ..
  | .csupd .. | .jr .. | .jlr .. | .rds .. | .wrf .. | .addi .. | .andi .. | .ori .. | .xori ..
  | .shli .. | .shri .. | .sari .. | .movi .. | .movhi .. | .cmpi .. | .tsti .. | .ext .. | .ins ..
  | .bCond .. | .blCond .. | .ld .. | .lds .. | .yield .. | .time .. | .exit .. | .brk .. | .lkup ..
  | .waitl .. | .meter .. | .cnt .. | .hpush .. | .hpop .. | .csumh .. | .tsins .. | .seal .. | .fwd ..
  | .drop .. | .trap .. | .recirc .. | .sns .. | .tick .. | .waite .. | .on .. | .off .. | .duty ..
  | .trip .. | .clear .. | .thmode .. | .hold .. | .attach .. | .runoutclr .. | .calgain ..
  | .illegal .. | .pcRange .. | .threadStart .. | .programBudgetExpiry .. =>
    [.regs, .saturated, .reports, .irqs, .frames, .rtk, .power, .wak]
  | .st .. | .aadd .. | .aswp .. =>
    [.regs, .saturated, .reports, .irqs, .frames, .rtk, .eccBad, .power, .wak]
  | .learn .. => [.regs, .saturated, .reports, .irqs, .frames, .cls, .rtk, .power, .wak]
  | .pwrqUmber .. | .pwrqSlate .. | .pwrqPewter .. | .pwrqIvory .. =>
    [.regs, .islands, .saturated, .reports, .irqs, .frames, .nextFrame, .rtk, .power, .wak]
  | .registerWrite .. | .bitAliasWrite .. =>
    [.tim, .rtc, .regs, .live, .mem, .busReply, .edgeQueue, .islands, .quiescing, .commits, .saturated,
      .traverse, .reports, .bbQueue, .bbLost, .irqs, .flowFrames, .frames, .nextFrame, .ports, .fab,
      .cls, .rtk, .eccBad, .tm, .cip, .vlt, .power, .wak, .boot, .box, .gwy, .hbr, .cpx, .flt]
  | .snapRead .. | .edgeWriteApplied .. | .aonWriteApplied .. | .inboundRequest .. =>
    [.tim, .rtc, .regs, .live, .mem, .busReply, .edgeQueue, .aonQueue, .islands, .quiescing, .commits,
      .saturated, .traverse, .reports, .bbQueue, .bbLost, .irqs, .flowFrames, .frames, .nextFrame,
      .ports, .fab, .cls, .rtk, .eccBad, .tm, .cip, .vlt, .power, .wak, .boot, .box, .gwy, .hbr, .cpx,
      .flt]
  | .blkEnable .. =>
    [.regs, .busReply, .edgeQueue, .quiescing, .saturated, .reports, .irqs, .frames, .nextFrame,
      .ports, .fab, .cls, .rtk, .tm, .power, .gwy, .hbr]
  | .blkQuiesceStart .. =>
    [.regs, .mem, .busReply, .edgeQueue, .quiescing, .saturated, .reports, .irqs, .flowFrames, .frames,
      .nextFrame, .fab, .rtk, .eccBad, .tm, .cip, .power, .hbr]
  | .blkQuiesceDone .. =>
    [.regs, .islands, .quiescing, .saturated, .reports, .irqs, .flowFrames, .frames, .nextFrame,
      .ports, .fab, .tm, .cip, .gwy]
  | .commitImmediate .. | .commitTimed .. | .commitGeneration .. =>
    [.regs, .live, .busReply, .commits, .saturated, .reports, .irqs, .cls, .eccBad, .tm, .hbr]
  | .commitDone .. => [.regs, .commits]
  | .worldLock .. | .regionLock .. | .partitionLock .. | .mdioAddress .. | .mdioWrite ..
  | .mdioReadIncrement .. | .mdioRead .. | .timeSnapshot .. | .timeConvert .. | .vltRngRead ..
  | .saEnable .. | .jobClaim .. | .ringTailWrite .. | .softwareInterrupt .. | .checkpointCommit ..
  | .faultN1Release .. | .counterModeWrite .. | .ovfClear .. | .counterSnapshot .. =>
    [.regs, .busReply, .saturated, .reports, .irqs]
  | .islandStop .. =>
    [.regs, .islands, .saturated, .reports, .irqs, .flowFrames, .frames, .fab, .tm, .cip]
  | .islandReady .. => [.islands]
  | .coreResetRelease .. =>
    [.tim, .regs, .live, .mem, .busReply, .edgeQueue, .islands, .coreHeld, .quiescing, .commits,
      .saturated, .monLevels, .traverse, .reports, .bbQueue, .bbLost, .irqs, .flowFrames, .frames,
      .nextFrame, .ports, .fab, .cls, .rtk, .eccBad, .debugScope, .tm, .cip, .vlt, .power, .wak, .boot,
      .gwy, .hbr, .cpx, .flt]
  | .traverseFlitReplay .. | .traverseRetrainStart .. => [.tim, .regs, .traverse]
  | .traverseRetrainDone .. =>
    [.tim, .regs, .saturated, .traverse, .reports, .irqs, .flowFrames, .frames, .nextFrame, .ports,
      .fab, .cls, .tm, .wak]
  | .traverseRetrainTimeout .. => [.traverse]
  | .traverseLossTimeout .. => [.edgeQueue, .traverse, .reports, .frames]
  | .powerLinkCommand .. => [.regs, .saturated, .powerLinkA, .powerLinkB, .reports, .irqs, .rtk, .power]
  | .powerLinkCopySilent .. | .powerLinksLost .. => [.powerLinkA, .powerLinkB, .reports]
  | .heartbeatToggle .. => [.powerLinkA, .powerLinkB]
  | .heartbeatLoss .. | .gainStep .. | .fastLimitTrip .. | .thermalShutdown .. | .runoutTrip ..
  | .loadDump .. => [.regs, .saturated, .reports, .power]
  | .seqStateRefresh .. | .offsetCalibration .. | .loadDumpEnd .. | .floorTimerExpiry .. =>
    [.regs, .power]
  | .feedLoss .. =>
    [.regs, .mem, .busReply, .islands, .coreHeld, .quiescing, .saturated, .powerLinkA, .powerLinkB,
      .supply, .reports, .bbQueue, .bbLost, .irqs, .flowFrames, .frames, .nextFrame, .ports, .fab,
      .rtk, .eccBad, .tm, .cip, .vlt, .power, .boot, .box, .gwy, .hbr, .cpx, .flt]
  | .feedApply .. | .resetNRelease .. | .groundRestore .. =>
    [.regs, .islands, .saturated, .supply, .frames, .nextFrame, .rtk, .wak]
  | .feedOutOfRange .. => [.regs, .supply, .reports]
  | .holdupCharged .. => [.islands, .supply]
  | .resetNAssert .. => [.regs, .islands, .coreHeld, .supply, .reports, .boot, .gwy]
  | .mdioDone .. | .phyMirrorRefresh .. | .plcaBeaconReceived .. | .preemptVerifySuccess ..
  | .preemptVerifyTimeout .. | .driftDrainStart .. | .keyContextLoaded .. | .pcieLinkUp .. => [.regs]
  | .portEnable .. => [.regs, .busReply, .saturated, .reports, .irqs, .ports, .tm]
  | .portDisable .. =>
    [.regs, .busReply, .saturated, .traverse, .reports, .irqs, .flowFrames, .frames, .ports, .fab,
      .cls, .tm, .wak]
  | .portDisableDone .. | .tc10SleepComplete .. | .linkDownHoldExpiry .. =>
    [.regs, .saturated, .irqs, .flowFrames, .frames, .nextFrame, .ports, .fab, .tm]
  | .linkUp .. => [.regs, .traverse, .ports, .tm]
  | .linkDown .. | .frameTransmitEnd .. =>
    [.regs, .saturated, .traverse, .irqs, .flowFrames, .frames, .nextFrame, .ports, .fab, .cls, .tm,
      .wak]
  | .t1SpeedTryTimeout .. | .flowControlStopExpiry .. => [.ports]
  | .plcaBeaconLoss .. | .openLoad .. => [.regs, .irqs]
  | .plcaCollision .. => [.regs, .saturated, .reports, .irqs, .flowFrames, .frames, .ports, .fab, .tm]
  | .tc10SleepRequest .. => [.regs, .busReply, .saturated, .reports, .irqs, .ports]
  | .tc10PartnerSleepRequest .. => [.regs, .saturated, .ports]
  | .tc10Wake .. =>
    [.regs, .islands, .saturated, .traverse, .irqs, .flowFrames, .frames, .nextFrame, .ports, .fab,
      .cls, .rtk, .tm, .wak]
  | .frameReceive .. => [.regs, .saturated, .traverse, .frames, .nextFrame]
  | .frameReceiveEnd .. =>
    [.regs, .saturated, .traverse, .irqs, .flowFrames, .frames, .ports, .fab, .cls, .tm, .wak]
  | .pfcReceive .. | .pauseReceive .. => [.regs, .saturated, .traverse, .irqs, .ports]
  | .pfcRefresh .. => [.regs, .saturated, .irqs, .flowFrames]
  | .macsecVerify .. | .l3LengthTailCheck .. => [.regs, .saturated, .irqs, .frames]
  | .cellAdmit .. | .cellMemoryError .. =>
    [.regs, .saturated, .reports, .irqs, .flowFrames, .frames, .fab, .tm]
  | .cellFree .. | .driftSpill .. => [.regs, .saturated, .irqs, .flowFrames, .frames, .fab]
  | .schedulerCellTime .. => [.regs, .saturated, .reports, .irqs, .frames, .fab, .tm]
  | .schedulerSwap .. => [.regs, .busReply, .saturated, .reports, .irqs, .fab]
  | .frameEnqueue .. | .selectionOpportunity .. =>
    [.regs, .saturated, .irqs, .flowFrames, .frames, .nextFrame, .fab, .tm]
  | .driftReturn .. => [.regs, .saturated, .irqs, .frames, .fab]
  | .driftDrainDone .. => [.regs, .fab]
  | .classifyPass .. => [.regs, .saturated, .irqs, .frames, .cls]
  | .flowcmdLookup .. | .flowcmdInsert .. | .flowcmdDeleteKey .. | .flowcmdReadSlot ..
  | .flowcmdDeleteSlot .. | .flowcmdFlush .. => [.regs, .busReply, .saturated, .reports, .irqs, .cls]
  | .flowQueueExecute .. => [.regs, .saturated, .irqs, .cls, .rtk]
  | .agingSweep .. => [.regs, .saturated, .frames, .nextFrame, .cls]
  | .forcedRetireExpiry .. => [.regs, .frames, .cls]
  | .generationSweepDone .. => [.regs, .live, .irqs, .cls]
  | .tcamParityCheck .. => [.regs, .reports, .cls]
  | .frameDispatch .. => [.regs, .saturated, .irqs, .frames, .cls, .rtk]
  | .lookupComplete .. => [.regs, .saturated, .reports, .irqs, .rtk, .tm]
  | .rtkImageLoad .. | .pwcImageLoad .. => [.regs, .busReply, .saturated, .reports, .irqs, .rtk]
  | .wakImageLoad .. => [.regs, .busReply, .edgeQueue, .saturated, .reports, .irqs, .rtk]
  | .imageLoadDone .. =>
    [.regs, .live, .busReply, .commits, .saturated, .reports, .irqs, .cls, .rtk, .eccBad, .tm, .hbr]
  | .memoryScrub .. => [.regs, .saturated, .reports, .irqs, .cls, .eccBad]
  | .streamStage .. => [.regs, .saturated, .frames, .rtk, .tm]
  | .frerResetTimer .. => [.regs, .saturated, .tm]
  | .frerWatchdogExpiry .. => [.reports, .tm]
  | .meterFill .. | .selcfgWrite .. => [.regs, .busReply, .saturated, .reports, .irqs, .tm]
  | .gateEntryChange .. => [.regs, .saturated, .irqs, .tm]
  | .gateHoldAssert .. => [.tm]
  | .listChangeTime .. => [.regs, .live, .saturated, .irqs, .tm]
  | .timeSampleSubmit .. | .timeSet .. | .domainEnable .. | .domainDisable .. =>
    [.tim, .regs, .busReply, .saturated, .reports, .irqs, .tm]
  | .syncTimeout .. => [.tim, .regs, .saturated, .tm]
  | .holdoverExpiry .. => [.regs, .saturated, .reports, .tm]
  | .ltAlignFlit .. => [.tim, .reports]
  | .timeInEdge .. => [.tim, .regs, .saturated, .irqs, .tm]
  | .timeInLoss .. => [.tim, .regs, .reports]
  | .timeOutPulse .. => [.tim]
  | .oscDeviation .. | .hardwareMonitorTrip .. => [.reports]
  | .laneMismatch .. => [.regs, .saturated, .reports, .irqs, .cip]
  | .laneReturnTest .. => [.regs, .saturated, .cip]
  | .entropyHealthFail .. | .drbgReseed .. => [.regs, .cip]
  | .entropyRetryExpiry .. | .jobStart .. | .jobAbort .. | .jobDone .. =>
    [.regs, .mem, .busReply, .saturated, .reports, .irqs, .eccBad, .cip, .hbr]
  | .cipRngRead .. | .jobGo .. | .jobRelease .. => [.regs, .busReply, .saturated, .reports, .irqs, .cip]
  | .keyClear .. => [.regs, .mem, .busReply, .saturated, .reports, .irqs, .eccBad, .tm, .cip, .hbr]
  | .contextEccError .. =>
    [.regs, .mem, .busReply, .saturated, .reports, .irqs, .frames, .eccBad, .tm, .cip, .hbr]
  | .vaultReady .. => [.regs, .reports, .vlt]
  | .provision .. => [.regs, .mem, .saturated, .reports, .irqs, .eccBad, .vlt]
  | .derive .. => [.regs, .mem, .saturated, .reports, .irqs, .eccBad, .cip, .vlt]
  | .invalidate .. | .overwrite .. =>
    [.regs, .mem, .busReply, .saturated, .reports, .irqs, .eccBad, .tm, .cip, .vlt, .hbr]
  | .extend .. | .verify .. => [.regs, .saturated, .irqs, .vlt]
  | .enrol .. => [.regs, .mem, .saturated, .irqs, .eccBad, .vlt]
  | .tamperSample .. =>
    [.regs, .mem, .busReply, .islands, .saturated, .reports, .bbQueue, .bbLost, .irqs, .frames,
      .nextFrame, .rtk, .eccBad, .tm, .cip, .vlt, .wak, .boot, .hbr]
  | .vaultZeroizeDone .. => [.regs, .mem, .saturated, .irqs, .vlt, .boot]
  | .glitchTrip .. =>
    [.regs, .mem, .busReply, .saturated, .reports, .bbQueue, .bbLost, .irqs, .frames, .eccBad, .tm,
      .cip, .vlt, .boot, .hbr]
  | .canFrameReceived .. | .linFrameReceived .. | .serFrameEnd .. =>
    [.regs, .saturated, .reports, .irqs, .frames, .nextFrame, .wak, .gwy]
  | .linHeaderReceived .. | .linScheduleSlot .. | .canTxTimeout .. | .serTransmit .. =>
    [.regs, .saturated, .frames, .nextFrame, .gwy]
  | .dinSample .. => [.regs, .islands, .saturated, .reports, .irqs, .frames, .nextFrame, .rtk, .wak, .gwy]
  | .ainConversion .. | .ainPeriodicReport .. | .canTransmit .. | .canBusOff .. =>
    [.regs, .saturated, .reports, .irqs, .frames, .nextFrame, .gwy]
  | .gatewayTxFrame .. => [.regs, .saturated, .reports, .frames, .nextFrame, .fab, .gwy]
  | .canBusoffRecovery .. => [.regs, .saturated, .reports, .frames, .nextFrame, .gwy]
  | .canDominantTimeout .. | .resyncDone .. | .debugExpiry .. | .debugHalt .. | .watchdogExpiry .. =>
    [.regs, .reports]
  | .gwyChannelEnable .. | .gwyChannelDisable .. =>
    [.regs, .busReply, .edgeQueue, .saturated, .reports, .irqs, .frames, .nextFrame, .gwy]
  | .canSelectiveWake .. => [.regs, .islands, .saturated, .frames, .nextFrame, .rtk, .wak, .gwy]
  | .linWakePulse .. | .wakePinEdge .. | .keyAssert .. | .rtcAlarm .. =>
    [.regs, .islands, .saturated, .frames, .nextFrame, .rtk, .wak]
  | .pcieLinkDown .. | .outboundRequest .. | .outboundCompletion .. | .completionTimeout ..
  | .bridgeBufferError .. | .fence .. | .fenceDone .. | .pollCompletion .. | .signalTrigger ..
  | .perstNChange .. => [.regs, .busReply, .saturated, .reports, .irqs, .hbr]
  | .pcieReplay .. | .prefetchExpiry .. => [.regs, .saturated, .irqs, .hbr]
  | .errorMessageReceived .. | .pollRead .. => [.regs, .saturated, .reports, .irqs, .hbr]
  | .ringTxFrame .. => [.regs, .saturated, .reports, .irqs, .frames, .nextFrame, .hbr]
  | .ringRxFrame .. => [.regs, .saturated, .reports, .irqs, .fab, .hbr]
  | .mjpartWrite .. => [.cpx]
  | .pairRun .. => [.regs, .busReply, .saturated, .reports, .irqs, .cpx]
  | .comparatorSelftestDone .. => [.regs, .reports, .boot, .flt]
  | .lockstepMismatch .. | .spareReturnTest .. | .groomerScrub .. =>
    [.regs, .saturated, .reports, .irqs, .cpx]
  | .debugOpen .. => [.regs, .busReply, .saturated, .reports, .irqs, .vlt, .cpx]
  | .seqTick .. => [.regs, .rtk, .power]
  | .thetaWrite .. => [.regs, .busReply, .saturated, .reports, .irqs, .power]
  | .modelStall .. | .dieOverloadShed .. => [.regs, .saturated, .reports, .irqs, .power]
  | .modelSnapshot .. => [.mem, .eccBad, .power]
  | .calibrationStale .. | .thermalRestartReady .. | .mogulRetryRequest ..
  | .channelSupervisionExpiry .. => [.reports, .power]
  | .elevatedWindowEnd .. | .mogulSuccess .. | .pwmEdge .. => [.power]
  | .restartSlot .. => [.regs, .saturated, .power]
  | .feedReversed .. | .feedReturn .. => [.regs, .powerLinkA, .powerLinkB, .supply, .reports, .power]
  | .groundLoss .. =>
    [.regs, .islands, .coreHeld, .powerLinkA, .powerLinkB, .supply, .reports, .power, .boot, .gwy]
  | .groundShift .. => [.regs, .reports, .irqs]
  | .stateRequestPewter .. =>
    [.regs, .busReply, .edgeQueue, .islands, .saturated, .reports, .irqs, .flowFrames, .frames,
      .nextFrame, .fab, .rtk, .tm, .cip, .wak]
  | .stateRequestIvory .. =>
    [.regs, .busReply, .edgeQueue, .islands, .saturated, .reports, .irqs, .frames, .nextFrame, .rtk,
      .wak]
  | .transitionDone .. =>
    [.regs, .busReply, .islands, .saturated, .reports, .irqs, .flowFrames, .frames, .nextFrame, .ports,
      .fab, .rtk, .tm, .cip, .wak, .hbr, .cpx, .flt]
  | .wakeTimerTick .. => [.rtk, .wak]
  | .falseWakeTimeout .. => [.regs, .saturated, .fab, .wak]
  | .rtcSet .. => [.rtc, .regs, .busReply, .edgeQueue, .saturated, .reports, .irqs]
  | .rtcInvalid .. => [.regs, .wak]
  | .voteWrite .. =>
    [.regs, .busReply, .edgeQueue, .saturated, .reports, .irqs, .frames, .nextFrame, .rtk, .wak]
  | .chairStart .. | .chairTimeout .. => [.regs, .saturated, .frames, .nextFrame, .wak]
  | .chairReceived .. | .commitReceived .. | .maxawakeExpiry .. | .keyDeassert .. =>
    [.regs, .saturated, .reports, .frames, .nextFrame, .rtk, .wak]
  | .abortReceived .. => [.regs, .saturated, .frames, .nextFrame, .rtk, .wak]
  | .leaderTimeout .. => [.regs, .saturated, .reports, .frames, .nextFrame, .wak]
  | .commitDeadline .. => [.regs, .fab, .wak]
  | .sleepEntryDone .. =>
    [.regs, .mem, .islands, .coreHeld, .saturated, .powerLinkA, .powerLinkB, .supply, .reports,
      .bbQueue, .bbLost, .irqs, .rtk, .eccBad, .power, .wak, .boot, .box, .gwy]
  | .dowakeTimer .. => [.frames, .nextFrame, .wak]
  | .openImage .. => [.regs, .busReply, .saturated, .reports, .irqs, .vlt, .boot]
  | .manifestVerifyDone .. => [.regs, .mem, .saturated, .reports, .bbQueue, .bbLost, .irqs, .vlt, .boot]
  | .stream .. => [.regs, .busReply, .saturated, .reports, .irqs, .boot]
  | .segmentDone .. => [.regs, .mem, .saturated, .reports, .bbQueue, .bbLost, .irqs, .eccBad, .vlt, .boot]
  | .finish .. => [.regs, .mem, .busReply, .saturated, .reports, .bbQueue, .bbLost, .irqs, .eccBad, .boot]
  | .arm .. | .softwareRecord .. => [.regs, .busReply, .saturated, .reports, .bbQueue, .bbLost, .irqs]
  | .sessionAbort .. | .bootAbort .. =>
    [.regs, .mem, .busReply, .saturated, .reports, .bbQueue, .bbLost, .irqs, .boot]
  | .sessionTimeout .. => [.regs, .mem, .saturated, .reports, .bbQueue, .bbLost, .irqs, .boot]
  | .updateCommit .. => [.regs, .mem, .busReply, .saturated, .reports, .bbQueue, .bbLost, .irqs, .eccBad]
  | .mramWrite .. => [.regs, .mem, .busReply, .saturated, .reports, .irqs, .eccBad]
  | .bbRecordWrite .. =>
    [.regs, .mem, .islands, .coreHeld, .saturated, .reports, .bbQueue, .bbLost, .irqs, .eccBad, .box]
  | .bbExport .. | .bbClear .. => [.regs, .mem, .busReply, .saturated, .reports, .irqs, .eccBad, .box]
  | .faultReport .. =>
    [.regs, .mem, .busReply, .islands, .coreHeld, .quiescing, .saturated, .reports, .bbQueue, .bbLost,
      .irqs, .flowFrames, .frames, .nextFrame, .ports, .fab, .rtk, .eccBad, .tm, .cip, .vlt, .power,
      .boot, .hbr, .cpx, .flt]
  | .isolateTimeout .. =>
    [.regs, .quiescing, .saturated, .irqs, .flowFrames, .frames, .nextFrame, .ports, .fab, .cls, .rtk,
      .tm, .gwy, .flt]
  | .collectorMismatch .. => [.regs, .reports, .flt]
  | .datapathCheck .. => [.regs, .saturated, .reports, .irqs, .flowFrames, .frames, .fab, .cls, .rtk, .tm]
  | .watchdogEnable .. | .watchdogKick .. => [.regs, .busReply, .saturated, .reports, .irqs, .flt]

/-- The command completes, and its next state satisfies `P`. -/
def Answers (i : Instr) (s : State) (P : State → Prop) : Prop := ∃ t, exec i s = .next t ∧ P t

end Sys2Proof.Machine
end

