-- ==== Sys2Proof/WellFormed.lean ====
section
/-!
DEFINITION. Well-formed commands: the operands that the block or a program can present. A Ritik
instruction is well formed when its word is one (R149, R157); a measured or received value has
the length its row gives. Every meaning is total, so an ill-formed command is not refused by the
machine; it is one that no sender can give.
-/

namespace Sys2Proof

/-- The written value fits the access (R30). -/
def dataFits (size : AccessSize) (data : BitVec 64) : Bool := decide (data.toNat < 256 ^ size.bytes)

/-- Ten calibrated samples a tick and ten of the die's own sensing (R363, R373). -/
def chanSampleWf (x : ChanSample) : Bool := x.currents.length == 10 && x.dieCurrents.length == 10

/-- A CAN frame (R299): flag bit 0 marks a 29-bit identifier, bit 2 an FD frame of up to 64 bytes. -/
def canFrameWf (ident : BitVec 29) (flags : BitVec 5) (data : List Byte) : Bool :=
  (Nat.testBit flags.toNat 0 || decide (ident.toNat < 2048)) &&
    decide (data.length ≤ (if Nat.testBit flags.toNat 2 then 64 else 8))

/-- The command's operands are well formed. -/
def Instr.wf (i : Instr) : Bool :=
  match i with
  | .add .. => true
  | .sub .. => true
  | .and .. => true
  | .or .. => true
  | .xor .. => true
  | .shl .. => true
  | .shr .. => true
  | .sar .. => true
  | .ror .. => true
  | .mul .. => true
  | .mulq .. => true
  | .adds .. => true
  | .subs .. => true
  | .cmp .. => true
  | .tst .. => true
  | .min .. => true
  | .max .. => true
  | .clz .. => true
  | .popc .. => true
  | .csupd .. => true
  | .jr .. => true
  | .jlr .. => true
  | .rds .. => true
  | .wrf .. => true
  | .addi .. => true
  | .andi .. => true
  | .ori .. => true
  | .xori .. => true
  | .shli .. => true
  | .shri .. => true
  | .sari .. => true
  | .movi .. => true
  | .movhi .. => true
  | .cmpi .. => true
  | .tsti .. => true
  | .ext .. => true
  | .ins .. => true
  | .bCond .. => true
  | .blCond .. => true
  | .ld _ _ _ sp sz _ => sp != .m || sz == .word
  | .lds _ _ _ sp sz _ => sp != .m || sz == .word
  | .st _ _ _ sp sz _ => sp != .m || sz == .word
  | .aadd .. => true
  | .aswp .. => true
  | .yield .. => true
  | .time .. => true
  | .exit .. => true
  | .brk .. => true
  | .lkup .. => true
  | .waitl .. => true
  | .meter .. => true
  | .cnt .. => true
  | .hpush .. => true
  | .hpop .. => true
  | .csumh .. => true
  | .tsins _ _ rb _ adj => adj || rb == 0
  | .seal .. => true
  | .learn .. => true
  | .fwd .. => true
  | .drop .. => true
  | .trap .. => true
  | .recirc _ ra state => state || ra == 0
  | .sns .. => true
  | .tick .. => true
  | .waite .. => true
  | .pwrqUmber .. => true
  | .pwrqSlate .. => true
  | .pwrqPewter .. => true
  | .pwrqIvory .. => true
  | .on .. => true
  | .off .. => true
  | .duty .. => true
  | .trip .. => true
  | .clear .. => true
  | .thmode .. => true
  | .hold .. => true
  | .attach .. => true
  | .runoutclr .. => true
  | .calgain .. => true
  | .illegal .. => true
  | .pcRange .. => true
  | .registerWrite _ _ size data => dataFits size data
  | .snapRead .. => true
  | .bitAliasWrite .. => true
  | .blkEnable .. => true
  | .blkQuiesceStart .. => true
  | .blkQuiesceDone .. => true
  | .commitImmediate .. => true
  | .commitTimed .. => true
  | .commitGeneration .. => true
  | .commitDone .. => true
  | .worldLock .. => true
  | .regionLock .. => true
  | .partitionLock .. => true
  | .edgeWriteApplied => true
  | .aonWriteApplied => true
  | .islandStop .. => true
  | .islandReady .. => true
  | .coreResetRelease => true
  | .traverseFlitReplay => true
  | .traverseRetrainStart => true
  | .traverseRetrainDone => true
  | .traverseRetrainTimeout => true
  | .traverseLossTimeout => true
  | .powerLinkCommand .. => true
  | .powerLinkCopySilent .. => true
  | .powerLinksLost .. => true
  | .heartbeatToggle => true
  | .heartbeatLoss .. => true
  | .seqStateRefresh .. => true
  | .feedLoss => true
  | .feedApply .. => true
  | .feedOutOfRange .. => true
  | .holdupCharged => true
  | .resetNAssert => true
  | .resetNRelease => true
  | .mdioAddress .. => true
  | .mdioWrite .. => true
  | .mdioReadIncrement .. => true
  | .mdioRead .. => true
  | .mdioDone .. => true
  | .portEnable .. => true
  | .portDisable .. => true
  | .portDisableDone .. => true
  | .linkUp .. => true
  | .linkDown .. => true
  | .t1SpeedTryTimeout .. => true
  | .phyMirrorRefresh .. => true
  | .plcaBeaconLoss .. => true
  | .plcaBeaconReceived .. => true
  | .plcaCollision .. => true
  | .tc10SleepRequest .. => true
  | .tc10PartnerSleepRequest .. => true
  | .tc10SleepComplete .. => true
  | .tc10Wake .. => true
  | .preemptVerifySuccess .. => true
  | .preemptVerifyTimeout .. => true
  | .frameReceive _ head _ => decide (0 < head.length)
  | .frameReceiveEnd .. => true
  | .pfcReceive _ _ quanta => quanta.length == 8
  | .pauseReceive .. => true
  | .flowControlStopExpiry .. => true
  | .pfcRefresh .. => true
  | .macsecVerify .. => true
  | .cellAdmit .. => true
  | .cellFree .. => true
  | .schedulerCellTime .. => true
  | .schedulerSwap .. => true
  | .frameEnqueue .. => true
  | .driftSpill .. => true
  | .driftReturn .. => true
  | .driftDrainStart => true
  | .driftDrainDone => true
  | .linkDownHoldExpiry .. => true
  | .cellMemoryError .. => true
  | .classifyPass .. => true
  | .l3LengthTailCheck .. => true
  | .flowcmdLookup .. => true
  | .flowcmdInsert .. => true
  | .flowcmdDeleteKey .. => true
  | .flowcmdReadSlot .. => true
  | .flowcmdDeleteSlot .. => true
  | .flowcmdFlush .. => true
  | .flowQueueExecute => true
  | .agingSweep .. => true
  | .forcedRetireExpiry .. => true
  | .generationSweepDone .. => true
  | .tcamParityCheck .. => true
  | .frameDispatch .. => true
  | .threadStart .. => true
  | .lookupComplete .. => true
  | .programBudgetExpiry .. => true
  | .rtkImageLoad .. => true
  | .pwcImageLoad .. => true
  | .wakImageLoad .. => true
  | .imageLoadDone .. => true
  | .memoryScrub .. => true
  | .streamStage .. => true
  | .frerResetTimer .. => true
  | .frerWatchdogExpiry .. => true
  | .meterFill .. => true
  | .selcfgWrite .. => true
  | .selectionOpportunity .. => true
  | .frameTransmitEnd .. => true
  | .gateEntryChange .. => true
  | .gateHoldAssert .. => true
  | .listChangeTime .. => true
  | .timeSampleSubmit .. => true
  | .syncTimeout .. => true
  | .holdoverExpiry .. => true
  | .timeSet .. => true
  | .domainEnable .. => true
  | .domainDisable .. => true
  | .timeSnapshot .. => true
  | .timeConvert .. => true
  | .ltAlignFlit .. => true
  | .timeInEdge .. => true
  | .timeInLoss => true
  | .timeOutPulse => true
  | .oscDeviation => true
  | .laneMismatch .. => true
  | .laneReturnTest .. => true
  | .entropyHealthFail => true
  | .entropyRetryExpiry => true
  | .drbgReseed => true
  | .cipRngRead .. => true
  | .vltRngRead .. => true
  | .saEnable .. => true
  | .keyContextLoaded .. => true
  | .keyClear .. => true
  | .jobClaim .. => true
  | .jobGo .. => true
  | .jobStart .. => true
  | .jobAbort .. => true
  | .jobRelease .. => true
  | .jobDone .. => true
  | .contextEccError .. => true
  | .vaultReady .. => true
  | .provision .. => true
  | .derive .. => true
  | .invalidate .. => true
  | .overwrite .. => true
  | .extend .. => true
  | .verify .. => true
  | .enrol .. => true
  | .tamperSample .. => true
  | .vaultZeroizeDone => true
  | .glitchTrip => true
  | .canFrameReceived _ _ ident flags data _ => canFrameWf ident flags data
  | .linHeaderReceived .. => true
  | .linFrameReceived _ _ data _ _ => decide (data.length ≤ 8)
  | .linScheduleSlot .. => true
  | .serFrameEnd _ data _ _ => decide (0 < data.length)
  | .dinSample .. => true
  | .ainConversion .. => true
  | .ainPeriodicReport .. => true
  | .gatewayTxFrame => true
  | .canTransmit .. => true
  | .canTxTimeout .. => true
  | .canBusOff .. => true
  | .canBusoffRecovery .. => true
  | .canDominantTimeout .. => true
  | .gwyChannelEnable .. => true
  | .gwyChannelDisable .. => true
  | .canSelectiveWake _ _ ide ident dlc _ => (ide || decide (ident.toNat < 2048)) && decide (dlc.toNat ≤ 8)
  | .linWakePulse .. => true
  | .pcieLinkUp .. => true
  | .pcieLinkDown .. => true
  | .outboundRequest _ _ size _ data => dataFits size data
  | .outboundCompletion .. => true
  | .completionTimeout .. => true
  | .pcieReplay .. => true
  | .inboundRequest write _ _ _ _ bytes => decide (bytes.length ≤ 4096) && (!write || decide (0 < bytes.length))
  | .errorMessageReceived .. => true
  | .bridgeBufferError .. => true
  | .fence .. => true
  | .fenceDone .. => true
  | .prefetchExpiry .. => true
  | .pollRead .. => true
  | .pollCompletion .. => true
  | .signalTrigger .. => true
  | .ringTailWrite .. => true
  | .ringTxFrame _ _ len bytes => bytes.length == len.toNat
  | .ringRxFrame .. => true
  | .mjpartWrite .. => true
  | .softwareInterrupt .. => true
  | .pairRun .. => true
  | .comparatorSelftestDone .. => true
  | .lockstepMismatch .. => true
  | .spareReturnTest .. => true
  | .groomerScrub .. => true
  | .resyncDone .. => true
  | .checkpointCommit .. => true
  | .debugOpen .. => true
  | .debugExpiry => true
  | .debugHalt .. => true
  | .seqTick samples => samples.length == 48 && samples.all chanSampleWf
  | .thetaWrite .. => true
  | .modelStall .. => true
  | .modelSnapshot => true
  | .offsetCalibration .. => true
  | .calibrationStale .. => true
  | .gainStep _ before during after => before.length == 5 && during.length == 5 && after.length == 5
  | .fastLimitTrip .. => true
  | .thermalShutdown .. => true
  | .thermalRestartReady .. => true
  | .elevatedWindowEnd .. => true
  | .mogulSuccess .. => true
  | .mogulRetryRequest .. => true
  | .restartSlot .. => true
  | .runoutTrip .. => true
  | .dieOverloadShed .. => true
  | .openLoad .. => true
  | .loadDump .. => true
  | .loadDumpEnd .. => true
  | .feedReversed .. => true
  | .groundLoss => true
  | .groundShift => true
  | .channelSupervisionExpiry .. => true
  | .stateRequestPewter .. => true
  | .stateRequestIvory .. => true
  | .transitionDone => true
  | .wakePinEdge .. => true
  | .keyAssert => true
  | .rtcAlarm .. => true
  | .wakeTimerTick => true
  | .falseWakeTimeout => true
  | .rtcSet .. => true
  | .rtcInvalid => true
  | .voteWrite .. => true
  | .chairStart .. => true
  | .chairReceived .. => true
  | .commitReceived .. => true
  | .abortReceived .. => true
  | .chairTimeout .. => true
  | .leaderTimeout => true
  | .maxawakeExpiry => true
  | .commitDeadline => true
  | .sleepEntryDone => true
  | .dowakeTimer => true
  | .openImage .. => true
  | .manifestVerifyDone => true
  | .stream .. => true
  | .segmentDone .. => true
  | .finish .. => true
  | .arm .. => true
  | .sessionAbort .. => true
  | .sessionTimeout => true
  | .updateCommit .. => true
  | .bootAbort .. => true
  | .mramWrite .. => true
  | .bbRecordWrite => true
  | .softwareRecord .. => true
  | .bbExport .. => true
  | .bbClear .. => true
  | .faultReport => true
  | .isolateTimeout => true
  | .collectorMismatch => true
  | .datapathCheck .. => true
  | .hardwareMonitorTrip .. => true
  | .watchdogEnable .. => true
  | .watchdogKick .. => true
  | .watchdogExpiry .. => true
  | .faultN1Release .. => true
  | .counterModeWrite .. => true
  | .ovfClear .. => true
  | .counterSnapshot .. => true
  | .pwmEdge .. => true
  | .feedReturn .. => true
  | .groundRestore => true
  | .floorTimerExpiry .. => true
  | .serTransmit .. => true
  | .keyDeassert => true
  | .perstNChange .. => true

end Sys2Proof
end

