-- ==== Sys2Proof/Certificates/Slice0/Obligations.lean ====
section
/-!
DEFINITION. The statements about the block, for the provers. Each says what a command or the machine does by
the rules that its docstring names.
-/

open Sys2Proof Sys2Proof.Machine

/-- A step takes the command at the front of the queue and runs it on the state with the rest of the queue.
With an empty queue the block idles: a nanosecond passes, and while the Core die is held nothing else does. -/
def Obligations.StepRunsTheFrontCommand : Prop :=
  (∀ (s : State) (c : Instr), step { s with pending := c :: s.pending } = exec c s) ∧
  (∀ (s : State) (c : Instr) (rest : List Instr), s.pending = c :: rest →
    step s = exec c { s with pending := rest }) ∧
  (∀ (s : State), s.pending = [] → ∃ t, step s = .next t ∧ t.nowNs = s.nowNs + 1 ∧ t.pending = [] ∧
    (s.coreHeld = true → t.regs = s.regs ∧ t.frames = s.frames ∧ t.mem = s.mem))

/-- At reset every register holds the reset value of its table, the queue is empty, the invariant holds, and
the reactions of R451 are the ones it gives for each class. -/
def Obligations.ResetHoldsTheResetValues : Prop :=
  State.reset.sound = true ∧ State.reset.pending = [] ∧ State.reset.mem = [] ∧ State.reset.live = [] ∧
  (∀ k, State.reset.rd k = resetWord k) ∧
  (∀ n, n < 16 →
    State.reset.rdN (reactKey 0 (n + 1)) = 0 ∧ State.reset.rdN (reactKey 1 (n + 1)) = 0 ∧
    State.reset.rdN (reactKey 2 (n + 1)) = 1 ∧ State.reset.rdN (reactKey 3 (n + 1)) = 3 ∧
    State.reset.rdN (reactKey 4 (n + 1)) = 9) ∧
  (∀ b, blockListed b = true → State.reset.blkEn b = false)

/-- Registers, live banks and memory keep their canonical form and the black-box queue its 64 places in every
step, from every state that has them. -/
def Obligations.EveryStepKeepsTheInvariant : Prop :=
  ∀ (s t : State), s.sound = true → step s = .next t → t.sound = true

/-- Every command answers a next state, whatever the state: no ordinary data ends a run; it leaves the
commands that wait behind it, the variant and the time as they were, and no free value is used twice. -/
def Obligations.EveryCommandCompletes : Prop :=
  ∀ (i : Instr) (s : State), Answers i s fun t => s.Undisturbed t

/-- The frame of every command: only the parts listed for it can change, and a command whose parts hold no
memory leaves every byte of memory as it was. -/
def Obligations.EveryCommandKeepsItsFrame : Prop :=
  ∀ (i : Instr) (s t : State), exec i s = .next t →
    State.ChangesOnly (partsOf i) s t ∧
    ((partsOf i).contains .mem = false → ∀ a, t.rdByte a = s.rdByte a) ∧
    ((partsOf i).contains .regs = false → ∀ k, t.rd k = s.rd k)

/-- Rules R8, R28, R29: what each field of a register holds after a word is written to it, by its access type;
bits that no field names keep reading what they read. -/
def Obligations.FieldsFollowTheirAccessTypes : Prop :=
  ∀ (s : State) (m : Master) (key : Nat) (v : Word) (r : Row) (f : FieldDesc),
    rowAt key = some r → s.gateVerdict r key = .accept → forcedOnes key = 0 → f ∈ r.fields →
    let t := s.regWrite m key v
    let old := s.fld key f.lo f.width
    let given := getBits v f.lo f.width
    let now := t.fld key f.lo f.width
    let enabled := s.blkEn (key / 0x100000)
    (f.ty = .rw → now = given) ∧
    (f.ty = .ro ∨ f.ty = .wo ∨ f.ty = .snap ∨ f.ty = .own → now = old) ∧
    (f.ty = .w1c → ∀ b, b < f.width → Nat.testBit now b = (Nat.testBit old b && !Nat.testBit given b)) ∧
    (f.ty = .w1s → ∀ b, b < f.width → Nat.testBit now b = (Nat.testBit old b || Nat.testBit given b)) ∧
    (f.ty = .cfg → enabled = false → now = given) ∧
    (f.ty = .cfg → enabled = true → now = old ∧ t.bit (Reg.BLK_STATUS (key / 0x100000)) 0 = true ∧
      (s.bit (Reg.BLK_STATUS (key / 0x100000)) 0 = false →
        t.fld (Reg.BLK_DENYADDR (key / 0x100000)) 0 20 = key % 0x100000 ∧
        t.fld (Reg.BLK_DENYADDR (key / 0x100000)) 20 6 = m.pmid.toNat)) ∧
    (∀ b, b < 32 → (∀ g ∈ r.fields, b < g.lo ∨ g.lo + g.width ≤ b) → t.bit key b = s.bit key b)

/-- Rules R458, R459: one count of a governed pair: the carry in SERVICE, the frozen HIGH and OVF in the other
modes, and saturation, after which it counts nothing in any mode. -/
def Obligations.CounterPairsCarryFreezeAndSaturate : Prop :=
  ∀ (s : State) (k : Nat),
    let low := fun (t : State) => t.rdN k
    let high := fun (t : State) => t.fld (k + 4) 0 30
    let ovf := fun (t : State) => t.bit (k + 4) 30
    let stuck := fun (t : State) => Store.get (fun _ => false) t.saturated k
    (stuck s = true → s.bump k = s) ∧
    (stuck s = false → s.serviceMode = true →
      (low s < 0xFFFFFFFF → low (s.bump k) = low s + 1 ∧ high (s.bump k) = high s ∧
        ovf (s.bump k) = ovf s ∧ stuck (s.bump k) = false) ∧
      (low s = 0xFFFFFFFF → high s < 0x3FFFFFFF → low (s.bump k) = 0 ∧ high (s.bump k) = high s + 1 ∧
        ovf (s.bump k) = ovf s ∧ stuck (s.bump k) = false) ∧
      (low s = 0xFFFFFFFF → high s = 0x3FFFFFFF → low (s.bump k) = 0xFFFFFFFF ∧
        high (s.bump k) = 0x3FFFFFFF ∧ ovf (s.bump k) = ovf s ∧ stuck (s.bump k) = true)) ∧
    (stuck s = false → s.serviceMode = false →
      (low s < 0xFFFFFFFF → low (s.bump k) = low s + 1 ∧ high (s.bump k) = high s ∧
        ovf (s.bump k) = ovf s) ∧
      (low s = 0xFFFFFFFF → low (s.bump k) = 0 ∧ high (s.bump k) = high s ∧ ovf (s.bump k) = true) ∧
      stuck (s.bump k) = false) ∧
    ∀ x, x ≠ k → x ≠ k + 4 → (s.bump k).rd x = s.rd x

/-- Rules R145 to R149, R153 to R159: a well-formed Ritik instruction's word decodes to it, and every word
that decodes to an instruction other than ILLEGAL is that instruction's own word. The four requests of PWRQ
share one word, so what `ra` holds says which of them it spells. -/
def Obligations.RitikWordsDecodeToTheirInstruction : Prop :=
  (∀ (i : Instr) (w : Word), ritikEncode i = some w → i.wf = true → ∃ t, ∀ val : Gpr → Word,
    (∀ ra, i = .pwrqUmber t ra → (val ra).toNat % 16 ∉ [1, 2, 3]) →
    (∀ ra, i = .pwrqSlate t ra → (val ra).toNat % 16 = 1) →
    (∀ ra, i = .pwrqPewter t ra → (val ra).toNat % 16 = 2) →
    (∀ ra, i = .pwrqIvory t ra → (val ra).toNat % 16 = 3) →
    ritikDecode t val w = some i) ∧
  (∀ (t : ThreadId) (val : Gpr → Word) (w : Word) (i : Instr), ritikDecode t val w = some i →
    (∀ unit, i ≠ .illegal ⟨t, unit⟩) → i.wf = true ∧ ritikEncode i = some w)

/-- Rule R44: an Indigo master is never refused for its world, an Amber master never reaches an Indigo target:
of register space by the block's world, of the bit-alias window by the same, of memory by the deciding region;
and a refused access changes no memory and no register but the bus-error log and the event counters. Size and
existence of the word are checked before the world (DEDUCED, log 6). -/
def Obligations.AmberAccessesNeverReachIndigo : Prop :=
  (∀ (s : State) (m : Master) (key : Nat) (size : AccessSize) (w : Bool),
    (m.indigo = true ∨ s.blkIndigo (key / 0x100000) = false → s.regCheck m key size w ≠ some 4) ∧
    (m.indigo = false → s.blkIndigo (key / 0x100000) = true → s.regCheck m key size w ≠ none) ∧
    (m.indigo = false → s.blkIndigo (key / 0x100000) = true → blockListed (key / 0x100000) = true →
      sizeOk key size = true → s.regCheck m key size w = some 4)) ∧
  (∀ (s : State) (m : Master) (a : Nat) (k : AccessKind), targetOf a ∈ [.rom, .mram, .sram, .flash, .dram] →
    let indigo := match s.decidingRegion a with
      | none => true
      | some n => s.bit (Reg.SYS_RGNATTR n) 1
    (m.indigo = true ∨ indigo = false → s.memCheck m a k ≠ some 4) ∧
    (m.indigo = false → indigo = true → s.memCheck m a k = some 4)) ∧
  (∀ (s : State) (m : Master) (addr : BitVec 40) (size : AccessSize) (d : BitVec 64) (v : Word) (key b : Nat),
    m.indigo = false → blockListed (key / 0x100000) = true → s.blkIndigo (key / 0x100000) = true →
    s.bit Reg.SYS_BERRINFO 31 = false →
    let ends := fun (t : State) => t.busReply = { data := 0, error := true } ∧ t.mem = s.mem ∧
      t.live = s.live ∧ t.edgeQueue = s.edgeQueue ∧ t.fld Reg.SYS_BERRINFO 8 3 = 4 ∧
      t.fld Reg.SYS_BERRINFO 0 6 = m.pmid.toNat ∧ t.bit Reg.SYS_BERRINFO 6 = false ∧
      ∀ k, k / 0x100000 ≠ 2 → k ≠ Reg.SYS_BERRADDRL → k ≠ Reg.SYS_BERRADDRH → k ≠ Reg.SYS_BERRINFO →
        t.rd k = s.rd k
    (targetOf addr.toNat = .reg key → sizeOk key size = true →
      Answers (.registerWrite m addr size d) s ends ∧ Answers (.snapRead m addr size) s ends) ∧
    (targetOf addr.toNat = .bitAlias key b → addr.toNat % 4 = 0 → sizeOk key .word = true →
      Answers (.bitAliasWrite m addr v) s ends))

/-- Rules R243, R295, R354, R441, R457: counter pairs stand at 0x100 + 8k of their blocks in the order the
tables give, and follow the carry and wrap rules. -/
def Obligations.CounterPairsStandInOrder : Prop :=
  ([Cnt.FLT_FAULTS_INFO, Cnt.FLT_FAULTS_CORR, Cnt.FLT_FAULTS_DEGR, Cnt.FLT_FAULTS_CRIT, Cnt.FLT_FAULTS_FATAL,
    Cnt.FLT_COALESCED, Cnt.FLT_SAFESTOPS] = (List.range 7).map (fun k => regKey 0x01 (0x100 + 8 * k))) ∧
  ([Cnt.TIM_STEPS, Cnt.TIM_SAMPLE_OK, Cnt.TIM_SAMPLE_REJ, Cnt.TIM_HOLDOVER_ENTRY, Cnt.TIM_LOCK_LOSS,
    Cnt.TIM_TS_RING_OVF, Cnt.TIM_TS_SEALED, Cnt.TIM_TIME_IN_EDGES] =
    (List.range 8).map (fun k => regKey 0x18 (0x100 + 8 * k))) ∧
  ([Cnt.VLT_PROV_OK, Cnt.VLT_PROV_REJ, Cnt.VLT_DERIVE_OK, Cnt.VLT_DERIVE_REJ, Cnt.VLT_INVALIDATED,
    Cnt.VLT_EXTENDS, Cnt.VLT_VERIFY_OK, Cnt.VLT_VERIFY_FAIL] =
    (List.range 8).map (fun k => regKey 0x1A (0x100 + 8 * k))) ∧
  ([Cnt.CPX_LOCKSTEP_OUT, Cnt.CPX_LATENT_DIVERGE, Cnt.CPX_SCRUBS, Cnt.CPX_SPARE_RETURN, Cnt.CPX_DBG_OPEN,
    Cnt.CPX_FAILOVERS] = (List.range 6).map (fun k => regKey 0x23 (0x100 + 8 * k))) ∧
  ([Cnt.BOOT_SESSIONS, Cnt.BOOT_COMMITS, Cnt.BOOT_ABORTS, Cnt.BOOT_BUSY_REJ, Cnt.BOOT_FALLBACKS,
    Cnt.BOOT_SEG_FAIL] = (List.range 6).map (fun k => regKey 0x29 (0x100 + 8 * k))) ∧
  ([Cnt.NVS_BB_RECORDS, Cnt.NVS_BB_LOST, Cnt.NVS_MRAM_UNCORR] =
    (List.range 3).map (fun k => regKey 0x28 (0x100 + 8 * k))) ∧
  ∀ b n, (b, n) ∈ [(0x01, 7), (0x18, 8), (0x1A, 8), (0x23, 6), (0x29, 6), (0x28, 3)] → ∀ k, k < n →
    governedHigh (regKey b (0x104 + 8 * k)) = true

/-- Rule R26, R33, R43, R45, R46, R48, R49: what each command of the register interface leaves, when the
checks of the bus let it through, and what a refused one leaves. -/
def Obligations.RegisterCommandsComplete : Prop :=
  (∀ (s : State) (m : Master) (addr : BitVec 40) (size : AccessSize) (data : BitVec 64),
    (targetOf addr.toNat = .sram ∨ targetOf addr.toNat = .dram) →
    s.memCheckRange m addr.toNat size.bytes .write = none →
    Answers (.registerWrite m addr size data) s fun t =>
      t.rdBytes addr.toNat size.bytes = bytesLE size.bytes data.toNat ∧
      (∀ a, a < addr.toNat ∨ addr.toNat + size.bytes ≤ a → t.rdByte a = s.rdByte a) ∧
      t.regs = s.regs ∧ t.busReply.error = false) ∧
  (∀ (s : State) (m : Master) (addr : BitVec 40) (size : AccessSize) (data : BitVec 64) (key c : Nat),
    targetOf addr.toNat = .reg key → s.regCheck m key size true = some c →
    Answers (.registerWrite m addr size data) s fun t =>
      t.busReply.error = true ∧ t.mem = s.mem ∧ t.bit Reg.SYS_BERRINFO 31 = true ∧
      (s.bit Reg.SYS_BERRINFO 31 = false → c < 7 →
        t.rdN Reg.SYS_BERRADDRL = addr.toNat % 2 ^ 32 ∧ t.fld Reg.SYS_BERRINFO 8 3 = c ∧
        t.fld Reg.SYS_BERRINFO 0 6 = m.pmid.toNat ∧ t.bit Reg.SYS_BERRINFO 7 = true) ∧
      (s.bit Reg.SYS_BERRINFO 31 = true → t.bit Reg.SYS_BERRINFO 30 = true) ∧
      ∀ k, k / 0x100000 ≠ 2 → k ≠ Reg.SYS_BERRADDRL → k ≠ Reg.SYS_BERRADDRH → k ≠ Reg.SYS_BERRINFO →
        t.rd k = s.rd k) ∧
  (∀ (s : State) (m : Master) (addr : BitVec 40) (data : BitVec 64) (n : Fin 256),
    addr.toNat = 0x40000000 + Reg.SYS_RGNBASE n.val → s.admits m (Reg.SYS_RGNBASE n.val) →
    Answers (.registerWrite m addr .word data) s fun t =>
      t.fld (Reg.SYS_RGNBASE n.val) 0 28 =
        (if s.bit (Reg.SYS_RGNATTR n.val) 5 then s.fld (Reg.SYS_RGNBASE n.val) 0 28
          else data.toNat % 2 ^ 28) ∧
      t.mem = s.mem ∧ ∀ k, k ≠ Reg.SYS_RGNBASE n.val → t.rd k = s.rd k) ∧
  (∀ (s : State) (m : Master) (addr : BitVec 40) (size : AccessSize),
    (targetOf addr.toNat = .sram ∨ targetOf addr.toNat = .dram ∨ targetOf addr.toNat = .mram) →
    s.memCheckRange m addr.toNat size.bytes .read = none →
    Answers (.snapRead m addr size) s fun t =>
      t.mem = s.mem ∧
      (s.badMem addr.toNat size.bytes = none →
        t.busReply = { data := BitVec.ofNat 64 (natLE (s.rdBytes addr.toNat size.bytes)) } ∧ t.regs = s.regs) ∧
      (∀ x, s.badMem addr.toNat size.bytes = some x →
        t.busReply = { data := 0, error := true } ∧ t.reports ≠ s.reports)) ∧
  (∀ (s : State) (m : Master) (addr : BitVec 40),
    addr.toNat = 0x40000000 + Reg.SYS_CAPS → s.regCheck m Reg.SYS_CAPS .word false = none →
    Answers (.snapRead m addr .word) s fun t =>
      t.busReply = { data := s.capsWord.setWidth 64 } ∧ t.regs = s.regs ∧ t.mem = s.mem) ∧
  (∀ (s : State) (m : Master) (addr : BitVec 40) (data : Word) (j : Fin 4) (b : Fin 32),
    addr.toNat = 0x48000000 + 32 * (0x40 + 4 * j.val) + 4 * b.val →
    s.admits m (Reg.SYS_BLKWORLD j.val) →
    Answers (.bitAliasWrite m addr data) s fun t =>
      t.bit (Reg.SYS_BLKWORLD j.val) b.val =
        (if s.bit Reg.SYS_WORLDLOCK 0 then s.bit (Reg.SYS_BLKWORLD j.val) b.val
          else fixedIndigo (32 * j.val + b.val) || getBit data 0) ∧
      t.mem = s.mem ∧ ∀ k, k ≠ Reg.SYS_BLKWORLD j.val → t.rd k = s.rd k) ∧
  (∀ (s : State) (m : Master), s.admits m Reg.SYS_WORLDLOCK →
    Answers (.worldLock m) s fun t =>
      t.bit Reg.SYS_WORLDLOCK 0 = true ∧ ∀ k, k ≠ Reg.SYS_WORLDLOCK → t.rd k = s.rd k) ∧
  (∀ (s : State) (m : Master) (n : Fin 256), s.admits m (Reg.SYS_RGNATTR n.val) →
    Answers (.regionLock m n) s fun t =>
      t.bit (Reg.SYS_RGNATTR n.val) 5 = true ∧ ∀ k, k ≠ Reg.SYS_RGNATTR n.val → t.rd k = s.rd k) ∧
  (∀ (s : State) (m : Master), s.admits m Reg.CPX_PARTLOCK →
    Answers (.partitionLock m) s fun t =>
      t.bit Reg.CPX_PARTLOCK 0 = true ∧ ∀ k, k ≠ Reg.CPX_PARTLOCK → t.rd k = s.rd k) ∧
  (∀ (s : State) (w : BusWrite) (rest : List BusWrite), s.edgeQueue = w :: rest →
    s.edgeReachable = true →
    Answers .edgeWriteApplied s fun t =>
      if w.key / 0x100000 = 0x26 ∧ 0x20 ≤ w.key % 0x100000 then
        t = { s with edgeQueue := rest, aonQueue := s.aonQueue ++ [w] } ∧
        (s.regThere (Reg.BLK_STATUS 0x26) = true → getBit (t.shown (Reg.BLK_STATUS 0x26)) 1 = true)
      else
        let u := ({ s with edgeQueue := [] } : State).applyWrite w
        t = { u with edgeQueue := rest ++ u.edgeQueue }) ∧
  (∀ (s : State) (w : BusWrite) (rest : List BusWrite), s.aonQueue = w :: rest →
    Answers .aonWriteApplied s fun t =>
      let u := ({ s with edgeQueue := [], aonQueue := [] } : State).applyWrite w
      t = { u with edgeQueue := s.edgeQueue ++ u.edgeQueue, aonQueue := rest ++ u.aonQueue }) ∧
  (∀ (s : State), s.regThere (Reg.BLK_STATUS 0x26) = true → s.aonQueue = [] →
    getBit (s.shown (Reg.BLK_STATUS 0x26)) 1 = s.bit (Reg.BLK_STATUS 0x26) 1)

/-- Rule R36: enable and quiesce of a block, and of a block on the Edge die in the order of the writes toward
it; what a block does besides is the named effect of its chapter, and a block without one changes only its
control and status words. The commit commands: a rejected GO sets REJECT and its CODE; an accepted one sets
PENDING with CODE 0 and does what the commit of its table does; the end clears PENDING and sets DONE. -/
def Obligations.BlockEnableAndCommitCommandsComplete : Prop :=
  ((∀ (s : State) (m : Master) (b : Fin 128), s.admits m (Reg.BLK_CTRL b.val) → s.edgeBehind b.val = false →
    s.blkQuiescing b.val = false → s.blkEn b.val = false →
    Answers (.blkEnable m b) s fun t =>
      t = (((s.reply 0).setBit (Reg.BLK_CTRL b.val) 0 true).enableEffects b.val) ∧
      (b.val ∉ [0x04, 0x05, 0x06, 0x07, 0x08, 0x09, 0x0E, 0x14, 0x17, 0x1C, 0x1D, 0x1E, 0x24, 0x25, 0x26] →
        t.blkEn b.val = true ∧ ∀ k, k ≠ Reg.BLK_CTRL b.val → t.rd k = s.rd k)) ∧
  (∀ (s : State) (m : Master) (b : Fin 128), s.admits m (Reg.BLK_CTRL b.val) → s.edgeBehind b.val = false →
    s.blkQuiescing b.val = true → b.val ∉ [0x24, 0x25, 0x26] →
    Answers (.blkEnable m b) s fun t =>
      t.blkQuiescing b.val = false ∧ t.bit (Reg.BLK_STATUS b.val) 1 = false ∧
      ∀ k, k ≠ Reg.BLK_STATUS b.val → t.rd k = s.rd k) ∧
  (∀ (s : State) (m : Master) (b : Fin 128), s.regCheck m (Reg.BLK_CTRL b.val) .word true = none →
    s.edgeBehind b.val = true →
    Answers (.blkEnable m b) s (fun t => t.regs = s.regs ∧
      t.edgeQueue = s.edgeQueue ++
        [⟨m, 0x40000000 + Reg.BLK_CTRL b.val, Reg.BLK_CTRL b.val, 1, false, some 0⟩]) ∧
    Answers (.blkQuiesceStart m b) s (fun t => t.regs = s.regs ∧
      t.edgeQueue = s.edgeQueue ++
        [⟨m, 0x40000000 + Reg.BLK_CTRL b.val, Reg.BLK_CTRL b.val, 0, false, some 0⟩])) ∧
  (∀ (s : State) (m : Master) (b : Fin 128), s.admits m (Reg.BLK_CTRL b.val) → s.edgeBehind b.val = false →
    s.blkEn b.val = true → s.blkQuiescing b.val = false →
    Answers (.blkQuiesceStart m b) s fun t =>
      (0x20 ≤ b.val ∧ b.val ≤ 0x23 →
        t.blkEn b.val = false ∧ ∀ k, k ≠ Reg.BLK_CTRL b.val → t.rd k = s.rd k) ∧
      (b.val ∉ [0x08, 0x09, 0x19, 0x20, 0x21, 0x22, 0x23, 0x24, 0x25, 0x26] →
        t.bit (Reg.BLK_STATUS b.val) 1 = true ∧ t.blkQuiescing b.val = true ∧
        t.blkEn b.val = true ∧ ∀ k, k ≠ Reg.BLK_STATUS b.val → t.rd k = s.rd k)) ∧
  (∀ (s : State) (b : Fin 128), s.blkQuiescing b.val = true → s.quiesced b.val = true →
    Answers (.blkQuiesceDone b) s fun t =>
      b.val ∉ [0x04, 0x05, 0x06, 0x07, 0x14, 0x19, 0x1C, 0x1D] →
        t.blkEn b.val = false ∧ t.bit (Reg.BLK_STATUS b.val) 1 = false ∧
        t.blkQuiescing b.val = false ∧
        ∀ k, k ≠ Reg.BLK_CTRL b.val → k ≠ Reg.BLK_STATUS b.val → t.rd k = s.rd k) ∧
  (∀ (s : State) (b : Fin 128), s.blkQuiescing b.val = true → s.quiesced b.val = false →
    Answers (.blkQuiesceDone b) s fun t => t = s)) ∧
  ((∀ (i : Instr) (s : State) (m : Master) (b : Fin 128) (tab ix : BitVec 8) (mode c : Nat),
    (i = .commitImmediate m b tab ix ∧ mode = 0 ∨ i = .commitTimed m b tab ix ∧ mode = 1 ∨
      i = .commitGeneration m b tab ix ∧ mode = 2) →
    s.admits m (commitKey b.val) → s.commitCode b.val tab.toNat ix.toNat mode = c →
    (c = 0 → exec i s = .next
      ((((s.reply 0).setFld (Reg.BLK_COMMITSTAT b.val) 8 8 0).setBit (Reg.BLK_COMMITSTAT b.val) 0
        true).setCommit b.val { active := true, table := tab.toNat, index := ix.toNat, mode := mode }
          |>.commitApply b.val tab.toNat ix.toNat)) ∧
    (c ≠ 0 → Answers i s fun t =>
      t.bit (Reg.BLK_COMMITSTAT b.val) 2 = true ∧ t.fld (Reg.BLK_COMMITSTAT b.val) 8 8 = c ∧
      t.live = s.live ∧ t.commits = s.commits ∧
      ∀ k, k ≠ Reg.BLK_COMMITSTAT b.val → t.rd k = s.rd k)) ∧
  (∀ (s : State) (b : Fin 128) (tab ix : BitVec 8) (mode : Nat),
    s.tablePending b.val tab.toNat = true → s.commitCode b.val tab.toNat ix.toNat mode = 1) ∧
  (∀ (s : State) (m : Master), s.admits m (commitKey 0x0C) →
    s.commitCode 0x0C 0 0 2 = 0 →
    Answers (.commitGeneration m 0x0C 0 0) s fun t =>
      t.fld Reg.CLS_GENSTAT 0 2 = (s.curGen + 1) % 4 ∧
      t.fld (Reg.BLK_COMMITSTAT 0x0C) 4 2 = (s.curGen + 1) % 4 ∧ t.cls.staged = []) ∧
  (∀ (s : State) (b : Fin 128), (s.commit b.val).active = true →
    Answers (.commitDone b) s fun t =>
      (t.commit b.val).active = false ∧ t.bit (Reg.BLK_COMMITSTAT b.val) 0 = false ∧
      t.bit (Reg.BLK_COMMITSTAT b.val) 1 = true ∧ t.mem = s.mem ∧ t.live = s.live))

/-- Rules R10, R11, R33, R57: the Traverse link. A replay counts within its millisecond and the seventeenth
starts a retrain; a retrain marks the mirrors of the Edge die's PHYs stale and holds the queued writes; its
end applies what was held, in order, and reports 0x1404 with the time it took; a link not back in time has
failed; a link declared lost discards the queued writes and records the address of the oldest. -/
def Obligations.LinkCommandsComplete : Prop :=
  (∀ (s : State), s.traverse.state = .up →
    Answers .traverseFlitReplay s fun t =>
      t.traverse.replays = (if s.nowNs - s.traverse.replaySince < 1000000 then s.traverse.replays + 1 else 1) ∧
      (t.traverse.state = .recovering ↔ 16 < t.traverse.replays) ∧
      t.edgeQueue = s.edgeQueue ∧ (t.traverse.replays ≤ 16 → t.regs = s.regs)) ∧
  (∀ (s : State), s.traverse.state = .up →
    Answers .traverseRetrainStart s fun t =>
      t.traverse.state = .recovering ∧ t.traverse.retrainSince = s.nowNs ∧
      t.edgeReachable = false ∧ t.edgeQueue = s.edgeQueue ∧
      (∀ p, 12 ≤ p → p < 32 → t.bit (Reg.PRT_PSTAT p) 11 = true) ∧
      ∀ k, (∀ p, 12 ≤ p → p < 32 → k ≠ Reg.PRT_PSTAT p) → t.rd k = s.rd k) ∧
  (∀ (s : State), s.traverse.state = .recovering → ∃ u,
    u.traverse.state = .up ∧ u.traverse.held = [] ∧ u.edgeQueue = s.edgeQueue ∧ u.frames = s.frames ∧
    (∀ p, 12 ≤ p → p < 32 → u.bit (Reg.PRT_PSTAT p) 11 = false) ∧
    exec .traverseRetrainDone s = .next
      ((s.traverse.held.foldl State.applyHeld u).fault 0x1404 (s.nowNs - s.traverse.retrainSince))) ∧
  (∀ (s : State), s.traverse.state = .recovering → s.traverse.held = [] →
    Answers .traverseRetrainDone s fun t =>
      t.traverse.state = .up ∧ t.edgeReachable = true ∧ t.edgeQueue = s.edgeQueue ∧
      t.reports = s.reports ++ [⟨0x1404, (s.nowNs - s.traverse.retrainSince) % 2 ^ 32, s.nowNs⟩] ∧
      (∀ p, 12 ≤ p → p < 32 → t.bit (Reg.PRT_PSTAT p) 11 = false) ∧
      ∀ k, (∀ p, 12 ≤ p → p < 32 → k ≠ Reg.PRT_PSTAT p) → t.rd k = s.rd k) ∧
  (∀ (s : State), s.traverse.state = .recovering → s.traverse.retrainSince + 100000 ≤ s.nowNs →
    Answers .traverseRetrainTimeout s fun t =>
      t.traverse.state = .failed ∧ t.regs = s.regs ∧ t.edgeQueue = s.edgeQueue) ∧
  (∀ (s : State), s.nowNs < s.traverse.retrainSince + 100000 →
    Answers .traverseRetrainTimeout s fun t => t = s) ∧
  (∀ (s : State) (w : BusWrite) (rest : List BusWrite),
    s.traverse.state = .recovering ∨ s.traverse.state = .failed → s.traverse.retrainSince + 1100000 ≤ s.nowNs →
    s.edgeQueue = w :: rest →
    Answers .traverseLossTimeout s fun t =>
      t.traverse.state = .lost ∧ t.traverse.held = [] ∧ t.edgeQueue = [] ∧ t.regs = s.regs ∧
      (∀ f v, t.frame f = some v → v.stage ≠ .retrain) ∧
      t.reports = s.reports ++ [⟨0x3405, w.addr % 2 ^ 32, s.nowNs⟩])

/-- Rules R34, R94, R387, R389: islands and the two state requests of software. Rules R21, R22, R379, R413,
R466, R468, R479, R483: supplies and resets. -/
def Obligations.IslandAndSupplyCommandsComplete : Prop :=
  ((∀ (s : State) (i : Island), i ∉ [Island.system, .aon, .edge, .app, .mem, .cipher] →
    (i = .pg0 → s.island .pg1 = .stopped ∧ s.island .pg2 = .stopped) → (i = .pg3 → s.island .pg4 = .stopped) →
    Answers (.islandStop i) s fun t =>
      t.island i = .stopped ∧ (∀ j, j ≠ i → t.island j = s.island j) ∧ t.regs = s.regs ∧ t.mem = s.mem) ∧
  (∀ (s : State), s.island .pg1 ≠ .stopped ∨ s.island .pg2 ≠ .stopped →
    Answers (.islandStop .pg0) s fun t => t = s) ∧
  (∀ (s : State), s.island .pg4 ≠ .stopped → Answers (.islandStop .pg3) s fun t => t = s) ∧
  (∀ (s : State),
    Answers (.islandStop .cipher) s fun t =>
      t.island .cipher = .stopped ∧ (∀ j, j ≠ .cipher → t.island j = s.island j) ∧ t.mem = s.mem ∧
      t.cip.keys = [] ∧ t.cip.jobs = [] ∧
      (∀ k, k / 0x100000 ≠ 0x19 → t.rd k = s.rd k) ∧
      (s.sound = true → ∀ sa, sa < 1024 → t.bit (Reg.CIP_SA_w0 sa) 0 = false ∧
        t.rd (Reg.CIP_SA_w0 sa + 4) = s.rd (Reg.CIP_SA_w0 sa + 4))) ∧
  (∀ (s : State), s.driftCells = 0 →
    Answers (.islandStop .mem) s fun t => t.island .mem = .stopped ∧ t.regs = s.regs) ∧
  (∀ (s : State), s.driftCells ≠ 0 → Answers (.islandStop .mem) s fun t => t = s) ∧
  (∀ (s : State), Answers (.islandStop .app) s fun t => t.island .app = .stopped) ∧
  (∀ (s : State) (i : Island), s.mayRun i = true → s.coreHeld = false →
    Answers (.islandReady i) s fun t =>
      t.running i = true ∧ (∀ j, j ≠ i → t.island j = s.island j) ∧ t.regs = s.regs ∧ t.mem = s.mem) ∧
  (∀ (s : State) (m : Master), s.admits m Reg.WAK_STATECTL → s.edgeBehind 0x26 = false →
    ((s.reply 0).softwareRequest 2).1.cur = 3 → ((s.reply 0).softwareRequest 2).1.trans = false →
    Answers (.stateRequestPewter m) s fun t =>
      t.island .app = .stopped ∧ t.trans = true ∧ t.fld Reg.WAK_STATE 2 2 = 2) ∧
  (∀ (s : State) (m : Master), s.admits m Reg.WAK_STATECTL → s.edgeBehind 0x26 = false →
    ((s.reply 0).softwareRequest 3).1.cur = 2 → ((s.reply 0).softwareRequest 3).1.trans = false →
    Answers (.stateRequestIvory m) s fun t =>
      t.trans = true ∧ t.fld Reg.WAK_STATE 2 2 = 3) ∧
  (∀ (s : State), s.trans = true → s.fld Reg.WAK_STATE 2 2 < 2 → s.cur < 2 → s.phase ≠ 3 →
    Answers .transitionDone s fun t => t.trans = false ∧ t.cur = s.fld Reg.WAK_STATE 2 2 ∧ t.mem = s.mem) ∧
  (∀ (s : State), s.trans = true → 2 ≤ s.fld Reg.WAK_STATE 2 2 → s.phase ≠ 3 → s.coreHeld = false →
    (s.fld Reg.WAK_STATE 2 2 = 2 → s.driftCells = 0) → s.islandsWait (s.fld Reg.WAK_STATE 2 2) = false →
    Answers .transitionDone s fun t => t.trans = false ∧ t.cur = s.fld Reg.WAK_STATE 2 2) ∧
  (∀ (s : State), s.phase = 3 → s.fabricEmpty = true → s.wak.heldWake = [] →
    Answers .sleepEntryDone s fun t =>
      t.coreHeld = true ∧ t.trans = false ∧ t.cur = s.fld Reg.WAK_STATE 2 2 ∧
      t.supply.holdupCharged = false ∧ t.bbQueue = [])) ∧
  ((∀ (s : State), s.supply.holdupCharged = false → s.supplied = true → s.trans = true → s.cur < 2 →
    Answers .holdupCharged s fun t =>
      t.supply.holdupCharged = true ∧ t.island .system = .restarting ∧ t.regs = s.regs) ∧
  (∀ (s : State), s.coreHeld = true → s.supply.holdupCharged = true → s.supply.resetN = false →
    s.supplied = true → (2 ≤ s.cur ∨ s.trans = true ∧ 2 ≤ s.fld Reg.WAK_STATE 2 2) →
    exec .coreResetRelease s = .next (s.startCore true)) ∧
  (∀ (s : State), s.coreHeld = false →
    Answers .feedLoss s fun t =>
      t.coreHeld = true ∧ t.supply.feedLoss = true ∧ t.supply.feedAOk = false ∧ t.supply.feedBOk = false ∧
      t.supply.holdupCharged = false ∧ t.boot.afterLoss = true ∧ t.bbQueue = [] ∧ t.cur = 0) ∧
  (∀ (s : State), s.coreHeld = true →
    Answers .feedLoss s fun t =>
      t.supply.feedLoss = true ∧ t.supply.holdupCharged = false ∧ t.mem = s.mem ∧ t.regs = s.regs) ∧
  (∀ (s : State) (d : Die), s.coreHeld = true → s.supply.feedAOk = false → s.supply.feedBOk = false →
    Answers (.feedApply d) s fun t =>
      t.supply = { s.supply.feedIn d with feedLoss := false } ∧ t.coreHeld = true) ∧
  (∀ (s : State), s.supply.feedAOk = true →
    Answers (.feedOutOfRange .a) s fun t =>
      t.supply = { s.supply with feedAOk := false } ∧
      (s.coreHeld = false → ⟨0x2402, 0, s.nowNs⟩ ∈ t.reports ∧ t.bit Reg.FLT_GSTAT 0 = true)) ∧
  (∀ (s : State), s.supply.feedBOk = true →
    Answers (.feedOutOfRange .b) s fun t =>
      t.supply = { s.supply with feedBOk := false } ∧
      (s.coreHeld = false → ⟨0x2402, 1, s.nowNs⟩ ∈ t.reports ∧ t.bit Reg.FLT_GSTAT 0 = true)) ∧
  (∀ (s : State), 2 ≤ s.cur ∨ s.trans = true →
    Answers .resetNAssert s fun t =>
      t.supply.resetN = true ∧ t.coreHeld = true ∧ t.cur = 0 ∧ t.trans = false ∧ t.phase = 0 ∧ t.gwy = {}) ∧
  (∀ (s : State), s.supply.resetN = true →
    Answers .resetNRelease s fun t =>
      t.supply = { s.supply with resetN := false } ∧
      (s.supplied = false → t.regs = s.regs)) ∧
  (∀ (s : State),
    Answers .groundLoss s fun t =>
      t.supply.groundsLost = true ∧ t.supply.holdupCharged = false ∧ t.coreHeld = true ∧ t.cur = 0 ∧
      (s.hasDie 0 = true → ∀ n, n < 24 → t.chan n = {}) ∧
      (s.hasDie 1 = true → ∀ n, 24 ≤ n → n < 48 → t.chan n = {})) ∧
  (∀ (s : State), s.supply.groundsLost = true →
    Answers .groundRestore s fun t =>
      t.supply = { s.supply with groundsLost := false } ∧ t.coreHeld = s.coreHeld))

/-- Rule R483, R385: what a reset of the Core die leaves: locks, counters and every other register of the Core
die at its reset value, memory that needs power empty, and nothing waiting in the Core die. -/
def Obligations.CoreResetLeavesResetValues : Prop :=
  ∀ (s : State) (edge : Bool),
    (∀ k, k / 0x100000 ∉ [0x1A, 0x1C, 0x1D, 0x26, 0x28, 0x29] →
      (s.coreReset edge false).rd k = resetWord k) ∧
    (∀ n, n < 8 → ∀ i, i < 12 → (s.coreReset edge false).rd (Reg.VLT_MR n i) = 0) ∧
    (∀ a, nonvolatile a = true → (s.coreReset edge false).rdByte a = s.rdByte a) ∧
    (∀ a, nonvolatile a = false → (s.coreReset edge false).rdByte a = memDefault a) ∧
    (s.coreReset edge false).reports = [] ∧ (s.coreReset edge false).bbQueue = [] ∧
    (s.coreReset edge false).edgeQueue = [] ∧ (s.coreReset edge false).frames = [] ∧
    (s.coreReset edge false).wak.heldWake = s.wak.heldWake ∧
    (s.coreReset edge false).aonQueue = s.aonQueue

/-- Rules R12, R25, R359, R375: the power links. The die acts once on the oldest command when a copy is good,
and counts each bad copy; a command that no copy delivers stays queued. Rules R13, R358, R360, R363, R365,
R366, R367: the sequencer's copy, its tick, and the wire model. -/
def Obligations.SequencerCommandsComplete : Prop :=
  ((∀ (s : State) (d : Die) (a b : LinkCopy) (cmd : PowerCmd) (rest : List PowerCmd),
    (s.die (dieNo d)).queue = cmd :: rest → a ≠ .good → b ≠ .good →
    Answers (.powerLinkCommand d a b) s fun t => t.power = s.power ∧ t.rtk = s.rtk ∧ t.reports = s.reports) ∧
  (∀ (s : State) (d : Die) (b : LinkCopy) (cmd : PowerCmd) (rest : List PowerCmd),
    (s.die (dieNo d)).queue = cmd :: rest → b ≠ .bad →
    exec (.powerLinkCommand d .good b) s = .next
      ((((s.setLink (dieNo d) { s.link (dieNo d) with copyAOk := true, copyBOk := (s.link (dieNo d)).copyBOk || b != .silent }).setDie
        (dieNo d)
        { s.die (dieNo d) with queue := rest }).dieAct (dieNo d) cmd).wakeSeqRoom (dieNo d))) ∧
  (∀ (s : State) (d : Die) (arg : Word) (th : Nat) (c : Fin 24) (rest : List PowerCmd),
    (s.die (dieNo d)).queue = { code := 2, ch := c.val, arg := arg, thread := th } :: rest →
    s.hasDie (dieNo d) = true → (s.die (dieNo d)).reversed = false →
    s.chanHeld (24 * dieNo d + c.val) = false →
    Answers (.powerLinkCommand d .good .good) s fun t =>
      (t.chan (24 * dieNo d + c.val)).on = false ∧ (t.chan (24 * dieNo d + c.val)).desired = false ∧
      (t.chan (24 * dieNo d + c.val)).sequence = false ∧ (t.chan (24 * dieNo d + c.val)).restart = none ∧
      (t.die (dieNo d)).queue = rest ∧
      ∀ n, n ≠ 24 * dieNo d + c.val → t.chan n = s.chan n) ∧
  (∀ (s : State) (d : Die) (b : Bool), s.hasDie (dieNo d) = true →
    (s.link (dieNo d)).copyAOk = true → (s.link (dieNo d)).copyBOk = true →
    Answers (.powerLinkCopySilent d b) s fun t =>
      (t.link (dieNo d)).copyAOk = b ∧ (t.link (dieNo d)).copyBOk = !b ∧
      t.reports = s.reports ++ [⟨0x2312, 0, s.nowNs⟩] ∧ t.regs = s.regs) ∧
  (∀ (s : State) (d : Die), s.hasDie (dieNo d) = true →
    ((s.link (dieNo d)).copyAOk = true ∨ (s.link (dieNo d)).copyBOk = true) →
    Answers (.powerLinksLost d) s fun t =>
      (t.link (dieNo d)).copyAOk = false ∧ (t.link (dieNo d)).copyBOk = false ∧
      t.reports = s.reports ++ [⟨0x331C, 0, s.nowNs⟩] ++
        (if (match d with | .a => s.supply.feedAOk | .b => s.supply.feedBOk) = true then
          [⟨0x331B, 0, s.nowNs⟩] else []) ∧
      t.power = s.power ∧ t.regs = s.regs) ∧
  (∀ (s : State), s.beating 0 = true → s.beating 1 = true →
    Answers .heartbeatToggle s fun t =>
      t.powerLinkA.heartbeat = !s.powerLinkA.heartbeat ∧ t.powerLinkB.heartbeat = !s.powerLinkB.heartbeat ∧
      t.powerLinkA.edgeAt = s.nowNs ∧ t.powerLinkB.edgeAt = s.nowNs ∧
      t.regs = s.regs ∧ t.power = s.power) ∧
  (∀ (s : State), s.beating 0 = false → s.beating 1 = false → Answers .heartbeatToggle s fun t => t = s) ∧
  (∀ (s : State) (d : Die), s.hasDie (dieNo d) = true → (s.die (dieNo d)).reversed = false →
    (s.die (dieNo d)).hold = false → (s.link (dieNo d)).edgeAt + 5000000 ≤ s.nowNs →
    Answers (.heartbeatLoss d) s fun t =>
      (t.die (dieNo d)).hold = true ∧ t.reports = s.reports ++ [⟨0x3319, dieNo d, s.nowNs⟩] ∧
      (∀ n, n / 24 = dieNo d → t.chan n = (s.chan n).held.timed s.nowNs) ∧
      (∀ n, n / 24 ≠ dieNo d → t.chan n = s.chan n) ∧
      ∀ k, k ≠ Cnt.PWC_HOLD_ENTRY (dieNo d) → k ≠ Cnt.PWC_HOLD_ENTRY (dieNo d) + 4 → t.rd k = s.rd k) ∧
  (∀ (s : State) (d : Die), s.nowNs < (s.link (dieNo d)).edgeAt + 5000000 →
    Answers (.heartbeatLoss d) s fun t => t = s)) ∧
  ((∀ (s : State) (d : Die) (feed : BitVec 16) (avg : BitVec 8), s.hasDie (dieNo d) = true →
    s.running .seq = true → s.coreHeld = false → (s.die (dieNo d)).reversed = false →
    ((s.link (dieNo d)).copyAOk = true ∨ (s.link (dieNo d)).copyBOk = true) →
    Answers (.seqStateRefresh d feed avg) s fun t =>
      t.fld (Reg.PWC_DIESTATE (dieNo d)) 0 16 = feed.toNat ∧
      t.fld (Reg.PWC_DIESTATE (dieNo d)) 24 8 = avg.toNat ∧
      t.bit (Reg.PWC_DIESTATE (dieNo d)) 16 = (s.die (dieNo d)).dump ∧
      (t.die (dieNo d)).stateRead = true ∧ (∀ n, t.chan n = s.chan n) ∧ t.mem = s.mem) ∧
  (∀ (s : State) (samples : List ChanSample) (n : Fin 48), s.running .seq = true → s.coreHeld = false →
    s.hasDie (n.val / 24) = true →
    Answers (.seqTick samples) s fun t =>
      (t.chan n.val).junction = (sampleOf samples n.val).junction ∧
      (t.chan n.val).voltage = (sampleOf samples n.val).voltage ∧
      (t.chan n.val).on = (s.chan n.val).on ∧
      (t.chan n.val).racc = (sampleOf samples n.val).dieCurrents.foldl
        (runoutStep (runoutOf (chanClass (n.val % 24))).1) (s.chan n.val).racc) ∧
  (∀ (s : State) (m : Master) (n : Out) (v : Word), s.admits m (Reg.PWC_THETA (n.val / 24) (n.val % 24)) →
    (s.thetaStored n.val v).toNat < s.rdN (Reg.PWC_THLIM (n.val / 24) (n.val % 24)) →
    Answers (.thetaWrite m n v) s fun t =>
      t.rd (Reg.PWC_THETA (n.val / 24) (n.val % 24)) = s.thetaStored n.val v ∧
      t.chan n.val = ({ s.chan n.val with thetaAt := s.nowNs } : Channel).timed s.nowNs ∧
      (∀ j, j ≠ n.val → t.chan j = s.chan j) ∧
      ∀ k, k ≠ Reg.PWC_THETA (n.val / 24) (n.val % 24) → t.rd k = s.rd k) ∧
  (∀ (s : State) (m : Master) (n : Out) (v : Word), s.admits m (Reg.PWC_THETA (n.val / 24) (n.val % 24)) →
    s.rdN (Reg.PWC_THLIM (n.val / 24) (n.val % 24)) ≤ (s.thetaStored n.val v).toNat →
    (s.chan n.val).latch = false → s.chanHeld n.val = false →
    Answers (.thetaWrite m n v) s fun t =>
      t.rd (Reg.PWC_THETA (n.val / 24) (n.val % 24)) = s.thetaStored n.val v ∧
      (t.chan n.val).on = false ∧ (t.chan n.val).latch = true ∧
      (t.chan n.val).cause = addCause (s.chan n.val).cause .model ∧
      ∀ j, j ≠ n.val → t.chan j = s.chan j) ∧
  (∀ (s : State) (n : Out), s.modelStalled n.val = true → s.chanHeld n.val = false →
    s.dieWorks (n.val / 24) = true → s.beating (n.val / 24) = true →
    Answers (.modelStall n) s fun t =>
      (t.chan n.val).hold = true ∧ (t.chan n.val).on = true ∧
      t.bit (Reg.PWC_CHSTAT (n.val / 24) (n.val % 24)) 19 = true ∧
      t.reports = s.reports ++ [⟨0x2317, 0, s.nowNs⟩, ⟨0x2319, n.val, s.nowNs⟩]) ∧
  (∀ (s : State), s.beating 0 = true ∨ s.beating 1 = true →
    s.passed s.power.snapAt (1000000 * s.snapPeriod) = true →
    Answers .modelSnapshot s fun t =>
      t.regs = s.regs ∧ (∀ n, t.chan n = s.chan n) ∧ (t.die 0).heldSince = (s.die 0).hold ∧
      (t.die 1).heldSince = (s.die 1).hold ∧
      ∀ a, a < 0x10020000 ∨ 0x10030000 ≤ a → t.rdByte a = s.rdByte a) ∧
  (∀ (s : State) (n : Out), s.hasDie (n.val / 24) = true → s.up .seq = true →
    s.passed (s.chan n.val).floorUntil 0 = true →
    Answers (.floorTimerExpiry n) s fun t =>
    t.floorRuns n.val = false ∧
    t.chan n.val = ({ s.chan n.val with floorUntil := none } : Channel).timed s.nowNs ∧
    ∀ k, k ≠ Reg.PWC_MODELCFG (n.val / 24) (n.val % 24) → t.rd k = s.rd k))

/-- Rules R361, R362: live calibration. Rules R356, R379, R449, R455: open loads, supply anomalies of a die,
and channel supervision. -/
def Obligations.CalibrationAndSupplyCommandsComplete : Prop :=
  ((∀ (s : State) (n : Out) (avg : Int), (s.chan n.val).on = false ∨ (s.chan n.val).pwm = true →
    s.dieWorks (n.val / 24) = true → s.up .seq = true →
    (avg - signed 16 (s.fld (Reg.PWC_CHOFS (n.val / 24) (n.val % 24)) 0 16)) % 8 = 0 →
    Answers (.offsetCalibration n avg) s fun t =>
      t.fld (Reg.PWC_CHOFS (n.val / 24) (n.val % 24)) 0 16 =
        (wordOfInt (signed 16 (s.fld (Reg.PWC_CHOFS (n.val / 24) (n.val % 24)) 0 16) +
          (avg - signed 16 (s.fld (Reg.PWC_CHOFS (n.val / 24) (n.val % 24)) 0 16)) / 8)).toNat % 2 ^ 16 ∧
      (t.chan n.val).staleOffset = false ∧ t.freeCtr = s.freeCtr ∧
      ∀ k, k ≠ Reg.PWC_CHOFS (n.val / 24) (n.val % 24) → t.rd k = s.rd k) ∧
  (∀ (s : State) (n : Out) (gain : Bool), s.hasDie (n.val / 24) = true → s.up .seq = true →
    s.calStale n.val gain = true → Answers (.calibrationStale n gain) s fun t =>
    (if gain then (t.chan n.val).staleGain = true else (t.chan n.val).staleOffset = true) ∧
    t.reports = s.reports ++ [⟨0x2313, 0, s.nowNs⟩] ∧ t.regs = s.regs ∧
    ∀ j, j ≠ n.val → t.chan j = s.chan j) ∧
  (∀ (s : State) (n : Out) (before during after : List Int), s.gainAllowed n.val = true →
    ((after.sum - before.sum).natAbs * 100 : Int) ≤ 2 * continuousMa (chanClass (n.val % 24)) * 5 →
    (during.sum - before.sum - 500).natAbs ≤ 25 →
    Answers (.gainStep n before during after) s fun t =>
      let k := Reg.PWC_CHGAIN (n.val / 24) (n.val % 24)
      let old : Int := s.fld k 0 16
      let d := 16384 * (during.sum - before.sum) - 500 * old
      (∃ x, (x = old + Int.fdiv d 2000 ∨ d % 2000 ≠ 0 ∧ x = old + Int.fdiv d 2000 + 1) ∧
        t.fld k 0 16 = (wordOfInt x).toNat % 2 ^ 16) ∧
      (t.chan n.val).staleGain = false ∧ (t.chan n.val).gainAsked = false ∧
      (t.chan n.val).gainAt = some s.nowNs ∧ t.reports = s.reports ∧
      (∀ j, j ≠ n.val → t.chan j = s.chan j) ∧
      ∀ x, x ≠ k → x ≠ Cnt.PWCCH_CAL_GAIN (n.val / 24) (n.val % 24) →
        x ≠ Cnt.PWCCH_CAL_GAIN (n.val / 24) (n.val % 24) + 4 → t.rd x = s.rd x) ∧
  (∀ (s : State) (n : Out) (before during after : List Int), s.gainAllowed n.val = false →
    Answers (.gainStep n before during after) s fun t => t = s) ∧
  (∀ (s : State) (n : Out) (before during after : List Int), s.gainAllowed n.val = true →
    (2 * continuousMa (chanClass (n.val % 24)) * 5 : Int) < (after.sum - before.sum).natAbs * 100 →
    Answers (.gainStep n before during after) s fun t =>
      (t.chan n.val).gainAsked = false ∧ t.reports = s.reports ∧
      ∀ k, k ≠ Cnt.PWCCH_CAL_DISCARD (n.val / 24) (n.val % 24) →
        k ≠ Cnt.PWCCH_CAL_DISCARD (n.val / 24) (n.val % 24) + 4 → t.rd k = s.rd k) ∧
  (∀ (s : State) (n : Out) (before during after : List Int), s.gainAllowed n.val = true →
    ((after.sum - before.sum).natAbs * 100 : Int) ≤ 2 * continuousMa (chanClass (n.val % 24)) * 5 →
    25 < (during.sum - before.sum - 500).natAbs →
    Answers (.gainStep n before during after) s fun t =>
      (t.chan n.val).gainAsked = false ∧ t.reports = s.reports ++ [⟨0x2313, 0, s.nowNs⟩] ∧ t.regs = s.regs)) ∧
  ((∀ (s : State) (n : Out), (s.chan n.val).on = true → s.dieWorks (n.val / 24) = true →
    Answers (.openLoad n true) s fun t =>
      t.bit (Reg.PWC_CHSTAT (n.val / 24) (n.val % 24)) 16 = true ∧ 288 + 32 * (n.val / 24) + n.val % 24 ∈ t.irqs ∧
      t.power = s.power ∧ ∀ k, k ≠ Reg.PWC_CHSTAT (n.val / 24) (n.val % 24) → t.rd k = s.rd k) ∧
  (∀ (s : State) (n : Out), (s.chan n.val).on = false →
    s.bit (Reg.PWC_CHCFG (n.val / 24) (n.val % 24)) 3 = true → s.dieWorks (n.val / 24) = true →
    Answers (.openLoad n false) s fun t =>
      t.bit (Reg.PWC_CHSTAT (n.val / 24) (n.val % 24)) 17 = true ∧ 288 + 32 * (n.val / 24) + n.val % 24 ∈ t.irqs ∧
      t.power = s.power ∧ ∀ k, k ≠ Reg.PWC_CHSTAT (n.val / 24) (n.val % 24) → t.rd k = s.rd k) ∧
  (∀ (s : State) (d : Die), s.dieWorks (dieNo d) = true → (s.die (dieNo d)).dump = false →
    Answers (.loadDump d) s fun t =>
      (t.die (dieNo d)).dump = true ∧ t.bit (Reg.PWC_DIESTATE (dieNo d)) 16 = true ∧
      t.reports = s.reports ++ [⟨0x0311, 0, s.nowNs⟩] ∧
      (∀ n, n / 24 = dieNo d → (t.chan n).on = false ∧ ((s.chan n).on = true → (t.chan n).dumped = true)) ∧
      ∀ n, n / 24 ≠ dieNo d → t.chan n = s.chan n) ∧
  (∀ (s : State) (d : Die), (s.die (dieNo d)).dump = true →
    Answers (.loadDumpEnd d) s fun t =>
      (t.die (dieNo d)).dump = false ∧ t.bit (Reg.PWC_DIESTATE (dieNo d)) 16 = false ∧
      (∀ n, n / 24 = dieNo d → (s.chan n).dumped = true → (s.chan n).latch = false →
        (t.chan n).restart = some { since := s.nowNs, restore := true }) ∧
      ∀ n, n / 24 ≠ dieNo d → t.chan n = s.chan n) ∧
  (∀ (s : State) (d : Die), s.hasDie (dieNo d) = true →
    Answers (.feedReversed d) s fun t =>
      (t.die (dieNo d)).reversed = true ∧ (t.die (dieNo d)).queue = [] ∧
      (t.link (dieNo d)).copyAOk = false ∧ (t.link (dieNo d)).copyBOk = false ∧
      ⟨0x331B, 0, s.nowNs⟩ ∈ t.reports ∧ t.bit Reg.FLT_GSTAT 0 = true ∧
      ∀ n, n / 24 = dieNo d → (t.chan n).on = true) ∧
  (∀ (s : State) (d : Die), (s.die (dieNo d)).reversed = true →
    Answers (.feedReturn d) s fun t =>
      (t.die (dieNo d)).reversed = false ∧ (t.die (dieNo d)).hold = true ∧
      (∀ n, n / 24 = dieNo d → t.chan n = {}) ∧
      (match d with
        | .a => t.supply.feedAOk = true ∧ t.supply.feedAReversed = false
        | .b => t.supply.feedBOk = true ∧ t.supply.feedBReversed = false)) ∧
  (∀ (s : State), s.hasDie 0 = true ∨ s.hasDie 1 = true → Answers .groundShift s fun t =>
    t.supply = s.supply ∧ t.reports = s.reports ++ [⟨0x2314, 0, s.nowNs⟩] ∧
    (s.hasDie 0 = true → t.bit (Reg.PWC_DIESTATE 0) 17 = true) ∧
    (s.hasDie 1 = true → t.bit (Reg.PWC_DIESTATE 1) 17 = true) ∧
    ∀ k, k ≠ Reg.PWC_DIESTATE 0 → k ≠ Reg.PWC_DIESTATE 1 → t.rd k = s.rd k) ∧
  (∀ (s : State), s.hasDie 0 = false → s.hasDie 1 = false → Answers .groundShift s fun t => t = s) ∧
  (∀ (s : State) (n : Out), s.hasDie (n.val / 24) = true → (s.chan n.val).desired = true →
    (s.chan n.val).on = false → (s.chan n.val).latch = false → s.chanHeld n.val = false →
    (s.chan n.val).overdue = false →
    20000000 ≤ (s.chan n.val).silence s.nowNs (1000000 * Nat.min 2000 (s.fld Reg.FLT_RECCFG 0 11)) →
    Answers (.channelSupervisionExpiry n) s fun t =>
      t.reports = s.reports ++ [⟨0x2415, n.val, s.nowNs⟩] ∧ (t.chan n.val).overdue = true ∧
      (∀ j, j ≠ n.val → t.chan j = s.chan j) ∧ t.regs = s.regs))

/-- Rules R356, R357, R368 to R373, R377: trips, Mogul sequences, restarts and shedding. A trip opens the
switch and records its cause; a sequence with a retry left waits for its spacing, one without latches with
cause MOGUL and reports 0x0310. -/
def Obligations.TripCommandsComplete : Prop :=
  (∀ (s : State) (n : Out), (s.chan n.val).on = true → s.chanHeld n.val = false →
    (s.chan n.val).sequence = true → s.dieWorks (n.val / 24) = true →
    Answers (.fastLimitTrip n) s fun t =>
      (t.chan n.val).on = false ∧ Nat.testBit (t.chan n.val).cause 0 = true ∧
      (if (s.chan n.val).used < s.retries n.val then
        (t.chan n.val).tripped = some s.nowNs ∧ t.reports = s.reports
      else (t.chan n.val).latch = true ∧ Nat.testBit (t.chan n.val).cause 6 = true ∧
        t.reports = s.reports ++ [⟨0x0310, n.val, s.nowNs⟩]) ∧
      ∀ j, j ≠ n.val → t.chan j = s.chan j) ∧
  (∀ (s : State) (n : Out), (s.chan n.val).on = true → s.chanHeld n.val = false →
    s.dieWorks (n.val / 24) = true →
    Answers (.thermalShutdown n) s fun t =>
      (t.chan n.val).on = false ∧ (t.chan n.val).hot = true ∧ Nat.testBit (t.chan n.val).cause 3 = true ∧
      (if (s.chan n.val).thLatch then (t.chan n.val).latch = true else (t.chan n.val).cooling = true) ∧
      ∀ j, j ≠ n.val → t.chan j = s.chan j) ∧
  (∀ (s : State) (n : Out), (s.chan n.val).cooling = true → (s.chan n.val).tripped = none →
    (s.chan n.val).restart = none → s.chanHeld n.val = false → (s.chan n.val).used < s.retries n.val →
    s.dieWorks (n.val / 24) = true →
    Answers (.thermalRestartReady n) s fun t =>
      (t.chan n.val).hot = false ∧ (t.chan n.val).cooling = false ∧
      (t.chan n.val).restart = some { since := (s.chan n.val).tripAt } ∧ t.regs = s.regs ∧
      ∀ j, j ≠ n.val → t.chan j = s.chan j) ∧
  (∀ (s : State) (n : Out), s.dieWorks (n.val / 24) = true → s.winPassed n.val 0 = true →
    Answers (.elevatedWindowEnd n) s fun t =>
    t.chan n.val = ({ s.chan n.val with elev := false } : Channel).timed s.nowNs ∧ t.regs = s.regs ∧
    ∀ j, j ≠ n.val → t.chan j = s.chan j) ∧
  (∀ (s : State) (n : Out), (s.chan n.val).on = true → (s.chan n.val).sequence = true →
    s.dieWorks (n.val / 24) = true → s.winPassed n.val 100 = true →
    Answers (.mogulSuccess n) s fun t =>
      t.chan n.val = ({ s.chan n.val with used := 0, elev := false } : Channel).timed s.nowNs ∧ t.regs = s.regs ∧
      ∀ j, j ≠ n.val → t.chan j = s.chan j) ∧
  (∀ (s : State) (n : Out) (at_ : Nat), (s.chan n.val).tripped = some at_ →
    s.dieWorks (n.val / 24) = true → at_ + 1000000 * s.spacing n.val ≤ s.nowNs →
    Answers (.mogulRetryRequest n) s fun t =>
      (t.chan n.val).tripped = none ∧ t.regs = s.regs ∧
      (if (s.chan n.val).used < s.retries n.val then (t.chan n.val).restart = some { since := at_ }
      else (t.chan n.val).latch = true ∧ t.reports = s.reports ++ [⟨0x0310, n.val, s.nowNs⟩]) ∧
      ∀ j, j ≠ n.val → t.chan j = s.chan j) ∧
  (∀ (s : State) (d : Die) (n : Nat) (r : Restart), s.slotQueue (dieNo d) = [(n, r)] →
    (s.die (dieNo d)).dump = true → Answers (.restartSlot d) s fun t => t = s) ∧
  (∀ (s : State) (d : Die) (n : Nat) (r : Restart), s.slotQueue (dieNo d) = [(n, r)] →
    n / 24 = dieNo d → s.dieWorks (dieNo d) = true → (s.die (dieNo d)).dump = false → r.restore = false → 8 ≤ r.waited →
    Answers (.restartSlot d) s fun t =>
      (t.chan n).on = true ∧ (t.chan n).restart = none ∧ (t.chan n).used = (s.chan n).used + 1 ∧
      ∀ j, j ≠ n → t.chan j = s.chan j) ∧
  (∀ (s : State) (n : Out), (s.chan n.val).on = true → s.dieWorks (n.val / 24) = true →
    Answers (.runoutTrip n) s fun t =>
      (t.chan n.val).on = false ∧ (t.chan n.val).latch = true ∧ Nat.testBit (t.chan n.val).cause 4 = true ∧
      (runoutOf (chanClass (n.val % 24))).2 ≤ (t.chan n.val).racc ∧
      t.reports = s.reports ++ [⟨0x2318, n.val, s.nowNs⟩] ∧ ∀ j, j ≠ n.val → t.chan j = s.chan j) ∧
  (∀ (s : State) (d : Die) (avg : BitVec 8) (n : Nat), s.dieLimit (dieNo d) < avg.toNat →
    s.dieWorks (dieNo d) = true → s.beating (dieNo d) = true →
    (s.sheddable (dieNo d)).getLast? = some n → s.passed (s.die (dieNo d)).shedAt 1000000000 = true →
    Answers (.dieOverloadShed d avg) s fun t =>
      (t.chan n).on = false ∧ (t.chan n).desired = false ∧
      t.bit (Reg.PWC_DIESTATE (dieNo d)) 18 = true ∧ t.fld (Reg.PWC_DIESTATE (dieNo d)) 24 8 = avg.toNat ∧
      t.reports = s.reports ++ [⟨0x2315, 0, s.nowNs⟩] ∧ ∀ j, j ≠ n → t.chan j = s.chan j) ∧
  (∀ (s : State) (d : Die) (avg : BitVec 8), avg.toNat ≤ s.dieLimit (dieNo d) →
    s.dieWorks (dieNo d) = true → s.beating (dieNo d) = true →
    Answers (.dieOverloadShed d avg) s fun t =>
      t.fld (Reg.PWC_DIESTATE (dieNo d)) 24 8 = avg.toNat ∧ t.power = s.power ∧ t.reports = s.reports) ∧
  (∀ (s : State) (d : Die) (avg : BitVec 8) (u : Nat), (s.die (dieNo d)).shedAt = some u →
    s.nowNs < u + 1000000000 → s.dieWorks (dieNo d) = true → s.beating (dieNo d) = true →
    Answers (.dieOverloadShed d avg) s fun t =>
      t.fld (Reg.PWC_DIESTATE (dieNo d)) 24 8 = avg.toNat ∧ t.power = s.power ∧ t.reports = s.reports) ∧
  (∀ (s : State) (n : Out), (s.chan n.val).on = true → (s.chan n.val).pwm = true →
    (s.chan n.val).level = false → (s.chanHeld n.val = true ∨ s.riseDue n.val = true) →
    Answers (.pwmEdge n true) s fun t =>
      let duty := if s.chanHeld n.val then (s.chan n.val).duty else (s.chan n.val).nextDuty
      (t.chan n.val).level = decide (duty ≠ 0) ∧ (t.chan n.val).duty = duty ∧
      (t.chan n.val).fallAt = s.nowNs + onPhase (chanClass (n.val % 24)) duty (s.chan n.val).period ∧
      t.regs = s.regs ∧ ∀ j, j ≠ n.val → t.chan j = s.chan j) ∧
  (∀ (s : State) (n : Out), (s.chan n.val).on = true → (s.chan n.val).pwm = true →
    (s.chanHeld n.val = true ∨ (s.chan n.val).fallAt ≤ s.nowNs + 400) →
    Answers (.pwmEdge n false) s fun t =>
      (t.chan n.val).level = false ∧ (t.chan n.val).duty = (s.chan n.val).duty ∧ t.regs = s.regs ∧
      ∀ j, j ≠ n.val → t.chan j = s.chan j) ∧
  (∀ (s : State) (n : Out), s.chanHeld n.val = false → s.nowNs + 400 < (s.chan n.val).fallAt →
    Answers (.pwmEdge n false) s fun t => t = s)

/-- Rule R54: an MDIO command with GO starts the transaction with its operation code, or is ignored with COLL
set while one runs; the end clears BUSY and shows the data of a read. Rules R52, R56, R57, R70, R71: ports and
their links. -/
def Obligations.PortAndMdioCommandsComplete : Prop :=
  ((∀ (i : Instr) (s : State) (m : Master) (phyad reg : BitVec 5) (c45 : Bool) (data : BitVec 16) (op : Nat),
    (i = .mdioAddress m phyad reg c45 data ∧ op = 0 ∨ i = .mdioWrite m phyad reg c45 data ∧ op = 1 ∨
      i = .mdioReadIncrement m phyad reg c45 data ∧ op = 2 ∨ i = .mdioRead m phyad reg c45 data ∧ op = 3) →
    s.admits m Reg.PRT_MDIOCMD →
    Answers i s fun t =>
      t.bit Reg.PRT_MDIOCMD 30 = true ∧
      (if s.bit Reg.PRT_MDIOCMD 30 then
        t.bit Reg.PRT_MDIOCMD 29 = true ∧ t.fld Reg.PRT_MDIOCMD 0 29 = s.fld Reg.PRT_MDIOCMD 0 29
      else t.fld Reg.PRT_MDIOCMD 26 2 = op ∧ t.fld Reg.PRT_MDIOCMD 0 16 = data.toNat ∧
        t.fld Reg.PRT_MDIOCMD 16 5 = reg.toNat ∧ t.fld Reg.PRT_MDIOCMD 21 5 = phyad.toNat ∧
        t.bit Reg.PRT_MDIOCMD 28 = c45) ∧
      ∀ k, k ≠ Reg.PRT_MDIOCMD → t.rd k = s.rd k) ∧
  (∀ (s : State) (data : BitVec 16), s.bit Reg.PRT_MDIOCMD 30 = true →
    Answers (.mdioDone data) s fun t =>
      t.bit Reg.PRT_MDIOCMD 30 = false ∧
      (if 2 ≤ s.fld Reg.PRT_MDIOCMD 26 2 then t.fld Reg.PRT_MDIODATA 0 16 = data.toNat
        else t.rd Reg.PRT_MDIODATA = s.rd Reg.PRT_MDIODATA) ∧
      ∀ k, k ≠ Reg.PRT_MDIOCMD → k ≠ Reg.PRT_MDIODATA → t.rd k = s.rd k)) ∧
  ((∀ (s : State) (m : Master) (p : Port), s.admits m (prtPenKey p.val) → s.pen p.val = false →
    s.blkEn (prtBlk p.val) = false →
    Answers (.portEnable m p) s fun t =>
      t.pen p.val = true ∧ t.ports = s.ports ∧ ∀ k, k ≠ prtPenKey p.val → t.rd k = s.rd k) ∧
  (∀ (s : State) (m : Master) (p : ExtPort), s.admits m (prtPenKey p.val) → s.pen p.val = false →
    s.blkEn (prtBlk p.val) = true → s.hasPort p.val = true → s.flt.safeStop = false →
    modeLegal p.val (s.fld (Reg.PRT_PMODE p.val) 0 4) = true →
    fecLegal p.val (s.fld (Reg.PRT_PMODE p.val) 0 4) (s.fld (Reg.PRT_PMODE p.val) 4 2) = true →
    Answers (.portEnable m ⟨p.val, by omega⟩) s fun t =>
      t.pen p.val = true ∧ t.lstate p.val = 1 ∧ t.fld (Reg.PRT_PSTAT p.val) 2 4 = 0 ∧
      ∀ k, k ≠ prtPenKey p.val → k ≠ Reg.PRT_PSTAT p.val → t.rd k = s.rd k) ∧
  (∀ (s : State) (m : Master) (p : ExtPort), s.admits m (prtPenKey p.val) → s.pen p.val = false →
    s.blkEn (prtBlk p.val) = true → s.hasPort p.val = true → s.flt.safeStop = false →
    modeLegal p.val (s.fld (Reg.PRT_PMODE p.val) 0 4) = false →
    Answers (.portEnable m ⟨p.val, by omega⟩) s fun t =>
      t.pen p.val = true ∧ t.lstate p.val = s.lstate p.val ∧ t.bit (Reg.PRT_PSTAT p.val) 13 = true) ∧
  (∀ (s : State) (m : Master) (p : Port), s.admits m (prtPenKey p.val) → s.pen p.val = true →
    (∀ f ∈ s.openRx p.val, ∀ v, s.frame f = some v → v.interrupted = false) →
    Answers (.portDisable m p) s fun t =>
      (t.port p.val).draining = true ∧ t.pen p.val = true ∧ t.receives p.val = false ∧ t.regs = s.regs) ∧
  (∀ (s : State) (m : Master) (p : Port) (f : Nat) (v : Frame), s.admits m (prtPenKey p.val) →
    s.pen p.val = true → s.openRx p.val = [f] → s.frame f = some v → v.interrupted = true →
    exec (.portDisable m p) s = .next
      (((s.reply 0).setPort p.val { s.port p.val with draining := true }).endRx f [] .assembly)) ∧
  (∀ (s : State) (p : Port), (s.port p.val).draining = true →
    (s.stagingEmpty p.val = true ∨ s.portUp p.val = false) → s.fab.closed = false →
    Answers (.portDisableDone p) s fun t =>
      t.pen p.val = false ∧ t.lstate p.val = 0 ∧ (t.port p.val).draining = false ∧
      t.portUp p.val = false) ∧
  (∀ (s : State) (p : ExtPort) (rate : Fin 8) (speed : Nat), s.hasPort p.val = true → s.lstate p.val = 1 →
    s.phySeen p.val = true → s.linkSpeed p.val rate.val = some speed →
    Answers (.linkUp p rate) s fun t =>
      t.portUp p.val = true ∧ t.fld (Reg.PRT_PSTAT p.val) 2 4 = speed ∧
      t.fld (Reg.PRT_PSTAT p.val) 9 2 = s.verifyState p.val ∧
      ∀ k, k ≠ Reg.PRT_PSTAT p.val → t.rd k = s.rd k) ∧
  (∀ (s : State) (p : ExtPort) (rate : Fin 8), s.retraining p.val = true →
    exec (.linkUp p rate) s = .next (s.holdEvent (.linkUp p.val rate.val)) ∧
    exec (.linkDown p) s = .next (s.holdEvent (.linkDown p.val))) ∧
  (∀ (s : State) (p : ExtPort), s.portUp p.val = true → s.phySeen p.val = true → s.fab.closed = false →
    s.openRx p.val = [] →
    Answers (.linkDown p) s fun t =>
      t.lstate p.val = 1 ∧ t.fld (Reg.PRT_PSTAT p.val) 2 4 = 0 ∧ t.fld (Reg.PRT_PSTAT p.val) 9 2 = 0 ∧
      t.frames = s.frames ∧ t.mem = s.mem) ∧
  (∀ (s : State) (p : ExtPort), s.lstate p.val = 1 → s.fld (Reg.PRT_PMODE p.val) 0 4 = 8 →
    (s.port p.val).triedAt + 200000000 ≤ s.nowNs →
    Answers (.t1SpeedTryTimeout p) s fun t =>
      (t.port p.val).try1000 = !(s.port p.val).try1000 ∧ t.regs = s.regs ∧
      ∀ q, q ≠ p.val → t.port q = s.port q) ∧
  (∀ (s : State) (p : ExtPort), s.nowNs < (s.port p.val).triedAt + 200000000 →
    Answers (.t1SpeedTryTimeout p) s fun t => t = s) ∧
  (∀ (s : State) (p : ExtPort) (sqi : Fin 8), 12 ≤ p.val →
    Answers (.phyMirrorRefresh p sqi) s fun t =>
      t.bit (Reg.PRT_PSTAT p.val) 11 = !s.edgeReachable ∧
      (s.edgeReachable = true → p.val < 28 → t.fld (Reg.PRT_PSTAT p.val) 6 3 = sqi.val) ∧
      ∀ k, k ≠ Reg.PRT_PSTAT p.val → t.rd k = s.rd k) ∧
  (∀ (s : State) (p : ExtPort), s.portUp p.val = true → s.fld (Reg.PRT_PSTAT p.val) 9 2 = 1 →
    (Answers (.preemptVerifySuccess p) s fun t =>
      t.fld (Reg.PRT_PSTAT p.val) 9 2 = 2 ∧ ∀ k, k ≠ Reg.PRT_PSTAT p.val → t.rd k = s.rd k) ∧
    (Answers (.preemptVerifyTimeout p) s fun t =>
      t.fld (Reg.PRT_PSTAT p.val) 9 2 = 3 ∧ ∀ k, k ≠ Reg.PRT_PSTAT p.val → t.rd k = s.rd k)))

/-- Rules R59 to R63: PLCA and TC10. Rules R17, R69, R75, R254: frames and flow-control frames at a port. A
frame begins under a new number; its tail counts it, or counts and logs its first error; MACsec drops or
passes it. -/
def Obligations.PortFrameCommandsComplete : Prop :=
  ((∀ (s : State) (p : ExtPort), s.plcaFollower p.val = true → s.bit (Reg.PRT_PSTAT p.val) 12 = false →
    Answers (.plcaBeaconLoss p) s fun t => t.bit (Reg.PRT_PSTAT p.val) 12 = true ∧ t.ports = s.ports) ∧
  (∀ (s : State) (p : ExtPort), s.plcaFollower p.val = true →
    Answers (.plcaBeaconReceived p) s fun t =>
      t.bit (Reg.PRT_PSTAT p.val) 12 = false ∧ ∀ k, k ≠ Reg.PRT_PSTAT p.val → t.rd k = s.rd k) ∧
  (∀ (s : State) (p : ExtPort), 28 ≤ p.val → (s.tmPort p.val).express.isSome = true →
    (s.port p.val).attempts < 15 →
    Answers (.plcaCollision p) s fun t =>
      (t.port p.val).attempts = (s.port p.val).attempts + 1 ∧ t.tm = s.tm ∧ t.regs = s.regs) ∧
  (∀ (s : State) (p : ExtPort), 28 ≤ p.val → (s.tmPort p.val).express.isSome = true →
    (s.port p.val).attempts = 15 →
    Answers (.plcaCollision p) s fun t => ⟨0x2041, 0, s.nowNs⟩ ∈ t.reports) ∧
  (∀ (s : State) (m : Master) (p : ExtPort), s.admits m (Reg.PRT_TC10 p.val) →
    Answers (.tc10SleepRequest m p) s fun t =>
      t.bit (Reg.PRT_TC10 p.val) 1 = true ∧
      (s.tc10 p.val = true → s.portUp p.val = true → (t.port p.val).sleepAsked = true) ∧
      ∀ k, k ≠ Reg.PRT_TC10 p.val → t.rd k = s.rd k) ∧
  (∀ (s : State) (p : ExtPort), s.tc10 p.val = true → s.portUp p.val = true →
    Answers (.tc10PartnerSleepRequest p) s fun t =>
      if s.bit (Reg.PRT_TC10 p.val) 2 && s.egressEmpty p.val then
        (t.port p.val).sleepAccepted = true ∧ t.regs = s.regs
      else t = s.bump (Cnt.PRT_TC10_DECLINE p.val)) ∧
  (∀ (s : State) (p : ExtPort), s.tc10 p.val = true → s.portUp p.val = true → s.egressEmpty p.val = true →
    (s.port p.val).sleepAsked = true → s.fab.closed = false →
    Answers (.tc10SleepComplete p) s fun t =>
      t.lstate p.val = 3 ∧ t.bit (Reg.PRT_TC10 p.val) 1 = false ∧ (t.port p.val).sleepAsked = false ∧
      ∀ k, k ≠ Reg.PRT_TC10 p.val → k ≠ Reg.PRT_PSTAT p.val → t.rd k = s.rd k) ∧
  (∀ (s : State) (p : ExtPort), s.tc10 p.val = true → s.portUp p.val = true →
    (s.port p.val).sleepAsked = true →
    Answers (.tc10Wake p false) s fun t =>
      t.lstate p.val = 2 ∧ (t.port p.val).sleepAsked = false ∧ (t.port p.val).sleepAccepted = false ∧
      t.bit (Reg.PRT_TC10 p.val) 1 = false) ∧
  (∀ (s : State) (p : ExtPort), s.tc10 p.val = true → s.lstate p.val = 3 →
    Answers (.tc10Wake p false) s fun t =>
      t = ((s.wakeForwards p.val).foldl (fun a q => a.setLinkState q 1 0)
        (s.setLinkState p.val 1 0)).wakeEvent 4 p.val 0)) ∧
  ((∀ (s : State) (p : Port) (head : List Byte) (lat : BitVec 16), p.val ≠ 36 → s.receives p.val = true →
    s.wayOpen p.val = true → s.openRx p.val = [] →
    Answers (.frameReceive p head lat) s fun t =>
      t.nextFrame = s.nextFrame + 1 ∧
      (∃ v, t.frame s.nextFrame = some v ∧ v.bytes = head ∧ v.inPort = p.val ∧ v.tailIn = false ∧
        (v.stage = .receiving ∨ v.stage = .toClassify)) ∧
      ∀ f, f ≠ s.nextFrame → t.frame f = s.frame f) ∧
  (∀ (s : State) (p : Port) (head : List Byte) (lat : BitVec 16), s.receives p.val = true →
    s.retraining p.val = true → s.openRx p.val = [] →
    Answers (.frameReceive p head lat) s fun t =>
      t.nextFrame = s.nextFrame + 1 ∧ t.traverse.held = s.traverse.held ++ [.rxBegin s.nextFrame] ∧
      (∃ v, t.frame s.nextFrame = some v ∧ v.bytes = head ∧ v.inPort = p.val ∧ v.stage = .retrain) ∧
      ∀ f, f ≠ s.nextFrame → t.frame f = s.frame f) ∧
  (∀ (s : State) (p : Port) (head : List Byte) (lat : BitVec 16) (f : Nat) (v : Frame), p.val ≠ 36 →
    s.receives p.val = true → s.wayOpen p.val = true → s.openRx p.val = [f] → s.frame f = some v →
    f ≠ s.nextFrame →
    Answers (.frameReceive p head lat) s fun t => t.frame f = some { v with interrupted := true }) ∧
  (∀ (s : State) (p : Port) (head : List Byte) (lat : BitVec 16), p.val = 36 ∨ s.receives p.val = false ∨
    s.wayOpen p.val = false ∧ s.retraining p.val = false →
    Answers (.frameReceive p head lat) s fun t => t = s) ∧
  (∀ (s : State) (f : FrameId) (v : Frame) (rest : List Byte), s.frame f = some v → v.tailIn = false →
    s.retraining v.inPort = false → v.stage = .receiving → v.inPort < 32 → isMacCtrl (v.bytes ++ rest) = false →
    s.rxVerdict v.inPort ((v.bytes ++ rest).length + 4) .none = none →
    Answers (.frameReceiveEnd f rest .none) s fun t =>
      (∃ u, t.frame f = some u ∧ u.bytes = v.bytes ++ rest ∧ u.tailIn = true ∧ u.stage = .receiving) ∧
      ∀ g, g ≠ f → t.frame g = s.frame g) ∧
  (∀ (s : State) (p : ExtPort) (en : BitVec 8) (q : List (BitVec 16)), s.receives p.val = true →
    s.phySeen p.val = true → s.fcMode p.val = 2 →
    Answers (.pfcReceive p en q) s fun t =>
      ∀ c : Fin 8, en.getLsbD c.val = true → s.bit (Reg.PRT_PFCCFG p.val) (16 + c.val) = true →
        s.scheduled c.val = false → t.stopped p.val c.val = decide ((q.getD c.val 0).toNat ≠ 0)) ∧
  (∀ (s : State) (p : ExtPort) (en : BitVec 8) (q : List (BitVec 16)), s.receives p.val = true →
    s.fcMode p.val ≠ 2 → Answers (.pfcReceive p en q) s fun t => t.ports = s.ports) ∧
  (∀ (s : State) (p : ExtPort) (q : BitVec 16), s.receives p.val = true → s.fcMode p.val = 1 →
    s.phySeen p.val = true →
    Answers (.pauseReceive p q) s fun t =>
      ∀ c : Fin 8, s.scheduled c.val = false → t.stopped p.val c.val = decide (q.toNat ≠ 0)) ∧
  (∀ (s : State) (p : ExtPort) (c : TrafficClass),
    Answers (.flowControlStopExpiry p c) s fun t =>
      if Store.get (fun _ => 0) (s.port p.val).stopEnds c.val ≤ s.nowNs then
        t.stopped p.val c.val = false ∧ (∀ d, d ≠ c.val → t.stopped p.val d = s.stopped p.val d) ∧
        t.regs = s.regs
      else t = s) ∧
  (∀ (s : State) (p : ExtPort) (c : TrafficClass), s.portUp p.val = true → s.fcMode p.val = 2 →
    s.xoff p.val c.val = true →
    Answers (.pfcRefresh p c) s fun t =>
      t.flowFrames = ⟨p.val, true, 2 ^ c.val, s.quanta p.val⟩ :: s.flowFrames) ∧
  (∀ (s : State) (p : ExtPort) (c : TrafficClass), s.portUp p.val = true → s.fcMode p.val = 2 →
    s.xoff p.val c.val = false → Answers (.pfcRefresh p c) s fun t => t = s) ∧
  (∀ (s : State) (f : FrameId) (v : Frame), s.frame f = some v → v.check = none →
    Answers (.macsecVerify f) s fun t => t = s) ∧
  (∀ (s : State) (f : FrameId) (v : Frame) (k : RxCheck) (g : SecTag) (y : RxSecy) (x : SaKey) (bs : List Byte),
    s.frame f = some v → v.check = some k → v.stage = .receiving → v.tailIn = true →
    s.heldUpAt f v [.retrain, .receiving] false = false → (isEapol v.bytes && k.eapolClear) = false →
    parseSecTag v.bytes = some (some g) → k.contextOf (k.frameSci v.bytes g) g = some (y, x) →
    (g.pn ≠ 0 ∨ x.xpn = true) → s.laneUp = true → x.live = true → s.saRevoked x.sa = false →
    let pn := if x.xpn then recoverPn (s.nextPn x.sa) g.pn else g.pn
    (getBit y.w0 6 = true → s.nextPn x.sa ≤ pn + y.window) →
    openSealed y.w0 x (k.frameSci v.bytes g) pn v.bytes g = some bs → s.blkAccepts 0x0C = true →
    Answers (.macsecVerify f) s fun t =>
      t.frame f = some { v with
        bytes := bs, macsecV := true, wireLen := bs.length + 4, stage := .toClassify, check := none } ∧
      (∀ h, h ≠ f → t.frame h = s.frame h) ∧
      (x.sa < 1024 → pn + 1 < 2 ^ 32 → t.nextPn x.sa = max (s.nextPn x.sa) (pn + 1))) ∧
  (∀ (s : State) (f : FrameId) (v : Frame) (k : RxCheck), s.frame f = some v → v.check = some k →
    v.stage = .receiving → v.tailIn = true → s.heldUpAt f v [.retrain, .receiving] false = false →
    (isEapol v.bytes && k.eapolClear) = false → parseSecTag v.bytes = some none →
    Answers (.macsecVerify f) s fun t =>
      t.frame f = none ∧ (∀ g, g ≠ f → t.frame g = s.frame g) ∧
      ∀ k, k ≠ Cnt.CIP_IN_BADTAG → k ≠ Cnt.CIP_IN_BADTAG + 4 → t.rd k = s.rd k) ∧
  (∀ (s : State) (f : FrameId) (v : Frame) (k : RxCheck), s.frame f = some v → v.check = some k →
    v.stage = .receiving → v.tailIn = true → s.heldUpAt f v [.retrain, .receiving] false = false →
    parseSecTag v.bytes = none → isEapol v.bytes = false → s.blkAccepts 0x0C = true →
    Answers (.macsecVerify f) s fun t =>
      (if k.strict then t.frame f = none
        else t.frame f = some { v with stage := .toClassify, check := none }) ∧
      ∀ g, g ≠ f → t.frame g = s.frame g))

/-- Rules R77, R82, R83, R84, R88, R94, R97, R98, R101: frames and cells in the fabric. -/
def Obligations.FabricFrameCommandsComplete : Prop :=
  (∀ (s : State) (f : FrameId) (v : Frame), s.frame f = some v → v.stage = .toEnqueue → v.checkTail = false →
    s.up .fabric = true → s.heldUpAt f v [.toStream, .toEnqueue] true = false →
    s.fabricOpen = false → v.inPort < 32 → v.exc = none → v.trapped = false → v.rcPass = false →
    v.recirc = false → v.cells = [] → v.tailIn = true →
    Answers (.frameEnqueue f) s fun t =>
      t.frame f = none ∧ t = (s.noAdmit v.inPort).dropFrame f ∧ ∀ g, g ≠ f → t.frame g = s.frame g) ∧
  (∀ (s : State) (f : FrameId) (v : Frame), s.frame f = some v → v.stage = .toEnqueue →
    s.up .fabric = true → s.heldUpAt f v [.toStream, .toEnqueue] true = false → v.latched = none →
    v.checkTail = false → s.fabricOpen = true → v.exc = none → v.mc = false → v.tailIn = true →
    v.dest ≠ 32 → s.portUp v.dest = true → s.egressLen v v.dest ≤ s.maxFrm v.dest →
    s.bit Reg.FAB_SCHUSS 0 = false →
    Answers (.frameEnqueue f) s fun t =>
      (∃ u, t.frame f = some u ∧ u.stage = .queued ∧ u.fanout = [v.dest] ∧
        u.storedLen = v.bytes.length + (if v.inPort < 32 && !v.rcPass then 4 else 0)) ∧
      ∀ g, g ≠ f → t.frame g = s.frame g) ∧
  (∀ (s : State) (f : FrameId), s.frame f = none → Answers (.frameEnqueue f) s fun t => t = s) ∧
  (∀ (s : State) (f : FrameId) (v : Frame), s.frame f = some v → v.stage = .queued → v.nextCell = true →
    s.fabricRuns = true → v.trapped = false → v.mc = false → v.fanout = [v.dest] → v.stomps = [] → s.scheduled v.tc = true →
    s.reservedUsed v.dest v.tc < s.egLim v.dest v.tc →
    Answers (.cellAdmit f) s fun t =>
      (∃ u, t.frame f = some u ∧ u.cells = v.cells ++ [⟨.reservation, [v.dest], [v.dest], false⟩]) ∧
      t.reservedUsed v.dest v.tc = s.reservedUsed v.dest v.tc + 1 ∧
      ∀ g, g ≠ f → t.frame g = s.frame g) ∧
  (∀ (s : State) (f : FrameId) (v : Frame) (p : Nat), s.frame f = some v → v.stage = .queued →
    s.fabricRuns = true → v.trapped = false →
    v.nextCell = true → v.fanout = [p] → v.stomps = [] → v.cells = [] → v.headLeft = [] → v.stamped = false →
    v.tailIn = true → s.scheduled v.tc = true → s.egLim p v.tc ≤ s.reservedUsed p v.tc →
    Answers (.cellAdmit f) s fun t => t.frame f = none ∧ t.fab.reserved = s.fab.reserved) ∧
  (∀ (s : State) (f : FrameId) (v : Frame) (i : Nat) (r : CellRec), s.frame f = some v →
    v.cells[i]? = some r → r.freed = false → (s.cellGone f i v r = true ∨ v.stage = .dropped) →
    exec (.cellFree f i) s = .next
      (((((s.unstage f i v.tc r.copies).freeCell v i).1).setFrame f
        { v with cells := setAt v.cells i { r with freed := true } }).reap f)) ∧
  (∀ (s : State) (f : FrameId) (v : Frame) (i : Nat) (r : CellRec), s.frame f = some v →
    v.cells[i]? = some r → s.cellGone f i v r = false → v.stage ≠ .dropped →
    Answers (.cellFree f i) s fun t => t = s) ∧
  (∀ (s : State) (f : FrameId) (v : Frame) (i : Nat) (r : CellRec), s.frame f = some v →
    v.cells[i]? = some r → r.freed = true → Answers (.cellFree f i) s fun t => t = s) ∧
  (∀ (s : State) (p : Port), s.portUp p.val = true →
    Answers (.linkDownHoldExpiry p) s fun t => t = s) ∧
  (∀ (s : State) (p : Port), s.nowNs < (s.port p.val).downAt + 1000000 * s.fld Reg.FAB_LDHOLD 0 10 →
    Answers (.linkDownHoldExpiry p) s fun t => t = s) ∧
  (∀ (s : State) (p : Port), s.portUp p.val = false → s.queuedFor p.val = [] →
    (s.port p.val).downAt + 1000000 * s.fld Reg.FAB_LDHOLD 0 10 ≤ s.nowNs →
    Answers (.linkDownHoldExpiry p) s fun t =>
      (t.port p.val).redirecting = true ∧ t.redirects p.val = true ∧ t.regs = s.regs) ∧
  (∀ (s : State) (f : FrameId) (v : Frame), s.frame f = some v → v.stage = .queued →
    Answers (.cellMemoryError f) s fun t =>
      t = (((s.bump Cnt.FAB_MEM_LOSS).monEvent 0x420).fault 0x2084 0).badFrame f ∧ ⟨0x2084, 0, s.nowNs⟩ ∈ t.reports)

/-- Rules R81, R82, R91 to R94: the scheduler and the Drift region. -/
def Obligations.FabricSchedulerAndDriftCommandsComplete : Prop :=
  (∀ (s : State) (r : SchedCheck), s.fabricRuns = false → Answers (.schedulerCellTime r) s fun t => t = s) ∧
  (∀ (s : State) (r : SchedCheck), s.fabricRuns = true → s.fab.swapAsked = false → s.bit Reg.FAB_SCHED 1 = true →
    Answers (.schedulerCellTime r) s fun t =>
      match r with
      | .agree => t = s.useMatching s.matching
      | .standbyFails => t = (s.useMatching s.matching).copyOut ∧ t.bit Reg.FAB_SCHED 1 = false ∧
          ⟨0x2081, 0, s.nowNs⟩ ∈ t.reports ∧ t.bit Reg.FLT_GSTAT 7 = true
      | .activeFails => t.bit Reg.FAB_SCHED 0 = !s.bit Reg.FAB_SCHED 0 ∧ t.bit Reg.FAB_SCHED 1 = false ∧
          t.fab = s.fab ∧ t.frames = s.frames ∧ t.bit Reg.FLT_GSTAT 7 = true
      | .differ => t.reports = s.reports ++ [⟨0x1082, 0, s.nowNs⟩] ∧ t.fab = s.fab ∧ t.frames = s.frames) ∧
  (∀ (s : State) (r : SchedCheck), s.fabricRuns = true → s.fab.swapAsked = false → s.bit Reg.FAB_SCHED 1 = false →
    exec (.schedulerCellTime r) s = .next (s.useMatching s.matching)) ∧
  (∀ (s : State) (m : Master), s.admits m Reg.FAB_SCHED →
    Answers (.schedulerSwap m) s fun t => t.fab.swapAsked = s.bit Reg.FAB_SCHED 1 ∧ t.regs = s.regs) ∧
  (∀ (s : State) (g : Fin 7) (p : Port) (c : TrafficClass),
    firstOf .tail (s.voq (voqKey g.val p.val c.val)).cells = none →
    Answers (.driftSpill g p c) s fun t => t = s) ∧
  (∀ (s : State) (g : Fin 7) (p : Port) (c : TrafficClass) (q : QCell) (f : Frame) (r : CellRec),
    firstOf .tail (s.voq (voqKey g.val p.val c.val)).cells = some q → s.frame q.frame = some f →
    f.cells[q.idx]? = some r → s.driftRoom p.val = false → s.maySpill c.val = true →
    Answers (.driftSpill g p c) s fun t =>
      t.congested p.val c.val = true ∧ t.driftOf p.val = s.driftOf p.val ∧ t.frames = s.frames ∧
      (s.driftPlace p.val = false → t.fab = s.fab ∧
        ∀ k, k ≠ Reg.FAB_BUFSTAT_w1 p.val c.val → t.rd k = s.rd k) ∧
      (s.driftPlace p.val = true → t.fab.capHitAt = s.nowNs / 8 + 1)) ∧
  (∀ (s : State) (g : Fin 7) (p : Port) (c : TrafficClass) (q : QCell) (f : Frame) (r : CellRec),
    firstOf .tail (s.voq (voqKey g.val p.val c.val)).cells = some q → s.frame q.frame = some f →
    f.cells[q.idx]? = some r → s.driftRoom p.val = true → s.maySpill c.val = true →
    Answers (.driftSpill g p c) s fun t =>
      t.driftOf p.val = s.driftOf p.val + 1 ∧
      ∃ u, t.frame q.frame = some u ∧ u.cells = setAt f.cells q.idx { r with place := .drift }) ∧
  (∀ (s : State) (g : Fin 7) (p : Port) (c : TrafficClass) (q : QCell) (f : Frame) (r : CellRec),
    firstOf .middle (s.voq (voqKey g.val p.val c.val)).cells = some q → s.frame q.frame = some f →
    f.cells[q.idx]? = some r →
    s.returnDue (voqKey g.val p.val c.val) (s.voq (voqKey g.val p.val c.val)) = true →
    s.capRoom 1 = true → s.dramRoom = true →
    Answers (.driftReturn g p c) s fun t =>
      t.driftOf p.val = s.driftOf p.val - 1 ∧
      ∃ u, t.frame q.frame = some u ∧ u.cells = setAt f.cells q.idx { r with place := .shared }) ∧
  (∀ (s : State) (g : Fin 7) (p : Port) (c : TrafficClass),
    s.egResume p.val c.val ≤ s.egCells p.val c.val → Answers (.driftReturn g p c) s fun t => t = s) ∧
  (∀ (s : State), Answers .driftDrainStart s fun t =>
    t.bit Reg.FAB_DRIFTSTAT 25 = true ∧ (∀ p, t.driftRoom p = false) ∧
    ∀ k, k ≠ Reg.FAB_DRIFTSTAT → t.rd k = s.rd k) ∧
  (∀ (s : State), s.bit Reg.FAB_DRIFTSTAT 25 = true → s.driftCells = 0 →
    Answers .driftDrainDone s fun t =>
      t.bit Reg.FAB_DRIFTSTAT 25 = false ∧ t.fab = { s.fab with memReady := true } ∧
      ∀ k, k ≠ Reg.FAB_DRIFTSTAT → t.rd k = s.rd k)

/-- Rule R81: in every cell time the accepted requests form a matching: each ingress group accepts at most
once, each egress link serves at most one group, and each link is one that the request asked for. -/
def Obligations.SchedulerMatchingIsAMatching : Prop :=
  ∀ (s : State),
    (s.matching.accepted.map (fun a => a.1.g)).Nodup ∧
    (s.matching.accepted.flatMap (fun a => a.2)).Nodup ∧
    ∀ a ∈ s.matching.accepted, a.1 ∈ s.requests ∧ a.2 ≠ [] ∧ ∀ e ∈ a.2, a.1.wants e = true

/-- Rules R106, R108, R130, R131: classification of a frame, and the length test at its tail. -/
def Obligations.ClassifyFrameCommandsComplete : Prop :=
  (∀ (s : State) (f : FrameId) (v : Frame) (r : Parsed), s.frame f = some v → v.stage = .toClassify →
    v.tailIn = true → v.rcPass = false → s.blkEn 0x0C = true → s.up .classify = true →
    s.heldUpAt f v [.retrain, .receiving, .toClassify] false = false →
    s.parse s.curGen ⟨v.bytes, s.freeCtr⟩ true (s.bit Reg.CLS_EXCFG 9)
      (s.fld (Reg.CLS_PORTCFG v.inPort) 0 6) = r →
    r.exc = 0 → r.l3 = none →
    Answers (.classifyPass f) s fun t =>
      (∃ u, t.frame f = some u ∧ u.stage = .toDispatch ∧ u.gen = s.curGen ∧ u.stamped = true ∧
        u.bytes = v.bytes ∧ u.len = v.wireLen ∧ u.mwords.length = 40) ∧
      ∀ g, g ≠ f → t.frame g = s.frame g) ∧
  (∀ (s : State) (f : FrameId) (v : Frame), s.frame f = some v → v.stage = .toClassify → v.tailIn = true →
    v.rcPass = false → v.inPort < 32 → s.blkEn 0x0C = false → s.up .classify = true →
    s.heldUpAt f v [.retrain, .receiving, .toClassify] false = false →
    Answers (.classifyPass f) s fun t =>
      t = (s.noAdmit v.inPort).delFrame f ∧ t.frame f = none ∧ ∀ g, g ≠ f → t.frame g = s.frame g) ∧
  (∀ (s : State) (f : FrameId) (v : Frame), s.frame f = some v → v.stage = .toEnqueue → v.checkTail = true →
    v.tailIn = true → v.exc = none → v.l3Len ≤ v.bytes.length →
    Answers (.l3LengthTailCheck f) s fun t =>
      t.frame f = some { v with checkTail := false } ∧ t.regs = s.regs ∧
      ∀ g, g ≠ f → t.frame g = s.frame g) ∧
  (∀ (s : State) (f : FrameId) (v : Frame), s.frame f = some v → v.stage = .toEnqueue → v.checkTail = true →
    v.tailIn = true → v.exc = none → v.bytes.length < v.l3Len →
    (s.malAction 1 = 1 ∨ s.malAction 1 = 2) →
    Answers (.l3LengthTailCheck f) s fun t =>
      ∃ u, t.frame f = some u ∧ u.exc = some 1 ∧ u.stage = .toEnqueue ∧ u.dest = 31 + s.malAction 1 ∧
        u.mc = false)

/-- Rules R126, R127: a flow command with GO is queued with its copy of CLS_FLOWDATA and BUSY, or ignored
while one is queued; it executes in order, and its end shows the result and clears BUSY. Rules R128, R136,
R137, R138: aging, the end of generations, and parity of the TCAM. -/
def Obligations.FlowCommandsComplete : Prop :=
  ((∀ (i : Instr) (s : State) (m : Master) (slot : BitVec 18) (op : Nat),
    (i = .flowcmdLookup m slot ∧ op = 1 ∨ i = .flowcmdInsert m slot ∧ op = 2 ∨
      i = .flowcmdDeleteKey m slot ∧ op = 3 ∨ i = .flowcmdReadSlot m slot ∧ op = 4 ∨
      i = .flowcmdDeleteSlot m slot ∧ op = 5 ∨ i = .flowcmdFlush m slot ∧ op = 6) →
    s.admits m Reg.CLS_FLOWCMD →
    Answers i s fun t =>
      (if s.bit Reg.CLS_FLOWCMD 30 then t.regs = s.regs ∧ t.cls = s.cls
      else t.bit Reg.CLS_FLOWCMD 30 = true ∧ t.fld Reg.CLS_FLOWCMD 0 3 = op ∧
        t.fld Reg.CLS_FLOWCMD 3 18 = slot.toNat ∧
        t.cls.queue = s.cls.queue ++
          [.command op slot.toNat (s.rdWords (Reg.CLS_FLOWDATA 0) 16)] ∧
        t.cls.flows = s.cls.flows) ∧
      ∀ k, k ≠ Reg.CLS_FLOWCMD → t.rd k = s.rd k) ∧
  (∀ (s : State) (slot : Nat) (d : List Word) (rest : List FlowOp),
    s.cls.queue = .command 5 slot d :: rest → slot < flowSlots → s.up .classify = true →
    Answers .flowQueueExecute s fun t =>
      t.cls.queue = rest ∧ t.bit Reg.CLS_FLOWCMD 30 = false ∧
      t.fld Reg.CLS_FLOWCMD 24 4 = (if s.flowValid slot then 0 else 2) ∧
      (s.flowValid slot = true → t.flowEntry slot = []) ∧
      (∀ j, j ≠ slot → t.flowEntry j = s.flowEntry j) ∧
      ∀ k, k ≠ Reg.CLS_FLOWCMD → t.rd k = s.rd k) ∧
  (∀ (s : State) (slot : Nat) (d : List Word) (rest : List FlowOp),
    s.cls.queue = .command 4 slot d :: rest → slot < flowSlots → s.flowValid slot = true → s.up .classify = true →
    (s.flowEntry slot).length = 16 →
    Answers .flowQueueExecute s fun t =>
      t.bit Reg.CLS_FLOWCMD 30 = false ∧ t.fld Reg.CLS_FLOWCMD 24 4 = 0 ∧
      t.rdWords (Reg.CLS_FLOWDATA 0) 16 = s.flowEntry slot ∧ t.cls.flows = s.cls.flows) ∧
  (∀ (s : State) (key d : List Word) (slot : Nat) (rest : List FlowOp),
    s.cls.queue = .command 1 slot d :: rest → s.up .classify = true →
    flowKeyOf d = key → s.flowFind key = none →
    Answers .flowQueueExecute s fun t =>
      t.bit Reg.CLS_FLOWCMD 30 = false ∧ t.fld Reg.CLS_FLOWCMD 24 4 = 2 ∧ t.cls.flows = s.cls.flows ∧
      ∀ k, k ≠ Reg.CLS_FLOWCMD → t.rd k = s.rd k) ∧
  (∀ (s : State) (slot : Nat) (d : List Word) (rest : List FlowOp), s.cls.queue = .command 6 slot d :: rest →
    s.up .classify = true →
    Answers .flowQueueExecute s fun t =>
      t.bit Reg.CLS_FLOWCMD 30 = false ∧ t.fld Reg.CLS_FLOWCMD 24 4 = 0 ∧
      t.cls.flows = s.cls.flows.filter (fun x => getBit (x.2.getD 0 0) 26))) ∧
  ((∀ (s : State) (slot : Fin 163840), s.up .classify = true → s.fld Reg.CLS_AGECFG 0 6 ≠ 0 → s.flowValid slot.val = true →
    getBit ((s.flowEntry slot.val).getD 0 0) 26 = false → s.bit Reg.CLS_AGECFG 8 = false →
    1000 * s.flowTimeout (getBits ((s.flowEntry slot.val).getD 0 0) 21 3) <
      (2 ^ 32 + s.classifyMs - ((s.flowEntry slot.val).getD 11 0).toNat) % 2 ^ 32 →
    Answers (.agingSweep slot) s fun t =>
      t.flowEntry slot.val = [] ∧ (∀ j, j ≠ slot.val → t.flowEntry j = s.flowEntry j) ∧
      ∀ k, k ≠ Cnt.CLS_FLOW_AGED → k ≠ Cnt.CLS_FLOW_AGED + 4 → t.rd k = s.rd k) ∧
  (∀ (s : State) (slot : Fin 163840), getBit ((s.flowEntry slot.val).getD 0 0) 26 = true →
    Answers (.agingSweep slot) s fun t => t = s) ∧
  (∀ (s : State) (g : Gen), s.genState g.val = 2 → s.inFlight g.val ≠ 0 →
    s.retireDue g.val = true →
    Answers (.forcedRetireExpiry g) s fun t =>
      t.genState g.val = 3 ∧ t.inFlight g.val = 0 ∧
      (∀ f v, s.frame f = some v → v.stamped = true → v.gen = g.val →
        t.frame f = some { v with
          orphan := true,
          latched := if v.exc = none ∧ (v.stage = .toStream ∨ v.stage = .toEnqueue) then some (s.fanoutOf v)
            else v.latched }) ∧
      (∀ f v, s.frame f = some v → (v.stamped = false ∨ v.gen ≠ g.val) → t.frame f = some v) ∧
      ∀ k, k ≠ Reg.CLS_GENSTAT → k ≠ Reg.CLS_GENINFL g.val → t.rd k = s.rd k) ∧
  (∀ (s : State) (g : Gen), s.retireDue g.val = false → Answers (.forcedRetireExpiry g) s fun t => t = s) ∧
  (∀ (s : State) (g : Gen), s.genState g.val = 3 →
    Answers (.generationSweepDone g) s fun t =>
      t.genState g.val = 0 ∧ t.bit Reg.CLS_GENSTAT (16 + g.val) = true ∧ 56 ∈ t.irqs ∧
      (Store.get (fun _ => false) s.cls.lost g.val = true → t.bit Reg.CLS_GENSTAT (20 + g.val) = true) ∧
      t.cls.flows = s.cls.flows.map (fun x => (x.1, s.sweptFlow g.val x.2)) ∧
      ∀ k, k ≠ Reg.CLS_GENSTAT → t.rd k = s.rd k) ∧
  (∀ (s : State) (e : Fin 4096), Answers (.tcamParityCheck e true) s fun t =>
    Store.get (fun _ => false) t.cls.badParity e.val = true ∧ t.fld Reg.CLS_TCAMERR 0 12 = e.val ∧
    t.bit Reg.CLS_TCAMERR 31 = true ∧ t.reports = s.reports ++ [⟨0x20C1, 0, s.nowNs⟩] ∧
    ∀ k, k ≠ Reg.CLS_TCAMERR → t.rd k = s.rd k) ∧
  (∀ (s : State) (e : Fin 4096), Answers (.tcamParityCheck e false) s fun t => t = s))

/-- Rule R121: the candidate slots of a hash lie one in each way of 40,960; a lookup finds only a candidate
that holds a valid entry with the key. -/
def Obligations.FlowCandidateSlots : Prop :=
  (∀ (h : Word) (k : Fin 4), 40960 * k.val ≤ flowSlot h k.val ∧ flowSlot h k.val < 40960 * (k.val + 1)) ∧
  (∀ (s : State) (key : List Word) (c : Nat), s.flowFind key = some c →
    c < flowSlots ∧ c ∈ flowCandidates (s.hashOf key) ∧ s.flowValid c = true ∧
    flowKeyOf (s.flowEntry c) = key)

/-- Rule R117: the result of a TCAM lookup is the matching entry of lowest index, and there is none when no
entry matches; an entry matches by its bank, its width, its generation bit, and every compared bit of its key.
-/
def Obligations.TcamGivesTheLowestMatch : Prop :=
  ∀ (s : State) (g p : Nat) (key : List Byte), s.canonical = true → s.blkEn 0xD = true → s.cls.badParity = [] →
    g < 4 →
    let wide := getBit (s.rdLive g (Reg.CLS_PROFILE_w0 p)) 8
    let banks := getBits (s.rdLive g (Reg.CLS_PROFILE_w0 p)) 0 8
    let half := fun (e : Nat) (ks : List Byte) => ∀ b j, b < 40 → j < 8 →
      getBit (s.rdLive liveBank (Reg.CLS_TCAM_w0_19 e (10 + b / 4))) (8 * (b % 4) + j) = true →
      getBit (s.rdLive liveBank (Reg.CLS_TCAM_w0_19 e (b / 4))) (8 * (b % 4) + j) =
        Nat.testBit (ks.getD b 0).toNat j
    let isMatch := fun (e : Nat) => Nat.testBit banks (e / 512) = true ∧ s.tcamPaired e = wide ∧
      getBit (s.rdLive liveBank (Reg.CLS_TCAM_w20 e)) g = true ∧ half e key ∧
      (wide = true → e / 512 % 2 = 0 ∧ half (e + 512) (key.drop 40))
    key.length = (if wide = true then 80 else 40) →
    (∀ e, s.tcamLookup g p key = some e → e < 4096 ∧ isMatch e ∧ ∀ x, x < e → ¬ isMatch x) ∧
    (s.tcamLookup g p key = none → ∀ e, e < 4096 → ¬ isMatch e)

/-- Rules R151, R153: the arithmetic, logic, shift and count instructions of three registers. C of an addition
is the carry out, C of a subtraction is 1 when there is no borrow, V is signed overflow; a logic instruction
leaves C and V; a shift takes the low five bits of rb and its C is the last bit out, unchanged for amount 0; a
saturating instruction sets V when the exact value does not fit; CMP and TST discard the result. Rule R153:
CSUPD replaces one half-word under a ones'-complement checksum, RDS reads the special values and WRF writes
the flags. -/
def Obligations.RitikRegisterInstructionsComplete : Prop :=
  (∀ (s : State) (t : ThreadId) (rd ra rb : Gpr), s.canIssue t.val allProfiles →
    let a := s.gr t ra
    let b := s.gr t rb
    let f := s.fl t
    let logic := fun (w : Word) => ({ f with z := decide (w = 0), n := w.msb } : Flags)
    let sum : Flags := ⟨decide (a + b = 0), (a + b).msb, decide (2 ^ 32 ≤ a.toNat + b.toNat), BitVec.saddOverflow a b⟩
    let diff : Flags := ⟨decide (a = b), (a - b).msb, decide (b.toNat ≤ a.toNat), BitVec.ssubOverflow a b⟩
    let n := b.toNat % 32
    let out := fun (w : Word) (bit : Bool) => { logic w with c := if n = 0 then f.c else bit }
    let sat := fun (i : Int) =>
      (BitVec.ofInt 32 (max (-2147483648) (min 2147483647 i)), decide (i < -2147483648 ∨ 2147483647 < i))
    Answers (.add t rd ra rb) s (fun u => s.Calc u t.val rd.val (a + b) sum) ∧
    Answers (.sub t rd ra rb) s (fun u => s.Calc u t.val rd.val (a - b) diff) ∧
    Answers (.and t rd ra rb) s (fun u => s.Calc u t.val rd.val (a &&& b) (logic (a &&& b))) ∧
    Answers (.or t rd ra rb) s (fun u => s.Calc u t.val rd.val (a ||| b) (logic (a ||| b))) ∧
    Answers (.xor t rd ra rb) s (fun u => s.Calc u t.val rd.val (a ^^^ b) (logic (a ^^^ b))) ∧
    Answers (.shl t rd ra rb) s
      (fun u => s.Calc u t.val rd.val (a <<< n) (out (a <<< n) (a.getLsbD (32 - n)))) ∧
    Answers (.shr t rd ra rb) s
      (fun u => s.Calc u t.val rd.val (a >>> n) (out (a >>> n) (a.getLsbD (n - 1)))) ∧
    Answers (.sar t rd ra rb) s
      (fun u => s.Calc u t.val rd.val (a.sshiftRight n) (out (a.sshiftRight n) (a.getLsbD (n - 1)))) ∧
    Answers (.ror t rd ra rb) s
      (fun u => s.Calc u t.val rd.val (a.rotateRight n) (out (a.rotateRight n) (a.getLsbD (n - 1)))) ∧
    Answers (.mul t rd ra rb) s (fun u => s.Calc u t.val rd.val (a * b) (logic (a * b))) ∧
    (let r := sat (a.toInt + b.toInt);
      Answers (.adds t rd ra rb) s (fun u => s.Calc u t.val rd.val r.1 { logic r.1 with v := r.2 })) ∧
    (let r := sat (a.toInt - b.toInt);
      Answers (.subs t rd ra rb) s (fun u => s.Calc u t.val rd.val r.1 { logic r.1 with v := r.2 })) ∧
    (let r := sat ((a.toInt * b.toInt).fdiv 65536);
      profileOf t.val ≠ .w →
      Answers (.mulq t rd ra rb) s (fun u => s.Calc u t.val rd.val r.1 { logic r.1 with v := r.2 })) ∧
    Answers (.cmp t ra rb) s (fun u => s.Calc u t.val 0 0 diff) ∧
    Answers (.tst t ra rb) s (fun u => s.Calc u t.val 0 0 (logic (a &&& b))) ∧
    (let r := if a.toInt ≤ b.toInt then a else b;
      Answers (.min t rd ra rb) s (fun u => s.Calc u t.val rd.val r (logic r))) ∧
    (let r := if a.toInt ≤ b.toInt then b else a;
      Answers (.max t rd ra rb) s (fun u => s.Calc u t.val rd.val r (logic r))) ∧
    Answers (.clz t rd ra) s (fun u => ∃ k ≤ 32,
      (∀ i, 32 ≤ i + k → a.getLsbD i = false) ∧ (k < 32 → a.getLsbD (31 - k) = true) ∧
      s.Calc u t.val rd.val (BitVec.ofNat 32 k) { f with z := decide (k = 0), n := false }) ∧
    (let k := (List.range 32).countP (fun i => a.getLsbD i);
      Answers (.popc t rd ra) s (fun u =>
        s.Calc u t.val rd.val (BitVec.ofNat 32 k) { f with z := decide (k = 0), n := false }))) ∧
  (∀ (s : State) (t : ThreadId) (rd ra rb : Gpr), s.canIssue t.val allProfiles →
    let a := s.gr t ra
    let f := s.fl t
    (profileOf t.val = .p →
      Answers (.csupd t rd ra rb) s (fun u => ∃ c < 65536,
        s.Calc u t.val rd.val (BitVec.ofNat 32 c) f ∧
        c = checksumUpdate ((s.gr t rd).toNat % 65536) (a.toNat % 65536) ((s.gr t rb).toNat % 65536) ∧
        (65535 - c) % 65535 = (65535 - (s.gr t rd).toNat % 65536 + (65535 - a.toNat % 65536)
          + (s.gr t rb).toNat % 65536) % 65535)) ∧
    Answers (.rds t rd 0) s (fun u => s.Calc u t.val rd.val (threadRegister t.val) f) ∧
    Answers (.rds t rd 1) s (fun u => ∃ w, s.Calc u t.val rd.val w f ∧
      w.getLsbD 0 = f.z ∧ w.getLsbD 1 = f.n ∧ w.getLsbD 2 = f.c ∧ w.getLsbD 3 = f.v ∧ w.toNat < 16) ∧
    Answers (.rds t rd 2) s (fun u => s.Calc u t.val rd.val (s.thread t.val).issued f) ∧
    (profileOf t.val = .p → ∀ g v, (s.thread t.val).frame = some g → s.frame g = some v →
      Answers (.rds t rd 3) s (fun u => s.Calc u t.val rd.val (BitVec.ofNat 32 v.gen) f)) ∧
    (profileOf t.val = .p →
      Answers (.rds t rd 4) s
        (fun u => s.Calc u t.val rd.val (BitVec.ofNat 32 (s.thread t.val).reqs.length) f) ∧
      Answers (.rds t rd 5) s
        (fun u => s.Calc u t.val rd.val (BitVec.ofNat 32 (s.thread t.val).h.length) f)) ∧
    (profileOf t.val ≠ .p → ∀ sel : Fin 16, sel.val ∈ [3, 4, 5] →
      Answers (.rds t rd sel) s (fun u => s.Calc u t.val rd.val 0 f)) ∧
    Answers (.wrf t ra) s
      (fun u => s.Calc u t.val 0 0 ⟨a.getLsbD 0, a.getLsbD 1, a.getLsbD 2, a.getLsbD 3⟩))

/-- Rule R154: the instructions with an immediate. ADDI and CMPI extend its sign, the logic instructions do
not; EXT reads and INS writes a field, whose bits beyond bit 31 do not exist. -/
def Obligations.RitikImmediateInstructionsComplete : Prop :=
  ∀ (s : State) (t : ThreadId) (rd ra : Gpr) (imm : BitVec 16) (n w : Fin 32), s.canIssue t.val allProfiles →
    let a := s.gr t ra
    let d := s.gr t rd
    let f := s.fl t
    let se := imm.signExtend 32
    let ze := imm.zeroExtend 32
    let logic := fun (w : Word) => ({ f with z := decide (w = 0), n := w.msb } : Flags)
    let out := fun (w : Word) (bit : Bool) => { logic w with c := if n = 0 then f.c else bit }
    Answers (.addi t rd ra imm) s (fun u => s.Calc u t.val rd.val (a + se)
      ⟨decide (a + se = 0), (a + se).msb, decide (2 ^ 32 ≤ a.toNat + se.toNat), BitVec.saddOverflow a se⟩) ∧
    Answers (.andi t rd ra imm) s (fun u => s.Calc u t.val rd.val (a &&& ze) (logic (a &&& ze))) ∧
    Answers (.ori t rd ra imm) s (fun u => s.Calc u t.val rd.val (a ||| ze) (logic (a ||| ze))) ∧
    Answers (.xori t rd ra imm) s (fun u => s.Calc u t.val rd.val (a ^^^ ze) (logic (a ^^^ ze))) ∧
    Answers (.shli t rd ra n) s
      (fun u => s.Calc u t.val rd.val (a <<< n.val) (out (a <<< n.val) (a.getLsbD (32 - n.val)))) ∧
    Answers (.shri t rd ra n) s
      (fun u => s.Calc u t.val rd.val (a >>> n.val) (out (a >>> n.val) (a.getLsbD (n.val - 1)))) ∧
    Answers (.sari t rd ra n) s
      (fun u => s.Calc u t.val rd.val (a.sshiftRight n.val) (out (a.sshiftRight n.val) (a.getLsbD (n.val - 1)))) ∧
    Answers (.movi t rd imm) s (fun u => s.Calc u t.val rd.val ze f) ∧
    Answers (.movhi t rd imm) s
      (fun u => s.Calc u t.val rd.val (imm ++ d.extractLsb' 0 16 : BitVec 32) f) ∧
    Answers (.cmpi t ra imm) s (fun u => s.Calc u t.val 0 0
      ⟨decide (a = se), (a - se).msb, decide (se.toNat ≤ a.toNat), BitVec.ssubOverflow a se⟩) ∧
    Answers (.tsti t ra imm) s (fun u => s.Calc u t.val 0 0 (logic (a &&& ze))) ∧
    Answers (.ext t rd ra n w) s (fun u => ∃ r, s.Calc u t.val rd.val r (logic r) ∧
      ∀ i, r.getLsbD i = (decide (i ≤ w.val) && a.getLsbD (n.val + i))) ∧
    Answers (.ins t rd ra n w) s (fun u => ∃ r, s.Calc u t.val rd.val r (logic r) ∧
      ∀ i < 32, r.getLsbD i =
        if n.val ≤ i ∧ i ≤ n.val + w.val then a.getLsbD (i - n.val) else d.getLsbD i)

/-- Rule R148 (and JR, JLR of R153): branches and jumps. The word of a branch holds its condition, link bit
and signed offset, and the condition 0xF is ILLEGAL. A branch whose condition holds goes to its own pc plus
the offset in instructions, and with a link g15 holds the next pc; one whose condition does not hold goes on
and leaves g15. The conditions are what the table says of the flags, and after CMP what it says of the values.
A jump with a link takes its target before g15 is written. -/
def Obligations.RitikBranchesComplete : Prop :=
  (∀ (t : ThreadId) (val : Gpr → Word) (n : Nat) (off : BitVec 24), n < 16 →
    let word := fun (link : Nat) => BitVec.ofNat 32 (2 * 2 ^ 29 + n * 2 ^ 25 + link * 2 ^ 24 + off.toNat)
    (∀ c, [Cond.eq, .ne, .hs, .lo, .mi, .pl, .vs, .vc, .hi, .ls, .ge, .lt, .gt, .le, .al][n]? = some c →
      ritikDecode t val (word 0) = some (.bCond t c off) ∧ ritikDecode t val (word 1) = some (.blCond t c off)) ∧
    (n = 15 → ritikDecode t val (word 0) = some (.illegal ⟨t, false⟩) ∧
      ritikDecode t val (word 1) = some (.illegal ⟨t, false⟩))) ∧
  (∀ (s : State) (t : ThreadId) (ra : Gpr) (c : Cond) (off : BitVec 24), s.canIssue t.val allProfiles →
    let pc := (s.thread t.val).pc
    let f := s.fl t
    (condHolds c f = true →
      Answers (.bCond t c off) s (fun u => s.Ran u t.val 0 0 f (pc + off.signExtend 32) ∧ s.Quiet u t.val) ∧
      Answers (.blCond t c off) s
        (fun u => s.Ran u t.val 15 (pc + 1) f (pc + off.signExtend 32) ∧ s.Quiet u t.val)) ∧
    (condHolds c f = false →
      Answers (.bCond t c off) s (fun u => s.Calc u t.val 0 0 f) ∧
      Answers (.blCond t c off) s (fun u => s.Calc u t.val 0 0 f)) ∧
    Answers (.jr t ra) s (fun u => s.Ran u t.val 0 0 f (s.gr t ra) ∧ s.Quiet u t.val) ∧
    Answers (.jlr t ra) s (fun u => s.Ran u t.val 15 (pc + 1) f (s.gr t ra) ∧ s.Quiet u t.val)) ∧
  (∀ f : Flags,
    let holds := fun c => condHolds c f = true
    (holds .eq ↔ f.z = true) ∧ (holds .ne ↔ f.z = false) ∧ (holds .hs ↔ f.c = true) ∧
    (holds .lo ↔ f.c = false) ∧ (holds .mi ↔ f.n = true) ∧ (holds .pl ↔ f.n = false) ∧
    (holds .vs ↔ f.v = true) ∧ (holds .vc ↔ f.v = false) ∧ (holds .hi ↔ f.c = true ∧ f.z = false) ∧
    (holds .ls ↔ f.c = false ∨ f.z = true) ∧ (holds .ge ↔ f.n = f.v) ∧ (holds .lt ↔ f.n ≠ f.v) ∧
    (holds .gt ↔ f.z = false ∧ f.n = f.v) ∧ (holds .le ↔ f.z = true ∨ f.n ≠ f.v) ∧ holds .al) ∧
  (∀ (s u : State) (t : ThreadId) (ra rb : Gpr), s.canIssue t.val allProfiles →
    exec (.cmp t ra rb) s = .next u →
    let a := s.gr t ra
    let b := s.gr t rb
    let holds := fun c => condHolds c (u.fl t) = true
    (holds .eq ↔ a = b) ∧ (holds .ne ↔ a ≠ b) ∧
    (holds .hs ↔ b.toNat ≤ a.toNat) ∧ (holds .lo ↔ a.toNat < b.toNat) ∧
    (holds .hi ↔ b.toNat < a.toNat) ∧ (holds .ls ↔ a.toNat ≤ b.toNat) ∧
    (holds .ge ↔ b.toInt ≤ a.toInt) ∧ (holds .lt ↔ a.toInt < b.toInt) ∧
    (holds .gt ↔ b.toInt < a.toInt) ∧ (holds .le ↔ a.toInt ≤ b.toInt) ∧
    (holds .mi ↔ (a - b).toInt < 0) ∧ (holds .vs ↔ (a - b).toInt ≠ a.toInt - b.toInt) ∧
    (holds .pl ↔ ¬ holds .mi) ∧ (holds .vc ↔ ¬ holds .vs) ∧ holds .al)

/-- Rules R143, R144, R149, R156: loads. D and M are little-endian, H big-endian with 0 beyond its length; LD
extends with zeros and LDS with the sign. Rules R143, R144, R149, R156, R161: stores and atomic operations. A
store changes the bytes of its size at its address, little-endian in D and big-endian in H, and no other byte
of the memory. -/
def Obligations.RitikMemoryInstructionsComplete : Prop :=
  (∀ (s : State) (t : ThreadId) (rd ra : Gpr) (sz : MemSize) (off : BitVec 12),
    let n := memBytes sz
    let ea := (s.gr t ra).toNat + off.toNat
    let th := s.thread t.val
    let loads := fun (sp : MemSpace) (v : Nat) =>
      Answers (.ld t rd ra sp sz off) s (fun u => s.Calc u t.val rd.val (BitVec.ofNat 32 v) (s.fl t)) ∧
      Answers (.lds t rd ra sp sz off) s
        (fun u => s.Calc u t.val rd.val ((BitVec.ofNat (8 * n) v).signExtend 32) (s.fl t))
    (s.canIssue t.val allProfiles → ea % n = 0 → ea + n ≤ dmemSize (profileOf t.val) →
      s.cellBad (dCell t.val (ea / 4)) = false →
      loads .d ((s.cellWord (dCell t.val (ea / 4))).toNat / 2 ^ (8 * (ea % 4)) % 2 ^ (8 * n))) ∧
    (s.canIssue t.val [.p] → ea + n ≤ 256 → sz = .byte → loads .h (th.h.getD ea 0).toNat) ∧
    (s.canIssue t.val [.p] → ea + n ≤ 256 → sz = .half →
      loads .h (256 * (th.h.getD ea 0).toNat + (th.h.getD (ea + 1) 0).toNat)) ∧
    (s.canIssue t.val [.p] → ea + n ≤ 256 → sz = .word →
      loads .h (16777216 * (th.h.getD ea 0).toNat + 65536 * (th.h.getD (ea + 1) 0).toNat
        + 256 * (th.h.getD (ea + 2) 0).toNat + (th.h.getD (ea + 3) 0).toNat)) ∧
    (s.canIssue t.val [.p] → ea % 4 = 0 → ea + 4 ≤ 256 → sz = .word → th.reserved (ea / 4) = false →
      loads .m (th.mword (ea / 4)).toNat)) ∧
  (∀ (s : State) (t : ThreadId) (rd ra : Gpr) (sz : MemSize) (off : BitVec 12),
    let n := memBytes sz
    let ea := (s.gr t ra).toNat + off.toNat
    let th := s.thread t.val
    let w := s.gr t rd
    let pc1 := th.pc + 1
    let inD := s.canIssue t.val allProfiles ∧ ea % n = 0 ∧ ea + n ≤ dmemSize (profileOf t.val)
    let good := s.cellBad (dCell t.val (ea / 4)) = false
    let outside := fun (u : State) =>
      (∀ k, ea / 4 ≠ k → u.cellWord (dCell t.val k) = s.cellWord (dCell t.val k)) ∧
      (∀ key, MemCell.reg key ≠ dCell t.val (ea / 4) → u.rd key = s.rd key) ∧
      u.mem = s.mem ∧ u.live = s.live ∧ u.frames = s.frames ∧ u.reports = s.reports ∧
      (u.thread t.val).h = th.h ∧ (u.thread t.val).m = th.m
    (inD → n = 4 ∨ good → Answers (.st t rd ra .d sz off) s fun u =>
      s.Ran u t.val 0 0 (s.fl t) pc1 ∧ outside u ∧ u.cellBad (dCell t.val (ea / 4)) = false ∧
      ∀ i < 4, (u.cellWord (dCell t.val (ea / 4))).toNat / 2 ^ (8 * i) % 256 =
        if ea % 4 ≤ i ∧ i < ea % 4 + n then w.toNat / 2 ^ (8 * (i - ea % 4)) % 256
        else (s.cellWord (dCell t.val (ea / 4))).toNat / 2 ^ (8 * i) % 256) ∧
    (s.canIssue t.val [.p] → ea + n ≤ 256 → ea + n ≤ th.h.length →
      Answers (.st t rd ra .h sz off) s fun u =>
        s.Ran u t.val 0 0 (s.fl t) pc1 ∧ (u.thread t.val).h.length = th.h.length ∧
        (∀ i < 256, (u.thread t.val).h.getD i 0 =
          if ea ≤ i ∧ i < ea + n then BitVec.ofNat 8 (w.toNat / 2 ^ (8 * (ea + n - 1 - i)))
          else th.h.getD i 0) ∧
        (u.thread t.val).m = th.m ∧ u.regs = s.regs ∧ u.mem = s.mem) ∧
    (s.canIssue t.val [.p] → sz = .word → ea % 4 = 0 → ea + 4 ≤ 256 → th.reserved (ea / 4) = false →
      Answers (.st t rd ra .m sz off) s fun u =>
        s.Ran u t.val 0 0 (s.fl t) pc1 ∧ (u.thread t.val).mword (ea / 4) = w ∧
        (∀ k, k ≠ ea / 4 → (u.thread t.val).mword k = th.mword k) ∧
        (u.thread t.val).h = th.h ∧ u.regs = s.regs ∧ u.mem = s.mem) ∧
    (inD → good → profileOf t.val ≠ .w → sz = .word →
      Answers (.aadd t rd ra off) s (fun u =>
        s.Ran u t.val rd.val (s.cellWord (dCell t.val (ea / 4))) (s.fl t) pc1 ∧ outside u ∧
        u.cellWord (dCell t.val (ea / 4)) = s.cellWord (dCell t.val (ea / 4)) + w) ∧
      Answers (.aswp t rd ra off) s (fun u =>
        s.Ran u t.val rd.val (s.cellWord (dCell t.val (ea / 4))) (s.fl t) pc1 ∧ outside u ∧
        u.cellWord (dCell t.val (ea / 4)) = w)))

/-- Rules R145, R155, R164 to R166, R484: a reserved word takes ILLEGAL, and a fetch beyond program memory
PC_RANGE with the pc of the instruction before it. In profile P the program ends with its record in M[63]; in
C and W the thread stops and its trap register holds the cause and the pc. Each is reported. A PDCMD whose
command code R359 does not list takes UNIT in profile C and PROFILE elsewhere: that it is a form of ILLEGAL is
the model's choice (log entry 122). Rules R144, R164, R167: an access to D that is not aligned takes MISALIGN
before BOUNDS, one outside it BOUNDS, and none of its effect happens. -/
def Obligations.RitikTrapsComplete : Prop :=
  ((∀ (s : State) (t : ThreadId) (unit : Bool), s.canIssue t.val [.p] →
    let pc := (s.thread t.val).pc.toNat % 2 ^ 15
    let cause := if unit then 2 else 1
    Answers (.illegal ⟨t, unit⟩) s fun u =>
      (u.thread t.val).status = .idle ∧ (u.thread t.val).frame = none ∧ (u.thread t.val).reqs = [] ∧
      (u.thread t.val).mword 63 = BitVec.ofNat 32 (cause + 65536 * pc) ∧
      ⟨0x0100 + cause, cause + 64 * (t.val % 8) + 512 * (t.val / 8) + 65536 * pc, s.nowNs⟩ ∈ u.reports) ∧
  (∀ (s : State) (t : ThreadId) (unit : Bool), s.canIssue t.val [.c] →
    let pc := (s.thread t.val).pc.toNat % 2 ^ 13
    let cause := if unit then 12 else 1
    Answers (.illegal ⟨t, unit⟩) s fun u =>
      (u.thread t.val).status = .trapped ∧
      u.rdN (Reg.PWC_TRAP (seqOf t.val) (threadNo t.val)) = 2147483648 + (cause + 65536 * pc) ∧
      ⟨0x3300 + cause, threadNo t.val + 256 * seqOf t.val + 65536 * pc, s.nowNs⟩ ∈ u.reports) ∧
  (∀ (s : State) (unit : Bool), s.canIssue 200 [.w] → s.coreHeld = false →
    let pc := (s.thread 200).pc.toNat % 2 ^ 11
    let cause := if unit then 2 else 1
    Answers (.illegal ⟨200, unit⟩) s fun u =>
      (u.thread 200).status = .trapped ∧ u.bit Reg.WAK_WSTAT 31 = true ∧
      u.fld Reg.WAK_WSTAT 8 6 = cause ∧ u.fld Reg.WAK_WSTAT 16 11 = pc ∧
      u.reports = s.reports ++ [⟨0x2340 + cause, 65536 * pc, s.nowNs⟩]) ∧
  (∀ (s : State) (t : ThreadId), s.mayIssue t.val → profileOf t.val = .p →
    32768 ≤ (s.thread t.val).pc.toNat →
    let last := (s.thread t.val).lastPc.toNat % 2 ^ 15
    Answers (.pcRange t) s fun u =>
      (u.thread t.val).status = .idle ∧
      (u.thread t.val).mword 63 = BitVec.ofNat 32 (5 + 65536 * last) ∧
      ⟨0x0105, 5 + 64 * (t.val % 8) + 512 * (t.val / 8) + 65536 * last, s.nowNs⟩ ∈ u.reports) ∧
  (∀ (s : State) (t : ThreadId), (s.thread t.val).pc.toNat < pmemSize (profileOf t.val) →
    Answers (.pcRange t) s fun u => u = s)) ∧
  (∀ (s : State) (t : ThreadId) (rd ra : Gpr) (sz : MemSize) (off : BitVec 12), s.canIssue t.val [.p] →
    let n := memBytes sz
    let ea := (s.gr t ra).toNat + off.toNat
    let pc := (s.thread t.val).pc.toNat % 2 ^ 15
    let traps := fun (cause : Nat) (i : Instr) => Answers i s fun u =>
      (u.thread t.val).status = .idle ∧ (u.thread t.val).regs = (s.thread t.val).regs ∧
      (u.thread t.val).mword 63 = BitVec.ofNat 32 (cause + 65536 * pc) ∧
      ∀ k < 65536, u.cellWord (dCell t.val k) = s.cellWord (dCell t.val k)
    (ea % n ≠ 0 → traps 3 (.ld t rd ra .d sz off) ∧ traps 3 (.lds t rd ra .d sz off) ∧
      traps 3 (.st t rd ra .d sz off)) ∧
    (ea % 4 ≠ 0 → traps 3 (.aadd t rd ra off) ∧ traps 3 (.aswp t rd ra off)) ∧
    (ea % n = 0 → 262144 < ea + n → traps 4 (.ld t rd ra .d sz off) ∧ traps 4 (.lds t rd ra .d sz off) ∧
      traps 4 (.st t rd ra .d sz off)) ∧
    (ea % 4 = 0 → 262144 < ea + 4 → traps 4 (.aadd t rd ra off) ∧ traps 4 (.aswp t rd ra off)))

/-- Rules R157, R169: YIELD gives the engine to its other ready threads for one turn each; TIME latches a
clock and reads it in three words; EXIT stops the thread; BRK halts it while its engine is open to debug and
takes BREAK otherwise. Rules R158, R160, R161, R186: lookups and meter requests. A request keeps its key and
reserves its result words; a synchronous one waits; a table that does not exist answers ERR at once. With 64
meter updates queued a meter request waits (R222). A lookup issued while MEM does not run is kept as one that
will answer ERR (R187). -/
def Obligations.RitikThreadAndRequestInstructionsComplete : Prop :=
  (∀ (s : State) (t : ThreadId) (rd : Gpr) (dom : Fin 4), s.canIssue t.val allProfiles →
    let th := s.thread t.val
    let others := fun (u : State) => (engineThreads t.val).filter (fun x => x != t.val && u.threadReady x)
    Answers (.yield t) s (fun u =>
      s.Ran u t.val 0 0 (s.fl t) (th.pc + 1) ∧
      (others u = [] → (u.thread t.val).status = .ready) ∧
      (others u ≠ [] → (u.thread t.val).status = .waiting (.turn (others u)))) ∧
    (profileOf t.val ≠ .w →
      Answers (.time t rd 0 dom) s (fun u =>
        s.Calc u t.val rd.val (BitVec.ofNat 32 (tkNs (s.wNow dom.val))) (s.fl t) ∧
        (u.thread t.val).snap1 = BitVec.ofNat 32 (tkSec (s.wNow dom.val)) ∧
        (u.thread t.val).snap2 =
          BitVec.ofNat 32 (tkSec (s.wNow dom.val) / 2 ^ 32 + 65536 * tkFrac (s.wNow dom.val)))) ∧
    (profileOf t.val = .w → Answers (.time t rd 0 0) s (fun u =>
      s.Calc u t.val rd.val (BitVec.ofNat 32 (s.rtcTicks % 32768)) (s.fl t) ∧
      (u.thread t.val).snap1 = BitVec.ofNat 32 s.rtcSec ∧ (u.thread t.val).snap2 = 0)) ∧
    (profileOf t.val ≠ .w ∨ dom = 0 →
      Answers (.time t rd 1 dom) s (fun u => s.Calc u t.val rd.val th.snap1 (s.fl t)) ∧
      Answers (.time t rd 2 dom) s (fun u => s.Calc u t.val rd.val th.snap2 (s.fl t))) ∧
    (profileOf t.val ≠ .p → Answers (.exit t) s (fun u =>
      s.Ran u t.val 0 0 (s.fl t) (th.pc + 1) ∧ (u.thread t.val).status = .idle)) ∧
    (s.debugOpen t.val = true → Answers (.brk t) s (fun u =>
      u.thread t.val = { th with status := .halted } ∧ u.regs = s.regs ∧ u.reports = s.reports)) ∧
    (s.debugOpen t.val = false → Answers (.brk t) s (fun u =>
      u = (s.issuedFrom t.val).trapNow t.val .break_ ∧
      ((u.thread t.val).status = .idle ∨ (u.thread t.val).status = .trapped)))) ∧
  (∀ (s : State) (t : ThreadId) (ra : Gpr) (tbl : Fin 32) (m : Fin 64) (pre : Fin 4), s.canIssue t.val [.p] →
    let th := s.thread t.val
    let gen := s.threadGen th
    let free := fun n => ∀ i < n, m.val + i < 64 → th.reserved (m.val + i) = false
    let pc1 := th.pc + 1
    (th.reqs.length < 2 → s.tableType gen tbl.val ≠ 0 → (s.gr t ra).toNat + s.keyLen gen tbl.val ≤ 256 →
      free 4 →
      Answers (.lkup t ra tbl m false) s (fun u =>
        s.Ran u t.val 0 0 (s.fl t) pc1 ∧ (u.thread t.val).status = .waiting .requests ∧
        (u.thread t.val).m = th.m ∧
        ∃ r, (u.thread t.val).reqs = th.reqs ++ [r] ∧ r.meter = false ∧ r.table = tbl.val ∧ r.m = m.val ∧
          r.denied = !s.running .mem ∧ r.key.length = s.keyLen gen tbl.val ∧
          ∀ i < s.keyLen gen tbl.val, r.key.getD i 0 = th.mbyte ((s.gr t ra).toNat + i)) ∧
      Answers (.lkup t ra tbl m true) s (fun u =>
        s.Ran u t.val 0 0 (s.fl t) pc1 ∧ (u.thread t.val).status ≠ .waiting .requests ∧
        ∃ r, (u.thread t.val).reqs = th.reqs ++ [r] ∧ r.table = tbl.val ∧ r.m = m.val)) ∧
    (th.reqs = [] → s.tableType gen tbl.val = 0 →
      Answers (.lkup t ra tbl m false) s (fun u =>
        s.Ran u t.val 0 0 (s.fl t) pc1 ∧ (u.thread t.val).status = .ready ∧ (u.thread t.val).reqs = [] ∧
        getBit ((u.thread t.val).mword m.val) 0 = false ∧ getBit ((u.thread t.val).mword m.val) 1 = true ∧
        getBits ((u.thread t.val).mword m.val) 8 5 = tbl.val ∧
        (∀ i, i < m.val ∨ m.val + 4 ≤ i → (u.thread t.val).mword i = th.mword i))) ∧
    (2 ≤ th.reqs.length →
      Answers (.lkup t ra tbl m false) s (fun u =>
        u.thread t.val = { th with status := .waiting .slot } ∧ u.regs = s.regs)) ∧
    Answers (.waitl t) s (fun u =>
      s.Ran u t.val 0 0 (s.fl t) pc1 ∧ (u.thread t.val).reqs = th.reqs ∧
      (u.thread t.val).status = if th.reqs = [] then .ready else .waiting .requests) ∧
    (th.reqs.length < 2 → free 1 → (s.gr t ra).toNat < 1024 → 64 ≤ s.metersQueued →
      Answers (.meter t ra m pre) s (fun u =>
        u.thread t.val = { th with status := .waiting .room } ∧ u.regs = s.regs)) ∧
    (th.reqs.length < 2 → free 1 → (s.gr t ra).toNat < 1024 → s.metersQueued < 64 →
      Answers (.meter t ra m pre) s (fun u =>
        s.Ran u t.val 0 0 (s.fl t) pc1 ∧ (u.thread t.val).status = .waiting .requests ∧
        ∃ r, (u.thread t.val).reqs = th.reqs ++ [r] ∧ r.meter = true ∧ r.table = (s.gr t ra).toNat ∧
          r.m = m.val ∧ r.pre = pre.val)))

/-- Rules R158, R163, R185: the header instructions, CSUMH and CNT. HPUSH opens a gap of zeros, HPOP closes
one, and neither lets the header exceed 256 bytes. Rules R126, R158, R182, R185, R188 to R190, R222: the
instructions that act on the frame, and the four that end its program. RECIRC sends the frame to port 36; that
it goes there in the class of M[46] is the model's choice (log entry 137). With 32 frames at step 6 FWD waits.
-/
def Obligations.RitikFrameInstructionsComplete : Prop :=
  (∀ (s : State) (t : ThreadId) (rd ra rb : Gpr), s.canIssue t.val [.p] →
    let th := s.thread t.val
    let a := (s.gr t ra).toNat
    let b := (s.gr t rb).toNat
    let pc1 := th.pc + 1
    (a ≤ th.h.length → th.h.length + b ≤ 256 →
      Answers (.hpush t ra rb) s (fun u =>
        s.Ran u t.val 0 0 (s.fl t) pc1 ∧ (u.thread t.val).m = th.m ∧ u.regs = s.regs ∧
        (u.thread t.val).h.length = th.h.length + b ∧
        ∀ i, (u.thread t.val).h.getD i 0 =
          if i < a then th.h.getD i 0 else if i < a + b then 0 else th.h.getD (i - b) 0)) ∧
    (a + b ≤ th.h.length →
      Answers (.hpop t ra rb) s (fun u =>
        s.Ran u t.val 0 0 (s.fl t) pc1 ∧ (u.thread t.val).m = th.m ∧ u.regs = s.regs ∧
        (u.thread t.val).h.length = th.h.length - b ∧
        ∀ i, (u.thread t.val).h.getD i 0 = if i < a then th.h.getD i 0 else th.h.getD (i + b) 0)) ∧
    (256 < th.h.length + b ∨ th.h.length < a →
      Answers (.hpush t ra rb) s (fun u => (u.thread t.val).status = .idle ∧
        u = (s.issuedFrom t.val).trapNow t.val .hdrOvf)) ∧
    (b = 0 ∨ a + b ≤ 256 →
      Answers (.csumh t rd ra rb) s (fun u => ∃ c < 65536,
        s.Calc u t.val rd.val (BitVec.ofNat 32 c) (s.fl t) ∧
        c % 65535 = ((List.range b).map (fun i =>
          (th.h.getD (a + i) 0).toNat * (if i % 2 = 0 then 256 else 1))).sum % 65535)) ∧
    (a < 1024 →
      Answers (.cnt t ra) s (fun u =>
        s.Ran u t.val 0 0 (s.fl t) pc1 ∧
        u.regs = ((s.bump (Reg.RTK_PAIR_frames_bytes_LOW (2 * a))).bumpBy
          (Reg.RTK_PAIR_frames_bytes_LOW (2 * a + 1)) (s.threadLen th)).regs ∧
        u.frames = s.frames))) ∧
  (∀ (s : State) (t : ThreadId) (ra rb : Gpr) (fmt : Fin 4) (why : BitVec 8) (tgt b : Bool) (f : Nat) (v : Frame),
    s.canIssue t.val [.p] → (s.thread t.val).frame = some f → s.frame f = some v →
    let th := s.thread t.val
    let pc1 := th.pc + 1
    let goesOn := fun (u : State) => s.Ran u t.val 0 0 (s.fl t) pc1 ∧ (u.thread t.val).status = .ready ∧
      (u.thread t.val).frame = some f
    let ends := fun (u : State) => (u.thread t.val).status = .idle ∧ (u.thread t.val).frame = none
    let otherFrames := fun (u : State) => ∀ g, g ≠ f → u.frame g = s.frame g
    (fmt.val ≠ 3 → Answers (.tsins t ra rb fmt b) s (fun u => goesOn u ∧ otherFrames u ∧
      u.frame f = some { v with
        tsins := some (fmt.val, (s.gr t ra).toNat, if b = true then some (s.gr t rb).toNat else none) })) ∧
    ((s.gr t ra).toNat < 1024 → s.hasCip = true → Answers (.seal t ra) s (fun u => goesOn u ∧ otherFrames u ∧
      u.frame f = some { v with sealSa := some (s.gr t ra).toNat })) ∧
    (s.cls.queue.length < 1024 → Answers (.learn t ra rb) s (fun u => goesOn u ∧ u.frames = s.frames ∧
      u.cls.queue = s.cls.queue ++ [.insert v.flowKey ((s.gr t ra).toNat % 65536)
        ((s.gr t rb).toNat % 65536) v.gen v.dirLow v.tcpFlags])) ∧
    (th.reqs = [] → getBit (th.mword 46) 12 = true ∨ getBits (th.mword 46) 0 12 ≤ 35 → 32 ≤ s.atStep6 →
      Answers (.fwd t) s (fun u =>
        u.thread t.val = { th with status := .waiting .room } ∧ u.frames = s.frames)) ∧
    (th.reqs = [] → getBit (th.mword 46) 12 = true ∨ getBits (th.mword 46) 0 12 ≤ 35 → s.atStep6 < 32 →
      Answers (.fwd t) s (fun u => ends u ∧ otherFrames u ∧
        ∃ w, u.frame f = some w ∧ w.stage = .toStream ∧ w.mc = getBit (th.mword 46) 12 ∧
          w.dest = getBits (th.mword 46) 0 12 ∧ w.tc = getBits (th.mword 46) 13 3 ∧
          w.keepIn = getBit (th.mword 46) 16 ∧ w.head = th.h ∧ w.assembled = true ∧ w.bytes = v.bytes)) ∧
    (th.reqs = [] → v.tailIn = true → v.cells = [] →
      Answers (.drop t why) s (fun u => ends u ∧ otherFrames u ∧ u.frame f = none ∧
        u.rd (Reg.RTK_DROP_LOW why.toNat) = (s.bump (Reg.RTK_DROP_LOW why.toNat)).rd
          (Reg.RTK_DROP_LOW why.toNat))) ∧
    (th.reqs = [] → 0x80 ≤ why.toNat →
      Answers (.trap t why tgt) s (fun u => ends u ∧ otherFrames u ∧
        u.regs = (s.bump Cnt.RTK_TRAP_PROG).regs ∧
        ∃ w, u.frame f = some w ∧ w.stage = .toEnqueue ∧ w.exc = some why.toNat ∧
          w.dest = (if tgt = true then 33 else 32) ∧ w.tc = getBits (th.mword 46) 13 3 ∧ w.head = th.h)) ∧
    (th.reqs = [] → v.rcCount < s.rcMax →
      Answers (.recirc t ra b) s (fun u => ends u ∧ otherFrames u ∧
        ∃ w, u.frame f = some w ∧ w.stage = .toEnqueue ∧ w.dest = 36 ∧ w.mc = false ∧ w.mustStore = true ∧
          w.tc = getBits (th.mword 46) 13 3 ∧ w.recirc = true ∧ w.head = th.h ∧ w.rcCount = v.rcCount + 1 ∧
          w.startState = (if b = true then some ((s.gr t ra).toNat % 64) else none) ∧
          w.carried = (List.range 8).map (fun i => th.mword (48 + i)))) ∧
    (th.reqs = [] → s.rcMax ≤ v.rcCount →
      Answers (.recirc t ra b) s (fun u => ends u ∧ otherFrames u ∧
        u.regs = (s.bump Cnt.RTK_RECIRC_LIMIT).regs ∧
        ∃ w, u.frame f = some w ∧ w.stage = .toEnqueue ∧ w.exc = some 0x0C)) ∧
    (th.reqs ≠ [] → Answers (.fwd t) s (fun u =>
      u.thread t.val = { th with status := .waiting .requests } ∧ u.frames = s.frames)))

/-- Rules R159, R358, R395: SNS and TICK of the power sequencers and WAITE of the wake sequencer. Rules R159,
R359: each PDCMD queues its command with its code, its channel, its value and its thread, in the queue of 16
of the thread's sequencer; it stalls while the queue is full and takes UNIT for a channel that does not exist.
HOLD and ATTACH also act on the whole die. -/
def Obligations.RitikPowerInstructionsComplete : Prop :=
  (∀ (s : State) (t : ThreadId) (rd ra : Gpr),
    let th := s.thread t.val
    let pc1 := th.pc + 1
    let ch := s.chan (24 * seqOf t.val + (s.gr t ra).toNat)
    (s.canIssue t.val [.c] → (s.gr t ra).toNat < 24 →
      Answers (.sns t rd ra 0) s (fun u => s.Calc u t.val rd.val (BitVec.ofInt 32 ch.current) (s.fl t)) ∧
      Answers (.sns t rd ra 1) s (fun u => s.Calc u t.val rd.val (BitVec.ofInt 32 ch.junction) (s.fl t)) ∧
      Answers (.sns t rd ra 2) s (fun u => s.Calc u t.val rd.val (BitVec.ofNat 32 ch.voltage) (s.fl t))) ∧
    (s.canIssue t.val [.c] → th.tickPassed = false →
      Answers (.tick t) s (fun u => s.Ran u t.val 0 0 (s.fl t) pc1 ∧ u.regs = s.regs ∧
        (u.thread t.val).status = .waiting .tick ∧ (u.thread t.val).ticked = true)) ∧
    (s.canIssue t.val [.c] → th.tickPassed = true →
      let k := Reg.PWC_THRSTAT (seqOf t.val) (threadNo t.val)
      Answers (.tick t) s (fun u => s.Ran u t.val 0 0 (s.fl t) pc1 ∧
        (u.thread t.val).status = .ready ∧ (u.thread t.val).tickPassed = false ∧
        u.fld k 16 16 = min 65535 (s.fld k 16 16 + 1) ∧
        (s.servedOuts t.val ≠ [] → u.reports = s.reports ++ [⟨0x0316, 0, s.nowNs⟩]) ∧
        (s.servedOuts t.val = [] → u.reports = s.reports))) ∧
    (s.canIssue t.val [.w] → s.wak.taken = none → ∀ (before after : List WakeEvent) (e : WakeEvent),
      s.wak.events = before ++ e :: after → (∀ x ∈ before, getBit (s.gr t ra) x.code = false) →
      getBit (s.gr t ra) e.code = true →
      Answers (.waite t rd ra) s (fun u => s.Ran u t.val rd.val e.word (s.fl t) pc1 ∧
        (u.thread t.val).status = .ready ∧ u.wak.events = before ++ after ∧ u.wak.taken = e.record)) ∧
    (s.canIssue t.val [.w] → s.wak.taken = none → (∀ x ∈ s.wak.events, getBit (s.gr t ra) x.code = false) →
      Answers (.waite t rd ra) s (fun u => s.Ran u t.val 0 0 (s.fl t) pc1 ∧
        (u.thread t.val).status = .waiting (.event rd.val (s.gr t ra)) ∧ u.wak = s.wak)) ∧
    (∀ r < 64, s.canIssue t.val [.w] → s.wak.taken = some r →
      Answers (.waite t rd ra) s (fun u => u.bit (Reg.WAK_REC_w3 r) 16 = true ∧
        (u.thread t.val).pc = pc1))) ∧
  (∀ (s : State) (t : ThreadId) (ra rb : Gpr), s.canIssue t.val [.c] →
    let d := seqOf t.val
    let c := (s.gr t ra).toNat
    let queues := fun (i : Instr) (code : Nat) => Answers i s fun u =>
      s.Ran u t.val 0 0 (s.fl t) ((s.thread t.val).pc + 1) ∧
      (u.die d).queue = (s.die d).queue ++ [⟨code, c, s.gr t rb, threadNo t.val⟩] ∧
      (∀ e < 2, e ≠ d → u.die e = s.die e) ∧ (∀ n, u.chan n = s.chan n) ∧ u.regs = s.regs
    let stalls := fun (i : Instr) => Answers i s fun u =>
      u.thread t.val = { s.thread t.val with status := .waiting .room } ∧ u.power = s.power
    let refuses := fun (i : Instr) => Answers i s fun u =>
      (u.thread t.val).status = .trapped ∧ (u.die d).queue = (s.die d).queue
    (c < 24 → (s.die d).queue.length < 16 →
      queues (.on t ra rb) 1 ∧ queues (.off t ra rb) 2 ∧ queues (.duty t ra rb) 3 ∧ queues (.trip t ra rb) 4 ∧
      queues (.clear t ra rb) 5 ∧ queues (.thmode t ra rb) 6 ∧ queues (.hold t ra rb) 7 ∧
      queues (.attach t ra rb) 8 ∧ queues (.runoutclr t ra rb) 9 ∧ queues (.calgain t ra rb) 10) ∧
    (c = 255 → (s.die d).queue.length < 16 → queues (.hold t ra rb) 7 ∧ queues (.attach t ra rb) 8) ∧
    (c < 24 → 16 ≤ (s.die d).queue.length →
      stalls (.on t ra rb) ∧ stalls (.off t ra rb) ∧ stalls (.duty t ra rb) ∧ stalls (.trip t ra rb) ∧
      stalls (.clear t ra rb) ∧ stalls (.thmode t ra rb) ∧ stalls (.hold t ra rb) ∧
      stalls (.attach t ra rb) ∧ stalls (.runoutclr t ra rb) ∧ stalls (.calgain t ra rb)) ∧
    (24 ≤ c → c ≠ 255 →
      refuses (.on t ra rb) ∧ refuses (.off t ra rb) ∧ refuses (.duty t ra rb) ∧ refuses (.trip t ra rb) ∧
      refuses (.clear t ra rb) ∧ refuses (.thmode t ra rb) ∧ refuses (.hold t ra rb) ∧
      refuses (.attach t ra rb) ∧ refuses (.runoutclr t ra rb) ∧ refuses (.calgain t ra rb)) ∧
    (c = 255 → refuses (.on t ra rb) ∧ refuses (.off t ra rb) ∧ refuses (.duty t ra rb) ∧
      refuses (.trip t ra rb) ∧ refuses (.clear t ra rb) ∧ refuses (.thmode t ra rb) ∧
      refuses (.runoutclr t ra rb) ∧ refuses (.calgain t ra rb)))

/-- Rules R160, R161, R174 to R180, R187, R192: dispatch of a frame to the thread that its hash names, the
start of its program on the thread, the completion of a request, and the program time limit. That the order of
classification is kept at dispatch per ingress port is read from R18 and R107 (log entry 125). Rules R40,
R145, R171, R172, R194: the image loaders. GO begins a load; its end writes the image's sections and fills the
program memory that no image occupies with zeros, or gives the first check that the image fails. A scrub
reports what it corrected or could not. -/
def Obligations.EngineAndLoaderCommandsComplete : Prop :=
  ((∀ (s : State) (f : FrameId) (v : Frame), s.frame f = some v → v.stage = .toDispatch →
    s.blkAccepts 0x10 = true → s.up .classify = true → s.heldUpAt f v [.toDispatch] false = false →
    (∀ x, s.laneStall (laneOf v) = some x → x = f) →
    let t := v.hash.toNat / 65536 * 192 / 65536
    (s.clusterUp t = true → (s.dispatchQueue t).length < 16 →
      Answers (.frameDispatch f) s fun u =>
        u.dispatchQueue t = s.dispatchQueue t ++ [f] ∧
        (∀ x, x ≠ t → u.dispatchQueue x = s.dispatchQueue x) ∧
        u.frame f = some { v with stage := .waiting } ∧ (∀ g, g ≠ f → u.frame g = s.frame g) ∧
        u.laneStall (laneOf v) = none ∧
        u.regs = ((s.bump Cnt.RTK_DISPATCH).monEvent (0x180 + t / 64)).regs) ∧
    (s.clusterUp t = true → 16 ≤ (s.dispatchQueue t).length →
      Answers (.frameDispatch f) s fun u =>
        u.laneStall (laneOf v) = some f ∧ u.frames = s.frames ∧ u.regs = s.regs) ∧
    (s.clusterUp t = false →
      Answers (.frameDispatch f) s fun u =>
        (∃ w, u.frame f = some w ∧ w.stage = .toEnqueue ∧ w.exc = some 0x0A ∧ w.dest = s.fltPort ∧
          w.tc = s.excTc) ∧
        u.regs = (s.bump Cnt.RTK_RTK_OFFLINE).regs)) ∧
  (∀ (s : State) (t : ThreadId) (f : Nat) (rest : List Nat) (v : Frame), t.val < 192 →
    (s.thread t.val).status = .idle → s.blkAccepts 0x10 = true → s.up .ritik = true →
    s.dispatchQueue t.val = f :: rest →
    s.frame f = some v → v.orphan = false → s.clusterUp t.val = true → v.action < 16384 →
    s.recordGood v.action = true →
    let w0 := s.rdLive liveBank (Reg.RTK_ACTION_w0 v.action)
    (v.tailIn = false → v.bytes.length < headerLoad w0 → Answers (.threadStart t) s fun u => u = s) ∧
    (v.tailIn = true ∨ headerLoad w0 ≤ v.bytes.length →
    s.cellBad (.live liveBank (Reg.RTK_ENTRY (getBits w0 0 12))) = false →
    Answers (.threadStart t) s fun u =>
      (u.thread t.val).startedAt = s.nowNs ∧
      (u.thread t.val).status = .ready ∧ (u.thread t.val).frame = some f ∧
      (u.thread t.val).pc = BitVec.ofNat 32 (s.fldLive liveBank (Reg.RTK_ENTRY (getBits w0 0 12)) 0 15) ∧
      (u.thread t.val).regs = [] ∧ (u.thread t.val).flags = {} ∧ (u.thread t.val).issued = 0 ∧
      (u.thread t.val).h = v.bytes.take (headerLoad w0) ∧
      u.dispatchQueue t.val = rest ∧
      (∃ w, u.frame f = some w ∧ w.stage = .running ∧ w.hlen0 = min (headerLoad w0) v.bytes.length) ∧
      u.regs = s.regs)) ∧
  (∀ (s : State) (t : ThreadId) (f : Nat) (rest : List Nat) (v : Frame), t.val < 192 →
    (s.thread t.val).status = .idle → s.blkAccepts 0x10 = true → s.up .ritik = true →
    s.dispatchQueue t.val = f :: rest →
    s.frame f = some v → v.orphan = false → s.clusterUp t.val = true →
    16384 ≤ v.action ∨ s.recordGood v.action = false →
    Answers (.threadStart t) s fun u =>
      u.thread t.val = s.thread t.val ∧ u.dispatchQueue t.val = rest ∧
      u.regs = (s.bump Cnt.RTK_NO_ACTION).regs ∧
      ∃ w, u.frame f = some w ∧ w.stage = .toEnqueue ∧ w.exc = some 0x0B) ∧
  (∀ (s : State) (t : ThreadId) (i : Fin 2) (r : Request), (s.thread t.val).reqs[i.val]? = some r →
    r.meter = false → r.held = [] → r.denied = false → s.banksGone (s.thread t.val) = false → s.tableType (s.threadGen (s.thread t.val)) r.table = 1 →
    s.descBad (s.threadGen (s.thread t.val)) r.table = false →
    let gen := s.threadGen (s.thread t.val)
    let k := natLE r.key
    let a := s.tableBase gen r.table + 32 * k
    k < s.fldLive gen (Reg.RTK_TBLDESC_w3 r.table) 0 24 →
    s.memCheckRange engineMaster a 32 .read = none → s.badMem a 32 = none →
    (s.rdByte (a + 16)).getLsbD 0 = true → r.m + 4 ≤ 64 →
    Answers (.lookupComplete t i) s fun u =>
      (u.thread t.val).reqs = (s.thread t.val).reqs.eraseIdx i.val ∧
      getBit ((u.thread t.val).mword r.m) 0 = true ∧ getBit ((u.thread t.val).mword r.m) 1 = false ∧
      getBits ((u.thread t.val).mword r.m) 16 16 = s.rdMem32 (a + 16) / 65536 ∧
      ((u.thread t.val).mword (r.m + 1)).toNat = s.rdMem32 (a + 20) ∧
      ((u.thread t.val).mword (r.m + 2)).toNat = s.rdMem32 (a + 24) ∧
      ((u.thread t.val).mword (r.m + 3)).toNat = s.rdMem32 (a + 28) ∧
      ((u.thread t.val).reqs = [] → (s.thread t.val).status = .waiting .requests →
        (u.thread t.val).status = .ready)) ∧
  (∀ (s : State) (t : ThreadId) (i : Fin 2) (r : Request), (s.thread t.val).reqs[i.val]? = some r →
    r.meter = false → r.denied = true → 8 ≤ r.table → r.held = [] → r.m < 64 →
    Answers (.lookupComplete t i) s fun u =>
      getBit ((u.thread t.val).mword r.m) 0 = false ∧ getBit ((u.thread t.val).mword r.m) 1 = true ∧
      u.regs = (s.bump Cnt.RTK_LKUP_ERR).regs ∧
      (u.thread t.val).reqs = (s.thread t.val).reqs.eraseIdx i.val) ∧
  (∀ (s : State) (t : ThreadId) (i : Fin 2) (r : Request), (s.thread t.val).reqs[i.val]? = some r →
    r.meter = true → r.m < 64 →
    Answers (.lookupComplete t i) s fun u =>
      (u.thread t.val).mword r.m = ((r.held.filter (fun x => x.1 == r.m)).getLast?.map (·.2)).getD
        (BitVec.ofNat 32 (s.meterUpdate r.table (s.threadLen (s.thread t.val)) r.pre).1) ∧
      (u.thread t.val).reqs = (s.thread t.val).reqs.eraseIdx i.val) ∧
  (∀ (s : State) (t : ThreadId) (w : Waiting), t.val < 192 →
    (s.thread t.val).status = .ready ∨ (s.thread t.val).status = .waiting w →
    6 * (s.nowNs - (s.thread t.val).startedAt) < 80 * max 1 (s.fld Reg.RTK_BUDGET 0 16) →
    Answers (.programBudgetExpiry t) s fun u => u = s) ∧
  (∀ (s : State) (t : ThreadId) (w : Waiting), t.val < 192 →
    (s.thread t.val).status = .ready ∨ (s.thread t.val).status = .waiting w →
    80 * max 1 (s.fld Reg.RTK_BUDGET 0 16) ≤ 6 * (s.nowNs - (s.thread t.val).startedAt) →
    let pc := (s.thread t.val).pc.toNat % 2 ^ 15
    Answers (.programBudgetExpiry t) s fun u =>
      (u.thread t.val).status = .idle ∧
      (u.thread t.val).mword 63 = BitVec.ofNat 32 (8 + 65536 * pc) ∧
      ⟨0x0108, 8 + 64 * (t.val % 8) + 512 * (t.val / 8) + 65536 * pc, s.nowNs⟩ ∈ u.reports) ∧
  (∀ (s : State) (t : ThreadId), (s.thread t.val).status = .halted →
    Answers (.programBudgetExpiry t) s fun u => u = s)) ∧
  ((∀ (s : State) (m : Master) (e : BitVec 12) (c : Bool), s.admits m Reg.RTK_LOADCTL →
    s.bit Reg.RTK_LOADSTAT 0 = false →
    Answers (.rtkImageLoad m e c) s fun t =>
      t.bit Reg.RTK_LOADSTAT 0 = true ∧ t.fld Reg.RTK_LOADCTL 0 12 = e.toNat ∧ t.bit Reg.RTK_LOADCTL 16 = c ∧
      t.load_ .rtk = { busy := true, indigo := m.indigo, pmid := m.pmid.toNat } ∧ t.mem = s.mem) ∧
  (∀ (s : State) (m : Master), s.admits m (Reg.PWC_LOADCTL 0) → s.bit (Reg.PWC_LOADSTAT 0) 0 = false →
    s.blkEn 0x24 = false →
    Answers (.pwcImageLoad m .a) s fun t =>
      t.bit (Reg.PWC_LOADSTAT 0) 0 = true ∧
      t.load_ .pwcA = { busy := true, indigo := m.indigo, pmid := m.pmid.toNat }) ∧
  (∀ (s : State) (m : Master), s.admits m (Reg.PWC_LOADCTL 1) → s.bit (Reg.PWC_LOADSTAT 1) 0 = false →
    s.blkEn 0x25 = false →
    Answers (.pwcImageLoad m .b) s fun t =>
      t.bit (Reg.PWC_LOADSTAT 1) 0 = true ∧
      t.load_ .pwcB = { busy := true, indigo := m.indigo, pmid := m.pmid.toNat }) ∧
  (∀ (s : State) (m : Master), s.edgeBehind 0x26 = false → s.admits m Reg.WAK_LOADCTL → s.bit Reg.WAK_LOADSTAT 0 = false →
    s.blkEn 0x26 = false →
    Answers (.wakImageLoad m) s fun t =>
      t.bit Reg.WAK_LOADSTAT 0 = true ∧
      t.load_ .wak = { busy := true, indigo := m.indigo, pmid := m.pmid.toNat }) ∧
  (∀ (s : State) (l : Loader) (c : Nat), (s.load_ l).busy = true →
    s.readImage l (s.load_ l) = .error (c, 0, 0) →
    Answers (.imageLoadDone l) s fun t =>
      t.load_ l = {} ∧ t.fld (loadStat l) 8 4 = c ∧ t.bit (loadStat l) 0 = false ∧ t.bit (loadStat l) 1 = true ∧
      (∀ k, k ≠ loadStat l → t.rd k = s.rd k) ∧ t.live = s.live ∧ t.rtk.mem = s.rtk.mem) ∧
  (∀ (s : State) (l : Loader) (c a n : Nat), (s.load_ l).busy = true → n ≠ 0 →
    s.readImage l (s.load_ l) = .error (c, a, n) →
    Answers (.imageLoadDone l) s fun t =>
      t.load_ l = {} ∧ t.fld (loadStat l) 8 4 = c % 16 ∧ t.bit (loadStat l) 0 = false ∧
      t.bit (loadStat l) 1 = true ∧
      ∀ k, k ≠ loadStat l → t.rd k = (s.busRead ⟨BitVec.ofNat 6 (s.load_ l).pmid, (s.load_ l).indigo⟩ a n).2.rd k) ∧
  (∀ (s : State) (l : Loader) (g : Image), l ≠ .rtk → (s.load_ l).busy = true →
    s.readImage l (s.load_ l) = .ok g → g.textBase + (wordsLE g.text).length ≤ pmemSize (loadProfile l) →
    Answers (.imageLoadDone l) s fun t =>
      t.load_ l = {} ∧ t.fld (loadStat l) 8 4 = 0 ∧ t.bit (loadStat l) 0 = false ∧ t.bit (loadStat l) 1 = true ∧
      Store.get (fun _ => []) t.rtk.entries (loaderIx l - 1) = wordsLE g.entries ∧
      (∀ i, i < (wordsLE g.text).length → t.engWord (8192 * (loaderIx l - 1) + g.textBase + i) =
        (wordsLE g.text).getD i 0) ∧
      (∀ i < 8192, i < g.textBase ∨ g.textBase + (wordsLE g.text).length ≤ i →
        t.engWord (8192 * (loaderIx l - 1) + i) = 0) ∧ t.mem = s.mem) ∧
  (∀ (s : State) (g : Image), (s.load_ .rtk).busy = true → s.readImage .rtk (s.load_ .rtk) = .ok g →
    s.tablePending 0x10 3 = false → g.textBase + (wordsLE g.text).length ≤ 32768 →
    Answers (.imageLoadDone .rtk) s fun t =>
      t.load_ .rtk = {} ∧
      t.fld Reg.RTK_LOADSTAT 8 4 =
        (if s.bit Reg.RTK_LOADCTL 16 = true ∧ (s.commit 0x10).active = true then 8 else 0) ∧ t.bit Reg.RTK_LOADSTAT 0 = false ∧
      t.bit Reg.RTK_LOADSTAT 1 = true ∧
      ∀ i, i < (wordsLE g.text).length →
        t.rd (Reg.RTK_PMEM (g.textBase + i)) = (wordsLE g.text).getD i 0) ∧
  (∀ (s : State) (g : Image), (s.load_ .rtk).busy = true → s.readImage .rtk (s.load_ .rtk) = .ok g →
    s.tablePending 0x10 3 = true →
    Answers (.imageLoadDone .rtk) s fun t =>
      t.load_ .rtk = {} ∧ t.live = s.live ∧ ∀ i < 32768, t.rd (Reg.RTK_PMEM i) = s.rd (Reg.RTK_PMEM i)) ∧
  (∀ (s : State) (k : Nat), k / 0x100000 = 0x23 →
    Answers (.memoryScrub (.reg k) true) s (fun t => t.cellBad (.reg k) = true ∧
      ⟨0x200B, 4, s.nowNs⟩ ∈ t.reports) ∧
    Answers (.memoryScrub (.reg k) false) s (fun t => t.eccBad = s.eccBad ∧
      ⟨0x100A, 4, s.nowNs⟩ ∈ t.reports)) ∧
  (∀ (s : State) (e : Nat), Answers (.memoryScrub (.flow e) true) s (fun t =>
    t.flowEntry e = [] ∧ ⟨0x10C2, 0, s.nowNs⟩ ∈ t.reports ∧
    ∀ x, x ≠ e → t.flowEntry x = s.flowEntry x)) ∧
  (∀ (s : State) (n : Fin 7),
    Answers (.memoryScrub (.array n) true) s (fun t => t.eccBad = s.eccBad ∧
      ⟨0x200B, n.val, s.nowNs⟩ ∈ t.reports) ∧
    Answers (.memoryScrub (.array n) false) s (fun t => t.eccBad = s.eccBad ∧
      ⟨0x100A, n.val, s.nowNs⟩ ∈ t.reports)) ∧
  (∀ (s : State) (i : Nat), Answers (.memoryScrub (.engine i) true) s (fun t =>
    t.cellBad (.engine i) = true ∧ t.regs = s.regs ∧ t.rtk = s.rtk)) ∧
  (∀ (s : State) (k : Nat), 0x10 ≤ k / 0x100000 → k / 0x100000 ≤ 0x13 →
    Answers (.memoryScrub (.reg k) true) s (fun t => t.cellBad (.reg k) = true ∧
      ⟨0x2111, (0x40000000 + k) % 2 ^ 32, s.nowNs⟩ ∈ t.reports)))

/-- Rules R212 to R219: step 6 of the frame path and the timers of recovery functions. A frame without a
stream, or with the stream function off, goes on as it is; a blocked filter drops it; a filter without meter
and function passes it; a recovery function counts the frame that it takes first. With 64 meter updates queued
a filter with a meter waits (R222). Frames of one flow pass in their order (R18, log entry 125). Rules R200 to
R203, R215: meters, shapers, the choice of a frame for an idle port and the end of its transmission. A filled
meter holds its burst sizes; a shaper that becomes enabled starts with credit 0; the frame chosen is the head
of an eligible queue, strict classes first. -/
def Obligations.StreamAndTransmitCommandsComplete : Prop :=
  ((∀ (s : State) (f : FrameId) (v : Frame), s.frame f = some v → v.stage = .toStream →
    v.readyForStep6 = true → s.up .tm = true → s.heldUpAt f v [.toStream] true = false →
    s.blkEn 0x16 = false ∨ s.streamHandle v = none →
    Answers (.streamStage f) s fun t => t = (s.setFrame f { v with stage := .toEnqueue }).wakeRoom) ∧
  (∀ (s : State) (f : FrameId) (v : Frame) (h : Nat), s.frame f = some v → v.stage = .toStream →
    v.readyForStep6 = true → s.up .tm = true → s.heldUpAt f v [.toStream] true = false →
    s.blkEn 0x16 = true → s.streamHandle v = some h → h < 2048 → s.filterWaits h = true →
    Answers (.streamStage f) s fun t => t = s) ∧
  (∀ (s : State) (f : FrameId) (v : Frame) (h : Nat), s.frame f = some v → v.stage = .toStream →
    v.readyForStep6 = true → s.up .tm = true → s.heldUpAt f v [.toStream] true = false →
    s.blkEn 0x16 = true → s.streamHandle v = some h → h < 2048 → s.filterWaits h = false →
    let w0 := s.rdLive liveBank (Reg.TM_FILTER_w0 h)
    let w1 := s.rdLive liveBank (Reg.TM_FILTER_w1 h)
    let fn := getBits w1 0 10
    let frer0 := s.rdLive liveBank (Reg.TM_FRER_w0 fn)
    (s.filterBlocked h = true →
      Answers (.streamStage f) s fun t =>
        t = (((s.bump (Cnt.TMF_MATCH h)).bump (Cnt.TMF_SDU_DROP h)).dropFrame f).wakeRoom) ∧
    (s.filterBlocked h = false → getBits w0 16 14 ≠ 0 → getBits w0 16 14 < v.len →
      Answers (.streamStage f) s fun t =>
        (v.tailIn = true → v.cells = [] → t.frame f = none) ∧
        t.filterBlocked h = getBit w0 14 ∧ t.rd (Cnt.TMF_SDU_DROP h) = (s.bump (Cnt.TMF_SDU_DROP h)).rd
          (Cnt.TMF_SDU_DROP h)) ∧
    (s.filterBlocked h = false → getBits w0 16 14 = 0 ∨ v.len ≤ getBits w0 16 14 → getBit w0 10 = false →
      getBit w1 10 = false ∨ s.blkEn 0x17 = false ∨ s.frerValid fn = false →
      Answers (.streamStage f) s fun t =>
        t = ((s.bump (Cnt.TMF_MATCH h)).setFrame f { v with stage := .toEnqueue }).wakeRoom) ∧
    (s.filterBlocked h = false → getBits w0 16 14 = 0 → getBit w0 10 = false → getBit w1 10 = true →
      s.blkEn 0x17 = true → s.frerValid fn = true → getBit frer0 1 = false → getBit v.m56 28 = true →
      (s.frer fn).takeAny = true →
      Answers (.streamStage f) s fun t =>
        t.frame f = some { v with stage := .toEnqueue } ∧ (t.frer fn).seq = getBits v.m56 12 16 ∧
        (t.frer fn).takeAny = false ∧ (t.frer fn).timed = true ∧ (t.frer fn).lastPass = s.nowNs ∧
        (t.frer fn).hist = (List.range (getBits frer0 2 6 + 1)).map (fun i => i == 0)) ∧
    (s.filterBlocked h = false → getBits w0 16 14 = 0 → getBit w0 10 = false → getBit w1 10 = true →
      s.blkEn 0x17 = true → s.frerValid fn = true → getBit frer0 1 = false → getBit v.m56 28 = true →
      (s.frer fn).takeAny = false → (s.frer fn).seq = getBits v.m56 12 16 → (s.frer fn).hist.getD 0 false = true →
      Answers (.streamStage f) s fun t =>
        t = (((s.bump (Cnt.TMF_MATCH h)).bump (Cnt.TMR_ELIMINATED fn)).dropFrame f).wakeRoom) ∧
    (s.filterBlocked h = false → getBits w0 16 14 = 0 → getBit w0 10 = false → getBit w1 10 = true →
      s.blkEn 0x17 = true → s.frerValid fn = true → getBit frer0 1 = true → getBit v.m57 8 = false →
      Answers (.streamStage f) s fun t =>
        t.frame f = some { v with stage := .toEnqueue } ∧
        (t.frer fn).seq = ((s.frer fn).seq + 1) % 65536)) ∧
  (∀ (s : State) (f : Fin 1024), s.recoveryRuns f.val = true → (s.frer f.val).timed = true →
    let due := (s.frer f.val).lastPass + 1000000 * max 1 (s.fldLive liveBank (Reg.TM_FRER_w1 f.val) 0 16)
    (s.nowNs < due → Answers (.frerResetTimer f) s fun t => t = s) ∧
    (due ≤ s.nowNs → Answers (.frerResetTimer f) s fun t =>
      t.frer f.val = { s.frer f.val with takeAny := true, timed := false } ∧
      (∀ g, g ≠ f.val → t.frer g = s.frer g) ∧ t.regs = (s.bump (Cnt.TMR_RESETS f.val)).regs)) ∧
  (∀ (s : State) (f : Fin 1024), s.recoveryRuns f.val = true → (s.frer f.val).silent = false →
    s.fldLive liveBank (Reg.TM_FRER_w2 f.val) 0 16 ≠ 0 →
    let grace := if (s.frer f.val).recovering then s.fldLive liveBank (Reg.TM_FRER_w2 f.val) 16 16 else 0
    let due := (s.frer f.val).lastPass
      + 1000000 * (s.fldLive liveBank (Reg.TM_FRER_w2 f.val) 0 16 + grace)
    (s.nowNs < due → Answers (.frerWatchdogExpiry f) s fun t => t = s) ∧
    (due ≤ s.nowNs → Answers (.frerWatchdogExpiry f) s fun t =>
      t.frer f.val = { s.frer f.val with silent := true } ∧
      t.reports = s.reports ++ [⟨0x2141, f.val, s.nowNs⟩])) ∧
  (∀ (s : State) (f : Fin 1024), s.recoveryRuns f.val = false →
    Answers (.frerResetTimer f) s (fun t => t = s) ∧ Answers (.frerWatchdogExpiry f) s (fun t => t = s))) ∧
  ((∀ (s : State) (m : Master) (n : Fin 1024) (data : Word), s.admits m (Reg.TM_METER_w4 n.val) →
    Answers (.meterFill m n data) s fun t =>
      (t.meter n.val).bc = s.fld (Reg.TM_METER_w1 n.val) 0 24 * 8000000 ∧
      (t.meter n.val).be = s.fld (Reg.TM_METER_w3 n.val) 0 24 * 8000000 ∧ (t.meter n.val).at_ = s.nowNs ∧
      t.bit (Reg.TM_METER_w4 n.val) 0 = data.getLsbD 0 ∧
      ∀ x, x ≠ n.val → t.meter x = s.meter x) ∧
  (∀ (s : State) (m : Master) (p : Port) (data : Word), s.admits m (Reg.TM_SELCFG p.val) →
    Answers (.selcfgWrite m p data) s fun t =>
      t.rdN (Reg.TM_SELCFG p.val) = data.toNat % 65536 ∧
      (p.val < 32 → selcfgLegal data = false → t.bit (Reg.TM_GSTAT p.val) 23 = true) ∧
      (∀ c < 8, s.shaped p.val c = false → (t.tmPort p.val).credits.getD c 0 = 0) ∧
      ∀ q, q ≠ p.val → t.tmPort q = s.tmPort q) ∧
  (∀ (s : State) (p : Port) (e : Bool) (l : BitVec 16),
    let s1 := s.settlePreempt p.val
    let s2 := s1.settleCredits p.val
    (e = false → ∀ x, (s1.tmPort p.val).preempt = some x →
      (s2.mayResume p.val x = true → Answers (.selectionOpportunity p e l) s fun t =>
        t = s2.setTmPort p.val
          { s2.tmPort p.val with preempt := some { x with paused := false, since := s.nowNs } }) ∧
      (s2.mayResume p.val x = false → Answers (.selectionOpportunity p e l) s fun t => t = s2)) ∧
    (e = true ∨ (s1.tmPort p.val).preempt = none → s1.macFree p.val e = false →
      Answers (.selectionOpportunity p e l) s fun t => t = s1) ∧
    (e = true ∨ (s1.tmPort p.val).preempt = none → s1.macFree p.val e = true →
      (∀ c < 8, s.headFrame p.val c = none) →
      Answers (.selectionOpportunity p e l) s fun t =>
        t.frames = s.frames ∧ t.regs = s.regs ∧ (t.tmPort p.val).express = (s1.tmPort p.val).express ∧
        (t.tmPort p.val).preempt = (s1.tmPort p.val).preempt)) ∧
  (∀ (s : State) (p : Port) (l : BitVec 16) (c f : Nat) (v : Frame),
    (s.settlePreempt p.val).macFree p.val true = true →
    c < 8 → s.headFrame p.val c = some (f, v) → (∀ d < 8, d ≠ c → s.headFrame p.val d = none) →
    ((s.settlePreempt p.val).settleCredits p.val).eligible p.val c true = true →
    s.bit (Reg.TM_SELCFG p.val) c = true → v.tailIn = true →
    s.maxWin p.val c = 0xFFFFFFF → v.copyLen p.val ≤ s.maxSdu p.val c →
    let starts := fun (y : Option Seal) (t : State) =>
      (∃ x, (t.tmPort p.val).express = some x ∧ x.frame = f ∧ x.cls = c ∧ x.sealing = y ∧
        x.since = s.nowNs ∧ x.paused = false) ∧
      (∃ w, t.frame f = some w ∧ p.val ∈ w.headLeft) ∧ ∀ g, g ≠ f → t.frame g = s.frame g
    (s.sealVerdict p.val v = .plain →
      Answers (.selectionOpportunity p true l) s fun t => starts none t ∧ t.cip = s.cip) ∧
    (∀ sa pn, s.sealVerdict p.val v = .sealed sa pn → s.sealRoom p.val = true →
      Answers (.selectionOpportunity p true l) s fun t =>
        starts (some (s.sealNow sa pn)) t ∧ t.nextPn sa = (s.setNextPn sa (pn + 1)).nextPn sa) ∧
    (∀ sa pn, s.sealVerdict p.val v = .sealed sa pn → s.sealRoom p.val = false →
      Answers (.selectionOpportunity p true l) s fun t =>
        t.frames = s.frames ∧ (t.tmPort p.val).express = none ∧ (t.tmPort p.val).sealWait = true ∧
        t.regs = s.regs)) ∧
  (∀ (s : State) (p : Port) (e : Bool),
    (if e = true then (s.tmPort p.val).express else (s.tmPort p.val).preempt) = none →
    Answers (.frameTransmitEnd p e) s fun t => t = s.settlePreempt p.val) ∧
  (∀ (s : State) (p : Port) (x : Sending) (v : Frame), (s.tmPort p.val).express = some x →
    s.frame x.frame = some v → s.canEnd p.val x v = false →
    Answers (.frameTransmitEnd p true) s fun t => t = s.settlePreempt p.val) ∧
  (∀ (s : State) (p : Port) (x : Sending), (s.tmPort p.val).express = some x → s.frame x.frame = none →
    Answers (.frameTransmitEnd p true) s fun t =>
      (t.tmPort p.val).express = none ∧ t.frames = s.frames ∧ t.regs = s.regs) ∧
  (∀ (s : State) (p : Port) (x : Sending) (v : Frame), p.val < 32 → (s.tmPort p.val).express = some x →
    s.frame x.frame = some v → v.tailIn = true → v.assembled = false → v.tsins = none → v.stomps = [] →
    x.sealing = none → x.spoiled = none → s.canEnd p.val x v = true → s.secyActive p.val = false →
    v.copyLen p.val ≤ s.maxFrm p.val → v.copyLen p.val ≤ s.maxSdu p.val x.cls →
    s.bit (Reg.PRT_PCTRL p.val) 3 = false → (∀ c < 8, c ≠ x.cls → s.stage p.val c = []) →
    (∀ y ∈ s.stage p.val x.cls, y.1 = x.frame) →
    let s2 := (s.settlePreempt p.val).settleCredits p.val
    let sent := v.bytes ++ List.replicate (60 - v.bytes.length) 0
    exec (.frameTransmitEnd p true) s = .next
      (((s2.setTmPort p.val { s2.tmPort p.val with express := none }).endFrame p.val x v).headChecks p.val) ∧
    Answers (.frameTransmitEnd p true) s fun t =>
      Store.get (fun _ => []) t.fab.lastOut p.val = sent ++ bytesLE 4 (crc32 sent) ∧
      (t.tmPort p.val).express = none))

/-- Rules R205 to R210: the events of a port's list. Without an operational list nothing happens; an entry's
end begins the next entry or the next cycle; a pending list becomes operational at its time; the hold is
asserted ahead of an entry that asks for it, that of a pending list included. -/
def Obligations.GateListCommandsComplete : Prop :=
  (∀ (s : State) (p : ExtPort), (s.tmPort p.val).oper = none ∨ s.hasPort p.val = false ∨ s.up .tm = false →
    Answers (.gateEntryChange p) s (fun t => t = s)) ∧
  (∀ (s : State) (p : ExtPort), (s.tmPort p.val).pend = none →
    (s.tmPort p.val).oper = none ∨ (s.tmPort p.val).started = false →
    Answers (.gateHoldAssert p) s (fun t => t = s)) ∧
  (∀ (s : State) (p : ExtPort) (a : ListParams), (s.tmPort p.val).oper = some a → s.hasPort p.val = true →
    s.up .tm = true →
    let t0 := s.tmPort p.val
    let stop := s.entryEnd p.val a t0.entry t0.offset
    let holds := fun (t : State) =>
      { t.tmPort p.val with preempt := none } = { t0 with hold := true, preempt := none } ∧
      (t0.preempt = none → (t.tmPort p.val).preempt = none) ∧ ∀ q, q ≠ p.val → t.tmPort q = s.tmPort q
    (t0.started = false → Answers (.gateEntryChange p) s fun t =>
      (t.tmPort p.val).started = true ∧ (t.tmPort p.val).entry = t0.entry) ∧
    (t0.started = true → stop < a.cycle → Answers (.gateEntryChange p) s fun t =>
      (t.tmPort p.val).entry = t0.entry + 1 ∧ (t.tmPort p.val).offset = stop ∧
      (t.tmPort p.val).cycleStart = t0.cycleStart ∧
      (s.entryOp p.val (t0.entry + 1) = 1 → (t.tmPort p.val).hold = true) ∧
      (s.entryOp p.val (t0.entry + 1) = 2 → (t.tmPort p.val).hold = false) ∧
      (s.entryOp p.val (t0.entry + 1) = 0 → (t.tmPort p.val).hold = t0.hold)) ∧
    (t0.started = true → a.cycle ≤ stop → t0.extended a = false → Answers (.gateEntryChange p) s fun t =>
      (t.tmPort p.val).entry = 0 ∧ (t.tmPort p.val).offset = 0 ∧ (t.tmPort p.val).realign = false ∧
      (t0.realign = false → (t.tmPort p.val).cycleStart = t0.cycleStart + 65536 * a.cycle)) ∧
    (t0.started = true → a.cycle ≤ stop → t0.extended a = true → Answers (.gateEntryChange p) s fun t =>
      (t.tmPort p.val).entry = t0.entry ∧ t.regs = s.regs) ∧
    (t0.started = true → t0.pend = none → s.entryOp p.val (if stop < a.cycle then t0.entry + 1 else 0) = 1 →
      Answers (.gateHoldAssert p) s holds) ∧
    (∀ b change, t0.pend = some (b, change) →
      change ≤ s.listNow p.val + 65536 * 8 * s.fld (Reg.TM_PORTCFG p.val) 4 8 →
      s.preemptActive p.val = true → s.fldLive pendBank (Reg.TM_LIST_w0 p.val 0) 8 2 = 1 →
      Answers (.gateHoldAssert p) s holds)) ∧
  (∀ (s : State) (p : ExtPort), (s.tmPort p.val).pend = none →
    Answers (.listChangeTime p) s fun t => t = s) ∧
  (∀ (s : State) (p : ExtPort) (a : ListParams) (change : Nat), s.canonical = true → s.up .tm = true →
    (s.tmPort p.val).pend = some (a, change) →
    Answers (.listChangeTime p) s fun t =>
      (t.tmPort p.val).oper = some a ∧ (t.tmPort p.val).pend = none ∧ (t.tmPort p.val).started = true ∧
      (t.tmPort p.val).cycleStart = change ∧ (t.tmPort p.val).entry = 0 ∧ (t.tmPort p.val).offset = 0 ∧
      t.rdN (Reg.TM_OPERCYCLE p.val) = a.cycle % 2 ^ 32 ∧
      ∀ e < 1024, t.rdLive liveBank (Reg.TM_LIST_w0 p.val e) = s.rdLive pendBank (Reg.TM_LIST_w0 p.val e) ∧
        t.rdLive liveBank (Reg.TM_LIST_w1 p.val e) = s.rdLive pendBank (Reg.TM_LIST_w1 p.val e))

/-- Rules R225 to R230, R236, R240: the domains of the time unit: their states, samples, the setting of their
time, snapshots and conversions. -/
def Obligations.DomainCommandsComplete : Prop :=
  (∀ (s : State) (m : Master) (d : Fin 4), s.admits m (Reg.TIM_DOMCFG d.val) → s.domEn d.val = false →
    s.bit (Reg.TIM_DOMCFG d.val) 1 = false → s.domState d.val = 0 →
    Answers (.domainEnable m d) s fun t =>
      t.domEn d.val = true ∧ t.domState d.val = 0 ∧ t.wNow d.val = s.lt ∧
      t.rd (Reg.TIM_DRATE d.val) = 0) ∧
  (∀ (s : State) (m : Master) (d : Fin 4), s.admits m (Reg.TIM_DOMCFG d.val) → s.domEn d.val = false →
    s.bit (Reg.TIM_DOMCFG d.val) 1 = true → s.domState d.val ≠ 3 →
    Answers (.domainEnable m d) s fun t => t.domEn d.val = true ∧ t.domState d.val = 3) ∧
  (∀ (s : State) (m : Master) (d : Fin 4), s.admits m (Reg.TIM_DOMCFG d.val) → s.domEn d.val = true →
    Answers (.domainDisable m d) s fun t =>
      t.domEn d.val = false ∧ t.domState d.val = 0 ∧ t.bit (Reg.TIM_DSTAT d.val) 2 = false ∧
      t.fld (Reg.TIM_DSTAT d.val) 16 8 = 0 ∧ (t.dom d.val).cand = none ∧
      t.fld (Reg.TIM_DSTAT d.val) 8 8 = (s.fld (Reg.TIM_DSTAT d.val) 8 8 + 1) % 256) ∧
  (∀ (s : State) (m : Master) (d : Fin 4), s.admits m (Reg.TIM_SMPCTL d.val) →
    s.domEn d.val = false ∨ s.domState d.val = 3 ∨ s.lt < s.rdTime (Reg.TIM_SMPLT_ns d.val) ∨
      1000000000 ≤ s.rdN (Reg.TIM_SMPMST_ns d.val) ∨
      65536000000000 + s.rdTime (Reg.TIM_SMPLT_ns d.val) < s.lt ∨
      (∃ x, (s.dom d.val).lastSample = some x ∧ s.rdTime (Reg.TIM_SMPLT_ns d.val) ≤ x) →
    Answers (.timeSampleSubmit m d) s fun t =>
      t.tim = s.tim ∧ t.rd Cnt.TIM_SAMPLE_REJ = (s.bump Cnt.TIM_SAMPLE_REJ).rd Cnt.TIM_SAMPLE_REJ ∧
      t.domState d.val = s.domState d.val) ∧
  (∀ (s : State) (m : Master) (d : Fin 4), s.admits m (Reg.TIM_SMPCTL d.val) →
    s.domEn d.val = true → s.domState d.val = 0 → s.rdTime (Reg.TIM_SMPLT_ns d.val) ≤ s.lt →
    s.lt ≤ 65536000000000 + s.rdTime (Reg.TIM_SMPLT_ns d.val) → (s.dom d.val).lastSample = none →
    s.rdN (Reg.TIM_SMPMST_ns d.val) < 1000000000 → (s.dom d.val).cand = none →
    1 < s.fld (Reg.TIM_LOCKCFG d.val) 16 8 →
    Answers (.timeSampleSubmit m d) s fun t =>
      (t.dom d.val).lastSample = some (s.rdTime (Reg.TIM_SMPLT_ns d.val)) ∧
      t.fld (Reg.TIM_DSTAT d.val) 16 8 = 1 ∧ t.domState d.val = 0 ∧
      (∃ k, (t.dom d.val).cand = some k ∧ k.w0 = s.rdTime (Reg.TIM_SMPMST_ns d.val) ∧
        k.lt0 = s.rdTime (Reg.TIM_SMPLT_ns d.val)) ∧
      (t.dom d.val).clk = (s.dom d.val).clk) ∧
  (∀ (s : State) (d : Fin 4), s.domState d.val = 1 →
    s.ran (s.dom d.val).sync (1000000 * max 1 (s.fld (Reg.TIM_SYNCTMO d.val) 0 16)) = true →
    Answers (.syncTimeout d) s fun t =>
      t.domState d.val = 2 ∧ t.bit (Reg.TIM_DSTAT d.val) 2 = true ∧
      t.dom d.val = { s.dom d.val with holdAt := s.nowNs } ∧ ∀ x, x ≠ d.val → t.dom x = s.dom x) ∧
  (∀ (s : State) (d : Fin 4), s.domState d.val ≠ 1 ∨
      s.ran (s.dom d.val).sync (1000000 * max 1 (s.fld (Reg.TIM_SYNCTMO d.val) 0 16)) = false →
    Answers (.syncTimeout d) s fun t => t = s) ∧
  (∀ (s : State) (d : Fin 4), s.domState d.val = 2 →
    (s.dom d.val).holdAt + 1000000000 * max 1 (s.fld (Reg.TIM_SYNCTMO d.val) 16 16) ≤ s.nowNs →
    Answers (.holdoverExpiry d) s fun t =>
      t.domState d.val = 0 ∧ t.bit (Reg.TIM_DSTAT d.val) 2 = false ∧ t.fld (Reg.TIM_DSTAT d.val) 16 8 = 0 ∧
      t.tim = s.tim ∧ t.reports = s.reports ++ [⟨0x2181, 0, s.nowNs⟩]) ∧
  (∀ (s : State) (d : Fin 4), s.domState d.val ≠ 2 ∨
      s.nowNs < (s.dom d.val).holdAt + 1000000000 * max 1 (s.fld (Reg.TIM_SYNCTMO d.val) 16 16) →
    Answers (.holdoverExpiry d) s fun t => t = s) ∧
  (∀ (s : State) (m : Master) (d : Fin 4), s.admits m (Reg.TIM_SETCTL d.val) → s.domState d.val = 3 →
    Answers (.timeSet m d) s fun t =>
      (t.dom d.val).clk = { w0 := s.rdTime (Reg.TIM_SETTIME_ns d.val), lt0 := s.lt,
                            rho := (s.dom d.val).clk.base, base := (s.dom d.val).clk.base } ∧
      t.domState d.val = 3 ∧
      t.fld (Reg.TIM_DSTAT d.val) 8 8 = (s.fld (Reg.TIM_DSTAT d.val) 8 8 + 1) % 256) ∧
  (∀ (s : State) (m : Master) (d : Fin 4), s.admits m (Reg.TIM_SETCTL d.val) → s.domState d.val ≠ 3 →
    Answers (.timeSet m d) s fun t => t.tim = s.tim ∧
      t.rd Cnt.TIM_SAMPLE_REJ = (s.bump Cnt.TIM_SAMPLE_REJ).rd Cnt.TIM_SAMPLE_REJ) ∧
  (∀ (s : State) (m : Master), s.admits m Reg.TIM_SNAPCTL →
    Answers (.timeSnapshot m) s fun t =>
      t.rdN Reg.TIM_SNAPLT_ns = tkNs s.lt ∧
      (∀ d < 4, t.rdN (Reg.TIM_SNAPD_ns d) = tkNs (s.wNow d) ∧
        t.rdN (Reg.TIM_SNAPD_w3 d) = s.fld (Reg.TIM_DSTAT d) 8 8) ∧
      t.tim = s.tim) ∧
  (∀ (s : State) (m : Master) (d : Fin 4), s.admits m Reg.TIM_CONVCTL →
    Answers (.timeConvert m d) s fun t =>
      t.rdN Reg.TIM_CONVOUT_ns = tkNs (s.wAt d.val (s.rdTime Reg.TIM_CONVIN_ns)) ∧
      t.rdN Reg.TIM_CONVSTAT = s.fld (Reg.TIM_DSTAT d.val) 8 8 ∧ t.fld Reg.TIM_CONVCTL 0 2 = d.val ∧
      t.tim = s.tim)

/-- Rules R231, R233, R237, R238, R240, R241: the alignment of the Edge die, the time pins, and the oscillator
check. In 10 MHz mode the rate is taken from each 10,000,000 cycles: the model's choice (log entry 72).
TIME_OUT changes level only when an edge is due (log entry 147). -/
def Obligations.TimePinCommandsComplete : Prop :=
  (∀ (s : State) (moved residual : Int), s.traverse.state = .up →
    Answers (.ltAlignFlit moved residual) s fun t =>
      t.tim = { s.tim with edgeSkew := clampInt (-65536) 65536 residual, realign := false } ∧
      (s.tim.realign = true → 131072 < moved.natAbs →
        t.reports = s.reports ++ [⟨0x1184, 0, s.nowNs⟩]) ∧
      (s.tim.realign = false ∨ moved.natAbs ≤ 131072 → t.reports = s.reports ∧ t.regs = s.regs)) ∧
  (∀ (s : State) (error : Int), s.timeInMode = 0 → Answers (.timeInEdge error) s fun t => t = s) ∧
  (∀ (s : State) (error : Int), s.timeInMode = 1 → s.bit Reg.TIM_PINCFG 4 = false →
    Answers (.timeInEdge error) s fun t =>
      t.bit Reg.TIM_INSTAT 0 = true ∧ t.tim.timeInLast = some s.lt ∧ t.tim.domains = s.tim.domains ∧
      ∃ x : Nat, t.rdN Reg.TIM_INTS_ns = tkNs x ∧ x % 32768 = 0 ∧ s.lt ≤ 163840 + x ∧ x ≤ 131072 + s.lt) ∧
  (∀ (s : State) (error : Int), s.timeInMode = 1 → s.bit Reg.TIM_PINCFG 4 = true →
    let d := s.fld Reg.TIM_PINCFG 2 2
    s.domState d = 3 →
    ((s.dom d).setAt = some s.nowNs → Answers (.timeInEdge error) s fun t =>
      t.bit Reg.TIM_INSTAT 0 = true ∧ t.tim.domains = s.tim.domains ∧
      t.rd Reg.TIM_TODSEC = s.rd Reg.TIM_TODSEC) ∧
    ((s.dom d).setAt ≠ some s.nowNs → Answers (.timeInEdge error) s fun t =>
      t.bit Reg.TIM_INSTAT 0 = true ∧ t.domState d = 3 ∧ (t.dom d).lastSample = some (s.edgeTime error) ∧
      t.rd Reg.TIM_TODSEC = s.rd Reg.TIM_TODSEC + 1)) ∧
  (∀ (s : State) (error : Int), s.timeInMode = 2 → s.bit Reg.TIM_PINCFG 4 = true →
    let d := s.fld Reg.TIM_PINCFG 2 2
    s.domState d = 3 →
    (s.tim.cycleRef = none → Answers (.timeInEdge error) s fun t =>
      t.tim = { s.tim with timeInLast := some s.lt, cycles := 0, cycleRef := some (s.edgeTime error) }) ∧
    (∀ r, s.tim.cycleRef = some r → s.tim.cycles + 1 < 10000000 → Answers (.timeInEdge error) s fun t =>
      t.tim = { s.tim with timeInLast := some s.lt, cycles := s.tim.cycles + 1 }) ∧
    (∀ r, s.tim.cycleRef = some r → 10000000 ≤ s.tim.cycles + 1 → Answers (.timeInEdge error) s fun t =>
      let n := s.edgeTime error - r
      (t.dom d).clk.rho = clampInt (-219902325) 219902325
        (Int.fdiv ((65536000000000 - (n : Int)) * 2 ^ 40) (max n 1 : Nat)) ∧
      (t.dom d).clk.base = (t.dom d).clk.rho ∧ (t.dom d).clk.lt0 = s.lt ∧
      (t.dom d).clk.w0 = (s.dom d).clk.at_ s.lt ∧ t.tim.timeInLast = some s.lt ∧
      t.tim.cycleRef = some (s.edgeTime error) ∧ t.tim.cycles = 0)) ∧
  (∀ (s : State), s.timeInMode ≠ 0 → s.bit Reg.TIM_PINCFG 4 = true → s.timeInFresh = false →
    Answers .timeInLoss s fun t =>
      t.bit Reg.TIM_INSTAT 1 = true ∧ t.tim = { s.tim with timeInLast := none, cycles := 0, cycleRef := none } ∧
      t.reports = s.reports ++ [⟨0x2182, 0, s.nowNs⟩]) ∧
  (∀ (s : State), s.timeInMode = 0 ∨ s.bit Reg.TIM_PINCFG 4 = false ∨ s.timeInFresh = true →
    Answers .timeInLoss s fun t => t = s) ∧
  (∀ (s : State), s.timeOutMode = 0 → Answers .timeOutPulse s fun t =>
    t = { s with tim := { s.tim with timeOut := false } }) ∧
  (∀ (s : State), s.timeOutMode ≠ 0 →
    let w := s.wNow (s.fld Reg.TIM_PINCFG 10 2)
    let period := if s.timeOutMode = 1 then 65536000000000 else 6553600
    let high := if s.timeOutMode = 1 then max 3276800 (65536000000 * s.fld Reg.TIM_PINCFG 16 8) else 3276800
    let due := if s.tim.timeOut = true then high ≤ w % period + 131072 ∧ s.tim.timeOutRise + 3276800 ≤ s.lt
      else (w + 131072) % period ≤ 262144
    (¬ due → Answers .timeOutPulse s fun t => t = s) ∧
    (due → Answers .timeOutPulse s fun t =>
      t = { s with tim := { s.tim with
        timeOut := !s.tim.timeOut,
        timeOutRise := if s.tim.timeOut then s.tim.timeOutRise else s.lt } })) ∧
  (∀ (s : State), Answers .oscDeviation s fun t =>
    t.reports = s.reports ++ [⟨0x3183, 0, s.nowNs⟩] ∧ t.tim = s.tim)

/-- Rules R225, R227: a domain's clock is continuous where its rate changes, and never steered beyond 200 ppm;
the phase correction is spread over the next interval and ends with it. -/
def Obligations.ServoIsContinuousAndClamped : Prop :=
  ∀ (k : Clock) (lt : Nat) (off : Int) (interval kp ki : Nat), interval ≠ 0 →
    (k.steered lt off interval kp ki).at_ lt = k.at_ lt ∧
    (k.steered lt off interval kp ki).rho.natAbs ≤ 219902325 ∧
    (k.steered lt off interval kp ki).base.natAbs ≤ 219902325 ∧
    ((k.steered lt off interval kp ki).settled (lt + interval)).at_ (lt + interval) =
      (k.steered lt off interval kp ki).at_ (lt + interval) ∧
    ∀ x, lt + interval ≤ x →
      (k.steered lt off interval kp ki).rate x = (k.steered lt off interval kp ki).base

/-- Rules R248, R249, R268, R271: the lanes and the random source of the cipher engine, and errors of its
memories. Rules R253, R259, R265: SA and key contexts. An SA is enabled only over a loaded key of its use;
disabling it clears DISABLED; a cleared key is erased, its context REVOKED with cause 2, and its SA disabled.
-/
def Obligations.CipherUnitCommandsComplete : Prop :=
  ((∀ (s : State) (l : Fin 4), s.cipUp = true → s.bit Reg.CIP_LANESTAT l.val = true →
    Answers (.laneMismatch l) s fun t =>
      t.bit Reg.CIP_LANESTAT l.val = false ∧
      (∀ k : Fin 4, k ≠ l → t.bit Reg.CIP_LANESTAT k.val = s.bit Reg.CIP_LANESTAT k.val) ∧
      ⟨0x21C2, 0, s.nowNs⟩ ∈ t.reports ∧ (t.lane l.val).removedAt = s.nowNs ∧
      (∀ x, (s.lane l.val).returned = some x → s.nowNs - x < 1000000000 →
        t.bit Reg.CIP_LANESTAT (4 + l.val) = true) ∧
      ((s.lane l.val).returned = none →
        t.bit Reg.CIP_LANESTAT (4 + l.val) = s.bit Reg.CIP_LANESTAT (4 + l.val))) ∧
  (∀ (s : State) (l : Fin 4), s.cipUp = false ∨ s.bit Reg.CIP_LANESTAT l.val = false →
    Answers (.laneMismatch l) s fun t => t = s) ∧
  (∀ (s : State) (l : Fin 4) (pass : Bool), s.nowNs < (s.lane l.val).removedAt + 1000000 →
    Answers (.laneReturnTest l pass) s fun t => t = s) ∧
  (∀ (s : State) (l : Fin 4), s.cipUp = true → s.bit Reg.CIP_LANESTAT l.val = false →
    s.bit Reg.CIP_LANESTAT (4 + l.val) = false → (s.lane l.val).removedAt + 1000000 ≤ s.nowNs →
    Answers (.laneReturnTest l true) s (fun t =>
      t.bit Reg.CIP_LANESTAT l.val = true ∧ (t.lane l.val).returned = some s.nowNs ∧
      ∀ k : Fin 4, k ≠ l → t.bit Reg.CIP_LANESTAT k.val = s.bit Reg.CIP_LANESTAT k.val) ∧
    Answers (.laneReturnTest l false) s fun t => t = s) ∧
  (∀ (s : State), s.cipUp = true → s.entropyFailed = false →
    Answers .entropyHealthFail s fun t =>
      t.bit Reg.CIP_ENTSTAT 0 = false ∧ t.entropyFailed = false ∧
      t.cip = { s.cip with
        retrying := true, failedAt := if s.cip.retrying = true then s.cip.failedAt else s.nowNs }) ∧
  (∀ (s : State), s.cipUp = true → s.cip.retrying = true → s.cip.failedAt + 10000000 ≤ s.nowNs →
    Answers .entropyRetryExpiry s fun t =>
      t.entropyFailed = true ∧ ⟨0x31C4, 0, s.nowNs⟩ ∈ t.reports ∧
      (∀ j < 160, t.jobLive j = false) ∧
      (∀ a < 1024, t.saLive a = false ∧ t.bit (Reg.CIP_SA_w0 a) 12 = true)) ∧
  (∀ (s : State), s.cip.retrying = false ∨ s.nowNs < s.cip.failedAt + 10000000 →
    Answers .entropyRetryExpiry s fun t => t = s) ∧
  (∀ (s : State), s.entropyFailed = false → s.cipUp = true →
    Answers .drbgReseed s fun t =>
      t.bit Reg.CIP_ENTSTAT 0 = true ∧ t.cip = { s.cip with retrying := false, requests := 0 }) ∧
  (∀ (s : State) (m : Master), s.regCheck m Reg.CIP_RNG .word false = none →
    Answers (.cipRngRead m) s fun t =>
      t.busReply = (s.reply ((Config.freeWord s.freeCtr).setWidth 64)).busReply ∧
      t.freeCtr = s.freeCtr + 1 ∧ t.regs = s.regs ∧
      t.cip = { s.cip with
        requests := if 2 ^ 20 ≤ s.cip.requests + 1 ∧ s.cip.retrying = false ∧ s.entropyFailed = false then 0
          else s.cip.requests + 1 }) ∧
  (∀ (s : State) (m : Master), s.regCheck m Reg.VLT_RNG .word false = none →
    Answers (.vltRngRead m) s fun t =>
      t.busReply = (s.reply ((Config.freeWord s.freeCtr).setWidth 64)).busReply ∧
      t.freeCtr = s.freeCtr + 1 ∧ t.cip = s.cip ∧ t.regs = s.regs) ∧
  (∀ (s : State) (c : CipherMem), s.cipUp = true → Answers (.contextEccError c false) s fun t =>
    t.reports = s.reports ++ [⟨0x11C5, 0, s.nowNs⟩] ∧ t.cip = s.cip ∧ t.frames = s.frames) ∧
  (∀ (s : State) (n : Fin 1024), s.cipUp = true →
    Answers (.contextEccError (.sa n) true) s fun t =>
      t.saLive n.val = false ∧ t.bit (Reg.CIP_SA_w0 n.val) 12 = true ∧
      t.fld (Reg.CIP_SA_w0 n.val) 13 3 = 4 ∧ ⟨0x21C6, 0, s.nowNs⟩ ∈ t.reports) ∧
  (∀ (s : State) (k : Fin 1280), s.cipUp = true → Answers (.contextEccError (.key k) true) s fun t =>
    t.fld (Reg.CIP_KEYSTAT k.val) 0 2 = 3 ∧ t.fld (Reg.CIP_KEYSTAT k.val) 28 3 = 4 ∧ t.keyOf k.val = [] ∧
    ⟨0x21C6, 0, s.nowNs⟩ ∈ t.reports)) ∧
  ((∀ (s : State) (m : Master) (a : Fin 1024), s.admits m (Reg.CIP_SA_w0 a.val) →
    Answers (.saEnable m a false) s fun t =>
      t.bit (Reg.CIP_SA_w0 a.val) 0 = false ∧ t.bit (Reg.CIP_SA_w0 a.val) 12 = false ∧
      ∀ k, k ≠ Reg.CIP_SA_w0 a.val → t.rd k = s.rd k) ∧
  (∀ (s : State) (m : Master) (a : Fin 1024), s.admits m (Reg.CIP_SA_w0 a.val) →
    s.keyLoaded a.val = true → s.keyUsage a.val 0 = true → s.entropyFailed = false →
    Answers (.saEnable m a true) s fun t =>
      t.bit (Reg.CIP_SA_w0 a.val) 0 = true ∧ ∀ k, k ≠ Reg.CIP_SA_w0 a.val → t.rd k = s.rd k) ∧
  (∀ (s : State) (m : Master) (a : Fin 1024), s.admits m (Reg.CIP_SA_w0 a.val) →
    s.keyLoaded a.val = false ∨ s.keyUsage a.val 0 = false ∨ s.entropyFailed = true →
    Answers (.saEnable m a true) s fun t =>
      t = (s.reply 0).deny (Reg.CIP_SA_w0 a.val) m.pmid.toNat ∧
      t.rd (Reg.CIP_SA_w0 a.val) = s.rd (Reg.CIP_SA_w0 a.val)) ∧
  (∀ (s : State) (k : Fin 1280), s.fld (Reg.CIP_KEYSTAT k.val) 0 2 = 1 →
    Answers (.keyContextLoaded k) s fun t =>
      t.keyLoaded k.val = true ∧ t.cip = s.cip ∧ ∀ x, x ≠ Reg.CIP_KEYSTAT k.val → t.rd x = s.rd x) ∧
  (∀ (s : State) (k : Fin 1280), s.fld (Reg.CIP_KEYSTAT k.val) 0 2 ≠ 1 →
    Answers (.keyContextLoaded k) s fun t => t = s) ∧
  (∀ (s : State) (m : Master) (k : BitVec 11), s.admits m Reg.CIP_KEYCMD → k.toNat < 1280 →
    Answers (.keyClear m k) s fun t =>
      t.keyOf k.toNat = [] ∧ t.fld (Reg.CIP_KEYSTAT k.toNat) 0 2 = 3 ∧
      t.fld (Reg.CIP_KEYSTAT k.toNat) 28 3 = 2 ∧ ⟨0x01C7, 0, s.nowNs⟩ ∈ t.reports ∧
      (k.toNat < 1024 → t.saLive k.toNat = false) ∧
      (∀ x, x ≠ k.toNat → t.keyOf x = s.keyOf x) ∧
      ∀ j < 160, k.toNat ∈ s.jobKeys j → 1024 ≤ k.toNat → t.jobLive j = false) ∧
  (∀ (s : State) (m : Master) (k : BitVec 11), s.admits m Reg.CIP_KEYCMD → 1280 ≤ k.toNat →
    Answers (.keyClear m k) s fun t => t.cip = s.cip ∧ ∀ x, x ≠ Reg.CIP_KEYCMD → t.rd x = s.rd x))

/-- Rules R260 to R264: general jobs: the states of a job context, its start by priority and age, and its end.
-/
def Obligations.JobCommandsComplete : Prop :=
  (∀ (s : State) (m : Master) (j : Fin 160), s.admits m (Reg.CIP_JOB_w0 j.val) → s.jobState j.val = 0 →
    Answers (.jobClaim m j) s fun t =>
      t.jobState j.val = 1 ∧ t.fld (Reg.CIP_JOB_w15 j.val) 12 6 = m.pmid.toNat ∧ t.cip = s.cip ∧
      ∀ k, k ≠ Reg.CIP_JOB_w15 j.val → t.rd k = s.rd k) ∧
  (∀ (s : State) (m : Master) (j : Fin 160), s.admits m (Reg.CIP_JOB_w0 j.val) → s.jobState j.val ≠ 0 →
    Answers (.jobClaim m j) s fun t => t = s.reply 0) ∧
  (∀ (s : State) (m : Master) (j : Fin 160), s.admits m (Reg.CIP_JOB_w0 j.val) →
    s.jobState j.val = 1 ∨ s.jobState j.val = 5 ∨ s.jobState j.val = 6 →
    (s.jobLegal j.val = true → s.entropyFailed = false → Answers (.jobGo m j) s fun t =>
      t.jobState j.val = 2 ∧ (t.job j.val).order = s.cip.orders ∧ t.cip.orders = s.cip.orders + 1 ∧
      (t.job j.val).indigo = m.indigo ∧ (t.job j.val).pmid = m.pmid.toNat) ∧
    (s.jobLegal j.val = false → Answers (.jobGo m j) s fun t =>
      t.jobState j.val = 6 ∧ t.fld (Reg.CIP_JOB_w15 j.val) 8 4 = 5 ∧
      t.bit (Reg.CIP_JOBDONE_0_4 (j.val / 32)) (j.val % 32) = true) ∧
    (s.jobLegal j.val = true → s.entropyFailed = true → Answers (.jobGo m j) s fun t =>
      t.jobState j.val = 6 ∧ t.fld (Reg.CIP_JOB_w15 j.val) 8 4 = 7)) ∧
  (∀ (s : State) (m : Master) (j : Fin 160), s.admits m (Reg.CIP_JOB_w0 j.val) →
    s.jobState j.val = 0 ∨ 2 ≤ s.jobState j.val ∧ s.jobState j.val ≤ 4 →
    Answers (.jobGo m j) s fun t => t = s.reply 0) ∧
  (∀ (s : State) (j : Fin 160), s.cipUp = true → s.blkAccepts 0x19 = true → s.jobState j.val = 2 →
    s.fld Reg.CIP_HOLDSTAT 0 6 + s.holdUnits j.val ≤ 32 → s.jobSlots j.val ≠ 0 →
    (∀ i < 160, i ≠ j.val → s.jobReady i = false ∨ aesOp (s.jobOp i) ≠ aesOp (s.jobOp j.val)) →
    (s.runningLike j.val).length < s.jobSlots j.val →
    (s.keyRefusal j.val = none → Answers (.jobStart j) s fun t =>
      t.jobState j.val = 3 ∧ t.cip = s.cip ∧ t.mem = s.mem ∧
      t.fld Reg.CIP_HOLDSTAT 0 6 = s.fld Reg.CIP_HOLDSTAT 0 6 + s.holdUnits j.val ∧
      ∀ i < 160, i ≠ j.val → t.jobState i = s.jobState i) ∧
    (∀ r < 16, s.keyRefusal j.val = some r → Answers (.jobStart j) s fun t =>
      t.jobState j.val = 6 ∧ t.fld (Reg.CIP_JOB_w15 j.val) 8 4 = r)) ∧
  (∀ (s : State) (j i : Fin 160), i ≠ j → s.jobReady i.val = true →
    aesOp (s.jobOp i.val) = aesOp (s.jobOp j.val) → s.jobBefore i.val j.val = true →
    Answers (.jobStart j) s fun t => t = s) ∧
  (∀ (s : State) (m : Master) (j : Fin 160), s.admits m (Reg.CIP_JOB_w0 j.val) → s.jobLive j.val = true →
    Answers (.jobAbort m j) s fun t =>
      t.jobState j.val = 6 ∧ t.fld (Reg.CIP_JOB_w15 j.val) 8 4 = 7) ∧
  (∀ (s : State) (m : Master) (j : Fin 160), s.admits m (Reg.CIP_JOB_w0 j.val) → s.jobLive j.val = false →
    Answers (.jobAbort m j) s fun t => t = s.reply 0) ∧
  (∀ (s : State) (m : Master) (j : Fin 160), s.admits m (Reg.CIP_JOB_w0 j.val) →
    s.jobState j.val = 1 ∨ s.jobState j.val = 6 →
    Answers (.jobRelease m j) s fun t =>
      t.jobState j.val = 0 ∧ t.fld (Reg.CIP_JOB_w15 j.val) 12 6 = 0 ∧ t.job j.val = {}) ∧
  (∀ (s : State) (j : Fin 160), s.jobState j.val = 3 → s.jobOp j.val = 8 → s.bit (Reg.CIP_JOB_w0 j.val) 8 = false →
    let m := (s.job j.val).master
    let a := s.addr40 (Reg.CIP_JOB_w1 j.val) (Reg.CIP_JOB_w2 j.val)
    s.cipUp = true → s.memFault m a (s.jobLen j.val) .read = none → s.badMem a (s.jobLen j.val) = none →
    targetOf a ≠ .outbound →
    Answers (.jobDone j) s fun t =>
      t.jobState j.val = 5 ∧ t.mem = s.mem ∧
      (t.job j.val).message = (s.job j.val).message ++ s.rdBytes a (s.jobLen j.val)) ∧
  (∀ (s : State) (j : Fin 160) (x c : Nat), s.cipUp = true → s.jobState j.val = 3 → s.laneUp = true →
    s.memFault (s.job j.val).master (s.addr40 (Reg.CIP_JOB_w1 j.val) (Reg.CIP_JOB_w2 j.val))
      (s.jobLen j.val) .read = some (x, c) →
    Answers (.jobDone j) s fun t =>
      t.jobState j.val = 6 ∧ t.fld (Reg.CIP_JOB_w15 j.val) 8 4 = 6 ∧ t.mem = s.mem)

/-- Rules R261, R263: a decrypt job writes no plaintext before its tag has been verified: at no state of the
job does its stopping, and at a mismatch its end, change memory. -/
def Obligations.DecryptJobReleasesOnlyVerifiedText : Prop :=
  ∀ (s : State) (j : Fin 160), s.jobOp j.val = 2 →
    (∀ res, (s.stopJob j.val res).mem = s.mem) ∧
    (∀ data aad expect, (Config.gcmTag (s.keyOf (s.jobKey j.val)) ((s.jobIv j.val).take 12) aad data).take 16 ≠
        expect.take 16 →
      (s.jobCompute j.val data aad expect).out = [] ∧ (s.jobCompute j.val data aad expect).res = 1) ∧
    ∀ m, s.admits m (Reg.CIP_JOB_w0 j.val) → Answers (.jobAbort m j) s fun t => t.mem = s.mem

/-- Rules R271 to R273, R278 to R288: the commands of the vault's channels, as their GO and their start found
them. A command that ends leaves its channel DONE with its result, out of the queue. How a slot's two records
are laid out and keyed is the model's choice (log entry 148). -/
def Obligations.VaultChannelCommandsComplete : Prop :=
  ∀ (s : State) (c : Fin 4),
    let k := Reg.VLT_CHSTAT c.val
    let ends := fun (t : State) (res : Nat) =>
      t.chanState c.val = 3 ∧ t.fld k 8 4 = res ∧ t.bit k 13 = true ∧ c.val ∉ t.vlt.order
    let runs := fun (op : Nat) => s.chanState c.val = 2 ∧ s.vltOp c.val = op
    let n := s.vltSlot c.val
    let a := s.vltArg c.val
    let buf := (s.vltCmd c.val).buf
    let msg := buf.take 412
    let unmasked := fun (v : VaultSlot) => { v with mask := [] }
    (∀ value, runs 1 → s.vaultState ≠ 2 → s.vlt.noIdentity = false → s.kpmCheck msg = (0, value) →
      Answers (.provision c) s fun t => ends t 0 ∧
        t.slotState (kpmSlot msg) = 1 ∧
        unmasked (t.slot (kpmSlot msg)) =
          { policy := kpmPolicy msg, value := value, counter := natAt msg 0x18 8 } ∧
        (∀ share < 2, t.rdBytes (recordAddr s.vlt.root (kpmSlot msg) share) 64 =
          vaultRecord s.vlt.root (kpmSlot msg) share (t.slot (kpmSlot msg))) ∧
        (∀ x, x ≠ kpmSlot msg → t.slot x = s.slot x) ∧ t.provCounter = natAt msg 0x18 8) ∧
    (∀ r v, r < 16 → runs 1 → s.vaultState ≠ 2 → s.vlt.noIdentity = false → s.kpmCheck msg = (r, v) → r ≠ 0 →
      Answers (.provision c) s fun t => ends t r ∧ t.vlt.slots = s.vlt.slots ∧ t.mem = s.mem) ∧
    (∀ b : Option (Fin 512), runs 2 → s.vaultState ≠ 2 → s.hasCip = true → s.slotState n = 1 →
      (∀ x, b = some x → x.val ≠ n) →
      let r := s.deriveCheck n a (s.vltCmd c.val).pmid
      (r = 0 → (∀ x, b = some x → x.val ∉ s.ancestors n) →
        Answers (.derive c b) s fun t => ends t 0 ∧
          t.keyOf a = s.derivedKey n (decide (1024 ≤ a)) (buf.take 32) ∧
          t.fld (Reg.CIP_KEYSTAT a) 0 2 = 1 ∧ t.fld (Reg.CIP_KEYSTAT a) 16 9 = n % 512 ∧
          (∀ x, x ≠ a → t.keyOf x = s.keyOf x) ∧ ∀ x, unmasked (t.slot x) = unmasked (s.slot x)) ∧
      (r = 0 → ∀ x, b = some x → x.val ∈ s.ancestors n →
        Answers (.derive c b) s fun t => ends t 12 ∧ t.slotState x.val = 3 ∧ t.cip = s.cip ∧
          ⟨0x2204, 0, s.nowNs⟩ ∈ t.reports) ∧
      (r ≠ 0 → Answers (.derive c b) s fun t => ends t r ∧ t.cip = s.cip ∧ t.vlt.slots = s.vlt.slots)) ∧
    (∀ x : Fin 512, runs 2 → s.vaultState ≠ 2 → s.hasCip = true → s.slotState n = 1 → x.val = n →
      Answers (.derive c (some x)) s fun t => ends t 12 ∧ t.slotState n = 3 ∧ t.cip = s.cip ∧
        ⟨0x2204, 0, s.nowNs⟩ ∈ t.reports) ∧
    (runs 2 → s.vaultState ≠ 2 → s.hasCip = true → s.slotState n ≠ 1 → ∀ b,
      Answers (.derive c b) s fun t => ends t 7 ∧ t.cip = s.cip) ∧
    (runs 2 → s.vaultState ≠ 2 → s.hasCip = false → ∀ b,
      Answers (.derive c b) s fun t => ends t 9 ∧ t.cip = s.cip) ∧
    (runs 3 → s.vaultState ≠ 2 → s.slotState n = 1 → Answers (.invalidate c) s fun t => ends t 0 ∧
      t.slotState n = 2 ∧ ⟨0x0202, 0, s.nowNs⟩ ∈ t.reports ∧
      (∀ x < 512, s.slotState x = 1 ∨ s.slotState x = 3 → n ∈ s.ancestors x → t.slotState x = 2) ∧
      (∀ x < 512, x ≠ n → n ∉ s.ancestors x → t.slotState x = s.slotState x) ∧ t.vlt.slots = s.vlt.slots) ∧
    (runs 3 → s.vaultState ≠ 2 → s.slotState n ≠ 1 → Answers (.invalidate c) s fun t => ends t 0 ∧
      ∀ x < 512, t.slotState x = s.slotState x) ∧
    (runs 4 → s.vaultState ≠ 2 → Answers (.overwrite c) s fun t => ends t 0 ∧
      t.slotState n = 0 ∧ t.slot n = {} ∧ ∀ x, x ≠ n → t.slot x = s.slot x) ∧
    (runs 5 → a ≤ 7 → Answers (.extend c) s fun t => ends t 0 ∧
      (∀ j < 12, t.rdN (Reg.VLT_MR a j) =
        natBE (bytesAt (Config.sha384 (s.mr a ++ buf.take 48)) (4 * j) 4)) ∧
      ∀ i < 8, i ≠ a → ∀ j < 12, t.rd (Reg.VLT_MR i j) = s.rd (Reg.VLT_MR i j)) ∧
    (runs 5 → 7 < a → Answers (.extend c) s fun t => ends t 1 ∧
      ∀ i < 8, ∀ j < 12, t.rd (Reg.VLT_MR i j) = s.rd (Reg.VLT_MR i j)) ∧
    (runs 6 → a ≤ 7 → Answers (.verify c) s fun t =>
        ends t (s.verifyWith a (bytesAt buf 144 97) (bytesAt buf 0 48) (bytesAt buf 48 96)) ∧
        t.vlt.slots = s.vlt.slots) ∧
    (runs 6 → 7 < a → Answers (.verify c) s fun t => ends t 1) ∧
    (runs 7 → s.vaultState = 2 → s.loopOpen = false → Answers (.enrol c) s fun t => ends t 0 ∧
      t.vaultState = 1 ∧ t.vlt.slots = [] ∧ t.vlt.record = true ∧
      t.vlt.root = Config.vaultRoot (s.vlt.rootNo + 1) ∧ ∀ x < 512, t.slotState x = 0) ∧
    (runs 7 → s.vaultState ≠ 2 ∨ s.loopOpen = true → Answers (.enrol c) s fun t => ends t 1 ∧
      t.vlt.slots = s.vlt.slots ∧ t.vaultState = s.vaultState) ∧
    (s.vaultState = 2 → (∀ b, runs 2 → Answers (.derive c b) s fun t => ends t 11) ∧
      (runs 1 → Answers (.provision c) s fun t => ends t 11) ∧
      (runs 3 → Answers (.invalidate c) s fun t => ends t 11) ∧
      (runs 4 → Answers (.overwrite c) s fun t => ends t 11))

/-- Rules R273, R289 to R292, R476: the start of the vault, and its response to tamper and to glitches. -/
def Obligations.VaultTamperCommandsComplete : Prop :=
  (∀ (s : State) (a b : Bool), s.vlt.started = false → s.coreHeld = false →
    Answers (.vaultReady a b) s fun t =>
      t.vlt.started = true ∧ (∀ i < 4, t.rd (Reg.VLT_UID i) = Config.uidWord i) ∧
      (b = false → t.vlt.noIdentity = true ∧ ⟨0x3205, 0, s.nowNs⟩ ∈ t.reports) ∧
      (b = true → t.vlt.identity = Config.identityRoot ∧
        ∀ i < 24, t.rd (Reg.VLT_IDPUB i) = identityPub Config.identityRoot i) ∧
      (s.vaultState = 0 → s.vlt.record = true → a = true →
        t.vaultState = 1 ∧ t.bit Reg.VLT_STAT 2 = false ∧ t.vlt.root = Config.vaultRoot s.vlt.rootNo) ∧
      (s.vaultState = 0 → s.vlt.record = false ∨ a = false → t.vaultState = 2) ∧
      (s.vaultState ≠ 0 → t.vaultState = s.vaultState ∧ t.vlt.root = s.vlt.root)) ∧
  (∀ (s : State) (a b : Bool), s.vlt.started = true ∨ s.coreHeld = true →
    Answers (.vaultReady a b) s fun t => t = s) ∧
  (∀ (s : State), Answers (.tamperSample false) s fun t =>
    t.vlt = { s.vlt with openSamples := 0 } ∧ t.mem = s.mem ∧
    (2 ≤ s.cur → s.coreHeld = false → t.loopOpen = false)) ∧
  (∀ (s : State), s.vlt.openSamples = 0 → Answers (.tamperSample true) s fun t =>
    t.vlt = { s.vlt with openSamples := 1 } ∧ t.mem = s.mem) ∧
  (∀ (s : State), s.vlt.openSamples = 1 → 2 ≤ s.cur → s.coreHeld = false → s.vaultState ≠ 3 →
    Answers (.tamperSample true) s fun t =>
      t.vaultState = 3 ∧ t.vlt.record = false ∧ t.bit Reg.VLT_STAT 2 = true ∧ t.bit Reg.VLT_STAT 8 = true ∧
      ⟨0x3207, 0, s.nowNs⟩ ∈ t.reports ∧ (∀ j < 160, t.jobLive j = false)) ∧
  (∀ (s : State), s.vlt.openSamples = 1 → s.coreHeld = true → s.supply.resetN = false →
    Answers (.tamperSample true) s fun t => t.vlt.pendingTamper = true ∧ t.vlt.record = s.vlt.record) ∧
  (∀ (s : State), s.vlt.openSamples = 1 → s.coreHeld = true → s.supply.resetN = true →
    Answers (.tamperSample true) s fun t => t.vlt.pendingTamper = true ∧ t.vlt.record = false ∧
      t.vlt.root = []) ∧
  (∀ (s : State), s.vaultState = 3 → (∀ c ∈ s.vlt.order, c ≤ 4) →
    Answers .vaultZeroizeDone s fun t =>
      t.vaultState = 2 ∧ t.vlt.slots = [] ∧ (∀ c ∈ t.vlt.order, c = 4) ∧ (∀ x < 512, t.slotState x = 0) ∧
      ∀ c ∈ s.vlt.order, c < 4 → t.chanState c = 3 ∧ t.fld (Reg.VLT_CHSTAT c) 8 4 = 11) ∧
  (∀ (s : State), s.vaultState ≠ 3 → Answers .vaultZeroizeDone s fun t => t = s) ∧
  (∀ (s : State), s.coreHeld = false → 2 ≤ s.cur →
    Answers .glitchTrip s fun t =>
      t.bit Reg.VLT_STAT 9 = true ∧ ⟨0x3206, 0, s.nowNs⟩ ∈ t.reports ∧
      t.vlt.glitches = s.vlt.glitches.filter (fun x => decide (s.nowNs - x < 1000000000)) ++ [s.nowNs] ∧
      (s.vlt.glitches = [] → t.vaultState = s.vaultState) ∧
      (2 ≤ (s.vlt.glitches.filter (fun x => decide (s.nowNs - x < 1000000000))).length → t.vaultState = 3)) ∧
  (∀ (s : State), s.coreHeld = true ∨ s.cur < 2 → Answers .glitchTrip s fun t => t = s)

/-- Rules R299 to R306, R308, R309: the frames of the CAN, LIN and serial channels of the gateway. A received
frame carries its pseudo-header and is queued toward port 34, or counts an overrun; a frame that cannot be
sent returns with its reason; errors move the CAN error counters, as the model takes from ISO 11898-1 (log
entry 82). The bytes a LIN commander takes of a response follow GWY_LINLEN (log entry 86). -/
def Obligations.GatewayFrameCommandsComplete : Prop :=
  (∀ (s : State) (c : Fin 16) (id : BitVec 29) (fl : BitVec 5) (d : List Byte) (ago : BitVec 32),
    s.canOn c.val = true → s.canState c.val < 2 → s.canTec c.val ≤ 255 →
    let body := if fl.toNat.testBit 1 then [] else d
    (∀ how : CanRx, how ≠ .good → Answers (.canFrameReceived c how id fl d ago) s fun t =>
      let n := s.canRec c.val + (if how = .dominant then 8 else 1)
      t.canRec c.val = min 255 n ∧ t.canTec c.val = s.canTec c.val ∧ t.gwy = s.gwy ∧
      t.canState c.val = if 127 < n ∨ 127 < s.canTec c.val then 1 else 0) ∧
    (fl.toNat.testBit 2 = true → s.bit (Reg.GWY_CANCTL c.val) 1 = false →
      Answers (.canFrameReceived c .good id fl d ago) s fun t => t = s) ∧
    (fl.toNat.testBit 2 = false ∨ s.bit (Reg.GWY_CANCTL c.val) 1 = true →
      s.bit (Reg.GWY_CANCTL c.val) 4 = false → s.gwyHeld = true → s.gwyRoom 1 c.val body.length = true →
      Answers (.canFrameReceived c .good id fl d ago) s fun t =>
        (∃ x, t.gwy.inbox = s.gwy.inbox ++ [x] ∧ x.bus = 1 ∧ x.chan = c.val ∧
          x.bytes = pseudoHeader 1 c.val fl.toNat id.toNat d.length 0 (tkNs (s.gwyTime ago.toNat))
            (tkSec (s.gwyTime ago.toNat) % 2 ^ 32) ++ body) ∧
        t.canRec c.val = (if 127 < s.canRec c.val then 127 else s.canRec c.val - 1) ∧
        t.canTec c.val = s.canTec c.val) ∧
    (fl.toNat.testBit 2 = false ∨ s.bit (Reg.GWY_CANCTL c.val) 1 = true →
      s.bit (Reg.GWY_CANCTL c.val) 4 = false → s.gwyRoom 1 c.val body.length = false →
      Answers (.canFrameReceived c .good id fl d ago) s fun t =>
        t.gwy.inbox = s.gwy.inbox ∧
        t.rd (Cnt.CAN_RX_OVERRUN c.val) = (s.bump (Cnt.CAN_RX_OVERRUN c.val)).rd (Cnt.CAN_RX_OVERRUN c.val) ∧
        (s.pairZero (Cnt.CAN_RX_OVERRUN c.val) = true → ⟨0x2242, 0, s.nowNs⟩ ∈ t.reports))) ∧
  (∀ (s : State) (c : Fin 16) (how : CanRx) (g : Bool) (id : BitVec 29) (fl : BitVec 5) (d : List Byte)
      (ago : BitVec 32), s.canOn c.val = false ∨ 2 ≤ s.canState c.val →
    Answers (.canFrameReceived c how id fl d ago) s (fun t => t = s) ∧
    Answers (.canTransmit c ⟨g, ago⟩) s (fun t => t = s) ∧ Answers (.canBusOff c) s fun t => t = s) ∧
  (∀ (s : State) (c : Fin 16) (x : GwyTx) (ago : BitVec 32), s.canOn c.val = true → s.canState c.val < 2 →
    s.canTec c.val ≤ 255 → s.bit (Reg.GWY_CANCTL c.val) 2 = false → canWinner (s.canTx c.val) = some x →
    (Answers (.canTransmit c ⟨true, ago⟩) s fun t =>
      t.canTx c.val = (s.canTx c.val).erase x ∧ t.canTec c.val = s.canTec c.val - 1 ∧
      Store.get (fun _ => []) t.gwy.lastTx (256 + c.val) = x.bytes ∧
      ((gwyFlags x.bytes).testBit 6 = false → t.gwy.inbox = s.gwy.inbox) ∧
      ((gwyFlags x.bytes).testBit 6 = true → s.gwyHeld = true →
        ∃ y, t.gwy.inbox = s.gwy.inbox ++ [y] ∧
          y.bytes = pseudoHeader 1 c.val (gwyFlags x.bytes) (natAt x.bytes 4 4) 0 0
            (tkNs (s.gwyTime ago.toNat)) (tkSec (s.gwyTime ago.toNat) % 2 ^ 32))) ∧
    (s.canTec c.val + 8 ≤ 255 → Answers (.canTransmit c ⟨false, ago⟩) s fun t =>
      t.canTx c.val = s.canTx c.val ∧ t.canTec c.val = s.canTec c.val + 8 ∧
      t.canRec c.val = s.canRec c.val) ∧
    (255 < s.canTec c.val + 8 → Answers (.canTransmit c ⟨false, ago⟩) s fun t =>
      t.canState c.val = 2 ∧ t.canTx c.val = [] ∧ ⟨0x2243, 0, s.nowNs⟩ ∈ t.reports)) ∧
  (∀ (s : State) (c : Fin 16) (x : GwyTx) (rest : List GwyTx), s.canTx c.val = x :: rest →
    let due := x.entered + 1000000 * max 1 (s.fld (Reg.GWY_CANCTL c.val) 16 16)
    (s.nowNs < due → Answers (.canTxTimeout c) s fun t => t = s) ∧
    (due ≤ s.nowNs → s.gwyHeld = true → Answers (.canTxTimeout c) s fun t =>
      t.canTx c.val = rest ∧ ∃ y, t.gwy.inbox = s.gwy.inbox ++ [y] ∧ y.rx = false ∧
        y.bytes = (withGwyFlag x.bytes 7).take 10 ++ [2] ++ (withGwyFlag x.bytes 7).drop 11)) ∧
  (∀ (s : State) (c : Fin 16), s.canTx c.val = [] → Answers (.canTxTimeout c) s fun t => t = s) ∧
  (∀ (s : State) (c : Fin 16), s.canOn c.val = true → s.canState c.val < 2 →
    s.bit (Reg.GWY_CANCTL c.val) 2 = false → 255 < s.canTec c.val + 8 →
    Answers (.canBusOff c) s fun t =>
      t.canState c.val = 2 ∧ t.canTx c.val = [] ∧ ⟨0x2243, 0, s.nowNs⟩ ∈ t.reports ∧
      (s.gwyHeld = true → t.gwy.inbox.length = s.gwy.inbox.length + (s.canTx c.val).length)) ∧
  (∀ (s : State) (c : Fin 16), s.bit (Reg.GWY_CANCTL c.val) 2 = true ∨ s.canTec c.val + 8 ≤ 255 →
    Answers (.canBusOff c) s fun t => t = s) ∧
  (∀ (s : State) (c : Fin 16), s.canOn c.val = true → s.canState c.val = 2 →
    (s.bit (Reg.GWY_CANCTL c.val) 3 = true → Answers (.canBusoffRecovery c) s fun t =>
      t.canState c.val = 0 ∧ t.canRec c.val = 0 ∧ t.canTec c.val = 0 ∧ t.gwy = s.gwy) ∧
    (s.bit (Reg.GWY_CANCTL c.val) 3 = false → Answers (.canBusoffRecovery c) s fun t => t = s)) ∧
  (∀ (s : State) (c : Fin 16), s.canOn c.val = true →
    Answers (.canDominantTimeout c) s fun t =>
      t.bit (Reg.GWY_CANSTAT c.val) 28 = true ∧ t.reports = s.reports ++ [⟨0x2244, 0, s.nowNs⟩]) ∧
  (∀ (s : State) (l : Fin 8) (id : Fin 64) (b : LinBuffer) (ago : BitVec 32), s.linOn l.val = true →
    s.bit (Reg.GWY_LINCTL l.val) 1 = false → id.val < 62 → s.linBuf l.val id.val = some b →
    Answers (.linHeaderReceived l ⟨id, ago⟩) s fun t =>
      t.linBuf l.val id.val = some { b with sent := true } ∧
      Store.get (fun _ => []) t.gwy.lastTx (512 + l.val) = b.bytes) ∧
  (∀ (s : State) (l : Fin 8) (id : Fin 64) (ago : BitVec 32), s.linOn l.val = false ∨
    s.bit (Reg.GWY_LINCTL l.val) 1 = true ∨ 62 ≤ id.val ∨ s.linBuf l.val id.val = none →
    Answers (.linHeaderReceived l ⟨id, ago⟩) s fun t => t = s) ∧
  (∀ (s : State) (l : Fin 8) (id : Fin 64) (d : List Byte) (e : LinError) (ago : BitVec 32),
    s.linOn l.val = true → id.val < 62 → s.bit (Reg.GWY_LINCTL l.val) 4 = false → s.gwyHeld = true →
    let r := s.linTaken l.val id.val d e
    s.gwyRoom 2 l.val r.1.length = true →
    Answers (.linFrameReceived l id d e ago) s fun t =>
      ∃ x, t.gwy.inbox = s.gwy.inbox ++ [x] ∧ x.bus = 2 ∧ x.chan = l.val ∧
        x.bytes = pseudoHeader 2 l.val
          ((if 60 ≤ id.val then 256 else 0) + (if r.2 = .none then 0 else 512)) id.val r.1.length
          (match r.2 with | .none => 0 | .noResponse => 1 | .checksum => 2 | .framing => 3)
          (tkNs (s.gwyTime ago.toNat)) (tkSec (s.gwyTime ago.toNat) % 2 ^ 32) ++ r.1) ∧
  (∀ (s : State) (l : Fin 8) (id : Fin 64) (d : List Byte) (e : LinError) (ago : BitVec 32),
    s.linOn l.val = false ∨ 62 ≤ id.val → Answers (.linFrameReceived l id d e ago) s fun t => t = s) ∧
  (∀ (s : State) (l : Fin 8) (e : Nat), s.linOn l.val = true → s.bit (Reg.GWY_LINCTL l.val) 1 = true →
    s.bit (Reg.GWY_LINCTL l.val) 3 = true →
    s.linEntry l.val (Store.get (fun _ => 0) s.gwy.linAt l.val) = some e →
    Answers (.linScheduleSlot l) s fun t =>
      Store.get (fun _ => 0) t.gwy.linAt l.val = (e + 1) % 64 ∧
      (s.bit (Reg.GWY_LINSCH l.val e) 6 = false → t.regs = s.regs)) ∧
  (∀ (s : State) (c : Fin 4) (d : List Byte) (e : Bool) (ago : BitVec 32), s.serOn c.val = true → d ≠ [] →
    s.gwyHeld = true →
    let n := clampNat 1 1024 (s.fld (Reg.GWY_SERFRM c.val) 8 11)
    s.gwyRoom 3 c.val (d.take n).length = true →
    Answers (.serFrameEnd c d e ago) s fun t =>
      ∃ x, t.gwy.inbox = s.gwy.inbox ++ [x] ∧ x.bus = 3 ∧ x.chan = c.val ∧ x.bytes.drop 20 = d.take n) ∧
  (∀ (s : State) (c : Fin 4) (bs : List Byte) (rest : List (List Byte)) (ago : BitVec 32),
    s.serTx c.val = bs :: rest → s.serOn c.val = true →
    Answers (.serTransmit ⟨c, ago⟩) s fun t =>
      t.serTx c.val = rest ∧ Store.get (fun _ => []) t.gwy.lastTx (768 + c.val) = bs) ∧
  (∀ (s : State) (bs : List Byte) (rest : List (List Byte)), s.edgeReachable = true →
    Store.get (fun _ => []) s.fab.delivered 34 = bs :: rest →
    (s.gwyCheck bs = none → Answers .gatewayTxFrame s fun t =>
      Store.get (fun _ => []) t.fab.delivered 34 = rest ∧ t.gwy = s.gwy ∧
      t.reports = s.reports ++ [⟨0x0241, 0, s.nowNs⟩]) ∧
    (∀ r, s.gwyCheck bs = some r → natAt bs 0 1 = 1 → s.canOn (natAt bs 1 1) = true →
      s.canState (natAt bs 1 1) ≠ 2 → (s.canTx (natAt bs 1 1)).length < 32 →
      Answers .gatewayTxFrame s fun t =>
        Store.get (fun _ => []) t.fab.delivered 34 = rest ∧
        t.canTx (natAt bs 1 1) = s.canTx (natAt bs 1 1) ++ [⟨bs, canKey r, s.nowNs⟩]) ∧
    (∀ r, s.gwyCheck bs = some r → natAt bs 0 1 = 1 → s.canOn (natAt bs 1 1) = true →
      s.canState (natAt bs 1 1) ≠ 2 → 32 ≤ (s.canTx (natAt bs 1 1)).length →
      Answers .gatewayTxFrame s fun t => t = s))

/-- Rules R297, R304, R307, R309, R392: the inputs of the gateway, its channel enables and its wake sources.
-/
def Obligations.GatewayInputCommandsComplete : Prop :=
  (∀ (s : State) (v : BitVec 32), s.cur = 0 → Answers (.dinSample v) s fun t => t = s) ∧
  (∀ (s : State) (v : BitVec 32), s.cur ≠ 0 → s.gwy.inbox = [] →
    (∀ i < 32, v.getLsbD i = (s.bit Reg.GWY_DINSTATE i != s.bit (Reg.GWY_DINCFG i) 4)) →
    Answers (.dinSample v) s fun t =>
      t.rd Reg.GWY_DINSTATE = s.rd Reg.GWY_DINSTATE ∧ t.gwy.inbox = [] ∧
      ∀ i < 32, Store.get (fun _ => 0) t.gwy.dinRun i = 0) ∧
  (∀ (s : State) (v : BitVec 32) (i : Nat), i < 32 → s.cur ≠ 0 → (∀ j < 32, s.bit (Reg.GWY_DINCFG j) 3 = false) →
    v.getLsbD i = (!s.bit Reg.GWY_DINSTATE i != s.bit (Reg.GWY_DINCFG i) 4) →
    (Store.get (fun _ => 0) s.gwy.dinRun i + 1 ≤ 10 * s.fld (Reg.GWY_DINCFG i) 8 8 →
      Answers (.dinSample v) s fun t =>
        t.bit Reg.GWY_DINSTATE i = s.bit Reg.GWY_DINSTATE i ∧
        Store.get (fun _ => 0) t.gwy.dinRun i = Store.get (fun _ => 0) s.gwy.dinRun i + 1) ∧
    (10 * s.fld (Reg.GWY_DINCFG i) 8 8 < Store.get (fun _ => 0) s.gwy.dinRun i + 1 →
      Answers (.dinSample v) s fun t =>
        t.bit Reg.GWY_DINSTATE i = !s.bit Reg.GWY_DINSTATE i ∧
        Store.get (fun _ => 0) t.gwy.dinRun i = 0)) ∧
  (∀ (s : State) (i : Fin 16) (v : BitVec 12), s.cur < 2 → Answers (.ainConversion i v) s fun t => t = s) ∧
  (∀ (s : State) (i : Fin 16) (v : BitVec 12), 2 ≤ s.cur →
    Answers (.ainConversion i v) s fun t =>
      t.fld (Reg.GWY_AINVAL i.val) 0 12 = v.toNat ∧
      (s.bit (Reg.GWY_AINTHR_w1 i.val) 16 = false → t.gwy = s.gwy)) ∧
  (∀ (s : State) (i : Fin 16), s.fld (Reg.GWY_AINTHR_w1 i.val) 0 16 = 0 ∨
      s.nowNs < Store.get (fun _ => 0) s.gwy.ainAt i.val + 1000000 * s.fld (Reg.GWY_AINTHR_w1 i.val) 0 16 →
    Answers (.ainPeriodicReport i) s fun t => t = s) ∧
  (∀ (s : State) (i : Fin 16), s.fld (Reg.GWY_AINTHR_w1 i.val) 0 16 ≠ 0 →
    Store.get (fun _ => 0) s.gwy.ainAt i.val + 1000000 * s.fld (Reg.GWY_AINTHR_w1 i.val) 0 16 ≤ s.nowNs →
    s.gwyOn 1 = true → s.gwyHeld = true →
    s.gwyRoom 5 i.val 2 = true →
    Answers (.ainPeriodicReport i) s fun t =>
      Store.get (fun _ => 0) t.gwy.ainAt i.val = s.nowNs ∧
      ∃ x, t.gwy.inbox = s.gwy.inbox ++ [x] ∧ x.bus = 5 ∧ x.chan = i.val ∧
        natAt x.bytes 20 2 = s.fld (Reg.GWY_AINVAL i.val) 0 12) ∧
  (∀ (s : State) (m : Master) (c : Fin 16), s.edgeBehind 0x1C = false → s.admits m (Reg.GWY_CANCTL c.val) →
    s.bit (Reg.GWY_CANCTL c.val) 0 = false → s.gwyOn 0 = true →
    Answers (.gwyChannelEnable m (.can c)) s fun t =>
      t.canOn c.val = true ∧ t.canState c.val = 0 ∧ t.canRec c.val = 0 ∧ t.canTec c.val = 0) ∧
  (∀ (s : State) (m : Master) (l : Fin 8), s.edgeBehind 0x1D = false → s.admits m (Reg.GWY_LINCTL l.val) →
    s.bit (Reg.GWY_LINCTL l.val) 0 = false →
    Answers (.gwyChannelEnable m (.lin l)) s fun t =>
      t.bit (Reg.GWY_LINCTL l.val) 0 = true ∧ Store.get (fun _ => 0) t.gwy.linAt l.val = 0) ∧
  (∀ (s : State) (m : Master) (c : Fin 4), s.edgeBehind 0x1D = false → s.admits m (Reg.GWY_SERCTL c.val) →
    Answers (.gwyChannelEnable m (.ser c)) s fun t => t.bit (Reg.GWY_SERCTL c.val) 0 = true ∧ t.gwy = s.gwy) ∧
  (∀ (s : State) (m : Master) (c : Fin 16), s.edgeBehind 0x1C = false → s.admits m (Reg.GWY_CANCTL c.val) →
    Answers (.gwyChannelDisable m (.can c)) s fun t =>
      t.bit (Reg.GWY_CANCTL c.val) 0 = false ∧ t.canState c.val = 3 ∧ t.canTx c.val = []) ∧
  (∀ (s : State) (m : Master) (l : Fin 8), s.edgeBehind 0x1D = false → s.admits m (Reg.GWY_LINCTL l.val) →
    Answers (.gwyChannelDisable m (.lin l)) s fun t =>
      t.bit (Reg.GWY_LINCTL l.val) 0 = false ∧ ∀ i < 64, t.linBuf l.val i = none) ∧
  (∀ (s : State) (m : Master) (c : Fin 4), s.edgeBehind 0x1D = false → s.admits m (Reg.GWY_SERCTL c.val) →
    Answers (.gwyChannelDisable m (.ser c)) s fun t =>
      t.bit (Reg.GWY_SERCTL c.val) 0 = false ∧ t.serTx c.val = []) ∧
  (∀ (s : State) (c : Fin 8) (ide : Bool) (id : BitVec 29) (dlc : BitVec 4) (d : BitVec 64),
    s.cur = 1 → s.bit (Reg.GWY_SWCFG c.val) 0 = true →
    let n := s.swErrors c.val
    let hit := (List.range 4).any (fun f => s.filterMatches c.val f ide id.toNat dlc.toNat d.toNat)
    (hit = true → Answers (.canSelectiveWake c .classic ide id dlc d) s fun t =>
      t = (s.setSwErrors c.val (n - 1)).wakeEvent 3 c.val id.toNat) ∧
    (hit = false → Answers (.canSelectiveWake c .classic ide id dlc d) s fun t =>
      t = s.setSwErrors c.val (n - 1)) ∧
    (n < 31 → Answers (.canSelectiveWake c .error ide id dlc d) s fun t =>
      t = s.setSwErrors c.val (n + 1)) ∧
    (31 ≤ n → s.bit (Reg.GWY_SWCFG c.val) 3 = true →
      Answers (.canSelectiveWake c .error ide id dlc d) s fun t =>
        t = (s.setSwErrors c.val 0).wakeEvent 3 c.val 0x80000000) ∧
    (31 ≤ n → s.bit (Reg.GWY_SWCFG c.val) 3 = false →
      Answers (.canSelectiveWake c .error ide id dlc d) s fun t => t = s.setSwErrors c.val 0) ∧
    Answers (.canSelectiveWake c .fd ide id dlc d) s fun t => t = s) ∧
  (∀ (s : State) (c : Fin 8) (o : CanWake) (ide : Bool) (id : BitVec 29) (dlc : BitVec 4) (d : BitVec 64),
    s.cur ≠ 1 → Answers (.canSelectiveWake c o ide id dlc d) s fun t => t = s) ∧
  (∀ (s : State) (l : Fin 8), s.cur = 1 → s.bit (Reg.GWY_LINCTL l.val) 2 = true →
    Answers (.linWakePulse l) s fun t => t = s.wakeEvent 5 l.val 0) ∧
  (∀ (s : State) (l : Fin 8), s.cur ≠ 1 → Answers (.linWakePulse l) s fun t => t = s)

/-- Rules R312, R319, R322, R478: the PCIe link of the host bridge. It trains to the least of what both ends
offer; when it is lost, every outstanding request ends, posted writes in the buffers are discarded, and
prefetched data with them. A replay pauses the completion timers for its time, within their grace. Rules R324
to R326: polls, signals and the frame rings of the host bridge. -/
def Obligations.BridgeLinkAndEngineCommandsComplete : Prop :=
  ((∀ (s : State) (w : Fin 3) (v : Fin 4) (b : Bool) (c : Word), s.hbr.pcfg = some c → s.linkUp = false →
    s.blkEn 0x1E = true → s.rootPort = true ∨ s.hbr.perst = true →
    let rate := if 1 ≤ getBits c 3 3 ∧ getBits c 3 3 ≤ 4 then getBits c 3 3 else 4
    Answers (.pcieLinkUp w v b) s fun t =>
      t.linkUp = true ∧ t.fld Reg.HBR_PSTAT 1 3 = 2 ^ min w.val (min 2 (getBits c 1 2)) ∧
      t.fld Reg.HBR_PSTAT 4 3 = min (v.val + 1) rate ∧
      t.bit Reg.HBR_PSTAT 7 = (b && getBit c 6) ∧ t.hbr = s.hbr) ∧
  (∀ (s : State) (w : Fin 3) (v : Fin 4) (b : Bool), s.linkUp = true ∨ s.hbr.pcfg = none →
    Answers (.pcieLinkUp w v b) s fun t => t = s) ∧
  (∀ (s : State) (pm : Bool), s.linkUp = true →
    Answers (.pcieLinkDown pm) s fun t =>
      t.linkUp = false ∧ t.hbr.posted = [] ∧ t.hbr.prefetched = [] ∧
      (pm = false → ⟨0x2282, 0, s.nowNs⟩ ∈ t.reports) ∧
      (∀ x ∈ s.hbr.requests, x ∉ t.hbr.requests) ∧ t.mem = s.mem) ∧
  (∀ (s : State) (pm : Bool), s.linkUp = false → Answers (.pcieLinkDown pm) s fun t => t = s) ∧
  (∀ (s : State), Answers (.perstNChange true) s fun t =>
    t = { s with hbr := { s.hbr with perst := true } }) ∧
  (∀ (s : State) (c : Word), s.hbr.pcfg = some c → s.rootPort = false →
    Answers (.perstNChange false) s fun t => t.hbr.perst = false ∧ t.linkUp = false) ∧
  (∀ (s : State), s.linkUp = true →
    Answers .pcieReplay s fun t =>
      let ns := Config.freeNat s.freeCtr
      t.rd Cnt.HBR_REPLAY = (s.bump Cnt.HBR_REPLAY).rd Cnt.HBR_REPLAY ∧
      t.hbr = { s.hbr with requests := s.hbr.requests.map (fun x =>
        { x with due := x.due + min x.grace ns, grace := x.grace - min x.grace ns }) }) ∧
  (∀ (s : State), s.linkUp = false → Answers .pcieReplay s fun t => t = s)) ∧
  ((∀ (s : State) (d : Fin 64) (x : Window), s.bit (Reg.HBR_POLL_w0 d.val) 0 = true →
    s.pollDue d.val ≤ s.nowNs → s.polling d.val = none →
    s.outWindow (s.fld (Reg.HBR_POLL_w0 d.val) 4 6) = some x → s.linkUp = true → s.npRoom true = true →
    Answers (.pollRead d) s fun t =>
      t.pollDue d.val = s.nowNs + 10000 * clampNat 1 1000000 (s.fld (Reg.HBR_POLL_w0 d.val) 12 20) ∧
      ∃ r, t.hbr.requests = s.hbr.requests ++ [r] ∧ r.kind = .poll d.val ∧ r.size = 4 ∧ r.urgent = true ∧
        r.bus = x.target + s.rdN (Reg.HBR_POLL_w1 d.val) / 4 * 4) ∧
  (∀ (s : State) (d : Fin 64) (r : HbrRequest), s.bit (Reg.HBR_POLL_w0 d.val) 0 = true →
    s.pollDue d.val ≤ s.nowNs → s.polling d.val = some r →
    Answers (.pollRead d) s fun t => t = (s.bump Cnt.HBR_POLL_SKIP).pollNext d.val) ∧
  (∀ (s : State) (d : Fin 64), s.bit (Reg.HBR_POLL_w0 d.val) 0 = false ∨ s.nowNs < s.pollDue d.val →
    Answers (.pollRead d) s fun t => t = s) ∧
  (∀ (s : State) (d : Fin 64) (r : HbrRequest) (bs : List Byte), s.polling d.val = some r →
    let w : Word := (laneRead r.lanes r.bus 4 bs).setWidth 32
    Answers (.pollCompletion d .ok bs) s fun t =>
      t.rd (Reg.HBR_POLL_w4 d.val) = w ∧ Store.get (fun _ => false) t.hbr.polled d.val = true ∧
      (s.pollHit d.val w = true → t.bit (Reg.HBR_POLLHIT (d.val / 32)) (d.val % 32) = true ∧
        t.bit Reg.HBR_IRQ 2 = true ∧
        (s.bit (Reg.HBR_POLL_w0 d.val) 3 = true → t.bit (Reg.HBR_POLL_w0 d.val) 0 = false)) ∧
      (s.pollHit d.val w = false → ∀ k, k ≠ Reg.HBR_POLL_w4 d.val → t.rd k = s.rd k)) ∧
  (∀ (s : State) (d : Fin 64) (r : HbrRequest) (st : CplStatus) (bs : List Byte), s.polling d.val = some r →
    s.cplStatus st ≠ .ok → Answers (.pollCompletion d st bs) s fun t =>
      t.bit (Reg.HBR_POLL_w0 d.val) 0 = false ∧ t.bit (Reg.HBR_POLLERR (d.val / 32)) (d.val % 32) = true ∧
      t.requestOf r.id = none) ∧
  (∀ (s : State) (d : Fin 64) (st : CplStatus) (bs : List Byte), s.polling d.val = none →
    Answers (.pollCompletion d st bs) s fun t => t = s) ∧
  (∀ (s : State) (m : Master) (sig u : Word) (i : Nat), s.admits m Reg.HBR_SIGTRIG → s.rootPort = true →
    s.linkUp = true → i < 32 → sig = BitVec.ofNat 32 (2 ^ i) →
    Answers (.signalTrigger m sig u) s fun t =>
      ∃ p, t.hbr.posted.getLast? = some p ∧ p.urgent = true ∧
        (s.postRoom true 4 = true → t.hbr.posted = s.hbr.posted ++ [p]) ∧
        p.bus = s.rdN (Reg.HBR_SIG_w0_2 i 0) + 2 ^ 32 * s.rdN (Reg.HBR_SIG_w0_2 i 1) ∧
        natLE (p.cells.map (fun c => c.2)) = s.rdN (Reg.HBR_SIG_w0_2 i 2)) ∧
  (∀ (s : State) (m : Master) (sig : Word), s.admits m Reg.HBR_SIGTRIG → s.rootPort = false →
    Answers (.signalTrigger m sig 0) s fun t =>
      t.hbr = { s.hbr with msixPending := sig ||| s.hbr.msixPending } ∧ t.regs = s.regs) ∧
  (∀ (s : State) (m : Master) (r : Fin 2) (tail : Word), s.admits m (Reg.HBR_RING_w3 r.val) →
    Answers (.ringTailWrite m r tail) s fun t =>
      t.rd (Reg.HBR_RING_w3 r.val) = tail ∧ ∀ k, k ≠ Reg.HBR_RING_w3 r.val → t.rd k = s.rd k) ∧
  (∀ (s : State) (tc : Fin 8) (n : BitVec 16) (bs : List Byte) (w : Nat) (x : Window),
    s.ringWindow 0 = some (w, x) → s.hostHeld = false →
    (64 ≤ n.toNat → n.toNat ≤ 9216 →
      Answers (.ringTxFrame true tc n bs) s fun t =>
        (∃ v, t.frame s.nextFrame = some v ∧ v.bytes = bytesAt bs 0 n.toNat ∧ v.inPort = 35 ∧ v.tc = tc.val) ∧
        t.nextFrame = s.nextFrame + 1 ∧
        t.rdN (Reg.HBR_RING_w2 0) = (s.rdN (Reg.HBR_RING_w2 0) + 1) % s.ringSize 0) ∧
    (n.toNat < 64 ∨ 9216 < n.toNat →
      Answers (.ringTxFrame true tc n bs) s fun t =>
        t.frames = s.frames ∧ t.rdN (Reg.HBR_RING_w2 0) = (s.rdN (Reg.HBR_RING_w2 0) + 1) % s.ringSize 0)) ∧
  (∀ (s : State) (o : Bool) (tc : Fin 8) (n : BitVec 16) (bs : List Byte),
    s.ringWindow 0 = none ∨ o = false ∨ s.hostHeld = true →
    Answers (.ringTxFrame o tc n bs) s fun t => t = s) ∧
  (∀ (s : State) (b : BitVec 64) (w : Nat) (x : Window) (bs : List Byte) (rest : List (List Byte)),
    s.ringWindow 1 = some (w, x) → Store.get (fun _ => []) s.fab.delivered 35 = bs :: rest →
    Answers (.ringRxFrame true b) s fun t =>
      Store.get (fun _ => []) t.fab.delivered 35 = rest ∧
      t.rdN (Reg.HBR_RING_w2 1) = (s.rdN (Reg.HBR_RING_w2 1) + 1) % s.ringSize 1) ∧
  (∀ (s : State) (o : Bool) (b : BitVec 64), s.ringWindow 1 = none ∨ o = false ∨
    Store.get (fun _ => []) s.fab.delivered 35 = [] → Answers (.ringRxFrame o b) s fun t => t = s))

/-- Rules R313 to R320, R322, R323: outbound requests and their ends, errors, the fence, and prefetched data.
-/
def Obligations.OutboundCommandsComplete : Prop :=
  (∀ (s : State) (m : Master) (a : BitVec 40) (sz : AccessSize) (d : BitVec 64) (w : Nat) (x : Window),
    targetOf a.toNat = .outbound →
    firstWindow s.outWindow (fun y => y.covers a.toNat) 64 = some (w, x) → (x.indigo = true → m.indigo = true) →
    let bus := x.target + (a.toNat - x.base)
    (s.memCheck m a.toNat .write = none → s.postRoom x.urgent sz.bytes = true → s.linkUp = true →
      Answers (.outboundRequest m a sz true d) s fun t =>
        (∃ p, t.hbr.posted = s.hbr.posted ++ [p] ∧ p.urgent = x.urgent ∧ p.master = m ∧
          p.bus = bus ∧ p.cells.length = sz.bytes) ∧
        t.busReply = { data := 0 }) ∧
    (s.memCheck m a.toNat .write = none → s.postRoom x.urgent sz.bytes = false →
      Answers (.outboundRequest m a sz true d) s fun t => t = s) ∧
    (∀ q, s.memCheck m a.toNat .read = none → x.pf = true →
      s.prefetchHit w m.indigo bus sz.bytes = some q →
      Answers (.outboundRequest m a sz false d) s fun t =>
        t.hbr.requests = s.hbr.requests ∧ t.regs = s.regs ∧
        t.busReply = ⟨laneRead x.lanes bus sz.bytes
          (bytesAt q.bytes (bus / 8 * 8 - q.bus) 8), false⟩) ∧
    (s.memCheck m a.toNat .read = none → x.pf = false ∨
        s.prefetchHit w m.indigo bus sz.bytes = none → s.linkUp = false →
      Answers (.outboundRequest m a sz false d) s fun t =>
        t.busReply = { data := 0, error := true } ∧ t.hbr = s.hbr ∧ ⟨0x0281, 0, s.nowNs⟩ ∈ t.reports) ∧
    (s.memCheck m a.toNat .read = none → x.pf = false ∨
        s.prefetchHit w m.indigo bus sz.bytes = none →
      s.linkUp = true → s.npRoom x.urgent = true →
      Answers (.outboundRequest m a sz false d) s fun t =>
        (∃ r, t.hbr.requests = s.hbr.requests ++ [r] ∧ r.id = s.hbr.nextId ∧ r.kind = .read ∧ r.master = m ∧
          r.bus = bus ∧ r.size = sz.bytes ∧ r.lanes = x.lanes ∧
          r.due = s.nowNs + 1000 * clampNat 50 64000 (s.fld Reg.HBR_CTO 0 16)) ∧
        t.hbr.nextId = s.hbr.nextId + 1)) ∧
  (∀ (s : State) (m : Master) (a : BitVec 40) (sz : AccessSize) (b : Bool) (d : BitVec 64),
    targetOf a.toNat ≠ .outbound ∨ s.regionCheck m a.toNat (if b = true then .write else .read) = none ∧
      firstWindow s.outWindow (fun y => y.covers a.toNat) 64 = none →
    Answers (.outboundRequest m a sz b d) s fun t =>
      t = s.busError m a.toNat b 6 ∧ t.busReply = { data := 0, error := true } ∧ t.hbr = s.hbr) ∧
  (∀ (s : State) (m : Master) (a : BitVec 40) (sz : AccessSize) (b : Bool) (d : BitVec 64) (w : Nat) (x : Window),
    targetOf a.toNat = .outbound → s.regionCheck m a.toNat (if b = true then .write else .read) = none →
    firstWindow s.outWindow (fun y => y.covers a.toNat) 64 = some (w, x) → x.indigo = true → m.indigo = false →
    Answers (.outboundRequest m a sz b d) s fun t => t = s.busError m a.toNat b 4) ∧
  (∀ (s : State) (m : Master) (a : BitVec 40) (sz : AccessSize) (b : Bool) (d : BitVec 64) (c : Nat),
    targetOf a.toNat = .outbound → s.regionCheck m a.toNat (if b = true then .write else .read) = some c →
    Answers (.outboundRequest m a sz b d) s fun t => t = s.busError m a.toNat b c) ∧
  (∀ (s : State) (id : Nat) (x : HbrRequest) (st : CplStatus) (d : List Byte), s.requestOf id = some x →
    x.kind = .read → st = .ok ∨ st = .ecrc ∧ (∀ c, s.hbr.pcfg = some c → getBit c 7 = false) →
    Answers (.outboundCompletion id st d) s fun t =>
      t.hbr.requests = s.hbr.requests.filter (fun y => y.id != id) ∧ t.regs = s.regs ∧
      t.hbr.posted = s.hbr.posted.filter (fun y => y.urgent != x.urgent || decide (id ≤ y.id)) ∧
      t.busReply = { data := laneRead x.lanes x.bus x.size (d.take 8) }) ∧
  (∀ (s : State) (id : Nat) (x : HbrRequest) (st : CplStatus) (d : List Byte), s.requestOf id = some x →
    x.kind = .read → s.cplStatus st ≠ .ok →
    Answers (.outboundCompletion id st d) s fun t =>
      t.busReply.error = true ∧ t.requestOf id = none ∧
      ⟨0x0281, 0, s.nowNs⟩ ∈ t.reports) ∧
  (∀ (s : State) (id : Nat) (st : CplStatus) (d : List Byte), s.requestOf id = none →
    Answers (.outboundCompletion id st d) s (fun t => t = s) ∧
    Answers (.completionTimeout id) s fun t => t = s) ∧
  (∀ (s : State) (id : Nat) (x : HbrRequest), s.requestOf id = some x → s.nowNs < x.due →
    Answers (.completionTimeout id) s fun t => t = s) ∧
  (∀ (s : State) (id : Nat) (x : HbrRequest), s.requestOf id = some x → x.due ≤ s.nowNs →
    Answers (.completionTimeout id) s fun t =>
      t.requestOf id = none ∧
      t.rd Cnt.HBR_CPL_TIMEOUT = (s.bump Cnt.HBR_CPL_TIMEOUT).rd Cnt.HBR_CPL_TIMEOUT ∧
      (x.kind = .fence → t.fld Reg.HBR_FENCESTAT 1 3 = 3 ∧ t.bit Reg.HBR_FENCESTAT 0 = false ∧
        t.bit Reg.HBR_FENCESTAT 31 = true)) ∧
  (∀ (s : State) (v : Fin 3) (rid : BitVec 16) (f : Option FailedRequest), s.linkUp = true →
    Answers (.errorMessageReceived v rid f) s fun t =>
      t.hbr = { s.hbr with fenceError := true } ∧ t.bit Reg.HBR_IRQ 0 = true ∧
      t.reports = s.reports ++ [⟨0x0281, 0, s.nowNs⟩] ∧
      getBits (t.rd (Reg.HBR_ELOG_w0 (s.fld Reg.HBR_ELOGHEAD 0 4))) 0 4 = 6 + v.val) ∧
  (∀ (s : State) (k : Nat) (x : HbrPosted), s.hbr.posted[k]? = some x →
    Answers (.bridgeBufferError (.posted k)) s fun t =>
      t.hbr = { s.hbr with posted := s.hbr.posted.eraseIdx k } ∧
      t.reports = s.reports ++ [⟨0x0281, 0, s.nowNs⟩, ⟨0x2283, 0, s.nowNs⟩]) ∧
  (∀ (s : State) (id : Nat) (x : HbrRequest), s.requestOf id = some x →
    Answers (.bridgeBufferError (.completion id)) s fun t =>
      t.requestOf id = none ∧ ⟨0x2283, 0, s.nowNs⟩ ∈ t.reports) ∧
  (∀ (s : State) (a : BitVec 64) (rid : BitVec 16),
    Answers (.bridgeBufferError (.inbound a rid)) s fun t =>
      t.hbr = s.hbr ∧ t.mem = s.mem ∧ t.reports = s.reports ++ [⟨0x0281, 0, s.nowNs⟩, ⟨0x2283, 0, s.nowNs⟩]) ∧
  (∀ (s : State) (m : Master) (w : Fin 64) (x : Window), s.admits m Reg.HBR_FENCE →
    s.bit Reg.HBR_FENCESTAT 0 = false → s.outWindow w.val = some x →
    (s.linkUp = true → s.npRoom x.urgent = false → Answers (.fence m w) s fun t =>
      t.hbr = s.hbr ∧ t.regs = s.regs) ∧
    (s.linkUp = true → s.npRoom x.urgent = true → Answers (.fence m w) s fun t =>
      t.bit Reg.HBR_FENCESTAT 0 = true ∧ ∃ r, t.hbr.requests = s.hbr.requests ++ [r] ∧ r.kind = .fence ∧
        r.win = w.val ∧ r.urgent = x.urgent) ∧
    (s.linkUp = false → Answers (.fence m w) s fun t =>
      t.bit Reg.HBR_FENCESTAT 0 = false ∧ t.fld Reg.HBR_FENCESTAT 1 3 = 4 ∧ t.bit Reg.HBR_FENCESTAT 31 = true)) ∧
  (∀ (s : State) (m : Master) (w : Fin 64), s.admits m Reg.HBR_FENCE →
    s.bit Reg.HBR_FENCESTAT 0 = false → s.outWindow w.val = none →
    Answers (.fence m w) s fun t => t.fld Reg.HBR_FENCESTAT 1 3 = 5 ∧ t.bit Reg.HBR_FENCESTAT 31 = true) ∧
  (∀ (s : State) (before after : List HbrRequest) (x : HbrRequest), s.hbr.requests = before ++ x :: after →
    x.kind = .fence → (∀ y ∈ before, y.kind ≠ .fence) →
    Answers (.fenceDone .ok) s fun t =>
      t.bit Reg.HBR_FENCESTAT 0 = false ∧ t.bit Reg.HBR_FENCESTAT 31 = true ∧ t.bit Reg.HBR_IRQ 1 = true ∧
      t.fld Reg.HBR_FENCESTAT 1 3 = (if s.hbr.fenceError = true then 1 else 0) ∧
      t.postedIn x.urgent = (s.postedIn x.urgent).filter (fun y => decide (x.id ≤ y.id)) ∧
      t.postedIn (!x.urgent) = s.postedIn (!x.urgent)) ∧
  (∀ (s : State) (k : Fin 16) (x : PfBlock), s.hbr.prefetched[k.val]? = some x → s.nowNs < x.used + 10000 →
    Answers (.prefetchExpiry k) s fun t => t = s) ∧
  (∀ (s : State) (k : Fin 16) (x : PfBlock), s.hbr.prefetched[k.val]? = some x → x.used + 10000 ≤ s.nowNs →
    Answers (.prefetchExpiry k) s fun t =>
      t.hbr = { s.hbr with prefetched := s.hbr.prefetched.eraseIdx k.val } ∧
      (x.served = false → t.bit Reg.HBR_IRQ 3 = true ∧ t.rdN Reg.HBR_PFLOGL = x.addr % 2 ^ 32) ∧
      (x.served = true → t.regs = s.regs)) ∧
  (∀ (s : State) (k : Fin 16), s.hbr.prefetched[k.val]? = none → Answers (.prefetchExpiry k) s fun t => t = s)

/-- Rules R20, R313, R321: an inbound request that no window covers is refused, a refused one changes no
memory, and one that passes every check acts. -/
def Obligations.InboundRequestsComplete : Prop :=
  (∀ (s : State) (w u b : Bool) (rid : BitVec 16) (a : BitVec 64) (bs : List (Option Byte)),
    s.linkUp = false ∨ s.blkAccepts 0x1E = false ∨ 512 < bs.length →
    Answers (.inboundRequest w u b rid a bs) s fun t => t = s) ∧
  (∀ (s : State) (u b : Bool) (rid : BitVec 16) (a : BitVec 64) (bs : List (Option Byte)),
    s.linkUp = true → s.blkAccepts 0x1E = true → bs.length ≤ 512 →
    s.inboundWindow b a.toNat (max 1 bs.length) = none →
    (Answers (.inboundRequest false u b rid a bs) s fun t =>
      t.mem = s.mem ∧ t.hbr.completion = some ⟨1, rid.toNat, u, []⟩ ∧
      t.hbr.aerSent = (if s.rootPort = true then s.hbr.aerSent else some 1) ∧
      t.reports = s.reports ++ [⟨0x0281, 0, s.nowNs⟩]) ∧
    (Answers (.inboundRequest true u b rid a bs) s fun t =>
      t.mem = s.mem ∧ t.reports = s.reports ++ [⟨0x0281, 0, s.nowNs⟩] ∧
      t.hbr = { s.hbr with aerSent := if s.rootPort = true then s.hbr.aerSent else some 1 })) ∧
  (∀ (s : State) (u b : Bool) (rid : BitVec 16) (a : BitVec 64) (v : Byte) (w : Nat) (x : Window),
    s.linkUp = true → s.blkAccepts 0x1E = true → s.inboundWindow b a.toNat 1 = some (w, x) → x.lanes = 0 →
    let l := x.target + (a.toNat - x.base)
    targetOf l = .sram → s.memCheckRange (bridgeMaster x.indigo) l 1 .write = none →
    s.memCheckRange (bridgeMaster x.indigo) l 1 .read = none → s.badMem l 1 = none →
    (Answers (.inboundRequest true u b rid a [some v]) s fun t =>
      t.rdByte l = v ∧ ∀ y, y ≠ l → t.rdByte y = s.rdByte y) ∧
    (Answers (.inboundRequest false u b rid a [some v]) s fun t =>
      t.mem = s.mem ∧ t.hbr.completion = some ⟨0, rid.toNat, u, [s.rdByte l]⟩))

/-- Rules R331, R336, R340, R342 to R349, R351, R352: the compute complex: partition identities, software
interrupts, the release of units, lockstep and its tests, checkpoints and debug. -/
def Obligations.ComputeCommandsComplete : Prop :=
  (∀ (s : State) (u : Fin 6) (v : Word), s.unitThere u.val = true → getBits v 0 6 < 48 →
    s.home (getBits v 0 6) = u.val →
    Answers (.mjpartWrite u v) s fun t =>
      Store.get (fun _ => 0x40) t.cpx.mjpart u.val = v &&& 0x7F ∧ t.cpx.illegal = false ∧
      ∀ x, x ≠ u.val → Store.get (fun _ => 0x40) t.cpx.mjpart x = Store.get (fun _ => 0x40) s.cpx.mjpart x) ∧
  (∀ (s : State) (u : Fin 6) (v : Word), s.unitThere u.val = true →
    48 ≤ getBits v 0 6 ∨ s.home (getBits v 0 6) ≠ u.val →
    Answers (.mjpartWrite u v) s fun t => t.cpx = { s.cpx with illegal := true } ∧ t.regs = s.regs) ∧
  (∀ (s : State) (u : Fin 6) (v : Word), s.unitThere u.val = false →
    Answers (.mjpartWrite u v) s fun t => t = s) ∧
  (∀ (s : State) (m : Master) (n : BitVec 9), s.admits m Reg.CPX_SWIRQ → 384 ≤ n.toNat →
    Answers (.softwareInterrupt m n) s fun t => t.irqs = ((s.reply 0).irq n.toNat).irqs ∧ t.regs = s.regs) ∧
  (∀ (s : State) (m : Master) (n : BitVec 9), s.admits m Reg.CPX_SWIRQ → n.toNat < 384 →
    Answers (.softwareInterrupt m n) s fun t => t = s.reply 0) ∧
  (∀ (s : State) (m : Master) (u : Fin 6), s.admits m (pairKey u.val) → s.unitThere u.val = true →
    s.mainUnit ≠ u.val → s.unitState u.val = 0 →
    Answers (.pairRun m u) s fun t =>
      t.bit (pairKey u.val) 0 = true ∧ t.unitState u.val = (if s.isPair u.val = true then 1 else 2) ∧
      ∀ x : Fin 6, x ≠ u → t.unitState x.val = s.unitState x.val) ∧
  (∀ (s : State) (m : Master) (u : Fin 6), s.admits m (pairKey u.val) →
    s.unitThere u.val = false ∨ s.mainUnit = u.val → Answers (.pairRun m u) s fun t => t = s.reply 0) ∧
  (∀ (s : State) (u : Fin 6), s.unitState u.val = 1 →
    (Answers (.comparatorSelftestDone u true) s fun t =>
      t.unitState u.val = 2 ∧ t.flt.faultN0Start = false ∧ t.bit Reg.FLT_FAULTN 0 = s.flt.fatal) ∧
    (u.val ≠ 0 ∨ s.flt.faultN0Start = false →
      Answers (.comparatorSelftestDone u false) s fun t =>
        t.unitState u.val = 7 ∧ t.bit (pairKey u.val) 0 = false ∧ t.bit Reg.FLT_GSTAT 1 = true ∧
        ⟨0x32C3, 0, s.nowNs⟩ ∈ t.reports ∧ t.boot.halted = s.boot.halted)) ∧
  (∀ (s : State), s.unitState 0 = 1 → s.flt.faultN0Start = true →
    Answers (.comparatorSelftestDone 0 false) s fun t =>
      t.unitState 0 = 7 ∧ t.boot.halted = true ∧ ⟨0x42C3, 0, s.nowNs⟩ ∈ t.reports) ∧
  (∀ (s : State) (u : Fin 6) (b : Bool), s.unitState u.val ≠ 1 →
    Answers (.comparatorSelftestDone u b) s fun t => t = s) ∧
  (∀ (s : State) (u : Fin 6), s.isPair u.val = true → s.unitState u.val = 2 →
    s.within (Store.get (fun _ => none) s.cpx.spareAt u.val) 3600000000000 = false →
    (s.canSurvive (twin u.val) = true → Answers (.lockstepMismatch u) s fun t =>
      t.unitState u.val = 4 ∧ t.bit (pairKey u.val) 0 = false ∧
      Store.get (fun _ => 0) t.cpx.isolatedAt u.val = s.nowNs ∧ ⟨0x32C1, 0, s.nowNs⟩ ∈ t.reports ∧
      (s.unitState (twin u.val) = 2 → t.unitState (twin u.val) = 2) ∧
      (∀ p < 48, s.home p = u.val → t.home p = twin u.val) ∧
      (∀ p < 48, s.home p ≠ u.val → t.home p = s.home p)) ∧
    (s.canSurvive (twin u.val) = false → Answers (.lockstepMismatch u) s fun t =>
      t.unitState u.val = 4 ∧ ⟨0x42C4, 0, s.nowNs⟩ ∈ t.reports ∧ ∀ p < 48, t.home p = s.home p)) ∧
  (∀ (s : State) (u : Fin 6), s.isPair u.val = true → s.unitState u.val = 2 →
    s.within (Store.get (fun _ => none) s.cpx.spareAt u.val) 3600000000000 = true →
    Answers (.lockstepMismatch u) s fun t => t.unitState u.val = 7) ∧
  (∀ (s : State) (u : Fin 6), s.unitState u.val = 4 →
    Store.get (fun _ => 0) s.cpx.isolatedAt u.val + 10000000 ≤ s.nowNs →
    (Answers (.spareReturnTest u true) s fun t =>
      t.unitState u.val = 6 ∧ Store.get (fun _ => none) t.cpx.spareAt u.val = some s.nowNs) ∧
    (Answers (.spareReturnTest u false) s fun t =>
      t.unitState u.val = 7 ∧ t.reports = s.reports ++ [⟨0x22C6, 0, s.nowNs⟩])) ∧
  (∀ (s : State) (u : Fin 6) (b : Bool), s.unitState u.val ≠ 4 ∨
      s.nowNs < Store.get (fun _ => 0) s.cpx.isolatedAt u.val + 10000000 →
    Answers (.spareReturnTest u b) s fun t => t = s) ∧
  (∀ (s : State) (u : Fin 6), s.isPair u.val = true → s.unitState u.val = 2 →
    (Answers (.groomerScrub u true) s fun t =>
      t.unitState u.val = 2 ∧ t.rd Cnt.CPX_SCRUBS = (s.bump Cnt.CPX_SCRUBS).rd Cnt.CPX_SCRUBS ∧
      t.reports = s.reports) ∧
    (s.within (Store.get (fun _ => none) s.cpx.latentAt u.val) 100000000 = false →
      Answers (.groomerScrub u false) s fun t =>
        t.unitState u.val = 5 ∧ t.reports = s.reports ++ [⟨0x12C2, 0, s.nowNs⟩] ∧
        Store.get (fun _ => none) t.cpx.latentAt u.val = some s.nowNs) ∧
    (s.within (Store.get (fun _ => none) s.cpx.latentAt u.val) 100000000 = true →
      Answers (.groomerScrub u false) s fun t =>
        t.unitState u.val = 4 ∨ t.unitState u.val = 7)) ∧
  (∀ (s : State) (u : Fin 6), s.unitState u.val = 5 →
    Answers (.resyncDone u) s fun t => t.unitState u.val = 2 ∧ t.cpx = s.cpx) ∧
  (∀ (s : State) (u : Fin 6), s.unitState u.val ≠ 5 → Answers (.resyncDone u) s fun t => t = s) ∧
  (∀ (s : State) (m : Master) (p : BitVec 6) (q : BitVec 16), s.admits m Reg.CPX_CKPTCOMMIT → p.toNat < 48 →
    Answers (.checkpointCommit m p q) s fun t =>
      t.fld (Reg.CPX_CKPTSEQ p.toNat) 0 16 = q.toNat ∧
      ∀ k, k ≠ Reg.CPX_CKPTSEQ p.toNat → t.rd k = s.rd k) ∧
  (∀ (s : State) (m : Master), s.admits m Reg.CPX_DBGCTL → s.vaultState ≠ 3 →
    let c := s.regBytes (Reg.CPX_DBGCERT 0) 228
    (s.certCheck c = 0 → Answers (.debugOpen m) s fun t =>
      t.fld Reg.CPX_DBGCTL 8 4 = 0 ∧ t.fld Reg.CPX_DBGCTL 0 7 = natAt c 6 2 ∧
      t.cpx.notAfter = natAt c 0x18 8 ∧ ⟨0x02C5, 0, s.nowNs⟩ ∈ t.reports ∧
      ∀ j < 12, t.rdN (Reg.VLT_MR 6 j) =
        natBE (bytesAt (Config.sha384 (s.mr 6 ++ Config.sha384 c)) (4 * j) 4)) ∧
    (s.certCheck c ≠ 0 → Answers (.debugOpen m) s fun t =>
      t.fld Reg.CPX_DBGCTL 8 4 = s.certCheck c ∧ t.fld Reg.CPX_DBGCTL 0 7 = s.fld Reg.CPX_DBGCTL 0 7 ∧
      t.cpx = s.cpx ∧ t.reports = s.reports)) ∧
  (∀ (s : State), s.fld Reg.CPX_DBGCTL 0 7 ≠ 0 → s.cpx.notAfter < s.rtcSec →
    Answers .debugExpiry s fun t =>
      t.fld Reg.CPX_DBGCTL 0 7 = 0 ∧ ∀ u : Fin 6, s.unitState u.val = 3 → t.unitState u.val = 2) ∧
  (∀ (s : State), s.fld Reg.CPX_DBGCTL 0 7 = 0 ∨ s.rtcSec ≤ s.cpx.notAfter →
    Answers .debugExpiry s fun t => t = s) ∧
  (∀ (s : State) (u : Fin 6), s.mayHalt u.val = true →
    (s.unitState u.val = 2 → Answers (.debugHalt u true) s fun t => t.unitState u.val = 3) ∧
    (s.unitState u.val = 3 → Answers (.debugHalt u false) s fun t => t.unitState u.val = 2)) ∧
  (∀ (s : State) (u : Fin 6) (h : Bool), s.mayHalt u.val = false → Answers (.debugHalt u h) s fun t => t = s)

/-- Rules R386, R392, R393, R395, R398: the sources of the wake unit, its clock and the votes of software.
Rules R387, R395, R398: PWRQ of the wake program. Asleep, it wakes the module or sends it from Slate to Umber;
awake, it gives the program's consent with a depth, or takes it back. -/
def Obligations.WakeCommandsComplete : Prop :=
  ((∀ (s : State) (p : Fin 4) (up : Bool),
    (s.fld Reg.WAK_PINCFG (2 * p.val) 2 = 3 ∨ s.fld Reg.WAK_PINCFG (2 * p.val) 2 = (if up = true then 1 else 2) →
      Answers (.wakePinEdge p up) s fun t => t = s.wakeEvent 1 p.val 0) ∧
    (s.fld Reg.WAK_PINCFG (2 * p.val) 2 = 0 ∨ s.fld Reg.WAK_PINCFG (2 * p.val) 2 = (if up = true then 2 else 1) →
      Answers (.wakePinEdge p up) s fun t => t = s)) ∧
  (∀ (s : State), s.sourceEnabled 2 = false → s.bit Reg.WAK_SLEEPCFG 1 = false →
    Answers .keyAssert s fun t => t = { s with wak := { s.wak with key := true } }) ∧
  (∀ (s : State), s.cur = 1 → s.trans = false → s.sourceEnabled 2 = true → s.wRunning = false →
    s.phase ≠ 3 → s.wak.waking = none →
    Answers .keyAssert s fun t =>
      t.wak.key = true ∧ t.trans = true ∧ t.fld Reg.WAK_STATE 2 2 = s.sourceTarget 2 ∧
      t.wak.waking = some (s.fld Reg.WAK_WKHEAD 0 5) ∧
      t.rdN (Reg.WAK_REC_w0 (s.fld Reg.WAK_WKHEAD 0 5)) = 65536 + 2 ∧
      t.bit (Reg.WAK_REC_w3 (s.fld Reg.WAK_WKHEAD 0 5)) 31 = true) ∧
  (∀ (s : State), s.agentRuns = false →
    Answers .keyDeassert s fun t => t = { s with wak := { s.wak with key := false } }) ∧
  (∀ (s : State), s.agentRuns = true → s.bit Reg.WAK_RINGCFG 0 = false → s.phase = 0 → s.trans = false →
    s.bit Reg.WAK_EPOCH 18 = false → s.fld Reg.WAK_CONSENT 0 16 = 0 → s.wcons = true →
    Answers .keyDeassert s fun t =>
      t.wak.key = false ∧ t.wak.deadline = some (s.nowNs + 40000000) ∧ t.phase = 2 ∧
        t.wak.seg.mine = true) ∧
  (∀ (s : State) (a : Fin 2), s.bit (Reg.WAK_ALARM_en a.val) 0 = true →
    Answers (.rtcAlarm a) s fun t =>
      t = (s.setBit (Reg.WAK_ALARM_en a.val) 0 false).wakeEvent 7 a.val (s.rdN (Reg.WAK_ALARM_sec a.val)) ∧
      t.bit (Reg.WAK_ALARM_en a.val) 0 = false) ∧
  (∀ (s : State) (a : Fin 2), s.bit (Reg.WAK_ALARM_en a.val) 0 = false →
    Answers (.rtcAlarm a) s fun t => t = s) ∧
  (∀ (s : State), s.fld Reg.WAK_WTMR 0 16 ≠ 0 →
    s.wak.timerAt + 1000000 * s.fld Reg.WAK_WTMR 0 16 ≤ s.nowNs → s.wActive = true →
    s.threadReady 200 = true →
    Answers .wakeTimerTick s fun t =>
      t = { s with wak := { s.wak with
              timerAt := s.nowNs, events := s.wak.events ++ [{ code := 0x10 }] } }) ∧
  (∀ (s : State) (rd : Nat) (mask : Word), s.fld Reg.WAK_WTMR 0 16 ≠ 0 →
    s.wak.timerAt + 1000000 * s.fld Reg.WAK_WTMR 0 16 ≤ s.nowNs → s.wActive = true →
    (s.thread 200).status = .waiting (.event rd mask) → getBit mask 16 = true → rd ≠ 0 →
    Answers .wakeTimerTick s fun t =>
      (t.thread 200).status = .ready ∧ (t.thread 200).reg rd = 16 ∧ t.wak.events = s.wak.events) ∧
  (∀ (s : State), s.wActive = false → s.fld Reg.WAK_WTMR 0 16 ≠ 0 →
    s.wak.timerAt + 1000000 * s.fld Reg.WAK_WTMR 0 16 ≤ s.nowNs →
    Answers .wakeTimerTick s fun t => t = { s with wak := { s.wak with timerAt := s.nowNs } }) ∧
  (∀ (s : State), s.fld Reg.WAK_WTMR 0 16 = 0 ∨
      s.nowNs < s.wak.timerAt + 1000000 * s.fld Reg.WAK_WTMR 0 16 →
    Answers .wakeTimerTick s fun t => t = s) ∧
  (∀ (s : State) (m : Master), s.admits m Reg.WAK_RTCCTL → s.edgeBehind 0x26 = false →
    Answers (.rtcSet m) s fun t =>
      t.rtcValid = true ∧ t.rtcTicks = 32768 * s.rdN Reg.WAK_RTCSET ∧ t.rtcSec = s.rdN Reg.WAK_RTCSET) ∧
  (∀ (s : State), Answers .rtcInvalid s fun t =>
    t.rtcValid = false ∧ t.wak = { s.wak with rtcLost := true } ∧ t.rtc = s.rtc) ∧
  (∀ (s : State) (m : Master) (v : BitVec 16), s.admits m Reg.WAK_CONSENT →
    s.edgeBehind 0x26 = false → s.fld Reg.WAK_CONSENT 0 16 ≠ 0 →
    v.toNat ≠ 0 → s.agentRuns = false →
    Answers (.voteWrite m v) s fun t =>
      t.fld Reg.WAK_CONSENT 0 16 = v.toNat ∧ ∀ k, k ≠ Reg.WAK_CONSENT → t.rd k = s.rd k) ∧
  (∀ (s : State) (m : Master) (v : BitVec 16), s.admits m Reg.WAK_CONSENT →
    s.edgeBehind 0x26 = false → s.fld Reg.WAK_CONSENT 0 16 = 0 →
    v.toNat ≠ 0 → 2 ≤ s.cur → s.phase ≠ 3 → s.wak.seg.mine = false → s.wak.deadline = none →
    Answers (.voteWrite m v) s fun t =>
      t.fld Reg.WAK_CONSENT 0 16 = v.toNat ∧ t.bit Reg.WAK_EPOCH 18 = true ∧ t.wak = s.wak) ∧
  (∀ (s : State) (m : Master) (v : BitVec 16), s.admits m Reg.WAK_CONSENT → s.edgeBehind 0x26 = true →
    Answers (.voteWrite m v) s fun t => t.regs = s.regs ∧ t.edgeQueue.length = s.edgeQueue.length + 1)) ∧
  (∀ (s : State) (ra : Gpr), s.canIssue 200 [.w] →
    let code := getBits (s.gr 200 ra) 0 4
    let ran := fun (t : State) => (t.thread 200).pc = (s.thread 200).pc + 1 ∧ t.wak.taken = none
    (code = 0 → s.cur = 1 → s.trans = false → Answers (.pwrqUmber 200 ra) s fun t => ran t ∧
      t.trans = true ∧ t.fld Reg.WAK_STATE 2 2 = 0) ∧
    (code = 0 → 2 ≤ s.cur → s.agentRuns = false → Answers (.pwrqUmber 200 ra) s fun t => ran t ∧
      t.wak.depth = some 0 ∧ t.bit Reg.WAK_CONSENT 16 = true) ∧
    (code = 1 → s.cur < 2 → Answers (.pwrqSlate 200 ra) s fun t => ran t ∧ t.regs = s.regs) ∧
    (code = 1 → 2 ≤ s.cur → s.agentRuns = false → Answers (.pwrqSlate 200 ra) s fun t => ran t ∧
      t.wak.depth = some 1 ∧ t.bit Reg.WAK_CONSENT 16 = true) ∧
    (code = 2 → s.cur < 2 → s.trans = false → Answers (.pwrqPewter 200 ra) s fun t => ran t ∧
      t.trans = true ∧ t.fld Reg.WAK_STATE 2 2 = 2 ∧ t.epoch = (s.epoch + 1) % 65536 ∧
      t.wak.waking = s.wak.taken) ∧
    (code = 2 → 2 ≤ s.cur → s.agentRuns = false → s.wcons = false →
      Answers (.pwrqPewter 200 ra) s fun t => ran t ∧ t.bit Reg.WAK_CONSENT 16 = false) ∧
    (code = 2 → 2 ≤ s.cur → s.wcons = true → s.phase ≠ 3 → s.wak.seg.mine = false → s.wak.deadline = none →
      Answers (.pwrqPewter 200 ra) s fun t => ran t ∧ t.bit Reg.WAK_CONSENT 16 = false ∧
        t.bit Reg.WAK_EPOCH 18 = true) ∧
    (code = 3 → s.cur < 2 → s.trans = false → Answers (.pwrqIvory 200 ra) s fun t => ran t ∧
      t.trans = true ∧ t.fld Reg.WAK_STATE 2 2 = 3 ∧ t.epoch = (s.epoch + 1) % 65536) ∧
    (code = 3 → 2 ≤ s.cur → s.trans = false → s.wcons = false → s.sourceEnabled 10 = false →
      Answers (.pwrqIvory 200 ra) s fun t => ran t ∧
        (s.cur = 2 → t.trans = true ∧ t.fld Reg.WAK_STATE 2 2 = 3) ∧ (s.cur = 3 → t.regs = s.regs)) ∧
    (4 ≤ code →
      (Answers (.pwrqUmber 200 ra) s fun t => (t.thread 200).status = .trapped) ∧
      (Answers (.pwrqSlate 200 ra) s fun t => (t.thread 200).status = .trapped) ∧
      (Answers (.pwrqPewter 200 ra) s fun t => (t.thread 200).status = .trapped) ∧
      (Answers (.pwrqIvory 200 ra) s fun t => (t.thread 200).status = .trapped)))

/-- Rules R390, R394, R396 to R404: the Chairlift ring: chairs, COMMIT and ABORT, and the timers of a node. -/
def Obligations.ChairliftCommandsComplete : Prop :=
  (∀ (s : State) (p : List Byte) (a c : Bool), s.agentRuns = false →
    Answers (.chairReceived p a c) s (fun t => t = s) ∧
    (∀ n, Answers (.commitReceived p a c n) s fun t => t = s) ∧
    Answers (.abortReceived p a c) s (fun t => t = s) ∧
    (∀ b, Answers (.chairTimeout b) s (fun t => t = s) ∧ Answers (.chairStart b) s fun t => t = s) ∧
    Answers .leaderTimeout s (fun t => t = s) ∧ Answers .maxawakeExpiry s fun t => t = s) ∧
  (∀ (s : State) (p : List Byte) (a c : Bool), s.agentRuns = true →
    (parseChair .chair p a c = none → Answers (.chairReceived p a c) s fun t => t = s.bump Cnt.WAK_RING_BAD) ∧
    (∀ n, parseChair .commit p a c = none →
      Answers (.commitReceived p a c n) s fun t => t = s.bump Cnt.WAK_RING_BAD) ∧
    (parseChair .abort p a c = none → Answers (.abortReceived p a c) s fun t => t = s.bump Cnt.WAK_RING_BAD)) ∧
  (∀ (s : State), s.agentRuns = true → s.bit Reg.WAK_RINGCFG 0 = true → s.bit Reg.WAK_RINGCFG 1 = true →
    s.phase = 0 → s.consent = true → s.bit Reg.WAK_EPOCH 19 = false → s.wak.seg.origin = false →
    Answers (.chairStart false) s fun t =>
      t.wak.seg.origin = true ∧ t.wak.seg.mine = true ∧ t.phase = 1 ∧ t.nextFrame = s.nextFrame + 1 ∧
      ∃ v, t.frame s.nextFrame = some v ∧ v.inPort = 33) ∧
  (∀ (s : State) (p : List Byte) (a c : Bool) (x : Chair), s.agentRuns = true → s.phase = 0 →
    s.bit Reg.WAK_RINGCFG 0 = true → parseChair .chair p a c = some x → s.concerns x = true → x.top = false → x.epoch = s.epoch →
    s.wak.seg.origin = false →
    predecessor (s.ringMap false) x.ovr (s.ringPlace false) = some (placeOf false x.sender) →
    Nat.testBit x.ovr (s.ringPlace false) = false →
    (s.consent = true → Answers (.chairReceived p a c) s fun t =>
      t.wak.seg.mine = true ∧ t.wak.seg.held = none ∧ t.phase = 1 ∧
      (∃ y, t.wak.seg.newest = some y ∧ y.map = x.map ||| 2 ^ s.ringPlace false ∧ y.sender = s.nodeId) ∧
      ∃ v, t.frame s.nextFrame = some v ∧ v.inPort = 33) ∧
    (s.consent = false → Answers (.chairReceived p a c) s fun t =>
      t.wak.seg.held = some x ∧ t.frames = s.frames)) ∧
  (∀ (s : State) (p : List Byte) (a c : Bool) (n : Nat) (x : Chair), s.agentRuns = true → s.phase < 2 →
    s.bit Reg.WAK_RINGCFG 0 = true → parseChair .commit p a c = some x → s.concerns x = true → x.top = false → x.epoch = s.epoch →
    s.bit Reg.WAK_EPOCH 18 = false → s.wak.seg.mine = true →
    Answers (.commitReceived p a c n) s fun t =>
      t.wak.deadline = some (s.nowNs + x.delay * 1000) ∧ t.phase = 2) ∧
  (∀ (s : State) (p : List Byte) (a c : Bool) (n : Nat) (x : Chair), s.agentRuns = true → s.phase < 2 →
    s.bit Reg.WAK_RINGCFG 0 = true → parseChair .commit p a c = some x → s.concerns x = true → x.top = false → x.epoch = s.epoch →
    s.bit Reg.WAK_EPOCH 18 = true →
    Answers (.commitReceived p a c n) s fun t =>
      t.epoch = (s.epoch + 1) % 65536 ∧ ⟨0x0351, 0, s.nowNs⟩ ∈ t.reports ∧ t.wak.deadline = none) ∧
  (∀ (s : State) (p : List Byte) (a c : Bool) (x : Chair), s.agentRuns = true →
    parseChair .abort p a c = some x → s.concerns x = true → s.phase ≠ 3 → s.deadlineCome = false →
    (epochNewer x.epoch s.epoch = true → Answers (.abortReceived p a c) s fun t =>
      t.epoch = x.epoch ∧ t.phase = 0 ∧ t.wak.deadline = none ∧ t.wak.seg = { seenAt := s.nowNs } ∧
      t.wak.topRing = { seenAt := s.nowNs } ∧ t.wak.chairAt = none) ∧
    (epochNewer x.epoch s.epoch = false → Answers (.abortReceived p a c) s fun t => t = s)) ∧
  (∀ (s : State) (p : List Byte) (a c : Bool) (x : Chair), s.agentRuns = true →
    parseChair .abort p a c = some x → s.deadlineCome = true →
    Answers (.abortReceived p a c) s fun t => t = s) ∧
  (∀ (s : State) (x : Chair), s.agentRuns = true → s.wak.seg.origin = true → s.wak.seg.newest = some x →
    s.wak.maxed = false →
    s.wak.seg.seenAt + 1000000 * Nat.max 1 (s.fld Reg.WAK_RINGCFG 16 8) ≤ s.nowNs →
    Answers (.chairTimeout false) s fun t => t = (s.seeChair false x).emitChair .chair x) ∧
  (∀ (s : State), s.nowNs < s.wak.seg.seenAt + 1000000 * Nat.max 1 (s.fld Reg.WAK_RINGCFG 16 8) →
    Answers (.chairTimeout false) s fun t => t = s) ∧
  (∀ (s : State), s.agentRuns = true → s.bit Reg.WAK_RINGCFG 0 = true → s.bit Reg.WAK_RINGCFG 2 = true →
    s.consent = true → s.bit Reg.WAK_EPOCH 19 = false → s.phase ≠ 3 → s.wak.seg.origin = false →
    s.leaderSilent = true →
    Answers .leaderTimeout s fun t =>
      t.bit Reg.WAK_EPOCH 20 = true ∧ t.wak.seg.origin = true ∧ ⟨0x2354, 0, s.nowNs⟩ ∈ t.reports) ∧
  (∀ (s : State), s.leaderSilent = false → Answers .leaderTimeout s fun t => t = s) ∧
  (∀ (s : State), s.agentRuns = true → s.consent = false → s.wak.seg.newest = none → s.wak.topRing.newest = none →
    s.wak.seg.held = none → s.wak.topRing.held = none → s.wak.maxed = false → s.maxawakeDue = true →
    Answers .maxawakeExpiry s fun t =>
      ⟨0x0350, 0, s.nowNs⟩ ∈ t.reports ∧
      (s.bit Reg.WAK_RINGCFG 0 = true → t.wak.maxed = true ∧ t.bit Reg.WAK_CONSENT 17 = true)) ∧
  (∀ (s : State), s.wak.maxed = true ∨ s.maxawakeDue = false →
    Answers .maxawakeExpiry s fun t => t = s) ∧
  (∀ (s : State) (d : Nat), s.wak.deadline = some d → d ≤ s.nowNs → 2 ≤ s.cur → s.phase = 2 →
    Answers .commitDeadline s fun t =>
      t.phase = 3 ∧ t.trans = true ∧ t.fld Reg.WAK_STATE 2 2 = s.sleepDepth % 4 ∧ t.fab.closed = true ∧
      t.wak.deadline = none ∧ t.wak.srcen = s.rd Reg.WAK_SRCEN) ∧
  (∀ (s : State), s.deadlineCome = false ∨ s.cur < 2 ∨ s.phase ≠ 2 →
    Answers .commitDeadline s fun t => t = s) ∧
  (∀ (s : State) (prev r : Nat), r < 32 → s.wak.wokeFrom = some (prev, some r) → s.consent = true →
    s.wak.quietSince + 100000000 * clampNat 1 600 (s.fld Reg.WAK_TIMERS 0 10) ≤ s.nowNs → 2 ≤ s.cur →
    s.phase ≠ 3 → s.trans = false →
    Answers .falseWakeTimeout s fun t =>
      t.phase = 3 ∧ t.trans = true ∧ t.fld Reg.WAK_STATE 2 2 = prev % 4 ∧ t.bit (Reg.WAK_REC_w3 r) 17 = true ∧
      t.wak.wokeFrom = none) ∧
  (∀ (s : State), s.wak.wokeFrom = none ∨ s.falseWake = false → Answers .falseWakeTimeout s fun t => t = s) ∧
  (∀ (s : State) (d : Nat), s.wak.lateAbort = some d → d + 1000000 ≤ s.nowNs → s.agentRuns = true →
    Answers .dowakeTimer s fun t => t.wak.lateAbort = none ∧
      (s.bit Reg.WAK_SLEEPCFG 2 = true → t.nextFrame = s.nextFrame + 1 ∧
        ∀ p, 12 ≤ p → p < 28 → s.bit (Reg.PRT_TC10 p) 0 = true → p ∈ t.wak.wakeSent) ∧
      (s.bit Reg.WAK_SLEEPCFG 2 = false → t.frames = s.frames)) ∧
  (∀ (s : State), s.dowakeDue = false → Answers .dowakeTimer s fun t => t = s)

/-- Rules R411, R426 to R431, R440: the commands of an update channel, one at a time in its register, the
queues behind OPEN and STREAM, and the end of a session by FINISH, ARM, COMMIT, abort or timeout. -/
def Obligations.UpdateSessionCommandsComplete : Prop :=
  (∀ (s : State) (m : Master) (ch : Fin 3), s.admits m (Reg.BOOT_SCMD ch.val) →
    let res := fun (t : State) (r : Nat) => t.fld (Reg.BOOT_SSTAT ch.val) 8 4 = r ∧
      t.updateBusy ch.val = false ∧ t.bit (Reg.BOOT_SSTAT ch.val) 1 = true
    let a := (s.updateData ch.val).1
    let n := (s.updateData ch.val).2
    let holds := s.session ≠ 0 ∧ s.lockHolder = ch.val
    (s.updateBusy ch.val = true → ∀ c ∈ [Instr.openImage m ch, .stream m ch, .finish m ch, .arm m ch,
        .sessionAbort m ch],
      Answers c s fun t => t.boot = s.boot ∧ t.mem = s.mem ∧ ∀ k, k ≠ Reg.BOOT_SCMD ch.val → t.rd k = s.rd k) ∧
    (s.updateBusy ch.val = false →
      (holds → Answers (.openImage m ch) s fun t => res t 10 ∧ t.boot = s.boot) ∧
      (s.session ≠ 0 → s.lockHolder ≠ ch.val → Answers (.openImage m ch) s fun t => res t 1 ∧ t.boot = s.boot) ∧
      (s.session = 0 → 8192 < n → Answers (.openImage m ch) s fun t => res t 2 ∧ t.boot = s.boot) ∧
      (∀ c, s.session = 0 → n ≤ 8192 → s.memCheckRange patchMaster a n .read = some c →
        Answers (.openImage m ch) s fun t => res t 15 ∧ t.boot = s.boot) ∧
      (∀ x, s.session = 0 → n ≤ 8192 → s.memCheckRange patchMaster a n .read = none → s.badMem a n = some x →
        Answers (.openImage m ch) s fun t => res t 15 ∧ t.boot = s.boot) ∧
      (s.session = 0 → n ≤ 8192 → s.memCheckRange patchMaster a n .read = none → s.badMem a n = none →
        targetOf a ≠ .outbound → manifestOk (s.rdBytes a n) = false →
        Answers (.openImage m ch) s fun t => res t 2 ∧ t.boot = s.boot) ∧
      (s.session = 0 → n ≤ 8192 → s.memCheckRange patchMaster a n .read = none → s.badMem a n = none →
        targetOf a ≠ .outbound → manifestOk (s.rdBytes a n) = true →
        Answers (.openImage m ch) s fun t => t.updateBusy ch.val = true ∧ bootPath ∈ t.vlt.order ∧
          t.boot = { s.boot with
            opens := s.boot.opens ++ [(ch.val, (s.rdBytes a n).take (manLength (s.rdBytes a n)))] }) ∧
      (¬ holds ∨ s.session ≠ 2 ∨ s.boot.complete = true →
        Answers (.stream m ch) s fun t => res t 10 ∧ t.boot = s.boot) ∧
      (∀ c, holds → s.session = 2 → s.boot.complete = false →
        s.memCheckRange patchMaster a n .read = some c →
        Answers (.stream m ch) s fun t => res t 15 ∧ t.boot = s.boot) ∧
      (holds → s.session = 2 → s.boot.complete = false → s.memCheckRange patchMaster a n .read = none →
        s.badMem a n = none → targetOf a ≠ .outbound →
        Answers (.stream m ch) s fun t => t.updateBusy ch.val = true ∧
          t.boot = { s.boot with segment := some (ch.val, s.rdBytes a n) }) ∧
      (¬ holds ∨ s.session ≠ 2 ∨ s.boot.complete = false →
        Answers (.finish m ch) s fun t => res t 10 ∧ t.boot = s.boot ∧ t.mem = s.mem) ∧
      (holds → s.session = 2 → s.boot.complete = true →
        (manFlag s.boot.manifest 2 = false → Answers (.finish m ch) s fun t => res t 0 ∧ t.session = 3 ∧
          t.rdBytes (slotBase s.inactiveSlot) s.boot.manifest.length = s.boot.manifest) ∧
        (manFlag s.boot.manifest 2 = true → Answers (.finish m ch) s fun t => res t 0 ∧ t.session = 0 ∧
          ∀ i, i < manCount s.boot.manifest →
            comp s.boot.manifest i 8 4 ≤ t.arc (comp s.boot.manifest i 4 1))) ∧
      (¬ holds ∨ s.session ≠ 3 → Answers (.arm m ch) s fun t => res t 10 ∧ t.trial = s.trial) ∧
      (holds → s.session = 3 → Answers (.arm m ch) s fun t => res t 0 ∧ t.session = 4 ∧ t.trial = true ∧
        t.pendingSlot = s.inactiveSlot ∧ t.activeSlot = s.activeSlot ∧ t.fld Reg.BOOT_STATE 3 2 = 0 ∧
        t.mem = s.mem) ∧
      (¬ holds → Answers (.sessionAbort m ch) s fun t => res t 10 ∧ t.mem = s.mem) ∧
      (holds → Answers (.sessionAbort m ch) s fun t => res t 0 ∧ t.session = 0 ∧
        t.slotManifest s.inactiveSlot = none ∧ ⟨0x03C1, 0, s.nowNs⟩ ∈ t.reports ∧
        (s.session = 4 → t.trial = false)))) ∧
  (∀ (s : State), s.vlt.running ≠ some bootPath → Answers .manifestVerifyDone s fun t => t = s) ∧
  (∀ (s : State), s.vlt.running = some bootPath → s.boot.opens = [] → Answers .manifestVerifyDone s fun t =>
    t.boot = s.boot ∧ t.mem = s.mem ∧ t.vlt.running ≠ some bootPath) ∧
  (∀ (s : State) (ch : Nat) (man : List Byte) (rest : List (Nat × List Byte)),
    s.vlt.running = some bootPath → s.boot.opens = (ch, man) :: rest → ch < 3 → (∀ o ∈ rest, o.1 < 3) →
    (s.manVerifies man (natAt man 0xC 1) = false → Answers .manifestVerifyDone s fun t =>
      t.fld (Reg.BOOT_SSTAT ch) 8 4 = 3 ∧ t.boot = { s.boot with opens := rest } ∧ t.mem = s.mem ∧
      t.session = s.session ∧ (rest ≠ [] → bootPath ∈ t.vlt.order)) ∧
    (s.manVerifies man (natAt man 0xC 1) = true → s.openCheck man = 0 →
      Answers .manifestVerifyDone s fun t =>
        t.fld (Reg.BOOT_SSTAT ch) 8 4 = 0 ∧ t.updateBusy ch = false ∧ t.session = 2 ∧ t.lockHolder = ch ∧
        t.boot.manifest = man ∧ t.boot.opens = [] ∧ t.boot.complete = false ∧
        t.slotManifest (s.targetSlot man) = none ∧ ∀ o ∈ rest, o.1 ≠ ch → t.fld (Reg.BOOT_SSTAT o.1) 8 4 = 1) ∧
    (s.manVerifies man (natAt man 0xC 1) = true → s.openCheck man ≠ 0 →
      Answers .manifestVerifyDone s fun t =>
        t.fld (Reg.BOOT_SSTAT ch) 8 4 = s.openCheck man ∧ t.session = 0 ∧ t.boot.opens = [] ∧ t.mem = s.mem)) ∧
  (∀ (s : State), s.session = 0 ∨ 4 ≤ s.session ∨ s.idleSeconds < 600 → Answers .sessionTimeout s fun t => t = s) ∧
  (∀ (s : State), s.session ≠ 0 → s.session < 4 → 600 ≤ s.idleSeconds → s.lockHolder < 3 → Answers .sessionTimeout s fun t =>
    t.session = 0 ∧ t.fld (Reg.BOOT_SSTAT s.lockHolder) 8 4 = 13 ∧ t.slotManifest s.inactiveSlot = none ∧
    t.boot.segment = none ∧ ⟨0x03C1, 0, s.nowNs⟩ ∈ t.reports) ∧
  (∀ (s : State) (m : Master), s.admits m Reg.BOOT_CTL →
    (s.trial = true → s.session = 4 → s.fld Reg.BOOT_STATE 5 2 = s.pendingSlot →
      Answers (.updateCommit m) s fun t =>
        t.activeSlot = s.pendingSlot ∧ t.trial = false ∧ t.session = 0 ∧
        ∀ man, s.slotManifest s.pendingSlot = some man → ∀ i, i < manCount man →
          comp man i 8 4 ≤ t.arc (comp man i 4 1)) ∧
    (s.trial = false ∨ s.session ≠ 4 ∨ s.fld Reg.BOOT_STATE 5 2 ≠ s.pendingSlot →
      Answers (.updateCommit m) s fun t =>
        t.mem = s.mem ∧ t.rd Reg.BOOT_STATE = s.rd Reg.BOOT_STATE ∧ t.session = s.session ∧
        t.bit (Reg.BLK_STATUS (Reg.BOOT_CTL / 0x100000)) 0 = true) ∧
    (s.session = 0 → s.boot.segment = none → Answers (.bootAbort m) s fun t =>
      t.regs = s.regs ∧ t.mem = s.mem ∧ t.boot = s.boot) ∧
    (s.session ≠ 0 → s.boot.segment = none → Answers (.bootAbort m) s fun t =>
      t.session = 0 ∧ t.slotManifest s.inactiveSlot = none ∧ ⟨0x03C1, 0, s.nowNs⟩ ∈ t.reports ∧
      (s.session = 4 → t.trial = false)))

/-- Rules R422, R427, R429: a presented segment: without a right length and tag it changes nothing; with them
its bytes pass into the slot that the manifest installs into, and after a component's last the result's hash
decides. Memory outside the vault's key partition (its records take fresh masks when a payload key is used) is
otherwise unchanged. -/
def Obligations.SegmentsInstallOnlyVerifiedBytes : Prop :=
  (∀ (s : State) (b : Bool), s.boot.segment = none → Answers (.segmentDone b) s fun t => t = s) ∧
  (∀ (s : State) (ch : Nat) (bs : List Byte) (b : Bool), s.boot.segment = some (ch, bs) → ch < 3 →
    let i := s.compNow
    let k := s.segNow
    let man := s.boot.manifest
    let last := segCount (comp man i 0x14 4) ≤ k + 1
    let dest := slotBase (s.targetSlot man) + comp man i 0x1C 4
    let len := comp man i 0x18 4
    let res := fun (t : State) (r : Nat) => t.fld (Reg.BOOT_SSTAT ch) 8 4 = r ∧ t.updateBusy ch = false ∧
      t.boot.segment = none
    let sameMem := fun (t : State) => ∀ a, a < 0x10000000 ∨ 0x10010000 ≤ a → t.rdByte a = s.rdByte a
    (s.openSegment i k bs = none → Answers (.segmentDone b) s fun t =>
      res t 7 ∧ sameMem t ∧ t.boot = { s.boot with segment := none } ∧
      (manFlag man 1 = false → t.mem = s.mem) ∧
      t.rd Reg.BOOT_SESSION = s.rd Reg.BOOT_SESSION) ∧
    (∀ plain, s.openSegment i k bs = some plain →
      Answers (.segmentDone false) s fun t =>
        res t 12 ∧ sameMem t ∧ t.boot = { s.boot with segment := none }) ∧
    (∀ plain, s.openSegment i k bs = some plain →
      let s1 : State := { s with boot := { s.boot with segment := none, payload := s.boot.payload ++ plain } }
      (s1.patchOutput i (decide last) = none → s.session ≠ 0 → Answers (.segmentDone true) s fun t =>
        res t 9 ∧ t.session = 0 ∧ t.slotManifest s.inactiveSlot = none ∧ ⟨0x03C1, 0, s.nowNs⟩ ∈ t.reports) ∧
      (∀ out, s1.patchOutput i (decide last) = some out →
        (¬ last → k < 65535 → Answers (.segmentDone true) s fun t =>
          res t 0 ∧ t.segNow = k + 1 ∧ t.compNow = i ∧ t.boot.payload = s.boot.payload ++ plain ∧
          t.rdBytes dest (min len out.length) = out.take len ∧
          ∀ a, a < 0x10000000 ∨ 0x10010000 ≤ a → a < dest ∨ dest + min len out.length ≤ a →
            t.rdByte a = s.rdByte a) ∧
        (last → s.session ≠ 0 → out.length ≠ len ∨ Config.sha384 out ≠ compResult man i →
          Answers (.segmentDone true) s fun t =>
            res t 8 ∧ t.session = 0 ∧ t.slotManifest s.inactiveSlot = none) ∧
        (last → out.length = len → Config.sha384 out = compResult man i →
          Answers (.segmentDone true) s fun t =>
            res t 0 ∧ t.rdBytes dest len = out ∧ t.boot.payload = [] ∧
            t.boot.complete = decide (manCount man ≤ i + 1) ∧
            (i + 1 < manCount man → i < 31 → t.compNow = i + 1 ∧ t.segNow = 0)))))

/-- Rules R409, R434 to R438: the settings store, records and the order of their numbers, held areas, export
and the clear command. -/
def Obligations.NonvolatileCommandsComplete : Prop :=
  (∀ (s : State) (m : Master) (d : Word), s.admits m Reg.NVS_WDATAH →
    let off := s.fld Reg.NVS_WADDR 3 20 * 8
    (0x200000 ≤ off → off < 0x400000 → Answers (.mramWrite m d) s fun t =>
      t.rdBytes (0x10000000 + off) 8 = bytesLE 4 (s.rdN Reg.NVS_WDATAL) ++ bytesLE 4 d.toNat ∧
      (∀ a, a < 0x10000000 + off ∨ 0x10000008 + off ≤ a → t.rdByte a = s.rdByte a) ∧
      t.fld Reg.NVS_WADDR 3 20 = (off / 8 + 1) % 2 ^ 20) ∧
    (off < 0x200000 ∨ 0x400000 ≤ off → Answers (.mramWrite m d) s fun t =>
      t.mem = s.mem ∧ t.bit (Reg.BLK_STATUS (Reg.NVS_WDATAH / 0x100000)) 0 = true)) ∧
  (∀ (s : State), s.coreHeld = true ∨ s.bbQueue = [] → Answers .bbRecordWrite s fun t => t = s) ∧
  (∀ (s : State) (r : BoxRecord) (rest : List BoxRecord), s.coreHeld = false → s.bbQueue = r :: rest →
    let seq := (s.boxSeq + 1) % 2 ^ 64
    let at_ := boxBase + 64 * s.boxSlot
    (s.bbLost = 0 → s.flt.resetPending = false → Answers .bbRecordWrite s fun t =>
      t.bbQueue = rest ∧ t.boxSeq = seq ∧ t.slotSeq s.boxSlot = seq ∧ t.coreHeld = false ∧
      (∀ a, a < at_ ∨ at_ + 64 ≤ a → t.rdByte a = s.rdByte a) ∧
      natLE (t.rdBytes (at_ + 8) 4) = r.code % 65536 + r.type % 256 * 65536 + 2 ^ 24 * b2n r.freeze +
        2 ^ 25 * b2n r.rtcBad + r.pmid % 64 * 2 ^ 26 ∧
      (r.freeze = true → s.box.areas.length < 32 → ⟨seq, s.boxSlot, s.boxSlot⟩ ∈ t.box.areas) ∧
      (r.freeze = true → 32 ≤ s.box.areas.length → ⟨0x0384, 0, s.nowNs⟩ ∈ t.reports)) ∧
    (0 < s.bbLost → Answers .bbRecordWrite s fun t =>
      t.bbQueue = rest ∧ t.bbLost = 0 ∧ t.boxSeq = (s.boxSeq + 2) % 2 ^ 64) ∧
    (s.flt.resetPending = true → rest = [] → Answers .bbRecordWrite s fun t =>
      t.coreHeld = true ∧ t.bbQueue = [])) ∧
  (∀ (s : State) (m : Master) (c : BitVec 16), s.admits m Reg.NVS_BBCMD →
    (s.bbQueue.length ≤ 48 → Answers (.softwareRecord m c) s fun t =>
      t.bbQueue = s.bbQueue ++ [⟨5, c.toNat, false, m.pmid.toNat, !s.rtcValid, s.rtcSec, s.rtcTicks % 32768,
        s.dom0Ns, (List.range 8).map (fun i => s.rd (Reg.NVS_BBSWDATA i))⟩]) ∧
    (48 < s.bbQueue.length → Answers (.softwareRecord m c) s fun t =>
      t.bbQueue = s.bbQueue ∧ t.regs = s.regs)) ∧
  (∀ (s : State) (m : Master) (d : Word), s.admits m Reg.NVS_BBEXPORT_H →
    let mark := s.rdN Reg.NVS_BBEXPORT_L + 2 ^ 32 * d.toNat
    (s.exportMark ≤ mark → mark ≤ s.boxSeq → Answers (.bbExport m d) s fun t =>
      t.exportMark = mark ∧ t.box.areas = s.box.areas.filter (fun a => decide (mark < a.seq + 1024)) ∧
      t.fld Reg.NVS_BBSTAT 0 6 = t.box.areas.length % 64) ∧
    (mark < s.exportMark ∨ s.boxSeq < mark → Answers (.bbExport m d) s fun t =>
      t.bit Reg.NVS_BBSTAT 9 = true ∧ t.mem = s.mem ∧ t.box = s.box)) ∧
  (∀ (s : State) (m : Master), s.admits m Reg.NVS_BBCMD →
    let msg := s.regBytes (Reg.NVS_CLRBUF 0) 236
    (s.clearCheck msg ≠ 0 → Answers (.bbClear m) s fun t =>
      t.fld Reg.NVS_BBSTAT 12 4 = s.clearCheck msg ∧ t.mem = s.mem ∧ t.box = s.box) ∧
    (s.clearCheck msg = 0 → s.clearCounter + 1 < 2 ^ 32 → Answers (.bbClear m) s fun t =>
      t.fld Reg.NVS_BBSTAT 12 4 = 0 ∧ t.clearCounter = s.clearCounter + 1 ∧
      t.boxSeq = (s.boxSeq + 1) % 2 ^ 64 ∧
      (∀ x i, x < 65536 → i < 64 → x ≠ s.boxSlot → s.slotSeq x ≤ natAt msg 0x18 8 →
        t.rdByte (boxBase + (64 * x + i)) = 0) ∧
      ∀ x, x < 65536 → x ≠ s.boxSlot → natAt msg 0x18 8 < s.slotSeq x → t.slotSeq x = s.slotSeq x))

/-- Rules R442, R444, R445, R447, R448, R450 to R453: the fault collector: the log, its records and reactions,
what a report's class does, monitors, and the watchdogs. -/
def Obligations.FaultCommandsComplete : Prop :=
  (∀ (s : State), s.coreHeld = true ∨ s.reports = [] → Answers .faultReport s fun t => t = s) ∧
  (∀ (s : State) (r : FaultReport), s.coreHeld = false → s.nextReport = some r → r.code < 0x5000 →
    1 ≤ faultSubsystem r.code → faultSubsystem r.code ≤ 16 → s.bbQueue.length < 64 →
    let w := s.rd (reactKey (faultClass r.code) (faultSubsystem r.code))
    let e := s.fld Reg.FLT_LOGHEAD 0 6
    let last := Reg.FLT_LOG_w0 s.newestEntry
    (s.coalesced r = false → getBit w 5 = true ∨ getBits w 2 3 = 0 →
      Answers .faultReport s fun t =>
        t.reports = s.reports.erase r ∧
        t.rdN (Reg.FLT_LOG_w0 e) = 2 ^ 31 + 65536 + r.code ∧
        t.rdN (Reg.FLT_LOG_w1_3 e 0) = ({ s with nowNs := r.at_ } : State).dom0Ns % 2 ^ 32 ∧
        t.rdN (Reg.FLT_LOG_w1_3 e 1) = ({ s with nowNs := r.at_ } : State).rtcSec % 2 ^ 32 ∧
        t.rdN (Reg.FLT_LOG_w1_3 e 2) = r.data % 2 ^ 32 ∧
        t.fld Reg.FLT_LOGHEAD 0 6 = (e + 1) % 64 ∧
        (∃ x, t.bbQueue = s.bbQueue ++ [x] ∧ x.type = 1 ∧ x.code = r.code ∧
          x.freeze = decide (3 ≤ faultClass r.code)) ∧
        (faultClass r.code = 4 → t.bit Reg.FLT_FAULTN 0 = true ∧ t.flt.fatal = true) ∧
        (getBit w 5 = false → (getBit w 0 = true → 2 ∈ t.irqs) ∧
          (getBit w 1 = true → t.bit Reg.FLT_FAULTN 1 = true))) ∧
    (s.coalesced r = true → getBit w 5 = true ∨ getBits w 2 3 = 0 →
      Answers .faultReport s fun t =>
        t.reports = s.reports.erase r ∧ t.bbQueue = s.bbQueue ∧ t.bit last 31 = true ∧
        t.fld last 0 16 = r.code ∧ t.fld last 16 15 = min 0x7FFF (s.fld last 16 15 + 1) ∧
        t.fld Reg.FLT_LOGHEAD 0 6 = e) ∧
    (getBit w 5 = false → getBits w 2 3 = 2 → s.flt.safeStop = false → Answers .faultReport s fun t =>
      t.flt.safeStop = true ∧ t.flt.fatal = true ∧ t.fab.closed = true) ∧
    (s.coalesced r = false → getBit w 5 = false → getBits w 2 3 = 4 → r.code ≠ 0x3411 →
      Answers .faultReport s fun t => t.flt.resetPending = true ∧ t.coreHeld = false) ∧
    (s.coalesced r = true → getBit w 5 = false → getBits w 2 3 = 4 → r.code ≠ 0x3411 → s.bbQueue = [] →
      Answers .faultReport s fun t => t.coreHeld = true ∧ ∀ i ∈ coreIslands, t.running i = false)) ∧
  (∀ (s : State), Answers .isolateTimeout s fun t =>
    t.flt = { s.flt with isolating := s.flt.isolating.filter (fun e => decide (s.nowNs < e.2 + 2000000)) } ∧
    ((∀ e ∈ s.flt.isolating, s.nowNs < e.2 + 2000000 ∨ s.blkQuiescing e.1 = false) →
      t.regs = s.regs ∧ t.quiescing = s.quiescing) ∧
    ∀ b d, s.flt.isolating = [(b, d)] → d + 2000000 ≤ s.nowNs → t.blkQuiescing b = false) ∧
  (∀ (s : State), s.coreHeld = true → Answers .collectorMismatch s fun t => t = s) ∧
  (∀ (s : State), s.coreHeld = false → Answers .collectorMismatch s fun t =>
    t.bit Reg.FLT_FAULTN 0 = true ∧ t.flt.fatal = true ∧ t.reports = s.reports ++ [⟨0x4412, 0, s.nowNs⟩]) ∧
  (∀ (s : State) (g : BitVec 32) (o : Option FrameId), Answers (.datapathCheck g o) s fun t =>
    t.reports = s.reports ++ [⟨0x3409, g.toNat, s.nowNs⟩] ∧ t.mem = s.mem ∧
    (o = none → t.regs = s.regs ∧ t.frames = s.frames) ∧
    (∀ f v, o = some f → s.frame f = some v → v.headLeft = [] → ∀ x, (t.thread x).frame ≠ some f) ∧
    ∀ f v, o = some f → s.frame f = some v → v.headLeft ≠ [] → v.fanout = v.headLeft →
      t.frame f = some { v with stomps := v.headLeft } ∧ t.rtk = s.rtk) ∧
  (∀ (s : State) (i : Island),
    (∀ x : BitVec _, Answers (.hardwareMonitorTrip (.rail x)) s fun t =>
      t = { s with reports := s.reports ++ [⟨0x2406, x.toNat % 2 ^ 32, s.nowNs⟩] }) ∧
    (∀ x : BitVec _, Answers (.hardwareMonitorTrip (.junction x)) s fun t =>
      t = if 1000 < x.toNat then { s with reports := s.reports ++ [⟨0x3408, x.toNat % 2 ^ 32, s.nowNs⟩] }
        else if 920 < x.toNat then { s with reports := s.reports ++ [⟨0x2407, x.toNat % 2 ^ 32, s.nowNs⟩] }
        else s) ∧
    Answers (.hardwareMonitorTrip (.clock i)) s fun t =>
      t = { s with reports := s.reports ++ [⟨0x340D, islandRow i, s.nowNs⟩] }) ∧
  (∀ (s : State) (m : Master) (u : Fin 6), s.admits m (Reg.FLT_WDOG u.val) →
    (s.bit (Reg.FLT_WDOG u.val) 16 = false → Answers (.watchdogEnable m u) s fun t =>
      t.bit (Reg.FLT_WDOG u.val) 16 = true ∧ Store.get (fun _ => false) t.flt.kickOpen u.val = false ∧
      Store.get (fun _ => 0) t.flt.servedAt u.val = s.nowNs ∧
      ∀ x : Fin 6, x ≠ u → t.rd (Reg.FLT_WDOG x.val) = s.rd (Reg.FLT_WDOG x.val)) ∧
    (s.bit (Reg.FLT_WDOG u.val) 16 = true → Answers (.watchdogEnable m u) s fun t => t.regs = s.regs)) ∧
  (∀ (s : State) (m : Master) (u : Fin 6) (k : Word), s.admits m (Reg.FLT_WDKICK u.val) →
    let opened := Store.get (fun _ => false) s.flt.kickOpen u.val
    (s.watchdogRuns u.val = false → Answers (.watchdogKick m u k) s fun t => t.regs = s.regs ∧ t.flt = s.flt) ∧
    (s.watchdogRuns u.val = true → k = (if opened = true then 0xC3A5 else 0x3C5A) →
      Answers (.watchdogKick m u k) s fun t =>
        Store.get (fun _ => false) t.flt.kickOpen u.val = !opened ∧
        (opened = true → Store.get (fun _ => 0) t.flt.servedAt u.val = s.nowNs) ∧ t.watchdogRuns u.val = true ∧
        t.reports = s.reports) ∧
    (s.watchdogRuns u.val = true → k ≠ (if opened = true then 0xC3A5 else 0x3C5A) →
      Answers (.watchdogKick m u k) s fun t => t.watchdogRuns u.val = false ∧
        ⟨if s.mainUnit = u.val then 0x4410 else 0x3411, u.val, s.nowNs⟩ ∈ t.reports)) ∧
  (∀ (s : State) (u : Fin 6),
    (s.watchdogRuns u.val = true → s.watchdogDue u.val = true → Answers (.watchdogExpiry u) s fun t =>
      t.bit (Reg.FLT_WDOG u.val) 17 = true ∧ t.bit Reg.FLT_GSTAT 4 = true ∧
      ⟨if s.mainUnit = u.val then 0x4410 else 0x3411, u.val, s.nowNs⟩ ∈ t.reports) ∧
    (s.watchdogRuns u.val = false ∨ s.watchdogDue u.val = false →
      Answers (.watchdogExpiry u) s fun t => t = s)) ∧
  (∀ (s : State) (m : Master), s.admits m Reg.FLT_FAULTN → Answers (.faultN1Release m) s fun t =>
    t.bit Reg.FLT_FAULTN 1 = false ∧ t.bit Reg.FLT_FAULTN 0 = s.bit Reg.FLT_FAULTN 0 ∧
    ∀ k, k ≠ Reg.FLT_FAULTN → t.rd k = s.rd k)

/-- Rules R458, R459, R463: the mode of the counters and who may write it, the clearing of OVF, and the
snapshot of the MON counters. -/
def Obligations.CounterCommandsComplete : Prop :=
  (∀ (s : State) (m : Master) (v : BitVec 2), s.admits m Reg.MON_MODE →
    (m.pmid.toNat = 0x33 ∨ s.fld Reg.MON_MODE 0 2 ≠ 3 ∧ (v = 0 ∨ v = 2) →
      Answers (.counterModeWrite m v) s fun t =>
        t.fld Reg.MON_MODE 0 2 = v.toNat ∧ ∀ k, k ≠ Reg.MON_MODE → t.rd k = s.rd k) ∧
    (m.pmid.toNat ≠ 0x33 → s.fld Reg.MON_MODE 0 2 = 3 ∨ v = 1 ∨ v = 3 →
      Answers (.counterModeWrite m v) s fun t =>
        t.fld Reg.MON_MODE 0 2 = s.fld Reg.MON_MODE 0 2 ∧ t.bit (Reg.BLK_STATUS 2) 0 = true)) ∧
  (∀ (s : State) (m : Master), s.admits m Reg.MON_OVFCLR → Answers (.ovfClear m) s fun t =>
    ∀ k, (s.governed k = true → getBit (resetWord k) 30 = false → t.bit k 30 = false) ∧
      (s.governed k = false → t.rd k = s.rd k) ∧ t.fld k 0 30 = s.fld k 0 30) ∧
  (∀ (s : State) (m : Master), s.admits m Reg.MON_SNAPCTL → s.canonical = true →
    Answers (.counterSnapshot m) s fun t =>
      (∀ j : Fin 1536, t.rd (Reg.MON_SNAPVAL j.val) = s.rd (Reg.MON_VAL j.val)) ∧
      ∀ k, k < Reg.MON_SNAPVAL 0 ∨ Reg.MON_SNAPVAL 1536 ≤ k → t.rd k = s.rd k)
end

