-- ==== Sys2Proof/Laws/Exec.lean ====
section
/-!
SUPPORT. The dispatch: each command runs its meaning.
-/

namespace Sys2Proof.Machine

open Sys2Proof

@[simp] theorem exec_add {s : State} {t rd ra rb} :
    exec (.add t rd ra rb) s = execAdd t rd ra rb s := rfl
@[simp] theorem exec_sub {s : State} {t rd ra rb} :
    exec (.sub t rd ra rb) s = execSub t rd ra rb s := rfl
@[simp] theorem exec_and {s : State} {t rd ra rb} :
    exec (.and t rd ra rb) s = execAnd t rd ra rb s := rfl
@[simp] theorem exec_or {s : State} {t rd ra rb} :
    exec (.or t rd ra rb) s = execOr t rd ra rb s := rfl
@[simp] theorem exec_xor {s : State} {t rd ra rb} :
    exec (.xor t rd ra rb) s = execXor t rd ra rb s := rfl
@[simp] theorem exec_shl {s : State} {t rd ra rb} :
    exec (.shl t rd ra rb) s = execShl t rd ra rb s := rfl
@[simp] theorem exec_shr {s : State} {t rd ra rb} :
    exec (.shr t rd ra rb) s = execShr t rd ra rb s := rfl
@[simp] theorem exec_sar {s : State} {t rd ra rb} :
    exec (.sar t rd ra rb) s = execSar t rd ra rb s := rfl
@[simp] theorem exec_ror {s : State} {t rd ra rb} :
    exec (.ror t rd ra rb) s = execRor t rd ra rb s := rfl
@[simp] theorem exec_mul {s : State} {t rd ra rb} :
    exec (.mul t rd ra rb) s = execMul t rd ra rb s := rfl
@[simp] theorem exec_mulq {s : State} {t rd ra rb} :
    exec (.mulq t rd ra rb) s = execMulq t rd ra rb s := rfl
@[simp] theorem exec_adds {s : State} {t rd ra rb} :
    exec (.adds t rd ra rb) s = execAdds t rd ra rb s := rfl
@[simp] theorem exec_subs {s : State} {t rd ra rb} :
    exec (.subs t rd ra rb) s = execSubs t rd ra rb s := rfl
@[simp] theorem exec_cmp {s : State} {t ra rb} :
    exec (.cmp t ra rb) s = execCmp t ra rb s := rfl
@[simp] theorem exec_tst {s : State} {t ra rb} :
    exec (.tst t ra rb) s = execTst t ra rb s := rfl
@[simp] theorem exec_min {s : State} {t rd ra rb} :
    exec (.min t rd ra rb) s = execMin t rd ra rb s := rfl
@[simp] theorem exec_max {s : State} {t rd ra rb} :
    exec (.max t rd ra rb) s = execMax t rd ra rb s := rfl
@[simp] theorem exec_clz {s : State} {t rd ra} :
    exec (.clz t rd ra) s = execClz t rd ra s := rfl
@[simp] theorem exec_popc {s : State} {t rd ra} :
    exec (.popc t rd ra) s = execPopc t rd ra s := rfl
@[simp] theorem exec_csupd {s : State} {t rd ra rb} :
    exec (.csupd t rd ra rb) s = execCsupd t rd ra rb s := rfl
@[simp] theorem exec_jr {s : State} {t ra} :
    exec (.jr t ra) s = execJr t ra s := rfl
@[simp] theorem exec_jlr {s : State} {t ra} :
    exec (.jlr t ra) s = execJlr t ra s := rfl
@[simp] theorem exec_rds {s : State} {t rd sel} :
    exec (.rds t rd sel) s = execRds t rd sel s := rfl
@[simp] theorem exec_wrf {s : State} {t ra} :
    exec (.wrf t ra) s = execWrf t ra s := rfl
@[simp] theorem exec_addi {s : State} {t rd ra imm} :
    exec (.addi t rd ra imm) s = execAddi t rd ra imm s := rfl
@[simp] theorem exec_andi {s : State} {t rd ra imm} :
    exec (.andi t rd ra imm) s = execAndi t rd ra imm s := rfl
@[simp] theorem exec_ori {s : State} {t rd ra imm} :
    exec (.ori t rd ra imm) s = execOri t rd ra imm s := rfl
@[simp] theorem exec_xori {s : State} {t rd ra imm} :
    exec (.xori t rd ra imm) s = execXori t rd ra imm s := rfl
@[simp] theorem exec_shli {s : State} {t rd ra n} :
    exec (.shli t rd ra n) s = execShli t rd ra n s := rfl
@[simp] theorem exec_shri {s : State} {t rd ra n} :
    exec (.shri t rd ra n) s = execShri t rd ra n s := rfl
@[simp] theorem exec_sari {s : State} {t rd ra n} :
    exec (.sari t rd ra n) s = execSari t rd ra n s := rfl
@[simp] theorem exec_movi {s : State} {t rd imm} :
    exec (.movi t rd imm) s = execMovi t rd imm s := rfl
@[simp] theorem exec_movhi {s : State} {t rd imm} :
    exec (.movhi t rd imm) s = execMovhi t rd imm s := rfl
@[simp] theorem exec_cmpi {s : State} {t ra imm} :
    exec (.cmpi t ra imm) s = execCmpi t ra imm s := rfl
@[simp] theorem exec_tsti {s : State} {t ra imm} :
    exec (.tsti t ra imm) s = execTsti t ra imm s := rfl
@[simp] theorem exec_ext {s : State} {t rd ra p wm1} :
    exec (.ext t rd ra p wm1) s = execExt t rd ra p wm1 s := rfl
@[simp] theorem exec_ins {s : State} {t rd ra p wm1} :
    exec (.ins t rd ra p wm1) s = execIns t rd ra p wm1 s := rfl
@[simp] theorem exec_bCond {s : State} {t cond off} :
    exec (.bCond t cond off) s = execBCond t cond off s := rfl
@[simp] theorem exec_blCond {s : State} {t cond off} :
    exec (.blCond t cond off) s = execBlCond t cond off s := rfl
@[simp] theorem exec_ld {s : State} {t rd ra sp sz off} :
    exec (.ld t rd ra sp sz off) s = execLd t rd ra sp sz off s := rfl
@[simp] theorem exec_lds {s : State} {t rd ra sp sz off} :
    exec (.lds t rd ra sp sz off) s = execLds t rd ra sp sz off s := rfl
@[simp] theorem exec_st {s : State} {t rd ra sp sz off} :
    exec (.st t rd ra sp sz off) s = execSt t rd ra sp sz off s := rfl
@[simp] theorem exec_aadd {s : State} {t rd ra off} :
    exec (.aadd t rd ra off) s = execAadd t rd ra off s := rfl
@[simp] theorem exec_aswp {s : State} {t rd ra off} :
    exec (.aswp t rd ra off) s = execAswp t rd ra off s := rfl
@[simp] theorem exec_yield {s : State} {t} :
    exec (.yield t) s = execYield t s := rfl
@[simp] theorem exec_time {s : State} {t rd sel dom} :
    exec (.time t rd sel dom) s = execTime t rd sel dom s := rfl
@[simp] theorem exec_exit {s : State} {t} :
    exec (.exit t) s = execExit t s := rfl
@[simp] theorem exec_brk {s : State} {t} :
    exec (.brk t) s = execBrk t s := rfl
@[simp] theorem exec_lkup {s : State} {t ra tbl m async} :
    exec (.lkup t ra tbl m async) s = execLkup t ra tbl m async s := rfl
@[simp] theorem exec_waitl {s : State} {t} :
    exec (.waitl t) s = execWaitl t s := rfl
@[simp] theorem exec_meter {s : State} {t ra m pre} :
    exec (.meter t ra m pre) s = execMeter t ra m pre s := rfl
@[simp] theorem exec_cnt {s : State} {t ra} :
    exec (.cnt t ra) s = execCnt t ra s := rfl
@[simp] theorem exec_hpush {s : State} {t ra rb} :
    exec (.hpush t ra rb) s = execHpush t ra rb s := rfl
@[simp] theorem exec_hpop {s : State} {t ra rb} :
    exec (.hpop t ra rb) s = execHpop t ra rb s := rfl
@[simp] theorem exec_csumh {s : State} {t rd ra rb} :
    exec (.csumh t rd ra rb) s = execCsumh t rd ra rb s := rfl
@[simp] theorem exec_tsins {s : State} {t ra rb fmt adj} :
    exec (.tsins t ra rb fmt adj) s = execTsins t ra rb fmt adj s := rfl
@[simp] theorem exec_seal {s : State} {t ra} :
    exec (.seal t ra) s = execSeal t ra s := rfl
@[simp] theorem exec_learn {s : State} {t ra rb} :
    exec (.learn t ra rb) s = execLearn t ra rb s := rfl
@[simp] theorem exec_fwd {s : State} {t} :
    exec (.fwd t) s = execFwd t s := rfl
@[simp] theorem exec_drop {s : State} {t why} :
    exec (.drop t why) s = execDrop t why s := rfl
@[simp] theorem exec_trap {s : State} {t code tgt} :
    exec (.trap t code tgt) s = execTrap t code tgt s := rfl
@[simp] theorem exec_recirc {s : State} {t ra st} :
    exec (.recirc t ra st) s = execRecirc t ra st s := rfl
@[simp] theorem exec_sns {s : State} {t rd ra q} :
    exec (.sns t rd ra q) s = execSns t rd ra q s := rfl
@[simp] theorem exec_tick {s : State} {t} :
    exec (.tick t) s = execTick t s := rfl
@[simp] theorem exec_waite {s : State} {t rd ra} :
    exec (.waite t rd ra) s = execWaite t rd ra s := rfl
@[simp] theorem exec_pwrqUmber {s : State} {t ra} :
    exec (.pwrqUmber t ra) s = execPwrqUmber t ra s := rfl
@[simp] theorem exec_pwrqSlate {s : State} {t ra} :
    exec (.pwrqSlate t ra) s = execPwrqSlate t ra s := rfl
@[simp] theorem exec_pwrqPewter {s : State} {t ra} :
    exec (.pwrqPewter t ra) s = execPwrqPewter t ra s := rfl
@[simp] theorem exec_pwrqIvory {s : State} {t ra} :
    exec (.pwrqIvory t ra) s = execPwrqIvory t ra s := rfl
@[simp] theorem exec_on {s : State} {t ra rb} :
    exec (.on t ra rb) s = execOn t ra rb s := rfl
@[simp] theorem exec_off {s : State} {t ra rb} :
    exec (.off t ra rb) s = execOff t ra rb s := rfl
@[simp] theorem exec_duty {s : State} {t ra rb} :
    exec (.duty t ra rb) s = execDuty t ra rb s := rfl
@[simp] theorem exec_trip {s : State} {t ra rb} :
    exec (.trip t ra rb) s = execTrip t ra rb s := rfl
@[simp] theorem exec_clear {s : State} {t ra rb} :
    exec (.clear t ra rb) s = execClear t ra rb s := rfl
@[simp] theorem exec_thmode {s : State} {t ra rb} :
    exec (.thmode t ra rb) s = execThmode t ra rb s := rfl
@[simp] theorem exec_hold {s : State} {t ra rb} :
    exec (.hold t ra rb) s = execHold t ra rb s := rfl
@[simp] theorem exec_attach {s : State} {t ra rb} :
    exec (.attach t ra rb) s = execAttach t ra rb s := rfl
@[simp] theorem exec_runoutclr {s : State} {t ra rb} :
    exec (.runoutclr t ra rb) s = execRunoutclr t ra rb s := rfl
@[simp] theorem exec_calgain {s : State} {t ra rb} :
    exec (.calgain t ra rb) s = execCalgain t ra rb s := rfl
@[simp] theorem exec_illegal {s : State} {x} :
    exec (.illegal x) s = execIllegal x s := rfl
@[simp] theorem exec_pcRange {s : State} {t} :
    exec (.pcRange t) s = execPcRange t s := rfl
@[simp] theorem exec_registerWrite {s : State} {m addr size data} :
    exec (.registerWrite m addr size data) s = execRegisterWrite m addr size data s := rfl
@[simp] theorem exec_snapRead {s : State} {m addr size} :
    exec (.snapRead m addr size) s = execSnapRead m addr size s := rfl
@[simp] theorem exec_bitAliasWrite {s : State} {m addr data} :
    exec (.bitAliasWrite m addr data) s = execBitAliasWrite m addr data s := rfl
@[simp] theorem exec_blkEnable {s : State} {m blk} :
    exec (.blkEnable m blk) s = execBlkEnable m blk s := rfl
@[simp] theorem exec_blkQuiesceStart {s : State} {m blk} :
    exec (.blkQuiesceStart m blk) s = execBlkQuiesceStart m blk s := rfl
@[simp] theorem exec_blkQuiesceDone {s : State} {blk} :
    exec (.blkQuiesceDone blk) s = execBlkQuiesceDone blk s := rfl
@[simp] theorem exec_commitImmediate {s : State} {m blk table index} :
    exec (.commitImmediate m blk table index) s = execCommitImmediate m blk table index s := rfl
@[simp] theorem exec_commitTimed {s : State} {m blk table index} :
    exec (.commitTimed m blk table index) s = execCommitTimed m blk table index s := rfl
@[simp] theorem exec_commitGeneration {s : State} {m blk table index} :
    exec (.commitGeneration m blk table index) s = execCommitGeneration m blk table index s := rfl
@[simp] theorem exec_commitDone {s : State} {blk} :
    exec (.commitDone blk) s = execCommitDone blk s := rfl
@[simp] theorem exec_worldLock {s : State} {m} :
    exec (.worldLock m) s = execWorldLock m s := rfl
@[simp] theorem exec_regionLock {s : State} {m n} :
    exec (.regionLock m n) s = execRegionLock m n s := rfl
@[simp] theorem exec_partitionLock {s : State} {m} :
    exec (.partitionLock m) s = execPartitionLock m s := rfl
@[simp] theorem exec_edgeWriteApplied {s : State} :
    exec (.edgeWriteApplied) s = execEdgeWriteApplied s := rfl
@[simp] theorem exec_aonWriteApplied {s : State} :
    exec (.aonWriteApplied) s = execAonWriteApplied s := rfl
@[simp] theorem exec_islandStop {s : State} {isl} :
    exec (.islandStop isl) s = execIslandStop isl s := rfl
@[simp] theorem exec_islandReady {s : State} {isl} :
    exec (.islandReady isl) s = execIslandReady isl s := rfl
@[simp] theorem exec_coreResetRelease {s : State} :
    exec (.coreResetRelease) s = execCoreResetRelease s := rfl
@[simp] theorem exec_traverseFlitReplay {s : State} :
    exec (.traverseFlitReplay) s = execTraverseFlitReplay s := rfl
@[simp] theorem exec_traverseRetrainStart {s : State} :
    exec (.traverseRetrainStart) s = execTraverseRetrainStart s := rfl
@[simp] theorem exec_traverseRetrainDone {s : State} :
    exec (.traverseRetrainDone) s = execTraverseRetrainDone s := rfl
@[simp] theorem exec_traverseRetrainTimeout {s : State} :
    exec (.traverseRetrainTimeout) s = execTraverseRetrainTimeout s := rfl
@[simp] theorem exec_traverseLossTimeout {s : State} :
    exec (.traverseLossTimeout) s = execTraverseLossTimeout s := rfl
@[simp] theorem exec_powerLinkCommand {s : State} {d a b} :
    exec (.powerLinkCommand d a b) s = execPowerLinkCommand d a b s := rfl
@[simp] theorem exec_powerLinkCopySilent {s : State} {d copyB} :
    exec (.powerLinkCopySilent d copyB) s = execPowerLinkCopySilent d copyB s := rfl
@[simp] theorem exec_powerLinksLost {s : State} {d} :
    exec (.powerLinksLost d) s = execPowerLinksLost d s := rfl
@[simp] theorem exec_heartbeatToggle {s : State} :
    exec (.heartbeatToggle) s = execHeartbeatToggle s := rfl
@[simp] theorem exec_heartbeatLoss {s : State} {d} :
    exec (.heartbeatLoss d) s = execHeartbeatLoss d s := rfl
@[simp] theorem exec_seqStateRefresh {s : State} {d feed avgA} :
    exec (.seqStateRefresh d feed avgA) s = execSeqStateRefresh d feed avgA s := rfl
@[simp] theorem exec_feedLoss {s : State} :
    exec (.feedLoss) s = execFeedLoss s := rfl
@[simp] theorem exec_feedApply {s : State} {d} :
    exec (.feedApply d) s = execFeedApply d s := rfl
@[simp] theorem exec_feedOutOfRange {s : State} {d} :
    exec (.feedOutOfRange d) s = execFeedOutOfRange d s := rfl
@[simp] theorem exec_holdupCharged {s : State} :
    exec (.holdupCharged) s = execHoldupCharged s := rfl
@[simp] theorem exec_resetNAssert {s : State} :
    exec (.resetNAssert) s = execResetNAssert s := rfl
@[simp] theorem exec_resetNRelease {s : State} :
    exec (.resetNRelease) s = execResetNRelease s := rfl
@[simp] theorem exec_mdioAddress {s : State} {m phyad reg c45 data} :
    exec (.mdioAddress m phyad reg c45 data) s = execMdioAddress m phyad reg c45 data s := rfl
@[simp] theorem exec_mdioWrite {s : State} {m phyad reg c45 data} :
    exec (.mdioWrite m phyad reg c45 data) s = execMdioWrite m phyad reg c45 data s := rfl
@[simp] theorem exec_mdioReadIncrement {s : State} {m phyad reg c45 data} :
    exec (.mdioReadIncrement m phyad reg c45 data) s = execMdioReadIncrement m phyad reg c45 data s := rfl
@[simp] theorem exec_mdioRead {s : State} {m phyad reg c45 data} :
    exec (.mdioRead m phyad reg c45 data) s = execMdioRead m phyad reg c45 data s := rfl
@[simp] theorem exec_mdioDone {s : State} {data} :
    exec (.mdioDone data) s = execMdioDone data s := rfl
@[simp] theorem exec_portEnable {s : State} {m p} :
    exec (.portEnable m p) s = execPortEnable m p s := rfl
@[simp] theorem exec_portDisable {s : State} {m p} :
    exec (.portDisable m p) s = execPortDisable m p s := rfl
@[simp] theorem exec_portDisableDone {s : State} {p} :
    exec (.portDisableDone p) s = execPortDisableDone p s := rfl
@[simp] theorem exec_linkUp {s : State} {p rate} :
    exec (.linkUp p rate) s = execLinkUp p rate s := rfl
@[simp] theorem exec_linkDown {s : State} {p} :
    exec (.linkDown p) s = execLinkDown p s := rfl
@[simp] theorem exec_t1SpeedTryTimeout {s : State} {p} :
    exec (.t1SpeedTryTimeout p) s = execT1SpeedTryTimeout p s := rfl
@[simp] theorem exec_phyMirrorRefresh {s : State} {p sqi} :
    exec (.phyMirrorRefresh p sqi) s = execPhyMirrorRefresh p sqi s := rfl
@[simp] theorem exec_plcaBeaconLoss {s : State} {p} :
    exec (.plcaBeaconLoss p) s = execPlcaBeaconLoss p s := rfl
@[simp] theorem exec_plcaBeaconReceived {s : State} {p} :
    exec (.plcaBeaconReceived p) s = execPlcaBeaconReceived p s := rfl
@[simp] theorem exec_plcaCollision {s : State} {p} :
    exec (.plcaCollision p) s = execPlcaCollision p s := rfl
@[simp] theorem exec_tc10SleepRequest {s : State} {m p} :
    exec (.tc10SleepRequest m p) s = execTc10SleepRequest m p s := rfl
@[simp] theorem exec_tc10PartnerSleepRequest {s : State} {p} :
    exec (.tc10PartnerSleepRequest p) s = execTc10PartnerSleepRequest p s := rfl
@[simp] theorem exec_tc10SleepComplete {s : State} {p} :
    exec (.tc10SleepComplete p) s = execTc10SleepComplete p s := rfl
@[simp] theorem exec_tc10Wake {s : State} {p stoppedSending} :
    exec (.tc10Wake p stoppedSending) s = execTc10Wake p stoppedSending s := rfl
@[simp] theorem exec_preemptVerifySuccess {s : State} {p} :
    exec (.preemptVerifySuccess p) s = execPreemptVerifySuccess p s := rfl
@[simp] theorem exec_preemptVerifyTimeout {s : State} {p} :
    exec (.preemptVerifyTimeout p) s = execPreemptVerifyTimeout p s := rfl
@[simp] theorem exec_frameReceive {s : State} {p head latency} :
    exec (.frameReceive p head latency) s = execFrameReceive p head latency s := rfl
@[simp] theorem exec_frameReceiveEnd {s : State} {f rest err} :
    exec (.frameReceiveEnd f rest err) s = execFrameReceiveEnd f rest err s := rfl
@[simp] theorem exec_pfcReceive {s : State} {p enables quanta} :
    exec (.pfcReceive p enables quanta) s = execPfcReceive p enables quanta s := rfl
@[simp] theorem exec_pauseReceive {s : State} {p quanta} :
    exec (.pauseReceive p quanta) s = execPauseReceive p quanta s := rfl
@[simp] theorem exec_flowControlStopExpiry {s : State} {p c} :
    exec (.flowControlStopExpiry p c) s = execFlowControlStopExpiry p c s := rfl
@[simp] theorem exec_pfcRefresh {s : State} {p c} :
    exec (.pfcRefresh p c) s = execPfcRefresh p c s := rfl
@[simp] theorem exec_macsecVerify {s : State} {f} :
    exec (.macsecVerify f) s = execMacsecVerify f s := rfl
@[simp] theorem exec_cellAdmit {s : State} {f} :
    exec (.cellAdmit f) s = execCellAdmit f s := rfl
@[simp] theorem exec_cellFree {s : State} {f n} :
    exec (.cellFree f n) s = execCellFree f n s := rfl
@[simp] theorem exec_schedulerCellTime {s : State} {r} :
    exec (.schedulerCellTime r) s = execSchedulerCellTime r s := rfl
@[simp] theorem exec_schedulerSwap {s : State} {m} :
    exec (.schedulerSwap m) s = execSchedulerSwap m s := rfl
@[simp] theorem exec_frameEnqueue {s : State} {f} :
    exec (.frameEnqueue f) s = execFrameEnqueue f s := rfl
@[simp] theorem exec_driftSpill {s : State} {g p c} :
    exec (.driftSpill g p c) s = execDriftSpill g p c s := rfl
@[simp] theorem exec_driftReturn {s : State} {g p c} :
    exec (.driftReturn g p c) s = execDriftReturn g p c s := rfl
@[simp] theorem exec_driftDrainStart {s : State} :
    exec (.driftDrainStart) s = execDriftDrainStart s := rfl
@[simp] theorem exec_driftDrainDone {s : State} :
    exec (.driftDrainDone) s = execDriftDrainDone s := rfl
@[simp] theorem exec_linkDownHoldExpiry {s : State} {p} :
    exec (.linkDownHoldExpiry p) s = execLinkDownHoldExpiry p s := rfl
@[simp] theorem exec_cellMemoryError {s : State} {f} :
    exec (.cellMemoryError f) s = execCellMemoryError f s := rfl
@[simp] theorem exec_classifyPass {s : State} {f} :
    exec (.classifyPass f) s = execClassifyPass f s := rfl
@[simp] theorem exec_l3LengthTailCheck {s : State} {f} :
    exec (.l3LengthTailCheck f) s = execL3LengthTailCheck f s := rfl
@[simp] theorem exec_flowcmdLookup {s : State} {m slot} :
    exec (.flowcmdLookup m slot) s = execFlowcmdLookup m slot s := rfl
@[simp] theorem exec_flowcmdInsert {s : State} {m slot} :
    exec (.flowcmdInsert m slot) s = execFlowcmdInsert m slot s := rfl
@[simp] theorem exec_flowcmdDeleteKey {s : State} {m slot} :
    exec (.flowcmdDeleteKey m slot) s = execFlowcmdDeleteKey m slot s := rfl
@[simp] theorem exec_flowcmdReadSlot {s : State} {m slot} :
    exec (.flowcmdReadSlot m slot) s = execFlowcmdReadSlot m slot s := rfl
@[simp] theorem exec_flowcmdDeleteSlot {s : State} {m slot} :
    exec (.flowcmdDeleteSlot m slot) s = execFlowcmdDeleteSlot m slot s := rfl
@[simp] theorem exec_flowcmdFlush {s : State} {m slot} :
    exec (.flowcmdFlush m slot) s = execFlowcmdFlush m slot s := rfl
@[simp] theorem exec_flowQueueExecute {s : State} :
    exec (.flowQueueExecute) s = execFlowQueueExecute s := rfl
@[simp] theorem exec_agingSweep {s : State} {slot} :
    exec (.agingSweep slot) s = execAgingSweep slot s := rfl
@[simp] theorem exec_forcedRetireExpiry {s : State} {g} :
    exec (.forcedRetireExpiry g) s = execForcedRetireExpiry g s := rfl
@[simp] theorem exec_generationSweepDone {s : State} {g} :
    exec (.generationSweepDone g) s = execGenerationSweepDone g s := rfl
@[simp] theorem exec_tcamParityCheck {s : State} {e bad} :
    exec (.tcamParityCheck e bad) s = execTcamParityCheck e bad s := rfl
@[simp] theorem exec_frameDispatch {s : State} {f} :
    exec (.frameDispatch f) s = execFrameDispatch f s := rfl
@[simp] theorem exec_threadStart {s : State} {t} :
    exec (.threadStart t) s = execThreadStart t s := rfl
@[simp] theorem exec_lookupComplete {s : State} {t n} :
    exec (.lookupComplete t n) s = execLookupComplete t n s := rfl
@[simp] theorem exec_programBudgetExpiry {s : State} {t} :
    exec (.programBudgetExpiry t) s = execProgramBudgetExpiry t s := rfl
@[simp] theorem exec_rtkImageLoad {s : State} {m entbase commit} :
    exec (.rtkImageLoad m entbase commit) s = execRtkImageLoad m entbase commit s := rfl
@[simp] theorem exec_pwcImageLoad {s : State} {m d} :
    exec (.pwcImageLoad m d) s = execPwcImageLoad m d s := rfl
@[simp] theorem exec_wakImageLoad {s : State} {m} :
    exec (.wakImageLoad m) s = execWakImageLoad m s := rfl
@[simp] theorem exec_imageLoadDone {s : State} {l} :
    exec (.imageLoadDone l) s = execImageLoadDone l s := rfl
@[simp] theorem exec_memoryScrub {s : State} {cell uncorrectable} :
    exec (.memoryScrub cell uncorrectable) s = execMemoryScrub cell uncorrectable s := rfl
@[simp] theorem exec_streamStage {s : State} {f} :
    exec (.streamStage f) s = execStreamStage f s := rfl
@[simp] theorem exec_frerResetTimer {s : State} {f} :
    exec (.frerResetTimer f) s = execFrerResetTimer f s := rfl
@[simp] theorem exec_frerWatchdogExpiry {s : State} {f} :
    exec (.frerWatchdogExpiry f) s = execFrerWatchdogExpiry f s := rfl
@[simp] theorem exec_meterFill {s : State} {m n data} :
    exec (.meterFill m n data) s = execMeterFill m n data s := rfl
@[simp] theorem exec_selcfgWrite {s : State} {m p data} :
    exec (.selcfgWrite m p data) s = execSelcfgWrite m p data s := rfl
@[simp] theorem exec_selectionOpportunity {s : State} {p express latency} :
    exec (.selectionOpportunity p express latency) s = execSelectionOpportunity p express latency s := rfl
@[simp] theorem exec_frameTransmitEnd {s : State} {p express} :
    exec (.frameTransmitEnd p express) s = execFrameTransmitEnd p express s := rfl
@[simp] theorem exec_gateEntryChange {s : State} {p} :
    exec (.gateEntryChange p) s = execGateEntryChange p s := rfl
@[simp] theorem exec_gateHoldAssert {s : State} {p} :
    exec (.gateHoldAssert p) s = execGateHoldAssert p s := rfl
@[simp] theorem exec_listChangeTime {s : State} {p} :
    exec (.listChangeTime p) s = execListChangeTime p s := rfl
@[simp] theorem exec_timeSampleSubmit {s : State} {m d} :
    exec (.timeSampleSubmit m d) s = execTimeSampleSubmit m d s := rfl
@[simp] theorem exec_syncTimeout {s : State} {d} :
    exec (.syncTimeout d) s = execSyncTimeout d s := rfl
@[simp] theorem exec_holdoverExpiry {s : State} {d} :
    exec (.holdoverExpiry d) s = execHoldoverExpiry d s := rfl
@[simp] theorem exec_timeSet {s : State} {m d} :
    exec (.timeSet m d) s = execTimeSet m d s := rfl
@[simp] theorem exec_domainEnable {s : State} {m d} :
    exec (.domainEnable m d) s = execDomainEnable m d s := rfl
@[simp] theorem exec_domainDisable {s : State} {m d} :
    exec (.domainDisable m d) s = execDomainDisable m d s := rfl
@[simp] theorem exec_timeSnapshot {s : State} {m} :
    exec (.timeSnapshot m) s = execTimeSnapshot m s := rfl
@[simp] theorem exec_timeConvert {s : State} {m d} :
    exec (.timeConvert m d) s = execTimeConvert m d s := rfl
@[simp] theorem exec_ltAlignFlit {s : State} {moved residual} :
    exec (.ltAlignFlit moved residual) s = execLtAlignFlit moved residual s := rfl
@[simp] theorem exec_timeInEdge {s : State} {error} :
    exec (.timeInEdge error) s = execTimeInEdge error s := rfl
@[simp] theorem exec_timeInLoss {s : State} :
    exec (.timeInLoss) s = execTimeInLoss s := rfl
@[simp] theorem exec_timeOutPulse {s : State} :
    exec (.timeOutPulse) s = execTimeOutPulse s := rfl
@[simp] theorem exec_oscDeviation {s : State} :
    exec (.oscDeviation) s = execOscDeviation s := rfl
@[simp] theorem exec_laneMismatch {s : State} {lane} :
    exec (.laneMismatch lane) s = execLaneMismatch lane s := rfl
@[simp] theorem exec_laneReturnTest {s : State} {lane pass} :
    exec (.laneReturnTest lane pass) s = execLaneReturnTest lane pass s := rfl
@[simp] theorem exec_entropyHealthFail {s : State} :
    exec (.entropyHealthFail) s = execEntropyHealthFail s := rfl
@[simp] theorem exec_entropyRetryExpiry {s : State} :
    exec (.entropyRetryExpiry) s = execEntropyRetryExpiry s := rfl
@[simp] theorem exec_drbgReseed {s : State} :
    exec (.drbgReseed) s = execDrbgReseed s := rfl
@[simp] theorem exec_cipRngRead {s : State} {m} :
    exec (.cipRngRead m) s = execCipRngRead m s := rfl
@[simp] theorem exec_vltRngRead {s : State} {m} :
    exec (.vltRngRead m) s = execVltRngRead m s := rfl
@[simp] theorem exec_saEnable {s : State} {m sa en} :
    exec (.saEnable m sa en) s = execSaEnable m sa en s := rfl
@[simp] theorem exec_keyContextLoaded {s : State} {k} :
    exec (.keyContextLoaded k) s = execKeyContextLoaded k s := rfl
@[simp] theorem exec_keyClear {s : State} {m ctx} :
    exec (.keyClear m ctx) s = execKeyClear m ctx s := rfl
@[simp] theorem exec_jobClaim {s : State} {m j} :
    exec (.jobClaim m j) s = execJobClaim m j s := rfl
@[simp] theorem exec_jobGo {s : State} {m j} :
    exec (.jobGo m j) s = execJobGo m j s := rfl
@[simp] theorem exec_jobStart {s : State} {j} :
    exec (.jobStart j) s = execJobStart j s := rfl
@[simp] theorem exec_jobAbort {s : State} {m j} :
    exec (.jobAbort m j) s = execJobAbort m j s := rfl
@[simp] theorem exec_jobRelease {s : State} {m j} :
    exec (.jobRelease m j) s = execJobRelease m j s := rfl
@[simp] theorem exec_jobDone {s : State} {j} :
    exec (.jobDone j) s = execJobDone j s := rfl
@[simp] theorem exec_contextEccError {s : State} {c uncorrectable} :
    exec (.contextEccError c uncorrectable) s = execContextEccError c uncorrectable s := rfl
@[simp] theorem exec_vaultReady {s : State} {rootOk identityOk} :
    exec (.vaultReady rootOk identityOk) s = execVaultReady rootOk identityOk s := rfl
@[simp] theorem exec_provision {s : State} {c} :
    exec (.provision c) s = execProvision c s := rfl
@[simp] theorem exec_derive {s : State} {c badTag} :
    exec (.derive c badTag) s = execDerive c badTag s := rfl
@[simp] theorem exec_invalidate {s : State} {c} :
    exec (.invalidate c) s = execInvalidate c s := rfl
@[simp] theorem exec_overwrite {s : State} {c} :
    exec (.overwrite c) s = execOverwrite c s := rfl
@[simp] theorem exec_extend {s : State} {c} :
    exec (.extend c) s = execExtend c s := rfl
@[simp] theorem exec_verify {s : State} {c} :
    exec (.verify c) s = execVerify c s := rfl
@[simp] theorem exec_enrol {s : State} {c} :
    exec (.enrol c) s = execEnrol c s := rfl
@[simp] theorem exec_tamperSample {s : State} {loopOpen} :
    exec (.tamperSample loopOpen) s = execTamperSample loopOpen s := rfl
@[simp] theorem exec_vaultZeroizeDone {s : State} :
    exec (.vaultZeroizeDone) s = execVaultZeroizeDone s := rfl
@[simp] theorem exec_glitchTrip {s : State} :
    exec (.glitchTrip) s = execGlitchTrip s := rfl
@[simp] theorem exec_canFrameReceived {s : State} {c how ident flags data ago} :
    exec (.canFrameReceived c how ident flags data ago) s = execCanFrameReceived c how ident flags data ago s := rfl
@[simp] theorem exec_linHeaderReceived {s : State} {l h} :
    exec (.linHeaderReceived l h) s = execLinHeaderReceived l h s := rfl
@[simp] theorem exec_linFrameReceived {s : State} {l ident data err ago} :
    exec (.linFrameReceived l ident data err ago) s = execLinFrameReceived l ident data err ago s := rfl
@[simp] theorem exec_linScheduleSlot {s : State} {l} :
    exec (.linScheduleSlot l) s = execLinScheduleSlot l s := rfl
@[simp] theorem exec_serFrameEnd {s : State} {c data err ago} :
    exec (.serFrameEnd c data err ago) s = execSerFrameEnd c data err ago s := rfl
@[simp] theorem exec_dinSample {s : State} {levels} :
    exec (.dinSample levels) s = execDinSample levels s := rfl
@[simp] theorem exec_ainConversion {s : State} {ch value} :
    exec (.ainConversion ch value) s = execAinConversion ch value s := rfl
@[simp] theorem exec_ainPeriodicReport {s : State} {ch} :
    exec (.ainPeriodicReport ch) s = execAinPeriodicReport ch s := rfl
@[simp] theorem exec_gatewayTxFrame {s : State} :
    exec (.gatewayTxFrame) s = execGatewayTxFrame s := rfl
@[simp] theorem exec_canTransmit {s : State} {c x} :
    exec (.canTransmit c x) s = execCanTransmit c x s := rfl
@[simp] theorem exec_canTxTimeout {s : State} {c} :
    exec (.canTxTimeout c) s = execCanTxTimeout c s := rfl
@[simp] theorem exec_canBusOff {s : State} {c} :
    exec (.canBusOff c) s = execCanBusOff c s := rfl
@[simp] theorem exec_canBusoffRecovery {s : State} {c} :
    exec (.canBusoffRecovery c) s = execCanBusoffRecovery c s := rfl
@[simp] theorem exec_canDominantTimeout {s : State} {c} :
    exec (.canDominantTimeout c) s = execCanDominantTimeout c s := rfl
@[simp] theorem exec_gwyChannelEnable {s : State} {m ch} :
    exec (.gwyChannelEnable m ch) s = execGwyChannelEnable m ch s := rfl
@[simp] theorem exec_gwyChannelDisable {s : State} {m ch} :
    exec (.gwyChannelDisable m ch) s = execGwyChannelDisable m ch s := rfl
@[simp] theorem exec_canSelectiveWake {s : State} {c kind ide ident dlc data} :
    exec (.canSelectiveWake c kind ide ident dlc data) s = execCanSelectiveWake c kind ide ident dlc data s := rfl
@[simp] theorem exec_linWakePulse {s : State} {l} :
    exec (.linWakePulse l) s = execLinWakePulse l s := rfl
@[simp] theorem exec_pcieLinkUp {s : State} {width speed vc1} :
    exec (.pcieLinkUp width speed vc1) s = execPcieLinkUp width speed vc1 s := rfl
@[simp] theorem exec_pcieLinkDown {s : State} {byPm} :
    exec (.pcieLinkDown byPm) s = execPcieLinkDown byPm s := rfl
@[simp] theorem exec_outboundRequest {s : State} {m addr size write data} :
    exec (.outboundRequest m addr size write data) s = execOutboundRequest m addr size write data s := rfl
@[simp] theorem exec_outboundCompletion {s : State} {id st data} :
    exec (.outboundCompletion id st data) s = execOutboundCompletion id st data s := rfl
@[simp] theorem exec_completionTimeout {s : State} {id} :
    exec (.completionTimeout id) s = execCompletionTimeout id s := rfl
@[simp] theorem exec_pcieReplay {s : State} :
    exec (.pcieReplay) s = execPcieReplay s := rfl
@[simp] theorem exec_inboundRequest {s : State} {write urgent bar2 rid addr bytes} :
    exec (.inboundRequest write urgent bar2 rid addr bytes) s = execInboundRequest write urgent bar2 rid addr bytes s := rfl
@[simp] theorem exec_errorMessageReceived {s : State} {sev rid failing} :
    exec (.errorMessageReceived sev rid failing) s = execErrorMessageReceived sev rid failing s := rfl
@[simp] theorem exec_bridgeBufferError {s : State} {tlp} :
    exec (.bridgeBufferError tlp) s = execBridgeBufferError tlp s := rfl
@[simp] theorem exec_fence {s : State} {m w} :
    exec (.fence m w) s = execFence m w s := rfl
@[simp] theorem exec_fenceDone {s : State} {st} :
    exec (.fenceDone st) s = execFenceDone st s := rfl
@[simp] theorem exec_prefetchExpiry {s : State} {k} :
    exec (.prefetchExpiry k) s = execPrefetchExpiry k s := rfl
@[simp] theorem exec_pollRead {s : State} {d} :
    exec (.pollRead d) s = execPollRead d s := rfl
@[simp] theorem exec_pollCompletion {s : State} {d st data} :
    exec (.pollCompletion d st data) s = execPollCompletion d st data s := rfl
@[simp] theorem exec_signalTrigger {s : State} {m sig unmasked} :
    exec (.signalTrigger m sig unmasked) s = execSignalTrigger m sig unmasked s := rfl
@[simp] theorem exec_ringTailWrite {s : State} {m r tail} :
    exec (.ringTailWrite m r tail) s = execRingTailWrite m r tail s := rfl
@[simp] theorem exec_ringTxFrame {s : State} {own tc len bytes} :
    exec (.ringTxFrame own tc len bytes) s = execRingTxFrame own tc len bytes s := rfl
@[simp] theorem exec_ringRxFrame {s : State} {own buffer} :
    exec (.ringRxFrame own buffer) s = execRingRxFrame own buffer s := rfl
@[simp] theorem exec_mjpartWrite {s : State} {u v} :
    exec (.mjpartWrite u v) s = execMjpartWrite u v s := rfl
@[simp] theorem exec_softwareInterrupt {s : State} {m n} :
    exec (.softwareInterrupt m n) s = execSoftwareInterrupt m n s := rfl
@[simp] theorem exec_pairRun {s : State} {m u} :
    exec (.pairRun m u) s = execPairRun m u s := rfl
@[simp] theorem exec_comparatorSelftestDone {s : State} {u pass} :
    exec (.comparatorSelftestDone u pass) s = execComparatorSelftestDone u pass s := rfl
@[simp] theorem exec_lockstepMismatch {s : State} {u} :
    exec (.lockstepMismatch u) s = execLockstepMismatch u s := rfl
@[simp] theorem exec_spareReturnTest {s : State} {u pass} :
    exec (.spareReturnTest u pass) s = execSpareReturnTest u pass s := rfl
@[simp] theorem exec_groomerScrub {s : State} {u agree} :
    exec (.groomerScrub u agree) s = execGroomerScrub u agree s := rfl
@[simp] theorem exec_resyncDone {s : State} {u} :
    exec (.resyncDone u) s = execResyncDone u s := rfl
@[simp] theorem exec_checkpointCommit {s : State} {m pmid seq} :
    exec (.checkpointCommit m pmid seq) s = execCheckpointCommit m pmid seq s := rfl
@[simp] theorem exec_debugOpen {s : State} {m} :
    exec (.debugOpen m) s = execDebugOpen m s := rfl
@[simp] theorem exec_debugExpiry {s : State} :
    exec (.debugExpiry) s = execDebugExpiry s := rfl
@[simp] theorem exec_debugHalt {s : State} {u halt} :
    exec (.debugHalt u halt) s = execDebugHalt u halt s := rfl
@[simp] theorem exec_seqTick {s : State} {samples} :
    exec (.seqTick samples) s = execSeqTick samples s := rfl
@[simp] theorem exec_thetaWrite {s : State} {m n v} :
    exec (.thetaWrite m n v) s = execThetaWrite m n v s := rfl
@[simp] theorem exec_modelStall {s : State} {n} :
    exec (.modelStall n) s = execModelStall n s := rfl
@[simp] theorem exec_modelSnapshot {s : State} :
    exec (.modelSnapshot) s = execModelSnapshot s := rfl
@[simp] theorem exec_offsetCalibration {s : State} {n avg} :
    exec (.offsetCalibration n avg) s = execOffsetCalibration n avg s := rfl
@[simp] theorem exec_calibrationStale {s : State} {n gain} :
    exec (.calibrationStale n gain) s = execCalibrationStale n gain s := rfl
@[simp] theorem exec_gainStep {s : State} {n before during after} :
    exec (.gainStep n before during after) s = execGainStep n before during after s := rfl
@[simp] theorem exec_fastLimitTrip {s : State} {n} :
    exec (.fastLimitTrip n) s = execFastLimitTrip n s := rfl
@[simp] theorem exec_thermalShutdown {s : State} {n} :
    exec (.thermalShutdown n) s = execThermalShutdown n s := rfl
@[simp] theorem exec_thermalRestartReady {s : State} {n} :
    exec (.thermalRestartReady n) s = execThermalRestartReady n s := rfl
@[simp] theorem exec_elevatedWindowEnd {s : State} {n} :
    exec (.elevatedWindowEnd n) s = execElevatedWindowEnd n s := rfl
@[simp] theorem exec_mogulSuccess {s : State} {n} :
    exec (.mogulSuccess n) s = execMogulSuccess n s := rfl
@[simp] theorem exec_mogulRetryRequest {s : State} {n} :
    exec (.mogulRetryRequest n) s = execMogulRetryRequest n s := rfl
@[simp] theorem exec_restartSlot {s : State} {d} :
    exec (.restartSlot d) s = execRestartSlot d s := rfl
@[simp] theorem exec_runoutTrip {s : State} {n} :
    exec (.runoutTrip n) s = execRunoutTrip n s := rfl
@[simp] theorem exec_dieOverloadShed {s : State} {d avgA} :
    exec (.dieOverloadShed d avgA) s = execDieOverloadShed d avgA s := rfl
@[simp] theorem exec_openLoad {s : State} {n on} :
    exec (.openLoad n on) s = execOpenLoad n on s := rfl
@[simp] theorem exec_loadDump {s : State} {d} :
    exec (.loadDump d) s = execLoadDump d s := rfl
@[simp] theorem exec_loadDumpEnd {s : State} {d} :
    exec (.loadDumpEnd d) s = execLoadDumpEnd d s := rfl
@[simp] theorem exec_feedReversed {s : State} {d} :
    exec (.feedReversed d) s = execFeedReversed d s := rfl
@[simp] theorem exec_groundLoss {s : State} :
    exec (.groundLoss) s = execGroundLoss s := rfl
@[simp] theorem exec_groundShift {s : State} :
    exec (.groundShift) s = execGroundShift s := rfl
@[simp] theorem exec_channelSupervisionExpiry {s : State} {n} :
    exec (.channelSupervisionExpiry n) s = execChannelSupervisionExpiry n s := rfl
@[simp] theorem exec_stateRequestPewter {s : State} {m} :
    exec (.stateRequestPewter m) s = execStateRequestPewter m s := rfl
@[simp] theorem exec_stateRequestIvory {s : State} {m} :
    exec (.stateRequestIvory m) s = execStateRequestIvory m s := rfl
@[simp] theorem exec_transitionDone {s : State} :
    exec (.transitionDone) s = execTransitionDone s := rfl
@[simp] theorem exec_wakePinEdge {s : State} {pin rising} :
    exec (.wakePinEdge pin rising) s = execWakePinEdge pin rising s := rfl
@[simp] theorem exec_keyAssert {s : State} :
    exec (.keyAssert) s = execKeyAssert s := rfl
@[simp] theorem exec_rtcAlarm {s : State} {a} :
    exec (.rtcAlarm a) s = execRtcAlarm a s := rfl
@[simp] theorem exec_wakeTimerTick {s : State} :
    exec (.wakeTimerTick) s = execWakeTimerTick s := rfl
@[simp] theorem exec_falseWakeTimeout {s : State} :
    exec (.falseWakeTimeout) s = execFalseWakeTimeout s := rfl
@[simp] theorem exec_rtcSet {s : State} {m} :
    exec (.rtcSet m) s = execRtcSet m s := rfl
@[simp] theorem exec_rtcInvalid {s : State} :
    exec (.rtcInvalid) s = execRtcInvalid s := rfl
@[simp] theorem exec_voteWrite {s : State} {m vote} :
    exec (.voteWrite m vote) s = execVoteWrite m vote s := rfl
@[simp] theorem exec_chairStart {s : State} {top} :
    exec (.chairStart top) s = execChairStart top s := rfl
@[simp] theorem exec_chairReceived {s : State} {payload addrTop can} :
    exec (.chairReceived payload addrTop can) s = execChairReceived payload addrTop can s := rfl
@[simp] theorem exec_commitReceived {s : State} {payload addrTop can residence} :
    exec (.commitReceived payload addrTop can residence) s = execCommitReceived payload addrTop can residence s := rfl
@[simp] theorem exec_abortReceived {s : State} {payload addrTop can} :
    exec (.abortReceived payload addrTop can) s = execAbortReceived payload addrTop can s := rfl
@[simp] theorem exec_chairTimeout {s : State} {top} :
    exec (.chairTimeout top) s = execChairTimeout top s := rfl
@[simp] theorem exec_leaderTimeout {s : State} :
    exec (.leaderTimeout) s = execLeaderTimeout s := rfl
@[simp] theorem exec_maxawakeExpiry {s : State} :
    exec (.maxawakeExpiry) s = execMaxawakeExpiry s := rfl
@[simp] theorem exec_commitDeadline {s : State} :
    exec (.commitDeadline) s = execCommitDeadline s := rfl
@[simp] theorem exec_sleepEntryDone {s : State} :
    exec (.sleepEntryDone) s = execSleepEntryDone s := rfl
@[simp] theorem exec_dowakeTimer {s : State} :
    exec (.dowakeTimer) s = execDowakeTimer s := rfl
@[simp] theorem exec_openImage {s : State} {m ch} :
    exec (.openImage m ch) s = execOpenImage m ch s := rfl
@[simp] theorem exec_manifestVerifyDone {s : State} :
    exec (.manifestVerifyDone) s = execManifestVerifyDone s := rfl
@[simp] theorem exec_stream {s : State} {m ch} :
    exec (.stream m ch) s = execStream m ch s := rfl
@[simp] theorem exec_segmentDone {s : State} {flashOk} :
    exec (.segmentDone flashOk) s = execSegmentDone flashOk s := rfl
@[simp] theorem exec_finish {s : State} {m ch} :
    exec (.finish m ch) s = execFinish m ch s := rfl
@[simp] theorem exec_arm {s : State} {m ch} :
    exec (.arm m ch) s = execArm m ch s := rfl
@[simp] theorem exec_sessionAbort {s : State} {m ch} :
    exec (.sessionAbort m ch) s = execSessionAbort m ch s := rfl
@[simp] theorem exec_sessionTimeout {s : State} :
    exec (.sessionTimeout) s = execSessionTimeout s := rfl
@[simp] theorem exec_updateCommit {s : State} {m} :
    exec (.updateCommit m) s = execUpdateCommit m s := rfl
@[simp] theorem exec_bootAbort {s : State} {m} :
    exec (.bootAbort m) s = execBootAbort m s := rfl
@[simp] theorem exec_mramWrite {s : State} {m data} :
    exec (.mramWrite m data) s = execMramWrite m data s := rfl
@[simp] theorem exec_bbRecordWrite {s : State} :
    exec (.bbRecordWrite) s = execBbRecordWrite s := rfl
@[simp] theorem exec_softwareRecord {s : State} {m code} :
    exec (.softwareRecord m code) s = execSoftwareRecord m code s := rfl
@[simp] theorem exec_bbExport {s : State} {m data} :
    exec (.bbExport m data) s = execBbExport m data s := rfl
@[simp] theorem exec_bbClear {s : State} {m} :
    exec (.bbClear m) s = execBbClear m s := rfl
@[simp] theorem exec_faultReport {s : State} :
    exec (.faultReport) s = execFaultReport s := rfl
@[simp] theorem exec_isolateTimeout {s : State} :
    exec (.isolateTimeout) s = execIsolateTimeout s := rfl
@[simp] theorem exec_collectorMismatch {s : State} :
    exec (.collectorMismatch) s = execCollectorMismatch s := rfl
@[simp] theorem exec_datapathCheck {s : State} {stage f} :
    exec (.datapathCheck stage f) s = execDatapathCheck stage f s := rfl
@[simp] theorem exec_hardwareMonitorTrip {s : State} {t} :
    exec (.hardwareMonitorTrip t) s = execHardwareMonitorTrip t s := rfl
@[simp] theorem exec_watchdogEnable {s : State} {m u} :
    exec (.watchdogEnable m u) s = execWatchdogEnable m u s := rfl
@[simp] theorem exec_watchdogKick {s : State} {m u key} :
    exec (.watchdogKick m u key) s = execWatchdogKick m u key s := rfl
@[simp] theorem exec_watchdogExpiry {s : State} {u} :
    exec (.watchdogExpiry u) s = execWatchdogExpiry u s := rfl
@[simp] theorem exec_faultN1Release {s : State} {m} :
    exec (.faultN1Release m) s = execFaultN1Release m s := rfl
@[simp] theorem exec_counterModeWrite {s : State} {m mode} :
    exec (.counterModeWrite m mode) s = execCounterModeWrite m mode s := rfl
@[simp] theorem exec_ovfClear {s : State} {m} :
    exec (.ovfClear m) s = execOvfClear m s := rfl
@[simp] theorem exec_counterSnapshot {s : State} {m} :
    exec (.counterSnapshot m) s = execCounterSnapshot m s := rfl
@[simp] theorem exec_pwmEdge {s : State} {n rising} :
    exec (.pwmEdge n rising) s = execPwmEdge n rising s := rfl
@[simp] theorem exec_feedReturn {s : State} {d} :
    exec (.feedReturn d) s = execFeedReturn d s := rfl
@[simp] theorem exec_groundRestore {s : State} :
    exec (.groundRestore) s = execGroundRestore s := rfl
@[simp] theorem exec_floorTimerExpiry {s : State} {n} :
    exec (.floorTimerExpiry n) s = execFloorTimerExpiry n s := rfl
@[simp] theorem exec_serTransmit {s : State} {x} :
    exec (.serTransmit x) s = execSerTransmit x s := rfl
@[simp] theorem exec_keyDeassert {s : State} :
    exec (.keyDeassert) s = execKeyDeassert s := rfl
@[simp] theorem exec_perstNChange {s : State} {level} :
    exec (.perstNChange level) s = execPerstNChange level s := rfl

/-- The command at the front of the queue runs on the state with the rest of the queue. -/
theorem step_cons {s : State} {c : Instr} {rest : List Instr} (h : s.pending = c :: rest) :
    step s = exec c { s with pending := rest } := by
  unfold step
  rw [h]

/-- With an empty queue a nanosecond passes. -/
theorem step_nil {s : State} (h : s.pending = []) : step s = .next s.tick := by
  unfold step
  rw [h]

end Sys2Proof.Machine
end

