-- ==== Sys2Proof/Laws/Store.lean ====
section
/-!
SUPPORT. The laws of the sparse stores: what a read finds after a write, and that every store operation
keeps the canonical form.
-/

namespace Sys2Proof.Machine

variable {α : Type}

/-! ## A read after a write -/

theorem Store.find_put (m : Store α) (k k' : Nat) (v : α) :
    Store.find (Store.put m k v) k' = if k = k' then some v else Store.find m k' := by
  induction m with
  | nil => simp [Store.put, Store.find]
  | cons e t ih =>
    obtain ⟨a, b⟩ := e
    simp only [Store.put]
    split
    · simp [Store.find]
    · split
      · subst_vars
        simp only [Store.find]
        split <;> simp_all
      · simp only [Store.find, ih]
        by_cases h1 : a = k' <;> by_cases h2 : k = k' <;> simp_all

theorem Store.find_filter (m : Store α) (p : Nat → Bool) (k : Nat) :
    Store.find (m.filter (fun e => p e.1)) k = if p k then Store.find m k else none := by
  induction m with
  | nil => simp [Store.find]
  | cons e t ih =>
    obtain ⟨a, b⟩ := e
    by_cases h : p a <;> by_cases hk : a = k <;> simp_all [Store.find, List.filter_cons]

/-- A read finds the last value written at its key, and every other key as before. -/
theorem Store.get_set [DecidableEq α] (d : Nat → α) (m : Store α) (k k' : Nat) (v : α) :
    Store.get d (Store.set d m k v) k' = if k = k' then v else Store.get d m k' := by
  unfold Store.set
  split
  · have := Store.find_filter m (fun x => x != k) k'
    simp only [Store.get, Store.drop, this]
    by_cases h : k = k'
    · subst h; simp_all
    · have : (k' != k) = true := by simp; omega
      simp [this, h]
  · simp only [Store.get, Store.find_put]
    by_cases h : k = k' <;> simp [h]

@[simp] theorem Store.get_set_same [DecidableEq α] (d : Nat → α) (m : Store α) (k : Nat) (v : α) :
    Store.get d (Store.set d m k v) k = v := by simp [Store.get_set]

theorem Store.get_set_other [DecidableEq α] (d : Nat → α) (m : Store α) {k k' : Nat} (v : α)
    (h : k ≠ k') : Store.get d (Store.set d m k v) k' = Store.get d m k' := by
  simp [Store.get_set, h]

@[simp] theorem Store.get_nil (d : Nat → α) (k : Nat) : Store.get d ([] : Store α) k = d k := rfl

/-! ## The canonical form -/

theorem Store.rising_cons (e : Nat × α) (t : Store α) :
    Store.rising (e :: t) = (t.all (fun x => decide (e.1 < x.1)) && Store.rising t) := by
  obtain ⟨a, b⟩ := e; rfl

theorem Store.all_put (m : Store α) (k : Nat) (v : α) (p : Nat × α → Bool)
    (hm : m.all p = true) (hk : p (k, v) = true) : (Store.put m k v).all p = true := by
  induction m with
  | nil => simp [Store.put, hk]
  | cons e t ih =>
    obtain ⟨a, b⟩ := e
    simp only [List.all_cons, Bool.and_eq_true] at hm
    simp only [Store.put]
    split
    · simp [hk, hm.1, hm.2]
    · split
      · simp [hk, hm.2]
      · simp [hm.1, ih hm.2]

theorem Store.put_rising (m : Store α) (k : Nat) (v : α) (h : Store.rising m = true) :
    Store.rising (Store.put m k v) = true := by
  induction m with
  | nil => simp [Store.put, Store.rising]
  | cons e t ih =>
    obtain ⟨a, b⟩ := e
    have h' := h
    simp only [Store.rising, Bool.and_eq_true] at h'
    simp only [Store.put]
    split
    · rename_i hk
      simp only [Store.rising, List.all_cons, Bool.and_eq_true, decide_eq_true_eq]
      refine ⟨⟨hk, ?_⟩, h'⟩
      simp only [List.all_eq_true, decide_eq_true_eq] at h' ⊢
      exact fun x hx => Nat.lt_trans hk (h'.1 x hx)
    · split
      · subst_vars
        simpa [Store.rising] using h'
      · simp only [Store.rising, Bool.and_eq_true]
        refine ⟨Store.all_put t k v _ h'.1 ?_, ih h'.2⟩
        simp only [decide_eq_true_eq]
        omega

theorem Store.filter_rising (m : Store α) (p : Nat × α → Bool) (h : Store.rising m = true) :
    Store.rising (m.filter p) = true := by
  induction m with
  | nil => rfl
  | cons e t ih =>
    rw [Store.rising_cons, Bool.and_eq_true] at h
    rw [List.filter_cons]
    split
    · rw [Store.rising_cons, Bool.and_eq_true]
      refine ⟨?_, ih h.2⟩
      simp only [List.all_eq_true, List.mem_filter] at h ⊢
      exact fun x hx => h.1 x hx.1
    · exact ih h.2

variable [DecidableEq α] {d : Nat → α}

theorem Store.wf_nil : Store.wf d ([] : Store α) = true := rfl

/-- Unlisting entries keeps the form. -/
theorem Store.wf_filter {m : Store α} (p : Nat × α → Bool) (h : Store.wf d m = true) :
    Store.wf d (m.filter p) = true := by
  simp only [Store.wf, Bool.and_eq_true, List.all_eq_true, List.mem_filter] at h ⊢
  exact ⟨Store.filter_rising m p h.1, fun x hx => h.2 x hx.1⟩

theorem Store.wf_drop {m : Store α} (k : Nat) (h : Store.wf d m = true) :
    Store.wf d (Store.drop m k) = true := Store.wf_filter _ h

theorem Store.wf_clear {m : Store α} (lo hi : Nat) (h : Store.wf d m = true) :
    Store.wf d (Store.clear m lo hi) = true := Store.wf_filter _ h

/-- Writing a value keeps the form. -/
theorem Store.wf_set {m : Store α} (k : Nat) (v : α) (h : Store.wf d m = true) :
    Store.wf d (Store.set d m k v) = true := by
  unfold Store.set
  split
  · exact Store.wf_drop k h
  · simp only [Store.wf, Bool.and_eq_true] at h ⊢
    exact ⟨Store.put_rising m k v h.1, Store.all_put m k v _ h.2 (by simpa)⟩

/-- Writing a list of entries keeps the form. -/
theorem Store.wf_setAll {m : Store α} (es : Store α) (h : Store.wf d m = true) :
    Store.wf d (Store.setAll d m es) = true := by
  unfold Store.setAll
  induction es generalizing m with
  | nil => exact h
  | cons e t ih => exact ih (Store.wf_set _ _ h)

end Sys2Proof.Machine
end

