-- ==== Sys2Proof/Laws/Keeps.lean ====
section
/-!
SUPPORT. The relation that every operation of the block keeps from an earlier state: parts outside a given
set are untouched; the waiting queue, the build and the time are untouched, free values stay
fresh, and the canonical forms and the bound of the black-box queue survive. The lemma of an
operation names the parts it can change and carries the relation from before it to after it.
-/

namespace Sys2Proof.Machine

/-- What every operation keeps; `w` tells the parts that may change. -/
structure State.Keeps (w : Part → Bool) (a s : State) : Prop where
  same : ∀ p, w p = false → a.sameAt s p
  pending : s.pending = a.pending
  variant : s.variant = a.variant
  nowNs : s.nowNs = a.nowNs
  freeCtr : a.freeCtr ≤ s.freeCtr
  regs : Store.wf resetWord a.regs = true → Store.wf resetWord s.regs = true
  live : Store.wf liveDefault a.live = true → Store.wf liveDefault s.live = true
  mem : Memory.wf a.mem = true → Memory.wf s.mem = true
  box : a.bbQueue.length ≤ 64 → s.bbQueue.length ≤ 64

theorem State.sameAt_refl (s : State) (p : Part) : s.sameAt s p := by cases p <;> rfl

theorem State.sameAt_trans {s t u : State} {p : Part} (h : s.sameAt t p) (h' : t.sameAt u p) :
    s.sameAt u p := by cases p <;> exact Eq.trans h' h

theorem State.Keeps.refl (w : Part → Bool) (a : State) : a.Keeps w a :=
  ⟨fun p _ => State.sameAt_refl a p, rfl, rfl, rfl, Nat.le_refl _, id, id, id, id⟩

/-- A list of parts that may change covers a shorter one. -/
theorem all_of {w : Part → Bool} {l m : List Part} (h : l.all w = true)
    (hs : m.all (fun p => l.contains p) = true) : m.all w = true := by
  simp only [List.all_eq_true, List.contains_iff_mem] at h hs ⊢
  exact fun p hp => h p (hs p hp)

theorem all_contains (l : List Part) : l.all (fun p => l.contains p) = true := by
  simp only [List.all_eq_true, List.contains_iff_mem]
  exact fun p hp => hp

/-- The relation gives the parts of the statements about a command. -/
theorem State.Keeps.undisturbed {w : Part → Bool} {a s : State} (h : a.Keeps w s) : a.Undisturbed s :=
  ⟨h.pending, h.variant, h.nowNs, h.freeCtr⟩

theorem State.Keeps.sound {w : Part → Bool} {a s : State} (h : a.Keeps w s) (ha : a.sound = true) :
    s.sound = true := by
  simp only [State.sound, State.canonical, State.boxBounded, Bool.and_eq_true, decide_eq_true_eq] at ha ⊢
  exact ⟨⟨⟨h.regs ha.1.1.1, h.live ha.1.1.2⟩, h.mem ha.1.2⟩, h.box ha.2⟩

theorem State.Keeps.changesOnly {ps : List Part} {a s : State}
    (h : a.Keeps (fun p => ps.contains p) s) : State.ChangesOnly ps a s := h.same

variable {w : Part → Bool} {a s : State}

theorem keeps_ite {t : State} {c : Prop} [Decidable c] (hs : a.Keeps w s) (ht : a.Keeps w t) :
    a.Keeps w (if c then s else t) := by split <;> assumption

theorem keeps_dite {c : Prop} [Decidable c] {s : c → State} {t : ¬c → State}
    (hs : ∀ x, a.Keeps w (s x)) (ht : ∀ x, a.Keeps w (t x)) :
    a.Keeps w (if x : c then s x else t x) := by
  split
  · exact hs _
  · exact ht _

theorem keeps_foldl {β : Type} (f : State → β → State) (l : List β) (hs : a.Keeps w s)
    (hf : ∀ t x, a.Keeps w t → a.Keeps w (f t x)) : a.Keeps w (l.foldl f s) := by
  induction l generalizing s with
  | nil => exact hs
  | cons x xs ih => exact ih (hf s x hs)

theorem keeps_foldr {β : Type} (f : β → State → State) (l : List β) (hs : a.Keeps w s)
    (hf : ∀ x t, a.Keeps w t → a.Keeps w (f x t)) : a.Keeps w (l.foldr f s) := by
  induction l with
  | nil => exact hs
  | cons x xs ih => exact hf x _ ih

theorem keeps_foldl_fst {β γ : Type} (f : State × β → γ → State × β) (l : List γ) {p : State × β}
    (hp : a.Keeps w p.1) (hf : ∀ q x, a.Keeps w q.1 → a.Keeps w (f q x).1) :
    a.Keeps w (l.foldl f p).1 := by
  induction l generalizing p with
  | nil => exact hp
  | cons x xs ih => exact ih (hf p x hp)

theorem keeps_foldl_snd {β γ : Type} (f : β × State → γ → β × State) (l : List γ) {p : β × State}
    (hp : a.Keeps w p.2) (hf : ∀ q x, a.Keeps w q.2 → a.Keeps w (f q x).2) :
    a.Keeps w (l.foldl f p).2 := by
  induction l generalizing p with
  | nil => exact hp
  | cons x xs ih => exact ih (hf p x hp)

theorem keeps_of_snd {β : Type} {x : β} {p : β × State} (h : a.Keeps w p.2) (e : p = (x, s)) :
    a.Keeps w s := by
  subst e
  exact h

theorem keeps_of_fst {β : Type} {x : β} {p : State × β} (h : a.Keeps w p.1) (e : p = (s, x)) :
    a.Keeps w s := by
  subst e
  exact h

/-- A command's answer keeps the relation. -/
structure AnswerKeeps (w : Part → Bool) (a : State) (o : Host.Outcome State Fault Refusal) : Prop where
  keeps : ∀ t, o = .next t → a.Keeps w t

theorem answerKeeps_next (h : a.Keeps w s) : AnswerKeeps w a (.next s) := by
  constructor
  intro t e
  cases e
  exact h

/-- The counter of free values may only rise. -/
theorem keeps_free (f : Nat) (h : a.Keeps w s) (hf : s.freeCtr ≤ f) : a.Keeps w { s with freeCtr := f } :=
  ⟨fun p hp => State.sameAt_trans (h.same p hp) (by cases p <;> rfl), h.pending, h.variant, h.nowNs,
    Nat.le_trans h.freeCtr hf, h.regs, h.live, h.mem, h.box⟩

/-! ## Updates of one or two parts -/

theorem keeps_tim (hw : [Part.tim].all w = true) (x0 : TimeState)
    (h : a.Keeps w s) : a.Keeps w { s with tim := x0 } := by
  simp only [List.all_cons, List.all_nil, Bool.and_true] at hw
  refine ⟨fun p hp => ?_, h.pending, h.variant, h.nowNs, h.freeCtr, h.regs, h.live, h.mem, h.box⟩
  cases p
  case tim => simp [hw] at hp
  all_goals exact h.same _ hp

theorem keeps_rtc (hw : [Part.rtc].all w = true) (x0 : RtcState)
    (h : a.Keeps w s) : a.Keeps w { s with rtc := x0 } := by
  simp only [List.all_cons, List.all_nil, Bool.and_true] at hw
  refine ⟨fun p hp => ?_, h.pending, h.variant, h.nowNs, h.freeCtr, h.regs, h.live, h.mem, h.box⟩
  cases p
  case rtc => simp [hw] at hp
  all_goals exact h.same _ hp

theorem keeps_busReply (hw : [Part.busReply].all w = true) (x0 : BusReply)
    (h : a.Keeps w s) : a.Keeps w { s with busReply := x0 } := by
  simp only [List.all_cons, List.all_nil, Bool.and_true] at hw
  refine ⟨fun p hp => ?_, h.pending, h.variant, h.nowNs, h.freeCtr, h.regs, h.live, h.mem, h.box⟩
  cases p
  case busReply => simp [hw] at hp
  all_goals exact h.same _ hp

theorem keeps_edgeQueue (hw : [Part.edgeQueue].all w = true) (x0 : List BusWrite)
    (h : a.Keeps w s) : a.Keeps w { s with edgeQueue := x0 } := by
  simp only [List.all_cons, List.all_nil, Bool.and_true] at hw
  refine ⟨fun p hp => ?_, h.pending, h.variant, h.nowNs, h.freeCtr, h.regs, h.live, h.mem, h.box⟩
  cases p
  case edgeQueue => simp [hw] at hp
  all_goals exact h.same _ hp

theorem keeps_aonQueue (hw : [Part.aonQueue].all w = true) (x0 : List BusWrite)
    (h : a.Keeps w s) : a.Keeps w { s with aonQueue := x0 } := by
  simp only [List.all_cons, List.all_nil, Bool.and_true] at hw
  refine ⟨fun p hp => ?_, h.pending, h.variant, h.nowNs, h.freeCtr, h.regs, h.live, h.mem, h.box⟩
  cases p
  case aonQueue => simp [hw] at hp
  all_goals exact h.same _ hp

theorem keeps_islands (hw : [Part.islands].all w = true) (x0 : Store IslandState)
    (h : a.Keeps w s) : a.Keeps w { s with islands := x0 } := by
  simp only [List.all_cons, List.all_nil, Bool.and_true] at hw
  refine ⟨fun p hp => ?_, h.pending, h.variant, h.nowNs, h.freeCtr, h.regs, h.live, h.mem, h.box⟩
  cases p
  case islands => simp [hw] at hp
  all_goals exact h.same _ hp

theorem keeps_coreHeld (hw : [Part.coreHeld].all w = true) (x0 : Bool)
    (h : a.Keeps w s) : a.Keeps w { s with coreHeld := x0 } := by
  simp only [List.all_cons, List.all_nil, Bool.and_true] at hw
  refine ⟨fun p hp => ?_, h.pending, h.variant, h.nowNs, h.freeCtr, h.regs, h.live, h.mem, h.box⟩
  cases p
  case coreHeld => simp [hw] at hp
  all_goals exact h.same _ hp

theorem keeps_quiescing (hw : [Part.quiescing].all w = true) (x0 : Store Bool)
    (h : a.Keeps w s) : a.Keeps w { s with quiescing := x0 } := by
  simp only [List.all_cons, List.all_nil, Bool.and_true] at hw
  refine ⟨fun p hp => ?_, h.pending, h.variant, h.nowNs, h.freeCtr, h.regs, h.live, h.mem, h.box⟩
  cases p
  case quiescing => simp [hw] at hp
  all_goals exact h.same _ hp

theorem keeps_commits (hw : [Part.commits].all w = true) (x0 : Store CommitState)
    (h : a.Keeps w s) : a.Keeps w { s with commits := x0 } := by
  simp only [List.all_cons, List.all_nil, Bool.and_true] at hw
  refine ⟨fun p hp => ?_, h.pending, h.variant, h.nowNs, h.freeCtr, h.regs, h.live, h.mem, h.box⟩
  cases p
  case commits => simp [hw] at hp
  all_goals exact h.same _ hp

theorem keeps_saturated (hw : [Part.saturated].all w = true) (x0 : Store Bool)
    (h : a.Keeps w s) : a.Keeps w { s with saturated := x0 } := by
  simp only [List.all_cons, List.all_nil, Bool.and_true] at hw
  refine ⟨fun p hp => ?_, h.pending, h.variant, h.nowNs, h.freeCtr, h.regs, h.live, h.mem, h.box⟩
  cases p
  case saturated => simp [hw] at hp
  all_goals exact h.same _ hp

theorem keeps_monLevels (hw : [Part.monLevels].all w = true) (x0 : Store Bool)
    (h : a.Keeps w s) : a.Keeps w { s with monLevels := x0 } := by
  simp only [List.all_cons, List.all_nil, Bool.and_true] at hw
  refine ⟨fun p hp => ?_, h.pending, h.variant, h.nowNs, h.freeCtr, h.regs, h.live, h.mem, h.box⟩
  cases p
  case monLevels => simp [hw] at hp
  all_goals exact h.same _ hp

theorem keeps_traverse (hw : [Part.traverse].all w = true) (x0 : TraverseLink)
    (h : a.Keeps w s) : a.Keeps w { s with traverse := x0 } := by
  simp only [List.all_cons, List.all_nil, Bool.and_true] at hw
  refine ⟨fun p hp => ?_, h.pending, h.variant, h.nowNs, h.freeCtr, h.regs, h.live, h.mem, h.box⟩
  cases p
  case traverse => simp [hw] at hp
  all_goals exact h.same _ hp

theorem keeps_powerLinkA (hw : [Part.powerLinkA].all w = true) (x0 : PowerLink)
    (h : a.Keeps w s) : a.Keeps w { s with powerLinkA := x0 } := by
  simp only [List.all_cons, List.all_nil, Bool.and_true] at hw
  refine ⟨fun p hp => ?_, h.pending, h.variant, h.nowNs, h.freeCtr, h.regs, h.live, h.mem, h.box⟩
  cases p
  case powerLinkA => simp [hw] at hp
  all_goals exact h.same _ hp

theorem keeps_powerLinkB (hw : [Part.powerLinkB].all w = true) (x0 : PowerLink)
    (h : a.Keeps w s) : a.Keeps w { s with powerLinkB := x0 } := by
  simp only [List.all_cons, List.all_nil, Bool.and_true] at hw
  refine ⟨fun p hp => ?_, h.pending, h.variant, h.nowNs, h.freeCtr, h.regs, h.live, h.mem, h.box⟩
  cases p
  case powerLinkB => simp [hw] at hp
  all_goals exact h.same _ hp

theorem keeps_supply (hw : [Part.supply].all w = true) (x0 : Supply)
    (h : a.Keeps w s) : a.Keeps w { s with supply := x0 } := by
  simp only [List.all_cons, List.all_nil, Bool.and_true] at hw
  refine ⟨fun p hp => ?_, h.pending, h.variant, h.nowNs, h.freeCtr, h.regs, h.live, h.mem, h.box⟩
  cases p
  case supply => simp [hw] at hp
  all_goals exact h.same _ hp

theorem keeps_reports (hw : [Part.reports].all w = true) (x0 : List FaultReport)
    (h : a.Keeps w s) : a.Keeps w { s with reports := x0 } := by
  simp only [List.all_cons, List.all_nil, Bool.and_true] at hw
  refine ⟨fun p hp => ?_, h.pending, h.variant, h.nowNs, h.freeCtr, h.regs, h.live, h.mem, h.box⟩
  cases p
  case reports => simp [hw] at hp
  all_goals exact h.same _ hp

theorem keeps_bbLost (hw : [Part.bbLost].all w = true) (x0 : Nat)
    (h : a.Keeps w s) : a.Keeps w { s with bbLost := x0 } := by
  simp only [List.all_cons, List.all_nil, Bool.and_true] at hw
  refine ⟨fun p hp => ?_, h.pending, h.variant, h.nowNs, h.freeCtr, h.regs, h.live, h.mem, h.box⟩
  cases p
  case bbLost => simp [hw] at hp
  all_goals exact h.same _ hp

theorem keeps_irqs (hw : [Part.irqs].all w = true) (x0 : List Nat)
    (h : a.Keeps w s) : a.Keeps w { s with irqs := x0 } := by
  simp only [List.all_cons, List.all_nil, Bool.and_true] at hw
  refine ⟨fun p hp => ?_, h.pending, h.variant, h.nowNs, h.freeCtr, h.regs, h.live, h.mem, h.box⟩
  cases p
  case irqs => simp [hw] at hp
  all_goals exact h.same _ hp

theorem keeps_flowFrames (hw : [Part.flowFrames].all w = true) (x0 : List FlowFrame)
    (h : a.Keeps w s) : a.Keeps w { s with flowFrames := x0 } := by
  simp only [List.all_cons, List.all_nil, Bool.and_true] at hw
  refine ⟨fun p hp => ?_, h.pending, h.variant, h.nowNs, h.freeCtr, h.regs, h.live, h.mem, h.box⟩
  cases p
  case flowFrames => simp [hw] at hp
  all_goals exact h.same _ hp

theorem keeps_frames (hw : [Part.frames].all w = true) (x0 : Store (Option Frame))
    (h : a.Keeps w s) : a.Keeps w { s with frames := x0 } := by
  simp only [List.all_cons, List.all_nil, Bool.and_true] at hw
  refine ⟨fun p hp => ?_, h.pending, h.variant, h.nowNs, h.freeCtr, h.regs, h.live, h.mem, h.box⟩
  cases p
  case frames => simp [hw] at hp
  all_goals exact h.same _ hp

theorem keeps_nextFrame (hw : [Part.nextFrame].all w = true) (x0 : Nat)
    (h : a.Keeps w s) : a.Keeps w { s with nextFrame := x0 } := by
  simp only [List.all_cons, List.all_nil, Bool.and_true] at hw
  refine ⟨fun p hp => ?_, h.pending, h.variant, h.nowNs, h.freeCtr, h.regs, h.live, h.mem, h.box⟩
  cases p
  case nextFrame => simp [hw] at hp
  all_goals exact h.same _ hp

theorem keeps_ports (hw : [Part.ports].all w = true) (x0 : Store PortState)
    (h : a.Keeps w s) : a.Keeps w { s with ports := x0 } := by
  simp only [List.all_cons, List.all_nil, Bool.and_true] at hw
  refine ⟨fun p hp => ?_, h.pending, h.variant, h.nowNs, h.freeCtr, h.regs, h.live, h.mem, h.box⟩
  cases p
  case ports => simp [hw] at hp
  all_goals exact h.same _ hp

theorem keeps_fab (hw : [Part.fab].all w = true) (x0 : FabricState)
    (h : a.Keeps w s) : a.Keeps w { s with fab := x0 } := by
  simp only [List.all_cons, List.all_nil, Bool.and_true] at hw
  refine ⟨fun p hp => ?_, h.pending, h.variant, h.nowNs, h.freeCtr, h.regs, h.live, h.mem, h.box⟩
  cases p
  case fab => simp [hw] at hp
  all_goals exact h.same _ hp

theorem keeps_cls (hw : [Part.cls].all w = true) (x0 : ClassifyState)
    (h : a.Keeps w s) : a.Keeps w { s with cls := x0 } := by
  simp only [List.all_cons, List.all_nil, Bool.and_true] at hw
  refine ⟨fun p hp => ?_, h.pending, h.variant, h.nowNs, h.freeCtr, h.regs, h.live, h.mem, h.box⟩
  cases p
  case cls => simp [hw] at hp
  all_goals exact h.same _ hp

theorem keeps_rtk (hw : [Part.rtk].all w = true) (x0 : RitikState)
    (h : a.Keeps w s) : a.Keeps w { s with rtk := x0 } := by
  simp only [List.all_cons, List.all_nil, Bool.and_true] at hw
  refine ⟨fun p hp => ?_, h.pending, h.variant, h.nowNs, h.freeCtr, h.regs, h.live, h.mem, h.box⟩
  cases p
  case rtk => simp [hw] at hp
  all_goals exact h.same _ hp

theorem keeps_eccBad (hw : [Part.eccBad].all w = true) (x0 : List MemCell)
    (h : a.Keeps w s) : a.Keeps w { s with eccBad := x0 } := by
  simp only [List.all_cons, List.all_nil, Bool.and_true] at hw
  refine ⟨fun p hp => ?_, h.pending, h.variant, h.nowNs, h.freeCtr, h.regs, h.live, h.mem, h.box⟩
  cases p
  case eccBad => simp [hw] at hp
  all_goals exact h.same _ hp

theorem keeps_debugScope (hw : [Part.debugScope].all w = true) (x0 : Nat)
    (h : a.Keeps w s) : a.Keeps w { s with debugScope := x0 } := by
  simp only [List.all_cons, List.all_nil, Bool.and_true] at hw
  refine ⟨fun p hp => ?_, h.pending, h.variant, h.nowNs, h.freeCtr, h.regs, h.live, h.mem, h.box⟩
  cases p
  case debugScope => simp [hw] at hp
  all_goals exact h.same _ hp

theorem keeps_tm (hw : [Part.tm].all w = true) (x0 : TmState)
    (h : a.Keeps w s) : a.Keeps w { s with tm := x0 } := by
  simp only [List.all_cons, List.all_nil, Bool.and_true] at hw
  refine ⟨fun p hp => ?_, h.pending, h.variant, h.nowNs, h.freeCtr, h.regs, h.live, h.mem, h.box⟩
  cases p
  case tm => simp [hw] at hp
  all_goals exact h.same _ hp

theorem keeps_cip (hw : [Part.cip].all w = true) (x0 : CipherState)
    (h : a.Keeps w s) : a.Keeps w { s with cip := x0 } := by
  simp only [List.all_cons, List.all_nil, Bool.and_true] at hw
  refine ⟨fun p hp => ?_, h.pending, h.variant, h.nowNs, h.freeCtr, h.regs, h.live, h.mem, h.box⟩
  cases p
  case cip => simp [hw] at hp
  all_goals exact h.same _ hp

theorem keeps_vlt (hw : [Part.vlt].all w = true) (x0 : VaultState)
    (h : a.Keeps w s) : a.Keeps w { s with vlt := x0 } := by
  simp only [List.all_cons, List.all_nil, Bool.and_true] at hw
  refine ⟨fun p hp => ?_, h.pending, h.variant, h.nowNs, h.freeCtr, h.regs, h.live, h.mem, h.box⟩
  cases p
  case vlt => simp [hw] at hp
  all_goals exact h.same _ hp

theorem keeps_power (hw : [Part.power].all w = true) (x0 : PowerState)
    (h : a.Keeps w s) : a.Keeps w { s with power := x0 } := by
  simp only [List.all_cons, List.all_nil, Bool.and_true] at hw
  refine ⟨fun p hp => ?_, h.pending, h.variant, h.nowNs, h.freeCtr, h.regs, h.live, h.mem, h.box⟩
  cases p
  case power => simp [hw] at hp
  all_goals exact h.same _ hp

theorem keeps_wak (hw : [Part.wak].all w = true) (x0 : WakeState)
    (h : a.Keeps w s) : a.Keeps w { s with wak := x0 } := by
  simp only [List.all_cons, List.all_nil, Bool.and_true] at hw
  refine ⟨fun p hp => ?_, h.pending, h.variant, h.nowNs, h.freeCtr, h.regs, h.live, h.mem, h.box⟩
  cases p
  case wak => simp [hw] at hp
  all_goals exact h.same _ hp

theorem keeps_boot (hw : [Part.boot].all w = true) (x0 : BootState)
    (h : a.Keeps w s) : a.Keeps w { s with boot := x0 } := by
  simp only [List.all_cons, List.all_nil, Bool.and_true] at hw
  refine ⟨fun p hp => ?_, h.pending, h.variant, h.nowNs, h.freeCtr, h.regs, h.live, h.mem, h.box⟩
  cases p
  case boot => simp [hw] at hp
  all_goals exact h.same _ hp

theorem keeps_box (hw : [Part.box].all w = true) (x0 : BoxState)
    (h : a.Keeps w s) : a.Keeps w { s with box := x0 } := by
  simp only [List.all_cons, List.all_nil, Bool.and_true] at hw
  refine ⟨fun p hp => ?_, h.pending, h.variant, h.nowNs, h.freeCtr, h.regs, h.live, h.mem, h.box⟩
  cases p
  case box => simp [hw] at hp
  all_goals exact h.same _ hp

theorem keeps_gwy (hw : [Part.gwy].all w = true) (x0 : GwyState)
    (h : a.Keeps w s) : a.Keeps w { s with gwy := x0 } := by
  simp only [List.all_cons, List.all_nil, Bool.and_true] at hw
  refine ⟨fun p hp => ?_, h.pending, h.variant, h.nowNs, h.freeCtr, h.regs, h.live, h.mem, h.box⟩
  cases p
  case gwy => simp [hw] at hp
  all_goals exact h.same _ hp

theorem keeps_hbr (hw : [Part.hbr].all w = true) (x0 : HbrState)
    (h : a.Keeps w s) : a.Keeps w { s with hbr := x0 } := by
  simp only [List.all_cons, List.all_nil, Bool.and_true] at hw
  refine ⟨fun p hp => ?_, h.pending, h.variant, h.nowNs, h.freeCtr, h.regs, h.live, h.mem, h.box⟩
  cases p
  case hbr => simp [hw] at hp
  all_goals exact h.same _ hp

theorem keeps_cpx (hw : [Part.cpx].all w = true) (x0 : CpxState)
    (h : a.Keeps w s) : a.Keeps w { s with cpx := x0 } := by
  simp only [List.all_cons, List.all_nil, Bool.and_true] at hw
  refine ⟨fun p hp => ?_, h.pending, h.variant, h.nowNs, h.freeCtr, h.regs, h.live, h.mem, h.box⟩
  cases p
  case cpx => simp [hw] at hp
  all_goals exact h.same _ hp

theorem keeps_flt (hw : [Part.flt].all w = true) (x0 : FltState)
    (h : a.Keeps w s) : a.Keeps w { s with flt := x0 } := by
  simp only [List.all_cons, List.all_nil, Bool.and_true] at hw
  refine ⟨fun p hp => ?_, h.pending, h.variant, h.nowNs, h.freeCtr, h.regs, h.live, h.mem, h.box⟩
  cases p
  case flt => simp [hw] at hp
  all_goals exact h.same _ hp

theorem keeps_rtk_eccBad (hw : [Part.rtk, Part.eccBad].all w = true) (x0 : RitikState) (x1 : List MemCell)
    (h : a.Keeps w s) : a.Keeps w { s with rtk := x0, eccBad := x1 } := by
  simp only [List.all_cons, List.all_nil, Bool.and_true, Bool.and_eq_true] at hw
  refine ⟨fun p hp => ?_, h.pending, h.variant, h.nowNs, h.freeCtr, h.regs, h.live, h.mem, h.box⟩
  cases p
  case rtk => simp [hw] at hp
  case eccBad => simp [hw] at hp
  all_goals exact h.same _ hp

theorem keeps_edgeQueue_traverse (hw : [Part.edgeQueue, Part.traverse].all w = true) (x0 : List BusWrite) (x1 : TraverseLink)
    (h : a.Keeps w s) : a.Keeps w { s with edgeQueue := x0, traverse := x1 } := by
  simp only [List.all_cons, List.all_nil, Bool.and_true, Bool.and_eq_true] at hw
  refine ⟨fun p hp => ?_, h.pending, h.variant, h.nowNs, h.freeCtr, h.regs, h.live, h.mem, h.box⟩
  cases p
  case edgeQueue => simp [hw] at hp
  case traverse => simp [hw] at hp
  all_goals exact h.same _ hp

theorem keeps_tim_traverse (hw : [Part.tim, Part.traverse].all w = true) (x0 : TimeState) (x1 : TraverseLink)
    (h : a.Keeps w s) : a.Keeps w { s with tim := x0, traverse := x1 } := by
  simp only [List.all_cons, List.all_nil, Bool.and_true, Bool.and_eq_true] at hw
  refine ⟨fun p hp => ?_, h.pending, h.variant, h.nowNs, h.freeCtr, h.regs, h.live, h.mem, h.box⟩
  cases p
  case tim => simp [hw] at hp
  case traverse => simp [hw] at hp
  all_goals exact h.same _ hp

theorem keeps_coreHeld_reports (hw : [Part.coreHeld, Part.reports].all w = true) (x0 : Bool) (x1 : List FaultReport)
    (h : a.Keeps w s) : a.Keeps w { s with coreHeld := x0, reports := x1 } := by
  simp only [List.all_cons, List.all_nil, Bool.and_true, Bool.and_eq_true] at hw
  refine ⟨fun p hp => ?_, h.pending, h.variant, h.nowNs, h.freeCtr, h.regs, h.live, h.mem, h.box⟩
  cases p
  case coreHeld => simp [hw] at hp
  case reports => simp [hw] at hp
  all_goals exact h.same _ hp

theorem keeps_frames_cls (hw : [Part.frames, Part.cls].all w = true) (x0 : Store (Option Frame)) (x1 : ClassifyState)
    (h : a.Keeps w s) : a.Keeps w { s with frames := x0, cls := x1 } := by
  simp only [List.all_cons, List.all_nil, Bool.and_true, Bool.and_eq_true] at hw
  refine ⟨fun p hp => ?_, h.pending, h.variant, h.nowNs, h.freeCtr, h.regs, h.live, h.mem, h.box⟩
  cases p
  case frames => simp [hw] at hp
  case cls => simp [hw] at hp
  all_goals exact h.same _ hp

theorem keeps_cls_rtk (hw : [Part.cls, Part.rtk].all w = true) (x0 : ClassifyState) (x1 : RitikState)
    (h : a.Keeps w s) : a.Keeps w { s with cls := x0, rtk := x1 } := by
  simp only [List.all_cons, List.all_nil, Bool.and_true, Bool.and_eq_true] at hw
  refine ⟨fun p hp => ?_, h.pending, h.variant, h.nowNs, h.freeCtr, h.regs, h.live, h.mem, h.box⟩
  cases p
  case cls => simp [hw] at hp
  case rtk => simp [hw] at hp
  all_goals exact h.same _ hp

theorem keeps_fab_wak (hw : [Part.fab, Part.wak].all w = true) (x0 : FabricState) (x1 : WakeState)
    (h : a.Keeps w s) : a.Keeps w { s with fab := x0, wak := x1 } := by
  simp only [List.all_cons, List.all_nil, Bool.and_true, Bool.and_eq_true] at hw
  refine ⟨fun p hp => ?_, h.pending, h.variant, h.nowNs, h.freeCtr, h.regs, h.live, h.mem, h.box⟩
  cases p
  case fab => simp [hw] at hp
  case wak => simp [hw] at hp
  all_goals exact h.same _ hp

theorem keeps_supply_boot (hw : [Part.supply, Part.boot].all w = true) (x0 : Supply) (x1 : BootState)
    (h : a.Keeps w s) : a.Keeps w { s with supply := x0, boot := x1 } := by
  simp only [List.all_cons, List.all_nil, Bool.and_true, Bool.and_eq_true] at hw
  refine ⟨fun p hp => ?_, h.pending, h.variant, h.nowNs, h.freeCtr, h.regs, h.live, h.mem, h.box⟩
  cases p
  case supply => simp [hw] at hp
  case boot => simp [hw] at hp
  all_goals exact h.same _ hp

theorem keeps_supply_reports (hw : [Part.supply, Part.reports].all w = true) (x0 : Supply) (x1 : List FaultReport)
    (h : a.Keeps w s) : a.Keeps w { s with supply := x0, reports := x1 } := by
  simp only [List.all_cons, List.all_nil, Bool.and_true, Bool.and_eq_true] at hw
  refine ⟨fun p hp => ?_, h.pending, h.variant, h.nowNs, h.freeCtr, h.regs, h.live, h.mem, h.box⟩
  cases p
  case supply => simp [hw] at hp
  case reports => simp [hw] at hp
  all_goals exact h.same _ hp

theorem keeps_boot_gwy (hw : [Part.boot, Part.gwy].all w = true) (x0 : BootState) (x1 : GwyState)
    (h : a.Keeps w s) : a.Keeps w { s with boot := x0, gwy := x1 } := by
  simp only [List.all_cons, List.all_nil, Bool.and_true, Bool.and_eq_true] at hw
  refine ⟨fun p hp => ?_, h.pending, h.variant, h.nowNs, h.freeCtr, h.regs, h.live, h.mem, h.box⟩
  cases p
  case boot => simp [hw] at hp
  case gwy => simp [hw] at hp
  all_goals exact h.same _ hp

theorem keeps_edgeQueue_aonQueue (hw : [Part.edgeQueue, Part.aonQueue].all w = true) (x0 : List BusWrite) (x1 : List BusWrite)
    (h : a.Keeps w s) : a.Keeps w { s with edgeQueue := x0, aonQueue := x1 } := by
  simp only [List.all_cons, List.all_nil, Bool.and_true, Bool.and_eq_true] at hw
  refine ⟨fun p hp => ?_, h.pending, h.variant, h.nowNs, h.freeCtr, h.regs, h.live, h.mem, h.box⟩
  cases p
  case edgeQueue => simp [hw] at hp
  case aonQueue => simp [hw] at hp
  all_goals exact h.same _ hp

theorem keeps_traverse_frames (hw : [Part.traverse, Part.frames].all w = true) (x0 : TraverseLink) (x1 : Store (Option Frame))
    (h : a.Keeps w s) : a.Keeps w { s with traverse := x0, frames := x1 } := by
  simp only [List.all_cons, List.all_nil, Bool.and_true, Bool.and_eq_true] at hw
  refine ⟨fun p hp => ?_, h.pending, h.variant, h.nowNs, h.freeCtr, h.regs, h.live, h.mem, h.box⟩
  cases p
  case traverse => simp [hw] at hp
  case frames => simp [hw] at hp
  all_goals exact h.same _ hp

/-! ## The stores and the black-box queue -/

theorem keeps_regs (hw : [Part.regs].all w = true) (m : Store Word) (h : a.Keeps w s)
    (hm : Store.wf resetWord s.regs = true → Store.wf resetWord m = true) : a.Keeps w { s with regs := m } := by
  simp only [List.all_cons, List.all_nil, Bool.and_true] at hw
  refine ⟨fun p hp => ?_, h.pending, h.variant, h.nowNs, h.freeCtr, fun x => hm (h.regs x), h.live,
    h.mem, h.box⟩
  cases p
  case regs => simp [hw] at hp
  all_goals exact h.same _ hp

theorem keeps_live (hw : [Part.live].all w = true) (m : Store Word) (h : a.Keeps w s)
    (hm : Store.wf liveDefault s.live = true → Store.wf liveDefault m = true) :
    a.Keeps w { s with live := m } := by
  simp only [List.all_cons, List.all_nil, Bool.and_true] at hw
  refine ⟨fun p hp => ?_, h.pending, h.variant, h.nowNs, h.freeCtr, h.regs, fun x => hm (h.live x),
    h.mem, h.box⟩
  cases p
  case live => simp [hw] at hp
  all_goals exact h.same _ hp

theorem keeps_mem (hw : [Part.mem].all w = true) (m : List Host.Cell) (h : a.Keeps w s)
    (hm : Memory.wf s.mem = true → Memory.wf m = true) : a.Keeps w { s with mem := m } := by
  simp only [List.all_cons, List.all_nil, Bool.and_true] at hw
  refine ⟨fun p hp => ?_, h.pending, h.variant, h.nowNs, h.freeCtr, h.regs, h.live,
    fun x => hm (h.mem x), h.box⟩
  cases p
  case mem => simp [hw] at hp
  all_goals exact h.same _ hp

theorem keeps_bbQueue (hw : [Part.bbQueue].all w = true) (q : List BoxRecord) (h : a.Keeps w s)
    (hq : a.bbQueue.length ≤ 64 → q.length ≤ 64) : a.Keeps w { s with bbQueue := q } := by
  simp only [List.all_cons, List.all_nil, Bool.and_true] at hw
  refine ⟨fun p hp => ?_, h.pending, h.variant, h.nowNs, h.freeCtr, h.regs, h.live, h.mem, hq⟩
  cases p
  case bbQueue => simp [hw] at hp
  all_goals exact h.same _ hp

end Sys2Proof.Machine
end

