-- ==== Sys2Proof/Laws/KeepsOps.lean ====
section
/-!
SUPPORT. What the operations of Machine/Ops.lean can change, and what they keep.
-/

namespace Sys2Proof.Machine

open Sys2Proof

theorem State.wr_keeps {w0 : Part → Bool} {a s : State} (hw : [Part.regs].all w0 = true)
    (h : a.Keeps w0 s) (k : Nat) (w : Word) :
    a.Keeps w0 (State.wr s k w) :=
  keeps_regs hw _ h (fun x => Store.wf_set _ _ x)

theorem State.setFld_keeps {w : Part → Bool} {a s : State} (hw : [Part.regs].all w = true)
    (h : a.Keeps w s) (k : Nat) (lo : Nat) (width : Nat) (v : Nat) :
    a.Keeps w (State.setFld s k lo width v) := by
  unfold State.setFld
  repeat' first
    | with_reducible assumption
    | exact all_of hw rfl
    | intro _
    | with_reducible apply State.wr_keeps

theorem State.setBit_keeps {w : Part → Bool} {a s : State} (hw : [Part.regs].all w = true)
    (h : a.Keeps w s) (k : Nat) (b : Nat) (v : Bool) :
    a.Keeps w (State.setBit s k b v) := by
  unfold State.setBit
  repeat' first
    | with_reducible assumption
    | exact all_of hw rfl
    | intro _
    | with_reducible apply State.setFld_keeps

theorem State.wrN_keeps {w : Part → Bool} {a s : State} (hw : [Part.regs].all w = true)
    (h : a.Keeps w s) (k : Nat) (v : Nat) :
    a.Keeps w (State.wrN s k v) := by
  unfold State.wrN
  repeat' first
    | with_reducible assumption
    | exact all_of hw rfl
    | intro _
    | with_reducible apply State.wr_keeps

theorem State.wrWords_keeps {w : Part → Bool} {a s : State} (hw : [Part.regs].all w = true) (h : a.Keeps w s) (k : Nat)
    (ws : List Word) : a.Keeps w (s.wrWords k ws) := by
  induction ws generalizing s k with
  | nil => exact h
  | cons v ws ih => exact ih (State.wr_keeps hw h k v) (k + 4)

theorem State.wrLive_keeps {w0 : Part → Bool} {a s : State} (hw : [Part.live].all w0 = true)
    (h : a.Keeps w0 s) (bank : Nat) (k : Nat) (w : Word) :
    a.Keeps w0 (State.wrLive s bank k w) :=
  keeps_live hw _ h (fun x => Store.wf_set _ _ x)

theorem State.shadowToLive_keeps {w : Part → Bool} {a s : State} (hw : [Part.live].all w = true)
    (h : a.Keeps w s) (bank : Nat) (lo : Nat) (hi : Nat) :
    a.Keeps w (State.shadowToLive s bank lo hi) :=
  keeps_live hw _ h (fun x => Store.wf_setAll _ (Store.wf_clear _ _ x))

theorem State.liveToLive_keeps {w : Part → Bool} {a s : State} (hw : [Part.live].all w = true)
    (h : a.Keeps w s) (src : Nat) (dst : Nat) (lo : Nat) (hi : Nat) :
    a.Keeps w (State.liveToLive s src dst lo hi) :=
  keeps_live hw _ h (fun x => Store.wf_setAll _ (Store.wf_clear _ _ x))

theorem State.liveToShadow_keeps {w : Part → Bool} {a s : State} (hw : [Part.regs].all w = true)
    (h : a.Keeps w s) (bank : Nat) (lo : Nat) (hi : Nat) :
    a.Keeps w (State.liveToShadow s bank lo hi) :=
  keeps_regs hw _ h (fun x => Store.wf_setAll _ (Store.wf_clear _ _ x))

theorem State.wrByte_keeps {w : Part → Bool} {a0 s : State} (hw : [Part.mem].all w = true)
    (h : a0.Keeps w s) (a : Nat) (b : Byte) :
    a0.Keeps w (State.wrByte s a b) :=
  keeps_mem hw _ h (fun x => Store.wf_set _ _ x)

theorem State.wrBytes_keeps {w : Part → Bool} {a s : State} (hw : [Part.mem].all w = true) (h : a.Keeps w s) (k : Nat)
    (bs : List Byte) : a.Keeps w (s.wrBytes k bs) := by
  induction bs generalizing s k with
  | nil => exact h
  | cons b bs ih => exact ih (State.wrByte_keeps hw h k b) (k + 1)

theorem State.erase_keeps {w : Part → Bool} {a0 s : State} (hw : [Part.mem].all w = true)
    (h : a0.Keeps w s) (a : Nat) (n : Nat) :
    a0.Keeps w (State.erase s a n) :=
  keeps_mem hw _ h (fun x => Store.wf_clear _ _ x)

theorem State.takeFree_keeps {w : Part → Bool} {a s : State} (h : a.Keeps w s) :
    a.Keeps w (State.takeFree s).2 := by
  unfold State.takeFree
  repeat' first
    | with_reducible assumption
    | intro _
    | with_reducible apply keeps_ite
    | dsimp only
    | split
    | with_reducible exact Nat.le_add_right _ _
    | with_reducible refine keeps_free _ ?_ ?_

theorem State.bumpBy_keeps {w : Part → Bool} {a s : State}
    (hw : [Part.regs, .saturated].all w = true) (h : a.Keeps w s) (k : Nat) (n : Nat) :
    a.Keeps w (State.bumpBy s k n) := by
  unfold State.bumpBy
  repeat' first
    | with_reducible assumption
    | exact all_of hw rfl
    | intro _
    | with_reducible apply State.setFld_keeps
    | with_reducible apply State.wrN_keeps
    | with_reducible apply State.setBit_keeps
    | with_reducible apply keeps_ite
    | dsimp only
    | split
    | with_reducible apply keeps_saturated

theorem State.bump_keeps {w : Part → Bool} {a s : State}
    (hw : [Part.regs, .saturated].all w = true) (h : a.Keeps w s) (k : Nat) :
    a.Keeps w (State.bump s k) := by
  unfold State.bump
  repeat' first
    | with_reducible assumption
    | exact all_of hw rfl
    | intro _
    | with_reducible apply State.bumpBy_keeps

theorem State.irq_keeps {w : Part → Bool} {a s : State} (hw : [Part.irqs].all w = true)
    (h : a.Keeps w s) (n : Nat) :
    a.Keeps w (State.irq s n) := by
  unfold State.irq
  repeat' first
    | with_reducible assumption
    | exact all_of hw rfl
    | intro _
    | with_reducible apply keeps_ite
    | dsimp only
    | split
    | with_reducible apply keeps_irqs

theorem State.monAdd_keeps {w : Part → Bool} {a s : State}
    (hw : [Part.regs, .saturated, .irqs].all w = true) (h : a.Keeps w s) (i : Nat) (n : Nat) :
    a.Keeps w (State.monAdd s i n) := by
  unfold State.monAdd
  repeat' first
    | with_reducible assumption
    | exact all_of hw rfl
    | intro _
    | with_reducible apply State.bumpBy_keeps
    | with_reducible apply State.wrN_keeps
    | with_reducible apply State.irq_keeps
    | with_reducible apply State.setBit_keeps
    | with_reducible apply keeps_ite

theorem State.monEvents_keeps {w : Part → Bool} {a s : State}
    (hw : [Part.regs, .saturated, .irqs].all w = true) (h : a.Keeps w s) (ev : Nat) (n : Nat) :
    a.Keeps w (State.monEvents s ev n) := by
  unfold State.monEvents
  repeat' first
    | with_reducible assumption
    | exact all_of hw rfl
    | intro _
    | with_reducible apply State.monAdd_keeps
    | with_reducible apply keeps_ite
    | with_reducible apply keeps_foldl

theorem State.monEvent_keeps {w : Part → Bool} {a s : State}
    (hw : [Part.regs, .saturated, .irqs].all w = true) (h : a.Keeps w s) (ev : Nat) :
    a.Keeps w (State.monEvent s ev) := by
  unfold State.monEvent
  repeat' first
    | with_reducible assumption
    | exact all_of hw rfl
    | intro _
    | with_reducible apply State.monEvents_keeps

theorem State.deny_keeps {w : Part → Bool} {a s : State} (hw : [Part.regs].all w = true)
    (h : a.Keeps w s) (key : Nat) (pmid : Nat) :
    a.Keeps w (State.deny s key pmid) := by
  unfold State.deny
  repeat' first
    | with_reducible assumption
    | exact all_of hw rfl
    | intro _
    | with_reducible apply State.setFld_keeps
    | with_reducible apply State.setBit_keeps
    | with_reducible apply keeps_ite

theorem State.setIsland_keeps {w : Part → Bool} {a s : State} (hw : [Part.islands].all w = true)
    (h : a.Keeps w s) (i : Island) (v : IslandState) :
    a.Keeps w (State.setIsland s i v) := by
  unfold State.setIsland
  repeat' first
    | with_reducible assumption
    | exact all_of hw rfl
    | intro _
    | with_reducible apply keeps_ite
    | dsimp only
    | split
    | with_reducible apply keeps_islands

theorem State.setDom_keeps {w : Part → Bool} {a s : State} (hw : [Part.tim].all w = true)
    (h : a.Keeps w s) (d : Nat) (v : Domain) :
    a.Keeps w (State.setDom s d v) := by
  unfold State.setDom
  repeat' first
    | with_reducible assumption
    | exact all_of hw rfl
    | intro _
    | with_reducible apply keeps_ite
    | dsimp only
    | split
    | with_reducible apply keeps_tim

theorem State.wrTime_keeps {w : Part → Bool} {a s : State} (hw : [Part.regs].all w = true)
    (h : a.Keeps w s) (k : Nat) (t : Nat) :
    a.Keeps w (State.wrTime s k t) := by
  unfold State.wrTime
  repeat' first
    | with_reducible assumption
    | exact all_of hw rfl
    | intro _
    | with_reducible apply State.wr_keeps
    | with_reducible apply State.wrN_keeps

theorem State.fault_keeps {w : Part → Bool} {a s : State} (hw : [Part.reports].all w = true)
    (h : a.Keeps w s) (code : Nat) (data : Nat) :
    a.Keeps w (State.fault s code data) := by
  unfold State.fault
  repeat' first
    | with_reducible assumption
    | exact all_of hw rfl
    | intro _
    | with_reducible apply keeps_ite
    | dsimp only
    | split
    | with_reducible apply keeps_reports

theorem State.heardFrame_keeps {w : Part → Bool} {a s : State} (hw : [Part.wak].all w = true)
    (h : a.Keeps w s) :
    a.Keeps w (State.heardFrame s) := by
  unfold State.heardFrame
  repeat' first
    | with_reducible assumption
    | exact all_of hw rfl
    | intro _
    | with_reducible apply keeps_ite
    | dsimp only
    | split
    | with_reducible apply keeps_wak

theorem State.blackBox_keeps {w : Part → Bool} {a s : State}
    (hw : [Part.regs, .saturated, .reports, .bbQueue, .bbLost, .irqs].all w = true)
    (h : a.Keeps w s) (type : Nat) (code : Nat) (freeze : Bool) (pmid : Nat) (data : List Word) :
    a.Keeps w (State.blackBox s type code freeze pmid data) := by
  unfold State.blackBox
  split
  · exact keeps_bbQueue (all_of hw rfl) _ h
      (fun _ => by simp only [List.length_append, List.length_singleton]; omega)
  · exact State.fault_keeps (all_of hw rfl) (State.monEvent_keeps (all_of hw rfl)
      (State.bump_keeps (all_of hw rfl) (keeps_bbLost (all_of hw rfl) _ h) _) _) _ _

theorem State.busError_keeps {w : Part → Bool} {a s : State}
    (hw : [Part.regs, .busReply, .saturated, .reports, .irqs].all w = true) (h : a.Keeps w s)
    (m : Master) (addr : Nat) (write : Bool) (cause : Nat) :
    a.Keeps w (State.busError s m addr write cause) := by
  unfold State.busError
  repeat' first
    | with_reducible assumption
    | exact all_of hw rfl
    | intro _
    | with_reducible apply State.fault_keeps
    | with_reducible apply State.monEvent_keeps
    | with_reducible apply State.setBit_keeps
    | with_reducible apply State.setFld_keeps
    | with_reducible apply State.wrN_keeps
    | with_reducible apply State.irq_keeps
    | with_reducible apply keeps_ite
    | dsimp only
    | split
    | with_reducible apply keeps_busReply

theorem State.setGstat_keeps {w : Part → Bool} {a s : State}
    (hw : [Part.regs, .reports].all w = true) (h : a.Keeps w s) (flag : Nat) (v : Bool) :
    a.Keeps w (State.setGstat s flag v) := by
  unfold State.setGstat
  repeat' first
    | with_reducible assumption
    | exact all_of hw rfl
    | intro _
    | with_reducible apply State.setBit_keeps
    | with_reducible apply State.fault_keeps
    | with_reducible apply keeps_ite

end Sys2Proof.Machine
end

