-- ==== Sys2Proof/Laws/KeepsBus.lean ====
section
/-!
SUPPORT. What the operations of Machine/Bus.lean can change, and what they keep.
-/

namespace Sys2Proof.Machine

open Sys2Proof

theorem State.badRead_keeps {w : Part → Bool} {a s : State}
    (hw : [Part.regs, .saturated, .reports, .irqs].all w = true) (h : a.Keeps w s) (x : Nat) :
    a.Keeps w (State.badRead s x) := by
  unfold State.badRead
  repeat' first
    | with_reducible assumption
    | exact all_of hw rfl
    | intro _
    | with_reducible apply State.fault_keeps
    | with_reducible apply State.monEvent_keeps
    | with_reducible apply State.bump_keeps
    | with_reducible apply State.setBit_keeps
    | with_reducible apply keeps_ite

theorem State.wrMem_keeps {w : Part → Bool} {a0 s : State} (hw : [Part.mem, .eccBad].all w = true)
    (h : a0.Keeps w s) (a : Nat) (bs : List Byte) :
    a0.Keeps w (State.wrMem s a bs) := by
  unfold State.wrMem
  repeat' first
    | with_reducible assumption
    | exact all_of hw rfl
    | intro _
    | with_reducible apply State.wrBytes_keeps
    | with_reducible apply keeps_ite
    | dsimp only
    | split
    | with_reducible apply keeps_eccBad

theorem State.setCommit_keeps {w : Part → Bool} {a s : State} (hw : [Part.commits].all w = true)
    (h : a.Keeps w s) (b : Nat) (c : CommitState) :
    a.Keeps w (State.setCommit s b c) := by
  unfold State.setCommit
  repeat' first
    | with_reducible assumption
    | exact all_of hw rfl
    | intro _
    | with_reducible apply keeps_ite
    | dsimp only
    | split
    | with_reducible apply keeps_commits

theorem State.regWrite_keeps {w : Part → Bool} {a s : State}
    (hw : [Part.regs, .eccBad].all w = true) (h : a.Keeps w s) (m : Master) (key : Nat) (v : Word)
    :
    a.Keeps w (State.regWrite s m key v) := by
  unfold State.regWrite
  repeat' first
    | with_reducible assumption
    | exact all_of hw rfl
    | intro _
    | with_reducible apply State.deny_keeps
    | with_reducible apply State.wr_keeps
    | with_reducible apply keeps_ite
    | dsimp only
    | split
    | with_reducible apply keeps_eccBad

theorem State.reply_keeps {w : Part → Bool} {a s : State} (hw : [Part.busReply].all w = true)
    (h : a.Keeps w s) (d : BitVec 64) :
    a.Keeps w (State.reply s d) := by
  unfold State.reply
  repeat' first
    | with_reducible assumption
    | exact all_of hw rfl
    | intro _
    | with_reducible apply keeps_ite
    | dsimp only
    | split
    | with_reducible apply keeps_busReply

theorem guardReg_keeps {w : Part → Bool} {a s : State}
    (hw : [Part.regs, .busReply, .saturated, .reports, .irqs].all w = true) (h : a.Keeps w s)
    (m : Master) (key : Nat) (eff : State → State)
    (heff : ∀ (x0 : State), a.Keeps w x0 → a.Keeps w (eff x0)) :
    a.Keeps w (guardReg m key eff s) := by
  unfold guardReg
  repeat' first
    | with_reducible assumption
    | exact all_of hw rfl
    | intro _
    | with_reducible apply heff
    | with_reducible apply State.busError_keeps
    | with_reducible apply State.reply_keeps
    | with_reducible apply keeps_ite
    | dsimp only
    | split

theorem guardEdge_keeps {w : Part → Bool} {a s : State}
    (hw : [Part.regs, .busReply, .edgeQueue, .saturated, .reports, .irqs].all w = true)
    (h : a.Keeps w s) (m : Master) (key : Nat) (bit : Option Nat) (data : Word)
    (eff : State → State) (heff : ∀ (x0 : State), a.Keeps w x0 → a.Keeps w (eff x0)) :
    a.Keeps w (guardEdge m key bit data eff s) := by
  unfold guardEdge
  repeat' first
    | with_reducible assumption
    | exact all_of hw rfl
    | intro _
    | with_reducible apply heff
    | with_reducible apply State.busError_keeps
    | with_reducible apply State.reply_keeps
    | with_reducible apply guardReg_keeps
    | with_reducible apply keeps_ite
    | dsimp only
    | split
    | with_reducible apply keeps_edgeQueue

end Sys2Proof.Machine
end

