-- ==== Sys2Proof/Laws/KeepsFrames.lean ====
section
/-!
SUPPORT. What the operations of Machine/Frames.lean can change, and what they keep.
-/

namespace Sys2Proof.Machine

open Sys2Proof

theorem State.setFrame_keeps {w : Part → Bool} {a s : State} (hw : [Part.frames].all w = true)
    (h : a.Keeps w s) (f : Nat) (v : Frame) :
    a.Keeps w (State.setFrame s f v) := by
  unfold State.setFrame
  repeat' first
    | with_reducible assumption
    | exact all_of hw rfl
    | intro _
    | with_reducible apply keeps_ite
    | dsimp only
    | split
    | with_reducible apply keeps_frames

theorem State.delFrame_keeps {w : Part → Bool} {a s : State} (hw : [Part.frames].all w = true)
    (h : a.Keeps w s) (f : Nat) :
    a.Keeps w (State.delFrame s f) := by
  unfold State.delFrame
  repeat' first
    | with_reducible assumption
    | exact all_of hw rfl
    | intro _
    | with_reducible apply keeps_ite
    | dsimp only
    | split
    | with_reducible apply keeps_frames

theorem State.setGenState_keeps {w : Part → Bool} {a s : State} (hw : [Part.regs].all w = true)
    (h : a.Keeps w s) (g : Nat) (v : Nat) :
    a.Keeps w (State.setGenState s g v) := by
  unfold State.setGenState
  repeat' first
    | with_reducible assumption
    | exact all_of hw rfl
    | intro _
    | with_reducible apply State.setFld_keeps

theorem State.depart_keeps {w : Part → Bool} {a s : State} (hw : [Part.regs].all w = true)
    (h : a.Keeps w s) (v : Frame) :
    a.Keeps w (State.depart s v) := by
  unfold State.depart
  repeat' first
    | with_reducible assumption
    | exact all_of hw rfl
    | intro _
    | with_reducible apply State.setFld_keeps
    | with_reducible apply State.setGenState_keeps
    | with_reducible apply keeps_ite

theorem State.dropFrame_keeps {w : Part → Bool} {a s : State}
    (hw : [Part.regs, .frames].all w = true) (h : a.Keeps w s) (f : Nat) :
    a.Keeps w (State.dropFrame s f) := by
  unfold State.dropFrame
  repeat' first
    | with_reducible assumption
    | exact all_of hw rfl
    | intro _
    | with_reducible apply State.depart_keeps
    | with_reducible apply State.delFrame_keeps
    | with_reducible apply State.setFrame_keeps
    | with_reducible apply keeps_ite
    | dsimp only
    | split

theorem State.toException_keeps {w : Part → Bool} {a s : State} (hw : [Part.frames].all w = true)
    (h : a.Keeps w s) (f : Nat) (code : Nat) (port : Nat) (tc : Nat) (hash : Word) :
    a.Keeps w (State.toException s f code port tc hash) := by
  unfold State.toException
  repeat' first
    | with_reducible assumption
    | exact all_of hw rfl
    | intro _
    | with_reducible apply State.setFrame_keeps
    | with_reducible apply keeps_ite
    | dsimp only
    | split

theorem State.engineException_keeps {w : Part → Bool} {a s : State}
    (hw : [Part.frames].all w = true) (h : a.Keeps w s) (f : Nat) (code : Nat) (hash : Word) :
    a.Keeps w (State.engineException s f code hash) := by
  unfold State.engineException
  repeat' first
    | with_reducible assumption
    | exact all_of hw rfl
    | intro _
    | with_reducible apply State.toException_keeps

theorem State.injectFrame_keeps {w : Part → Bool} {a s : State}
    (hw : [Part.frames, .nextFrame].all w = true) (h : a.Keeps w s) (port : Nat) (bs : List Byte)
    :
    a.Keeps w (State.injectFrame s port bs) := by
  unfold State.injectFrame
  repeat' first
    | with_reducible assumption
    | exact all_of hw rfl
    | intro _
    | with_reducible apply State.setFrame_keeps
    | with_reducible apply keeps_ite
    | dsimp only
    | split
    | with_reducible apply keeps_nextFrame

end Sys2Proof.Machine
end

