-- ==== Sys2Proof/Laws/KeepsFlowTable.lean ====
section
/-!
SUPPORT. What the operations of Machine/FlowTable.lean can change, and what they keep.
-/

namespace Sys2Proof.Machine

open Sys2Proof

theorem State.setFlow_keeps {w : Part → Bool} {a s : State} (hw : [Part.cls].all w = true)
    (h : a.Keeps w s) (slot : Nat) (e : List Word) :
    a.Keeps w (State.setFlow s slot e) := by
  unfold State.setFlow
  repeat' first
    | with_reducible assumption
    | exact all_of hw rfl
    | intro _
    | with_reducible apply keeps_ite
    | dsimp only
    | split
    | with_reducible apply keeps_cls

theorem State.flowLookup_keeps {w : Part → Bool} {a s : State}
    (hw : [Part.regs, .saturated, .irqs, .cls].all w = true) (h : a.Keeps w s) (key : List Word)
    (gen : Nat) (len : Nat) (first : Bool) (tcp : Option Nat) (low : Bool) :
    a.Keeps w (State.flowLookup s key gen len first tcp low).2 := by
  unfold State.flowLookup
  repeat' first
    | with_reducible assumption
    | exact all_of hw rfl
    | intro _
    | with_reducible apply State.monEvent_keeps
    | with_reducible apply State.bump_keeps
    | with_reducible apply State.setFlow_keeps
    | with_reducible apply keeps_ite
    | dsimp only
    | split

theorem State.flowShift_keeps {w : Part → Bool} {a s : State} (hw : [Part.cls].all w = true) (h : a.Keeps w s) (e : List Word)
    (l : List Nat) : a.Keeps w (State.flowShift s e l) := by
  induction l generalizing s e with
  | nil => exact h
  | cons c rest ih =>
    unfold State.flowShift
    exact State.setFlow_keeps hw (ih h _) _ _

theorem State.flowPlace_keeps {w : Part → Bool} {a s : State}
    (hw : [Part.regs, .saturated, .irqs, .cls].all w = true) (h : a.Keeps w s) (key : List Word)
    (e : List Word) :
    a.Keeps w (State.flowPlace s key e).2 := by
  unfold State.flowPlace
  repeat' first
    | with_reducible assumption
    | exact all_of hw rfl
    | intro _
    | with_reducible apply State.monEvent_keeps
    | with_reducible apply State.bump_keeps
    | with_reducible apply State.setFlow_keeps
    | with_reducible apply State.flowShift_keeps
    | with_reducible apply keeps_ite
    | dsimp only
    | split
    | with_reducible exact Nat.le_add_right _ _
    | with_reducible refine keeps_free _ ?_ ?_

theorem State.flowInsert_keeps {w : Part → Bool} {a s : State}
    (hw : [Part.regs, .saturated, .irqs, .cls].all w = true) (h : a.Keeps w s) (key : List Word)
    (action : Nat) (tag : Nat) (gen : Nat) (ct : Nat) (initLow : Bool) (finLow : Bool)
    (pin : Bool) :
    a.Keeps w (State.flowInsert s key action tag gen ct initLow finLow pin).2 := by
  unfold State.flowInsert
  repeat' first
    | with_reducible assumption
    | exact all_of hw rfl
    | intro _
    | with_reducible apply State.bump_keeps
    | with_reducible apply State.setFlow_keeps
    | with_reducible apply State.flowPlace_keeps
    | with_reducible apply keeps_ite
    | with_reducible refine keeps_of_snd ?_ (by with_reducible assumption)
    | with_reducible refine keeps_of_fst ?_ (by with_reducible assumption)
    | dsimp only
    | split

theorem State.setFlowData_keeps {w : Part → Bool} {a s : State} (hw : [Part.regs].all w = true)
    (h : a.Keeps w s) (e : List Word) :
    a.Keeps w (State.setFlowData s e) := by
  unfold State.setFlowData
  repeat' first
    | with_reducible assumption
    | exact all_of hw rfl
    | intro _
    | with_reducible apply State.wrWords_keeps

theorem State.emptySlot_keeps {w : Part → Bool} {a s : State} (h : a.Keeps w s) :
    a.Keeps w (State.emptySlot s).2 := by
  unfold State.emptySlot
  repeat' first
    | with_reducible assumption
    | intro _
    | with_reducible apply keeps_ite
    | dsimp only
    | split
    | with_reducible exact Nat.le_add_right _ _
    | with_reducible refine keeps_free _ ?_ ?_

theorem State.flowCommand_keeps {w : Part → Bool} {a s : State}
    (hw : [Part.regs, .saturated, .irqs, .cls].all w = true) (h : a.Keeps w s) (op : Nat)
    (slot : Nat) (data : List Word) :
    a.Keeps w (State.flowCommand s op slot data).2 := by
  unfold State.flowCommand
  repeat' first
    | with_reducible assumption
    | exact all_of hw rfl
    | intro _
    | with_reducible apply State.setFlowData_keeps
    | with_reducible apply State.bump_keeps
    | with_reducible apply State.flowInsert_keeps
    | with_reducible apply State.setFlow_keeps
    | with_reducible apply State.emptySlot_keeps
    | with_reducible apply keeps_ite
    | with_reducible apply keeps_dite
    | with_reducible refine keeps_of_snd ?_ (by with_reducible assumption)
    | with_reducible refine keeps_of_fst ?_ (by with_reducible assumption)
    | dsimp only
    | split
    | with_reducible apply keeps_cls

theorem State.flowGo_keeps {w : Part → Bool} {a s : State} (hw : [Part.regs, .cls].all w = true)
    (h : a.Keeps w s) (op : Nat) (slot : Nat) :
    a.Keeps w (State.flowGo s op slot) := by
  unfold State.flowGo
  repeat' first
    | with_reducible assumption
    | exact all_of hw rfl
    | intro _
    | with_reducible apply State.setBit_keeps
    | with_reducible apply State.setFld_keeps
    | with_reducible apply keeps_ite
    | dsimp only
    | split
    | with_reducible apply keeps_cls

end Sys2Proof.Machine
end

