-- ==== Sys2Proof/Laws/KeepsPortOps.lean ====
section
/-!
SUPPORT. What the operations of Machine/PortOps.lean can change, and what they keep.
-/

namespace Sys2Proof.Machine

open Sys2Proof

theorem State.setPort_keeps {w : Part → Bool} {a s : State} (hw : [Part.ports].all w = true)
    (h : a.Keeps w s) (p : Nat) (v : PortState) :
    a.Keeps w (State.setPort s p v) := by
  unfold State.setPort
  repeat' first
    | with_reducible assumption
    | exact all_of hw rfl
    | intro _
    | with_reducible apply keeps_ite
    | dsimp only
    | split
    | with_reducible apply keeps_ports

theorem State.portLog_keeps {w : Part → Bool} {a s : State} (hw : [Part.regs, .irqs].all w = true)
    (h : a.Keeps w s) (p : Nat) (type : Nat) (tc : Nat) (len : Nat) (hash : Word) :
    a.Keeps w (State.portLog s p type tc len hash) := by
  unfold State.portLog
  repeat' first
    | with_reducible assumption
    | exact all_of hw rfl
    | intro _
    | with_reducible apply State.setFld_keeps
    | with_reducible apply State.wrN_keeps
    | with_reducible apply State.wr_keeps
    | with_reducible apply State.irq_keeps
    | with_reducible apply keeps_ite

theorem State.sendFlow_keeps {w : Part → Bool} {a s : State}
    (hw : [Part.regs, .saturated, .irqs, .flowFrames].all w = true) (h : a.Keeps w s) (p : Nat)
    (pfc : Bool) (classes : Nat) (quanta : Nat) :
    a.Keeps w (State.sendFlow s p pfc classes quanta) := by
  unfold State.sendFlow
  repeat' first
    | with_reducible assumption
    | exact all_of hw rfl
    | intro _
    | with_reducible apply State.monEvent_keeps
    | with_reducible apply State.bumpBy_keeps
    | with_reducible apply State.bump_keeps
    | with_reducible apply keeps_ite
    | dsimp only
    | split
    | with_reducible apply keeps_flowFrames

theorem State.signalXoff_keeps {w : Part → Bool} {a s : State}
    (hw : [Part.regs, .saturated, .irqs, .flowFrames].all w = true) (h : a.Keeps w s) (p : Nat)
    (c : Nat) :
    a.Keeps w (State.signalXoff s p c) := by
  unfold State.signalXoff
  repeat' first
    | with_reducible assumption
    | exact all_of hw rfl
    | intro _
    | with_reducible apply State.sendFlow_keeps
    | with_reducible apply keeps_ite
    | with_reducible apply keeps_dite
    | dsimp only
    | split

theorem State.signalXon_keeps {w : Part → Bool} {a s : State}
    (hw : [Part.regs, .saturated, .irqs, .flowFrames].all w = true) (h : a.Keeps w s) (p : Nat)
    (c : Nat) :
    a.Keeps w (State.signalXon s p c) := by
  unfold State.signalXon
  repeat' first
    | with_reducible assumption
    | exact all_of hw rfl
    | intro _
    | with_reducible apply State.sendFlow_keeps
    | with_reducible apply keeps_ite
    | dsimp only
    | split

end Sys2Proof.Machine
end

