-- ==== Sys2Proof/Laws/KeepsFabOps.lean ====
section
/-!
SUPPORT. What the operations of Machine/FabOps.lean can change, and what they keep.
-/

namespace Sys2Proof.Machine

open Sys2Proof

theorem State.setIngress_keeps {w : Part → Bool} {a s : State} (hw : [Part.fab].all w = true)
    (h : a.Keeps w s) (p : Nat) (c : Nat) (v : Ingress) :
    a.Keeps w (State.setIngress s p c v) := by
  unfold State.setIngress
  repeat' first
    | with_reducible assumption
    | exact all_of hw rfl
    | intro _
    | with_reducible apply keeps_ite
    | dsimp only
    | split
    | with_reducible apply keeps_fab

theorem State.setReserved_keeps {w : Part → Bool} {a s : State} (hw : [Part.fab].all w = true)
    (h : a.Keeps w s) (p : Nat) (c : Nat) (n : Nat) :
    a.Keeps w (State.setReserved s p c n) := by
  unfold State.setReserved
  repeat' first
    | with_reducible assumption
    | exact all_of hw rfl
    | intro _
    | with_reducible apply keeps_ite
    | dsimp only
    | split
    | with_reducible apply keeps_fab

theorem State.setDriftOf_keeps {w : Part → Bool} {a s : State} (hw : [Part.fab].all w = true)
    (h : a.Keeps w s) (p : Nat) (n : Nat) :
    a.Keeps w (State.setDriftOf s p n) := by
  unfold State.setDriftOf
  repeat' first
    | with_reducible assumption
    | exact all_of hw rfl
    | intro _
    | with_reducible apply keeps_ite
    | dsimp only
    | split
    | with_reducible apply keeps_fab

theorem State.countCell_keeps {w : Part → Bool} {a s : State} (hw : [Part.regs].all w = true)
    (h : a.Keeps w s) (ip : Nat) (c : Nat) (ports : List Nat) :
    a.Keeps w (State.countCell s ip c ports) := by
  unfold State.countCell
  repeat' first
    | with_reducible assumption
    | exact all_of hw rfl
    | intro _
    | with_reducible apply State.setFld_keeps
    | with_reducible apply keeps_ite
    | with_reducible apply keeps_foldl

theorem State.uncountCell_keeps {w : Part → Bool} {a s : State} (hw : [Part.regs].all w = true)
    (h : a.Keeps w s) (ip : Nat) (c : Nat) (ports : List Nat) :
    a.Keeps w (State.uncountCell s ip c ports) := by
  unfold State.uncountCell
  repeat' first
    | with_reducible assumption
    | exact all_of hw rfl
    | intro _
    | with_reducible apply State.setFld_keeps
    | with_reducible apply keeps_ite
    | with_reducible apply keeps_foldl

theorem State.takePlace_keeps {w : Part → Bool} {a s : State}
    (hw : [Part.regs, .fab].all w = true) (h : a.Keeps w s) (ip : Nat) (c : Nat)
    (ports : List Nat) (y4 : CellPlace) :
    a.Keeps w (State.takePlace s ip c ports y4) := by
  unfold State.takePlace
  repeat' first
    | with_reducible assumption
    | exact all_of hw rfl
    | intro _
    | with_reducible apply State.setReserved_keeps
    | with_reducible apply State.setFld_keeps
    | with_reducible apply State.setIngress_keeps
    | with_reducible apply State.setBit_keeps
    | with_reducible apply keeps_ite
    | with_reducible apply keeps_foldl
    | dsimp only
    | split

theorem State.givePlace_keeps {w : Part → Bool} {a s : State}
    (hw : [Part.regs, .fab].all w = true) (h : a.Keeps w s) (ip : Nat) (c : Nat)
    (ports : List Nat) (y4 : CellPlace) :
    a.Keeps w (State.givePlace s ip c ports y4) := by
  unfold State.givePlace
  repeat' first
    | with_reducible assumption
    | exact all_of hw rfl
    | intro _
    | with_reducible apply State.setReserved_keeps
    | with_reducible apply State.setFld_keeps
    | with_reducible apply State.setIngress_keeps
    | with_reducible apply State.setBit_keeps
    | with_reducible apply keeps_ite
    | with_reducible apply keeps_foldl
    | dsimp only
    | split

theorem State.goXoff_keeps {w : Part → Bool} {a s : State}
    (hw : [Part.regs, .saturated, .irqs, .flowFrames].all w = true) (h : a.Keeps w s) (p : Nat)
    (c : Nat) :
    a.Keeps w (State.goXoff s p c) := by
  unfold State.goXoff
  repeat' first
    | with_reducible assumption
    | exact all_of hw rfl
    | intro _
    | with_reducible apply State.signalXoff_keeps
    | with_reducible apply State.bump_keeps
    | with_reducible apply State.setBit_keeps
    | with_reducible apply keeps_ite

theorem State.checkXoff_keeps {w : Part → Bool} {a s : State}
    (hw : [Part.regs, .saturated, .irqs, .flowFrames, .fab].all w = true) (h : a.Keeps w s)
    (ip : Nat) (c : Nat) (ports : List Nat) :
    a.Keeps w (State.checkXoff s ip c ports) := by
  unfold State.checkXoff
  repeat' first
    | with_reducible assumption
    | exact all_of hw rfl
    | intro _
    | with_reducible apply State.setIngress_keeps
    | with_reducible apply State.goXoff_keeps
    | with_reducible apply keeps_ite

theorem State.checkXon_keeps {w : Part → Bool} {a s : State}
    (hw : [Part.regs, .saturated, .irqs, .flowFrames, .fab].all w = true) (h : a.Keeps w s)
    (p : Nat) (c : Nat) :
    a.Keeps w (State.checkXon s p c) := by
  unfold State.checkXon
  repeat' first
    | with_reducible assumption
    | exact all_of hw rfl
    | intro _
    | with_reducible apply State.setIngress_keeps
    | with_reducible apply State.signalXon_keeps
    | with_reducible apply State.setBit_keeps
    | with_reducible apply keeps_ite

theorem State.release_keeps {w : Part → Bool} {a s : State}
    (hw : [Part.regs, .saturated, .irqs, .flowFrames, .fab].all w = true) (h : a.Keeps w s)
    (c : Nat) (ports : List Nat) :
    a.Keeps w (State.release s c ports) := by
  unfold State.release
  repeat' first
    | with_reducible assumption
    | exact all_of hw rfl
    | intro _
    | with_reducible apply State.setBit_keeps
    | with_reducible apply State.checkXon_keeps
    | with_reducible apply keeps_ite
    | with_reducible apply keeps_foldl

theorem State.recheckFlow_keeps {w : Part → Bool} {a s : State}
    (hw : [Part.regs, .saturated, .irqs, .flowFrames, .fab].all w = true) (h : a.Keeps w s) :
    a.Keeps w (State.recheckFlow s) := by
  unfold State.recheckFlow
  repeat' first
    | with_reducible assumption
    | exact all_of hw rfl
    | intro _
    | with_reducible apply State.setBit_keeps
    | with_reducible apply State.checkXon_keeps
    | with_reducible apply keeps_ite
    | with_reducible apply keeps_foldl

theorem State.freeCell_keeps {w : Part → Bool} {a s : State}
    (hw : [Part.regs, .saturated, .irqs, .flowFrames, .fab].all w = true) (h : a.Keeps w s)
    (v : Frame) (i : Nat) :
    a.Keeps w (State.freeCell s v i).1 := by
  unfold State.freeCell
  repeat' first
    | with_reducible assumption
    | exact all_of hw rfl
    | intro _
    | with_reducible apply State.givePlace_keeps
    | with_reducible apply State.setFld_keeps
    | with_reducible apply State.setDriftOf_keeps
    | with_reducible apply State.uncountCell_keeps
    | with_reducible apply State.monEvent_keeps
    | with_reducible apply State.release_keeps
    | with_reducible apply keeps_ite
    | with_reducible apply keeps_foldl
    | with_reducible apply keeps_foldl_fst
    | with_reducible apply keeps_foldl_snd
    | dsimp only
    | split

theorem State.setVoq_keeps {w : Part → Bool} {a s : State} (hw : [Part.fab].all w = true)
    (h : a.Keeps w s) (k : Nat) (v : Voq) :
    a.Keeps w (State.setVoq s k v) := by
  unfold State.setVoq
  repeat' first
    | with_reducible assumption
    | exact all_of hw rfl
    | intro _
    | with_reducible apply keeps_ite
    | dsimp only
    | split
    | with_reducible apply keeps_fab

theorem State.setMcq_keeps {w : Part → Bool} {a s : State} (hw : [Part.fab].all w = true)
    (h : a.Keeps w s) (k : Nat) (v : Voq) :
    a.Keeps w (State.setMcq s k v) := by
  unfold State.setMcq
  repeat' first
    | with_reducible assumption
    | exact all_of hw rfl
    | intro _
    | with_reducible apply keeps_ite
    | dsimp only
    | split
    | with_reducible apply keeps_fab

theorem State.setStage_keeps {w : Part → Bool} {a s : State} (hw : [Part.fab].all w = true)
    (h : a.Keeps w s) (p : Nat) (c : Nat) (l : List (Nat × Nat)) :
    a.Keeps w (State.setStage s p c l) := by
  unfold State.setStage
  repeat' first
    | with_reducible assumption
    | exact all_of hw rfl
    | intro _
    | with_reducible apply keeps_ite
    | dsimp only
    | split
    | with_reducible apply keeps_fab

theorem State.unqueue_keeps {w : Part → Bool} {a s : State} (hw : [Part.fab].all w = true)
    (h : a.Keeps w s) (f : Nat) (p : Nat) :
    a.Keeps w (State.unqueue s f p) := by
  unfold State.unqueue
  repeat' first
    | with_reducible assumption
    | exact all_of hw rfl
    | intro _
    | with_reducible apply keeps_ite
    | dsimp only
    | split
    | with_reducible apply keeps_fab

theorem State.freeDone_keeps {w : Part → Bool} {a s : State}
    (hw : [Part.regs, .saturated, .irqs, .flowFrames, .frames, .fab].all w = true)
    (h : a.Keeps w s) (f : Nat) :
    a.Keeps w (State.freeDone s f) := by
  unfold State.freeDone
  repeat' first
    | with_reducible assumption
    | exact all_of hw rfl
    | intro _
    | with_reducible apply State.freeCell_keeps
    | with_reducible apply State.setFrame_keeps
    | with_reducible apply keeps_ite
    | with_reducible apply keeps_foldl
    | with_reducible apply keeps_foldl_fst
    | with_reducible apply keeps_foldl_snd
    | with_reducible refine keeps_of_snd ?_ (by with_reducible assumption)
    | with_reducible refine keeps_of_fst ?_ (by with_reducible assumption)
    | dsimp only
    | split

theorem State.setTmPort_keeps {w : Part → Bool} {a s : State} (hw : [Part.tm].all w = true)
    (h : a.Keeps w s) (p : Nat) (v : TmPort) :
    a.Keeps w (State.setTmPort s p v) := by
  unfold State.setTmPort
  repeat' first
    | with_reducible assumption
    | exact all_of hw rfl
    | intro _
    | with_reducible apply keeps_ite
    | dsimp only
    | split
    | with_reducible apply keeps_tm

theorem State.loseDeficit_keeps {w : Part → Bool} {a s : State} (hw : [Part.tm].all w = true)
    (h : a.Keeps w s) (p : Nat) (c : Nat) :
    a.Keeps w (State.loseDeficit s p c) := by
  unfold State.loseDeficit
  repeat' first
    | with_reducible assumption
    | exact all_of hw rfl
    | intro _
    | with_reducible apply State.setTmPort_keeps
    | with_reducible apply keeps_ite

theorem State.endCopy_keeps {w : Part → Bool} {a s : State}
    (hw : [Part.frames, .fab, .tm].all w = true) (h : a.Keeps w s) (f : Nat) (p : Nat) :
    a.Keeps w (State.endCopy s f p) := by
  unfold State.endCopy
  repeat' first
    | with_reducible assumption
    | exact all_of hw rfl
    | intro _
    | with_reducible apply State.unqueue_keeps
    | with_reducible apply State.setFrame_keeps
    | with_reducible apply State.loseDeficit_keeps
    | with_reducible apply keeps_ite
    | dsimp only
    | split

theorem State.dropQueued_keeps {w : Part → Bool} {a s : State}
    (hw : [Part.regs, .saturated, .irqs, .flowFrames, .frames, .fab, .tm].all w = true)
    (h : a.Keeps w s) (f : Nat) :
    a.Keeps w (State.dropQueued s f) := by
  unfold State.dropQueued
  repeat' first
    | with_reducible assumption
    | exact all_of hw rfl
    | intro _
    | with_reducible apply State.freeDone_keeps
    | with_reducible apply State.endCopy_keeps
    | with_reducible apply State.dropFrame_keeps
    | with_reducible apply keeps_ite
    | with_reducible apply keeps_foldl
    | dsimp only
    | split

theorem State.reap_keeps {w : Part → Bool} {a s : State} (hw : [Part.regs, .frames].all w = true)
    (h : a.Keeps w s) (f : Nat) :
    a.Keeps w (State.reap s f) := by
  unfold State.reap
  repeat' first
    | with_reducible assumption
    | exact all_of hw rfl
    | intro _
    | with_reducible apply State.delFrame_keeps
    | with_reducible apply State.depart_keeps
    | with_reducible apply keeps_ite
    | dsimp only
    | split

theorem State.badFrame_keeps {w : Part → Bool} {a s : State}
    (hw : [Part.regs, .saturated, .irqs, .flowFrames, .frames, .fab, .tm].all w = true)
    (h : a.Keeps w s) (f : Nat) :
    a.Keeps w (State.badFrame s f) := by
  unfold State.badFrame
  repeat' first
    | with_reducible assumption
    | exact all_of hw rfl
    | intro _
    | with_reducible apply State.dropQueued_keeps
    | with_reducible apply State.endCopy_keeps
    | with_reducible apply State.setFrame_keeps
    | with_reducible apply keeps_ite
    | with_reducible apply keeps_foldl
    | dsimp only
    | split

theorem State.copyToException_keeps {w : Part → Bool} {a s : State}
    (hw : [Part.frames, .nextFrame].all w = true) (h : a.Keeps w s) (f : Nat) (code : Nat)
    (port : Nat) (p : Nat) :
    a.Keeps w (State.copyToException s f code port p) := by
  unfold State.copyToException
  repeat' first
    | with_reducible assumption
    | exact all_of hw rfl
    | intro _
    | with_reducible apply State.setFrame_keeps
    | with_reducible apply State.toException_keeps
    | with_reducible apply keeps_ite
    | dsimp only
    | split
    | with_reducible apply keeps_nextFrame

theorem State.divert_keeps {w : Part → Bool} {a s : State}
    (hw : [Part.regs, .saturated, .irqs, .flowFrames, .frames, .nextFrame, .fab, .tm].all w = true)
    (h : a.Keeps w s) (f : Nat) (p : Nat) (code : Nat) (port : Nat) (departs : Bool) :
    a.Keeps w (State.divert s f p code port departs) := by
  unfold State.divert
  repeat' first
    | with_reducible assumption
    | exact all_of hw rfl
    | intro _
    | with_reducible apply State.freeDone_keeps
    | with_reducible apply State.endCopy_keeps
    | with_reducible apply State.copyToException_keeps
    | with_reducible apply State.depart_keeps
    | with_reducible apply State.setFrame_keeps
    | with_reducible apply State.toException_keeps
    | with_reducible apply keeps_ite
    | dsimp only
    | split

theorem State.redirect_keeps {w : Part → Bool} {a s : State}
    (hw : [Part.regs, .saturated, .irqs, .flowFrames, .frames, .nextFrame, .fab, .tm].all w = true)
    (h : a.Keeps w s) (f : Nat) (p : Nat) :
    a.Keeps w (State.redirect s f p) := by
  unfold State.redirect
  repeat' first
    | with_reducible assumption
    | exact all_of hw rfl
    | intro _
    | with_reducible apply State.bump_keeps
    | with_reducible apply State.divert_keeps

theorem State.noAdmit_keeps {w : Part → Bool} {a s : State}
    (hw : [Part.regs, .saturated, .irqs].all w = true) (h : a.Keeps w s) (p : Nat) :
    a.Keeps w (State.noAdmit s p) := by
  unfold State.noAdmit
  repeat' first
    | with_reducible assumption
    | exact all_of hw rfl
    | intro _
    | with_reducible apply State.monEvent_keeps
    | with_reducible apply State.bump_keeps

theorem State.chargeCap_keeps {w : Part → Bool} {a s : State} (hw : [Part.fab].all w = true)
    (h : a.Keeps w s) :
    a.Keeps w (State.chargeCap s) :=
  keeps_fab (s := { s with freeCtr := s.freeCtr + 1 }) (all_of hw rfl) _
    (keeps_free (s.freeCtr + 1) h (Nat.le_add_right _ 1))

theorem State.dividePool_keeps {w : Part → Bool} {a s : State} (hw : [Part.regs].all w = true)
    (h : a.Keeps w s) :
    a.Keeps w (State.dividePool s) := by
  unfold State.dividePool
  repeat' first
    | with_reducible assumption
    | exact all_of hw rfl
    | intro _
    | with_reducible apply State.setBit_keeps
    | with_reducible apply State.setFld_keeps

theorem State.checkDrift_keeps {w : Part → Bool} {a s : State}
    (hw : [Part.regs, .fab].all w = true) (h : a.Keeps w s) :
    a.Keeps w (State.checkDrift s) := by
  unfold State.checkDrift
  repeat' first
    | with_reducible assumption
    | exact all_of hw rfl
    | intro _
    | with_reducible apply State.setBit_keeps
    | with_reducible apply keeps_ite
    | dsimp only
    | split
    | with_reducible apply keeps_fab

end Sys2Proof.Machine
end

