-- ==== Sys2Proof/Laws/KeepsTmOps.lean ====
section
/-!
SUPPORT. What the operations of Machine/TmOps.lean can change, and what they keep.
-/

namespace Sys2Proof.Machine

open Sys2Proof

theorem State.setMeter_keeps {w : Part → Bool} {a s : State} (hw : [Part.tm].all w = true)
    (h : a.Keeps w s) (m : Nat) (v : Meter) :
    a.Keeps w (State.setMeter s m v) := by
  unfold State.setMeter
  repeat' first
    | with_reducible assumption
    | exact all_of hw rfl
    | intro _
    | with_reducible apply keeps_ite
    | dsimp only
    | split
    | with_reducible apply keeps_tm

theorem State.meterUpdate_keeps {w : Part → Bool} {a s : State} (hw : [Part.tm].all w = true)
    (h : a.Keeps w s) (m : Nat) (len : Nat) (pre : Nat) :
    a.Keeps w (State.meterUpdate s m len pre).2 := by
  unfold State.meterUpdate
  repeat' first
    | with_reducible assumption
    | exact all_of hw rfl
    | intro _
    | with_reducible apply State.setMeter_keeps
    | with_reducible apply keeps_ite
    | dsimp only
    | split

theorem State.fillMeter_keeps {w : Part → Bool} {a s : State} (hw : [Part.tm].all w = true)
    (h : a.Keeps w s) (m : Nat) :
    a.Keeps w (State.fillMeter s m) := by
  unfold State.fillMeter
  repeat' first
    | with_reducible assumption
    | exact all_of hw rfl
    | intro _
    | with_reducible apply State.setMeter_keeps

theorem State.refreshWindows_keeps {w : Part → Bool} {a s : State} (hw : [Part.regs].all w = true)
    (h : a.Keeps w s) (p : Nat) :
    a.Keeps w (State.refreshWindows s p) := by
  unfold State.refreshWindows
  repeat' first
    | with_reducible assumption
    | exact all_of hw rfl
    | intro _
    | with_reducible apply State.wrN_keeps
    | with_reducible apply keeps_ite
    | with_reducible apply keeps_foldl
    | dsimp only
    | split

theorem State.settleCredits_keeps {w : Part → Bool} {a s : State} (hw : [Part.tm].all w = true)
    (h : a.Keeps w s) (p : Nat) :
    a.Keeps w (State.settleCredits s p) := by
  unfold State.settleCredits
  repeat' first
    | with_reducible assumption
    | exact all_of hw rfl
    | intro _
    | with_reducible apply State.setTmPort_keeps

theorem State.setFrer_keeps {w : Part → Bool} {a s : State} (hw : [Part.tm].all w = true)
    (h : a.Keeps w s) (f : Nat) (v : FrerState) :
    a.Keeps w (State.setFrer s f v) := by
  unfold State.setFrer
  repeat' first
    | with_reducible assumption
    | exact all_of hw rfl
    | intro _
    | with_reducible apply keeps_ite
    | dsimp only
    | split
    | with_reducible apply keeps_tm

theorem State.enableFrer_keeps {w : Part → Bool} {a s : State} (hw : [Part.tm].all w = true)
    (h : a.Keeps w s) (f : Nat) :
    a.Keeps w (State.enableFrer s f) := by
  unfold State.enableFrer
  repeat' first
    | with_reducible assumption
    | exact all_of hw rfl
    | intro _
    | with_reducible apply State.setFrer_keeps

end Sys2Proof.Machine
end

