-- ==== Sys2Proof/Laws/KeepsCipherOps.lean ====
section
/-!
SUPPORT. What the operations of Machine/CipherOps.lean can change, and what they keep.
-/

namespace Sys2Proof.Machine

open Sys2Proof

theorem State.setNextPn_keeps {w : Part → Bool} {a s : State} (hw : [Part.regs].all w = true)
    (h : a.Keeps w s) (sa : Nat) (n : Nat) :
    a.Keeps w (State.setNextPn s sa n) := by
  unfold State.setNextPn
  repeat' first
    | with_reducible assumption
    | exact all_of hw rfl
    | intro _
    | with_reducible apply State.wrN_keeps
    | with_reducible apply keeps_ite

theorem State.markDisabled_keeps {w : Part → Bool} {a s : State} (hw : [Part.regs].all w = true)
    (h : a.Keeps w s) (sa : Nat) (cause : Nat) :
    a.Keeps w (State.markDisabled s sa cause) := by
  unfold State.markDisabled
  repeat' first
    | with_reducible assumption
    | exact all_of hw rfl
    | intro _
    | with_reducible apply State.setFld_keeps
    | with_reducible apply State.setBit_keeps

theorem State.disableSa_keeps {w : Part → Bool} {a s : State}
    (hw : [Part.regs, .saturated, .irqs].all w = true) (h : a.Keeps w s) (sa : Nat) (cause : Nat)
    :
    a.Keeps w (State.disableSa s sa cause) := by
  unfold State.disableSa
  repeat' first
    | with_reducible assumption
    | exact all_of hw rfl
    | intro _
    | with_reducible apply State.monEvent_keeps
    | with_reducible apply State.markDisabled_keeps
    | with_reducible apply keeps_ite

theorem State.settlePreempt_keeps {w : Part → Bool} {a s : State} (hw : [Part.tm].all w = true)
    (h : a.Keeps w s) (p : Nat) :
    a.Keeps w (State.settlePreempt s p) := by
  unfold State.settlePreempt
  repeat' first
    | with_reducible assumption
    | exact all_of hw rfl
    | intro _
    | with_reducible apply State.setTmPort_keeps
    | with_reducible apply keeps_ite
    | dsimp only
    | split

theorem State.gatePreempt_keeps {w : Part → Bool} {a s : State} (hw : [Part.tm].all w = true)
    (h : a.Keeps w s) (p : Nat) :
    a.Keeps w (State.gatePreempt s p) := by
  unfold State.gatePreempt
  repeat' first
    | with_reducible assumption
    | exact all_of hw rfl
    | intro _
    | with_reducible apply State.settlePreempt_keeps
    | with_reducible apply State.setTmPort_keeps
    | with_reducible apply keeps_ite
    | dsimp only
    | split

theorem State.issueBlocks_keeps {w : Part → Bool} {a s : State}
    (hw : [Part.regs, .saturated, .irqs].all w = true) (h : a.Keeps w s) (n : Nat) :
    a.Keeps w (State.issueBlocks s n) := by
  unfold State.issueBlocks
  repeat' first
    | with_reducible assumption
    | exact all_of hw rfl
    | intro _
    | with_reducible apply State.monEvents_keeps
    | with_reducible apply State.takeFree_keeps
    | with_reducible apply keeps_ite

end Sys2Proof.Machine
end

