-- ==== Sys2Proof/Laws/KeepsTimeOps.lean ====
section
/-!
SUPPORT. What the operations of Machine/TimeOps.lean can change, and what they keep.
-/

namespace Sys2Proof.Machine

open Sys2Proof

theorem State.putClock_keeps {w : Part → Bool} {a s : State} (hw : [Part.tim, .regs].all w = true)
    (h : a.Keeps w s) (d : Nat) (k : Clock) :
    a.Keeps w (State.putClock s d k) := by
  unfold State.putClock
  repeat' first
    | with_reducible assumption
    | exact all_of hw rfl
    | intro _
    | with_reducible apply State.wr_keeps
    | with_reducible apply State.setDom_keeps

theorem State.endSlew_keeps {w : Part → Bool} {a s : State} (hw : [Part.tim, .regs].all w = true)
    (h : a.Keeps w s) (d : Nat) :
    a.Keeps w (State.endSlew s d) := by
  unfold State.endSlew
  repeat' first
    | with_reducible assumption
    | exact all_of hw rfl
    | intro _
    | with_reducible apply State.putClock_keeps
    | with_reducible apply keeps_ite

theorem State.realignPort_keeps {w : Part → Bool} {a s : State}
    (hw : [Part.regs, .saturated, .tm].all w = true) (h : a.Keeps w s) (p : Nat) (old : Nat)
    (new : Nat) :
    a.Keeps w (State.realignPort s p old new) := by
  unfold State.realignPort
  repeat' first
    | with_reducible assumption
    | exact all_of hw rfl
    | intro _
    | with_reducible apply State.setTmPort_keeps
    | with_reducible apply State.settleCredits_keeps
    | with_reducible apply State.bump_keeps
    | with_reducible apply keeps_ite

theorem State.lockPort_keeps {w : Part → Bool} {a s : State} (hw : [Part.tm].all w = true)
    (h : a.Keeps w s) (p : Nat) :
    a.Keeps w (State.lockPort s p) := by
  unfold State.lockPort
  repeat' first
    | with_reducible assumption
    | exact all_of hw rfl
    | intro _
    | with_reducible apply State.setTmPort_keeps
    | with_reducible apply keeps_ite

theorem State.rebaseCredits_keeps {w : Part → Bool} {a s : State} (hw : [Part.tm].all w = true)
    (h : a.Keeps w s) (p : Nat) (old : Nat) (new : Nat) :
    a.Keeps w (State.rebaseCredits s p old new) := by
  unfold State.rebaseCredits
  repeat' first
    | with_reducible assumption
    | exact all_of hw rfl
    | intro _
    | with_reducible apply State.setTmPort_keeps

theorem State.stepped_keeps {w : Part → Bool} {a s : State}
    (hw : [Part.regs, .saturated, .irqs, .tm].all w = true) (h : a.Keeps w s) (d : Nat)
    (old : Nat) :
    a.Keeps w (State.stepped s d old) := by
  unfold State.stepped
  repeat' first
    | with_reducible assumption
    | exact all_of hw rfl
    | intro _
    | with_reducible apply State.monEvent_keeps
    | with_reducible apply State.bump_keeps
    | with_reducible apply State.setFld_keeps
    | with_reducible apply State.realignPort_keeps
    | with_reducible apply State.rebaseCredits_keeps
    | with_reducible apply keeps_ite
    | with_reducible apply keeps_foldl

theorem State.setDomState_keeps {w : Part → Bool} {a s : State}
    (hw : [Part.regs, .tm].all w = true) (h : a.Keeps w s) (d : Nat) (v : Nat) :
    a.Keeps w (State.setDomState s d v) := by
  unfold State.setDomState
  repeat' first
    | with_reducible assumption
    | exact all_of hw rfl
    | intro _
    | with_reducible apply State.settleCredits_keeps
    | with_reducible apply State.setBit_keeps
    | with_reducible apply State.setFld_keeps
    | with_reducible apply State.lockPort_keeps
    | with_reducible apply keeps_ite
    | with_reducible apply keeps_foldl

theorem State.setLockRun_keeps {w : Part → Bool} {a s : State} (hw : [Part.regs].all w = true)
    (h : a.Keeps w s) (d : Nat) (n : Nat) :
    a.Keeps w (State.setLockRun s d n) := by
  unfold State.setLockRun
  repeat' first
    | with_reducible assumption
    | exact all_of hw rfl
    | intro _
    | with_reducible apply State.setFld_keeps

theorem State.setOffset_keeps {w : Part → Bool} {a s : State} (hw : [Part.regs].all w = true)
    (h : a.Keeps w s) (d : Nat) (off : Int) :
    a.Keeps w (State.setOffset s d off) := by
  unfold State.setOffset
  repeat' first
    | with_reducible assumption
    | exact all_of hw rfl
    | intro _
    | with_reducible apply State.wr_keeps

theorem State.correct_keeps {w : Part → Bool} {a s : State}
    (hw : [Part.tim, .regs, .saturated, .irqs, .tm].all w = true) (h : a.Keeps w s) (d : Nat)
    (lt : Nat) (master : Nat) (interval : Nat) (off : Int) :
    a.Keeps w (State.correct s d lt master interval off) := by
  unfold State.correct
  repeat' first
    | with_reducible assumption
    | exact all_of hw rfl
    | intro _
    | with_reducible apply State.stepped_keeps
    | with_reducible apply State.putClock_keeps
    | with_reducible apply keeps_ite

theorem State.candidateSample_keeps {w : Part → Bool} {a s : State}
    (hw : [Part.tim, .regs, .saturated, .irqs, .tm].all w = true) (h : a.Keeps w s) (d : Nat)
    (lt : Nat) (master : Nat) (interval : Nat) :
    a.Keeps w (State.candidateSample s d lt master interval) := by
  unfold State.candidateSample
  repeat' first
    | with_reducible assumption
    | exact all_of hw rfl
    | intro _
    | with_reducible apply State.setLockRun_keeps
    | with_reducible apply State.setDom_keeps
    | with_reducible apply State.putClock_keeps
    | with_reducible apply State.setDomState_keeps
    | with_reducible apply State.stepped_keeps
    | with_reducible apply keeps_ite

theorem State.sample_keeps {w : Part → Bool} {a s : State}
    (hw : [Part.tim, .regs, .saturated, .irqs, .tm].all w = true) (h : a.Keeps w s) (d : Nat)
    (lt : Nat) (master : Nat) :
    a.Keeps w (State.sample s d lt master) := by
  unfold State.sample
  repeat' first
    | with_reducible assumption
    | exact all_of hw rfl
    | intro _
    | with_reducible apply State.setOffset_keeps
    | with_reducible apply State.monEvent_keeps
    | with_reducible apply State.bump_keeps
    | with_reducible apply State.setDom_keeps
    | with_reducible apply State.candidateSample_keeps
    | with_reducible apply State.correct_keeps
    | with_reducible apply State.setDomState_keeps
    | with_reducible apply keeps_ite
    | with_reducible apply keeps_dite
    | dsimp only
    | split

theorem State.ptpRing_keeps {w : Part → Bool} {a s : State}
    (hw : [Part.regs, .saturated].all w = true) (h : a.Keeps w s) (p : Nat) (tx : Bool) (t : Nat)
    (bs : List Byte) :
    a.Keeps w (State.ptpRing s p tx t bs) := by
  unfold State.ptpRing
  repeat' first
    | with_reducible assumption
    | exact all_of hw rfl
    | intro _
    | with_reducible apply State.bump_keeps
    | with_reducible apply State.setFld_keeps
    | with_reducible apply State.wrTime_keeps
    | with_reducible apply State.wrN_keeps
    | with_reducible apply keeps_ite
    | dsimp only
    | split

theorem State.txStamp_keeps {w : Part → Bool} {a s : State} (hw : [Part.regs].all w = true)
    (h : a.Keeps w s) (p : Nat) (latency : Nat) :
    a.Keeps w (State.txStamp s p latency).2 := by
  unfold State.txStamp
  repeat' first
    | with_reducible assumption
    | exact all_of hw rfl
    | intro _
    | with_reducible apply State.setFld_keeps
    | with_reducible apply keeps_ite
    | dsimp only
    | split

theorem State.rxStamp_keeps {w : Part → Bool} {a s : State} (hw : [Part.regs].all w = true)
    (h : a.Keeps w s) (p : Nat) (latency : Nat) :
    a.Keeps w (State.rxStamp s p latency).2 := by
  unfold State.rxStamp
  repeat' first
    | with_reducible assumption
    | exact all_of hw rfl
    | intro _
    | with_reducible apply State.setFld_keeps
    | with_reducible apply keeps_ite
    | dsimp only
    | split

end Sys2Proof.Machine
end

