-- ==== Sys2Proof/Laws/KeepsReceive.lean ====
section
/-!
SUPPORT. What the operations of Machine/Receive.lean can change, and what they keep.
-/

namespace Sys2Proof.Machine

open Sys2Proof

theorem State.countMacCtrl_keeps {w : Part → Bool} {a s : State}
    (hw : [Part.regs, .saturated, .irqs].all w = true) (h : a.Keeps w s) (p : Nat) (n : Nat) :
    a.Keeps w (State.countMacCtrl s p n) := by
  unfold State.countMacCtrl
  repeat' first
    | with_reducible assumption
    | exact all_of hw rfl
    | intro _
    | with_reducible apply State.monEvent_keeps
    | with_reducible apply State.bump_keeps
    | with_reducible apply State.bumpBy_keeps

theorem State.stopClass_keeps {w : Part → Bool} {a s : State} (hw : [Part.ports].all w = true)
    (h : a.Keeps w s) (p : Nat) (c : Nat) (quanta : Nat) :
    a.Keeps w (State.stopClass s p c quanta) := by
  unfold State.stopClass
  repeat' first
    | with_reducible assumption
    | exact all_of hw rfl
    | intro _
    | with_reducible apply State.setPort_keeps

theorem State.actOnFlow_keeps {w : Part → Bool} {a s : State}
    (hw : [Part.regs, .saturated, .ports].all w = true) (h : a.Keeps w s) (p : Nat)
    (classes : List Nat) (quanta : Nat → Nat) :
    a.Keeps w (State.actOnFlow s p classes quanta) := by
  unfold State.actOnFlow
  repeat' first
    | with_reducible assumption
    | exact all_of hw rfl
    | intro _
    | with_reducible apply State.stopClass_keeps
    | with_reducible apply State.bump_keeps
    | with_reducible apply keeps_ite
    | with_reducible apply keeps_foldl

theorem State.receivePfc_keeps {w : Part → Bool} {a s : State}
    (hw : [Part.regs, .saturated, .ports].all w = true) (h : a.Keeps w s) (p : Nat)
    (enables : Nat) (quanta : Nat → Nat) :
    a.Keeps w (State.receivePfc s p enables quanta) := by
  unfold State.receivePfc
  repeat' first
    | with_reducible assumption
    | exact all_of hw rfl
    | intro _
    | with_reducible apply State.actOnFlow_keeps
    | with_reducible apply keeps_ite

theorem State.receivePause_keeps {w : Part → Bool} {a s : State}
    (hw : [Part.regs, .saturated, .ports].all w = true) (h : a.Keeps w s) (p : Nat) (quanta : Nat)
    :
    a.Keeps w (State.receivePause s p quanta) := by
  unfold State.receivePause
  repeat' first
    | with_reducible assumption
    | exact all_of hw rfl
    | intro _
    | with_reducible apply State.actOnFlow_keeps
    | with_reducible apply keeps_ite

theorem State.macControl_keeps {w : Part → Bool} {a s : State}
    (hw : [Part.regs, .saturated, .irqs, .ports].all w = true) (h : a.Keeps w s) (p : Nat)
    (bs : List Byte) :
    a.Keeps w (State.macControl s p bs) := by
  unfold State.macControl
  repeat' first
    | with_reducible assumption
    | exact all_of hw rfl
    | intro _
    | with_reducible apply State.countMacCtrl_keeps
    | with_reducible apply State.receivePfc_keeps
    | with_reducible apply State.receivePause_keeps
    | with_reducible apply keeps_ite

theorem State.takeRx_keeps {w : Part → Bool} {a s : State}
    (hw : [Part.regs, .saturated, .frames].all w = true) (h : a.Keeps w s) (f : Nat) (v : Frame) :
    a.Keeps w (State.takeRx s f v) := by
  unfold State.takeRx
  repeat' first
    | with_reducible assumption
    | exact all_of hw rfl
    | intro _
    | with_reducible apply State.setFrame_keeps
    | with_reducible apply State.ptpRing_keeps
    | with_reducible apply keeps_ite

theorem State.releaseRetrained_keeps {w : Part → Bool} {a s : State}
    (hw : [Part.regs, .saturated, .frames].all w = true) (h : a.Keeps w s) (f : Nat) :
    a.Keeps w (State.releaseRetrained s f) := by
  unfold State.releaseRetrained
  repeat' first
    | with_reducible assumption
    | exact all_of hw rfl
    | intro _
    | with_reducible apply State.takeRx_keeps
    | with_reducible apply keeps_ite
    | dsimp only
    | split

theorem State.holdEvent_keeps {w : Part → Bool} {a s : State} (hw : [Part.traverse].all w = true)
    (h : a.Keeps w s) (e : HeldEvent) :
    a.Keeps w (State.holdEvent s e) := by
  unfold State.holdEvent
  repeat' first
    | with_reducible assumption
    | exact all_of hw rfl
    | intro _
    | with_reducible apply keeps_ite
    | dsimp only
    | split
    | with_reducible apply keeps_traverse

theorem State.interruptRx_keeps {w : Part → Bool} {a s : State} (hw : [Part.frames].all w = true)
    (h : a.Keeps w s) (p : Nat) :
    a.Keeps w (State.interruptRx s p) := by
  unfold State.interruptRx
  repeat' first
    | with_reducible assumption
    | exact all_of hw rfl
    | intro _
    | with_reducible apply State.setFrame_keeps
    | with_reducible apply keeps_ite
    | with_reducible apply keeps_foldl
    | dsimp only
    | split

theorem State.beginRx_keeps {w : Part → Bool} {a s : State}
    (hw : [Part.regs, .saturated, .traverse, .frames, .nextFrame].all w = true) (h : a.Keeps w s)
    (p : Nat) (head : List Byte) (latency : Nat) :
    a.Keeps w (State.beginRx s p head latency) := by
  unfold State.beginRx
  repeat' first
    | with_reducible assumption
    | exact all_of hw rfl
    | intro _
    | with_reducible apply State.rxStamp_keeps
    | with_reducible apply State.interruptRx_keeps
    | with_reducible apply State.setFrame_keeps
    | with_reducible apply State.holdEvent_keeps
    | with_reducible apply State.takeRx_keeps
    | with_reducible apply keeps_ite
    | with_reducible refine keeps_of_snd ?_ (by with_reducible assumption)
    | with_reducible refine keeps_of_fst ?_ (by with_reducible assumption)
    | dsimp only
    | split
    | with_reducible apply keeps_nextFrame

theorem State.unstall_keeps {w : Part → Bool} {a s : State} (hw : [Part.cls].all w = true)
    (h : a.Keeps w s) (f : Nat) :
    a.Keeps w (State.unstall s f) := by
  unfold State.unstall
  repeat' first
    | with_reducible assumption
    | exact all_of hw rfl
    | intro _
    | with_reducible apply keeps_ite
    | dsimp only
    | split
    | with_reducible apply keeps_cls

theorem State.classifyClosed_keeps {w : Part → Bool} {a s : State}
    (hw : [Part.regs, .saturated, .irqs, .frames].all w = true) (h : a.Keeps w s) (f : Nat)
    (v : Frame) :
    a.Keeps w (State.classifyClosed s f v) := by
  unfold State.classifyClosed
  repeat' first
    | with_reducible assumption
    | exact all_of hw rfl
    | intro _
    | with_reducible apply State.delFrame_keeps
    | with_reducible apply State.noAdmit_keeps
    | with_reducible apply keeps_ite

theorem State.endRx_keeps {w : Part → Bool} {a s : State}
    (hw : [Part.regs, .saturated, .traverse, .irqs, .flowFrames, .frames, .ports,
      .fab, .cls, .tm, .wak].all w = true)
    (h : a.Keeps w s) (f : Nat) (rest : List Byte) (err : RxError) :
    a.Keeps w (State.endRx s f rest err) := by
  unfold State.endRx
  repeat' first
    | with_reducible assumption
    | exact all_of hw rfl
    | intro _
    | with_reducible apply State.holdEvent_keeps
    | with_reducible apply State.unstall_keeps
    | with_reducible apply State.monEvent_keeps
    | with_reducible apply State.portLog_keeps
    | with_reducible apply State.bump_keeps
    | with_reducible apply State.badFrame_keeps
    | with_reducible apply State.setFrame_keeps
    | with_reducible apply State.delFrame_keeps
    | with_reducible apply State.macControl_keeps
    | with_reducible apply State.bumpBy_keeps
    | with_reducible apply State.heardFrame_keeps
    | with_reducible apply State.ptpRing_keeps
    | with_reducible apply State.classifyClosed_keeps
    | with_reducible apply State.reap_keeps
    | with_reducible apply keeps_ite
    | dsimp only
    | split

theorem State.loopBack_keeps {w : Part → Bool} {a s : State}
    (hw : [Part.regs, .saturated, .traverse, .irqs, .flowFrames, .frames, .nextFrame,
      .ports, .fab, .cls, .tm, .wak].all w = true)
    (h : a.Keeps w s) (p : Nat) (bs : List Byte) (stomped : Bool) :
    a.Keeps w (State.loopBack s p bs stomped) := by
  unfold State.loopBack
  repeat' first
    | with_reducible assumption
    | exact all_of hw rfl
    | intro _
    | with_reducible apply State.endRx_keeps
    | with_reducible apply State.beginRx_keeps
    | with_reducible apply keeps_ite

end Sys2Proof.Machine
end

