-- ==== Sys2Proof/Laws/KeepsPowerOps.lean ====
section
/-!
SUPPORT. What the operations of Machine/PowerOps.lean can change, and what they keep.
-/

namespace Sys2Proof.Machine

open Sys2Proof

theorem State.setChan_keeps {w : Part → Bool} {a s : State} (hw : [Part.power].all w = true)
    (h : a.Keeps w s) (n : Nat) (c : Channel) :
    a.Keeps w (State.setChan s n c) := by
  unfold State.setChan
  repeat' first
    | with_reducible assumption
    | exact all_of hw rfl
    | intro _
    | with_reducible apply keeps_ite
    | dsimp only
    | split
    | with_reducible apply keeps_power

theorem State.setDie_keeps {w : Part → Bool} {a s : State} (hw : [Part.power].all w = true)
    (h : a.Keeps w s) (d : Nat) (v : PowerDie) :
    a.Keeps w (State.setDie s d v) := by
  unfold State.setDie
  repeat' first
    | with_reducible assumption
    | exact all_of hw rfl
    | intro _
    | with_reducible apply keeps_ite
    | dsimp only
    | split
    | with_reducible apply keeps_power

theorem State.switchOn_keeps {w : Part → Bool} {a s : State} (hw : [Part.power].all w = true)
    (h : a.Keeps w s) (n : Nat) :
    a.Keeps w (State.switchOn s n) := by
  unfold State.switchOn
  repeat' first
    | with_reducible assumption
    | exact all_of hw rfl
    | intro _
    | with_reducible apply State.setChan_keeps
    | with_reducible apply keeps_ite

theorem State.countTrip_keeps {w : Part → Bool} {a s : State}
    (hw : [Part.regs, .saturated, .irqs].all w = true) (h : a.Keeps w s) (n : Nat) (k : TripCause) :
    a.Keeps w (State.countTrip s n k) := by
  unfold State.countTrip
  repeat' first
    | with_reducible assumption
    | exact all_of hw rfl
    | intro _
    | with_reducible apply State.monEvent_keeps
    | with_reducible apply State.bump_keeps
    | with_reducible apply keeps_ite
    | dsimp only
    | split

theorem State.latchMogul_keeps {w : Part → Bool} {a s : State}
    (hw : [Part.reports, .power].all w = true) (h : a.Keeps w s) (n : Nat) :
    a.Keeps w (State.latchMogul s n) := by
  unfold State.latchMogul
  repeat' first
    | with_reducible assumption
    | exact all_of hw rfl
    | intro _
    | with_reducible apply State.fault_keeps
    | with_reducible apply State.setChan_keeps

theorem State.tripChan_keeps {w : Part → Bool} {a s : State}
    (hw : [Part.regs, .saturated, .reports, .power, .irqs].all w = true) (h : a.Keeps w s) (n : Nat)
    (k : TripCause) :
    a.Keeps w (State.tripChan s n k) := by
  unfold State.tripChan
  repeat' first
    | with_reducible assumption
    | exact all_of hw rfl
    | intro _
    | with_reducible apply State.countTrip_keeps
    | with_reducible apply State.setChan_keeps
    | with_reducible apply State.latchMogul_keeps
    | with_reducible apply keeps_ite
    | dsimp only
    | split

theorem State.holdChan_keeps {w : Part → Bool} {a s : State}
    (hw : [Part.regs, .saturated, .reports, .power].all w = true) (h : a.Keeps w s) (n : Nat) :
    a.Keeps w (State.holdChan s n) := by
  unfold State.holdChan
  repeat' first
    | with_reducible assumption
    | exact all_of hw rfl
    | intro _
    | with_reducible apply State.fault_keeps
    | with_reducible apply State.bump_keeps
    | with_reducible apply State.setChan_keeps
    | with_reducible apply keeps_ite

theorem atOut_keeps {w : Part → Bool} {a s : State} (h : a.Keeps w s) (n : Nat)
    (eff : State → State) (heff : ∀ (x0 : State), a.Keeps w x0 → a.Keeps w (eff x0)) :
    a.Keeps w (atOut n eff s) := by
  unfold atOut
  repeat' first
    | with_reducible assumption
    | intro _
    | with_reducible apply heff
    | with_reducible apply keeps_ite

theorem State.chanFlag_keeps {w : Part → Bool} {a s : State}
    (hw : [Part.regs, .irqs].all w = true) (h : a.Keeps w s) (n : Nat) (b : Nat) :
    a.Keeps w (State.chanFlag s n b) := by
  unfold State.chanFlag
  repeat' first
    | with_reducible assumption
    | exact all_of hw rfl
    | intro _
    | with_reducible apply State.irq_keeps
    | with_reducible apply State.setBit_keeps

theorem State.dieFlag_keeps {w : Part → Bool} {a s : State} (hw : [Part.regs, .irqs].all w = true)
    (h : a.Keeps w s) (d : Nat) (b : Nat) :
    a.Keeps w (State.dieFlag s d b) := by
  unfold State.dieFlag
  repeat' first
    | with_reducible assumption
    | exact all_of hw rfl
    | intro _
    | with_reducible apply State.irq_keeps
    | with_reducible apply State.setBit_keeps

theorem State.holdDie_keeps {w : Part → Bool} {a s : State}
    (hw : [Part.regs, .saturated, .reports, .power].all w = true) (h : a.Keeps w s) (d : Nat) :
    a.Keeps w (State.holdDie s d) := by
  unfold State.holdDie
  repeat' first
    | with_reducible assumption
    | exact all_of hw rfl
    | intro _
    | with_reducible apply State.setChan_keeps
    | with_reducible apply State.fault_keeps
    | with_reducible apply State.bump_keeps
    | with_reducible apply State.setDie_keeps
    | with_reducible apply keeps_ite
    | with_reducible apply keeps_foldl

theorem State.refuseCmd_keeps {w : Part → Bool} {a s : State}
    (hw : [Part.regs, .saturated, .irqs].all w = true) (h : a.Keeps w s) (n : Nat) :
    a.Keeps w (State.refuseCmd s n) := by
  unfold State.refuseCmd
  repeat' first
    | with_reducible assumption
    | exact all_of hw rfl
    | intro _
    | with_reducible apply State.bump_keeps
    | with_reducible apply State.chanFlag_keeps

theorem State.attach_keeps {w : Part → Bool} {a s : State}
    (hw : [Part.regs, .saturated, .reports, .power].all w = true) (h : a.Keeps w s) (d : Nat)
    (thread : Nat) (arg : Word) :
    a.Keeps w (State.attach s d thread arg) := by
  unfold State.attach
  repeat' first
    | with_reducible assumption
    | exact all_of hw rfl
    | intro _
    | with_reducible apply State.fault_keeps
    | with_reducible apply State.bump_keeps
    | with_reducible apply State.setChan_keeps
    | with_reducible apply State.setDie_keeps
    | with_reducible apply keeps_ite
    | with_reducible apply keeps_foldl

theorem State.chanCmd_keeps {w : Part → Bool} {a s : State}
    (hw : [Part.regs, .saturated, .reports, .irqs, .power].all w = true) (h : a.Keeps w s)
    (n : Nat) (code : Nat) (arg : Word) :
    a.Keeps w (State.chanCmd s n code arg) := by
  unfold State.chanCmd
  repeat' first
    | with_reducible assumption
    | exact all_of hw rfl
    | intro _
    | with_reducible apply State.bump_keeps
    | with_reducible apply State.switchOn_keeps
    | with_reducible apply State.setChan_keeps
    | with_reducible apply State.tripChan_keeps
    | with_reducible apply State.refuseCmd_keeps
    | with_reducible apply keeps_ite
    | with_reducible apply keeps_dite
    | dsimp only
    | split

theorem State.dieAct_keeps {w : Part → Bool} {a s : State}
    (hw : [Part.regs, .saturated, .reports, .irqs, .power].all w = true) (h : a.Keeps w s)
    (d : Nat) (cmd : PowerCmd) :
    a.Keeps w (State.dieAct s d cmd) := by
  unfold State.dieAct
  repeat' first
    | with_reducible assumption
    | exact all_of hw rfl
    | intro _
    | with_reducible apply State.holdDie_keeps
    | with_reducible apply State.attach_keeps
    | with_reducible apply State.refuseCmd_keeps
    | with_reducible apply State.holdChan_keeps
    | with_reducible apply State.chanCmd_keeps
    | with_reducible apply keeps_ite

end Sys2Proof.Machine
end

