-- ==== Sys2Proof/Laws/KeepsRitik.lean ====
section
/-!
SUPPORT. What the operations of Machine/Ritik.lean can change, and what they keep.
-/

namespace Sys2Proof.Machine

open Sys2Proof

theorem State.setThread_keeps {w : Part → Bool} {a s : State} (hw : [Part.rtk].all w = true)
    (h : a.Keeps w s) (t : Nat) (v : Thread) :
    a.Keeps w (State.setThread s t v) := by
  unfold State.setThread
  repeat' first
    | with_reducible assumption
    | exact all_of hw rfl
    | intro _
    | with_reducible apply keeps_ite
    | dsimp only
    | split
    | with_reducible apply keeps_rtk

theorem State.issuedFrom_keeps {w : Part → Bool} {a s : State} (hw : [Part.rtk].all w = true)
    (h : a.Keeps w s) (t : Nat) :
    a.Keeps w (State.issuedFrom s t) := by
  unfold State.issuedFrom
  repeat' first
    | with_reducible assumption
    | exact all_of hw rfl
    | intro _
    | with_reducible apply keeps_ite
    | dsimp only
    | split
    | with_reducible apply keeps_rtk

theorem State.setEngWord_keeps {w0 : Part → Bool} {a s : State} (hw : [Part.rtk].all w0 = true)
    (h : a.Keeps w0 s) (i : Nat) (w : Word) :
    a.Keeps w0 (State.setEngWord s i w) := by
  unfold State.setEngWord
  repeat' first
    | with_reducible assumption
    | exact all_of hw rfl
    | intro _
    | with_reducible apply keeps_ite
    | dsimp only
    | split
    | with_reducible apply keeps_rtk

theorem State.setD_keeps {w0 : Part → Bool} {a s : State}
    (hw : [Part.regs, .rtk, .eccBad].all w0 = true) (h : a.Keeps w0 s) (t : Nat) (i : Nat)
    (w : Word) :
    a.Keeps w0 (State.setD s t i w) := by
  unfold State.setD
  repeat' first
    | with_reducible assumption
    | exact all_of hw rfl
    | intro _
    | with_reducible apply State.wr_keeps
    | with_reducible apply State.setEngWord_keeps
    | with_reducible apply keeps_ite
    | dsimp only
    | split
    | with_reducible apply keeps_eccBad

theorem State.passTurn_keeps {w : Part → Bool} {a s : State} (hw : [Part.rtk].all w = true)
    (h : a.Keeps w s) (t : Nat) :
    a.Keeps w (State.passTurn s t) := by
  unfold State.passTurn
  repeat' first
    | with_reducible assumption
    | exact all_of hw rfl
    | intro _
    | with_reducible apply State.setThread_keeps
    | with_reducible apply keeps_ite
    | with_reducible apply keeps_foldl
    | dsimp only
    | split

theorem State.trapP_keeps {w : Part → Bool} {a s : State}
    (hw : [Part.regs, .saturated, .reports, .irqs, .frames, .rtk].all w = true) (h : a.Keeps w s)
    (t : Nat) (k : Trap) (pc : Word) :
    a.Keeps w (State.trapP s t k pc) := by
  unfold State.trapP
  repeat' first
    | with_reducible assumption
    | exact all_of hw rfl
    | intro _
    | with_reducible apply State.setThread_keeps
    | with_reducible apply State.monEvent_keeps
    | with_reducible apply State.bump_keeps
    | with_reducible apply State.fault_keeps
    | with_reducible apply State.engineException_keeps
    | with_reducible apply State.setFrame_keeps
    | with_reducible apply keeps_ite
    | dsimp only
    | split

theorem State.trapC_keeps {w : Part → Bool} {a s : State}
    (hw : [Part.regs, .saturated, .reports, .irqs, .rtk, .power].all w = true) (h : a.Keeps w s)
    (t : Nat) (k : Trap) (pc : Word) :
    a.Keeps w (State.trapC s t k pc) := by
  unfold State.trapC
  repeat' first
    | with_reducible assumption
    | exact all_of hw rfl
    | intro _
    | with_reducible apply State.setThread_keeps
    | with_reducible apply State.irq_keeps
    | with_reducible apply State.wrN_keeps
    | with_reducible apply State.fault_keeps
    | with_reducible apply State.holdChan_keeps
    | with_reducible apply keeps_ite
    | with_reducible apply keeps_foldl

theorem State.trapW_keeps {w : Part → Bool} {a s : State}
    (hw : [Part.regs, .reports, .rtk, .wak].all w = true) (h : a.Keeps w s) (k : Trap) (pc : Word)
    :
    a.Keeps w (State.trapW s k pc) := by
  unfold State.trapW
  repeat' first
    | with_reducible assumption
    | exact all_of hw rfl
    | intro _
    | with_reducible apply State.setThread_keeps
    | with_reducible apply State.wr_keeps
    | with_reducible apply State.fault_keeps
    | with_reducible apply keeps_ite
    | dsimp only
    | split
    | with_reducible apply keeps_wak

theorem State.trapAt_keeps {w : Part → Bool} {a s : State}
    (hw : [Part.regs, .saturated, .reports, .irqs, .frames, .rtk, .power, .wak].all w = true)
    (h : a.Keeps w s) (t : Nat) (k : Trap) (pc : Word) :
    a.Keeps w (State.trapAt s t k pc) := by
  unfold State.trapAt
  repeat' first
    | with_reducible assumption
    | exact all_of hw rfl
    | intro _
    | with_reducible apply State.passTurn_keeps
    | with_reducible apply State.trapP_keeps
    | with_reducible apply State.trapC_keeps
    | with_reducible apply State.trapW_keeps
    | with_reducible apply keeps_ite
    | dsimp only
    | split

theorem State.trapNow_keeps {w : Part → Bool} {a s : State}
    (hw : [Part.regs, .saturated, .reports, .irqs, .frames, .rtk, .power, .wak].all w = true)
    (h : a.Keeps w s) (t : Nat) (k : Trap) :
    a.Keeps w (State.trapNow s t k) := by
  unfold State.trapNow
  repeat' first
    | with_reducible assumption
    | exact all_of hw rfl
    | intro _
    | with_reducible apply State.trapAt_keeps

theorem State.issue_keeps {w : Part → Bool} {a s : State}
    (hw : [Part.regs, .saturated, .reports, .irqs, .frames, .rtk, .power, .wak].all w = true)
    (h : a.Keeps w s) (t : Nat) (ill : Bool) (profs : List Profile) (chk : Thread → Verdict)
    (eff : Thread → State → State)
    (heff : ∀ (x0 : Thread) (x1 : State), a.Keeps w x1 → a.Keeps w (eff x0 x1)) :
    a.Keeps w (State.issue s t ill profs chk eff) := by
  unfold State.issue
  repeat' first
    | with_reducible assumption
    | exact all_of hw rfl
    | intro _
    | with_reducible apply heff
    | with_reducible apply State.issuedFrom_keeps
    | with_reducible apply State.trapAt_keeps
    | with_reducible apply State.trapNow_keeps
    | with_reducible apply State.passTurn_keeps
    | with_reducible apply State.setThread_keeps
    | with_reducible apply keeps_ite
    | dsimp only
    | split

theorem State.wakeRoom_keeps {w : Part → Bool} {a s : State} (hw : [Part.rtk].all w = true)
    (h : a.Keeps w s) :
    a.Keeps w (State.wakeRoom s) := by
  unfold State.wakeRoom
  repeat' first
    | with_reducible assumption
    | exact all_of hw rfl
    | intro _
    | with_reducible apply State.setThread_keeps
    | with_reducible apply keeps_ite
    | with_reducible apply keeps_foldl

theorem State.threadOp_keeps {w : Part → Bool} {a s : State}
    (hw : [Part.regs, .saturated, .reports, .irqs, .frames, .rtk, .power, .wak].all w = true)
    (h : a.Keeps w s) (t : Nat) (profs : List Profile) (f : Thread → Thread) :
    a.Keeps w (State.threadOp s t profs f) := by
  unfold State.threadOp
  repeat' first
    | with_reducible assumption
    | exact all_of hw rfl
    | intro _
    | with_reducible apply State.issue_keeps
    | with_reducible apply State.setThread_keeps

theorem State.startThreads_keeps {w : Part → Bool} {a s : State} (hw : [Part.rtk].all w = true)
    (h : a.Keeps w s) (q : Nat) :
    a.Keeps w (State.startThreads s q) := by
  unfold State.startThreads
  repeat' first
    | with_reducible assumption
    | exact all_of hw rfl
    | intro _
    | with_reducible apply State.setThread_keeps
    | with_reducible apply keeps_ite
    | with_reducible apply keeps_foldl
    | with_reducible apply keeps_foldl_fst
    | with_reducible apply keeps_foldl_snd
    | dsimp only
    | split

theorem State.stopThreads_keeps {w : Part → Bool} {a s : State} (hw : [Part.rtk].all w = true)
    (h : a.Keeps w s) (q : Nat) :
    a.Keeps w (State.stopThreads s q) := by
  unfold State.stopThreads
  repeat' first
    | with_reducible assumption
    | exact all_of hw rfl
    | intro _
    | with_reducible apply State.setThread_keeps
    | with_reducible apply keeps_ite
    | with_reducible apply keeps_foldl

end Sys2Proof.Machine
end

