-- ==== Sys2Proof/Laws/KeepsClassify.lean ====
section
/-!
SUPPORT. What the operations of Machine/Classify.lean can change, and what they keep.
-/

namespace Sys2Proof.Machine

open Sys2Proof

theorem State.stamp_keeps {w : Part → Bool} {a s : State} (hw : [Part.regs].all w = true)
    (h : a.Keeps w s) (v : Frame) :
    a.Keeps w (State.stamp s v).1 := by
  unfold State.stamp
  repeat' first
    | with_reducible assumption
    | exact all_of hw rfl
    | intro _
    | with_reducible apply State.setFld_keeps
    | with_reducible apply keeps_ite
    | dsimp only
    | split

theorem State.countClass_keeps {w : Part → Bool} {a s : State}
    (hw : [Part.regs, .saturated, .irqs].all w = true) (h : a.Keeps w s) (code : Nat) :
    a.Keeps w (State.countClass s code) := by
  unfold State.countClass
  repeat' first
    | with_reducible assumption
    | exact all_of hw rfl
    | intro _
    | with_reducible apply State.monEvent_keeps
    | with_reducible apply State.bump_keeps
    | with_reducible apply keeps_ite
    | with_reducible apply keeps_dite
    | dsimp only
    | split

theorem State.malformed_keeps {w : Part → Bool} {a s : State}
    (hw : [Part.regs, .saturated, .frames].all w = true) (h : a.Keeps w s) (f : Nat) (code : Nat)
    (hash : Word) :
    a.Keeps w (State.malformed s f code hash) := by
  unfold State.malformed
  repeat' first
    | with_reducible assumption
    | exact all_of hw rfl
    | intro _
    | with_reducible apply State.dropFrame_keeps
    | with_reducible apply State.bump_keeps
    | with_reducible apply State.toException_keeps
    | with_reducible apply keeps_ite
    | with_reducible apply keeps_dite
    | dsimp only
    | split

theorem State.genLost_keeps {w : Part → Bool} {a s : State}
    (hw : [Part.regs, .saturated, .irqs, .frames].all w = true) (h : a.Keeps w s) (f : Nat)
    (hash : Word) :
    a.Keeps w (State.genLost s f hash) := by
  unfold State.genLost
  repeat' first
    | with_reducible assumption
    | exact all_of hw rfl
    | intro _
    | with_reducible apply State.toException_keeps
    | with_reducible apply State.countClass_keeps

theorem State.classify_keeps {w : Part → Bool} {a s : State}
    (hw : [Part.regs, .saturated, .irqs, .frames, .cls].all w = true) (h : a.Keeps w s) (f : Nat)
    (v : Frame) (view : FrameView) (r : Parsed) (mal : Nat) :
    a.Keeps w (State.classify s f v view r mal) := by
  unfold State.classify
  repeat' first
    | with_reducible assumption
    | exact all_of hw rfl
    | intro _
    | with_reducible apply State.bump_keeps
    | with_reducible apply State.flowLookup_keeps
    | with_reducible apply State.setFrame_keeps
    | with_reducible apply keeps_ite
    | with_reducible refine keeps_of_snd ?_ (by with_reducible assumption)
    | with_reducible refine keeps_of_fst ?_ (by with_reducible assumption)
    | dsimp only
    | split

theorem State.afterParse_keeps {w : Part → Bool} {a s : State}
    (hw : [Part.regs, .saturated, .irqs, .frames, .cls].all w = true) (h : a.Keeps w s) (f : Nat)
    (v : Frame) (view : FrameView) (r : Parsed) :
    a.Keeps w (State.afterParse s f v view r) := by
  unfold State.afterParse
  repeat' first
    | with_reducible assumption
    | exact all_of hw rfl
    | intro _
    | with_reducible apply State.toException_keeps
    | with_reducible apply State.countClass_keeps
    | with_reducible apply State.classify_keeps
    | with_reducible apply State.malformed_keeps
    | with_reducible apply keeps_ite

theorem execClassifyPass_keeps {w : Part → Bool} {a s : State}
    (hw : [Part.regs, .saturated, .irqs, .frames, .cls].all w = true) (h : a.Keeps w s)
    (f : FrameId) :
    AnswerKeeps w a (execClassifyPass f s) := by
  unfold execClassifyPass
  repeat' first
    | with_reducible assumption
    | exact all_of hw rfl
    | with_reducible apply answerKeeps_next
    | intro _
    | with_reducible apply State.classifyClosed_keeps
    | with_reducible apply State.genLost_keeps
    | with_reducible apply State.stamp_keeps
    | with_reducible apply State.monEvent_keeps
    | with_reducible apply State.afterParse_keeps
    | with_reducible apply State.setFrame_keeps
    | with_reducible apply keeps_ite
    | with_reducible refine keeps_of_snd ?_ (by with_reducible assumption)
    | with_reducible refine keeps_of_fst ?_ (by with_reducible assumption)
    | dsimp only
    | split
    | with_reducible exact Nat.le_add_right _ _
    | with_reducible refine keeps_free _ ?_ ?_

theorem execL3LengthTailCheck_keeps {w : Part → Bool} {a s : State}
    (hw : [Part.regs, .saturated, .irqs, .frames].all w = true) (h : a.Keeps w s) (f : FrameId) :
    AnswerKeeps w a (execL3LengthTailCheck f s) := by
  unfold execL3LengthTailCheck
  repeat' first
    | with_reducible assumption
    | exact all_of hw rfl
    | with_reducible apply answerKeeps_next
    | intro _
    | with_reducible apply State.setFrame_keeps
    | with_reducible apply State.countClass_keeps
    | with_reducible apply State.malformed_keeps
    | with_reducible apply keeps_ite
    | dsimp only
    | split

theorem flowCommandGo_keeps {w : Part → Bool} {a s : State}
    (hw : [Part.regs, .busReply, .saturated, .reports, .irqs, .cls].all w = true)
    (h : a.Keeps w s) (m : Master) (op : Nat) (slot : BitVec 18) :
    AnswerKeeps w a (flowCommandGo m op slot s) := by
  unfold flowCommandGo
  repeat' first
    | with_reducible assumption
    | exact all_of hw rfl
    | with_reducible apply answerKeeps_next
    | intro _
    | with_reducible apply guardReg_keeps
    | with_reducible apply State.flowGo_keeps

theorem execFlowcmdLookup_keeps {w : Part → Bool} {a s : State}
    (hw : [Part.regs, .busReply, .saturated, .reports, .irqs, .cls].all w = true)
    (h : a.Keeps w s) (m : Master) (slot : BitVec 18) :
    AnswerKeeps w a (execFlowcmdLookup m slot s) := by
  unfold execFlowcmdLookup
  repeat' first
    | with_reducible assumption
    | exact all_of hw rfl
    | with_reducible apply flowCommandGo_keeps

theorem execFlowcmdInsert_keeps {w : Part → Bool} {a s : State}
    (hw : [Part.regs, .busReply, .saturated, .reports, .irqs, .cls].all w = true)
    (h : a.Keeps w s) (m : Master) (slot : BitVec 18) :
    AnswerKeeps w a (execFlowcmdInsert m slot s) := by
  unfold execFlowcmdInsert
  repeat' first
    | with_reducible assumption
    | exact all_of hw rfl
    | with_reducible apply flowCommandGo_keeps

theorem execFlowcmdDeleteKey_keeps {w : Part → Bool} {a s : State}
    (hw : [Part.regs, .busReply, .saturated, .reports, .irqs, .cls].all w = true)
    (h : a.Keeps w s) (m : Master) (slot : BitVec 18) :
    AnswerKeeps w a (execFlowcmdDeleteKey m slot s) := by
  unfold execFlowcmdDeleteKey
  repeat' first
    | with_reducible assumption
    | exact all_of hw rfl
    | with_reducible apply flowCommandGo_keeps

theorem execFlowcmdReadSlot_keeps {w : Part → Bool} {a s : State}
    (hw : [Part.regs, .busReply, .saturated, .reports, .irqs, .cls].all w = true)
    (h : a.Keeps w s) (m : Master) (slot : BitVec 18) :
    AnswerKeeps w a (execFlowcmdReadSlot m slot s) := by
  unfold execFlowcmdReadSlot
  repeat' first
    | with_reducible assumption
    | exact all_of hw rfl
    | with_reducible apply flowCommandGo_keeps

theorem execFlowcmdDeleteSlot_keeps {w : Part → Bool} {a s : State}
    (hw : [Part.regs, .busReply, .saturated, .reports, .irqs, .cls].all w = true)
    (h : a.Keeps w s) (m : Master) (slot : BitVec 18) :
    AnswerKeeps w a (execFlowcmdDeleteSlot m slot s) := by
  unfold execFlowcmdDeleteSlot
  repeat' first
    | with_reducible assumption
    | exact all_of hw rfl
    | with_reducible apply flowCommandGo_keeps

theorem execFlowcmdFlush_keeps {w : Part → Bool} {a s : State}
    (hw : [Part.regs, .busReply, .saturated, .reports, .irqs, .cls].all w = true)
    (h : a.Keeps w s) (m : Master) (slot : BitVec 18) :
    AnswerKeeps w a (execFlowcmdFlush m slot s) := by
  unfold execFlowcmdFlush
  repeat' first
    | with_reducible assumption
    | exact all_of hw rfl
    | with_reducible apply flowCommandGo_keeps

theorem execFlowQueueExecute_keeps {w : Part → Bool} {a s : State}
    (hw : [Part.regs, .saturated, .irqs, .cls, .rtk].all w = true) (h : a.Keeps w s) :
    AnswerKeeps w a (execFlowQueueExecute s) := by
  unfold execFlowQueueExecute
  repeat' first
    | with_reducible assumption
    | exact all_of hw rfl
    | with_reducible apply answerKeeps_next
    | intro _
    | with_reducible apply State.flowInsert_keeps
    | with_reducible apply State.flowCommand_keeps
    | with_reducible apply State.setBit_keeps
    | with_reducible apply State.setFld_keeps
    | with_reducible apply State.wakeRoom_keeps
    | with_reducible apply keeps_ite
    | with_reducible refine keeps_of_snd ?_ (by with_reducible assumption)
    | with_reducible refine keeps_of_fst ?_ (by with_reducible assumption)
    | dsimp only
    | split
    | with_reducible apply keeps_cls

theorem State.reportAged_keeps {w : Part → Bool} {a s : State}
    (hw : [Part.frames, .nextFrame].all w = true) (h : a.Keeps w s) (e : List Word) :
    a.Keeps w (State.reportAged s e) := by
  unfold State.reportAged
  repeat' first
    | with_reducible assumption
    | exact all_of hw rfl
    | intro _
    | with_reducible apply State.injectFrame_keeps
    | with_reducible apply State.toException_keeps
    | with_reducible apply State.setFrame_keeps
    | with_reducible apply keeps_ite
    | dsimp only
    | split
    | with_reducible exact Nat.le_add_right _ _
    | with_reducible refine keeps_free _ ?_ ?_

theorem execAgingSweep_keeps {w : Part → Bool} {a s : State}
    (hw : [Part.regs, .saturated, .frames, .nextFrame, .cls].all w = true) (h : a.Keeps w s)
    (slot : Fin 163840) :
    AnswerKeeps w a (execAgingSweep slot s) := by
  unfold execAgingSweep
  repeat' first
    | with_reducible assumption
    | exact all_of hw rfl
    | with_reducible apply answerKeeps_next
    | intro _
    | with_reducible apply State.bump_keeps
    | with_reducible apply State.setFlow_keeps
    | with_reducible apply State.reportAged_keeps
    | with_reducible apply keeps_ite

theorem execForcedRetireExpiry_keeps {w : Part → Bool} {a s : State}
    (hw : [Part.regs, .frames, .cls].all w = true) (h : a.Keeps w s) (g : Gen) :
    AnswerKeeps w a (execForcedRetireExpiry g s) := by
  unfold execForcedRetireExpiry
  repeat' first
    | with_reducible assumption
    | exact all_of hw rfl
    | with_reducible apply answerKeeps_next
    | intro _
    | with_reducible apply State.setGenState_keeps
    | with_reducible apply State.setFld_keeps
    | with_reducible apply keeps_ite
    | dsimp only
    | split
    | with_reducible apply keeps_frames_cls

theorem State.clearGenmask_keeps {w : Part → Bool} {a s : State} (hw : [Part.live].all w = true)
    (h : a.Keeps w s) (g : Nat) :
    a.Keeps w (State.clearGenmask s g) := by
  unfold State.clearGenmask
  repeat' first
    | with_reducible assumption
    | exact all_of hw rfl
    | intro _
    | with_reducible apply State.wrLive_keeps
    | with_reducible apply keeps_ite
    | with_reducible apply keeps_foldl

theorem execGenerationSweepDone_keeps {w : Part → Bool} {a s : State}
    (hw : [Part.regs, .live, .irqs, .cls].all w = true) (h : a.Keeps w s) (g : Gen) :
    AnswerKeeps w a (execGenerationSweepDone g s) := by
  unfold execGenerationSweepDone
  repeat' first
    | with_reducible assumption
    | exact all_of hw rfl
    | with_reducible apply answerKeeps_next
    | intro _
    | with_reducible apply State.setBit_keeps
    | with_reducible apply State.setGenState_keeps
    | with_reducible apply State.clearGenmask_keeps
    | with_reducible apply State.irq_keeps
    | with_reducible apply keeps_ite
    | dsimp only
    | split
    | with_reducible apply keeps_cls

theorem execTcamParityCheck_keeps {w : Part → Bool} {a s : State}
    (hw : [Part.regs, .reports, .cls].all w = true) (h : a.Keeps w s) (e : Fin 4096) (bad : Bool)
    :
    AnswerKeeps w a (execTcamParityCheck e bad s) := by
  unfold execTcamParityCheck
  repeat' first
    | with_reducible assumption
    | exact all_of hw rfl
    | with_reducible apply answerKeeps_next
    | intro _
    | with_reducible apply State.fault_keeps
    | with_reducible apply State.setBit_keeps
    | with_reducible apply State.setFld_keeps
    | with_reducible apply keeps_ite
    | dsimp only
    | split
    | with_reducible apply keeps_cls

end Sys2Proof.Machine
end

