-- ==== Sys2Proof/Laws/KeepsOperands.lean ====
section
/-!
SUPPORT. What the operations of Machine/Operands.lean can change, and what they keep.
-/

namespace Sys2Proof.Machine

open Sys2Proof

theorem State.storeValue_keeps {w0 : Part → Bool} {a s : State}
    (hw : [Part.regs, .rtk, .eccBad].all w0 = true) (h : a.Keeps w0 s) (t : Nat) (sp : MemSpace)
    (n : Nat) (ea : Nat) (th : Thread) (w : Word) :
    a.Keeps w0 (State.storeValue s t sp n ea th w) := by
  unfold State.storeValue
  repeat' first
    | with_reducible assumption
    | exact all_of hw rfl
    | intro _
    | with_reducible apply State.setThread_keeps
    | with_reducible apply State.setD_keeps
    | with_reducible apply keeps_ite
    | dsimp only
    | split

end Sys2Proof.Machine
end

