-- ==== Sys2Proof/Laws/KeepsRitikUnit.lean ====
section
/-!
SUPPORT. What the operations of Machine/RitikUnit.lean can change, and what they keep.
-/

namespace Sys2Proof.Machine

open Sys2Proof

theorem execYield_keeps {w : Part → Bool} {a s : State}
    (hw : [Part.regs, .saturated, .reports, .irqs, .frames, .rtk, .power, .wak].all w = true)
    (h : a.Keeps w s) (t : ThreadId) :
    AnswerKeeps w a (execYield t s) := by
  unfold execYield
  repeat' first
    | with_reducible assumption
    | exact all_of hw rfl
    | with_reducible apply answerKeeps_next
    | intro _
    | with_reducible apply State.issue_keeps
    | with_reducible apply State.setThread_keeps

theorem execTime_keeps {w : Part → Bool} {a s : State}
    (hw : [Part.regs, .saturated, .reports, .irqs, .frames, .rtk, .power, .wak].all w = true)
    (h : a.Keeps w s) (t : ThreadId) (rd : Gpr) (sel : Fin 4) (dom : Fin 4) :
    AnswerKeeps w a (execTime t rd sel dom s) := by
  unfold execTime
  repeat' first
    | with_reducible assumption
    | exact all_of hw rfl
    | with_reducible apply answerKeeps_next
    | intro _
    | with_reducible apply State.issue_keeps
    | with_reducible apply State.setThread_keeps

theorem execExit_keeps {w : Part → Bool} {a s : State}
    (hw : [Part.regs, .saturated, .reports, .irqs, .frames, .rtk, .power, .wak].all w = true)
    (h : a.Keeps w s) (t : ThreadId) :
    AnswerKeeps w a (execExit t s) := by
  unfold execExit
  repeat' first
    | with_reducible assumption
    | exact all_of hw rfl
    | with_reducible apply answerKeeps_next
    | intro _
    | with_reducible apply State.issue_keeps
    | with_reducible apply State.setThread_keeps

theorem execBrk_keeps {w : Part → Bool} {a s : State}
    (hw : [Part.regs, .saturated, .reports, .irqs, .frames, .rtk, .power, .wak].all w = true)
    (h : a.Keeps w s) (t : ThreadId) :
    AnswerKeeps w a (execBrk t s) := by
  unfold execBrk
  repeat' first
    | with_reducible assumption
    | exact all_of hw rfl
    | with_reducible apply answerKeeps_next
    | intro _
    | with_reducible apply State.issue_keeps
    | with_reducible apply State.setThread_keeps

theorem State.missResult_keeps {w : Part → Bool} {a s : State} (h : a.Keeps w s) (err : Bool)
    (tbl : Nat) :
    a.Keeps w (State.missResult s err tbl).2 := by
  unfold State.missResult
  repeat' first
    | with_reducible assumption
    | intro _
    | with_reducible apply keeps_ite
    | dsimp only
    | split
    | with_reducible exact Nat.le_add_right _ _
    | with_reducible refine keeps_free _ ?_ ?_

theorem execLkup_keeps {w : Part → Bool} {a s : State}
    (hw : [Part.regs, .saturated, .reports, .irqs, .frames, .rtk, .power, .wak].all w = true)
    (h : a.Keeps w s) (t : ThreadId) (ra : Gpr) (tbl : Fin 32) (m : Fin 64) (async : Bool) :
    AnswerKeeps w a (execLkup t ra tbl m async s) := by
  unfold execLkup
  repeat' first
    | with_reducible assumption
    | exact all_of hw rfl
    | with_reducible apply answerKeeps_next
    | intro _
    | with_reducible apply State.issue_keeps
    | with_reducible apply State.monEvent_keeps
    | with_reducible apply State.missResult_keeps
    | with_reducible apply State.bump_keeps
    | with_reducible apply State.setThread_keeps
    | with_reducible apply keeps_ite

theorem execWaitl_keeps {w : Part → Bool} {a s : State}
    (hw : [Part.regs, .saturated, .reports, .irqs, .frames, .rtk, .power, .wak].all w = true)
    (h : a.Keeps w s) (t : ThreadId) :
    AnswerKeeps w a (execWaitl t s) := by
  unfold execWaitl
  repeat' first
    | with_reducible assumption
    | exact all_of hw rfl
    | with_reducible apply answerKeeps_next
    | intro _
    | with_reducible apply State.issue_keeps
    | with_reducible apply State.setThread_keeps

theorem execMeter_keeps {w : Part → Bool} {a s : State}
    (hw : [Part.regs, .saturated, .reports, .irqs, .frames, .rtk, .power, .wak].all w = true)
    (h : a.Keeps w s) (t : ThreadId) (ra : Gpr) (m : Fin 64) (pre : Fin 4) :
    AnswerKeeps w a (execMeter t ra m pre s) := by
  unfold execMeter
  repeat' first
    | with_reducible assumption
    | exact all_of hw rfl
    | with_reducible apply answerKeeps_next
    | intro _
    | with_reducible apply State.issue_keeps
    | with_reducible apply State.setThread_keeps

theorem execCnt_keeps {w : Part → Bool} {a s : State}
    (hw : [Part.regs, .saturated, .reports, .irqs, .frames, .rtk, .power, .wak].all w = true)
    (h : a.Keeps w s) (t : ThreadId) (ra : Gpr) :
    AnswerKeeps w a (execCnt t ra s) := by
  unfold execCnt
  repeat' first
    | with_reducible assumption
    | exact all_of hw rfl
    | with_reducible apply answerKeeps_next
    | intro _
    | with_reducible apply State.issue_keeps
    | with_reducible apply State.bumpBy_keeps
    | with_reducible apply State.bump_keeps
    | with_reducible apply State.setThread_keeps

theorem execHpush_keeps {w : Part → Bool} {a s : State}
    (hw : [Part.regs, .saturated, .reports, .irqs, .frames, .rtk, .power, .wak].all w = true)
    (h : a.Keeps w s) (t : ThreadId) (ra : Gpr) (rb : Gpr) :
    AnswerKeeps w a (execHpush t ra rb s) := by
  unfold execHpush
  repeat' first
    | with_reducible assumption
    | exact all_of hw rfl
    | with_reducible apply answerKeeps_next
    | intro _
    | with_reducible apply State.issue_keeps
    | with_reducible apply State.setThread_keeps

theorem execHpop_keeps {w : Part → Bool} {a s : State}
    (hw : [Part.regs, .saturated, .reports, .irqs, .frames, .rtk, .power, .wak].all w = true)
    (h : a.Keeps w s) (t : ThreadId) (ra : Gpr) (rb : Gpr) :
    AnswerKeeps w a (execHpop t ra rb s) := by
  unfold execHpop
  repeat' first
    | with_reducible assumption
    | exact all_of hw rfl
    | with_reducible apply answerKeeps_next
    | intro _
    | with_reducible apply State.issue_keeps
    | with_reducible apply State.setThread_keeps

theorem execCsumh_keeps {w : Part → Bool} {a s : State}
    (hw : [Part.regs, .saturated, .reports, .irqs, .frames, .rtk, .power, .wak].all w = true)
    (h : a.Keeps w s) (t : ThreadId) (rd : Gpr) (ra : Gpr) (rb : Gpr) :
    AnswerKeeps w a (execCsumh t rd ra rb s) := by
  unfold execCsumh
  repeat' first
    | with_reducible assumption
    | exact all_of hw rfl
    | with_reducible apply answerKeeps_next
    | intro _
    | with_reducible apply State.issue_keeps
    | with_reducible apply State.setThread_keeps

theorem State.onFrame_keeps {w : Part → Bool} {a s : State} (hw : [Part.frames].all w = true)
    (h : a.Keeps w s) (th : Thread) (g : Frame → Frame) :
    a.Keeps w (State.onFrame s th g) := by
  unfold State.onFrame
  repeat' first
    | with_reducible assumption
    | exact all_of hw rfl
    | intro _
    | with_reducible apply State.setFrame_keeps
    | with_reducible apply keeps_ite
    | dsimp only
    | split

theorem execTsins_keeps {w : Part → Bool} {a s : State}
    (hw : [Part.regs, .saturated, .reports, .irqs, .frames, .rtk, .power, .wak].all w = true)
    (h : a.Keeps w s) (t : ThreadId) (ra : Gpr) (rb : Gpr) (fmt : Fin 4) (adj : Bool) :
    AnswerKeeps w a (execTsins t ra rb fmt adj s) := by
  unfold execTsins
  repeat' first
    | with_reducible assumption
    | exact all_of hw rfl
    | with_reducible apply answerKeeps_next
    | intro _
    | with_reducible apply State.issue_keeps
    | with_reducible apply State.onFrame_keeps
    | with_reducible apply State.setThread_keeps

theorem execSeal_keeps {w : Part → Bool} {a s : State}
    (hw : [Part.regs, .saturated, .reports, .irqs, .frames, .rtk, .power, .wak].all w = true)
    (h : a.Keeps w s) (t : ThreadId) (ra : Gpr) :
    AnswerKeeps w a (execSeal t ra s) := by
  unfold execSeal
  repeat' first
    | with_reducible assumption
    | exact all_of hw rfl
    | with_reducible apply answerKeeps_next
    | intro _
    | with_reducible apply State.issue_keeps
    | with_reducible apply State.onFrame_keeps
    | with_reducible apply State.setThread_keeps

theorem execLearn_keeps {w : Part → Bool} {a s : State}
    (hw : [Part.regs, .saturated, .reports, .irqs, .frames, .cls, .rtk, .power, .wak].all w = true)
    (h : a.Keeps w s) (t : ThreadId) (ra : Gpr) (rb : Gpr) :
    AnswerKeeps w a (execLearn t ra rb s) := by
  unfold execLearn
  repeat' first
    | with_reducible assumption
    | exact all_of hw rfl
    | with_reducible apply answerKeeps_next
    | intro _
    | with_reducible apply State.issue_keeps
    | with_reducible apply State.setThread_keeps
    | with_reducible apply keeps_ite
    | dsimp only
    | split
    | with_reducible apply keeps_cls

theorem execFwd_keeps {w : Part → Bool} {a s : State}
    (hw : [Part.regs, .saturated, .reports, .irqs, .frames, .rtk, .power, .wak].all w = true)
    (h : a.Keeps w s) (t : ThreadId) :
    AnswerKeeps w a (execFwd t s) := by
  unfold execFwd
  repeat' first
    | with_reducible assumption
    | exact all_of hw rfl
    | with_reducible apply answerKeeps_next
    | intro _
    | with_reducible apply State.issue_keeps
    | with_reducible apply State.onFrame_keeps
    | with_reducible apply State.setThread_keeps

theorem execDrop_keeps {w : Part → Bool} {a s : State}
    (hw : [Part.regs, .saturated, .reports, .irqs, .frames, .rtk, .power, .wak].all w = true)
    (h : a.Keeps w s) (t : ThreadId) (why : BitVec 8) :
    AnswerKeeps w a (execDrop t why s) := by
  unfold execDrop
  repeat' first
    | with_reducible assumption
    | exact all_of hw rfl
    | with_reducible apply answerKeeps_next
    | intro _
    | with_reducible apply State.issue_keeps
    | with_reducible apply State.bump_keeps
    | with_reducible apply State.setThread_keeps
    | with_reducible apply State.dropFrame_keeps
    | with_reducible apply keeps_ite
    | dsimp only
    | split

theorem execTrap_keeps {w : Part → Bool} {a s : State}
    (hw : [Part.regs, .saturated, .reports, .irqs, .frames, .rtk, .power, .wak].all w = true)
    (h : a.Keeps w s) (t : ThreadId) (code : BitVec 8) (tgt : Bool) :
    AnswerKeeps w a (execTrap t code tgt s) := by
  unfold execTrap
  repeat' first
    | with_reducible assumption
    | exact all_of hw rfl
    | with_reducible apply answerKeeps_next
    | intro _
    | with_reducible apply State.issue_keeps
    | with_reducible apply State.bump_keeps
    | with_reducible apply State.setThread_keeps
    | with_reducible apply State.onFrame_keeps
    | with_reducible apply State.toException_keeps
    | with_reducible apply keeps_ite
    | dsimp only
    | split

theorem execRecirc_keeps {w : Part → Bool} {a s : State}
    (hw : [Part.regs, .saturated, .reports, .irqs, .frames, .rtk, .power, .wak].all w = true)
    (h : a.Keeps w s) (t : ThreadId) (ra : Gpr) (st : Bool) :
    AnswerKeeps w a (execRecirc t ra st s) := by
  unfold execRecirc
  repeat' first
    | with_reducible assumption
    | exact all_of hw rfl
    | with_reducible apply answerKeeps_next
    | intro _
    | with_reducible apply State.issue_keeps
    | with_reducible apply State.setThread_keeps
    | with_reducible apply State.engineException_keeps
    | with_reducible apply State.bump_keeps
    | with_reducible apply State.monEvent_keeps
    | with_reducible apply State.setFrame_keeps
    | with_reducible apply keeps_ite
    | dsimp only
    | split

theorem execSns_keeps {w : Part → Bool} {a s : State}
    (hw : [Part.regs, .saturated, .reports, .irqs, .frames, .rtk, .power, .wak].all w = true)
    (h : a.Keeps w s) (t : ThreadId) (rd : Gpr) (ra : Gpr) (q : Fin 4) :
    AnswerKeeps w a (execSns t rd ra q s) := by
  unfold execSns
  repeat' first
    | with_reducible assumption
    | exact all_of hw rfl
    | with_reducible apply answerKeeps_next
    | intro _
    | with_reducible apply State.issue_keeps
    | with_reducible apply State.setThread_keeps

theorem execTick_keeps {w : Part → Bool} {a s : State}
    (hw : [Part.regs, .saturated, .reports, .irqs, .frames, .rtk, .power, .wak].all w = true)
    (h : a.Keeps w s) (t : ThreadId) :
    AnswerKeeps w a (execTick t s) := by
  unfold execTick
  repeat' first
    | with_reducible assumption
    | exact all_of hw rfl
    | with_reducible apply answerKeeps_next
    | intro _
    | with_reducible apply State.issue_keeps
    | with_reducible apply State.setFld_keeps
    | with_reducible apply State.setThread_keeps
    | with_reducible apply State.fault_keeps
    | with_reducible apply keeps_ite

theorem State.ignoreTaken_keeps {w : Part → Bool} {a s : State}
    (hw : [Part.regs, .saturated, .wak].all w = true) (h : a.Keeps w s) :
    a.Keeps w (State.ignoreTaken s) := by
  unfold State.ignoreTaken
  repeat' first
    | with_reducible assumption
    | exact all_of hw rfl
    | intro _
    | with_reducible apply State.bump_keeps
    | with_reducible apply State.setBit_keeps
    | with_reducible apply keeps_ite
    | dsimp only
    | split
    | with_reducible apply keeps_wak

theorem execWaite_keeps {w : Part → Bool} {a s : State}
    (hw : [Part.regs, .saturated, .reports, .irqs, .frames, .rtk, .power, .wak].all w = true)
    (h : a.Keeps w s) (t : ThreadId) (rd : Gpr) (ra : Gpr) :
    AnswerKeeps w a (execWaite t rd ra s) := by
  unfold execWaite
  repeat' first
    | with_reducible assumption
    | exact all_of hw rfl
    | with_reducible apply answerKeeps_next
    | intro _
    | with_reducible apply State.issue_keeps
    | with_reducible apply State.ignoreTaken_keeps
    | with_reducible apply State.setThread_keeps
    | with_reducible apply keeps_ite
    | dsimp only
    | split
    | with_reducible apply keeps_wak

theorem State.pdcmd_keeps {w : Part → Bool} {a s : State}
    (hw : [Part.regs, .saturated, .reports, .irqs, .frames, .rtk, .power, .wak].all w = true)
    (h : a.Keeps w s) (t : ThreadId) (code : Nat) (dieWide : Bool) (ra : Gpr) (rb : Gpr) :
    a.Keeps w (State.pdcmd s t code dieWide ra rb) := by
  unfold State.pdcmd
  repeat' first
    | with_reducible assumption
    | exact all_of hw rfl
    | intro _
    | with_reducible apply State.issue_keeps
    | with_reducible apply State.setDie_keeps
    | with_reducible apply State.setThread_keeps

theorem execOn_keeps {w : Part → Bool} {a s : State}
    (hw : [Part.regs, .saturated, .reports, .irqs, .frames, .rtk, .power, .wak].all w = true)
    (h : a.Keeps w s) (t : ThreadId) (ra : Gpr) (rb : Gpr) :
    AnswerKeeps w a (execOn t ra rb s) := by
  unfold execOn
  repeat' first
    | with_reducible assumption
    | exact all_of hw rfl
    | with_reducible apply answerKeeps_next
    | intro _
    | with_reducible apply State.pdcmd_keeps

theorem execOff_keeps {w : Part → Bool} {a s : State}
    (hw : [Part.regs, .saturated, .reports, .irqs, .frames, .rtk, .power, .wak].all w = true)
    (h : a.Keeps w s) (t : ThreadId) (ra : Gpr) (rb : Gpr) :
    AnswerKeeps w a (execOff t ra rb s) := by
  unfold execOff
  repeat' first
    | with_reducible assumption
    | exact all_of hw rfl
    | with_reducible apply answerKeeps_next
    | intro _
    | with_reducible apply State.pdcmd_keeps

theorem execDuty_keeps {w : Part → Bool} {a s : State}
    (hw : [Part.regs, .saturated, .reports, .irqs, .frames, .rtk, .power, .wak].all w = true)
    (h : a.Keeps w s) (t : ThreadId) (ra : Gpr) (rb : Gpr) :
    AnswerKeeps w a (execDuty t ra rb s) := by
  unfold execDuty
  repeat' first
    | with_reducible assumption
    | exact all_of hw rfl
    | with_reducible apply answerKeeps_next
    | intro _
    | with_reducible apply State.pdcmd_keeps

theorem execTrip_keeps {w : Part → Bool} {a s : State}
    (hw : [Part.regs, .saturated, .reports, .irqs, .frames, .rtk, .power, .wak].all w = true)
    (h : a.Keeps w s) (t : ThreadId) (ra : Gpr) (rb : Gpr) :
    AnswerKeeps w a (execTrip t ra rb s) := by
  unfold execTrip
  repeat' first
    | with_reducible assumption
    | exact all_of hw rfl
    | with_reducible apply answerKeeps_next
    | intro _
    | with_reducible apply State.pdcmd_keeps

theorem execClear_keeps {w : Part → Bool} {a s : State}
    (hw : [Part.regs, .saturated, .reports, .irqs, .frames, .rtk, .power, .wak].all w = true)
    (h : a.Keeps w s) (t : ThreadId) (ra : Gpr) (rb : Gpr) :
    AnswerKeeps w a (execClear t ra rb s) := by
  unfold execClear
  repeat' first
    | with_reducible assumption
    | exact all_of hw rfl
    | with_reducible apply answerKeeps_next
    | intro _
    | with_reducible apply State.pdcmd_keeps

theorem execThmode_keeps {w : Part → Bool} {a s : State}
    (hw : [Part.regs, .saturated, .reports, .irqs, .frames, .rtk, .power, .wak].all w = true)
    (h : a.Keeps w s) (t : ThreadId) (ra : Gpr) (rb : Gpr) :
    AnswerKeeps w a (execThmode t ra rb s) := by
  unfold execThmode
  repeat' first
    | with_reducible assumption
    | exact all_of hw rfl
    | with_reducible apply answerKeeps_next
    | intro _
    | with_reducible apply State.pdcmd_keeps

theorem execHold_keeps {w : Part → Bool} {a s : State}
    (hw : [Part.regs, .saturated, .reports, .irqs, .frames, .rtk, .power, .wak].all w = true)
    (h : a.Keeps w s) (t : ThreadId) (ra : Gpr) (rb : Gpr) :
    AnswerKeeps w a (execHold t ra rb s) := by
  unfold execHold
  repeat' first
    | with_reducible assumption
    | exact all_of hw rfl
    | with_reducible apply answerKeeps_next
    | intro _
    | with_reducible apply State.pdcmd_keeps

theorem execAttach_keeps {w : Part → Bool} {a s : State}
    (hw : [Part.regs, .saturated, .reports, .irqs, .frames, .rtk, .power, .wak].all w = true)
    (h : a.Keeps w s) (t : ThreadId) (ra : Gpr) (rb : Gpr) :
    AnswerKeeps w a (execAttach t ra rb s) := by
  unfold execAttach
  repeat' first
    | with_reducible assumption
    | exact all_of hw rfl
    | with_reducible apply answerKeeps_next
    | intro _
    | with_reducible apply State.pdcmd_keeps

theorem execRunoutclr_keeps {w : Part → Bool} {a s : State}
    (hw : [Part.regs, .saturated, .reports, .irqs, .frames, .rtk, .power, .wak].all w = true)
    (h : a.Keeps w s) (t : ThreadId) (ra : Gpr) (rb : Gpr) :
    AnswerKeeps w a (execRunoutclr t ra rb s) := by
  unfold execRunoutclr
  repeat' first
    | with_reducible assumption
    | exact all_of hw rfl
    | with_reducible apply answerKeeps_next
    | intro _
    | with_reducible apply State.pdcmd_keeps

theorem execCalgain_keeps {w : Part → Bool} {a s : State}
    (hw : [Part.regs, .saturated, .reports, .irqs, .frames, .rtk, .power, .wak].all w = true)
    (h : a.Keeps w s) (t : ThreadId) (ra : Gpr) (rb : Gpr) :
    AnswerKeeps w a (execCalgain t ra rb s) := by
  unfold execCalgain
  repeat' first
    | with_reducible assumption
    | exact all_of hw rfl
    | with_reducible apply answerKeeps_next
    | intro _
    | with_reducible apply State.pdcmd_keeps

end Sys2Proof.Machine
end

