-- ==== Sys2Proof/Laws/KeepsEngine.lean ====
section
/-!
SUPPORT. What the operations of Machine/Engine.lean can change, and what they keep.
-/

namespace Sys2Proof.Machine

open Sys2Proof

theorem State.setDispatchQueue_keeps {w : Part → Bool} {a s : State}
    (hw : [Part.rtk].all w = true) (h : a.Keeps w s) (t : Nat) (l : List Nat) :
    a.Keeps w (State.setDispatchQueue s t l) := by
  unfold State.setDispatchQueue
  repeat' first
    | with_reducible assumption
    | exact all_of hw rfl
    | intro _
    | with_reducible apply keeps_ite
    | dsimp only
    | split
    | with_reducible apply keeps_rtk

theorem State.setLaneStall_keeps {w : Part → Bool} {a s : State} (hw : [Part.cls].all w = true)
    (h : a.Keeps w s) (lane : Nat) (f : Option Nat) :
    a.Keeps w (State.setLaneStall s lane f) := by
  unfold State.setLaneStall
  repeat' first
    | with_reducible assumption
    | exact all_of hw rfl
    | intro _
    | with_reducible apply keeps_ite
    | dsimp only
    | split
    | with_reducible apply keeps_cls

theorem State.offline_keeps {w : Part → Bool} {a s : State}
    (hw : [Part.regs, .saturated, .frames].all w = true) (h : a.Keeps w s) (f : Nat) (v : Frame) :
    a.Keeps w (State.offline s f v) := by
  unfold State.offline
  repeat' first
    | with_reducible assumption
    | exact all_of hw rfl
    | intro _
    | with_reducible apply State.engineException_keeps
    | with_reducible apply State.bump_keeps

theorem execFrameDispatch_keeps {w : Part → Bool} {a s : State}
    (hw : [Part.regs, .saturated, .irqs, .frames, .cls, .rtk].all w = true) (h : a.Keeps w s)
    (f : FrameId) :
    AnswerKeeps w a (execFrameDispatch f s) := by
  unfold execFrameDispatch
  repeat' first
    | with_reducible assumption
    | exact all_of hw rfl
    | with_reducible apply answerKeeps_next
    | intro _
    | with_reducible apply State.offline_keeps
    | with_reducible apply State.setLaneStall_keeps
    | with_reducible apply State.monEvent_keeps
    | with_reducible apply State.bump_keeps
    | with_reducible apply State.setFrame_keeps
    | with_reducible apply State.setDispatchQueue_keeps
    | with_reducible apply keeps_ite
    | dsimp only
    | split

theorem State.startProgram_keeps {w : Part → Bool} {a s : State}
    (hw : [Part.regs, .saturated, .reports, .irqs, .frames, .rtk, .power, .wak].all w = true)
    (h : a.Keeps w s) (t : Nat) (f : Nat) (v : Frame) :
    a.Keeps w (State.startProgram s t f v) := by
  unfold State.startProgram
  repeat' first
    | with_reducible assumption
    | exact all_of hw rfl
    | intro _
    | with_reducible apply State.setFrame_keeps
    | with_reducible apply State.setThread_keeps
    | with_reducible apply State.trapAt_keeps
    | with_reducible apply keeps_ite

theorem execThreadStart_keeps {w : Part → Bool} {a s : State}
    (hw : [Part.regs, .saturated, .reports, .irqs, .frames, .rtk, .power, .wak].all w = true)
    (h : a.Keeps w s) (t : ThreadId) :
    AnswerKeeps w a (execThreadStart t s) := by
  unfold execThreadStart
  repeat' first
    | with_reducible assumption
    | exact all_of hw rfl
    | with_reducible apply answerKeeps_next
    | intro _
    | with_reducible apply State.setDispatchQueue_keeps
    | with_reducible apply State.genLost_keeps
    | with_reducible apply State.offline_keeps
    | with_reducible apply State.engineException_keeps
    | with_reducible apply State.bump_keeps
    | with_reducible apply State.startProgram_keeps
    | with_reducible apply keeps_ite
    | dsimp only
    | split

theorem State.flowRequest_keeps {w : Part → Bool} {a s : State} (h : a.Keeps w s)
    (key : List Byte) :
    a.Keeps w (State.flowRequest s key).2 := by
  unfold State.flowRequest
  repeat' first
    | with_reducible assumption
    | intro _
    | with_reducible apply State.missResult_keeps
    | with_reducible apply keeps_ite
    | with_reducible refine keeps_of_snd ?_ (by with_reducible assumption)
    | with_reducible refine keeps_of_fst ?_ (by with_reducible assumption)
    | dsimp only
    | split

theorem State.tableFault_keeps {w : Part → Bool} {a0 s : State}
    (hw : [Part.regs, .saturated, .reports, .irqs].all w = true) (h : a0.Keeps w s) (a : Nat) :
    a0.Keeps w (State.tableFault s a) := by
  unfold State.tableFault
  repeat' first
    | with_reducible assumption
    | exact all_of hw rfl
    | intro _
    | with_reducible apply State.bump_keeps
    | with_reducible apply State.badRead_keeps
    | with_reducible apply keeps_ite
    | dsimp only
    | split

theorem State.bucketSearch_keeps {w : Part → Bool} {a0 s : State}
    (hw : [Part.regs, .saturated, .reports, .irqs].all w = true) (h : a0.Keeps w s) (tbl a : Nat)
    (key : List Byte) (fs : List Nat) : a0.Keeps w (State.bucketSearch s tbl a key fs).2 := by
  induction fs generalizing s with
  | nil => exact State.missResult_keeps h _ _
  | cons f rest ih =>
    unfold State.bucketSearch
    split
    · rw [Prod.map_snd]
      exact State.tableFault_keeps (all_of hw rfl) (State.missResult_keeps h _ _) _
    · split
      · exact h
      · exact ih h

theorem State.lookupResult_keeps {w : Part → Bool} {a s : State}
    (hw : [Part.regs, .saturated, .reports, .irqs].all w = true) (h : a.Keeps w s) (gen : Nat)
    (r : Request) :
    a.Keeps w (State.lookupResult s gen r).2 := by
  unfold State.lookupResult
  repeat' first
    | with_reducible assumption
    | exact all_of hw rfl
    | intro _
    | with_reducible apply State.flowRequest_keeps
    | with_reducible apply State.bump_keeps
    | with_reducible apply State.missResult_keeps
    | with_reducible apply State.tableFault_keeps
    | with_reducible apply State.bucketSearch_keeps
    | with_reducible apply keeps_ite
    | with_reducible apply keeps_dite
    | with_reducible refine keeps_of_snd ?_ (by with_reducible assumption)
    | with_reducible refine keeps_of_fst ?_ (by with_reducible assumption)
    | rw [Prod.map_snd]
    | dsimp only
    | split

theorem execLookupComplete_keeps {w : Part → Bool} {a s : State}
    (hw : [Part.regs, .saturated, .reports, .irqs, .rtk, .tm].all w = true) (h : a.Keeps w s)
    (t : ThreadId) (i : Fin 2) :
    AnswerKeeps w a (execLookupComplete t i s) := by
  unfold execLookupComplete
  repeat' first
    | with_reducible assumption
    | exact all_of hw rfl
    | with_reducible apply answerKeeps_next
    | intro _
    | with_reducible apply State.meterUpdate_keeps
    | with_reducible apply State.bump_keeps
    | with_reducible apply State.missResult_keeps
    | with_reducible apply State.lookupResult_keeps
    | with_reducible apply State.setThread_keeps
    | with_reducible apply State.wakeRoom_keeps
    | with_reducible apply keeps_ite
    | with_reducible apply keeps_foldl
    | with_reducible apply keeps_foldl_fst
    | with_reducible apply keeps_foldl_snd
    | with_reducible refine keeps_of_snd ?_ (by with_reducible assumption)
    | with_reducible refine keeps_of_fst ?_ (by with_reducible assumption)
    | rw [Prod.map_snd]
    | dsimp only
    | split

theorem execProgramBudgetExpiry_keeps {w : Part → Bool} {a s : State}
    (hw : [Part.regs, .saturated, .reports, .irqs, .frames, .rtk, .power, .wak].all w = true)
    (h : a.Keeps w s) (t : ThreadId) :
    AnswerKeeps w a (execProgramBudgetExpiry t s) := by
  unfold execProgramBudgetExpiry
  repeat' first
    | with_reducible assumption
    | exact all_of hw rfl
    | with_reducible apply answerKeeps_next
    | intro _
    | with_reducible apply State.monEvent_keeps
    | with_reducible apply State.trapNow_keeps
    | with_reducible apply keeps_ite
    | dsimp only
    | split

end Sys2Proof.Machine
end

