-- ==== Sys2Proof/Laws/KeepsPrefetchOps.lean ====
section
/-!
SUPPORT. What the operations of Machine/PrefetchOps.lean can change, and what they keep.
-/

namespace Sys2Proof.Machine

open Sys2Proof

theorem State.hbrIrq_keeps {w : Part → Bool} {a s : State} (hw : [Part.regs, .irqs].all w = true)
    (h : a.Keeps w s) (b : Nat) :
    a.Keeps w (State.hbrIrq s b) := by
  unfold State.hbrIrq
  repeat' first
    | with_reducible assumption
    | exact all_of hw rfl
    | intro _
    | with_reducible apply State.irq_keeps
    | with_reducible apply State.setBit_keeps

theorem State.dropPrefetch_keeps {w : Part → Bool} {a s : State}
    (hw : [Part.regs, .saturated, .irqs].all w = true) (h : a.Keeps w s) (x : PfBlock) :
    a.Keeps w (State.dropPrefetch s x) := by
  unfold State.dropPrefetch
  repeat' first
    | with_reducible assumption
    | exact all_of hw rfl
    | intro _
    | with_reducible apply State.wrN_keeps
    | with_reducible apply State.monEvent_keeps
    | with_reducible apply State.bump_keeps
    | with_reducible apply State.hbrIrq_keeps
    | with_reducible apply keeps_ite

theorem State.discardPrefetch_keeps {w : Part → Bool} {a s : State}
    (hw : [Part.regs, .saturated, .irqs, .hbr].all w = true) (h : a.Keeps w s)
    (f : PfBlock → Bool) :
    a.Keeps w (State.discardPrefetch s f) := by
  unfold State.discardPrefetch
  repeat' first
    | with_reducible assumption
    | exact all_of hw rfl
    | intro _
    | with_reducible apply State.dropPrefetch_keeps
    | with_reducible apply keeps_ite
    | with_reducible apply keeps_foldl
    | dsimp only
    | split
    | with_reducible apply keeps_hbr

end Sys2Proof.Machine
end

