-- ==== Sys2Proof/Laws/KeepsCommit.lean ====
section
/-!
SUPPORT. What the operations of Machine/Commit.lean can change, and what they keep.
-/

namespace Sys2Proof.Machine

open Sys2Proof

theorem State.clearBad_keeps {w : Part → Bool} {a s : State} (hw : [Part.eccBad].all w = true)
    (h : a.Keeps w s) (bank : Nat) (lo : Nat) (hi : Nat) :
    a.Keeps w (State.clearBad s bank lo hi) := by
  unfold State.clearBad
  repeat' first
    | with_reducible assumption
    | exact all_of hw rfl
    | intro _
    | with_reducible apply keeps_ite
    | dsimp only
    | split
    | with_reducible apply keeps_eccBad

theorem State.load_keeps {w : Part → Bool} {a s : State} (hw : [Part.live, .eccBad].all w = true)
    (h : a.Keeps w s) (bank : Nat) (lo : Nat) (hi : Nat) :
    a.Keeps w (State.load s bank lo hi) := by
  unfold State.load
  repeat' first
    | with_reducible assumption
    | exact all_of hw rfl
    | intro _
    | with_reducible apply State.clearBad_keeps
    | with_reducible apply State.shadowToLive_keeps

theorem State.tcamCommitEntry_keeps {w : Part → Bool} {a s : State}
    (hw : [Part.live, .cls].all w = true) (h : a.Keeps w s) (n : Nat) (e : Nat) :
    a.Keeps w (State.tcamCommitEntry s n e).2 := by
  unfold State.tcamCommitEntry
  repeat' first
    | with_reducible assumption
    | exact all_of hw rfl
    | intro _
    | with_reducible apply State.wrLive_keeps
    | with_reducible apply keeps_ite
    | with_reducible apply keeps_foldl
    | with_reducible apply keeps_foldl_fst
    | with_reducible apply keeps_foldl_snd
    | dsimp only
    | split
    | with_reducible apply keeps_cls

theorem State.tcamCommit_keeps {w : Part → Bool} {a s : State}
    (hw : [Part.regs, .live, .cls].all w = true) (h : a.Keeps w s) (n : Nat) :
    a.Keeps w (State.tcamCommit s n) := by
  unfold State.tcamCommit
  repeat' first
    | with_reducible assumption
    | exact all_of hw rfl
    | intro _
    | with_reducible apply State.tcamCommitEntry_keeps
    | with_reducible apply State.setFld_keeps
    | with_reducible apply keeps_ite
    | with_reducible apply keeps_foldl
    | with_reducible apply keeps_foldl_fst

theorem State.stageTable_keeps {w : Part → Bool} {a s : State} (hw : [Part.cls].all w = true)
    (h : a.Keeps w s) (b : Nat) (t : Nat) :
    a.Keeps w (State.stageTable s b t) := by
  unfold State.stageTable
  repeat' first
    | with_reducible assumption
    | exact all_of hw rfl
    | intro _
    | with_reducible apply keeps_ite
    | dsimp only
    | split
    | with_reducible apply keeps_cls

theorem State.copyGenmask_keeps {w : Part → Bool} {a s : State} (hw : [Part.live].all w = true)
    (h : a.Keeps w s) (old : Nat) (n : Nat) :
    a.Keeps w (State.copyGenmask s old n) := by
  unfold State.copyGenmask
  repeat' first
    | with_reducible assumption
    | exact all_of hw rfl
    | intro _
    | with_reducible apply State.wrLive_keeps
    | with_reducible apply keeps_ite
    | with_reducible apply keeps_foldl

theorem State.advance_keeps {w : Part → Bool} {a s : State}
    (hw : [Part.regs, .live, .saturated, .irqs, .cls].all w = true) (h : a.Keeps w s) :
    a.Keeps w (State.advance s) := by
  unfold State.advance
  repeat' first
    | with_reducible assumption
    | exact all_of hw rfl
    | intro _
    | with_reducible apply State.liveToLive_keeps
    | with_reducible apply State.copyGenmask_keeps
    | with_reducible apply State.setGenState_keeps
    | with_reducible apply State.setFld_keeps
    | with_reducible apply State.monEvent_keeps
    | with_reducible apply keeps_ite
    | with_reducible apply keeps_foldl
    | with_reducible apply keeps_foldl_fst
    | with_reducible apply keeps_foldl_snd
    | dsimp only
    | split
    | with_reducible apply keeps_cls

theorem State.frerCommit_keeps {w : Part → Bool} {a s : State} (hw : [Part.tm].all w = true)
    (h : a.Keeps w s) (old : State) :
    a.Keeps w (State.frerCommit s old) := by
  unfold State.frerCommit
  repeat' first
    | with_reducible assumption
    | exact all_of hw rfl
    | intro _
    | with_reducible apply State.enableFrer_keeps
    | with_reducible apply State.setFrer_keeps
    | with_reducible apply keeps_ite
    | with_reducible apply keeps_foldl

theorem State.latchList_keeps {w : Part → Bool} {a s : State}
    (hw : [Part.regs, .live, .tm].all w = true) (h : a.Keeps w s) (p : Nat) :
    a.Keeps w (State.latchList s p) := by
  unfold State.latchList
  repeat' first
    | with_reducible assumption
    | exact all_of hw rfl
    | intro _
    | with_reducible apply State.shadowToLive_keeps
    | with_reducible apply State.setBit_keeps
    | with_reducible apply State.setTmPort_keeps
    | with_reducible apply keeps_ite

theorem State.dropWindows_keeps {w : Part → Bool} {a s : State}
    (hw : [Part.regs, .saturated, .irqs, .hbr].all w = true) (h : a.Keeps w s) :
    a.Keeps w (State.dropWindows s) := by
  unfold State.dropWindows
  repeat' first
    | with_reducible assumption
    | exact all_of hw rfl
    | intro _
    | with_reducible apply State.discardPrefetch_keeps
    | with_reducible apply keeps_ite
    | dsimp only
    | split
    | with_reducible apply keeps_hbr

theorem State.commitApply_keeps {w : Part → Bool} {a s : State}
    (hw : [Part.regs, .live, .saturated, .irqs, .cls, .eccBad, .tm, .hbr].all w = true)
    (h : a.Keeps w s) (b : Nat) (t : Nat) (i : Nat) :
    a.Keeps w (State.commitApply s b t i) := by
  unfold State.commitApply
  repeat' first
    | with_reducible assumption
    | exact all_of hw rfl
    | intro _
    | with_reducible apply State.advance_keeps
    | with_reducible apply State.stageTable_keeps
    | with_reducible apply State.tcamCommit_keeps
    | with_reducible apply State.load_keeps
    | with_reducible apply State.latchList_keeps
    | with_reducible apply State.frerCommit_keeps
    | with_reducible apply State.dropWindows_keeps
    | with_reducible apply keeps_ite
    | dsimp only
    | split

theorem State.commitGo_keeps {w : Part → Bool} {a s : State}
    (hw : [Part.regs, .live, .commits, .saturated, .irqs, .cls, .eccBad, .tm, .hbr].all w = true)
    (h : a.Keeps w s) (b : Nat) (t : Nat) (i : Nat) (mode : Nat) :
    a.Keeps w (State.commitGo s b t i mode) := by
  unfold State.commitGo
  repeat' first
    | with_reducible assumption
    | exact all_of hw rfl
    | intro _
    | with_reducible apply State.setBit_keeps
    | with_reducible apply State.setFld_keeps
    | with_reducible apply State.commitApply_keeps
    | with_reducible apply State.setCommit_keeps
    | with_reducible apply keeps_ite
    | with_reducible apply keeps_dite
    | dsimp only
    | split

theorem commitRow_keeps {w : Part → Bool} {a s : State}
    (hw : [Part.regs, .live, .busReply, .commits, .saturated, .reports, .irqs, .cls,
      .eccBad, .tm, .hbr].all w = true)
    (h : a.Keeps w s) (m : Master) (blk : Fin 128) (table : BitVec 8) (index : BitVec 8)
    (mode : Nat) :
    AnswerKeeps w a (commitRow m blk table index mode s) := by
  unfold commitRow
  repeat' first
    | with_reducible assumption
    | exact all_of hw rfl
    | with_reducible apply answerKeeps_next
    | intro _
    | with_reducible apply guardReg_keeps
    | with_reducible apply State.commitGo_keeps

theorem execCommitImmediate_keeps {w : Part → Bool} {a s : State}
    (hw : [Part.regs, .live, .busReply, .commits, .saturated, .reports, .irqs, .cls,
      .eccBad, .tm, .hbr].all w = true)
    (h : a.Keeps w s) (m : Master) (blk : Fin 128) (table : BitVec 8) (index : BitVec 8) :
    AnswerKeeps w a (execCommitImmediate m blk table index s) := by
  unfold execCommitImmediate
  repeat' first
    | with_reducible assumption
    | exact all_of hw rfl
    | with_reducible apply commitRow_keeps

theorem execCommitTimed_keeps {w : Part → Bool} {a s : State}
    (hw : [Part.regs, .live, .busReply, .commits, .saturated, .reports, .irqs, .cls,
      .eccBad, .tm, .hbr].all w = true)
    (h : a.Keeps w s) (m : Master) (blk : Fin 128) (table : BitVec 8) (index : BitVec 8) :
    AnswerKeeps w a (execCommitTimed m blk table index s) := by
  unfold execCommitTimed
  repeat' first
    | with_reducible assumption
    | exact all_of hw rfl
    | with_reducible apply commitRow_keeps

theorem execCommitGeneration_keeps {w : Part → Bool} {a s : State}
    (hw : [Part.regs, .live, .busReply, .commits, .saturated, .reports, .irqs, .cls,
      .eccBad, .tm, .hbr].all w = true)
    (h : a.Keeps w s) (m : Master) (blk : Fin 128) (table : BitVec 8) (index : BitVec 8) :
    AnswerKeeps w a (execCommitGeneration m blk table index s) := by
  unfold execCommitGeneration
  repeat' first
    | with_reducible assumption
    | exact all_of hw rfl
    | with_reducible apply commitRow_keeps

theorem State.copyBack_keeps {w : Part → Bool} {a s : State} (hw : [Part.regs].all w = true)
    (h : a.Keeps w s) (b : Nat) (c : CommitState) :
    a.Keeps w (State.copyBack s b c) := by
  unfold State.copyBack
  repeat' first
    | with_reducible assumption
    | exact all_of hw rfl
    | intro _
    | with_reducible apply State.liveToShadow_keeps
    | with_reducible apply keeps_ite
    | dsimp only
    | split

theorem execCommitDone_keeps {w : Part → Bool} {a s : State}
    (hw : [Part.regs, .commits].all w = true) (h : a.Keeps w s) (blk : Fin 128) :
    AnswerKeeps w a (execCommitDone blk s) := by
  unfold execCommitDone
  repeat' first
    | with_reducible assumption
    | exact all_of hw rfl
    | with_reducible apply answerKeeps_next
    | intro _
    | with_reducible apply State.setCommit_keeps
    | with_reducible apply State.setBit_keeps
    | with_reducible apply State.copyBack_keeps
    | with_reducible apply keeps_ite

end Sys2Proof.Machine
end

