-- ==== Sys2Proof/Laws/KeepsBridgeOps.lean ====
section
/-!
SUPPORT. What the operations of Machine/BridgeOps.lean can change, and what they keep.
-/

namespace Sys2Proof.Machine

open Sys2Proof

theorem State.hbrLog_keeps {w : Part → Bool} {a s : State}
    (hw : [Part.regs, .saturated, .reports].all w = true) (h : a.Keeps w s) (type : Nat)
    (e : HbrError) :
    a.Keeps w (State.hbrLog s type e) := by
  unfold State.hbrLog
  repeat' first
    | with_reducible assumption
    | exact all_of hw rfl
    | intro _
    | with_reducible apply State.setFld_keeps
    | with_reducible apply State.wrN_keeps
    | with_reducible apply State.fault_keeps
    | with_reducible apply State.bump_keeps
    | with_reducible apply keeps_ite

theorem State.sendPosted_keeps {w : Part → Bool} {a s : State} (hw : [Part.hbr].all w = true)
    (h : a.Keeps w s) (urgent : Bool) :
    a.Keeps w (State.sendPosted s urgent) := by
  unfold State.sendPosted
  repeat' first
    | with_reducible assumption
    | exact all_of hw rfl
    | intro _
    | with_reducible apply keeps_ite
    | dsimp only
    | split
    | with_reducible apply keeps_hbr

theorem State.makeRoom_keeps {w : Part → Bool} {a s : State} (hw : [Part.hbr].all w = true)
    (h : a.Keeps w s) (urgent : Bool) (n : Nat) :
    a.Keeps w (State.makeRoom s urgent n) := by
  unfold State.makeRoom
  repeat' first
    | with_reducible assumption
    | exact all_of hw rfl
    | intro _
    | with_reducible apply State.sendPosted_keeps
    | with_reducible apply keeps_ite
    | with_reducible apply keeps_foldl

theorem State.post_keeps {w : Part → Bool} {a s : State}
    (hw : [Part.regs, .saturated, .reports, .irqs, .hbr].all w = true) (h : a.Keeps w s)
    (x : HbrPosted) :
    a.Keeps w (State.post s x) := by
  unfold State.post
  repeat' first
    | with_reducible assumption
    | exact all_of hw rfl
    | intro _
    | with_reducible apply State.discardPrefetch_keeps
    | with_reducible apply State.monEvent_keeps
    | with_reducible apply State.bump_keeps
    | with_reducible apply State.makeRoom_keeps
    | with_reducible apply State.hbrLog_keeps
    | with_reducible apply keeps_ite
    | dsimp only
    | split
    | with_reducible apply keeps_hbr

theorem State.flushPosted_keeps {w : Part → Bool} {a s : State} (hw : [Part.hbr].all w = true)
    (h : a.Keeps w s) (urgent : Bool) (id : Nat) :
    a.Keeps w (State.flushPosted s urgent id) := by
  unfold State.flushPosted
  repeat' first
    | with_reducible assumption
    | exact all_of hw rfl
    | intro _
    | with_reducible apply keeps_ite
    | dsimp only
    | split
    | with_reducible apply keeps_hbr

theorem State.postAll_keeps {w0 : Part → Bool} {a s : State}
    (hw : [Part.regs, .saturated, .reports, .irqs, .hbr].all w0 = true) (h : a.Keeps w0 s) (m : Master) (w : Nat) (x : Window) (fuel addr : Nat)
    (bs : List Byte) : a.Keeps w0 (State.postAll s m w x fuel addr bs) := by
  induction fuel generalizing s addr bs with
  | zero => exact h
  | succ fuel ih =>
    cases bs with
    | nil => exact h
    | cons b bs => exact ih (State.post_keeps hw h _) _ _

theorem State.request_keeps {w : Part → Bool} {a s : State}
    (hw : [Part.regs, .saturated, .irqs, .hbr].all w = true) (h : a.Keeps w s) (x : HbrRequest) :
    a.Keeps w (State.request s x) := by
  unfold State.request
  repeat' first
    | with_reducible assumption
    | exact all_of hw rfl
    | intro _
    | with_reducible apply State.monEvent_keeps
    | with_reducible apply State.bump_keeps
    | with_reducible apply keeps_ite
    | dsimp only
    | split
    | with_reducible apply keeps_hbr

theorem State.closeRequest_keeps {w : Part → Bool} {a s : State} (hw : [Part.hbr].all w = true)
    (h : a.Keeps w s) (id : Nat) :
    a.Keeps w (State.closeRequest s id) := by
  unfold State.closeRequest
  repeat' first
    | with_reducible assumption
    | exact all_of hw rfl
    | intro _
    | with_reducible apply keeps_ite
    | dsimp only
    | split
    | with_reducible apply keeps_hbr

theorem State.endFence_keeps {w : Part → Bool} {a s : State}
    (hw : [Part.regs, .irqs].all w = true) (h : a.Keeps w s) (res : Nat) :
    a.Keeps w (State.endFence s res) := by
  unfold State.endFence
  repeat' first
    | with_reducible assumption
    | exact all_of hw rfl
    | intro _
    | with_reducible apply State.hbrIrq_keeps
    | with_reducible apply State.setBit_keeps
    | with_reducible apply State.setFld_keeps

theorem State.pollFail_keeps {w : Part → Bool} {a s : State}
    (hw : [Part.regs, .saturated, .reports].all w = true) (h : a.Keeps w s) (d : Nat)
    (e : HbrError) :
    a.Keeps w (State.pollFail s d e) := by
  unfold State.pollFail
  repeat' first
    | with_reducible assumption
    | exact all_of hw rfl
    | intro _
    | with_reducible apply State.hbrLog_keeps
    | with_reducible apply State.setBit_keeps

theorem State.linkBusError_keeps {w : Part → Bool} {a0 s : State}
    (hw : [Part.regs, .busReply, .saturated, .reports, .irqs].all w = true) (h : a0.Keeps w s)
    (m : Master) (a : Nat) :
    a0.Keeps w (State.linkBusError s m a) := by
  unfold State.linkBusError
  repeat' first
    | with_reducible assumption
    | exact all_of hw rfl
    | intro _
    | with_reducible apply State.takeFree_keeps
    | with_reducible apply State.busError_keeps

theorem State.failRequest_keeps {w : Part → Bool} {a s : State}
    (hw : [Part.regs, .busReply, .saturated, .reports, .irqs, .hbr].all w = true)
    (h : a.Keeps w s) (x : HbrRequest) (type : Nat) :
    a.Keeps w (State.failRequest s x type) := by
  unfold State.failRequest
  repeat' first
    | with_reducible assumption
    | exact all_of hw rfl
    | intro _
    | with_reducible apply State.closeRequest_keeps
    | with_reducible apply State.linkBusError_keeps
    | with_reducible apply State.hbrLog_keeps
    | with_reducible apply State.endFence_keeps
    | with_reducible apply State.pollFail_keeps
    | with_reducible apply keeps_ite
    | dsimp only
    | split

theorem State.useHostData_keeps {w : Part → Bool} {a s : State} (h : a.Keeps w s) :
    a.Keeps w (State.useHostData s) := by
  unfold State.useHostData
  repeat' first
    | with_reducible assumption
    | intro _
    | with_reducible apply keeps_ite
    | dsimp only
    | split
    | with_reducible exact Nat.le_add_right _ _
    | with_reducible refine keeps_free _ ?_ ?_

theorem State.busRead_keeps {w : Part → Bool} {a0 s : State}
    (hw : [Part.regs, .busReply, .saturated, .reports, .irqs].all w = true) (h : a0.Keeps w s)
    (m : Master) (a : Nat) (n : Nat) :
    a0.Keeps w (State.busRead s m a n).2 := by
  unfold State.busRead
  repeat' first
    | with_reducible assumption
    | exact all_of hw rfl
    | intro _
    | with_reducible apply State.busError_keeps
    | with_reducible apply State.badRead_keeps
    | with_reducible apply State.useHostData_keeps
    | with_reducible apply State.monEvents_keeps
    | with_reducible apply State.bumpBy_keeps
    | with_reducible apply State.linkBusError_keeps
    | with_reducible apply State.hbrLog_keeps
    | with_reducible apply keeps_ite
    | dsimp only
    | split

theorem State.busWrite_keeps {w : Part → Bool} {a0 s : State}
    (hw : [Part.regs, .mem, .busReply, .saturated, .reports, .irqs, .eccBad, .hbr].all w = true)
    (h : a0.Keeps w s) (m : Master) (a : Nat) (bs : List Byte) :
    a0.Keeps w (State.busWrite s m a bs).2 := by
  unfold State.busWrite
  repeat' first
    | with_reducible assumption
    | exact all_of hw rfl
    | intro _
    | with_reducible apply State.busError_keeps
    | with_reducible apply State.postAll_keeps
    | with_reducible apply State.wrMem_keeps
    | with_reducible apply keeps_ite
    | dsimp only
    | split

end Sys2Proof.Machine
end

