-- ==== Sys2Proof/Laws/KeepsCipherJobs.lean ====
section
/-!
SUPPORT. What the operations of Machine/CipherJobs.lean can change, and what they keep.
-/

namespace Sys2Proof.Machine

open Sys2Proof

theorem State.setJob_keeps {w : Part → Bool} {a s : State} (hw : [Part.cip].all w = true)
    (h : a.Keeps w s) (j : Nat) (v : CipherJob) :
    a.Keeps w (State.setJob s j v) := by
  unfold State.setJob
  repeat' first
    | with_reducible assumption
    | exact all_of hw rfl
    | intro _
    | with_reducible apply keeps_ite
    | dsimp only
    | split
    | with_reducible apply keeps_cip

theorem State.setJobState_keeps {w : Part → Bool} {a s : State} (hw : [Part.regs].all w = true)
    (h : a.Keeps w s) (j : Nat) (v : Nat) :
    a.Keeps w (State.setJobState s j v) := by
  unfold State.setJobState
  repeat' first
    | with_reducible assumption
    | exact all_of hw rfl
    | intro _
    | with_reducible apply State.setFld_keeps

theorem State.endJob_keeps {w : Part → Bool} {a s : State}
    (hw : [Part.regs, .saturated, .irqs].all w = true) (h : a.Keeps w s) (j : Nat) (res : Nat) :
    a.Keeps w (State.endJob s j res) := by
  unfold State.endJob
  repeat' first
    | with_reducible assumption
    | exact all_of hw rfl
    | intro _
    | with_reducible apply State.setFld_keeps
    | with_reducible apply State.setJobState_keeps
    | with_reducible apply State.monEvent_keeps
    | with_reducible apply State.setBit_keeps
    | with_reducible apply State.irq_keeps
    | with_reducible apply keeps_ite

theorem State.runJob_keeps {w : Part → Bool} {a s : State}
    (hw : [Part.regs, .mem, .busReply, .saturated, .reports, .irqs, .eccBad, .cip,
      .hbr].all w = true)
    (h : a.Keeps w s) (j : Nat) :
    a.Keeps w (State.runJob s j) := by
  unfold State.runJob
  dsimp only
  split
  next e =>
    exact State.endJob_keeps (all_of hw rfl)
      (keeps_of_snd (State.busRead_keeps (all_of hw rfl) h _ _ _) e) _ _
  next e =>
    have h1 := keeps_of_snd (State.busRead_keeps (all_of hw rfl) h _ _ _) e
    apply keeps_ite
    · exact State.setJobState_keeps (all_of hw rfl) (State.setJob_keeps (all_of hw rfl) h1 _ _) _ _
    · split
      next e =>
        exact State.endJob_keeps (all_of hw rfl)
          (keeps_of_snd (State.busRead_keeps (all_of hw rfl) h1 _ _ _) e) _ _
      next e =>
        have h2 := keeps_of_snd (State.busRead_keeps (all_of hw rfl) h1 _ _ _) e
        split
        next e =>
          exact State.endJob_keeps (all_of hw rfl)
            (keeps_of_snd (State.busRead_keeps (all_of hw rfl) h2 _ _ _) e) _ _
        next e =>
          have h3 := keeps_of_snd (State.busRead_keeps (all_of hw rfl) h2 _ _ _) e
          apply State.endJob_keeps (all_of hw rfl)
          split
          · exact State.busWrite_keeps (all_of hw rfl)
              (State.busWrite_keeps (all_of hw rfl) (State.issueBlocks_keeps (all_of hw rfl) h3 _) _ _ _) _ _ _
          · exact State.busWrite_keeps (all_of hw rfl) (State.issueBlocks_keeps (all_of hw rfl) h3 _) _ _ _

theorem State.partOutput_keeps {w : Part → Bool} {a s : State}
    (hw : [Part.regs, .mem, .busReply, .saturated, .reports, .irqs, .eccBad, .cip,
      .hbr].all w = true)
    (h : a.Keeps w s) (j : Nat) :
    a.Keeps w (State.partOutput s j) := by
  unfold State.partOutput
  dsimp only
  apply keeps_ite h
  split
  next e => exact h
  next e =>
    exact State.setJob_keeps (all_of hw rfl) (State.busWrite_keeps (all_of hw rfl)
      (State.takeFree_keeps (keeps_of_snd (State.busRead_keeps (all_of hw rfl) h _ _ _) e)) _ _ _) _ _

theorem State.suspendJob_keeps {w : Part → Bool} {a s : State}
    (hw : [Part.regs, .mem, .busReply, .saturated, .reports, .irqs, .eccBad, .cip,
      .hbr].all w = true)
    (h : a.Keeps w s) (j : Nat) :
    a.Keeps w (State.suspendJob s j) := by
  unfold State.suspendJob
  repeat' first
    | with_reducible assumption
    | exact all_of hw rfl
    | intro _
    | with_reducible apply State.setJobState_keeps
    | with_reducible apply State.partOutput_keeps
    | with_reducible apply keeps_ite

theorem State.stopJob_keeps {w : Part → Bool} {a s : State}
    (hw : [Part.regs, .mem, .busReply, .saturated, .reports, .irqs, .eccBad, .cip,
      .hbr].all w = true)
    (h : a.Keeps w s) (j : Nat) (res : Nat) :
    a.Keeps w (State.stopJob s j res) := by
  unfold State.stopJob
  repeat' first
    | with_reducible assumption
    | exact all_of hw rfl
    | intro _
    | with_reducible apply State.endJob_keeps
    | with_reducible apply State.partOutput_keeps
    | with_reducible apply keeps_ite

theorem State.stopJobs_keeps {w : Part → Bool} {a s : State}
    (hw : [Part.regs, .mem, .busReply, .saturated, .reports, .irqs, .eccBad, .cip,
      .hbr].all w = true)
    (h : a.Keeps w s) (res : Nat) :
    a.Keeps w (State.stopJobs s res) := by
  unfold State.stopJobs
  repeat' first
    | with_reducible assumption
    | exact all_of hw rfl
    | intro _
    | with_reducible apply State.stopJob_keeps
    | with_reducible apply keeps_ite
    | with_reducible apply keeps_foldl

theorem State.spoilIf_keeps {w : Part → Bool} {a s : State} (hw : [Part.tm].all w = true)
    (h : a.Keeps w s) (which : Nat → Bool) :
    a.Keeps w (State.spoilIf s which) := by
  unfold State.spoilIf
  repeat' first
    | with_reducible assumption
    | exact all_of hw rfl
    | intro _
    | with_reducible apply State.setTmPort_keeps
    | with_reducible apply keeps_ite
    | with_reducible apply keeps_foldl

theorem State.endUses_keeps {w : Part → Bool} {a s : State}
    (hw : [Part.regs, .mem, .busReply, .saturated, .reports, .irqs, .eccBad, .tm,
      .cip, .hbr].all w = true)
    (h : a.Keeps w s) (k : Nat) (cause : Nat) :
    a.Keeps w (State.endUses s k cause) := by
  unfold State.endUses
  repeat' first
    | with_reducible assumption
    | exact all_of hw rfl
    | intro _
    | with_reducible apply State.spoilIf_keeps
    | with_reducible apply State.disableSa_keeps
    | with_reducible apply State.stopJob_keeps
    | with_reducible apply keeps_ite
    | with_reducible apply keeps_foldl

theorem State.revokeKey_keeps {w : Part → Bool} {a s : State}
    (hw : [Part.regs, .mem, .busReply, .saturated, .reports, .irqs, .eccBad, .tm,
      .cip, .hbr].all w = true)
    (h : a.Keeps w s) (k : Nat) (cause : Nat) :
    a.Keeps w (State.revokeKey s k cause) := by
  unfold State.revokeKey
  repeat' first
    | with_reducible assumption
    | exact all_of hw rfl
    | intro _
    | with_reducible apply State.endUses_keeps
    | with_reducible apply State.setFld_keeps
    | with_reducible apply keeps_ite
    | dsimp only
    | split
    | with_reducible apply keeps_cip

theorem State.signalSlot_keeps {w : Part → Bool} {a s : State}
    (hw : [Part.regs, .mem, .busReply, .saturated, .reports, .irqs, .eccBad, .tm,
      .cip, .hbr].all w = true)
    (h : a.Keeps w s) (slot : Nat) :
    a.Keeps w (State.signalSlot s slot) := by
  unfold State.signalSlot
  repeat' first
    | with_reducible assumption
    | exact all_of hw rfl
    | intro _
    | with_reducible apply State.fault_keeps
    | with_reducible apply State.revokeKey_keeps
    | with_reducible apply keeps_ite
    | with_reducible apply keeps_foldl
    | dsimp only
    | split

theorem State.disableSas_keeps {w : Part → Bool} {a s : State}
    (hw : [Part.regs, .saturated, .irqs].all w = true) (h : a.Keeps w s) (cause : Nat) :
    a.Keeps w (State.disableSas s cause) := by
  unfold State.disableSas
  repeat' first
    | with_reducible assumption
    | exact all_of hw rfl
    | intro _
    | with_reducible apply State.disableSa_keeps
    | with_reducible apply State.markDisabled_keeps
    | with_reducible apply keeps_ite
    | with_reducible apply keeps_foldr
    | with_reducible apply keeps_foldl

theorem State.dropMacsec_keeps {w : Part → Bool} {a s : State}
    (hw : [Part.frames, .tm].all w = true) (h : a.Keeps w s) :
    a.Keeps w (State.dropMacsec s) := by
  unfold State.dropMacsec
  repeat' first
    | with_reducible assumption
    | exact all_of hw rfl
    | intro _
    | with_reducible apply State.delFrame_keeps
    | with_reducible apply State.spoilIf_keeps
    | with_reducible apply keeps_ite
    | with_reducible apply keeps_foldl

theorem State.stopCipher_keeps {w : Part → Bool} {a s : State}
    (hw : [Part.regs, .mem, .busReply, .saturated, .reports, .irqs, .frames, .eccBad,
      .tm, .cip, .hbr].all w = true)
    (h : a.Keeps w s) :
    a.Keeps w (State.stopCipher s) := by
  unfold State.stopCipher
  repeat' first
    | with_reducible assumption
    | exact all_of hw rfl
    | intro _
    | with_reducible apply State.dropMacsec_keeps
    | with_reducible apply State.stopJob_keeps
    | with_reducible apply keeps_ite
    | with_reducible apply keeps_foldl

theorem State.zeroizeCipher_keeps {w : Part → Bool} {a s : State}
    (hw : [Part.regs, .mem, .busReply, .saturated, .reports, .irqs, .frames, .eccBad,
      .tm, .cip, .hbr].all w = true)
    (h : a.Keeps w s) :
    a.Keeps w (State.zeroizeCipher s) := by
  unfold State.zeroizeCipher
  repeat' first
    | with_reducible assumption
    | exact all_of hw rfl
    | intro _
    | with_reducible apply State.dropMacsec_keeps
    | with_reducible apply State.stopJobs_keeps
    | with_reducible apply State.disableSas_keeps
    | with_reducible apply State.revokeKey_keeps
    | with_reducible apply keeps_ite
    | with_reducible apply keeps_foldl

end Sys2Proof.Machine
end

