-- ==== Sys2Proof/Laws/KeepsVaultOps.lean ====
section
/-!
SUPPORT. What the operations of Machine/VaultOps.lean can change, and what they keep.
-/

namespace Sys2Proof.Machine

open Sys2Proof

theorem State.extendMr_keeps {w : Part → Bool} {a s : State}
    (hw : [Part.regs, .saturated, .vlt].all w = true) (h : a.Keeps w s) (i : Nat) (d : List Byte)
    :
    a.Keeps w (State.extendMr s i d) := by
  unfold State.extendMr
  repeat' first
    | with_reducible assumption
    | exact all_of hw rfl
    | intro _
    | with_reducible apply State.wrN_keeps
    | with_reducible apply State.bump_keeps
    | with_reducible apply keeps_ite
    | with_reducible apply keeps_foldl
    | with_reducible apply keeps_foldl_fst
    | with_reducible apply keeps_foldl_snd
    | dsimp only
    | split
    | with_reducible apply keeps_vlt

theorem State.setSlotState_keeps {w : Part → Bool} {a s : State} (hw : [Part.regs].all w = true)
    (h : a.Keeps w s) (n : Nat) (v : Nat) :
    a.Keeps w (State.setSlotState s n v) := by
  unfold State.setSlotState
  repeat' first
    | with_reducible assumption
    | exact all_of hw rfl
    | intro _
    | with_reducible apply State.setFld_keeps

theorem State.setSlot_keeps {w : Part → Bool} {a s : State} (hw : [Part.vlt].all w = true)
    (h : a.Keeps w s) (n : Nat) (v : VaultSlot) :
    a.Keeps w (State.setSlot s n v) := by
  unfold State.setSlot
  repeat' first
    | with_reducible assumption
    | exact all_of hw rfl
    | intro _
    | with_reducible apply keeps_ite
    | dsimp only
    | split
    | with_reducible apply keeps_vlt

theorem State.storeSlot_keeps {w : Part → Bool} {a s : State}
    (hw : [Part.mem, .eccBad, .vlt].all w = true) (h : a.Keeps w s) (n : Nat) :
    a.Keeps w (State.storeSlot s n) := by
  unfold State.storeSlot
  repeat' first
    | with_reducible assumption
    | exact all_of hw rfl
    | intro _
    | with_reducible apply State.wrMem_keeps
    | with_reducible apply State.setSlot_keeps
    | with_reducible apply keeps_ite
    | dsimp only
    | split
    | with_reducible exact Nat.le_add_right _ _
    | with_reducible refine keeps_free _ ?_ ?_

theorem State.invalidateSlot_keeps {w : Part → Bool} {a s : State}
    (hw : [Part.regs, .mem, .busReply, .saturated, .reports, .irqs, .eccBad, .tm,
      .cip, .hbr].all w = true)
    (h : a.Keeps w s) (n : Nat) :
    a.Keeps w (State.invalidateSlot s n) := by
  unfold State.invalidateSlot
  repeat' first
    | with_reducible assumption
    | exact all_of hw rfl
    | intro _
    | with_reducible apply State.fault_keeps
    | with_reducible apply State.signalSlot_keeps
    | with_reducible apply State.bump_keeps
    | with_reducible apply State.setSlotState_keeps
    | with_reducible apply keeps_ite
    | with_reducible apply keeps_foldl

theorem State.emptyKeySlot_keeps {w : Part → Bool} {a s : State}
    (hw : [Part.regs, .mem, .vlt].all w = true) (h : a.Keeps w s) (n : Nat) :
    a.Keeps w (State.emptyKeySlot s n) := by
  unfold State.emptyKeySlot
  repeat' first
    | with_reducible assumption
    | exact all_of hw rfl
    | intro _
    | with_reducible apply State.erase_keeps
    | with_reducible apply State.wrN_keeps
    | with_reducible apply State.setSlot_keeps

theorem State.reshare_keeps {w : Part → Bool} {a s : State}
    (hw : [Part.mem, .eccBad, .vlt].all w = true) (h : a.Keeps w s) (n : Nat) :
    a.Keeps w (State.reshare s n) := by
  unfold State.reshare
  repeat' first
    | with_reducible assumption
    | exact all_of hw rfl
    | intro _
    | with_reducible apply State.storeSlot_keeps
    | with_reducible apply keeps_ite
    | with_reducible apply keeps_foldl

theorem State.tagFailed_keeps {w : Part → Bool} {a s : State}
    (hw : [Part.regs, .reports].all w = true) (h : a.Keeps w s) (n : Nat) :
    a.Keeps w (State.tagFailed s n) := by
  unfold State.tagFailed
  repeat' first
    | with_reducible assumption
    | exact all_of hw rfl
    | intro _
    | with_reducible apply State.fault_keeps
    | with_reducible apply State.setSlotState_keeps

theorem State.setVltCmd_keeps {w : Part → Bool} {a s : State} (hw : [Part.vlt].all w = true)
    (h : a.Keeps w s) (c : Nat) (v : VaultCmd) :
    a.Keeps w (State.setVltCmd s c v) := by
  unfold State.setVltCmd
  repeat' first
    | with_reducible assumption
    | exact all_of hw rfl
    | intro _
    | with_reducible apply keeps_ite
    | dsimp only
    | split
    | with_reducible apply keeps_vlt

theorem State.startVault_keeps {w : Part → Bool} {a s : State}
    (hw : [Part.regs, .vlt].all w = true) (h : a.Keeps w s) (c : Nat) :
    a.Keeps w (State.startVault s c) := by
  unfold State.startVault
  repeat' first
    | with_reducible assumption
    | exact all_of hw rfl
    | intro _
    | with_reducible apply State.setFld_keeps
    | with_reducible apply State.setVltCmd_keeps
    | with_reducible apply keeps_ite
    | dsimp only
    | split
    | with_reducible apply keeps_vlt

theorem State.nextCommand_keeps {w : Part → Bool} {a s : State}
    (hw : [Part.regs, .vlt].all w = true) (h : a.Keeps w s) :
    a.Keeps w (State.nextCommand s) := by
  unfold State.nextCommand
  repeat' first
    | with_reducible assumption
    | exact all_of hw rfl
    | intro _
    | with_reducible apply State.startVault_keeps
    | with_reducible apply keeps_ite
    | dsimp only
    | split

theorem State.leaveQueue_keeps {w : Part → Bool} {a s : State} (hw : [Part.vlt].all w = true)
    (h : a.Keeps w s) (c : Nat) :
    a.Keeps w (State.leaveQueue s c) := by
  unfold State.leaveQueue
  repeat' first
    | with_reducible assumption
    | exact all_of hw rfl
    | intro _
    | with_reducible apply keeps_ite
    | dsimp only
    | split
    | with_reducible apply keeps_vlt

theorem State.endVault_keeps {w : Part → Bool} {a s : State}
    (hw : [Part.regs, .saturated, .irqs, .vlt].all w = true) (h : a.Keeps w s) (c : Nat)
    (res : Nat) :
    a.Keeps w (State.endVault s c res) := by
  unfold State.endVault
  repeat' first
    | with_reducible assumption
    | exact all_of hw rfl
    | intro _
    | with_reducible apply State.leaveQueue_keeps
    | with_reducible apply State.monEvent_keeps
    | with_reducible apply State.setBit_keeps
    | with_reducible apply State.setFld_keeps
    | with_reducible apply State.irq_keeps
    | with_reducible apply State.nextCommand_keeps
    | with_reducible apply keeps_ite

theorem State.vaultGo_keeps {w : Part → Bool} {a s : State}
    (hw : [Part.regs, .saturated, .irqs, .vlt].all w = true) (h : a.Keeps w s) (m : Master)
    (c : Nat) :
    a.Keeps w (State.vaultGo s m c) := by
  unfold State.vaultGo
  repeat' first
    | with_reducible assumption
    | exact all_of hw rfl
    | intro _
    | with_reducible apply State.setBit_keeps
    | with_reducible apply State.endVault_keeps
    | with_reducible apply State.setFld_keeps
    | with_reducible apply State.setVltCmd_keeps
    | with_reducible apply State.nextCommand_keeps
    | with_reducible apply keeps_ite
    | dsimp only
    | split
    | with_reducible apply keeps_vlt

end Sys2Proof.Machine
end

