-- ==== Sys2Proof/Laws/KeepsBootOps.lean ====
section
/-!
SUPPORT. What the operations of Machine/BootOps.lean can change, and what they keep.
-/

namespace Sys2Proof.Machine

open Sys2Proof

theorem State.setSession_keeps {w : Part → Bool} {a s : State} (hw : [Part.regs].all w = true)
    (h : a.Keeps w s) (v : Nat) :
    a.Keeps w (State.setSession s v) := by
  unfold State.setSession
  repeat' first
    | with_reducible assumption
    | exact all_of hw rfl
    | intro _
    | with_reducible apply State.setFld_keeps

theorem State.progress_keeps {w : Part → Bool} {a s : State} (hw : [Part.boot].all w = true)
    (h : a.Keeps w s) :
    a.Keeps w (State.progress s) := by
  unfold State.progress
  repeat' first
    | with_reducible assumption
    | exact all_of hw rfl
    | intro _
    | with_reducible apply keeps_ite
    | dsimp only
    | split
    | with_reducible apply keeps_boot

theorem State.bootRecord_keeps {w : Part → Bool} {a s : State}
    (hw : [Part.regs, .saturated, .reports, .bbQueue, .bbLost, .irqs].all w = true)
    (h : a.Keeps w s) (type : Nat) :
    a.Keeps w (State.bootRecord s type) := by
  unfold State.bootRecord
  repeat' first
    | with_reducible assumption
    | exact all_of hw rfl
    | intro _
    | with_reducible apply State.blackBox_keeps
    | with_reducible apply keeps_ite
    | dsimp only
    | split
    | with_reducible exact Nat.le_add_right _ _
    | with_reducible refine keeps_free _ ?_ ?_

theorem State.endUpdate_keeps {w : Part → Bool} {a s : State}
    (hw : [Part.regs, .irqs].all w = true) (h : a.Keeps w s) (ch : Nat) (res : Nat) :
    a.Keeps w (State.endUpdate s ch res) := by
  unfold State.endUpdate
  repeat' first
    | with_reducible assumption
    | exact all_of hw rfl
    | intro _
    | with_reducible apply State.irq_keeps
    | with_reducible apply State.setFld_keeps
    | with_reducible apply State.setBit_keeps

theorem State.queueManifest_keeps {w : Part → Bool} {a s : State}
    (hw : [Part.regs, .vlt].all w = true) (h : a.Keeps w s) :
    a.Keeps w (State.queueManifest s) := by
  unfold State.queueManifest
  repeat' first
    | with_reducible assumption
    | exact all_of hw rfl
    | intro _
    | with_reducible apply State.nextCommand_keeps
    | with_reducible apply keeps_ite
    | dsimp only
    | split
    | with_reducible apply keeps_vlt

theorem State.failManifest_keeps {w : Part → Bool} {a s : State}
    (hw : [Part.regs, .irqs, .vlt, .boot].all w = true) (h : a.Keeps w s) :
    a.Keeps w (State.failManifest s) := by
  unfold State.failManifest
  repeat' first
    | with_reducible assumption
    | exact all_of hw rfl
    | intro _
    | with_reducible apply State.leaveQueue_keeps
    | with_reducible apply State.nextCommand_keeps
    | with_reducible apply State.queueManifest_keeps
    | with_reducible apply State.endUpdate_keeps
    | with_reducible apply keeps_ite
    | dsimp only
    | split
    | with_reducible apply keeps_boot

theorem State.emptyBootSlot_keeps {w : Part → Bool} {a s : State} (hw : [Part.mem].all w = true)
    (h : a.Keeps w s) (slot : Nat) :
    a.Keeps w (State.emptyBootSlot s slot) := by
  unfold State.emptyBootSlot
  repeat' first
    | with_reducible assumption
    | exact all_of hw rfl
    | intro _
    | with_reducible apply State.erase_keeps

theorem State.setCommitWord_keeps {w : Part → Bool} {a0 s : State}
    (hw : [Part.mem, .eccBad].all w = true) (h : a0.Keeps w s) (a : Nat) (v : Nat) :
    a0.Keeps w (State.setCommitWord s a v) := by
  unfold State.setCommitWord
  repeat' first
    | with_reducible assumption
    | exact all_of hw rfl
    | intro _
    | with_reducible apply State.wrMem_keeps

theorem State.raiseArcs_keeps {w : Part → Bool} {a s : State}
    (hw : [Part.mem, .eccBad].all w = true) (h : a.Keeps w s) (m : List Byte) :
    a.Keeps w (State.raiseArcs s m) := by
  unfold State.raiseArcs
  repeat' first
    | with_reducible assumption
    | exact all_of hw rfl
    | intro _
    | with_reducible apply State.setCommitWord_keeps
    | with_reducible apply keeps_ite
    | with_reducible apply keeps_foldl

theorem State.abortSession_keeps {w : Part → Bool} {a s : State}
    (hw : [Part.regs, .mem, .saturated, .reports, .bbQueue, .bbLost, .irqs, .boot].all w = true)
    (h : a.Keeps w s) :
    a.Keeps w (State.abortSession s) := by
  unfold State.abortSession
  repeat' first
    | with_reducible assumption
    | exact all_of hw rfl
    | intro _
    | with_reducible apply State.setBit_keeps
    | with_reducible apply State.emptyBootSlot_keeps
    | with_reducible apply State.wr_keeps
    | with_reducible apply State.bootRecord_keeps
    | with_reducible apply State.fault_keeps
    | with_reducible apply State.bump_keeps
    | with_reducible apply keeps_ite
    | dsimp only
    | split
    | with_reducible apply keeps_boot

theorem State.dropSegment_keeps {w : Part → Bool} {a s : State}
    (hw : [Part.regs, .irqs, .boot].all w = true) (h : a.Keeps w s) :
    a.Keeps w (State.dropSegment s) := by
  unfold State.dropSegment
  repeat' first
    | with_reducible assumption
    | exact all_of hw rfl
    | intro _
    | with_reducible apply State.endUpdate_keeps
    | with_reducible apply keeps_ite
    | dsimp only
    | split
    | with_reducible apply keeps_boot

theorem State.holdCore_keeps {w : Part → Bool} {a s : State}
    (hw : [Part.islands, .coreHeld, .reports].all w = true) (h : a.Keeps w s) :
    a.Keeps w (State.holdCore s) := by
  unfold State.holdCore
  repeat' first
    | with_reducible assumption
    | exact all_of hw rfl
    | intro _
    | with_reducible apply State.setIsland_keeps
    | with_reducible apply keeps_ite
    | with_reducible apply keeps_foldl
    | dsimp only
    | split
    | with_reducible apply keeps_coreHeld_reports

theorem State.showAreas_keeps {w : Part → Bool} {a s : State} (hw : [Part.regs].all w = true)
    (h : a.Keeps w s) :
    a.Keeps w (State.showAreas s) := by
  unfold State.showAreas
  repeat' first
    | with_reducible assumption
    | exact all_of hw rfl
    | intro _
    | with_reducible apply State.setFld_keeps

theorem State.writeRecord_keeps {w : Part → Bool} {a s : State}
    (hw : [Part.regs, .mem, .saturated, .reports, .irqs, .eccBad, .box].all w = true)
    (h : a.Keeps w s) (r : BoxRecord) :
    a.Keeps w (State.writeRecord s r) := by
  unfold State.writeRecord
  repeat' first
    | with_reducible assumption
    | exact all_of hw rfl
    | intro _
    | with_reducible apply State.wrMem_keeps
    | with_reducible apply State.wrN_keeps
    | with_reducible apply State.showAreas_keeps
    | with_reducible apply State.monEvent_keeps
    | with_reducible apply State.bump_keeps
    | with_reducible apply State.fault_keeps
    | with_reducible apply State.setBit_keeps
    | with_reducible apply keeps_ite
    | dsimp only
    | split
    | with_reducible apply keeps_box

theorem State.lostRecord_keeps {w : Part → Bool} {a s : State}
    (hw : [Part.regs, .mem, .saturated, .reports, .bbLost, .irqs, .eccBad, .box].all w = true)
    (h : a.Keeps w s) :
    a.Keeps w (State.lostRecord s) := by
  unfold State.lostRecord
  repeat' first
    | with_reducible assumption
    | exact all_of hw rfl
    | intro _
    | with_reducible apply State.writeRecord_keeps
    | with_reducible apply keeps_ite
    | dsimp only
    | split
    | with_reducible exact Nat.le_add_right _ _
    | with_reducible refine keeps_free _ ?_ ?_
    | with_reducible apply keeps_bbLost

theorem State.clearRecords_keeps {w : Part → Bool} {a s : State} (hw : [Part.mem].all w = true)
    (h : a.Keeps w s) (upto : Nat) :
    a.Keeps w (State.clearRecords s upto) :=
  keeps_mem hw _ h (fun x => Store.wf_filter _ x)

end Sys2Proof.Machine
end

