-- ==== Sys2Proof/Laws/KeepsBoot.lean ====
section
/-!
SUPPORT. What the operations of Machine/Boot.lean can change, and what they keep.
-/

namespace Sys2Proof.Machine

open Sys2Proof

theorem updateCmd_keeps {w : Part → Bool} {a s : State}
    (hw : [Part.regs, .busReply, .saturated, .reports, .irqs].all w = true) (h : a.Keeps w s)
    (m : Master) (ch : Nat) (op : Nat) (f : State → State)
    (hf : ∀ (x0 : State), a.Keeps w x0 → a.Keeps w (f x0)) :
    a.Keeps w (updateCmd m ch op f s) := by
  unfold updateCmd
  repeat' first
    | with_reducible assumption
    | exact all_of hw rfl
    | intro _
    | with_reducible apply hf
    | with_reducible apply guardReg_keeps
    | with_reducible apply State.setFld_keeps
    | with_reducible apply keeps_ite

theorem State.startUpdate_keeps {w : Part → Bool} {a s : State} (hw : [Part.regs].all w = true)
    (h : a.Keeps w s) (ch : Nat) :
    a.Keeps w (State.startUpdate s ch) := by
  unfold State.startUpdate
  repeat' first
    | with_reducible assumption
    | exact all_of hw rfl
    | intro _
    | with_reducible apply State.setBit_keeps

theorem execOpenImage_keeps {w : Part → Bool} {a s : State}
    (hw : [Part.regs, .busReply, .saturated, .reports, .irqs, .vlt, .boot].all w = true)
    (h : a.Keeps w s) (m : Master) (ch : Fin 3) :
    AnswerKeeps w a (execOpenImage m ch s) := by
  unfold execOpenImage
  repeat' first
    | with_reducible assumption
    | exact all_of hw rfl
    | with_reducible apply answerKeeps_next
    | intro _
    | with_reducible apply updateCmd_keeps
    | with_reducible apply State.endUpdate_keeps
    | with_reducible apply State.bump_keeps
    | with_reducible apply State.busRead_keeps
    | with_reducible apply State.startUpdate_keeps
    | with_reducible apply State.queueManifest_keeps
    | with_reducible apply keeps_ite
    | with_reducible refine keeps_of_snd ?_ (by with_reducible assumption)
    | with_reducible refine keeps_of_fst ?_ (by with_reducible assumption)
    | dsimp only
    | split
    | with_reducible apply keeps_boot

theorem State.rejectOpens_keeps {w : Part → Bool} {a s : State}
    (hw : [Part.regs, .saturated, .irqs, .boot].all w = true) (h : a.Keeps w s) :
    a.Keeps w (State.rejectOpens s) := by
  unfold State.rejectOpens
  repeat' first
    | with_reducible assumption
    | exact all_of hw rfl
    | intro _
    | with_reducible apply State.endUpdate_keeps
    | with_reducible apply State.bump_keeps
    | with_reducible apply keeps_ite
    | with_reducible apply keeps_foldl
    | with_reducible apply keeps_foldl_fst
    | with_reducible apply keeps_foldl_snd
    | dsimp only
    | split
    | with_reducible apply keeps_boot

theorem State.openSession_keeps {w : Part → Bool} {a s : State}
    (hw : [Part.regs, .mem, .saturated, .reports, .bbQueue, .bbLost, .irqs, .boot].all w = true)
    (h : a.Keeps w s) (ch : Nat) (m : List Byte) :
    a.Keeps w (State.openSession s ch m) := by
  unfold State.openSession
  repeat' first
    | with_reducible assumption
    | exact all_of hw rfl
    | intro _
    | with_reducible apply State.bump_keeps
    | with_reducible apply State.setFld_keeps
    | with_reducible apply State.setSession_keeps
    | with_reducible apply State.rejectOpens_keeps
    | with_reducible apply State.emptyBootSlot_keeps
    | with_reducible apply State.endUpdate_keeps
    | with_reducible apply State.bootRecord_keeps
    | with_reducible apply State.progress_keeps
    | with_reducible apply State.wr_keeps
    | with_reducible apply keeps_ite
    | with_reducible apply keeps_dite
    | dsimp only
    | split
    | with_reducible apply keeps_boot

theorem execManifestVerifyDone_keeps {w : Part → Bool} {a s : State}
    (hw : [Part.regs, .mem, .saturated, .reports, .bbQueue, .bbLost, .irqs, .vlt,
      .boot].all w = true)
    (h : a.Keeps w s) :
    AnswerKeeps w a (execManifestVerifyDone s) := by
  unfold execManifestVerifyDone
  repeat' first
    | with_reducible assumption
    | exact all_of hw rfl
    | with_reducible apply answerKeeps_next
    | intro _
    | with_reducible apply State.leaveQueue_keeps
    | with_reducible apply State.nextCommand_keeps
    | with_reducible apply State.queueManifest_keeps
    | with_reducible apply State.openSession_keeps
    | with_reducible apply State.endUpdate_keeps
    | with_reducible apply keeps_ite
    | dsimp only
    | split
    | with_reducible apply keeps_boot

theorem execStream_keeps {w : Part → Bool} {a s : State}
    (hw : [Part.regs, .busReply, .saturated, .reports, .irqs, .boot].all w = true)
    (h : a.Keeps w s) (m : Master) (ch : Fin 3) :
    AnswerKeeps w a (execStream m ch s) := by
  unfold execStream
  repeat' first
    | with_reducible assumption
    | exact all_of hw rfl
    | with_reducible apply answerKeeps_next
    | intro _
    | with_reducible apply updateCmd_keeps
    | with_reducible apply State.endUpdate_keeps
    | with_reducible apply State.busRead_keeps
    | with_reducible apply State.startUpdate_keeps
    | with_reducible apply keeps_ite
    | with_reducible refine keeps_of_snd ?_ (by with_reducible assumption)
    | with_reducible refine keeps_of_fst ?_ (by with_reducible assumption)
    | dsimp only
    | split
    | with_reducible apply keeps_boot

theorem State.failSession_keeps {w : Part → Bool} {a s : State}
    (hw : [Part.regs, .mem, .saturated, .reports, .bbQueue, .bbLost, .irqs, .boot].all w = true)
    (h : a.Keeps w s) (ch : Nat) (res : Nat) :
    a.Keeps w (State.failSession s ch res) := by
  unfold State.failSession
  repeat' first
    | with_reducible assumption
    | exact all_of hw rfl
    | intro _
    | with_reducible apply State.endUpdate_keeps
    | with_reducible apply State.abortSession_keeps

theorem State.acceptSegment_keeps {w : Part → Bool} {a s : State}
    (hw : [Part.regs, .mem, .saturated, .reports, .bbQueue, .bbLost, .irqs, .eccBad,
      .boot].all w = true)
    (h : a.Keeps w s) (ch : Nat) (plain : List Byte) :
    a.Keeps w (State.acceptSegment s ch plain) := by
  unfold State.acceptSegment
  repeat' first
    | with_reducible assumption
    | exact all_of hw rfl
    | intro _
    | with_reducible apply State.failSession_keeps
    | with_reducible apply State.wrMem_keeps
    | with_reducible apply State.progress_keeps
    | with_reducible apply State.endUpdate_keeps
    | with_reducible apply State.setFld_keeps
    | with_reducible apply keeps_ite
    | dsimp only
    | split
    | with_reducible apply keeps_boot

theorem execSegmentDone_keeps {w : Part → Bool} {a s : State}
    (hw : [Part.regs, .mem, .saturated, .reports, .bbQueue, .bbLost, .irqs, .eccBad,
      .vlt, .boot].all w = true)
    (h : a.Keeps w s) (flashOk : Bool) :
    AnswerKeeps w a (execSegmentDone flashOk s) := by
  unfold execSegmentDone
  repeat' first
    | with_reducible assumption
    | exact all_of hw rfl
    | with_reducible apply answerKeeps_next
    | intro _
    | with_reducible apply State.reshare_keeps
    | with_reducible apply State.endUpdate_keeps
    | with_reducible apply State.bump_keeps
    | with_reducible apply State.acceptSegment_keeps
    | with_reducible apply State.monEvent_keeps
    | with_reducible apply keeps_ite
    | dsimp only
    | split
    | with_reducible apply keeps_boot

theorem State.commitImage_keeps {w : Part → Bool} {a s : State}
    (hw : [Part.regs, .mem, .saturated, .reports, .bbQueue, .bbLost, .irqs, .eccBad].all w = true)
    (h : a.Keeps w s) (m : List Byte) :
    a.Keeps w (State.commitImage s m) := by
  unfold State.commitImage
  repeat' first
    | with_reducible assumption
    | exact all_of hw rfl
    | intro _
    | with_reducible apply State.bootRecord_keeps
    | with_reducible apply State.bump_keeps
    | with_reducible apply State.raiseArcs_keeps
    | with_reducible apply State.wr_keeps

theorem execFinish_keeps {w : Part → Bool} {a s : State}
    (hw : [Part.regs, .mem, .busReply, .saturated, .reports, .bbQueue, .bbLost, .irqs,
      .eccBad, .boot].all w = true)
    (h : a.Keeps w s) (m : Master) (ch : Fin 3) :
    AnswerKeeps w a (execFinish m ch s) := by
  unfold execFinish
  repeat' first
    | with_reducible assumption
    | exact all_of hw rfl
    | with_reducible apply answerKeeps_next
    | intro _
    | with_reducible apply updateCmd_keeps
    | with_reducible apply State.endUpdate_keeps
    | with_reducible apply State.progress_keeps
    | with_reducible apply State.wrMem_keeps
    | with_reducible apply State.commitImage_keeps
    | with_reducible apply State.setSession_keeps
    | with_reducible apply keeps_ite

theorem execArm_keeps {w : Part → Bool} {a s : State}
    (hw : [Part.regs, .busReply, .saturated, .reports, .bbQueue, .bbLost, .irqs].all w = true)
    (h : a.Keeps w s) (m : Master) (ch : Fin 3) :
    AnswerKeeps w a (execArm m ch s) := by
  unfold execArm
  repeat' first
    | with_reducible assumption
    | exact all_of hw rfl
    | with_reducible apply answerKeeps_next
    | intro _
    | with_reducible apply updateCmd_keeps
    | with_reducible apply State.endUpdate_keeps
    | with_reducible apply State.setBit_keeps
    | with_reducible apply State.setFld_keeps
    | with_reducible apply State.setSession_keeps
    | with_reducible apply State.bootRecord_keeps
    | with_reducible apply keeps_ite

theorem execSessionAbort_keeps {w : Part → Bool} {a s : State}
    (hw : [Part.regs, .mem, .busReply, .saturated, .reports, .bbQueue, .bbLost, .irqs,
      .boot].all w = true)
    (h : a.Keeps w s) (m : Master) (ch : Fin 3) :
    AnswerKeeps w a (execSessionAbort m ch s) := by
  unfold execSessionAbort
  repeat' first
    | with_reducible assumption
    | exact all_of hw rfl
    | with_reducible apply answerKeeps_next
    | intro _
    | with_reducible apply updateCmd_keeps
    | with_reducible apply State.endUpdate_keeps
    | with_reducible apply State.abortSession_keeps
    | with_reducible apply keeps_ite

theorem execSessionTimeout_keeps {w : Part → Bool} {a s : State}
    (hw : [Part.regs, .mem, .saturated, .reports, .bbQueue, .bbLost, .irqs, .boot].all w = true)
    (h : a.Keeps w s) :
    AnswerKeeps w a (execSessionTimeout s) := by
  unfold execSessionTimeout
  repeat' first
    | with_reducible assumption
    | exact all_of hw rfl
    | with_reducible apply answerKeeps_next
    | intro _
    | with_reducible apply State.endUpdate_keeps
    | with_reducible apply State.abortSession_keeps
    | with_reducible apply keeps_ite
    | dsimp only
    | split
    | with_reducible apply keeps_boot

theorem execUpdateCommit_keeps {w : Part → Bool} {a s : State}
    (hw : [Part.regs, .mem, .busReply, .saturated, .reports, .bbQueue, .bbLost, .irqs,
      .eccBad].all w = true)
    (h : a.Keeps w s) (m : Master) :
    AnswerKeeps w a (execUpdateCommit m s) := by
  unfold execUpdateCommit
  repeat' first
    | with_reducible assumption
    | exact all_of hw rfl
    | with_reducible apply answerKeeps_next
    | intro _
    | with_reducible apply guardReg_keeps
    | with_reducible apply State.deny_keeps
    | with_reducible apply State.setBit_keeps
    | with_reducible apply State.setFld_keeps
    | with_reducible apply State.commitImage_keeps
    | with_reducible apply keeps_ite

theorem execBootAbort_keeps {w : Part → Bool} {a s : State}
    (hw : [Part.regs, .mem, .busReply, .saturated, .reports, .bbQueue, .bbLost, .irqs,
      .boot].all w = true)
    (h : a.Keeps w s) (m : Master) :
    AnswerKeeps w a (execBootAbort m s) := by
  unfold execBootAbort
  repeat' first
    | with_reducible assumption
    | exact all_of hw rfl
    | with_reducible apply answerKeeps_next
    | intro _
    | with_reducible apply guardReg_keeps
    | with_reducible apply State.abortSession_keeps
    | with_reducible apply State.dropSegment_keeps

theorem execMramWrite_keeps {w : Part → Bool} {a s : State}
    (hw : [Part.regs, .mem, .busReply, .saturated, .reports, .irqs, .eccBad].all w = true)
    (h : a.Keeps w s) (m : Master) (data : Word) :
    AnswerKeeps w a (execMramWrite m data s) := by
  unfold execMramWrite
  repeat' first
    | with_reducible assumption
    | exact all_of hw rfl
    | with_reducible apply answerKeeps_next
    | intro _
    | with_reducible apply guardReg_keeps
    | with_reducible apply State.setFld_keeps
    | with_reducible apply State.wrMem_keeps
    | with_reducible apply State.deny_keeps
    | with_reducible apply keeps_ite

theorem execBbRecordWrite_keeps {w : Part → Bool} {a s : State}
    (hw : [Part.regs, .mem, .islands, .coreHeld, .saturated, .reports, .bbQueue,
      .bbLost, .irqs, .eccBad, .box].all w = true)
    (h : a.Keeps w s) :
    AnswerKeeps w a (execBbRecordWrite s) := by
  unfold execBbRecordWrite
  apply answerKeeps_next
  split
  · exact h
  next r rest e =>
    have hr : a.bbQueue.length ≤ 64 → rest.length ≤ 64 := by
      intro x
      have hb := h.box x
      split at e
      · cases e
      · rw [e, List.length_cons] at hb
        omega
    have hv := State.writeRecord_keeps (all_of hw rfl) (keeps_bbQueue (all_of hw rfl) rest
      (keeps_ite (c := 0 < s.bbLost) (State.lostRecord_keeps (all_of hw rfl) h) h) hr) r
    exact keeps_ite (State.holdCore_keeps (all_of hw rfl) hv) hv

theorem execSoftwareRecord_keeps {w : Part → Bool} {a s : State}
    (hw : [Part.regs, .busReply, .saturated, .reports, .bbQueue, .bbLost, .irqs].all w = true)
    (h : a.Keeps w s) (m : Master) (code : BitVec 16) :
    AnswerKeeps w a (execSoftwareRecord m code s) := by
  unfold execSoftwareRecord
  repeat' first
    | with_reducible assumption
    | exact all_of hw rfl
    | with_reducible apply answerKeeps_next
    | intro _
    | with_reducible apply guardReg_keeps
    | with_reducible apply State.setFld_keeps
    | with_reducible apply State.blackBox_keeps
    | with_reducible apply keeps_ite

theorem execBbExport_keeps {w : Part → Bool} {a s : State}
    (hw : [Part.regs, .mem, .busReply, .saturated, .reports, .irqs, .eccBad, .box].all w = true)
    (h : a.Keeps w s) (m : Master) (data : Word) :
    AnswerKeeps w a (execBbExport m data s) := by
  unfold execBbExport
  repeat' first
    | with_reducible assumption
    | exact all_of hw rfl
    | with_reducible apply answerKeeps_next
    | intro _
    | with_reducible apply guardReg_keeps
    | with_reducible apply State.setBit_keeps
    | with_reducible apply State.wrMem_keeps
    | with_reducible apply State.wr_keeps
    | with_reducible apply State.showAreas_keeps
    | with_reducible apply keeps_ite
    | dsimp only
    | split
    | with_reducible apply keeps_box

theorem execBbClear_keeps {w : Part → Bool} {a s : State}
    (hw : [Part.regs, .mem, .busReply, .saturated, .reports, .irqs, .eccBad, .box].all w = true)
    (h : a.Keeps w s) (m : Master) :
    AnswerKeeps w a (execBbClear m s) := by
  unfold execBbClear
  repeat' first
    | with_reducible assumption
    | exact all_of hw rfl
    | with_reducible apply answerKeeps_next
    | intro _
    | with_reducible apply guardReg_keeps
    | with_reducible apply State.setFld_keeps
    | with_reducible apply State.setCommitWord_keeps
    | with_reducible apply State.clearRecords_keeps
    | with_reducible apply State.writeRecord_keeps
    | with_reducible apply keeps_ite
    | dsimp only
    | split
    | with_reducible exact Nat.le_add_right _ _
    | with_reducible refine keeps_free _ ?_ ?_

end Sys2Proof.Machine
end

