-- ==== Sys2Proof/Laws/KeepsBridge.lean ====
section
/-!
SUPPORT. What the operations of Machine/Bridge.lean can change, and what they keep.
-/

namespace Sys2Proof.Machine

open Sys2Proof

theorem execPcieLinkUp_keeps {w : Part → Bool} {a s : State} (hw : [Part.regs].all w = true)
    (h : a.Keeps w s) (width : Fin 3) (speed : Fin 4) (vc1 : Bool) :
    AnswerKeeps w a (execPcieLinkUp width speed vc1 s) := by
  unfold execPcieLinkUp
  repeat' first
    | with_reducible assumption
    | exact all_of hw rfl
    | with_reducible apply answerKeeps_next
    | intro _
    | with_reducible apply State.setFld_keeps
    | with_reducible apply State.setBit_keeps
    | with_reducible apply keeps_ite
    | dsimp only
    | split

theorem State.loseLinkPcie_keeps {w : Part → Bool} {a s : State}
    (hw : [Part.regs, .busReply, .saturated, .reports, .irqs, .hbr].all w = true)
    (h : a.Keeps w s) (byPm : Bool) :
    a.Keeps w (State.loseLinkPcie s byPm) := by
  unfold State.loseLinkPcie
  repeat' first
    | with_reducible assumption
    | exact all_of hw rfl
    | intro _
    | with_reducible apply State.wr_keeps
    | with_reducible apply State.bump_keeps
    | with_reducible apply State.fault_keeps
    | with_reducible apply State.failRequest_keeps
    | with_reducible apply State.hbrLog_keeps
    | with_reducible apply State.discardPrefetch_keeps
    | with_reducible apply keeps_ite
    | with_reducible apply keeps_foldl
    | dsimp only
    | split
    | with_reducible apply keeps_hbr

theorem execPcieLinkDown_keeps {w : Part → Bool} {a s : State}
    (hw : [Part.regs, .busReply, .saturated, .reports, .irqs, .hbr].all w = true)
    (h : a.Keeps w s) (byPm : Bool) :
    AnswerKeeps w a (execPcieLinkDown byPm s) := by
  unfold execPcieLinkDown
  repeat' first
    | with_reducible assumption
    | exact all_of hw rfl
    | with_reducible apply answerKeeps_next
    | intro _
    | with_reducible apply State.loseLinkPcie_keeps

theorem execPerstNChange_keeps {w : Part → Bool} {a s : State}
    (hw : [Part.regs, .busReply, .saturated, .reports, .irqs, .hbr].all w = true)
    (h : a.Keeps w s) (level : Bool) :
    AnswerKeeps w a (execPerstNChange level s) := by
  unfold execPerstNChange
  repeat' first
    | with_reducible assumption
    | exact all_of hw rfl
    | with_reducible apply answerKeeps_next
    | intro _
    | with_reducible apply State.loseLinkPcie_keeps
    | with_reducible apply keeps_ite
    | dsimp only
    | split
    | with_reducible apply keeps_hbr

theorem State.outbound_keeps {w : Part → Bool} {a0 s : State}
    (hw : [Part.regs, .busReply, .saturated, .reports, .irqs, .hbr].all w = true)
    (h : a0.Keeps w s) (m : Master) (a : Nat) (size : AccessSize) (write : Bool)
    (data : BitVec 64) :
    a0.Keeps w (State.outbound s m a size write data) := by
  unfold State.outbound
  repeat' first
    | with_reducible assumption
    | exact all_of hw rfl
    | intro _
    | with_reducible apply State.busError_keeps
    | with_reducible apply State.reply_keeps
    | with_reducible apply State.post_keeps
    | with_reducible apply State.linkBusError_keeps
    | with_reducible apply State.hbrLog_keeps
    | with_reducible apply State.request_keeps
    | with_reducible apply keeps_ite
    | dsimp only
    | split
    | with_reducible apply keeps_hbr

theorem execOutboundRequest_keeps {w : Part → Bool} {a s : State}
    (hw : [Part.regs, .busReply, .saturated, .reports, .irqs, .hbr].all w = true)
    (h : a.Keeps w s) (m : Master) (addr : BitVec 40) (size : AccessSize) (write : Bool)
    (data : BitVec 64) :
    AnswerKeeps w a (execOutboundRequest m addr size write data s) := by
  unfold execOutboundRequest
  repeat' first
    | with_reducible assumption
    | exact all_of hw rfl
    | with_reducible apply answerKeeps_next
    | intro _
    | with_reducible apply State.outbound_keeps
    | with_reducible apply State.busError_keeps
    | with_reducible apply keeps_ite

theorem State.keepPrefetch_keeps {w : Part → Bool} {a s : State} (hw : [Part.hbr].all w = true)
    (h : a.Keeps w s) (x : HbrRequest) (data : List Byte) :
    a.Keeps w (State.keepPrefetch s x data) := by
  unfold State.keepPrefetch
  repeat' first
    | with_reducible assumption
    | exact all_of hw rfl
    | intro _
    | with_reducible apply keeps_ite
    | dsimp only
    | split
    | with_reducible apply keeps_hbr

theorem execOutboundCompletion_keeps {w : Part → Bool} {a s : State}
    (hw : [Part.regs, .busReply, .saturated, .reports, .irqs, .hbr].all w = true)
    (h : a.Keeps w s) (id : Nat) (st : CplStatus) (data : List Byte) :
    AnswerKeeps w a (execOutboundCompletion id st data s) := by
  unfold execOutboundCompletion
  repeat' first
    | with_reducible assumption
    | exact all_of hw rfl
    | with_reducible apply answerKeeps_next
    | intro _
    | with_reducible apply State.flushPosted_keeps
    | with_reducible apply State.failRequest_keeps
    | with_reducible apply State.reply_keeps
    | with_reducible apply State.keepPrefetch_keeps
    | with_reducible apply State.closeRequest_keeps
    | with_reducible apply keeps_ite
    | dsimp only
    | split

theorem execCompletionTimeout_keeps {w : Part → Bool} {a s : State}
    (hw : [Part.regs, .busReply, .saturated, .reports, .irqs, .hbr].all w = true)
    (h : a.Keeps w s) (id : Nat) :
    AnswerKeeps w a (execCompletionTimeout id s) := by
  unfold execCompletionTimeout
  repeat' first
    | with_reducible assumption
    | exact all_of hw rfl
    | with_reducible apply answerKeeps_next
    | intro _
    | with_reducible apply State.failRequest_keeps
    | with_reducible apply State.monEvent_keeps
    | with_reducible apply State.bump_keeps
    | with_reducible apply keeps_ite
    | dsimp only
    | split

theorem execPcieReplay_keeps {w : Part → Bool} {a s : State}
    (hw : [Part.regs, .saturated, .irqs, .hbr].all w = true) (h : a.Keeps w s) :
    AnswerKeeps w a (execPcieReplay s) := by
  unfold execPcieReplay
  repeat' first
    | with_reducible assumption
    | exact all_of hw rfl
    | with_reducible apply answerKeeps_next
    | intro _
    | with_reducible apply State.takeFree_keeps
    | with_reducible apply State.monEvent_keeps
    | with_reducible apply State.bump_keeps
    | with_reducible apply keeps_ite
    | dsimp only
    | split
    | with_reducible apply keeps_hbr

theorem execErrorMessageReceived_keeps {w : Part → Bool} {a s : State}
    (hw : [Part.regs, .saturated, .reports, .irqs, .hbr].all w = true) (h : a.Keeps w s)
    (sev : Fin 3) (rid : BitVec 16) (failing : Option FailedRequest) :
    AnswerKeeps w a (execErrorMessageReceived sev rid failing s) := by
  unfold execErrorMessageReceived
  repeat' first
    | with_reducible assumption
    | exact all_of hw rfl
    | with_reducible apply answerKeeps_next
    | intro _
    | with_reducible apply State.hbrIrq_keeps
    | with_reducible apply State.hbrLog_keeps
    | with_reducible apply keeps_ite
    | dsimp only
    | split
    | with_reducible apply keeps_hbr

theorem execBridgeBufferError_keeps {w : Part → Bool} {a s : State}
    (hw : [Part.regs, .busReply, .saturated, .reports, .irqs, .hbr].all w = true)
    (h : a.Keeps w s) (tlp : BufferTlp) :
    AnswerKeeps w a (execBridgeBufferError tlp s) := by
  unfold execBridgeBufferError
  repeat' first
    | with_reducible assumption
    | exact all_of hw rfl
    | with_reducible apply answerKeeps_next
    | intro _
    | with_reducible apply State.fault_keeps
    | with_reducible apply State.hbrLog_keeps
    | with_reducible apply State.failRequest_keeps
    | with_reducible apply keeps_ite
    | dsimp only
    | split
    | with_reducible apply keeps_hbr

theorem execFence_keeps {w0 : Part → Bool} {a s : State}
    (hw : [Part.regs, .busReply, .saturated, .reports, .irqs, .hbr].all w0 = true)
    (h : a.Keeps w0 s) (m : Master) (w : Fin 64) :
    AnswerKeeps w0 a (execFence m w s) := by
  unfold execFence
  repeat' first
    | with_reducible assumption
    | exact all_of hw rfl
    | with_reducible apply answerKeeps_next
    | intro _
    | with_reducible apply guardReg_keeps
    | with_reducible apply State.setFld_keeps
    | with_reducible apply State.endFence_keeps
    | with_reducible apply State.bump_keeps
    | with_reducible apply State.request_keeps
    | with_reducible apply State.setBit_keeps
    | with_reducible apply keeps_ite
    | dsimp only
    | split
    | with_reducible apply keeps_hbr

theorem execFenceDone_keeps {w : Part → Bool} {a s : State}
    (hw : [Part.regs, .busReply, .saturated, .reports, .irqs, .hbr].all w = true)
    (h : a.Keeps w s) (st : CplStatus) :
    AnswerKeeps w a (execFenceDone st s) := by
  unfold execFenceDone
  repeat' first
    | with_reducible assumption
    | exact all_of hw rfl
    | with_reducible apply answerKeeps_next
    | intro _
    | with_reducible apply State.flushPosted_keeps
    | with_reducible apply State.endFence_keeps
    | with_reducible apply State.closeRequest_keeps
    | with_reducible apply State.failRequest_keeps
    | with_reducible apply keeps_ite
    | dsimp only
    | split

theorem execPrefetchExpiry_keeps {w : Part → Bool} {a s : State}
    (hw : [Part.regs, .saturated, .irqs, .hbr].all w = true) (h : a.Keeps w s) (k : Fin 16) :
    AnswerKeeps w a (execPrefetchExpiry k s) := by
  unfold execPrefetchExpiry
  repeat' first
    | with_reducible assumption
    | exact all_of hw rfl
    | with_reducible apply answerKeeps_next
    | intro _
    | with_reducible apply State.dropPrefetch_keeps
    | with_reducible apply keeps_ite
    | dsimp only
    | split
    | with_reducible apply keeps_hbr

theorem State.pollNext_keeps {w : Part → Bool} {a s : State} (hw : [Part.hbr].all w = true)
    (h : a.Keeps w s) (d : Nat) :
    a.Keeps w (State.pollNext s d) := by
  unfold State.pollNext
  repeat' first
    | with_reducible assumption
    | exact all_of hw rfl
    | intro _
    | with_reducible apply keeps_ite
    | dsimp only
    | split
    | with_reducible apply keeps_hbr

theorem execPollRead_keeps {w : Part → Bool} {a s : State}
    (hw : [Part.regs, .saturated, .reports, .irqs, .hbr].all w = true) (h : a.Keeps w s)
    (d : Fin 64) :
    AnswerKeeps w a (execPollRead d s) := by
  unfold execPollRead
  repeat' first
    | with_reducible assumption
    | exact all_of hw rfl
    | with_reducible apply answerKeeps_next
    | intro _
    | with_reducible apply State.pollNext_keeps
    | with_reducible apply State.bump_keeps
    | with_reducible apply State.pollFail_keeps
    | with_reducible apply State.request_keeps
    | with_reducible apply keeps_ite
    | dsimp only
    | split

theorem execPollCompletion_keeps {w : Part → Bool} {a s : State}
    (hw : [Part.regs, .busReply, .saturated, .reports, .irqs, .hbr].all w = true)
    (h : a.Keeps w s) (d : Fin 64) (st : CplStatus) (data : List Byte) :
    AnswerKeeps w a (execPollCompletion d st data s) := by
  unfold execPollCompletion
  repeat' first
    | with_reducible assumption
    | exact all_of hw rfl
    | with_reducible apply answerKeeps_next
    | intro _
    | with_reducible apply State.flushPosted_keeps
    | with_reducible apply State.failRequest_keeps
    | with_reducible apply State.wr_keeps
    | with_reducible apply State.closeRequest_keeps
    | with_reducible apply State.hbrIrq_keeps
    | with_reducible apply State.setBit_keeps
    | with_reducible apply keeps_ite
    | dsimp only
    | split
    | with_reducible apply keeps_hbr

theorem State.signalWrite_keeps {w : Part → Bool} {a s : State}
    (hw : [Part.regs, .saturated, .reports, .irqs, .hbr].all w = true) (h : a.Keeps w s)
    (m : Master) (bus : Nat) (data : Word) :
    a.Keeps w (State.signalWrite s m bus data) := by
  unfold State.signalWrite
  repeat' first
    | with_reducible assumption
    | exact all_of hw rfl
    | intro _
    | with_reducible apply State.post_keeps

theorem execSignalTrigger_keeps {w : Part → Bool} {a s : State}
    (hw : [Part.regs, .busReply, .saturated, .reports, .irqs, .hbr].all w = true)
    (h : a.Keeps w s) (m : Master) (sig : Word) (unmasked : Word) :
    AnswerKeeps w a (execSignalTrigger m sig unmasked s) := by
  unfold execSignalTrigger
  repeat' first
    | with_reducible assumption
    | exact all_of hw rfl
    | with_reducible apply answerKeeps_next
    | intro _
    | with_reducible apply guardReg_keeps
    | with_reducible apply State.signalWrite_keeps
    | with_reducible apply keeps_ite
    | with_reducible apply keeps_foldl
    | dsimp only
    | split
    | with_reducible exact Nat.le_add_right _ _
    | with_reducible refine keeps_free _ ?_ ?_
    | with_reducible apply keeps_hbr

theorem execRingTailWrite_keeps {w : Part → Bool} {a s : State}
    (hw : [Part.regs, .busReply, .saturated, .reports, .irqs].all w = true) (h : a.Keeps w s)
    (m : Master) (r : Fin 2) (tail : Word) :
    AnswerKeeps w a (execRingTailWrite m r tail s) := by
  unfold execRingTailWrite
  repeat' first
    | with_reducible assumption
    | exact all_of hw rfl
    | with_reducible apply answerKeeps_next
    | intro _
    | with_reducible apply guardReg_keeps
    | with_reducible apply State.wr_keeps

theorem State.ringWrite_keeps {w0 : Part → Bool} {a s : State}
    (hw : [Part.regs, .saturated, .reports, .irqs, .hbr].all w0 = true) (h : a.Keeps w0 s)
    (w : Nat) (x : Window) (off : Nat) (bs : List Byte) :
    a.Keeps w0 (State.ringWrite s w x off bs) := by
  unfold State.ringWrite
  repeat' first
    | with_reducible assumption
    | exact all_of hw rfl
    | intro _
    | with_reducible apply State.postAll_keeps

theorem State.ringDone_keeps {w0 : Part → Bool} {a s : State}
    (hw : [Part.regs, .saturated, .reports, .irqs, .hbr].all w0 = true) (h : a.Keeps w0 s)
    (r : Nat) (w : Nat) (x : Window) (len : Nat) (tc : Nat) :
    a.Keeps w0 (State.ringDone s r w x len tc) := by
  unfold State.ringDone
  repeat' first
    | with_reducible assumption
    | exact all_of hw rfl
    | intro _
    | with_reducible apply State.ringWrite_keeps
    | with_reducible apply State.wrN_keeps

theorem execRingTxFrame_keeps {w : Part → Bool} {a s : State}
    (hw : [Part.regs, .saturated, .reports, .irqs, .frames, .nextFrame, .hbr].all w = true)
    (h : a.Keeps w s) (own : Bool) (tc : Fin 8) (len : BitVec 16) (bytes : List Byte) :
    AnswerKeeps w a (execRingTxFrame own tc len bytes s) := by
  unfold execRingTxFrame
  repeat' first
    | with_reducible assumption
    | exact all_of hw rfl
    | with_reducible apply answerKeeps_next
    | intro _
    | with_reducible apply State.ringDone_keeps
    | with_reducible apply State.injectFrame_keeps
    | with_reducible apply State.setFrame_keeps
    | with_reducible apply State.bump_keeps
    | with_reducible apply keeps_ite
    | dsimp only
    | split

theorem execRingRxFrame_keeps {w : Part → Bool} {a s : State}
    (hw : [Part.regs, .saturated, .reports, .irqs, .fab, .hbr].all w = true) (h : a.Keeps w s)
    (own : Bool) (buffer : BitVec 64) :
    AnswerKeeps w a (execRingRxFrame own buffer s) := by
  unfold execRingRxFrame
  repeat' first
    | with_reducible assumption
    | exact all_of hw rfl
    | with_reducible apply answerKeeps_next
    | intro _
    | with_reducible apply State.ringWrite_keeps
    | with_reducible apply State.ringDone_keeps
    | with_reducible apply State.bump_keeps
    | with_reducible apply keeps_ite
    | dsimp only
    | split
    | with_reducible apply keeps_fab

end Sys2Proof.Machine
end

