-- ==== Sys2Proof/Laws/KeepsCipher.lean ====
section
/-!
SUPPORT. What the operations of Machine/Cipher.lean can change, and what they keep.
-/

namespace Sys2Proof.Machine

open Sys2Proof

theorem execLaneMismatch_keeps {w : Part → Bool} {a s : State}
    (hw : [Part.regs, .saturated, .reports, .irqs, .cip].all w = true) (h : a.Keeps w s)
    (lane : Fin 4) :
    AnswerKeeps w a (execLaneMismatch lane s) := by
  unfold execLaneMismatch
  repeat' first
    | with_reducible assumption
    | exact all_of hw rfl
    | with_reducible apply answerKeeps_next
    | intro _
    | with_reducible apply State.fault_keeps
    | with_reducible apply State.monEvent_keeps
    | with_reducible apply State.bump_keeps
    | with_reducible apply State.setBit_keeps
    | with_reducible apply keeps_ite
    | dsimp only
    | split
    | with_reducible apply keeps_cip

theorem execLaneReturnTest_keeps {w : Part → Bool} {a s : State}
    (hw : [Part.regs, .saturated, .cip].all w = true) (h : a.Keeps w s) (lane : Fin 4)
    (pass : Bool) :
    AnswerKeeps w a (execLaneReturnTest lane pass s) := by
  unfold execLaneReturnTest
  repeat' first
    | with_reducible assumption
    | exact all_of hw rfl
    | with_reducible apply answerKeeps_next
    | intro _
    | with_reducible apply State.bump_keeps
    | with_reducible apply State.setBit_keeps
    | with_reducible apply keeps_ite
    | dsimp only
    | split
    | with_reducible apply keeps_cip

theorem execEntropyHealthFail_keeps {w : Part → Bool} {a s : State}
    (hw : [Part.regs, .cip].all w = true) (h : a.Keeps w s) :
    AnswerKeeps w a (execEntropyHealthFail s) := by
  unfold execEntropyHealthFail
  repeat' first
    | with_reducible assumption
    | exact all_of hw rfl
    | with_reducible apply answerKeeps_next
    | intro _
    | with_reducible apply State.setBit_keeps
    | with_reducible apply keeps_ite
    | dsimp only
    | split
    | with_reducible apply keeps_cip

theorem execEntropyRetryExpiry_keeps {w : Part → Bool} {a s : State}
    (hw : [Part.regs, .mem, .busReply, .saturated, .reports, .irqs, .eccBad, .cip,
      .hbr].all w = true)
    (h : a.Keeps w s) :
    AnswerKeeps w a (execEntropyRetryExpiry s) := by
  unfold execEntropyRetryExpiry
  repeat' first
    | with_reducible assumption
    | exact all_of hw rfl
    | with_reducible apply answerKeeps_next
    | intro _
    | with_reducible apply State.setBit_keeps
    | with_reducible apply State.stopJobs_keeps
    | with_reducible apply State.disableSas_keeps
    | with_reducible apply State.fault_keeps
    | with_reducible apply keeps_ite
    | dsimp only
    | split
    | with_reducible apply keeps_cip

theorem execDrbgReseed_keeps {w : Part → Bool} {a s : State} (hw : [Part.regs, .cip].all w = true)
    (h : a.Keeps w s) :
    AnswerKeeps w a (execDrbgReseed s) := by
  unfold execDrbgReseed
  repeat' first
    | with_reducible assumption
    | exact all_of hw rfl
    | with_reducible apply answerKeeps_next
    | intro _
    | with_reducible apply State.setBit_keeps
    | with_reducible apply keeps_ite
    | dsimp only
    | split
    | with_reducible apply keeps_cip

theorem guardRead_keeps {w : Part → Bool} {a s : State}
    (hw : [Part.regs, .busReply, .saturated, .reports, .irqs].all w = true) (h : a.Keeps w s)
    (m : Master) (key : Nat) (eff : State → Word × State)
    (heff : ∀ (x0 : State), a.Keeps w x0 → a.Keeps w (eff x0).2) :
    a.Keeps w (guardRead m key eff s) := by
  unfold guardRead
  repeat' first
    | with_reducible assumption
    | exact all_of hw rfl
    | intro _
    | with_reducible apply heff
    | with_reducible apply State.busError_keeps
    | with_reducible apply State.reply_keeps
    | with_reducible apply keeps_ite
    | dsimp only
    | split

theorem State.draw_keeps {w : Part → Bool} {a s : State} (h : a.Keeps w s) :
    a.Keeps w (State.draw s).2 := by
  unfold State.draw
  repeat' first
    | with_reducible assumption
    | intro _
    | with_reducible apply State.takeFree_keeps

theorem State.generate_keeps {w : Part → Bool} {a s : State} (hw : [Part.cip].all w = true)
    (h : a.Keeps w s) :
    a.Keeps w (State.generate s) := by
  unfold State.generate
  repeat' first
    | with_reducible assumption
    | exact all_of hw rfl
    | intro _
    | with_reducible apply keeps_ite
    | dsimp only
    | split
    | with_reducible apply keeps_cip

theorem execCipRngRead_keeps {w : Part → Bool} {a s : State}
    (hw : [Part.regs, .busReply, .saturated, .reports, .irqs, .cip].all w = true)
    (h : a.Keeps w s) (m : Master) :
    AnswerKeeps w a (execCipRngRead m s) := by
  unfold execCipRngRead
  repeat' first
    | with_reducible assumption
    | exact all_of hw rfl
    | with_reducible apply answerKeeps_next
    | intro _
    | with_reducible apply guardRead_keeps
    | with_reducible apply State.draw_keeps
    | with_reducible apply State.generate_keeps

theorem execVltRngRead_keeps {w : Part → Bool} {a s : State}
    (hw : [Part.regs, .busReply, .saturated, .reports, .irqs].all w = true) (h : a.Keeps w s)
    (m : Master) :
    AnswerKeeps w a (execVltRngRead m s) := by
  unfold execVltRngRead
  repeat' first
    | with_reducible assumption
    | exact all_of hw rfl
    | with_reducible apply answerKeeps_next
    | intro _
    | with_reducible apply guardRead_keeps
    | with_reducible apply State.draw_keeps

theorem execSaEnable_keeps {w : Part → Bool} {a s : State}
    (hw : [Part.regs, .busReply, .saturated, .reports, .irqs].all w = true) (h : a.Keeps w s)
    (m : Master) (sa : Fin 1024) (en : Bool) :
    AnswerKeeps w a (execSaEnable m sa en s) := by
  unfold execSaEnable
  repeat' first
    | with_reducible assumption
    | exact all_of hw rfl
    | with_reducible apply answerKeeps_next
    | intro _
    | with_reducible apply guardReg_keeps
    | with_reducible apply State.setBit_keeps
    | with_reducible apply State.deny_keeps
    | with_reducible apply keeps_ite

theorem execKeyContextLoaded_keeps {w : Part → Bool} {a s : State} (hw : [Part.regs].all w = true)
    (h : a.Keeps w s) (k : Fin 1280) :
    AnswerKeeps w a (execKeyContextLoaded k s) := by
  unfold execKeyContextLoaded
  repeat' first
    | with_reducible assumption
    | exact all_of hw rfl
    | with_reducible apply answerKeeps_next
    | intro _
    | with_reducible apply State.setFld_keeps
    | with_reducible apply keeps_ite

theorem execKeyClear_keeps {w : Part → Bool} {a s : State}
    (hw : [Part.regs, .mem, .busReply, .saturated, .reports, .irqs, .eccBad, .tm,
      .cip, .hbr].all w = true)
    (h : a.Keeps w s) (m : Master) (ctx : BitVec 11) :
    AnswerKeeps w a (execKeyClear m ctx s) := by
  unfold execKeyClear
  repeat' first
    | with_reducible assumption
    | exact all_of hw rfl
    | with_reducible apply answerKeeps_next
    | intro _
    | with_reducible apply guardReg_keeps
    | with_reducible apply State.setFld_keeps
    | with_reducible apply State.fault_keeps
    | with_reducible apply State.revokeKey_keeps
    | with_reducible apply keeps_ite

theorem execJobClaim_keeps {w : Part → Bool} {a s : State}
    (hw : [Part.regs, .busReply, .saturated, .reports, .irqs].all w = true) (h : a.Keeps w s)
    (m : Master) (j : Fin 160) :
    AnswerKeeps w a (execJobClaim m j s) := by
  unfold execJobClaim
  repeat' first
    | with_reducible assumption
    | exact all_of hw rfl
    | with_reducible apply answerKeeps_next
    | intro _
    | with_reducible apply guardReg_keeps
    | with_reducible apply State.setFld_keeps
    | with_reducible apply State.setJobState_keeps
    | with_reducible apply keeps_ite

theorem execJobGo_keeps {w : Part → Bool} {a s : State}
    (hw : [Part.regs, .busReply, .saturated, .reports, .irqs, .cip].all w = true)
    (h : a.Keeps w s) (m : Master) (j : Fin 160) :
    AnswerKeeps w a (execJobGo m j s) := by
  unfold execJobGo
  repeat' first
    | with_reducible assumption
    | exact all_of hw rfl
    | with_reducible apply answerKeeps_next
    | intro _
    | with_reducible apply guardReg_keeps
    | with_reducible apply State.endJob_keeps
    | with_reducible apply State.setJob_keeps
    | with_reducible apply State.setJobState_keeps
    | with_reducible apply keeps_ite
    | dsimp only
    | split
    | with_reducible apply keeps_cip

theorem execJobStart_keeps {w : Part → Bool} {a s : State}
    (hw : [Part.regs, .mem, .busReply, .saturated, .reports, .irqs, .eccBad, .cip,
      .hbr].all w = true)
    (h : a.Keeps w s) (j : Fin 160) :
    AnswerKeeps w a (execJobStart j s) := by
  unfold execJobStart
  repeat' first
    | with_reducible assumption
    | exact all_of hw rfl
    | with_reducible apply answerKeeps_next
    | intro _
    | with_reducible apply State.setJobState_keeps
    | with_reducible apply State.endJob_keeps
    | with_reducible apply State.setFld_keeps
    | with_reducible apply State.suspendJob_keeps
    | with_reducible apply keeps_ite
    | with_reducible apply keeps_foldl
    | dsimp only
    | split

theorem execJobAbort_keeps {w : Part → Bool} {a s : State}
    (hw : [Part.regs, .mem, .busReply, .saturated, .reports, .irqs, .eccBad, .cip,
      .hbr].all w = true)
    (h : a.Keeps w s) (m : Master) (j : Fin 160) :
    AnswerKeeps w a (execJobAbort m j s) := by
  unfold execJobAbort
  repeat' first
    | with_reducible assumption
    | exact all_of hw rfl
    | with_reducible apply answerKeeps_next
    | intro _
    | with_reducible apply guardReg_keeps
    | with_reducible apply State.stopJob_keeps

theorem execJobRelease_keeps {w : Part → Bool} {a s : State}
    (hw : [Part.regs, .busReply, .saturated, .reports, .irqs, .cip].all w = true)
    (h : a.Keeps w s) (m : Master) (j : Fin 160) :
    AnswerKeeps w a (execJobRelease m j s) := by
  unfold execJobRelease
  repeat' first
    | with_reducible assumption
    | exact all_of hw rfl
    | with_reducible apply answerKeeps_next
    | intro _
    | with_reducible apply guardReg_keeps
    | with_reducible apply State.setJob_keeps
    | with_reducible apply State.setFld_keeps
    | with_reducible apply State.setJobState_keeps
    | with_reducible apply keeps_ite

theorem execJobDone_keeps {w : Part → Bool} {a s : State}
    (hw : [Part.regs, .mem, .busReply, .saturated, .reports, .irqs, .eccBad, .cip,
      .hbr].all w = true)
    (h : a.Keeps w s) (j : Fin 160) :
    AnswerKeeps w a (execJobDone j s) := by
  unfold execJobDone
  repeat' first
    | with_reducible assumption
    | exact all_of hw rfl
    | with_reducible apply answerKeeps_next
    | intro _
    | with_reducible apply State.runJob_keeps
    | with_reducible apply keeps_ite

theorem State.contextCorrected_keeps {w : Part → Bool} {a s : State}
    (hw : [Part.regs, .saturated, .reports, .irqs].all w = true) (h : a.Keeps w s) :
    a.Keeps w (State.contextCorrected s) := by
  unfold State.contextCorrected
  repeat' first
    | with_reducible assumption
    | exact all_of hw rfl
    | intro _
    | with_reducible apply State.takeFree_keeps
    | with_reducible apply State.fault_keeps
    | with_reducible apply State.monEvent_keeps

theorem execContextEccError_keeps {w : Part → Bool} {a s : State}
    (hw : [Part.regs, .mem, .busReply, .saturated, .reports, .irqs, .frames, .eccBad,
      .tm, .cip, .hbr].all w = true)
    (h : a.Keeps w s) (c : CipherMem) (uncorrectable : Bool) :
    AnswerKeeps w a (execContextEccError c uncorrectable s) := by
  unfold execContextEccError
  repeat' first
    | with_reducible assumption
    | exact all_of hw rfl
    | with_reducible apply answerKeeps_next
    | intro _
    | with_reducible apply State.contextCorrected_keeps
    | with_reducible apply State.disableSa_keeps
    | with_reducible apply State.markDisabled_keeps
    | with_reducible apply State.revokeKey_keeps
    | with_reducible apply State.delFrame_keeps
    | with_reducible apply State.bump_keeps
    | with_reducible apply State.stopJob_keeps
    | with_reducible apply State.fault_keeps
    | with_reducible apply keeps_ite
    | with_reducible apply keeps_foldl
    | dsimp only
    | split

end Sys2Proof.Machine
end

