-- ==== Sys2Proof/Laws/KeepsComputeOps.lean ====
section
/-!
SUPPORT. What the operations of Machine/ComputeOps.lean can change, and what they keep.
-/

namespace Sys2Proof.Machine

open Sys2Proof

theorem State.setUnit_keeps {w : Part → Bool} {a s : State} (hw : [Part.regs].all w = true)
    (h : a.Keeps w s) (u : Nat) (v : Nat) :
    a.Keeps w (State.setUnit s u v) := by
  unfold State.setUnit
  repeat' first
    | with_reducible assumption
    | exact all_of hw rfl
    | intro _
    | with_reducible apply State.setFld_keeps

theorem State.setRun_keeps {w : Part → Bool} {a s : State} (hw : [Part.regs].all w = true)
    (h : a.Keeps w s) (u : Nat) (v : Bool) :
    a.Keeps w (State.setRun s u v) := by
  unfold State.setRun
  repeat' first
    | with_reducible assumption
    | exact all_of hw rfl
    | intro _
    | with_reducible apply State.setBit_keeps

theorem State.unitFlags_keeps {w : Part → Bool} {a s : State}
    (hw : [Part.regs, .reports].all w = true) (h : a.Keeps w s) :
    a.Keeps w (State.unitFlags s) := by
  unfold State.unitFlags
  repeat' first
    | with_reducible assumption
    | exact all_of hw rfl
    | intro _
    | with_reducible apply State.setGstat_keeps

theorem State.resetMjpart_keeps {w : Part → Bool} {a s : State} (hw : [Part.cpx].all w = true)
    (h : a.Keeps w s) (u : Nat) :
    a.Keeps w (State.resetMjpart s u) := by
  unfold State.resetMjpart
  repeat' first
    | with_reducible assumption
    | exact all_of hw rfl
    | intro _
    | with_reducible apply keeps_ite
    | dsimp only
    | split
    | with_reducible apply keeps_cpx

theorem State.releaseUnit_keeps {w : Part → Bool} {a s : State}
    (hw : [Part.regs, .cpx].all w = true) (h : a.Keeps w s) (u : Nat) :
    a.Keeps w (State.releaseUnit s u) := by
  unfold State.releaseUnit
  repeat' first
    | with_reducible assumption
    | exact all_of hw rfl
    | intro _
    | with_reducible apply State.setRun_keeps
    | with_reducible apply State.resetMjpart_keeps
    | with_reducible apply State.setUnit_keeps
    | with_reducible apply keeps_ite

theorem State.stopUnit_keeps {w : Part → Bool} {a s : State} (hw : [Part.regs].all w = true)
    (h : a.Keeps w s) (u : Nat) :
    a.Keeps w (State.stopUnit s u) := by
  unfold State.stopUnit
  repeat' first
    | with_reducible assumption
    | exact all_of hw rfl
    | intro _
    | with_reducible apply State.setRun_keeps
    | with_reducible apply State.setUnit_keeps
    | with_reducible apply keeps_ite

theorem State.retarget_keeps {w : Part → Bool} {a0 s : State} (hw : [Part.regs].all w = true)
    (h : a0.Keeps w s) (lo : Nat) (hi : Nat) (a : Nat) (b : Nat) :
    a0.Keeps w (State.retarget s lo hi a b) := by
  unfold State.retarget
  repeat' first
    | with_reducible assumption
    | exact all_of hw rfl
    | intro _
    | with_reducible apply State.setFld_keeps
    | with_reducible apply keeps_ite
    | with_reducible apply keeps_foldl

theorem State.retargetUnit_keeps {w : Part → Bool} {a s : State} (hw : [Part.regs].all w = true)
    (h : a.Keeps w s) (u : Nat) (v : Nat) :
    a.Keeps w (State.retargetUnit s u v) := by
  unfold State.retargetUnit
  repeat' first
    | with_reducible assumption
    | exact all_of hw rfl
    | intro _
    | with_reducible apply State.retarget_keeps
    | with_reducible apply keeps_ite

theorem State.failRecord_keeps {w : Part → Bool} {a s : State} (hw : [Part.regs].all w = true)
    (h : a.Keeps w s) (u : Nat) (v : Nat) (latent : Bool) (moved : Nat) :
    a.Keeps w (State.failRecord s u v latent moved) := by
  unfold State.failRecord
  repeat' first
    | with_reducible assumption
    | exact all_of hw rfl
    | intro _
    | with_reducible apply State.wrN_keeps

theorem State.failOver_keeps {w : Part → Bool} {a s : State}
    (hw : [Part.regs, .saturated, .reports, .irqs, .cpx].all w = true) (h : a.Keeps w s) (u : Nat)
    (latent : Bool) :
    a.Keeps w (State.failOver s u latent) := by
  unfold State.failOver
  repeat' first
    | with_reducible assumption
    | exact all_of hw rfl
    | intro _
    | with_reducible apply State.setFld_keeps
    | with_reducible apply State.failRecord_keeps
    | with_reducible apply State.retargetUnit_keeps
    | with_reducible apply State.releaseUnit_keeps
    | with_reducible apply State.unitFlags_keeps
    | with_reducible apply State.irq_keeps
    | with_reducible apply State.monEvent_keeps
    | with_reducible apply State.bump_keeps
    | with_reducible apply keeps_ite
    | with_reducible apply keeps_foldl

theorem State.lockstepOut_keeps {w : Part → Bool} {a s : State}
    (hw : [Part.regs, .saturated, .reports, .irqs, .cpx].all w = true) (h : a.Keeps w s) (u : Nat)
    (latent : Bool) :
    a.Keeps w (State.lockstepOut s u latent) := by
  unfold State.lockstepOut
  repeat' first
    | with_reducible assumption
    | exact all_of hw rfl
    | intro _
    | with_reducible apply State.bump_keeps
    | with_reducible apply State.setRun_keeps
    | with_reducible apply State.setUnit_keeps
    | with_reducible apply State.failOver_keeps
    | with_reducible apply State.fault_keeps
    | with_reducible apply State.unitFlags_keeps
    | with_reducible apply keeps_ite
    | dsimp only
    | split
    | with_reducible apply keeps_cpx

theorem State.setScopes_keeps {w : Part → Bool} {a s : State} (hw : [Part.regs].all w = true)
    (h : a.Keeps w s) (v : Nat) :
    a.Keeps w (State.setScopes s v) := by
  unfold State.setScopes
  repeat' first
    | with_reducible assumption
    | exact all_of hw rfl
    | intro _
    | with_reducible apply State.setFld_keeps
    | with_reducible apply State.setBit_keeps
    | with_reducible apply keeps_ite
    | with_reducible apply keeps_foldl

end Sys2Proof.Machine
end

