-- ==== Sys2Proof/Laws/KeepsCompute.lean ====
section
/-!
SUPPORT. What the operations of Machine/Compute.lean can change, and what they keep.
-/

namespace Sys2Proof.Machine

open Sys2Proof

theorem execMjpartWrite_keeps {w : Part → Bool} {a s : State} (hw : [Part.cpx].all w = true)
    (h : a.Keeps w s) (u : Fin 6) (v : Word) :
    AnswerKeeps w a (execMjpartWrite u v s) := by
  unfold execMjpartWrite
  repeat' first
    | with_reducible assumption
    | exact all_of hw rfl
    | with_reducible apply answerKeeps_next
    | intro _
    | with_reducible apply keeps_ite
    | dsimp only
    | split
    | with_reducible apply keeps_cpx

theorem execSoftwareInterrupt_keeps {w : Part → Bool} {a s : State}
    (hw : [Part.regs, .busReply, .saturated, .reports, .irqs].all w = true) (h : a.Keeps w s)
    (m : Master) (n : BitVec 9) :
    AnswerKeeps w a (execSoftwareInterrupt m n s) := by
  unfold execSoftwareInterrupt
  repeat' first
    | with_reducible assumption
    | exact all_of hw rfl
    | with_reducible apply answerKeeps_next
    | intro _
    | with_reducible apply guardReg_keeps
    | with_reducible apply State.irq_keeps
    | with_reducible apply keeps_ite

theorem execPairRun_keeps {w : Part → Bool} {a s : State}
    (hw : [Part.regs, .busReply, .saturated, .reports, .irqs, .cpx].all w = true)
    (h : a.Keeps w s) (m : Master) (u : Fin 6) :
    AnswerKeeps w a (execPairRun m u s) := by
  unfold execPairRun
  repeat' first
    | with_reducible assumption
    | exact all_of hw rfl
    | with_reducible apply answerKeeps_next
    | intro _
    | with_reducible apply guardReg_keeps
    | with_reducible apply State.unitFlags_keeps
    | with_reducible apply State.releaseUnit_keeps
    | with_reducible apply keeps_ite

theorem State.firstPairPassed_keeps {w : Part → Bool} {a s : State}
    (hw : [Part.regs, .reports, .flt].all w = true) (h : a.Keeps w s) :
    a.Keeps w (State.firstPairPassed s) := by
  unfold State.firstPairPassed
  repeat' first
    | with_reducible assumption
    | exact all_of hw rfl
    | intro _
    | with_reducible apply State.setGstat_keeps
    | with_reducible apply State.setBit_keeps
    | with_reducible apply keeps_ite
    | dsimp only
    | split
    | with_reducible apply keeps_flt

theorem execComparatorSelftestDone_keeps {w : Part → Bool} {a s : State}
    (hw : [Part.regs, .reports, .boot, .flt].all w = true) (h : a.Keeps w s) (u : Fin 6)
    (pass : Bool) :
    AnswerKeeps w a (execComparatorSelftestDone u pass s) := by
  unfold execComparatorSelftestDone
  repeat' first
    | with_reducible assumption
    | exact all_of hw rfl
    | with_reducible apply answerKeeps_next
    | intro _
    | with_reducible apply State.unitFlags_keeps
    | with_reducible apply State.firstPairPassed_keeps
    | with_reducible apply State.setUnit_keeps
    | with_reducible apply State.setGstat_keeps
    | with_reducible apply State.setRun_keeps
    | with_reducible apply State.fault_keeps
    | with_reducible apply keeps_ite
    | dsimp only
    | split
    | with_reducible apply keeps_boot

theorem execLockstepMismatch_keeps {w : Part → Bool} {a s : State}
    (hw : [Part.regs, .saturated, .reports, .irqs, .cpx].all w = true) (h : a.Keeps w s)
    (u : Fin 6) :
    AnswerKeeps w a (execLockstepMismatch u s) := by
  unfold execLockstepMismatch
  repeat' first
    | with_reducible assumption
    | exact all_of hw rfl
    | with_reducible apply answerKeeps_next
    | intro _
    | with_reducible apply State.lockstepOut_keeps
    | with_reducible apply keeps_ite

theorem execSpareReturnTest_keeps {w : Part → Bool} {a s : State}
    (hw : [Part.regs, .saturated, .reports, .irqs, .cpx].all w = true) (h : a.Keeps w s)
    (u : Fin 6) (pass : Bool) :
    AnswerKeeps w a (execSpareReturnTest u pass s) := by
  unfold execSpareReturnTest
  repeat' first
    | with_reducible assumption
    | exact all_of hw rfl
    | with_reducible apply answerKeeps_next
    | intro _
    | with_reducible apply State.setUnit_keeps
    | with_reducible apply State.irq_keeps
    | with_reducible apply State.bump_keeps
    | with_reducible apply State.fault_keeps
    | with_reducible apply keeps_ite
    | dsimp only
    | split
    | with_reducible apply keeps_cpx

theorem execGroomerScrub_keeps {w : Part → Bool} {a s : State}
    (hw : [Part.regs, .saturated, .reports, .irqs, .cpx].all w = true) (h : a.Keeps w s)
    (u : Fin 6) (agree : Bool) :
    AnswerKeeps w a (execGroomerScrub u agree s) := by
  unfold execGroomerScrub
  repeat' first
    | with_reducible assumption
    | exact all_of hw rfl
    | with_reducible apply answerKeeps_next
    | intro _
    | with_reducible apply State.monEvent_keeps
    | with_reducible apply State.bump_keeps
    | with_reducible apply State.irq_keeps
    | with_reducible apply State.fault_keeps
    | with_reducible apply State.lockstepOut_keeps
    | with_reducible apply State.unitFlags_keeps
    | with_reducible apply State.setUnit_keeps
    | with_reducible apply keeps_ite
    | dsimp only
    | split
    | with_reducible apply keeps_cpx

theorem execResyncDone_keeps {w : Part → Bool} {a s : State}
    (hw : [Part.regs, .reports].all w = true) (h : a.Keeps w s) (u : Fin 6) :
    AnswerKeeps w a (execResyncDone u s) := by
  unfold execResyncDone
  repeat' first
    | with_reducible assumption
    | exact all_of hw rfl
    | with_reducible apply answerKeeps_next
    | intro _
    | with_reducible apply State.unitFlags_keeps
    | with_reducible apply State.setUnit_keeps
    | with_reducible apply keeps_ite

theorem execCheckpointCommit_keeps {w : Part → Bool} {a s : State}
    (hw : [Part.regs, .busReply, .saturated, .reports, .irqs].all w = true) (h : a.Keeps w s)
    (m : Master) (pmid : BitVec 6) (seq : BitVec 16) :
    AnswerKeeps w a (execCheckpointCommit m pmid seq s) := by
  unfold execCheckpointCommit
  repeat' first
    | with_reducible assumption
    | exact all_of hw rfl
    | with_reducible apply answerKeeps_next
    | intro _
    | with_reducible apply guardReg_keeps
    | with_reducible apply State.setFld_keeps
    | with_reducible apply keeps_ite

theorem execDebugOpen_keeps {w : Part → Bool} {a s : State}
    (hw : [Part.regs, .busReply, .saturated, .reports, .irqs, .vlt, .cpx].all w = true)
    (h : a.Keeps w s) (m : Master) :
    AnswerKeeps w a (execDebugOpen m s) := by
  unfold execDebugOpen
  repeat' first
    | with_reducible assumption
    | exact all_of hw rfl
    | with_reducible apply answerKeeps_next
    | intro _
    | with_reducible apply guardReg_keeps
    | with_reducible apply State.setFld_keeps
    | with_reducible apply State.extendMr_keeps
    | with_reducible apply State.setScopes_keeps
    | with_reducible apply State.bump_keeps
    | with_reducible apply State.fault_keeps
    | with_reducible apply State.irq_keeps
    | with_reducible apply keeps_ite
    | dsimp only
    | split
    | with_reducible apply keeps_cpx

theorem State.closeDebug_keeps {w : Part → Bool} {a s : State}
    (hw : [Part.regs, .reports].all w = true) (h : a.Keeps w s) :
    a.Keeps w (State.closeDebug s) := by
  unfold State.closeDebug
  repeat' first
    | with_reducible assumption
    | exact all_of hw rfl
    | intro _
    | with_reducible apply State.unitFlags_keeps
    | with_reducible apply State.setUnit_keeps
    | with_reducible apply State.setScopes_keeps
    | with_reducible apply keeps_ite
    | with_reducible apply keeps_foldl

theorem execDebugExpiry_keeps {w : Part → Bool} {a s : State}
    (hw : [Part.regs, .reports].all w = true) (h : a.Keeps w s) :
    AnswerKeeps w a (execDebugExpiry s) := by
  unfold execDebugExpiry
  repeat' first
    | with_reducible assumption
    | exact all_of hw rfl
    | with_reducible apply answerKeeps_next
    | intro _
    | with_reducible apply State.closeDebug_keeps
    | with_reducible apply keeps_ite

theorem execDebugHalt_keeps {w : Part → Bool} {a s : State}
    (hw : [Part.regs, .reports].all w = true) (h : a.Keeps w s) (u : Fin 6) (halt : Bool) :
    AnswerKeeps w a (execDebugHalt u halt s) := by
  unfold execDebugHalt
  repeat' first
    | with_reducible assumption
    | exact all_of hw rfl
    | with_reducible apply answerKeeps_next
    | intro _
    | with_reducible apply State.unitFlags_keeps
    | with_reducible apply State.setUnit_keeps
    | with_reducible apply keeps_ite

end Sys2Proof.Machine
end

