-- ==== Sys2Proof/Laws/KeepsWakeOps.lean ====
section
/-!
SUPPORT. What the operations of Machine/WakeOps.lean can change, and what they keep.
-/

namespace Sys2Proof.Machine

open Sys2Proof

theorem State.beginTrans_keeps {w : Part → Bool} {a s : State} (hw : [Part.regs].all w = true)
    (h : a.Keeps w s) (target : Nat) :
    a.Keeps w (State.beginTrans s target) := by
  unfold State.beginTrans
  repeat' first
    | with_reducible assumption
    | exact all_of hw rfl
    | intro _
    | with_reducible apply State.setBit_keeps
    | with_reducible apply State.setFld_keeps

theorem State.setPhase_keeps {w : Part → Bool} {a s : State} (hw : [Part.regs].all w = true)
    (h : a.Keeps w s) (v : Nat) :
    a.Keeps w (State.setPhase s v) := by
  unfold State.setPhase
  repeat' first
    | with_reducible assumption
    | exact all_of hw rfl
    | intro _
    | with_reducible apply State.setFld_keeps

theorem State.postEvent_keeps {w : Part → Bool} {a s : State} (hw : [Part.rtk, .wak].all w = true)
    (h : a.Keeps w s) (e : WakeEvent) :
    a.Keeps w (State.postEvent s e) := by
  unfold State.postEvent
  repeat' first
    | with_reducible assumption
    | exact all_of hw rfl
    | intro _
    | with_reducible apply State.setThread_keeps
    | with_reducible apply keeps_ite
    | dsimp only
    | split
    | with_reducible apply keeps_wak

theorem State.setRing_keeps {w : Part → Bool} {a s : State} (hw : [Part.wak].all w = true)
    (h : a.Keeps w s) (top : Bool) (r : RingState) :
    a.Keeps w (State.setRing s top r) := by
  unfold State.setRing
  repeat' first
    | with_reducible assumption
    | exact all_of hw rfl
    | intro _
    | with_reducible apply keeps_ite
    | dsimp only
    | split
    | with_reducible apply keeps_wak

theorem State.seeChair_keeps {w : Part → Bool} {a s : State} (hw : [Part.wak].all w = true)
    (h : a.Keeps w s) (top : Bool) (c : Chair) :
    a.Keeps w (State.seeChair s top c) := by
  unfold State.seeChair
  repeat' first
    | with_reducible assumption
    | exact all_of hw rfl
    | intro _
    | with_reducible apply State.setRing_keeps
    | with_reducible apply keeps_ite
    | dsimp only
    | split
    | with_reducible apply keeps_wak

theorem State.emitChair_keeps {w : Part → Bool} {a s : State}
    (hw : [Part.frames, .nextFrame].all w = true) (h : a.Keeps w s) (ty : ChairType) (c : Chair) :
    a.Keeps w (State.emitChair s ty c) := by
  unfold State.emitChair
  repeat' first
    | with_reducible assumption
    | exact all_of hw rfl
    | intro _
    | with_reducible apply State.injectFrame_keeps

theorem State.adoptEpoch_keeps {w : Part → Bool} {a s : State}
    (hw : [Part.regs, .wak].all w = true) (h : a.Keeps w s) (e : Nat) :
    a.Keeps w (State.adoptEpoch s e) := by
  unfold State.adoptEpoch
  repeat' first
    | with_reducible assumption
    | exact all_of hw rfl
    | intro _
    | with_reducible apply State.wr_keeps
    | with_reducible apply State.wrN_keeps
    | with_reducible apply State.setBit_keeps
    | with_reducible apply keeps_ite
    | with_reducible apply keeps_foldl
    | dsimp only
    | split
    | with_reducible apply keeps_wak

theorem State.floodAbort_keeps {w : Part → Bool} {a s : State}
    (hw : [Part.frames, .nextFrame].all w = true) (h : a.Keeps w s) (epoch : Nat) (origin : Nat) :
    a.Keeps w (State.floodAbort s epoch origin) := by
  unfold State.floodAbort
  repeat' first
    | with_reducible assumption
    | exact all_of hw rfl
    | intro _
    | with_reducible apply State.emitChair_keeps
    | with_reducible apply keeps_ite

theorem State.sendAbort_keeps {w : Part → Bool} {a s : State}
    (hw : [Part.regs, .saturated, .frames, .nextFrame, .rtk, .wak, .irqs].all w = true) (h : a.Keeps w s)
    :
    a.Keeps w (State.sendAbort s) := by
  unfold State.sendAbort
  repeat' first
    | with_reducible assumption
    | exact all_of hw rfl
    | intro _
    | with_reducible apply State.monEvent_keeps
    | with_reducible apply State.bump_keeps
    | with_reducible apply State.floodAbort_keeps
    | with_reducible apply State.adoptEpoch_keeps
    | with_reducible apply State.postEvent_keeps
    | with_reducible apply keeps_ite
    | dsimp only
    | split
    | with_reducible apply keeps_wak

theorem State.wakeRequest_keeps {w : Part → Bool} {a s : State}
    (hw : [Part.regs, .saturated, .frames, .nextFrame, .rtk, .wak, .irqs].all w = true) (h : a.Keeps w s)
    :
    a.Keeps w (State.wakeRequest s) := by
  unfold State.wakeRequest
  repeat' first
    | with_reducible assumption
    | exact all_of hw rfl
    | intro _
    | with_reducible apply State.setBit_keeps
    | with_reducible apply State.sendAbort_keeps
    | with_reducible apply keeps_ite

theorem State.setDeadline_keeps {w : Part → Bool} {a s : State}
    (hw : [Part.regs, .wak].all w = true) (h : a.Keeps w s) (ns : Nat) :
    a.Keeps w (State.setDeadline s ns) := by
  unfold State.setDeadline
  repeat' first
    | with_reducible assumption
    | exact all_of hw rfl
    | intro _
    | with_reducible apply State.wrN_keeps
    | with_reducible apply State.setPhase_keeps
    | with_reducible apply keeps_ite
    | dsimp only
    | split
    | with_reducible apply keeps_wak

theorem State.forwardChair_keeps {w : Part → Bool} {a s : State}
    (hw : [Part.regs, .saturated, .frames, .nextFrame, .wak, .irqs].all w = true) (h : a.Keeps w s)
    (top : Bool) (c : Chair) :
    a.Keeps w (State.forwardChair s top c) := by
  unfold State.forwardChair
  repeat' first
    | with_reducible assumption
    | exact all_of hw rfl
    | intro _
    | with_reducible apply State.monEvent_keeps
    | with_reducible apply State.setPhase_keeps
    | with_reducible apply State.seeChair_keeps
    | with_reducible apply State.setRing_keeps
    | with_reducible apply State.bump_keeps
    | with_reducible apply State.emitChair_keeps
    | with_reducible apply keeps_ite

theorem State.releaseRing_keeps {w : Part → Bool} {a s : State}
    (hw : [Part.regs, .saturated, .frames, .nextFrame, .wak, .irqs].all w = true) (h : a.Keeps w s)
    (top : Bool) :
    a.Keeps w (State.releaseRing s top) := by
  unfold State.releaseRing
  repeat' first
    | with_reducible assumption
    | exact all_of hw rfl
    | intro _
    | with_reducible apply State.forwardChair_keeps
    | with_reducible apply keeps_ite
    | dsimp only
    | split

theorem State.releaseHeld_keeps {w : Part → Bool} {a s : State}
    (hw : [Part.regs, .saturated, .reports, .frames, .nextFrame, .rtk, .wak, .irqs].all w = true)
    (h : a.Keeps w s) :
    a.Keeps w (State.releaseHeld s) := by
  unfold State.releaseHeld
  repeat' first
    | with_reducible assumption
    | exact all_of hw rfl
    | intro _
    | with_reducible apply State.releaseRing_keeps
    | with_reducible apply State.sendAbort_keeps
    | with_reducible apply State.fault_keeps
    | with_reducible apply State.bump_keeps
    | with_reducible apply State.setDeadline_keeps
    | with_reducible apply State.setRing_keeps
    | with_reducible apply keeps_ite

theorem State.wakeRecord_keeps {w : Part → Bool} {a s : State}
    (hw : [Part.regs, .wak].all w = true) (h : a.Keeps w s) (code : Nat) (sub : Nat) (ident : Nat)
    :
    a.Keeps w (State.wakeRecord s code sub ident).1 := by
  unfold State.wakeRecord
  repeat' first
    | with_reducible assumption
    | exact all_of hw rfl
    | intro _
    | with_reducible apply State.setFld_keeps
    | with_reducible apply State.wrN_keeps
    | with_reducible apply keeps_ite
    | dsimp only
    | split
    | with_reducible apply keeps_wak

theorem State.startWake_keeps {w : Part → Bool} {a s : State}
    (hw : [Part.regs, .islands, .saturated, .wak, .irqs].all w = true) (h : a.Keeps w s) (target : Nat)
    (r : Option Nat) :
    a.Keeps w (State.startWake s target r) := by
  unfold State.startWake
  repeat' first
    | with_reducible assumption
    | exact all_of hw rfl
    | intro _
    | with_reducible apply State.monEvent_keeps
    | with_reducible apply State.setFld_keeps
    | with_reducible apply State.bump_keeps
    | with_reducible apply State.adoptEpoch_keeps
    | with_reducible apply State.beginTrans_keeps
    | with_reducible apply State.setIsland_keeps
    | with_reducible apply keeps_ite
    | with_reducible apply keeps_foldl
    | dsimp only
    | split
    | with_reducible apply keeps_wak

theorem State.wakeEvent_keeps {w : Part → Bool} {a s : State}
    (hw : [Part.regs, .islands, .saturated, .frames, .nextFrame, .rtk, .wak, .irqs].all w = true)
    (h : a.Keeps w s) (code : Nat) (sub : Nat) (ident : Nat) :
    a.Keeps w (State.wakeEvent s code sub ident) := by
  unfold State.wakeEvent
  repeat' first
    | with_reducible assumption
    | exact all_of hw rfl
    | intro _
    | with_reducible apply State.wakeRecord_keeps
    | with_reducible apply State.wakeRequest_keeps
    | with_reducible apply State.postEvent_keeps
    | with_reducible apply State.startWake_keeps
    | with_reducible apply keeps_ite
    | with_reducible refine keeps_of_snd ?_ (by with_reducible assumption)
    | with_reducible refine keeps_of_fst ?_ (by with_reducible assumption)
    | dsimp only
    | split
    | with_reducible apply keeps_wak

end Sys2Proof.Machine
end

