-- ==== Sys2Proof/Laws/KeepsGwyOps.lean ====
section
/-!
SUPPORT. What the operations of Machine/GwyOps.lean can change, and what they keep.
-/

namespace Sys2Proof.Machine

open Sys2Proof

theorem State.gwyDrain_keeps {w : Part → Bool} {a s : State}
    (hw : [Part.frames, .nextFrame, .gwy].all w = true) (h : a.Keeps w s) :
    a.Keeps w (State.gwyDrain s) := by
  unfold State.gwyDrain
  repeat' first
    | with_reducible assumption
    | exact all_of hw rfl
    | intro _
    | with_reducible apply State.injectFrame_keeps
    | with_reducible apply keeps_ite
    | with_reducible apply keeps_foldl
    | dsimp only
    | split
    | with_reducible apply keeps_gwy

theorem State.gwyPush_keeps {w : Part → Bool} {a s : State}
    (hw : [Part.frames, .nextFrame, .gwy].all w = true) (h : a.Keeps w s) (bus : Nat) (chan : Nat)
    (bs : List Byte) (rx : Bool) :
    a.Keeps w (State.gwyPush s bus chan bs rx) := by
  unfold State.gwyPush
  repeat' first
    | with_reducible assumption
    | exact all_of hw rfl
    | intro _
    | with_reducible apply State.gwyDrain_keeps
    | with_reducible apply keeps_ite
    | dsimp only
    | split
    | with_reducible apply keeps_gwy

theorem State.gwyReceive_keeps {w : Part → Bool} {a s : State}
    (hw : [Part.regs, .saturated, .reports, .frames, .nextFrame, .wak, .gwy].all w = true)
    (h : a.Keeps w s) (bus : Nat) (chan : Nat) (bs : List Byte) (rxCnt : Nat) (ovrCnt : Nat) :
    a.Keeps w (State.gwyReceive s bus chan bs rxCnt ovrCnt) := by
  unfold State.gwyReceive
  repeat' first
    | with_reducible assumption
    | exact all_of hw rfl
    | intro _
    | with_reducible apply State.heardFrame_keeps
    | with_reducible apply State.gwyPush_keeps
    | with_reducible apply State.bump_keeps
    | with_reducible apply State.fault_keeps
    | with_reducible apply keeps_ite

theorem State.gwyEvent_keeps {w : Part → Bool} {a s : State}
    (hw : [Part.reports, .frames, .nextFrame, .gwy].all w = true) (h : a.Keeps w s) (bus : Nat)
    (chan : Nat) (data : List Byte) :
    a.Keeps w (State.gwyEvent s bus chan data) := by
  unfold State.gwyEvent
  repeat' first
    | with_reducible assumption
    | exact all_of hw rfl
    | intro _
    | with_reducible apply State.gwyPush_keeps
    | with_reducible apply State.fault_keeps
    | with_reducible apply keeps_ite
    | dsimp only
    | split
    | with_reducible apply keeps_gwy

theorem State.gwyReturn_keeps {w : Part → Bool} {a s : State}
    (hw : [Part.regs, .saturated, .frames, .nextFrame, .gwy].all w = true) (h : a.Keeps w s)
    (bus : Nat) (chan : Nat) (bs : List Byte) (reason : Nat) (failCnt : Nat) :
    a.Keeps w (State.gwyReturn s bus chan bs reason failCnt) := by
  unfold State.gwyReturn
  repeat' first
    | with_reducible assumption
    | exact all_of hw rfl
    | intro _
    | with_reducible apply State.gwyPush_keeps
    | with_reducible apply State.bump_keeps

theorem State.gwySent_keeps {w : Part → Bool} {a s : State}
    (hw : [Part.regs, .saturated, .frames, .nextFrame, .gwy].all w = true) (h : a.Keeps w s)
    (bus : Nat) (chan : Nat) (bs : List Byte) (txCnt : Nat) (ago : Nat) :
    a.Keeps w (State.gwySent s bus chan bs txCnt ago) := by
  unfold State.gwySent
  repeat' first
    | with_reducible assumption
    | exact all_of hw rfl
    | intro _
    | with_reducible apply State.bump_keeps
    | with_reducible apply State.gwyPush_keeps
    | with_reducible apply keeps_ite
    | dsimp only
    | split
    | with_reducible apply keeps_gwy

theorem State.setCanTx_keeps {w : Part → Bool} {a s : State} (hw : [Part.regs, .gwy].all w = true)
    (h : a.Keeps w s) (c : Nat) (v : List GwyTx) :
    a.Keeps w (State.setCanTx s c v) := by
  unfold State.setCanTx
  repeat' first
    | with_reducible assumption
    | exact all_of hw rfl
    | intro _
    | with_reducible apply State.setBit_keeps
    | with_reducible apply keeps_ite
    | dsimp only
    | split
    | with_reducible apply keeps_gwy

theorem State.returnCan_keeps {w : Part → Bool} {a s : State}
    (hw : [Part.regs, .saturated, .frames, .nextFrame, .gwy].all w = true) (h : a.Keeps w s)
    (c : Nat) (reason : Nat) :
    a.Keeps w (State.returnCan s c reason) := by
  unfold State.returnCan
  repeat' first
    | with_reducible assumption
    | exact all_of hw rfl
    | intro _
    | with_reducible apply State.gwyReturn_keeps
    | with_reducible apply State.setCanTx_keeps
    | with_reducible apply keeps_ite
    | with_reducible apply keeps_foldl

theorem State.busOff_keeps {w : Part → Bool} {a s : State}
    (hw : [Part.regs, .saturated, .reports, .frames, .nextFrame, .gwy].all w = true)
    (h : a.Keeps w s) (c : Nat) :
    a.Keeps w (State.busOff s c) := by
  unfold State.busOff
  repeat' first
    | with_reducible assumption
    | exact all_of hw rfl
    | intro _
    | with_reducible apply State.returnCan_keeps
    | with_reducible apply State.fault_keeps
    | with_reducible apply State.bump_keeps
    | with_reducible apply State.setFld_keeps

theorem State.setCanErrors_keeps {w : Part → Bool} {a s : State}
    (hw : [Part.regs, .saturated, .reports, .frames, .nextFrame, .gwy].all w = true)
    (h : a.Keeps w s) (c : Nat) (rec_ : Nat) (tec : Nat) :
    a.Keeps w (State.setCanErrors s c rec_ tec) := by
  unfold State.setCanErrors
  repeat' first
    | with_reducible assumption
    | exact all_of hw rfl
    | intro _
    | with_reducible apply State.setFld_keeps
    | with_reducible apply State.busOff_keeps
    | with_reducible apply keeps_ite

theorem State.setLinBuf_keeps {w : Part → Bool} {a s : State} (hw : [Part.gwy].all w = true)
    (h : a.Keeps w s) (l : Nat) (i : Nat) (v : Option LinBuffer) :
    a.Keeps w (State.setLinBuf s l i v) := by
  unfold State.setLinBuf
  repeat' first
    | with_reducible assumption
    | exact all_of hw rfl
    | intro _
    | with_reducible apply keeps_ite
    | dsimp only
    | split
    | with_reducible apply keeps_gwy

theorem State.linRespond_keeps {w : Part → Bool} {a s : State}
    (hw : [Part.regs, .saturated, .frames, .nextFrame, .gwy].all w = true) (h : a.Keeps w s)
    (l : Nat) (i : Nat) (ago : Nat) :
    a.Keeps w (State.linRespond s l i ago) := by
  unfold State.linRespond
  repeat' first
    | with_reducible assumption
    | exact all_of hw rfl
    | intro _
    | with_reducible apply State.gwySent_keeps
    | with_reducible apply State.setLinBuf_keeps
    | with_reducible apply keeps_ite
    | dsimp only
    | split

theorem State.stopCan_keeps {w : Part → Bool} {a s : State}
    (hw : [Part.regs, .saturated, .frames, .nextFrame, .gwy].all w = true) (h : a.Keeps w s)
    (c : Nat) :
    a.Keeps w (State.stopCan s c) := by
  unfold State.stopCan
  repeat' first
    | with_reducible assumption
    | exact all_of hw rfl
    | intro _
    | with_reducible apply State.setFld_keeps
    | with_reducible apply State.returnCan_keeps

theorem State.stopLin_keeps {w : Part → Bool} {a s : State}
    (hw : [Part.regs, .saturated, .frames, .nextFrame, .gwy].all w = true) (h : a.Keeps w s)
    (l : Nat) :
    a.Keeps w (State.stopLin s l) := by
  unfold State.stopLin
  repeat' first
    | with_reducible assumption
    | exact all_of hw rfl
    | intro _
    | with_reducible apply State.setLinBuf_keeps
    | with_reducible apply State.gwyReturn_keeps
    | with_reducible apply keeps_ite
    | with_reducible apply keeps_foldl
    | dsimp only
    | split

theorem State.setSerTx_keeps {w : Part → Bool} {a s : State} (hw : [Part.gwy].all w = true)
    (h : a.Keeps w s) (c : Nat) (v : List (List Byte)) :
    a.Keeps w (State.setSerTx s c v) := by
  unfold State.setSerTx
  repeat' first
    | with_reducible assumption
    | exact all_of hw rfl
    | intro _
    | with_reducible apply keeps_ite
    | dsimp only
    | split
    | with_reducible apply keeps_gwy

theorem State.stopSer_keeps {w : Part → Bool} {a s : State}
    (hw : [Part.regs, .saturated, .frames, .nextFrame, .gwy].all w = true) (h : a.Keeps w s)
    (c : Nat) :
    a.Keeps w (State.stopSer s c) := by
  unfold State.stopSer
  repeat' first
    | with_reducible assumption
    | exact all_of hw rfl
    | intro _
    | with_reducible apply State.gwyReturn_keeps
    | with_reducible apply State.setSerTx_keeps
    | with_reducible apply keeps_ite
    | with_reducible apply keeps_foldl

theorem State.startCan_keeps {w : Part → Bool} {a s : State}
    (hw : [Part.regs, .saturated, .reports, .frames, .nextFrame, .gwy].all w = true)
    (h : a.Keeps w s) (c : Nat) :
    a.Keeps w (State.startCan s c) := by
  unfold State.startCan
  repeat' first
    | with_reducible assumption
    | exact all_of hw rfl
    | intro _
    | with_reducible apply State.setCanErrors_keeps

theorem State.startLin_keeps {w : Part → Bool} {a s : State} (hw : [Part.gwy].all w = true)
    (h : a.Keeps w s) (l : Nat) :
    a.Keeps w (State.startLin s l) := by
  unfold State.startLin
  repeat' first
    | with_reducible assumption
    | exact all_of hw rfl
    | intro _
    | with_reducible apply keeps_ite
    | dsimp only
    | split
    | with_reducible apply keeps_gwy

theorem State.stopGwy_keeps {w : Part → Bool} {a s : State}
    (hw : [Part.regs, .saturated, .frames, .nextFrame, .gwy].all w = true) (h : a.Keeps w s)
    (i : Nat) :
    a.Keeps w (State.stopGwy s i) := by
  unfold State.stopGwy
  repeat' first
    | with_reducible assumption
    | exact all_of hw rfl
    | intro _
    | with_reducible apply State.stopCan_keeps
    | with_reducible apply State.stopSer_keeps
    | with_reducible apply State.stopLin_keeps
    | with_reducible apply keeps_ite
    | with_reducible apply keeps_foldl

theorem State.startGwy_keeps {w : Part → Bool} {a s : State}
    (hw : [Part.regs, .saturated, .reports, .frames, .nextFrame, .gwy].all w = true)
    (h : a.Keeps w s) (i : Nat) :
    a.Keeps w (State.startGwy s i) := by
  unfold State.startGwy
  repeat' first
    | with_reducible assumption
    | exact all_of hw rfl
    | intro _
    | with_reducible apply State.startCan_keeps
    | with_reducible apply State.startLin_keeps
    | with_reducible apply keeps_ite
    | with_reducible apply keeps_foldl

end Sys2Proof.Machine
end

