-- ==== Sys2Proof/Laws/KeepsGateway.lean ====
section
/-!
SUPPORT. What the operations of Machine/Gateway.lean can change, and what they keep.
-/

namespace Sys2Proof.Machine

open Sys2Proof

theorem execCanFrameReceived_keeps {w : Part → Bool} {a s : State}
    (hw : [Part.regs, .saturated, .reports, .irqs, .frames, .nextFrame, .wak, .gwy].all w = true)
    (h : a.Keeps w s) (c : Fin 16) (how : CanRx) (ident : BitVec 29) (flags : BitVec 5)
    (data : List Byte) (ago : BitVec 32) :
    AnswerKeeps w a (execCanFrameReceived c how ident flags data ago s) := by
  unfold execCanFrameReceived
  repeat' first
    | with_reducible assumption
    | exact all_of hw rfl
    | with_reducible apply answerKeeps_next
    | intro _
    | with_reducible apply State.setCanErrors_keeps
    | with_reducible apply State.monEvent_keeps
    | with_reducible apply State.bump_keeps
    | with_reducible apply State.gwyReceive_keeps
    | with_reducible apply keeps_ite

theorem execLinHeaderReceived_keeps {w : Part → Bool} {a s : State}
    (hw : [Part.regs, .saturated, .frames, .nextFrame, .gwy].all w = true) (h : a.Keeps w s)
    (l : Fin 8) (x : LinHeader) :
    AnswerKeeps w a (execLinHeaderReceived l x s) := by
  unfold execLinHeaderReceived
  repeat' first
    | with_reducible assumption
    | exact all_of hw rfl
    | with_reducible apply answerKeeps_next
    | intro _
    | with_reducible apply State.linRespond_keeps
    | with_reducible apply keeps_ite

theorem execLinFrameReceived_keeps {w : Part → Bool} {a s : State}
    (hw : [Part.regs, .saturated, .reports, .irqs, .frames, .nextFrame, .wak, .gwy].all w = true)
    (h : a.Keeps w s) (l : Fin 8) (ident : Fin 64) (data : List Byte) (err : LinError)
    (ago : BitVec 32) :
    AnswerKeeps w a (execLinFrameReceived l ident data err ago s) := by
  unfold execLinFrameReceived
  repeat' first
    | with_reducible assumption
    | exact all_of hw rfl
    | with_reducible apply answerKeeps_next
    | intro _
    | with_reducible apply State.monEvent_keeps
    | with_reducible apply State.bump_keeps
    | with_reducible apply State.gwyReceive_keeps
    | with_reducible apply keeps_ite

theorem execLinScheduleSlot_keeps {w : Part → Bool} {a s : State}
    (hw : [Part.regs, .saturated, .frames, .nextFrame, .gwy].all w = true) (h : a.Keeps w s)
    (l : Fin 8) :
    AnswerKeeps w a (execLinScheduleSlot l s) := by
  unfold execLinScheduleSlot
  repeat' first
    | with_reducible assumption
    | exact all_of hw rfl
    | with_reducible apply answerKeeps_next
    | intro _
    | with_reducible apply State.linRespond_keeps
    | with_reducible apply keeps_ite
    | dsimp only
    | split
    | with_reducible apply keeps_gwy

theorem execSerFrameEnd_keeps {w : Part → Bool} {a s : State}
    (hw : [Part.regs, .saturated, .reports, .irqs, .frames, .nextFrame, .wak, .gwy].all w = true)
    (h : a.Keeps w s) (c : Fin 4) (data : List Byte) (err : Bool) (ago : BitVec 32) :
    AnswerKeeps w a (execSerFrameEnd c data err ago s) := by
  unfold execSerFrameEnd
  repeat' first
    | with_reducible assumption
    | exact all_of hw rfl
    | with_reducible apply answerKeeps_next
    | intro _
    | with_reducible apply State.monEvent_keeps
    | with_reducible apply State.bump_keeps
    | with_reducible apply State.gwyReceive_keeps
    | with_reducible apply keeps_ite

theorem State.dinStep_keeps {w : Part → Bool} {a s : State} (hw : [Part.regs, .gwy].all w = true)
    (h : a.Keeps w s) (i : Nat) (level : Bool) :
    a.Keeps w (State.dinStep s i level).1 := by
  unfold State.dinStep
  repeat' first
    | with_reducible assumption
    | exact all_of hw rfl
    | intro _
    | with_reducible apply State.setBit_keeps
    | with_reducible apply keeps_ite
    | dsimp only
    | split
    | with_reducible apply keeps_gwy

theorem State.dinEdge_keeps {w : Part → Bool} {a s : State}
    (hw : [Part.regs, .islands, .saturated, .reports, .irqs, .frames, .nextFrame,
      .rtk, .wak, .gwy].all w = true)
    (h : a.Keeps w s) (i : Nat) :
    a.Keeps w (State.dinEdge s i) := by
  unfold State.dinEdge
  repeat' first
    | with_reducible assumption
    | exact all_of hw rfl
    | intro _
    | with_reducible apply State.gwyEvent_keeps
    | with_reducible apply State.monEvent_keeps
    | with_reducible apply State.wakeEvent_keeps
    | with_reducible apply keeps_ite

theorem execDinSample_keeps {w : Part → Bool} {a s : State}
    (hw : [Part.regs, .islands, .saturated, .reports, .irqs, .frames, .nextFrame,
      .rtk, .wak, .gwy].all w = true)
    (h : a.Keeps w s) (levels : BitVec 32) :
    AnswerKeeps w a (execDinSample levels s) := by
  unfold execDinSample
  repeat' first
    | with_reducible assumption
    | exact all_of hw rfl
    | with_reducible apply answerKeeps_next
    | intro _
    | with_reducible apply State.dinStep_keeps
    | with_reducible apply State.gwyDrain_keeps
    | with_reducible apply State.dinEdge_keeps
    | with_reducible apply keeps_ite
    | with_reducible apply keeps_foldl
    | with_reducible apply keeps_foldl_fst

theorem State.ainEvent_keeps {w : Part → Bool} {a s : State}
    (hw : [Part.regs, .saturated, .reports, .irqs, .frames, .nextFrame, .gwy].all w = true)
    (h : a.Keeps w s) (i : Nat) :
    a.Keeps w (State.ainEvent s i) := by
  unfold State.ainEvent
  repeat' first
    | with_reducible assumption
    | exact all_of hw rfl
    | intro _
    | with_reducible apply State.gwyEvent_keeps
    | with_reducible apply State.monEvent_keeps
    | with_reducible apply keeps_ite

theorem execAinConversion_keeps {w : Part → Bool} {a s : State}
    (hw : [Part.regs, .saturated, .reports, .irqs, .frames, .nextFrame, .gwy].all w = true)
    (h : a.Keeps w s) (i : Fin 16) (value : BitVec 12) :
    AnswerKeeps w a (execAinConversion i value s) := by
  unfold execAinConversion
  repeat' first
    | with_reducible assumption
    | exact all_of hw rfl
    | with_reducible apply answerKeeps_next
    | intro _
    | with_reducible apply State.setFld_keeps
    | with_reducible apply State.ainEvent_keeps
    | with_reducible apply keeps_ite

theorem execAinPeriodicReport_keeps {w : Part → Bool} {a s : State}
    (hw : [Part.regs, .saturated, .reports, .irqs, .frames, .nextFrame, .gwy].all w = true)
    (h : a.Keeps w s) (i : Fin 16) :
    AnswerKeeps w a (execAinPeriodicReport i s) := by
  unfold execAinPeriodicReport
  repeat' first
    | with_reducible assumption
    | exact all_of hw rfl
    | with_reducible apply answerKeeps_next
    | intro _
    | with_reducible apply State.ainEvent_keeps
    | with_reducible apply keeps_ite
    | dsimp only
    | split
    | with_reducible apply keeps_gwy

theorem State.gwyEnter_keeps {w : Part → Bool} {a s : State}
    (hw : [Part.regs, .saturated, .frames, .nextFrame, .gwy].all w = true) (h : a.Keeps w s)
    (bs : List Byte) (r : GwyRequest) :
    ∀ t, (State.gwyEnter s bs r) = some t → a.Keeps w t := by
  intro t e
  unfold State.gwyEnter at e
  dsimp only at e
  split at e
  · split at e
    · cases e; exact State.gwyReturn_keeps (all_of hw rfl) h _ _ _ _ _
    · split at e
      · cases e; exact State.gwyReturn_keeps (all_of hw rfl) h _ _ _ _ _
      · split at e
        · cases e
        · cases e; exact State.setCanTx_keeps (all_of hw rfl) h _ _
  · split at e
    · cases e; exact State.gwyReturn_keeps (all_of hw rfl) h _ _ _ _ _
    · cases e
      apply State.setLinBuf_keeps (all_of hw rfl)
      split
      · exact keeps_ite (State.gwyReturn_keeps (all_of hw rfl) h _ _ _ _ _) h
      · exact h
  · split at e
    · cases e; exact State.gwyReturn_keeps (all_of hw rfl) h _ _ _ _ _
    · split at e
      · cases e
      · cases e; exact State.setSerTx_keeps (all_of hw rfl) h _ _

theorem execGatewayTxFrame_keeps {w : Part → Bool} {a s : State}
    (hw : [Part.regs, .saturated, .reports, .frames, .nextFrame, .fab, .gwy].all w = true)
    (h : a.Keeps w s) :
    AnswerKeeps w a (execGatewayTxFrame s) := by
  unfold execGatewayTxFrame
  apply answerKeeps_next
  split
  · exact h
  · apply keeps_ite h
    dsimp only
    split
    · exact State.fault_keeps (all_of hw rfl)
        (State.bump_keeps (all_of hw rfl) (keeps_fab (all_of hw rfl) _ h) _) _ _
    · split
      next e => exact keeps_fab (all_of hw rfl) _ (State.gwyEnter_keeps (all_of hw rfl) h _ _ _ e)
      · exact h

theorem execCanTransmit_keeps {w : Part → Bool} {a s : State}
    (hw : [Part.regs, .saturated, .reports, .irqs, .frames, .nextFrame, .gwy].all w = true)
    (h : a.Keeps w s) (c : Fin 16) (x : CanSent) :
    AnswerKeeps w a (execCanTransmit c x s) := by
  unfold execCanTransmit
  repeat' first
    | with_reducible assumption
    | exact all_of hw rfl
    | with_reducible apply answerKeeps_next
    | intro _
    | with_reducible apply State.gwySent_keeps
    | with_reducible apply State.monEvent_keeps
    | with_reducible apply State.setCanErrors_keeps
    | with_reducible apply State.setCanTx_keeps
    | with_reducible apply State.bump_keeps
    | with_reducible apply keeps_ite
    | dsimp only
    | split

theorem execCanTxTimeout_keeps {w : Part → Bool} {a s : State}
    (hw : [Part.regs, .saturated, .frames, .nextFrame, .gwy].all w = true) (h : a.Keeps w s)
    (c : Fin 16) :
    AnswerKeeps w a (execCanTxTimeout c s) := by
  unfold execCanTxTimeout
  repeat' first
    | with_reducible assumption
    | exact all_of hw rfl
    | with_reducible apply answerKeeps_next
    | intro _
    | with_reducible apply State.gwyReturn_keeps
    | with_reducible apply State.setCanTx_keeps
    | with_reducible apply keeps_ite
    | dsimp only
    | split

theorem execCanBusOff_keeps {w : Part → Bool} {a s : State}
    (hw : [Part.regs, .saturated, .reports, .irqs, .frames, .nextFrame, .gwy].all w = true)
    (h : a.Keeps w s) (c : Fin 16) :
    AnswerKeeps w a (execCanBusOff c s) := by
  unfold execCanBusOff
  repeat' first
    | with_reducible assumption
    | exact all_of hw rfl
    | with_reducible apply answerKeeps_next
    | intro _
    | with_reducible apply State.setCanErrors_keeps
    | with_reducible apply State.monEvent_keeps
    | with_reducible apply State.bump_keeps
    | with_reducible apply keeps_ite

theorem execCanBusoffRecovery_keeps {w : Part → Bool} {a s : State}
    (hw : [Part.regs, .saturated, .reports, .frames, .nextFrame, .gwy].all w = true)
    (h : a.Keeps w s) (c : Fin 16) :
    AnswerKeeps w a (execCanBusoffRecovery c s) := by
  unfold execCanBusoffRecovery
  repeat' first
    | with_reducible assumption
    | exact all_of hw rfl
    | with_reducible apply answerKeeps_next
    | intro _
    | with_reducible apply State.startCan_keeps
    | with_reducible apply keeps_ite

theorem execCanDominantTimeout_keeps {w : Part → Bool} {a s : State}
    (hw : [Part.regs, .reports].all w = true) (h : a.Keeps w s) (c : Fin 16) :
    AnswerKeeps w a (execCanDominantTimeout c s) := by
  unfold execCanDominantTimeout
  repeat' first
    | with_reducible assumption
    | exact all_of hw rfl
    | with_reducible apply answerKeeps_next
    | intro _
    | with_reducible apply State.fault_keeps
    | with_reducible apply State.setBit_keeps
    | with_reducible apply keeps_ite

theorem execGwyChannelEnable_keeps {w : Part → Bool} {a s : State}
    (hw : [Part.regs, .busReply, .edgeQueue, .saturated, .reports, .irqs, .frames,
      .nextFrame, .gwy].all w = true)
    (h : a.Keeps w s) (m : Master) (ch : GwyChan) :
    AnswerKeeps w a (execGwyChannelEnable m ch s) := by
  unfold execGwyChannelEnable
  repeat' first
    | with_reducible assumption
    | exact all_of hw rfl
    | with_reducible apply answerKeeps_next
    | intro _
    | with_reducible apply guardEdge_keeps
    | with_reducible apply State.setBit_keeps
    | with_reducible apply State.startCan_keeps
    | with_reducible apply State.startLin_keeps
    | with_reducible apply keeps_ite
    | dsimp only
    | split

theorem execGwyChannelDisable_keeps {w : Part → Bool} {a s : State}
    (hw : [Part.regs, .busReply, .edgeQueue, .saturated, .reports, .irqs, .frames,
      .nextFrame, .gwy].all w = true)
    (h : a.Keeps w s) (m : Master) (ch : GwyChan) :
    AnswerKeeps w a (execGwyChannelDisable m ch s) := by
  unfold execGwyChannelDisable
  repeat' first
    | with_reducible assumption
    | exact all_of hw rfl
    | with_reducible apply answerKeeps_next
    | intro _
    | with_reducible apply guardEdge_keeps
    | with_reducible apply State.setBit_keeps
    | with_reducible apply State.stopCan_keeps
    | with_reducible apply State.stopLin_keeps
    | with_reducible apply State.stopSer_keeps
    | with_reducible apply keeps_ite
    | dsimp only
    | split

theorem execSerTransmit_keeps {w : Part → Bool} {a s : State}
    (hw : [Part.regs, .saturated, .frames, .nextFrame, .gwy].all w = true) (h : a.Keeps w s)
    (x : SerSent) :
    AnswerKeeps w a (execSerTransmit x s) := by
  unfold execSerTransmit
  repeat' first
    | with_reducible assumption
    | exact all_of hw rfl
    | with_reducible apply answerKeeps_next
    | intro _
    | with_reducible apply State.gwySent_keeps
    | with_reducible apply State.setSerTx_keeps
    | with_reducible apply keeps_ite
    | dsimp only
    | split

theorem State.setSwErrors_keeps {w : Part → Bool} {a s : State} (hw : [Part.gwy].all w = true)
    (h : a.Keeps w s) (c : Nat) (n : Nat) :
    a.Keeps w (State.setSwErrors s c n) := by
  unfold State.setSwErrors
  repeat' first
    | with_reducible assumption
    | exact all_of hw rfl
    | intro _
    | with_reducible apply keeps_ite
    | dsimp only
    | split
    | with_reducible apply keeps_gwy

theorem execCanSelectiveWake_keeps {w : Part → Bool} {a s : State}
    (hw : [Part.regs, .islands, .saturated, .frames, .nextFrame, .rtk, .wak, .gwy, .irqs].all w = true)
    (h : a.Keeps w s) (c : Fin 8) (kind : CanWake) (ide : Bool) (ident : BitVec 29)
    (dlc : BitVec 4) (data : BitVec 64) :
    AnswerKeeps w a (execCanSelectiveWake c kind ide ident dlc data s) := by
  unfold execCanSelectiveWake
  repeat' first
    | with_reducible assumption
    | exact all_of hw rfl
    | with_reducible apply answerKeeps_next
    | intro _
    | with_reducible apply State.setSwErrors_keeps
    | with_reducible apply State.wakeEvent_keeps
    | with_reducible apply keeps_ite
    | dsimp only
    | split

theorem execLinWakePulse_keeps {w : Part → Bool} {a s : State}
    (hw : [Part.regs, .islands, .saturated, .frames, .nextFrame, .rtk, .wak, .irqs].all w = true)
    (h : a.Keeps w s) (l : Fin 8) :
    AnswerKeeps w a (execLinWakePulse l s) := by
  unfold execLinWakePulse
  repeat' first
    | with_reducible assumption
    | exact all_of hw rfl
    | with_reducible apply answerKeeps_next
    | intro _
    | with_reducible apply State.wakeEvent_keeps
    | with_reducible apply keeps_ite

end Sys2Proof.Machine
end

