-- ==== Sys2Proof/Laws/KeepsScheduler.lean ====
section
/-!
SUPPORT. What the operations of Machine/Scheduler.lean can change, and what they keep.
-/

namespace Sys2Proof.Machine

open Sys2Proof

theorem State.arrive_keeps {w : Part → Bool} {a s : State}
    (hw : [Part.frames, .fab, .tm].all w = true) (h : a.Keeps w s) (f : Nat) (i : Nat) (p : Nat)
    (c : Nat) :
    a.Keeps w (State.arrive s f i p c) := by
  unfold State.arrive
  repeat' first
    | with_reducible assumption
    | exact all_of hw rfl
    | intro _
    | with_reducible apply State.setStage_keeps
    | with_reducible apply State.settleCredits_keeps
    | with_reducible apply State.setFrame_keeps
    | with_reducible apply keeps_ite
    | dsimp only
    | split

theorem State.cross_keeps {w : Part → Bool} {a s : State}
    (hw : [Part.regs, .saturated, .irqs, .frames, .fab, .tm].all w = true) (h : a.Keeps w s)
    (r : XRequest) (links : List Nat) :
    a.Keeps w (State.cross s r links) := by
  unfold State.cross
  repeat' first
    | with_reducible assumption
    | exact all_of hw rfl
    | intro _
    | with_reducible apply State.setMcq_keeps
    | with_reducible apply State.arrive_keeps
    | with_reducible apply State.monEvent_keeps
    | with_reducible apply State.setVoq_keeps
    | with_reducible apply keeps_ite
    | with_reducible apply keeps_foldl
    | dsimp only
    | split

theorem State.useMatching_keeps {w : Part → Bool} {a s : State}
    (hw : [Part.regs, .saturated, .irqs, .frames, .fab, .tm].all w = true) (h : a.Keeps w s)
    (m : Matching) :
    a.Keeps w (State.useMatching s m) := by
  unfold State.useMatching
  repeat' first
    | with_reducible assumption
    | exact all_of hw rfl
    | intro _
    | with_reducible apply State.cross_keeps
    | with_reducible apply keeps_ite
    | with_reducible apply keeps_foldl
    | with_reducible apply keeps_foldl_fst
    | with_reducible apply keeps_foldl_snd
    | dsimp only
    | split
    | with_reducible apply keeps_fab

theorem State.copyOut_keeps {w : Part → Bool} {a s : State}
    (hw : [Part.regs, .saturated, .reports].all w = true) (h : a.Keeps w s) :
    a.Keeps w (State.copyOut s) := by
  unfold State.copyOut
  repeat' first
    | with_reducible assumption
    | exact all_of hw rfl
    | intro _
    | with_reducible apply State.setGstat_keeps
    | with_reducible apply State.fault_keeps
    | with_reducible apply State.bump_keeps
    | with_reducible apply State.setBit_keeps

end Sys2Proof.Machine
end

