-- ==== Sys2Proof/Laws/KeepsFabric.lean ====
section
/-!
SUPPORT. What the operations of Machine/Fabric.lean can change, and what they keep.
-/

namespace Sys2Proof.Machine

open Sys2Proof

theorem State.enqueueCopy_keeps {w : Part → Bool} {a s : State}
    (hw : [Part.regs, .saturated, .irqs, .flowFrames, .frames, .nextFrame, .fab, .tm].all w = true)
    (h : a.Keeps w s) (f : Nat) (p : Nat) :
    a.Keeps w (State.enqueueCopy s f p) := by
  unfold State.enqueueCopy
  repeat' first
    | with_reducible assumption
    | exact all_of hw rfl
    | intro _
    | with_reducible apply State.redirect_keeps
    | with_reducible apply State.bump_keeps
    | with_reducible apply State.divert_keeps
    | with_reducible apply keeps_ite
    | dsimp only
    | split

theorem State.enqueue_keeps {w : Part → Bool} {a s : State}
    (hw : [Part.regs, .saturated, .irqs, .flowFrames, .frames, .nextFrame, .fab, .tm].all w = true)
    (h : a.Keeps w s) (f : Nat) (v : Frame) (ports : List Nat) (redirected : Bool) :
    a.Keeps w (State.enqueue s f v ports redirected) := by
  unfold State.enqueue
  repeat' first
    | with_reducible assumption
    | exact all_of hw rfl
    | intro _
    | with_reducible apply State.setFrame_keeps
    | with_reducible apply State.bump_keeps
    | with_reducible apply State.enqueueCopy_keeps
    | with_reducible apply keeps_ite
    | with_reducible apply keeps_foldl

theorem State.redirectWhole_keeps {w : Part → Bool} {a s : State}
    (hw : [Part.regs, .saturated, .irqs, .flowFrames, .frames, .nextFrame, .fab, .tm].all w = true)
    (h : a.Keeps w s) (f : Nat) (v : Frame) :
    a.Keeps w (State.redirectWhole s f v) := by
  unfold State.redirectWhole
  repeat' first
    | with_reducible assumption
    | exact all_of hw rfl
    | intro _
    | with_reducible apply State.bump_keeps
    | with_reducible apply State.divert_keeps
    | with_reducible apply State.setFrame_keeps

theorem execFrameEnqueue_keeps {w : Part → Bool} {a s : State}
    (hw : [Part.regs, .saturated, .irqs, .flowFrames, .frames, .nextFrame, .fab, .tm].all w = true)
    (h : a.Keeps w s) (f : FrameId) :
    AnswerKeeps w a (execFrameEnqueue f s) := by
  unfold execFrameEnqueue
  repeat' first
    | with_reducible assumption
    | exact all_of hw rfl
    | with_reducible apply answerKeeps_next
    | intro _
    | with_reducible apply State.dropFrame_keeps
    | with_reducible apply State.noAdmit_keeps
    | with_reducible apply State.redirectWhole_keeps
    | with_reducible apply State.reap_keeps
    | with_reducible apply State.redirect_keeps
    | with_reducible apply State.setFrame_keeps
    | with_reducible apply State.enqueue_keeps
    | with_reducible apply keeps_ite
    | with_reducible apply keeps_foldl
    | dsimp only
    | split

theorem State.placeCell_keeps {w : Part → Bool} {a s : State}
    (hw : [Part.regs, .saturated, .irqs, .frames, .fab].all w = true) (h : a.Keeps w s) (f : Nat)
    (v : Frame) (ports : List Nat) (place : CellPlace) (seg : Segment) :
    a.Keeps w (State.placeCell s f v ports place seg) := by
  unfold State.placeCell
  repeat' first
    | with_reducible assumption
    | exact all_of hw rfl
    | intro _
    | with_reducible apply State.countCell_keeps
    | with_reducible apply State.takePlace_keeps
    | with_reducible apply State.setFrame_keeps
    | with_reducible apply State.setMcq_keeps
    | with_reducible apply State.setVoq_keeps
    | with_reducible apply State.monEvent_keeps
    | with_reducible apply keeps_ite
    | with_reducible apply keeps_foldl

theorem State.admitScheduled_keeps {w : Part → Bool} {a s : State}
    (hw : [Part.regs, .saturated, .irqs, .flowFrames, .frames, .fab, .tm].all w = true)
    (h : a.Keeps w s) (f : Nat) (v : Frame) (ports : List Nat) :
    a.Keeps w (State.admitScheduled s f v ports) := by
  unfold State.admitScheduled
  repeat' first
    | with_reducible assumption
    | exact all_of hw rfl
    | intro _
    | with_reducible apply State.monEvent_keeps
    | with_reducible apply State.bump_keeps
    | with_reducible apply State.dropQueued_keeps
    | with_reducible apply State.setFrame_keeps
    | with_reducible apply State.endCopy_keeps
    | with_reducible apply State.placeCell_keeps
    | with_reducible apply keeps_ite
    | with_reducible apply keeps_foldl
    | dsimp only
    | split

theorem State.admitUnscheduled_keeps {w : Part → Bool} {a s : State}
    (hw : [Part.regs, .saturated, .reports, .irqs, .flowFrames, .frames, .fab, .tm].all w = true)
    (h : a.Keeps w s) (f : Nat) (v : Frame) (ports : List Nat) :
    a.Keeps w (State.admitUnscheduled s f v ports) := by
  unfold State.admitUnscheduled
  repeat' first
    | with_reducible assumption
    | exact all_of hw rfl
    | intro _
    | with_reducible apply State.dropQueued_keeps
    | with_reducible apply State.fault_keeps
    | with_reducible apply State.portLog_keeps
    | with_reducible apply State.noAdmit_keeps
    | with_reducible apply State.placeCell_keeps
    | with_reducible apply State.setBit_keeps
    | with_reducible apply State.checkXoff_keeps
    | with_reducible apply keeps_ite
    | with_reducible apply keeps_foldl
    | dsimp only
    | split

theorem execCellAdmit_keeps {w : Part → Bool} {a s : State}
    (hw : [Part.regs, .saturated, .reports, .irqs, .flowFrames, .frames, .fab, .tm].all w = true)
    (h : a.Keeps w s) (f : FrameId) :
    AnswerKeeps w a (execCellAdmit f s) := by
  unfold execCellAdmit
  repeat' first
    | with_reducible assumption
    | exact all_of hw rfl
    | with_reducible apply answerKeeps_next
    | intro _
    | with_reducible apply State.admitScheduled_keeps
    | with_reducible apply State.admitUnscheduled_keeps
    | with_reducible apply keeps_ite
    | dsimp only
    | split

theorem State.unstage_keeps {w : Part → Bool} {a s : State} (hw : [Part.fab].all w = true)
    (h : a.Keeps w s) (f : Nat) (i : Nat) (c : Nat) (ports : List Nat) :
    a.Keeps w (State.unstage s f i c ports) := by
  unfold State.unstage
  repeat' first
    | with_reducible assumption
    | exact all_of hw rfl
    | intro _
    | with_reducible apply State.setStage_keeps
    | with_reducible apply keeps_ite
    | with_reducible apply keeps_foldl

theorem execCellFree_keeps {w : Part → Bool} {a s : State}
    (hw : [Part.regs, .saturated, .irqs, .flowFrames, .frames, .fab].all w = true)
    (h : a.Keeps w s) (f : FrameId) (i : Nat) :
    AnswerKeeps w a (execCellFree f i s) := by
  unfold execCellFree
  repeat' first
    | with_reducible assumption
    | exact all_of hw rfl
    | with_reducible apply answerKeeps_next
    | intro _
    | with_reducible apply State.freeCell_keeps
    | with_reducible apply State.unstage_keeps
    | with_reducible apply State.reap_keeps
    | with_reducible apply State.setFrame_keeps
    | with_reducible apply keeps_ite
    | with_reducible refine keeps_of_snd ?_ (by with_reducible assumption)
    | with_reducible refine keeps_of_fst ?_ (by with_reducible assumption)
    | dsimp only
    | split

theorem State.applySwap_keeps {w : Part → Bool} {a s : State}
    (hw : [Part.regs, .fab].all w = true) (h : a.Keeps w s) :
    a.Keeps w (State.applySwap s) := by
  unfold State.applySwap
  repeat' first
    | with_reducible assumption
    | exact all_of hw rfl
    | intro _
    | with_reducible apply State.setBit_keeps
    | with_reducible apply keeps_ite
    | dsimp only
    | split
    | with_reducible apply keeps_fab

theorem execSchedulerCellTime_keeps {w : Part → Bool} {a s : State}
    (hw : [Part.regs, .saturated, .reports, .irqs, .frames, .fab, .tm].all w = true)
    (h : a.Keeps w s) (r : SchedCheck) :
    AnswerKeeps w a (execSchedulerCellTime r s) := by
  unfold execSchedulerCellTime
  repeat' first
    | with_reducible assumption
    | exact all_of hw rfl
    | with_reducible apply answerKeeps_next
    | intro _
    | with_reducible apply State.applySwap_keeps
    | with_reducible apply State.useMatching_keeps
    | with_reducible apply State.copyOut_keeps
    | with_reducible apply State.setBit_keeps
    | with_reducible apply State.fault_keeps
    | with_reducible apply State.bump_keeps
    | with_reducible apply keeps_ite
    | dsimp only
    | split

theorem execSchedulerSwap_keeps {w : Part → Bool} {a s : State}
    (hw : [Part.regs, .busReply, .saturated, .reports, .irqs, .fab].all w = true)
    (h : a.Keeps w s) (m : Master) :
    AnswerKeeps w a (execSchedulerSwap m s) := by
  unfold execSchedulerSwap
  repeat' first
    | with_reducible assumption
    | exact all_of hw rfl
    | with_reducible apply answerKeeps_next
    | intro _
    | with_reducible apply guardReg_keeps
    | with_reducible apply keeps_ite
    | dsimp only
    | split
    | with_reducible apply keeps_fab

theorem State.spillBlocked_keeps {w : Part → Bool} {a s : State}
    (hw : [Part.regs, .saturated, .irqs, .fab].all w = true) (h : a.Keeps w s) (p : Nat) (c : Nat)
    :
    a.Keeps w (State.spillBlocked s p c) := by
  unfold State.spillBlocked
  repeat' first
    | with_reducible assumption
    | exact all_of hw rfl
    | intro _
    | with_reducible apply State.setBit_keeps
    | with_reducible apply State.monEvent_keeps
    | with_reducible apply State.bump_keeps
    | with_reducible apply keeps_ite
    | dsimp only
    | split
    | with_reducible apply keeps_fab

theorem execDriftSpill_keeps {w : Part → Bool} {a s : State}
    (hw : [Part.regs, .saturated, .irqs, .flowFrames, .frames, .fab].all w = true)
    (h : a.Keeps w s) (g : Fin 7) (p : Port) (c : TrafficClass) :
    AnswerKeeps w a (execDriftSpill g p c s) := by
  unfold execDriftSpill
  repeat' first
    | with_reducible assumption
    | exact all_of hw rfl
    | with_reducible apply answerKeeps_next
    | intro _
    | with_reducible apply State.uncountCell_keeps
    | with_reducible apply State.givePlace_keeps
    | with_reducible apply State.setFrame_keeps
    | with_reducible apply State.setVoq_keeps
    | with_reducible apply State.setFld_keeps
    | with_reducible apply State.setDriftOf_keeps
    | with_reducible apply State.release_keeps
    | with_reducible apply State.monEvent_keeps
    | with_reducible apply State.bump_keeps
    | with_reducible apply State.chargeCap_keeps
    | with_reducible apply State.spillBlocked_keeps
    | with_reducible apply keeps_ite
    | dsimp only
    | split

theorem execDriftReturn_keeps {w : Part → Bool} {a s : State}
    (hw : [Part.regs, .saturated, .irqs, .frames, .fab].all w = true) (h : a.Keeps w s)
    (g : Fin 7) (p : Port) (c : TrafficClass) :
    AnswerKeeps w a (execDriftReturn g p c s) := by
  unfold execDriftReturn
  repeat' first
    | with_reducible assumption
    | exact all_of hw rfl
    | with_reducible apply answerKeeps_next
    | intro _
    | with_reducible apply State.countCell_keeps
    | with_reducible apply State.takePlace_keeps
    | with_reducible apply State.setFrame_keeps
    | with_reducible apply State.setVoq_keeps
    | with_reducible apply State.setFld_keeps
    | with_reducible apply State.setDriftOf_keeps
    | with_reducible apply State.monEvent_keeps
    | with_reducible apply State.bump_keeps
    | with_reducible apply State.chargeCap_keeps
    | with_reducible apply keeps_ite
    | dsimp only
    | split

theorem execDriftDrainStart_keeps {w : Part → Bool} {a s : State} (hw : [Part.regs].all w = true)
    (h : a.Keeps w s) :
    AnswerKeeps w a (execDriftDrainStart s) := by
  unfold execDriftDrainStart
  repeat' first
    | with_reducible assumption
    | exact all_of hw rfl
    | with_reducible apply answerKeeps_next
    | intro _
    | with_reducible apply State.setBit_keeps

theorem execDriftDrainDone_keeps {w : Part → Bool} {a s : State}
    (hw : [Part.regs, .fab].all w = true) (h : a.Keeps w s) :
    AnswerKeeps w a (execDriftDrainDone s) := by
  unfold execDriftDrainDone
  repeat' first
    | with_reducible assumption
    | exact all_of hw rfl
    | with_reducible apply answerKeeps_next
    | intro _
    | with_reducible apply State.setBit_keeps
    | with_reducible apply keeps_ite
    | dsimp only
    | split
    | with_reducible apply keeps_fab

theorem State.recountCell_keeps {w : Part → Bool} {a s : State}
    (hw : [Part.regs, .fab].all w = true) (h : a.Keeps w s) (c : Nat) (r : CellRec) :
    a.Keeps w (State.recountCell s c r) := by
  unfold State.recountCell
  repeat' first
    | with_reducible assumption
    | exact all_of hw rfl
    | intro _
    | with_reducible apply State.setDriftOf_keeps
    | with_reducible apply State.setFld_keeps
    | with_reducible apply State.setReserved_keeps
    | with_reducible apply keeps_ite
    | dsimp only
    | split

theorem State.requeueRt_keeps {w : Part → Bool} {a s : State} (hw : [Part.fab].all w = true)
    (h : a.Keeps w s) (f : Nat) (v : Frame) :
    a.Keeps w (State.requeueRt s f v) := by
  unfold State.requeueRt
  repeat' first
    | with_reducible assumption
    | exact all_of hw rfl
    | intro _
    | with_reducible apply State.setVoq_keeps
    | with_reducible apply State.setMcq_keeps
    | with_reducible apply State.setStage_keeps

theorem State.moveToRt_keeps {w : Part → Bool} {a s : State}
    (hw : [Part.regs, .saturated, .irqs, .flowFrames, .frames, .fab, .tm].all w = true)
    (h : a.Keeps w s) (f : Nat) :
    a.Keeps w (State.moveToRt s f) := by
  unfold State.moveToRt
  repeat' first
    | with_reducible assumption
    | exact all_of hw rfl
    | intro _
    | with_reducible apply State.bump_keeps
    | with_reducible apply State.reap_keeps
    | with_reducible apply State.freeDone_keeps
    | with_reducible apply State.endCopy_keeps
    | with_reducible apply State.recountCell_keeps
    | with_reducible apply State.requeueRt_keeps
    | with_reducible apply State.setFrame_keeps
    | with_reducible apply keeps_ite
    | with_reducible apply keeps_foldl
    | dsimp only
    | split

theorem State.leaveApp_keeps {w : Part → Bool} {a s : State}
    (hw : [Part.regs, .saturated, .irqs, .flowFrames, .frames, .fab, .tm].all w = true)
    (h : a.Keeps w s) :
    a.Keeps w (State.leaveApp s) := by
  unfold State.leaveApp
  repeat' first
    | with_reducible assumption
    | exact all_of hw rfl
    | intro _
    | with_reducible apply State.moveToRt_keeps
    | with_reducible apply keeps_ite
    | with_reducible apply keeps_foldl

theorem execLinkDownHoldExpiry_keeps {w : Part → Bool} {a s : State}
    (hw : [Part.regs, .saturated, .irqs, .flowFrames, .frames, .nextFrame, .ports,
      .fab, .tm].all w = true)
    (h : a.Keeps w s) (p : Port) :
    AnswerKeeps w a (execLinkDownHoldExpiry p s) := by
  unfold execLinkDownHoldExpiry
  repeat' first
    | with_reducible assumption
    | exact all_of hw rfl
    | with_reducible apply answerKeeps_next
    | intro _
    | with_reducible apply State.setPort_keeps
    | with_reducible apply State.reap_keeps
    | with_reducible apply State.redirect_keeps
    | with_reducible apply keeps_ite
    | with_reducible apply keeps_foldl

theorem execCellMemoryError_keeps {w : Part → Bool} {a s : State}
    (hw : [Part.regs, .saturated, .reports, .irqs, .flowFrames, .frames, .fab, .tm].all w = true)
    (h : a.Keeps w s) (f : FrameId) :
    AnswerKeeps w a (execCellMemoryError f s) := by
  unfold execCellMemoryError
  repeat' first
    | with_reducible assumption
    | exact all_of hw rfl
    | with_reducible apply answerKeeps_next
    | intro _
    | with_reducible apply State.badFrame_keeps
    | with_reducible apply State.fault_keeps
    | with_reducible apply State.monEvent_keeps
    | with_reducible apply State.bump_keeps
    | with_reducible apply keeps_ite
    | dsimp only
    | split

end Sys2Proof.Machine
end

