-- ==== Sys2Proof/Laws/KeepsPort.lean ====
section
/-!
SUPPORT. What the operations of Machine/Port.lean can change, and what they keep.
-/

namespace Sys2Proof.Machine

open Sys2Proof

theorem mdioGo_keeps {w : Part → Bool} {a s : State}
    (hw : [Part.regs, .busReply, .saturated, .reports, .irqs].all w = true) (h : a.Keeps w s)
    (m : Master) (op : Nat) (phyad : BitVec 5) (reg : BitVec 5) (c45 : Bool) (data : BitVec 16) :
    AnswerKeeps w a (mdioGo m op phyad reg c45 data s) := by
  unfold mdioGo
  repeat' first
    | with_reducible assumption
    | exact all_of hw rfl
    | with_reducible apply answerKeeps_next
    | intro _
    | with_reducible apply guardReg_keeps
    | with_reducible apply State.setBit_keeps
    | with_reducible apply State.setFld_keeps
    | with_reducible apply keeps_ite

theorem execMdioAddress_keeps {w : Part → Bool} {a s : State}
    (hw : [Part.regs, .busReply, .saturated, .reports, .irqs].all w = true) (h : a.Keeps w s)
    (m : Master) (phyad : BitVec 5) (reg : BitVec 5) (c45 : Bool) (data : BitVec 16) :
    AnswerKeeps w a (execMdioAddress m phyad reg c45 data s) := by
  unfold execMdioAddress
  repeat' first
    | with_reducible assumption
    | exact all_of hw rfl
    | with_reducible apply mdioGo_keeps

theorem execMdioWrite_keeps {w : Part → Bool} {a s : State}
    (hw : [Part.regs, .busReply, .saturated, .reports, .irqs].all w = true) (h : a.Keeps w s)
    (m : Master) (phyad : BitVec 5) (reg : BitVec 5) (c45 : Bool) (data : BitVec 16) :
    AnswerKeeps w a (execMdioWrite m phyad reg c45 data s) := by
  unfold execMdioWrite
  repeat' first
    | with_reducible assumption
    | exact all_of hw rfl
    | with_reducible apply mdioGo_keeps

theorem execMdioReadIncrement_keeps {w : Part → Bool} {a s : State}
    (hw : [Part.regs, .busReply, .saturated, .reports, .irqs].all w = true) (h : a.Keeps w s)
    (m : Master) (phyad : BitVec 5) (reg : BitVec 5) (c45 : Bool) (data : BitVec 16) :
    AnswerKeeps w a (execMdioReadIncrement m phyad reg c45 data s) := by
  unfold execMdioReadIncrement
  repeat' first
    | with_reducible assumption
    | exact all_of hw rfl
    | with_reducible apply mdioGo_keeps

theorem execMdioRead_keeps {w : Part → Bool} {a s : State}
    (hw : [Part.regs, .busReply, .saturated, .reports, .irqs].all w = true) (h : a.Keeps w s)
    (m : Master) (phyad : BitVec 5) (reg : BitVec 5) (c45 : Bool) (data : BitVec 16) :
    AnswerKeeps w a (execMdioRead m phyad reg c45 data s) := by
  unfold execMdioRead
  repeat' first
    | with_reducible assumption
    | exact all_of hw rfl
    | with_reducible apply mdioGo_keeps

theorem execMdioDone_keeps {w : Part → Bool} {a s : State} (hw : [Part.regs].all w = true)
    (h : a.Keeps w s) (data : BitVec 16) :
    AnswerKeeps w a (execMdioDone data s) := by
  unfold execMdioDone
  repeat' first
    | with_reducible assumption
    | exact all_of hw rfl
    | with_reducible apply answerKeeps_next
    | intro _
    | with_reducible apply State.setBit_keeps
    | with_reducible apply State.setFld_keeps
    | with_reducible apply keeps_ite

theorem State.setLinkState_keeps {w : Part → Bool} {a s : State}
    (hw : [Part.regs, .ports, .tm].all w = true) (h : a.Keeps w s) (p : Nat) (lstate : Nat)
    (speed : Nat) :
    a.Keeps w (State.setLinkState s p lstate speed) := by
  unfold State.setLinkState
  repeat' first
    | with_reducible assumption
    | exact all_of hw rfl
    | intro _
    | with_reducible apply State.setPort_keeps
    | with_reducible apply State.setFld_keeps
    | with_reducible apply State.settleCredits_keeps

theorem State.linkGone_keeps {w : Part → Bool} {a s : State}
    (hw : [Part.regs, .saturated, .irqs, .flowFrames, .frames, .nextFrame, .fab, .tm].all w = true)
    (h : a.Keeps w s) (p : Nat) :
    a.Keeps w (State.linkGone s p) := by
  unfold State.linkGone
  repeat' first
    | with_reducible assumption
    | exact all_of hw rfl
    | intro _
    | with_reducible apply State.reap_keeps
    | with_reducible apply State.redirect_keeps
    | with_reducible apply keeps_ite
    | with_reducible apply keeps_foldl

theorem State.enterUp_keeps {w : Part → Bool} {a s : State}
    (hw : [Part.regs, .ports, .tm].all w = true) (h : a.Keeps w s) (p : Nat) (speed : Nat) :
    a.Keeps w (State.enterUp s p speed) := by
  unfold State.enterUp
  repeat' first
    | with_reducible assumption
    | exact all_of hw rfl
    | intro _
    | with_reducible apply State.setPort_keeps
    | with_reducible apply State.setLinkState_keeps
    | with_reducible apply State.setFld_keeps
    | with_reducible apply keeps_ite

theorem State.loseLink_keeps {w : Part → Bool} {a s : State}
    (hw : [Part.regs, .saturated, .traverse, .irqs, .flowFrames, .frames, .nextFrame,
      .ports, .fab, .cls, .tm, .wak].all w = true)
    (h : a.Keeps w s) (p : Nat) :
    a.Keeps w (State.loseLink s p) := by
  unfold State.loseLink
  repeat' first
    | with_reducible assumption
    | exact all_of hw rfl
    | intro _
    | with_reducible apply State.endRx_keeps
    | with_reducible apply State.setLinkState_keeps
    | with_reducible apply State.bump_keeps
    | with_reducible apply State.portLog_keeps
    | with_reducible apply State.linkGone_keeps
    | with_reducible apply State.setFld_keeps
    | with_reducible apply keeps_ite
    | with_reducible apply keeps_foldl

theorem State.startPort_keeps {w : Part → Bool} {a s : State}
    (hw : [Part.regs, .ports, .tm].all w = true) (h : a.Keeps w s) (p : Nat) :
    a.Keeps w (State.startPort s p) := by
  unfold State.startPort
  repeat' first
    | with_reducible assumption
    | exact all_of hw rfl
    | intro _
    | with_reducible apply State.enterUp_keeps
    | with_reducible apply State.setBit_keeps
    | with_reducible apply State.setPort_keeps
    | with_reducible apply State.setLinkState_keeps
    | with_reducible apply keeps_ite

theorem State.stopPort_keeps {w : Part → Bool} {a s : State}
    (hw : [Part.regs, .saturated, .irqs, .flowFrames, .frames, .nextFrame, .ports,
      .fab, .tm].all w = true)
    (h : a.Keeps w s) (p : Nat) :
    a.Keeps w (State.stopPort s p) := by
  unfold State.stopPort
  repeat' first
    | with_reducible assumption
    | exact all_of hw rfl
    | intro _
    | with_reducible apply State.setPort_keeps
    | with_reducible apply State.setLinkState_keeps
    | with_reducible apply State.setBit_keeps
    | with_reducible apply State.setFld_keeps
    | with_reducible apply State.linkGone_keeps
    | with_reducible apply keeps_ite

theorem execPortEnable_keeps {w : Part → Bool} {a s : State}
    (hw : [Part.regs, .busReply, .saturated, .reports, .irqs, .ports, .tm].all w = true)
    (h : a.Keeps w s) (m : Master) (p : Port) :
    AnswerKeeps w a (execPortEnable m p s) := by
  unfold execPortEnable
  repeat' first
    | with_reducible assumption
    | exact all_of hw rfl
    | with_reducible apply answerKeeps_next
    | intro _
    | with_reducible apply guardReg_keeps
    | with_reducible apply State.setBit_keeps
    | with_reducible apply State.startPort_keeps
    | with_reducible apply keeps_ite

theorem State.dropReassembly_keeps {w : Part → Bool} {a s : State}
    (hw : [Part.regs, .saturated, .traverse, .irqs, .flowFrames, .frames, .ports,
      .fab, .cls, .tm, .wak].all w = true)
    (h : a.Keeps w s) (p : Nat) :
    a.Keeps w (State.dropReassembly s p) := by
  unfold State.dropReassembly
  repeat' first
    | with_reducible assumption
    | exact all_of hw rfl
    | intro _
    | with_reducible apply State.endRx_keeps
    | with_reducible apply keeps_ite
    | with_reducible apply keeps_foldl
    | dsimp only
    | split

theorem execPortDisable_keeps {w : Part → Bool} {a s : State}
    (hw : [Part.regs, .busReply, .saturated, .traverse, .reports, .irqs, .flowFrames,
      .frames, .ports, .fab, .cls, .tm, .wak].all w = true)
    (h : a.Keeps w s) (m : Master) (p : Port) :
    AnswerKeeps w a (execPortDisable m p s) := by
  unfold execPortDisable
  repeat' first
    | with_reducible assumption
    | exact all_of hw rfl
    | with_reducible apply answerKeeps_next
    | intro _
    | with_reducible apply guardReg_keeps
    | with_reducible apply State.dropReassembly_keeps
    | with_reducible apply State.setPort_keeps
    | with_reducible apply keeps_ite

theorem execPortDisableDone_keeps {w : Part → Bool} {a s : State}
    (hw : [Part.regs, .saturated, .irqs, .flowFrames, .frames, .nextFrame, .ports,
      .fab, .tm].all w = true)
    (h : a.Keeps w s) (p : Port) :
    AnswerKeeps w a (execPortDisableDone p s) := by
  unfold execPortDisableDone
  repeat' first
    | with_reducible assumption
    | exact all_of hw rfl
    | with_reducible apply answerKeeps_next
    | intro _
    | with_reducible apply State.stopPort_keeps
    | with_reducible apply State.setBit_keeps
    | with_reducible apply keeps_ite

theorem State.linkCameUp_keeps {w : Part → Bool} {a s : State}
    (hw : [Part.regs, .ports, .tm].all w = true) (h : a.Keeps w s) (p : Nat) (rate : Nat) :
    a.Keeps w (State.linkCameUp s p rate) := by
  unfold State.linkCameUp
  repeat' first
    | with_reducible assumption
    | exact all_of hw rfl
    | intro _
    | with_reducible apply State.enterUp_keeps
    | with_reducible apply keeps_ite
    | dsimp only
    | split

theorem State.linkWentDown_keeps {w : Part → Bool} {a s : State}
    (hw : [Part.regs, .saturated, .traverse, .irqs, .flowFrames, .frames, .nextFrame,
      .ports, .fab, .cls, .tm, .wak].all w = true)
    (h : a.Keeps w s) (p : Nat) :
    a.Keeps w (State.linkWentDown s p) := by
  unfold State.linkWentDown
  repeat' first
    | with_reducible assumption
    | exact all_of hw rfl
    | intro _
    | with_reducible apply State.loseLink_keeps
    | with_reducible apply keeps_ite

theorem State.phyChange_keeps {w : Part → Bool} {a s : State} (hw : [Part.traverse].all w = true)
    (h : a.Keeps w s) (p : Nat) (e : HeldEvent) (f : State → State)
    (hf : ∀ (x0 : State), a.Keeps w x0 → a.Keeps w (f x0)) :
    a.Keeps w (State.phyChange s p e f) := by
  unfold State.phyChange
  repeat' first
    | with_reducible assumption
    | exact all_of hw rfl
    | intro _
    | with_reducible apply hf
    | with_reducible apply State.holdEvent_keeps
    | with_reducible apply keeps_ite

theorem execLinkUp_keeps {w : Part → Bool} {a s : State}
    (hw : [Part.regs, .traverse, .ports, .tm].all w = true) (h : a.Keeps w s) (p : ExtPort)
    (rate : Fin 8) :
    AnswerKeeps w a (execLinkUp p rate s) := by
  unfold execLinkUp
  repeat' first
    | with_reducible assumption
    | exact all_of hw rfl
    | with_reducible apply answerKeeps_next
    | intro _
    | with_reducible apply State.phyChange_keeps
    | with_reducible apply State.linkCameUp_keeps

theorem execLinkDown_keeps {w : Part → Bool} {a s : State}
    (hw : [Part.regs, .saturated, .traverse, .irqs, .flowFrames, .frames, .nextFrame,
      .ports, .fab, .cls, .tm, .wak].all w = true)
    (h : a.Keeps w s) (p : ExtPort) :
    AnswerKeeps w a (execLinkDown p s) := by
  unfold execLinkDown
  repeat' first
    | with_reducible assumption
    | exact all_of hw rfl
    | with_reducible apply answerKeeps_next
    | intro _
    | with_reducible apply State.phyChange_keeps
    | with_reducible apply State.linkWentDown_keeps

theorem execT1SpeedTryTimeout_keeps {w : Part → Bool} {a s : State}
    (hw : [Part.ports].all w = true) (h : a.Keeps w s) (p : ExtPort) :
    AnswerKeeps w a (execT1SpeedTryTimeout p s) := by
  unfold execT1SpeedTryTimeout
  repeat' first
    | with_reducible assumption
    | exact all_of hw rfl
    | with_reducible apply answerKeeps_next
    | intro _
    | with_reducible apply State.setPort_keeps
    | with_reducible apply keeps_ite

theorem execPhyMirrorRefresh_keeps {w : Part → Bool} {a s : State} (hw : [Part.regs].all w = true)
    (h : a.Keeps w s) (p : ExtPort) (sqi : Fin 8) :
    AnswerKeeps w a (execPhyMirrorRefresh p sqi s) := by
  unfold execPhyMirrorRefresh
  repeat' first
    | with_reducible assumption
    | exact all_of hw rfl
    | with_reducible apply answerKeeps_next
    | intro _
    | with_reducible apply State.setBit_keeps
    | with_reducible apply State.setFld_keeps
    | with_reducible apply keeps_ite

theorem execPlcaBeaconLoss_keeps {w : Part → Bool} {a s : State}
    (hw : [Part.regs, .irqs].all w = true) (h : a.Keeps w s) (p : ExtPort) :
    AnswerKeeps w a (execPlcaBeaconLoss p s) := by
  unfold execPlcaBeaconLoss
  repeat' first
    | with_reducible assumption
    | exact all_of hw rfl
    | with_reducible apply answerKeeps_next
    | intro _
    | with_reducible apply State.portLog_keeps
    | with_reducible apply State.setBit_keeps
    | with_reducible apply keeps_ite

theorem execPlcaBeaconReceived_keeps {w : Part → Bool} {a s : State}
    (hw : [Part.regs].all w = true) (h : a.Keeps w s) (p : ExtPort) :
    AnswerKeeps w a (execPlcaBeaconReceived p s) := by
  unfold execPlcaBeaconReceived
  repeat' first
    | with_reducible assumption
    | exact all_of hw rfl
    | with_reducible apply answerKeeps_next
    | intro _
    | with_reducible apply State.setBit_keeps
    | with_reducible apply keeps_ite

theorem execPlcaCollision_keeps {w : Part → Bool} {a s : State}
    (hw : [Part.regs, .saturated, .reports, .irqs, .flowFrames, .frames, .ports, .fab,
      .tm].all w = true)
    (h : a.Keeps w s) (p : ExtPort) :
    AnswerKeeps w a (execPlcaCollision p s) := by
  unfold execPlcaCollision
  repeat' first
    | with_reducible assumption
    | exact all_of hw rfl
    | with_reducible apply answerKeeps_next
    | intro _
    | with_reducible apply State.setPort_keeps
    | with_reducible apply State.setTmPort_keeps
    | with_reducible apply State.fault_keeps
    | with_reducible apply State.portLog_keeps
    | with_reducible apply State.bump_keeps
    | with_reducible apply State.reap_keeps
    | with_reducible apply State.freeDone_keeps
    | with_reducible apply State.endCopy_keeps
    | with_reducible apply keeps_ite
    | dsimp only
    | split

theorem State.endHandshake_keeps {w : Part → Bool} {a s : State}
    (hw : [Part.regs, .ports].all w = true) (h : a.Keeps w s) (p : Nat) :
    a.Keeps w (State.endHandshake s p) := by
  unfold State.endHandshake
  repeat' first
    | with_reducible assumption
    | exact all_of hw rfl
    | intro _
    | with_reducible apply State.setBit_keeps
    | with_reducible apply State.setPort_keeps

theorem execTc10SleepRequest_keeps {w : Part → Bool} {a s : State}
    (hw : [Part.regs, .busReply, .saturated, .reports, .irqs, .ports].all w = true)
    (h : a.Keeps w s) (m : Master) (p : ExtPort) :
    AnswerKeeps w a (execTc10SleepRequest m p s) := by
  unfold execTc10SleepRequest
  repeat' first
    | with_reducible assumption
    | exact all_of hw rfl
    | with_reducible apply answerKeeps_next
    | intro _
    | with_reducible apply guardReg_keeps
    | with_reducible apply State.setBit_keeps
    | with_reducible apply State.setPort_keeps
    | with_reducible apply keeps_ite

theorem execTc10PartnerSleepRequest_keeps {w : Part → Bool} {a s : State}
    (hw : [Part.regs, .saturated, .ports].all w = true) (h : a.Keeps w s) (p : ExtPort) :
    AnswerKeeps w a (execTc10PartnerSleepRequest p s) := by
  unfold execTc10PartnerSleepRequest
  repeat' first
    | with_reducible assumption
    | exact all_of hw rfl
    | with_reducible apply answerKeeps_next
    | intro _
    | with_reducible apply State.setPort_keeps
    | with_reducible apply State.bump_keeps
    | with_reducible apply keeps_ite

theorem execTc10SleepComplete_keeps {w : Part → Bool} {a s : State}
    (hw : [Part.regs, .saturated, .irqs, .flowFrames, .frames, .nextFrame, .ports,
      .fab, .tm].all w = true)
    (h : a.Keeps w s) (p : ExtPort) :
    AnswerKeeps w a (execTc10SleepComplete p s) := by
  unfold execTc10SleepComplete
  repeat' first
    | with_reducible assumption
    | exact all_of hw rfl
    | with_reducible apply answerKeeps_next
    | intro _
    | with_reducible apply State.linkGone_keeps
    | with_reducible apply State.setFld_keeps
    | with_reducible apply State.setLinkState_keeps
    | with_reducible apply State.endHandshake_keeps
    | with_reducible apply keeps_ite

theorem execTc10Wake_keeps {w : Part → Bool} {a s : State}
    (hw : [Part.regs, .islands, .saturated, .traverse, .irqs, .flowFrames, .frames,
      .nextFrame, .ports, .fab, .cls, .rtk, .tm, .wak].all w = true)
    (h : a.Keeps w s) (p : ExtPort) (stoppedSending : Bool) :
    AnswerKeeps w a (execTc10Wake p stoppedSending s) := by
  unfold execTc10Wake
  repeat' first
    | with_reducible assumption
    | exact all_of hw rfl
    | with_reducible apply answerKeeps_next
    | intro _
    | with_reducible apply State.endHandshake_keeps
    | with_reducible apply State.loseLink_keeps
    | with_reducible apply State.setLinkState_keeps
    | with_reducible apply State.wakeEvent_keeps
    | with_reducible apply keeps_ite
    | with_reducible apply keeps_foldl

theorem execPreemptVerifySuccess_keeps {w : Part → Bool} {a s : State}
    (hw : [Part.regs].all w = true) (h : a.Keeps w s) (p : ExtPort) :
    AnswerKeeps w a (execPreemptVerifySuccess p s) := by
  unfold execPreemptVerifySuccess
  repeat' first
    | with_reducible assumption
    | exact all_of hw rfl
    | with_reducible apply answerKeeps_next
    | intro _
    | with_reducible apply State.setFld_keeps
    | with_reducible apply keeps_ite

theorem execPreemptVerifyTimeout_keeps {w : Part → Bool} {a s : State}
    (hw : [Part.regs].all w = true) (h : a.Keeps w s) (p : ExtPort) :
    AnswerKeeps w a (execPreemptVerifyTimeout p s) := by
  unfold execPreemptVerifyTimeout
  repeat' first
    | with_reducible assumption
    | exact all_of hw rfl
    | with_reducible apply answerKeeps_next
    | intro _
    | with_reducible apply State.setFld_keeps
    | with_reducible apply keeps_ite

theorem execFrameReceive_keeps {w : Part → Bool} {a s : State}
    (hw : [Part.regs, .saturated, .traverse, .frames, .nextFrame].all w = true) (h : a.Keeps w s)
    (p : Port) (head : List Byte) (latency : BitVec 16) :
    AnswerKeeps w a (execFrameReceive p head latency s) := by
  unfold execFrameReceive
  repeat' first
    | with_reducible assumption
    | exact all_of hw rfl
    | with_reducible apply answerKeeps_next
    | intro _
    | with_reducible apply State.beginRx_keeps

theorem execFrameReceiveEnd_keeps {w : Part → Bool} {a s : State}
    (hw : [Part.regs, .saturated, .traverse, .irqs, .flowFrames, .frames, .ports,
      .fab, .cls, .tm, .wak].all w = true)
    (h : a.Keeps w s) (f : FrameId) (rest : List Byte) (err : RxError) :
    AnswerKeeps w a (execFrameReceiveEnd f rest err s) := by
  unfold execFrameReceiveEnd
  repeat' first
    | with_reducible assumption
    | exact all_of hw rfl
    | with_reducible apply answerKeeps_next
    | intro _
    | with_reducible apply State.endRx_keeps

theorem State.pfcArrives_keeps {w : Part → Bool} {a s : State}
    (hw : [Part.regs, .saturated, .irqs, .ports].all w = true) (h : a.Keeps w s) (p : Nat)
    (enables : Nat) (quanta : List (BitVec 16)) :
    a.Keeps w (State.pfcArrives s p enables quanta) := by
  unfold State.pfcArrives
  repeat' first
    | with_reducible assumption
    | exact all_of hw rfl
    | intro _
    | with_reducible apply State.receivePfc_keeps
    | with_reducible apply State.countMacCtrl_keeps
    | with_reducible apply keeps_ite

theorem State.pauseArrives_keeps {w : Part → Bool} {a s : State}
    (hw : [Part.regs, .saturated, .irqs, .ports].all w = true) (h : a.Keeps w s) (p : Nat)
    (quanta : BitVec 16) :
    a.Keeps w (State.pauseArrives s p quanta) := by
  unfold State.pauseArrives
  repeat' first
    | with_reducible assumption
    | exact all_of hw rfl
    | intro _
    | with_reducible apply State.receivePause_keeps
    | with_reducible apply State.countMacCtrl_keeps
    | with_reducible apply keeps_ite

theorem execPfcReceive_keeps {w : Part → Bool} {a s : State}
    (hw : [Part.regs, .saturated, .traverse, .irqs, .ports].all w = true) (h : a.Keeps w s)
    (p : ExtPort) (enables : BitVec 8) (quanta : List (BitVec 16)) :
    AnswerKeeps w a (execPfcReceive p enables quanta s) := by
  unfold execPfcReceive
  repeat' first
    | with_reducible assumption
    | exact all_of hw rfl
    | with_reducible apply answerKeeps_next
    | intro _
    | with_reducible apply State.phyChange_keeps
    | with_reducible apply State.pfcArrives_keeps

theorem execPauseReceive_keeps {w : Part → Bool} {a s : State}
    (hw : [Part.regs, .saturated, .traverse, .irqs, .ports].all w = true) (h : a.Keeps w s)
    (p : ExtPort) (quanta : BitVec 16) :
    AnswerKeeps w a (execPauseReceive p quanta s) := by
  unfold execPauseReceive
  repeat' first
    | with_reducible assumption
    | exact all_of hw rfl
    | with_reducible apply answerKeeps_next
    | intro _
    | with_reducible apply State.phyChange_keeps
    | with_reducible apply State.pauseArrives_keeps

theorem execFlowControlStopExpiry_keeps {w : Part → Bool} {a s : State}
    (hw : [Part.ports].all w = true) (h : a.Keeps w s) (p : ExtPort) (c : TrafficClass) :
    AnswerKeeps w a (execFlowControlStopExpiry p c s) := by
  unfold execFlowControlStopExpiry
  repeat' first
    | with_reducible assumption
    | exact all_of hw rfl
    | with_reducible apply answerKeeps_next
    | intro _
    | with_reducible apply State.stopClass_keeps
    | with_reducible apply keeps_ite

theorem execPfcRefresh_keeps {w : Part → Bool} {a s : State}
    (hw : [Part.regs, .saturated, .irqs, .flowFrames].all w = true) (h : a.Keeps w s)
    (p : ExtPort) (c : TrafficClass) :
    AnswerKeeps w a (execPfcRefresh p c s) := by
  unfold execPfcRefresh
  repeat' first
    | with_reducible assumption
    | exact all_of hw rfl
    | with_reducible apply answerKeeps_next
    | intro _
    | with_reducible apply State.sendFlow_keeps
    | with_reducible apply keeps_ite

theorem State.releaseRx_keeps {w : Part → Bool} {a s : State}
    (hw : [Part.regs, .saturated, .irqs, .frames].all w = true) (h : a.Keeps w s) (f : Nat)
    (v : Frame) :
    a.Keeps w (State.releaseRx s f v) := by
  unfold State.releaseRx
  repeat' first
    | with_reducible assumption
    | exact all_of hw rfl
    | intro _
    | with_reducible apply State.classifyClosed_keeps
    | with_reducible apply State.setFrame_keeps
    | with_reducible apply State.ptpRing_keeps

theorem State.passUnverified_keeps {w : Part → Bool} {a s : State}
    (hw : [Part.regs, .saturated, .irqs, .frames].all w = true) (h : a.Keeps w s) (f : Nat)
    (v : Frame) :
    a.Keeps w (State.passUnverified s f v) := by
  unfold State.passUnverified
  repeat' first
    | with_reducible assumption
    | exact all_of hw rfl
    | intro _
    | with_reducible apply State.releaseRx_keeps

theorem State.notValid_keeps {w : Part → Bool} {a s : State}
    (hw : [Part.regs, .saturated, .irqs, .frames].all w = true) (h : a.Keeps w s) (f : Nat)
    (v : Frame) (strict : Bool) (e : Bool) :
    a.Keeps w (State.notValid s f v strict e) := by
  unfold State.notValid
  repeat' first
    | with_reducible assumption
    | exact all_of hw rfl
    | intro _
    | with_reducible apply State.delFrame_keeps
    | with_reducible apply State.passUnverified_keeps
    | with_reducible apply keeps_ite

theorem State.countSa_keeps {w : Part → Bool} {a s : State}
    (hw : [Part.regs, .saturated].all w = true) (h : a.Keeps w s) (sa : Nat) (bad : Bool) :
    a.Keeps w (State.countSa s sa bad) := by
  unfold State.countSa
  repeat' first
    | with_reducible assumption
    | exact all_of hw rfl
    | intro _
    | with_reducible apply State.bump_keeps

theorem State.checkSa_keeps {w : Part → Bool} {a s : State}
    (hw : [Part.regs, .saturated, .irqs, .frames].all w = true) (h : a.Keeps w s) (f : Nat)
    (v : Frame) (t : SecTag) (y : RxSecy) (x : SaKey) (sci : Nat) :
    a.Keeps w (State.checkSa s f v t y x sci) := by
  unfold State.checkSa
  repeat' first
    | with_reducible assumption
    | exact all_of hw rfl
    | intro _
    | with_reducible apply State.issueBlocks_keeps
    | with_reducible apply State.notValid_keeps
    | with_reducible apply State.countSa_keeps
    | with_reducible apply State.bump_keeps
    | with_reducible apply State.delFrame_keeps
    | with_reducible apply State.setNextPn_keeps
    | with_reducible apply State.releaseRx_keeps
    | with_reducible apply keeps_ite
    | dsimp only
    | split

theorem State.checkTagged_keeps {w : Part → Bool} {a s : State}
    (hw : [Part.regs, .saturated, .irqs, .frames].all w = true) (h : a.Keeps w s) (f : Nat)
    (v : Frame) (k : RxCheck) (t : SecTag) :
    a.Keeps w (State.checkTagged s f v k t) := by
  unfold State.checkTagged
  repeat' first
    | with_reducible assumption
    | exact all_of hw rfl
    | intro _
    | with_reducible apply State.delFrame_keeps
    | with_reducible apply State.bump_keeps
    | with_reducible apply State.notValid_keeps
    | with_reducible apply State.checkSa_keeps
    | with_reducible apply keeps_ite
    | dsimp only
    | split

theorem execMacsecVerify_keeps {w : Part → Bool} {a s : State}
    (hw : [Part.regs, .saturated, .irqs, .frames].all w = true) (h : a.Keeps w s) (f : FrameId) :
    AnswerKeeps w a (execMacsecVerify f s) := by
  unfold execMacsecVerify
  repeat' first
    | with_reducible assumption
    | exact all_of hw rfl
    | with_reducible apply answerKeeps_next
    | intro _
    | with_reducible apply State.passUnverified_keeps
    | with_reducible apply State.bump_keeps
    | with_reducible apply State.delFrame_keeps
    | with_reducible apply State.checkTagged_keeps
    | with_reducible apply keeps_ite
    | dsimp only
    | split

end Sys2Proof.Machine
end

