-- ==== Sys2Proof/Laws/KeepsPower.lean ====
section
/-!
SUPPORT. What the operations of Machine/Power.lean can change, and what they keep.
-/

namespace Sys2Proof.Machine

open Sys2Proof

theorem State.setLink_keeps {w : Part → Bool} {a s : State}
    (hw : [Part.powerLinkA, .powerLinkB].all w = true) (h : a.Keeps w s) (d : Nat) (v : PowerLink)
    :
    a.Keeps w (State.setLink s d v) := by
  unfold State.setLink
  repeat' first
    | with_reducible assumption
    | exact all_of hw rfl
    | intro _
    | with_reducible apply keeps_ite
    | dsimp only
    | split
    | with_reducible apply keeps_powerLinkA
    | with_reducible apply keeps_powerLinkB

theorem State.wakeSeqRoom_keeps {w : Part → Bool} {a s : State} (hw : [Part.rtk].all w = true)
    (h : a.Keeps w s) (d : Nat) :
    a.Keeps w (State.wakeSeqRoom s d) := by
  unfold State.wakeSeqRoom
  repeat' first
    | with_reducible assumption
    | exact all_of hw rfl
    | intro _
    | with_reducible apply State.setThread_keeps
    | with_reducible apply keeps_ite
    | with_reducible apply keeps_foldl

theorem execPowerLinkCommand_keeps {w : Part → Bool} {a0 s : State}
    (hw : [Part.regs, .saturated, .powerLinkA, .powerLinkB, .reports, .irqs, .rtk,
      .power].all w = true)
    (h : a0.Keeps w s) (d : Die) (a : LinkCopy) (b : LinkCopy) :
    AnswerKeeps w a0 (execPowerLinkCommand d a b s) := by
  unfold execPowerLinkCommand
  repeat' first
    | with_reducible assumption
    | exact all_of hw rfl
    | with_reducible apply answerKeeps_next
    | intro _
    | with_reducible apply State.bump_keeps
    | with_reducible apply State.setLink_keeps
    | with_reducible apply State.wakeSeqRoom_keeps
    | with_reducible apply State.dieAct_keeps
    | with_reducible apply State.setDie_keeps
    | with_reducible apply keeps_ite
    | dsimp only
    | split

theorem execPowerLinkCopySilent_keeps {w : Part → Bool} {a s : State}
    (hw : [Part.powerLinkA, .powerLinkB, .reports].all w = true) (h : a.Keeps w s) (d : Die)
    (copyB : Bool) :
    AnswerKeeps w a (execPowerLinkCopySilent d copyB s) := by
  unfold execPowerLinkCopySilent
  repeat' first
    | with_reducible assumption
    | exact all_of hw rfl
    | with_reducible apply answerKeeps_next
    | intro _
    | with_reducible apply State.fault_keeps
    | with_reducible apply State.setLink_keeps
    | with_reducible apply keeps_ite

theorem execPowerLinksLost_keeps {w : Part → Bool} {a s : State}
    (hw : [Part.powerLinkA, .powerLinkB, .reports].all w = true) (h : a.Keeps w s) (d : Die) :
    AnswerKeeps w a (execPowerLinksLost d s) := by
  unfold execPowerLinksLost
  repeat' first
    | with_reducible assumption
    | exact all_of hw rfl
    | with_reducible apply answerKeeps_next
    | intro _
    | with_reducible apply State.fault_keeps
    | with_reducible apply State.setLink_keeps
    | with_reducible apply keeps_ite

theorem execHeartbeatToggle_keeps {w : Part → Bool} {a s : State}
    (hw : [Part.powerLinkA, .powerLinkB].all w = true) (h : a.Keeps w s) :
    AnswerKeeps w a (execHeartbeatToggle s) := by
  unfold execHeartbeatToggle
  repeat' first
    | with_reducible assumption
    | exact all_of hw rfl
    | with_reducible apply answerKeeps_next
    | intro _
    | with_reducible apply State.setLink_keeps
    | with_reducible apply keeps_ite
    | with_reducible apply keeps_foldl

theorem execHeartbeatLoss_keeps {w : Part → Bool} {a s : State}
    (hw : [Part.regs, .saturated, .reports, .power].all w = true) (h : a.Keeps w s) (d : Die) :
    AnswerKeeps w a (execHeartbeatLoss d s) := by
  unfold execHeartbeatLoss
  repeat' first
    | with_reducible assumption
    | exact all_of hw rfl
    | with_reducible apply answerKeeps_next
    | intro _
    | with_reducible apply State.holdDie_keeps
    | with_reducible apply keeps_ite

theorem State.refreshChan_keeps {w : Part → Bool} {a s : State} (hw : [Part.regs].all w = true)
    (h : a.Keeps w s) (n : Nat) :
    a.Keeps w (State.refreshChan s n) := by
  unfold State.refreshChan
  repeat' first
    | with_reducible assumption
    | exact all_of hw rfl
    | intro _
    | with_reducible apply State.wr_keeps
    | with_reducible apply State.setFld_keeps
    | with_reducible apply State.wrN_keeps

theorem execSeqStateRefresh_keeps {w : Part → Bool} {a s : State}
    (hw : [Part.regs, .power].all w = true) (h : a.Keeps w s) (d : Die) (feed : BitVec 16)
    (avgA : BitVec 8) :
    AnswerKeeps w a (execSeqStateRefresh d feed avgA s) := by
  unfold execSeqStateRefresh
  repeat' first
    | with_reducible assumption
    | exact all_of hw rfl
    | with_reducible apply answerKeeps_next
    | intro _
    | with_reducible apply State.refreshChan_keeps
    | with_reducible apply State.setDie_keeps
    | with_reducible apply State.setFld_keeps
    | with_reducible apply State.setBit_keeps
    | with_reducible apply keeps_ite
    | with_reducible apply keeps_foldl

theorem State.tickChan_keeps {w : Part → Bool} {a s : State}
    (hw : [Part.regs, .power].all w = true) (h : a.Keeps w s) (samples : List ChanSample)
    (n : Nat) :
    a.Keeps w (State.tickChan s samples n) := by
  unfold State.tickChan
  repeat' first
    | with_reducible assumption
    | exact all_of hw rfl
    | intro _
    | with_reducible apply State.wrN_keeps
    | with_reducible apply State.setChan_keeps

theorem State.tickThread_keeps {w : Part → Bool} {a s : State} (hw : [Part.rtk].all w = true)
    (h : a.Keeps w s) (t : Nat) :
    a.Keeps w (State.tickThread s t) := by
  unfold State.tickThread
  repeat' first
    | with_reducible assumption
    | exact all_of hw rfl
    | intro _
    | with_reducible apply State.setThread_keeps
    | with_reducible apply keeps_ite
    | dsimp only
    | split

theorem State.tickSeq_keeps {w : Part → Bool} {a s : State}
    (hw : [Part.regs, .rtk, .power].all w = true) (h : a.Keeps w s) (samples : List ChanSample)
    (d : Nat) :
    a.Keeps w (State.tickSeq s samples d) := by
  unfold State.tickSeq
  repeat' first
    | with_reducible assumption
    | exact all_of hw rfl
    | intro _
    | with_reducible apply State.tickChan_keeps
    | with_reducible apply State.wr_keeps
    | with_reducible apply State.tickThread_keeps
    | with_reducible apply keeps_ite
    | with_reducible apply keeps_foldl

theorem execSeqTick_keeps {w : Part → Bool} {a s : State}
    (hw : [Part.regs, .rtk, .power].all w = true) (h : a.Keeps w s) (samples : List ChanSample) :
    AnswerKeeps w a (execSeqTick samples s) := by
  unfold execSeqTick
  repeat' first
    | with_reducible assumption
    | exact all_of hw rfl
    | with_reducible apply answerKeeps_next
    | intro _
    | with_reducible apply State.tickSeq_keeps
    | with_reducible apply keeps_ite

theorem State.writeTheta_keeps {w : Part → Bool} {a s : State}
    (hw : [Part.regs, .saturated, .reports, .power, .irqs].all w = true) (h : a.Keeps w s) (n : Nat)
    (v : Word) :
    a.Keeps w (State.writeTheta s n v) := by
  unfold State.writeTheta
  repeat' first
    | with_reducible assumption
    | exact all_of hw rfl
    | intro _
    | with_reducible apply State.setChan_keeps
    | with_reducible apply State.wr_keeps
    | with_reducible apply State.tripChan_keeps
    | with_reducible apply keeps_ite

theorem execThetaWrite_keeps {w : Part → Bool} {a s : State}
    (hw : [Part.regs, .busReply, .saturated, .reports, .irqs, .power].all w = true)
    (h : a.Keeps w s) (m : Master) (n : Out) (v : Word) :
    AnswerKeeps w a (execThetaWrite m n v s) := by
  unfold execThetaWrite
  repeat' first
    | with_reducible assumption
    | exact all_of hw rfl
    | with_reducible apply answerKeeps_next
    | intro _
    | with_reducible apply guardReg_keeps
    | with_reducible apply State.writeTheta_keeps

theorem execModelStall_keeps {w : Part → Bool} {a s : State}
    (hw : [Part.regs, .saturated, .reports, .irqs, .power].all w = true) (h : a.Keeps w s)
    (n : Out) :
    AnswerKeeps w a (execModelStall n s) := by
  unfold execModelStall
  repeat' first
    | with_reducible assumption
    | exact all_of hw rfl
    | with_reducible apply answerKeeps_next
    | intro _
    | with_reducible apply atOut_keeps
    | with_reducible apply State.holdChan_keeps
    | with_reducible apply State.fault_keeps
    | with_reducible apply State.chanFlag_keeps
    | with_reducible apply keeps_ite

theorem State.writeSnapshot_keeps {w : Part → Bool} {a s : State}
    (hw : [Part.mem, .eccBad, .power].all w = true) (h : a.Keeps w s) :
    a.Keeps w (State.writeSnapshot s) := by
  unfold State.writeSnapshot
  repeat' first
    | with_reducible assumption
    | exact all_of hw rfl
    | intro _
    | with_reducible apply State.wrMem_keeps
    | with_reducible apply State.setDie_keeps
    | with_reducible apply keeps_ite
    | dsimp only
    | split
    | with_reducible apply keeps_power

theorem execModelSnapshot_keeps {w : Part → Bool} {a s : State}
    (hw : [Part.mem, .eccBad, .power].all w = true) (h : a.Keeps w s) :
    AnswerKeeps w a (execModelSnapshot s) := by
  unfold execModelSnapshot
  repeat' first
    | with_reducible assumption
    | exact all_of hw rfl
    | with_reducible apply answerKeeps_next
    | intro _
    | with_reducible apply State.writeSnapshot_keeps
    | with_reducible apply keeps_ite

theorem State.restoreModel_keeps {w : Part → Bool} {a s : State}
    (hw : [Part.regs, .power].all w = true) (h : a.Keeps w s) (n : Nat) :
    a.Keeps w (State.restoreModel s n).1 := by
  unfold State.restoreModel
  repeat' first
    | with_reducible assumption
    | exact all_of hw rfl
    | intro _
    | with_reducible apply State.setChan_keeps
    | with_reducible apply State.setBit_keeps
    | with_reducible apply State.wrN_keeps
    | with_reducible apply keeps_ite
    | dsimp only
    | split

theorem State.sequencerStart_keeps {w : Part → Bool} {a s : State}
    (hw : [Part.regs, .irqs, .rtk, .power].all w = true) (h : a.Keeps w s) (d : Nat) :
    a.Keeps w (State.sequencerStart s d) := by
  unfold State.sequencerStart
  repeat' first
    | with_reducible assumption
    | exact all_of hw rfl
    | intro _
    | with_reducible apply State.restoreModel_keeps
    | with_reducible apply State.setFld_keeps
    | with_reducible apply State.setChan_keeps
    | with_reducible apply State.chanFlag_keeps
    | with_reducible apply State.startThreads_keeps
    | with_reducible apply State.setDie_keeps
    | with_reducible apply keeps_ite
    | with_reducible apply keeps_foldl
    | with_reducible apply keeps_foldl_fst

theorem State.sequencerStop_keeps {w : Part → Bool} {a s : State}
    (hw : [Part.regs, .saturated, .reports, .rtk, .power].all w = true) (h : a.Keeps w s)
    (d : Nat) :
    a.Keeps w (State.sequencerStop s d) := by
  unfold State.sequencerStop
  repeat' first
    | with_reducible assumption
    | exact all_of hw rfl
    | intro _
    | with_reducible apply State.stopThreads_keeps
    | with_reducible apply State.holdDie_keeps
    | with_reducible apply keeps_ite

theorem execFloorTimerExpiry_keeps {w : Part → Bool} {a s : State}
    (hw : [Part.regs, .power].all w = true) (h : a.Keeps w s) (n : Out) :
    AnswerKeeps w a (execFloorTimerExpiry n s) := by
  unfold execFloorTimerExpiry
  repeat' first
    | with_reducible assumption
    | exact all_of hw rfl
    | with_reducible apply answerKeeps_next
    | intro _
    | with_reducible apply State.setChan_keeps
    | with_reducible apply State.setBit_keeps
    | with_reducible apply keeps_ite

theorem State.weighted_keeps {w0 : Part → Bool} {a s : State} (h : a.Keeps w0 s) (old : Int)
    (num : Int) (den : Int) (w : Int) :
    a.Keeps w0 (State.weighted s old num den w).2 := by
  unfold State.weighted
  repeat' first
    | with_reducible assumption
    | intro _
    | with_reducible apply keeps_ite
    | dsimp only
    | split
    | with_reducible exact Nat.le_add_right _ _
    | with_reducible refine keeps_free _ ?_ ?_

theorem execOffsetCalibration_keeps {w : Part → Bool} {a s : State}
    (hw : [Part.regs, .power].all w = true) (h : a.Keeps w s) (n : Out) (avg : Int) :
    AnswerKeeps w a (execOffsetCalibration n avg s) := by
  unfold execOffsetCalibration
  repeat' first
    | with_reducible assumption
    | exact all_of hw rfl
    | with_reducible apply answerKeeps_next
    | intro _
    | with_reducible apply atOut_keeps
    | with_reducible apply State.weighted_keeps
    | with_reducible apply State.setChan_keeps
    | with_reducible apply State.setFld_keeps
    | with_reducible apply keeps_ite

theorem execCalibrationStale_keeps {w : Part → Bool} {a s : State}
    (hw : [Part.reports, .power].all w = true) (h : a.Keeps w s) (n : Out) (gain : Bool) :
    AnswerKeeps w a (execCalibrationStale n gain s) := by
  unfold execCalibrationStale
  repeat' first
    | with_reducible assumption
    | exact all_of hw rfl
    | with_reducible apply answerKeeps_next
    | intro _
    | with_reducible apply State.fault_keeps
    | with_reducible apply State.setChan_keeps
    | with_reducible apply keeps_ite

theorem State.takeStep_keeps {w : Part → Bool} {a s : State} (hw : [Part.power].all w = true)
    (h : a.Keeps w s) (n : Nat) :
    a.Keeps w (State.takeStep s n) := by
  unfold State.takeStep
  repeat' first
    | with_reducible assumption
    | exact all_of hw rfl
    | intro _
    | with_reducible apply State.setChan_keeps
    | with_reducible apply keeps_ite
    | dsimp only
    | split
    | with_reducible apply keeps_power

theorem execGainStep_keeps {w : Part → Bool} {a s : State}
    (hw : [Part.regs, .saturated, .reports, .power].all w = true) (h : a.Keeps w s) (n : Out)
    (before : List Int) (during : List Int) (after : List Int) :
    AnswerKeeps w a (execGainStep n before during after s) := by
  unfold execGainStep
  repeat' first
    | with_reducible assumption
    | exact all_of hw rfl
    | with_reducible apply answerKeeps_next
    | intro _
    | with_reducible apply State.takeStep_keeps
    | with_reducible apply State.bump_keeps
    | with_reducible apply State.fault_keeps
    | with_reducible apply State.weighted_keeps
    | with_reducible apply State.setChan_keeps
    | with_reducible apply State.setFld_keeps
    | with_reducible apply keeps_ite

theorem execFastLimitTrip_keeps {w : Part → Bool} {a s : State}
    (hw : [Part.regs, .saturated, .reports, .power, .irqs].all w = true) (h : a.Keeps w s) (n : Out) :
    AnswerKeeps w a (execFastLimitTrip n s) := by
  unfold execFastLimitTrip
  repeat' first
    | with_reducible assumption
    | exact all_of hw rfl
    | with_reducible apply answerKeeps_next
    | intro _
    | with_reducible apply atOut_keeps
    | with_reducible apply State.tripChan_keeps
    | with_reducible apply keeps_ite

theorem execThermalShutdown_keeps {w : Part → Bool} {a s : State}
    (hw : [Part.regs, .saturated, .reports, .power, .irqs].all w = true) (h : a.Keeps w s) (n : Out) :
    AnswerKeeps w a (execThermalShutdown n s) := by
  unfold execThermalShutdown
  repeat' first
    | with_reducible assumption
    | exact all_of hw rfl
    | with_reducible apply answerKeeps_next
    | intro _
    | with_reducible apply State.setChan_keeps
    | with_reducible apply atOut_keeps
    | with_reducible apply State.tripChan_keeps
    | with_reducible apply keeps_ite

theorem execThermalRestartReady_keeps {w : Part → Bool} {a s : State}
    (hw : [Part.reports, .power].all w = true) (h : a.Keeps w s) (n : Out) :
    AnswerKeeps w a (execThermalRestartReady n s) := by
  unfold execThermalRestartReady
  repeat' first
    | with_reducible assumption
    | exact all_of hw rfl
    | with_reducible apply answerKeeps_next
    | intro _
    | with_reducible apply atOut_keeps
    | with_reducible apply State.setChan_keeps
    | with_reducible apply State.latchMogul_keeps
    | with_reducible apply keeps_ite

theorem execElevatedWindowEnd_keeps {w : Part → Bool} {a s : State}
    (hw : [Part.power].all w = true) (h : a.Keeps w s) (n : Out) :
    AnswerKeeps w a (execElevatedWindowEnd n s) := by
  unfold execElevatedWindowEnd
  repeat' first
    | with_reducible assumption
    | exact all_of hw rfl
    | with_reducible apply answerKeeps_next
    | intro _
    | with_reducible apply atOut_keeps
    | with_reducible apply State.setChan_keeps
    | with_reducible apply keeps_ite

theorem execMogulSuccess_keeps {w : Part → Bool} {a s : State} (hw : [Part.power].all w = true)
    (h : a.Keeps w s) (n : Out) :
    AnswerKeeps w a (execMogulSuccess n s) := by
  unfold execMogulSuccess
  repeat' first
    | with_reducible assumption
    | exact all_of hw rfl
    | with_reducible apply answerKeeps_next
    | intro _
    | with_reducible apply atOut_keeps
    | with_reducible apply State.setChan_keeps
    | with_reducible apply keeps_ite

theorem execMogulRetryRequest_keeps {w : Part → Bool} {a s : State}
    (hw : [Part.reports, .power].all w = true) (h : a.Keeps w s) (n : Out) :
    AnswerKeeps w a (execMogulRetryRequest n s) := by
  unfold execMogulRetryRequest
  repeat' first
    | with_reducible assumption
    | exact all_of hw rfl
    | with_reducible apply answerKeeps_next
    | intro _
    | with_reducible apply atOut_keeps
    | with_reducible apply State.setChan_keeps
    | with_reducible apply State.latchMogul_keeps
    | with_reducible apply keeps_ite
    | dsimp only
    | split

theorem State.grantRestart_keeps {w : Part → Bool} {a s : State}
    (hw : [Part.regs, .saturated, .power].all w = true) (h : a.Keeps w s) (n : Nat) (r : Restart)
    :
    a.Keeps w (State.grantRestart s n r) := by
  unfold State.grantRestart
  repeat' first
    | with_reducible assumption
    | exact all_of hw rfl
    | intro _
    | with_reducible apply State.switchOn_keeps
    | with_reducible apply State.setChan_keeps
    | with_reducible apply State.bump_keeps
    | with_reducible apply keeps_ite

theorem State.slotStep_keeps {w : Part → Bool} {a : State} (hw : [Part.regs, .saturated, .power].all w = true) (d limit : Nat)
    {acc : State × List Nat × Nat} (h : a.Keeps w acc.1) (x : Nat × Restart) :
    a.Keeps w (State.slotStep d limit acc x).1 := by
  unfold State.slotStep
  dsimp only
  split
  · exact h
  · split
    · exact State.bump_keeps (all_of hw rfl) (State.setChan_keeps (all_of hw rfl) h _ _) _
    · exact State.grantRestart_keeps (all_of hw rfl) h _ _

theorem execRestartSlot_keeps {w : Part → Bool} {a s : State}
    (hw : [Part.regs, .saturated, .power].all w = true) (h : a.Keeps w s) (d : Die) :
    AnswerKeeps w a (execRestartSlot d s) := by
  unfold execRestartSlot
  apply answerKeeps_next
  refine keeps_ite (keeps_foldl_fst _ _ ?_ ?_) h
  · exact h
  · intro q x hq
    exact State.slotStep_keeps hw _ _ hq x

theorem execRunoutTrip_keeps {w : Part → Bool} {a s : State}
    (hw : [Part.regs, .saturated, .reports, .power, .irqs].all w = true) (h : a.Keeps w s) (n : Out) :
    AnswerKeeps w a (execRunoutTrip n s) := by
  unfold execRunoutTrip
  repeat' first
    | with_reducible assumption
    | exact all_of hw rfl
    | with_reducible apply answerKeeps_next
    | intro _
    | with_reducible apply atOut_keeps
    | with_reducible apply State.fault_keeps
    | with_reducible apply State.tripChan_keeps
    | with_reducible apply State.setChan_keeps
    | with_reducible apply keeps_ite

theorem execDieOverloadShed_keeps {w : Part → Bool} {a s : State}
    (hw : [Part.regs, .saturated, .reports, .irqs, .power].all w = true) (h : a.Keeps w s)
    (d : Die) (avgA : BitVec 8) :
    AnswerKeeps w a (execDieOverloadShed d avgA s) := by
  unfold execDieOverloadShed
  repeat' first
    | with_reducible assumption
    | exact all_of hw rfl
    | with_reducible apply answerKeeps_next
    | intro _
    | with_reducible apply State.setDie_keeps
    | with_reducible apply State.setFld_keeps
    | with_reducible apply State.fault_keeps
    | with_reducible apply State.bump_keeps
    | with_reducible apply State.dieFlag_keeps
    | with_reducible apply State.setChan_keeps
    | with_reducible apply keeps_ite
    | dsimp only
    | split

theorem execOpenLoad_keeps {w : Part → Bool} {a s : State} (hw : [Part.regs, .irqs].all w = true)
    (h : a.Keeps w s) (n : Out) (on : Bool) :
    AnswerKeeps w a (execOpenLoad n on s) := by
  unfold execOpenLoad
  repeat' first
    | with_reducible assumption
    | exact all_of hw rfl
    | with_reducible apply answerKeeps_next
    | intro _
    | with_reducible apply atOut_keeps
    | with_reducible apply State.chanFlag_keeps
    | with_reducible apply keeps_ite

theorem execLoadDump_keeps {w : Part → Bool} {a s : State}
    (hw : [Part.regs, .saturated, .reports, .power].all w = true) (h : a.Keeps w s) (d : Die) :
    AnswerKeeps w a (execLoadDump d s) := by
  unfold execLoadDump
  repeat' first
    | with_reducible assumption
    | exact all_of hw rfl
    | with_reducible apply answerKeeps_next
    | intro _
    | with_reducible apply State.setChan_keeps
    | with_reducible apply State.fault_keeps
    | with_reducible apply State.bump_keeps
    | with_reducible apply State.setBit_keeps
    | with_reducible apply State.setDie_keeps
    | with_reducible apply keeps_ite
    | with_reducible apply keeps_foldl

theorem execLoadDumpEnd_keeps {w : Part → Bool} {a s : State}
    (hw : [Part.regs, .power].all w = true) (h : a.Keeps w s) (d : Die) :
    AnswerKeeps w a (execLoadDumpEnd d s) := by
  unfold execLoadDumpEnd
  repeat' first
    | with_reducible assumption
    | exact all_of hw rfl
    | with_reducible apply answerKeeps_next
    | intro _
    | with_reducible apply State.setChan_keeps
    | with_reducible apply State.setBit_keeps
    | with_reducible apply State.setDie_keeps
    | with_reducible apply keeps_ite
    | with_reducible apply keeps_foldl

theorem State.supplyFlag_keeps {w : Part → Bool} {a s : State}
    (hw : [Part.regs, .reports].all w = true) (h : a.Keeps w s) :
    a.Keeps w (State.supplyFlag s) := by
  unfold State.supplyFlag
  repeat' first
    | with_reducible assumption
    | exact all_of hw rfl
    | intro _
    | with_reducible apply State.setGstat_keeps

theorem execFeedReversed_keeps {w : Part → Bool} {a s : State}
    (hw : [Part.regs, .powerLinkA, .powerLinkB, .supply, .reports, .power].all w = true)
    (h : a.Keeps w s) (d : Die) :
    AnswerKeeps w a (execFeedReversed d s) := by
  unfold execFeedReversed
  repeat' first
    | with_reducible assumption
    | exact all_of hw rfl
    | with_reducible apply answerKeeps_next
    | intro _
    | with_reducible apply State.setChan_keeps
    | with_reducible apply State.supplyFlag_keeps
    | with_reducible apply State.fault_keeps
    | with_reducible apply State.setLink_keeps
    | with_reducible apply State.setDie_keeps
    | with_reducible apply keeps_ite
    | with_reducible apply keeps_foldl
    | dsimp only
    | split
    | with_reducible apply keeps_supply

theorem State.dieReturn_keeps {w : Part → Bool} {a s : State}
    (hw : [Part.powerLinkA, .powerLinkB, .power].all w = true) (h : a.Keeps w s) (d : Nat) :
    a.Keeps w (State.dieReturn s d) := by
  unfold State.dieReturn
  repeat' first
    | with_reducible assumption
    | exact all_of hw rfl
    | intro _
    | with_reducible apply State.setChan_keeps
    | with_reducible apply State.setLink_keeps
    | with_reducible apply State.setDie_keeps
    | with_reducible apply keeps_ite
    | with_reducible apply keeps_foldl

theorem execFeedReturn_keeps {w : Part → Bool} {a s : State}
    (hw : [Part.regs, .powerLinkA, .powerLinkB, .supply, .reports, .power].all w = true)
    (h : a.Keeps w s) (d : Die) :
    AnswerKeeps w a (execFeedReturn d s) := by
  unfold execFeedReturn
  repeat' first
    | with_reducible assumption
    | exact all_of hw rfl
    | with_reducible apply answerKeeps_next
    | intro _
    | with_reducible apply State.dieReturn_keeps
    | with_reducible apply State.supplyFlag_keeps
    | with_reducible apply keeps_ite
    | dsimp only
    | split
    | with_reducible apply keeps_supply

theorem execGroundShift_keeps {w : Part → Bool} {a s : State}
    (hw : [Part.regs, .reports, .irqs].all w = true) (h : a.Keeps w s) :
    AnswerKeeps w a (execGroundShift s) := by
  unfold execGroundShift
  repeat' first
    | with_reducible assumption
    | exact all_of hw rfl
    | with_reducible apply answerKeeps_next
    | intro _
    | with_reducible apply State.fault_keeps
    | with_reducible apply State.dieFlag_keeps
    | with_reducible apply keeps_ite
    | with_reducible apply keeps_foldl

theorem execChannelSupervisionExpiry_keeps {w : Part → Bool} {a s : State}
    (hw : [Part.reports, .power].all w = true) (h : a.Keeps w s) (n : Out) :
    AnswerKeeps w a (execChannelSupervisionExpiry n s) := by
  unfold execChannelSupervisionExpiry
  repeat' first
    | with_reducible assumption
    | exact all_of hw rfl
    | with_reducible apply answerKeeps_next
    | intro _
    | with_reducible apply State.fault_keeps
    | with_reducible apply State.setChan_keeps
    | with_reducible apply keeps_ite

theorem execPwmEdge_keeps {w : Part → Bool} {a s : State} (hw : [Part.power].all w = true)
    (h : a.Keeps w s) (n : Out) (rising : Bool) :
    AnswerKeeps w a (execPwmEdge n rising s) := by
  unfold execPwmEdge
  repeat' first
    | with_reducible assumption
    | exact all_of hw rfl
    | with_reducible apply answerKeeps_next
    | intro _
    | with_reducible apply State.setChan_keeps
    | with_reducible apply keeps_ite

end Sys2Proof.Machine
end

