-- ==== Sys2Proof/Laws/KeepsEnableOps.lean ====
section
/-!
SUPPORT. What the operations of Machine/EnableOps.lean can change, and what they keep.
-/

namespace Sys2Proof.Machine

open Sys2Proof

theorem State.adoptSeed_keeps {w : Part → Bool} {a s : State}
    (hw : [Part.regs, .cls].all w = true) (h : a.Keeps w s) :
    a.Keeps w (State.adoptSeed s) := by
  unfold State.adoptSeed
  repeat' first
    | with_reducible assumption
    | exact all_of hw rfl
    | intro _
    | with_reducible apply State.setBit_keeps
    | with_reducible apply keeps_ite
    | dsimp only
    | split
    | with_reducible apply keeps_cls

theorem State.samplePcfg_keeps {w : Part → Bool} {a s : State}
    (hw : [Part.regs, .hbr].all w = true) (h : a.Keeps w s) :
    a.Keeps w (State.samplePcfg s) := by
  unfold State.samplePcfg
  repeat' first
    | with_reducible assumption
    | exact all_of hw rfl
    | intro _
    | with_reducible apply State.setBit_keeps
    | with_reducible apply keeps_ite
    | dsimp only
    | split
    | with_reducible apply keeps_hbr

theorem State.reopen_keeps {w : Part → Bool} {a s : State} (hw : [Part.fab].all w = true)
    (h : a.Keeps w s) :
    a.Keeps w (State.reopen s) := by
  unfold State.reopen
  repeat' first
    | with_reducible assumption
    | exact all_of hw rfl
    | intro _
    | with_reducible apply keeps_ite
    | dsimp only
    | split
    | with_reducible apply keeps_fab

theorem State.enableEffects_keeps {w : Part → Bool} {a s : State}
    (hw : [Part.regs, .saturated, .reports, .irqs, .frames, .nextFrame, .ports, .fab,
      .cls, .rtk, .tm, .power, .gwy, .hbr].all w = true)
    (h : a.Keeps w s) (b : Nat) :
    a.Keeps w (State.enableEffects s b) := by
  unfold State.enableEffects
  repeat' first
    | with_reducible assumption
    | exact all_of hw rfl
    | intro _
    | with_reducible apply State.reopen_keeps
    | with_reducible apply State.checkDrift_keeps
    | with_reducible apply State.dividePool_keeps
    | with_reducible apply State.adoptSeed_keeps
    | with_reducible apply State.fillMeter_keeps
    | with_reducible apply State.enableFrer_keeps
    | with_reducible apply State.startGwy_keeps
    | with_reducible apply State.samplePcfg_keeps
    | with_reducible apply State.sequencerStart_keeps
    | with_reducible apply State.startThreads_keeps
    | with_reducible apply State.startPort_keeps
    | with_reducible apply keeps_ite
    | with_reducible apply keeps_dite
    | with_reducible apply keeps_foldl
    | dsimp only
    | split

theorem State.resumeEffects_keeps {w : Part → Bool} {a s : State}
    (hw : [Part.fab, .rtk].all w = true) (h : a.Keeps w s) (b : Nat) :
    a.Keeps w (State.resumeEffects s b) := by
  unfold State.resumeEffects
  repeat' first
    | with_reducible assumption
    | exact all_of hw rfl
    | intro _
    | with_reducible apply State.reopen_keeps
    | with_reducible apply State.startThreads_keeps
    | with_reducible apply keeps_ite
    | with_reducible apply keeps_dite
    | dsimp only
    | split

theorem State.enableBlk_keeps {w : Part → Bool} {a s : State}
    (hw : [Part.regs, .quiescing, .saturated, .reports, .irqs, .frames, .nextFrame,
      .ports, .fab, .cls, .rtk, .tm, .power, .gwy, .hbr].all w = true)
    (h : a.Keeps w s) (b : Nat) :
    a.Keeps w (State.enableBlk s b) := by
  unfold State.enableBlk
  repeat' first
    | with_reducible assumption
    | exact all_of hw rfl
    | intro _
    | with_reducible apply State.resumeEffects_keeps
    | with_reducible apply State.setBit_keeps
    | with_reducible apply State.enableEffects_keeps
    | with_reducible apply keeps_ite
    | dsimp only
    | split
    | with_reducible apply keeps_quiescing

theorem State.closeFabric_keeps {w : Part → Bool} {a s : State}
    (hw : [Part.regs, .saturated, .irqs, .flowFrames, .frames, .nextFrame, .fab, .tm].all w = true)
    (h : a.Keeps w s) :
    a.Keeps w (State.closeFabric s) := by
  unfold State.closeFabric
  repeat' first
    | with_reducible assumption
    | exact all_of hw rfl
    | intro _
    | with_reducible apply State.reap_keeps
    | with_reducible apply State.redirect_keeps
    | with_reducible apply keeps_ite
    | with_reducible apply keeps_foldl
    | dsimp only
    | split
    | with_reducible apply keeps_fab

theorem State.quiesceEffects_keeps {w : Part → Bool} {a s : State}
    (hw : [Part.regs, .mem, .busReply, .saturated, .reports, .irqs, .flowFrames,
      .frames, .nextFrame, .fab, .rtk, .eccBad, .tm, .cip, .power, .hbr].all w = true)
    (h : a.Keeps w s) (b : Nat) :
    a.Keeps w (State.quiesceEffects s b) := by
  unfold State.quiesceEffects
  repeat' first
    | with_reducible assumption
    | exact all_of hw rfl
    | intro _
    | with_reducible apply State.closeFabric_keeps
    | with_reducible apply State.suspendJob_keeps
    | with_reducible apply State.sequencerStop_keeps
    | with_reducible apply State.stopThreads_keeps
    | with_reducible apply keeps_ite
    | with_reducible apply keeps_dite
    | with_reducible apply keeps_foldl
    | dsimp only
    | split

theorem State.quiesceBlk_keeps {w : Part → Bool} {a s : State}
    (hw : [Part.regs, .mem, .busReply, .quiescing, .saturated, .reports, .irqs,
      .flowFrames, .frames, .nextFrame, .fab, .rtk, .eccBad, .tm, .cip, .power,
      .hbr].all w = true)
    (h : a.Keeps w s) (b : Nat) :
    a.Keeps w (State.quiesceBlk s b) := by
  unfold State.quiesceBlk
  repeat' first
    | with_reducible assumption
    | exact all_of hw rfl
    | intro _
    | with_reducible apply State.setBit_keeps
    | with_reducible apply State.quiesceEffects_keeps
    | with_reducible apply keeps_ite
    | dsimp only
    | split
    | with_reducible apply keeps_quiescing

theorem State.disabledEffects_keeps {w : Part → Bool} {a s : State}
    (hw : [Part.regs, .saturated, .irqs, .flowFrames, .frames, .nextFrame, .ports,
      .fab, .tm, .gwy].all w = true)
    (h : a.Keeps w s) (b : Nat) :
    a.Keeps w (State.disabledEffects s b) := by
  unfold State.disabledEffects
  repeat' first
    | with_reducible assumption
    | exact all_of hw rfl
    | intro _
    | with_reducible apply State.setMeter_keeps
    | with_reducible apply State.stopGwy_keeps
    | with_reducible apply State.stopPort_keeps
    | with_reducible apply keeps_ite
    | with_reducible apply keeps_dite
    | with_reducible apply keeps_foldl
    | dsimp only
    | split

theorem State.disableBlk_keeps {w : Part → Bool} {a s : State}
    (hw : [Part.regs, .quiescing, .saturated, .irqs, .flowFrames, .frames, .nextFrame,
      .ports, .fab, .tm, .gwy].all w = true)
    (h : a.Keeps w s) (b : Nat) :
    a.Keeps w (State.disableBlk s b) := by
  unfold State.disableBlk
  repeat' first
    | with_reducible assumption
    | exact all_of hw rfl
    | intro _
    | with_reducible apply State.disabledEffects_keeps
    | with_reducible apply State.setBit_keeps
    | with_reducible apply keeps_ite
    | dsimp only
    | split
    | with_reducible apply keeps_quiescing

end Sys2Proof.Machine
end

