-- ==== Sys2Proof/Laws/KeepsVault.lean ====
section
/-!
SUPPORT. What the operations of Machine/Vault.lean can change, and what they keep.
-/

namespace Sys2Proof.Machine

open Sys2Proof

theorem State.runVault_keeps {w : Part → Bool} {a s : State}
    (hw : [Part.regs, .saturated, .irqs, .vlt].all w = true) (h : a.Keeps w s) (c : Nat)
    (op : Nat) (f : State → Nat × State) (hf : ∀ (x0 : State), a.Keeps w x0 → a.Keeps w (f x0).2)
    :
    a.Keeps w (State.runVault s c op f) := by
  unfold State.runVault
  repeat' first
    | with_reducible assumption
    | exact all_of hw rfl
    | intro _
    | with_reducible apply hf
    | with_reducible apply State.endVault_keeps
    | with_reducible apply keeps_ite

theorem State.rootFailed_keeps {w : Part → Bool} {a s : State} (hw : [Part.reports].all w = true)
    (h : a.Keeps w s) :
    a.Keeps w (State.rootFailed s) := by
  unfold State.rootFailed
  repeat' first
    | with_reducible assumption
    | exact all_of hw rfl
    | intro _
    | with_reducible apply State.fault_keeps

theorem State.readyIdentity_keeps {w : Part → Bool} {a s : State}
    (hw : [Part.regs, .reports, .vlt].all w = true) (h : a.Keeps w s) (ok : Bool) :
    a.Keeps w (State.readyIdentity s ok) := by
  unfold State.readyIdentity
  repeat' first
    | with_reducible assumption
    | exact all_of hw rfl
    | intro _
    | with_reducible apply State.wr_keeps
    | with_reducible apply State.rootFailed_keeps
    | with_reducible apply keeps_ite
    | with_reducible apply keeps_foldl
    | dsimp only
    | split
    | with_reducible apply keeps_vlt

theorem State.readyRoot_keeps {w : Part → Bool} {a s : State}
    (hw : [Part.regs, .reports, .vlt].all w = true) (h : a.Keeps w s) (ok : Bool) :
    a.Keeps w (State.readyRoot s ok) := by
  unfold State.readyRoot
  repeat' first
    | with_reducible assumption
    | exact all_of hw rfl
    | intro _
    | with_reducible apply State.setBit_keeps
    | with_reducible apply State.setFld_keeps
    | with_reducible apply State.rootFailed_keeps
    | with_reducible apply keeps_ite
    | dsimp only
    | split
    | with_reducible apply keeps_vlt

theorem execVaultReady_keeps {w : Part → Bool} {a s : State}
    (hw : [Part.regs, .reports, .vlt].all w = true) (h : a.Keeps w s) (rootOk : Bool)
    (identityOk : Bool) :
    AnswerKeeps w a (execVaultReady rootOk identityOk s) := by
  unfold execVaultReady
  repeat' first
    | with_reducible assumption
    | exact all_of hw rfl
    | with_reducible apply answerKeeps_next
    | intro _
    | with_reducible apply State.readyIdentity_keeps
    | with_reducible apply State.nextCommand_keeps
    | with_reducible apply State.readyRoot_keeps
    | with_reducible apply keeps_ite

theorem execProvision_keeps {w : Part → Bool} {a s : State}
    (hw : [Part.regs, .mem, .saturated, .reports, .irqs, .eccBad, .vlt].all w = true)
    (h : a.Keeps w s) (c : Fin 4) :
    AnswerKeeps w a (execProvision c s) := by
  unfold execProvision
  repeat' first
    | with_reducible assumption
    | exact all_of hw rfl
    | with_reducible apply answerKeeps_next
    | intro _
    | with_reducible apply State.runVault_keeps
    | with_reducible apply State.storeSlot_keeps
    | with_reducible apply State.setSlot_keeps
    | with_reducible apply State.wrN_keeps
    | with_reducible apply State.wrMem_keeps
    | with_reducible apply State.bump_keeps
    | with_reducible apply State.fault_keeps
    | with_reducible apply keeps_ite
    | with_reducible apply keeps_dite
    | dsimp only
    | split

theorem State.loadKey_keeps {w : Part → Bool} {a s : State} (hw : [Part.regs, .cip].all w = true)
    (h : a.Keeps w s) (k : Nat) (n : Nat) (key : List Byte) :
    a.Keeps w (State.loadKey s k n key) := by
  unfold State.loadKey
  repeat' first
    | with_reducible assumption
    | exact all_of hw rfl
    | intro _
    | with_reducible apply State.wrN_keeps
    | with_reducible apply keeps_ite
    | dsimp only
    | split
    | with_reducible apply keeps_cip

theorem execDerive_keeps {w : Part → Bool} {a s : State}
    (hw : [Part.regs, .mem, .saturated, .reports, .irqs, .eccBad, .cip, .vlt].all w = true)
    (h : a.Keeps w s) (c : Fin 4) (badTag : Option (Fin 512)) :
    AnswerKeeps w a (execDerive c badTag s) := by
  unfold execDerive
  repeat' first
    | with_reducible assumption
    | exact all_of hw rfl
    | with_reducible apply answerKeeps_next
    | intro _
    | with_reducible apply State.runVault_keeps
    | with_reducible apply State.bump_keeps
    | with_reducible apply State.tagFailed_keeps
    | with_reducible apply State.monEvent_keeps
    | with_reducible apply State.loadKey_keeps
    | with_reducible apply State.reshare_keeps
    | with_reducible apply keeps_ite
    | dsimp only
    | split

theorem execInvalidate_keeps {w : Part → Bool} {a s : State}
    (hw : [Part.regs, .mem, .busReply, .saturated, .reports, .irqs, .eccBad, .tm,
      .cip, .vlt, .hbr].all w = true)
    (h : a.Keeps w s) (c : Fin 4) :
    AnswerKeeps w a (execInvalidate c s) := by
  unfold execInvalidate
  repeat' first
    | with_reducible assumption
    | exact all_of hw rfl
    | with_reducible apply answerKeeps_next
    | intro _
    | with_reducible apply State.runVault_keeps
    | with_reducible apply State.invalidateSlot_keeps

theorem execOverwrite_keeps {w : Part → Bool} {a s : State}
    (hw : [Part.regs, .mem, .busReply, .saturated, .reports, .irqs, .eccBad, .tm,
      .cip, .vlt, .hbr].all w = true)
    (h : a.Keeps w s) (c : Fin 4) :
    AnswerKeeps w a (execOverwrite c s) := by
  unfold execOverwrite
  repeat' first
    | with_reducible assumption
    | exact all_of hw rfl
    | with_reducible apply answerKeeps_next
    | intro _
    | with_reducible apply State.runVault_keeps
    | with_reducible apply State.emptyKeySlot_keeps
    | with_reducible apply State.invalidateSlot_keeps

theorem execExtend_keeps {w : Part → Bool} {a s : State}
    (hw : [Part.regs, .saturated, .irqs, .vlt].all w = true) (h : a.Keeps w s) (c : Fin 4) :
    AnswerKeeps w a (execExtend c s) := by
  unfold execExtend
  repeat' first
    | with_reducible assumption
    | exact all_of hw rfl
    | with_reducible apply answerKeeps_next
    | intro _
    | with_reducible apply State.runVault_keeps
    | with_reducible apply State.extendMr_keeps
    | with_reducible apply keeps_ite
    | dsimp only
    | split

theorem execVerify_keeps {w : Part → Bool} {a s : State}
    (hw : [Part.regs, .saturated, .irqs, .vlt].all w = true) (h : a.Keeps w s) (c : Fin 4) :
    AnswerKeeps w a (execVerify c s) := by
  unfold execVerify
  repeat' first
    | with_reducible assumption
    | exact all_of hw rfl
    | with_reducible apply answerKeeps_next
    | intro _
    | with_reducible apply State.runVault_keeps
    | with_reducible apply State.bump_keeps
    | with_reducible apply keeps_ite
    | dsimp only
    | split

theorem State.overwriteVault_keeps {w : Part → Bool} {a s : State}
    (hw : [Part.regs, .mem, .vlt].all w = true) (h : a.Keeps w s) :
    a.Keeps w (State.overwriteVault s) := by
  unfold State.overwriteVault
  repeat' first
    | with_reducible assumption
    | exact all_of hw rfl
    | intro _
    | with_reducible apply State.wrN_keeps
    | with_reducible apply State.erase_keeps
    | with_reducible apply keeps_ite
    | with_reducible apply keeps_foldl
    | with_reducible apply keeps_foldl_fst
    | with_reducible apply keeps_foldl_snd
    | dsimp only
    | split
    | with_reducible apply keeps_vlt

theorem execEnrol_keeps {w : Part → Bool} {a s : State}
    (hw : [Part.regs, .mem, .saturated, .irqs, .eccBad, .vlt].all w = true) (h : a.Keeps w s)
    (c : Fin 4) :
    AnswerKeeps w a (execEnrol c s) := by
  unfold execEnrol
  repeat' first
    | with_reducible assumption
    | exact all_of hw rfl
    | with_reducible apply answerKeeps_next
    | intro _
    | with_reducible apply State.runVault_keeps
    | with_reducible apply State.wrMem_keeps
    | with_reducible apply State.overwriteVault_keeps
    | with_reducible apply State.setBit_keeps
    | with_reducible apply State.setFld_keeps
    | with_reducible apply keeps_ite
    | dsimp only
    | split
    | with_reducible apply keeps_vlt

theorem State.endCommand_keeps {w : Part → Bool} {a s : State}
    (hw : [Part.regs, .saturated, .irqs, .vlt, .boot].all w = true) (h : a.Keeps w s) (c : Nat)
    (res : Nat) :
    a.Keeps w (State.endCommand s c res) := by
  unfold State.endCommand
  repeat' first
    | with_reducible assumption
    | exact all_of hw rfl
    | intro _
    | with_reducible apply State.failManifest_keeps
    | with_reducible apply State.endVault_keeps
    | with_reducible apply keeps_ite

theorem State.abortVault_keeps {w : Part → Bool} {a s : State}
    (hw : [Part.regs, .saturated, .irqs, .vlt, .boot].all w = true) (h : a.Keeps w s) :
    a.Keeps w (State.abortVault s) := by
  unfold State.abortVault
  repeat' first
    | with_reducible assumption
    | exact all_of hw rfl
    | intro _
    | with_reducible apply State.endCommand_keeps
    | with_reducible apply keeps_ite
    | dsimp only
    | split

theorem State.eraseRecord_keeps {w : Part → Bool} {a s : State}
    (hw : [Part.mem, .vlt].all w = true) (h : a.Keeps w s) :
    a.Keeps w (State.eraseRecord s) := by
  unfold State.eraseRecord
  repeat' first
    | with_reducible assumption
    | exact all_of hw rfl
    | intro _
    | with_reducible apply State.erase_keeps
    | with_reducible apply keeps_ite
    | dsimp only
    | split
    | with_reducible apply keeps_vlt

theorem State.tamper_keeps {w : Part → Bool} {a s : State}
    (hw : [Part.regs, .mem, .busReply, .saturated, .reports, .bbQueue, .bbLost, .irqs,
      .frames, .eccBad, .tm, .cip, .vlt, .boot, .hbr].all w = true)
    (h : a.Keeps w s) :
    a.Keeps w (State.tamper s) := by
  unfold State.tamper
  repeat' first
    | with_reducible assumption
    | exact all_of hw rfl
    | intro _
    | with_reducible apply State.zeroizeCipher_keeps
    | with_reducible apply State.abortVault_keeps
    | with_reducible apply State.setFld_keeps
    | with_reducible apply State.eraseRecord_keeps
    | with_reducible apply State.setBit_keeps
    | with_reducible apply State.blackBox_keeps
    | with_reducible apply State.abortSession_keeps
    | with_reducible apply State.dropSegment_keeps
    | with_reducible apply State.fault_keeps
    | with_reducible apply keeps_ite
    | dsimp only
    | split
    | with_reducible exact Nat.le_add_right _ _
    | with_reducible refine keeps_free _ ?_ ?_

theorem execTamperSample_keeps {w : Part → Bool} {a s : State}
    (hw : [Part.regs, .mem, .busReply, .islands, .saturated, .reports, .bbQueue,
      .bbLost, .irqs, .frames, .nextFrame, .rtk, .eccBad, .tm, .cip, .vlt, .wak,
      .boot, .hbr].all w = true)
    (h : a.Keeps w s) (loopOpen : Bool) :
    AnswerKeeps w a (execTamperSample loopOpen s) := by
  unfold execTamperSample
  repeat' first
    | with_reducible assumption
    | exact all_of hw rfl
    | with_reducible apply answerKeeps_next
    | intro _
    | with_reducible apply State.setBit_keeps
    | with_reducible apply State.tamper_keeps
    | with_reducible apply State.wakeRecord_keeps
    | with_reducible apply State.eraseRecord_keeps
    | with_reducible apply State.wakeEvent_keeps
    | with_reducible apply keeps_ite
    | with_reducible refine keeps_of_snd ?_ (by with_reducible assumption)
    | with_reducible refine keeps_of_fst ?_ (by with_reducible assumption)
    | dsimp only
    | split
    | with_reducible apply keeps_vlt

theorem execVaultZeroizeDone_keeps {w : Part → Bool} {a s : State}
    (hw : [Part.regs, .mem, .saturated, .irqs, .vlt, .boot].all w = true) (h : a.Keeps w s) :
    AnswerKeeps w a (execVaultZeroizeDone s) := by
  unfold execVaultZeroizeDone
  repeat' first
    | with_reducible assumption
    | exact all_of hw rfl
    | with_reducible apply answerKeeps_next
    | intro _
    | with_reducible apply State.overwriteVault_keeps
    | with_reducible apply State.endCommand_keeps
    | with_reducible apply State.queueManifest_keeps
    | with_reducible apply State.setFld_keeps
    | with_reducible apply keeps_ite
    | with_reducible apply keeps_foldl

theorem execGlitchTrip_keeps {w : Part → Bool} {a s : State}
    (hw : [Part.regs, .mem, .busReply, .saturated, .reports, .bbQueue, .bbLost, .irqs,
      .frames, .eccBad, .tm, .cip, .vlt, .boot, .hbr].all w = true)
    (h : a.Keeps w s) :
    AnswerKeeps w a (execGlitchTrip s) := by
  unfold execGlitchTrip
  repeat' first
    | with_reducible assumption
    | exact all_of hw rfl
    | with_reducible apply answerKeeps_next
    | intro _
    | with_reducible apply State.abortVault_keeps
    | with_reducible apply State.fault_keeps
    | with_reducible apply State.setBit_keeps
    | with_reducible apply State.stopCipher_keeps
    | with_reducible apply State.tamper_keeps
    | with_reducible apply keeps_ite
    | dsimp only
    | split
    | with_reducible apply keeps_vlt

end Sys2Proof.Machine
end

