-- ==== Sys2Proof/Laws/KeepsFaultOps.lean ====
section
/-!
SUPPORT. What the operations of Machine/FaultOps.lean can change, and what they keep.
-/

namespace Sys2Proof.Machine

open Sys2Proof

theorem State.logReport_keeps {w : Part → Bool} {a s : State}
    (hw : [Part.regs, .saturated, .reports, .bbQueue, .bbLost, .irqs, .flt].all w = true)
    (h : a.Keeps w s) (r : FaultReport) :
    a.Keeps w (State.logReport s r) := by
  unfold State.logReport
  extract_lets k e s1 then_ s2 s3 n
  apply keeps_ite
  · exact State.bump_keeps (all_of hw rfl) (State.setFld_keeps (all_of hw rfl) h _ _ _ _) _
  · have h1 : a.Keeps w s1 := keeps_ite (State.setFld_keeps (all_of hw rfl) h _ _ _ _) h
    have h2 : a.Keeps w s2 :=
      State.wrN_keeps (all_of hw rfl) (State.wrN_keeps (all_of hw rfl) h1 _ _) _ _
    have h3 : a.Keeps w s3 := State.setFld_keeps (all_of hw rfl)
      (State.wrN_keeps (all_of hw rfl) (State.wrN_keeps (all_of hw rfl) h2 _ _) _ _) _ _ _ _
    clear_value s3
    apply State.blackBox_keeps (all_of hw rfl)
    exact keeps_flt (s := { s3 with freeCtr := n + 9 }) (all_of hw rfl) _
      (keeps_free (n + 9) h3 (Nat.le_add_right _ 9))

theorem State.assertN0_keeps {w : Part → Bool} {a s : State} (hw : [Part.regs, .flt].all w = true)
    (h : a.Keeps w s) :
    a.Keeps w (State.assertN0 s) := by
  unfold State.assertN0
  repeat' first
    | with_reducible assumption
    | exact all_of hw rfl
    | intro _
    | with_reducible apply State.setBit_keeps
    | with_reducible apply keeps_ite
    | dsimp only
    | split
    | with_reducible apply keeps_flt

theorem State.allOff_keeps {w : Part → Bool} {a s : State}
    (hw : [Part.regs, .saturated, .reports, .irqs, .power].all w = true) (h : a.Keeps w s)
    (d : Nat) :
    a.Keeps w (State.allOff s d) := by
  unfold State.allOff
  repeat' first
    | with_reducible assumption
    | exact all_of hw rfl
    | intro _
    | with_reducible apply State.dieAct_keeps
    | with_reducible apply keeps_ite
    | with_reducible apply keeps_foldl

theorem State.safeStop_keeps {w : Part → Bool} {a s : State}
    (hw : [Part.regs, .saturated, .reports, .irqs, .flowFrames, .frames, .nextFrame,
      .ports, .fab, .tm, .vlt, .power, .boot, .flt].all w = true)
    (h : a.Keeps w s) :
    a.Keeps w (State.safeStop s) := by
  unfold State.safeStop
  repeat' first
    | with_reducible assumption
    | exact all_of hw rfl
    | intro _
    | with_reducible apply State.bump_keeps
    | with_reducible apply State.assertN0_keeps
    | with_reducible apply State.stopPort_keeps
    | with_reducible apply State.closeFabric_keeps
    | with_reducible apply State.holdDie_keeps
    | with_reducible apply State.allOff_keeps
    | with_reducible apply State.abortVault_keeps
    | with_reducible apply keeps_ite
    | with_reducible apply keeps_foldl
    | dsimp only
    | split
    | with_reducible apply keeps_flt

theorem State.isolate_keeps {w : Part → Bool} {a s : State}
    (hw : [Part.regs, .mem, .busReply, .quiescing, .saturated, .reports, .irqs,
      .flowFrames, .frames, .nextFrame, .fab, .rtk, .eccBad, .tm, .cip, .power,
      .hbr, .flt].all w = true)
    (h : a.Keeps w s) (sub : Nat) (at_ : Nat) :
    a.Keeps w (State.isolate s sub at_) := by
  unfold State.isolate
  repeat' first
    | with_reducible assumption
    | exact all_of hw rfl
    | intro _
    | with_reducible apply State.quiesceBlk_keeps
    | with_reducible apply keeps_ite
    | with_reducible apply keeps_foldl
    | with_reducible apply keeps_foldl_fst
    | with_reducible apply keeps_foldl_snd
    | dsimp only
    | split
    | with_reducible apply keeps_flt

theorem State.resetReaction_keeps {w : Part → Bool} {a s : State}
    (hw : [Part.regs, .islands, .coreHeld, .saturated, .reports, .irqs, .cpx, .flt].all w = true)
    (h : a.Keeps w s) (r : FaultReport) :
    a.Keeps w (State.resetReaction s r) := by
  unfold State.resetReaction
  repeat' first
    | with_reducible assumption
    | exact all_of hw rfl
    | intro _
    | with_reducible apply State.failOver_keeps
    | with_reducible apply State.setRun_keeps
    | with_reducible apply State.setUnit_keeps
    | with_reducible apply State.holdCore_keeps
    | with_reducible apply keeps_ite
    | dsimp only
    | split
    | with_reducible apply keeps_flt

theorem State.react_keeps {w : Part → Bool} {a s : State}
    (hw : [Part.regs, .mem, .busReply, .islands, .coreHeld, .quiescing, .saturated,
      .reports, .irqs, .flowFrames, .frames, .nextFrame, .ports, .fab, .rtk,
      .eccBad, .tm, .cip, .vlt, .power, .boot, .hbr, .cpx, .flt].all w = true)
    (h : a.Keeps w s) (r : FaultReport) :
    a.Keeps w (State.react s r) := by
  unfold State.react
  repeat' first
    | with_reducible assumption
    | exact all_of hw rfl
    | intro _
    | with_reducible apply State.assertN0_keeps
    | with_reducible apply State.setBit_keeps
    | with_reducible apply State.irq_keeps
    | with_reducible apply State.isolate_keeps
    | with_reducible apply State.safeStop_keeps
    | with_reducible apply State.resetReaction_keeps
    | with_reducible apply keeps_ite

theorem State.collect_keeps {w : Part → Bool} {a s : State}
    (hw : [Part.regs, .mem, .busReply, .islands, .coreHeld, .quiescing, .saturated,
      .reports, .bbQueue, .bbLost, .irqs, .flowFrames, .frames, .nextFrame,
      .ports, .fab, .rtk, .eccBad, .tm, .cip, .vlt, .power, .boot, .hbr, .cpx,
      .flt].all w = true)
    (h : a.Keeps w s) (r : FaultReport) :
    a.Keeps w (State.collect s r) := by
  unfold State.collect
  repeat' first
    | with_reducible assumption
    | exact all_of hw rfl
    | intro _
    | with_reducible apply State.react_keeps
    | with_reducible apply State.logReport_keeps
    | with_reducible apply State.monEvent_keeps
    | with_reducible apply State.bump_keeps

theorem State.forgetFrame_keeps {w : Part → Bool} {a s : State}
    (hw : [Part.cls, .rtk].all w = true) (h : a.Keeps w s) (f : Nat) :
    a.Keeps w (State.forgetFrame s f) := by
  unfold State.forgetFrame
  repeat' first
    | with_reducible assumption
    | exact all_of hw rfl
    | intro _
    | with_reducible apply keeps_ite
    | dsimp only
    | split
    | with_reducible apply keeps_cls_rtk

theorem State.discardFrame_keeps {w : Part → Bool} {a s : State}
    (hw : [Part.regs, .saturated, .irqs, .flowFrames, .frames, .fab, .cls, .rtk, .tm].all w = true)
    (h : a.Keeps w s) (f : Nat) :
    a.Keeps w (State.discardFrame s f) := by
  unfold State.discardFrame
  repeat' first
    | with_reducible assumption
    | exact all_of hw rfl
    | intro _
    | with_reducible apply State.reap_keeps
    | with_reducible apply State.dropQueued_keeps
    | with_reducible apply State.forgetFrame_keeps

theorem State.cutPort_keeps {w : Part → Bool} {a s : State}
    (hw : [Part.regs, .saturated, .irqs, .flowFrames, .frames, .fab, .tm].all w = true)
    (h : a.Keeps w s) (p : Nat) :
    a.Keeps w (State.cutPort s p) := by
  unfold State.cutPort
  repeat' first
    | with_reducible assumption
    | exact all_of hw rfl
    | intro _
    | with_reducible apply State.setTmPort_keeps
    | with_reducible apply State.reap_keeps
    | with_reducible apply State.freeDone_keeps
    | with_reducible apply State.endCopy_keeps
    | with_reducible apply keeps_ite
    | with_reducible apply keeps_foldl

theorem State.discardWork_keeps {w : Part → Bool} {a s : State}
    (hw : [Part.regs, .saturated, .irqs, .flowFrames, .frames, .fab, .cls, .rtk, .tm].all w = true)
    (h : a.Keeps w s) (b : Nat) :
    a.Keeps w (State.discardWork s b) := by
  unfold State.discardWork
  repeat' first
    | with_reducible assumption
    | exact all_of hw rfl
    | intro _
    | with_reducible apply State.discardFrame_keeps
    | with_reducible apply State.cutPort_keeps
    | with_reducible apply State.endJob_keeps
    | with_reducible apply keeps_ite
    | with_reducible apply keeps_dite
    | with_reducible apply keeps_foldl
    | dsimp only
    | split

theorem State.watchdogExpire_keeps {w : Part → Bool} {a s : State}
    (hw : [Part.regs, .reports].all w = true) (h : a.Keeps w s) (u : Nat) :
    a.Keeps w (State.watchdogExpire s u) := by
  unfold State.watchdogExpire
  repeat' first
    | with_reducible assumption
    | exact all_of hw rfl
    | intro _
    | with_reducible apply State.unitFlags_keeps
    | with_reducible apply State.fault_keeps
    | with_reducible apply State.setBit_keeps
    | with_reducible apply keeps_ite

theorem State.setKick_keeps {w : Part → Bool} {a s : State} (hw : [Part.flt].all w = true)
    (h : a.Keeps w s) (u : Nat) (v : Bool) :
    a.Keeps w (State.setKick s u v) := by
  unfold State.setKick
  repeat' first
    | with_reducible assumption
    | exact all_of hw rfl
    | intro _
    | with_reducible apply keeps_ite
    | dsimp only
    | split
    | with_reducible apply keeps_flt

theorem State.watchdogServed_keeps {w : Part → Bool} {a s : State} (hw : [Part.flt].all w = true)
    (h : a.Keeps w s) (u : Nat) :
    a.Keeps w (State.watchdogServed s u) := by
  unfold State.watchdogServed
  repeat' first
    | with_reducible assumption
    | exact all_of hw rfl
    | intro _
    | with_reducible apply State.setKick_keeps
    | with_reducible apply keeps_ite
    | dsimp only
    | split
    | with_reducible apply keeps_flt

theorem State.watchdogStart_keeps {w : Part → Bool} {a s : State}
    (hw : [Part.regs, .reports, .flt].all w = true) (h : a.Keeps w s) (u : Nat) :
    a.Keeps w (State.watchdogStart s u) := by
  unfold State.watchdogStart
  repeat' first
    | with_reducible assumption
    | exact all_of hw rfl
    | intro _
    | with_reducible apply State.unitFlags_keeps
    | with_reducible apply State.watchdogServed_keeps
    | with_reducible apply State.setBit_keeps
    | with_reducible apply keeps_ite

theorem State.watchdogKick_keeps {w : Part → Bool} {a s : State}
    (hw : [Part.regs, .saturated, .reports, .irqs, .flt].all w = true) (h : a.Keeps w s) (u : Nat)
    (key : Word) :
    a.Keeps w (State.watchdogKick s u key) := by
  unfold State.watchdogKick
  repeat' first
    | with_reducible assumption
    | exact all_of hw rfl
    | intro _
    | with_reducible apply State.setKick_keeps
    | with_reducible apply State.watchdogExpire_keeps
    | with_reducible apply State.monEvent_keeps
    | with_reducible apply State.watchdogServed_keeps
    | with_reducible apply keeps_ite
    | dsimp only
    | split

theorem State.clearOvf_keeps {w : Part → Bool} {a s : State} (hw : [Part.regs].all w = true)
    (h : a.Keeps w s) :
    a.Keeps w (State.clearOvf s) := by
  unfold State.clearOvf
  repeat' first
    | with_reducible assumption
    | exact all_of hw rfl
    | intro _
    | with_reducible apply State.setBit_keeps
    | with_reducible apply keeps_ite
    | with_reducible apply keeps_foldl

theorem State.monSnapshot_keeps {w : Part → Bool} {a s : State} (hw : [Part.regs].all w = true)
    (h : a.Keeps w s) :
    a.Keeps w (State.monSnapshot s) :=
  keeps_regs hw _ h (fun x => Store.wf_setAll _ (Store.wf_clear _ _ x))

theorem State.writeMode_keeps {w : Part → Bool} {a s : State} (hw : [Part.regs].all w = true)
    (h : a.Keeps w s) (m : Master) (mode : Nat) :
    a.Keeps w (State.writeMode s m mode) := by
  unfold State.writeMode
  repeat' first
    | with_reducible assumption
    | exact all_of hw rfl
    | intro _
    | with_reducible apply State.setFld_keeps
    | with_reducible apply State.deny_keeps
    | with_reducible apply keeps_ite

end Sys2Proof.Machine
end

