-- ==== Sys2Proof/Laws/KeepsTime.lean ====
section
/-!
SUPPORT. What the operations of Machine/Time.lean can change, and what they keep.
-/

namespace Sys2Proof.Machine

open Sys2Proof

theorem State.submitSample_keeps {w : Part → Bool} {a s : State}
    (hw : [Part.tim, .regs, .saturated, .irqs, .tm].all w = true) (h : a.Keeps w s) (d : Nat) :
    a.Keeps w (State.submitSample s d) := by
  unfold State.submitSample
  repeat' first
    | with_reducible assumption
    | exact all_of hw rfl
    | intro _
    | with_reducible apply State.monEvent_keeps
    | with_reducible apply State.bump_keeps
    | with_reducible apply State.sample_keeps
    | with_reducible apply keeps_ite

theorem execTimeSampleSubmit_keeps {w : Part → Bool} {a s : State}
    (hw : [Part.tim, .regs, .busReply, .saturated, .reports, .irqs, .tm].all w = true)
    (h : a.Keeps w s) (m : Master) (d : Fin 4) :
    AnswerKeeps w a (execTimeSampleSubmit m d s) := by
  unfold execTimeSampleSubmit
  repeat' first
    | with_reducible assumption
    | exact all_of hw rfl
    | with_reducible apply answerKeeps_next
    | intro _
    | with_reducible apply guardReg_keeps
    | with_reducible apply State.submitSample_keeps

theorem execSyncTimeout_keeps {w : Part → Bool} {a s : State}
    (hw : [Part.tim, .regs, .saturated, .tm].all w = true) (h : a.Keeps w s) (d : Fin 4) :
    AnswerKeeps w a (execSyncTimeout d s) := by
  unfold execSyncTimeout
  repeat' first
    | with_reducible assumption
    | exact all_of hw rfl
    | with_reducible apply answerKeeps_next
    | intro _
    | with_reducible apply State.bump_keeps
    | with_reducible apply State.setDom_keeps
    | with_reducible apply State.setDomState_keeps
    | with_reducible apply keeps_ite

theorem execHoldoverExpiry_keeps {w : Part → Bool} {a s : State}
    (hw : [Part.regs, .saturated, .reports, .tm].all w = true) (h : a.Keeps w s) (d : Fin 4) :
    AnswerKeeps w a (execHoldoverExpiry d s) := by
  unfold execHoldoverExpiry
  repeat' first
    | with_reducible assumption
    | exact all_of hw rfl
    | with_reducible apply answerKeeps_next
    | intro _
    | with_reducible apply State.fault_keeps
    | with_reducible apply State.bump_keeps
    | with_reducible apply State.setLockRun_keeps
    | with_reducible apply State.setDomState_keeps
    | with_reducible apply keeps_ite

theorem State.setTime_keeps {w : Part → Bool} {a s : State}
    (hw : [Part.tim, .regs, .saturated, .irqs, .tm].all w = true) (h : a.Keeps w s) (d : Nat) :
    a.Keeps w (State.setTime s d) := by
  unfold State.setTime
  repeat' first
    | with_reducible assumption
    | exact all_of hw rfl
    | intro _
    | with_reducible apply State.monEvent_keeps
    | with_reducible apply State.bump_keeps
    | with_reducible apply State.setDom_keeps
    | with_reducible apply State.stepped_keeps
    | with_reducible apply State.putClock_keeps
    | with_reducible apply keeps_ite

theorem execTimeSet_keeps {w : Part → Bool} {a s : State}
    (hw : [Part.tim, .regs, .busReply, .saturated, .reports, .irqs, .tm].all w = true)
    (h : a.Keeps w s) (m : Master) (d : Fin 4) :
    AnswerKeeps w a (execTimeSet m d s) := by
  unfold execTimeSet
  repeat' first
    | with_reducible assumption
    | exact all_of hw rfl
    | with_reducible apply answerKeeps_next
    | intro _
    | with_reducible apply guardReg_keeps
    | with_reducible apply State.setTime_keeps

theorem State.checkGm_keeps {w : Part → Bool} {a s : State}
    (hw : [Part.tim, .regs, .tm].all w = true) (h : a.Keeps w s) (d : Nat) :
    a.Keeps w (State.checkGm s d) := by
  unfold State.checkGm
  repeat' first
    | with_reducible assumption
    | exact all_of hw rfl
    | intro _
    | with_reducible apply State.setDomState_keeps
    | with_reducible apply State.setLockRun_keeps
    | with_reducible apply State.setDom_keeps
    | with_reducible apply keeps_ite

theorem State.enableDomain_keeps {w : Part → Bool} {a s : State}
    (hw : [Part.tim, .regs, .tm].all w = true) (h : a.Keeps w s) (d : Nat) :
    a.Keeps w (State.enableDomain s d) := by
  unfold State.enableDomain
  repeat' first
    | with_reducible assumption
    | exact all_of hw rfl
    | intro _
    | with_reducible apply State.checkGm_keeps
    | with_reducible apply State.putClock_keeps
    | with_reducible apply State.setBit_keeps
    | with_reducible apply keeps_ite

theorem execDomainEnable_keeps {w : Part → Bool} {a s : State}
    (hw : [Part.tim, .regs, .busReply, .saturated, .reports, .irqs, .tm].all w = true)
    (h : a.Keeps w s) (m : Master) (d : Fin 4) :
    AnswerKeeps w a (execDomainEnable m d s) := by
  unfold execDomainEnable
  repeat' first
    | with_reducible assumption
    | exact all_of hw rfl
    | with_reducible apply answerKeeps_next
    | intro _
    | with_reducible apply guardReg_keeps
    | with_reducible apply State.enableDomain_keeps

theorem State.disableDomain_keeps {w : Part → Bool} {a s : State}
    (hw : [Part.tim, .regs, .saturated, .irqs, .tm].all w = true) (h : a.Keeps w s) (d : Nat) :
    a.Keeps w (State.disableDomain s d) := by
  unfold State.disableDomain
  repeat' first
    | with_reducible assumption
    | exact all_of hw rfl
    | intro _
    | with_reducible apply State.putClock_keeps
    | with_reducible apply State.setBit_keeps
    | with_reducible apply State.setLockRun_keeps
    | with_reducible apply State.setDom_keeps
    | with_reducible apply State.setDomState_keeps
    | with_reducible apply State.stepped_keeps
    | with_reducible apply keeps_ite

theorem execDomainDisable_keeps {w : Part → Bool} {a s : State}
    (hw : [Part.tim, .regs, .busReply, .saturated, .reports, .irqs, .tm].all w = true)
    (h : a.Keeps w s) (m : Master) (d : Fin 4) :
    AnswerKeeps w a (execDomainDisable m d s) := by
  unfold execDomainDisable
  repeat' first
    | with_reducible assumption
    | exact all_of hw rfl
    | with_reducible apply answerKeeps_next
    | intro _
    | with_reducible apply guardReg_keeps
    | with_reducible apply State.disableDomain_keeps

theorem State.snapTimes_keeps {w : Part → Bool} {a s : State} (hw : [Part.regs].all w = true)
    (h : a.Keeps w s) :
    a.Keeps w (State.snapTimes s) := by
  unfold State.snapTimes
  repeat' first
    | with_reducible assumption
    | exact all_of hw rfl
    | intro _
    | with_reducible apply State.wrN_keeps
    | with_reducible apply State.wrTime_keeps
    | with_reducible apply keeps_ite
    | with_reducible apply keeps_foldl

theorem execTimeSnapshot_keeps {w : Part → Bool} {a s : State}
    (hw : [Part.regs, .busReply, .saturated, .reports, .irqs].all w = true) (h : a.Keeps w s)
    (m : Master) :
    AnswerKeeps w a (execTimeSnapshot m s) := by
  unfold execTimeSnapshot
  repeat' first
    | with_reducible assumption
    | exact all_of hw rfl
    | with_reducible apply answerKeeps_next
    | intro _
    | with_reducible apply guardReg_keeps
    | with_reducible apply State.snapTimes_keeps

theorem State.convert_keeps {w : Part → Bool} {a s : State} (hw : [Part.regs].all w = true)
    (h : a.Keeps w s) (d : Nat) :
    a.Keeps w (State.convert s d) := by
  unfold State.convert
  repeat' first
    | with_reducible assumption
    | exact all_of hw rfl
    | intro _
    | with_reducible apply State.wrN_keeps
    | with_reducible apply State.wrTime_keeps
    | with_reducible apply State.setFld_keeps

theorem execTimeConvert_keeps {w : Part → Bool} {a s : State}
    (hw : [Part.regs, .busReply, .saturated, .reports, .irqs].all w = true) (h : a.Keeps w s)
    (m : Master) (d : Fin 4) :
    AnswerKeeps w a (execTimeConvert m d s) := by
  unfold execTimeConvert
  repeat' first
    | with_reducible assumption
    | exact all_of hw rfl
    | with_reducible apply answerKeeps_next
    | intro _
    | with_reducible apply guardReg_keeps
    | with_reducible apply State.convert_keeps

theorem execLtAlignFlit_keeps {w : Part → Bool} {a s : State}
    (hw : [Part.tim, .reports].all w = true) (h : a.Keeps w s) (moved : Int) (residual : Int) :
    AnswerKeeps w a (execLtAlignFlit moved residual s) := by
  unfold execLtAlignFlit
  repeat' first
    | with_reducible assumption
    | exact all_of hw rfl
    | with_reducible apply answerKeeps_next
    | intro _
    | with_reducible apply State.fault_keeps
    | with_reducible apply keeps_ite
    | dsimp only
    | split
    | with_reducible apply keeps_tim

theorem State.captureEdge_keeps {w : Part → Bool} {a s : State}
    (hw : [Part.regs, .saturated].all w = true) (h : a.Keeps w s) (t : Nat) :
    a.Keeps w (State.captureEdge s t) := by
  unfold State.captureEdge
  repeat' first
    | with_reducible assumption
    | exact all_of hw rfl
    | intro _
    | with_reducible apply State.bump_keeps
    | with_reducible apply State.setBit_keeps
    | with_reducible apply State.wrTime_keeps

theorem State.ppsEdge_keeps {w : Part → Bool} {a s : State}
    (hw : [Part.tim, .regs, .saturated, .irqs, .tm].all w = true) (h : a.Keeps w s) (error : Int)
    :
    a.Keeps w (State.ppsEdge s error) := by
  unfold State.ppsEdge
  repeat' first
    | with_reducible assumption
    | exact all_of hw rfl
    | intro _
    | with_reducible apply State.captureEdge_keeps
    | with_reducible apply State.wr_keeps
    | with_reducible apply State.sample_keeps
    | with_reducible apply keeps_ite

theorem State.cycleEdge_keeps {w : Part → Bool} {a s : State}
    (hw : [Part.tim, .regs, .saturated].all w = true) (h : a.Keeps w s) (error : Int) :
    a.Keeps w (State.cycleEdge s error) := by
  unfold State.cycleEdge
  repeat' first
    | with_reducible assumption
    | exact all_of hw rfl
    | intro _
    | with_reducible apply State.captureEdge_keeps
    | with_reducible apply State.putClock_keeps
    | with_reducible apply keeps_ite
    | dsimp only
    | split
    | with_reducible apply keeps_tim

theorem execTimeInEdge_keeps {w : Part → Bool} {a s : State}
    (hw : [Part.tim, .regs, .saturated, .irqs, .tm].all w = true) (h : a.Keeps w s) (error : Int)
    :
    AnswerKeeps w a (execTimeInEdge error s) := by
  unfold execTimeInEdge
  repeat' first
    | with_reducible assumption
    | exact all_of hw rfl
    | with_reducible apply answerKeeps_next
    | intro _
    | with_reducible apply State.ppsEdge_keeps
    | with_reducible apply State.cycleEdge_keeps
    | with_reducible apply keeps_ite
    | with_reducible apply keeps_dite
    | dsimp only
    | split
    | with_reducible apply keeps_tim

theorem execTimeInLoss_keeps {w : Part → Bool} {a s : State}
    (hw : [Part.tim, .regs, .reports].all w = true) (h : a.Keeps w s) :
    AnswerKeeps w a (execTimeInLoss s) := by
  unfold execTimeInLoss
  repeat' first
    | with_reducible assumption
    | exact all_of hw rfl
    | with_reducible apply answerKeeps_next
    | intro _
    | with_reducible apply State.fault_keeps
    | with_reducible apply State.setBit_keeps
    | with_reducible apply keeps_ite
    | dsimp only
    | split
    | with_reducible apply keeps_tim

theorem execTimeOutPulse_keeps {w : Part → Bool} {a s : State} (hw : [Part.tim].all w = true)
    (h : a.Keeps w s) :
    AnswerKeeps w a (execTimeOutPulse s) := by
  unfold execTimeOutPulse
  repeat' first
    | with_reducible assumption
    | exact all_of hw rfl
    | with_reducible apply answerKeeps_next
    | intro _
    | with_reducible apply keeps_ite
    | dsimp only
    | split
    | with_reducible apply keeps_tim

theorem execOscDeviation_keeps {w : Part → Bool} {a s : State} (hw : [Part.reports].all w = true)
    (h : a.Keeps w s) :
    AnswerKeeps w a (execOscDeviation s) := by
  unfold execOscDeviation
  repeat' first
    | with_reducible assumption
    | exact all_of hw rfl
    | with_reducible apply answerKeeps_next
    | intro _
    | with_reducible apply State.fault_keeps

end Sys2Proof.Machine
end

