-- ==== Sys2Proof/Laws/KeepsStartOps.lean ====
section
/-!
SUPPORT. What the operations of Machine/StartOps.lean can change, and what they keep.
-/

namespace Sys2Proof.Machine

open Sys2Proof

theorem State.keptRegs_wf (s : State) (edge resume : Bool) :
    Store.wf resetWord (s.keptRegs edge resume) = true := by
  have hb : ∀ p k : Store Word,
      Store.wf resetWord (Store.setAll resetWord (Store.setAll resetWord [] p) k) = true :=
    fun p k => Store.wf_setAll k (Store.wf_setAll p Store.wf_nil)
  unfold State.keptRegs
  exact Store.wf_set _ _ (Store.wf_set _ _ (hb _ _))

theorem State.coreReset_keeps {w : Part → Bool} {a s : State}
    (hw : [Part.tim, .regs, .live, .mem, .busReply, .edgeQueue, .islands, .coreHeld,
      .quiescing, .commits, .saturated, .monLevels, .traverse, .reports,
      .bbQueue, .bbLost, .irqs, .flowFrames, .frames, .nextFrame, .ports, .fab,
      .cls, .rtk, .eccBad, .debugScope, .tm, .cip, .vlt, .power, .wak, .boot,
      .gwy, .hbr, .cpx, .flt].all w = true) (h : a.Keeps w s)
    (edge resume : Bool) : a.Keeps w (State.coreReset s edge resume) := by
  refine ⟨fun p hp => ?_, h.pending, h.variant, h.nowNs, h.freeCtr,
    fun _ => State.keptRegs_wf s edge resume, fun x => ?_,
    fun x => Store.wf_filter _ (h.mem x), fun _ => Nat.zero_le _⟩
  · simp only [List.all_cons, List.all_nil, Bool.and_true, Bool.and_eq_true] at hw
    cases p <;> first | exact h.same _ hp | simp [hw] at hp
  · simp only [State.coreReset]
    split
    · exact Store.wf_setAll _ Store.wf_nil
    · exact Store.wf_nil

theorem State.loseCipher_keeps {w : Part → Bool} {a s : State}
    (hw : [Part.regs, .cip].all w = true) (h : a.Keeps w s) :
    a.Keeps w (State.loseCipher s) :=
  keeps_cip (all_of hw rfl) _ (keeps_regs (all_of hw rfl) _ h
    (fun x => Store.wf_setAll _ (Store.wf_clear _ _ x)))

theorem State.appOff_keeps {w : Part → Bool} {a s : State} (hw : [Part.regs].all w = true)
    (h : a.Keeps w s) :
    a.Keeps w (State.appOff s) := by
  unfold State.appOff
  repeat' first
    | with_reducible assumption
    | exact all_of hw rfl
    | intro _
    | with_reducible apply State.setUnit_keeps
    | with_reducible apply State.setRun_keeps
    | with_reducible apply keeps_ite
    | with_reducible apply keeps_foldl

theorem State.stopIsland_keeps {w : Part → Bool} {a s : State}
    (hw : [Part.regs, .islands, .saturated, .reports, .irqs, .flowFrames, .frames,
      .fab, .tm, .cip].all w = true)
    (h : a.Keeps w s) (i : Island) :
    a.Keeps w (State.stopIsland s i) := by
  unfold State.stopIsland
  repeat' first
    | with_reducible assumption
    | exact all_of hw rfl
    | intro _
    | with_reducible apply State.setIsland_keeps
    | with_reducible apply State.unitFlags_keeps
    | with_reducible apply State.appOff_keeps
    | with_reducible apply State.leaveApp_keeps
    | with_reducible apply State.loseCipher_keeps
    | with_reducible apply keeps_ite
    | dsimp only
    | split
    | with_reducible apply keeps_fab

theorem State.requestIsland_keeps {w : Part → Bool} {a s : State}
    (hw : [Part.islands].all w = true) (h : a.Keeps w s) (i : Island) :
    a.Keeps w (State.requestIsland s i) := by
  unfold State.requestIsland
  repeat' first
    | with_reducible assumption
    | exact all_of hw rfl
    | intro _
    | with_reducible apply State.setIsland_keeps
    | with_reducible apply keeps_ite

theorem State.placeIsland_keeps {w : Part → Bool} {a s : State}
    (hw : [Part.regs, .islands, .saturated, .reports, .irqs, .flowFrames, .frames,
      .fab, .tm, .cip].all w = true)
    (h : a.Keeps w s) (state : Nat) (i : Island) :
    a.Keeps w (State.placeIsland s state i) := by
  unfold State.placeIsland
  repeat' first
    | with_reducible assumption
    | exact all_of hw rfl
    | intro _
    | with_reducible apply State.requestIsland_keeps
    | with_reducible apply State.stopIsland_keeps
    | with_reducible apply keeps_ite

theorem State.placePorts_keeps {w : Part → Bool} {a s : State}
    (hw : [Part.regs, .saturated, .irqs, .flowFrames, .frames, .nextFrame, .ports,
      .fab, .tm].all w = true)
    (h : a.Keeps w s) (state : Nat) :
    a.Keeps w (State.placePorts s state) := by
  unfold State.placePorts
  repeat' first
    | with_reducible assumption
    | exact all_of hw rfl
    | intro _
    | with_reducible apply State.startPort_keeps
    | with_reducible apply State.stopPort_keeps
    | with_reducible apply keeps_ite
    | with_reducible apply keeps_foldl

theorem State.followPewter_keeps {w : Part → Bool} {a s : State}
    (hw : [Part.regs, .islands, .saturated, .reports, .irqs, .flowFrames, .frames,
      .nextFrame, .ports, .fab, .tm, .cip].all w = true)
    (h : a.Keeps w s) :
    a.Keeps w (State.followPewter s) := by
  unfold State.followPewter
  repeat' first
    | with_reducible assumption
    | exact all_of hw rfl
    | intro _
    | with_reducible apply State.placePorts_keeps
    | with_reducible apply State.placeIsland_keeps
    | with_reducible apply keeps_ite
    | with_reducible apply keeps_foldl

theorem State.restartIslands_keeps {w : Part → Bool} {a s : State}
    (hw : [Part.islands].all w = true) (h : a.Keeps w s) (state : Nat) (app : Bool) :
    a.Keeps w (State.restartIslands s state app) := by
  unfold State.restartIslands
  repeat' first
    | with_reducible assumption
    | exact all_of hw rfl
    | intro _
    | with_reducible apply State.setIsland_keeps
    | with_reducible apply keeps_ite
    | with_reducible apply keeps_foldl

theorem State.startMain_keeps {w : Part → Bool} {a s : State}
    (hw : [Part.regs, .reports, .cpx, .flt].all w = true) (h : a.Keeps w s) (split : Bool) :
    a.Keeps w (State.startMain s split) := by
  unfold State.startMain
  repeat' first
    | with_reducible assumption
    | exact all_of hw rfl
    | intro _
    | with_reducible apply State.wr_keeps
    | with_reducible apply State.watchdogStart_keeps
    | with_reducible apply State.wrN_keeps
    | with_reducible apply State.unitFlags_keeps
    | with_reducible apply State.releaseUnit_keeps

theorem State.runImage_keeps {w : Part → Bool} {a s : State}
    (hw : [Part.regs, .mem, .saturated, .reports, .bbQueue, .bbLost, .irqs, .eccBad,
      .vlt, .cpx, .flt].all w = true)
    (h : a.Keeps w s) (slot : Nat) (marker : Nat) (m : List Byte) :
    a.Keeps w (State.runImage s slot marker m) := by
  unfold State.runImage
  repeat' first
    | with_reducible assumption
    | exact all_of hw rfl
    | intro _
    | with_reducible apply State.setBit_keeps
    | with_reducible apply State.setFld_keeps
    | with_reducible apply State.extendMr_keeps
    | with_reducible apply State.wrMem_keeps
    | with_reducible apply State.startMain_keeps
    | with_reducible apply State.bootRecord_keeps
    | with_reducible apply keeps_ite
    | dsimp only
    | split
    | with_reducible exact Nat.le_add_right _ _
    | with_reducible refine keeps_free _ ?_ ?_

theorem State.runRecovery_keeps {w : Part → Bool} {a s : State}
    (hw : [Part.regs, .mem, .saturated, .reports, .bbQueue, .bbLost, .irqs, .eccBad,
      .vlt, .boot, .cpx, .flt].all w = true)
    (h : a.Keeps w s) (marker : Nat) :
    a.Keeps w (State.runRecovery s marker) := by
  unfold State.runRecovery
  repeat' first
    | with_reducible assumption
    | exact all_of hw rfl
    | intro _
    | with_reducible apply State.setFld_keeps
    | with_reducible apply State.runImage_keeps
    | with_reducible apply State.fault_keeps
    | with_reducible apply keeps_ite
    | dsimp only
    | split
    | with_reducible apply keeps_boot

theorem State.runActive_keeps {w : Part → Bool} {a s : State}
    (hw : [Part.regs, .mem, .saturated, .reports, .bbQueue, .bbLost, .irqs, .eccBad,
      .vlt, .boot, .cpx, .flt].all w = true)
    (h : a.Keeps w s) :
    a.Keeps w (State.runActive s) := by
  unfold State.runActive
  repeat' first
    | with_reducible assumption
    | exact all_of hw rfl
    | intro _
    | with_reducible apply State.runImage_keeps
    | with_reducible apply State.fault_keeps
    | with_reducible apply State.runRecovery_keeps
    | with_reducible apply keeps_ite
    | dsimp only
    | split

theorem State.fallback_keeps {w : Part → Bool} {a s : State}
    (hw : [Part.regs, .mem, .saturated, .reports, .bbQueue, .bbLost, .irqs, .boot].all w = true)
    (h : a.Keeps w s) :
    a.Keeps w (State.fallback s) := by
  unfold State.fallback
  repeat' first
    | with_reducible assumption
    | exact all_of hw rfl
    | intro _
    | with_reducible apply State.abortSession_keeps
    | with_reducible apply State.setBit_keeps
    | with_reducible apply State.bootRecord_keeps
    | with_reducible apply State.bump_keeps
    | with_reducible apply State.fault_keeps

theorem State.bootSlots_keeps {w : Part → Bool} {a s : State}
    (hw : [Part.regs, .mem, .saturated, .reports, .bbQueue, .bbLost, .irqs, .eccBad,
      .vlt, .boot, .cpx, .flt].all w = true)
    (h : a.Keeps w s) :
    a.Keeps w (State.bootSlots s) := by
  unfold State.bootSlots
  repeat' first
    | with_reducible assumption
    | exact all_of hw rfl
    | intro _
    | with_reducible apply State.setFld_keeps
    | with_reducible apply State.runImage_keeps
    | with_reducible apply State.runActive_keeps
    | with_reducible apply State.fallback_keeps
    | with_reducible apply keeps_ite
    | dsimp only
    | split

theorem State.startTamper_keeps {w : Part → Bool} {a s : State}
    (hw : [Part.regs, .mem, .busReply, .saturated, .reports, .bbQueue, .bbLost, .irqs,
      .frames, .eccBad, .tm, .cip, .vlt, .boot, .hbr].all w = true)
    (h : a.Keeps w s) :
    a.Keeps w (State.startTamper s) := by
  unfold State.startTamper
  repeat' first
    | with_reducible assumption
    | exact all_of hw rfl
    | intro _
    | with_reducible apply State.setBit_keeps
    | with_reducible apply State.tamper_keeps
    | with_reducible apply keeps_ite
    | dsimp only
    | split
    | with_reducible apply keeps_vlt

theorem State.startCommon_keeps {w : Part → Bool} {a s : State}
    (hw : [Part.regs, .mem, .busReply, .saturated, .reports, .bbQueue, .bbLost, .irqs,
      .frames, .eccBad, .tm, .cip, .vlt, .wak, .boot, .hbr].all w = true)
    (h : a.Keeps w s) :
    a.Keeps w (State.startCommon s) := by
  unfold State.startCommon
  repeat' first
    | with_reducible assumption
    | exact all_of hw rfl
    | intro _
    | with_reducible apply State.setFld_keeps
    | with_reducible apply State.wrN_keeps
    | with_reducible apply State.startTamper_keeps
    | with_reducible apply State.abortSession_keeps
    | with_reducible apply State.fault_keeps
    | with_reducible apply State.blackBox_keeps
    | with_reducible apply State.setGstat_keeps
    | with_reducible apply keeps_ite
    | with_reducible apply keeps_foldl
    | with_reducible apply keeps_foldl_fst
    | with_reducible apply keeps_foldl_snd
    | dsimp only
    | split
    | with_reducible exact Nat.le_add_right _ _
    | with_reducible refine keeps_free _ ?_ ?_
    | with_reducible apply keeps_wak

theorem State.coldStart_keeps {w : Part → Bool} {a s : State}
    (hw : [Part.regs, .mem, .busReply, .islands, .saturated, .reports, .bbQueue,
      .bbLost, .irqs, .frames, .eccBad, .tm, .cip, .vlt, .wak, .boot, .hbr, .cpx,
      .flt].all w = true)
    (h : a.Keeps w s) :
    a.Keeps w (State.coldStart s) := by
  unfold State.coldStart
  repeat' first
    | with_reducible assumption
    | exact all_of hw rfl
    | intro _
    | with_reducible apply State.setBit_keeps
    | with_reducible apply State.startCommon_keeps
    | with_reducible apply State.restartIslands_keeps
    | with_reducible apply State.beginTrans_keeps
    | with_reducible apply State.bootSlots_keeps
    | with_reducible apply State.fault_keeps
    | with_reducible apply State.runRecovery_keeps
    | with_reducible apply keeps_ite

theorem State.replayExtends_keeps {w : Part → Bool} {a s : State}
    (hw : [Part.regs, .saturated, .vlt].all w = true) (h : a.Keeps w s) :
    a.Keeps w (State.replayExtends s) := by
  unfold State.replayExtends
  repeat' first
    | with_reducible assumption
    | exact all_of hw rfl
    | intro _
    | with_reducible apply State.extendMr_keeps
    | with_reducible apply keeps_ite
    | with_reducible apply keeps_foldl
    | with_reducible apply keeps_foldl_fst
    | with_reducible apply keeps_foldl_snd
    | dsimp only
    | split
    | with_reducible apply keeps_vlt

theorem State.restartBlocks_keeps {w : Part → Bool} {a s : State}
    (hw : [Part.tim, .regs, .saturated, .reports, .irqs, .frames, .nextFrame, .ports,
      .fab, .cls, .rtk, .tm, .power, .gwy, .hbr].all w = true)
    (h : a.Keeps w s) :
    a.Keeps w (State.restartBlocks s) := by
  unfold State.restartBlocks
  repeat' first
    | with_reducible assumption
    | exact all_of hw rfl
    | intro _
    | with_reducible apply State.enableEffects_keeps
    | with_reducible apply State.enableDomain_keeps
    | with_reducible apply State.setBit_keeps
    | with_reducible apply keeps_ite
    | with_reducible apply keeps_foldl

theorem State.resumeStart_keeps {w : Part → Bool} {a s : State}
    (hw : [Part.tim, .regs, .mem, .busReply, .islands, .saturated, .reports, .bbQueue,
      .bbLost, .irqs, .frames, .nextFrame, .ports, .fab, .cls, .rtk, .eccBad,
      .tm, .cip, .vlt, .power, .wak, .boot, .gwy, .hbr, .cpx].all w = true)
    (h : a.Keeps w s) (slot : Nat) :
    a.Keeps w (State.resumeStart s slot) := by
  unfold State.resumeStart
  repeat' first
    | with_reducible assumption
    | exact all_of hw rfl
    | intro _
    | with_reducible apply State.setBit_keeps
    | with_reducible apply State.startCommon_keeps
    | with_reducible apply State.restartIslands_keeps
    | with_reducible apply State.setFld_keeps
    | with_reducible apply State.bootRecord_keeps
    | with_reducible apply State.replayExtends_keeps
    | with_reducible apply State.unitFlags_keeps
    | with_reducible apply State.releaseUnit_keeps
    | with_reducible apply State.restartBlocks_keeps

theorem State.startCore_keeps {w : Part → Bool} {a s : State}
    (hw : [Part.tim, .regs, .live, .mem, .busReply, .edgeQueue, .islands, .coreHeld,
      .quiescing, .commits, .saturated, .monLevels, .traverse, .reports,
      .bbQueue, .bbLost, .irqs, .flowFrames, .frames, .nextFrame, .ports, .fab,
      .cls, .rtk, .eccBad, .debugScope, .tm, .cip, .vlt, .power, .wak, .boot,
      .gwy, .hbr, .cpx, .flt].all w = true)
    (h : a.Keeps w s) (edge : Bool) :
    a.Keeps w (State.startCore s edge) := by
  unfold State.startCore
  repeat' first
    | with_reducible assumption
    | exact all_of hw rfl
    | intro _
    | with_reducible apply State.resumeStart_keeps
    | with_reducible apply State.coreReset_keeps
    | with_reducible apply State.coldStart_keeps
    | with_reducible apply State.fault_keeps
    | with_reducible apply keeps_ite

end Sys2Proof.Machine
end

