-- ==== Sys2Proof/Laws/KeepsEnable.lean ====
section
/-!
SUPPORT. What the operations of Machine/Enable.lean can change, and what they keep.
-/

namespace Sys2Proof.Machine

open Sys2Proof

theorem execBlkEnable_keeps {w : Part → Bool} {a s : State}
    (hw : [Part.regs, .busReply, .edgeQueue, .quiescing, .saturated, .reports, .irqs,
      .frames, .nextFrame, .ports, .fab, .cls, .rtk, .tm, .power, .gwy, .hbr].all w = true)
    (h : a.Keeps w s) (m : Master) (blk : Fin 128) :
    AnswerKeeps w a (execBlkEnable m blk s) := by
  unfold execBlkEnable
  repeat' first
    | with_reducible assumption
    | exact all_of hw rfl
    | with_reducible apply answerKeeps_next
    | intro _
    | with_reducible apply guardEdge_keeps
    | with_reducible apply State.enableBlk_keeps

theorem execBlkQuiesceStart_keeps {w : Part → Bool} {a s : State}
    (hw : [Part.regs, .mem, .busReply, .edgeQueue, .quiescing, .saturated, .reports,
      .irqs, .flowFrames, .frames, .nextFrame, .fab, .rtk, .eccBad, .tm, .cip,
      .power, .hbr].all w = true)
    (h : a.Keeps w s) (m : Master) (blk : Fin 128) :
    AnswerKeeps w a (execBlkQuiesceStart m blk s) := by
  unfold execBlkQuiesceStart
  repeat' first
    | with_reducible assumption
    | exact all_of hw rfl
    | with_reducible apply answerKeeps_next
    | intro _
    | with_reducible apply guardEdge_keeps
    | with_reducible apply State.quiesceBlk_keeps

theorem execBlkQuiesceDone_keeps {w : Part → Bool} {a s : State}
    (hw : [Part.regs, .islands, .quiescing, .saturated, .reports, .irqs, .flowFrames,
      .frames, .nextFrame, .ports, .fab, .tm, .cip, .gwy].all w = true)
    (h : a.Keeps w s) (blk : Fin 128) :
    AnswerKeeps w a (execBlkQuiesceDone blk s) := by
  unfold execBlkQuiesceDone
  repeat' first
    | with_reducible assumption
    | exact all_of hw rfl
    | with_reducible apply answerKeeps_next
    | intro _
    | with_reducible apply State.followPewter_keeps
    | with_reducible apply State.disableBlk_keeps
    | with_reducible apply keeps_ite

end Sys2Proof.Machine
end

