-- ==== Sys2Proof/Laws/KeepsFaults.lean ====
section
/-!
SUPPORT. What the operations of Machine/Faults.lean can change, and what they keep.
-/

namespace Sys2Proof.Machine

open Sys2Proof

theorem execFaultReport_keeps {w : Part → Bool} {a s : State}
    (hw : [Part.regs, .mem, .busReply, .islands, .coreHeld, .quiescing, .saturated,
      .reports, .bbQueue, .bbLost, .irqs, .flowFrames, .frames, .nextFrame,
      .ports, .fab, .rtk, .eccBad, .tm, .cip, .vlt, .power, .boot, .hbr, .cpx,
      .flt].all w = true)
    (h : a.Keeps w s) :
    AnswerKeeps w a (execFaultReport s) := by
  unfold execFaultReport
  repeat' first
    | with_reducible assumption
    | exact all_of hw rfl
    | with_reducible apply answerKeeps_next
    | intro _
    | with_reducible apply State.collect_keeps
    | with_reducible apply keeps_ite
    | dsimp only
    | split
    | with_reducible apply keeps_reports

theorem execIsolateTimeout_keeps {w : Part → Bool} {a s : State}
    (hw : [Part.regs, .quiescing, .saturated, .irqs, .flowFrames, .frames, .nextFrame,
      .ports, .fab, .cls, .rtk, .tm, .gwy, .flt].all w = true)
    (h : a.Keeps w s) :
    AnswerKeeps w a (execIsolateTimeout s) := by
  unfold execIsolateTimeout
  repeat' first
    | with_reducible assumption
    | exact all_of hw rfl
    | with_reducible apply answerKeeps_next
    | intro _
    | with_reducible apply State.disableBlk_keeps
    | with_reducible apply State.discardWork_keeps
    | with_reducible apply keeps_ite
    | with_reducible apply keeps_foldl
    | with_reducible apply keeps_foldl_fst
    | with_reducible apply keeps_foldl_snd
    | dsimp only
    | split
    | with_reducible apply keeps_flt

theorem execCollectorMismatch_keeps {w : Part → Bool} {a s : State}
    (hw : [Part.regs, .reports, .flt].all w = true) (h : a.Keeps w s) :
    AnswerKeeps w a (execCollectorMismatch s) := by
  unfold execCollectorMismatch
  repeat' first
    | with_reducible assumption
    | exact all_of hw rfl
    | with_reducible apply answerKeeps_next
    | intro _
    | with_reducible apply State.fault_keeps
    | with_reducible apply State.assertN0_keeps
    | with_reducible apply keeps_ite

theorem execDatapathCheck_keeps {w : Part → Bool} {a s : State}
    (hw : [Part.regs, .saturated, .reports, .irqs, .flowFrames, .frames, .fab, .cls,
      .rtk, .tm].all w = true)
    (h : a.Keeps w s) (stage : BitVec 32) (f : Option FrameId) :
    AnswerKeeps w a (execDatapathCheck stage f s) := by
  unfold execDatapathCheck
  repeat' first
    | with_reducible assumption
    | exact all_of hw rfl
    | with_reducible apply answerKeeps_next
    | intro _
    | with_reducible apply State.fault_keeps
    | with_reducible apply State.badFrame_keeps
    | with_reducible apply State.discardFrame_keeps
    | with_reducible apply State.bump_keeps
    | with_reducible apply keeps_ite
    | dsimp only
    | split

theorem execHardwareMonitorTrip_keeps {w : Part → Bool} {a s : State}
    (hw : [Part.reports].all w = true) (h : a.Keeps w s) (t : MonitorTrip) :
    AnswerKeeps w a (execHardwareMonitorTrip t s) := by
  unfold execHardwareMonitorTrip
  repeat' first
    | with_reducible assumption
    | exact all_of hw rfl
    | with_reducible apply answerKeeps_next
    | intro _
    | with_reducible apply State.fault_keeps
    | with_reducible apply keeps_ite
    | dsimp only
    | split

theorem execWatchdogEnable_keeps {w : Part → Bool} {a s : State}
    (hw : [Part.regs, .busReply, .saturated, .reports, .irqs, .flt].all w = true)
    (h : a.Keeps w s) (m : Master) (u : Fin 6) :
    AnswerKeeps w a (execWatchdogEnable m u s) := by
  unfold execWatchdogEnable
  repeat' first
    | with_reducible assumption
    | exact all_of hw rfl
    | with_reducible apply answerKeeps_next
    | intro _
    | with_reducible apply guardReg_keeps
    | with_reducible apply State.watchdogStart_keeps

theorem execWatchdogKick_keeps {w : Part → Bool} {a s : State}
    (hw : [Part.regs, .busReply, .saturated, .reports, .irqs, .flt].all w = true)
    (h : a.Keeps w s) (m : Master) (u : Fin 6) (key : Word) :
    AnswerKeeps w a (execWatchdogKick m u key s) := by
  unfold execWatchdogKick
  repeat' first
    | with_reducible assumption
    | exact all_of hw rfl
    | with_reducible apply answerKeeps_next
    | intro _
    | with_reducible apply guardReg_keeps
    | with_reducible apply State.watchdogKick_keeps

theorem execWatchdogExpiry_keeps {w : Part → Bool} {a s : State}
    (hw : [Part.regs, .reports].all w = true) (h : a.Keeps w s) (u : Fin 6) :
    AnswerKeeps w a (execWatchdogExpiry u s) := by
  unfold execWatchdogExpiry
  repeat' first
    | with_reducible assumption
    | exact all_of hw rfl
    | with_reducible apply answerKeeps_next
    | intro _
    | with_reducible apply State.watchdogExpire_keeps
    | with_reducible apply keeps_ite

theorem execFaultN1Release_keeps {w : Part → Bool} {a s : State}
    (hw : [Part.regs, .busReply, .saturated, .reports, .irqs].all w = true) (h : a.Keeps w s)
    (m : Master) :
    AnswerKeeps w a (execFaultN1Release m s) := by
  unfold execFaultN1Release
  repeat' first
    | with_reducible assumption
    | exact all_of hw rfl
    | with_reducible apply answerKeeps_next
    | intro _
    | with_reducible apply guardReg_keeps
    | with_reducible apply State.setBit_keeps

theorem execCounterModeWrite_keeps {w : Part → Bool} {a s : State}
    (hw : [Part.regs, .busReply, .saturated, .reports, .irqs].all w = true) (h : a.Keeps w s)
    (m : Master) (mode : BitVec 2) :
    AnswerKeeps w a (execCounterModeWrite m mode s) := by
  unfold execCounterModeWrite
  repeat' first
    | with_reducible assumption
    | exact all_of hw rfl
    | with_reducible apply answerKeeps_next
    | intro _
    | with_reducible apply guardReg_keeps
    | with_reducible apply State.writeMode_keeps

theorem execOvfClear_keeps {w : Part → Bool} {a s : State}
    (hw : [Part.regs, .busReply, .saturated, .reports, .irqs].all w = true) (h : a.Keeps w s)
    (m : Master) :
    AnswerKeeps w a (execOvfClear m s) := by
  unfold execOvfClear
  repeat' first
    | with_reducible assumption
    | exact all_of hw rfl
    | with_reducible apply answerKeeps_next
    | intro _
    | with_reducible apply guardReg_keeps
    | with_reducible apply State.clearOvf_keeps

theorem execCounterSnapshot_keeps {w : Part → Bool} {a s : State}
    (hw : [Part.regs, .busReply, .saturated, .reports, .irqs].all w = true) (h : a.Keeps w s)
    (m : Master) :
    AnswerKeeps w a (execCounterSnapshot m s) := by
  unfold execCounterSnapshot
  repeat' first
    | with_reducible assumption
    | exact all_of hw rfl
    | with_reducible apply answerKeeps_next
    | intro _
    | with_reducible apply guardReg_keeps
    | with_reducible apply State.monSnapshot_keeps

end Sys2Proof.Machine
end

