-- ==== Sys2Proof/Laws/KeepsLoader.lean ====
section
/-!
SUPPORT. What the operations of Machine/Loader.lean can change, and what they keep.
-/

namespace Sys2Proof.Machine

open Sys2Proof

theorem State.setLoad_keeps {w : Part → Bool} {a s : State} (hw : [Part.rtk].all w = true)
    (h : a.Keeps w s) (l : Loader) (v : LoadJob) :
    a.Keeps w (State.setLoad s l v) := by
  unfold State.setLoad
  repeat' first
    | with_reducible assumption
    | exact all_of hw rfl
    | intro _
    | with_reducible apply keeps_ite
    | dsimp only
    | split
    | with_reducible apply keeps_rtk

theorem State.loadGo_keeps {w : Part → Bool} {a s : State} (hw : [Part.regs, .rtk].all w = true)
    (h : a.Keeps w s) (l : Loader) (m : Master) :
    a.Keeps w (State.loadGo s l m) := by
  unfold State.loadGo
  repeat' first
    | with_reducible assumption
    | exact all_of hw rfl
    | intro _
    | with_reducible apply State.setLoad_keeps
    | with_reducible apply State.setBit_keeps
    | with_reducible apply keeps_ite

theorem execRtkImageLoad_keeps {w : Part → Bool} {a s : State}
    (hw : [Part.regs, .busReply, .saturated, .reports, .irqs, .rtk].all w = true)
    (h : a.Keeps w s) (m : Master) (entbase : BitVec 12) (commit : Bool) :
    AnswerKeeps w a (execRtkImageLoad m entbase commit s) := by
  unfold execRtkImageLoad
  repeat' first
    | with_reducible assumption
    | exact all_of hw rfl
    | with_reducible apply answerKeeps_next
    | intro _
    | with_reducible apply guardReg_keeps
    | with_reducible apply State.loadGo_keeps
    | with_reducible apply State.setBit_keeps
    | with_reducible apply State.setFld_keeps

theorem execPwcImageLoad_keeps {w : Part → Bool} {a s : State}
    (hw : [Part.regs, .busReply, .saturated, .reports, .irqs, .rtk].all w = true)
    (h : a.Keeps w s) (m : Master) (d : Die) :
    AnswerKeeps w a (execPwcImageLoad m d s) := by
  unfold execPwcImageLoad
  repeat' first
    | with_reducible assumption
    | exact all_of hw rfl
    | with_reducible apply answerKeeps_next
    | intro _
    | with_reducible apply guardReg_keeps
    | with_reducible apply State.loadGo_keeps
    | with_reducible apply keeps_ite
    | dsimp only
    | split

theorem execWakImageLoad_keeps {w : Part → Bool} {a s : State}
    (hw : [Part.regs, .busReply, .edgeQueue, .saturated, .reports, .irqs, .rtk].all w = true)
    (h : a.Keeps w s) (m : Master) :
    AnswerKeeps w a (execWakImageLoad m s) := by
  unfold execWakImageLoad
  repeat' first
    | with_reducible assumption
    | exact all_of hw rfl
    | with_reducible apply answerKeeps_next
    | intro _
    | with_reducible apply guardEdge_keeps
    | with_reducible apply State.loadGo_keeps

theorem State.setEngWords_keeps {w : Part → Bool} {a s : State} (hw : [Part.rtk].all w = true) (h : a.Keeps w s) (i : Nat)
    (ws : List Word) : a.Keeps w (State.setEngWords s i ws) := by
  induction ws generalizing s i with
  | nil => exact h
  | cons v ws ih => exact ih (State.setEngWord_keeps hw h i v) (i + 1)

theorem State.setDWords_keeps {w : Part → Bool} {a s : State} (hw : [Part.regs, .rtk, .eccBad].all w = true) (h : a.Keeps w s) (t i : Nat)
    (ws : List Word) : a.Keeps w (State.setDWords s t i ws) := by
  induction ws generalizing s i with
  | nil => exact h
  | cons v ws ih => exact ih (State.setD_keeps hw h t i v) (i + 1)

theorem State.writeText_keeps {w : Part → Bool} {a s : State}
    (hw : [Part.regs, .rtk].all w = true) (h : a.Keeps w s) (base : Nat) (text : List Word) :
    a.Keeps w (State.writeText s base text) := by
  unfold State.writeText
  extract_lets hit s1
  have h1 : a.Keeps w s1 := keeps_foldl _ _ h
    (fun _ _ ht => keeps_regs (all_of hw rfl) _ ht (fun x => Store.wf_clear _ _ x))
  exact keeps_rtk (all_of hw rfl) _ (State.wrWords_keeps (all_of hw rfl) h1 _ _)

theorem State.writePacketImage_keeps {w : Part → Bool} {a s : State}
    (hw : [Part.regs, .live, .commits, .saturated, .irqs, .cls, .rtk, .eccBad, .tm,
      .hbr].all w = true)
    (h : a.Keeps w s) (pmid : Nat) (g : Image) :
    a.Keeps w (State.writePacketImage s pmid g).2 := by
  unfold State.writePacketImage
  repeat' first
    | with_reducible assumption
    | exact all_of hw rfl
    | intro _
    | with_reducible apply State.deny_keeps
    | with_reducible apply State.wrWords_keeps
    | with_reducible apply State.writeText_keeps
    | with_reducible apply State.setDWords_keeps
    | with_reducible apply State.commitGo_keeps
    | with_reducible apply keeps_ite
    | with_reducible apply keeps_foldl
    | with_reducible apply keeps_foldl_fst
    | with_reducible apply keeps_foldl_snd
    | dsimp only
    | split

theorem State.writeSequencerImage_keeps {w : Part → Bool} {a s : State}
    (hw : [Part.regs, .rtk, .eccBad].all w = true) (h : a.Keeps w s) (q : Nat) (g : Image) :
    a.Keeps w (State.writeSequencerImage s q g) := by
  unfold State.writeSequencerImage
  repeat' first
    | with_reducible assumption
    | exact all_of hw rfl
    | intro _
    | with_reducible apply State.setDWords_keeps
    | with_reducible apply State.setEngWords_keeps
    | with_reducible apply keeps_ite
    | dsimp only
    | split
    | with_reducible apply keeps_rtk_eccBad

theorem State.writeImage_keeps {w : Part → Bool} {a s : State}
    (hw : [Part.regs, .live, .commits, .saturated, .irqs, .cls, .rtk, .eccBad, .tm,
      .hbr].all w = true)
    (h : a.Keeps w s) (l : Loader) (pmid : Nat) (g : Image) :
    a.Keeps w (State.writeImage s l pmid g).2 := by
  unfold State.writeImage
  repeat' first
    | with_reducible assumption
    | exact all_of hw rfl
    | intro _
    | with_reducible apply State.writePacketImage_keeps
    | with_reducible apply State.writeSequencerImage_keeps
    | with_reducible apply keeps_ite
    | with_reducible refine keeps_of_snd ?_ (by with_reducible assumption)
    | with_reducible refine keeps_of_fst ?_ (by with_reducible assumption)
    | dsimp only
    | split

theorem State.imageFault_keeps {w : Part → Bool} {a s : State}
    (hw : [Part.regs, .busReply, .saturated, .reports, .irqs].all w = true) (h : a.Keeps w s)
    (job : LoadJob) (r : Nat × Nat) :
    a.Keeps w (State.imageFault s job r) := by
  unfold State.imageFault
  repeat' first
    | with_reducible assumption
    | exact all_of hw rfl
    | intro _
    | with_reducible apply State.busRead_keeps
    | with_reducible apply keeps_ite

theorem execImageLoadDone_keeps {w : Part → Bool} {a s : State}
    (hw : [Part.regs, .live, .busReply, .commits, .saturated, .reports, .irqs, .cls,
      .rtk, .eccBad, .tm, .hbr].all w = true)
    (h : a.Keeps w s) (l : Loader) :
    AnswerKeeps w a (execImageLoadDone l s) := by
  unfold execImageLoadDone
  repeat' first
    | with_reducible assumption
    | exact all_of hw rfl
    | with_reducible apply answerKeeps_next
    | intro _
    | with_reducible apply State.imageFault_keeps
    | with_reducible apply State.writeImage_keeps
    | with_reducible apply State.useHostData_keeps
    | with_reducible apply State.setBit_keeps
    | with_reducible apply State.setFld_keeps
    | with_reducible apply State.setLoad_keeps
    | with_reducible apply keeps_ite
    | with_reducible refine keeps_of_snd ?_ (by with_reducible assumption)
    | with_reducible refine keeps_of_fst ?_ (by with_reducible assumption)
    | dsimp only
    | split

theorem State.markBad_keeps {w : Part → Bool} {a s : State} (hw : [Part.eccBad].all w = true)
    (h : a.Keeps w s) (c : MemCell) :
    a.Keeps w (State.markBad s c) := by
  unfold State.markBad
  repeat' first
    | with_reducible assumption
    | exact all_of hw rfl
    | intro _
    | with_reducible apply keeps_ite
    | dsimp only
    | split
    | with_reducible apply keeps_eccBad

theorem State.corrected_keeps {w : Part → Bool} {a s : State}
    (hw : [Part.regs, .saturated, .reports, .irqs].all w = true) (h : a.Keeps w s) (c : MemCell) :
    a.Keeps w (State.corrected s c) := by
  unfold State.corrected
  repeat' first
    | with_reducible assumption
    | exact all_of hw rfl
    | intro _
    | with_reducible apply State.fault_keeps
    | with_reducible apply State.monEvent_keeps
    | with_reducible apply State.takeFree_keeps
    | with_reducible apply keeps_ite
    | with_reducible refine keeps_of_snd ?_ (by with_reducible assumption)
    | with_reducible refine keeps_of_fst ?_ (by with_reducible assumption)
    | dsimp only
    | split

theorem execMemoryScrub_keeps {w : Part → Bool} {a s : State}
    (hw : [Part.regs, .saturated, .reports, .irqs, .cls, .eccBad].all w = true) (h : a.Keeps w s)
    (cell : MemCell) (uncorrectable : Bool) :
    AnswerKeeps w a (execMemoryScrub cell uncorrectable s) := by
  unfold execMemoryScrub
  repeat' first
    | with_reducible assumption
    | exact all_of hw rfl
    | with_reducible apply answerKeeps_next
    | intro _
    | with_reducible apply State.corrected_keeps
    | with_reducible apply State.fault_keeps
    | with_reducible apply State.monEvent_keeps
    | with_reducible apply State.markBad_keeps
    | with_reducible apply State.bump_keeps
    | with_reducible apply State.setFlow_keeps
    | with_reducible apply State.setBit_keeps
    | with_reducible apply keeps_ite
    | dsimp only
    | split

end Sys2Proof.Machine
end

