-- ==== Sys2Proof/Laws/KeepsStart.lean ====
section
/-!
SUPPORT. What the operations of Machine/Start.lean can change, and what they keep.
-/

namespace Sys2Proof.Machine

open Sys2Proof

theorem execHoldupCharged_keeps {w : Part → Bool} {a s : State}
    (hw : [Part.islands, .supply].all w = true) (h : a.Keeps w s) :
    AnswerKeeps w a (execHoldupCharged s) := by
  unfold execHoldupCharged
  repeat' first
    | with_reducible assumption
    | exact all_of hw rfl
    | with_reducible apply answerKeeps_next
    | intro _
    | with_reducible apply State.setIsland_keeps
    | with_reducible apply keeps_ite
    | dsimp only
    | split
    | with_reducible apply keeps_supply

theorem execCoreResetRelease_keeps {w : Part → Bool} {a s : State}
    (hw : [Part.tim, .regs, .live, .mem, .busReply, .edgeQueue, .islands, .coreHeld,
      .quiescing, .commits, .saturated, .monLevels, .traverse, .reports,
      .bbQueue, .bbLost, .irqs, .flowFrames, .frames, .nextFrame, .ports, .fab,
      .cls, .rtk, .eccBad, .debugScope, .tm, .cip, .vlt, .power, .wak, .boot,
      .gwy, .hbr, .cpx, .flt].all w = true)
    (h : a.Keeps w s) :
    AnswerKeeps w a (execCoreResetRelease s) := by
  unfold execCoreResetRelease
  repeat' first
    | with_reducible assumption
    | exact all_of hw rfl
    | with_reducible apply answerKeeps_next
    | intro _
    | with_reducible apply State.startCore_keeps
    | with_reducible apply keeps_ite

theorem State.logicOff_keeps {w : Part → Bool} {a s : State}
    (hw : [Part.regs, .islands, .coreHeld, .reports, .boot, .gwy].all w = true) (h : a.Keeps w s)
    :
    a.Keeps w (State.logicOff s) := by
  unfold State.logicOff
  repeat' first
    | with_reducible assumption
    | exact all_of hw rfl
    | intro _
    | with_reducible apply State.setIsland_keeps
    | with_reducible apply State.holdCore_keeps
    | with_reducible apply State.setPhase_keeps
    | with_reducible apply State.setFld_keeps
    | with_reducible apply keeps_ite
    | dsimp only
    | split
    | with_reducible apply keeps_boot_gwy

theorem State.dieOff_keeps {w : Part → Bool} {a s : State}
    (hw : [Part.powerLinkA, .powerLinkB, .power].all w = true) (h : a.Keeps w s) (d : Nat) :
    a.Keeps w (State.dieOff s d) := by
  unfold State.dieOff
  repeat' first
    | with_reducible assumption
    | exact all_of hw rfl
    | intro _
    | with_reducible apply State.dieReturn_keeps
    | with_reducible apply keeps_ite

theorem State.flushBox_keeps {w : Part → Bool} {a s : State}
    (hw : [Part.regs, .mem, .saturated, .reports, .bbQueue, .bbLost, .irqs, .eccBad,
      .box].all w = true)
    (h : a.Keeps w s) :
    a.Keeps w (State.flushBox s) :=
  keeps_foldl _ _ (keeps_bbQueue (all_of hw rfl) []
    (keeps_ite (State.lostRecord_keeps (all_of hw rfl) h) h) (fun _ => Nat.zero_le _))
    (fun _ x ht => State.writeRecord_keeps (all_of hw rfl) ht x)

theorem execFeedLoss_keeps {w : Part → Bool} {a s : State}
    (hw : [Part.regs, .mem, .busReply, .islands, .coreHeld, .quiescing, .saturated,
      .powerLinkA, .powerLinkB, .supply, .reports, .bbQueue, .bbLost, .irqs,
      .flowFrames, .frames, .nextFrame, .ports, .fab, .rtk, .eccBad, .tm, .cip,
      .vlt, .power, .boot, .box, .gwy, .hbr, .cpx, .flt].all w = true)
    (h : a.Keeps w s) :
    AnswerKeeps w a (execFeedLoss s) := by
  unfold execFeedLoss
  repeat' first
    | with_reducible assumption
    | exact all_of hw rfl
    | with_reducible apply answerKeeps_next
    | intro _
    | with_reducible apply State.logReport_keeps
    | with_reducible apply State.abortVault_keeps
    | with_reducible apply State.irq_keeps
    | with_reducible apply State.collect_keeps
    | with_reducible apply State.blackBox_keeps
    | with_reducible apply State.writeSnapshot_keeps
    | with_reducible apply State.flushBox_keeps
    | with_reducible apply State.dieOff_keeps
    | with_reducible apply State.logicOff_keeps
    | with_reducible apply keeps_ite
    | with_reducible apply keeps_foldl
    | dsimp only
    | split
    | with_reducible exact Nat.le_add_right _ _
    | with_reducible refine keeps_free _ ?_ ?_
    | with_reducible apply keeps_supply
    | with_reducible apply keeps_supply_reports
    | with_reducible apply keeps_reports
    | with_reducible apply keeps_supply_boot

theorem State.powerWake_keeps {w : Part → Bool} {a s : State}
    (hw : [Part.regs, .islands, .saturated, .frames, .nextFrame, .rtk, .wak, .irqs].all w = true)
    (h : a.Keeps w s) (sub : Nat) :
    a.Keeps w (State.powerWake s sub) := by
  unfold State.powerWake
  repeat' first
    | with_reducible assumption
    | exact all_of hw rfl
    | intro _
    | with_reducible apply State.wakeEvent_keeps
    | with_reducible apply keeps_ite

theorem execFeedApply_keeps {w : Part → Bool} {a s : State}
    (hw : [Part.regs, .islands, .saturated, .supply, .frames, .nextFrame, .rtk, .wak, .irqs].all w = true)
    (h : a.Keeps w s) (d : Die) :
    AnswerKeeps w a (execFeedApply d s) := by
  unfold execFeedApply
  repeat' first
    | with_reducible assumption
    | exact all_of hw rfl
    | with_reducible apply answerKeeps_next
    | intro _
    | with_reducible apply State.powerWake_keeps
    | with_reducible apply keeps_ite
    | dsimp only
    | split
    | with_reducible apply keeps_supply

theorem execFeedOutOfRange_keeps {w : Part → Bool} {a s : State}
    (hw : [Part.regs, .supply, .reports].all w = true) (h : a.Keeps w s) (d : Die) :
    AnswerKeeps w a (execFeedOutOfRange d s) := by
  unfold execFeedOutOfRange
  repeat' first
    | with_reducible assumption
    | exact all_of hw rfl
    | with_reducible apply answerKeeps_next
    | intro _
    | with_reducible apply State.supplyFlag_keeps
    | with_reducible apply State.fault_keeps
    | with_reducible apply keeps_ite
    | dsimp only
    | split
    | with_reducible apply keeps_supply

theorem execResetNAssert_keeps {w : Part → Bool} {a s : State}
    (hw : [Part.regs, .islands, .coreHeld, .supply, .reports, .boot, .gwy].all w = true)
    (h : a.Keeps w s) :
    AnswerKeeps w a (execResetNAssert s) := by
  unfold execResetNAssert
  repeat' first
    | with_reducible assumption
    | exact all_of hw rfl
    | with_reducible apply answerKeeps_next
    | intro _
    | with_reducible apply State.logicOff_keeps
    | with_reducible apply keeps_ite
    | dsimp only
    | split
    | with_reducible apply keeps_supply

theorem execResetNRelease_keeps {w : Part → Bool} {a s : State}
    (hw : [Part.regs, .islands, .saturated, .supply, .frames, .nextFrame, .rtk, .wak, .irqs].all w = true)
    (h : a.Keeps w s) :
    AnswerKeeps w a (execResetNRelease s) := by
  unfold execResetNRelease
  repeat' first
    | with_reducible assumption
    | exact all_of hw rfl
    | with_reducible apply answerKeeps_next
    | intro _
    | with_reducible apply State.powerWake_keeps
    | with_reducible apply keeps_ite
    | dsimp only
    | split
    | with_reducible apply keeps_supply

theorem execGroundLoss_keeps {w : Part → Bool} {a s : State}
    (hw : [Part.regs, .islands, .coreHeld, .powerLinkA, .powerLinkB, .supply,
      .reports, .power, .boot, .gwy].all w = true)
    (h : a.Keeps w s) :
    AnswerKeeps w a (execGroundLoss s) := by
  unfold execGroundLoss
  repeat' first
    | with_reducible assumption
    | exact all_of hw rfl
    | with_reducible apply answerKeeps_next
    | intro _
    | with_reducible apply State.dieOff_keeps
    | with_reducible apply State.logicOff_keeps
    | with_reducible apply keeps_ite
    | dsimp only
    | split
    | with_reducible apply keeps_supply

theorem execGroundRestore_keeps {w : Part → Bool} {a s : State}
    (hw : [Part.regs, .islands, .saturated, .supply, .frames, .nextFrame, .rtk, .wak, .irqs].all w = true)
    (h : a.Keeps w s) :
    AnswerKeeps w a (execGroundRestore s) := by
  unfold execGroundRestore
  repeat' first
    | with_reducible assumption
    | exact all_of hw rfl
    | with_reducible apply answerKeeps_next
    | intro _
    | with_reducible apply State.powerWake_keeps
    | with_reducible apply keeps_ite
    | dsimp only
    | split
    | with_reducible apply keeps_supply

theorem execIslandStop_keeps {w : Part → Bool} {a s : State}
    (hw : [Part.regs, .islands, .saturated, .reports, .irqs, .flowFrames, .frames,
      .fab, .tm, .cip].all w = true)
    (h : a.Keeps w s) (i : Island) :
    AnswerKeeps w a (execIslandStop i s) := by
  unfold execIslandStop
  repeat' first
    | with_reducible assumption
    | exact all_of hw rfl
    | with_reducible apply answerKeeps_next
    | intro _
    | with_reducible apply State.stopIsland_keeps
    | with_reducible apply keeps_ite
    | dsimp only
    | split

theorem execIslandReady_keeps {w : Part → Bool} {a s : State} (hw : [Part.islands].all w = true)
    (h : a.Keeps w s) (i : Island) :
    AnswerKeeps w a (execIslandReady i s) := by
  unfold execIslandReady
  repeat' first
    | with_reducible assumption
    | exact all_of hw rfl
    | with_reducible apply answerKeeps_next
    | intro _
    | with_reducible apply State.setIsland_keeps
    | with_reducible apply keeps_ite

theorem State.softwareRequest_keeps {w : Part → Bool} {a s : State}
    (hw : [Part.regs, .saturated, .frames, .nextFrame, .rtk, .wak, .irqs].all w = true) (h : a.Keeps w s)
    (req : Nat) :
    a.Keeps w (State.softwareRequest s req).1 := by
  unfold State.softwareRequest
  repeat' first
    | with_reducible assumption
    | exact all_of hw rfl
    | intro _
    | with_reducible apply State.setFld_keeps
    | with_reducible apply State.wakeRequest_keeps
    | with_reducible apply State.wakeRecord_keeps
    | with_reducible apply State.postEvent_keeps
    | with_reducible apply keeps_ite
    | with_reducible refine keeps_of_snd ?_ (by with_reducible assumption)
    | with_reducible refine keeps_of_fst ?_ (by with_reducible assumption)
    | dsimp only
    | split

theorem execStateRequestPewter_keeps {w : Part → Bool} {a s : State}
    (hw : [Part.regs, .busReply, .edgeQueue, .islands, .saturated, .reports, .irqs,
      .flowFrames, .frames, .nextFrame, .fab, .rtk, .tm, .cip, .wak].all w = true)
    (h : a.Keeps w s) (m : Master) :
    AnswerKeeps w a (execStateRequestPewter m s) := by
  unfold execStateRequestPewter
  repeat' first
    | with_reducible assumption
    | exact all_of hw rfl
    | with_reducible apply answerKeeps_next
    | intro _
    | with_reducible apply guardEdge_keeps
    | with_reducible apply State.softwareRequest_keeps
    | with_reducible apply State.beginTrans_keeps
    | with_reducible apply State.stopIsland_keeps
    | with_reducible apply keeps_ite

theorem execStateRequestIvory_keeps {w : Part → Bool} {a s : State}
    (hw : [Part.regs, .busReply, .edgeQueue, .islands, .saturated, .reports, .irqs,
      .frames, .nextFrame, .rtk, .wak].all w = true)
    (h : a.Keeps w s) (m : Master) :
    AnswerKeeps w a (execStateRequestIvory m s) := by
  unfold execStateRequestIvory
  repeat' first
    | with_reducible assumption
    | exact all_of hw rfl
    | with_reducible apply answerKeeps_next
    | intro _
    | with_reducible apply guardEdge_keeps
    | with_reducible apply State.softwareRequest_keeps
    | with_reducible apply State.startWake_keeps

theorem State.settleIslands_keeps {w : Part → Bool} {a s : State}
    (hw : [Part.regs, .busReply, .islands, .saturated, .reports, .irqs, .flowFrames,
      .frames, .nextFrame, .ports, .fab, .tm, .cip, .hbr, .cpx, .flt].all w = true)
    (h : a.Keeps w s) (state : Nat) :
    a.Keeps w (State.settleIslands s state) := by
  unfold State.settleIslands
  repeat' first
    | with_reducible assumption
    | exact all_of hw rfl
    | intro _
    | with_reducible apply State.placePorts_keeps
    | with_reducible apply State.placeIsland_keeps
    | with_reducible apply State.startMain_keeps
    | with_reducible apply State.loseLinkPcie_keeps
    | with_reducible apply State.setUnit_keeps
    | with_reducible apply State.setRun_keeps
    | with_reducible apply State.unitFlags_keeps
    | with_reducible apply State.appOff_keeps
    | with_reducible apply keeps_ite
    | with_reducible apply keeps_foldl

theorem State.arriveIn_keeps {w : Part → Bool} {a s : State}
    (hw : [Part.regs, .rtk, .wak].all w = true) (h : a.Keeps w s) (state : Nat) :
    a.Keeps w (State.arriveIn s state) := by
  unfold State.arriveIn
  repeat' first
    | with_reducible assumption
    | exact all_of hw rfl
    | intro _
    | with_reducible apply State.setFld_keeps
    | with_reducible apply State.setBit_keeps
    | with_reducible apply State.postEvent_keeps
    | with_reducible apply keeps_ite
    | dsimp only
    | split
    | with_reducible apply keeps_wak

theorem execTransitionDone_keeps {w : Part → Bool} {a s : State}
    (hw : [Part.regs, .busReply, .islands, .saturated, .reports, .irqs, .flowFrames,
      .frames, .nextFrame, .ports, .fab, .rtk, .tm, .cip, .wak, .hbr, .cpx, .flt].all w = true)
    (h : a.Keeps w s) :
    AnswerKeeps w a (execTransitionDone s) := by
  unfold execTransitionDone
  repeat' first
    | with_reducible assumption
    | exact all_of hw rfl
    | with_reducible apply answerKeeps_next
    | intro _
    | with_reducible apply State.postEvent_keeps
    | with_reducible apply State.setBit_keeps
    | with_reducible apply State.setFld_keeps
    | with_reducible apply State.arriveIn_keeps
    | with_reducible apply State.settleIslands_keeps
    | with_reducible apply keeps_ite

theorem State.resumeHeld_keeps {w : Part → Bool} {a s : State}
    (hw : [Part.regs, .islands, .saturated, .rtk, .wak, .irqs].all w = true) (h : a.Keeps w s)
    (e : Nat × Nat) :
    a.Keeps w (State.resumeHeld s e) := by
  unfold State.resumeHeld
  repeat' first
    | with_reducible assumption
    | exact all_of hw rfl
    | intro _
    | with_reducible apply State.postEvent_keeps
    | with_reducible apply State.startWake_keeps
    | with_reducible apply keeps_ite

theorem State.retain_keeps {w : Part → Bool} {a s : State} (hw : [Part.boot].all w = true)
    (h : a.Keeps w s) :
    a.Keeps w (State.retain s) := by
  unfold State.retain
  repeat' first
    | with_reducible assumption
    | exact all_of hw rfl
    | intro _
    | with_reducible apply keeps_ite
    | dsimp only
    | split
    | with_reducible apply keeps_boot

theorem execSleepEntryDone_keeps {w : Part → Bool} {a s : State}
    (hw : [Part.regs, .mem, .islands, .coreHeld, .saturated, .powerLinkA, .powerLinkB,
      .supply, .reports, .bbQueue, .bbLost, .irqs, .rtk, .eccBad, .power, .wak,
      .boot, .box, .gwy].all w = true)
    (h : a.Keeps w s) :
    AnswerKeeps w a (execSleepEntryDone s) := by
  unfold execSleepEntryDone
  repeat' first
    | with_reducible assumption
    | exact all_of hw rfl
    | with_reducible apply answerKeeps_next
    | intro _
    | with_reducible apply State.allOff_keeps
    | with_reducible apply State.writeSnapshot_keeps
    | with_reducible apply State.dieOff_keeps
    | with_reducible apply State.retain_keeps
    | with_reducible apply State.flushBox_keeps
    | with_reducible apply State.setPhase_keeps
    | with_reducible apply State.setIsland_keeps
    | with_reducible apply State.holdCore_keeps
    | with_reducible apply State.setBit_keeps
    | with_reducible apply State.setFld_keeps
    | with_reducible apply State.resumeHeld_keeps
    | with_reducible apply State.postEvent_keeps
    | with_reducible apply keeps_ite
    | with_reducible apply keeps_foldl
    | with_reducible apply keeps_foldl_fst
    | with_reducible apply keeps_foldl_snd
    | dsimp only
    | split
    | with_reducible apply keeps_gwy
    | with_reducible apply keeps_supply
    | with_reducible apply keeps_wak

end Sys2Proof.Machine
end

