-- ==== Sys2Proof/Laws/KeepsTraffic.lean ====
section
/-!
SUPPORT. What the operations of Machine/Traffic.lean can change, and what they keep.
-/

namespace Sys2Proof.Machine

open Sys2Proof

theorem State.frerPass_keeps {w : Part → Bool} {a s : State}
    (hw : [Part.regs, .saturated, .tm].all w = true) (h : a.Keeps w s) (f : Nat) (v : FrerState) :
    a.Keeps w (State.frerPass s f v) := by
  unfold State.frerPass
  repeat' first
    | with_reducible assumption
    | exact all_of hw rfl
    | intro _
    | with_reducible apply State.bump_keeps
    | with_reducible apply State.setFrer_keeps

theorem State.frerRogue_keeps {w : Part → Bool} {a s : State}
    (hw : [Part.regs, .saturated, .frames].all w = true) (h : a.Keeps w s) (fr : Nat) (v : Frame)
    (f : Nat) :
    a.Keeps w (State.frerRogue s fr v f) := by
  unfold State.frerRogue
  repeat' first
    | with_reducible assumption
    | exact all_of hw rfl
    | intro _
    | with_reducible apply State.toException_keeps
    | with_reducible apply State.bump_keeps

theorem State.frerRecover_keeps {w : Part → Bool} {a s : State}
    (hw : [Part.regs, .saturated, .frames, .tm].all w = true) (h : a.Keeps w s) (fr : Nat)
    (v : Frame) (f : Nat) :
    a.Keeps w (State.frerRecover s fr v f) := by
  unfold State.frerRecover
  repeat' first
    | with_reducible assumption
    | exact all_of hw rfl
    | intro _
    | with_reducible apply State.setFrame_keeps
    | with_reducible apply State.frerPass_keeps
    | with_reducible apply State.frerRogue_keeps
    | with_reducible apply State.dropFrame_keeps
    | with_reducible apply State.bump_keeps
    | with_reducible apply State.bumpBy_keeps
    | with_reducible apply keeps_ite

theorem State.frerGenerate_keeps {w : Part → Bool} {a s : State}
    (hw : [Part.regs, .saturated, .frames, .tm].all w = true) (h : a.Keeps w s) (fr : Nat)
    (v : Frame) (f : Nat) :
    a.Keeps w (State.frerGenerate s fr v f) := by
  unfold State.frerGenerate
  repeat' first
    | with_reducible assumption
    | exact all_of hw rfl
    | intro _
    | with_reducible apply State.setFrer_keeps
    | with_reducible apply State.setFrame_keeps
    | with_reducible apply State.bump_keeps
    | with_reducible apply keeps_ite

theorem State.frerStage_keeps {w : Part → Bool} {a s : State}
    (hw : [Part.regs, .saturated, .frames, .tm].all w = true) (h : a.Keeps w s) (fr : Nat)
    (v : Frame) (w1 : Word) :
    a.Keeps w (State.frerStage s fr v w1) := by
  unfold State.frerStage
  repeat' first
    | with_reducible assumption
    | exact all_of hw rfl
    | intro _
    | with_reducible apply State.setFrame_keeps
    | with_reducible apply State.frerGenerate_keeps
    | with_reducible apply State.frerRecover_keeps
    | with_reducible apply keeps_ite

theorem State.filterStage_keeps {w : Part → Bool} {a s : State}
    (hw : [Part.regs, .saturated, .frames, .tm].all w = true) (h0 : a.Keeps w s) (fr : Nat)
    (v : Frame) (h : Nat) :
    a.Keeps w (State.filterStage s fr v h) := by
  unfold State.filterStage
  repeat' first
    | with_reducible assumption
    | exact all_of hw rfl
    | intro _
    | with_reducible apply State.bump_keeps
    | with_reducible apply State.dropFrame_keeps
    | with_reducible apply State.setBit_keeps
    | with_reducible apply State.frerStage_keeps
    | with_reducible apply State.meterUpdate_keeps
    | with_reducible apply keeps_ite

theorem execStreamStage_keeps {w : Part → Bool} {a s : State}
    (hw : [Part.regs, .saturated, .frames, .rtk, .tm].all w = true) (h : a.Keeps w s)
    (f : FrameId) :
    AnswerKeeps w a (execStreamStage f s) := by
  unfold execStreamStage
  repeat' first
    | with_reducible assumption
    | exact all_of hw rfl
    | with_reducible apply answerKeeps_next
    | intro _
    | with_reducible apply State.wakeRoom_keeps
    | with_reducible apply State.setFrame_keeps
    | with_reducible apply State.filterStage_keeps
    | with_reducible apply keeps_ite
    | dsimp only
    | split

theorem execFrerResetTimer_keeps {w : Part → Bool} {a s : State}
    (hw : [Part.regs, .saturated, .tm].all w = true) (h : a.Keeps w s) (f : Fin 1024) :
    AnswerKeeps w a (execFrerResetTimer f s) := by
  unfold execFrerResetTimer
  repeat' first
    | with_reducible assumption
    | exact all_of hw rfl
    | with_reducible apply answerKeeps_next
    | intro _
    | with_reducible apply State.bump_keeps
    | with_reducible apply State.setFrer_keeps
    | with_reducible apply keeps_ite

theorem execFrerWatchdogExpiry_keeps {w : Part → Bool} {a s : State}
    (hw : [Part.reports, .tm].all w = true) (h : a.Keeps w s) (f : Fin 1024) :
    AnswerKeeps w a (execFrerWatchdogExpiry f s) := by
  unfold execFrerWatchdogExpiry
  repeat' first
    | with_reducible assumption
    | exact all_of hw rfl
    | with_reducible apply answerKeeps_next
    | intro _
    | with_reducible apply State.fault_keeps
    | with_reducible apply State.setFrer_keeps
    | with_reducible apply keeps_ite

theorem execMeterFill_keeps {w : Part → Bool} {a s : State}
    (hw : [Part.regs, .busReply, .saturated, .reports, .irqs, .tm].all w = true) (h : a.Keeps w s)
    (m : Master) (n : Fin 1024) (data : Word) :
    AnswerKeeps w a (execMeterFill m n data s) := by
  unfold execMeterFill
  repeat' first
    | with_reducible assumption
    | exact all_of hw rfl
    | with_reducible apply answerKeeps_next
    | intro _
    | with_reducible apply guardReg_keeps
    | with_reducible apply State.fillMeter_keeps
    | with_reducible apply State.setBit_keeps

theorem State.writeSelcfg_keeps {w : Part → Bool} {a s : State}
    (hw : [Part.regs, .tm].all w = true) (h : a.Keeps w s) (p : Nat) (data : Word) :
    a.Keeps w (State.writeSelcfg s p data) := by
  unfold State.writeSelcfg
  repeat' first
    | with_reducible assumption
    | exact all_of hw rfl
    | intro _
    | with_reducible apply State.settleCredits_keeps
    | with_reducible apply State.wrN_keeps
    | with_reducible apply State.setBit_keeps
    | with_reducible apply State.setTmPort_keeps
    | with_reducible apply keeps_ite

theorem execSelcfgWrite_keeps {w : Part → Bool} {a s : State}
    (hw : [Part.regs, .busReply, .saturated, .reports, .irqs, .tm].all w = true) (h : a.Keeps w s)
    (m : Master) (p : Port) (data : Word) :
    AnswerKeeps w a (execSelcfgWrite m p data s) := by
  unfold execSelcfgWrite
  repeat' first
    | with_reducible assumption
    | exact all_of hw rfl
    | with_reducible apply answerKeeps_next
    | intro _
    | with_reducible apply guardReg_keeps
    | with_reducible apply State.writeSelcfg_keeps

theorem State.headCheck_keeps {w : Part → Bool} {a s : State}
    (hw : [Part.regs, .saturated, .irqs, .flowFrames, .frames, .nextFrame, .fab, .tm].all w = true)
    (h : a.Keeps w s) (p c fuel : Nat) : a.Keeps w (State.headCheck s p c fuel) := by
  induction fuel generalizing s with
  | zero => exact h
  | succ fuel ih =>
    unfold State.headCheck
    repeat' first
      | with_reducible assumption
      | exact all_of hw rfl
      | with_reducible apply ih
      | with_reducible apply State.divert_keeps
      | with_reducible apply State.bump_keeps
      | with_reducible apply State.monEvent_keeps
      | with_reducible apply State.loseDeficit_keeps
      | with_reducible apply State.reap_keeps
      | with_reducible apply keeps_ite
      | dsimp only
      | split

theorem State.headChecks_keeps {w : Part → Bool} {a s : State}
    (hw : [Part.regs, .saturated, .irqs, .flowFrames, .frames, .nextFrame, .fab, .tm].all w = true)
    (h : a.Keeps w s) (p : Nat) :
    a.Keeps w (State.headChecks s p) := by
  unfold State.headChecks
  repeat' first
    | with_reducible assumption
    | exact all_of hw rfl
    | intro _
    | with_reducible apply State.headCheck_keeps
    | with_reducible apply keeps_ite
    | with_reducible apply keeps_foldl

theorem State.giveWay_keeps {w : Part → Bool} {a s : State} (hw : [Part.tm].all w = true)
    (h : a.Keeps w s) (p : Nat) :
    a.Keeps w (State.giveWay s p) := by
  unfold State.giveWay
  repeat' first
    | with_reducible assumption
    | exact all_of hw rfl
    | intro _
    | with_reducible apply State.setTmPort_keeps
    | with_reducible apply keeps_ite
    | dsimp only
    | split

theorem State.resumeFrame_keeps {w : Part → Bool} {a s : State} (hw : [Part.tm].all w = true)
    (h : a.Keeps w s) (p : Nat) (x : Sending) :
    a.Keeps w (State.resumeFrame s p x) := by
  unfold State.resumeFrame
  repeat' first
    | with_reducible assumption
    | exact all_of hw rfl
    | intro _
    | with_reducible apply State.setTmPort_keeps
    | with_reducible apply keeps_ite

theorem State.usePn_keeps {w : Part → Bool} {a s : State}
    (hw : [Part.regs, .saturated, .irqs].all w = true) (h : a.Keeps w s) (sa : Nat) (pn : Nat) :
    a.Keeps w (State.usePn s sa pn) := by
  unfold State.usePn
  repeat' first
    | with_reducible assumption
    | exact all_of hw rfl
    | intro _
    | with_reducible apply State.bump_keeps
    | with_reducible apply State.setNextPn_keeps
    | with_reducible apply State.irq_keeps
    | with_reducible apply State.setBit_keeps
    | with_reducible apply keeps_ite

theorem State.dropAtSeal_keeps {w : Part → Bool} {a s : State}
    (hw : [Part.regs, .saturated, .irqs, .flowFrames, .frames, .fab, .tm].all w = true)
    (h : a.Keeps w s) (f : Nat) (p : Nat) (sa : Nat) (cnt : Nat) :
    a.Keeps w (State.dropAtSeal s f p sa cnt) := by
  unfold State.dropAtSeal
  repeat' first
    | with_reducible assumption
    | exact all_of hw rfl
    | intro _
    | with_reducible apply State.reap_keeps
    | with_reducible apply State.freeDone_keeps
    | with_reducible apply State.endCopy_keeps
    | with_reducible apply State.bump_keeps

theorem State.startFrame_keeps {w : Part → Bool} {a s : State}
    (hw : [Part.regs, .saturated, .irqs, .flowFrames, .frames, .fab, .tm].all w = true)
    (h : a.Keeps w s) (p : Nat) (c : Nat) (express : Bool) (latency : Nat) :
    a.Keeps w (State.startFrame s p c express latency) := by
  unfold State.startFrame
  repeat' first
    | with_reducible assumption
    | exact all_of hw rfl
    | intro _
    | with_reducible apply State.txStamp_keeps
    | with_reducible apply State.giveWay_keeps
    | with_reducible apply State.setTmPort_keeps
    | with_reducible apply State.setFrame_keeps
    | with_reducible apply State.monEvent_keeps
    | with_reducible apply State.bump_keeps
    | with_reducible apply State.usePn_keeps
    | with_reducible apply State.dropAtSeal_keeps
    | with_reducible apply keeps_ite
    | with_reducible refine keeps_of_snd ?_ (by with_reducible assumption)
    | with_reducible refine keeps_of_fst ?_ (by with_reducible assumption)
    | dsimp only
    | split

theorem execSelectionOpportunity_keeps {w : Part → Bool} {a s : State}
    (hw : [Part.regs, .saturated, .irqs, .flowFrames, .frames, .nextFrame, .fab, .tm].all w = true)
    (h : a.Keeps w s) (p : Port) (express : Bool) (latency : BitVec 16) :
    AnswerKeeps w a (execSelectionOpportunity p express latency s) := by
  unfold execSelectionOpportunity
  repeat' first
    | with_reducible assumption
    | exact all_of hw rfl
    | with_reducible apply answerKeeps_next
    | intro _
    | with_reducible apply State.settlePreempt_keeps
    | with_reducible apply State.resumeFrame_keeps
    | with_reducible apply State.settleCredits_keeps
    | with_reducible apply State.headChecks_keeps
    | with_reducible apply State.setTmPort_keeps
    | with_reducible apply State.startFrame_keeps
    | with_reducible apply keeps_ite
    | dsimp only
    | split

theorem State.stompCopy_keeps {w : Part → Bool} {a s : State}
    (hw : [Part.regs, .saturated, .irqs].all w = true) (h : a.Keeps w s) (p : Nat) (c : Nat)
    (len : Nat) (hash : Word) :
    a.Keeps w (State.stompCopy s p c len hash) := by
  unfold State.stompCopy
  repeat' first
    | with_reducible assumption
    | exact all_of hw rfl
    | intro _
    | with_reducible apply State.bump_keeps
    | with_reducible apply State.monEvent_keeps
    | with_reducible apply State.portLog_keeps
    | with_reducible apply keeps_ite

theorem State.finishCopy_keeps {w : Part → Bool} {a s : State}
    (hw : [Part.regs, .saturated, .irqs, .flowFrames, .frames, .fab, .tm].all w = true)
    (h : a.Keeps w s) (f : Nat) (p : Nat) (stomp : Bool) :
    a.Keeps w (State.finishCopy s f p stomp) := by
  unfold State.finishCopy
  repeat' first
    | with_reducible assumption
    | exact all_of hw rfl
    | intro _
    | with_reducible apply State.freeDone_keeps
    | with_reducible apply State.endCopy_keeps
    | with_reducible apply State.setFrame_keeps
    | with_reducible apply State.reap_keeps
    | with_reducible apply keeps_ite
    | dsimp only
    | split

theorem State.endFrame_keeps {w : Part → Bool} {a s : State}
    (hw : [Part.regs, .saturated, .traverse, .irqs, .flowFrames, .frames, .nextFrame,
      .ports, .fab, .cls, .tm, .wak].all w = true)
    (h : a.Keeps w s) (p : Nat) (x : Sending) (v : Frame) :
    a.Keeps w (State.endFrame s p x v) := by
  unfold State.endFrame
  repeat' first
    | with_reducible assumption
    | exact all_of hw rfl
    | intro _
    | with_reducible apply State.issueBlocks_keeps
    | with_reducible apply State.bump_keeps
    | with_reducible apply State.portLog_keeps
    | with_reducible apply State.monEvent_keeps
    | with_reducible apply State.stompCopy_keeps
    | with_reducible apply State.ptpRing_keeps
    | with_reducible apply State.bumpBy_keeps
    | with_reducible apply State.setTmPort_keeps
    | with_reducible apply State.finishCopy_keeps
    | with_reducible apply State.loopBack_keeps
    | with_reducible apply State.setPort_keeps
    | with_reducible apply keeps_ite
    | dsimp only
    | split
    | with_reducible apply keeps_fab

theorem execFrameTransmitEnd_keeps {w : Part → Bool} {a s : State}
    (hw : [Part.regs, .saturated, .traverse, .irqs, .flowFrames, .frames, .nextFrame,
      .ports, .fab, .cls, .tm, .wak].all w = true)
    (h : a.Keeps w s) (p : Port) (express : Bool) :
    AnswerKeeps w a (execFrameTransmitEnd p express s) := by
  unfold execFrameTransmitEnd
  repeat' first
    | with_reducible assumption
    | exact all_of hw rfl
    | with_reducible apply answerKeeps_next
    | intro _
    | with_reducible apply State.settlePreempt_keeps
    | with_reducible apply State.setTmPort_keeps
    | with_reducible apply State.settleCredits_keeps
    | with_reducible apply State.headChecks_keeps
    | with_reducible apply State.endFrame_keeps
    | with_reducible apply keeps_ite
    | dsimp only
    | split

theorem State.countOverrun_keeps {w : Part → Bool} {a s : State}
    (hw : [Part.regs, .saturated, .irqs].all w = true) (h : a.Keeps w s) (p : Nat)
    (was : List Bool) (x : Option Sending) :
    a.Keeps w (State.countOverrun s p was x) := by
  unfold State.countOverrun
  repeat' first
    | with_reducible assumption
    | exact all_of hw rfl
    | intro _
    | with_reducible apply State.monEvent_keeps
    | with_reducible apply State.bump_keeps
    | with_reducible apply keeps_ite
    | dsimp only
    | split

theorem State.applyEntry_keeps {w : Part → Bool} {a s : State}
    (hw : [Part.regs, .saturated, .irqs, .tm].all w = true) (h : a.Keeps w s) (p : Nat)
    (was : List Bool) :
    a.Keeps w (State.applyEntry s p was) := by
  unfold State.applyEntry
  repeat' first
    | with_reducible assumption
    | exact all_of hw rfl
    | intro _
    | with_reducible apply State.settlePreempt_keeps
    | with_reducible apply State.setTmPort_keeps
    | with_reducible apply State.gatePreempt_keeps
    | with_reducible apply State.countOverrun_keeps
    | with_reducible apply keeps_ite
    | with_reducible apply keeps_dite
    | dsimp only
    | split

theorem execGateEntryChange_keeps {w : Part → Bool} {a s : State}
    (hw : [Part.regs, .saturated, .irqs, .tm].all w = true) (h : a.Keeps w s) (p : ExtPort) :
    AnswerKeeps w a (execGateEntryChange p s) := by
  unfold execGateEntryChange
  repeat' first
    | with_reducible assumption
    | exact all_of hw rfl
    | with_reducible apply answerKeeps_next
    | intro _
    | with_reducible apply State.settleCredits_keeps
    | with_reducible apply State.applyEntry_keeps
    | with_reducible apply State.setTmPort_keeps
    | with_reducible apply keeps_ite
    | dsimp only
    | split

theorem execGateHoldAssert_keeps {w : Part → Bool} {a s : State} (hw : [Part.tm].all w = true)
    (h : a.Keeps w s) (p : ExtPort) :
    AnswerKeeps w a (execGateHoldAssert p s) := by
  unfold execGateHoldAssert
  repeat' first
    | with_reducible assumption
    | exact all_of hw rfl
    | with_reducible apply answerKeeps_next
    | intro _
    | with_reducible apply State.settlePreempt_keeps
    | with_reducible apply State.gatePreempt_keeps
    | with_reducible apply State.setTmPort_keeps
    | with_reducible apply keeps_ite

theorem execListChangeTime_keeps {w : Part → Bool} {a s : State}
    (hw : [Part.regs, .live, .saturated, .irqs, .tm].all w = true) (h : a.Keeps w s) (p : ExtPort)
    :
    AnswerKeeps w a (execListChangeTime p s) := by
  unfold execListChangeTime
  repeat' first
    | with_reducible assumption
    | exact all_of hw rfl
    | with_reducible apply answerKeeps_next
    | intro _
    | with_reducible apply State.liveToLive_keeps
    | with_reducible apply State.settleCredits_keeps
    | with_reducible apply State.setTmPort_keeps
    | with_reducible apply State.applyEntry_keeps
    | with_reducible apply State.refreshWindows_keeps
    | with_reducible apply State.bump_keeps
    | with_reducible apply keeps_ite
    | dsimp only
    | split

end Sys2Proof.Machine
end

