-- ==== Sys2Proof/Laws/KeepsWake.lean ====
section
/-!
SUPPORT. What the operations of Machine/Wake.lean can change, and what they keep.
-/

namespace Sys2Proof.Machine

open Sys2Proof

theorem execWakePinEdge_keeps {w : Part → Bool} {a s : State}
    (hw : [Part.regs, .islands, .saturated, .frames, .nextFrame, .rtk, .wak, .irqs].all w = true)
    (h : a.Keeps w s) (pin : Fin 4) (rising : Bool) :
    AnswerKeeps w a (execWakePinEdge pin rising s) := by
  unfold execWakePinEdge
  repeat' first
    | with_reducible assumption
    | exact all_of hw rfl
    | with_reducible apply answerKeeps_next
    | intro _
    | with_reducible apply State.wakeEvent_keeps
    | with_reducible apply keeps_ite

theorem execKeyAssert_keeps {w : Part → Bool} {a s : State}
    (hw : [Part.regs, .islands, .saturated, .frames, .nextFrame, .rtk, .wak, .irqs].all w = true)
    (h : a.Keeps w s) :
    AnswerKeeps w a (execKeyAssert s) := by
  unfold execKeyAssert
  repeat' first
    | with_reducible assumption
    | exact all_of hw rfl
    | with_reducible apply answerKeeps_next
    | intro _
    | with_reducible apply State.wakeEvent_keeps
    | with_reducible apply State.wakeRequest_keeps
    | with_reducible apply keeps_ite
    | dsimp only
    | split
    | with_reducible apply keeps_wak

theorem execKeyDeassert_keeps {w : Part → Bool} {a s : State}
    (hw : [Part.regs, .saturated, .reports, .frames, .nextFrame, .rtk, .wak, .irqs].all w = true)
    (h : a.Keeps w s) :
    AnswerKeeps w a (execKeyDeassert s) := by
  unfold execKeyDeassert
  repeat' first
    | with_reducible assumption
    | exact all_of hw rfl
    | with_reducible apply answerKeeps_next
    | intro _
    | with_reducible apply State.releaseHeld_keeps
    | with_reducible apply keeps_ite
    | dsimp only
    | split
    | with_reducible apply keeps_wak

theorem execRtcAlarm_keeps {w : Part → Bool} {a0 s : State}
    (hw : [Part.regs, .islands, .saturated, .frames, .nextFrame, .rtk, .wak, .irqs].all w = true)
    (h : a0.Keeps w s) (a : Fin 2) :
    AnswerKeeps w a0 (execRtcAlarm a s) := by
  unfold execRtcAlarm
  repeat' first
    | with_reducible assumption
    | exact all_of hw rfl
    | with_reducible apply answerKeeps_next
    | intro _
    | with_reducible apply State.wakeEvent_keeps
    | with_reducible apply State.setBit_keeps
    | with_reducible apply keeps_ite

theorem execWakeTimerTick_keeps {w : Part → Bool} {a s : State}
    (hw : [Part.rtk, .wak].all w = true) (h : a.Keeps w s) :
    AnswerKeeps w a (execWakeTimerTick s) := by
  unfold execWakeTimerTick
  repeat' first
    | with_reducible assumption
    | exact all_of hw rfl
    | with_reducible apply answerKeeps_next
    | intro _
    | with_reducible apply State.postEvent_keeps
    | with_reducible apply keeps_ite
    | dsimp only
    | split
    | with_reducible apply keeps_wak

theorem execRtcSet_keeps {w : Part → Bool} {a s : State}
    (hw : [Part.rtc, .regs, .busReply, .edgeQueue, .saturated, .reports, .irqs].all w = true)
    (h : a.Keeps w s) (m : Master) :
    AnswerKeeps w a (execRtcSet m s) := by
  unfold execRtcSet
  repeat' first
    | with_reducible assumption
    | exact all_of hw rfl
    | with_reducible apply answerKeeps_next
    | intro _
    | with_reducible apply guardEdge_keeps
    | with_reducible apply State.setBit_keeps
    | with_reducible apply keeps_ite
    | dsimp only
    | split
    | with_reducible apply keeps_rtc

theorem execRtcInvalid_keeps {w : Part → Bool} {a s : State} (hw : [Part.regs, .wak].all w = true)
    (h : a.Keeps w s) :
    AnswerKeeps w a (execRtcInvalid s) := by
  unfold execRtcInvalid
  repeat' first
    | with_reducible assumption
    | exact all_of hw rfl
    | with_reducible apply answerKeeps_next
    | intro _
    | with_reducible apply State.setBit_keeps
    | with_reducible apply keeps_ite
    | dsimp only
    | split
    | with_reducible apply keeps_wak

theorem State.setWcons_keeps {w : Part → Bool} {a s : State}
    (hw : [Part.regs, .saturated, .reports, .frames, .nextFrame, .rtk, .wak, .irqs].all w = true)
    (h : a.Keeps w s) (v : Bool) :
    a.Keeps w (State.setWcons s v) := by
  unfold State.setWcons
  repeat' first
    | with_reducible assumption
    | exact all_of hw rfl
    | intro _
    | with_reducible apply State.setBit_keeps
    | with_reducible apply State.wakeRequest_keeps
    | with_reducible apply State.releaseHeld_keeps
    | with_reducible apply keeps_ite

theorem State.pwrqEffect_keeps {w : Part → Bool} {a s : State}
    (hw : [Part.regs, .islands, .saturated, .reports, .frames, .nextFrame, .rtk, .wak, .irqs].all w = true)
    (h : a.Keeps w s) (code : Nat) :
    a.Keeps w (State.pwrqEffect s code) := by
  unfold State.pwrqEffect
  repeat' first
    | with_reducible assumption
    | exact all_of hw rfl
    | intro _
    | with_reducible apply State.wakeRequest_keeps
    | with_reducible apply State.beginTrans_keeps
    | with_reducible apply State.startWake_keeps
    | with_reducible apply State.setWcons_keeps
    | with_reducible apply State.wakeRecord_keeps
    | with_reducible apply State.postEvent_keeps
    | with_reducible apply keeps_ite
    | with_reducible apply keeps_dite
    | with_reducible refine keeps_of_snd ?_ (by with_reducible assumption)
    | with_reducible refine keeps_of_fst ?_ (by with_reducible assumption)
    | dsimp only
    | split
    | with_reducible apply keeps_wak

theorem State.pwrq_keeps {w : Part → Bool} {a s : State}
    (hw : [Part.regs, .islands, .saturated, .reports, .irqs, .frames, .nextFrame,
      .rtk, .power, .wak].all w = true)
    (h : a.Keeps w s) (t : ThreadId) (ra : Gpr) (code : Nat) :
    a.Keeps w (State.pwrq s t ra code) := by
  unfold State.pwrq
  repeat' first
    | with_reducible assumption
    | exact all_of hw rfl
    | intro _
    | with_reducible apply State.issue_keeps
    | with_reducible apply State.pwrqEffect_keeps
    | with_reducible apply State.setThread_keeps
    | with_reducible apply keeps_ite

theorem execPwrqUmber_keeps {w : Part → Bool} {a s : State}
    (hw : [Part.regs, .islands, .saturated, .reports, .irqs, .frames, .nextFrame,
      .rtk, .power, .wak].all w = true)
    (h : a.Keeps w s) (t : ThreadId) (ra : Gpr) :
    AnswerKeeps w a (execPwrqUmber t ra s) := by
  unfold execPwrqUmber
  repeat' first
    | with_reducible assumption
    | exact all_of hw rfl
    | with_reducible apply answerKeeps_next
    | intro _
    | with_reducible apply State.pwrq_keeps

theorem execPwrqSlate_keeps {w : Part → Bool} {a s : State}
    (hw : [Part.regs, .islands, .saturated, .reports, .irqs, .frames, .nextFrame,
      .rtk, .power, .wak].all w = true)
    (h : a.Keeps w s) (t : ThreadId) (ra : Gpr) :
    AnswerKeeps w a (execPwrqSlate t ra s) := by
  unfold execPwrqSlate
  repeat' first
    | with_reducible assumption
    | exact all_of hw rfl
    | with_reducible apply answerKeeps_next
    | intro _
    | with_reducible apply State.pwrq_keeps

theorem execPwrqPewter_keeps {w : Part → Bool} {a s : State}
    (hw : [Part.regs, .islands, .saturated, .reports, .irqs, .frames, .nextFrame,
      .rtk, .power, .wak].all w = true)
    (h : a.Keeps w s) (t : ThreadId) (ra : Gpr) :
    AnswerKeeps w a (execPwrqPewter t ra s) := by
  unfold execPwrqPewter
  repeat' first
    | with_reducible assumption
    | exact all_of hw rfl
    | with_reducible apply answerKeeps_next
    | intro _
    | with_reducible apply State.pwrq_keeps

theorem execPwrqIvory_keeps {w : Part → Bool} {a s : State}
    (hw : [Part.regs, .islands, .saturated, .reports, .irqs, .frames, .nextFrame,
      .rtk, .power, .wak].all w = true)
    (h : a.Keeps w s) (t : ThreadId) (ra : Gpr) :
    AnswerKeeps w a (execPwrqIvory t ra s) := by
  unfold execPwrqIvory
  repeat' first
    | with_reducible assumption
    | exact all_of hw rfl
    | with_reducible apply answerKeeps_next
    | intro _
    | with_reducible apply State.pwrq_keeps

theorem execVoteWrite_keeps {w : Part → Bool} {a s : State}
    (hw : [Part.regs, .busReply, .edgeQueue, .saturated, .reports, .irqs, .frames,
      .nextFrame, .rtk, .wak].all w = true)
    (h : a.Keeps w s) (m : Master) (vote : BitVec 16) :
    AnswerKeeps w a (execVoteWrite m vote s) := by
  unfold execVoteWrite
  repeat' first
    | with_reducible assumption
    | exact all_of hw rfl
    | with_reducible apply answerKeeps_next
    | intro _
    | with_reducible apply guardEdge_keeps
    | with_reducible apply State.setFld_keeps
    | with_reducible apply State.wakeRequest_keeps
    | with_reducible apply State.releaseHeld_keeps
    | with_reducible apply keeps_ite

theorem State.startChair_keeps {w : Part → Bool} {a s : State}
    (hw : [Part.regs, .saturated, .frames, .nextFrame, .wak, .irqs].all w = true) (h : a.Keeps w s)
    (top : Bool) :
    a.Keeps w (State.startChair s top) := by
  unfold State.startChair
  repeat' first
    | with_reducible assumption
    | exact all_of hw rfl
    | intro _
    | with_reducible apply State.setRing_keeps
    | with_reducible apply State.forwardChair_keeps

theorem execChairStart_keeps {w : Part → Bool} {a s : State}
    (hw : [Part.regs, .saturated, .frames, .nextFrame, .wak, .irqs].all w = true) (h : a.Keeps w s)
    (top : Bool) :
    AnswerKeeps w a (execChairStart top s) := by
  unfold execChairStart
  repeat' first
    | with_reducible assumption
    | exact all_of hw rfl
    | with_reducible apply answerKeeps_next
    | intro _
    | with_reducible apply State.startChair_keeps
    | with_reducible apply keeps_ite

theorem State.takeCommit_keeps {w : Part → Bool} {a s : State}
    (hw : [Part.regs, .saturated, .reports, .frames, .nextFrame, .rtk, .wak, .irqs].all w = true)
    (h : a.Keeps w s) (delayNs : Nat) :
    a.Keeps w (State.takeCommit s delayNs) := by
  unfold State.takeCommit
  repeat' first
    | with_reducible assumption
    | exact all_of hw rfl
    | intro _
    | with_reducible apply State.monEvent_keeps
    | with_reducible apply State.sendAbort_keeps
    | with_reducible apply State.fault_keeps
    | with_reducible apply State.bump_keeps
    | with_reducible apply State.postEvent_keeps
    | with_reducible apply State.setDeadline_keeps
    | with_reducible apply keeps_ite

theorem State.sendCommit_keeps {w : Part → Bool} {a s : State}
    (hw : [Part.regs, .saturated, .reports, .frames, .nextFrame, .rtk, .wak, .irqs].all w = true)
    (h : a.Keeps w s) :
    a.Keeps w (State.sendCommit s) := by
  unfold State.sendCommit
  repeat' first
    | with_reducible assumption
    | exact all_of hw rfl
    | intro _
    | with_reducible apply State.takeCommit_keeps
    | with_reducible apply State.emitChair_keeps
    | with_reducible apply keeps_ite

theorem State.completeChair_keeps {w : Part → Bool} {a s : State}
    (hw : [Part.regs, .saturated, .reports, .frames, .nextFrame, .rtk, .wak, .irqs].all w = true)
    (h : a.Keeps w s) (top : Bool) :
    a.Keeps w (State.completeChair s top) := by
  unfold State.completeChair
  repeat' first
    | with_reducible assumption
    | exact all_of hw rfl
    | intro _
    | with_reducible apply State.setRing_keeps
    | with_reducible apply State.sendCommit_keeps
    | with_reducible apply State.releaseRing_keeps
    | with_reducible apply State.setBit_keeps
    | with_reducible apply keeps_ite

theorem State.takeChair_keeps {w : Part → Bool} {a s : State}
    (hw : [Part.regs, .saturated, .reports, .frames, .nextFrame, .rtk, .wak, .irqs].all w = true)
    (h : a.Keeps w s) (c : Chair) :
    a.Keeps w (State.takeChair s c) := by
  unfold State.takeChair
  repeat' first
    | with_reducible assumption
    | exact all_of hw rfl
    | intro _
    | with_reducible apply State.seeChair_keeps
    | with_reducible apply State.completeChair_keeps
    | with_reducible apply State.setBit_keeps
    | with_reducible apply State.setRing_keeps
    | with_reducible apply State.forwardChair_keeps
    | with_reducible apply keeps_ite

theorem execChairReceived_keeps {w : Part → Bool} {a s : State}
    (hw : [Part.regs, .saturated, .reports, .frames, .nextFrame, .rtk, .wak, .irqs].all w = true)
    (h : a.Keeps w s) (payload : List Byte) (addrTop : Bool) (can : Bool) :
    AnswerKeeps w a (execChairReceived payload addrTop can s) := by
  unfold execChairReceived
  repeat' first
    | with_reducible assumption
    | exact all_of hw rfl
    | with_reducible apply answerKeeps_next
    | intro _
    | with_reducible apply State.monEvent_keeps
    | with_reducible apply State.bump_keeps
    | with_reducible apply State.takeChair_keeps
    | with_reducible apply State.adoptEpoch_keeps
    | with_reducible apply State.floodAbort_keeps
    | with_reducible apply keeps_ite
    | dsimp only
    | split

theorem execCommitReceived_keeps {w : Part → Bool} {a s : State}
    (hw : [Part.regs, .saturated, .reports, .frames, .nextFrame, .rtk, .wak, .irqs].all w = true)
    (h : a.Keeps w s) (payload : List Byte) (addrTop : Bool) (can : Bool) (residence : Nat) :
    AnswerKeeps w a (execCommitReceived payload addrTop can residence s) := by
  unfold execCommitReceived
  repeat' first
    | with_reducible assumption
    | exact all_of hw rfl
    | with_reducible apply answerKeeps_next
    | intro _
    | with_reducible apply State.bump_keeps
    | with_reducible apply State.adoptEpoch_keeps
    | with_reducible apply State.sendAbort_keeps
    | with_reducible apply State.fault_keeps
    | with_reducible apply State.emitChair_keeps
    | with_reducible apply State.takeCommit_keeps
    | with_reducible apply keeps_ite
    | dsimp only
    | split

theorem execAbortReceived_keeps {w : Part → Bool} {a s : State}
    (hw : [Part.regs, .saturated, .frames, .nextFrame, .rtk, .wak, .irqs].all w = true) (h : a.Keeps w s)
    (payload : List Byte) (addrTop : Bool) (can : Bool) :
    AnswerKeeps w a (execAbortReceived payload addrTop can s) := by
  unfold execAbortReceived
  repeat' first
    | with_reducible assumption
    | exact all_of hw rfl
    | with_reducible apply answerKeeps_next
    | intro _
    | with_reducible apply State.monEvent_keeps
    | with_reducible apply State.bump_keeps
    | with_reducible apply State.postEvent_keeps
    | with_reducible apply State.floodAbort_keeps
    | with_reducible apply State.adoptEpoch_keeps
    | with_reducible apply keeps_ite
    | dsimp only
    | split

theorem State.overrideNext_keeps {w : Part → Bool} {a s : State}
    (hw : [Part.regs, .saturated, .frames, .nextFrame, .wak, .reports, .rtk, .irqs].all w = true) (h : a.Keeps w s)
    (top : Bool) (c : Chair) :
    a.Keeps w (State.overrideNext s top c) := by
  unfold State.overrideNext
  repeat' first
    | with_reducible assumption
    | exact all_of hw rfl
    | intro _
    | with_reducible apply State.completeChair_keeps
    | with_reducible apply State.setBit_keeps
    | with_reducible apply State.bump_keeps
    | with_reducible apply State.emitChair_keeps
    | with_reducible apply State.seeChair_keeps
    | with_reducible apply keeps_ite
    | dsimp only
    | split

theorem State.stalledChair_keeps {w : Part → Bool} {a s : State}
    (hw : [Part.regs, .saturated, .frames, .nextFrame, .wak, .reports, .rtk, .irqs].all w = true) (h : a.Keeps w s)
    (top : Bool) :
    a.Keeps w (State.stalledChair s top) := by
  unfold State.stalledChair
  repeat' first
    | with_reducible assumption
    | exact all_of hw rfl
    | intro _
    | with_reducible apply State.overrideNext_keeps
    | with_reducible apply State.emitChair_keeps
    | with_reducible apply State.seeChair_keeps
    | with_reducible apply keeps_ite
    | dsimp only
    | split

theorem execChairTimeout_keeps {w : Part → Bool} {a s : State}
    (hw : [Part.regs, .saturated, .frames, .nextFrame, .wak, .reports, .rtk, .irqs].all w = true) (h : a.Keeps w s)
    (top : Bool) :
    AnswerKeeps w a (execChairTimeout top s) := by
  unfold execChairTimeout
  repeat' first
    | with_reducible assumption
    | exact all_of hw rfl
    | with_reducible apply answerKeeps_next
    | intro _
    | with_reducible apply State.stalledChair_keeps
    | with_reducible apply keeps_ite

theorem execLeaderTimeout_keeps {w : Part → Bool} {a s : State}
    (hw : [Part.regs, .saturated, .reports, .frames, .nextFrame, .wak, .irqs].all w = true)
    (h : a.Keeps w s) :
    AnswerKeeps w a (execLeaderTimeout s) := by
  unfold execLeaderTimeout
  repeat' first
    | with_reducible assumption
    | exact all_of hw rfl
    | with_reducible apply answerKeeps_next
    | intro _
    | with_reducible apply State.startChair_keeps
    | with_reducible apply State.fault_keeps
    | with_reducible apply State.setBit_keeps
    | with_reducible apply keeps_ite

theorem execMaxawakeExpiry_keeps {w : Part → Bool} {a s : State}
    (hw : [Part.regs, .saturated, .reports, .frames, .nextFrame, .rtk, .wak, .irqs].all w = true)
    (h : a.Keeps w s) :
    AnswerKeeps w a (execMaxawakeExpiry s) := by
  unfold execMaxawakeExpiry
  repeat' first
    | with_reducible assumption
    | exact all_of hw rfl
    | with_reducible apply answerKeeps_next
    | intro _
    | with_reducible apply State.releaseHeld_keeps
    | with_reducible apply State.bump_keeps
    | with_reducible apply State.fault_keeps
    | with_reducible apply State.setBit_keeps
    | with_reducible apply State.stalledChair_keeps
    | with_reducible apply keeps_ite
    | dsimp only
    | split
    | with_reducible apply keeps_wak

theorem State.beginEntry_keeps {w : Part → Bool} {a s : State}
    (hw : [Part.regs, .fab, .wak].all w = true) (h : a.Keeps w s) (target : Nat) :
    a.Keeps w (State.beginEntry s target) := by
  unfold State.beginEntry
  repeat' first
    | with_reducible assumption
    | exact all_of hw rfl
    | intro _
    | with_reducible apply State.beginTrans_keeps
    | with_reducible apply State.setPhase_keeps
    | with_reducible apply keeps_ite
    | dsimp only
    | split
    | with_reducible apply keeps_fab_wak

theorem execCommitDeadline_keeps {w : Part → Bool} {a s : State}
    (hw : [Part.regs, .fab, .wak].all w = true) (h : a.Keeps w s) :
    AnswerKeeps w a (execCommitDeadline s) := by
  unfold execCommitDeadline
  repeat' first
    | with_reducible assumption
    | exact all_of hw rfl
    | with_reducible apply answerKeeps_next
    | intro _
    | with_reducible apply State.beginEntry_keeps
    | with_reducible apply keeps_ite

theorem execFalseWakeTimeout_keeps {w : Part → Bool} {a s : State}
    (hw : [Part.regs, .saturated, .fab, .wak].all w = true) (h : a.Keeps w s) :
    AnswerKeeps w a (execFalseWakeTimeout s) := by
  unfold execFalseWakeTimeout
  repeat' first
    | with_reducible assumption
    | exact all_of hw rfl
    | with_reducible apply answerKeeps_next
    | intro _
    | with_reducible apply State.bump_keeps
    | with_reducible apply State.setBit_keeps
    | with_reducible apply State.beginEntry_keeps
    | with_reducible apply keeps_ite
    | dsimp only
    | split
    | with_reducible apply keeps_wak

theorem execDowakeTimer_keeps {w : Part → Bool} {a s : State}
    (hw : [Part.frames, .nextFrame, .wak].all w = true) (h : a.Keeps w s) :
    AnswerKeeps w a (execDowakeTimer s) := by
  unfold execDowakeTimer
  repeat' first
    | with_reducible assumption
    | exact all_of hw rfl
    | with_reducible apply answerKeeps_next
    | intro _
    | with_reducible apply State.injectFrame_keeps
    | with_reducible apply keeps_ite
    | dsimp only
    | split
    | with_reducible apply keeps_wak

end Sys2Proof.Machine
end

