-- ==== Sys2Proof/Laws/KeepsOwn.lean ====
section
/-!
SUPPORT. What the operations of Machine/Own.lean can change, and what they keep.
-/

namespace Sys2Proof.Machine

open Sys2Proof

theorem after_keeps {w : Part → Bool} {a s : State} {o : Host.Outcome State Fault Refusal}
    (ho : AnswerKeeps w a o) (h : a.Keeps w s) : a.Keeps w (after o s) := by
  unfold after
  split
  · exact ho.keeps _ rfl
  · exact h

theorem atIx_keeps {w : Part → Bool} {a s : State} (h : a.Keeps w s) {n : Nat}
    (o : Option (Fin n)) (f : Fin n → State) (hf : ∀ (x0 : Fin n), a.Keeps w (f x0)) :
    a.Keeps w (atIx s o f) := by
  unfold atIx
  repeat' first
    | with_reducible assumption
    | intro _
    | with_reducible apply hf
    | with_reducible apply keeps_ite
    | dsimp only
    | split

theorem doIf_keeps {w : Part → Bool} {a s : State} (h : a.Keeps w s) (c : Bool)
    (f : State → State) (hf : ∀ (x0 : State), a.Keeps w x0 → a.Keeps w (f x0)) :
    a.Keeps w (doIf c f s) := by
  unfold doIf
  repeat' first
    | with_reducible assumption
    | intro _
    | with_reducible apply hf
    | with_reducible apply keeps_ite

theorem lockBit_keeps {w : Part → Bool} {a s : State} (hw : [Part.regs].all w = true)
    (h : a.Keeps w s) (v : Word) (key : Nat) (b : Nat) :
    a.Keeps w (lockBit v key b s) := by
  unfold lockBit
  repeat' first
    | with_reducible assumption
    | exact all_of hw rfl
    | intro _
    | with_reducible apply doIf_keeps
    | with_reducible apply State.setBit_keeps

theorem ownSystem_keeps {w : Part → Bool} {a s : State}
    (hw : [Part.regs, .busReply, .saturated, .reports, .irqs, .flt].all w = true)
    (h : a.Keeps w s) (m : Master) (key : Nat) (v : Word) :
    a.Keeps w (ownSystem m key v s) := by
  unfold ownSystem
  repeat' first
    | with_reducible assumption
    | exact all_of hw rfl
    | with_reducible apply execFaultN1Release_keeps
    | with_reducible apply execCounterModeWrite_keeps
    | with_reducible apply execCounterSnapshot_keeps
    | with_reducible apply execOvfClear_keeps
    | with_reducible apply execWatchdogEnable_keeps
    | with_reducible apply execWatchdogKick_keeps
    | intro _
    | with_reducible apply lockBit_keeps
    | with_reducible apply doIf_keeps
    | with_reducible apply after_keeps
    | with_reducible apply atIx_keeps
    | with_reducible apply keeps_ite

theorem ownPorts_keeps {w : Part → Bool} {a s : State}
    (hw : [Part.regs, .busReply, .saturated, .traverse, .reports, .irqs, .flowFrames,
      .frames, .ports, .fab, .cls, .tm, .wak].all w = true)
    (h : a.Keeps w s) (m : Master) (key : Nat) (v : Word) :
    a.Keeps w (ownPorts m key v s) := by
  unfold ownPorts
  repeat' first
    | with_reducible assumption
    | exact all_of hw rfl
    | with_reducible apply mdioGo_keeps
    | with_reducible apply execPortEnable_keeps
    | with_reducible apply execPortDisable_keeps
    | with_reducible apply execTc10SleepRequest_keeps
    | intro _
    | with_reducible apply doIf_keeps
    | with_reducible apply after_keeps
    | with_reducible apply keeps_ite
    | with_reducible apply keeps_foldl

theorem ownPath_keeps {w : Part → Bool} {a s : State}
    (hw : [Part.regs, .busReply, .saturated, .reports, .irqs, .fab, .cls, .rtk, .tm].all w = true)
    (h : a.Keeps w s) (m : Master) (key : Nat) (v : Word) :
    a.Keeps w (ownPath m key v s) := by
  unfold ownPath
  repeat' first
    | with_reducible assumption
    | exact all_of hw rfl
    | with_reducible apply execSchedulerSwap_keeps
    | with_reducible apply flowCommandGo_keeps
    | with_reducible apply execRtkImageLoad_keeps
    | with_reducible apply execMeterFill_keeps
    | with_reducible apply execSelcfgWrite_keeps
    | intro _
    | with_reducible apply doIf_keeps
    | with_reducible apply after_keeps
    | with_reducible apply State.setFld_keeps
    | with_reducible apply atIx_keeps
    | with_reducible apply keeps_ite

theorem ownTime_keeps {w : Part → Bool} {a s : State}
    (hw : [Part.tim, .regs, .busReply, .saturated, .reports, .irqs, .tm].all w = true)
    (h : a.Keeps w s) (m : Master) (key : Nat) (v : Word) :
    a.Keeps w (ownTime m key v s) := by
  unfold ownTime
  repeat' first
    | with_reducible assumption
    | exact all_of hw rfl
    | with_reducible apply execTimeSnapshot_keeps
    | with_reducible apply execTimeConvert_keeps
    | with_reducible apply execDomainEnable_keeps
    | with_reducible apply execDomainDisable_keeps
    | with_reducible apply execTimeSampleSubmit_keeps
    | with_reducible apply execTimeSet_keeps
    | intro _
    | with_reducible apply doIf_keeps
    | with_reducible apply after_keeps
    | with_reducible apply atIx_keeps
    | with_reducible apply keeps_ite

theorem ownCipher_keeps {w : Part → Bool} {a s : State}
    (hw : [Part.regs, .mem, .busReply, .saturated, .reports, .irqs, .eccBad, .tm,
      .cip, .vlt, .hbr].all w = true)
    (h : a.Keeps w s) (m : Master) (key : Nat) (v : Word) :
    a.Keeps w (ownCipher m key v s) := by
  unfold ownCipher
  repeat' first
    | with_reducible assumption
    | exact all_of hw rfl
    | with_reducible apply execKeyClear_keeps
    | with_reducible apply execSaEnable_keeps
    | with_reducible apply execJobClaim_keeps
    | with_reducible apply execJobAbort_keeps
    | with_reducible apply execJobRelease_keeps
    | with_reducible apply execJobGo_keeps
    | intro _
    | with_reducible apply doIf_keeps
    | with_reducible apply after_keeps
    | with_reducible apply atIx_keeps
    | with_reducible apply State.vaultGo_keeps
    | with_reducible apply keeps_ite

theorem ownChannel_keeps {w : Part → Bool} {a s : State}
    (hw : [Part.regs, .busReply, .edgeQueue, .saturated, .reports, .irqs, .frames,
      .nextFrame, .gwy].all w = true)
    (h : a.Keeps w s) (m : Master) (ch : GwyChan) (v : Word) :
    a.Keeps w (ownChannel m ch v s) := by
  unfold ownChannel
  repeat' first
    | with_reducible assumption
    | exact all_of hw rfl
    | with_reducible apply execGwyChannelEnable_keeps
    | with_reducible apply execGwyChannelDisable_keeps
    | intro _
    | with_reducible apply after_keeps
    | with_reducible apply doIf_keeps
    | with_reducible apply keeps_ite

theorem ownGateway_keeps {w : Part → Bool} {a s : State}
    (hw : [Part.regs, .busReply, .edgeQueue, .saturated, .reports, .irqs, .frames,
      .nextFrame, .gwy].all w = true)
    (h : a.Keeps w s) (m : Master) (key : Nat) (v : Word) :
    a.Keeps w (ownGateway m key v s) := by
  unfold ownGateway
  repeat' first
    | with_reducible assumption
    | exact all_of hw rfl
    | intro _
    | with_reducible apply atIx_keeps
    | with_reducible apply ownChannel_keeps

theorem ownBridge_keeps {w : Part → Bool} {a s : State}
    (hw : [Part.regs, .busReply, .saturated, .reports, .irqs, .hbr].all w = true)
    (h : a.Keeps w s) (m : Master) (key : Nat) (v : Word) :
    a.Keeps w (ownBridge m key v s) := by
  unfold ownBridge
  repeat' first
    | with_reducible assumption
    | exact all_of hw rfl
    | with_reducible apply execFence_keeps
    | with_reducible apply execSignalTrigger_keeps
    | with_reducible apply execRingTailWrite_keeps
    | intro _
    | with_reducible apply doIf_keeps
    | with_reducible apply after_keeps
    | with_reducible apply atIx_keeps
    | with_reducible apply keeps_ite
    | dsimp only
    | split
    | with_reducible exact Nat.le_add_right _ _
    | with_reducible refine keeps_free _ ?_ ?_

theorem ownUnit_keeps {w : Part → Bool} {a s : State}
    (hw : [Part.regs, .busReply, .saturated, .reports, .irqs, .cpx].all w = true)
    (h : a.Keeps w s) (m : Master) (u : Fin 6) (v : Word) :
    a.Keeps w (ownUnit m u v s) := by
  unfold ownUnit
  repeat' first
    | with_reducible assumption
    | exact all_of hw rfl
    | with_reducible apply execPairRun_keeps
    | intro _
    | with_reducible apply after_keeps
    | with_reducible apply State.unitFlags_keeps
    | with_reducible apply State.stopUnit_keeps
    | with_reducible apply keeps_ite

theorem ownCompute_keeps {w : Part → Bool} {a s : State}
    (hw : [Part.regs, .busReply, .saturated, .reports, .irqs, .vlt, .cpx].all w = true)
    (h : a.Keeps w s) (m : Master) (key : Nat) (v : Word) :
    a.Keeps w (ownCompute m key v s) := by
  unfold ownCompute
  repeat' first
    | with_reducible assumption
    | exact all_of hw rfl
    | with_reducible apply execDebugOpen_keeps
    | with_reducible apply execCheckpointCommit_keeps
    | with_reducible apply execSoftwareInterrupt_keeps
    | intro _
    | with_reducible apply lockBit_keeps
    | with_reducible apply doIf_keeps
    | with_reducible apply after_keeps
    | with_reducible apply atIx_keeps
    | with_reducible apply ownUnit_keeps
    | with_reducible apply keeps_ite

theorem ownPower_keeps {w : Part → Bool} {a s : State}
    (hw : [Part.rtc, .regs, .busReply, .edgeQueue, .islands, .saturated, .reports,
      .irqs, .flowFrames, .frames, .nextFrame, .fab, .rtk, .tm, .cip, .power,
      .wak].all w = true)
    (h : a.Keeps w s) (m : Master) (key : Nat) (v : Word) :
    a.Keeps w (ownPower m key v s) := by
  unfold ownPower
  repeat' first
    | with_reducible assumption
    | exact all_of hw rfl
    | with_reducible apply execPwcImageLoad_keeps
    | with_reducible apply execStateRequestPewter_keeps
    | with_reducible apply execStateRequestIvory_keeps
    | with_reducible apply execVoteWrite_keeps
    | with_reducible apply execRtcSet_keeps
    | with_reducible apply execWakImageLoad_keeps
    | with_reducible apply execThetaWrite_keeps
    | intro _
    | with_reducible apply doIf_keeps
    | with_reducible apply after_keeps
    | with_reducible apply atIx_keeps
    | with_reducible apply keeps_ite

theorem ownUpdate_keeps {w : Part → Bool} {a s : State}
    (hw : [Part.regs, .mem, .busReply, .saturated, .reports, .bbQueue, .bbLost, .irqs,
      .eccBad, .vlt, .boot].all w = true)
    (h : a.Keeps w s) (m : Master) (ch : Fin 3) (v : Word) :
    a.Keeps w (ownUpdate m ch v s) := by
  unfold ownUpdate
  repeat' first
    | with_reducible assumption
    | exact all_of hw rfl
    | with_reducible apply execOpenImage_keeps
    | with_reducible apply execStream_keeps
    | with_reducible apply execFinish_keeps
    | with_reducible apply execArm_keeps
    | with_reducible apply execSessionAbort_keeps
    | intro _
    | with_reducible apply after_keeps
    | with_reducible apply keeps_ite
    | with_reducible apply keeps_dite
    | dsimp only
    | split

theorem ownBoot_keeps {w : Part → Bool} {a s : State}
    (hw : [Part.regs, .mem, .busReply, .saturated, .reports, .bbQueue, .bbLost, .irqs,
      .eccBad, .vlt, .boot, .box].all w = true)
    (h : a.Keeps w s) (m : Master) (key : Nat) (v : Word) :
    a.Keeps w (ownBoot m key v s) := by
  unfold ownBoot
  repeat' first
    | with_reducible assumption
    | exact all_of hw rfl
    | with_reducible apply execMramWrite_keeps
    | with_reducible apply execBbExport_keeps
    | with_reducible apply execBbClear_keeps
    | with_reducible apply execSoftwareRecord_keeps
    | with_reducible apply execUpdateCommit_keeps
    | with_reducible apply execBootAbort_keeps
    | intro _
    | with_reducible apply after_keeps
    | with_reducible apply doIf_keeps
    | with_reducible apply atIx_keeps
    | with_reducible apply ownUpdate_keeps
    | with_reducible apply keeps_ite

theorem State.ownWrite_keeps {w : Part → Bool} {a s : State}
    (hw : [Part.tim, .rtc, .regs, .live, .mem, .busReply, .edgeQueue, .islands,
      .quiescing, .commits, .saturated, .traverse, .reports, .bbQueue, .bbLost,
      .irqs, .flowFrames, .frames, .nextFrame, .ports, .fab, .cls, .rtk, .eccBad,
      .tm, .cip, .vlt, .power, .wak, .boot, .box, .gwy, .hbr, .cpx, .flt].all w = true)
    (h : a.Keeps w s) (m : Master) (key : Nat) (v : Word) :
    a.Keeps w (State.ownWrite s m key v) := by
  unfold State.ownWrite
  repeat' first
    | with_reducible assumption
    | exact all_of hw rfl
    | with_reducible apply execBlkEnable_keeps
    | with_reducible apply execBlkQuiesceStart_keeps
    | with_reducible apply commitRow_keeps
    | intro _
    | with_reducible apply after_keeps
    | with_reducible apply doIf_keeps
    | with_reducible apply ownSystem_keeps
    | with_reducible apply ownPorts_keeps
    | with_reducible apply ownPath_keeps
    | with_reducible apply ownTime_keeps
    | with_reducible apply ownCipher_keeps
    | with_reducible apply ownGateway_keeps
    | with_reducible apply ownBridge_keeps
    | with_reducible apply ownCompute_keeps
    | with_reducible apply ownPower_keeps
    | with_reducible apply ownBoot_keeps
    | with_reducible apply keeps_ite
    | with_reducible apply keeps_dite

end Sys2Proof.Machine
end

