-- ==== Sys2Proof/Laws/KeepsAccess.lean ====
section
/-!
SUPPORT. What the operations of Machine/Access.lean can change, and what they keep.
-/

namespace Sys2Proof.Machine

open Sys2Proof

theorem State.heldBack_keeps {w : Part → Bool} {a s : State} (hw : [Part.regs].all w = true)
    (h : a.Keeps w s) (m : Master) (key : Nat) (v : Word) :
    ∀ t, (State.heldBack s m key v) = some t → a.Keeps w t := by
  intro t e
  unfold State.heldBack at e
  split at e
  · cases e; exact State.setBit_keeps (all_of hw rfl) h _ _ _
  · split at e
    · cases e; exact h
    · split at e
      · cases e; exact State.deny_keeps (all_of hw rfl) h _ _
      · split at e
        · cases e; exact State.deny_keeps (all_of hw rfl) h _ _
        · cases e

theorem State.settingFlags_keeps {w : Part → Bool} {a s : State}
    (hw : [Part.regs, .reports].all w = true) (h : a.Keeps w s) (key : Nat) :
    a.Keeps w (State.settingFlags s key) := by
  unfold State.settingFlags
  repeat' first
    | with_reducible assumption
    | exact all_of hw rfl
    | intro _
    | with_reducible apply State.setGstat_keeps
    | with_reducible apply keeps_ite

theorem State.setEip_keeps {w : Part → Bool} {a s : State} (hw : [Part.cpx].all w = true)
    (h : a.Keeps w s) (key : Nat) (v : Word) :
    a.Keeps w (State.setEip s key v) := by
  unfold State.setEip
  repeat' first
    | with_reducible assumption
    | exact all_of hw rfl
    | intro _
    | with_reducible apply keeps_ite
    | dsimp only
    | split
    | with_reducible apply keeps_cpx

theorem State.withdraw_keeps {w : Part → Bool} {a s : State} (hw : [Part.irqs].all w = true)
    (h : a.Keeps w s) (key : Nat) :
    a.Keeps w (State.withdraw s key) := by
  unfold State.withdraw
  repeat' first
    | with_reducible assumption
    | exact all_of hw rfl
    | intro _
    | with_reducible apply keeps_ite
    | dsimp only
    | split
    | with_reducible apply keeps_irqs

theorem State.beforeWrite_keeps {w : Part → Bool} {a s : State} (hw : [Part.tm].all w = true)
    (h : a.Keeps w s) (key : Nat) :
    a.Keeps w (State.beforeWrite s key) := by
  unfold State.beforeWrite
  repeat' first
    | with_reducible assumption
    | exact all_of hw rfl
    | intro _
    | with_reducible apply State.settleCredits_keeps
    | with_reducible apply keeps_ite

theorem State.afterWrite_keeps {w : Part → Bool} {a s : State}
    (hw : [Part.tim, .regs, .islands, .saturated, .reports, .irqs, .flowFrames,
      .frames, .nextFrame, .ports, .fab, .tm, .cip, .hbr, .cpx].all w = true)
    (h : a.Keeps w s) (key : Nat) (was : Word) (v : Word) :
    a.Keeps w (State.afterWrite s key was v) := by
  unfold State.afterWrite
  repeat' first
    | with_reducible assumption
    | exact all_of hw rfl
    | intro _
    | with_reducible apply State.withdraw_keeps
    | with_reducible apply State.setEip_keeps
    | with_reducible apply State.settingFlags_keeps
    | with_reducible apply atIx_keeps
    | with_reducible apply State.checkGm_keeps
    | with_reducible apply State.refreshWindows_keeps
    | with_reducible apply State.gatePreempt_keeps
    | with_reducible apply State.setTmPort_keeps
    | with_reducible apply State.setFld_keeps
    | with_reducible apply State.recheckFlow_keeps
    | with_reducible apply State.followPewter_keeps
    | with_reducible apply keeps_ite
    | with_reducible apply keeps_foldl
    | dsimp only
    | split
    | with_reducible apply keeps_hbr

theorem State.writeWord_keeps {w : Part → Bool} {a s : State}
    (hw : [Part.tim, .rtc, .regs, .live, .mem, .busReply, .edgeQueue, .islands,
      .quiescing, .commits, .saturated, .traverse, .reports, .bbQueue, .bbLost,
      .irqs, .flowFrames, .frames, .nextFrame, .ports, .fab, .cls, .rtk, .eccBad,
      .tm, .cip, .vlt, .power, .wak, .boot, .box, .gwy, .hbr, .cpx, .flt].all w = true)
    (h : a.Keeps w s) (m : Master) (key : Nat) (v : Word) :
    a.Keeps w (State.writeWord s m key v) := by
  unfold State.writeWord
  repeat' first
    | with_reducible assumption
    | exact all_of hw rfl
    | intro _
    | (rename_i e; exact State.heldBack_keeps (all_of hw rfl) h _ _ _ _ e)
    | with_reducible apply State.afterWrite_keeps
    | with_reducible apply State.ownWrite_keeps
    | with_reducible apply State.regWrite_keeps
    | with_reducible apply State.beforeWrite_keeps
    | with_reducible apply State.deny_keeps
    | with_reducible apply keeps_ite
    | dsimp only
    | split

theorem State.writeBit_keeps {w : Part → Bool} {a s : State}
    (hw : [Part.tim, .rtc, .regs, .live, .mem, .busReply, .edgeQueue, .islands,
      .quiescing, .commits, .saturated, .traverse, .reports, .bbQueue, .bbLost,
      .irqs, .flowFrames, .frames, .nextFrame, .ports, .fab, .cls, .rtk, .eccBad,
      .tm, .cip, .vlt, .power, .wak, .boot, .box, .gwy, .hbr, .cpx, .flt].all w = true)
    (h : a.Keeps w s) (m : Master) (key : Nat) (b : Nat) (v : Bool) :
    a.Keeps w (State.writeBit s m key b v) := by
  unfold State.writeBit
  repeat' first
    | with_reducible assumption
    | exact all_of hw rfl
    | intro _
    | (rename_i e; exact State.heldBack_keeps (all_of hw rfl) h _ _ _ _ e)
    | with_reducible apply State.deny_keeps
    | with_reducible apply State.afterWrite_keeps
    | with_reducible apply State.ownWrite_keeps
    | with_reducible apply State.setBit_keeps
    | with_reducible apply State.wr_keeps
    | with_reducible apply State.beforeWrite_keeps
    | with_reducible apply doIf_keeps
    | with_reducible apply keeps_ite
    | dsimp only
    | split

theorem State.applyWrite_keeps {w0 : Part → Bool} {a s : State}
    (hw : [Part.tim, .rtc, .regs, .live, .mem, .busReply, .edgeQueue, .islands,
      .quiescing, .commits, .saturated, .traverse, .reports, .bbQueue, .bbLost,
      .irqs, .flowFrames, .frames, .nextFrame, .ports, .fab, .cls, .rtk, .eccBad,
      .tm, .cip, .vlt, .power, .wak, .boot, .box, .gwy, .hbr, .cpx, .flt].all w0 = true)
    (h : a.Keeps w0 s) (w : BusWrite) :
    a.Keeps w0 (State.applyWrite s w) := by
  unfold State.applyWrite
  repeat' first
    | with_reducible assumption
    | exact all_of hw rfl
    | intro _
    | with_reducible apply State.writeBit_keeps
    | with_reducible apply State.writeWord_keeps
    | with_reducible apply keeps_ite
    | dsimp only
    | split

theorem State.edgeApply_keeps {w : Part → Bool} {a s : State}
    (hw : [Part.tim, .rtc, .regs, .live, .mem, .busReply, .edgeQueue, .aonQueue,
      .islands, .quiescing, .commits, .saturated, .traverse, .reports, .bbQueue,
      .bbLost, .irqs, .flowFrames, .frames, .nextFrame, .ports, .fab, .cls, .rtk,
      .eccBad, .tm, .cip, .vlt, .power, .wak, .boot, .box, .gwy, .hbr, .cpx, .flt].all w = true)
    (h : a.Keeps w s) :
    a.Keeps w (State.edgeApply s) := by
  unfold State.edgeApply
  split
  · exact h
  next x rest e =>
    apply keeps_ite
    · exact keeps_edgeQueue_aonQueue (all_of hw rfl) _ _ h
    · exact keeps_edgeQueue (all_of hw rfl) _
        (State.applyWrite_keeps (all_of hw rfl) (keeps_edgeQueue (all_of hw rfl) _ h) x)

theorem State.aonApply_keeps {w : Part → Bool} {a s : State}
    (hw : [Part.tim, .rtc, .regs, .live, .mem, .busReply, .edgeQueue, .aonQueue,
      .islands, .quiescing, .commits, .saturated, .traverse, .reports, .bbQueue,
      .bbLost, .irqs, .flowFrames, .frames, .nextFrame, .ports, .fab, .cls, .rtk,
      .eccBad, .tm, .cip, .vlt, .power, .wak, .boot, .box, .gwy, .hbr, .cpx, .flt].all w = true)
    (h : a.Keeps w s) :
    a.Keeps w (State.aonApply s) := by
  unfold State.aonApply
  split
  · exact h
  next x rest e =>
    exact keeps_edgeQueue_aonQueue (all_of hw rfl) _ _ (State.applyWrite_keeps (all_of hw rfl)
      (keeps_edgeQueue_aonQueue (all_of hw rfl) _ _ h) x)

theorem State.deliver_keeps {w0 : Part → Bool} {a s : State}
    (hw : [Part.tim, .rtc, .regs, .live, .mem, .busReply, .edgeQueue, .islands,
      .quiescing, .commits, .saturated, .traverse, .reports, .bbQueue, .bbLost,
      .irqs, .flowFrames, .frames, .nextFrame, .ports, .fab, .cls, .rtk, .eccBad,
      .tm, .cip, .vlt, .power, .wak, .boot, .box, .gwy, .hbr, .cpx, .flt].all w0 = true)
    (h : a.Keeps w0 s) (w : BusWrite) :
    a.Keeps w0 (State.deliver s w) := by
  unfold State.deliver
  repeat' first
    | with_reducible assumption
    | exact all_of hw rfl
    | intro _
    | with_reducible apply State.applyWrite_keeps
    | with_reducible apply keeps_ite
    | dsimp only
    | split
    | with_reducible apply keeps_edgeQueue

theorem State.catchUp_keeps {w : Part → Bool} {a s : State}
    (hw : [Part.tim, .rtc, .regs, .live, .mem, .busReply, .edgeQueue, .aonQueue,
      .islands, .quiescing, .commits, .saturated, .traverse, .reports, .bbQueue,
      .bbLost, .irqs, .flowFrames, .frames, .nextFrame, .ports, .fab, .cls, .rtk,
      .eccBad, .tm, .cip, .vlt, .power, .wak, .boot, .box, .gwy, .hbr, .cpx, .flt].all w = true)
    (h : a.Keeps w s) (m : Master) (b : Nat) :
    a.Keeps w (State.catchUp s m b) := by
  unfold State.catchUp
  repeat' first
    | with_reducible assumption
    | exact all_of hw rfl
    | intro _
    | with_reducible apply State.edgeApply_keeps
    | with_reducible apply keeps_ite
    | with_reducible apply keeps_foldl

theorem State.readWord_keeps {w : Part → Bool} {a s : State} (hw : [Part.cip].all w = true)
    (h : a.Keeps w s) (key : Nat) :
    a.Keeps w (State.readWord s key).2 := by
  unfold State.readWord
  repeat' first
    | with_reducible assumption
    | exact all_of hw rfl
    | intro _
    | with_reducible apply State.draw_keeps
    | with_reducible apply keeps_ite
    | with_reducible refine keeps_of_snd ?_ (by with_reducible assumption)
    | with_reducible refine keeps_of_fst ?_ (by with_reducible assumption)
    | dsimp only
    | split
    | with_reducible apply keeps_cip

theorem State.write_keeps {w : Part → Bool} {a0 s : State}
    (hw : [Part.tim, .rtc, .regs, .live, .mem, .busReply, .edgeQueue, .islands,
      .quiescing, .commits, .saturated, .traverse, .reports, .bbQueue, .bbLost,
      .irqs, .flowFrames, .frames, .nextFrame, .ports, .fab, .cls, .rtk, .eccBad,
      .tm, .cip, .vlt, .power, .wak, .boot, .box, .gwy, .hbr, .cpx, .flt].all w = true)
    (h : a0.Keeps w s) (m : Master) (a : Nat) (size : AccessSize) (data : BitVec 64) :
    a0.Keeps w (State.write s m a size data) := by
  unfold State.write
  repeat' first
    | with_reducible assumption
    | exact all_of hw rfl
    | intro _
    | with_reducible apply State.busError_keeps
    | with_reducible apply State.deliver_keeps
    | with_reducible apply State.reply_keeps
    | with_reducible apply State.outbound_keeps
    | with_reducible apply State.wrMem_keeps
    | with_reducible apply keeps_ite
    | dsimp only
    | split

theorem State.read_keeps {w : Part → Bool} {a0 s : State}
    (hw : [Part.tim, .rtc, .regs, .live, .mem, .busReply, .edgeQueue, .aonQueue,
      .islands, .quiescing, .commits, .saturated, .traverse, .reports, .bbQueue,
      .bbLost, .irqs, .flowFrames, .frames, .nextFrame, .ports, .fab, .cls, .rtk,
      .eccBad, .tm, .cip, .vlt, .power, .wak, .boot, .box, .gwy, .hbr, .cpx, .flt].all w = true)
    (h : a0.Keeps w s) (m : Master) (a : Nat) (size : AccessSize) :
    a0.Keeps w (State.read s m a size) := by
  unfold State.read
  repeat' first
    | with_reducible assumption
    | exact all_of hw rfl
    | intro _
    | with_reducible apply State.busError_keeps
    | with_reducible apply State.catchUp_keeps
    | with_reducible apply State.readWord_keeps
    | with_reducible apply State.reply_keeps
    | with_reducible apply State.outbound_keeps
    | with_reducible apply State.badRead_keeps
    | with_reducible apply keeps_ite
    | with_reducible refine keeps_of_snd ?_ (by with_reducible assumption)
    | with_reducible refine keeps_of_fst ?_ (by with_reducible assumption)
    | dsimp only
    | split
    | with_reducible apply keeps_busReply

end Sys2Proof.Machine
end

