-- ==== Sys2Proof/Laws/KeepsInbound.lean ====
section
/-!
SUPPORT. What the operations of Machine/Inbound.lean can change, and what they keep.
-/

namespace Sys2Proof.Machine

open Sys2Proof

theorem State.readPiece_keeps {w : Part → Bool} {a s : State}
    (hw : [Part.tim, .rtc, .regs, .live, .mem, .busReply, .edgeQueue, .aonQueue,
      .islands, .quiescing, .commits, .saturated, .traverse, .reports, .bbQueue,
      .bbLost, .irqs, .flowFrames, .frames, .nextFrame, .ports, .fab, .cls, .rtk,
      .eccBad, .tm, .cip, .vlt, .power, .wak, .boot, .box, .gwy, .hbr, .cpx, .flt].all w = true)
    (h : a.Keeps w s) (m : Master) (p : Piece) :
    a.Keeps w (State.readPiece s m p).2 := by
  unfold State.readPiece
  repeat' first
    | with_reducible assumption
    | exact all_of hw rfl
    | intro _
    | with_reducible apply State.busRead_keeps
    | with_reducible apply State.read_keeps
    | with_reducible apply keeps_ite
    | with_reducible refine keeps_of_snd ?_ (by with_reducible assumption)
    | with_reducible refine keeps_of_fst ?_ (by with_reducible assumption)
    | dsimp only
    | split

theorem State.complete_keeps {w : Part → Bool} {a s : State} (hw : [Part.hbr].all w = true)
    (h : a.Keeps w s) (write : Bool) (urgent : Bool) (rid : Nat) (status : Nat) (data : List Byte)
    :
    a.Keeps w (State.complete s write urgent rid status data) := by
  unfold State.complete
  repeat' first
    | with_reducible assumption
    | exact all_of hw rfl
    | intro _
    | with_reducible apply keeps_ite
    | dsimp only
    | split
    | with_reducible apply keeps_hbr

theorem State.refuseInbound_keeps {w : Part → Bool} {a s : State}
    (hw : [Part.regs, .saturated, .reports, .hbr].all w = true) (h : a.Keeps w s) (q : InboundId)
    (type : Nat) (status : Nat) (win : Nat) (addr : Nat) (indigo : Bool) :
    a.Keeps w (State.refuseInbound s q type status win addr indigo) := by
  unfold State.refuseInbound
  repeat' first
    | with_reducible assumption
    | exact all_of hw rfl
    | intro _
    | with_reducible apply State.complete_keeps
    | with_reducible apply State.hbrLog_keeps
    | with_reducible apply keeps_ite
    | dsimp only
    | split
    | with_reducible apply keeps_hbr

theorem State.runInbound_keeps {w : Part → Bool} {a s : State}
    (hw : [Part.tim, .rtc, .regs, .live, .mem, .busReply, .edgeQueue, .aonQueue,
      .islands, .quiescing, .commits, .saturated, .traverse, .reports, .bbQueue,
      .bbLost, .irqs, .flowFrames, .frames, .nextFrame, .ports, .fab, .cls, .rtk,
      .eccBad, .tm, .cip, .vlt, .power, .wak, .boot, .box, .gwy, .hbr, .cpx, .flt].all w = true)
    (h : a.Keeps w s) (m : Master) (q : InboundId) (x : Window) (cells : List (Nat × Byte))
    (ps : List Piece) :
    a.Keeps w (State.runInbound s m q x cells ps) := by
  unfold State.runInbound
  repeat' first
    | with_reducible assumption
    | exact all_of hw rfl
    | intro _
    | with_reducible apply State.write_keeps
    | with_reducible apply State.readPiece_keeps
    | with_reducible apply State.complete_keeps
    | with_reducible apply keeps_ite
    | with_reducible apply keeps_foldl
    | with_reducible apply keeps_foldl_fst
    | with_reducible apply keeps_foldl_snd

theorem execInboundRequest_keeps {w : Part → Bool} {a s : State}
    (hw : [Part.tim, .rtc, .regs, .live, .mem, .busReply, .edgeQueue, .aonQueue,
      .islands, .quiescing, .commits, .saturated, .traverse, .reports, .bbQueue,
      .bbLost, .irqs, .flowFrames, .frames, .nextFrame, .ports, .fab, .cls, .rtk,
      .eccBad, .tm, .cip, .vlt, .power, .wak, .boot, .box, .gwy, .hbr, .cpx, .flt].all w = true)
    (h : a.Keeps w s) (write : Bool) (urgent : Bool) (bar2 : Bool) (rid : BitVec 16)
    (addr : BitVec 64) (bytes : List (Option Byte)) :
    AnswerKeeps w a (execInboundRequest write urgent bar2 rid addr bytes s) := by
  unfold execInboundRequest
  repeat' first
    | with_reducible assumption
    | exact all_of hw rfl
    | with_reducible apply answerKeeps_next
    | intro _
    | with_reducible apply State.monEvent_keeps
    | with_reducible apply State.bump_keeps
    | with_reducible apply State.refuseInbound_keeps
    | with_reducible apply State.busError_keeps
    | with_reducible apply State.runInbound_keeps
    | with_reducible apply keeps_ite
    | dsimp only
    | split

end Sys2Proof.Machine
end

