-- ==== Sys2Proof/Laws/KeepsLink.lean ====
section
/-!
SUPPORT. What the operations of Machine/Link.lean can change, and what they keep.
-/

namespace Sys2Proof.Machine

open Sys2Proof

theorem State.setPhyStale_keeps {w : Part → Bool} {a s : State} (hw : [Part.regs].all w = true)
    (h : a.Keeps w s) (v : Bool) :
    a.Keeps w (State.setPhyStale s v) := by
  unfold State.setPhyStale
  repeat' first
    | with_reducible assumption
    | exact all_of hw rfl
    | intro _
    | with_reducible apply State.setBit_keeps
    | with_reducible apply keeps_ite
    | with_reducible apply keeps_foldl

theorem State.applyHeld_keeps {w : Part → Bool} {a s : State}
    (hw : [Part.regs, .saturated, .traverse, .irqs, .flowFrames, .frames, .nextFrame,
      .ports, .fab, .cls, .tm, .wak].all w = true)
    (h : a.Keeps w s) (y1 : HeldEvent) :
    a.Keeps w (State.applyHeld s y1) := by
  unfold State.applyHeld
  repeat' first
    | with_reducible assumption
    | exact all_of hw rfl
    | intro _
    | with_reducible apply State.linkCameUp_keeps
    | with_reducible apply State.linkWentDown_keeps
    | with_reducible apply State.releaseRetrained_keeps
    | with_reducible apply State.endRx_keeps
    | with_reducible apply State.pfcArrives_keeps
    | with_reducible apply State.pauseArrives_keeps
    | with_reducible apply keeps_ite
    | dsimp only
    | split

theorem State.startRetrain_keeps {w : Part → Bool} {a s : State}
    (hw : [Part.tim, .regs, .traverse].all w = true) (h : a.Keeps w s) :
    a.Keeps w (State.startRetrain s) := by
  unfold State.startRetrain
  repeat' first
    | with_reducible assumption
    | exact all_of hw rfl
    | intro _
    | with_reducible apply State.takeFree_keeps
    | with_reducible apply State.setPhyStale_keeps
    | with_reducible apply keeps_ite
    | with_reducible refine keeps_of_snd ?_ (by with_reducible assumption)
    | with_reducible refine keeps_of_fst ?_ (by with_reducible assumption)
    | dsimp only
    | split
    | with_reducible apply keeps_tim_traverse

theorem execTraverseFlitReplay_keeps {w : Part → Bool} {a s : State}
    (hw : [Part.tim, .regs, .traverse].all w = true) (h : a.Keeps w s) :
    AnswerKeeps w a (execTraverseFlitReplay s) := by
  unfold execTraverseFlitReplay
  repeat' first
    | with_reducible assumption
    | exact all_of hw rfl
    | with_reducible apply answerKeeps_next
    | intro _
    | with_reducible apply State.startRetrain_keeps
    | with_reducible apply keeps_ite
    | dsimp only
    | split
    | with_reducible apply keeps_traverse

theorem execTraverseRetrainStart_keeps {w : Part → Bool} {a s : State}
    (hw : [Part.tim, .regs, .traverse].all w = true) (h : a.Keeps w s) :
    AnswerKeeps w a (execTraverseRetrainStart s) := by
  unfold execTraverseRetrainStart
  repeat' first
    | with_reducible assumption
    | exact all_of hw rfl
    | with_reducible apply answerKeeps_next
    | intro _
    | with_reducible apply State.startRetrain_keeps

theorem execTraverseRetrainDone_keeps {w : Part → Bool} {a s : State}
    (hw : [Part.tim, .regs, .saturated, .traverse, .reports, .irqs, .flowFrames,
      .frames, .nextFrame, .ports, .fab, .cls, .tm, .wak].all w = true)
    (h : a.Keeps w s) :
    AnswerKeeps w a (execTraverseRetrainDone s) := by
  unfold execTraverseRetrainDone
  repeat' first
    | with_reducible assumption
    | exact all_of hw rfl
    | with_reducible apply answerKeeps_next
    | intro _
    | with_reducible apply State.fault_keeps
    | with_reducible apply State.applyHeld_keeps
    | with_reducible apply State.setPhyStale_keeps
    | with_reducible apply keeps_ite
    | with_reducible apply keeps_foldl
    | dsimp only
    | split
    | with_reducible apply keeps_tim_traverse

theorem execTraverseRetrainTimeout_keeps {w : Part → Bool} {a s : State}
    (hw : [Part.traverse].all w = true) (h : a.Keeps w s) :
    AnswerKeeps w a (execTraverseRetrainTimeout s) := by
  unfold execTraverseRetrainTimeout
  repeat' first
    | with_reducible assumption
    | exact all_of hw rfl
    | with_reducible apply answerKeeps_next
    | intro _
    | with_reducible apply keeps_ite
    | dsimp only
    | split
    | with_reducible apply keeps_traverse

theorem State.dropHeld_keeps {w : Part → Bool} {a s : State}
    (hw : [Part.traverse, .frames].all w = true) (h : a.Keeps w s) :
    a.Keeps w (State.dropHeld s) := by
  unfold State.dropHeld
  repeat' first
    | with_reducible assumption
    | exact all_of hw rfl
    | intro _
    | with_reducible apply keeps_ite
    | dsimp only
    | split
    | with_reducible apply keeps_traverse_frames

theorem execTraverseLossTimeout_keeps {w : Part → Bool} {a s : State}
    (hw : [Part.edgeQueue, .traverse, .reports, .frames].all w = true) (h : a.Keeps w s) :
    AnswerKeeps w a (execTraverseLossTimeout s) := by
  unfold execTraverseLossTimeout
  repeat' first
    | with_reducible assumption
    | exact all_of hw rfl
    | with_reducible apply answerKeeps_next
    | intro _
    | with_reducible apply State.dropHeld_keeps
    | with_reducible apply State.fault_keeps
    | with_reducible apply keeps_ite
    | dsimp only
    | split
    | with_reducible apply keeps_edgeQueue_traverse

end Sys2Proof.Machine
end

