-- ==== Sys2Proof/Laws/KeepsRegister.lean ====
section
/-!
SUPPORT. What the operations of Machine/Register.lean can change, and what they keep.
-/

namespace Sys2Proof.Machine

open Sys2Proof

theorem execRegisterWrite_keeps {w : Part → Bool} {a s : State}
    (hw : [Part.tim, .rtc, .regs, .live, .mem, .busReply, .edgeQueue, .islands,
      .quiescing, .commits, .saturated, .traverse, .reports, .bbQueue, .bbLost,
      .irqs, .flowFrames, .frames, .nextFrame, .ports, .fab, .cls, .rtk, .eccBad,
      .tm, .cip, .vlt, .power, .wak, .boot, .box, .gwy, .hbr, .cpx, .flt].all w = true)
    (h : a.Keeps w s) (m : Master) (addr : BitVec 40) (size : AccessSize) (data : BitVec 64) :
    AnswerKeeps w a (execRegisterWrite m addr size data s) := by
  unfold execRegisterWrite
  repeat' first
    | with_reducible assumption
    | exact all_of hw rfl
    | with_reducible apply answerKeeps_next
    | intro _
    | with_reducible apply State.write_keeps

theorem execSnapRead_keeps {w : Part → Bool} {a s : State}
    (hw : [Part.tim, .rtc, .regs, .live, .mem, .busReply, .edgeQueue, .aonQueue,
      .islands, .quiescing, .commits, .saturated, .traverse, .reports, .bbQueue,
      .bbLost, .irqs, .flowFrames, .frames, .nextFrame, .ports, .fab, .cls, .rtk,
      .eccBad, .tm, .cip, .vlt, .power, .wak, .boot, .box, .gwy, .hbr, .cpx, .flt].all w = true)
    (h : a.Keeps w s) (m : Master) (addr : BitVec 40) (size : AccessSize) :
    AnswerKeeps w a (execSnapRead m addr size s) := by
  unfold execSnapRead
  repeat' first
    | with_reducible assumption
    | exact all_of hw rfl
    | with_reducible apply answerKeeps_next
    | intro _
    | with_reducible apply State.read_keeps

theorem execBitAliasWrite_keeps {w : Part → Bool} {a s : State}
    (hw : [Part.tim, .rtc, .regs, .live, .mem, .busReply, .edgeQueue, .islands,
      .quiescing, .commits, .saturated, .traverse, .reports, .bbQueue, .bbLost,
      .irqs, .flowFrames, .frames, .nextFrame, .ports, .fab, .cls, .rtk, .eccBad,
      .tm, .cip, .vlt, .power, .wak, .boot, .box, .gwy, .hbr, .cpx, .flt].all w = true)
    (h : a.Keeps w s) (m : Master) (addr : BitVec 40) (data : Word) :
    AnswerKeeps w a (execBitAliasWrite m addr data s) := by
  unfold execBitAliasWrite
  repeat' first
    | with_reducible assumption
    | exact all_of hw rfl
    | with_reducible apply answerKeeps_next
    | intro _
    | with_reducible apply State.write_keeps
    | with_reducible apply State.busError_keeps
    | with_reducible apply keeps_ite
    | dsimp only
    | split

theorem execWorldLock_keeps {w : Part → Bool} {a s : State}
    (hw : [Part.regs, .busReply, .saturated, .reports, .irqs].all w = true) (h : a.Keeps w s)
    (m : Master) :
    AnswerKeeps w a (execWorldLock m s) := by
  unfold execWorldLock
  repeat' first
    | with_reducible assumption
    | exact all_of hw rfl
    | with_reducible apply answerKeeps_next
    | intro _
    | with_reducible apply guardReg_keeps
    | with_reducible apply State.setBit_keeps

theorem execRegionLock_keeps {w : Part → Bool} {a s : State}
    (hw : [Part.regs, .busReply, .saturated, .reports, .irqs].all w = true) (h : a.Keeps w s)
    (m : Master) (n : Fin 256) :
    AnswerKeeps w a (execRegionLock m n s) := by
  unfold execRegionLock
  repeat' first
    | with_reducible assumption
    | exact all_of hw rfl
    | with_reducible apply answerKeeps_next
    | intro _
    | with_reducible apply guardReg_keeps
    | with_reducible apply State.setBit_keeps

theorem execPartitionLock_keeps {w : Part → Bool} {a s : State}
    (hw : [Part.regs, .busReply, .saturated, .reports, .irqs].all w = true) (h : a.Keeps w s)
    (m : Master) :
    AnswerKeeps w a (execPartitionLock m s) := by
  unfold execPartitionLock
  repeat' first
    | with_reducible assumption
    | exact all_of hw rfl
    | with_reducible apply answerKeeps_next
    | intro _
    | with_reducible apply guardReg_keeps
    | with_reducible apply State.setBit_keeps

theorem execEdgeWriteApplied_keeps {w : Part → Bool} {a s : State}
    (hw : [Part.tim, .rtc, .regs, .live, .mem, .busReply, .edgeQueue, .aonQueue,
      .islands, .quiescing, .commits, .saturated, .traverse, .reports, .bbQueue,
      .bbLost, .irqs, .flowFrames, .frames, .nextFrame, .ports, .fab, .cls, .rtk,
      .eccBad, .tm, .cip, .vlt, .power, .wak, .boot, .box, .gwy, .hbr, .cpx, .flt].all w = true)
    (h : a.Keeps w s) :
    AnswerKeeps w a (execEdgeWriteApplied s) := by
  unfold execEdgeWriteApplied
  repeat' first
    | with_reducible assumption
    | exact all_of hw rfl
    | with_reducible apply answerKeeps_next
    | intro _
    | with_reducible apply State.edgeApply_keeps
    | with_reducible apply keeps_ite

theorem execAonWriteApplied_keeps {w : Part → Bool} {a s : State}
    (hw : [Part.tim, .rtc, .regs, .live, .mem, .busReply, .edgeQueue, .aonQueue,
      .islands, .quiescing, .commits, .saturated, .traverse, .reports, .bbQueue,
      .bbLost, .irqs, .flowFrames, .frames, .nextFrame, .ports, .fab, .cls, .rtk,
      .eccBad, .tm, .cip, .vlt, .power, .wak, .boot, .box, .gwy, .hbr, .cpx, .flt].all w = true)
    (h : a.Keeps w s) :
    AnswerKeeps w a (execAonWriteApplied s) := by
  unfold execAonWriteApplied
  repeat' first
    | with_reducible assumption
    | exact all_of hw rfl
    | with_reducible apply answerKeeps_next
    | intro _
    | with_reducible apply State.aonApply_keeps

end Sys2Proof.Machine
end

