-- ==== Sys2Proof/Laws/KeepsRitikAlu.lean ====
section
/-!
SUPPORT. What the operations of Machine/RitikAlu.lean can change, and what they keep.
-/

namespace Sys2Proof.Machine

open Sys2Proof

theorem State.aluReg_keeps {w : Part → Bool} {a s : State}
    (hw : [Part.regs, .saturated, .reports, .irqs, .frames, .rtk, .power, .wak].all w = true)
    (h : a.Keeps w s) (t : ThreadId) (profs : List Profile) (rd : Gpr) (ra : Gpr) (rb : Gpr)
    (f : AluFn) :
    a.Keeps w (State.aluReg s t profs rd ra rb f) := by
  unfold State.aluReg
  repeat' first
    | with_reducible assumption
    | exact all_of hw rfl
    | intro _
    | with_reducible apply State.threadOp_keeps

theorem State.aluImm_keeps {w : Part → Bool} {a s : State}
    (hw : [Part.regs, .saturated, .reports, .irqs, .frames, .rtk, .power, .wak].all w = true)
    (h : a.Keeps w s) (t : ThreadId) (rd : Gpr) (ra : Gpr) (imm : Word) (f : AluFn) :
    a.Keeps w (State.aluImm s t rd ra imm f) := by
  unfold State.aluImm
  repeat' first
    | with_reducible assumption
    | exact all_of hw rfl
    | intro _
    | with_reducible apply State.threadOp_keeps

theorem execAdd_keeps {w : Part → Bool} {a s : State}
    (hw : [Part.regs, .saturated, .reports, .irqs, .frames, .rtk, .power, .wak].all w = true)
    (h : a.Keeps w s) (t : ThreadId) (rd : Gpr) (ra : Gpr) (rb : Gpr) :
    AnswerKeeps w a (execAdd t rd ra rb s) := by
  unfold execAdd
  repeat' first
    | with_reducible assumption
    | exact all_of hw rfl
    | with_reducible apply answerKeeps_next
    | intro _
    | with_reducible apply State.aluReg_keeps

theorem execSub_keeps {w : Part → Bool} {a s : State}
    (hw : [Part.regs, .saturated, .reports, .irqs, .frames, .rtk, .power, .wak].all w = true)
    (h : a.Keeps w s) (t : ThreadId) (rd : Gpr) (ra : Gpr) (rb : Gpr) :
    AnswerKeeps w a (execSub t rd ra rb s) := by
  unfold execSub
  repeat' first
    | with_reducible assumption
    | exact all_of hw rfl
    | with_reducible apply answerKeeps_next
    | intro _
    | with_reducible apply State.aluReg_keeps

theorem execAnd_keeps {w : Part → Bool} {a s : State}
    (hw : [Part.regs, .saturated, .reports, .irqs, .frames, .rtk, .power, .wak].all w = true)
    (h : a.Keeps w s) (t : ThreadId) (rd : Gpr) (ra : Gpr) (rb : Gpr) :
    AnswerKeeps w a (execAnd t rd ra rb s) := by
  unfold execAnd
  repeat' first
    | with_reducible assumption
    | exact all_of hw rfl
    | with_reducible apply answerKeeps_next
    | intro _
    | with_reducible apply State.aluReg_keeps

theorem execOr_keeps {w : Part → Bool} {a s : State}
    (hw : [Part.regs, .saturated, .reports, .irqs, .frames, .rtk, .power, .wak].all w = true)
    (h : a.Keeps w s) (t : ThreadId) (rd : Gpr) (ra : Gpr) (rb : Gpr) :
    AnswerKeeps w a (execOr t rd ra rb s) := by
  unfold execOr
  repeat' first
    | with_reducible assumption
    | exact all_of hw rfl
    | with_reducible apply answerKeeps_next
    | intro _
    | with_reducible apply State.aluReg_keeps

theorem execXor_keeps {w : Part → Bool} {a s : State}
    (hw : [Part.regs, .saturated, .reports, .irqs, .frames, .rtk, .power, .wak].all w = true)
    (h : a.Keeps w s) (t : ThreadId) (rd : Gpr) (ra : Gpr) (rb : Gpr) :
    AnswerKeeps w a (execXor t rd ra rb s) := by
  unfold execXor
  repeat' first
    | with_reducible assumption
    | exact all_of hw rfl
    | with_reducible apply answerKeeps_next
    | intro _
    | with_reducible apply State.aluReg_keeps

theorem execShl_keeps {w : Part → Bool} {a s : State}
    (hw : [Part.regs, .saturated, .reports, .irqs, .frames, .rtk, .power, .wak].all w = true)
    (h : a.Keeps w s) (t : ThreadId) (rd : Gpr) (ra : Gpr) (rb : Gpr) :
    AnswerKeeps w a (execShl t rd ra rb s) := by
  unfold execShl
  repeat' first
    | with_reducible assumption
    | exact all_of hw rfl
    | with_reducible apply answerKeeps_next
    | intro _
    | with_reducible apply State.aluReg_keeps

theorem execShr_keeps {w : Part → Bool} {a s : State}
    (hw : [Part.regs, .saturated, .reports, .irqs, .frames, .rtk, .power, .wak].all w = true)
    (h : a.Keeps w s) (t : ThreadId) (rd : Gpr) (ra : Gpr) (rb : Gpr) :
    AnswerKeeps w a (execShr t rd ra rb s) := by
  unfold execShr
  repeat' first
    | with_reducible assumption
    | exact all_of hw rfl
    | with_reducible apply answerKeeps_next
    | intro _
    | with_reducible apply State.aluReg_keeps

theorem execSar_keeps {w : Part → Bool} {a s : State}
    (hw : [Part.regs, .saturated, .reports, .irqs, .frames, .rtk, .power, .wak].all w = true)
    (h : a.Keeps w s) (t : ThreadId) (rd : Gpr) (ra : Gpr) (rb : Gpr) :
    AnswerKeeps w a (execSar t rd ra rb s) := by
  unfold execSar
  repeat' first
    | with_reducible assumption
    | exact all_of hw rfl
    | with_reducible apply answerKeeps_next
    | intro _
    | with_reducible apply State.aluReg_keeps

theorem execRor_keeps {w : Part → Bool} {a s : State}
    (hw : [Part.regs, .saturated, .reports, .irqs, .frames, .rtk, .power, .wak].all w = true)
    (h : a.Keeps w s) (t : ThreadId) (rd : Gpr) (ra : Gpr) (rb : Gpr) :
    AnswerKeeps w a (execRor t rd ra rb s) := by
  unfold execRor
  repeat' first
    | with_reducible assumption
    | exact all_of hw rfl
    | with_reducible apply answerKeeps_next
    | intro _
    | with_reducible apply State.aluReg_keeps

theorem execMul_keeps {w : Part → Bool} {a s : State}
    (hw : [Part.regs, .saturated, .reports, .irqs, .frames, .rtk, .power, .wak].all w = true)
    (h : a.Keeps w s) (t : ThreadId) (rd : Gpr) (ra : Gpr) (rb : Gpr) :
    AnswerKeeps w a (execMul t rd ra rb s) := by
  unfold execMul
  repeat' first
    | with_reducible assumption
    | exact all_of hw rfl
    | with_reducible apply answerKeeps_next
    | intro _
    | with_reducible apply State.aluReg_keeps

theorem execMulq_keeps {w : Part → Bool} {a s : State}
    (hw : [Part.regs, .saturated, .reports, .irqs, .frames, .rtk, .power, .wak].all w = true)
    (h : a.Keeps w s) (t : ThreadId) (rd : Gpr) (ra : Gpr) (rb : Gpr) :
    AnswerKeeps w a (execMulq t rd ra rb s) := by
  unfold execMulq
  repeat' first
    | with_reducible assumption
    | exact all_of hw rfl
    | with_reducible apply answerKeeps_next
    | intro _
    | with_reducible apply State.aluReg_keeps

theorem execAdds_keeps {w : Part → Bool} {a s : State}
    (hw : [Part.regs, .saturated, .reports, .irqs, .frames, .rtk, .power, .wak].all w = true)
    (h : a.Keeps w s) (t : ThreadId) (rd : Gpr) (ra : Gpr) (rb : Gpr) :
    AnswerKeeps w a (execAdds t rd ra rb s) := by
  unfold execAdds
  repeat' first
    | with_reducible assumption
    | exact all_of hw rfl
    | with_reducible apply answerKeeps_next
    | intro _
    | with_reducible apply State.aluReg_keeps

theorem execSubs_keeps {w : Part → Bool} {a s : State}
    (hw : [Part.regs, .saturated, .reports, .irqs, .frames, .rtk, .power, .wak].all w = true)
    (h : a.Keeps w s) (t : ThreadId) (rd : Gpr) (ra : Gpr) (rb : Gpr) :
    AnswerKeeps w a (execSubs t rd ra rb s) := by
  unfold execSubs
  repeat' first
    | with_reducible assumption
    | exact all_of hw rfl
    | with_reducible apply answerKeeps_next
    | intro _
    | with_reducible apply State.aluReg_keeps

theorem execCmp_keeps {w : Part → Bool} {a s : State}
    (hw : [Part.regs, .saturated, .reports, .irqs, .frames, .rtk, .power, .wak].all w = true)
    (h : a.Keeps w s) (t : ThreadId) (ra : Gpr) (rb : Gpr) :
    AnswerKeeps w a (execCmp t ra rb s) := by
  unfold execCmp
  repeat' first
    | with_reducible assumption
    | exact all_of hw rfl
    | with_reducible apply answerKeeps_next
    | intro _
    | with_reducible apply State.aluReg_keeps

theorem execTst_keeps {w : Part → Bool} {a s : State}
    (hw : [Part.regs, .saturated, .reports, .irqs, .frames, .rtk, .power, .wak].all w = true)
    (h : a.Keeps w s) (t : ThreadId) (ra : Gpr) (rb : Gpr) :
    AnswerKeeps w a (execTst t ra rb s) := by
  unfold execTst
  repeat' first
    | with_reducible assumption
    | exact all_of hw rfl
    | with_reducible apply answerKeeps_next
    | intro _
    | with_reducible apply State.aluReg_keeps

theorem execMin_keeps {w : Part → Bool} {a s : State}
    (hw : [Part.regs, .saturated, .reports, .irqs, .frames, .rtk, .power, .wak].all w = true)
    (h : a.Keeps w s) (t : ThreadId) (rd : Gpr) (ra : Gpr) (rb : Gpr) :
    AnswerKeeps w a (execMin t rd ra rb s) := by
  unfold execMin
  repeat' first
    | with_reducible assumption
    | exact all_of hw rfl
    | with_reducible apply answerKeeps_next
    | intro _
    | with_reducible apply State.aluReg_keeps

theorem execMax_keeps {w : Part → Bool} {a s : State}
    (hw : [Part.regs, .saturated, .reports, .irqs, .frames, .rtk, .power, .wak].all w = true)
    (h : a.Keeps w s) (t : ThreadId) (rd : Gpr) (ra : Gpr) (rb : Gpr) :
    AnswerKeeps w a (execMax t rd ra rb s) := by
  unfold execMax
  repeat' first
    | with_reducible assumption
    | exact all_of hw rfl
    | with_reducible apply answerKeeps_next
    | intro _
    | with_reducible apply State.aluReg_keeps

theorem execClz_keeps {w : Part → Bool} {a s : State}
    (hw : [Part.regs, .saturated, .reports, .irqs, .frames, .rtk, .power, .wak].all w = true)
    (h : a.Keeps w s) (t : ThreadId) (rd : Gpr) (ra : Gpr) :
    AnswerKeeps w a (execClz t rd ra s) := by
  unfold execClz
  repeat' first
    | with_reducible assumption
    | exact all_of hw rfl
    | with_reducible apply answerKeeps_next
    | intro _
    | with_reducible apply State.aluReg_keeps

theorem execPopc_keeps {w : Part → Bool} {a s : State}
    (hw : [Part.regs, .saturated, .reports, .irqs, .frames, .rtk, .power, .wak].all w = true)
    (h : a.Keeps w s) (t : ThreadId) (rd : Gpr) (ra : Gpr) :
    AnswerKeeps w a (execPopc t rd ra s) := by
  unfold execPopc
  repeat' first
    | with_reducible assumption
    | exact all_of hw rfl
    | with_reducible apply answerKeeps_next
    | intro _
    | with_reducible apply State.aluReg_keeps

theorem execCsupd_keeps {w : Part → Bool} {a s : State}
    (hw : [Part.regs, .saturated, .reports, .irqs, .frames, .rtk, .power, .wak].all w = true)
    (h : a.Keeps w s) (t : ThreadId) (rd : Gpr) (ra : Gpr) (rb : Gpr) :
    AnswerKeeps w a (execCsupd t rd ra rb s) := by
  unfold execCsupd
  repeat' first
    | with_reducible assumption
    | exact all_of hw rfl
    | with_reducible apply answerKeeps_next
    | intro _
    | with_reducible apply State.threadOp_keeps

theorem execRds_keeps {w : Part → Bool} {a s : State}
    (hw : [Part.regs, .saturated, .reports, .irqs, .frames, .rtk, .power, .wak].all w = true)
    (h : a.Keeps w s) (t : ThreadId) (rd : Gpr) (sel : Fin 16) :
    AnswerKeeps w a (execRds t rd sel s) := by
  unfold execRds
  repeat' first
    | with_reducible assumption
    | exact all_of hw rfl
    | with_reducible apply answerKeeps_next
    | intro _
    | with_reducible apply State.issue_keeps
    | with_reducible apply State.setThread_keeps

theorem execWrf_keeps {w : Part → Bool} {a s : State}
    (hw : [Part.regs, .saturated, .reports, .irqs, .frames, .rtk, .power, .wak].all w = true)
    (h : a.Keeps w s) (t : ThreadId) (ra : Gpr) :
    AnswerKeeps w a (execWrf t ra s) := by
  unfold execWrf
  repeat' first
    | with_reducible assumption
    | exact all_of hw rfl
    | with_reducible apply answerKeeps_next
    | intro _
    | with_reducible apply State.threadOp_keeps

theorem execAddi_keeps {w : Part → Bool} {a s : State}
    (hw : [Part.regs, .saturated, .reports, .irqs, .frames, .rtk, .power, .wak].all w = true)
    (h : a.Keeps w s) (t : ThreadId) (rd : Gpr) (ra : Gpr) (imm : BitVec 16) :
    AnswerKeeps w a (execAddi t rd ra imm s) := by
  unfold execAddi
  repeat' first
    | with_reducible assumption
    | exact all_of hw rfl
    | with_reducible apply answerKeeps_next
    | intro _
    | with_reducible apply State.aluImm_keeps

theorem execAndi_keeps {w : Part → Bool} {a s : State}
    (hw : [Part.regs, .saturated, .reports, .irqs, .frames, .rtk, .power, .wak].all w = true)
    (h : a.Keeps w s) (t : ThreadId) (rd : Gpr) (ra : Gpr) (imm : BitVec 16) :
    AnswerKeeps w a (execAndi t rd ra imm s) := by
  unfold execAndi
  repeat' first
    | with_reducible assumption
    | exact all_of hw rfl
    | with_reducible apply answerKeeps_next
    | intro _
    | with_reducible apply State.aluImm_keeps

theorem execOri_keeps {w : Part → Bool} {a s : State}
    (hw : [Part.regs, .saturated, .reports, .irqs, .frames, .rtk, .power, .wak].all w = true)
    (h : a.Keeps w s) (t : ThreadId) (rd : Gpr) (ra : Gpr) (imm : BitVec 16) :
    AnswerKeeps w a (execOri t rd ra imm s) := by
  unfold execOri
  repeat' first
    | with_reducible assumption
    | exact all_of hw rfl
    | with_reducible apply answerKeeps_next
    | intro _
    | with_reducible apply State.aluImm_keeps

theorem execXori_keeps {w : Part → Bool} {a s : State}
    (hw : [Part.regs, .saturated, .reports, .irqs, .frames, .rtk, .power, .wak].all w = true)
    (h : a.Keeps w s) (t : ThreadId) (rd : Gpr) (ra : Gpr) (imm : BitVec 16) :
    AnswerKeeps w a (execXori t rd ra imm s) := by
  unfold execXori
  repeat' first
    | with_reducible assumption
    | exact all_of hw rfl
    | with_reducible apply answerKeeps_next
    | intro _
    | with_reducible apply State.aluImm_keeps

theorem execShli_keeps {w : Part → Bool} {a s : State}
    (hw : [Part.regs, .saturated, .reports, .irqs, .frames, .rtk, .power, .wak].all w = true)
    (h : a.Keeps w s) (t : ThreadId) (rd : Gpr) (ra : Gpr) (n : Fin 32) :
    AnswerKeeps w a (execShli t rd ra n s) := by
  unfold execShli
  repeat' first
    | with_reducible assumption
    | exact all_of hw rfl
    | with_reducible apply answerKeeps_next
    | intro _
    | with_reducible apply State.aluImm_keeps

theorem execShri_keeps {w : Part → Bool} {a s : State}
    (hw : [Part.regs, .saturated, .reports, .irqs, .frames, .rtk, .power, .wak].all w = true)
    (h : a.Keeps w s) (t : ThreadId) (rd : Gpr) (ra : Gpr) (n : Fin 32) :
    AnswerKeeps w a (execShri t rd ra n s) := by
  unfold execShri
  repeat' first
    | with_reducible assumption
    | exact all_of hw rfl
    | with_reducible apply answerKeeps_next
    | intro _
    | with_reducible apply State.aluImm_keeps

theorem execSari_keeps {w : Part → Bool} {a s : State}
    (hw : [Part.regs, .saturated, .reports, .irqs, .frames, .rtk, .power, .wak].all w = true)
    (h : a.Keeps w s) (t : ThreadId) (rd : Gpr) (ra : Gpr) (n : Fin 32) :
    AnswerKeeps w a (execSari t rd ra n s) := by
  unfold execSari
  repeat' first
    | with_reducible assumption
    | exact all_of hw rfl
    | with_reducible apply answerKeeps_next
    | intro _
    | with_reducible apply State.aluImm_keeps

theorem execMovi_keeps {w : Part → Bool} {a s : State}
    (hw : [Part.regs, .saturated, .reports, .irqs, .frames, .rtk, .power, .wak].all w = true)
    (h : a.Keeps w s) (t : ThreadId) (rd : Gpr) (imm : BitVec 16) :
    AnswerKeeps w a (execMovi t rd imm s) := by
  unfold execMovi
  repeat' first
    | with_reducible assumption
    | exact all_of hw rfl
    | with_reducible apply answerKeeps_next
    | intro _
    | with_reducible apply State.threadOp_keeps

theorem execMovhi_keeps {w : Part → Bool} {a s : State}
    (hw : [Part.regs, .saturated, .reports, .irqs, .frames, .rtk, .power, .wak].all w = true)
    (h : a.Keeps w s) (t : ThreadId) (rd : Gpr) (imm : BitVec 16) :
    AnswerKeeps w a (execMovhi t rd imm s) := by
  unfold execMovhi
  repeat' first
    | with_reducible assumption
    | exact all_of hw rfl
    | with_reducible apply answerKeeps_next
    | intro _
    | with_reducible apply State.threadOp_keeps

theorem execCmpi_keeps {w : Part → Bool} {a s : State}
    (hw : [Part.regs, .saturated, .reports, .irqs, .frames, .rtk, .power, .wak].all w = true)
    (h : a.Keeps w s) (t : ThreadId) (ra : Gpr) (imm : BitVec 16) :
    AnswerKeeps w a (execCmpi t ra imm s) := by
  unfold execCmpi
  repeat' first
    | with_reducible assumption
    | exact all_of hw rfl
    | with_reducible apply answerKeeps_next
    | intro _
    | with_reducible apply State.aluImm_keeps

theorem execTsti_keeps {w : Part → Bool} {a s : State}
    (hw : [Part.regs, .saturated, .reports, .irqs, .frames, .rtk, .power, .wak].all w = true)
    (h : a.Keeps w s) (t : ThreadId) (ra : Gpr) (imm : BitVec 16) :
    AnswerKeeps w a (execTsti t ra imm s) := by
  unfold execTsti
  repeat' first
    | with_reducible assumption
    | exact all_of hw rfl
    | with_reducible apply answerKeeps_next
    | intro _
    | with_reducible apply State.aluImm_keeps

theorem execExt_keeps {w : Part → Bool} {a s : State}
    (hw : [Part.regs, .saturated, .reports, .irqs, .frames, .rtk, .power, .wak].all w = true)
    (h : a.Keeps w s) (t : ThreadId) (rd : Gpr) (ra : Gpr) (p : Fin 32) (wm1 : Fin 32) :
    AnswerKeeps w a (execExt t rd ra p wm1 s) := by
  unfold execExt
  repeat' first
    | with_reducible assumption
    | exact all_of hw rfl
    | with_reducible apply answerKeeps_next
    | intro _
    | with_reducible apply State.aluImm_keeps

theorem execIns_keeps {w : Part → Bool} {a s : State}
    (hw : [Part.regs, .saturated, .reports, .irqs, .frames, .rtk, .power, .wak].all w = true)
    (h : a.Keeps w s) (t : ThreadId) (rd : Gpr) (ra : Gpr) (p : Fin 32) (wm1 : Fin 32) :
    AnswerKeeps w a (execIns t rd ra p wm1 s) := by
  unfold execIns
  repeat' first
    | with_reducible assumption
    | exact all_of hw rfl
    | with_reducible apply answerKeeps_next
    | intro _
    | with_reducible apply State.threadOp_keeps

end Sys2Proof.Machine
end

