-- ==== Sys2Proof/Laws/KeepsRitikFlow.lean ====
section
/-!
SUPPORT. What the operations of Machine/RitikFlow.lean can change, and what they keep.
-/

namespace Sys2Proof.Machine

open Sys2Proof

theorem execBCond_keeps {w : Part → Bool} {a s : State}
    (hw : [Part.regs, .saturated, .reports, .irqs, .frames, .rtk, .power, .wak].all w = true)
    (h : a.Keeps w s) (t : ThreadId) (cond : Cond) (off : BitVec 24) :
    AnswerKeeps w a (execBCond t cond off s) := by
  unfold execBCond
  repeat' first
    | with_reducible assumption
    | exact all_of hw rfl
    | with_reducible apply answerKeeps_next
    | intro _
    | with_reducible apply State.threadOp_keeps

theorem execBlCond_keeps {w : Part → Bool} {a s : State}
    (hw : [Part.regs, .saturated, .reports, .irqs, .frames, .rtk, .power, .wak].all w = true)
    (h : a.Keeps w s) (t : ThreadId) (cond : Cond) (off : BitVec 24) :
    AnswerKeeps w a (execBlCond t cond off s) := by
  unfold execBlCond
  repeat' first
    | with_reducible assumption
    | exact all_of hw rfl
    | with_reducible apply answerKeeps_next
    | intro _
    | with_reducible apply State.threadOp_keeps

theorem execJr_keeps {w : Part → Bool} {a s : State}
    (hw : [Part.regs, .saturated, .reports, .irqs, .frames, .rtk, .power, .wak].all w = true)
    (h : a.Keeps w s) (t : ThreadId) (ra : Gpr) :
    AnswerKeeps w a (execJr t ra s) := by
  unfold execJr
  repeat' first
    | with_reducible assumption
    | exact all_of hw rfl
    | with_reducible apply answerKeeps_next
    | intro _
    | with_reducible apply State.threadOp_keeps

theorem execJlr_keeps {w : Part → Bool} {a s : State}
    (hw : [Part.regs, .saturated, .reports, .irqs, .frames, .rtk, .power, .wak].all w = true)
    (h : a.Keeps w s) (t : ThreadId) (ra : Gpr) :
    AnswerKeeps w a (execJlr t ra s) := by
  unfold execJlr
  repeat' first
    | with_reducible assumption
    | exact all_of hw rfl
    | with_reducible apply answerKeeps_next
    | intro _
    | with_reducible apply State.threadOp_keeps

theorem execLd_keeps {w : Part → Bool} {a s : State}
    (hw : [Part.regs, .saturated, .reports, .irqs, .frames, .rtk, .power, .wak].all w = true)
    (h : a.Keeps w s) (t : ThreadId) (rd : Gpr) (ra : Gpr) (sp : MemSpace) (sz : MemSize)
    (off : BitVec 12) :
    AnswerKeeps w a (execLd t rd ra sp sz off s) := by
  unfold execLd
  repeat' first
    | with_reducible assumption
    | exact all_of hw rfl
    | with_reducible apply answerKeeps_next
    | intro _
    | with_reducible apply State.issue_keeps
    | with_reducible apply State.setThread_keeps

theorem execLds_keeps {w : Part → Bool} {a s : State}
    (hw : [Part.regs, .saturated, .reports, .irqs, .frames, .rtk, .power, .wak].all w = true)
    (h : a.Keeps w s) (t : ThreadId) (rd : Gpr) (ra : Gpr) (sp : MemSpace) (sz : MemSize)
    (off : BitVec 12) :
    AnswerKeeps w a (execLds t rd ra sp sz off s) := by
  unfold execLds
  repeat' first
    | with_reducible assumption
    | exact all_of hw rfl
    | with_reducible apply answerKeeps_next
    | intro _
    | with_reducible apply State.issue_keeps
    | with_reducible apply State.setThread_keeps

theorem execSt_keeps {w : Part → Bool} {a s : State}
    (hw : [Part.regs, .saturated, .reports, .irqs, .frames, .rtk, .eccBad, .power,
      .wak].all w = true)
    (h : a.Keeps w s) (t : ThreadId) (rd : Gpr) (ra : Gpr) (sp : MemSpace) (sz : MemSize)
    (off : BitVec 12) :
    AnswerKeeps w a (execSt t rd ra sp sz off s) := by
  unfold execSt
  repeat' first
    | with_reducible assumption
    | exact all_of hw rfl
    | with_reducible apply answerKeeps_next
    | intro _
    | with_reducible apply State.issue_keeps
    | with_reducible apply State.storeValue_keeps

theorem State.atomic_keeps {w : Part → Bool} {a s : State}
    (hw : [Part.regs, .saturated, .reports, .irqs, .frames, .rtk, .eccBad, .power,
      .wak].all w = true)
    (h : a.Keeps w s) (t : ThreadId) (rd : Gpr) (ra : Gpr) (off : BitVec 12)
    (f : Word → Word → Word) :
    a.Keeps w (State.atomic s t rd ra off f) := by
  unfold State.atomic
  repeat' first
    | with_reducible assumption
    | exact all_of hw rfl
    | intro _
    | with_reducible apply State.issue_keeps
    | with_reducible apply State.setThread_keeps
    | with_reducible apply State.setD_keeps

theorem execAadd_keeps {w : Part → Bool} {a s : State}
    (hw : [Part.regs, .saturated, .reports, .irqs, .frames, .rtk, .eccBad, .power,
      .wak].all w = true)
    (h : a.Keeps w s) (t : ThreadId) (rd : Gpr) (ra : Gpr) (off : BitVec 12) :
    AnswerKeeps w a (execAadd t rd ra off s) := by
  unfold execAadd
  repeat' first
    | with_reducible assumption
    | exact all_of hw rfl
    | with_reducible apply answerKeeps_next
    | intro _
    | with_reducible apply State.atomic_keeps

theorem execAswp_keeps {w : Part → Bool} {a s : State}
    (hw : [Part.regs, .saturated, .reports, .irqs, .frames, .rtk, .eccBad, .power,
      .wak].all w = true)
    (h : a.Keeps w s) (t : ThreadId) (rd : Gpr) (ra : Gpr) (off : BitVec 12) :
    AnswerKeeps w a (execAswp t rd ra off s) := by
  unfold execAswp
  repeat' first
    | with_reducible assumption
    | exact all_of hw rfl
    | with_reducible apply answerKeeps_next
    | intro _
    | with_reducible apply State.atomic_keeps

theorem execIllegal_keeps {w : Part → Bool} {a s : State}
    (hw : [Part.regs, .saturated, .reports, .irqs, .frames, .rtk, .power, .wak].all w = true)
    (h : a.Keeps w s) (x : BadWord) :
    AnswerKeeps w a (execIllegal x s) := by
  unfold execIllegal
  repeat' first
    | with_reducible assumption
    | exact all_of hw rfl
    | with_reducible apply answerKeeps_next
    | intro _
    | with_reducible apply State.issue_keeps

theorem execPcRange_keeps {w : Part → Bool} {a s : State}
    (hw : [Part.regs, .saturated, .reports, .irqs, .frames, .rtk, .power, .wak].all w = true)
    (h : a.Keeps w s) (t : ThreadId) :
    AnswerKeeps w a (execPcRange t s) := by
  unfold execPcRange
  repeat' first
    | with_reducible assumption
    | exact all_of hw rfl
    | with_reducible apply answerKeeps_next
    | intro _
    | with_reducible apply State.trapAt_keeps
    | with_reducible apply State.issuedFrom_keeps
    | with_reducible apply keeps_ite

end Sys2Proof.Machine
end

