-- ==== Sys2Proof/Laws/KeepsTick.lean ====
section
/-!
SUPPORT. What the operations of Machine/Tick.lean can change, and what they keep.
-/

namespace Sys2Proof.Machine

open Sys2Proof

theorem State.countCycles_keeps {w : Part → Bool} {a s : State}
    (hw : [Part.regs, .saturated].all w = true) (h : a.Keeps w s) :
    a.Keeps w (State.countCycles s) := by
  unfold State.countCycles
  repeat' first
    | with_reducible assumption
    | exact all_of hw rfl
    | intro _
    | with_reducible apply State.bumpBy_keeps
    | with_reducible apply keeps_ite

theorem State.monSample_keeps {w : Part → Bool} {a s : State}
    (hw : [Part.regs, .saturated, .irqs].all w = true) (h : a.Keeps w s) (i : Nat) (was : Bool)
    (now : Bool) :
    a.Keeps w (State.monSample s i was now) := by
  unfold State.monSample
  repeat' first
    | with_reducible assumption
    | exact all_of hw rfl
    | intro _
    | with_reducible apply State.monAdd_keeps
    | with_reducible apply keeps_ite

theorem State.monCycle_keeps {w : Part → Bool} {a s : State}
    (hw : [Part.regs, .saturated, .monLevels, .irqs].all w = true) (h : a.Keeps w s) :
    a.Keeps w (State.monCycle s) := by
  unfold State.monCycle
  repeat' first
    | with_reducible assumption
    | exact all_of hw rfl
    | intro _
    | with_reducible apply State.monSample_keeps
    | with_reducible apply keeps_ite
    | with_reducible apply keeps_foldl
    | with_reducible apply keeps_foldl_fst
    | with_reducible apply keeps_foldl_snd
    | dsimp only
    | split
    | with_reducible apply keeps_monLevels

/-- An idle step moves the time by a nanosecond; against the state at the new time it keeps the relation. -/
theorem State.tick_keeps {w : Part → Bool} (hw : [Part.tim, .regs, .saturated, .monLevels, .irqs, .frames,
      .nextFrame, .wak, .gwy, .hbr, .reports, .rtk].all w = true) (s : State) :
    ({ s with nowNs := s.nowNs + 1 } : State).Keeps w s.tick := by
  unfold State.tick
  extract_lets s0 s1 s2 s3 s4
  have h0 : s0.Keeps w s0 := State.Keeps.refl w s0
  change s0.Keeps w _
  have h1 : s0.Keeps w s1 := State.countCycles_keeps (all_of hw rfl)
    (State.sendPosted_keeps (all_of hw rfl) (State.sendPosted_keeps (all_of hw rfl)
      (State.gwyDrain_keeps (all_of hw rfl) h0) true) false)
  have h2 : s0.Keeps w s2 := keeps_ite (State.heardFrame_keeps (all_of hw rfl) h1) h1
  have h3 : s0.Keeps w s3 := State.releaseHeld_keeps (all_of hw rfl) h2
  have h4 : s0.Keeps w s4 := keeps_ite (keeps_foldl _ _ h3
    (fun t x ht => State.endSlew_keeps (all_of hw rfl) ht x)) h3
  clear_value s4
  exact keeps_ite h0 (keeps_ite (State.monCycle_keeps (all_of hw rfl) h4) h4)

end Sys2Proof.Machine
end

