-- ==== Sys2Proof/Laws/State.lean ====
section
/-!
SUPPORT. One lemma for each part of the state and each basic update, so that no proof unfolds a record
update; and what a register, a field, a live word or a byte of memory reads as after a write.
-/

namespace Sys2Proof.Machine

/-! ## Parts that an update leaves alone -/

@[simp] theorem State.wr_pending (s : State) (k : Nat) (w : Word) : (s.wr k w).pending = s.pending := rfl
@[simp] theorem State.wr_tim (s : State) (k : Nat) (w : Word) : (s.wr k w).tim = s.tim := rfl
@[simp] theorem State.wr_rtc (s : State) (k : Nat) (w : Word) : (s.wr k w).rtc = s.rtc := rfl
@[simp] theorem State.wr_variant (s : State) (k : Nat) (w : Word) : (s.wr k w).variant = s.variant := rfl
@[simp] theorem State.wr_nowNs (s : State) (k : Nat) (w : Word) : (s.wr k w).nowNs = s.nowNs := rfl
@[simp] theorem State.wr_freeCtr (s : State) (k : Nat) (w : Word) : (s.wr k w).freeCtr = s.freeCtr := rfl
@[simp] theorem State.wr_live (s : State) (k : Nat) (w : Word) : (s.wr k w).live = s.live := rfl
@[simp] theorem State.wr_mem (s : State) (k : Nat) (w : Word) : (s.wr k w).mem = s.mem := rfl
@[simp] theorem State.wr_busReply (s : State) (k : Nat) (w : Word) : (s.wr k w).busReply = s.busReply := rfl
@[simp] theorem State.wr_edgeQueue (s : State) (k : Nat) (w : Word) : (s.wr k w).edgeQueue = s.edgeQueue := rfl
@[simp] theorem State.wr_aonQueue (s : State) (k : Nat) (w : Word) : (s.wr k w).aonQueue = s.aonQueue := rfl
@[simp] theorem State.wr_islands (s : State) (k : Nat) (w : Word) : (s.wr k w).islands = s.islands := rfl
@[simp] theorem State.wr_coreHeld (s : State) (k : Nat) (w : Word) : (s.wr k w).coreHeld = s.coreHeld := rfl
@[simp] theorem State.wr_quiescing (s : State) (k : Nat) (w : Word) : (s.wr k w).quiescing = s.quiescing := rfl
@[simp] theorem State.wr_commits (s : State) (k : Nat) (w : Word) : (s.wr k w).commits = s.commits := rfl
@[simp] theorem State.wr_saturated (s : State) (k : Nat) (w : Word) : (s.wr k w).saturated = s.saturated := rfl
@[simp] theorem State.wr_monLevels (s : State) (k : Nat) (w : Word) : (s.wr k w).monLevels = s.monLevels := rfl
@[simp] theorem State.wr_traverse (s : State) (k : Nat) (w : Word) : (s.wr k w).traverse = s.traverse := rfl
@[simp] theorem State.wr_powerLinkA (s : State) (k : Nat) (w : Word) : (s.wr k w).powerLinkA = s.powerLinkA := rfl
@[simp] theorem State.wr_powerLinkB (s : State) (k : Nat) (w : Word) : (s.wr k w).powerLinkB = s.powerLinkB := rfl
@[simp] theorem State.wr_supply (s : State) (k : Nat) (w : Word) : (s.wr k w).supply = s.supply := rfl
@[simp] theorem State.wr_reports (s : State) (k : Nat) (w : Word) : (s.wr k w).reports = s.reports := rfl
@[simp] theorem State.wr_bbQueue (s : State) (k : Nat) (w : Word) : (s.wr k w).bbQueue = s.bbQueue := rfl
@[simp] theorem State.wr_bbLost (s : State) (k : Nat) (w : Word) : (s.wr k w).bbLost = s.bbLost := rfl
@[simp] theorem State.wr_irqs (s : State) (k : Nat) (w : Word) : (s.wr k w).irqs = s.irqs := rfl
@[simp] theorem State.wr_flowFrames (s : State) (k : Nat) (w : Word) : (s.wr k w).flowFrames = s.flowFrames := rfl
@[simp] theorem State.wr_frames (s : State) (k : Nat) (w : Word) : (s.wr k w).frames = s.frames := rfl
@[simp] theorem State.wr_nextFrame (s : State) (k : Nat) (w : Word) : (s.wr k w).nextFrame = s.nextFrame := rfl
@[simp] theorem State.wr_ports (s : State) (k : Nat) (w : Word) : (s.wr k w).ports = s.ports := rfl
@[simp] theorem State.wr_fab (s : State) (k : Nat) (w : Word) : (s.wr k w).fab = s.fab := rfl
@[simp] theorem State.wr_cls (s : State) (k : Nat) (w : Word) : (s.wr k w).cls = s.cls := rfl
@[simp] theorem State.wr_rtk (s : State) (k : Nat) (w : Word) : (s.wr k w).rtk = s.rtk := rfl
@[simp] theorem State.wr_eccBad (s : State) (k : Nat) (w : Word) : (s.wr k w).eccBad = s.eccBad := rfl
@[simp] theorem State.wr_debugScope (s : State) (k : Nat) (w : Word) : (s.wr k w).debugScope = s.debugScope := rfl
@[simp] theorem State.wr_tm (s : State) (k : Nat) (w : Word) : (s.wr k w).tm = s.tm := rfl
@[simp] theorem State.wr_cip (s : State) (k : Nat) (w : Word) : (s.wr k w).cip = s.cip := rfl
@[simp] theorem State.wr_vlt (s : State) (k : Nat) (w : Word) : (s.wr k w).vlt = s.vlt := rfl
@[simp] theorem State.wr_power (s : State) (k : Nat) (w : Word) : (s.wr k w).power = s.power := rfl
@[simp] theorem State.wr_wak (s : State) (k : Nat) (w : Word) : (s.wr k w).wak = s.wak := rfl
@[simp] theorem State.wr_boot (s : State) (k : Nat) (w : Word) : (s.wr k w).boot = s.boot := rfl
@[simp] theorem State.wr_box (s : State) (k : Nat) (w : Word) : (s.wr k w).box = s.box := rfl
@[simp] theorem State.wr_gwy (s : State) (k : Nat) (w : Word) : (s.wr k w).gwy = s.gwy := rfl
@[simp] theorem State.wr_hbr (s : State) (k : Nat) (w : Word) : (s.wr k w).hbr = s.hbr := rfl
@[simp] theorem State.wr_cpx (s : State) (k : Nat) (w : Word) : (s.wr k w).cpx = s.cpx := rfl
@[simp] theorem State.wr_flt (s : State) (k : Nat) (w : Word) : (s.wr k w).flt = s.flt := rfl

@[simp] theorem State.wrN_pending (s : State) (k v : Nat) : (s.wrN k v).pending = s.pending := rfl
@[simp] theorem State.wrN_tim (s : State) (k v : Nat) : (s.wrN k v).tim = s.tim := rfl
@[simp] theorem State.wrN_rtc (s : State) (k v : Nat) : (s.wrN k v).rtc = s.rtc := rfl
@[simp] theorem State.wrN_variant (s : State) (k v : Nat) : (s.wrN k v).variant = s.variant := rfl
@[simp] theorem State.wrN_nowNs (s : State) (k v : Nat) : (s.wrN k v).nowNs = s.nowNs := rfl
@[simp] theorem State.wrN_freeCtr (s : State) (k v : Nat) : (s.wrN k v).freeCtr = s.freeCtr := rfl
@[simp] theorem State.wrN_live (s : State) (k v : Nat) : (s.wrN k v).live = s.live := rfl
@[simp] theorem State.wrN_mem (s : State) (k v : Nat) : (s.wrN k v).mem = s.mem := rfl
@[simp] theorem State.wrN_busReply (s : State) (k v : Nat) : (s.wrN k v).busReply = s.busReply := rfl
@[simp] theorem State.wrN_edgeQueue (s : State) (k v : Nat) : (s.wrN k v).edgeQueue = s.edgeQueue := rfl
@[simp] theorem State.wrN_aonQueue (s : State) (k v : Nat) : (s.wrN k v).aonQueue = s.aonQueue := rfl
@[simp] theorem State.wrN_islands (s : State) (k v : Nat) : (s.wrN k v).islands = s.islands := rfl
@[simp] theorem State.wrN_coreHeld (s : State) (k v : Nat) : (s.wrN k v).coreHeld = s.coreHeld := rfl
@[simp] theorem State.wrN_quiescing (s : State) (k v : Nat) : (s.wrN k v).quiescing = s.quiescing := rfl
@[simp] theorem State.wrN_commits (s : State) (k v : Nat) : (s.wrN k v).commits = s.commits := rfl
@[simp] theorem State.wrN_saturated (s : State) (k v : Nat) : (s.wrN k v).saturated = s.saturated := rfl
@[simp] theorem State.wrN_monLevels (s : State) (k v : Nat) : (s.wrN k v).monLevels = s.monLevels := rfl
@[simp] theorem State.wrN_traverse (s : State) (k v : Nat) : (s.wrN k v).traverse = s.traverse := rfl
@[simp] theorem State.wrN_powerLinkA (s : State) (k v : Nat) : (s.wrN k v).powerLinkA = s.powerLinkA := rfl
@[simp] theorem State.wrN_powerLinkB (s : State) (k v : Nat) : (s.wrN k v).powerLinkB = s.powerLinkB := rfl
@[simp] theorem State.wrN_supply (s : State) (k v : Nat) : (s.wrN k v).supply = s.supply := rfl
@[simp] theorem State.wrN_reports (s : State) (k v : Nat) : (s.wrN k v).reports = s.reports := rfl
@[simp] theorem State.wrN_bbQueue (s : State) (k v : Nat) : (s.wrN k v).bbQueue = s.bbQueue := rfl
@[simp] theorem State.wrN_bbLost (s : State) (k v : Nat) : (s.wrN k v).bbLost = s.bbLost := rfl
@[simp] theorem State.wrN_irqs (s : State) (k v : Nat) : (s.wrN k v).irqs = s.irqs := rfl
@[simp] theorem State.wrN_flowFrames (s : State) (k v : Nat) : (s.wrN k v).flowFrames = s.flowFrames := rfl
@[simp] theorem State.wrN_frames (s : State) (k v : Nat) : (s.wrN k v).frames = s.frames := rfl
@[simp] theorem State.wrN_nextFrame (s : State) (k v : Nat) : (s.wrN k v).nextFrame = s.nextFrame := rfl
@[simp] theorem State.wrN_ports (s : State) (k v : Nat) : (s.wrN k v).ports = s.ports := rfl
@[simp] theorem State.wrN_fab (s : State) (k v : Nat) : (s.wrN k v).fab = s.fab := rfl
@[simp] theorem State.wrN_cls (s : State) (k v : Nat) : (s.wrN k v).cls = s.cls := rfl
@[simp] theorem State.wrN_rtk (s : State) (k v : Nat) : (s.wrN k v).rtk = s.rtk := rfl
@[simp] theorem State.wrN_eccBad (s : State) (k v : Nat) : (s.wrN k v).eccBad = s.eccBad := rfl
@[simp] theorem State.wrN_debugScope (s : State) (k v : Nat) : (s.wrN k v).debugScope = s.debugScope := rfl
@[simp] theorem State.wrN_tm (s : State) (k v : Nat) : (s.wrN k v).tm = s.tm := rfl
@[simp] theorem State.wrN_cip (s : State) (k v : Nat) : (s.wrN k v).cip = s.cip := rfl
@[simp] theorem State.wrN_vlt (s : State) (k v : Nat) : (s.wrN k v).vlt = s.vlt := rfl
@[simp] theorem State.wrN_power (s : State) (k v : Nat) : (s.wrN k v).power = s.power := rfl
@[simp] theorem State.wrN_wak (s : State) (k v : Nat) : (s.wrN k v).wak = s.wak := rfl
@[simp] theorem State.wrN_boot (s : State) (k v : Nat) : (s.wrN k v).boot = s.boot := rfl
@[simp] theorem State.wrN_box (s : State) (k v : Nat) : (s.wrN k v).box = s.box := rfl
@[simp] theorem State.wrN_gwy (s : State) (k v : Nat) : (s.wrN k v).gwy = s.gwy := rfl
@[simp] theorem State.wrN_hbr (s : State) (k v : Nat) : (s.wrN k v).hbr = s.hbr := rfl
@[simp] theorem State.wrN_cpx (s : State) (k v : Nat) : (s.wrN k v).cpx = s.cpx := rfl
@[simp] theorem State.wrN_flt (s : State) (k v : Nat) : (s.wrN k v).flt = s.flt := rfl

@[simp] theorem State.setFld_pending (s : State) (k lo n v : Nat) : (s.setFld k lo n v).pending = s.pending := rfl
@[simp] theorem State.setFld_tim (s : State) (k lo n v : Nat) : (s.setFld k lo n v).tim = s.tim := rfl
@[simp] theorem State.setFld_rtc (s : State) (k lo n v : Nat) : (s.setFld k lo n v).rtc = s.rtc := rfl
@[simp] theorem State.setFld_variant (s : State) (k lo n v : Nat) : (s.setFld k lo n v).variant = s.variant := rfl
@[simp] theorem State.setFld_nowNs (s : State) (k lo n v : Nat) : (s.setFld k lo n v).nowNs = s.nowNs := rfl
@[simp] theorem State.setFld_freeCtr (s : State) (k lo n v : Nat) : (s.setFld k lo n v).freeCtr = s.freeCtr := rfl
@[simp] theorem State.setFld_live (s : State) (k lo n v : Nat) : (s.setFld k lo n v).live = s.live := rfl
@[simp] theorem State.setFld_mem (s : State) (k lo n v : Nat) : (s.setFld k lo n v).mem = s.mem := rfl
@[simp] theorem State.setFld_busReply (s : State) (k lo n v : Nat) : (s.setFld k lo n v).busReply = s.busReply := rfl
@[simp] theorem State.setFld_edgeQueue (s : State) (k lo n v : Nat) : (s.setFld k lo n v).edgeQueue = s.edgeQueue := rfl
@[simp] theorem State.setFld_aonQueue (s : State) (k lo n v : Nat) : (s.setFld k lo n v).aonQueue = s.aonQueue := rfl
@[simp] theorem State.setFld_islands (s : State) (k lo n v : Nat) : (s.setFld k lo n v).islands = s.islands := rfl
@[simp] theorem State.setFld_coreHeld (s : State) (k lo n v : Nat) : (s.setFld k lo n v).coreHeld = s.coreHeld := rfl
@[simp] theorem State.setFld_quiescing (s : State) (k lo n v : Nat) : (s.setFld k lo n v).quiescing = s.quiescing := rfl
@[simp] theorem State.setFld_commits (s : State) (k lo n v : Nat) : (s.setFld k lo n v).commits = s.commits := rfl
@[simp] theorem State.setFld_saturated (s : State) (k lo n v : Nat) : (s.setFld k lo n v).saturated = s.saturated := rfl
@[simp] theorem State.setFld_monLevels (s : State) (k lo n v : Nat) : (s.setFld k lo n v).monLevels = s.monLevels := rfl
@[simp] theorem State.setFld_traverse (s : State) (k lo n v : Nat) : (s.setFld k lo n v).traverse = s.traverse := rfl
@[simp] theorem State.setFld_powerLinkA (s : State) (k lo n v : Nat) : (s.setFld k lo n v).powerLinkA = s.powerLinkA := rfl
@[simp] theorem State.setFld_powerLinkB (s : State) (k lo n v : Nat) : (s.setFld k lo n v).powerLinkB = s.powerLinkB := rfl
@[simp] theorem State.setFld_supply (s : State) (k lo n v : Nat) : (s.setFld k lo n v).supply = s.supply := rfl
@[simp] theorem State.setFld_reports (s : State) (k lo n v : Nat) : (s.setFld k lo n v).reports = s.reports := rfl
@[simp] theorem State.setFld_bbQueue (s : State) (k lo n v : Nat) : (s.setFld k lo n v).bbQueue = s.bbQueue := rfl
@[simp] theorem State.setFld_bbLost (s : State) (k lo n v : Nat) : (s.setFld k lo n v).bbLost = s.bbLost := rfl
@[simp] theorem State.setFld_irqs (s : State) (k lo n v : Nat) : (s.setFld k lo n v).irqs = s.irqs := rfl
@[simp] theorem State.setFld_flowFrames (s : State) (k lo n v : Nat) : (s.setFld k lo n v).flowFrames = s.flowFrames := rfl
@[simp] theorem State.setFld_frames (s : State) (k lo n v : Nat) : (s.setFld k lo n v).frames = s.frames := rfl
@[simp] theorem State.setFld_nextFrame (s : State) (k lo n v : Nat) : (s.setFld k lo n v).nextFrame = s.nextFrame := rfl
@[simp] theorem State.setFld_ports (s : State) (k lo n v : Nat) : (s.setFld k lo n v).ports = s.ports := rfl
@[simp] theorem State.setFld_fab (s : State) (k lo n v : Nat) : (s.setFld k lo n v).fab = s.fab := rfl
@[simp] theorem State.setFld_cls (s : State) (k lo n v : Nat) : (s.setFld k lo n v).cls = s.cls := rfl
@[simp] theorem State.setFld_rtk (s : State) (k lo n v : Nat) : (s.setFld k lo n v).rtk = s.rtk := rfl
@[simp] theorem State.setFld_eccBad (s : State) (k lo n v : Nat) : (s.setFld k lo n v).eccBad = s.eccBad := rfl
@[simp] theorem State.setFld_debugScope (s : State) (k lo n v : Nat) : (s.setFld k lo n v).debugScope = s.debugScope := rfl
@[simp] theorem State.setFld_tm (s : State) (k lo n v : Nat) : (s.setFld k lo n v).tm = s.tm := rfl
@[simp] theorem State.setFld_cip (s : State) (k lo n v : Nat) : (s.setFld k lo n v).cip = s.cip := rfl
@[simp] theorem State.setFld_vlt (s : State) (k lo n v : Nat) : (s.setFld k lo n v).vlt = s.vlt := rfl
@[simp] theorem State.setFld_power (s : State) (k lo n v : Nat) : (s.setFld k lo n v).power = s.power := rfl
@[simp] theorem State.setFld_wak (s : State) (k lo n v : Nat) : (s.setFld k lo n v).wak = s.wak := rfl
@[simp] theorem State.setFld_boot (s : State) (k lo n v : Nat) : (s.setFld k lo n v).boot = s.boot := rfl
@[simp] theorem State.setFld_box (s : State) (k lo n v : Nat) : (s.setFld k lo n v).box = s.box := rfl
@[simp] theorem State.setFld_gwy (s : State) (k lo n v : Nat) : (s.setFld k lo n v).gwy = s.gwy := rfl
@[simp] theorem State.setFld_hbr (s : State) (k lo n v : Nat) : (s.setFld k lo n v).hbr = s.hbr := rfl
@[simp] theorem State.setFld_cpx (s : State) (k lo n v : Nat) : (s.setFld k lo n v).cpx = s.cpx := rfl
@[simp] theorem State.setFld_flt (s : State) (k lo n v : Nat) : (s.setFld k lo n v).flt = s.flt := rfl

@[simp] theorem State.setBit_pending (s : State) (k b : Nat) (v : Bool) : (s.setBit k b v).pending = s.pending := rfl
@[simp] theorem State.setBit_tim (s : State) (k b : Nat) (v : Bool) : (s.setBit k b v).tim = s.tim := rfl
@[simp] theorem State.setBit_rtc (s : State) (k b : Nat) (v : Bool) : (s.setBit k b v).rtc = s.rtc := rfl
@[simp] theorem State.setBit_variant (s : State) (k b : Nat) (v : Bool) : (s.setBit k b v).variant = s.variant := rfl
@[simp] theorem State.setBit_nowNs (s : State) (k b : Nat) (v : Bool) : (s.setBit k b v).nowNs = s.nowNs := rfl
@[simp] theorem State.setBit_freeCtr (s : State) (k b : Nat) (v : Bool) : (s.setBit k b v).freeCtr = s.freeCtr := rfl
@[simp] theorem State.setBit_live (s : State) (k b : Nat) (v : Bool) : (s.setBit k b v).live = s.live := rfl
@[simp] theorem State.setBit_mem (s : State) (k b : Nat) (v : Bool) : (s.setBit k b v).mem = s.mem := rfl
@[simp] theorem State.setBit_busReply (s : State) (k b : Nat) (v : Bool) : (s.setBit k b v).busReply = s.busReply := rfl
@[simp] theorem State.setBit_edgeQueue (s : State) (k b : Nat) (v : Bool) : (s.setBit k b v).edgeQueue = s.edgeQueue := rfl
@[simp] theorem State.setBit_aonQueue (s : State) (k b : Nat) (v : Bool) : (s.setBit k b v).aonQueue = s.aonQueue := rfl
@[simp] theorem State.setBit_islands (s : State) (k b : Nat) (v : Bool) : (s.setBit k b v).islands = s.islands := rfl
@[simp] theorem State.setBit_coreHeld (s : State) (k b : Nat) (v : Bool) : (s.setBit k b v).coreHeld = s.coreHeld := rfl
@[simp] theorem State.setBit_quiescing (s : State) (k b : Nat) (v : Bool) : (s.setBit k b v).quiescing = s.quiescing := rfl
@[simp] theorem State.setBit_commits (s : State) (k b : Nat) (v : Bool) : (s.setBit k b v).commits = s.commits := rfl
@[simp] theorem State.setBit_saturated (s : State) (k b : Nat) (v : Bool) : (s.setBit k b v).saturated = s.saturated := rfl
@[simp] theorem State.setBit_monLevels (s : State) (k b : Nat) (v : Bool) : (s.setBit k b v).monLevels = s.monLevels := rfl
@[simp] theorem State.setBit_traverse (s : State) (k b : Nat) (v : Bool) : (s.setBit k b v).traverse = s.traverse := rfl
@[simp] theorem State.setBit_powerLinkA (s : State) (k b : Nat) (v : Bool) : (s.setBit k b v).powerLinkA = s.powerLinkA := rfl
@[simp] theorem State.setBit_powerLinkB (s : State) (k b : Nat) (v : Bool) : (s.setBit k b v).powerLinkB = s.powerLinkB := rfl
@[simp] theorem State.setBit_supply (s : State) (k b : Nat) (v : Bool) : (s.setBit k b v).supply = s.supply := rfl
@[simp] theorem State.setBit_reports (s : State) (k b : Nat) (v : Bool) : (s.setBit k b v).reports = s.reports := rfl
@[simp] theorem State.setBit_bbQueue (s : State) (k b : Nat) (v : Bool) : (s.setBit k b v).bbQueue = s.bbQueue := rfl
@[simp] theorem State.setBit_bbLost (s : State) (k b : Nat) (v : Bool) : (s.setBit k b v).bbLost = s.bbLost := rfl
@[simp] theorem State.setBit_irqs (s : State) (k b : Nat) (v : Bool) : (s.setBit k b v).irqs = s.irqs := rfl
@[simp] theorem State.setBit_flowFrames (s : State) (k b : Nat) (v : Bool) : (s.setBit k b v).flowFrames = s.flowFrames := rfl
@[simp] theorem State.setBit_frames (s : State) (k b : Nat) (v : Bool) : (s.setBit k b v).frames = s.frames := rfl
@[simp] theorem State.setBit_nextFrame (s : State) (k b : Nat) (v : Bool) : (s.setBit k b v).nextFrame = s.nextFrame := rfl
@[simp] theorem State.setBit_ports (s : State) (k b : Nat) (v : Bool) : (s.setBit k b v).ports = s.ports := rfl
@[simp] theorem State.setBit_fab (s : State) (k b : Nat) (v : Bool) : (s.setBit k b v).fab = s.fab := rfl
@[simp] theorem State.setBit_cls (s : State) (k b : Nat) (v : Bool) : (s.setBit k b v).cls = s.cls := rfl
@[simp] theorem State.setBit_rtk (s : State) (k b : Nat) (v : Bool) : (s.setBit k b v).rtk = s.rtk := rfl
@[simp] theorem State.setBit_eccBad (s : State) (k b : Nat) (v : Bool) : (s.setBit k b v).eccBad = s.eccBad := rfl
@[simp] theorem State.setBit_debugScope (s : State) (k b : Nat) (v : Bool) : (s.setBit k b v).debugScope = s.debugScope := rfl
@[simp] theorem State.setBit_tm (s : State) (k b : Nat) (v : Bool) : (s.setBit k b v).tm = s.tm := rfl
@[simp] theorem State.setBit_cip (s : State) (k b : Nat) (v : Bool) : (s.setBit k b v).cip = s.cip := rfl
@[simp] theorem State.setBit_vlt (s : State) (k b : Nat) (v : Bool) : (s.setBit k b v).vlt = s.vlt := rfl
@[simp] theorem State.setBit_power (s : State) (k b : Nat) (v : Bool) : (s.setBit k b v).power = s.power := rfl
@[simp] theorem State.setBit_wak (s : State) (k b : Nat) (v : Bool) : (s.setBit k b v).wak = s.wak := rfl
@[simp] theorem State.setBit_boot (s : State) (k b : Nat) (v : Bool) : (s.setBit k b v).boot = s.boot := rfl
@[simp] theorem State.setBit_box (s : State) (k b : Nat) (v : Bool) : (s.setBit k b v).box = s.box := rfl
@[simp] theorem State.setBit_gwy (s : State) (k b : Nat) (v : Bool) : (s.setBit k b v).gwy = s.gwy := rfl
@[simp] theorem State.setBit_hbr (s : State) (k b : Nat) (v : Bool) : (s.setBit k b v).hbr = s.hbr := rfl
@[simp] theorem State.setBit_cpx (s : State) (k b : Nat) (v : Bool) : (s.setBit k b v).cpx = s.cpx := rfl
@[simp] theorem State.setBit_flt (s : State) (k b : Nat) (v : Bool) : (s.setBit k b v).flt = s.flt := rfl

@[simp] theorem State.wrLive_pending (s : State) (bank k : Nat) (w : Word) : (s.wrLive bank k w).pending = s.pending := rfl
@[simp] theorem State.wrLive_tim (s : State) (bank k : Nat) (w : Word) : (s.wrLive bank k w).tim = s.tim := rfl
@[simp] theorem State.wrLive_rtc (s : State) (bank k : Nat) (w : Word) : (s.wrLive bank k w).rtc = s.rtc := rfl
@[simp] theorem State.wrLive_variant (s : State) (bank k : Nat) (w : Word) : (s.wrLive bank k w).variant = s.variant := rfl
@[simp] theorem State.wrLive_nowNs (s : State) (bank k : Nat) (w : Word) : (s.wrLive bank k w).nowNs = s.nowNs := rfl
@[simp] theorem State.wrLive_freeCtr (s : State) (bank k : Nat) (w : Word) : (s.wrLive bank k w).freeCtr = s.freeCtr := rfl
@[simp] theorem State.wrLive_regs (s : State) (bank k : Nat) (w : Word) : (s.wrLive bank k w).regs = s.regs := rfl
@[simp] theorem State.wrLive_mem (s : State) (bank k : Nat) (w : Word) : (s.wrLive bank k w).mem = s.mem := rfl
@[simp] theorem State.wrLive_busReply (s : State) (bank k : Nat) (w : Word) : (s.wrLive bank k w).busReply = s.busReply := rfl
@[simp] theorem State.wrLive_edgeQueue (s : State) (bank k : Nat) (w : Word) : (s.wrLive bank k w).edgeQueue = s.edgeQueue := rfl
@[simp] theorem State.wrLive_aonQueue (s : State) (bank k : Nat) (w : Word) : (s.wrLive bank k w).aonQueue = s.aonQueue := rfl
@[simp] theorem State.wrLive_islands (s : State) (bank k : Nat) (w : Word) : (s.wrLive bank k w).islands = s.islands := rfl
@[simp] theorem State.wrLive_coreHeld (s : State) (bank k : Nat) (w : Word) : (s.wrLive bank k w).coreHeld = s.coreHeld := rfl
@[simp] theorem State.wrLive_quiescing (s : State) (bank k : Nat) (w : Word) : (s.wrLive bank k w).quiescing = s.quiescing := rfl
@[simp] theorem State.wrLive_commits (s : State) (bank k : Nat) (w : Word) : (s.wrLive bank k w).commits = s.commits := rfl
@[simp] theorem State.wrLive_saturated (s : State) (bank k : Nat) (w : Word) : (s.wrLive bank k w).saturated = s.saturated := rfl
@[simp] theorem State.wrLive_monLevels (s : State) (bank k : Nat) (w : Word) : (s.wrLive bank k w).monLevels = s.monLevels := rfl
@[simp] theorem State.wrLive_traverse (s : State) (bank k : Nat) (w : Word) : (s.wrLive bank k w).traverse = s.traverse := rfl
@[simp] theorem State.wrLive_powerLinkA (s : State) (bank k : Nat) (w : Word) : (s.wrLive bank k w).powerLinkA = s.powerLinkA := rfl
@[simp] theorem State.wrLive_powerLinkB (s : State) (bank k : Nat) (w : Word) : (s.wrLive bank k w).powerLinkB = s.powerLinkB := rfl
@[simp] theorem State.wrLive_supply (s : State) (bank k : Nat) (w : Word) : (s.wrLive bank k w).supply = s.supply := rfl
@[simp] theorem State.wrLive_reports (s : State) (bank k : Nat) (w : Word) : (s.wrLive bank k w).reports = s.reports := rfl
@[simp] theorem State.wrLive_bbQueue (s : State) (bank k : Nat) (w : Word) : (s.wrLive bank k w).bbQueue = s.bbQueue := rfl
@[simp] theorem State.wrLive_bbLost (s : State) (bank k : Nat) (w : Word) : (s.wrLive bank k w).bbLost = s.bbLost := rfl
@[simp] theorem State.wrLive_irqs (s : State) (bank k : Nat) (w : Word) : (s.wrLive bank k w).irqs = s.irqs := rfl
@[simp] theorem State.wrLive_flowFrames (s : State) (bank k : Nat) (w : Word) : (s.wrLive bank k w).flowFrames = s.flowFrames := rfl
@[simp] theorem State.wrLive_frames (s : State) (bank k : Nat) (w : Word) : (s.wrLive bank k w).frames = s.frames := rfl
@[simp] theorem State.wrLive_nextFrame (s : State) (bank k : Nat) (w : Word) : (s.wrLive bank k w).nextFrame = s.nextFrame := rfl
@[simp] theorem State.wrLive_ports (s : State) (bank k : Nat) (w : Word) : (s.wrLive bank k w).ports = s.ports := rfl
@[simp] theorem State.wrLive_fab (s : State) (bank k : Nat) (w : Word) : (s.wrLive bank k w).fab = s.fab := rfl
@[simp] theorem State.wrLive_cls (s : State) (bank k : Nat) (w : Word) : (s.wrLive bank k w).cls = s.cls := rfl
@[simp] theorem State.wrLive_rtk (s : State) (bank k : Nat) (w : Word) : (s.wrLive bank k w).rtk = s.rtk := rfl
@[simp] theorem State.wrLive_eccBad (s : State) (bank k : Nat) (w : Word) : (s.wrLive bank k w).eccBad = s.eccBad := rfl
@[simp] theorem State.wrLive_debugScope (s : State) (bank k : Nat) (w : Word) : (s.wrLive bank k w).debugScope = s.debugScope := rfl
@[simp] theorem State.wrLive_tm (s : State) (bank k : Nat) (w : Word) : (s.wrLive bank k w).tm = s.tm := rfl
@[simp] theorem State.wrLive_cip (s : State) (bank k : Nat) (w : Word) : (s.wrLive bank k w).cip = s.cip := rfl
@[simp] theorem State.wrLive_vlt (s : State) (bank k : Nat) (w : Word) : (s.wrLive bank k w).vlt = s.vlt := rfl
@[simp] theorem State.wrLive_power (s : State) (bank k : Nat) (w : Word) : (s.wrLive bank k w).power = s.power := rfl
@[simp] theorem State.wrLive_wak (s : State) (bank k : Nat) (w : Word) : (s.wrLive bank k w).wak = s.wak := rfl
@[simp] theorem State.wrLive_boot (s : State) (bank k : Nat) (w : Word) : (s.wrLive bank k w).boot = s.boot := rfl
@[simp] theorem State.wrLive_box (s : State) (bank k : Nat) (w : Word) : (s.wrLive bank k w).box = s.box := rfl
@[simp] theorem State.wrLive_gwy (s : State) (bank k : Nat) (w : Word) : (s.wrLive bank k w).gwy = s.gwy := rfl
@[simp] theorem State.wrLive_hbr (s : State) (bank k : Nat) (w : Word) : (s.wrLive bank k w).hbr = s.hbr := rfl
@[simp] theorem State.wrLive_cpx (s : State) (bank k : Nat) (w : Word) : (s.wrLive bank k w).cpx = s.cpx := rfl
@[simp] theorem State.wrLive_flt (s : State) (bank k : Nat) (w : Word) : (s.wrLive bank k w).flt = s.flt := rfl

@[simp] theorem State.wrByte_pending (s : State) (a : Nat) (b : Byte) : (s.wrByte a b).pending = s.pending := rfl
@[simp] theorem State.wrByte_tim (s : State) (a : Nat) (b : Byte) : (s.wrByte a b).tim = s.tim := rfl
@[simp] theorem State.wrByte_rtc (s : State) (a : Nat) (b : Byte) : (s.wrByte a b).rtc = s.rtc := rfl
@[simp] theorem State.wrByte_variant (s : State) (a : Nat) (b : Byte) : (s.wrByte a b).variant = s.variant := rfl
@[simp] theorem State.wrByte_nowNs (s : State) (a : Nat) (b : Byte) : (s.wrByte a b).nowNs = s.nowNs := rfl
@[simp] theorem State.wrByte_freeCtr (s : State) (a : Nat) (b : Byte) : (s.wrByte a b).freeCtr = s.freeCtr := rfl
@[simp] theorem State.wrByte_regs (s : State) (a : Nat) (b : Byte) : (s.wrByte a b).regs = s.regs := rfl
@[simp] theorem State.wrByte_live (s : State) (a : Nat) (b : Byte) : (s.wrByte a b).live = s.live := rfl
@[simp] theorem State.wrByte_busReply (s : State) (a : Nat) (b : Byte) : (s.wrByte a b).busReply = s.busReply := rfl
@[simp] theorem State.wrByte_edgeQueue (s : State) (a : Nat) (b : Byte) : (s.wrByte a b).edgeQueue = s.edgeQueue := rfl
@[simp] theorem State.wrByte_aonQueue (s : State) (a : Nat) (b : Byte) : (s.wrByte a b).aonQueue = s.aonQueue := rfl
@[simp] theorem State.wrByte_islands (s : State) (a : Nat) (b : Byte) : (s.wrByte a b).islands = s.islands := rfl
@[simp] theorem State.wrByte_coreHeld (s : State) (a : Nat) (b : Byte) : (s.wrByte a b).coreHeld = s.coreHeld := rfl
@[simp] theorem State.wrByte_quiescing (s : State) (a : Nat) (b : Byte) : (s.wrByte a b).quiescing = s.quiescing := rfl
@[simp] theorem State.wrByte_commits (s : State) (a : Nat) (b : Byte) : (s.wrByte a b).commits = s.commits := rfl
@[simp] theorem State.wrByte_saturated (s : State) (a : Nat) (b : Byte) : (s.wrByte a b).saturated = s.saturated := rfl
@[simp] theorem State.wrByte_monLevels (s : State) (a : Nat) (b : Byte) : (s.wrByte a b).monLevels = s.monLevels := rfl
@[simp] theorem State.wrByte_traverse (s : State) (a : Nat) (b : Byte) : (s.wrByte a b).traverse = s.traverse := rfl
@[simp] theorem State.wrByte_powerLinkA (s : State) (a : Nat) (b : Byte) : (s.wrByte a b).powerLinkA = s.powerLinkA := rfl
@[simp] theorem State.wrByte_powerLinkB (s : State) (a : Nat) (b : Byte) : (s.wrByte a b).powerLinkB = s.powerLinkB := rfl
@[simp] theorem State.wrByte_supply (s : State) (a : Nat) (b : Byte) : (s.wrByte a b).supply = s.supply := rfl
@[simp] theorem State.wrByte_reports (s : State) (a : Nat) (b : Byte) : (s.wrByte a b).reports = s.reports := rfl
@[simp] theorem State.wrByte_bbQueue (s : State) (a : Nat) (b : Byte) : (s.wrByte a b).bbQueue = s.bbQueue := rfl
@[simp] theorem State.wrByte_bbLost (s : State) (a : Nat) (b : Byte) : (s.wrByte a b).bbLost = s.bbLost := rfl
@[simp] theorem State.wrByte_irqs (s : State) (a : Nat) (b : Byte) : (s.wrByte a b).irqs = s.irqs := rfl
@[simp] theorem State.wrByte_flowFrames (s : State) (a : Nat) (b : Byte) : (s.wrByte a b).flowFrames = s.flowFrames := rfl
@[simp] theorem State.wrByte_frames (s : State) (a : Nat) (b : Byte) : (s.wrByte a b).frames = s.frames := rfl
@[simp] theorem State.wrByte_nextFrame (s : State) (a : Nat) (b : Byte) : (s.wrByte a b).nextFrame = s.nextFrame := rfl
@[simp] theorem State.wrByte_ports (s : State) (a : Nat) (b : Byte) : (s.wrByte a b).ports = s.ports := rfl
@[simp] theorem State.wrByte_fab (s : State) (a : Nat) (b : Byte) : (s.wrByte a b).fab = s.fab := rfl
@[simp] theorem State.wrByte_cls (s : State) (a : Nat) (b : Byte) : (s.wrByte a b).cls = s.cls := rfl
@[simp] theorem State.wrByte_rtk (s : State) (a : Nat) (b : Byte) : (s.wrByte a b).rtk = s.rtk := rfl
@[simp] theorem State.wrByte_eccBad (s : State) (a : Nat) (b : Byte) : (s.wrByte a b).eccBad = s.eccBad := rfl
@[simp] theorem State.wrByte_debugScope (s : State) (a : Nat) (b : Byte) : (s.wrByte a b).debugScope = s.debugScope := rfl
@[simp] theorem State.wrByte_tm (s : State) (a : Nat) (b : Byte) : (s.wrByte a b).tm = s.tm := rfl
@[simp] theorem State.wrByte_cip (s : State) (a : Nat) (b : Byte) : (s.wrByte a b).cip = s.cip := rfl
@[simp] theorem State.wrByte_vlt (s : State) (a : Nat) (b : Byte) : (s.wrByte a b).vlt = s.vlt := rfl
@[simp] theorem State.wrByte_power (s : State) (a : Nat) (b : Byte) : (s.wrByte a b).power = s.power := rfl
@[simp] theorem State.wrByte_wak (s : State) (a : Nat) (b : Byte) : (s.wrByte a b).wak = s.wak := rfl
@[simp] theorem State.wrByte_boot (s : State) (a : Nat) (b : Byte) : (s.wrByte a b).boot = s.boot := rfl
@[simp] theorem State.wrByte_box (s : State) (a : Nat) (b : Byte) : (s.wrByte a b).box = s.box := rfl
@[simp] theorem State.wrByte_gwy (s : State) (a : Nat) (b : Byte) : (s.wrByte a b).gwy = s.gwy := rfl
@[simp] theorem State.wrByte_hbr (s : State) (a : Nat) (b : Byte) : (s.wrByte a b).hbr = s.hbr := rfl
@[simp] theorem State.wrByte_cpx (s : State) (a : Nat) (b : Byte) : (s.wrByte a b).cpx = s.cpx := rfl
@[simp] theorem State.wrByte_flt (s : State) (a : Nat) (b : Byte) : (s.wrByte a b).flt = s.flt := rfl

@[simp] theorem State.fault_pending (s : State) (code data : Nat) : (s.fault code data).pending = s.pending := rfl
@[simp] theorem State.fault_tim (s : State) (code data : Nat) : (s.fault code data).tim = s.tim := rfl
@[simp] theorem State.fault_rtc (s : State) (code data : Nat) : (s.fault code data).rtc = s.rtc := rfl
@[simp] theorem State.fault_variant (s : State) (code data : Nat) : (s.fault code data).variant = s.variant := rfl
@[simp] theorem State.fault_nowNs (s : State) (code data : Nat) : (s.fault code data).nowNs = s.nowNs := rfl
@[simp] theorem State.fault_freeCtr (s : State) (code data : Nat) : (s.fault code data).freeCtr = s.freeCtr := rfl
@[simp] theorem State.fault_regs (s : State) (code data : Nat) : (s.fault code data).regs = s.regs := rfl
@[simp] theorem State.fault_live (s : State) (code data : Nat) : (s.fault code data).live = s.live := rfl
@[simp] theorem State.fault_mem (s : State) (code data : Nat) : (s.fault code data).mem = s.mem := rfl
@[simp] theorem State.fault_busReply (s : State) (code data : Nat) : (s.fault code data).busReply = s.busReply := rfl
@[simp] theorem State.fault_edgeQueue (s : State) (code data : Nat) : (s.fault code data).edgeQueue = s.edgeQueue := rfl
@[simp] theorem State.fault_aonQueue (s : State) (code data : Nat) : (s.fault code data).aonQueue = s.aonQueue := rfl
@[simp] theorem State.fault_islands (s : State) (code data : Nat) : (s.fault code data).islands = s.islands := rfl
@[simp] theorem State.fault_coreHeld (s : State) (code data : Nat) : (s.fault code data).coreHeld = s.coreHeld := rfl
@[simp] theorem State.fault_quiescing (s : State) (code data : Nat) : (s.fault code data).quiescing = s.quiescing := rfl
@[simp] theorem State.fault_commits (s : State) (code data : Nat) : (s.fault code data).commits = s.commits := rfl
@[simp] theorem State.fault_saturated (s : State) (code data : Nat) : (s.fault code data).saturated = s.saturated := rfl
@[simp] theorem State.fault_monLevels (s : State) (code data : Nat) : (s.fault code data).monLevels = s.monLevels := rfl
@[simp] theorem State.fault_traverse (s : State) (code data : Nat) : (s.fault code data).traverse = s.traverse := rfl
@[simp] theorem State.fault_powerLinkA (s : State) (code data : Nat) : (s.fault code data).powerLinkA = s.powerLinkA := rfl
@[simp] theorem State.fault_powerLinkB (s : State) (code data : Nat) : (s.fault code data).powerLinkB = s.powerLinkB := rfl
@[simp] theorem State.fault_supply (s : State) (code data : Nat) : (s.fault code data).supply = s.supply := rfl
@[simp] theorem State.fault_bbQueue (s : State) (code data : Nat) : (s.fault code data).bbQueue = s.bbQueue := rfl
@[simp] theorem State.fault_bbLost (s : State) (code data : Nat) : (s.fault code data).bbLost = s.bbLost := rfl
@[simp] theorem State.fault_irqs (s : State) (code data : Nat) : (s.fault code data).irqs = s.irqs := rfl
@[simp] theorem State.fault_flowFrames (s : State) (code data : Nat) : (s.fault code data).flowFrames = s.flowFrames := rfl
@[simp] theorem State.fault_frames (s : State) (code data : Nat) : (s.fault code data).frames = s.frames := rfl
@[simp] theorem State.fault_nextFrame (s : State) (code data : Nat) : (s.fault code data).nextFrame = s.nextFrame := rfl
@[simp] theorem State.fault_ports (s : State) (code data : Nat) : (s.fault code data).ports = s.ports := rfl
@[simp] theorem State.fault_fab (s : State) (code data : Nat) : (s.fault code data).fab = s.fab := rfl
@[simp] theorem State.fault_cls (s : State) (code data : Nat) : (s.fault code data).cls = s.cls := rfl
@[simp] theorem State.fault_rtk (s : State) (code data : Nat) : (s.fault code data).rtk = s.rtk := rfl
@[simp] theorem State.fault_eccBad (s : State) (code data : Nat) : (s.fault code data).eccBad = s.eccBad := rfl
@[simp] theorem State.fault_debugScope (s : State) (code data : Nat) : (s.fault code data).debugScope = s.debugScope := rfl
@[simp] theorem State.fault_tm (s : State) (code data : Nat) : (s.fault code data).tm = s.tm := rfl
@[simp] theorem State.fault_cip (s : State) (code data : Nat) : (s.fault code data).cip = s.cip := rfl
@[simp] theorem State.fault_vlt (s : State) (code data : Nat) : (s.fault code data).vlt = s.vlt := rfl
@[simp] theorem State.fault_power (s : State) (code data : Nat) : (s.fault code data).power = s.power := rfl
@[simp] theorem State.fault_wak (s : State) (code data : Nat) : (s.fault code data).wak = s.wak := rfl
@[simp] theorem State.fault_boot (s : State) (code data : Nat) : (s.fault code data).boot = s.boot := rfl
@[simp] theorem State.fault_box (s : State) (code data : Nat) : (s.fault code data).box = s.box := rfl
@[simp] theorem State.fault_gwy (s : State) (code data : Nat) : (s.fault code data).gwy = s.gwy := rfl
@[simp] theorem State.fault_hbr (s : State) (code data : Nat) : (s.fault code data).hbr = s.hbr := rfl
@[simp] theorem State.fault_cpx (s : State) (code data : Nat) : (s.fault code data).cpx = s.cpx := rfl
@[simp] theorem State.fault_flt (s : State) (code data : Nat) : (s.fault code data).flt = s.flt := rfl

@[simp] theorem State.setIsland_pending (s : State) (i : Island) (v : IslandState) : (s.setIsland i v).pending = s.pending := rfl
@[simp] theorem State.setIsland_tim (s : State) (i : Island) (v : IslandState) : (s.setIsland i v).tim = s.tim := rfl
@[simp] theorem State.setIsland_rtc (s : State) (i : Island) (v : IslandState) : (s.setIsland i v).rtc = s.rtc := rfl
@[simp] theorem State.setIsland_variant (s : State) (i : Island) (v : IslandState) : (s.setIsland i v).variant = s.variant := rfl
@[simp] theorem State.setIsland_nowNs (s : State) (i : Island) (v : IslandState) : (s.setIsland i v).nowNs = s.nowNs := rfl
@[simp] theorem State.setIsland_freeCtr (s : State) (i : Island) (v : IslandState) : (s.setIsland i v).freeCtr = s.freeCtr := rfl
@[simp] theorem State.setIsland_regs (s : State) (i : Island) (v : IslandState) : (s.setIsland i v).regs = s.regs := rfl
@[simp] theorem State.setIsland_live (s : State) (i : Island) (v : IslandState) : (s.setIsland i v).live = s.live := rfl
@[simp] theorem State.setIsland_mem (s : State) (i : Island) (v : IslandState) : (s.setIsland i v).mem = s.mem := rfl
@[simp] theorem State.setIsland_busReply (s : State) (i : Island) (v : IslandState) : (s.setIsland i v).busReply = s.busReply := rfl
@[simp] theorem State.setIsland_edgeQueue (s : State) (i : Island) (v : IslandState) : (s.setIsland i v).edgeQueue = s.edgeQueue := rfl
@[simp] theorem State.setIsland_aonQueue (s : State) (i : Island) (v : IslandState) : (s.setIsland i v).aonQueue = s.aonQueue := rfl
@[simp] theorem State.setIsland_coreHeld (s : State) (i : Island) (v : IslandState) : (s.setIsland i v).coreHeld = s.coreHeld := rfl
@[simp] theorem State.setIsland_quiescing (s : State) (i : Island) (v : IslandState) : (s.setIsland i v).quiescing = s.quiescing := rfl
@[simp] theorem State.setIsland_commits (s : State) (i : Island) (v : IslandState) : (s.setIsland i v).commits = s.commits := rfl
@[simp] theorem State.setIsland_saturated (s : State) (i : Island) (v : IslandState) : (s.setIsland i v).saturated = s.saturated := rfl
@[simp] theorem State.setIsland_monLevels (s : State) (i : Island) (v : IslandState) : (s.setIsland i v).monLevels = s.monLevels := rfl
@[simp] theorem State.setIsland_traverse (s : State) (i : Island) (v : IslandState) : (s.setIsland i v).traverse = s.traverse := rfl
@[simp] theorem State.setIsland_powerLinkA (s : State) (i : Island) (v : IslandState) : (s.setIsland i v).powerLinkA = s.powerLinkA := rfl
@[simp] theorem State.setIsland_powerLinkB (s : State) (i : Island) (v : IslandState) : (s.setIsland i v).powerLinkB = s.powerLinkB := rfl
@[simp] theorem State.setIsland_supply (s : State) (i : Island) (v : IslandState) : (s.setIsland i v).supply = s.supply := rfl
@[simp] theorem State.setIsland_reports (s : State) (i : Island) (v : IslandState) : (s.setIsland i v).reports = s.reports := rfl
@[simp] theorem State.setIsland_bbQueue (s : State) (i : Island) (v : IslandState) : (s.setIsland i v).bbQueue = s.bbQueue := rfl
@[simp] theorem State.setIsland_bbLost (s : State) (i : Island) (v : IslandState) : (s.setIsland i v).bbLost = s.bbLost := rfl
@[simp] theorem State.setIsland_irqs (s : State) (i : Island) (v : IslandState) : (s.setIsland i v).irqs = s.irqs := rfl
@[simp] theorem State.setIsland_flowFrames (s : State) (i : Island) (v : IslandState) : (s.setIsland i v).flowFrames = s.flowFrames := rfl
@[simp] theorem State.setIsland_frames (s : State) (i : Island) (v : IslandState) : (s.setIsland i v).frames = s.frames := rfl
@[simp] theorem State.setIsland_nextFrame (s : State) (i : Island) (v : IslandState) : (s.setIsland i v).nextFrame = s.nextFrame := rfl
@[simp] theorem State.setIsland_ports (s : State) (i : Island) (v : IslandState) : (s.setIsland i v).ports = s.ports := rfl
@[simp] theorem State.setIsland_fab (s : State) (i : Island) (v : IslandState) : (s.setIsland i v).fab = s.fab := rfl
@[simp] theorem State.setIsland_cls (s : State) (i : Island) (v : IslandState) : (s.setIsland i v).cls = s.cls := rfl
@[simp] theorem State.setIsland_rtk (s : State) (i : Island) (v : IslandState) : (s.setIsland i v).rtk = s.rtk := rfl
@[simp] theorem State.setIsland_eccBad (s : State) (i : Island) (v : IslandState) : (s.setIsland i v).eccBad = s.eccBad := rfl
@[simp] theorem State.setIsland_debugScope (s : State) (i : Island) (v : IslandState) : (s.setIsland i v).debugScope = s.debugScope := rfl
@[simp] theorem State.setIsland_tm (s : State) (i : Island) (v : IslandState) : (s.setIsland i v).tm = s.tm := rfl
@[simp] theorem State.setIsland_cip (s : State) (i : Island) (v : IslandState) : (s.setIsland i v).cip = s.cip := rfl
@[simp] theorem State.setIsland_vlt (s : State) (i : Island) (v : IslandState) : (s.setIsland i v).vlt = s.vlt := rfl
@[simp] theorem State.setIsland_power (s : State) (i : Island) (v : IslandState) : (s.setIsland i v).power = s.power := rfl
@[simp] theorem State.setIsland_wak (s : State) (i : Island) (v : IslandState) : (s.setIsland i v).wak = s.wak := rfl
@[simp] theorem State.setIsland_boot (s : State) (i : Island) (v : IslandState) : (s.setIsland i v).boot = s.boot := rfl
@[simp] theorem State.setIsland_box (s : State) (i : Island) (v : IslandState) : (s.setIsland i v).box = s.box := rfl
@[simp] theorem State.setIsland_gwy (s : State) (i : Island) (v : IslandState) : (s.setIsland i v).gwy = s.gwy := rfl
@[simp] theorem State.setIsland_hbr (s : State) (i : Island) (v : IslandState) : (s.setIsland i v).hbr = s.hbr := rfl
@[simp] theorem State.setIsland_cpx (s : State) (i : Island) (v : IslandState) : (s.setIsland i v).cpx = s.cpx := rfl
@[simp] theorem State.setIsland_flt (s : State) (i : Island) (v : IslandState) : (s.setIsland i v).flt = s.flt := rfl

@[simp] theorem State.irq_pending (s : State) (n : Nat) : (s.irq n).pending = s.pending :=
  (State.irq_keeps (all_contains [Part.irqs]) (State.Keeps.refl _ s) n).pending
@[simp] theorem State.irq_tim (s : State) (n : Nat) : (s.irq n).tim = s.tim :=
  (State.irq_keeps (all_contains [Part.irqs]) (State.Keeps.refl _ s) n).same .tim rfl
@[simp] theorem State.irq_rtc (s : State) (n : Nat) : (s.irq n).rtc = s.rtc :=
  (State.irq_keeps (all_contains [Part.irqs]) (State.Keeps.refl _ s) n).same .rtc rfl
@[simp] theorem State.irq_variant (s : State) (n : Nat) : (s.irq n).variant = s.variant :=
  (State.irq_keeps (all_contains [Part.irqs]) (State.Keeps.refl _ s) n).variant
@[simp] theorem State.irq_nowNs (s : State) (n : Nat) : (s.irq n).nowNs = s.nowNs :=
  (State.irq_keeps (all_contains [Part.irqs]) (State.Keeps.refl _ s) n).nowNs
@[simp] theorem State.irq_regs (s : State) (n : Nat) : (s.irq n).regs = s.regs :=
  (State.irq_keeps (all_contains [Part.irqs]) (State.Keeps.refl _ s) n).same .regs rfl
@[simp] theorem State.irq_live (s : State) (n : Nat) : (s.irq n).live = s.live :=
  (State.irq_keeps (all_contains [Part.irqs]) (State.Keeps.refl _ s) n).same .live rfl
@[simp] theorem State.irq_mem (s : State) (n : Nat) : (s.irq n).mem = s.mem :=
  (State.irq_keeps (all_contains [Part.irqs]) (State.Keeps.refl _ s) n).same .mem rfl
@[simp] theorem State.irq_busReply (s : State) (n : Nat) : (s.irq n).busReply = s.busReply :=
  (State.irq_keeps (all_contains [Part.irqs]) (State.Keeps.refl _ s) n).same .busReply rfl
@[simp] theorem State.irq_edgeQueue (s : State) (n : Nat) : (s.irq n).edgeQueue = s.edgeQueue :=
  (State.irq_keeps (all_contains [Part.irqs]) (State.Keeps.refl _ s) n).same .edgeQueue rfl
@[simp] theorem State.irq_aonQueue (s : State) (n : Nat) : (s.irq n).aonQueue = s.aonQueue :=
  (State.irq_keeps (all_contains [Part.irqs]) (State.Keeps.refl _ s) n).same .aonQueue rfl
@[simp] theorem State.irq_islands (s : State) (n : Nat) : (s.irq n).islands = s.islands :=
  (State.irq_keeps (all_contains [Part.irqs]) (State.Keeps.refl _ s) n).same .islands rfl
@[simp] theorem State.irq_coreHeld (s : State) (n : Nat) : (s.irq n).coreHeld = s.coreHeld :=
  (State.irq_keeps (all_contains [Part.irqs]) (State.Keeps.refl _ s) n).same .coreHeld rfl
@[simp] theorem State.irq_quiescing (s : State) (n : Nat) : (s.irq n).quiescing = s.quiescing :=
  (State.irq_keeps (all_contains [Part.irqs]) (State.Keeps.refl _ s) n).same .quiescing rfl
@[simp] theorem State.irq_commits (s : State) (n : Nat) : (s.irq n).commits = s.commits :=
  (State.irq_keeps (all_contains [Part.irqs]) (State.Keeps.refl _ s) n).same .commits rfl
@[simp] theorem State.irq_saturated (s : State) (n : Nat) : (s.irq n).saturated = s.saturated :=
  (State.irq_keeps (all_contains [Part.irqs]) (State.Keeps.refl _ s) n).same .saturated rfl
@[simp] theorem State.irq_monLevels (s : State) (n : Nat) : (s.irq n).monLevels = s.monLevels :=
  (State.irq_keeps (all_contains [Part.irqs]) (State.Keeps.refl _ s) n).same .monLevels rfl
@[simp] theorem State.irq_traverse (s : State) (n : Nat) : (s.irq n).traverse = s.traverse :=
  (State.irq_keeps (all_contains [Part.irqs]) (State.Keeps.refl _ s) n).same .traverse rfl
@[simp] theorem State.irq_powerLinkA (s : State) (n : Nat) : (s.irq n).powerLinkA = s.powerLinkA :=
  (State.irq_keeps (all_contains [Part.irqs]) (State.Keeps.refl _ s) n).same .powerLinkA rfl
@[simp] theorem State.irq_powerLinkB (s : State) (n : Nat) : (s.irq n).powerLinkB = s.powerLinkB :=
  (State.irq_keeps (all_contains [Part.irqs]) (State.Keeps.refl _ s) n).same .powerLinkB rfl
@[simp] theorem State.irq_supply (s : State) (n : Nat) : (s.irq n).supply = s.supply :=
  (State.irq_keeps (all_contains [Part.irqs]) (State.Keeps.refl _ s) n).same .supply rfl
@[simp] theorem State.irq_reports (s : State) (n : Nat) : (s.irq n).reports = s.reports :=
  (State.irq_keeps (all_contains [Part.irqs]) (State.Keeps.refl _ s) n).same .reports rfl
@[simp] theorem State.irq_bbQueue (s : State) (n : Nat) : (s.irq n).bbQueue = s.bbQueue :=
  (State.irq_keeps (all_contains [Part.irqs]) (State.Keeps.refl _ s) n).same .bbQueue rfl
@[simp] theorem State.irq_bbLost (s : State) (n : Nat) : (s.irq n).bbLost = s.bbLost :=
  (State.irq_keeps (all_contains [Part.irqs]) (State.Keeps.refl _ s) n).same .bbLost rfl
@[simp] theorem State.irq_flowFrames (s : State) (n : Nat) : (s.irq n).flowFrames = s.flowFrames :=
  (State.irq_keeps (all_contains [Part.irqs]) (State.Keeps.refl _ s) n).same .flowFrames rfl
@[simp] theorem State.irq_frames (s : State) (n : Nat) : (s.irq n).frames = s.frames :=
  (State.irq_keeps (all_contains [Part.irqs]) (State.Keeps.refl _ s) n).same .frames rfl
@[simp] theorem State.irq_nextFrame (s : State) (n : Nat) : (s.irq n).nextFrame = s.nextFrame :=
  (State.irq_keeps (all_contains [Part.irqs]) (State.Keeps.refl _ s) n).same .nextFrame rfl
@[simp] theorem State.irq_ports (s : State) (n : Nat) : (s.irq n).ports = s.ports :=
  (State.irq_keeps (all_contains [Part.irqs]) (State.Keeps.refl _ s) n).same .ports rfl
@[simp] theorem State.irq_fab (s : State) (n : Nat) : (s.irq n).fab = s.fab :=
  (State.irq_keeps (all_contains [Part.irqs]) (State.Keeps.refl _ s) n).same .fab rfl
@[simp] theorem State.irq_cls (s : State) (n : Nat) : (s.irq n).cls = s.cls :=
  (State.irq_keeps (all_contains [Part.irqs]) (State.Keeps.refl _ s) n).same .cls rfl
@[simp] theorem State.irq_rtk (s : State) (n : Nat) : (s.irq n).rtk = s.rtk :=
  (State.irq_keeps (all_contains [Part.irqs]) (State.Keeps.refl _ s) n).same .rtk rfl
@[simp] theorem State.irq_eccBad (s : State) (n : Nat) : (s.irq n).eccBad = s.eccBad :=
  (State.irq_keeps (all_contains [Part.irqs]) (State.Keeps.refl _ s) n).same .eccBad rfl
@[simp] theorem State.irq_debugScope (s : State) (n : Nat) : (s.irq n).debugScope = s.debugScope :=
  (State.irq_keeps (all_contains [Part.irqs]) (State.Keeps.refl _ s) n).same .debugScope rfl
@[simp] theorem State.irq_tm (s : State) (n : Nat) : (s.irq n).tm = s.tm :=
  (State.irq_keeps (all_contains [Part.irqs]) (State.Keeps.refl _ s) n).same .tm rfl
@[simp] theorem State.irq_cip (s : State) (n : Nat) : (s.irq n).cip = s.cip :=
  (State.irq_keeps (all_contains [Part.irqs]) (State.Keeps.refl _ s) n).same .cip rfl
@[simp] theorem State.irq_vlt (s : State) (n : Nat) : (s.irq n).vlt = s.vlt :=
  (State.irq_keeps (all_contains [Part.irqs]) (State.Keeps.refl _ s) n).same .vlt rfl
@[simp] theorem State.irq_power (s : State) (n : Nat) : (s.irq n).power = s.power :=
  (State.irq_keeps (all_contains [Part.irqs]) (State.Keeps.refl _ s) n).same .power rfl
@[simp] theorem State.irq_wak (s : State) (n : Nat) : (s.irq n).wak = s.wak :=
  (State.irq_keeps (all_contains [Part.irqs]) (State.Keeps.refl _ s) n).same .wak rfl
@[simp] theorem State.irq_boot (s : State) (n : Nat) : (s.irq n).boot = s.boot :=
  (State.irq_keeps (all_contains [Part.irqs]) (State.Keeps.refl _ s) n).same .boot rfl
@[simp] theorem State.irq_box (s : State) (n : Nat) : (s.irq n).box = s.box :=
  (State.irq_keeps (all_contains [Part.irqs]) (State.Keeps.refl _ s) n).same .box rfl
@[simp] theorem State.irq_gwy (s : State) (n : Nat) : (s.irq n).gwy = s.gwy :=
  (State.irq_keeps (all_contains [Part.irqs]) (State.Keeps.refl _ s) n).same .gwy rfl
@[simp] theorem State.irq_hbr (s : State) (n : Nat) : (s.irq n).hbr = s.hbr :=
  (State.irq_keeps (all_contains [Part.irqs]) (State.Keeps.refl _ s) n).same .hbr rfl
@[simp] theorem State.irq_cpx (s : State) (n : Nat) : (s.irq n).cpx = s.cpx :=
  (State.irq_keeps (all_contains [Part.irqs]) (State.Keeps.refl _ s) n).same .cpx rfl
@[simp] theorem State.irq_flt (s : State) (n : Nat) : (s.irq n).flt = s.flt :=
  (State.irq_keeps (all_contains [Part.irqs]) (State.Keeps.refl _ s) n).same .flt rfl

@[simp] theorem State.bump_pending (s : State) (k : Nat) : (s.bump k).pending = s.pending :=
  (State.bump_keeps (all_contains [Part.regs, .saturated]) (State.Keeps.refl _ s) k).pending
@[simp] theorem State.bump_tim (s : State) (k : Nat) : (s.bump k).tim = s.tim :=
  (State.bump_keeps (all_contains [Part.regs, .saturated]) (State.Keeps.refl _ s) k).same .tim rfl
@[simp] theorem State.bump_rtc (s : State) (k : Nat) : (s.bump k).rtc = s.rtc :=
  (State.bump_keeps (all_contains [Part.regs, .saturated]) (State.Keeps.refl _ s) k).same .rtc rfl
@[simp] theorem State.bump_variant (s : State) (k : Nat) : (s.bump k).variant = s.variant :=
  (State.bump_keeps (all_contains [Part.regs, .saturated]) (State.Keeps.refl _ s) k).variant
@[simp] theorem State.bump_nowNs (s : State) (k : Nat) : (s.bump k).nowNs = s.nowNs :=
  (State.bump_keeps (all_contains [Part.regs, .saturated]) (State.Keeps.refl _ s) k).nowNs
@[simp] theorem State.bump_live (s : State) (k : Nat) : (s.bump k).live = s.live :=
  (State.bump_keeps (all_contains [Part.regs, .saturated]) (State.Keeps.refl _ s) k).same .live rfl
@[simp] theorem State.bump_mem (s : State) (k : Nat) : (s.bump k).mem = s.mem :=
  (State.bump_keeps (all_contains [Part.regs, .saturated]) (State.Keeps.refl _ s) k).same .mem rfl
@[simp] theorem State.bump_busReply (s : State) (k : Nat) : (s.bump k).busReply = s.busReply :=
  (State.bump_keeps (all_contains [Part.regs, .saturated]) (State.Keeps.refl _ s) k).same .busReply rfl
@[simp] theorem State.bump_edgeQueue (s : State) (k : Nat) : (s.bump k).edgeQueue = s.edgeQueue :=
  (State.bump_keeps (all_contains [Part.regs, .saturated]) (State.Keeps.refl _ s) k).same .edgeQueue rfl
@[simp] theorem State.bump_aonQueue (s : State) (k : Nat) : (s.bump k).aonQueue = s.aonQueue :=
  (State.bump_keeps (all_contains [Part.regs, .saturated]) (State.Keeps.refl _ s) k).same .aonQueue rfl
@[simp] theorem State.bump_islands (s : State) (k : Nat) : (s.bump k).islands = s.islands :=
  (State.bump_keeps (all_contains [Part.regs, .saturated]) (State.Keeps.refl _ s) k).same .islands rfl
@[simp] theorem State.bump_coreHeld (s : State) (k : Nat) : (s.bump k).coreHeld = s.coreHeld :=
  (State.bump_keeps (all_contains [Part.regs, .saturated]) (State.Keeps.refl _ s) k).same .coreHeld rfl
@[simp] theorem State.bump_quiescing (s : State) (k : Nat) : (s.bump k).quiescing = s.quiescing :=
  (State.bump_keeps (all_contains [Part.regs, .saturated]) (State.Keeps.refl _ s) k).same .quiescing rfl
@[simp] theorem State.bump_commits (s : State) (k : Nat) : (s.bump k).commits = s.commits :=
  (State.bump_keeps (all_contains [Part.regs, .saturated]) (State.Keeps.refl _ s) k).same .commits rfl
@[simp] theorem State.bump_monLevels (s : State) (k : Nat) : (s.bump k).monLevels = s.monLevels :=
  (State.bump_keeps (all_contains [Part.regs, .saturated]) (State.Keeps.refl _ s) k).same .monLevels rfl
@[simp] theorem State.bump_traverse (s : State) (k : Nat) : (s.bump k).traverse = s.traverse :=
  (State.bump_keeps (all_contains [Part.regs, .saturated]) (State.Keeps.refl _ s) k).same .traverse rfl
@[simp] theorem State.bump_powerLinkA (s : State) (k : Nat) : (s.bump k).powerLinkA = s.powerLinkA :=
  (State.bump_keeps (all_contains [Part.regs, .saturated]) (State.Keeps.refl _ s) k).same .powerLinkA rfl
@[simp] theorem State.bump_powerLinkB (s : State) (k : Nat) : (s.bump k).powerLinkB = s.powerLinkB :=
  (State.bump_keeps (all_contains [Part.regs, .saturated]) (State.Keeps.refl _ s) k).same .powerLinkB rfl
@[simp] theorem State.bump_supply (s : State) (k : Nat) : (s.bump k).supply = s.supply :=
  (State.bump_keeps (all_contains [Part.regs, .saturated]) (State.Keeps.refl _ s) k).same .supply rfl
@[simp] theorem State.bump_reports (s : State) (k : Nat) : (s.bump k).reports = s.reports :=
  (State.bump_keeps (all_contains [Part.regs, .saturated]) (State.Keeps.refl _ s) k).same .reports rfl
@[simp] theorem State.bump_bbQueue (s : State) (k : Nat) : (s.bump k).bbQueue = s.bbQueue :=
  (State.bump_keeps (all_contains [Part.regs, .saturated]) (State.Keeps.refl _ s) k).same .bbQueue rfl
@[simp] theorem State.bump_bbLost (s : State) (k : Nat) : (s.bump k).bbLost = s.bbLost :=
  (State.bump_keeps (all_contains [Part.regs, .saturated]) (State.Keeps.refl _ s) k).same .bbLost rfl
@[simp] theorem State.bump_irqs (s : State) (k : Nat) : (s.bump k).irqs = s.irqs :=
  (State.bump_keeps (all_contains [Part.regs, .saturated]) (State.Keeps.refl _ s) k).same .irqs rfl
@[simp] theorem State.bump_flowFrames (s : State) (k : Nat) : (s.bump k).flowFrames = s.flowFrames :=
  (State.bump_keeps (all_contains [Part.regs, .saturated]) (State.Keeps.refl _ s) k).same .flowFrames rfl
@[simp] theorem State.bump_frames (s : State) (k : Nat) : (s.bump k).frames = s.frames :=
  (State.bump_keeps (all_contains [Part.regs, .saturated]) (State.Keeps.refl _ s) k).same .frames rfl
@[simp] theorem State.bump_nextFrame (s : State) (k : Nat) : (s.bump k).nextFrame = s.nextFrame :=
  (State.bump_keeps (all_contains [Part.regs, .saturated]) (State.Keeps.refl _ s) k).same .nextFrame rfl
@[simp] theorem State.bump_ports (s : State) (k : Nat) : (s.bump k).ports = s.ports :=
  (State.bump_keeps (all_contains [Part.regs, .saturated]) (State.Keeps.refl _ s) k).same .ports rfl
@[simp] theorem State.bump_fab (s : State) (k : Nat) : (s.bump k).fab = s.fab :=
  (State.bump_keeps (all_contains [Part.regs, .saturated]) (State.Keeps.refl _ s) k).same .fab rfl
@[simp] theorem State.bump_cls (s : State) (k : Nat) : (s.bump k).cls = s.cls :=
  (State.bump_keeps (all_contains [Part.regs, .saturated]) (State.Keeps.refl _ s) k).same .cls rfl
@[simp] theorem State.bump_rtk (s : State) (k : Nat) : (s.bump k).rtk = s.rtk :=
  (State.bump_keeps (all_contains [Part.regs, .saturated]) (State.Keeps.refl _ s) k).same .rtk rfl
@[simp] theorem State.bump_eccBad (s : State) (k : Nat) : (s.bump k).eccBad = s.eccBad :=
  (State.bump_keeps (all_contains [Part.regs, .saturated]) (State.Keeps.refl _ s) k).same .eccBad rfl
@[simp] theorem State.bump_debugScope (s : State) (k : Nat) : (s.bump k).debugScope = s.debugScope :=
  (State.bump_keeps (all_contains [Part.regs, .saturated]) (State.Keeps.refl _ s) k).same .debugScope rfl
@[simp] theorem State.bump_tm (s : State) (k : Nat) : (s.bump k).tm = s.tm :=
  (State.bump_keeps (all_contains [Part.regs, .saturated]) (State.Keeps.refl _ s) k).same .tm rfl
@[simp] theorem State.bump_cip (s : State) (k : Nat) : (s.bump k).cip = s.cip :=
  (State.bump_keeps (all_contains [Part.regs, .saturated]) (State.Keeps.refl _ s) k).same .cip rfl
@[simp] theorem State.bump_vlt (s : State) (k : Nat) : (s.bump k).vlt = s.vlt :=
  (State.bump_keeps (all_contains [Part.regs, .saturated]) (State.Keeps.refl _ s) k).same .vlt rfl
@[simp] theorem State.bump_power (s : State) (k : Nat) : (s.bump k).power = s.power :=
  (State.bump_keeps (all_contains [Part.regs, .saturated]) (State.Keeps.refl _ s) k).same .power rfl
@[simp] theorem State.bump_wak (s : State) (k : Nat) : (s.bump k).wak = s.wak :=
  (State.bump_keeps (all_contains [Part.regs, .saturated]) (State.Keeps.refl _ s) k).same .wak rfl
@[simp] theorem State.bump_boot (s : State) (k : Nat) : (s.bump k).boot = s.boot :=
  (State.bump_keeps (all_contains [Part.regs, .saturated]) (State.Keeps.refl _ s) k).same .boot rfl
@[simp] theorem State.bump_box (s : State) (k : Nat) : (s.bump k).box = s.box :=
  (State.bump_keeps (all_contains [Part.regs, .saturated]) (State.Keeps.refl _ s) k).same .box rfl
@[simp] theorem State.bump_gwy (s : State) (k : Nat) : (s.bump k).gwy = s.gwy :=
  (State.bump_keeps (all_contains [Part.regs, .saturated]) (State.Keeps.refl _ s) k).same .gwy rfl
@[simp] theorem State.bump_hbr (s : State) (k : Nat) : (s.bump k).hbr = s.hbr :=
  (State.bump_keeps (all_contains [Part.regs, .saturated]) (State.Keeps.refl _ s) k).same .hbr rfl
@[simp] theorem State.bump_cpx (s : State) (k : Nat) : (s.bump k).cpx = s.cpx :=
  (State.bump_keeps (all_contains [Part.regs, .saturated]) (State.Keeps.refl _ s) k).same .cpx rfl
@[simp] theorem State.bump_flt (s : State) (k : Nat) : (s.bump k).flt = s.flt :=
  (State.bump_keeps (all_contains [Part.regs, .saturated]) (State.Keeps.refl _ s) k).same .flt rfl

@[simp] theorem State.monEvent_pending (s : State) (ev : Nat) : (s.monEvent ev).pending = s.pending :=
  (State.monEvent_keeps (all_contains [Part.regs, .saturated, .irqs]) (State.Keeps.refl _ s) ev).pending
@[simp] theorem State.monEvent_tim (s : State) (ev : Nat) : (s.monEvent ev).tim = s.tim :=
  (State.monEvent_keeps (all_contains [Part.regs, .saturated, .irqs]) (State.Keeps.refl _ s) ev).same .tim rfl
@[simp] theorem State.monEvent_rtc (s : State) (ev : Nat) : (s.monEvent ev).rtc = s.rtc :=
  (State.monEvent_keeps (all_contains [Part.regs, .saturated, .irqs]) (State.Keeps.refl _ s) ev).same .rtc rfl
@[simp] theorem State.monEvent_variant (s : State) (ev : Nat) : (s.monEvent ev).variant = s.variant :=
  (State.monEvent_keeps (all_contains [Part.regs, .saturated, .irqs]) (State.Keeps.refl _ s) ev).variant
@[simp] theorem State.monEvent_nowNs (s : State) (ev : Nat) : (s.monEvent ev).nowNs = s.nowNs :=
  (State.monEvent_keeps (all_contains [Part.regs, .saturated, .irqs]) (State.Keeps.refl _ s) ev).nowNs
@[simp] theorem State.monEvent_live (s : State) (ev : Nat) : (s.monEvent ev).live = s.live :=
  (State.monEvent_keeps (all_contains [Part.regs, .saturated, .irqs]) (State.Keeps.refl _ s) ev).same .live rfl
@[simp] theorem State.monEvent_mem (s : State) (ev : Nat) : (s.monEvent ev).mem = s.mem :=
  (State.monEvent_keeps (all_contains [Part.regs, .saturated, .irqs]) (State.Keeps.refl _ s) ev).same .mem rfl
@[simp] theorem State.monEvent_busReply (s : State) (ev : Nat) : (s.monEvent ev).busReply = s.busReply :=
  (State.monEvent_keeps (all_contains [Part.regs, .saturated, .irqs]) (State.Keeps.refl _ s) ev).same .busReply rfl
@[simp] theorem State.monEvent_edgeQueue (s : State) (ev : Nat) : (s.monEvent ev).edgeQueue = s.edgeQueue :=
  (State.monEvent_keeps (all_contains [Part.regs, .saturated, .irqs]) (State.Keeps.refl _ s) ev).same .edgeQueue rfl
@[simp] theorem State.monEvent_aonQueue (s : State) (ev : Nat) : (s.monEvent ev).aonQueue = s.aonQueue :=
  (State.monEvent_keeps (all_contains [Part.regs, .saturated, .irqs]) (State.Keeps.refl _ s) ev).same .aonQueue rfl
@[simp] theorem State.monEvent_islands (s : State) (ev : Nat) : (s.monEvent ev).islands = s.islands :=
  (State.monEvent_keeps (all_contains [Part.regs, .saturated, .irqs]) (State.Keeps.refl _ s) ev).same .islands rfl
@[simp] theorem State.monEvent_coreHeld (s : State) (ev : Nat) : (s.monEvent ev).coreHeld = s.coreHeld :=
  (State.monEvent_keeps (all_contains [Part.regs, .saturated, .irqs]) (State.Keeps.refl _ s) ev).same .coreHeld rfl
@[simp] theorem State.monEvent_quiescing (s : State) (ev : Nat) : (s.monEvent ev).quiescing = s.quiescing :=
  (State.monEvent_keeps (all_contains [Part.regs, .saturated, .irqs]) (State.Keeps.refl _ s) ev).same .quiescing rfl
@[simp] theorem State.monEvent_commits (s : State) (ev : Nat) : (s.monEvent ev).commits = s.commits :=
  (State.monEvent_keeps (all_contains [Part.regs, .saturated, .irqs]) (State.Keeps.refl _ s) ev).same .commits rfl
@[simp] theorem State.monEvent_monLevels (s : State) (ev : Nat) : (s.monEvent ev).monLevels = s.monLevels :=
  (State.monEvent_keeps (all_contains [Part.regs, .saturated, .irqs]) (State.Keeps.refl _ s) ev).same .monLevels rfl
@[simp] theorem State.monEvent_traverse (s : State) (ev : Nat) : (s.monEvent ev).traverse = s.traverse :=
  (State.monEvent_keeps (all_contains [Part.regs, .saturated, .irqs]) (State.Keeps.refl _ s) ev).same .traverse rfl
@[simp] theorem State.monEvent_powerLinkA (s : State) (ev : Nat) : (s.monEvent ev).powerLinkA = s.powerLinkA :=
  (State.monEvent_keeps (all_contains [Part.regs, .saturated, .irqs]) (State.Keeps.refl _ s) ev).same .powerLinkA rfl
@[simp] theorem State.monEvent_powerLinkB (s : State) (ev : Nat) : (s.monEvent ev).powerLinkB = s.powerLinkB :=
  (State.monEvent_keeps (all_contains [Part.regs, .saturated, .irqs]) (State.Keeps.refl _ s) ev).same .powerLinkB rfl
@[simp] theorem State.monEvent_supply (s : State) (ev : Nat) : (s.monEvent ev).supply = s.supply :=
  (State.monEvent_keeps (all_contains [Part.regs, .saturated, .irqs]) (State.Keeps.refl _ s) ev).same .supply rfl
@[simp] theorem State.monEvent_reports (s : State) (ev : Nat) : (s.monEvent ev).reports = s.reports :=
  (State.monEvent_keeps (all_contains [Part.regs, .saturated, .irqs]) (State.Keeps.refl _ s) ev).same .reports rfl
@[simp] theorem State.monEvent_bbQueue (s : State) (ev : Nat) : (s.monEvent ev).bbQueue = s.bbQueue :=
  (State.monEvent_keeps (all_contains [Part.regs, .saturated, .irqs]) (State.Keeps.refl _ s) ev).same .bbQueue rfl
@[simp] theorem State.monEvent_bbLost (s : State) (ev : Nat) : (s.monEvent ev).bbLost = s.bbLost :=
  (State.monEvent_keeps (all_contains [Part.regs, .saturated, .irqs]) (State.Keeps.refl _ s) ev).same .bbLost rfl
@[simp] theorem State.monEvent_flowFrames (s : State) (ev : Nat) : (s.monEvent ev).flowFrames = s.flowFrames :=
  (State.monEvent_keeps (all_contains [Part.regs, .saturated, .irqs]) (State.Keeps.refl _ s) ev).same .flowFrames rfl
@[simp] theorem State.monEvent_frames (s : State) (ev : Nat) : (s.monEvent ev).frames = s.frames :=
  (State.monEvent_keeps (all_contains [Part.regs, .saturated, .irqs]) (State.Keeps.refl _ s) ev).same .frames rfl
@[simp] theorem State.monEvent_nextFrame (s : State) (ev : Nat) : (s.monEvent ev).nextFrame = s.nextFrame :=
  (State.monEvent_keeps (all_contains [Part.regs, .saturated, .irqs]) (State.Keeps.refl _ s) ev).same .nextFrame rfl
@[simp] theorem State.monEvent_ports (s : State) (ev : Nat) : (s.monEvent ev).ports = s.ports :=
  (State.monEvent_keeps (all_contains [Part.regs, .saturated, .irqs]) (State.Keeps.refl _ s) ev).same .ports rfl
@[simp] theorem State.monEvent_fab (s : State) (ev : Nat) : (s.monEvent ev).fab = s.fab :=
  (State.monEvent_keeps (all_contains [Part.regs, .saturated, .irqs]) (State.Keeps.refl _ s) ev).same .fab rfl
@[simp] theorem State.monEvent_cls (s : State) (ev : Nat) : (s.monEvent ev).cls = s.cls :=
  (State.monEvent_keeps (all_contains [Part.regs, .saturated, .irqs]) (State.Keeps.refl _ s) ev).same .cls rfl
@[simp] theorem State.monEvent_rtk (s : State) (ev : Nat) : (s.monEvent ev).rtk = s.rtk :=
  (State.monEvent_keeps (all_contains [Part.regs, .saturated, .irqs]) (State.Keeps.refl _ s) ev).same .rtk rfl
@[simp] theorem State.monEvent_eccBad (s : State) (ev : Nat) : (s.monEvent ev).eccBad = s.eccBad :=
  (State.monEvent_keeps (all_contains [Part.regs, .saturated, .irqs]) (State.Keeps.refl _ s) ev).same .eccBad rfl
@[simp] theorem State.monEvent_debugScope (s : State) (ev : Nat) : (s.monEvent ev).debugScope = s.debugScope :=
  (State.monEvent_keeps (all_contains [Part.regs, .saturated, .irqs]) (State.Keeps.refl _ s) ev).same .debugScope rfl
@[simp] theorem State.monEvent_tm (s : State) (ev : Nat) : (s.monEvent ev).tm = s.tm :=
  (State.monEvent_keeps (all_contains [Part.regs, .saturated, .irqs]) (State.Keeps.refl _ s) ev).same .tm rfl
@[simp] theorem State.monEvent_cip (s : State) (ev : Nat) : (s.monEvent ev).cip = s.cip :=
  (State.monEvent_keeps (all_contains [Part.regs, .saturated, .irqs]) (State.Keeps.refl _ s) ev).same .cip rfl
@[simp] theorem State.monEvent_vlt (s : State) (ev : Nat) : (s.monEvent ev).vlt = s.vlt :=
  (State.monEvent_keeps (all_contains [Part.regs, .saturated, .irqs]) (State.Keeps.refl _ s) ev).same .vlt rfl
@[simp] theorem State.monEvent_power (s : State) (ev : Nat) : (s.monEvent ev).power = s.power :=
  (State.monEvent_keeps (all_contains [Part.regs, .saturated, .irqs]) (State.Keeps.refl _ s) ev).same .power rfl
@[simp] theorem State.monEvent_wak (s : State) (ev : Nat) : (s.monEvent ev).wak = s.wak :=
  (State.monEvent_keeps (all_contains [Part.regs, .saturated, .irqs]) (State.Keeps.refl _ s) ev).same .wak rfl
@[simp] theorem State.monEvent_boot (s : State) (ev : Nat) : (s.monEvent ev).boot = s.boot :=
  (State.monEvent_keeps (all_contains [Part.regs, .saturated, .irqs]) (State.Keeps.refl _ s) ev).same .boot rfl
@[simp] theorem State.monEvent_box (s : State) (ev : Nat) : (s.monEvent ev).box = s.box :=
  (State.monEvent_keeps (all_contains [Part.regs, .saturated, .irqs]) (State.Keeps.refl _ s) ev).same .box rfl
@[simp] theorem State.monEvent_gwy (s : State) (ev : Nat) : (s.monEvent ev).gwy = s.gwy :=
  (State.monEvent_keeps (all_contains [Part.regs, .saturated, .irqs]) (State.Keeps.refl _ s) ev).same .gwy rfl
@[simp] theorem State.monEvent_hbr (s : State) (ev : Nat) : (s.monEvent ev).hbr = s.hbr :=
  (State.monEvent_keeps (all_contains [Part.regs, .saturated, .irqs]) (State.Keeps.refl _ s) ev).same .hbr rfl
@[simp] theorem State.monEvent_cpx (s : State) (ev : Nat) : (s.monEvent ev).cpx = s.cpx :=
  (State.monEvent_keeps (all_contains [Part.regs, .saturated, .irqs]) (State.Keeps.refl _ s) ev).same .cpx rfl
@[simp] theorem State.monEvent_flt (s : State) (ev : Nat) : (s.monEvent ev).flt = s.flt :=
  (State.monEvent_keeps (all_contains [Part.regs, .saturated, .irqs]) (State.Keeps.refl _ s) ev).same .flt rfl

@[simp] theorem State.setGstat_pending (s : State) (flag : Nat) (v : Bool) : (s.setGstat flag v).pending = s.pending :=
  (State.setGstat_keeps (all_contains [Part.regs, .reports]) (State.Keeps.refl _ s) flag v).pending
@[simp] theorem State.setGstat_tim (s : State) (flag : Nat) (v : Bool) : (s.setGstat flag v).tim = s.tim :=
  (State.setGstat_keeps (all_contains [Part.regs, .reports]) (State.Keeps.refl _ s) flag v).same .tim rfl
@[simp] theorem State.setGstat_rtc (s : State) (flag : Nat) (v : Bool) : (s.setGstat flag v).rtc = s.rtc :=
  (State.setGstat_keeps (all_contains [Part.regs, .reports]) (State.Keeps.refl _ s) flag v).same .rtc rfl
@[simp] theorem State.setGstat_variant (s : State) (flag : Nat) (v : Bool) : (s.setGstat flag v).variant = s.variant :=
  (State.setGstat_keeps (all_contains [Part.regs, .reports]) (State.Keeps.refl _ s) flag v).variant
@[simp] theorem State.setGstat_nowNs (s : State) (flag : Nat) (v : Bool) : (s.setGstat flag v).nowNs = s.nowNs :=
  (State.setGstat_keeps (all_contains [Part.regs, .reports]) (State.Keeps.refl _ s) flag v).nowNs
@[simp] theorem State.setGstat_live (s : State) (flag : Nat) (v : Bool) : (s.setGstat flag v).live = s.live :=
  (State.setGstat_keeps (all_contains [Part.regs, .reports]) (State.Keeps.refl _ s) flag v).same .live rfl
@[simp] theorem State.setGstat_mem (s : State) (flag : Nat) (v : Bool) : (s.setGstat flag v).mem = s.mem :=
  (State.setGstat_keeps (all_contains [Part.regs, .reports]) (State.Keeps.refl _ s) flag v).same .mem rfl
@[simp] theorem State.setGstat_busReply (s : State) (flag : Nat) (v : Bool) : (s.setGstat flag v).busReply = s.busReply :=
  (State.setGstat_keeps (all_contains [Part.regs, .reports]) (State.Keeps.refl _ s) flag v).same .busReply rfl
@[simp] theorem State.setGstat_edgeQueue (s : State) (flag : Nat) (v : Bool) : (s.setGstat flag v).edgeQueue = s.edgeQueue :=
  (State.setGstat_keeps (all_contains [Part.regs, .reports]) (State.Keeps.refl _ s) flag v).same .edgeQueue rfl
@[simp] theorem State.setGstat_aonQueue (s : State) (flag : Nat) (v : Bool) : (s.setGstat flag v).aonQueue = s.aonQueue :=
  (State.setGstat_keeps (all_contains [Part.regs, .reports]) (State.Keeps.refl _ s) flag v).same .aonQueue rfl
@[simp] theorem State.setGstat_islands (s : State) (flag : Nat) (v : Bool) : (s.setGstat flag v).islands = s.islands :=
  (State.setGstat_keeps (all_contains [Part.regs, .reports]) (State.Keeps.refl _ s) flag v).same .islands rfl
@[simp] theorem State.setGstat_coreHeld (s : State) (flag : Nat) (v : Bool) : (s.setGstat flag v).coreHeld = s.coreHeld :=
  (State.setGstat_keeps (all_contains [Part.regs, .reports]) (State.Keeps.refl _ s) flag v).same .coreHeld rfl
@[simp] theorem State.setGstat_quiescing (s : State) (flag : Nat) (v : Bool) : (s.setGstat flag v).quiescing = s.quiescing :=
  (State.setGstat_keeps (all_contains [Part.regs, .reports]) (State.Keeps.refl _ s) flag v).same .quiescing rfl
@[simp] theorem State.setGstat_commits (s : State) (flag : Nat) (v : Bool) : (s.setGstat flag v).commits = s.commits :=
  (State.setGstat_keeps (all_contains [Part.regs, .reports]) (State.Keeps.refl _ s) flag v).same .commits rfl
@[simp] theorem State.setGstat_saturated (s : State) (flag : Nat) (v : Bool) : (s.setGstat flag v).saturated = s.saturated :=
  (State.setGstat_keeps (all_contains [Part.regs, .reports]) (State.Keeps.refl _ s) flag v).same .saturated rfl
@[simp] theorem State.setGstat_monLevels (s : State) (flag : Nat) (v : Bool) : (s.setGstat flag v).monLevels = s.monLevels :=
  (State.setGstat_keeps (all_contains [Part.regs, .reports]) (State.Keeps.refl _ s) flag v).same .monLevels rfl
@[simp] theorem State.setGstat_traverse (s : State) (flag : Nat) (v : Bool) : (s.setGstat flag v).traverse = s.traverse :=
  (State.setGstat_keeps (all_contains [Part.regs, .reports]) (State.Keeps.refl _ s) flag v).same .traverse rfl
@[simp] theorem State.setGstat_powerLinkA (s : State) (flag : Nat) (v : Bool) : (s.setGstat flag v).powerLinkA = s.powerLinkA :=
  (State.setGstat_keeps (all_contains [Part.regs, .reports]) (State.Keeps.refl _ s) flag v).same .powerLinkA rfl
@[simp] theorem State.setGstat_powerLinkB (s : State) (flag : Nat) (v : Bool) : (s.setGstat flag v).powerLinkB = s.powerLinkB :=
  (State.setGstat_keeps (all_contains [Part.regs, .reports]) (State.Keeps.refl _ s) flag v).same .powerLinkB rfl
@[simp] theorem State.setGstat_supply (s : State) (flag : Nat) (v : Bool) : (s.setGstat flag v).supply = s.supply :=
  (State.setGstat_keeps (all_contains [Part.regs, .reports]) (State.Keeps.refl _ s) flag v).same .supply rfl
@[simp] theorem State.setGstat_bbQueue (s : State) (flag : Nat) (v : Bool) : (s.setGstat flag v).bbQueue = s.bbQueue :=
  (State.setGstat_keeps (all_contains [Part.regs, .reports]) (State.Keeps.refl _ s) flag v).same .bbQueue rfl
@[simp] theorem State.setGstat_bbLost (s : State) (flag : Nat) (v : Bool) : (s.setGstat flag v).bbLost = s.bbLost :=
  (State.setGstat_keeps (all_contains [Part.regs, .reports]) (State.Keeps.refl _ s) flag v).same .bbLost rfl
@[simp] theorem State.setGstat_irqs (s : State) (flag : Nat) (v : Bool) : (s.setGstat flag v).irqs = s.irqs :=
  (State.setGstat_keeps (all_contains [Part.regs, .reports]) (State.Keeps.refl _ s) flag v).same .irqs rfl
@[simp] theorem State.setGstat_flowFrames (s : State) (flag : Nat) (v : Bool) : (s.setGstat flag v).flowFrames = s.flowFrames :=
  (State.setGstat_keeps (all_contains [Part.regs, .reports]) (State.Keeps.refl _ s) flag v).same .flowFrames rfl
@[simp] theorem State.setGstat_frames (s : State) (flag : Nat) (v : Bool) : (s.setGstat flag v).frames = s.frames :=
  (State.setGstat_keeps (all_contains [Part.regs, .reports]) (State.Keeps.refl _ s) flag v).same .frames rfl
@[simp] theorem State.setGstat_nextFrame (s : State) (flag : Nat) (v : Bool) : (s.setGstat flag v).nextFrame = s.nextFrame :=
  (State.setGstat_keeps (all_contains [Part.regs, .reports]) (State.Keeps.refl _ s) flag v).same .nextFrame rfl
@[simp] theorem State.setGstat_ports (s : State) (flag : Nat) (v : Bool) : (s.setGstat flag v).ports = s.ports :=
  (State.setGstat_keeps (all_contains [Part.regs, .reports]) (State.Keeps.refl _ s) flag v).same .ports rfl
@[simp] theorem State.setGstat_fab (s : State) (flag : Nat) (v : Bool) : (s.setGstat flag v).fab = s.fab :=
  (State.setGstat_keeps (all_contains [Part.regs, .reports]) (State.Keeps.refl _ s) flag v).same .fab rfl
@[simp] theorem State.setGstat_cls (s : State) (flag : Nat) (v : Bool) : (s.setGstat flag v).cls = s.cls :=
  (State.setGstat_keeps (all_contains [Part.regs, .reports]) (State.Keeps.refl _ s) flag v).same .cls rfl
@[simp] theorem State.setGstat_rtk (s : State) (flag : Nat) (v : Bool) : (s.setGstat flag v).rtk = s.rtk :=
  (State.setGstat_keeps (all_contains [Part.regs, .reports]) (State.Keeps.refl _ s) flag v).same .rtk rfl
@[simp] theorem State.setGstat_eccBad (s : State) (flag : Nat) (v : Bool) : (s.setGstat flag v).eccBad = s.eccBad :=
  (State.setGstat_keeps (all_contains [Part.regs, .reports]) (State.Keeps.refl _ s) flag v).same .eccBad rfl
@[simp] theorem State.setGstat_debugScope (s : State) (flag : Nat) (v : Bool) : (s.setGstat flag v).debugScope = s.debugScope :=
  (State.setGstat_keeps (all_contains [Part.regs, .reports]) (State.Keeps.refl _ s) flag v).same .debugScope rfl
@[simp] theorem State.setGstat_tm (s : State) (flag : Nat) (v : Bool) : (s.setGstat flag v).tm = s.tm :=
  (State.setGstat_keeps (all_contains [Part.regs, .reports]) (State.Keeps.refl _ s) flag v).same .tm rfl
@[simp] theorem State.setGstat_cip (s : State) (flag : Nat) (v : Bool) : (s.setGstat flag v).cip = s.cip :=
  (State.setGstat_keeps (all_contains [Part.regs, .reports]) (State.Keeps.refl _ s) flag v).same .cip rfl
@[simp] theorem State.setGstat_vlt (s : State) (flag : Nat) (v : Bool) : (s.setGstat flag v).vlt = s.vlt :=
  (State.setGstat_keeps (all_contains [Part.regs, .reports]) (State.Keeps.refl _ s) flag v).same .vlt rfl
@[simp] theorem State.setGstat_power (s : State) (flag : Nat) (v : Bool) : (s.setGstat flag v).power = s.power :=
  (State.setGstat_keeps (all_contains [Part.regs, .reports]) (State.Keeps.refl _ s) flag v).same .power rfl
@[simp] theorem State.setGstat_wak (s : State) (flag : Nat) (v : Bool) : (s.setGstat flag v).wak = s.wak :=
  (State.setGstat_keeps (all_contains [Part.regs, .reports]) (State.Keeps.refl _ s) flag v).same .wak rfl
@[simp] theorem State.setGstat_boot (s : State) (flag : Nat) (v : Bool) : (s.setGstat flag v).boot = s.boot :=
  (State.setGstat_keeps (all_contains [Part.regs, .reports]) (State.Keeps.refl _ s) flag v).same .boot rfl
@[simp] theorem State.setGstat_box (s : State) (flag : Nat) (v : Bool) : (s.setGstat flag v).box = s.box :=
  (State.setGstat_keeps (all_contains [Part.regs, .reports]) (State.Keeps.refl _ s) flag v).same .box rfl
@[simp] theorem State.setGstat_gwy (s : State) (flag : Nat) (v : Bool) : (s.setGstat flag v).gwy = s.gwy :=
  (State.setGstat_keeps (all_contains [Part.regs, .reports]) (State.Keeps.refl _ s) flag v).same .gwy rfl
@[simp] theorem State.setGstat_hbr (s : State) (flag : Nat) (v : Bool) : (s.setGstat flag v).hbr = s.hbr :=
  (State.setGstat_keeps (all_contains [Part.regs, .reports]) (State.Keeps.refl _ s) flag v).same .hbr rfl
@[simp] theorem State.setGstat_cpx (s : State) (flag : Nat) (v : Bool) : (s.setGstat flag v).cpx = s.cpx :=
  (State.setGstat_keeps (all_contains [Part.regs, .reports]) (State.Keeps.refl _ s) flag v).same .cpx rfl
@[simp] theorem State.setGstat_flt (s : State) (flag : Nat) (v : Bool) : (s.setGstat flag v).flt = s.flt :=
  (State.setGstat_keeps (all_contains [Part.regs, .reports]) (State.Keeps.refl _ s) flag v).same .flt rfl

@[simp] theorem State.busError_pending (s : State) (m : Master) (addr : Nat) (write : Bool) (cause : Nat) : (s.busError m addr write cause).pending = s.pending :=
  (State.busError_keeps (all_contains [Part.regs, .busReply, .saturated, .reports, .irqs]) (State.Keeps.refl _ s) m addr write cause).pending
@[simp] theorem State.busError_tim (s : State) (m : Master) (addr : Nat) (write : Bool) (cause : Nat) : (s.busError m addr write cause).tim = s.tim :=
  (State.busError_keeps (all_contains [Part.regs, .busReply, .saturated, .reports, .irqs]) (State.Keeps.refl _ s) m addr write cause).same .tim rfl
@[simp] theorem State.busError_rtc (s : State) (m : Master) (addr : Nat) (write : Bool) (cause : Nat) : (s.busError m addr write cause).rtc = s.rtc :=
  (State.busError_keeps (all_contains [Part.regs, .busReply, .saturated, .reports, .irqs]) (State.Keeps.refl _ s) m addr write cause).same .rtc rfl
@[simp] theorem State.busError_variant (s : State) (m : Master) (addr : Nat) (write : Bool) (cause : Nat) : (s.busError m addr write cause).variant = s.variant :=
  (State.busError_keeps (all_contains [Part.regs, .busReply, .saturated, .reports, .irqs]) (State.Keeps.refl _ s) m addr write cause).variant
@[simp] theorem State.busError_nowNs (s : State) (m : Master) (addr : Nat) (write : Bool) (cause : Nat) : (s.busError m addr write cause).nowNs = s.nowNs :=
  (State.busError_keeps (all_contains [Part.regs, .busReply, .saturated, .reports, .irqs]) (State.Keeps.refl _ s) m addr write cause).nowNs
@[simp] theorem State.busError_live (s : State) (m : Master) (addr : Nat) (write : Bool) (cause : Nat) : (s.busError m addr write cause).live = s.live :=
  (State.busError_keeps (all_contains [Part.regs, .busReply, .saturated, .reports, .irqs]) (State.Keeps.refl _ s) m addr write cause).same .live rfl
@[simp] theorem State.busError_mem (s : State) (m : Master) (addr : Nat) (write : Bool) (cause : Nat) : (s.busError m addr write cause).mem = s.mem :=
  (State.busError_keeps (all_contains [Part.regs, .busReply, .saturated, .reports, .irqs]) (State.Keeps.refl _ s) m addr write cause).same .mem rfl
@[simp] theorem State.busError_edgeQueue (s : State) (m : Master) (addr : Nat) (write : Bool) (cause : Nat) : (s.busError m addr write cause).edgeQueue = s.edgeQueue :=
  (State.busError_keeps (all_contains [Part.regs, .busReply, .saturated, .reports, .irqs]) (State.Keeps.refl _ s) m addr write cause).same .edgeQueue rfl
@[simp] theorem State.busError_aonQueue (s : State) (m : Master) (addr : Nat) (write : Bool) (cause : Nat) : (s.busError m addr write cause).aonQueue = s.aonQueue :=
  (State.busError_keeps (all_contains [Part.regs, .busReply, .saturated, .reports, .irqs]) (State.Keeps.refl _ s) m addr write cause).same .aonQueue rfl
@[simp] theorem State.busError_islands (s : State) (m : Master) (addr : Nat) (write : Bool) (cause : Nat) : (s.busError m addr write cause).islands = s.islands :=
  (State.busError_keeps (all_contains [Part.regs, .busReply, .saturated, .reports, .irqs]) (State.Keeps.refl _ s) m addr write cause).same .islands rfl
@[simp] theorem State.busError_coreHeld (s : State) (m : Master) (addr : Nat) (write : Bool) (cause : Nat) : (s.busError m addr write cause).coreHeld = s.coreHeld :=
  (State.busError_keeps (all_contains [Part.regs, .busReply, .saturated, .reports, .irqs]) (State.Keeps.refl _ s) m addr write cause).same .coreHeld rfl
@[simp] theorem State.busError_quiescing (s : State) (m : Master) (addr : Nat) (write : Bool) (cause : Nat) : (s.busError m addr write cause).quiescing = s.quiescing :=
  (State.busError_keeps (all_contains [Part.regs, .busReply, .saturated, .reports, .irqs]) (State.Keeps.refl _ s) m addr write cause).same .quiescing rfl
@[simp] theorem State.busError_commits (s : State) (m : Master) (addr : Nat) (write : Bool) (cause : Nat) : (s.busError m addr write cause).commits = s.commits :=
  (State.busError_keeps (all_contains [Part.regs, .busReply, .saturated, .reports, .irqs]) (State.Keeps.refl _ s) m addr write cause).same .commits rfl
@[simp] theorem State.busError_monLevels (s : State) (m : Master) (addr : Nat) (write : Bool) (cause : Nat) : (s.busError m addr write cause).monLevels = s.monLevels :=
  (State.busError_keeps (all_contains [Part.regs, .busReply, .saturated, .reports, .irqs]) (State.Keeps.refl _ s) m addr write cause).same .monLevels rfl
@[simp] theorem State.busError_traverse (s : State) (m : Master) (addr : Nat) (write : Bool) (cause : Nat) : (s.busError m addr write cause).traverse = s.traverse :=
  (State.busError_keeps (all_contains [Part.regs, .busReply, .saturated, .reports, .irqs]) (State.Keeps.refl _ s) m addr write cause).same .traverse rfl
@[simp] theorem State.busError_powerLinkA (s : State) (m : Master) (addr : Nat) (write : Bool) (cause : Nat) : (s.busError m addr write cause).powerLinkA = s.powerLinkA :=
  (State.busError_keeps (all_contains [Part.regs, .busReply, .saturated, .reports, .irqs]) (State.Keeps.refl _ s) m addr write cause).same .powerLinkA rfl
@[simp] theorem State.busError_powerLinkB (s : State) (m : Master) (addr : Nat) (write : Bool) (cause : Nat) : (s.busError m addr write cause).powerLinkB = s.powerLinkB :=
  (State.busError_keeps (all_contains [Part.regs, .busReply, .saturated, .reports, .irqs]) (State.Keeps.refl _ s) m addr write cause).same .powerLinkB rfl
@[simp] theorem State.busError_supply (s : State) (m : Master) (addr : Nat) (write : Bool) (cause : Nat) : (s.busError m addr write cause).supply = s.supply :=
  (State.busError_keeps (all_contains [Part.regs, .busReply, .saturated, .reports, .irqs]) (State.Keeps.refl _ s) m addr write cause).same .supply rfl
@[simp] theorem State.busError_bbQueue (s : State) (m : Master) (addr : Nat) (write : Bool) (cause : Nat) : (s.busError m addr write cause).bbQueue = s.bbQueue :=
  (State.busError_keeps (all_contains [Part.regs, .busReply, .saturated, .reports, .irqs]) (State.Keeps.refl _ s) m addr write cause).same .bbQueue rfl
@[simp] theorem State.busError_bbLost (s : State) (m : Master) (addr : Nat) (write : Bool) (cause : Nat) : (s.busError m addr write cause).bbLost = s.bbLost :=
  (State.busError_keeps (all_contains [Part.regs, .busReply, .saturated, .reports, .irqs]) (State.Keeps.refl _ s) m addr write cause).same .bbLost rfl
@[simp] theorem State.busError_flowFrames (s : State) (m : Master) (addr : Nat) (write : Bool) (cause : Nat) : (s.busError m addr write cause).flowFrames = s.flowFrames :=
  (State.busError_keeps (all_contains [Part.regs, .busReply, .saturated, .reports, .irqs]) (State.Keeps.refl _ s) m addr write cause).same .flowFrames rfl
@[simp] theorem State.busError_frames (s : State) (m : Master) (addr : Nat) (write : Bool) (cause : Nat) : (s.busError m addr write cause).frames = s.frames :=
  (State.busError_keeps (all_contains [Part.regs, .busReply, .saturated, .reports, .irqs]) (State.Keeps.refl _ s) m addr write cause).same .frames rfl
@[simp] theorem State.busError_nextFrame (s : State) (m : Master) (addr : Nat) (write : Bool) (cause : Nat) : (s.busError m addr write cause).nextFrame = s.nextFrame :=
  (State.busError_keeps (all_contains [Part.regs, .busReply, .saturated, .reports, .irqs]) (State.Keeps.refl _ s) m addr write cause).same .nextFrame rfl
@[simp] theorem State.busError_ports (s : State) (m : Master) (addr : Nat) (write : Bool) (cause : Nat) : (s.busError m addr write cause).ports = s.ports :=
  (State.busError_keeps (all_contains [Part.regs, .busReply, .saturated, .reports, .irqs]) (State.Keeps.refl _ s) m addr write cause).same .ports rfl
@[simp] theorem State.busError_fab (s : State) (m : Master) (addr : Nat) (write : Bool) (cause : Nat) : (s.busError m addr write cause).fab = s.fab :=
  (State.busError_keeps (all_contains [Part.regs, .busReply, .saturated, .reports, .irqs]) (State.Keeps.refl _ s) m addr write cause).same .fab rfl
@[simp] theorem State.busError_cls (s : State) (m : Master) (addr : Nat) (write : Bool) (cause : Nat) : (s.busError m addr write cause).cls = s.cls :=
  (State.busError_keeps (all_contains [Part.regs, .busReply, .saturated, .reports, .irqs]) (State.Keeps.refl _ s) m addr write cause).same .cls rfl
@[simp] theorem State.busError_rtk (s : State) (m : Master) (addr : Nat) (write : Bool) (cause : Nat) : (s.busError m addr write cause).rtk = s.rtk :=
  (State.busError_keeps (all_contains [Part.regs, .busReply, .saturated, .reports, .irqs]) (State.Keeps.refl _ s) m addr write cause).same .rtk rfl
@[simp] theorem State.busError_eccBad (s : State) (m : Master) (addr : Nat) (write : Bool) (cause : Nat) : (s.busError m addr write cause).eccBad = s.eccBad :=
  (State.busError_keeps (all_contains [Part.regs, .busReply, .saturated, .reports, .irqs]) (State.Keeps.refl _ s) m addr write cause).same .eccBad rfl
@[simp] theorem State.busError_debugScope (s : State) (m : Master) (addr : Nat) (write : Bool) (cause : Nat) : (s.busError m addr write cause).debugScope = s.debugScope :=
  (State.busError_keeps (all_contains [Part.regs, .busReply, .saturated, .reports, .irqs]) (State.Keeps.refl _ s) m addr write cause).same .debugScope rfl
@[simp] theorem State.busError_tm (s : State) (m : Master) (addr : Nat) (write : Bool) (cause : Nat) : (s.busError m addr write cause).tm = s.tm :=
  (State.busError_keeps (all_contains [Part.regs, .busReply, .saturated, .reports, .irqs]) (State.Keeps.refl _ s) m addr write cause).same .tm rfl
@[simp] theorem State.busError_cip (s : State) (m : Master) (addr : Nat) (write : Bool) (cause : Nat) : (s.busError m addr write cause).cip = s.cip :=
  (State.busError_keeps (all_contains [Part.regs, .busReply, .saturated, .reports, .irqs]) (State.Keeps.refl _ s) m addr write cause).same .cip rfl
@[simp] theorem State.busError_vlt (s : State) (m : Master) (addr : Nat) (write : Bool) (cause : Nat) : (s.busError m addr write cause).vlt = s.vlt :=
  (State.busError_keeps (all_contains [Part.regs, .busReply, .saturated, .reports, .irqs]) (State.Keeps.refl _ s) m addr write cause).same .vlt rfl
@[simp] theorem State.busError_power (s : State) (m : Master) (addr : Nat) (write : Bool) (cause : Nat) : (s.busError m addr write cause).power = s.power :=
  (State.busError_keeps (all_contains [Part.regs, .busReply, .saturated, .reports, .irqs]) (State.Keeps.refl _ s) m addr write cause).same .power rfl
@[simp] theorem State.busError_wak (s : State) (m : Master) (addr : Nat) (write : Bool) (cause : Nat) : (s.busError m addr write cause).wak = s.wak :=
  (State.busError_keeps (all_contains [Part.regs, .busReply, .saturated, .reports, .irqs]) (State.Keeps.refl _ s) m addr write cause).same .wak rfl
@[simp] theorem State.busError_boot (s : State) (m : Master) (addr : Nat) (write : Bool) (cause : Nat) : (s.busError m addr write cause).boot = s.boot :=
  (State.busError_keeps (all_contains [Part.regs, .busReply, .saturated, .reports, .irqs]) (State.Keeps.refl _ s) m addr write cause).same .boot rfl
@[simp] theorem State.busError_box (s : State) (m : Master) (addr : Nat) (write : Bool) (cause : Nat) : (s.busError m addr write cause).box = s.box :=
  (State.busError_keeps (all_contains [Part.regs, .busReply, .saturated, .reports, .irqs]) (State.Keeps.refl _ s) m addr write cause).same .box rfl
@[simp] theorem State.busError_gwy (s : State) (m : Master) (addr : Nat) (write : Bool) (cause : Nat) : (s.busError m addr write cause).gwy = s.gwy :=
  (State.busError_keeps (all_contains [Part.regs, .busReply, .saturated, .reports, .irqs]) (State.Keeps.refl _ s) m addr write cause).same .gwy rfl
@[simp] theorem State.busError_hbr (s : State) (m : Master) (addr : Nat) (write : Bool) (cause : Nat) : (s.busError m addr write cause).hbr = s.hbr :=
  (State.busError_keeps (all_contains [Part.regs, .busReply, .saturated, .reports, .irqs]) (State.Keeps.refl _ s) m addr write cause).same .hbr rfl
@[simp] theorem State.busError_cpx (s : State) (m : Master) (addr : Nat) (write : Bool) (cause : Nat) : (s.busError m addr write cause).cpx = s.cpx :=
  (State.busError_keeps (all_contains [Part.regs, .busReply, .saturated, .reports, .irqs]) (State.Keeps.refl _ s) m addr write cause).same .cpx rfl
@[simp] theorem State.busError_flt (s : State) (m : Master) (addr : Nat) (write : Bool) (cause : Nat) : (s.busError m addr write cause).flt = s.flt :=
  (State.busError_keeps (all_contains [Part.regs, .busReply, .saturated, .reports, .irqs]) (State.Keeps.refl _ s) m addr write cause).same .flt rfl

@[simp] theorem State.blackBox_pending (s : State) (type code : Nat) (freeze : Bool) (pmid : Nat) (data : List Word) : (s.blackBox type code freeze pmid data).pending = s.pending :=
  (State.blackBox_keeps (all_contains [Part.regs, .saturated, .reports, .irqs, .bbQueue, .bbLost]) (State.Keeps.refl _ s) type code freeze pmid data).pending
@[simp] theorem State.blackBox_tim (s : State) (type code : Nat) (freeze : Bool) (pmid : Nat) (data : List Word) : (s.blackBox type code freeze pmid data).tim = s.tim :=
  (State.blackBox_keeps (all_contains [Part.regs, .saturated, .reports, .irqs, .bbQueue, .bbLost]) (State.Keeps.refl _ s) type code freeze pmid data).same .tim rfl
@[simp] theorem State.blackBox_rtc (s : State) (type code : Nat) (freeze : Bool) (pmid : Nat) (data : List Word) : (s.blackBox type code freeze pmid data).rtc = s.rtc :=
  (State.blackBox_keeps (all_contains [Part.regs, .saturated, .reports, .irqs, .bbQueue, .bbLost]) (State.Keeps.refl _ s) type code freeze pmid data).same .rtc rfl
@[simp] theorem State.blackBox_variant (s : State) (type code : Nat) (freeze : Bool) (pmid : Nat) (data : List Word) : (s.blackBox type code freeze pmid data).variant = s.variant :=
  (State.blackBox_keeps (all_contains [Part.regs, .saturated, .reports, .irqs, .bbQueue, .bbLost]) (State.Keeps.refl _ s) type code freeze pmid data).variant
@[simp] theorem State.blackBox_nowNs (s : State) (type code : Nat) (freeze : Bool) (pmid : Nat) (data : List Word) : (s.blackBox type code freeze pmid data).nowNs = s.nowNs :=
  (State.blackBox_keeps (all_contains [Part.regs, .saturated, .reports, .irqs, .bbQueue, .bbLost]) (State.Keeps.refl _ s) type code freeze pmid data).nowNs
@[simp] theorem State.blackBox_live (s : State) (type code : Nat) (freeze : Bool) (pmid : Nat) (data : List Word) : (s.blackBox type code freeze pmid data).live = s.live :=
  (State.blackBox_keeps (all_contains [Part.regs, .saturated, .reports, .irqs, .bbQueue, .bbLost]) (State.Keeps.refl _ s) type code freeze pmid data).same .live rfl
@[simp] theorem State.blackBox_mem (s : State) (type code : Nat) (freeze : Bool) (pmid : Nat) (data : List Word) : (s.blackBox type code freeze pmid data).mem = s.mem :=
  (State.blackBox_keeps (all_contains [Part.regs, .saturated, .reports, .irqs, .bbQueue, .bbLost]) (State.Keeps.refl _ s) type code freeze pmid data).same .mem rfl
@[simp] theorem State.blackBox_busReply (s : State) (type code : Nat) (freeze : Bool) (pmid : Nat) (data : List Word) : (s.blackBox type code freeze pmid data).busReply = s.busReply :=
  (State.blackBox_keeps (all_contains [Part.regs, .saturated, .reports, .irqs, .bbQueue, .bbLost]) (State.Keeps.refl _ s) type code freeze pmid data).same .busReply rfl
@[simp] theorem State.blackBox_edgeQueue (s : State) (type code : Nat) (freeze : Bool) (pmid : Nat) (data : List Word) : (s.blackBox type code freeze pmid data).edgeQueue = s.edgeQueue :=
  (State.blackBox_keeps (all_contains [Part.regs, .saturated, .reports, .irqs, .bbQueue, .bbLost]) (State.Keeps.refl _ s) type code freeze pmid data).same .edgeQueue rfl
@[simp] theorem State.blackBox_aonQueue (s : State) (type code : Nat) (freeze : Bool) (pmid : Nat) (data : List Word) : (s.blackBox type code freeze pmid data).aonQueue = s.aonQueue :=
  (State.blackBox_keeps (all_contains [Part.regs, .saturated, .reports, .irqs, .bbQueue, .bbLost]) (State.Keeps.refl _ s) type code freeze pmid data).same .aonQueue rfl
@[simp] theorem State.blackBox_islands (s : State) (type code : Nat) (freeze : Bool) (pmid : Nat) (data : List Word) : (s.blackBox type code freeze pmid data).islands = s.islands :=
  (State.blackBox_keeps (all_contains [Part.regs, .saturated, .reports, .irqs, .bbQueue, .bbLost]) (State.Keeps.refl _ s) type code freeze pmid data).same .islands rfl
@[simp] theorem State.blackBox_coreHeld (s : State) (type code : Nat) (freeze : Bool) (pmid : Nat) (data : List Word) : (s.blackBox type code freeze pmid data).coreHeld = s.coreHeld :=
  (State.blackBox_keeps (all_contains [Part.regs, .saturated, .reports, .irqs, .bbQueue, .bbLost]) (State.Keeps.refl _ s) type code freeze pmid data).same .coreHeld rfl
@[simp] theorem State.blackBox_quiescing (s : State) (type code : Nat) (freeze : Bool) (pmid : Nat) (data : List Word) : (s.blackBox type code freeze pmid data).quiescing = s.quiescing :=
  (State.blackBox_keeps (all_contains [Part.regs, .saturated, .reports, .irqs, .bbQueue, .bbLost]) (State.Keeps.refl _ s) type code freeze pmid data).same .quiescing rfl
@[simp] theorem State.blackBox_commits (s : State) (type code : Nat) (freeze : Bool) (pmid : Nat) (data : List Word) : (s.blackBox type code freeze pmid data).commits = s.commits :=
  (State.blackBox_keeps (all_contains [Part.regs, .saturated, .reports, .irqs, .bbQueue, .bbLost]) (State.Keeps.refl _ s) type code freeze pmid data).same .commits rfl
@[simp] theorem State.blackBox_monLevels (s : State) (type code : Nat) (freeze : Bool) (pmid : Nat) (data : List Word) : (s.blackBox type code freeze pmid data).monLevels = s.monLevels :=
  (State.blackBox_keeps (all_contains [Part.regs, .saturated, .reports, .irqs, .bbQueue, .bbLost]) (State.Keeps.refl _ s) type code freeze pmid data).same .monLevels rfl
@[simp] theorem State.blackBox_traverse (s : State) (type code : Nat) (freeze : Bool) (pmid : Nat) (data : List Word) : (s.blackBox type code freeze pmid data).traverse = s.traverse :=
  (State.blackBox_keeps (all_contains [Part.regs, .saturated, .reports, .irqs, .bbQueue, .bbLost]) (State.Keeps.refl _ s) type code freeze pmid data).same .traverse rfl
@[simp] theorem State.blackBox_powerLinkA (s : State) (type code : Nat) (freeze : Bool) (pmid : Nat) (data : List Word) : (s.blackBox type code freeze pmid data).powerLinkA = s.powerLinkA :=
  (State.blackBox_keeps (all_contains [Part.regs, .saturated, .reports, .irqs, .bbQueue, .bbLost]) (State.Keeps.refl _ s) type code freeze pmid data).same .powerLinkA rfl
@[simp] theorem State.blackBox_powerLinkB (s : State) (type code : Nat) (freeze : Bool) (pmid : Nat) (data : List Word) : (s.blackBox type code freeze pmid data).powerLinkB = s.powerLinkB :=
  (State.blackBox_keeps (all_contains [Part.regs, .saturated, .reports, .irqs, .bbQueue, .bbLost]) (State.Keeps.refl _ s) type code freeze pmid data).same .powerLinkB rfl
@[simp] theorem State.blackBox_supply (s : State) (type code : Nat) (freeze : Bool) (pmid : Nat) (data : List Word) : (s.blackBox type code freeze pmid data).supply = s.supply :=
  (State.blackBox_keeps (all_contains [Part.regs, .saturated, .reports, .irqs, .bbQueue, .bbLost]) (State.Keeps.refl _ s) type code freeze pmid data).same .supply rfl
@[simp] theorem State.blackBox_flowFrames (s : State) (type code : Nat) (freeze : Bool) (pmid : Nat) (data : List Word) : (s.blackBox type code freeze pmid data).flowFrames = s.flowFrames :=
  (State.blackBox_keeps (all_contains [Part.regs, .saturated, .reports, .irqs, .bbQueue, .bbLost]) (State.Keeps.refl _ s) type code freeze pmid data).same .flowFrames rfl
@[simp] theorem State.blackBox_frames (s : State) (type code : Nat) (freeze : Bool) (pmid : Nat) (data : List Word) : (s.blackBox type code freeze pmid data).frames = s.frames :=
  (State.blackBox_keeps (all_contains [Part.regs, .saturated, .reports, .irqs, .bbQueue, .bbLost]) (State.Keeps.refl _ s) type code freeze pmid data).same .frames rfl
@[simp] theorem State.blackBox_nextFrame (s : State) (type code : Nat) (freeze : Bool) (pmid : Nat) (data : List Word) : (s.blackBox type code freeze pmid data).nextFrame = s.nextFrame :=
  (State.blackBox_keeps (all_contains [Part.regs, .saturated, .reports, .irqs, .bbQueue, .bbLost]) (State.Keeps.refl _ s) type code freeze pmid data).same .nextFrame rfl
@[simp] theorem State.blackBox_ports (s : State) (type code : Nat) (freeze : Bool) (pmid : Nat) (data : List Word) : (s.blackBox type code freeze pmid data).ports = s.ports :=
  (State.blackBox_keeps (all_contains [Part.regs, .saturated, .reports, .irqs, .bbQueue, .bbLost]) (State.Keeps.refl _ s) type code freeze pmid data).same .ports rfl
@[simp] theorem State.blackBox_fab (s : State) (type code : Nat) (freeze : Bool) (pmid : Nat) (data : List Word) : (s.blackBox type code freeze pmid data).fab = s.fab :=
  (State.blackBox_keeps (all_contains [Part.regs, .saturated, .reports, .irqs, .bbQueue, .bbLost]) (State.Keeps.refl _ s) type code freeze pmid data).same .fab rfl
@[simp] theorem State.blackBox_cls (s : State) (type code : Nat) (freeze : Bool) (pmid : Nat) (data : List Word) : (s.blackBox type code freeze pmid data).cls = s.cls :=
  (State.blackBox_keeps (all_contains [Part.regs, .saturated, .reports, .irqs, .bbQueue, .bbLost]) (State.Keeps.refl _ s) type code freeze pmid data).same .cls rfl
@[simp] theorem State.blackBox_rtk (s : State) (type code : Nat) (freeze : Bool) (pmid : Nat) (data : List Word) : (s.blackBox type code freeze pmid data).rtk = s.rtk :=
  (State.blackBox_keeps (all_contains [Part.regs, .saturated, .reports, .irqs, .bbQueue, .bbLost]) (State.Keeps.refl _ s) type code freeze pmid data).same .rtk rfl
@[simp] theorem State.blackBox_eccBad (s : State) (type code : Nat) (freeze : Bool) (pmid : Nat) (data : List Word) : (s.blackBox type code freeze pmid data).eccBad = s.eccBad :=
  (State.blackBox_keeps (all_contains [Part.regs, .saturated, .reports, .irqs, .bbQueue, .bbLost]) (State.Keeps.refl _ s) type code freeze pmid data).same .eccBad rfl
@[simp] theorem State.blackBox_debugScope (s : State) (type code : Nat) (freeze : Bool) (pmid : Nat) (data : List Word) : (s.blackBox type code freeze pmid data).debugScope = s.debugScope :=
  (State.blackBox_keeps (all_contains [Part.regs, .saturated, .reports, .irqs, .bbQueue, .bbLost]) (State.Keeps.refl _ s) type code freeze pmid data).same .debugScope rfl
@[simp] theorem State.blackBox_tm (s : State) (type code : Nat) (freeze : Bool) (pmid : Nat) (data : List Word) : (s.blackBox type code freeze pmid data).tm = s.tm :=
  (State.blackBox_keeps (all_contains [Part.regs, .saturated, .reports, .irqs, .bbQueue, .bbLost]) (State.Keeps.refl _ s) type code freeze pmid data).same .tm rfl
@[simp] theorem State.blackBox_cip (s : State) (type code : Nat) (freeze : Bool) (pmid : Nat) (data : List Word) : (s.blackBox type code freeze pmid data).cip = s.cip :=
  (State.blackBox_keeps (all_contains [Part.regs, .saturated, .reports, .irqs, .bbQueue, .bbLost]) (State.Keeps.refl _ s) type code freeze pmid data).same .cip rfl
@[simp] theorem State.blackBox_vlt (s : State) (type code : Nat) (freeze : Bool) (pmid : Nat) (data : List Word) : (s.blackBox type code freeze pmid data).vlt = s.vlt :=
  (State.blackBox_keeps (all_contains [Part.regs, .saturated, .reports, .irqs, .bbQueue, .bbLost]) (State.Keeps.refl _ s) type code freeze pmid data).same .vlt rfl
@[simp] theorem State.blackBox_power (s : State) (type code : Nat) (freeze : Bool) (pmid : Nat) (data : List Word) : (s.blackBox type code freeze pmid data).power = s.power :=
  (State.blackBox_keeps (all_contains [Part.regs, .saturated, .reports, .irqs, .bbQueue, .bbLost]) (State.Keeps.refl _ s) type code freeze pmid data).same .power rfl
@[simp] theorem State.blackBox_wak (s : State) (type code : Nat) (freeze : Bool) (pmid : Nat) (data : List Word) : (s.blackBox type code freeze pmid data).wak = s.wak :=
  (State.blackBox_keeps (all_contains [Part.regs, .saturated, .reports, .irqs, .bbQueue, .bbLost]) (State.Keeps.refl _ s) type code freeze pmid data).same .wak rfl
@[simp] theorem State.blackBox_boot (s : State) (type code : Nat) (freeze : Bool) (pmid : Nat) (data : List Word) : (s.blackBox type code freeze pmid data).boot = s.boot :=
  (State.blackBox_keeps (all_contains [Part.regs, .saturated, .reports, .irqs, .bbQueue, .bbLost]) (State.Keeps.refl _ s) type code freeze pmid data).same .boot rfl
@[simp] theorem State.blackBox_box (s : State) (type code : Nat) (freeze : Bool) (pmid : Nat) (data : List Word) : (s.blackBox type code freeze pmid data).box = s.box :=
  (State.blackBox_keeps (all_contains [Part.regs, .saturated, .reports, .irqs, .bbQueue, .bbLost]) (State.Keeps.refl _ s) type code freeze pmid data).same .box rfl
@[simp] theorem State.blackBox_gwy (s : State) (type code : Nat) (freeze : Bool) (pmid : Nat) (data : List Word) : (s.blackBox type code freeze pmid data).gwy = s.gwy :=
  (State.blackBox_keeps (all_contains [Part.regs, .saturated, .reports, .irqs, .bbQueue, .bbLost]) (State.Keeps.refl _ s) type code freeze pmid data).same .gwy rfl
@[simp] theorem State.blackBox_hbr (s : State) (type code : Nat) (freeze : Bool) (pmid : Nat) (data : List Word) : (s.blackBox type code freeze pmid data).hbr = s.hbr :=
  (State.blackBox_keeps (all_contains [Part.regs, .saturated, .reports, .irqs, .bbQueue, .bbLost]) (State.Keeps.refl _ s) type code freeze pmid data).same .hbr rfl
@[simp] theorem State.blackBox_cpx (s : State) (type code : Nat) (freeze : Bool) (pmid : Nat) (data : List Word) : (s.blackBox type code freeze pmid data).cpx = s.cpx :=
  (State.blackBox_keeps (all_contains [Part.regs, .saturated, .reports, .irqs, .bbQueue, .bbLost]) (State.Keeps.refl _ s) type code freeze pmid data).same .cpx rfl
@[simp] theorem State.blackBox_flt (s : State) (type code : Nat) (freeze : Bool) (pmid : Nat) (data : List Word) : (s.blackBox type code freeze pmid data).flt = s.flt :=
  (State.blackBox_keeps (all_contains [Part.regs, .saturated, .reports, .irqs, .bbQueue, .bbLost]) (State.Keeps.refl _ s) type code freeze pmid data).same .flt rfl

/-! ## Bit fields -/

theorem getBits_lt (x : Word) (lo n : Nat) : getBits x lo n < 2 ^ n := Nat.mod_lt _ (by positivity)

theorem getBits_toNat_le (x : Word) (lo n : Nat) : getBits x lo n * 2 ^ lo ≤ x.toNat := by
  unfold getBits
  exact Nat.le_trans (Nat.mul_le_mul_right _ (Nat.mod_le _ _)) (Nat.div_mul_le_self _ _)

/-- Bit `i` of a word with a field replaced: inside the field the new value's, outside the old one. -/
theorem testBit_setBits (x : Word) (lo n v i : Nat) (h : lo + n ≤ 32) :
    (setBits x lo n v).toNat.testBit i
      = if lo ≤ i ∧ i < lo + n then v.testBit (i - lo) else x.toNat.testBit i := by
  have hx : x.toNat < 2 ^ 32 := x.isLt
  have e1 : x.toNat - getBits x lo n * 2 ^ lo
      = x.toNat / 2 ^ (lo + n) * 2 ^ (lo + n) + x.toNat % 2 ^ lo := by
    have d1 := Nat.div_add_mod x.toNat (2 ^ lo)
    have d2 := Nat.div_add_mod (x.toNat / 2 ^ lo) (2 ^ n)
    have d3 : x.toNat / 2 ^ (lo + n) = x.toNat / 2 ^ lo / 2 ^ n := by
      rw [Nat.pow_add, Nat.div_div_eq_div_mul]
    unfold getBits
    rw [d3, Nat.pow_add]
    generalize x.toNat / 2 ^ lo / 2 ^ n = q at *
    generalize x.toNat / 2 ^ lo % 2 ^ n = f at *
    generalize x.toNat % 2 ^ lo = r at *
    rw [← d1, ← d2]
    have : 2 ^ lo * (2 ^ n * q + f) + r = (q * (2 ^ lo * 2 ^ n) + r) + f * 2 ^ lo := by ring
    rw [this, Nat.add_sub_cancel]
  have e2 : (setBits x lo n v).toNat
      = 2 ^ (lo + n) * (x.toNat / 2 ^ (lo + n)) + (2 ^ lo * (v % 2 ^ n) + x.toNat % 2 ^ lo) := by
    have hlt : 2 ^ (lo + n) * (x.toNat / 2 ^ (lo + n)) + (2 ^ lo * (v % 2 ^ n) + x.toNat % 2 ^ lo)
        < 2 ^ 32 := by
      have a1 : 2 ^ lo * (v % 2 ^ n) + x.toNat % 2 ^ lo < 2 ^ (lo + n) := by
        have b1 : x.toNat % 2 ^ lo < 2 ^ lo := Nat.mod_lt _ (by positivity)
        have b2 : v % 2 ^ n + 1 ≤ 2 ^ n := Nat.mod_lt _ (by positivity)
        calc 2 ^ lo * (v % 2 ^ n) + x.toNat % 2 ^ lo < 2 ^ lo * (v % 2 ^ n) + 2 ^ lo := by omega
          _ = 2 ^ lo * (v % 2 ^ n + 1) := by ring
          _ ≤ 2 ^ lo * 2 ^ n := Nat.mul_le_mul_left _ b2
          _ = 2 ^ (lo + n) := (Nat.pow_add _ _ _).symm
      have a2 : x.toNat / 2 ^ (lo + n) + 1 ≤ 2 ^ (32 - (lo + n)) := by
        have : x.toNat / 2 ^ (lo + n) < 2 ^ (32 - (lo + n)) := by
          apply Nat.div_lt_of_lt_mul
          rw [← Nat.pow_add]
          have : lo + n + (32 - (lo + n)) = 32 := by omega
          rw [this]; exact hx
        exact this
      calc _ < 2 ^ (lo + n) * (x.toNat / 2 ^ (lo + n)) + 2 ^ (lo + n) := by omega
        _ = 2 ^ (lo + n) * (x.toNat / 2 ^ (lo + n) + 1) := by ring
        _ ≤ 2 ^ (lo + n) * 2 ^ (32 - (lo + n)) := Nat.mul_le_mul_left _ a2
        _ = 2 ^ 32 := by rw [← Nat.pow_add]; congr 1; omega
    unfold setBits
    rw [e1, BitVec.toNat_ofNat, Nat.mod_eq_of_lt]
    · ring
    · calc _ = 2 ^ (lo + n) * (x.toNat / 2 ^ (lo + n)) + (2 ^ lo * (v % 2 ^ n) + x.toNat % 2 ^ lo) := by ring
        _ < 2 ^ 32 := hlt
  have hlow : 2 ^ lo * (v % 2 ^ n) + x.toNat % 2 ^ lo < 2 ^ (lo + n) := by
    have b1 : x.toNat % 2 ^ lo < 2 ^ lo := Nat.mod_lt _ (by positivity)
    have b2 : v % 2 ^ n + 1 ≤ 2 ^ n := Nat.mod_lt _ (by positivity)
    calc 2 ^ lo * (v % 2 ^ n) + x.toNat % 2 ^ lo < 2 ^ lo * (v % 2 ^ n) + 2 ^ lo := by omega
      _ = 2 ^ lo * (v % 2 ^ n + 1) := by ring
      _ ≤ 2 ^ lo * 2 ^ n := Nat.mul_le_mul_left _ b2
      _ = 2 ^ (lo + n) := (Nat.pow_add _ _ _).symm
  rw [e2, Nat.testBit_two_pow_mul_add _ hlow]
  by_cases hi : i < lo + n
  · rw [if_pos hi, Nat.testBit_two_pow_mul_add _ (Nat.mod_lt _ (by positivity))]
    by_cases hl : i < lo
    · rw [if_pos hl, if_neg (by omega), Nat.testBit_mod_two_pow]
      simp [hl]
    · rw [if_neg hl, if_pos (by omega), Nat.testBit_mod_two_pow]
      simp [show i - lo < n by omega]
  · rw [if_neg hi, if_neg (by omega), Nat.testBit_div_two_pow]
    congr 1; omega

theorem testBit_getBits (x : Word) (lo n i : Nat) :
    (getBits x lo n).testBit i = (decide (i < n) && x.toNat.testBit (lo + i)) := by
  unfold getBits
  rw [Nat.testBit_mod_two_pow, Nat.testBit_div_two_pow, Nat.add_comm]

/-- A field just written reads as the value's low bits. -/
theorem getBits_setBits_same (x : Word) (lo n v : Nat) (h : lo + n ≤ 32) :
    getBits (setBits x lo n v) lo n = v % 2 ^ n := by
  apply Nat.eq_of_testBit_eq
  intro i
  rw [testBit_getBits, Nat.testBit_mod_two_pow, testBit_setBits _ _ _ _ _ h]
  by_cases hi : i < n
  · rw [if_pos (by omega)]; simp [hi]
  · simp [hi]

/-- A field apart from the one written reads as before. -/
theorem getBits_setBits_apart (x : Word) (lo n v lo' n' : Nat) (h : lo + n ≤ 32)
    (ha : lo' + n' ≤ lo ∨ lo + n ≤ lo') : getBits (setBits x lo n v) lo' n' = getBits x lo' n' := by
  apply Nat.eq_of_testBit_eq
  intro i
  rw [testBit_getBits, testBit_getBits, testBit_setBits _ _ _ _ _ h]
  by_cases hi : i < n'
  · rw [if_neg (by omega)]
  · simp [hi]

theorem getBit_eq_getBits (x : Word) (b : Nat) : getBit x b = decide (getBits x b 1 = 1) := by
  unfold getBit getBits
  rw [← BitVec.testBit_toNat, Nat.testBit_eq_decide_div_mod_eq, pow_one]

/-- A bit just written. -/
theorem getBit_setBits_same (x : Word) (b : Nat) (v : Bool) (h : b < 32) :
    getBit (setBits x b 1 (b2n v)) b = v := by
  rw [getBit_eq_getBits, getBits_setBits_same _ _ _ _ (by omega)]
  cases v <;> rfl

/-- A bit apart from the field written. -/
theorem getBit_setBits_apart (x : Word) (lo n v b : Nat) (h : lo + n ≤ 32)
    (ha : b < lo ∨ lo + n ≤ b) : getBit (setBits x lo n v) b = getBit x b := by
  rw [getBit_eq_getBits, getBit_eq_getBits, getBits_setBits_apart _ _ _ _ _ _ h (by omega)]

/-! ## What a register reads as after a write -/

@[simp] theorem State.rd_wr_same (s : State) (k : Nat) (w : Word) : (s.wr k w).rd k = w :=
  Store.get_set_same _ _ _ _

theorem State.rd_wr_other (s : State) {k k' : Nat} (w : Word) (h : k ≠ k') : (s.wr k w).rd k' = s.rd k' :=
  Store.get_set_other _ _ _ h

theorem State.rd_wr (s : State) (k k' : Nat) (w : Word) :
    (s.wr k w).rd k' = if k = k' then w else s.rd k' := Store.get_set _ _ _ _ _

theorem State.rd_wrN (s : State) (k k' v : Nat) :
    (s.wrN k v).rd k' = if k = k' then BitVec.ofNat 32 v else s.rd k' := State.rd_wr _ _ _ _

theorem State.rd_setFld (s : State) (k k' lo n v : Nat) :
    (s.setFld k lo n v).rd k' = if k = k' then setBits (s.rd k') lo n v else s.rd k' := by
  unfold State.setFld
  rw [State.rd_wr]
  split
  · next e => rw [e]
  · rfl

theorem State.rd_setBit (s : State) (k k' b : Nat) (v : Bool) :
    (s.setBit k b v).rd k' = if k = k' then setBits (s.rd k') b 1 (b2n v) else s.rd k' :=
  State.rd_setFld _ _ _ _ _ _

@[simp] theorem State.rd_wrLive (s : State) (b k : Nat) (w : Word) (k' : Nat) :
    (s.wrLive b k w).rd k' = s.rd k' := rfl

@[simp] theorem State.rd_wrByte (s : State) (a : Nat) (b : Byte) (k : Nat) : (s.wrByte a b).rd k = s.rd k := rfl

@[simp] theorem State.rd_fault (s : State) (c d k : Nat) : (s.fault c d).rd k = s.rd k := rfl

@[simp] theorem State.rd_irq (s : State) (n k : Nat) : (s.irq n).rd k = s.rd k := by
  unfold State.irq; split <;> rfl

/-- A counter that counts touches its own pair only. -/
theorem State.rd_bumpBy (s : State) (c n k : Nat) (h : k ≠ c) (h' : k ≠ c + 4) :
    (s.bumpBy c n).rd k = s.rd k := by
  unfold State.bumpBy
  have e1 : c ≠ k := fun e => h e.symm
  have e2 : c + 4 ≠ k := fun e => h' e.symm
  have red : ∀ (t : State) (x : Store Bool), ({ t with saturated := x } : State).rd k = t.rd k := fun _ _ => rfl
  dsimp only
  split
  · rfl
  split
  · split
    · rw [State.rd_setFld, if_neg e2, State.rd_wrN, if_neg e1]
    · rw [red, State.rd_setFld, if_neg e2, State.rd_wrN, if_neg e1]
  · split
    · rw [State.rd_wrN, if_neg e1]
    · rw [State.rd_setBit, if_neg e2, State.rd_wrN, if_neg e1]

theorem State.rd_bump (s : State) (c k : Nat) (h : k ≠ c) (h' : k ≠ c + 4) : (s.bump c).rd k = s.rd k :=
  State.rd_bumpBy _ _ _ _ h h'

theorem regKey_mon (i : Nat) : monCfgKey i = 0x210000 + 4 * i := by
  unfold monCfgKey regKey; omega

/-- The counters listed for an event are counters of MON. -/
theorem State.monCounters_lt (s : State) (ev : Nat) : ∀ i ∈ s.monCounters ev, i < 1536 := by
  intro i hi
  simp only [State.monCounters, List.mem_map, List.mem_filter] at hi
  obtain ⟨e, ⟨he, _⟩, rfl⟩ := hi
  simp only [Store.slice, List.mem_map, List.mem_filter, Bool.and_eq_true, decide_eq_true_eq] at he
  obtain ⟨x, ⟨_, _, hx⟩, rfl⟩ := he
  simp only [regKey_mon] at hx ⊢
  omega

/-- A MON counter that counts touches registers of MON only. -/
theorem State.rd_monAdd (s : State) (i n k : Nat) (hi : i < 1536) (h : k / 0x100000 ≠ 2) :
    (s.monAdd i n).rd k = s.rd k := by
  unfold State.monAdd
  have hv : ∃ o, Reg.MON_VAL i = regKey 2 o ∧ o + 4 < 0x100000 := ⟨0x20000 + 4 * i, rfl, by omega⟩
  obtain ⟨o, e, ho⟩ := hv
  rw [e, regKey_mon]
  unfold regKey
  dsimp only
  split
  · exact State.rd_bumpBy _ _ _ _ (by omega) (by omega)
  · split
    · rw [State.rd_wrN, if_neg (by omega)]
    · rw [State.rd_irq, State.rd_setBit, if_neg (by omega), State.rd_wrN, if_neg (by omega)]

/-- An event of MON touches registers of MON only. -/
theorem State.rd_monEvents (s : State) (ev n k : Nat) (h : k / 0x100000 ≠ 2) :
    (s.monEvents ev n).rd k = s.rd k := by
  unfold State.monEvents
  have hl := State.monCounters_lt s ev
  generalize s.monCounters ev = l at hl
  induction l generalizing s with
  | nil => rfl
  | cons i l ih =>
    rw [List.foldl_cons, ih _ (fun j hj => hl j (List.mem_cons_of_mem _ hj)),
      State.rd_monAdd _ _ _ _ (hl i List.mem_cons_self) h]

theorem State.rd_monEvent (s : State) (ev k : Nat) (h : k / 0x100000 ≠ 2) : (s.monEvent ev).rd k = s.rd k :=
  State.rd_monEvents _ _ _ _ h

/-! ## Fields and bits -/

theorem State.fld_setFld_same (s : State) (k lo n v : Nat) (h : lo + n ≤ 32) :
    (s.setFld k lo n v).fld k lo n = v % 2 ^ n := by
  simp [State.fld, State.rd_setFld, getBits_setBits_same _ _ _ _ h]

theorem State.fld_setFld_apart (s : State) (k k' lo n v lo' n' : Nat) (h : lo + n ≤ 32)
    (ha : k ≠ k' ∨ lo' + n' ≤ lo ∨ lo + n ≤ lo') : (s.setFld k lo n v).fld k' lo' n' = s.fld k' lo' n' := by
  unfold State.fld
  rw [State.rd_setFld]
  split
  · next e => exact getBits_setBits_apart _ _ _ _ _ _ h (ha.resolve_left (fun x => x e))
  · rfl

theorem State.bit_setBit_same (s : State) (k b : Nat) (v : Bool) (h : b < 32) :
    (s.setBit k b v).bit k b = v := by
  simp [State.bit, State.rd_setBit, getBit_setBits_same _ _ _ h]

theorem State.bit_setBit_apart (s : State) (k k' b b' : Nat) (v : Bool) (h : b < 32)
    (ha : k ≠ k' ∨ b' ≠ b) : (s.setBit k b v).bit k' b' = s.bit k' b' := by
  unfold State.bit
  rw [State.rd_setBit]
  split
  · next e =>
    have := ha.resolve_left (fun x => x e)
    exact getBit_setBits_apart _ _ _ _ _ (by omega) (by omega)
  · rfl

/-! ## Memory and live banks -/

theorem State.rdByte_wrByte (s : State) (a a' : Nat) (b : Byte) :
    (s.wrByte a b).rdByte a' = if a = a' then b else s.rdByte a' := Store.get_set _ _ _ _ _

/-- Stored bytes leave every byte outside them as it was. -/
theorem State.rdByte_wrBytes_outside (s : State) (a a' : Nat) (bs : List Byte)
    (h : a' < a ∨ a + bs.length ≤ a') : (s.wrBytes a bs).rdByte a' = s.rdByte a' := by
  induction bs generalizing s a with
  | nil => rfl
  | cons b bs ih =>
    simp only [List.length_cons] at h
    rw [State.wrBytes, ih _ _ (by omega), State.rdByte_wrByte, if_neg (by omega)]

/-- A stored byte reads back. -/
theorem State.rdByte_wrBytes_inside (s : State) (a i : Nat) (bs : List Byte) (h : i < bs.length) :
    (s.wrBytes a bs).rdByte (a + i) = bs[i] := by
  induction bs generalizing s a i with
  | nil => exact absurd h (Nat.not_lt_zero i)
  | cons b bs ih =>
    rw [State.wrBytes]
    cases i with
    | zero => rw [State.rdByte_wrBytes_outside _ _ _ _ (by omega), State.rdByte_wrByte]; simp
    | succ i =>
      have := ih (s.wrByte a b) (a + 1) i (by simpa using h)
      rw [show a + (i + 1) = a + 1 + i by omega, this]
      rfl

/-- What was stored reads back whole. -/
theorem State.rdBytes_wrBytes (s : State) (a : Nat) (bs : List Byte) :
    (s.wrBytes a bs).rdBytes a bs.length = bs := by
  apply List.ext_getElem
  · simp [State.rdBytes]
  · intro i h1 h2
    simp only [State.rdBytes, List.getElem_map, List.getElem_range]
    exact State.rdByte_wrBytes_inside _ _ _ _ h2

theorem State.rdLive_wrLive_same (s : State) (b k : Nat) (w : Word) : (s.wrLive b k w).rdLive b k = w :=
  Store.get_set_same _ _ _ _

end Sys2Proof.Machine
end

