-- ==== Sys2Proof/Tests/Slice0.lean ====
section
/-!
SUPPORT. Tests: the checks of WellFormed refuse ill-formed commands, words and worked examples of the spec,
and for each statement of Obligations.lean that has hypotheses a state and operands that meet them.
-/

namespace Sys2Proof.Tests

set_option Elab.async false

open Sys2Proof Sys2Proof.Machine

/-! ## WellFormed refuses each ill-formed term -/

theorem test_wf_ld : Instr.wf (.ld 0 1 2 .m .half 0) = false := by decide +kernel
theorem test_wf_lds : Instr.wf (.lds 0 1 2 .m .byte 0) = false := by decide +kernel
theorem test_wf_st : Instr.wf (.st 0 1 2 .m .half 0) = false := by decide +kernel
theorem test_wf_tsins : Instr.wf (.tsins 0 1 2 0 false) = false := by decide +kernel
theorem test_wf_recirc : Instr.wf (.recirc 0 1 false) = false := by decide +kernel
theorem test_wf_registerWrite : Instr.wf (.registerWrite ⟨0x20, true⟩ 0 .byte 0x100) = false := by
  decide +kernel
theorem test_wf_frameReceive : Instr.wf (.frameReceive 0 [] 0) = false := by decide +kernel
theorem test_wf_pfcReceive : Instr.wf (.pfcReceive 0 0 [0]) = false := by decide +kernel
theorem test_wf_canFrameReceived :
    Instr.wf (.canFrameReceived 0 .good 2048 0 [] 0) = false ∧
      Instr.wf (.canFrameReceived 0 .good 0 0 (List.replicate 9 0) 0) = false := by decide +kernel
theorem test_wf_linFrameReceived : Instr.wf (.linFrameReceived 0 0 (List.replicate 9 0) .none 0) = false := by
  decide +kernel
theorem test_wf_serFrameEnd : Instr.wf (.serFrameEnd 0 [] false 0) = false := by decide +kernel
theorem test_wf_canSelectiveWake :
    Instr.wf (.canSelectiveWake 0 .classic false 2048 0 0) = false ∧
      Instr.wf (.canSelectiveWake 0 .classic true 0 9 0) = false := by decide +kernel
theorem test_wf_outboundRequest : Instr.wf (.outboundRequest ⟨0x20, true⟩ 0 .half true 0x10000) = false := by
  decide +kernel
theorem test_wf_inboundRequest :
    Instr.wf (.inboundRequest true false false 0 0 []) = false ∧
      Instr.wf (.inboundRequest false false false 0 0 (List.replicate 4097 none)) = false := by
  decide +kernel
theorem test_wf_ringTxFrame : Instr.wf (.ringTxFrame true 0 3 [1]) = false := by decide +kernel
theorem test_wf_seqTick : Instr.wf (.seqTick []) = false := by decide +kernel
theorem test_wf_gainStep : Instr.wf (.gainStep 0 [0] [0] [0, 0]) = false := by decide +kernel

/-! ## Instruction words of the sequencers, written out from R145 to R159 -/

theorem test_ritik_words (t : ThreadId) (val : Gpr → Word) :
    ritikDecode t val 0b000_00001_0001_0010_0011_000000000000#32 = some (.add t 1 2 3) ∧
    ritikDecode t val 0b000_10111_0101_0000_0111_000000000000#32 = some (.rds t 5 7) ∧
    ritikDecode t val 0b000_01110_0000_0100_0101_000000000000#32 = some (.cmp t 4 5) ∧
    ritikDecode t val 0b001_00000_0001_0010_1111111111111111#32 = some (.addi t 1 2 0xFFFF) ∧
    ritikDecode t val 0b001_01011_0011_0100_000000_00111_01000#32 = some (.ext t 3 4 8 7) ∧
    ritikDecode t val 0b010_1110_0_000000000000000000000101#32 = some (.bCond t .al 5) ∧
    ritikDecode t val 0b011_00010_0001_0010_00_10_000000000100#32 = some (.st t 1 2 .d .word 4) ∧
    ritikDecode t val 0b011_00000_0001_0010_01_00_000000001110#32 = some (.ld t 1 2 .h .byte 14) ∧
    ritikDecode t val 0b100_01101_0000_0000_0000_000000000000#32 = some (.fwd t) ∧
    ritikDecode t val 0b100_01111_0000_0000_0000_000_1_00010001#32 = some (.trap t 0x11 true) ∧
    ritikDecode t val 0b100_10010_0000_0110_0111_0000_00000001#32 = some (.on t 6 7) ∧
    ritikDecode t val 0b000_00000_0000_0000_0000_000000000000#32 = some (.illegal ⟨t, false⟩) ∧
    ritikDecode t val 0b101_00000_0000_0000_0000_000000000000#32 = some (.illegal ⟨t, false⟩) ∧
    ritikDecode t val 0b100_10010_0000_0110_0111_0000_00001011#32 = some (.illegal ⟨t, true⟩) :=
  ⟨rfl, rfl, rfl, rfl, rfl, rfl, rfl, rfl, rfl, rfl, rfl, rfl, rfl, rfl⟩

/-- The worked program of spec/06: decrementing the IPv4 TTL, word by word. -/
theorem test_ritik_ttl_program (t : ThreadId) (val : Gpr → Word) :
    ritikDecode t val 0x60104016#32 = some (.ld t 1 0 .h .byte 22) ∧
    ritikDecode t val 0x29010001#32 = some (.cmpi t 1 1) ∧
    ritikDecode t val 0x5200000A#32 = some (.bCond t .ls 10) ∧
    ritikDecode t val 0x60205016#32 = some (.ld t 2 0 .h .half 22) ∧
    ritikDecode t val 0x2032FF00#32 = some (.addi t 3 2 0xFF00) ∧
    ritikDecode t val 0x62305016#32 = some (.st t 3 0 .h .half 22) ∧
    ritikDecode t val 0x60405018#32 = some (.ld t 4 0 .h .half 24) ∧
    ritikDecode t val 0x14423000#32 = some (.csupd t 4 2 3) ∧
    ritikDecode t val 0x62405018#32 = some (.st t 4 0 .h .half 24) ∧
    ritikDecode t val 0x27500007#32 = some (.movi t 5 7) ∧
    ritikDecode t val 0x85050000#32 = some (.cnt t 5) ∧
    ritikDecode t val 0x8D000000#32 = some (.fwd t) ∧
    ritikDecode t val 0x8F000181#32 = some (.trap t 0x81 true) :=
  ⟨rfl, rfl, rfl, rfl, rfl, rfl, rfl, rfl, rfl, rfl, rfl, rfl, rfl⟩

/-! ## Worked examples of the spec -/

/-- A field of a type in the row of a key. -/
def fieldOf (key : Nat) (ty : FieldType) : FieldDesc :=
  ((rowAt key).bind (fun r => r.fields.find? (fun f => f.ty = ty))).getD ⟨0, 1, .ro, 0⟩

/-- The row of a key. -/
def rowOf (key : Nat) : Row := (rowAt key).getD ⟨0, 1, 0, 1, 0, .open, false, []⟩

/-- The state that an outcome answers. -/
def nextOf (o : Host.Outcome State Fault Refusal) : State :=
  match o with
  | .next t => t
  | _ => State.reset

/-- Block `b` is quiescing. -/
def setQ (s : State) (b : Nat) : State :=
  { s with quiescing := Store.set (fun _ => false) s.quiescing b true }

/-- Thread `t` can issue, with pc 0. -/
def readyAt (s : State) (t : Nat) : State :=
  s.setThread t { s.thread t with status := .ready, pc := 0 }

/-- Thread `t` ready after reset, with registers and more. -/
def thr (t : Nat) (th : Thread) : State := State.reset.setThread t { th with status := .ready }

/-- A VOQ of group 0, port 0, class 0 with one cell, of frame 0. -/
def voqState (seg : Segment) (f : Frame) : State :=
  let s := State.reset.setFrame 0 f
  { s with
    fab := { s.fab with
      voqs := Store.set (fun _ => {}) s.fab.voqs (voqKey 0 0 0)
        { cells := [{ frame := 0, idx := 0, seg := seg }] } } }

/-- The header of an image with one instruction, without its CRC (R171). -/
def imageHead (prof : Nat) : List Byte :=
  bytesLE 4 0x4B495452 ++ bytesLE 2 1 ++ [BitVec.ofNat 8 prof, 0] ++ bytesLE 4 64 ++ bytesLE 4 1 ++
    bytesLE 4 0 ++ bytesLE 4 64 ++ bytesLE 4 0 ++ bytesLE 4 0 ++ bytesLE 4 68 ++ bytesLE 4 0 ++
    bytesLE 4 (crc32c [0, 0, 0, 0]) ++ List.replicate 16 0

/-- A loader busy with that image, which stands in SRAM. -/
def withImage (s : State) (l : Loader) (prof : Nat) : State :=
  let s := s.setLoad l { busy := true, indigo := true, pmid := 0x20 }
  let s := s.wrN (loadAddr l).1 0x20000000
  s.wrBytes 0x20000000 (imageHead prof ++ bytesLE 4 (crc32c (imageHead prof)) ++ [0, 0, 0, 0])

/-- The image that a loader reads. -/
def imageOf (s : State) (l : Loader) : Image :=
  match s.readImage l (s.load_ l) with
  | .ok g => g
  | .error _ => ⟨0, [], 0, [], []⟩

/-- Outbound window 0 open at 0x80000000, 4 KiB onto 0x10000, with attribute bits. -/
def owin (s : State) (attr : Nat) : State :=
  ((s.wrLive liveBank (Reg.HBR_OWIN_w0 0) 0x80000000).wrLive liveBank (Reg.HBR_OWIN_w2 0) 0x10000).wrLive
    liveBank (Reg.HBR_OWIN_w4 0) (BitVec.ofNat 32 (25 + attr))

/-- Inbound window 0 open at 0x80000000, 4 KiB onto SRAM, with attribute bits. -/
def iwin (s : State) (attr : Nat) : State :=
  ((s.wrLive liveBank (Reg.HBR_IWIN_w0 0) 0x80000000).wrLive liveBank (Reg.HBR_IWIN_w2 0) 0x20000000).wrLive
    liveBank (Reg.HBR_IWIN_w4 0) (BitVec.ofNat 32 (25 + attr))

/-- A window that is there. -/
def winGet (o : Option Window) : Window := o.getD ⟨0, 0, 0, false, false, false, 0, false⟩

/-- The PCIe link is up. -/
def linkUp1 (s : State) : State := s.setBit Reg.HBR_PSTAT 0 true

/-- Vault channel 0 runs an operation on a slot with an argument. -/
def vlt (op slot arg : Nat) (s : State) : State :=
  let s := (s.setFld (Reg.VLT_CHSTAT 0) 0 2 2).setVltCmd 0
    { op := op, slot := slot, arg := arg, pmid := 0x33, buf := List.replicate 512 0 }
  { s with vlt := { s.vlt with order := [0], running := some 0 } }

/-- A manifest of one component, with flags, the component's format, payload length and a byte that
fills its result hash (R420, R421). -/
def manWith (flags fmt plen : Nat) (res : Byte) : List Byte :=
  bytesBE 4 0x4C444D31 ++ bytesBE 2 1 ++ bytesBE 2 1 ++ bytesBE 4 388 ++ [1, BitVec.ofNat 8 flags] ++
    bytesBE 2 0xFFFF ++ List.replicate 48 0 ++ bytesBE 2 1 ++ [1, BitVec.ofNat 8 fmt] ++
    List.replicate 16 0 ++
    bytesBE 4 plen ++ bytesBE 4 16 ++ bytesBE 4 0x2000 ++ List.replicate 48 0 ++
    List.replicate 48 res ++ List.replicate 196 0

/-- The plain one. -/
def manBytes (flags plen : Nat) : List Byte := manWith flags 0 plen 0

/-- Update channel 0 names data of a length at an address; the session's state and lock holder. -/
def upd (addr len ses holder : Nat) (s : State) : State :=
  (((s.wrN (Reg.BOOT_SADDRL 0) addr).setFld (Reg.BOOT_SLEN 0) 0 17 len).setFld Reg.BOOT_SESSION 0 3
    ses).setFld Reg.BOOT_SESSION 4 2 holder

/-- Words of a register buffer hold bytes. -/
def putBytes (s : State) (k : Nat) : List Word → State
  | [] => s
  | w :: ws => putBytes (if w = 0 then s else s.wr k w) (k + 4) ws

/-- Anchor `a` holds bytes of 1. -/
def anchored (a : Nat) (s : State) : State := s.wrBytes (0x10011000 + 48 * a) (List.replicate 48 1)

/-- A segment waits for its check in a session for a manifest. -/
def segState (man bs : List Byte) : State :=
  let s := upd 0 0 2 0 State.reset
  { s with boot := { s.boot with manifest := man, segment := some (0, bs) } }

/-- The checksum step of that program: 0xB1E6 with 0x4006 replaced by 0x3F06 is 0xB2E6. -/
theorem test_csupd :
    ((nextOf (exec (.csupd 0 4 2 3)
      (thr 0 { regs := [(2, 0x4006), (3, 0x3F06), (4, 0xB1E6)] }))).thread 0).reg 4 = 0xB2E6 := by
  decide +kernel

/-- ADDI g3, g2, #-256 with g2 = 0x4006 gives 0x3F06. -/
theorem test_addi :
    ((nextOf (exec (.addi 0 3 2 0xFF00) (thr 0 { regs := [(2, 0x4006)] }))).thread 0).reg 3 = 0x3F06 := by
  decide +kernel

/-- The four candidate slots of H = 0x9A3C51E7 (spec/05). -/
theorem test_flow_candidates :
    flowCandidates 0x9A3C51E7 = [13104, 40960 + 24677, 2 * 40960 + 9650, 3 * 40960 + 37056] := by
  decide +kernel

/-- The alias addresses of BLK_CTRL.EN and BLK_STATUS.BUSY of block 0x24 (spec/02). -/
theorem test_alias_addresses :
    targetOf 0x48480080 = .bitAlias 0x2400004 0 ∧ targetOf 0x48480104 = .bitAlias 0x2400008 1 := by
  decide +kernel

/-- The big-endian register of spec/13: what a core reads at offset 4 by each byte-lane rule. -/
theorem test_byte_lanes :
    laneRead 0 4 4 [0xA0, 0xA1, 0xA2, 0xA3, 0x11, 0x22, 0x33, 0x44] = 0x44332211 ∧
    laneRead 2 4 4 [0xA0, 0xA1, 0xA2, 0xA3, 0x11, 0x22, 0x33, 0x44] = 0x11223344 ∧
    laneRead 3 4 4 [0xA0, 0xA1, 0xA2, 0xA3, 0x11, 0x22, 0x33, 0x44] = 0x11223344 ∧
    laneRead 7 4 4 [0xA0, 0xA1, 0xA2, 0xA3, 0x11, 0x22, 0x33, 0x44] = 0xA0A1A2A3 := by
  decide +kernel

/-- A write of a read-write field through a register write, and the same field through the alias. -/
theorem test_register_write :
    (nextOf (exec (.registerWrite ⟨0x20, true⟩ 0x40001000 .word 0x1234567) State.reset)).fld
        (Reg.SYS_RGNBASE 0) 0 28 = 0x1234567 ∧
      (nextOf (exec (.bitAliasWrite ⟨0x20, true⟩ 0x48020480 1) State.reset)).fld
        Reg.FLT_SCRUB 0 6 = 9 := by
  decide +kernel

/-- An Amber master does not reach an Indigo block: cause 4 (R44). -/
theorem test_world :
    (nextOf (exec (.snapRead ⟨0x20, false⟩ 0x40000020 .word) State.reset)).busReply.error = true ∧
      (nextOf (exec (.snapRead ⟨0x20, false⟩ 0x40000020 .word) State.reset)).fld Reg.SYS_BERRINFO 8 3 = 4 := by
  decide +kernel

/-! ## The hypotheses of the statements can be met -/

/-- States and operands that meet the hypotheses of the clauses of StepRunsTheFrontCommand. -/
theorem witness_StepRunsTheFrontCommand :
    (∃ (s : State) (c : Instr) (rest : List Instr), s.pending = c :: rest) ∧
    (∃ (s : State), s.pending = []) :=
  ⟨⟨(let s0 := State.reset; ({ s0 with pending := (.yield 0 : Instr) :: ([] : List Instr) } : State)), .yield 0, [], by decide +kernel⟩,
   ⟨(let s0 := State.reset; ({ s0 with pending := [] } : State)), by decide +kernel⟩⟩

/-- States and operands that meet the hypotheses of the clauses of ResetHoldsTheResetValues. -/
theorem witness_ResetHoldsTheResetValues :
    (∃ (n : _), n < 16) ∧
    (∃ (b : _), blockListed b = true) :=
  ⟨⟨0, by decide +kernel⟩,
   ⟨0, by decide +kernel⟩⟩

/-- States and operands that meet the hypotheses of the clauses of EveryStepKeepsTheInvariant. -/
theorem witness_EveryStepKeepsTheInvariant :
    ∃ (s : State) (t : State), s.sound = true ∧ step s = .next t :=
  ⟨State.reset, State.tick State.reset, by decide +kernel, rfl⟩

/-- States and operands that meet the hypotheses of the clauses of EveryCommandKeepsItsFrame. -/
theorem witness_EveryCommandKeepsItsFrame :
    (∃ (i : Instr) (s : State) (t : State), exec i s = .next t ∧ (partsOf i).contains .mem = false) ∧
    (∃ (i : Instr) (s : State) (t : State), exec i s = .next t ∧ (partsOf i).contains .regs = false) :=
  ⟨⟨.elevatedWindowEnd 0, State.reset, (nextOf (execElevatedWindowEnd 0 State.reset)), rfl, by decide +kernel⟩,
   ⟨.elevatedWindowEnd 0, State.reset, (nextOf (execElevatedWindowEnd 0 State.reset)), rfl, by decide +kernel⟩⟩

/-- States and operands that meet the hypotheses of the clauses of FieldsFollowTheirAccessTypes. -/
theorem witness_FieldsFollowTheirAccessTypes :
    (∃ (s : State) (key : Nat) (r : Row) (f : FieldDesc), rowAt key = some r ∧ s.gateVerdict r key = .accept ∧ forcedOnes key = 0 ∧ f ∈ r.fields ∧ f.ty = .rw) ∧
    (∃ (s : State) (key : Nat) (r : Row) (f : FieldDesc), rowAt key = some r ∧ s.gateVerdict r key = .accept ∧ forcedOnes key = 0 ∧ f ∈ r.fields ∧ f.ty = .ro ∨ f.ty = .wo ∨ f.ty = .snap ∨ f.ty = .own) ∧
    (∃ (s : State) (key : Nat) (r : Row) (f : FieldDesc) (b : _), rowAt key = some r ∧ s.gateVerdict r key = .accept ∧ forcedOnes key = 0 ∧ f ∈ r.fields ∧ f.ty = .w1c ∧ b < f.width) ∧
    (∃ (s : State) (key : Nat) (r : Row) (f : FieldDesc) (b : _), rowAt key = some r ∧ s.gateVerdict r key = .accept ∧ forcedOnes key = 0 ∧ f ∈ r.fields ∧ f.ty = .w1s ∧ b < f.width) ∧
    (∃ (s : State) (key : Nat) (r : Row) (f : FieldDesc), rowAt key = some r ∧ s.gateVerdict r key = .accept ∧ forcedOnes key = 0 ∧ f ∈ r.fields ∧ (let enabled := s.blkEn (key / 0x100000); f.ty = .cfg ∧ enabled = false)) ∧
    (∃ (s : State) (key : Nat) (r : Row) (f : FieldDesc), rowAt key = some r ∧ s.gateVerdict r key = .accept ∧ forcedOnes key = 0 ∧ f ∈ r.fields ∧ (let enabled := s.blkEn (key / 0x100000); f.ty = .cfg ∧ enabled = true ∧ s.bit (Reg.BLK_STATUS (key / 0x100000)) 0 = false)) ∧
    (∃ (s : State) (key : Nat) (r : Row) (f : FieldDesc) (b : _), rowAt key = some r ∧ s.gateVerdict r key = .accept ∧ forcedOnes key = 0 ∧ f ∈ r.fields ∧ b < 32 ∧ (∀ g ∈ r.fields, b < g.lo ∨ g.lo + g.width ≤ b)) :=
  ⟨⟨State.reset, Reg.SYS_RGNBASE 0, rowOf (Reg.SYS_RGNBASE 0), fieldOf (Reg.SYS_RGNBASE 0) .rw, by decide +kernel⟩,
   ⟨State.reset, Reg.FLT_LOG_w0 0, rowOf (Reg.FLT_LOG_w0 0), fieldOf (Reg.FLT_LOG_w0 0) .ro, by decide +kernel⟩,
   ⟨State.reset, Reg.FLT_LOG_w0 0, rowOf (Reg.FLT_LOG_w0 0), fieldOf (Reg.FLT_LOG_w0 0) .w1c, 0, by decide +kernel⟩,
   ⟨State.reset, Reg.SYS_WORLDLOCK, rowOf Reg.SYS_WORLDLOCK, fieldOf Reg.SYS_WORLDLOCK .w1s, 0, by decide +kernel⟩,
   ⟨(State.setBit State.reset (Reg.BLK_CTRL 8) 0 false), Reg.FAB_SCHEDMASK, rowOf Reg.FAB_SCHEDMASK, fieldOf Reg.FAB_SCHEDMASK .cfg, by decide +kernel⟩,
   ⟨(State.setBit (State.setBit State.reset (Reg.BLK_STATUS ((Reg.FAB_SCHEDMASK : Nat) / 0x100000)) 0 false) (Reg.BLK_CTRL 8) 0 true), Reg.FAB_SCHEDMASK, rowOf Reg.FAB_SCHEDMASK, fieldOf Reg.FAB_SCHEDMASK .cfg, by decide +kernel⟩,
   ⟨State.reset, Reg.FAB_SCHEDMASK, rowOf Reg.FAB_SCHEDMASK, fieldOf Reg.FAB_SCHEDMASK .cfg, 20, by decide +kernel⟩⟩

/-- States and operands that meet the hypotheses of the clauses of CounterPairsCarryFreezeAndSaturate. -/
theorem witness_CounterPairsCarryFreezeAndSaturate :
    (∃ (s : State) (k : Nat), let stuck := fun (t : State) => Store.get (fun _ => false) t.saturated k; stuck s = true) ∧
    (∃ (s : State) (k : Nat), let low := fun (t : State) => t.rdN k; let stuck := fun (t : State) => Store.get (fun _ => false) t.saturated k; stuck s = false ∧ s.serviceMode = true ∧ low s < 0xFFFFFFFF) ∧
    (∃ (s : State) (k : Nat), let low := fun (t : State) => t.rdN k; let high := fun (t : State) => t.fld (k + 4) 0 30; let stuck := fun (t : State) => Store.get (fun _ => false) t.saturated k; stuck s = false ∧ s.serviceMode = true ∧ low s = 0xFFFFFFFF ∧ high s < 0x3FFFFFFF) ∧
    (∃ (s : State) (k : Nat), let low := fun (t : State) => t.rdN k; let high := fun (t : State) => t.fld (k + 4) 0 30; let stuck := fun (t : State) => Store.get (fun _ => false) t.saturated k; stuck s = false ∧ s.serviceMode = true ∧ low s = 0xFFFFFFFF ∧ high s = 0x3FFFFFFF) ∧
    (∃ (s : State) (k : Nat), let low := fun (t : State) => t.rdN k; let stuck := fun (t : State) => Store.get (fun _ => false) t.saturated k; stuck s = false ∧ s.serviceMode = false ∧ low s < 0xFFFFFFFF) ∧
    (∃ (s : State) (k : Nat), let low := fun (t : State) => t.rdN k; let stuck := fun (t : State) => Store.get (fun _ => false) t.saturated k; stuck s = false ∧ s.serviceMode = false ∧ low s = 0xFFFFFFFF) ∧
    (∃ (k : Nat) (x : _), x ≠ k ∧ x ≠ k + 4) :=
  ⟨⟨({ State.reset with saturated := [(Cnt.FLT_COALESCED, true)] }), Cnt.FLT_COALESCED, by decide +kernel⟩,
   ⟨State.reset, Cnt.FLT_COALESCED, by decide +kernel⟩,
   ⟨(State.wrN State.reset Cnt.FLT_COALESCED 0xFFFFFFFF), Cnt.FLT_COALESCED, by decide +kernel⟩,
   ⟨(State.setFld (State.wrN State.reset Cnt.FLT_COALESCED 0xFFFFFFFF) (Cnt.FLT_COALESCED + 4) 0 30 0x3FFFFFFF), Cnt.FLT_COALESCED, by decide +kernel⟩,
   ⟨(State.setFld State.reset Reg.MON_MODE 0 2 1), Cnt.FLT_COALESCED, by decide +kernel⟩,
   ⟨(State.wrN (State.setFld State.reset Reg.MON_MODE 0 2 1) Cnt.FLT_COALESCED 0xFFFFFFFF), Cnt.FLT_COALESCED, by decide +kernel⟩,
   ⟨Cnt.FLT_COALESCED, 5, by decide +kernel⟩⟩

/-- States and operands that meet the hypotheses of the clauses of RitikWordsDecodeToTheirInstruction. -/
theorem witness_RitikWordsDecodeToTheirInstruction :
    (∃ (i : Instr) (w : Word), ritikEncode i = some w ∧ i.wf = true) ∧
    (∃ (t : ThreadId) (val : Gpr → Word) (w : Word) (i : Instr), ritikDecode t val w = some i ∧ (∀ unit, i ≠ .illegal ⟨t, unit⟩)) :=
  ⟨⟨.add 0 1 2 3, ((ritikEncode (.add 0 1 2 3)).getD 0), by decide +kernel⟩,
   ⟨0, fun _ => 0, ((ritikEncode (.add 0 1 2 3)).getD 0), .add 0 1 2 3, by decide +kernel⟩⟩

/-- States and operands that meet the hypotheses of the clauses of AmberAccessesNeverReachIndigo. -/
theorem witness_AmberAccessesNeverReachIndigo :
    (∃ (s : State) (m : Master) (key : Nat), m.indigo = true ∨ s.blkIndigo (key / 0x100000) = false) ∧
    (∃ (s : State) (m : Master) (a : Nat), targetOf a ∈ [.rom, .mram, .sram, .flash, .dram] ∧ (let indigo := match s.decidingRegion a with | none => true | some n => s.bit (Reg.SYS_RGNATTR n) 1; m.indigo = true ∨ indigo = false)) ∧
    (∃ (s : State) (m : Master) (a : Nat), targetOf a ∈ [.rom, .mram, .sram, .flash, .dram] ∧ (let indigo := match s.decidingRegion a with | none => true | some n => s.bit (Reg.SYS_RGNATTR n) 1; m.indigo = false ∧ indigo = true)) ∧
    (∃ (s : State) (m : Master) (addr : BitVec 40) (size : AccessSize) (key : Nat), m.indigo = false ∧ blockListed (key / 0x100000) = true ∧ s.blkIndigo (key / 0x100000) = true ∧ s.bit Reg.SYS_BERRINFO 31 = false ∧ targetOf addr.toNat = .reg key ∧ sizeOk key size = true) ∧
    (∃ (s : State) (m : Master) (addr : BitVec 40) (key : Nat) (b : Nat), m.indigo = false ∧ blockListed (key / 0x100000) = true ∧ s.blkIndigo (key / 0x100000) = true ∧ s.bit Reg.SYS_BERRINFO 31 = false ∧ targetOf addr.toNat = .bitAlias key b ∧ addr.toNat % 4 = 0 ∧ sizeOk key .word = true) :=
  ⟨⟨State.reset, ⟨0x20, true⟩, 0, by decide +kernel⟩,
   ⟨State.reset, ⟨0x20, true⟩, 0, by decide +kernel⟩,
   ⟨State.reset, ⟨0x20, false⟩, 0x20000000, by decide +kernel⟩,
   ⟨(State.setBit State.reset Reg.SYS_BERRINFO 31 false), ⟨0x20, false⟩, 0x40100020#40, .word, 0x0100020, by decide +kernel⟩,
   ⟨(State.setBit State.reset Reg.SYS_BERRINFO 31 false), ⟨0x20, false⟩, 1208091660#40, 0x0100020, 3, by decide +kernel⟩⟩

/-- States and operands that meet the hypotheses of the clauses of CounterPairsStandInOrder. -/
theorem witness_CounterPairsStandInOrder :
    ∃ (b : _) (n : _) (k : _), (b, n) ∈ [(0x01, 7), (0x18, 8), (0x1A, 8), (0x23, 6), (0x29, 6), (0x28, 3)] ∧ k < n :=
  ⟨0x18, 8, 7, by decide +kernel⟩

/-- States and operands that meet the hypotheses of the clauses of RegisterCommandsComplete. -/
theorem witness_RegisterCommandsComplete :
    (∃ (s : State) (m : Master) (addr : BitVec 40) (size : AccessSize), (targetOf addr.toNat = .sram ∨ targetOf addr.toNat = .dram) ∧ s.memCheckRange m addr.toNat size.bytes .write = none) ∧
    (∃ (s : State) (m : Master) (addr : BitVec 40) (size : AccessSize) (key : Nat) (c : Nat), targetOf addr.toNat = .reg key ∧ s.regCheck m key size true = some c) ∧
    (∃ (s : State) (m : Master) (addr : BitVec 40) (n : Fin 256), addr.toNat = 0x40000000 + Reg.SYS_RGNBASE n.val ∧ s.admits m (Reg.SYS_RGNBASE n.val)) ∧
    (∃ (s : State) (m : Master) (addr : BitVec 40) (size : AccessSize), (targetOf addr.toNat = .sram ∨ targetOf addr.toNat = .dram ∨ targetOf addr.toNat = .mram) ∧ s.memCheckRange m addr.toNat size.bytes .read = none) ∧
    (∃ (s : State) (m : Master) (addr : BitVec 40), addr.toNat = 0x40000000 + Reg.SYS_CAPS ∧ s.regCheck m Reg.SYS_CAPS .word false = none) ∧
    (∃ (s : State) (m : Master) (addr : BitVec 40) (j : Fin 4) (b : Fin 32), addr.toNat = 0x48000000 + 32 * (0x40 + 4 * j.val) + 4 * b.val ∧ s.admits m (Reg.SYS_BLKWORLD j.val)) ∧
    (∃ (s : State) (m : Master), s.admits m Reg.SYS_WORLDLOCK) ∧
    (∃ (s : State) (m : Master) (n : Fin 256), s.admits m (Reg.SYS_RGNATTR n.val)) ∧
    (∃ (s : State) (m : Master), s.admits m Reg.CPX_PARTLOCK) ∧
    (∃ (s : State) (w : BusWrite) (rest : List BusWrite), s.edgeQueue = w :: rest ∧ s.edgeReachable = true) ∧
    (∃ (s : State) (w : BusWrite) (rest : List BusWrite), s.aonQueue = w :: rest) ∧
    (∃ (s : State), s.regThere (Reg.BLK_STATUS 0x26) = true ∧ s.aonQueue = []) :=
  ⟨⟨State.reset, ⟨0x20, true⟩, 0x20000010, .word, by decide +kernel⟩,
   ⟨State.reset, ⟨0x20, true⟩, 0x40100020, .half, 0x100020, 3, by decide +kernel⟩,
   ⟨State.reset, ⟨0x20, true⟩, BitVec.ofNat 40 (0x40000000 + Reg.SYS_RGNBASE 3), 3, by decide +kernel⟩,
   ⟨State.reset, ⟨0x20, true⟩, 0x20000010, .word, by decide +kernel⟩,
   ⟨State.reset, ⟨0x20, true⟩, BitVec.ofNat 40 (0x40000000 + Reg.SYS_CAPS), by decide +kernel⟩,
   ⟨State.reset, ⟨0x20, true⟩, BitVec.ofNat 40 (0x48000000 + 32 * (0x40 + 4 * 1) + 4 * 5), 1, 5, by decide +kernel⟩,
   ⟨State.reset, ⟨0x20, true⟩, by decide +kernel⟩,
   ⟨State.reset, ⟨0x20, true⟩, 0, by decide +kernel⟩,
   ⟨State.reset, ⟨0x20, true⟩, by decide +kernel⟩,
   ⟨(let s0 := State.reset; ({ s0 with edgeQueue := ({ master := ⟨0x20, true⟩, addr := 0x41C00020, key := 0x1C00020, data := 0 } : BusWrite) :: ([] : List BusWrite) } : State)), { master := ⟨0x20, true⟩, addr := 0x41C00020, key := 0x1C00020, data := 0 }, [], by decide +kernel⟩,
   ⟨(let s0 := State.reset; ({ s0 with aonQueue := ({ master := ⟨0x20, true⟩, addr := 0x41C00020, key := 0x1C00020, data := 0 } : BusWrite) :: ([] : List BusWrite) } : State)), { master := ⟨0x20, true⟩, addr := 0x41C00020, key := 0x1C00020, data := 0 }, [], by decide +kernel⟩,
   ⟨(let s0 := State.reset; ({ s0 with aonQueue := [] } : State)), by decide +kernel⟩⟩

/-- States and operands that meet the hypotheses of the clauses of BlockEnableAndCommitCommandsComplete. -/
theorem witness_BlockEnableAndCommitCommandsComplete :
    (∃ (s : State) (m : Master) (b : Fin 128), s.admits m (Reg.BLK_CTRL b.val) ∧ s.edgeBehind b.val = false ∧ s.blkQuiescing b.val = false ∧ s.blkEn b.val = false) ∧
    (∃ (s : State) (m : Master) (b : Fin 128), s.admits m (Reg.BLK_CTRL b.val) ∧ s.edgeBehind b.val = false ∧ s.blkQuiescing b.val = true ∧ b.val ∉ [0x24, 0x25, 0x26]) ∧
    (∃ (s : State) (m : Master) (b : Fin 128), s.regCheck m (Reg.BLK_CTRL b.val) .word true = none ∧ s.edgeBehind b.val = true) ∧
    (∃ (s : State) (m : Master) (b : Fin 128), s.admits m (Reg.BLK_CTRL b.val) ∧ s.edgeBehind b.val = false ∧ s.blkEn b.val = true ∧ s.blkQuiescing b.val = false) ∧
    (∃ (s : State) (b : Fin 128), s.blkQuiescing b.val = true ∧ s.quiesced b.val = true) ∧
    (∃ (s : State) (b : Fin 128), s.blkQuiescing b.val = true ∧ s.quiesced b.val = false) ∧
    (∃ (i : Instr) (s : State) (m : Master) (b : Fin 128) (tab : BitVec 8) (ix : BitVec 8) (mode : Nat) (c : Nat), (i = .commitImmediate m b tab ix ∧ mode = 0 ∨ i = .commitTimed m b tab ix ∧ mode = 1 ∨ i = .commitGeneration m b tab ix ∧ mode = 2) ∧ s.admits m (commitKey b.val) ∧ s.commitCode b.val tab.toNat ix.toNat mode = c ∧ c = 0) ∧
    (∃ (i : Instr) (s : State) (m : Master) (b : Fin 128) (tab : BitVec 8) (ix : BitVec 8) (mode : Nat) (c : Nat), (i = .commitImmediate m b tab ix ∧ mode = 0 ∨ i = .commitTimed m b tab ix ∧ mode = 1 ∨ i = .commitGeneration m b tab ix ∧ mode = 2) ∧ s.admits m (commitKey b.val) ∧ s.commitCode b.val tab.toNat ix.toNat mode = c ∧ c ≠ 0) ∧
    (∃ (s : State) (b : Fin 128) (tab : BitVec 8), s.tablePending b.val tab.toNat = true) ∧
    (∃ (s : State) (m : Master), s.admits m (commitKey 0x0C) ∧ s.commitCode 0x0C 0 0 2 = 0) ∧
    (∃ (s : State) (b : Fin 128), (s.commit b.val).active = true) :=
  ⟨⟨(State.setBit State.reset (Reg.BLK_CTRL (0 : Fin 128).val) 0 false), ⟨0x20, true⟩, 0, by decide +kernel⟩,
   ⟨(setQ State.reset (0 : Fin 128).val), ⟨0x20, true⟩, 0, by decide +kernel⟩,
   ⟨{ State.reset with edgeQueue := [⟨⟨0x20, true⟩, 0x41C00020, 0x1C00020, 0, false, none⟩] }, ⟨0x20, true⟩, 0x26, by decide +kernel⟩,
   ⟨(State.setBit State.reset (Reg.BLK_CTRL (0 : Fin 128).val) 0 true), ⟨0x20, true⟩, 0, by decide +kernel⟩,
   ⟨(setQ State.reset (0 : Fin 128).val), 0, by decide +kernel⟩,
   ⟨(State.setFrame (setQ State.reset (9 : Fin 128).val) 0 { stage := .queued, fanout := [1], cells := [{ place := .shared, ports := [0], copies := [0] }] }), 9, by decide +kernel⟩,
   ⟨.commitImmediate ⟨0x20, true⟩ 0x10 1 0, State.reset, ⟨0x20, true⟩, 0x10, 1, 0, 0, 0, by decide +kernel⟩,
   ⟨.commitImmediate ⟨0x20, true⟩ 0x0C 0x77 0, State.reset, ⟨0x20, true⟩, 0x0C, 0x77, 0, 0, State.reset.commitCode 0x0C 0x77 0 0, by decide +kernel⟩,
   ⟨(State.setCommit State.reset (0 : Fin 128).val { active := true, table := (0 : BitVec 8).toNat }), 0, 0, by decide +kernel⟩,
   ⟨State.reset, ⟨0x20, true⟩, by decide +kernel⟩,
   ⟨(State.setCommit State.reset (0 : Fin 128).val { active := true }), 0, by decide +kernel⟩⟩

/-- States and operands that meet the hypotheses of the clauses of LinkCommandsComplete. -/
theorem witness_LinkCommandsComplete :
    (∃ (s : State), s.traverse.state = .up) ∧
    (∃ (s : State), s.traverse.state = .recovering ∧ s.traverse.held = []) ∧
    (∃ (s : State), s.traverse.state = .recovering ∧ s.traverse.retrainSince + 100000 ≤ s.nowNs) ∧
    (∃ (s : State), s.nowNs < s.traverse.retrainSince + 100000) ∧
    (∃ (s : State) (w : BusWrite) (rest : List BusWrite), (s.traverse.state = .recovering ∨ s.traverse.state = .failed) ∧ s.traverse.retrainSince + 1100000 ≤ s.nowNs ∧ s.edgeQueue = w :: rest) :=
  ⟨⟨(let s0 := State.reset; ({ s0 with traverse := { s0.traverse with state := .up } } : State)), by decide +kernel⟩,
   ⟨(let s0 := (let s0 := State.reset; ({ s0 with traverse := { s0.traverse with state := .recovering } } : State)); ({ s0 with traverse := { s0.traverse with held := [] } } : State)), by decide +kernel⟩,
   ⟨({ (let s0 := State.reset; ({ s0 with traverse := { s0.traverse with state := .recovering } } : State)) with nowNs := 100000000000000 } : State), by decide +kernel⟩,
   ⟨State.reset, by decide +kernel⟩,
   ⟨({ (let s0 := (let s0 := State.reset; ({ s0 with traverse := { s0.traverse with state := .recovering } } : State)); ({ s0 with edgeQueue := ({ master := ⟨0x20, true⟩, addr := 0x41C00020, key := 0x1C00020, data := 0 } : BusWrite) :: ([] : List BusWrite) } : State)) with nowNs := 100000000000000 } : State), { master := ⟨0x20, true⟩, addr := 0x41C00020, key := 0x1C00020, data := 0 }, [], by decide +kernel⟩⟩

/-- States and operands that meet the hypotheses of the clauses of IslandAndSupplyCommandsComplete. -/
theorem witness_IslandAndSupplyCommandsComplete :
    (∃ (s : State) (i : Island), i ∉ [Island.system, .aon, .edge, .app, .mem, .cipher] ∧ (i = .pg0 → s.island .pg1 = .stopped ∧ s.island .pg2 = .stopped) ∧ (i = .pg3 → s.island .pg4 = .stopped)) ∧
    (∃ (s : State), s.island .pg1 ≠ .stopped ∨ s.island .pg2 ≠ .stopped) ∧
    (∃ (s : State), s.island .pg4 ≠ .stopped) ∧
    (∃ (s : State), s.driftCells = 0) ∧
    (∃ (s : State), s.driftCells ≠ 0) ∧
    (∃ (s : State) (i : Island), s.mayRun i = true ∧ s.coreHeld = false) ∧
    (∃ (s : State) (m : Master), s.admits m Reg.WAK_STATECTL ∧ s.edgeBehind 0x26 = false ∧ ((s.reply 0).softwareRequest 2).1.cur = 3 ∧ ((s.reply 0).softwareRequest 2).1.trans = false) ∧
    (∃ (s : State) (m : Master), s.admits m Reg.WAK_STATECTL ∧ s.edgeBehind 0x26 = false ∧ ((s.reply 0).softwareRequest 3).1.cur = 2 ∧ ((s.reply 0).softwareRequest 3).1.trans = false) ∧
    (∃ (s : State), s.trans = true ∧ s.fld Reg.WAK_STATE 2 2 < 2 ∧ s.cur < 2 ∧ s.phase ≠ 3) ∧
    (∃ (s : State), s.trans = true ∧ 2 ≤ s.fld Reg.WAK_STATE 2 2 ∧ s.phase ≠ 3 ∧ s.coreHeld = false ∧ (s.fld Reg.WAK_STATE 2 2 = 2 → s.driftCells = 0) ∧ s.islandsWait (s.fld Reg.WAK_STATE 2 2) = false) ∧
    (∃ (s : State), s.phase = 3 ∧ s.fabricEmpty = true ∧ s.wak.heldWake = []) ∧
    (∃ (s : State), s.supply.holdupCharged = false ∧ s.supplied = true ∧ s.trans = true ∧ s.cur < 2) ∧
    (∃ (s : State), s.coreHeld = true ∧ s.supply.holdupCharged = true ∧ s.supply.resetN = false ∧ s.supplied = true ∧ (2 ≤ s.cur ∨ s.trans = true ∧ 2 ≤ s.fld Reg.WAK_STATE 2 2)) ∧
    (∃ (s : State), s.coreHeld = true ∧ s.supply.feedAOk = false ∧ s.supply.feedBOk = false) ∧
    (∃ (s : State), s.supply.feedAOk = true) ∧
    (∃ (s : State), s.supply.feedBOk = true) ∧
    (∃ (s : State), 2 ≤ s.cur ∨ s.trans = true) ∧
    (∃ (s : State), s.supply.resetN = true) ∧
    (∃ (s : State), s.supply.groundsLost = true) :=
  ⟨⟨State.reset, .rt, by decide +kernel⟩,
   ⟨State.reset, by decide +kernel⟩,
   ⟨State.reset, by decide +kernel⟩,
   ⟨State.reset, by decide +kernel⟩,
   ⟨(State.setFld State.reset Reg.FAB_DRIFTSTAT 0 22 1), by decide +kernel⟩,
   ⟨(((let s0 := State.reset; ({ s0 with coreHeld := false } : State))).setIsland .rt .restarting), .rt, by decide +kernel⟩,
   ⟨State.reset, ⟨0x20, true⟩, by decide +kernel⟩,
   ⟨(State.setFld (State.setFld (State.setBit State.reset Reg.WAK_STATE 4 false) Reg.WAK_STATE 0 2 2) Reg.WAK_STATE 2 2 2), ⟨0x20, true⟩, by decide +kernel⟩,
   ⟨(State.setFld (State.setFld (State.setFld (State.setBit State.reset Reg.WAK_STATE 4 true) Reg.WAK_STATE 0 2 1) Reg.WAK_STATE 0 2 1) Reg.WAK_STATE 2 2 1), by decide +kernel⟩,
   ⟨(let s0 := (State.setBit State.reset Reg.WAK_STATE 4 true); ({ s0 with coreHeld := false } : State)), by decide +kernel⟩,
   ⟨(let s0 := (State.setFld State.reset Reg.WAK_EPOCH 16 2 3); ({ s0 with wak := { s0.wak with heldWake := [] } } : State)), by decide +kernel⟩,
   ⟨(State.setFld (State.setBit (let s0 := State.reset; ({ s0 with supply := { s0.supply with holdupCharged := false } } : State)) Reg.WAK_STATE 4 true) Reg.WAK_STATE 0 2 1), by decide +kernel⟩,
   ⟨(State.setFld (let s0 := (let s0 := (let s0 := State.reset; ({ s0 with coreHeld := true } : State)); ({ s0 with supply := { s0.supply with holdupCharged := true } } : State)); ({ s0 with supply := { s0.supply with resetN := false } } : State)) Reg.WAK_STATE 0 2 3), by decide +kernel⟩,
   ⟨(let s0 := (let s0 := (let s0 := State.reset; ({ s0 with coreHeld := true } : State)); ({ s0 with supply := { s0.supply with feedAOk := false } } : State)); ({ s0 with supply := { s0.supply with feedBOk := false } } : State)), by decide +kernel⟩,
   ⟨(let s0 := State.reset; ({ s0 with supply := { s0.supply with feedAOk := true } } : State)), by decide +kernel⟩,
   ⟨(let s0 := State.reset; ({ s0 with supply := { s0.supply with feedBOk := true } } : State)), by decide +kernel⟩,
   ⟨(State.setFld State.reset Reg.WAK_STATE 0 2 3), by decide +kernel⟩,
   ⟨(let s0 := State.reset; ({ s0 with supply := { s0.supply with resetN := true } } : State)), by decide +kernel⟩,
   ⟨(let s0 := State.reset; ({ s0 with supply := { s0.supply with groundsLost := true } } : State)), by decide +kernel⟩⟩

/-- States and operands that meet the hypotheses of the clauses of CoreResetLeavesResetValues. -/
theorem witness_CoreResetLeavesResetValues :
    (∃ (k : _), k / 0x100000 ∉ [0x1A, 0x1C, 0x1D, 0x26, 0x28, 0x29]) ∧
    (∃ (n : _) (i : _), n < 8 ∧ i < 12) ∧
    (∃ (a : _), nonvolatile a = true) ∧
    (∃ (a : _), nonvolatile a = false) :=
  ⟨⟨0, by decide +kernel⟩,
   ⟨0, 0, by decide +kernel⟩,
   ⟨0x10000000, by decide +kernel⟩,
   ⟨0, by decide +kernel⟩⟩

/-- States and operands that meet the hypotheses of the clauses of SequencerCommandsComplete. -/
theorem witness_SequencerCommandsComplete :
    (∃ (s : State) (d : Die) (a : LinkCopy) (b : LinkCopy) (cmd : PowerCmd) (rest : List PowerCmd), (s.die (dieNo d)).queue = cmd :: rest ∧ a ≠ .good ∧ b ≠ .good) ∧
    (∃ (s : State) (d : Die) (b : LinkCopy) (cmd : PowerCmd) (rest : List PowerCmd), (s.die (dieNo d)).queue = cmd :: rest ∧ b ≠ .bad) ∧
    (∃ (s : State) (d : Die) (arg : Word) (th : Nat) (c : Fin 24) (rest : List PowerCmd), (s.die (dieNo d)).queue = { code := 2, ch := c.val, arg := arg, thread := th } :: rest ∧ s.hasDie (dieNo d) = true ∧ (s.die (dieNo d)).reversed = false ∧ s.chanHeld (24 * dieNo d + c.val) = false) ∧
    (∃ (s : State) (d : Die), s.hasDie (dieNo d) = true ∧ (s.link (dieNo d)).copyAOk = true ∧ (s.link (dieNo d)).copyBOk = true) ∧
    (∃ (s : State), s.beating 0 = true ∧ s.beating 1 = true) ∧
    (∃ (s : State), s.beating 0 = false ∧ s.beating 1 = false) ∧
    (∃ (s : State) (d : Die), s.hasDie (dieNo d) = true ∧ (s.die (dieNo d)).reversed = false ∧ (s.die (dieNo d)).hold = false ∧ (s.link (dieNo d)).edgeAt + 5000000 ≤ s.nowNs) ∧
    (∃ (s : State) (d : Die), s.nowNs < (s.link (dieNo d)).edgeAt + 5000000) ∧
    (∃ (s : State) (d : Die), s.hasDie (dieNo d) = true ∧ s.running .seq = true ∧ s.coreHeld = false ∧ (s.die (dieNo d)).reversed = false ∧ ((s.link (dieNo d)).copyAOk = true ∨ (s.link (dieNo d)).copyBOk = true)) ∧
    (∃ (s : State) (n : Fin 48), s.running .seq = true ∧ s.coreHeld = false ∧ s.hasDie (n.val / 24) = true) ∧
    (∃ (s : State) (m : Master) (n : Out) (v : Word), s.admits m (Reg.PWC_THETA (n.val / 24) (n.val % 24)) ∧ (s.thetaStored n.val v).toNat < s.rdN (Reg.PWC_THLIM (n.val / 24) (n.val % 24))) ∧
    (∃ (s : State) (m : Master) (n : Out) (v : Word), s.admits m (Reg.PWC_THETA (n.val / 24) (n.val % 24)) ∧ s.rdN (Reg.PWC_THLIM (n.val / 24) (n.val % 24)) ≤ (s.thetaStored n.val v).toNat ∧ (s.chan n.val).latch = false ∧ s.chanHeld n.val = false) ∧
    (∃ (s : State) (n : Out), s.modelStalled n.val = true ∧ s.chanHeld n.val = false ∧ s.dieWorks (n.val / 24) = true ∧ s.beating (n.val / 24) = true) ∧
    (∃ (s : State), (s.beating 0 = true ∨ s.beating 1 = true) ∧ s.passed s.power.snapAt (1000000 * s.snapPeriod) = true) ∧
    (∃ (s : State) (n : Out), s.hasDie (n.val / 24) = true ∧ s.up .seq = true ∧ s.passed (s.chan n.val).floorUntil 0 = true) :=
  ⟨⟨(let s0 := State.reset; s0.setDie (dieNo (.a : Die)) { s0.die (dieNo (.a : Die)) with queue := ({ code := 1, ch := 0, arg := 0 } : PowerCmd) :: ([] : List PowerCmd) }), .a, .bad, .silent, { code := 1, ch := 0, arg := 0 }, [], by decide +kernel⟩,
   ⟨(let s0 := State.reset; s0.setDie (dieNo (.a : Die)) { s0.die (dieNo (.a : Die)) with queue := ({ code := 1, ch := 0, arg := 0 } : PowerCmd) :: ([] : List PowerCmd) }), .a, .good, { code := 1, ch := 0, arg := 0 }, [], by decide +kernel⟩,
   ⟨(State.setDie State.reset 0 { (State.reset.die 0) with queue := [⟨2, 3, 0, 192⟩], hold := false }), .a, 0, 192, 3, [], by decide +kernel⟩,
   ⟨State.reset, .a, by decide +kernel⟩,
   ⟨(State.setBit (State.setBit State.reset (Reg.BLK_CTRL 36) 0 true) (Reg.BLK_CTRL 37) 0 true), by decide +kernel⟩,
   ⟨State.reset, by decide +kernel⟩,
   ⟨({ (let s0 := (let s0 := State.reset; s0.setDie (dieNo (.a : Die)) { s0.die (dieNo (.a : Die)) with reversed := false }); s0.setDie (dieNo (.a : Die)) { s0.die (dieNo (.a : Die)) with hold := false }) with nowNs := 100000000000000 } : State), .a, by decide +kernel⟩,
   ⟨State.reset, .a, by decide +kernel⟩,
   ⟨(let s0 := (let s0 := State.reset; ({ s0 with coreHeld := false } : State)); s0.setDie (dieNo (.a : Die)) { s0.die (dieNo (.a : Die)) with reversed := false }), .a, by decide +kernel⟩,
   ⟨(let s0 := State.reset; ({ s0 with coreHeld := false } : State)), 0, by decide +kernel⟩,
   ⟨State.reset, ⟨0x20, true⟩, 0, 0, by decide +kernel⟩,
   ⟨(State.wrN (let s0 := (let s0 := State.reset; s0.setChan (0 : Out).val { s0.chan (0 : Out).val with latch := false }); s0.setDie ((0 : Out).val / 24) { s0.die ((0 : Out).val / 24) with hold := false }) (Reg.PWC_THLIM 0 0) 0), ⟨0x20, true⟩, 0, 0, by decide +kernel⟩,
   ⟨({ (let s0 := ((let s0 := State.reset; s0.setDie ((0 : Out).val / 24) { s0.die ((0 : Out).val / 24) with hold := false })).setBit (Reg.BLK_CTRL 36) 0 true; s0.setChan 0 { s0.chan 0 with on := true }) with nowNs := 100000000000000 } : State), 0, by decide +kernel⟩,
   ⟨(State.setBit State.reset (Reg.BLK_CTRL 36) 0 true), by decide +kernel⟩,
   ⟨State.reset, 0, by decide +kernel⟩⟩

/-- States and operands that meet the hypotheses of the clauses of CalibrationAndSupplyCommandsComplete. -/
theorem witness_CalibrationAndSupplyCommandsComplete :
    (∃ (s : State) (n : Out) (avg : Int), ((s.chan n.val).on = false ∨ (s.chan n.val).pwm = true) ∧ s.dieWorks (n.val / 24) = true ∧ s.up .seq = true ∧ (avg - signed 16 (s.fld (Reg.PWC_CHOFS (n.val / 24) (n.val % 24)) 0 16)) % 8 = 0) ∧
    (∃ (s : State) (n : Out) (gain : Bool), s.hasDie (n.val / 24) = true ∧ s.up .seq = true ∧ s.calStale n.val gain = true) ∧
    (∃ (s : State) (n : Out) (before : List Int) (during : List Int) (after : List Int), s.gainAllowed n.val = true ∧ ((after.sum - before.sum).natAbs * 100 : Int) ≤ 2 * continuousMa (chanClass (n.val % 24)) * 5 ∧ (during.sum - before.sum - 500).natAbs ≤ 25) ∧
    (∃ (s : State) (n : Out), s.gainAllowed n.val = false) ∧
    (∃ (s : State) (n : Out) (before : List Int) (after : List Int), s.gainAllowed n.val = true ∧ (2 * continuousMa (chanClass (n.val % 24)) * 5 : Int) < (after.sum - before.sum).natAbs * 100) ∧
    (∃ (s : State) (n : Out) (before : List Int) (during : List Int) (after : List Int), s.gainAllowed n.val = true ∧ ((after.sum - before.sum).natAbs * 100 : Int) ≤ 2 * continuousMa (chanClass (n.val % 24)) * 5 ∧ 25 < (during.sum - before.sum - 500).natAbs) ∧
    (∃ (s : State) (n : Out), (s.chan n.val).on = true ∧ s.dieWorks (n.val / 24) = true) ∧
    (∃ (s : State) (n : Out), (s.chan n.val).on = false ∧ s.bit (Reg.PWC_CHCFG (n.val / 24) (n.val % 24)) 3 = true ∧ s.dieWorks (n.val / 24) = true) ∧
    (∃ (s : State) (d : Die), s.dieWorks (dieNo d) = true ∧ (s.die (dieNo d)).dump = false) ∧
    (∃ (s : State) (d : Die), (s.die (dieNo d)).dump = true) ∧
    (∃ (s : State) (d : Die), s.hasDie (dieNo d) = true) ∧
    (∃ (s : State) (d : Die), (s.die (dieNo d)).reversed = true) ∧
    (∃ (s : State), s.hasDie 0 = true ∨ s.hasDie 1 = true) ∧
    (∃ (s : State), s.hasDie 0 = false ∧ s.hasDie 1 = false) ∧
    (∃ (s : State) (n : Out), s.hasDie (n.val / 24) = true ∧ (s.chan n.val).desired = true ∧ (s.chan n.val).on = false ∧ (s.chan n.val).latch = false ∧ s.chanHeld n.val = false ∧ (s.chan n.val).overdue = false ∧ 20000000 ≤ (s.chan n.val).silence s.nowNs (1000000 * Nat.min 2000 (s.fld Reg.FLT_RECCFG 0 11))) :=
  ⟨⟨(let s0 := State.reset; s0.setChan (0 : Out).val { s0.chan (0 : Out).val with on := false }), 0, 0, by decide +kernel⟩,
   ⟨({ State.reset with nowNs := 100000000000000 } : State), 0, true, by decide +kernel⟩,
   ⟨({ (let s0 := ((((State.reset.setBit (Reg.BLK_CTRL 36) 0 true).setBit (Reg.PWC_CALCFG 0) 0 true))); s0.setChan 0 { s0.chan 0 with on := true }) with nowNs := 100000000000000 } : State), 0, [0, 0, 0, 0, 0], [110, 100, 100, 100, 90], [0, 0, 0, 0, 0], by decide +kernel⟩,
   ⟨State.reset, 0, by decide +kernel⟩,
   ⟨({ (let s0 := ((((State.reset.setBit (Reg.BLK_CTRL 36) 0 true).setBit (Reg.PWC_CALCFG 0) 0 true))); s0.setChan 0 { s0.chan 0 with on := true }) with nowNs := 100000000000000 } : State), 0, [0], [10000000], by decide +kernel⟩,
   ⟨({ (let s0 := ((((State.reset.setBit (Reg.BLK_CTRL 36) 0 true).setBit (Reg.PWC_CALCFG 0) 0 true))); s0.setChan 0 { s0.chan 0 with on := true }) with nowNs := 100000000000000 } : State), 0, [0], [600], [0], by decide +kernel⟩,
   ⟨(let s0 := State.reset; s0.setChan (0 : Out).val { s0.chan (0 : Out).val with on := true }), 0, by decide +kernel⟩,
   ⟨(State.setBit (let s0 := State.reset; s0.setChan (0 : Out).val { s0.chan (0 : Out).val with on := false }) (Reg.PWC_CHCFG ((0 : Out).val / 24) ((0 : Out).val % 24)) 3 true), 0, by decide +kernel⟩,
   ⟨(let s0 := State.reset; s0.setDie (dieNo (.a : Die)) { s0.die (dieNo (.a : Die)) with dump := false }), .a, by decide +kernel⟩,
   ⟨(let s0 := State.reset; s0.setDie (dieNo (.a : Die)) { s0.die (dieNo (.a : Die)) with dump := true }), .a, by decide +kernel⟩,
   ⟨State.reset, .a, by decide +kernel⟩,
   ⟨(let s0 := State.reset; s0.setDie (dieNo (.a : Die)) { s0.die (dieNo (.a : Die)) with reversed := true }), .a, by decide +kernel⟩,
   ⟨State.reset, by decide +kernel⟩,
   ⟨{ State.reset with variant := .jzm0032s }, by decide +kernel⟩,
   ⟨({ (let s0 := (let s0 := (let s0 := (let s0 := (let s0 := State.reset; s0.setChan (0 : Out).val { s0.chan (0 : Out).val with desired := true }); s0.setChan (0 : Out).val { s0.chan (0 : Out).val with on := false }); s0.setChan (0 : Out).val { s0.chan (0 : Out).val with latch := false }); s0.setDie ((0 : Out).val / 24) { s0.die ((0 : Out).val / 24) with hold := false }); s0.setChan (0 : Out).val { s0.chan (0 : Out).val with overdue := false }) with nowNs := 100000000000000 } : State), 0, by decide +kernel⟩⟩

/-- States and operands that meet the hypotheses of the clauses of TripCommandsComplete. -/
theorem witness_TripCommandsComplete :
    (∃ (s : State) (n : Out), (s.chan n.val).on = true ∧ s.chanHeld n.val = false ∧ (s.chan n.val).sequence = true ∧ s.dieWorks (n.val / 24) = true) ∧
    (∃ (s : State) (n : Out), (s.chan n.val).cooling = true ∧ (s.chan n.val).tripped = none ∧ (s.chan n.val).restart = none ∧ s.chanHeld n.val = false ∧ (s.chan n.val).used < s.retries n.val ∧ s.dieWorks (n.val / 24) = true) ∧
    (∃ (s : State) (n : Out), s.dieWorks (n.val / 24) = true ∧ s.winPassed n.val 0 = true) ∧
    (∃ (s : State) (n : Out), (s.chan n.val).on = true ∧ (s.chan n.val).sequence = true ∧ s.dieWorks (n.val / 24) = true ∧ s.winPassed n.val 100 = true) ∧
    (∃ (s : State) (n : Out) (at_ : Nat), (s.chan n.val).tripped = some at_ ∧ s.dieWorks (n.val / 24) = true ∧ at_ + 1000000 * s.spacing n.val ≤ s.nowNs) ∧
    (∃ (s : State) (d : Die) (n : Nat) (r : Restart), s.slotQueue (dieNo d) = [(n, r)] ∧ (s.die (dieNo d)).dump = true) ∧
    (∃ (s : State) (d : Die) (n : Nat) (r : Restart), s.slotQueue (dieNo d) = [(n, r)] ∧ n / 24 = dieNo d ∧ s.dieWorks (dieNo d) = true ∧ (s.die (dieNo d)).dump = false ∧ r.restore = false ∧ 8 ≤ r.waited) ∧
    (∃ (s : State) (d : Die) (avg : BitVec 8) (n : Nat), s.dieLimit (dieNo d) < avg.toNat ∧ s.dieWorks (dieNo d) = true ∧ s.beating (dieNo d) = true ∧ (s.sheddable (dieNo d)).getLast? = some n ∧ s.passed (s.die (dieNo d)).shedAt 1000000000 = true) ∧
    (∃ (s : State) (d : Die) (avg : BitVec 8), avg.toNat ≤ s.dieLimit (dieNo d) ∧ s.dieWorks (dieNo d) = true ∧ s.beating (dieNo d) = true) ∧
    (∃ (s : State) (d : Die) (u : Nat), (s.die (dieNo d)).shedAt = some u ∧ s.nowNs < u + 1000000000 ∧ s.dieWorks (dieNo d) = true ∧ s.beating (dieNo d) = true) ∧
    (∃ (s : State) (n : Out), (s.chan n.val).on = true ∧ (s.chan n.val).pwm = true ∧ (s.chan n.val).level = false ∧ (s.chanHeld n.val = true ∨ s.riseDue n.val = true)) ∧
    (∃ (s : State) (n : Out), (s.chan n.val).on = true ∧ (s.chan n.val).pwm = true ∧ (s.chanHeld n.val = true ∨ (s.chan n.val).fallAt ≤ s.nowNs + 400)) ∧
    (∃ (s : State) (n : Out), s.chanHeld n.val = false ∧ s.nowNs + 400 < (s.chan n.val).fallAt) :=
  ⟨⟨(let s0 := (let s0 := (let s0 := State.reset; s0.setChan (0 : Out).val { s0.chan (0 : Out).val with on := true }); s0.setDie ((0 : Out).val / 24) { s0.die ((0 : Out).val / 24) with hold := false }); s0.setChan (0 : Out).val { s0.chan (0 : Out).val with sequence := true }), 0, by decide +kernel⟩,
   ⟨(let s0 := (let s0 := (let s0 := (let s0 := State.reset; s0.setChan (0 : Out).val { s0.chan (0 : Out).val with cooling := true }); s0.setChan (0 : Out).val { s0.chan (0 : Out).val with tripped := none }); s0.setChan (0 : Out).val { s0.chan (0 : Out).val with restart := none }); s0.setDie ((0 : Out).val / 24) { s0.die ((0 : Out).val / 24) with hold := false }), 0, by decide +kernel⟩,
   ⟨({ State.reset with nowNs := 100000000000000 } : State), 0, by decide +kernel⟩,
   ⟨({ (let s0 := (let s0 := State.reset; s0.setChan (0 : Out).val { s0.chan (0 : Out).val with on := true }); s0.setChan (0 : Out).val { s0.chan (0 : Out).val with sequence := true }) with nowNs := 100000000000000 } : State), 0, by decide +kernel⟩,
   ⟨({ (let s0 := State.reset; s0.setChan (0 : Out).val { s0.chan (0 : Out).val with tripped := some (0 : Nat) }) with nowNs := 100000000000000 } : State), 0, 0, by decide +kernel⟩,
   ⟨(let s0 := (let s0 := State.reset; s0.setDie (dieNo (.a : Die)) { s0.die (dieNo (.a : Die)) with dump := true }); s0.setChan 0 { s0.chan 0 with restart := some {} }), .a, 0, {}, by decide +kernel⟩,
   ⟨(let s0 := (let s0 := State.reset; s0.setDie (dieNo (.a : Die)) { s0.die (dieNo (.a : Die)) with dump := false }); s0.setChan 0 { s0.chan 0 with restart := some { waited := 8 } }), .a, 0, { waited := 8 }, by decide +kernel⟩,
   ⟨(let s0 := (State.reset).setBit (Reg.BLK_CTRL 36) 0 true; ((s0.setChan 3 { s0.chan 3 with on := true }).setDie 0 { s0.die 0 with hold := false }).setBit (Reg.PWC_CHCFG 0 3) 4 true), .a, 255, 3, by decide +kernel⟩,
   ⟨(((State.reset).setBit (Reg.BLK_CTRL 36) 0 true)), .a, 0, by decide +kernel⟩,
   ⟨((((let s0 := State.reset; s0.setDie (dieNo (.a : Die)) { s0.die (dieNo (.a : Die)) with shedAt := some (0 : Nat) })).setBit (Reg.BLK_CTRL 36) 0 true)), .a, 0, by decide +kernel⟩,
   ⟨(let s0 := (let s0 := (let s0 := (let s0 := State.reset; s0.setChan (0 : Out).val { s0.chan (0 : Out).val with on := true }); s0.setChan (0 : Out).val { s0.chan (0 : Out).val with pwm := true }); s0.setChan (0 : Out).val { s0.chan (0 : Out).val with level := false }); s0.setChan 0 { s0.chan 0 with hold := true }), 0, by decide +kernel⟩,
   ⟨(let s0 := (let s0 := State.reset; s0.setChan (0 : Out).val { s0.chan (0 : Out).val with on := true }); s0.setChan (0 : Out).val { s0.chan (0 : Out).val with pwm := true }), 0, by decide +kernel⟩,
   ⟨(let s0 := (let s0 := State.reset; s0.setDie ((0 : Out).val / 24) { s0.die ((0 : Out).val / 24) with hold := false }); s0.setChan 0 { s0.chan 0 with on := true, pwm := true, level := true, fallAt := 1000 }), 0, by decide +kernel⟩⟩

/-- States and operands that meet the hypotheses of the clauses of PortAndMdioCommandsComplete. -/
theorem witness_PortAndMdioCommandsComplete :
    (∃ (i : Instr) (s : State) (m : Master) (phyad : BitVec 5) (reg : BitVec 5) (c45 : Bool) (data : BitVec 16) (op : Nat), (i = .mdioAddress m phyad reg c45 data ∧ op = 0 ∨ i = .mdioWrite m phyad reg c45 data ∧ op = 1 ∨ i = .mdioReadIncrement m phyad reg c45 data ∧ op = 2 ∨ i = .mdioRead m phyad reg c45 data ∧ op = 3) ∧ s.admits m Reg.PRT_MDIOCMD) ∧
    (∃ (s : State), s.bit Reg.PRT_MDIOCMD 30 = true) ∧
    (∃ (s : State) (m : Master) (p : Port), s.admits m (prtPenKey p.val) ∧ s.pen p.val = false ∧ s.blkEn (prtBlk p.val) = false) ∧
    (∃ (s : State) (m : Master) (p : ExtPort), s.admits m (prtPenKey p.val) ∧ s.pen p.val = false ∧ s.blkEn (prtBlk p.val) = true ∧ s.hasPort p.val = true ∧ s.flt.safeStop = false ∧ modeLegal p.val (s.fld (Reg.PRT_PMODE p.val) 0 4) = true ∧ fecLegal p.val (s.fld (Reg.PRT_PMODE p.val) 0 4) (s.fld (Reg.PRT_PMODE p.val) 4 2) = true) ∧
    (∃ (s : State) (m : Master) (p : ExtPort), s.admits m (prtPenKey p.val) ∧ s.pen p.val = false ∧ s.blkEn (prtBlk p.val) = true ∧ s.hasPort p.val = true ∧ s.flt.safeStop = false ∧ modeLegal p.val (s.fld (Reg.PRT_PMODE p.val) 0 4) = false) ∧
    (∃ (s : State) (m : Master) (p : Port), s.admits m (prtPenKey p.val) ∧ s.pen p.val = true ∧ (∀ f ∈ s.openRx p.val, ∀ v, s.frame f = some v → v.interrupted = false)) ∧
    (∃ (s : State) (m : Master) (p : Port) (f : Nat) (v : Frame), s.admits m (prtPenKey p.val) ∧ s.pen p.val = true ∧ s.openRx p.val = [f] ∧ s.frame f = some v ∧ v.interrupted = true) ∧
    (∃ (s : State) (p : Port), (s.port p.val).draining = true ∧ (s.stagingEmpty p.val = true ∨ s.portUp p.val = false) ∧ s.fab.closed = false) ∧
    (∃ (s : State) (p : ExtPort) (rate : Fin 8) (speed : Nat), s.hasPort p.val = true ∧ s.lstate p.val = 1 ∧ s.phySeen p.val = true ∧ s.linkSpeed p.val rate.val = some speed) ∧
    (∃ (s : State) (p : ExtPort), s.retraining p.val = true) ∧
    (∃ (s : State) (p : ExtPort), s.portUp p.val = true ∧ s.phySeen p.val = true ∧ s.fab.closed = false ∧ s.openRx p.val = []) ∧
    (∃ (s : State) (p : ExtPort), s.lstate p.val = 1 ∧ s.fld (Reg.PRT_PMODE p.val) 0 4 = 8 ∧ (s.port p.val).triedAt + 200000000 ≤ s.nowNs) ∧
    (∃ (s : State) (p : ExtPort), s.nowNs < (s.port p.val).triedAt + 200000000) ∧
    (∃ (p : ExtPort), 12 ≤ p.val) ∧
    (∃ (s : State) (p : ExtPort), s.portUp p.val = true ∧ s.fld (Reg.PRT_PSTAT p.val) 9 2 = 1) :=
  ⟨⟨.mdioAddress ⟨0x20, true⟩ 3 4 false 5, State.reset, ⟨0x20, true⟩, 3, 4, false, 5, 0, by decide +kernel⟩,
   ⟨(State.setBit State.reset Reg.PRT_MDIOCMD 30 true), by decide +kernel⟩,
   ⟨(State.setBit State.reset (Reg.BLK_CTRL (prtBlk (0 : Port).val)) 0 false), ⟨0x20, true⟩, 0, by decide +kernel⟩,
   ⟨(let s0 := (State.setBit State.reset (Reg.BLK_CTRL (prtBlk (0 : ExtPort).val)) 0 true); ({ s0 with flt := { s0.flt with safeStop := false } } : State)), ⟨0x20, true⟩, 0, by decide +kernel⟩,
   ⟨(State.setFld (let s0 := (State.setBit State.reset (Reg.BLK_CTRL (prtBlk (0 : ExtPort).val)) 0 true); ({ s0 with flt := { s0.flt with safeStop := false } } : State)) (Reg.PRT_PMODE 0) 0 4 9), ⟨0x20, true⟩, 0, by decide +kernel⟩,
   ⟨(State.setBit State.reset (prtPenKey (0 : Port).val) (prtPenBit (0 : Port).val) true), ⟨0x20, true⟩, 0, by decide +kernel⟩,
   ⟨(State.setFrame (State.setBit State.reset (prtPenKey (0 : Port).val) (prtPenBit (0 : Port).val) true) (0 : Nat) (({ ({} : Frame) with interrupted := true }) : Frame)), ⟨0x20, true⟩, 0, 0, ({ ({} : Frame) with interrupted := true }), by decide +kernel⟩,
   ⟨(let s0 := (let s0 := State.reset; s0.setPort (0 : Port).val { s0.port (0 : Port).val with draining := true }); ({ s0 with fab := { s0.fab with closed := false } } : State)), 0, by decide +kernel⟩,
   ⟨(State.setFld (State.setFld State.reset (Reg.PRT_PSTAT (0 : ExtPort).val) 0 2 1) (Reg.PRT_PMODE 0) 0 4 1), 0, 6, 7, by decide +kernel⟩,
   ⟨{ State.reset with traverse := { State.reset.traverse with state := .recovering } }, 12, by decide +kernel⟩,
   ⟨(let s0 := (State.setFld State.reset (Reg.PRT_PSTAT (0 : ExtPort).val) 0 2 2); ({ s0 with fab := { s0.fab with closed := false } } : State)), 0, by decide +kernel⟩,
   ⟨({ (State.setFld (State.setFld State.reset (Reg.PRT_PSTAT (0 : ExtPort).val) 0 2 1) (Reg.PRT_PMODE (0 : ExtPort).val) 0 4 8) with nowNs := 100000000000000 } : State), 0, by decide +kernel⟩,
   ⟨State.reset, 0, by decide +kernel⟩,
   ⟨12, by decide +kernel⟩,
   ⟨(State.setFld (State.setFld State.reset (Reg.PRT_PSTAT (0 : ExtPort).val) 0 2 2) (Reg.PRT_PSTAT (0 : ExtPort).val) 9 2 1), 0, by decide +kernel⟩⟩

/-- States and operands that meet the hypotheses of the clauses of PortFrameCommandsComplete. -/
theorem witness_PortFrameCommandsComplete :
    (∃ (s : State) (p : ExtPort), s.plcaFollower p.val = true ∧ s.bit (Reg.PRT_PSTAT p.val) 12 = false) ∧
    (∃ (s : State) (p : ExtPort), 28 ≤ p.val ∧ (s.tmPort p.val).express.isSome = true ∧ (s.port p.val).attempts < 15) ∧
    (∃ (s : State) (p : ExtPort), 28 ≤ p.val ∧ (s.tmPort p.val).express.isSome = true ∧ (s.port p.val).attempts = 15) ∧
    (∃ (s : State) (m : Master) (p : ExtPort), s.admits m (Reg.PRT_TC10 p.val)) ∧
    (∃ (s : State) (p : ExtPort), s.tc10 p.val = true ∧ s.portUp p.val = true ∧ s.egressEmpty p.val = true ∧ (s.port p.val).sleepAsked = true ∧ s.fab.closed = false) ∧
    (∃ (s : State) (p : ExtPort), s.tc10 p.val = true ∧ s.lstate p.val = 3) ∧
    (∃ (s : State) (p : Port), p.val ≠ 36 ∧ s.receives p.val = true ∧ s.wayOpen p.val = true ∧ s.openRx p.val = []) ∧
    (∃ (s : State) (p : Port), s.receives p.val = true ∧ s.retraining p.val = true ∧ s.openRx p.val = []) ∧
    (∃ (s : State) (p : Port) (f : Nat) (v : Frame), p.val ≠ 36 ∧ s.receives p.val = true ∧ s.wayOpen p.val = true ∧ s.openRx p.val = [f] ∧ s.frame f = some v ∧ f ≠ s.nextFrame) ∧
    (∃ (s : State) (p : Port), p.val = 36 ∨ s.receives p.val = false ∨ s.wayOpen p.val = false ∧ s.retraining p.val = false) ∧
    (∃ (s : State) (f : FrameId) (v : Frame) (rest : List Byte), s.frame f = some v ∧ v.tailIn = false ∧ s.retraining v.inPort = false ∧ v.stage = .receiving ∧ v.inPort < 32 ∧ isMacCtrl (v.bytes ++ rest) = false ∧ s.rxVerdict v.inPort ((v.bytes ++ rest).length + 4) .none = none) ∧
    (∃ (s : State) (p : ExtPort), s.receives p.val = true ∧ s.phySeen p.val = true ∧ s.fcMode p.val = 2) ∧
    (∃ (s : State) (p : ExtPort), s.receives p.val = true ∧ s.fcMode p.val ≠ 2) ∧
    (∃ (s : State) (p : ExtPort), s.receives p.val = true ∧ s.fcMode p.val = 1 ∧ s.phySeen p.val = true) ∧
    (∃ (s : State) (p : ExtPort) (c : TrafficClass), s.portUp p.val = true ∧ s.fcMode p.val = 2 ∧ s.xoff p.val c.val = true) ∧
    (∃ (s : State) (p : ExtPort) (c : TrafficClass), s.portUp p.val = true ∧ s.fcMode p.val = 2 ∧ s.xoff p.val c.val = false) ∧
    (∃ (s : State) (f : FrameId) (v : Frame), s.frame f = some v ∧ v.check = none) ∧
    (∃ (s : State) (f : FrameId) (v : Frame) (k : RxCheck), s.frame f = some v ∧ v.check = some k ∧ v.stage = .receiving ∧ v.tailIn = true ∧ s.heldUpAt f v [.retrain, .receiving] false = false ∧ (isEapol v.bytes && k.eapolClear) = false ∧ parseSecTag v.bytes = some none) ∧
    (∃ (s : State) (f : FrameId) (v : Frame) (k : RxCheck), s.frame f = some v ∧ v.check = some k ∧ v.stage = .receiving ∧ v.tailIn = true ∧ s.heldUpAt f v [.retrain, .receiving] false = false ∧ parseSecTag v.bytes = none ∧ isEapol v.bytes = false ∧ s.blkAccepts 0x0C = true) :=
  ⟨⟨(State.setBit (State.setFld (State.setBit (State.setFld State.reset (Reg.PRT_PSTAT (28 : ExtPort).val) 0 2 2) (Reg.PRT_PLCA (28 : ExtPort).val) 0 true) (Reg.PRT_PLCA (28 : ExtPort).val) 8 8 1) (Reg.PRT_PSTAT (28 : ExtPort).val) 12 false), 28, by decide +kernel⟩,
   ⟨(let s0 := State.reset; s0.setTmPort (28 : ExtPort).val { s0.tmPort (28 : ExtPort).val with express := some { frame := 0, cls := 0, start := 0 } }), 28, by decide +kernel⟩,
   ⟨(let s0 := (let s0 := State.reset; s0.setTmPort (28 : ExtPort).val { s0.tmPort (28 : ExtPort).val with express := some { frame := 0, cls := 0, start := 0 } }); s0.setPort (28 : ExtPort).val { s0.port (28 : ExtPort).val with attempts := 15 }), 28, by decide +kernel⟩,
   ⟨State.reset, ⟨0x20, true⟩, 0, by decide +kernel⟩,
   ⟨(let s0 := (let s0 := (State.setFld (State.setBit State.reset (Reg.PRT_TC10 (12 : ExtPort).val) 0 true) (Reg.PRT_PSTAT (12 : ExtPort).val) 0 2 2); s0.setPort (12 : ExtPort).val { s0.port (12 : ExtPort).val with sleepAsked := true }); ({ s0 with fab := { s0.fab with closed := false } } : State)), 12, by decide +kernel⟩,
   ⟨(State.setFld (State.setBit State.reset (Reg.PRT_TC10 (12 : ExtPort).val) 0 true) (Reg.PRT_PSTAT (12 : ExtPort).val) 0 2 3), 12, by decide +kernel⟩,
   ⟨(State.setBit (State.setFld State.reset (Reg.PRT_PSTAT (0 : Port).val) 0 2 2) (Reg.BLK_CTRL (prtBlk (0 : Port).val)) 0 true), 0, by decide +kernel⟩,
   ⟨(let s0 := (State.setBit (State.setFld State.reset (Reg.PRT_PSTAT (12 : Port).val) 0 2 2) (Reg.BLK_CTRL (prtBlk (12 : Port).val)) 0 true); { s0 with traverse := { s0.traverse with state := .recovering } }), 12, by decide +kernel⟩,
   ⟨(let s0 := (State.setFrame (State.setBit (State.setFld State.reset (Reg.PRT_PSTAT (0 : Port).val) 0 2 2) (Reg.BLK_CTRL (prtBlk (0 : Port).val)) 0 true) (0 : Nat) ({} : Frame)); { s0 with nextFrame := 1 }), 0, 0, {}, by decide +kernel⟩,
   ⟨State.reset, 0, by decide +kernel⟩,
   ⟨(State.setFrame State.reset (0 : FrameId) (({ (({ ({} : Frame) with tailIn := false }) : Frame) with stage := .receiving }) : Frame)), 0, ({ (({ ({} : Frame) with tailIn := false }) : Frame) with stage := .receiving }), List.replicate 60 0, by decide +kernel⟩,
   ⟨(State.setFld (State.setBit (State.setFld State.reset (Reg.PRT_PSTAT (0 : ExtPort).val) 0 2 2) (Reg.BLK_CTRL (prtBlk (0 : ExtPort).val)) 0 true) (Reg.PRT_PCTRL (0 : ExtPort).val) 0 2 2), 0, by decide +kernel⟩,
   ⟨(State.setBit (State.setFld State.reset (Reg.PRT_PSTAT (0 : ExtPort).val) 0 2 2) (Reg.BLK_CTRL (prtBlk (0 : ExtPort).val)) 0 true), 0, by decide +kernel⟩,
   ⟨(State.setFld (State.setBit (State.setFld State.reset (Reg.PRT_PSTAT (0 : ExtPort).val) 0 2 2) (Reg.BLK_CTRL (prtBlk (0 : ExtPort).val)) 0 true) (Reg.PRT_PCTRL (0 : ExtPort).val) 0 2 1), 0, by decide +kernel⟩,
   ⟨(State.setBit (State.setFld (State.setFld State.reset (Reg.PRT_PSTAT (0 : ExtPort).val) 0 2 2) (Reg.PRT_PCTRL (0 : ExtPort).val) 0 2 2) (Reg.FAB_BUFSTAT_w0 (0 : ExtPort).val (0 : TrafficClass).val) 16 true), 0, 0, by decide +kernel⟩,
   ⟨(State.setBit (State.setFld (State.setFld State.reset (Reg.PRT_PSTAT (0 : ExtPort).val) 0 2 2) (Reg.PRT_PCTRL (0 : ExtPort).val) 0 2 2) (Reg.FAB_BUFSTAT_w0 (0 : ExtPort).val (0 : TrafficClass).val) 16 false), 0, 0, by decide +kernel⟩,
   ⟨(State.setFrame State.reset (0 : FrameId) (({ ({} : Frame) with check := none }) : Frame)), 0, ({ ({} : Frame) with check := none }), by decide +kernel⟩,
   ⟨(State.reset.setFrame 0 { tailIn := true, stage := .receiving, check := some ⟨false, false, []⟩, bytes := List.replicate 12 0 ++ [0x88, 0xE5, 0x80, 0] ++ List.replicate 40 0 }), 0, { tailIn := true, stage := .receiving, check := some ⟨false, false, []⟩, bytes := List.replicate 12 0 ++ [0x88, 0xE5, 0x80, 0] ++ List.replicate 40 0 }, ⟨false, false, []⟩, by decide +kernel⟩,
   ⟨(State.setBit (State.setFrame State.reset (0 : FrameId) ({ tailIn := true, stage := .receiving, check := some ⟨false, false, []⟩ } : Frame)) (Reg.BLK_CTRL 0x0C) 0 true), 0, { tailIn := true, stage := .receiving, check := some ⟨false, false, []⟩ }, ⟨false, false, []⟩, by decide +kernel⟩⟩

/-- States and operands that meet the hypotheses of the clauses of FabricFrameCommandsComplete. -/
theorem witness_FabricFrameCommandsComplete :
    (∃ (s : State) (f : FrameId) (v : Frame), s.frame f = some v ∧ v.stage = .toEnqueue ∧ v.checkTail = false ∧ s.up .fabric = true ∧ s.heldUpAt f v [.toStream, .toEnqueue] true = false ∧ s.fabricOpen = false ∧ v.inPort < 32 ∧ v.exc = none ∧ v.trapped = false ∧ v.rcPass = false ∧ v.recirc = false ∧ v.cells = [] ∧ v.tailIn = true) ∧
    (∃ (s : State) (f : FrameId) (v : Frame), s.frame f = some v ∧ v.stage = .toEnqueue ∧ s.up .fabric = true ∧ s.heldUpAt f v [.toStream, .toEnqueue] true = false ∧ v.latched = none ∧ v.checkTail = false ∧ s.fabricOpen = true ∧ v.exc = none ∧ v.mc = false ∧ v.tailIn = true ∧ v.dest ≠ 32 ∧ s.portUp v.dest = true ∧ s.egressLen v v.dest ≤ s.maxFrm v.dest ∧ s.bit Reg.FAB_SCHUSS 0 = false) ∧
    (∃ (s : State) (f : FrameId), s.frame f = none) ∧
    (∃ (s : State) (f : FrameId) (v : Frame), s.frame f = some v ∧ v.stage = .queued ∧ v.nextCell = true ∧ s.fabricRuns = true ∧ v.trapped = false ∧ v.mc = false ∧ v.fanout = [v.dest] ∧ v.stomps = [] ∧ s.scheduled v.tc = true ∧ s.reservedUsed v.dest v.tc < s.egLim v.dest v.tc) ∧
    (∃ (s : State) (f : FrameId) (v : Frame) (p : Nat), s.frame f = some v ∧ v.stage = .queued ∧ s.fabricRuns = true ∧ v.trapped = false ∧ v.nextCell = true ∧ v.fanout = [p] ∧ v.stomps = [] ∧ v.cells = [] ∧ v.headLeft = [] ∧ v.stamped = false ∧ v.tailIn = true ∧ s.scheduled v.tc = true ∧ s.egLim p v.tc ≤ s.reservedUsed p v.tc) ∧
    (∃ (s : State) (f : FrameId) (v : Frame) (i : Nat) (r : CellRec), s.frame f = some v ∧ v.cells[i]? = some r ∧ r.freed = false ∧ (s.cellGone f i v r = true ∨ v.stage = .dropped)) ∧
    (∃ (s : State) (f : FrameId) (v : Frame) (i : Nat) (r : CellRec), s.frame f = some v ∧ v.cells[i]? = some r ∧ s.cellGone f i v r = false ∧ v.stage ≠ .dropped) ∧
    (∃ (s : State) (f : FrameId) (v : Frame) (i : Nat) (r : CellRec), s.frame f = some v ∧ v.cells[i]? = some r ∧ r.freed = true) ∧
    (∃ (s : State) (p : Port), s.portUp p.val = true) ∧
    (∃ (s : State) (p : Port), s.nowNs < (s.port p.val).downAt + 1000000 * s.fld Reg.FAB_LDHOLD 0 10) ∧
    (∃ (s : State) (p : Port), s.portUp p.val = false ∧ s.queuedFor p.val = [] ∧ (s.port p.val).downAt + 1000000 * s.fld Reg.FAB_LDHOLD 0 10 ≤ s.nowNs) :=
  ⟨⟨(State.setFrame State.reset (0 : FrameId) (({ (({ (({ (({ (({ (({ (({ (({ ({} : Frame) with stage := .toEnqueue }) : Frame) with checkTail := false }) : Frame) with exc := none }) : Frame) with trapped := false }) : Frame) with rcPass := false }) : Frame) with recirc := false }) : Frame) with cells := [] }) : Frame) with tailIn := true }) : Frame)), 0, ({ (({ (({ (({ (({ (({ (({ (({ ({} : Frame) with stage := .toEnqueue }) : Frame) with checkTail := false }) : Frame) with exc := none }) : Frame) with trapped := false }) : Frame) with rcPass := false }) : Frame) with recirc := false }) : Frame) with cells := [] }) : Frame) with tailIn := true }), by decide +kernel⟩,
   ⟨(State.setBit (State.setFld (State.setBit (State.setBit (State.setFrame State.reset (0 : FrameId) (({ (({ (({ (({ (({ (({ ({} : Frame) with stage := .toEnqueue }) : Frame) with latched := none }) : Frame) with checkTail := false }) : Frame) with exc := none }) : Frame) with mc := false }) : Frame) with tailIn := true }) : Frame)) (Reg.BLK_CTRL 8) 0 true) (Reg.BLK_CTRL 9) 0 true) (Reg.PRT_PSTAT (({ (({ (({ (({ (({ (({ ({} : Frame) with stage := .toEnqueue }) : Frame) with latched := none }) : Frame) with checkTail := false }) : Frame) with exc := none }) : Frame) with mc := false }) : Frame) with tailIn := true }) : Frame).dest) 0 2 2) Reg.FAB_SCHUSS 0 false), 0, ({ (({ (({ (({ (({ (({ ({} : Frame) with stage := .toEnqueue }) : Frame) with latched := none }) : Frame) with checkTail := false }) : Frame) with exc := none }) : Frame) with mc := false }) : Frame) with tailIn := true }), by decide +kernel⟩,
   ⟨(State.delFrame State.reset (0 : FrameId)), 0, by decide +kernel⟩,
   ⟨(((((State.reset.setFrame 0 { stage := .queued, bytes := List.replicate 100 0, storedLen := 104, tailIn := true, mc := false, dest := 1, tc := 2, fanout := [1], stomps := [] }).setBit Reg.FAB_SCHEDMASK 2 true).setFld (bufcfg2 1 2) 0 16 4).setBit (Reg.BLK_CTRL 8) 0 true).setBit (Reg.BLK_CTRL 9) 0 true), 0, { stage := .queued, bytes := List.replicate 100 0, storedLen := 104, tailIn := true, mc := false, dest := 1, tc := 2, fanout := [1], stomps := [] }, by decide +kernel⟩,
   ⟨(((((State.reset.setFrame 0 { stage := .queued, bytes := List.replicate 100 0, storedLen := 104, tailIn := true, mc := false, dest := 1, tc := 2, fanout := [1], stomps := [] }).setBit Reg.FAB_SCHEDMASK 2 true).setFld (bufcfg2 1 2) 0 16 0).setBit (Reg.BLK_CTRL 8) 0 true).setBit (Reg.BLK_CTRL 9) 0 true), 0, { stage := .queued, bytes := List.replicate 100 0, storedLen := 104, tailIn := true, mc := false, dest := 1, tc := 2, fanout := [1], stomps := [] }, 1, by decide +kernel⟩,
   ⟨State.reset.setFrame 0 { stage := .queued, cells := [{ place := .shared, ports := [0], copies := [] }] }, 0, { stage := .queued, cells := [{ place := .shared, ports := [0], copies := [] }] }, 0, { place := .shared, ports := [0], copies := [] }, by decide +kernel⟩,
   ⟨(State.setFrame State.reset (0 : FrameId) ({ cells := [{ place := .shared, ports := [0], copies := [0] }] } : Frame)), 0, { cells := [{ place := .shared, ports := [0], copies := [0] }] }, 0, { place := .shared, ports := [0], copies := [0] }, by decide +kernel⟩,
   ⟨State.reset.setFrame 0 { cells := [{ place := .shared, ports := [0], copies := [], freed := true }] }, 0, { cells := [{ place := .shared, ports := [0], copies := [], freed := true }] }, 0, { place := .shared, ports := [0], copies := [], freed := true }, by decide +kernel⟩,
   ⟨(State.setFld State.reset (Reg.PRT_PSTAT (0 : Port).val) 0 2 2), 0, by decide +kernel⟩,
   ⟨State.reset, 0, by decide +kernel⟩,
   ⟨({ State.reset with nowNs := 100000000000000 } : State), 0, by decide +kernel⟩⟩

/-- States and operands that meet the hypotheses of the clauses of FabricSchedulerAndDriftCommandsComplete. -/
theorem witness_FabricSchedulerAndDriftCommandsComplete :
    (∃ (s : State), s.fabricRuns = false) ∧
    (∃ (s : State), s.fabricRuns = true ∧ s.fab.swapAsked = false ∧ s.bit Reg.FAB_SCHED 1 = true) ∧
    (∃ (s : State), s.fabricRuns = true ∧ s.fab.swapAsked = false ∧ s.bit Reg.FAB_SCHED 1 = false) ∧
    (∃ (s : State) (m : Master), s.admits m Reg.FAB_SCHED) ∧
    (∃ (s : State) (g : Fin 7) (p : Port) (c : TrafficClass), firstOf .tail (s.voq (voqKey g.val p.val c.val)).cells = none) ∧
    (∃ (s : State) (g : Fin 7) (p : Port) (c : TrafficClass) (q : QCell) (f : Frame) (r : CellRec), firstOf .tail (s.voq (voqKey g.val p.val c.val)).cells = some q ∧ s.frame q.frame = some f ∧ f.cells[q.idx]? = some r ∧ s.driftRoom p.val = false ∧ s.maySpill c.val = true) ∧
    (∃ (s : State) (g : Fin 7) (p : Port) (c : TrafficClass) (q : QCell) (f : Frame) (r : CellRec), firstOf .tail (s.voq (voqKey g.val p.val c.val)).cells = some q ∧ s.frame q.frame = some f ∧ f.cells[q.idx]? = some r ∧ s.driftRoom p.val = true ∧ s.maySpill c.val = true) ∧
    (∃ (s : State) (g : Fin 7) (p : Port) (c : TrafficClass) (q : QCell) (f : Frame) (r : CellRec), firstOf .middle (s.voq (voqKey g.val p.val c.val)).cells = some q ∧ s.frame q.frame = some f ∧ f.cells[q.idx]? = some r ∧ s.returnDue (voqKey g.val p.val c.val) (s.voq (voqKey g.val p.val c.val)) = true ∧ s.capRoom 1 = true ∧ s.dramRoom = true) ∧
    (∃ (s : State) (p : Port) (c : TrafficClass), s.egResume p.val c.val ≤ s.egCells p.val c.val) ∧
    (∃ (s : State), s.bit Reg.FAB_DRIFTSTAT 25 = true ∧ s.driftCells = 0) :=
  ⟨⟨State.reset, by decide +kernel⟩,
   ⟨((((State.setBit (let s0 := State.reset; ({ s0 with fab := { s0.fab with swapAsked := false } } : State)) Reg.FAB_SCHED 1 true)).setBit (Reg.BLK_CTRL 8) 0 true).setBit (Reg.BLK_CTRL 9) 0 true), by decide +kernel⟩,
   ⟨((((State.setBit (let s0 := State.reset; ({ s0 with fab := { s0.fab with swapAsked := false } } : State)) Reg.FAB_SCHED 1 false)).setBit (Reg.BLK_CTRL 8) 0 true).setBit (Reg.BLK_CTRL 9) 0 true), by decide +kernel⟩,
   ⟨State.reset, ⟨0x20, true⟩, by decide +kernel⟩,
   ⟨State.reset, 0, 0, 0, by decide +kernel⟩,
   ⟨(voqState .tail { stage := .queued, cells := [{ place := .shared, ports := [0], copies := [] }] }).setFld Reg.FAB_DRIFTCAP 0 6 0, 0, 0, 0, { frame := 0, idx := 0, seg := .tail }, { stage := .queued, cells := [{ place := .shared, ports := [0], copies := [] }] }, { place := .shared, ports := [0], copies := [] }, by decide +kernel⟩,
   ⟨(let s := (((voqState .tail { stage := .queued, cells := [{ place := .shared, ports := [0], copies := [] }] }).setFld Reg.FAB_DRIFTSIZE 0 10 1).setFld (Reg.FAB_DRIFTLIM 0) 0 22 5).setBit Reg.FAB_DRIFTCLS 0 true; { s with fab := { s.fab with driftOk := true } }), 0, 0, 0, { frame := 0, idx := 0, seg := .tail }, { stage := .queued, cells := [{ place := .shared, ports := [0], copies := [] }] }, { place := .shared, ports := [0], copies := [] }, by decide +kernel⟩,
   ⟨(((voqState .middle { stage := .queued, cells := [{ place := .shared, ports := [0], copies := [] }] }).setFld (bufcfg2 0 0) 16 16 9).setFld Reg.FAB_POOL 0 16 100), 0, 0, 0, { frame := 0, idx := 0, seg := .middle }, { stage := .queued, cells := [{ place := .shared, ports := [0], copies := [] }] }, { place := .shared, ports := [0], copies := [] }, by decide +kernel⟩,
   ⟨(State.setFld State.reset (bufcfg2 0 0) 16 16 0), 0, 0, by decide +kernel⟩,
   ⟨(State.setBit State.reset Reg.FAB_DRIFTSTAT 25 true), by decide +kernel⟩⟩

/-- States and operands that meet the hypotheses of the clauses of SchedulerMatchingIsAMatching. -/
theorem witness_SchedulerMatchingIsAMatching :
    ∃ (s : State) (a : _) (e : _), a ∈ s.matching.accepted ∧ e ∈ a.2 :=
  ⟨(let s := (voqState .head { stage := .queued, tailIn := true, cells := [{ place := .shared, ports := [0], copies := [] }] }); s.setFld (Reg.PRT_PSTAT 0) 0 2 2), ((((let s := (voqState .head { stage := .queued, tailIn := true, cells := [{ place := .shared, ports := [0], copies := [] }] }); s.setFld (Reg.PRT_PSTAT 0) 0 2 2) : State).matching.accepted).headD (⟨false, 0, 0, 0, [], 0⟩, [0])), ((((((let s := (voqState .head { stage := .queued, tailIn := true, cells := [{ place := .shared, ports := [0], copies := [] }] }); s.setFld (Reg.PRT_PSTAT 0) 0 2 2) : State).matching.accepted).headD (⟨false, 0, 0, 0, [], 0⟩, [0]))).2.headD 0), by decide +kernel⟩

/-- States and operands that meet the hypotheses of the clauses of ClassifyFrameCommandsComplete. -/
theorem witness_ClassifyFrameCommandsComplete :
    (∃ (s : State) (f : FrameId) (v : Frame) (r : Parsed), s.frame f = some v ∧ v.stage = .toClassify ∧ v.tailIn = true ∧ v.rcPass = false ∧ s.blkEn 0x0C = true ∧ s.up .classify = true ∧ s.heldUpAt f v [.retrain, .receiving, .toClassify] false = false ∧ s.parse s.curGen ⟨v.bytes, s.freeCtr⟩ true (s.bit Reg.CLS_EXCFG 9) (s.fld (Reg.CLS_PORTCFG v.inPort) 0 6) = r ∧ r.exc = 0 ∧ r.l3 = none) ∧
    (∃ (s : State) (f : FrameId) (v : Frame), s.frame f = some v ∧ v.stage = .toClassify ∧ v.tailIn = true ∧ v.rcPass = false ∧ v.inPort < 32 ∧ s.blkEn 0x0C = false ∧ s.up .classify = true ∧ s.heldUpAt f v [.retrain, .receiving, .toClassify] false = false) ∧
    (∃ (s : State) (f : FrameId) (v : Frame), s.frame f = some v ∧ v.stage = .toEnqueue ∧ v.checkTail = true ∧ v.tailIn = true ∧ v.exc = none ∧ v.l3Len ≤ v.bytes.length) ∧
    (∃ (s : State) (f : FrameId) (v : Frame), s.frame f = some v ∧ v.stage = .toEnqueue ∧ v.checkTail = true ∧ v.tailIn = true ∧ v.exc = none ∧ v.bytes.length < v.l3Len ∧ (s.malAction 1 = 1 ∨ s.malAction 1 = 2)) :=
  ⟨⟨(State.setBit (State.setFrame State.reset (0 : FrameId) (({ (({ (({ ({} : Frame) with stage := .toClassify }) : Frame) with tailIn := true }) : Frame) with rcPass := false }) : Frame)) (Reg.BLK_CTRL 0x0C) 0 true), 0, ({ (({ (({ ({} : Frame) with stage := .toClassify }) : Frame) with tailIn := true }) : Frame) with rcPass := false }), (((State.setBit (State.setFrame State.reset (0 : FrameId) (({ (({ (({ ({} : Frame) with stage := .toClassify }) : Frame) with tailIn := true }) : Frame) with rcPass := false }) : Frame)) (Reg.BLK_CTRL 0x0C) 0 true) : State).parse ((State.setBit (State.setFrame State.reset (0 : FrameId) (({ (({ (({ ({} : Frame) with stage := .toClassify }) : Frame) with tailIn := true }) : Frame) with rcPass := false }) : Frame)) (Reg.BLK_CTRL 0x0C) 0 true) : State).curGen ⟨(({ (({ (({ ({} : Frame) with stage := .toClassify }) : Frame) with tailIn := true }) : Frame) with rcPass := false }) : Frame).bytes, ((State.setBit (State.setFrame State.reset (0 : FrameId) (({ (({ (({ ({} : Frame) with stage := .toClassify }) : Frame) with tailIn := true }) : Frame) with rcPass := false }) : Frame)) (Reg.BLK_CTRL 0x0C) 0 true) : State).freeCtr⟩ true (((State.setBit (State.setFrame State.reset (0 : FrameId) (({ (({ (({ ({} : Frame) with stage := .toClassify }) : Frame) with tailIn := true }) : Frame) with rcPass := false }) : Frame)) (Reg.BLK_CTRL 0x0C) 0 true) : State).bit Reg.CLS_EXCFG 9) (((State.setBit (State.setFrame State.reset (0 : FrameId) (({ (({ (({ ({} : Frame) with stage := .toClassify }) : Frame) with tailIn := true }) : Frame) with rcPass := false }) : Frame)) (Reg.BLK_CTRL 0x0C) 0 true) : State).fld (Reg.CLS_PORTCFG (({ (({ (({ ({} : Frame) with stage := .toClassify }) : Frame) with tailIn := true }) : Frame) with rcPass := false }) : Frame).inPort) 0 6)), by decide +kernel⟩,
   ⟨(State.setBit (State.setFrame State.reset (0 : FrameId) (({ (({ (({ ({} : Frame) with stage := .toClassify }) : Frame) with tailIn := true }) : Frame) with rcPass := false }) : Frame)) (Reg.BLK_CTRL 0x0C) 0 false), 0, ({ (({ (({ ({} : Frame) with stage := .toClassify }) : Frame) with tailIn := true }) : Frame) with rcPass := false }), by decide +kernel⟩,
   ⟨(State.setFrame State.reset (0 : FrameId) (({ (({ (({ (({ ({} : Frame) with stage := .toEnqueue }) : Frame) with checkTail := true }) : Frame) with tailIn := true }) : Frame) with exc := none }) : Frame)), 0, ({ (({ (({ (({ ({} : Frame) with stage := .toEnqueue }) : Frame) with checkTail := true }) : Frame) with tailIn := true }) : Frame) with exc := none }), by decide +kernel⟩,
   ⟨((State.reset.setFrame 0 { stage := .toEnqueue, checkTail := true, tailIn := true, exc := none, l3Len := 5 }).setFld Reg.CLS_EXCFG 0 2 1), 0, { stage := .toEnqueue, checkTail := true, tailIn := true, exc := none, l3Len := 5 }, by decide +kernel⟩⟩

/-- States and operands that meet the hypotheses of the clauses of FlowCommandsComplete. -/
theorem witness_FlowCommandsComplete :
    (∃ (i : Instr) (s : State) (m : Master) (slot : BitVec 18) (op : Nat), (i = .flowcmdLookup m slot ∧ op = 1 ∨ i = .flowcmdInsert m slot ∧ op = 2 ∨ i = .flowcmdDeleteKey m slot ∧ op = 3 ∨ i = .flowcmdReadSlot m slot ∧ op = 4 ∨ i = .flowcmdDeleteSlot m slot ∧ op = 5 ∨ i = .flowcmdFlush m slot ∧ op = 6) ∧ s.admits m Reg.CLS_FLOWCMD) ∧
    (∃ (s : State) (slot : Nat) (d : List Word) (rest : List FlowOp), s.cls.queue = .command 5 slot d :: rest ∧ slot < flowSlots ∧ s.up .classify = true) ∧
    (∃ (s : State) (slot : Nat) (d : List Word) (rest : List FlowOp), s.cls.queue = .command 4 slot d :: rest ∧ slot < flowSlots ∧ s.flowValid slot = true ∧ s.up .classify = true ∧ (s.flowEntry slot).length = 16) ∧
    (∃ (s : State) (key : List Word) (d : List Word) (slot : Nat) (rest : List FlowOp), s.cls.queue = .command 1 slot d :: rest ∧ s.up .classify = true ∧ flowKeyOf d = key ∧ s.flowFind key = none) ∧
    (∃ (s : State) (slot : Nat) (d : List Word) (rest : List FlowOp), s.cls.queue = .command 6 slot d :: rest ∧ s.up .classify = true) ∧
    (∃ (s : State) (slot : Fin 163840), s.up .classify = true ∧ s.fld Reg.CLS_AGECFG 0 6 ≠ 0 ∧ s.flowValid slot.val = true ∧ getBit ((s.flowEntry slot.val).getD 0 0) 26 = false ∧ s.bit Reg.CLS_AGECFG 8 = false ∧ 1000 * s.flowTimeout (getBits ((s.flowEntry slot.val).getD 0 0) 21 3) < (2 ^ 32 + s.classifyMs - ((s.flowEntry slot.val).getD 11 0).toNat) % 2 ^ 32) ∧
    (∃ (s : State) (slot : Fin 163840), getBit ((s.flowEntry slot.val).getD 0 0) 26 = true) ∧
    (∃ (s : State) (g : Gen), s.genState g.val = 2 ∧ s.inFlight g.val ≠ 0 ∧ s.retireDue g.val = true) ∧
    (∃ (s : State) (g : Gen), s.retireDue g.val = false) ∧
    (∃ (s : State) (g : Gen), s.genState g.val = 3) :=
  ⟨⟨.flowcmdLookup ⟨0x20, true⟩ 5, State.reset, ⟨0x20, true⟩, 5, 1, by decide +kernel⟩,
   ⟨(let s0 := State.reset; ({ s0 with cls := { s0.cls with queue := .command 5 (0 : Nat) ([] : List Word) :: ([] : List FlowOp) } } : State)), 0, [], [], by decide +kernel⟩,
   ⟨(State.setFlow (let s0 := State.reset; ({ s0 with cls := { s0.cls with queue := .command 4 (9 : Nat) ([] : List Word) :: ([] : List FlowOp) } } : State)) 9 [0x40005, 1, 2, 3, 4, 5, 6, 7, 8, 9, 0, 0, 0, 0, 0, 0]), 9, [], [], by decide +kernel⟩,
   ⟨(let s0 := State.reset; ({ s0 with cls := { s0.cls with queue := .command 1 (0 : Nat) ([] : List Word) :: ([] : List FlowOp) } } : State)), flowKeyOf [], [], 0, [], by decide +kernel⟩,
   ⟨(let s0 := State.reset; ({ s0 with cls := { s0.cls with queue := .command 6 (0 : Nat) ([] : List Word) :: ([] : List FlowOp) } } : State)), 0, [], [], by decide +kernel⟩,
   ⟨(let s := (State.setFlow (State.setBit (State.setFld State.reset Reg.CLS_AGECFG 0 6 1) Reg.CLS_AGECFG 8 false) 9 [0x40005, 1, 2, 3, 4, 5, 6, 7, 8, 9, 0, 0, 0, 0, 0, 0]); { s with nowNs := 100000000000000 }), 9, by decide +kernel⟩,
   ⟨(State.setFlow State.reset 9 [0x4040005]), 9, by decide +kernel⟩,
   ⟨({ (State.setFld (State.setFld State.reset Reg.CLS_GENSTAT (2 + 2 * (0 : Gen).val) 2 2) (Reg.CLS_GENINFL 0) 0 24 1) with nowNs := 100000000000000 } : State), 0, by decide +kernel⟩,
   ⟨State.reset, 0, by decide +kernel⟩,
   ⟨(State.setFld State.reset Reg.CLS_GENSTAT (2 + 2 * (0 : Gen).val) 2 3), 0, by decide +kernel⟩⟩

/-- States and operands that meet the hypotheses of the clauses of FlowCandidateSlots. -/
theorem witness_FlowCandidateSlots :
    ∃ (s : State) (key : List Word) (c : Nat), s.flowFind key = some c :=
  ⟨State.reset.setFlow (flowSlot (State.reset.hashOf [5, 1, 2, 3, 4, 5, 6, 7, 8, 9]) 1) [0x40005, 1, 2, 3, 4, 5, 6, 7, 8, 9], [5, 1, 2, 3, 4, 5, 6, 7, 8, 9], (flowSlot (State.reset.hashOf [5, 1, 2, 3, 4, 5, 6, 7, 8, 9]) 1), by decide +kernel⟩

/-- States and operands that meet the hypotheses of the clauses of TcamGivesTheLowestMatch. -/
theorem witness_TcamGivesTheLowestMatch :
    (∃ (s : State) (g : Nat) (p : Nat) (key : List Byte) (e : _) (x : _), s.canonical = true ∧ s.blkEn 0xD = true ∧ s.cls.badParity = [] ∧ g < 4 ∧ (let wide := getBit (s.rdLive g (Reg.CLS_PROFILE_w0 p)) 8; key.length = (if wide = true then 80 else 40) ∧ s.tcamLookup g p key = some e ∧ x < e)) ∧
    (∃ (s : State) (g : Nat) (p : Nat) (key : List Byte) (e : _), s.canonical = true ∧ s.blkEn 0xD = true ∧ s.cls.badParity = [] ∧ g < 4 ∧ (let wide := getBit (s.rdLive g (Reg.CLS_PROFILE_w0 p)) 8; key.length = (if wide = true then 80 else 40) ∧ s.tcamLookup g p key = none ∧ e < 4096)) :=
  ⟨⟨((((State.reset.setBit (Reg.BLK_CTRL 0xD) 0 true).wrLive 0 (Reg.CLS_PROFILE_w0 3) 1).wrLive liveBank (Reg.CLS_TCAM_w20 7) 1)), 0, 3, List.replicate 40 0, 7, 3, by decide +kernel⟩,
   ⟨(State.reset.setBit (Reg.BLK_CTRL 0xD) 0 true), 0, 3, List.replicate 40 0, 7, by decide +kernel⟩⟩

/-- States and operands that meet the hypotheses of the clauses of RitikRegisterInstructionsComplete. -/
theorem witness_RitikRegisterInstructionsComplete :
    (∃ (s : State) (t : ThreadId), s.canIssue t.val allProfiles ∧ profileOf t.val ≠ .w) ∧
    (∃ (s : State) (t : ThreadId) (g : _) (v : _), s.canIssue t.val allProfiles ∧ profileOf t.val = .p ∧ (s.thread t.val).frame = some g ∧ s.frame g = some v) ∧
    (∃ (s : State) (t : ThreadId) (sel : Fin 16), s.canIssue t.val allProfiles ∧ profileOf t.val ≠ .p ∧ sel.val ∈ [3, 4, 5]) :=
  ⟨⟨(readyAt State.reset (0 : ThreadId).val), 0, by decide +kernel⟩,
   ⟨(thr 0 { frame := some 0 }).setFrame 0 {}, 0, 0, ({} : Frame), by decide +kernel⟩,
   ⟨thr 200 {}, 200, 3, by decide +kernel⟩⟩

/-- States and operands that meet the hypotheses of the clauses of RitikImmediateInstructionsComplete. -/
theorem witness_RitikImmediateInstructionsComplete :
    ∃ (s : State) (t : ThreadId), s.canIssue t.val allProfiles :=
  ⟨(readyAt State.reset (0 : ThreadId).val), 0, by decide +kernel⟩

/-- States and operands that meet the hypotheses of the clauses of RitikBranchesComplete. -/
theorem witness_RitikBranchesComplete :
    (∃ (n : Nat) (c : _), n < 16 ∧ [Cond.eq, .ne, .hs, .lo, .mi, .pl, .vs, .vc, .hi, .ls, .ge, .lt, .gt, .le, .al][n]? = some c) ∧
    (∃ (n : Nat), n < 16 ∧ n = 15) ∧
    (∃ (s : State) (t : ThreadId) (c : Cond), s.canIssue t.val allProfiles ∧ (let f := s.fl t; condHolds c f = true)) ∧
    (∃ (s : State) (t : ThreadId) (c : Cond), s.canIssue t.val allProfiles ∧ (let f := s.fl t; condHolds c f = false)) ∧
    (∃ (s : State) (u : State) (t : ThreadId) (ra : Gpr) (rb : Gpr), s.canIssue t.val allProfiles ∧ exec (.cmp t ra rb) s = .next u) :=
  ⟨⟨0, .eq, by decide +kernel⟩,
   ⟨15, by decide +kernel⟩,
   ⟨(readyAt State.reset (0 : ThreadId).val), 0, .al, by decide +kernel⟩,
   ⟨(readyAt State.reset (0 : ThreadId).val), 0, .eq, by decide +kernel⟩,
   ⟨thr 0 {}, (nextOf (execCmp (0 : ThreadId) (0 : Gpr) (0 : Gpr) (thr 0 {} : State))), 0, 0, 0, by decide +kernel, rfl⟩⟩

/-- States and operands that meet the hypotheses of the clauses of RitikMemoryInstructionsComplete. -/
theorem witness_RitikMemoryInstructionsComplete :
    (∃ (s : State) (t : ThreadId) (ra : Gpr) (sz : MemSize) (off : BitVec 12), let n := memBytes sz; let ea := (s.gr t ra).toNat + off.toNat; s.canIssue t.val allProfiles ∧ ea % n = 0 ∧ ea + n ≤ dmemSize (profileOf t.val) ∧ s.cellBad (dCell t.val (ea / 4)) = false) ∧
    (∃ (s : State) (t : ThreadId) (ra : Gpr) (sz : MemSize) (off : BitVec 12), let n := memBytes sz; let ea := (s.gr t ra).toNat + off.toNat; s.canIssue t.val [.p] ∧ ea + n ≤ 256 ∧ sz = .byte) ∧
    (∃ (s : State) (t : ThreadId) (ra : Gpr) (sz : MemSize) (off : BitVec 12), let n := memBytes sz; let ea := (s.gr t ra).toNat + off.toNat; s.canIssue t.val [.p] ∧ ea + n ≤ 256 ∧ sz = .half) ∧
    (∃ (s : State) (t : ThreadId) (ra : Gpr) (sz : MemSize) (off : BitVec 12), let n := memBytes sz; let ea := (s.gr t ra).toNat + off.toNat; s.canIssue t.val [.p] ∧ ea + n ≤ 256 ∧ sz = .word) ∧
    (∃ (s : State) (t : ThreadId) (ra : Gpr) (sz : MemSize) (off : BitVec 12), let ea := (s.gr t ra).toNat + off.toNat; let th := s.thread t.val; s.canIssue t.val [.p] ∧ ea % 4 = 0 ∧ ea + 4 ≤ 256 ∧ sz = .word ∧ th.reserved (ea / 4) = false) ∧
    (∃ (s : State) (t : ThreadId) (ra : Gpr) (sz : MemSize) (off : BitVec 12), let n := memBytes sz; let ea := (s.gr t ra).toNat + off.toNat; let inD := s.canIssue t.val allProfiles ∧ ea % n = 0 ∧ ea + n ≤ dmemSize (profileOf t.val); let good := s.cellBad (dCell t.val (ea / 4)) = false; inD ∧ n = 4 ∨ good) ∧
    (∃ (s : State) (t : ThreadId) (ra : Gpr) (sz : MemSize) (off : BitVec 12), let n := memBytes sz; let ea := (s.gr t ra).toNat + off.toNat; let th := s.thread t.val; s.canIssue t.val [.p] ∧ ea + n ≤ 256 ∧ ea + n ≤ th.h.length) ∧
    (∃ (s : State) (t : ThreadId) (ra : Gpr) (sz : MemSize) (off : BitVec 12), let n := memBytes sz; let ea := (s.gr t ra).toNat + off.toNat; let inD := s.canIssue t.val allProfiles ∧ ea % n = 0 ∧ ea + n ≤ dmemSize (profileOf t.val); let good := s.cellBad (dCell t.val (ea / 4)) = false; inD ∧ good ∧ profileOf t.val ≠ .w ∧ sz = .word) :=
  ⟨⟨(readyAt State.reset (0 : ThreadId).val), 0, 0, .word, 0, by decide +kernel⟩,
   ⟨(readyAt State.reset (0 : ThreadId).val), 0, 0, .byte, 0, by decide +kernel⟩,
   ⟨(readyAt State.reset (0 : ThreadId).val), 0, 0, .half, 0, by decide +kernel⟩,
   ⟨(readyAt State.reset (0 : ThreadId).val), 0, 0, .word, 0, by decide +kernel⟩,
   ⟨(readyAt State.reset (0 : ThreadId).val), 0, 0, .word, 0, by decide +kernel⟩,
   ⟨thr 0 {}, 0, 0, .word, 0, by decide +kernel⟩,
   ⟨thr 0 { h := [1, 2, 3, 4] }, 0, 0, .word, 0, by decide +kernel⟩,
   ⟨thr 0 {}, 0, 0, .word, 0, by decide +kernel⟩⟩

/-- States and operands that meet the hypotheses of the clauses of RitikTrapsComplete. -/
theorem witness_RitikTrapsComplete :
    (∃ (s : State) (t : ThreadId), s.canIssue t.val [.c]) ∧
    (∃ (s : State), s.canIssue 200 [.w] ∧ s.coreHeld = false) ∧
    (∃ (s : State) (t : ThreadId), s.mayIssue t.val ∧ profileOf t.val = .p ∧ 32768 ≤ (s.thread t.val).pc.toNat) ∧
    (∃ (s : State) (t : ThreadId), (s.thread t.val).pc.toNat < pmemSize (profileOf t.val)) ∧
    (∃ (s : State) (t : ThreadId) (ra : Gpr) (sz : MemSize) (off : BitVec 12), s.canIssue t.val [.p] ∧ (let n := memBytes sz; let ea := (s.gr t ra).toNat + off.toNat; ea % n ≠ 0)) ∧
    (∃ (s : State) (t : ThreadId) (ra : Gpr) (off : BitVec 12), s.canIssue t.val [.p] ∧ (let ea := (s.gr t ra).toNat + off.toNat; ea % 4 ≠ 0)) ∧
    (∃ (s : State) (t : ThreadId) (ra : Gpr) (sz : MemSize) (off : BitVec 12), s.canIssue t.val [.p] ∧ (let n := memBytes sz; let ea := (s.gr t ra).toNat + off.toNat; ea % n = 0 ∧ 262144 < ea + n)) ∧
    (∃ (s : State) (t : ThreadId) (ra : Gpr) (off : BitVec 12), s.canIssue t.val [.p] ∧ (let ea := (s.gr t ra).toNat + off.toNat; ea % 4 = 0 ∧ 262144 < ea + 4)) :=
  ⟨⟨(readyAt State.reset (192 : ThreadId).val), 192, by decide +kernel⟩,
   ⟨(let s0 := (readyAt State.reset 200); ({ s0 with coreHeld := false } : State)), by decide +kernel⟩,
   ⟨thr 0 { pc := 32768 }, 0, by decide +kernel⟩,
   ⟨State.reset, 0, by decide +kernel⟩,
   ⟨thr 0 {}, 0, 0, .word, 1, by decide +kernel⟩,
   ⟨thr 0 {}, 0, 0, 1, by decide +kernel⟩,
   ⟨thr 0 { regs := [(1, 262144)] }, 0, 1, .word, 0, by decide +kernel⟩,
   ⟨thr 0 { regs := [(1, 262144)] }, 0, 1, 0, by decide +kernel⟩⟩

/-- States and operands that meet the hypotheses of the clauses of RitikThreadAndRequestInstructionsComplete. -/
theorem witness_RitikThreadAndRequestInstructionsComplete :
    (∃ (s : State) (t : ThreadId), s.canIssue t.val allProfiles ∧ profileOf t.val ≠ .w) ∧
    (∃ (s : State) (t : ThreadId), s.canIssue t.val allProfiles ∧ profileOf t.val = .w) ∧
    (∃ (s : State) (t : ThreadId) (dom : Fin 4), s.canIssue t.val allProfiles ∧ profileOf t.val ≠ .w ∨ dom = 0) ∧
    (∃ (s : State) (t : ThreadId), s.canIssue t.val allProfiles ∧ profileOf t.val ≠ .p) ∧
    (∃ (s : State) (t : ThreadId), s.canIssue t.val allProfiles ∧ s.debugOpen t.val = true) ∧
    (∃ (s : State) (t : ThreadId), s.canIssue t.val allProfiles ∧ s.debugOpen t.val = false) ∧
    (∃ (s : State) (t : ThreadId) (ra : Gpr) (tbl : Fin 32) (m : Fin 64), s.canIssue t.val [.p] ∧ (let th := s.thread t.val; let gen := s.threadGen th; let free := fun n => ∀ i < n, m.val + i < 64 → th.reserved (m.val + i) = false; th.reqs.length < 2 ∧ s.tableType gen tbl.val ≠ 0 ∧ (s.gr t ra).toNat + s.keyLen gen tbl.val ≤ 256 ∧ free 4)) ∧
    (∃ (s : State) (t : ThreadId) (tbl : Fin 32), s.canIssue t.val [.p] ∧ (let th := s.thread t.val; let gen := s.threadGen th; th.reqs = [] ∧ s.tableType gen tbl.val = 0)) ∧
    (∃ (s : State) (t : ThreadId), s.canIssue t.val [.p] ∧ (let th := s.thread t.val; 2 ≤ th.reqs.length)) ∧
    (∃ (s : State) (t : ThreadId) (ra : Gpr) (m : Fin 64), s.canIssue t.val [.p] ∧ (let th := s.thread t.val; let free := fun n => ∀ i < n, m.val + i < 64 → th.reserved (m.val + i) = false; th.reqs.length < 2 ∧ free 1 ∧ (s.gr t ra).toNat < 1024 ∧ 64 ≤ s.metersQueued)) ∧
    (∃ (s : State) (t : ThreadId) (ra : Gpr) (m : Fin 64), s.canIssue t.val [.p] ∧ (let th := s.thread t.val; let free := fun n => ∀ i < n, m.val + i < 64 → th.reserved (m.val + i) = false; th.reqs.length < 2 ∧ free 1 ∧ (s.gr t ra).toNat < 1024 ∧ s.metersQueued < 64)) :=
  ⟨⟨(readyAt State.reset (0 : ThreadId).val), 0, by decide +kernel⟩,
   ⟨thr 200 {}, 200, by decide +kernel⟩,
   ⟨(readyAt State.reset (0 : ThreadId).val), 0, 0, by decide +kernel⟩,
   ⟨thr 200 {}, 200, by decide +kernel⟩,
   ⟨{ thr 0 {} with debugScope := 8 }, 0, by decide +kernel⟩,
   ⟨(readyAt State.reset (0 : ThreadId).val), 0, by decide +kernel⟩,
   ⟨(readyAt State.reset (0 : ThreadId).val), 0, 0, 0, 0, by decide +kernel⟩,
   ⟨thr 0 {}, 0, 8, by decide +kernel⟩,
   ⟨thr 0 { reqs := [{}, {}] }, 0, by decide +kernel⟩,
   ⟨((List.range 32).foldl (fun acc i => acc.setThread (10 + i) { reqs := [{ meter := true }, { meter := true }] }) (readyAt State.reset (0 : ThreadId).val)), 0, 0, 0, by decide +kernel⟩,
   ⟨(readyAt State.reset (0 : ThreadId).val), 0, 0, 0, by decide +kernel⟩⟩

/-- States and operands that meet the hypotheses of the clauses of RitikFrameInstructionsComplete. -/
theorem witness_RitikFrameInstructionsComplete :
    (∃ (s : State) (t : ThreadId) (ra : Gpr) (rb : Gpr), s.canIssue t.val [.p] ∧ (let th := s.thread t.val; let a := (s.gr t ra).toNat; let b := (s.gr t rb).toNat; a ≤ th.h.length ∧ th.h.length + b ≤ 256)) ∧
    (∃ (s : State) (t : ThreadId) (ra : Gpr) (rb : Gpr), s.canIssue t.val [.p] ∧ (let th := s.thread t.val; let a := (s.gr t ra).toNat; let b := (s.gr t rb).toNat; a + b ≤ th.h.length)) ∧
    (∃ (s : State) (t : ThreadId) (ra : Gpr) (rb : Gpr), s.canIssue t.val [.p] ∧ (let th := s.thread t.val; let a := (s.gr t ra).toNat; let b := (s.gr t rb).toNat; 256 < th.h.length + b ∨ th.h.length < a)) ∧
    (∃ (s : State) (t : ThreadId) (ra : Gpr) (rb : Gpr), s.canIssue t.val [.p] ∧ (let a := (s.gr t ra).toNat; let b := (s.gr t rb).toNat; b = 0 ∨ a + b ≤ 256)) ∧
    (∃ (s : State) (t : ThreadId) (ra : Gpr), s.canIssue t.val [.p] ∧ (let a := (s.gr t ra).toNat; a < 1024)) ∧
    (∃ (s : State) (t : ThreadId) (fmt : Fin 4) (f : Nat) (v : Frame), s.canIssue t.val [.p] ∧ (s.thread t.val).frame = some f ∧ s.frame f = some v ∧ fmt.val ≠ 3) ∧
    (∃ (s : State) (t : ThreadId) (ra : Gpr) (f : Nat) (v : Frame), s.canIssue t.val [.p] ∧ (s.thread t.val).frame = some f ∧ s.frame f = some v ∧ (s.gr t ra).toNat < 1024 ∧ s.hasCip = true) ∧
    (∃ (s : State) (t : ThreadId) (f : Nat) (v : Frame), s.canIssue t.val [.p] ∧ (s.thread t.val).frame = some f ∧ s.frame f = some v ∧ s.cls.queue.length < 1024) ∧
    (∃ (s : State) (t : ThreadId) (f : Nat) (v : Frame), s.canIssue t.val [.p] ∧ (s.thread t.val).frame = some f ∧ s.frame f = some v ∧ (let th := s.thread t.val; th.reqs = [] ∧ (getBit (th.mword 46) 12 = true ∨ getBits (th.mword 46) 0 12 ≤ 35) ∧ 32 ≤ s.atStep6)) ∧
    (∃ (s : State) (t : ThreadId) (f : Nat) (v : Frame), s.canIssue t.val [.p] ∧ (s.thread t.val).frame = some f ∧ s.frame f = some v ∧ (let th := s.thread t.val; th.reqs = [] ∧ (getBit (th.mword 46) 12 = true ∨ getBits (th.mword 46) 0 12 ≤ 35) ∧ s.atStep6 < 32)) ∧
    (∃ (s : State) (t : ThreadId) (f : Nat) (v : Frame), s.canIssue t.val [.p] ∧ (s.thread t.val).frame = some f ∧ s.frame f = some v ∧ (let th := s.thread t.val; th.reqs = [] ∧ v.tailIn = true ∧ v.cells = [])) ∧
    (∃ (s : State) (t : ThreadId) (why : BitVec 8) (f : Nat) (v : Frame), s.canIssue t.val [.p] ∧ (s.thread t.val).frame = some f ∧ s.frame f = some v ∧ (let th := s.thread t.val; th.reqs = [] ∧ 0x80 ≤ why.toNat)) ∧
    (∃ (s : State) (t : ThreadId) (f : Nat) (v : Frame), s.canIssue t.val [.p] ∧ (s.thread t.val).frame = some f ∧ s.frame f = some v ∧ (let th := s.thread t.val; th.reqs = [] ∧ v.rcCount < s.rcMax)) ∧
    (∃ (s : State) (t : ThreadId) (f : Nat) (v : Frame), s.canIssue t.val [.p] ∧ (s.thread t.val).frame = some f ∧ s.frame f = some v ∧ (let th := s.thread t.val; th.reqs = [] ∧ s.rcMax ≤ v.rcCount)) ∧
    (∃ (s : State) (t : ThreadId) (f : Nat) (v : Frame), s.canIssue t.val [.p] ∧ (s.thread t.val).frame = some f ∧ s.frame f = some v ∧ (let th := s.thread t.val; th.reqs ≠ [])) :=
  ⟨⟨(readyAt State.reset (0 : ThreadId).val), 0, 0, 0, by decide +kernel⟩,
   ⟨(readyAt State.reset (0 : ThreadId).val), 0, 0, 0, by decide +kernel⟩,
   ⟨thr 0 { regs := [(1, 1)] }, 0, 1, 0, by decide +kernel⟩,
   ⟨(readyAt State.reset (0 : ThreadId).val), 0, 0, 0, by decide +kernel⟩,
   ⟨(readyAt State.reset (0 : ThreadId).val), 0, 0, by decide +kernel⟩,
   ⟨(State.setFrame (let s0 := (readyAt State.reset (0 : ThreadId).val); s0.setThread (0 : ThreadId).val { s0.thread (0 : ThreadId).val with frame := some (0 : Nat) }) (0 : Nat) ({} : Frame)), 0, 0, 0, {}, by decide +kernel⟩,
   ⟨(State.setFrame (let s0 := (readyAt State.reset (0 : ThreadId).val); s0.setThread (0 : ThreadId).val { s0.thread (0 : ThreadId).val with frame := some (0 : Nat) }) (0 : Nat) ({} : Frame)), 0, 0, 0, {}, by decide +kernel⟩,
   ⟨(State.setFrame (let s0 := (readyAt State.reset (0 : ThreadId).val); s0.setThread (0 : ThreadId).val { s0.thread (0 : ThreadId).val with frame := some (0 : Nat) }) (0 : Nat) ({} : Frame)), 0, 0, {}, by decide +kernel⟩,
   ⟨((List.range 32).foldl (fun acc i => acc.setFrame (10 + i) { stage := .toStream }) (State.setFrame (let s0 := (readyAt State.reset (0 : ThreadId).val); s0.setThread (0 : ThreadId).val { s0.thread (0 : ThreadId).val with frame := some (0 : Nat) }) (0 : Nat) ({} : Frame))), 0, 0, {}, by decide +kernel⟩,
   ⟨(State.setFrame (let s0 := (readyAt State.reset (0 : ThreadId).val); s0.setThread (0 : ThreadId).val { s0.thread (0 : ThreadId).val with frame := some (0 : Nat) }) (0 : Nat) ({} : Frame)), 0, 0, {}, by decide +kernel⟩,
   ⟨(State.setFrame (let s0 := (readyAt State.reset (0 : ThreadId).val); s0.setThread (0 : ThreadId).val { s0.thread (0 : ThreadId).val with frame := some (0 : Nat) }) (0 : Nat) (({ (({ ({} : Frame) with tailIn := true }) : Frame) with cells := [] }) : Frame)), 0, 0, ({ (({ ({} : Frame) with tailIn := true }) : Frame) with cells := [] }), by decide +kernel⟩,
   ⟨(State.setFrame (let s0 := (readyAt State.reset (0 : ThreadId).val); s0.setThread (0 : ThreadId).val { s0.thread (0 : ThreadId).val with frame := some (0 : Nat) }) (0 : Nat) ({} : Frame)), 0, 0x80, 0, {}, by decide +kernel⟩,
   ⟨(State.setFrame (let s0 := (readyAt State.reset (0 : ThreadId).val); s0.setThread (0 : ThreadId).val { s0.thread (0 : ThreadId).val with frame := some (0 : Nat) }) (0 : Nat) ({} : Frame)), 0, 0, {}, by decide +kernel⟩,
   ⟨(thr 0 { frame := some 0 }).setFrame 0 { rcCount := 7 }, 0, 0, { rcCount := 7 }, by decide +kernel⟩,
   ⟨(thr 0 { frame := some 0, reqs := [{}] }).setFrame 0 {}, 0, 0, {}, by decide +kernel⟩⟩

/-- States and operands that meet the hypotheses of the clauses of RitikPowerInstructionsComplete. -/
theorem witness_RitikPowerInstructionsComplete :
    (∃ (s : State) (t : ThreadId) (ra : Gpr), s.canIssue t.val [.c] ∧ (s.gr t ra).toNat < 24) ∧
    (∃ (s : State) (t : ThreadId), let th := s.thread t.val; s.canIssue t.val [.c] ∧ th.tickPassed = false) ∧
    (∃ (s : State) (t : ThreadId), let th := s.thread t.val; s.canIssue t.val [.c] ∧ th.tickPassed = true) ∧
    (∃ (s : State) (t : ThreadId) (ra : Gpr) (before : List WakeEvent) (after : List WakeEvent) (e : WakeEvent), s.canIssue t.val [.w] ∧ s.wak.taken = none ∧ s.wak.events = before ++ e :: after ∧ (∀ x ∈ before, getBit (s.gr t ra) x.code = false) ∧ getBit (s.gr t ra) e.code = true) ∧
    (∃ (s : State) (t : ThreadId) (ra : Gpr), s.canIssue t.val [.w] ∧ s.wak.taken = none ∧ (∀ x ∈ s.wak.events, getBit (s.gr t ra) x.code = false)) ∧
    (∃ (s : State) (t : ThreadId) (r : Nat), r < 64 ∧ s.canIssue t.val [.w] ∧ s.wak.taken = some r) ∧
    (∃ (s : State) (t : ThreadId) (ra : Gpr), s.canIssue t.val [.c] ∧ (let d := seqOf t.val; let c := (s.gr t ra).toNat; c < 24 ∧ (s.die d).queue.length < 16)) ∧
    (∃ (s : State) (t : ThreadId) (ra : Gpr), s.canIssue t.val [.c] ∧ (let d := seqOf t.val; let c := (s.gr t ra).toNat; c = 255 ∧ (s.die d).queue.length < 16)) ∧
    (∃ (s : State) (t : ThreadId) (ra : Gpr), s.canIssue t.val [.c] ∧ (let d := seqOf t.val; let c := (s.gr t ra).toNat; c < 24 ∧ 16 ≤ (s.die d).queue.length)) ∧
    (∃ (s : State) (t : ThreadId) (ra : Gpr), s.canIssue t.val [.c] ∧ (let c := (s.gr t ra).toNat; 24 ≤ c ∧ c ≠ 255)) :=
  ⟨⟨(readyAt State.reset (192 : ThreadId).val), 192, 0, by decide +kernel⟩,
   ⟨(readyAt State.reset (192 : ThreadId).val), 192, by decide +kernel⟩,
   ⟨thr 192 { tickPassed := true, ticked := true }, 192, by decide +kernel⟩,
   ⟨(let s := thr 200 { regs := [(1, 2)] }; { s with wak := { s.wak with events := [{ code := 1 }] } }), 200, 1, [], [], { code := 1 }, by decide +kernel⟩,
   ⟨(let s0 := (readyAt State.reset (200 : ThreadId).val); ({ s0 with wak := { s0.wak with taken := none } } : State)), 200, 0, by decide +kernel⟩,
   ⟨(let s0 := (readyAt State.reset (200 : ThreadId).val); ({ s0 with wak := { s0.wak with taken := some (0 : Nat) } } : State)), 200, 0, by decide +kernel⟩,
   ⟨(readyAt State.reset (192 : ThreadId).val), 192, 0, by decide +kernel⟩,
   ⟨thr 192 { regs := [(1, 255)] }, 192, 1, by decide +kernel⟩,
   ⟨((thr 192 {}).setDie 0 { State.reset.die 0 with queue := List.replicate 16 ⟨1, 0, 0, 0⟩ }), 192, 0, by decide +kernel⟩,
   ⟨thr 192 { regs := [(1, 24)] }, 192, 1, by decide +kernel⟩⟩

/-- States and operands that meet the hypotheses of the clauses of EngineAndLoaderCommandsComplete. -/
theorem witness_EngineAndLoaderCommandsComplete :
    (∃ (s : State) (f : FrameId) (v : Frame), s.frame f = some v ∧ v.stage = .toDispatch ∧ s.blkAccepts 0x10 = true ∧ s.up .classify = true ∧ s.heldUpAt f v [.toDispatch] false = false ∧ (∀ x, s.laneStall (laneOf v) = some x → x = f) ∧ (let t := v.hash.toNat / 65536 * 192 / 65536; s.clusterUp t = true ∧ (s.dispatchQueue t).length < 16)) ∧
    (∃ (s : State) (f : FrameId) (v : Frame), s.frame f = some v ∧ v.stage = .toDispatch ∧ s.blkAccepts 0x10 = true ∧ s.up .classify = true ∧ s.heldUpAt f v [.toDispatch] false = false ∧ (∀ x, s.laneStall (laneOf v) = some x → x = f) ∧ (let t := v.hash.toNat / 65536 * 192 / 65536; s.clusterUp t = true ∧ 16 ≤ (s.dispatchQueue t).length)) ∧
    (∃ (s : State) (f : FrameId) (v : Frame), s.frame f = some v ∧ v.stage = .toDispatch ∧ s.blkAccepts 0x10 = true ∧ s.up .classify = true ∧ s.heldUpAt f v [.toDispatch] false = false ∧ (∀ x, s.laneStall (laneOf v) = some x → x = f) ∧ (let t := v.hash.toNat / 65536 * 192 / 65536; s.clusterUp t = false)) ∧
    (∃ (s : State) (t : ThreadId) (f : Nat) (rest : List Nat) (v : Frame), t.val < 192 ∧ (s.thread t.val).status = .idle ∧ s.blkAccepts 0x10 = true ∧ s.up .ritik = true ∧ s.dispatchQueue t.val = f :: rest ∧ s.frame f = some v ∧ v.orphan = false ∧ s.clusterUp t.val = true ∧ v.action < 16384 ∧ s.recordGood v.action = true ∧ (let w0 := s.rdLive liveBank (Reg.RTK_ACTION_w0 v.action); v.tailIn = false ∧ v.bytes.length < headerLoad w0)) ∧
    (∃ (s : State) (t : ThreadId) (f : Nat) (rest : List Nat) (v : Frame), t.val < 192 ∧ (s.thread t.val).status = .idle ∧ s.blkAccepts 0x10 = true ∧ s.up .ritik = true ∧ s.dispatchQueue t.val = f :: rest ∧ s.frame f = some v ∧ v.orphan = false ∧ s.clusterUp t.val = true ∧ v.action < 16384 ∧ s.recordGood v.action = true ∧ (let w0 := s.rdLive liveBank (Reg.RTK_ACTION_w0 v.action); (v.tailIn = true ∨ headerLoad w0 ≤ v.bytes.length) ∧ s.cellBad (.live liveBank (Reg.RTK_ENTRY (getBits w0 0 12))) = false)) ∧
    (∃ (s : State) (t : ThreadId) (f : Nat) (rest : List Nat) (v : Frame), t.val < 192 ∧ (s.thread t.val).status = .idle ∧ s.blkAccepts 0x10 = true ∧ s.up .ritik = true ∧ s.dispatchQueue t.val = f :: rest ∧ s.frame f = some v ∧ v.orphan = false ∧ s.clusterUp t.val = true ∧ 16384 ≤ v.action ∨ s.recordGood v.action = false) ∧
    (∃ (s : State) (t : ThreadId) (i : Fin 2) (r : Request), (s.thread t.val).reqs[i.val]? = some r ∧ r.meter = false ∧ r.held = [] ∧ r.denied = false ∧ s.banksGone (s.thread t.val) = false ∧ s.tableType (s.threadGen (s.thread t.val)) r.table = 1 ∧ s.descBad (s.threadGen (s.thread t.val)) r.table = false ∧ (let gen := s.threadGen (s.thread t.val); let k := natLE r.key; let a := s.tableBase gen r.table + 32 * k; k < s.fldLive gen (Reg.RTK_TBLDESC_w3 r.table) 0 24 ∧ s.memCheckRange engineMaster a 32 .read = none ∧ s.badMem a 32 = none ∧ (s.rdByte (a + 16)).getLsbD 0 = true ∧ r.m + 4 ≤ 64)) ∧
    (∃ (s : State) (t : ThreadId) (i : Fin 2) (r : Request), (s.thread t.val).reqs[i.val]? = some r ∧ r.meter = false ∧ r.denied = true ∧ 8 ≤ r.table ∧ r.held = [] ∧ r.m < 64) ∧
    (∃ (s : State) (t : ThreadId) (i : Fin 2) (r : Request), (s.thread t.val).reqs[i.val]? = some r ∧ r.meter = true ∧ r.m < 64) ∧
    (∃ (s : State) (t : ThreadId) (w : Waiting), t.val < 192 ∧ ((s.thread t.val).status = .ready ∨ (s.thread t.val).status = .waiting w) ∧ 6 * (s.nowNs - (s.thread t.val).startedAt) < 80 * max 1 (s.fld Reg.RTK_BUDGET 0 16)) ∧
    (∃ (s : State) (t : ThreadId) (w : Waiting), t.val < 192 ∧ ((s.thread t.val).status = .ready ∨ (s.thread t.val).status = .waiting w) ∧ 80 * max 1 (s.fld Reg.RTK_BUDGET 0 16) ≤ 6 * (s.nowNs - (s.thread t.val).startedAt)) ∧
    (∃ (s : State) (t : ThreadId), (s.thread t.val).status = .halted) ∧
    (∃ (s : State) (m : Master), s.admits m Reg.RTK_LOADCTL ∧ s.bit Reg.RTK_LOADSTAT 0 = false) ∧
    (∃ (s : State) (m : Master), s.admits m (Reg.PWC_LOADCTL 0) ∧ s.bit (Reg.PWC_LOADSTAT 0) 0 = false ∧ s.blkEn 0x24 = false) ∧
    (∃ (s : State) (m : Master), s.admits m (Reg.PWC_LOADCTL 1) ∧ s.bit (Reg.PWC_LOADSTAT 1) 0 = false ∧ s.blkEn 0x25 = false) ∧
    (∃ (s : State) (m : Master), s.edgeBehind 0x26 = false ∧ s.admits m Reg.WAK_LOADCTL ∧ s.bit Reg.WAK_LOADSTAT 0 = false ∧ s.blkEn 0x26 = false) ∧
    (∃ (s : State) (l : Loader) (c : Nat), (s.load_ l).busy = true ∧ s.readImage l (s.load_ l) = .error (c, 0, 0)) ∧
    (∃ (s : State) (l : Loader) (c : Nat) (a : Nat) (n : Nat), (s.load_ l).busy = true ∧ n ≠ 0 ∧ s.readImage l (s.load_ l) = .error (c, a, n)) ∧
    (∃ (s : State) (l : Loader) (g : Image), l ≠ .rtk ∧ (s.load_ l).busy = true ∧ s.readImage l (s.load_ l) = .ok g ∧ g.textBase + (wordsLE g.text).length ≤ pmemSize (loadProfile l)) ∧
    (∃ (s : State) (g : Image), (s.load_ .rtk).busy = true ∧ s.readImage .rtk (s.load_ .rtk) = .ok g ∧ s.tablePending 0x10 3 = false ∧ g.textBase + (wordsLE g.text).length ≤ 32768) ∧
    (∃ (s : State) (g : Image), (s.load_ .rtk).busy = true ∧ s.readImage .rtk (s.load_ .rtk) = .ok g ∧ s.tablePending 0x10 3 = true) ∧
    (∃ (k : Nat), k / 0x100000 = 0x23) ∧
    (∃ (k : Nat), 0x10 ≤ k / 0x100000 ∧ k / 0x100000 ≤ 0x13) :=
  ⟨⟨((((State.reset.setFrame 0 { stage := .toDispatch }).setBit (Reg.BLK_CTRL 0x10) 0 true).setBit (Reg.BLK_CTRL 0x11) 0 true)), 0, { stage := .toDispatch }, by decide +kernel⟩,
   ⟨(let s := ((((State.reset.setFrame 0 { stage := .toDispatch }).setBit (Reg.BLK_CTRL 0x10) 0 true).setBit (Reg.BLK_CTRL 0x11) 0 true)); { s with rtk := { s.rtk with queues := Store.set (fun _ => []) s.rtk.queues 0 [1, 2, 3, 4, 5, 6, 7, 8, 9, 10, 11, 12, 13, 14, 15, 16] } }), 0, { stage := .toDispatch }, by decide +kernel⟩,
   ⟨(State.setBit (State.setFrame State.reset (0 : FrameId) (({ ({} : Frame) with stage := .toDispatch }) : Frame)) (Reg.BLK_CTRL 0x10) 0 true), 0, ({ ({} : Frame) with stage := .toDispatch }), by decide +kernel⟩,
   ⟨(((State.setBit (State.setFrame (let s0 := (State.setBit (let s0 := State.reset; s0.setThread (0 : ThreadId).val { s0.thread (0 : ThreadId).val with status := .idle }) (Reg.BLK_CTRL 0x10) 0 true); ({ s0 with rtk := { s0.rtk with queues := Store.set (fun _ => []) s0.rtk.queues (0 : ThreadId).val ((0 : Nat) :: ([] : List Nat)) } } : State)) (0 : Nat) ({ action := 0, tailIn := false } : Frame)) (Reg.BLK_CTRL (0x11 + (0 : ThreadId).val / 64)) 0 true)).wrLive liveBank (Reg.RTK_ACTION_w0 0) 0x10000), 0, 0, [], { action := 0, tailIn := false }, by decide +kernel⟩,
   ⟨(let s := ((((State.reset.setFrame 0 { stage := .toDispatch, action := 0, tailIn := true }).setBit (Reg.BLK_CTRL 0x10) 0 true).setBit (Reg.BLK_CTRL 0x11) 0 true)).wrLive liveBank (Reg.RTK_ACTION_w0 0) 0x10000; { s with rtk := { s.rtk with queues := Store.set (fun _ => []) s.rtk.queues 0 [0] } }), 0, 0, [], { stage := .toDispatch, action := 0, tailIn := true }, by decide +kernel⟩,
   ⟨(State.setBit (State.setFrame (let s0 := (State.setBit (let s0 := State.reset; s0.setThread (0 : ThreadId).val { s0.thread (0 : ThreadId).val with status := .idle }) (Reg.BLK_CTRL 0x10) 0 true); ({ s0 with rtk := { s0.rtk with queues := Store.set (fun _ => []) s0.rtk.queues (0 : ThreadId).val ((0 : Nat) :: ([] : List Nat)) } } : State)) (0 : Nat) (({ ({} : Frame) with orphan := false }) : Frame)) (Reg.BLK_CTRL (0x11 + (0 : ThreadId).val / 64)) 0 true), 0, 0, [], ({ ({} : Frame) with orphan := false }), by decide +kernel⟩,
   ⟨(((((thr 0 { reqs := [{ table := 8 }] }).wrLive 0 (Reg.RTK_TBLDESC_w0 8) 1).wrLive 0 (Reg.RTK_TBLDESC_w1 8) 0x20000000).wrLive 0 (Reg.RTK_TBLDESC_w3 8) 4).wrByte 0x20000010 1), 0, 0, { table := 8 }, by decide +kernel⟩,
   ⟨(let s0 := State.reset; s0.setThread (0 : ThreadId).val { s0.thread (0 : ThreadId).val with reqs := [({ table := 8, denied := true, held := [] } : Request)] }), 0, 0, { table := 8, denied := true, held := [] }, by decide +kernel⟩,
   ⟨(let s0 := State.reset; s0.setThread (0 : ThreadId).val { s0.thread (0 : ThreadId).val with reqs := [(({ ({} : Request) with meter := true }) : Request)] }), 0, 0, ({ ({} : Request) with meter := true }), by decide +kernel⟩,
   ⟨(let s0 := State.reset; s0.setThread (0 : ThreadId).val { s0.thread (0 : ThreadId).val with status := .ready }), 0, .room, by decide +kernel⟩,
   ⟨({ (let s0 := State.reset; s0.setThread (0 : ThreadId).val { s0.thread (0 : ThreadId).val with status := .ready }) with nowNs := 100000000000000 } : State), 0, .room, by decide +kernel⟩,
   ⟨(let s0 := State.reset; s0.setThread (0 : ThreadId).val { s0.thread (0 : ThreadId).val with status := .halted }), 0, by decide +kernel⟩,
   ⟨(State.setBit State.reset Reg.RTK_LOADSTAT 0 false), ⟨0x20, true⟩, by decide +kernel⟩,
   ⟨(State.setBit (State.setBit State.reset (Reg.PWC_LOADSTAT 0) 0 false) (Reg.BLK_CTRL 0x24) 0 false), ⟨0x20, true⟩, by decide +kernel⟩,
   ⟨(State.setBit (State.setBit State.reset (Reg.PWC_LOADSTAT 1) 0 false) (Reg.BLK_CTRL 0x25) 0 false), ⟨0x20, true⟩, by decide +kernel⟩,
   ⟨(State.setBit (State.setBit State.reset Reg.WAK_LOADSTAT 0 false) (Reg.BLK_CTRL 0x26) 0 false), ⟨0x20, true⟩, by decide +kernel⟩,
   ⟨(let s := State.reset.setLoad .rtk { busy := true, indigo := true, pmid := 0x20 }; s.wrN (loadAddr .rtk).1 0x20000000), .rtk, 1, by decide +kernel⟩,
   ⟨(((let s0 := State.reset; s0.setLoad (.rtk : Loader) { s0.load_ (.rtk : Loader) with busy := true })).wrN (loadAddr .rtk).1 0x30000000), .rtk, 7, 0x30000000, 64, by decide +kernel⟩,
   ⟨withImage State.reset .wak 3, .wak, (imageOf (withImage State.reset .wak 3 : State) .wak), by decide +kernel⟩,
   ⟨withImage State.reset .rtk 1, (imageOf (withImage State.reset .rtk 1 : State) .rtk), by decide +kernel⟩,
   ⟨((withImage State.reset .rtk 1).setCommit 0x10 { active := true, table := 3 }), (imageOf (((withImage State.reset .rtk 1).setCommit 0x10 { active := true, table := 3 }) : State) .rtk), by decide +kernel⟩,
   ⟨0x2300000, by decide +kernel⟩,
   ⟨0x1000000, by decide +kernel⟩⟩

/-- States and operands that meet the hypotheses of the clauses of StreamAndTransmitCommandsComplete. -/
theorem witness_StreamAndTransmitCommandsComplete :
    (∃ (s : State) (f : FrameId) (v : Frame), s.frame f = some v ∧ v.stage = .toStream ∧ v.readyForStep6 = true ∧ s.up .tm = true ∧ s.heldUpAt f v [.toStream] true = false ∧ s.blkEn 0x16 = false ∨ s.streamHandle v = none) ∧
    (∃ (s : State) (f : FrameId) (v : Frame) (h : Nat), s.frame f = some v ∧ v.stage = .toStream ∧ v.readyForStep6 = true ∧ s.up .tm = true ∧ s.heldUpAt f v [.toStream] true = false ∧ s.blkEn 0x16 = true ∧ s.streamHandle v = some h ∧ h < 2048 ∧ s.filterWaits h = true) ∧
    (∃ (s : State) (f : FrameId) (v : Frame) (h : Nat), s.frame f = some v ∧ v.stage = .toStream ∧ v.readyForStep6 = true ∧ s.up .tm = true ∧ s.heldUpAt f v [.toStream] true = false ∧ s.blkEn 0x16 = true ∧ s.streamHandle v = some h ∧ h < 2048 ∧ s.filterWaits h = false ∧ s.filterBlocked h = true) ∧
    (∃ (s : State) (f : FrameId) (v : Frame) (h : Nat), s.frame f = some v ∧ v.stage = .toStream ∧ v.readyForStep6 = true ∧ s.up .tm = true ∧ s.heldUpAt f v [.toStream] true = false ∧ s.blkEn 0x16 = true ∧ s.streamHandle v = some h ∧ h < 2048 ∧ s.filterWaits h = false ∧ (let w0 := s.rdLive liveBank (Reg.TM_FILTER_w0 h); s.filterBlocked h = false ∧ getBits w0 16 14 ≠ 0 ∧ getBits w0 16 14 < v.len)) ∧
    (∃ (s : State) (f : FrameId) (v : Frame) (h : Nat), s.frame f = some v ∧ v.stage = .toStream ∧ v.readyForStep6 = true ∧ s.up .tm = true ∧ s.heldUpAt f v [.toStream] true = false ∧ s.blkEn 0x16 = true ∧ s.streamHandle v = some h ∧ h < 2048 ∧ s.filterWaits h = false ∧ (let w0 := s.rdLive liveBank (Reg.TM_FILTER_w0 h); let w1 := s.rdLive liveBank (Reg.TM_FILTER_w1 h); let fn := getBits w1 0 10; s.filterBlocked h = false ∧ (getBits w0 16 14 = 0 ∨ v.len ≤ getBits w0 16 14) ∧ getBit w0 10 = false ∧ getBit w1 10 = false ∨ s.blkEn 0x17 = false ∨ s.frerValid fn = false)) ∧
    (∃ (s : State) (f : FrameId) (v : Frame) (h : Nat), s.frame f = some v ∧ v.stage = .toStream ∧ v.readyForStep6 = true ∧ s.up .tm = true ∧ s.heldUpAt f v [.toStream] true = false ∧ s.blkEn 0x16 = true ∧ s.streamHandle v = some h ∧ h < 2048 ∧ s.filterWaits h = false ∧ (let w0 := s.rdLive liveBank (Reg.TM_FILTER_w0 h); let w1 := s.rdLive liveBank (Reg.TM_FILTER_w1 h); let fn := getBits w1 0 10; let frer0 := s.rdLive liveBank (Reg.TM_FRER_w0 fn); s.filterBlocked h = false ∧ getBits w0 16 14 = 0 ∧ getBit w0 10 = false ∧ getBit w1 10 = true ∧ s.blkEn 0x17 = true ∧ s.frerValid fn = true ∧ getBit frer0 1 = false ∧ getBit v.m56 28 = true ∧ (s.frer fn).takeAny = true)) ∧
    (∃ (s : State) (f : FrameId) (v : Frame) (h : Nat), s.frame f = some v ∧ v.stage = .toStream ∧ v.readyForStep6 = true ∧ s.up .tm = true ∧ s.heldUpAt f v [.toStream] true = false ∧ s.blkEn 0x16 = true ∧ s.streamHandle v = some h ∧ h < 2048 ∧ s.filterWaits h = false ∧ (let w0 := s.rdLive liveBank (Reg.TM_FILTER_w0 h); let w1 := s.rdLive liveBank (Reg.TM_FILTER_w1 h); let fn := getBits w1 0 10; let frer0 := s.rdLive liveBank (Reg.TM_FRER_w0 fn); s.filterBlocked h = false ∧ getBits w0 16 14 = 0 ∧ getBit w0 10 = false ∧ getBit w1 10 = true ∧ s.blkEn 0x17 = true ∧ s.frerValid fn = true ∧ getBit frer0 1 = false ∧ getBit v.m56 28 = true ∧ (s.frer fn).takeAny = false ∧ (s.frer fn).seq = getBits v.m56 12 16 ∧ (s.frer fn).hist.getD 0 false = true)) ∧
    (∃ (s : State) (f : FrameId) (v : Frame) (h : Nat), s.frame f = some v ∧ v.stage = .toStream ∧ v.readyForStep6 = true ∧ s.up .tm = true ∧ s.heldUpAt f v [.toStream] true = false ∧ s.blkEn 0x16 = true ∧ s.streamHandle v = some h ∧ h < 2048 ∧ s.filterWaits h = false ∧ (let w0 := s.rdLive liveBank (Reg.TM_FILTER_w0 h); let w1 := s.rdLive liveBank (Reg.TM_FILTER_w1 h); let fn := getBits w1 0 10; let frer0 := s.rdLive liveBank (Reg.TM_FRER_w0 fn); s.filterBlocked h = false ∧ getBits w0 16 14 = 0 ∧ getBit w0 10 = false ∧ getBit w1 10 = true ∧ s.blkEn 0x17 = true ∧ s.frerValid fn = true ∧ getBit frer0 1 = true ∧ getBit v.m57 8 = false)) ∧
    (∃ (s : State) (f : Fin 1024), s.recoveryRuns f.val = true ∧ (s.frer f.val).timed = true ∧ (let due := (s.frer f.val).lastPass + 1000000 * max 1 (s.fldLive liveBank (Reg.TM_FRER_w1 f.val) 0 16); s.nowNs < due)) ∧
    (∃ (s : State) (f : Fin 1024), s.recoveryRuns f.val = true ∧ (s.frer f.val).timed = true ∧ (let due := (s.frer f.val).lastPass + 1000000 * max 1 (s.fldLive liveBank (Reg.TM_FRER_w1 f.val) 0 16); due ≤ s.nowNs)) ∧
    (∃ (s : State) (f : Fin 1024), s.recoveryRuns f.val = true ∧ (s.frer f.val).silent = false ∧ s.fldLive liveBank (Reg.TM_FRER_w2 f.val) 0 16 ≠ 0 ∧ (let grace := if (s.frer f.val).recovering then s.fldLive liveBank (Reg.TM_FRER_w2 f.val) 16 16 else 0; let due := (s.frer f.val).lastPass + 1000000 * (s.fldLive liveBank (Reg.TM_FRER_w2 f.val) 0 16 + grace); s.nowNs < due)) ∧
    (∃ (s : State) (f : Fin 1024), s.recoveryRuns f.val = true ∧ (s.frer f.val).silent = false ∧ s.fldLive liveBank (Reg.TM_FRER_w2 f.val) 0 16 ≠ 0 ∧ (let grace := if (s.frer f.val).recovering then s.fldLive liveBank (Reg.TM_FRER_w2 f.val) 16 16 else 0; let due := (s.frer f.val).lastPass + 1000000 * (s.fldLive liveBank (Reg.TM_FRER_w2 f.val) 0 16 + grace); due ≤ s.nowNs)) ∧
    (∃ (s : State) (f : Fin 1024), s.recoveryRuns f.val = false) ∧
    (∃ (s : State) (m : Master) (n : Fin 1024), s.admits m (Reg.TM_METER_w4 n.val)) ∧
    (∃ (s : State) (m : Master) (p : Port), s.admits m (Reg.TM_SELCFG p.val)) ∧
    (∃ (s : State) (p : Port) (e : Bool) (x : _), let s1 := s.settlePreempt p.val; let s2 := s1.settleCredits p.val; e = false ∧ (s1.tmPort p.val).preempt = some x ∧ s2.mayResume p.val x = true) ∧
    (∃ (s : State) (p : Port) (e : Bool) (x : _), let s1 := s.settlePreempt p.val; let s2 := s1.settleCredits p.val; e = false ∧ (s1.tmPort p.val).preempt = some x ∧ s2.mayResume p.val x = false) ∧
    (∃ (s : State) (p : Port) (e : Bool), let s1 := s.settlePreempt p.val; (e = true ∨ (s1.tmPort p.val).preempt = none) ∧ s1.macFree p.val e = false) ∧
    (∃ (s : State) (p : Port) (e : Bool), let s1 := s.settlePreempt p.val; (e = true ∨ (s1.tmPort p.val).preempt = none) ∧ s1.macFree p.val e = true ∧ (∀ c < 8, s.headFrame p.val c = none)) ∧
    (∃ (s : State) (p : Port) (c : Nat) (f : Nat) (v : Frame), (s.settlePreempt p.val).macFree p.val true = true ∧ c < 8 ∧ s.headFrame p.val c = some (f, v) ∧ (∀ d < 8, d ≠ c → s.headFrame p.val d = none) ∧ ((s.settlePreempt p.val).settleCredits p.val).eligible p.val c true = true ∧ s.bit (Reg.TM_SELCFG p.val) c = true ∧ v.tailIn = true ∧ s.maxWin p.val c = 0xFFFFFFF ∧ v.copyLen p.val ≤ s.maxSdu p.val c ∧ s.sealVerdict p.val v = .plain) ∧
    (∃ (s : State) (p : Port) (c : Nat) (f : Nat) (v : Frame) (sa : _) (pn : _), (s.settlePreempt p.val).macFree p.val true = true ∧ c < 8 ∧ s.headFrame p.val c = some (f, v) ∧ (∀ d < 8, d ≠ c → s.headFrame p.val d = none) ∧ ((s.settlePreempt p.val).settleCredits p.val).eligible p.val c true = true ∧ s.bit (Reg.TM_SELCFG p.val) c = true ∧ v.tailIn = true ∧ s.maxWin p.val c = 0xFFFFFFF ∧ v.copyLen p.val ≤ s.maxSdu p.val c ∧ s.sealVerdict p.val v = .sealed sa pn ∧ s.sealRoom p.val = true) ∧
    (∃ (s : State) (p : Port) (c : Nat) (f : Nat) (v : Frame) (sa : _) (pn : _), (s.settlePreempt p.val).macFree p.val true = true ∧ c < 8 ∧ s.headFrame p.val c = some (f, v) ∧ (∀ d < 8, d ≠ c → s.headFrame p.val d = none) ∧ ((s.settlePreempt p.val).settleCredits p.val).eligible p.val c true = true ∧ s.bit (Reg.TM_SELCFG p.val) c = true ∧ v.tailIn = true ∧ s.maxWin p.val c = 0xFFFFFFF ∧ v.copyLen p.val ≤ s.maxSdu p.val c ∧ s.sealVerdict p.val v = .sealed sa pn ∧ s.sealRoom p.val = false) ∧
    (∃ (s : State) (p : Port) (e : Bool), (if e = true then (s.tmPort p.val).express else (s.tmPort p.val).preempt) = none) ∧
    (∃ (s : State) (p : Port) (x : Sending) (v : Frame), (s.tmPort p.val).express = some x ∧ s.frame x.frame = some v ∧ s.canEnd p.val x v = false) ∧
    (∃ (s : State) (p : Port) (x : Sending), (s.tmPort p.val).express = some x ∧ s.frame x.frame = none) ∧
    (∃ (s : State) (p : Port) (x : Sending) (v : Frame), p.val < 32 ∧ (s.tmPort p.val).express = some x ∧ s.frame x.frame = some v ∧ v.tailIn = true ∧ v.assembled = false ∧ v.tsins = none ∧ v.stomps = [] ∧ x.sealing = none ∧ x.spoiled = none ∧ s.canEnd p.val x v = true ∧ s.secyActive p.val = false ∧ v.copyLen p.val ≤ s.maxFrm p.val ∧ v.copyLen p.val ≤ s.maxSdu p.val x.cls ∧ s.bit (Reg.PRT_PCTRL p.val) 3 = false ∧ (∀ c < 8, c ≠ x.cls → s.stage p.val c = []) ∧ (∀ y ∈ s.stage p.val x.cls, y.1 = x.frame)) :=
  ⟨⟨(State.reset.setFrame 0 { stage := .toStream, tailIn := true }), 0, { stage := .toStream, tailIn := true }, by decide +kernel⟩,
   ⟨(((List.range 32).foldl (fun acc i => acc.setThread (10 + i) { reqs := [{ meter := true }, { meter := true }] }) (State.reset.setFrame 0 { stage := .toStream, tailIn := true, m56 := 0x805 })).setBit (Reg.BLK_CTRL 0x16) 0 true).wrLive liveBank (Reg.TM_FILTER_w0 5) 0x400, 0, { stage := .toStream, tailIn := true, m56 := 0x805 }, 5, by decide +kernel⟩,
   ⟨((State.reset.setFrame 0 { stage := .toStream, tailIn := true, m56 := 0x805, len := 100 }).setBit (Reg.BLK_CTRL 0x16) 0 true).setBit (Reg.TM_SFBLOCK 0) 5 true, 0, { stage := .toStream, tailIn := true, m56 := 0x805, len := 100 }, 5, by decide +kernel⟩,
   ⟨((State.reset.setFrame 0 { stage := .toStream, tailIn := true, m56 := 0x805, len := 100 }).setBit (Reg.BLK_CTRL 0x16) 0 true).wrLive liveBank (Reg.TM_FILTER_w0 5) 0x400000, 0, { stage := .toStream, tailIn := true, m56 := 0x805, len := 100 }, 5, by decide +kernel⟩,
   ⟨(State.reset.setFrame 0 { stage := .toStream, tailIn := true, m56 := 0x805, len := 100 }).setBit (Reg.BLK_CTRL 0x16) 0 true, 0, { stage := .toStream, tailIn := true, m56 := 0x805, len := 100 }, 5, by decide +kernel⟩,
   ⟨(((State.reset.setFrame 0 { stage := .toStream, tailIn := true, m56 := 0x10000805, len := 100 }).setBit (Reg.BLK_CTRL 0x16) 0 true).setBit (Reg.BLK_CTRL 0x17) 0 true |>.wrLive liveBank (Reg.TM_FILTER_w1 5) 0x403 |>.wrLive liveBank (Reg.TM_FRER_w0 3) 1), 0, { stage := .toStream, tailIn := true, m56 := 0x10000805, len := 100 }, 5, by decide +kernel⟩,
   ⟨((((State.reset.setFrame 0 { stage := .toStream, tailIn := true, m56 := 0x10000805, len := 100 }).setBit (Reg.BLK_CTRL 0x16) 0 true).setBit (Reg.BLK_CTRL 0x17) 0 true |>.wrLive liveBank (Reg.TM_FILTER_w1 5) 0x403 |>.wrLive liveBank (Reg.TM_FRER_w0 3) 1).setFrer 3 { takeAny := false, seq := 0, hist := [true] }), 0, { stage := .toStream, tailIn := true, m56 := 0x10000805, len := 100 }, 5, by decide +kernel⟩,
   ⟨(((State.reset.setFrame 0 { stage := .toStream, tailIn := true, m56 := 0x10000805, len := 100 }).setBit (Reg.BLK_CTRL 0x16) 0 true).setBit (Reg.BLK_CTRL 0x17) 0 true |>.wrLive liveBank (Reg.TM_FILTER_w1 5) 0x403 |>.wrLive liveBank (Reg.TM_FRER_w0 3) 3), 0, { stage := .toStream, tailIn := true, m56 := 0x10000805, len := 100 }, 5, by decide +kernel⟩,
   ⟨((((State.reset.setBit (Reg.BLK_CTRL 0x17) 0 true).wrLive liveBank (Reg.TM_FRER_w0 3) 1).wrLive liveBank (Reg.TM_FRER_w2 3) 5).setFrer 3 { timed := true }), 3, by decide +kernel⟩,
   ⟨({ ((((State.reset.setBit (Reg.BLK_CTRL 0x17) 0 true).wrLive liveBank (Reg.TM_FRER_w0 3) 1).wrLive liveBank (Reg.TM_FRER_w2 3) 5).setFrer 3 { timed := true }) with nowNs := 100000000000000 } : State), 3, by decide +kernel⟩,
   ⟨((((State.reset.setBit (Reg.BLK_CTRL 0x17) 0 true).wrLive liveBank (Reg.TM_FRER_w0 3) 1).wrLive liveBank (Reg.TM_FRER_w2 3) 5).setFrer 3 { timed := true }), 3, by decide +kernel⟩,
   ⟨({ ((((State.reset.setBit (Reg.BLK_CTRL 0x17) 0 true).wrLive liveBank (Reg.TM_FRER_w0 3) 1).wrLive liveBank (Reg.TM_FRER_w2 3) 5).setFrer 3 { timed := true }) with nowNs := 100000000000000 } : State), 3, by decide +kernel⟩,
   ⟨State.reset, 0, by decide +kernel⟩,
   ⟨State.reset, ⟨0x20, true⟩, 0, by decide +kernel⟩,
   ⟨State.reset, ⟨0x20, true⟩, 0, by decide +kernel⟩,
   ⟨(((State.reset.setFld (Reg.PRT_PSTAT 0) 0 2 2).setBit (Reg.BLK_CTRL 0x15) 0 true).setTmPort 0 { preempt := some { frame := 0, cls := 0, start := 0, paused := true } }), 0, false, { frame := 0, cls := 0, start := 0, paused := true }, by decide +kernel⟩,
   ⟨(State.reset.setTmPort 0 { preempt := some { frame := 0, cls := 0, start := 0, paused := true } }), 0, false, { frame := 0, cls := 0, start := 0, paused := true }, by decide +kernel⟩,
   ⟨State.reset, 0, true, by decide +kernel⟩,
   ⟨(((State.reset).setFld (Reg.PRT_PSTAT 0) 0 2 2).setBit (Reg.BLK_CTRL 0x15) 0 true), 0, true, by decide +kernel⟩,
   ⟨((((State.reset.setFrame 0 { stage := .queued, tailIn := true, fanout := [0], bytes := List.replicate 60 0 }).setStage 0 0 [(0, 0)]).setFld (Reg.PRT_PSTAT 0) 0 2 2).setBit (Reg.BLK_CTRL 0x15) 0 true).setBit (Reg.TM_SELCFG 0) 0 true, 0, 0, 0, { stage := .queued, tailIn := true, fanout := [0], bytes := List.replicate 60 0 }, by decide +kernel⟩,
   ⟨(((((((((State.reset.setFrame 0 { stage := .queued, tailIn := true, fanout := [0], bytes := List.replicate 60 0 }).setStage 0 0 [(0, 0)]).setFld (Reg.PRT_PSTAT 0) 0 2 2).setBit (Reg.BLK_CTRL 0x15) 0 true).setBit (Reg.TM_SELCFG 0) 0 true).setBit (Reg.BLK_CTRL 0x19) 0 true).setBit (Reg.CIP_PORTCFG 0) 0 true).setFld (Reg.CIP_SECY_w0 0) 0 2 3).setBit (Reg.CIP_SA_w0 (State.reset.secySa 0 0 false)) 0 true).wrN (Reg.CIP_SA_w1 (State.reset.secySa 0 0 false)) 1, 0, 0, 0, { stage := .queued, tailIn := true, fanout := [0], bytes := List.replicate 60 0 }, (match ((((((((((State.reset.setFrame 0 { stage := .queued, tailIn := true, fanout := [0], bytes := List.replicate 60 0 }).setStage 0 0 [(0, 0)]).setFld (Reg.PRT_PSTAT 0) 0 2 2).setBit (Reg.BLK_CTRL 0x15) 0 true).setBit (Reg.TM_SELCFG 0) 0 true).setBit (Reg.BLK_CTRL 0x19) 0 true).setBit (Reg.CIP_PORTCFG 0) 0 true).setFld (Reg.CIP_SECY_w0 0) 0 2 3).setBit (Reg.CIP_SA_w0 (State.reset.secySa 0 0 false)) 0 true).wrN (Reg.CIP_SA_w1 (State.reset.secySa 0 0 false)) 1 : State).sealVerdict 0 ({ stage := .queued, tailIn := true, fanout := [0], bytes := List.replicate 60 0 } : Frame) with | .sealed a _ => a | _ => 0), (match ((((((((((State.reset.setFrame 0 { stage := .queued, tailIn := true, fanout := [0], bytes := List.replicate 60 0 }).setStage 0 0 [(0, 0)]).setFld (Reg.PRT_PSTAT 0) 0 2 2).setBit (Reg.BLK_CTRL 0x15) 0 true).setBit (Reg.TM_SELCFG 0) 0 true).setBit (Reg.BLK_CTRL 0x19) 0 true).setBit (Reg.CIP_PORTCFG 0) 0 true).setFld (Reg.CIP_SECY_w0 0) 0 2 3).setBit (Reg.CIP_SA_w0 (State.reset.secySa 0 0 false)) 0 true).wrN (Reg.CIP_SA_w1 (State.reset.secySa 0 0 false)) 1 : State).sealVerdict 0 ({ stage := .queued, tailIn := true, fanout := [0], bytes := List.replicate 60 0 } : Frame) with | .sealed _ b => b | _ => 0), by decide +kernel⟩,
   ⟨(((((((((((State.reset.setFrame 0 { stage := .queued, tailIn := true, fanout := [0], bytes := List.replicate 60 0 }).setStage 0 0 [(0, 0)]).setFld (Reg.PRT_PSTAT 0) 0 2 2).setBit (Reg.BLK_CTRL 0x15) 0 true).setBit (Reg.TM_SELCFG 0) 0 true).setBit (Reg.BLK_CTRL 0x19) 0 true).setBit (Reg.CIP_PORTCFG 0) 0 true).setFld (Reg.CIP_SECY_w0 0) 0 2 3).setBit (Reg.CIP_SA_w0 (State.reset.secySa 0 0 false)) 0 true).wrN (Reg.CIP_SA_w1 (State.reset.secySa 0 0 false)) 1).setFld Reg.CIP_LANESTAT 0 4 0), 0, 0, 0, { stage := .queued, tailIn := true, fanout := [0], bytes := List.replicate 60 0 }, (match ((((((((((((State.reset.setFrame 0 { stage := .queued, tailIn := true, fanout := [0], bytes := List.replicate 60 0 }).setStage 0 0 [(0, 0)]).setFld (Reg.PRT_PSTAT 0) 0 2 2).setBit (Reg.BLK_CTRL 0x15) 0 true).setBit (Reg.TM_SELCFG 0) 0 true).setBit (Reg.BLK_CTRL 0x19) 0 true).setBit (Reg.CIP_PORTCFG 0) 0 true).setFld (Reg.CIP_SECY_w0 0) 0 2 3).setBit (Reg.CIP_SA_w0 (State.reset.secySa 0 0 false)) 0 true).wrN (Reg.CIP_SA_w1 (State.reset.secySa 0 0 false)) 1).setFld Reg.CIP_LANESTAT 0 4 0) : State).sealVerdict 0 ({ stage := .queued, tailIn := true, fanout := [0], bytes := List.replicate 60 0 } : Frame) with | .sealed a _ => a | _ => 0), (match ((((((((((((State.reset.setFrame 0 { stage := .queued, tailIn := true, fanout := [0], bytes := List.replicate 60 0 }).setStage 0 0 [(0, 0)]).setFld (Reg.PRT_PSTAT 0) 0 2 2).setBit (Reg.BLK_CTRL 0x15) 0 true).setBit (Reg.TM_SELCFG 0) 0 true).setBit (Reg.BLK_CTRL 0x19) 0 true).setBit (Reg.CIP_PORTCFG 0) 0 true).setFld (Reg.CIP_SECY_w0 0) 0 2 3).setBit (Reg.CIP_SA_w0 (State.reset.secySa 0 0 false)) 0 true).wrN (Reg.CIP_SA_w1 (State.reset.secySa 0 0 false)) 1).setFld Reg.CIP_LANESTAT 0 4 0) : State).sealVerdict 0 ({ stage := .queued, tailIn := true, fanout := [0], bytes := List.replicate 60 0 } : Frame) with | .sealed _ b => b | _ => 0), by decide +kernel⟩,
   ⟨State.reset, 0, true, by decide +kernel⟩,
   ⟨(State.setFrame (let s0 := State.reset; s0.setTmPort (0 : Port).val { s0.tmPort (0 : Port).val with express := some ({ frame := 0, cls := 0, start := 0 } : Sending) }) ({ frame := 0, cls := 0, start := 0 } : Sending).frame ({} : Frame)), 0, { frame := 0, cls := 0, start := 0 }, {}, by decide +kernel⟩,
   ⟨(State.delFrame (let s0 := State.reset; s0.setTmPort (0 : Port).val { s0.tmPort (0 : Port).val with express := some ({ frame := 0, cls := 0, start := 0 } : Sending) }) ({ frame := 0, cls := 0, start := 0 } : Sending).frame), 0, { frame := 0, cls := 0, start := 0 }, by decide +kernel⟩,
   ⟨(State.setBit (State.setFrame (let s0 := State.reset; s0.setTmPort (0 : Port).val { s0.tmPort (0 : Port).val with express := some (({ (({ ({ frame := 0, cls := 0, start := 0 } : Sending) with sealing := none }) : Sending) with spoiled := none }) : Sending) }) (({ (({ ({ frame := 0, cls := 0, start := 0 } : Sending) with sealing := none }) : Sending) with spoiled := none }) : Sending).frame (({ (({ (({ (({ ({} : Frame) with tailIn := true }) : Frame) with assembled := false }) : Frame) with tsins := none }) : Frame) with stomps := [] }) : Frame)) (Reg.PRT_PCTRL (0 : Port).val) 3 false), 0, ({ (({ ({ frame := 0, cls := 0, start := 0 } : Sending) with sealing := none }) : Sending) with spoiled := none }), ({ (({ (({ (({ ({} : Frame) with tailIn := true }) : Frame) with assembled := false }) : Frame) with tsins := none }) : Frame) with stomps := [] }), by decide +kernel⟩⟩

/-- States and operands that meet the hypotheses of the clauses of GateListCommandsComplete. -/
theorem witness_GateListCommandsComplete :
    (∃ (s : State) (p : ExtPort), (s.tmPort p.val).oper = none ∨ s.hasPort p.val = false ∨ s.up .tm = false) ∧
    (∃ (s : State) (p : ExtPort), (s.tmPort p.val).pend = none ∧ (s.tmPort p.val).oper = none ∨ (s.tmPort p.val).started = false) ∧
    (∃ (s : State) (p : ExtPort) (a : ListParams), (s.tmPort p.val).oper = some a ∧ s.hasPort p.val = true ∧ s.up .tm = true ∧ (let t0 := s.tmPort p.val; t0.started = false)) ∧
    (∃ (s : State) (p : ExtPort) (a : ListParams), (s.tmPort p.val).oper = some a ∧ s.hasPort p.val = true ∧ s.up .tm = true ∧ (let t0 := s.tmPort p.val; let stop := s.entryEnd p.val a t0.entry t0.offset; t0.started = true ∧ stop < a.cycle)) ∧
    (∃ (s : State) (p : ExtPort) (a : ListParams), (s.tmPort p.val).oper = some a ∧ s.hasPort p.val = true ∧ s.up .tm = true ∧ (let t0 := s.tmPort p.val; let stop := s.entryEnd p.val a t0.entry t0.offset; t0.started = true ∧ a.cycle ≤ stop ∧ t0.extended a = false)) ∧
    (∃ (s : State) (p : ExtPort) (a : ListParams), (s.tmPort p.val).oper = some a ∧ s.hasPort p.val = true ∧ s.up .tm = true ∧ (let t0 := s.tmPort p.val; let stop := s.entryEnd p.val a t0.entry t0.offset; t0.started = true ∧ a.cycle ≤ stop ∧ t0.extended a = true)) ∧
    (∃ (s : State) (p : ExtPort) (a : ListParams), (s.tmPort p.val).oper = some a ∧ s.hasPort p.val = true ∧ s.up .tm = true ∧ (let t0 := s.tmPort p.val; let stop := s.entryEnd p.val a t0.entry t0.offset; t0.started = true ∧ t0.pend = none ∧ s.entryOp p.val (if stop < a.cycle then t0.entry + 1 else 0) = 1)) ∧
    (∃ (s : State) (p : ExtPort) (a : ListParams) (b : _) (change : _), (s.tmPort p.val).oper = some a ∧ s.hasPort p.val = true ∧ s.up .tm = true ∧ (let t0 := s.tmPort p.val; t0.pend = some (b, change) ∧ change ≤ s.listNow p.val + 65536 * 8 * s.fld (Reg.TM_PORTCFG p.val) 4 8 ∧ s.preemptActive p.val = true ∧ s.fldLive pendBank (Reg.TM_LIST_w0 p.val 0) 8 2 = 1)) ∧
    (∃ (s : State) (p : ExtPort) (a : ListParams) (change : Nat), s.canonical = true ∧ s.up .tm = true ∧ (s.tmPort p.val).pend = some (a, change)) :=
  ⟨⟨(let s0 := State.reset; s0.setTmPort (0 : ExtPort).val { s0.tmPort (0 : ExtPort).val with oper := none }), 0, by decide +kernel⟩,
   ⟨(let s0 := (let s0 := State.reset; s0.setTmPort (0 : ExtPort).val { s0.tmPort (0 : ExtPort).val with pend := none }); s0.setTmPort (0 : ExtPort).val { s0.tmPort (0 : ExtPort).val with oper := none }), 0, by decide +kernel⟩,
   ⟨(let s0 := State.reset; s0.setTmPort (0 : ExtPort).val { s0.tmPort (0 : ExtPort).val with oper := some ({} : ListParams) }), 0, {}, by decide +kernel⟩,
   ⟨((State.reset.setTmPort 0 { State.reset.tmPort 0 with oper := some { base := 0, cycle := 1000000, ext := 0, len := 2 }, started := true })).wrLive liveBank (Reg.TM_LIST_w1 0 0) 1000, 0, { base := 0, cycle := 1000000, ext := 0, len := 2 }, by decide +kernel⟩,
   ⟨((State.reset.setTmPort 0 { State.reset.tmPort 0 with oper := some { base := 0, cycle := 100, ext := 0, len := 1 }, started := true })).wrLive liveBank (Reg.TM_LIST_w1 0 0) 1000, 0, { base := 0, cycle := 100, ext := 0, len := 1 }, by decide +kernel⟩,
   ⟨((State.reset.setTmPort 0 { State.reset.tmPort 0 with oper := some { base := 0, cycle := 100, ext := 0, len := 1 }, started := true, pend := some ({}, 0) })).wrLive liveBank (Reg.TM_LIST_w1 0 0) 1000, 0, { base := 0, cycle := 100, ext := 0, len := 1 }, by decide +kernel⟩,
   ⟨(((((State.reset.setTmPort 0 { State.reset.tmPort 0 with oper := some { base := 0, cycle := 1000000, ext := 0, len := 2 }, started := true }))).wrLive liveBank (Reg.TM_LIST_w1 0 0) 1000).wrLive liveBank (Reg.TM_LIST_w0 0 1) 0x100).setBit (Reg.PRT_PCTRL 0) 2 true |>.setBit (Reg.PRT_PREEMPT 0) 10 true, 0, { base := 0, cycle := 1000000, ext := 0, len := 2 }, by decide +kernel⟩,
   ⟨(((State.reset.setTmPort 0 { oper := some {}, pend := some ({}, 0) }).wrLive pendBank (Reg.TM_LIST_w0 0 0) 0x100).setBit (Reg.PRT_PCTRL 0) 2 true).setBit (Reg.PRT_PREEMPT 0) 10 true, 0, {}, {}, 0, by decide +kernel⟩,
   ⟨(let s0 := State.reset; s0.setTmPort (0 : ExtPort).val { s0.tmPort (0 : ExtPort).val with pend := some (({} : ListParams), (0 : Nat)) }), 0, {}, 0, by decide +kernel⟩⟩

/-- States and operands that meet the hypotheses of the clauses of DomainCommandsComplete. -/
theorem witness_DomainCommandsComplete :
    (∃ (s : State) (m : Master) (d : Fin 4), s.admits m (Reg.TIM_DOMCFG d.val) ∧ s.domEn d.val = false ∧ s.bit (Reg.TIM_DOMCFG d.val) 1 = false ∧ s.domState d.val = 0) ∧
    (∃ (s : State) (m : Master) (d : Fin 4), s.admits m (Reg.TIM_DOMCFG d.val) ∧ s.domEn d.val = false ∧ s.bit (Reg.TIM_DOMCFG d.val) 1 = true ∧ s.domState d.val ≠ 3) ∧
    (∃ (s : State) (m : Master) (d : Fin 4), s.admits m (Reg.TIM_DOMCFG d.val) ∧ s.domEn d.val = true) ∧
    (∃ (s : State) (m : Master) (d : Fin 4), s.admits m (Reg.TIM_SMPCTL d.val) ∧ s.domEn d.val = false ∨ s.domState d.val = 3 ∨ s.lt < s.rdTime (Reg.TIM_SMPLT_ns d.val) ∨ 1000000000 ≤ s.rdN (Reg.TIM_SMPMST_ns d.val) ∨ 65536000000000 + s.rdTime (Reg.TIM_SMPLT_ns d.val) < s.lt ∨ (∃ x, (s.dom d.val).lastSample = some x ∧ s.rdTime (Reg.TIM_SMPLT_ns d.val) ≤ x)) ∧
    (∃ (s : State) (m : Master) (d : Fin 4), s.admits m (Reg.TIM_SMPCTL d.val) ∧ s.domEn d.val = true ∧ s.domState d.val = 0 ∧ s.rdTime (Reg.TIM_SMPLT_ns d.val) ≤ s.lt ∧ s.lt ≤ 65536000000000 + s.rdTime (Reg.TIM_SMPLT_ns d.val) ∧ (s.dom d.val).lastSample = none ∧ s.rdN (Reg.TIM_SMPMST_ns d.val) < 1000000000 ∧ (s.dom d.val).cand = none ∧ 1 < s.fld (Reg.TIM_LOCKCFG d.val) 16 8) ∧
    (∃ (s : State) (d : Fin 4), s.domState d.val = 1 ∧ s.ran (s.dom d.val).sync (1000000 * max 1 (s.fld (Reg.TIM_SYNCTMO d.val) 0 16)) = true) ∧
    (∃ (s : State) (d : Fin 4), s.domState d.val ≠ 1 ∨ s.ran (s.dom d.val).sync (1000000 * max 1 (s.fld (Reg.TIM_SYNCTMO d.val) 0 16)) = false) ∧
    (∃ (s : State) (d : Fin 4), s.domState d.val = 2 ∧ (s.dom d.val).holdAt + 1000000000 * max 1 (s.fld (Reg.TIM_SYNCTMO d.val) 16 16) ≤ s.nowNs) ∧
    (∃ (s : State) (d : Fin 4), s.domState d.val ≠ 2 ∨ s.nowNs < (s.dom d.val).holdAt + 1000000000 * max 1 (s.fld (Reg.TIM_SYNCTMO d.val) 16 16)) ∧
    (∃ (s : State) (m : Master) (d : Fin 4), s.admits m (Reg.TIM_SETCTL d.val) ∧ s.domState d.val = 3) ∧
    (∃ (s : State) (m : Master) (d : Fin 4), s.admits m (Reg.TIM_SETCTL d.val) ∧ s.domState d.val ≠ 3) ∧
    (∃ (s : State) (m : Master), s.admits m Reg.TIM_SNAPCTL) ∧
    (∃ (s : State) (m : Master), s.admits m Reg.TIM_CONVCTL) :=
  ⟨⟨(State.setFld (State.setBit (State.setBit State.reset (Reg.TIM_DOMCFG (0 : Fin 4).val) 0 false) (Reg.TIM_DOMCFG (0 : Fin 4).val) 1 false) (Reg.TIM_DSTAT (0 : Fin 4).val) 0 2 0), ⟨0x20, true⟩, 0, by decide +kernel⟩,
   ⟨(State.setBit (State.setBit State.reset (Reg.TIM_DOMCFG (0 : Fin 4).val) 0 false) (Reg.TIM_DOMCFG (0 : Fin 4).val) 1 true), ⟨0x20, true⟩, 0, by decide +kernel⟩,
   ⟨(State.setBit State.reset (Reg.TIM_DOMCFG (0 : Fin 4).val) 0 true), ⟨0x20, true⟩, 0, by decide +kernel⟩,
   ⟨(State.setBit State.reset (Reg.TIM_DOMCFG (0 : Fin 4).val) 0 false), ⟨0x20, true⟩, 0, by decide +kernel⟩,
   ⟨(let s0 := (let s0 := (State.setFld (State.setBit State.reset (Reg.TIM_DOMCFG (0 : Fin 4).val) 0 true) (Reg.TIM_DSTAT (0 : Fin 4).val) 0 2 0); s0.setDom (0 : Fin 4).val { s0.dom (0 : Fin 4).val with lastSample := none }); s0.setDom (0 : Fin 4).val { s0.dom (0 : Fin 4).val with cand := none }), ⟨0x20, true⟩, 0, by decide +kernel⟩,
   ⟨({ (State.setFld State.reset (Reg.TIM_DSTAT (0 : Fin 4).val) 0 2 1) with nowNs := 100000000000000 } : State), 0, by decide +kernel⟩,
   ⟨State.reset, 0, by decide +kernel⟩,
   ⟨({ (State.setFld State.reset (Reg.TIM_DSTAT (0 : Fin 4).val) 0 2 2) with nowNs := 100000000000000 } : State), 0, by decide +kernel⟩,
   ⟨State.reset, 0, by decide +kernel⟩,
   ⟨(State.setFld State.reset (Reg.TIM_DSTAT (0 : Fin 4).val) 0 2 3), ⟨0x20, true⟩, 0, by decide +kernel⟩,
   ⟨State.reset, ⟨0x20, true⟩, 0, by decide +kernel⟩,
   ⟨State.reset, ⟨0x20, true⟩, by decide +kernel⟩,
   ⟨State.reset, ⟨0x20, true⟩, by decide +kernel⟩⟩

/-- States and operands that meet the hypotheses of the clauses of TimePinCommandsComplete. -/
theorem witness_TimePinCommandsComplete :
    (∃ (s : State), s.traverse.state = .up) ∧
    (∃ (s : State), s.timeInMode = 0) ∧
    (∃ (s : State), s.timeInMode = 1 ∧ s.bit Reg.TIM_PINCFG 4 = false) ∧
    (∃ (s : State), s.timeInMode = 1 ∧ s.bit Reg.TIM_PINCFG 4 = true ∧ (let d := s.fld Reg.TIM_PINCFG 2 2; s.domState d = 3 ∧ (s.dom d).setAt = some s.nowNs)) ∧
    (∃ (s : State), s.timeInMode = 1 ∧ s.bit Reg.TIM_PINCFG 4 = true ∧ (let d := s.fld Reg.TIM_PINCFG 2 2; s.domState d = 3 ∧ (s.dom d).setAt ≠ some s.nowNs)) ∧
    (∃ (s : State), s.timeInMode = 2 ∧ s.bit Reg.TIM_PINCFG 4 = true ∧ (let d := s.fld Reg.TIM_PINCFG 2 2; s.domState d = 3 ∧ s.tim.cycleRef = none)) ∧
    (∃ (s : State) (r : _), s.timeInMode = 2 ∧ s.bit Reg.TIM_PINCFG 4 = true ∧ (let d := s.fld Reg.TIM_PINCFG 2 2; s.domState d = 3 ∧ s.tim.cycleRef = some r ∧ s.tim.cycles + 1 < 10000000)) ∧
    (∃ (s : State) (r : _), s.timeInMode = 2 ∧ s.bit Reg.TIM_PINCFG 4 = true ∧ (let d := s.fld Reg.TIM_PINCFG 2 2; s.domState d = 3 ∧ s.tim.cycleRef = some r ∧ 10000000 ≤ s.tim.cycles + 1)) ∧
    (∃ (s : State), s.timeInMode ≠ 0 ∧ s.bit Reg.TIM_PINCFG 4 = true ∧ s.timeInFresh = false) ∧
    (∃ (s : State), s.timeInMode = 0 ∨ s.bit Reg.TIM_PINCFG 4 = false ∨ s.timeInFresh = true) ∧
    (∃ (s : State), s.timeOutMode = 0) ∧
    (∃ (s : State), s.timeOutMode ≠ 0 ∧ (let w := s.wNow (s.fld Reg.TIM_PINCFG 10 2); let period := if s.timeOutMode = 1 then 65536000000000 else 6553600; let high := if s.timeOutMode = 1 then max 3276800 (65536000000 * s.fld Reg.TIM_PINCFG 16 8) else 3276800; let due := if s.tim.timeOut = true then high ≤ w % period + 131072 ∧ s.tim.timeOutRise + 3276800 ≤ s.lt else (w + 131072) % period ≤ 262144; ¬ due)) ∧
    (∃ (s : State), s.timeOutMode ≠ 0 ∧ (let w := s.wNow (s.fld Reg.TIM_PINCFG 10 2); let period := if s.timeOutMode = 1 then 65536000000000 else 6553600; let high := if s.timeOutMode = 1 then max 3276800 (65536000000 * s.fld Reg.TIM_PINCFG 16 8) else 3276800; let due := if s.tim.timeOut = true then high ≤ w % period + 131072 ∧ s.tim.timeOutRise + 3276800 ≤ s.lt else (w + 131072) % period ≤ 262144; due)) :=
  ⟨⟨(let s0 := State.reset; ({ s0 with traverse := { s0.traverse with state := .up } } : State)), by decide +kernel⟩,
   ⟨(State.setFld State.reset Reg.TIM_PINCFG 0 2 0), by decide +kernel⟩,
   ⟨(State.setBit (State.setFld State.reset Reg.TIM_PINCFG 0 2 1) Reg.TIM_PINCFG 4 false), by decide +kernel⟩,
   ⟨(((State.reset.setFld Reg.TIM_PINCFG 0 2 1).setBit Reg.TIM_PINCFG 4 true).setFld (Reg.TIM_DSTAT 0) 0 2 3).setDom 0 { setAt := some 0 }, by decide +kernel⟩,
   ⟨((State.reset.setFld Reg.TIM_PINCFG 0 2 1).setBit Reg.TIM_PINCFG 4 true).setFld (Reg.TIM_DSTAT 0) 0 2 3, by decide +kernel⟩,
   ⟨((State.reset.setFld Reg.TIM_PINCFG 0 2 2).setBit Reg.TIM_PINCFG 4 true).setFld (Reg.TIM_DSTAT 0) 0 2 3, by decide +kernel⟩,
   ⟨(let s0 := ((State.reset.setFld Reg.TIM_PINCFG 0 2 2).setBit Reg.TIM_PINCFG 4 true).setFld (Reg.TIM_DSTAT 0) 0 2 3; { s0 with tim := { s0.tim with cycleRef := some 0, cycles := 5 } }), 0, by decide +kernel⟩,
   ⟨(let s0 := ((State.reset.setFld Reg.TIM_PINCFG 0 2 2).setBit Reg.TIM_PINCFG 4 true).setFld (Reg.TIM_DSTAT 0) 0 2 3; { s0 with tim := { s0.tim with cycleRef := some 0, cycles := 9999999 } }), 0, by decide +kernel⟩,
   ⟨(State.setBit (State.setFld State.reset Reg.TIM_PINCFG 0 2 1) Reg.TIM_PINCFG 4 true), by decide +kernel⟩,
   ⟨(State.setFld State.reset Reg.TIM_PINCFG 0 2 0), by decide +kernel⟩,
   ⟨State.reset, by decide +kernel⟩,
   ⟨{ State.reset.setFld Reg.TIM_PINCFG 8 2 1 with nowNs := 500000000 }, by decide +kernel⟩,
   ⟨{ State.reset.setFld Reg.TIM_PINCFG 8 2 1 with nowNs := 0 }, by decide +kernel⟩⟩

/-- States and operands that meet the hypotheses of the clauses of ServoIsContinuousAndClamped. -/
theorem witness_ServoIsContinuousAndClamped :
    ∃ (lt : Nat) (interval : Nat) (x : _), interval ≠ 0 ∧ lt + interval ≤ x :=
  ⟨0, 1000, 2000, by decide +kernel⟩

/-- States and operands that meet the hypotheses of the clauses of CipherUnitCommandsComplete. -/
theorem witness_CipherUnitCommandsComplete :
    (∃ (s : State) (l : Fin 4), s.cipUp = true ∧ s.bit Reg.CIP_LANESTAT l.val = true) ∧
    (∃ (s : State) (l : Fin 4), s.cipUp = false ∨ s.bit Reg.CIP_LANESTAT l.val = false) ∧
    (∃ (s : State) (l : Fin 4), s.nowNs < (s.lane l.val).removedAt + 1000000) ∧
    (∃ (s : State) (l : Fin 4), s.cipUp = true ∧ s.bit Reg.CIP_LANESTAT l.val = false ∧ s.bit Reg.CIP_LANESTAT (4 + l.val) = false ∧ (s.lane l.val).removedAt + 1000000 ≤ s.nowNs) ∧
    (∃ (s : State), s.cipUp = true ∧ s.entropyFailed = false) ∧
    (∃ (s : State), s.cipUp = true ∧ s.cip.retrying = true ∧ s.cip.failedAt + 10000000 ≤ s.nowNs) ∧
    (∃ (s : State), s.cip.retrying = false ∨ s.nowNs < s.cip.failedAt + 10000000) ∧
    (∃ (s : State) (m : Master), s.regCheck m Reg.CIP_RNG .word false = none) ∧
    (∃ (s : State) (m : Master), s.regCheck m Reg.VLT_RNG .word false = none) ∧
    (∃ (s : State) (m : Master) (a : Fin 1024), s.admits m (Reg.CIP_SA_w0 a.val) ∧ s.keyLoaded a.val = true ∧ s.keyUsage a.val 0 = true ∧ s.entropyFailed = false) ∧
    (∃ (s : State) (m : Master) (a : Fin 1024), s.admits m (Reg.CIP_SA_w0 a.val) ∧ s.keyLoaded a.val = false ∨ s.keyUsage a.val 0 = false ∨ s.entropyFailed = true) ∧
    (∃ (s : State) (k : Fin 1280), s.fld (Reg.CIP_KEYSTAT k.val) 0 2 = 1) ∧
    (∃ (s : State) (k : Fin 1280), s.fld (Reg.CIP_KEYSTAT k.val) 0 2 ≠ 1) ∧
    (∃ (s : State) (m : Master) (k : BitVec 11), s.admits m Reg.CIP_KEYCMD ∧ k.toNat < 1280) ∧
    (∃ (s : State) (m : Master) (k : BitVec 11), s.admits m Reg.CIP_KEYCMD ∧ 1280 ≤ k.toNat) :=
  ⟨⟨(State.setBit State.reset Reg.CIP_LANESTAT (0 : Fin 4).val true), 0, by decide +kernel⟩,
   ⟨State.reset.setBit Reg.CIP_LANESTAT 0 false, 0, by decide +kernel⟩,
   ⟨State.reset, 0, by decide +kernel⟩,
   ⟨({ (State.setBit (State.setBit State.reset Reg.CIP_LANESTAT (0 : Fin 4).val false) Reg.CIP_LANESTAT (4 + (0 : Fin 4).val) false) with nowNs := 100000000000000 } : State), 0, by decide +kernel⟩,
   ⟨State.reset, by decide +kernel⟩,
   ⟨({ (let s0 := State.reset; ({ s0 with cip := { s0.cip with retrying := true } } : State)) with nowNs := 100000000000000 } : State), by decide +kernel⟩,
   ⟨(let s0 := State.reset; ({ s0 with cip := { s0.cip with retrying := false } } : State)), by decide +kernel⟩,
   ⟨State.reset, ⟨0x20, true⟩, by decide +kernel⟩,
   ⟨State.reset, ⟨0x20, true⟩, by decide +kernel⟩,
   ⟨(State.setBit (State.setFld State.reset (Reg.CIP_KEYSTAT (0 : Fin 1024).val) 0 2 2) (Reg.CIP_KEYSTAT (0 : Fin 1024).val) (3 + 0) true), ⟨0x20, true⟩, 0, by decide +kernel⟩,
   ⟨State.reset, ⟨0x20, true⟩, 0, by decide +kernel⟩,
   ⟨(State.setFld State.reset (Reg.CIP_KEYSTAT (0 : Fin 1280).val) 0 2 1), 0, by decide +kernel⟩,
   ⟨State.reset, 0, by decide +kernel⟩,
   ⟨State.reset, ⟨0x20, true⟩, 0, by decide +kernel⟩,
   ⟨State.reset, ⟨0x20, true⟩, 1280, by decide +kernel⟩⟩

/-- States and operands that meet the hypotheses of the clauses of JobCommandsComplete. -/
theorem witness_JobCommandsComplete :
    (∃ (s : State) (m : Master) (j : Fin 160), s.admits m (Reg.CIP_JOB_w0 j.val) ∧ s.jobState j.val = 0) ∧
    (∃ (s : State) (m : Master) (j : Fin 160), s.admits m (Reg.CIP_JOB_w0 j.val) ∧ s.jobState j.val ≠ 0) ∧
    (∃ (s : State) (m : Master) (j : Fin 160), s.admits m (Reg.CIP_JOB_w0 j.val) ∧ (s.jobState j.val = 1 ∨ s.jobState j.val = 5 ∨ s.jobState j.val = 6) ∧ s.jobLegal j.val = true ∧ s.entropyFailed = false) ∧
    (∃ (s : State) (m : Master) (j : Fin 160), s.admits m (Reg.CIP_JOB_w0 j.val) ∧ (s.jobState j.val = 1 ∨ s.jobState j.val = 5 ∨ s.jobState j.val = 6) ∧ s.jobLegal j.val = false) ∧
    (∃ (s : State) (m : Master) (j : Fin 160), s.admits m (Reg.CIP_JOB_w0 j.val) ∧ (s.jobState j.val = 1 ∨ s.jobState j.val = 5 ∨ s.jobState j.val = 6) ∧ s.jobLegal j.val = true ∧ s.entropyFailed = true) ∧
    (∃ (s : State) (m : Master) (j : Fin 160), s.admits m (Reg.CIP_JOB_w0 j.val) ∧ s.jobState j.val = 0 ∨ 2 ≤ s.jobState j.val ∧ s.jobState j.val ≤ 4) ∧
    (∃ (s : State) (j : Fin 160), s.cipUp = true ∧ s.blkAccepts 0x19 = true ∧ s.jobState j.val = 2 ∧ s.fld Reg.CIP_HOLDSTAT 0 6 + s.holdUnits j.val ≤ 32 ∧ s.jobSlots j.val ≠ 0 ∧ (∀ i < 160, i ≠ j.val → s.jobReady i = false ∨ aesOp (s.jobOp i) ≠ aesOp (s.jobOp j.val)) ∧ (s.runningLike j.val).length < s.jobSlots j.val ∧ s.keyRefusal j.val = none) ∧
    (∃ (s : State) (j : Fin 160) (r : Nat), s.cipUp = true ∧ s.blkAccepts 0x19 = true ∧ s.jobState j.val = 2 ∧ s.fld Reg.CIP_HOLDSTAT 0 6 + s.holdUnits j.val ≤ 32 ∧ s.jobSlots j.val ≠ 0 ∧ (∀ i < 160, i ≠ j.val → s.jobReady i = false ∨ aesOp (s.jobOp i) ≠ aesOp (s.jobOp j.val)) ∧ (s.runningLike j.val).length < s.jobSlots j.val ∧ r < 16 ∧ s.keyRefusal j.val = some r) ∧
    (∃ (s : State) (j : Fin 160) (i : Fin 160), i ≠ j ∧ s.jobReady i.val = true ∧ aesOp (s.jobOp i.val) = aesOp (s.jobOp j.val) ∧ s.jobBefore i.val j.val = true) ∧
    (∃ (s : State) (m : Master) (j : Fin 160), s.admits m (Reg.CIP_JOB_w0 j.val) ∧ s.jobLive j.val = true) ∧
    (∃ (s : State) (m : Master) (j : Fin 160), s.admits m (Reg.CIP_JOB_w0 j.val) ∧ s.jobLive j.val = false) ∧
    (∃ (s : State) (m : Master) (j : Fin 160), s.admits m (Reg.CIP_JOB_w0 j.val) ∧ s.jobState j.val = 1 ∨ s.jobState j.val = 6) ∧
    (∃ (s : State) (j : Fin 160), s.jobState j.val = 3 ∧ s.jobOp j.val = 8 ∧ s.bit (Reg.CIP_JOB_w0 j.val) 8 = false ∧ (let m := (s.job j.val).master; let a := s.addr40 (Reg.CIP_JOB_w1 j.val) (Reg.CIP_JOB_w2 j.val); s.cipUp = true ∧ s.memFault m a (s.jobLen j.val) .read = none ∧ s.badMem a (s.jobLen j.val) = none ∧ targetOf a ≠ .outbound)) ∧
    (∃ (s : State) (j : Fin 160) (x : Nat) (c : Nat), s.cipUp = true ∧ s.jobState j.val = 3 ∧ s.laneUp = true ∧ s.memFault (s.job j.val).master (s.addr40 (Reg.CIP_JOB_w1 j.val) (Reg.CIP_JOB_w2 j.val)) (s.jobLen j.val) .read = some (x, c)) :=
  ⟨⟨(State.setFld (State.setFld State.reset (Reg.CIP_JOB_w15 (0 : Fin 160).val) 12 6 0x20) (Reg.CIP_JOB_w15 (0 : Fin 160).val) 0 3 0), ⟨0x20, true⟩, 0, by decide +kernel⟩,
   ⟨(State.setFld (State.setFld State.reset (Reg.CIP_JOB_w15 (0 : Fin 160).val) 12 6 0x20) (Reg.CIP_JOB_w15 0) 0 3 1), ⟨0x20, true⟩, 0, by decide +kernel⟩,
   ⟨(State.setFld (State.setFld (State.setFld State.reset (Reg.CIP_JOB_w15 (0 : Fin 160).val) 12 6 0x20) (Reg.CIP_JOB_w15 (0 : Fin 160).val) 0 3 1) (Reg.CIP_JOB_w0 0) 0 4 5), ⟨0x20, true⟩, 0, by decide +kernel⟩,
   ⟨(State.setFld (State.setFld State.reset (Reg.CIP_JOB_w15 (0 : Fin 160).val) 12 6 0x20) (Reg.CIP_JOB_w15 (0 : Fin 160).val) 0 3 1), ⟨0x20, true⟩, 0, by decide +kernel⟩,
   ⟨(State.setFld (State.setBit (State.setFld (State.setFld State.reset (Reg.CIP_JOB_w15 (0 : Fin 160).val) 12 6 0x20) (Reg.CIP_JOB_w15 (0 : Fin 160).val) 0 3 1) Reg.CIP_ENTSTAT 1 true) (Reg.CIP_JOB_w0 0) 0 4 5), ⟨0x20, true⟩, 0, by decide +kernel⟩,
   ⟨(State.setFld (State.setFld State.reset (Reg.CIP_JOB_w15 (0 : Fin 160).val) 12 6 0x20) (Reg.CIP_JOB_w15 (0 : Fin 160).val) 0 3 0), ⟨0x20, true⟩, 0, by decide +kernel⟩,
   ⟨(State.setFld (State.setFld (State.setFld (State.setBit State.reset (Reg.BLK_CTRL 0x19) 0 true) (Reg.CIP_JOB_w15 (0 : Fin 160).val) 0 3 2) (Reg.CIP_JOB_w0 0) 0 4 5) (Reg.CIP_KEYSTAT 1024) 0 16 0xFFFA), 0, by decide +kernel⟩,
   ⟨(State.setFld (State.setBit State.reset (Reg.BLK_CTRL 0x19) 0 true) (Reg.CIP_JOB_w15 (0 : Fin 160).val) 0 3 2), 0, 3, by decide +kernel⟩,
   ⟨(State.setFld (State.setFld State.reset (Reg.CIP_JOB_w15 1) 0 3 4) (Reg.CIP_JOB_w0 1) 4 2 1), 0, 1, by decide +kernel⟩,
   ⟨(State.setFld (State.setFld State.reset (Reg.CIP_JOB_w15 (0 : Fin 160).val) 12 6 0x20) (Reg.CIP_JOB_w15 0) 0 3 3), ⟨0x20, true⟩, 0, by decide +kernel⟩,
   ⟨(State.setFld State.reset (Reg.CIP_JOB_w15 (0 : Fin 160).val) 12 6 0x20), ⟨0x20, true⟩, 0, by decide +kernel⟩,
   ⟨(State.setFld (State.setFld State.reset (Reg.CIP_JOB_w15 (0 : Fin 160).val) 12 6 0x20) (Reg.CIP_JOB_w15 (0 : Fin 160).val) 0 3 1), ⟨0x20, true⟩, 0, by decide +kernel⟩,
   ⟨((State.setFld (State.setBit (State.setFld (State.setFld State.reset (Reg.CIP_JOB_w15 (0 : Fin 160).val) 0 3 3) (Reg.CIP_JOB_w0 (0 : Fin 160).val) 0 4 8) (Reg.CIP_JOB_w0 (0 : Fin 160).val) 8 false) (Reg.CIP_JOB_w0 0) 0 4 8).wrN (Reg.CIP_JOB_w1 0) 0x20000000 |>.setJob 0 { State.reset.job 0 with pmid := 0x20, indigo := true }), 0, by decide +kernel⟩,
   ⟨(((State.setFld State.reset (Reg.CIP_JOB_w15 (0 : Fin 160).val) 0 3 3)).setFld (Reg.CIP_JOB_w5 0) 0 24 16), 0, 0, 4, by decide +kernel⟩⟩

/-- States and operands that meet the hypotheses of the clauses of DecryptJobReleasesOnlyVerifiedText. -/
theorem witness_DecryptJobReleasesOnlyVerifiedText :
    ∃ (s : State) (j : Fin 160) (m : _), s.jobOp j.val = 2 ∧ s.admits m (Reg.CIP_JOB_w0 j.val) :=
  ⟨(State.setFld (State.setFld State.reset (Reg.CIP_JOB_w0 (0 : Fin 160).val) 0 4 2) (Reg.CIP_JOB_w15 (0 : Fin 160).val) 12 6 0x20), 0, (⟨0x20, true⟩ : Master), by decide +kernel⟩

/-- States and operands that meet the hypotheses of the clauses of VaultChannelCommandsComplete. -/
theorem witness_VaultChannelCommandsComplete :
    (∃ (s : State) (c : Fin 4) (r : _) (v : _), let runs := fun (op : Nat) => s.chanState c.val = 2 ∧ s.vltOp c.val = op; let buf := (s.vltCmd c.val).buf; let msg := buf.take 412; r < 16 ∧ runs 1 ∧ s.vaultState ≠ 2 ∧ s.vlt.noIdentity = false ∧ s.kpmCheck msg = (r, v) ∧ r ≠ 0) ∧
    (∃ (s : State) (c : Fin 4) (b : Option (Fin 512)), let runs := fun (op : Nat) => s.chanState c.val = 2 ∧ s.vltOp c.val = op; let n := s.vltSlot c.val; let a := s.vltArg c.val; runs 2 ∧ s.vaultState ≠ 2 ∧ s.hasCip = true ∧ s.slotState n = 1 ∧ (∀ x, b = some x → x.val ≠ n) ∧ (let r := s.deriveCheck n a (s.vltCmd c.val).pmid; r = 0 ∧ (∀ x, b = some x → x.val ∉ s.ancestors n))) ∧
    (∃ (s : State) (c : Fin 4) (b : Option (Fin 512)) (x : _), let runs := fun (op : Nat) => s.chanState c.val = 2 ∧ s.vltOp c.val = op; let n := s.vltSlot c.val; let a := s.vltArg c.val; runs 2 ∧ s.vaultState ≠ 2 ∧ s.hasCip = true ∧ s.slotState n = 1 ∧ (∀ x, b = some x → x.val ≠ n) ∧ (let r := s.deriveCheck n a (s.vltCmd c.val).pmid; r = 0 ∧ b = some x ∧ x.val ∈ s.ancestors n)) ∧
    (∃ (s : State) (c : Fin 4) (b : Option (Fin 512)), let runs := fun (op : Nat) => s.chanState c.val = 2 ∧ s.vltOp c.val = op; let n := s.vltSlot c.val; let a := s.vltArg c.val; runs 2 ∧ s.vaultState ≠ 2 ∧ s.hasCip = true ∧ s.slotState n = 1 ∧ (∀ x, b = some x → x.val ≠ n) ∧ (let r := s.deriveCheck n a (s.vltCmd c.val).pmid; r ≠ 0)) ∧
    (∃ (s : State) (c : Fin 4) (x : Fin 512), let runs := fun (op : Nat) => s.chanState c.val = 2 ∧ s.vltOp c.val = op; let n := s.vltSlot c.val; runs 2 ∧ s.vaultState ≠ 2 ∧ s.hasCip = true ∧ s.slotState n = 1 ∧ x.val = n) ∧
    (∃ (s : State) (c : Fin 4), let runs := fun (op : Nat) => s.chanState c.val = 2 ∧ s.vltOp c.val = op; let n := s.vltSlot c.val; runs 2 ∧ s.vaultState ≠ 2 ∧ s.hasCip = true ∧ s.slotState n ≠ 1) ∧
    (∃ (s : State) (c : Fin 4), let runs := fun (op : Nat) => s.chanState c.val = 2 ∧ s.vltOp c.val = op; runs 2 ∧ s.vaultState ≠ 2 ∧ s.hasCip = false) ∧
    (∃ (s : State) (c : Fin 4), let runs := fun (op : Nat) => s.chanState c.val = 2 ∧ s.vltOp c.val = op; let n := s.vltSlot c.val; runs 3 ∧ s.vaultState ≠ 2 ∧ s.slotState n = 1) ∧
    (∃ (s : State) (c : Fin 4), let runs := fun (op : Nat) => s.chanState c.val = 2 ∧ s.vltOp c.val = op; let n := s.vltSlot c.val; runs 3 ∧ s.vaultState ≠ 2 ∧ s.slotState n ≠ 1) ∧
    (∃ (s : State) (c : Fin 4), let runs := fun (op : Nat) => s.chanState c.val = 2 ∧ s.vltOp c.val = op; runs 4 ∧ s.vaultState ≠ 2) ∧
    (∃ (s : State) (c : Fin 4), let runs := fun (op : Nat) => s.chanState c.val = 2 ∧ s.vltOp c.val = op; let a := s.vltArg c.val; runs 5 ∧ a ≤ 7) ∧
    (∃ (s : State) (c : Fin 4), let runs := fun (op : Nat) => s.chanState c.val = 2 ∧ s.vltOp c.val = op; let a := s.vltArg c.val; runs 5 ∧ 7 < a) ∧
    (∃ (s : State) (c : Fin 4), let runs := fun (op : Nat) => s.chanState c.val = 2 ∧ s.vltOp c.val = op; let a := s.vltArg c.val; runs 6 ∧ a ≤ 7) ∧
    (∃ (s : State) (c : Fin 4), let runs := fun (op : Nat) => s.chanState c.val = 2 ∧ s.vltOp c.val = op; let a := s.vltArg c.val; runs 6 ∧ 7 < a) ∧
    (∃ (s : State) (c : Fin 4), let runs := fun (op : Nat) => s.chanState c.val = 2 ∧ s.vltOp c.val = op; runs 7 ∧ s.vaultState = 2 ∧ s.loopOpen = false) ∧
    (∃ (s : State) (c : Fin 4), let runs := fun (op : Nat) => s.chanState c.val = 2 ∧ s.vltOp c.val = op; runs 7 ∧ s.vaultState ≠ 2 ∨ s.loopOpen = true) ∧
    (∃ (s : State) (c : Fin 4), let runs := fun (op : Nat) => s.chanState c.val = 2 ∧ s.vltOp c.val = op; s.vaultState = 2 ∧ runs 2) ∧
    (∃ (s : State) (c : Fin 4), let runs := fun (op : Nat) => s.chanState c.val = 2 ∧ s.vltOp c.val = op; s.vaultState = 2 ∧ runs 1) ∧
    (∃ (s : State) (c : Fin 4), let runs := fun (op : Nat) => s.chanState c.val = 2 ∧ s.vltOp c.val = op; s.vaultState = 2 ∧ runs 3) ∧
    (∃ (s : State) (c : Fin 4), let runs := fun (op : Nat) => s.chanState c.val = 2 ∧ s.vltOp c.val = op; s.vaultState = 2 ∧ runs 4) :=
  ⟨⟨vlt 1 0 0 (State.setFld State.reset Reg.VLT_STAT 0 2 1), 0, 1, ([] : List Byte), by decide +kernel⟩,
   ⟨(let s := vlt 2 5 1024 (((State.setFld State.reset Reg.VLT_STAT 0 2 1)).setSlotState 5 1); s.setSlot 5 { policy := 2 ^ 11 + 8, value := [], counter := 0 }), 0, none, by decide +kernel⟩,
   ⟨(let s := vlt 2 5 1024 (((State.setFld State.reset Reg.VLT_STAT 0 2 1)).setSlotState 5 1); (s.setSlot 5 { policy := 2 ^ 11 + 8 + 1 + 7 * 2 ^ 21 }).setSlotState 7 1), 0, some 7, 7, by decide +kernel⟩,
   ⟨(vlt 2 5 0 (((State.setFld State.reset Reg.VLT_STAT 0 2 1)).setSlotState 5 1)), 0, none, by decide +kernel⟩,
   ⟨vlt 2 5 0 (((State.setFld State.reset Reg.VLT_STAT 0 2 1)).setSlotState 5 1), 0, 5, by decide +kernel⟩,
   ⟨vlt 2 5 0 (State.setFld State.reset Reg.VLT_STAT 0 2 1), 0, by decide +kernel⟩,
   ⟨{ vlt 2 5 0 (State.setFld State.reset Reg.VLT_STAT 0 2 1) with variant := .jzm4832 }, 0, by decide +kernel⟩,
   ⟨vlt 3 5 0 (((State.setFld State.reset Reg.VLT_STAT 0 2 1)).setSlotState 5 1), 0, by decide +kernel⟩,
   ⟨vlt 3 5 0 (State.setFld State.reset Reg.VLT_STAT 0 2 1), 0, by decide +kernel⟩,
   ⟨vlt 4 5 0 (State.setFld State.reset Reg.VLT_STAT 0 2 1), 0, by decide +kernel⟩,
   ⟨vlt 5 0 7 (State.setFld State.reset Reg.VLT_STAT 0 2 1), 0, by decide +kernel⟩,
   ⟨vlt 5 0 8 (State.setFld State.reset Reg.VLT_STAT 0 2 1), 0, by decide +kernel⟩,
   ⟨vlt 6 0 7 (State.setFld State.reset Reg.VLT_STAT 0 2 1), 0, by decide +kernel⟩,
   ⟨vlt 6 0 8 (State.setFld State.reset Reg.VLT_STAT 0 2 1), 0, by decide +kernel⟩,
   ⟨vlt 7 0 0 (State.setFld State.reset Reg.VLT_STAT 0 2 2), 0, by decide +kernel⟩,
   ⟨vlt 7 0 0 (State.setFld State.reset Reg.VLT_STAT 0 2 1), 0, by decide +kernel⟩,
   ⟨vlt 2 0 0 (State.setFld State.reset Reg.VLT_STAT 0 2 2), 0, by decide +kernel⟩,
   ⟨vlt 1 0 0 (State.setFld State.reset Reg.VLT_STAT 0 2 2), 0, by decide +kernel⟩,
   ⟨vlt 3 0 0 (State.setFld State.reset Reg.VLT_STAT 0 2 2), 0, by decide +kernel⟩,
   ⟨vlt 4 0 0 (State.setFld State.reset Reg.VLT_STAT 0 2 2), 0, by decide +kernel⟩⟩

/-- States and operands that meet the hypotheses of the clauses of VaultTamperCommandsComplete. -/
theorem witness_VaultTamperCommandsComplete :
    (∃ (s : State), s.vlt.started = false ∧ s.coreHeld = false) ∧
    (∃ (s : State), s.vlt.started = true ∨ s.coreHeld = true) ∧
    (∃ (s : State), s.vlt.openSamples = 0) ∧
    (∃ (s : State), s.vlt.openSamples = 1 ∧ 2 ≤ s.cur ∧ s.coreHeld = false ∧ s.vaultState ≠ 3) ∧
    (∃ (s : State), s.vlt.openSamples = 1 ∧ s.coreHeld = true ∧ s.supply.resetN = false) ∧
    (∃ (s : State), s.vlt.openSamples = 1 ∧ s.coreHeld = true ∧ s.supply.resetN = true) ∧
    (∃ (s : State), s.vaultState = 3 ∧ (∀ c ∈ s.vlt.order, c ≤ 4)) ∧
    (∃ (s : State), s.coreHeld = true ∨ s.cur < 2) :=
  ⟨⟨(let s0 := (let s0 := State.reset; ({ s0 with vlt := { s0.vlt with started := false } } : State)); ({ s0 with coreHeld := false } : State)), by decide +kernel⟩,
   ⟨(let s0 := (State.setFld State.reset Reg.VLT_STAT 0 2 1); { s0 with vlt := { s0.vlt with started := true } }), by decide +kernel⟩,
   ⟨(let s0 := State.reset; ({ s0 with vlt := { s0.vlt with openSamples := 0 } } : State)), by decide +kernel⟩,
   ⟨(let s0 := (State.setFld (let s0 := State.reset; ({ s0 with vlt := { s0.vlt with openSamples := 1 } } : State)) Reg.WAK_STATE 0 2 3); ({ s0 with coreHeld := false } : State)), by decide +kernel⟩,
   ⟨(let s0 := (let s0 := (let s0 := State.reset; ({ s0 with vlt := { s0.vlt with openSamples := 1 } } : State)); ({ s0 with coreHeld := true } : State)); ({ s0 with supply := { s0.supply with resetN := false } } : State)), by decide +kernel⟩,
   ⟨(let s0 := (let s0 := (let s0 := State.reset; ({ s0 with vlt := { s0.vlt with openSamples := 1 } } : State)); ({ s0 with coreHeld := true } : State)); ({ s0 with supply := { s0.supply with resetN := true } } : State)), by decide +kernel⟩,
   ⟨(State.setFld State.reset Reg.VLT_STAT 0 2 3), by decide +kernel⟩,
   ⟨(let s0 := State.reset; ({ s0 with coreHeld := true } : State)), by decide +kernel⟩⟩

/-- States and operands that meet the hypotheses of the clauses of GatewayFrameCommandsComplete. -/
theorem witness_GatewayFrameCommandsComplete :
    (∃ (s : State) (c : Fin 16) (how : CanRx), s.canOn c.val = true ∧ s.canState c.val < 2 ∧ s.canTec c.val ≤ 255 ∧ how ≠ .good) ∧
    (∃ (s : State) (c : Fin 16) (fl : BitVec 5), s.canOn c.val = true ∧ s.canState c.val < 2 ∧ s.canTec c.val ≤ 255 ∧ fl.toNat.testBit 2 = true ∧ s.bit (Reg.GWY_CANCTL c.val) 1 = false) ∧
    (∃ (s : State) (c : Fin 16) (fl : BitVec 5) (d : List Byte), s.canOn c.val = true ∧ s.canState c.val < 2 ∧ s.canTec c.val ≤ 255 ∧ (let body := if fl.toNat.testBit 1 then [] else d; (fl.toNat.testBit 2 = false ∨ s.bit (Reg.GWY_CANCTL c.val) 1 = true) ∧ s.bit (Reg.GWY_CANCTL c.val) 4 = false ∧ s.gwyHeld = true ∧ s.gwyRoom 1 c.val body.length = true)) ∧
    (∃ (s : State) (c : Fin 16) (fl : BitVec 5) (d : List Byte), s.canOn c.val = true ∧ s.canState c.val < 2 ∧ s.canTec c.val ≤ 255 ∧ (let body := if fl.toNat.testBit 1 then [] else d; (fl.toNat.testBit 2 = false ∨ s.bit (Reg.GWY_CANCTL c.val) 1 = true) ∧ s.bit (Reg.GWY_CANCTL c.val) 4 = false ∧ s.gwyRoom 1 c.val body.length = false)) ∧
    (∃ (s : State) (c : Fin 16), s.canOn c.val = false ∨ 2 ≤ s.canState c.val) ∧
    (∃ (s : State) (c : Fin 16) (x : GwyTx), s.canOn c.val = true ∧ s.canState c.val < 2 ∧ s.canTec c.val ≤ 255 ∧ s.bit (Reg.GWY_CANCTL c.val) 2 = false ∧ canWinner (s.canTx c.val) = some x ∧ s.canTec c.val + 8 ≤ 255) ∧
    (∃ (s : State) (c : Fin 16) (x : GwyTx), s.canOn c.val = true ∧ s.canState c.val < 2 ∧ s.canTec c.val ≤ 255 ∧ s.bit (Reg.GWY_CANCTL c.val) 2 = false ∧ canWinner (s.canTx c.val) = some x ∧ 255 < s.canTec c.val + 8) ∧
    (∃ (s : State) (c : Fin 16) (x : GwyTx) (rest : List GwyTx), s.canTx c.val = x :: rest ∧ (let due := x.entered + 1000000 * max 1 (s.fld (Reg.GWY_CANCTL c.val) 16 16); s.nowNs < due)) ∧
    (∃ (s : State) (c : Fin 16) (x : GwyTx) (rest : List GwyTx), s.canTx c.val = x :: rest ∧ (let due := x.entered + 1000000 * max 1 (s.fld (Reg.GWY_CANCTL c.val) 16 16); due ≤ s.nowNs ∧ s.gwyHeld = true)) ∧
    (∃ (s : State) (c : Fin 16), s.canTx c.val = []) ∧
    (∃ (s : State) (c : Fin 16), s.bit (Reg.GWY_CANCTL c.val) 2 = true ∨ s.canTec c.val + 8 ≤ 255) ∧
    (∃ (s : State) (c : Fin 16), s.canOn c.val = true ∧ s.canState c.val = 2 ∧ s.bit (Reg.GWY_CANCTL c.val) 3 = true) ∧
    (∃ (s : State) (c : Fin 16), s.canOn c.val = true ∧ s.canState c.val = 2 ∧ s.bit (Reg.GWY_CANCTL c.val) 3 = false) ∧
    (∃ (s : State) (l : Fin 8) (id : Fin 64) (b : LinBuffer), s.linOn l.val = true ∧ s.bit (Reg.GWY_LINCTL l.val) 1 = false ∧ id.val < 62 ∧ s.linBuf l.val id.val = some b) ∧
    (∃ (s : State) (l : Fin 8) (id : Fin 64), s.linOn l.val = false ∨ s.bit (Reg.GWY_LINCTL l.val) 1 = true ∨ 62 ≤ id.val ∨ s.linBuf l.val id.val = none) ∧
    (∃ (s : State) (l : Fin 8) (id : Fin 64) (d : List Byte) (e : LinError), s.linOn l.val = true ∧ id.val < 62 ∧ s.bit (Reg.GWY_LINCTL l.val) 4 = false ∧ s.gwyHeld = true ∧ (let r := s.linTaken l.val id.val d e; s.gwyRoom 2 l.val r.1.length = true)) ∧
    (∃ (s : State) (l : Fin 8) (id : Fin 64), s.linOn l.val = false ∨ 62 ≤ id.val) ∧
    (∃ (s : State) (l : Fin 8) (e : Nat), s.linOn l.val = true ∧ s.bit (Reg.GWY_LINCTL l.val) 1 = true ∧ s.bit (Reg.GWY_LINCTL l.val) 3 = true ∧ s.linEntry l.val (Store.get (fun _ => 0) s.gwy.linAt l.val) = some e) ∧
    (∃ (s : State) (c : Fin 4) (d : List Byte), s.serOn c.val = true ∧ d ≠ [] ∧ s.gwyHeld = true ∧ (let n := clampNat 1 1024 (s.fld (Reg.GWY_SERFRM c.val) 8 11); s.gwyRoom 3 c.val (d.take n).length = true)) ∧
    (∃ (s : State) (c : Fin 4) (bs : List Byte) (rest : List (List Byte)), s.serTx c.val = bs :: rest ∧ s.serOn c.val = true) ∧
    (∃ (s : State) (bs : List Byte) (rest : List (List Byte)), s.edgeReachable = true ∧ Store.get (fun _ => []) s.fab.delivered 34 = bs :: rest ∧ s.gwyCheck bs = none) ∧
    (∃ (s : State) (bs : List Byte) (rest : List (List Byte)) (r : _), s.edgeReachable = true ∧ Store.get (fun _ => []) s.fab.delivered 34 = bs :: rest ∧ s.gwyCheck bs = some r ∧ natAt bs 0 1 = 1 ∧ s.canOn (natAt bs 1 1) = true ∧ s.canState (natAt bs 1 1) ≠ 2 ∧ (s.canTx (natAt bs 1 1)).length < 32) ∧
    (∃ (s : State) (bs : List Byte) (rest : List (List Byte)) (r : _), s.edgeReachable = true ∧ Store.get (fun _ => []) s.fab.delivered 34 = bs :: rest ∧ s.gwyCheck bs = some r ∧ natAt bs 0 1 = 1 ∧ s.canOn (natAt bs 1 1) = true ∧ s.canState (natAt bs 1 1) ≠ 2 ∧ 32 ≤ (s.canTx (natAt bs 1 1)).length) :=
  ⟨⟨(State.setFld (State.setBit (State.setBit (State.setFld State.reset Reg.WAK_STATE 0 2 3) (Reg.BLK_CTRL 0x1C) 0 true) (Reg.GWY_CANCTL (0 : Fin 16).val) 0 true) (Reg.GWY_CANSTAT (0 : Fin 16).val) 0 2 0), 0, .error, by decide +kernel⟩,
   ⟨(State.setBit (State.setFld (State.setBit (State.setBit (State.setFld State.reset Reg.WAK_STATE 0 2 3) (Reg.BLK_CTRL 0x1C) 0 true) (Reg.GWY_CANCTL (0 : Fin 16).val) 0 true) (Reg.GWY_CANSTAT (0 : Fin 16).val) 0 2 0) (Reg.GWY_CANCTL (0 : Fin 16).val) 1 false), 0, 4, by decide +kernel⟩,
   ⟨(State.setBit (State.setFld (State.setBit (State.setBit (State.setFld State.reset Reg.WAK_STATE 0 2 3) (Reg.BLK_CTRL 0x1C) 0 true) (Reg.GWY_CANCTL (0 : Fin 16).val) 0 true) (Reg.GWY_CANSTAT (0 : Fin 16).val) 0 2 0) (Reg.GWY_CANCTL (0 : Fin 16).val) 4 false), 0, 0, [], by decide +kernel⟩,
   ⟨(let s0 := (State.setBit (State.setFld (State.setBit (State.setBit (State.setFld State.reset Reg.WAK_STATE 0 2 3) (Reg.BLK_CTRL 0x1C) 0 true) (Reg.GWY_CANCTL (0 : Fin 16).val) 0 true) (Reg.GWY_CANSTAT (0 : Fin 16).val) 0 2 0) (Reg.GWY_CANCTL (0 : Fin 16).val) 4 false); ({ s0 with gwy := { s0.gwy with inbox := List.replicate 128 ⟨1, 0, [], true⟩ } } : State)), 0, 0, [], by decide +kernel⟩,
   ⟨State.reset, 0, by decide +kernel⟩,
   ⟨(let s0 := (State.setBit (State.setFld (State.setBit (State.setBit (State.setFld State.reset Reg.WAK_STATE 0 2 3) (Reg.BLK_CTRL 0x1C) 0 true) (Reg.GWY_CANCTL (0 : Fin 16).val) 0 true) (Reg.GWY_CANSTAT (0 : Fin 16).val) 0 2 0) (Reg.GWY_CANCTL (0 : Fin 16).val) 2 false); ({ s0 with gwy := { s0.gwy with canTx := Store.set (fun _ => []) s0.gwy.canTx 0 [{ bytes := [1], key := 4, entered := 0 }] } } : State)), 0, { bytes := [1], key := 4, entered := 0 }, by decide +kernel⟩,
   ⟨(let s0 := ((State.setBit (State.setFld (State.setBit (State.setBit (State.setFld State.reset Reg.WAK_STATE 0 2 3) (Reg.BLK_CTRL 0x1C) 0 true) (Reg.GWY_CANCTL (0 : Fin 16).val) 0 true) (Reg.GWY_CANSTAT (0 : Fin 16).val) 0 2 0) (Reg.GWY_CANCTL (0 : Fin 16).val) 2 false)).setFld (Reg.GWY_CANSTAT 0) 16 9 250; { s0 with gwy := { s0.gwy with canTx := Store.set (fun _ => []) s0.gwy.canTx 0 [{ bytes := List.replicate 20 0, key := 0, entered := 0 }] } }), 0, { bytes := List.replicate 20 0, key := 0, entered := 0 }, by decide +kernel⟩,
   ⟨(let s0 := State.reset; ({ s0 with gwy := { s0.gwy with canTx := Store.set (fun _ => []) s0.gwy.canTx (0 : Fin 16).val (({ bytes := [], key := 0, entered := 0 } : GwyTx) :: ([] : List GwyTx)) } } : State)), 0, { bytes := [], key := 0, entered := 0 }, [], by decide +kernel⟩,
   ⟨({ (let s0 := ((let s0 := State.reset; ({ s0 with gwy := { s0.gwy with canTx := Store.set (fun _ => []) s0.gwy.canTx (0 : Fin 16).val (({ bytes := List.replicate 20 0, key := 0, entered := 0 } : GwyTx) :: ([] : List GwyTx)) } } : State))).setFld Reg.WAK_STATE 0 2 1; { s0 with gwy := { s0.gwy with canTx := Store.set (fun _ => []) s0.gwy.canTx 0 [{ bytes := List.replicate 20 0, key := 0, entered := 0 }] } }) with nowNs := 100000000000000 } : State), 0, { bytes := List.replicate 20 0, key := 0, entered := 0 }, [], by decide +kernel⟩,
   ⟨(let s0 := State.reset; ({ s0 with gwy := { s0.gwy with canTx := Store.set (fun _ => []) s0.gwy.canTx (0 : Fin 16).val ([]) } } : State)), 0, by decide +kernel⟩,
   ⟨(State.setBit State.reset (Reg.GWY_CANCTL (0 : Fin 16).val) 2 true), 0, by decide +kernel⟩,
   ⟨(State.setBit (State.setFld (State.setBit (State.setBit (State.setFld State.reset Reg.WAK_STATE 0 2 3) (Reg.BLK_CTRL 0x1C) 0 true) (Reg.GWY_CANCTL (0 : Fin 16).val) 0 true) (Reg.GWY_CANSTAT (0 : Fin 16).val) 0 2 2) (Reg.GWY_CANCTL (0 : Fin 16).val) 3 true), 0, by decide +kernel⟩,
   ⟨(State.setBit (State.setFld (State.setBit (State.setBit (State.setFld State.reset Reg.WAK_STATE 0 2 3) (Reg.BLK_CTRL 0x1C) 0 true) (Reg.GWY_CANCTL (0 : Fin 16).val) 0 true) (Reg.GWY_CANSTAT (0 : Fin 16).val) 0 2 2) (Reg.GWY_CANCTL (0 : Fin 16).val) 3 false), 0, by decide +kernel⟩,
   ⟨(let s0 := (State.setBit (State.setBit (State.setBit (State.setFld State.reset Reg.WAK_STATE 0 2 3) (Reg.BLK_CTRL 0x1D) 0 true) (Reg.GWY_LINCTL (0 : Fin 8).val) 0 true) (Reg.GWY_LINCTL (0 : Fin 8).val) 1 false); ({ s0 with gwy := { s0.gwy with linBuf := Store.set (fun _ => none) s0.gwy.linBuf (64 * (0 : Fin 8).val + (0 : Fin 64).val) (some ({ bytes := [], sent := false } : LinBuffer)) } } : State)), 0, 0, { bytes := [], sent := false }, by decide +kernel⟩,
   ⟨State.reset, 0, 0, by decide +kernel⟩,
   ⟨(State.setBit (State.setBit (State.setBit (State.setFld State.reset Reg.WAK_STATE 0 2 3) (Reg.BLK_CTRL 0x1D) 0 true) (Reg.GWY_LINCTL (0 : Fin 8).val) 0 true) (Reg.GWY_LINCTL (0 : Fin 8).val) 4 false), 0, 0, [], .none, by decide +kernel⟩,
   ⟨State.reset, 0, 0, by decide +kernel⟩,
   ⟨(State.setBit (State.setBit (State.setBit (State.setBit (State.setBit (State.setFld State.reset Reg.WAK_STATE 0 2 3) (Reg.BLK_CTRL 0x1D) 0 true) (Reg.GWY_LINCTL (0 : Fin 8).val) 0 true) (Reg.GWY_LINCTL (0 : Fin 8).val) 1 true) (Reg.GWY_LINCTL (0 : Fin 8).val) 3 true) (Reg.GWY_LINSCH 0 3) 16 true), 0, 3, by decide +kernel⟩,
   ⟨(State.setBit (State.setBit (State.setFld State.reset Reg.WAK_STATE 0 2 3) (Reg.BLK_CTRL 0x1D) 0 true) (Reg.GWY_SERCTL (0 : Fin 4).val) 0 true), 0, [1, 2], by decide +kernel⟩,
   ⟨(State.setBit (State.setBit (State.setFld (let s0 := State.reset; ({ s0 with gwy := { s0.gwy with serTx := Store.set (fun _ => []) s0.gwy.serTx (0 : Fin 4).val (([] : List Byte) :: ([] : List (List Byte))) } } : State)) Reg.WAK_STATE 0 2 3) (Reg.BLK_CTRL 0x1D) 0 true) (Reg.GWY_SERCTL (0 : Fin 4).val) 0 true), 0, [], [], by decide +kernel⟩,
   ⟨(let s0 := State.reset; ({ s0 with fab := { s0.fab with delivered := Store.set (fun _ => []) s0.fab.delivered 34 (([] : List Byte) :: ([] : List (List Byte))) } } : State)), [], [], by decide +kernel⟩,
   ⟨(let s0 := (((State.reset.setFld Reg.WAK_STATE 0 2 3).setBit (Reg.BLK_CTRL 0x1C) 0 true).setBit (Reg.GWY_CANCTL 0) 0 true); ({ s0 with fab := { s0.fab with delivered := Store.set (fun _ => []) s0.fab.delivered 34 [(pseudoHeader 1 0 0 5 1 0 0 0 ++ [9])] }, gwy := { s0.gwy with canTx := Store.set (fun _ => []) s0.gwy.canTx 0 (List.replicate 31 { bytes := [1], key := 4, entered := 0 }) } } : State)), (pseudoHeader 1 0 0 5 1 0 0 0 ++ [9]), [], ((((let s0 := (((State.reset.setFld Reg.WAK_STATE 0 2 3).setBit (Reg.BLK_CTRL 0x1C) 0 true).setBit (Reg.GWY_CANCTL 0) 0 true); ({ s0 with fab := { s0.fab with delivered := Store.set (fun _ => []) s0.fab.delivered 34 [(pseudoHeader 1 0 0 5 1 0 0 0 ++ [9])] }, gwy := { s0.gwy with canTx := Store.set (fun _ => []) s0.gwy.canTx 0 (List.replicate 31 { bytes := [1], key := 4, entered := 0 }) } } : State)) : State).gwyCheck ((pseudoHeader 1 0 0 5 1 0 0 0 ++ [9]) : List Byte)).getD ⟨0, 0, 0⟩), by decide +kernel⟩,
   ⟨(let s0 := (((State.reset.setFld Reg.WAK_STATE 0 2 3).setBit (Reg.BLK_CTRL 0x1C) 0 true).setBit (Reg.GWY_CANCTL 0) 0 true); ({ s0 with fab := { s0.fab with delivered := Store.set (fun _ => []) s0.fab.delivered 34 [(pseudoHeader 1 0 0 5 1 0 0 0 ++ [9])] }, gwy := { s0.gwy with canTx := Store.set (fun _ => []) s0.gwy.canTx 0 (List.replicate 32 { bytes := [1], key := 4, entered := 0 }) } } : State)), (pseudoHeader 1 0 0 5 1 0 0 0 ++ [9]), [], ((((let s0 := (((State.reset.setFld Reg.WAK_STATE 0 2 3).setBit (Reg.BLK_CTRL 0x1C) 0 true).setBit (Reg.GWY_CANCTL 0) 0 true); ({ s0 with fab := { s0.fab with delivered := Store.set (fun _ => []) s0.fab.delivered 34 [(pseudoHeader 1 0 0 5 1 0 0 0 ++ [9])] }, gwy := { s0.gwy with canTx := Store.set (fun _ => []) s0.gwy.canTx 0 (List.replicate 32 { bytes := [1], key := 4, entered := 0 }) } } : State)) : State).gwyCheck ((pseudoHeader 1 0 0 5 1 0 0 0 ++ [9]) : List Byte)).getD ⟨0, 0, 0⟩), by decide +kernel⟩⟩

/-- States and operands that meet the hypotheses of the clauses of GatewayInputCommandsComplete. -/
theorem witness_GatewayInputCommandsComplete :
    (∃ (s : State), s.cur = 0) ∧
    (∃ (s : State) (v : BitVec 32), s.cur ≠ 0 ∧ s.gwy.inbox = [] ∧ (∀ i < 32, v.getLsbD i = (s.bit Reg.GWY_DINSTATE i != s.bit (Reg.GWY_DINCFG i) 4))) ∧
    (∃ (s : State) (v : BitVec 32) (i : Nat), i < 32 ∧ s.cur ≠ 0 ∧ (∀ j < 32, s.bit (Reg.GWY_DINCFG j) 3 = false) ∧ v.getLsbD i = (!s.bit Reg.GWY_DINSTATE i != s.bit (Reg.GWY_DINCFG i) 4) ∧ Store.get (fun _ => 0) s.gwy.dinRun i + 1 ≤ 10 * s.fld (Reg.GWY_DINCFG i) 8 8) ∧
    (∃ (s : State) (v : BitVec 32) (i : Nat), i < 32 ∧ s.cur ≠ 0 ∧ (∀ j < 32, s.bit (Reg.GWY_DINCFG j) 3 = false) ∧ v.getLsbD i = (!s.bit Reg.GWY_DINSTATE i != s.bit (Reg.GWY_DINCFG i) 4) ∧ 10 * s.fld (Reg.GWY_DINCFG i) 8 8 < Store.get (fun _ => 0) s.gwy.dinRun i + 1) ∧
    (∃ (s : State), s.cur < 2) ∧
    (∃ (s : State), 2 ≤ s.cur) ∧
    (∃ (s : State) (i : Fin 16), s.fld (Reg.GWY_AINTHR_w1 i.val) 0 16 = 0 ∨ s.nowNs < Store.get (fun _ => 0) s.gwy.ainAt i.val + 1000000 * s.fld (Reg.GWY_AINTHR_w1 i.val) 0 16) ∧
    (∃ (s : State) (i : Fin 16), s.fld (Reg.GWY_AINTHR_w1 i.val) 0 16 ≠ 0 ∧ Store.get (fun _ => 0) s.gwy.ainAt i.val + 1000000 * s.fld (Reg.GWY_AINTHR_w1 i.val) 0 16 ≤ s.nowNs ∧ s.gwyOn 1 = true ∧ s.gwyHeld = true ∧ s.gwyRoom 5 i.val 2 = true) ∧
    (∃ (s : State) (m : Master) (c : Fin 16), s.edgeBehind 0x1C = false ∧ s.admits m (Reg.GWY_CANCTL c.val) ∧ s.bit (Reg.GWY_CANCTL c.val) 0 = false ∧ s.gwyOn 0 = true) ∧
    (∃ (s : State) (m : Master) (l : Fin 8), s.edgeBehind 0x1D = false ∧ s.admits m (Reg.GWY_LINCTL l.val) ∧ s.bit (Reg.GWY_LINCTL l.val) 0 = false) ∧
    (∃ (s : State) (m : Master) (c : Fin 4), s.edgeBehind 0x1D = false ∧ s.admits m (Reg.GWY_SERCTL c.val)) ∧
    (∃ (s : State) (c : Fin 8) (ide : Bool) (id : BitVec 29) (dlc : BitVec 4) (d : BitVec 64), s.cur = 1 ∧ s.bit (Reg.GWY_SWCFG c.val) 0 = true ∧ (let hit := (List.range 4).any (fun f => s.filterMatches c.val f ide id.toNat dlc.toNat d.toNat); hit = true)) ∧
    (∃ (s : State) (c : Fin 8) (ide : Bool) (id : BitVec 29) (dlc : BitVec 4) (d : BitVec 64), s.cur = 1 ∧ s.bit (Reg.GWY_SWCFG c.val) 0 = true ∧ (let hit := (List.range 4).any (fun f => s.filterMatches c.val f ide id.toNat dlc.toNat d.toNat); hit = false)) ∧
    (∃ (s : State) (c : Fin 8), s.cur = 1 ∧ s.bit (Reg.GWY_SWCFG c.val) 0 = true ∧ (let n := s.swErrors c.val; n < 31)) ∧
    (∃ (s : State) (c : Fin 8), s.cur = 1 ∧ s.bit (Reg.GWY_SWCFG c.val) 0 = true ∧ (let n := s.swErrors c.val; 31 ≤ n ∧ s.bit (Reg.GWY_SWCFG c.val) 3 = true)) ∧
    (∃ (s : State) (c : Fin 8), s.cur = 1 ∧ s.bit (Reg.GWY_SWCFG c.val) 0 = true ∧ (let n := s.swErrors c.val; 31 ≤ n ∧ s.bit (Reg.GWY_SWCFG c.val) 3 = false)) ∧
    (∃ (s : State), s.cur ≠ 1) ∧
    (∃ (s : State) (l : Fin 8), s.cur = 1 ∧ s.bit (Reg.GWY_LINCTL l.val) 2 = true) :=
  ⟨⟨(State.setFld State.reset Reg.WAK_STATE 0 2 0), by decide +kernel⟩,
   ⟨(let s0 := State.reset; ({ s0 with gwy := { s0.gwy with inbox := [] } } : State)), 0, by decide +kernel⟩,
   ⟨(State.setFld (State.setFld State.reset (Reg.GWY_DINCFG 0) 8 8 1) Reg.WAK_STATE 0 2 1), 1, 0, by decide +kernel⟩,
   ⟨(State.setFld (State.setFld State.reset (Reg.GWY_DINCFG 0) 8 8 0) Reg.WAK_STATE 0 2 1), 1, 0, by decide +kernel⟩,
   ⟨(State.setFld State.reset Reg.WAK_STATE 0 2 1), by decide +kernel⟩,
   ⟨(State.setFld State.reset Reg.WAK_STATE 0 2 3), by decide +kernel⟩,
   ⟨(State.setFld State.reset (Reg.GWY_AINTHR_w1 (0 : Fin 16).val) 0 16 0), 0, by decide +kernel⟩,
   ⟨({ (let s0 := (State.setBit (State.setFld (State.setFld State.reset (Reg.GWY_AINTHR_w1 (0 : Fin 16).val) 0 16 1) Reg.WAK_STATE 0 2 3) (Reg.BLK_CTRL (0x1C + 1)) 0 true); { s0 with traverse := { s0.traverse with state := .up } }) with nowNs := 100000000000000 } : State), 0, by decide +kernel⟩,
   ⟨(State.setBit (State.setFld (State.setBit State.reset (Reg.GWY_CANCTL (0 : Fin 16).val) 0 false) Reg.WAK_STATE 0 2 3) (Reg.BLK_CTRL (0x1C + 0)) 0 true), ⟨0x20, true⟩, 0, by decide +kernel⟩,
   ⟨(State.setBit State.reset (Reg.GWY_LINCTL (0 : Fin 8).val) 0 false), ⟨0x20, true⟩, 0, by decide +kernel⟩,
   ⟨State.reset, ⟨0x20, true⟩, 0, by decide +kernel⟩,
   ⟨((State.setFld (State.setFld (State.setBit (State.setFld State.reset Reg.WAK_STATE 0 2 1) (Reg.GWY_SWCFG (0 : Fin 8).val) 0 true) Reg.WAK_STATE 0 2 1) (Reg.GWY_SWF_w0 0 0) 29 2 2)), 0, false, 0, 0, 0, by decide +kernel⟩,
   ⟨((List.range 4).foldl (fun acc f => acc.setFld (Reg.GWY_SWF_w0 0 f) 29 2 0) (State.setBit (State.setFld State.reset Reg.WAK_STATE 0 2 1) (Reg.GWY_SWCFG (0 : Fin 8).val) 0 true)), 0, true, 0, 0, 0, by decide +kernel⟩,
   ⟨(State.setBit (State.setFld State.reset Reg.WAK_STATE 0 2 1) (Reg.GWY_SWCFG (0 : Fin 8).val) 0 true), 0, by decide +kernel⟩,
   ⟨(((State.setBit (State.setBit (State.setFld State.reset Reg.WAK_STATE 0 2 1) (Reg.GWY_SWCFG (0 : Fin 8).val) 0 true) (Reg.GWY_SWCFG (0 : Fin 8).val) 3 true)).setSwErrors 0 31), 0, by decide +kernel⟩,
   ⟨(((State.setBit (State.setBit (State.setFld State.reset Reg.WAK_STATE 0 2 1) (Reg.GWY_SWCFG (0 : Fin 8).val) 0 true) (Reg.GWY_SWCFG (0 : Fin 8).val) 3 false)).setSwErrors 0 31), 0, by decide +kernel⟩,
   ⟨State.reset, by decide +kernel⟩,
   ⟨(State.setBit (State.setFld State.reset Reg.WAK_STATE 0 2 1) (Reg.GWY_LINCTL (0 : Fin 8).val) 2 true), 0, by decide +kernel⟩⟩

/-- States and operands that meet the hypotheses of the clauses of BridgeLinkAndEngineCommandsComplete. -/
theorem witness_BridgeLinkAndEngineCommandsComplete :
    (∃ (s : State) (c : Word), s.hbr.pcfg = some c ∧ s.linkUp = false ∧ s.blkEn 0x1E = true ∧ s.rootPort = true ∨ s.hbr.perst = true) ∧
    (∃ (s : State), s.linkUp = true ∨ s.hbr.pcfg = none) ∧
    (∃ (s : State) (c : Word), s.hbr.pcfg = some c ∧ s.rootPort = false) ∧
    (∃ (s : State) (d : Fin 64) (x : Window), s.bit (Reg.HBR_POLL_w0 d.val) 0 = true ∧ s.pollDue d.val ≤ s.nowNs ∧ s.polling d.val = none ∧ s.outWindow (s.fld (Reg.HBR_POLL_w0 d.val) 4 6) = some x ∧ s.linkUp = true ∧ s.npRoom true = true) ∧
    (∃ (s : State) (d : Fin 64) (r : HbrRequest), s.bit (Reg.HBR_POLL_w0 d.val) 0 = true ∧ s.pollDue d.val ≤ s.nowNs ∧ s.polling d.val = some r) ∧
    (∃ (s : State) (d : Fin 64), s.bit (Reg.HBR_POLL_w0 d.val) 0 = false ∨ s.nowNs < s.pollDue d.val) ∧
    (∃ (s : State) (d : Fin 64) (r : HbrRequest) (st : CplStatus), s.polling d.val = some r ∧ s.cplStatus st ≠ .ok) ∧
    (∃ (s : State) (m : Master) (sig : Word) (i : Nat), s.admits m Reg.HBR_SIGTRIG ∧ s.rootPort = true ∧ s.linkUp = true ∧ i < 32 ∧ sig = BitVec.ofNat 32 (2 ^ i)) ∧
    (∃ (s : State) (m : Master), s.admits m Reg.HBR_SIGTRIG ∧ s.rootPort = false) ∧
    (∃ (s : State) (m : Master) (r : Fin 2), s.admits m (Reg.HBR_RING_w3 r.val)) ∧
    (∃ (s : State) (n : BitVec 16) (w : Nat) (x : Window), s.ringWindow 0 = some (w, x) ∧ s.hostHeld = false ∧ 64 ≤ n.toNat ∧ n.toNat ≤ 9216) ∧
    (∃ (s : State) (n : BitVec 16) (w : Nat) (x : Window), s.ringWindow 0 = some (w, x) ∧ s.hostHeld = false ∧ n.toNat < 64 ∨ 9216 < n.toNat) ∧
    (∃ (s : State) (o : Bool), s.ringWindow 0 = none ∨ o = false ∨ s.hostHeld = true) ∧
    (∃ (s : State) (w : Nat) (x : Window) (bs : List Byte) (rest : List (List Byte)), s.ringWindow 1 = some (w, x) ∧ Store.get (fun _ => []) s.fab.delivered 35 = bs :: rest) ∧
    (∃ (s : State) (o : Bool), s.ringWindow 1 = none ∨ o = false ∨ Store.get (fun _ => []) s.fab.delivered 35 = []) :=
  ⟨⟨(State.setBit (State.setBit (State.setBit (let s0 := State.reset; ({ s0 with hbr := { s0.hbr with pcfg := some (0 : Word) } } : State)) Reg.HBR_PSTAT 0 false) (Reg.BLK_CTRL 0x1E) 0 true) Reg.HBR_PSTAT 8 true), 0, by decide +kernel⟩,
   ⟨(State.setBit State.reset Reg.HBR_PSTAT 0 true), by decide +kernel⟩,
   ⟨(State.setBit (let s0 := State.reset; ({ s0 with hbr := { s0.hbr with pcfg := some (0 : Word) } } : State)) Reg.HBR_PSTAT 8 false), 0, by decide +kernel⟩,
   ⟨({ (linkUp1 (owin State.reset 0)).setBit (Reg.HBR_POLL_w0 0) 0 true with nowNs := 100000000000000 } : State), 0, (winGet ((({ (linkUp1 (owin State.reset 0)).setBit (Reg.HBR_POLL_w0 0) 0 true with nowNs := 100000000000000 } : State) : State).outWindow 0)), by decide +kernel⟩,
   ⟨({ (let s := (linkUp1 (owin State.reset 0)).setBit (Reg.HBR_POLL_w0 0) 0 true; { s with hbr := { s.hbr with requests := [⟨0, .poll 0, ⟨0x20, true⟩, 0, 0x80000000, 0x10000, 4, false, 0, false, 0, 0⟩] } }) with nowNs := 100000000000000 } : State), 0, ⟨0, .poll 0, ⟨0x20, true⟩, 0, 0x80000000, 0x10000, 4, false, 0, false, 0, 0⟩, by decide +kernel⟩,
   ⟨(State.setBit State.reset (Reg.HBR_POLL_w0 (0 : Fin 64).val) 0 false), 0, by decide +kernel⟩,
   ⟨(let s := (linkUp1 (owin State.reset 0)).setBit (Reg.HBR_POLL_w0 0) 0 true; { s with hbr := { s.hbr with requests := [⟨0, .poll 0, ⟨0x20, true⟩, 0, 0x80000000, 0x10000, 4, false, 0, false, 0, 0⟩] } }), 0, ⟨0, .poll 0, ⟨0x20, true⟩, 0, 0x80000000, 0x10000, 4, false, 0, false, 0, 0⟩, .ur, by decide +kernel⟩,
   ⟨(State.setBit (State.setBit State.reset Reg.HBR_PSTAT 8 true) Reg.HBR_PSTAT 0 true), ⟨0x20, true⟩, 8, 3, by decide +kernel⟩,
   ⟨(State.setBit State.reset Reg.HBR_PSTAT 8 false), ⟨0x20, true⟩, by decide +kernel⟩,
   ⟨State.reset, ⟨0x20, true⟩, 0, by decide +kernel⟩,
   ⟨(linkUp1 (owin State.reset 0)).setBit (Reg.HBR_RING_w0 0) 0 true |>.wrN (Reg.HBR_RING_w3 0) 1 |>.setFld Reg.FAB_POOL 0 16 100, 64, 0, (winGet (((linkUp1 (owin State.reset 0)).setBit (Reg.HBR_RING_w0 0) 0 true |>.wrN (Reg.HBR_RING_w3 0) 1 |>.setFld Reg.FAB_POOL 0 16 100 : State).outWindow 0)), by decide +kernel⟩,
   ⟨(linkUp1 (owin State.reset 0)).setBit (Reg.HBR_RING_w0 0) 0 true |>.wrN (Reg.HBR_RING_w3 0) 1 |>.setFld Reg.FAB_POOL 0 16 100, 63, 0, (winGet (((linkUp1 (owin State.reset 0)).setBit (Reg.HBR_RING_w0 0) 0 true |>.wrN (Reg.HBR_RING_w3 0) 1 |>.setFld Reg.FAB_POOL 0 16 100 : State).outWindow 0)), by decide +kernel⟩,
   ⟨State.reset, true, by decide +kernel⟩,
   ⟨(let s := (linkUp1 (owin State.reset 0)).setBit (Reg.HBR_RING_w0 1) 0 true |>.wrN (Reg.HBR_RING_w3 1) 1; { s with fab := { s.fab with delivered := Store.set (fun _ => []) s.fab.delivered 35 [[1, 2]] } }), 0, (winGet (((let s := (linkUp1 (owin State.reset 0)).setBit (Reg.HBR_RING_w0 1) 0 true |>.wrN (Reg.HBR_RING_w3 1) 1; { s with fab := { s.fab with delivered := Store.set (fun _ => []) s.fab.delivered 35 [[1, 2]] } }) : State).outWindow 0)), [1, 2], [], by decide +kernel⟩,
   ⟨State.reset, true, by decide +kernel⟩⟩

/-- States and operands that meet the hypotheses of the clauses of OutboundCommandsComplete. -/
theorem witness_OutboundCommandsComplete :
    (∃ (s : State) (m : Master) (a : BitVec 40) (sz : AccessSize) (w : Nat) (x : Window), targetOf a.toNat = .outbound ∧ firstWindow s.outWindow (fun y => y.covers a.toNat) 64 = some (w, x) ∧ (x.indigo = true → m.indigo = true) ∧ s.memCheck m a.toNat .write = none ∧ s.postRoom x.urgent sz.bytes = true ∧ s.linkUp = true) ∧
    (∃ (s : State) (m : Master) (a : BitVec 40) (sz : AccessSize) (w : Nat) (x : Window), targetOf a.toNat = .outbound ∧ firstWindow s.outWindow (fun y => y.covers a.toNat) 64 = some (w, x) ∧ (x.indigo = true → m.indigo = true) ∧ s.memCheck m a.toNat .write = none ∧ s.postRoom x.urgent sz.bytes = false) ∧
    (∃ (s : State) (m : Master) (a : BitVec 40) (sz : AccessSize) (w : Nat) (x : Window) (q : _), targetOf a.toNat = .outbound ∧ firstWindow s.outWindow (fun y => y.covers a.toNat) 64 = some (w, x) ∧ (x.indigo = true → m.indigo = true) ∧ (let bus := x.target + (a.toNat - x.base); s.memCheck m a.toNat .read = none ∧ x.pf = true ∧ s.prefetchHit w m.indigo bus sz.bytes = some q)) ∧
    (∃ (s : State) (m : Master) (a : BitVec 40) (sz : AccessSize) (w : Nat) (x : Window), targetOf a.toNat = .outbound ∧ firstWindow s.outWindow (fun y => y.covers a.toNat) 64 = some (w, x) ∧ (x.indigo = true → m.indigo = true) ∧ (let bus := x.target + (a.toNat - x.base); s.memCheck m a.toNat .read = none ∧ (x.pf = false ∨ s.prefetchHit w m.indigo bus sz.bytes = none) ∧ s.linkUp = false)) ∧
    (∃ (s : State) (m : Master) (a : BitVec 40) (sz : AccessSize) (w : Nat) (x : Window), targetOf a.toNat = .outbound ∧ firstWindow s.outWindow (fun y => y.covers a.toNat) 64 = some (w, x) ∧ (x.indigo = true → m.indigo = true) ∧ (let bus := x.target + (a.toNat - x.base); s.memCheck m a.toNat .read = none ∧ (x.pf = false ∨ s.prefetchHit w m.indigo bus sz.bytes = none) ∧ s.linkUp = true ∧ s.npRoom x.urgent = true)) ∧
    (∃ (s : State) (m : Master) (a : BitVec 40) (b : Bool), targetOf a.toNat ≠ .outbound ∨ s.regionCheck m a.toNat (if b = true then .write else .read) = none ∧ firstWindow s.outWindow (fun y => y.covers a.toNat) 64 = none) ∧
    (∃ (s : State) (m : Master) (a : BitVec 40) (b : Bool) (w : Nat) (x : Window), targetOf a.toNat = .outbound ∧ s.regionCheck m a.toNat (if b = true then .write else .read) = none ∧ firstWindow s.outWindow (fun y => y.covers a.toNat) 64 = some (w, x) ∧ x.indigo = true ∧ m.indigo = false) ∧
    (∃ (s : State) (m : Master) (a : BitVec 40) (b : Bool) (c : Nat), targetOf a.toNat = .outbound ∧ s.regionCheck m a.toNat (if b = true then .write else .read) = some c) ∧
    (∃ (s : State) (id : Nat) (x : HbrRequest) (st : CplStatus), s.requestOf id = some x ∧ x.kind = .read ∧ st = .ok ∨ st = .ecrc ∧ (∀ c, s.hbr.pcfg = some c → getBit c 7 = false)) ∧
    (∃ (s : State) (id : Nat) (x : HbrRequest) (st : CplStatus), s.requestOf id = some x ∧ x.kind = .read ∧ s.cplStatus st ≠ .ok) ∧
    (∃ (s : State) (id : Nat), s.requestOf id = none) ∧
    (∃ (s : State) (id : Nat) (x : HbrRequest), s.requestOf id = some x ∧ s.nowNs < x.due) ∧
    (∃ (s : State) (id : Nat) (x : HbrRequest), s.requestOf id = some x ∧ x.due ≤ s.nowNs) ∧
    (∃ (s : State) (k : Nat) (x : HbrPosted), s.hbr.posted[k]? = some x) ∧
    (∃ (s : State) (m : Master) (w : Fin 64) (x : Window), s.admits m Reg.HBR_FENCE ∧ s.bit Reg.HBR_FENCESTAT 0 = false ∧ s.outWindow w.val = some x ∧ s.linkUp = true ∧ s.npRoom x.urgent = false) ∧
    (∃ (s : State) (m : Master) (w : Fin 64) (x : Window), s.admits m Reg.HBR_FENCE ∧ s.bit Reg.HBR_FENCESTAT 0 = false ∧ s.outWindow w.val = some x ∧ s.linkUp = true ∧ s.npRoom x.urgent = true) ∧
    (∃ (s : State) (m : Master) (w : Fin 64) (x : Window), s.admits m Reg.HBR_FENCE ∧ s.bit Reg.HBR_FENCESTAT 0 = false ∧ s.outWindow w.val = some x ∧ s.linkUp = false) ∧
    (∃ (s : State) (m : Master) (w : Fin 64), s.admits m Reg.HBR_FENCE ∧ s.bit Reg.HBR_FENCESTAT 0 = false ∧ s.outWindow w.val = none) ∧
    (∃ (s : State) (before : List HbrRequest) (after : List HbrRequest) (x : HbrRequest), s.hbr.requests = before ++ x :: after ∧ x.kind = .fence ∧ (∀ y ∈ before, y.kind ≠ .fence)) ∧
    (∃ (s : State) (k : Fin 16) (x : PfBlock), s.hbr.prefetched[k.val]? = some x ∧ s.nowNs < x.used + 10000) ∧
    (∃ (s : State) (k : Fin 16) (x : PfBlock), s.hbr.prefetched[k.val]? = some x ∧ x.used + 10000 ≤ s.nowNs) ∧
    (∃ (s : State) (k : Fin 16), s.hbr.prefetched[k.val]? = none) :=
  ⟨⟨linkUp1 (owin State.reset 0), ⟨0x20, true⟩, 0x80000010, .word, 0, (winGet ((linkUp1 (owin State.reset 0) : State).outWindow 0)), by decide +kernel⟩,
   ⟨(let s := linkUp1 (owin State.reset 0); { s with hbr := { s.hbr with posted := List.replicate 32 ⟨0, false, 0, 0, 0, ⟨0x20, true⟩, []⟩ } }), ⟨0x20, true⟩, 0x80000010, .word, 0, (winGet (((let s := linkUp1 (owin State.reset 0); { s with hbr := { s.hbr with posted := List.replicate 32 ⟨0, false, 0, 0, 0, ⟨0x20, true⟩, []⟩ } }) : State).outWindow 0)), by decide +kernel⟩,
   ⟨(let s := linkUp1 (owin State.reset 512); { s with hbr := { s.hbr with prefetched := [{ win := 0, indigo := true, addr := 0x80000010, bus := 0x10010, bytes := [1, 2, 3, 4] }] } }), ⟨0x20, true⟩, 0x80000010, .word, 0, (winGet (((let s := linkUp1 (owin State.reset 512); { s with hbr := { s.hbr with prefetched := [{ win := 0, indigo := true, addr := 0x80000010, bus := 0x10010, bytes := [1, 2, 3, 4] }] } }) : State).outWindow 0)), ({ win := 0, indigo := true, addr := 0x80000010, bus := 0x10010, bytes := [1, 2, 3, 4] } : PfBlock), by decide +kernel⟩,
   ⟨(owin State.reset 0), ⟨0x20, true⟩, 0x80000010, .word, 0, (winGet (((owin State.reset 0) : State).outWindow 0)), by decide +kernel⟩,
   ⟨linkUp1 (owin State.reset 0), ⟨0x20, true⟩, 0x80000010, .word, 0, (winGet ((linkUp1 (owin State.reset 0) : State).outWindow 0)), by decide +kernel⟩,
   ⟨State.reset, ⟨0x20, true⟩, 0, true, by decide +kernel⟩,
   ⟨(linkUp1 (owin State.reset 128)).setBit (Reg.SYS_RGNATTR 0) 0 true |>.setBit (Reg.SYS_RGNATTR 0) 1 false |>.setBit (Reg.SYS_RGNATTR 0) 2 true |>.setFld (Reg.SYS_RGNLIM 0) 0 28 0xFFFFFFF, ⟨0x20, false⟩, 0x80000010, false, 0, (winGet (((linkUp1 (owin State.reset 128)).setBit (Reg.SYS_RGNATTR 0) 0 true |>.setBit (Reg.SYS_RGNATTR 0) 1 false |>.setBit (Reg.SYS_RGNATTR 0) 2 true |>.setFld (Reg.SYS_RGNLIM 0) 0 28 0xFFFFFFF : State).outWindow 0)), by decide +kernel⟩,
   ⟨State.reset, ⟨0x20, false⟩, 0x80000010, true, 4, by decide +kernel⟩,
   ⟨(let s := linkUp1 (owin State.reset 0); { s with hbr := { s.hbr with requests := [⟨0, .read, ⟨0x20, true⟩, 0, 0x80000000, 0x10000, 4, false, 0, false, 0, 0⟩] } }), 0, ⟨0, .read, ⟨0x20, true⟩, 0, 0x80000000, 0x10000, 4, false, 0, false, 0, 0⟩, .ok, by decide +kernel⟩,
   ⟨(let s := linkUp1 (owin State.reset 0); { s with hbr := { s.hbr with requests := [⟨0, .read, ⟨0x20, true⟩, 0, 0x80000000, 0x10000, 4, false, 0, false, 0, 0⟩] } }), 0, ⟨0, .read, ⟨0x20, true⟩, 0, 0x80000000, 0x10000, 4, false, 0, false, 0, 0⟩, .ur, by decide +kernel⟩,
   ⟨State.reset, 0, by decide +kernel⟩,
   ⟨(let s0 := State.reset; ({ s0 with hbr := { s0.hbr with requests := [{ (⟨0, .read, ⟨0x20, true⟩, 0, 0x80000000, 0, 4, false, 0, false, 5, 0⟩ : HbrRequest) with id := (0 : Nat) }] } } : State)), 0, ⟨0, .read, ⟨0x20, true⟩, 0, 0x80000000, 0, 4, false, 0, false, 5, 0⟩, by decide +kernel⟩,
   ⟨({ (let s := linkUp1 (owin State.reset 0); { s with hbr := { s.hbr with requests := [⟨0, .fence, ⟨0x20, true⟩, 0, 0x80000000, 0x10000, 4, false, 0, false, 0, 0⟩] } }) with nowNs := 100000000000000 } : State), 0, ⟨0, .fence, ⟨0x20, true⟩, 0, 0x80000000, 0x10000, 4, false, 0, false, 0, 0⟩, by decide +kernel⟩,
   ⟨(let s0 := State.reset; ({ s0 with hbr := { s0.hbr with posted := [(⟨0, false, 0, 0, 0, ⟨0x20, true⟩, []⟩ : HbrPosted)] } } : State)), 0, ⟨0, false, 0, 0, 0, ⟨0x20, true⟩, []⟩, by decide +kernel⟩,
   ⟨(let s := linkUp1 (owin State.reset 0); { s with hbr := { s.hbr with requests := List.replicate 224 ⟨0, .read, ⟨0x20, true⟩, 0, 0x80000000, 0, 4, false, 0, false, 0, 0⟩ } }), ⟨0x20, true⟩, 0, (winGet (((let s := linkUp1 (owin State.reset 0); { s with hbr := { s.hbr with requests := List.replicate 224 ⟨0, .read, ⟨0x20, true⟩, 0, 0x80000000, 0, 4, false, 0, false, 0, 0⟩ } }) : State).outWindow 0)), by decide +kernel⟩,
   ⟨linkUp1 (owin State.reset 0), ⟨0x20, true⟩, 0, (winGet ((linkUp1 (owin State.reset 0) : State).outWindow 0)), by decide +kernel⟩,
   ⟨(owin State.reset 0), ⟨0x20, true⟩, 0, (winGet (((owin State.reset 0) : State).outWindow 0)), by decide +kernel⟩,
   ⟨(State.setBit State.reset Reg.HBR_FENCESTAT 0 false), ⟨0x20, true⟩, 0, by decide +kernel⟩,
   ⟨(let s0 := State.reset; ({ s0 with hbr := { s0.hbr with requests := ([] : List HbrRequest) ++ (({ (⟨5, .read, ⟨0x20, true⟩, 0, 0x80000000, 0, 4, false, 0, false, 0, 0⟩ : HbrRequest) with kind := .fence }) : HbrRequest) :: ([] : List HbrRequest) } } : State)), [], [], ({ (⟨5, .read, ⟨0x20, true⟩, 0, 0x80000000, 0, 4, false, 0, false, 0, 0⟩ : HbrRequest) with kind := .fence }), by decide +kernel⟩,
   ⟨(let s0 := State.reset; ({ s0 with hbr := { s0.hbr with prefetched := [({ win := 0, indigo := true, addr := 0, bus := 0, bytes := [] } : PfBlock)] } } : State)), 0, { win := 0, indigo := true, addr := 0, bus := 0, bytes := [] }, by decide +kernel⟩,
   ⟨({ (let s0 := State.reset; ({ s0 with hbr := { s0.hbr with prefetched := [({ win := 0, indigo := true, addr := 0, bus := 0, bytes := [] } : PfBlock)] } } : State)) with nowNs := 100000000000000 } : State), 0, { win := 0, indigo := true, addr := 0, bus := 0, bytes := [] }, by decide +kernel⟩,
   ⟨State.reset, 0, by decide +kernel⟩⟩

/-- States and operands that meet the hypotheses of the clauses of InboundRequestsComplete. -/
theorem witness_InboundRequestsComplete :
    (∃ (s : State) (bs : List (Option Byte)), s.linkUp = false ∨ s.blkAccepts 0x1E = false ∨ 512 < bs.length) ∧
    (∃ (s : State) (b : Bool) (a : BitVec 64) (bs : List (Option Byte)), s.linkUp = true ∧ s.blkAccepts 0x1E = true ∧ bs.length ≤ 512 ∧ s.inboundWindow b a.toNat (max 1 bs.length) = none) ∧
    (∃ (s : State) (b : Bool) (a : BitVec 64) (w : Nat) (x : Window), s.linkUp = true ∧ s.blkAccepts 0x1E = true ∧ s.inboundWindow b a.toNat 1 = some (w, x) ∧ x.lanes = 0 ∧ (let l := x.target + (a.toNat - x.base); targetOf l = .sram ∧ s.memCheckRange (bridgeMaster x.indigo) l 1 .write = none ∧ s.memCheckRange (bridgeMaster x.indigo) l 1 .read = none ∧ s.badMem l 1 = none)) :=
  ⟨⟨(State.setBit State.reset Reg.HBR_PSTAT 0 false), [], by decide +kernel⟩,
   ⟨(State.setBit (State.setBit State.reset Reg.HBR_PSTAT 0 true) (Reg.BLK_CTRL 0x1E) 0 true), true, 0, [], by decide +kernel⟩,
   ⟨(linkUp1 (iwin State.reset 128)).setBit (Reg.BLK_CTRL 0x1E) 0 true, false, 0x80000010, 0, (winGet (((linkUp1 (iwin State.reset 128)).setBit (Reg.BLK_CTRL 0x1E) 0 true : State).inWindow 0)), by decide +kernel⟩⟩

/-- States and operands that meet the hypotheses of the clauses of ComputeCommandsComplete. -/
theorem witness_ComputeCommandsComplete :
    (∃ (s : State) (u : Fin 6) (v : Word), s.unitThere u.val = true ∧ getBits v 0 6 < 48 ∧ s.home (getBits v 0 6) = u.val) ∧
    (∃ (s : State) (u : Fin 6) (v : Word), s.unitThere u.val = true ∧ 48 ≤ getBits v 0 6 ∨ s.home (getBits v 0 6) ≠ u.val) ∧
    (∃ (s : State) (u : Fin 6), s.unitThere u.val = false) ∧
    (∃ (s : State) (m : Master) (n : BitVec 9), s.admits m Reg.CPX_SWIRQ ∧ 384 ≤ n.toNat) ∧
    (∃ (s : State) (m : Master) (n : BitVec 9), s.admits m Reg.CPX_SWIRQ ∧ n.toNat < 384) ∧
    (∃ (s : State) (m : Master) (u : Fin 6), s.admits m (pairKey u.val) ∧ s.unitThere u.val = true ∧ s.mainUnit ≠ u.val ∧ s.unitState u.val = 0) ∧
    (∃ (s : State) (m : Master) (u : Fin 6), s.admits m (pairKey u.val) ∧ s.unitThere u.val = false ∨ s.mainUnit = u.val) ∧
    (∃ (s : State) (u : Fin 6), s.unitState u.val = 1 ∧ u.val ≠ 0 ∨ s.flt.faultN0Start = false) ∧
    (∃ (s : State), s.unitState 0 = 1 ∧ s.flt.faultN0Start = true) ∧
    (∃ (s : State) (u : Fin 6), s.unitState u.val ≠ 1) ∧
    (∃ (s : State) (u : Fin 6), s.isPair u.val = true ∧ s.unitState u.val = 2 ∧ s.within (Store.get (fun _ => none) s.cpx.spareAt u.val) 3600000000000 = false ∧ s.canSurvive (twin u.val) = true) ∧
    (∃ (s : State) (u : Fin 6), s.isPair u.val = true ∧ s.unitState u.val = 2 ∧ s.within (Store.get (fun _ => none) s.cpx.spareAt u.val) 3600000000000 = false ∧ s.canSurvive (twin u.val) = false) ∧
    (∃ (s : State) (u : Fin 6), s.isPair u.val = true ∧ s.unitState u.val = 2 ∧ s.within (Store.get (fun _ => none) s.cpx.spareAt u.val) 3600000000000 = true) ∧
    (∃ (s : State) (u : Fin 6), s.unitState u.val = 4 ∧ Store.get (fun _ => 0) s.cpx.isolatedAt u.val + 10000000 ≤ s.nowNs) ∧
    (∃ (s : State) (u : Fin 6), s.unitState u.val ≠ 4 ∨ s.nowNs < Store.get (fun _ => 0) s.cpx.isolatedAt u.val + 10000000) ∧
    (∃ (s : State) (u : Fin 6), s.isPair u.val = true ∧ s.unitState u.val = 2 ∧ s.within (Store.get (fun _ => none) s.cpx.latentAt u.val) 100000000 = false) ∧
    (∃ (s : State) (u : Fin 6), s.isPair u.val = true ∧ s.unitState u.val = 2 ∧ s.within (Store.get (fun _ => none) s.cpx.latentAt u.val) 100000000 = true) ∧
    (∃ (s : State) (u : Fin 6), s.unitState u.val = 5) ∧
    (∃ (s : State) (u : Fin 6), s.unitState u.val ≠ 5) ∧
    (∃ (s : State) (m : Master) (p : BitVec 6), s.admits m Reg.CPX_CKPTCOMMIT ∧ p.toNat < 48) ∧
    (∃ (s : State) (m : Master), s.admits m Reg.CPX_DBGCTL ∧ s.vaultState ≠ 3 ∧ (let c := s.regBytes (Reg.CPX_DBGCERT 0) 228; s.certCheck c ≠ 0)) ∧
    (∃ (s : State), s.fld Reg.CPX_DBGCTL 0 7 ≠ 0 ∧ s.cpx.notAfter < s.rtcSec) ∧
    (∃ (s : State), s.fld Reg.CPX_DBGCTL 0 7 = 0 ∨ s.rtcSec ≤ s.cpx.notAfter) ∧
    (∃ (s : State) (u : Fin 6), s.mayHalt u.val = true ∧ s.unitState u.val = 2) ∧
    (∃ (s : State) (u : Fin 6), s.mayHalt u.val = true ∧ s.unitState u.val = 3) ∧
    (∃ (s : State) (u : Fin 6), s.mayHalt u.val = false) :=
  ⟨⟨State.reset, 0, 0, by decide +kernel⟩,
   ⟨State.reset, 0, 48, by decide +kernel⟩,
   ⟨State.reset, 2, by decide +kernel⟩,
   ⟨State.reset, ⟨0x20, true⟩, 384, by decide +kernel⟩,
   ⟨State.reset, ⟨0x20, true⟩, 0, by decide +kernel⟩,
   ⟨State.reset.setUnit 1 0, ⟨0x20, true⟩, 1, by decide +kernel⟩,
   ⟨State.reset, ⟨0x20, true⟩, 0, by decide +kernel⟩,
   ⟨State.reset.setUnit 1 1, 1, by decide +kernel⟩,
   ⟨(let s0 := (State.setUnit State.reset 0 1); ({ s0 with flt := { s0.flt with faultN0Start := true } } : State)), by decide +kernel⟩,
   ⟨State.reset, 0, by decide +kernel⟩,
   ⟨(State.setUnit State.reset (0 : Fin 6).val 2), 0, by decide +kernel⟩,
   ⟨(State.reset.setUnit 4 2).setUnit 5 1, 4, by decide +kernel⟩,
   ⟨(let s := State.reset.setUnit 4 2; { s with cpx := { s.cpx with spareAt := Store.set (fun _ => none) s.cpx.spareAt 4 (some 0) } }), 4, by decide +kernel⟩,
   ⟨({ (State.setUnit State.reset (0 : Fin 6).val 4) with nowNs := 100000000000000 } : State), 0, by decide +kernel⟩,
   ⟨State.reset, 0, by decide +kernel⟩,
   ⟨(State.setUnit State.reset (0 : Fin 6).val 2), 0, by decide +kernel⟩,
   ⟨(let s := State.reset.setUnit 4 2; { s with cpx := { s.cpx with latentAt := Store.set (fun _ => none) s.cpx.latentAt 4 (some 0) } }), 4, by decide +kernel⟩,
   ⟨(State.setUnit State.reset (0 : Fin 6).val 5), 0, by decide +kernel⟩,
   ⟨State.reset, 0, by decide +kernel⟩,
   ⟨State.reset, ⟨0x20, true⟩, 0, by decide +kernel⟩,
   ⟨State.reset, ⟨0x20, true⟩, by decide +kernel⟩,
   ⟨(let s0 := ((State.setFld State.reset Reg.CPX_DBGCTL 0 7 1)).setBit Reg.WAK_RTCSUB 31 true; { s0 with rtc := { ticks := 32768 * 100, since := 0 } }), by decide +kernel⟩,
   ⟨(State.setFld State.reset Reg.CPX_DBGCTL 0 7 0), by decide +kernel⟩,
   ⟨(State.setUnit (State.setFld State.reset Reg.CPX_DBGCTL 0 3 7) (0 : Fin 6).val 2), 0, by decide +kernel⟩,
   ⟨(State.setUnit (State.setFld State.reset Reg.CPX_DBGCTL 0 3 7) (0 : Fin 6).val 3), 0, by decide +kernel⟩,
   ⟨State.reset, 0, by decide +kernel⟩⟩

/-- States and operands that meet the hypotheses of the clauses of WakeCommandsComplete. -/
theorem witness_WakeCommandsComplete :
    (∃ (s : State) (p : Fin 4) (up : Bool), s.fld Reg.WAK_PINCFG (2 * p.val) 2 = 3 ∨ s.fld Reg.WAK_PINCFG (2 * p.val) 2 = (if up = true then 1 else 2)) ∧
    (∃ (s : State) (p : Fin 4) (up : Bool), s.fld Reg.WAK_PINCFG (2 * p.val) 2 = 0 ∨ s.fld Reg.WAK_PINCFG (2 * p.val) 2 = (if up = true then 2 else 1)) ∧
    (∃ (s : State), s.sourceEnabled 2 = false ∧ s.bit Reg.WAK_SLEEPCFG 1 = false) ∧
    (∃ (s : State), s.cur = 1 ∧ s.trans = false ∧ s.sourceEnabled 2 = true ∧ s.wRunning = false ∧ s.phase ≠ 3 ∧ s.wak.waking = none) ∧
    (∃ (s : State), s.agentRuns = true ∧ s.bit Reg.WAK_RINGCFG 0 = false ∧ s.phase = 0 ∧ s.trans = false ∧ s.bit Reg.WAK_EPOCH 18 = false ∧ s.fld Reg.WAK_CONSENT 0 16 = 0 ∧ s.wcons = true) ∧
    (∃ (s : State) (a : Fin 2), s.bit (Reg.WAK_ALARM_en a.val) 0 = true) ∧
    (∃ (s : State) (a : Fin 2), s.bit (Reg.WAK_ALARM_en a.val) 0 = false) ∧
    (∃ (s : State), s.fld Reg.WAK_WTMR 0 16 ≠ 0 ∧ s.wak.timerAt + 1000000 * s.fld Reg.WAK_WTMR 0 16 ≤ s.nowNs ∧ s.wActive = true ∧ s.threadReady 200 = true) ∧
    (∃ (s : State) (rd : Nat) (mask : Word), s.fld Reg.WAK_WTMR 0 16 ≠ 0 ∧ s.wak.timerAt + 1000000 * s.fld Reg.WAK_WTMR 0 16 ≤ s.nowNs ∧ s.wActive = true ∧ (s.thread 200).status = .waiting (.event rd mask) ∧ getBit mask 16 = true ∧ rd ≠ 0) ∧
    (∃ (s : State), s.wActive = false ∧ s.fld Reg.WAK_WTMR 0 16 ≠ 0 ∧ s.wak.timerAt + 1000000 * s.fld Reg.WAK_WTMR 0 16 ≤ s.nowNs) ∧
    (∃ (s : State), s.fld Reg.WAK_WTMR 0 16 = 0 ∨ s.nowNs < s.wak.timerAt + 1000000 * s.fld Reg.WAK_WTMR 0 16) ∧
    (∃ (s : State) (m : Master), s.admits m Reg.WAK_RTCCTL ∧ s.edgeBehind 0x26 = false) ∧
    (∃ (s : State) (m : Master) (v : BitVec 16), s.admits m Reg.WAK_CONSENT ∧ s.edgeBehind 0x26 = false ∧ s.fld Reg.WAK_CONSENT 0 16 ≠ 0 ∧ v.toNat ≠ 0 ∧ s.agentRuns = false) ∧
    (∃ (s : State) (m : Master) (v : BitVec 16), s.admits m Reg.WAK_CONSENT ∧ s.edgeBehind 0x26 = false ∧ s.fld Reg.WAK_CONSENT 0 16 = 0 ∧ v.toNat ≠ 0 ∧ 2 ≤ s.cur ∧ s.phase ≠ 3 ∧ s.wak.seg.mine = false ∧ s.wak.deadline = none) ∧
    (∃ (s : State) (m : Master), s.admits m Reg.WAK_CONSENT ∧ s.edgeBehind 0x26 = true) ∧
    (∃ (s : State) (ra : Gpr), s.canIssue 200 [.w] ∧ (let code := getBits (s.gr 200 ra) 0 4; code = 0 ∧ s.cur = 1 ∧ s.trans = false)) ∧
    (∃ (s : State) (ra : Gpr), s.canIssue 200 [.w] ∧ (let code := getBits (s.gr 200 ra) 0 4; code = 0 ∧ 2 ≤ s.cur ∧ s.agentRuns = false)) ∧
    (∃ (s : State) (ra : Gpr), s.canIssue 200 [.w] ∧ (let code := getBits (s.gr 200 ra) 0 4; code = 1 ∧ s.cur < 2)) ∧
    (∃ (s : State) (ra : Gpr), s.canIssue 200 [.w] ∧ (let code := getBits (s.gr 200 ra) 0 4; code = 1 ∧ 2 ≤ s.cur ∧ s.agentRuns = false)) ∧
    (∃ (s : State) (ra : Gpr), s.canIssue 200 [.w] ∧ (let code := getBits (s.gr 200 ra) 0 4; code = 2 ∧ s.cur < 2 ∧ s.trans = false)) ∧
    (∃ (s : State) (ra : Gpr), s.canIssue 200 [.w] ∧ (let code := getBits (s.gr 200 ra) 0 4; code = 2 ∧ 2 ≤ s.cur ∧ s.agentRuns = false ∧ s.wcons = false)) ∧
    (∃ (s : State) (ra : Gpr), s.canIssue 200 [.w] ∧ (let code := getBits (s.gr 200 ra) 0 4; code = 2 ∧ 2 ≤ s.cur ∧ s.wcons = true ∧ s.phase ≠ 3 ∧ s.wak.seg.mine = false ∧ s.wak.deadline = none)) ∧
    (∃ (s : State) (ra : Gpr), s.canIssue 200 [.w] ∧ (let code := getBits (s.gr 200 ra) 0 4; code = 3 ∧ s.cur < 2 ∧ s.trans = false)) ∧
    (∃ (s : State) (ra : Gpr), s.canIssue 200 [.w] ∧ (let code := getBits (s.gr 200 ra) 0 4; code = 3 ∧ 2 ≤ s.cur ∧ s.trans = false ∧ s.wcons = false ∧ s.sourceEnabled 10 = false)) ∧
    (∃ (s : State) (ra : Gpr), s.canIssue 200 [.w] ∧ (let code := getBits (s.gr 200 ra) 0 4; 4 ≤ code)) :=
  ⟨⟨(State.setFld State.reset Reg.WAK_PINCFG (2 * (0 : Fin 4).val) 2 3), 0, true, by decide +kernel⟩,
   ⟨(State.setFld State.reset Reg.WAK_PINCFG (2 * (0 : Fin 4).val) 2 0), 0, true, by decide +kernel⟩,
   ⟨(State.setBit (State.setBit State.reset Reg.WAK_SRCEN 2 false) Reg.WAK_SLEEPCFG 1 false), by decide +kernel⟩,
   ⟨(let s0 := (let s0 := (State.setBit (State.setFld State.reset Reg.WAK_STATE 0 2 1) Reg.WAK_STATE 4 false); (({ s0 with wak := { s0.wak with srcen := s0.wak.srcen ||| 2 ^ 2 } } : State).setBit Reg.WAK_SRCEN 2 true)); ({ s0 with wak := { s0.wak with waking := none } } : State)), by decide +kernel⟩,
   ⟨(State.setFld (State.setBit (State.setBit (State.setFld (State.setBit (State.setFld State.reset Reg.WAK_STATE 0 2 3) Reg.WAK_RINGCFG 0 false) Reg.WAK_EPOCH 16 2 0) Reg.WAK_STATE 4 false) Reg.WAK_EPOCH 18 false) Reg.WAK_CONSENT 0 16 0), by decide +kernel⟩,
   ⟨(State.setBit State.reset (Reg.WAK_ALARM_en (0 : Fin 2).val) 0 true), 0, by decide +kernel⟩,
   ⟨(State.setBit State.reset (Reg.WAK_ALARM_en (0 : Fin 2).val) 0 false), 0, by decide +kernel⟩,
   ⟨({ (((thr 200 {}).setFld Reg.WAK_STATE 0 2 1).setFld Reg.WAK_WTMR 0 16 5) with nowNs := 100000000000000 } : State), by decide +kernel⟩,
   ⟨({ (((State.reset.setThread 200 { status := .waiting (.event 1 0x10000) }).setFld Reg.WAK_STATE 0 2 1).setFld Reg.WAK_WTMR 0 16 5) with nowNs := 100000000000000 } : State), 1, 0x10000, by decide +kernel⟩,
   ⟨({ ({ State.reset.setFld Reg.WAK_WTMR 0 16 5 with nowNs := 10000000000 }) with nowNs := 100000000000000 } : State), by decide +kernel⟩,
   ⟨(State.setFld State.reset Reg.WAK_WTMR 0 16 0), by decide +kernel⟩,
   ⟨State.reset, ⟨0x20, true⟩, by decide +kernel⟩,
   ⟨({ State.reset.setFld Reg.WAK_CONSENT 0 16 5 with coreHeld := true }), ⟨0x20, true⟩, 3, by decide +kernel⟩,
   ⟨((State.reset.setFld Reg.WAK_CONSENT 0 16 0).setFld Reg.WAK_STATE 0 2 3), ⟨0x20, true⟩, 3, by decide +kernel⟩,
   ⟨{ State.reset with edgeQueue := [⟨⟨0x20, true⟩, 0x41C00020, 0x1C00020, 0, false, none⟩] }, ⟨0x20, true⟩, by decide +kernel⟩,
   ⟨(State.setBit (State.setFld (readyAt State.reset 200) Reg.WAK_STATE 0 2 1) Reg.WAK_STATE 4 false), 0, by decide +kernel⟩,
   ⟨(let s0 := (State.setFld (readyAt State.reset 200) Reg.WAK_STATE 0 2 3); ({ s0 with coreHeld := true } : State)), 0, by decide +kernel⟩,
   ⟨(((thr 200 { regs := [(1, 1)] }).setFld Reg.WAK_STATE 0 2 1)), 1, by decide +kernel⟩,
   ⟨(let s := (((thr 200 { regs := [(1, 1)] }).setFld Reg.WAK_STATE 0 2 2)); { s with coreHeld := true }), 1, by decide +kernel⟩,
   ⟨(((thr 200 { regs := [(1, 2)] }).setFld Reg.WAK_STATE 0 2 1)), 1, by decide +kernel⟩,
   ⟨((let s := (((thr 200 { regs := [(1, 2)] }).setFld Reg.WAK_STATE 0 2 2)); { s with coreHeld := true }).setBit Reg.WAK_CONSENT 16 false), 1, by decide +kernel⟩,
   ⟨(((thr 200 { regs := [(1, 2)] }).setFld Reg.WAK_STATE 0 2 2)), 1, by decide +kernel⟩,
   ⟨(((thr 200 { regs := [(1, 3)] }).setFld Reg.WAK_STATE 0 2 1)), 1, by decide +kernel⟩,
   ⟨((((thr 200 { regs := [(1, 3)] }).setFld Reg.WAK_STATE 0 2 2)).setBit Reg.WAK_CONSENT 16 false), 1, by decide +kernel⟩,
   ⟨(((thr 200 { regs := [(1, 4)] }).setFld Reg.WAK_STATE 0 2 1)), 1, by decide +kernel⟩⟩

/-- States and operands that meet the hypotheses of the clauses of ChairliftCommandsComplete. -/
theorem witness_ChairliftCommandsComplete :
    (∃ (s : State), s.agentRuns = false) ∧
    (∃ (s : State) (p : List Byte) (a : Bool) (c : Bool), s.agentRuns = true ∧ parseChair .chair p a c = none) ∧
    (∃ (s : State) (p : List Byte) (a : Bool) (c : Bool), s.agentRuns = true ∧ parseChair .commit p a c = none) ∧
    (∃ (s : State) (p : List Byte) (a : Bool) (c : Bool), s.agentRuns = true ∧ parseChair .abort p a c = none) ∧
    (∃ (s : State), s.agentRuns = true ∧ s.bit Reg.WAK_RINGCFG 0 = true ∧ s.bit Reg.WAK_RINGCFG 1 = true ∧ s.phase = 0 ∧ s.consent = true ∧ s.bit Reg.WAK_EPOCH 19 = false ∧ s.wak.seg.origin = false) ∧
    (∃ (s : State) (p : List Byte) (a : Bool) (c : Bool) (x : Chair), s.agentRuns = true ∧ s.phase = 0 ∧ s.bit Reg.WAK_RINGCFG 0 = true ∧ parseChair .chair p a c = some x ∧ s.concerns x = true ∧ x.top = false ∧ x.epoch = s.epoch ∧ s.wak.seg.origin = false ∧ predecessor (s.ringMap false) x.ovr (s.ringPlace false) = some (placeOf false x.sender) ∧ Nat.testBit x.ovr (s.ringPlace false) = false ∧ s.consent = true) ∧
    (∃ (s : State) (p : List Byte) (a : Bool) (c : Bool) (x : Chair), s.agentRuns = true ∧ s.phase = 0 ∧ s.bit Reg.WAK_RINGCFG 0 = true ∧ parseChair .chair p a c = some x ∧ s.concerns x = true ∧ x.top = false ∧ x.epoch = s.epoch ∧ s.wak.seg.origin = false ∧ predecessor (s.ringMap false) x.ovr (s.ringPlace false) = some (placeOf false x.sender) ∧ Nat.testBit x.ovr (s.ringPlace false) = false ∧ s.consent = false) ∧
    (∃ (s : State) (p : List Byte) (a : Bool) (c : Bool) (x : Chair), s.agentRuns = true ∧ s.phase < 2 ∧ s.bit Reg.WAK_RINGCFG 0 = true ∧ parseChair .commit p a c = some x ∧ s.concerns x = true ∧ x.top = false ∧ x.epoch = s.epoch ∧ s.bit Reg.WAK_EPOCH 18 = false ∧ s.wak.seg.mine = true) ∧
    (∃ (s : State) (p : List Byte) (a : Bool) (c : Bool) (x : Chair), s.agentRuns = true ∧ s.phase < 2 ∧ s.bit Reg.WAK_RINGCFG 0 = true ∧ parseChair .commit p a c = some x ∧ s.concerns x = true ∧ x.top = false ∧ x.epoch = s.epoch ∧ s.bit Reg.WAK_EPOCH 18 = true) ∧
    (∃ (s : State) (p : List Byte) (a : Bool) (c : Bool) (x : Chair), s.agentRuns = true ∧ parseChair .abort p a c = some x ∧ s.concerns x = true ∧ s.phase ≠ 3 ∧ s.deadlineCome = false ∧ epochNewer x.epoch s.epoch = true) ∧
    (∃ (s : State) (p : List Byte) (a : Bool) (c : Bool) (x : Chair), s.agentRuns = true ∧ parseChair .abort p a c = some x ∧ s.concerns x = true ∧ s.phase ≠ 3 ∧ s.deadlineCome = false ∧ epochNewer x.epoch s.epoch = false) ∧
    (∃ (s : State) (p : List Byte) (a : Bool) (c : Bool) (x : Chair), s.agentRuns = true ∧ parseChair .abort p a c = some x ∧ s.deadlineCome = true) ∧
    (∃ (s : State) (x : Chair), s.agentRuns = true ∧ s.wak.seg.origin = true ∧ s.wak.seg.newest = some x ∧ s.wak.maxed = false ∧ s.wak.seg.seenAt + 1000000 * Nat.max 1 (s.fld Reg.WAK_RINGCFG 16 8) ≤ s.nowNs) ∧
    (∃ (s : State), s.nowNs < s.wak.seg.seenAt + 1000000 * Nat.max 1 (s.fld Reg.WAK_RINGCFG 16 8)) ∧
    (∃ (s : State), s.agentRuns = true ∧ s.bit Reg.WAK_RINGCFG 0 = true ∧ s.bit Reg.WAK_RINGCFG 2 = true ∧ s.consent = true ∧ s.bit Reg.WAK_EPOCH 19 = false ∧ s.phase ≠ 3 ∧ s.wak.seg.origin = false ∧ s.leaderSilent = true) ∧
    (∃ (s : State), s.leaderSilent = false) ∧
    (∃ (s : State), s.agentRuns = true ∧ s.consent = false ∧ s.wak.seg.newest = none ∧ s.wak.topRing.newest = none ∧ s.wak.seg.held = none ∧ s.wak.topRing.held = none ∧ s.wak.maxed = false ∧ s.maxawakeDue = true) ∧
    (∃ (s : State), s.wak.maxed = true ∨ s.maxawakeDue = false) ∧
    (∃ (s : State) (d : Nat), s.wak.deadline = some d ∧ d ≤ s.nowNs ∧ 2 ≤ s.cur ∧ s.phase = 2) ∧
    (∃ (s : State), s.deadlineCome = false ∨ s.cur < 2 ∨ s.phase ≠ 2) ∧
    (∃ (s : State) (prev : Nat) (r : Nat), r < 32 ∧ s.wak.wokeFrom = some (prev, some r) ∧ s.consent = true ∧ s.wak.quietSince + 100000000 * clampNat 1 600 (s.fld Reg.WAK_TIMERS 0 10) ≤ s.nowNs ∧ 2 ≤ s.cur ∧ s.phase ≠ 3 ∧ s.trans = false) ∧
    (∃ (s : State), s.wak.wokeFrom = none ∨ s.falseWake = false) ∧
    (∃ (s : State) (d : Nat), s.wak.lateAbort = some d ∧ d + 1000000 ≤ s.nowNs ∧ s.agentRuns = true) ∧
    (∃ (s : State), s.dowakeDue = false) :=
  ⟨⟨(let s0 := State.reset; ({ s0 with coreHeld := true } : State)), by decide +kernel⟩,
   ⟨(State.setFld State.reset Reg.WAK_STATE 0 2 3), [], true, true, by decide +kernel⟩,
   ⟨(State.setFld State.reset Reg.WAK_STATE 0 2 3), [], true, true, by decide +kernel⟩,
   ⟨(State.setFld State.reset Reg.WAK_STATE 0 2 3), [], true, true, by decide +kernel⟩,
   ⟨(let s0 := (State.setBit (State.setFld (State.setBit (State.setBit (State.setFld State.reset Reg.WAK_STATE 0 2 3) Reg.WAK_RINGCFG 0 true) Reg.WAK_RINGCFG 1 true) Reg.WAK_EPOCH 16 2 0) Reg.WAK_EPOCH 19 false); ({ s0 with wak := { s0.wak with seg := { s0.wak.seg with origin := false } } } : State)), by decide +kernel⟩,
   ⟨(((((State.reset.setFld Reg.WAK_STATE 0 2 3).setBit Reg.WAK_RINGCFG 0 true).setFld Reg.WAK_NODEID 0 16 5).wrN (Reg.WAK_SEGMAP 0) 0x28).setBit Reg.WAK_CONSENT 17 true), chairPayload .chair { epoch := 0, segment := 0, sender := 3 }, false, false, { epoch := 0, segment := 0, sender := 3 }, by decide +kernel⟩,
   ⟨(let s := ((((State.reset.setFld Reg.WAK_STATE 0 2 3).setBit Reg.WAK_RINGCFG 0 true).setFld Reg.WAK_NODEID 0 16 5).wrN (Reg.WAK_SEGMAP 0) 0x28).setBit Reg.WAK_CONSENT 17 false; s.setFld Reg.WAK_CONSENT 0 16 5), chairPayload .chair { epoch := 0, segment := 0, sender := 3 }, false, false, { epoch := 0, segment := 0, sender := 3 }, by decide +kernel⟩,
   ⟨(let s := ((((State.reset.setFld Reg.WAK_STATE 0 2 3).setBit Reg.WAK_RINGCFG 0 true).setFld Reg.WAK_NODEID 0 16 5).wrN (Reg.WAK_SEGMAP 0) 0x28); { s with wak := { s.wak with seg := { mine := true } } }), chairPayload .commit { epoch := 0, segment := 0, sender := 3 }, false, false, { epoch := 0, segment := 0, sender := 3 }, by decide +kernel⟩,
   ⟨(((((State.reset.setFld Reg.WAK_STATE 0 2 3).setBit Reg.WAK_RINGCFG 0 true).setFld Reg.WAK_NODEID 0 16 5).wrN (Reg.WAK_SEGMAP 0) 0x28).setBit Reg.WAK_EPOCH 18 true), chairPayload .commit { epoch := 0, segment := 0, sender := 3 }, false, false, { epoch := 0, segment := 0, sender := 3 }, by decide +kernel⟩,
   ⟨((((State.reset.setFld Reg.WAK_STATE 0 2 3).setBit Reg.WAK_RINGCFG 0 true).setFld Reg.WAK_NODEID 0 16 5).wrN (Reg.WAK_SEGMAP 0) 0x28), chairPayload .abort { epoch := 1, segment := 0, sender := 3 }, false, false, { epoch := 1, segment := 0, sender := 3 }, by decide +kernel⟩,
   ⟨((((State.reset.setFld Reg.WAK_STATE 0 2 3).setBit Reg.WAK_RINGCFG 0 true).setFld Reg.WAK_NODEID 0 16 5).wrN (Reg.WAK_SEGMAP 0) 0x28), chairPayload .abort { epoch := 0, segment := 0, sender := 3 }, false, false, { epoch := 0, segment := 0, sender := 3 }, by decide +kernel⟩,
   ⟨(let s := State.reset.setFld Reg.WAK_STATE 0 2 3; { s with wak := { s.wak with deadline := some 0 } }), chairPayload .abort { epoch := 0, segment := 0, sender := 3 }, false, false, { epoch := 0, segment := 0, sender := 3 }, by decide +kernel⟩,
   ⟨({ (let s0 := (let s0 := (let s0 := (State.setFld State.reset Reg.WAK_STATE 0 2 3); ({ s0 with wak := { s0.wak with seg := { s0.wak.seg with origin := true } } } : State)); ({ s0 with wak := { s0.wak with seg := { s0.wak.seg with newest := some ({} : Chair) } } } : State)); ({ s0 with wak := { s0.wak with maxed := false } } : State)) with nowNs := 100000000000000 } : State), {}, by decide +kernel⟩,
   ⟨State.reset, by decide +kernel⟩,
   ⟨({ (let s0 := (State.setBit (State.setBit (State.setBit (State.setFld State.reset Reg.WAK_STATE 0 2 3) Reg.WAK_RINGCFG 0 true) Reg.WAK_RINGCFG 2 true) Reg.WAK_EPOCH 19 false); ({ s0 with wak := { s0.wak with seg := { s0.wak.seg with origin := false } } } : State)) with nowNs := 100000000000000 } : State), by decide +kernel⟩,
   ⟨State.reset, by decide +kernel⟩,
   ⟨({ (let s0 := ((State.reset.setFld Reg.WAK_STATE 0 2 3).setFld Reg.WAK_CONSENT 0 16 5); { s0 with wak := { s0.wak with chairAt := some 0 } }) with nowNs := 100000000000000 } : State), by decide +kernel⟩,
   ⟨(let s0 := State.reset; ({ s0 with wak := { s0.wak with maxed := true } } : State)), by decide +kernel⟩,
   ⟨({ (State.setFld (State.setFld (let s0 := State.reset; ({ s0 with wak := { s0.wak with deadline := some (0 : Nat) } } : State)) Reg.WAK_STATE 0 2 3) Reg.WAK_EPOCH 16 2 2) with nowNs := 100000000000000 } : State), 0, by decide +kernel⟩,
   ⟨State.reset, by decide +kernel⟩,
   ⟨({ (State.setBit (State.setFld (let s0 := State.reset; ({ s0 with wak := { s0.wak with wokeFrom := some ((0 : Nat), some (0 : Nat)) } } : State)) Reg.WAK_STATE 0 2 3) Reg.WAK_STATE 4 false) with nowNs := 100000000000000 } : State), 0, 0, by decide +kernel⟩,
   ⟨(let s0 := State.reset; ({ s0 with wak := { s0.wak with wokeFrom := none } } : State)), by decide +kernel⟩,
   ⟨({ (State.setFld (let s0 := State.reset; ({ s0 with wak := { s0.wak with lateAbort := some (0 : Nat) } } : State)) Reg.WAK_STATE 0 2 3) with nowNs := 100000000000000 } : State), 0, by decide +kernel⟩,
   ⟨State.reset, by decide +kernel⟩⟩

/-- States and operands that meet the hypotheses of the clauses of UpdateSessionCommandsComplete. -/
theorem witness_UpdateSessionCommandsComplete :
    (∃ (s : State) (m : Master) (ch : Fin 3) (c : _), s.admits m (Reg.BOOT_SCMD ch.val) ∧ s.updateBusy ch.val = true ∧ c ∈ [Instr.openImage m ch, .stream m ch, .finish m ch, .arm m ch, .sessionAbort m ch]) ∧
    (∃ (s : State) (m : Master) (ch : Fin 3), s.admits m (Reg.BOOT_SCMD ch.val) ∧ s.updateBusy ch.val = false ∧ s.session ≠ 0 ∧ s.lockHolder ≠ ch.val) ∧
    (∃ (s : State) (m : Master) (ch : Fin 3), s.admits m (Reg.BOOT_SCMD ch.val) ∧ (let n := (s.updateData ch.val).2; s.updateBusy ch.val = false ∧ s.session = 0 ∧ 8192 < n)) ∧
    (∃ (s : State) (m : Master) (ch : Fin 3) (c : _), s.admits m (Reg.BOOT_SCMD ch.val) ∧ (let a := (s.updateData ch.val).1; let n := (s.updateData ch.val).2; s.updateBusy ch.val = false ∧ s.session = 0 ∧ n ≤ 8192 ∧ s.memCheckRange patchMaster a n .read = some c)) ∧
    (∃ (s : State) (m : Master) (ch : Fin 3) (x : _), s.admits m (Reg.BOOT_SCMD ch.val) ∧ (let a := (s.updateData ch.val).1; let n := (s.updateData ch.val).2; s.updateBusy ch.val = false ∧ s.session = 0 ∧ n ≤ 8192 ∧ s.memCheckRange patchMaster a n .read = none ∧ s.badMem a n = some x)) ∧
    (∃ (s : State) (m : Master) (ch : Fin 3), s.admits m (Reg.BOOT_SCMD ch.val) ∧ (let a := (s.updateData ch.val).1; let n := (s.updateData ch.val).2; s.updateBusy ch.val = false ∧ s.session = 0 ∧ n ≤ 8192 ∧ s.memCheckRange patchMaster a n .read = none ∧ s.badMem a n = none ∧ targetOf a ≠ .outbound ∧ manifestOk (s.rdBytes a n) = false)) ∧
    (∃ (s : State) (m : Master) (ch : Fin 3), s.admits m (Reg.BOOT_SCMD ch.val) ∧ (let a := (s.updateData ch.val).1; let n := (s.updateData ch.val).2; s.updateBusy ch.val = false ∧ s.session = 0 ∧ n ≤ 8192 ∧ s.memCheckRange patchMaster a n .read = none ∧ s.badMem a n = none ∧ targetOf a ≠ .outbound ∧ manifestOk (s.rdBytes a n) = true)) ∧
    (∃ (s : State) (m : Master) (ch : Fin 3), s.admits m (Reg.BOOT_SCMD ch.val) ∧ (let holds := s.session ≠ 0 ∧ s.lockHolder = ch.val; s.updateBusy ch.val = false ∧ ¬ holds ∨ s.session ≠ 2 ∨ s.boot.complete = true)) ∧
    (∃ (s : State) (m : Master) (ch : Fin 3) (c : _), s.admits m (Reg.BOOT_SCMD ch.val) ∧ (let a := (s.updateData ch.val).1; let n := (s.updateData ch.val).2; let holds := s.session ≠ 0 ∧ s.lockHolder = ch.val; s.updateBusy ch.val = false ∧ holds ∧ s.session = 2 ∧ s.boot.complete = false ∧ s.memCheckRange patchMaster a n .read = some c)) ∧
    (∃ (s : State) (m : Master) (ch : Fin 3), s.admits m (Reg.BOOT_SCMD ch.val) ∧ (let a := (s.updateData ch.val).1; let n := (s.updateData ch.val).2; let holds := s.session ≠ 0 ∧ s.lockHolder = ch.val; s.updateBusy ch.val = false ∧ holds ∧ s.session = 2 ∧ s.boot.complete = false ∧ s.memCheckRange patchMaster a n .read = none ∧ s.badMem a n = none ∧ targetOf a ≠ .outbound)) ∧
    (∃ (s : State) (m : Master) (ch : Fin 3), s.admits m (Reg.BOOT_SCMD ch.val) ∧ (let holds := s.session ≠ 0 ∧ s.lockHolder = ch.val; s.updateBusy ch.val = false ∧ ¬ holds ∨ s.session ≠ 2 ∨ s.boot.complete = false)) ∧
    (∃ (s : State) (m : Master) (ch : Fin 3), s.admits m (Reg.BOOT_SCMD ch.val) ∧ (let holds := s.session ≠ 0 ∧ s.lockHolder = ch.val; s.updateBusy ch.val = false ∧ holds ∧ s.session = 2 ∧ s.boot.complete = true ∧ manFlag s.boot.manifest 2 = false)) ∧
    (∃ (s : State) (m : Master) (ch : Fin 3), s.admits m (Reg.BOOT_SCMD ch.val) ∧ (let holds := s.session ≠ 0 ∧ s.lockHolder = ch.val; s.updateBusy ch.val = false ∧ holds ∧ s.session = 2 ∧ s.boot.complete = true ∧ manFlag s.boot.manifest 2 = true)) ∧
    (∃ (s : State) (m : Master) (ch : Fin 3), s.admits m (Reg.BOOT_SCMD ch.val) ∧ (let holds := s.session ≠ 0 ∧ s.lockHolder = ch.val; s.updateBusy ch.val = false ∧ ¬ holds ∨ s.session ≠ 3)) ∧
    (∃ (s : State) (m : Master) (ch : Fin 3), s.admits m (Reg.BOOT_SCMD ch.val) ∧ (let holds := s.session ≠ 0 ∧ s.lockHolder = ch.val; s.updateBusy ch.val = false ∧ holds ∧ s.session = 3)) ∧
    (∃ (s : State) (m : Master) (ch : Fin 3), s.admits m (Reg.BOOT_SCMD ch.val) ∧ (let holds := s.session ≠ 0 ∧ s.lockHolder = ch.val; s.updateBusy ch.val = false ∧ ¬ holds)) ∧
    (∃ (s : State), s.vlt.running ≠ some bootPath) ∧
    (∃ (s : State), s.vlt.running = some bootPath ∧ s.boot.opens = []) ∧
    (∃ (s : State) (ch : Nat) (man : List Byte) (rest : List (Nat × List Byte)), s.vlt.running = some bootPath ∧ s.boot.opens = (ch, man) :: rest ∧ ch < 3 ∧ (∀ o ∈ rest, o.1 < 3) ∧ s.manVerifies man (natAt man 0xC 1) = false) ∧
    (∃ (s : State), s.session = 0 ∨ 4 ≤ s.session ∨ s.idleSeconds < 600) ∧
    (∃ (s : State), s.session ≠ 0 ∧ s.session < 4 ∧ 600 ≤ s.idleSeconds ∧ s.lockHolder < 3) ∧
    (∃ (s : State) (m : Master), s.admits m Reg.BOOT_CTL ∧ s.trial = true ∧ s.session = 4 ∧ s.fld Reg.BOOT_STATE 5 2 = s.pendingSlot) ∧
    (∃ (s : State) (m : Master), s.admits m Reg.BOOT_CTL ∧ s.trial = false ∨ s.session ≠ 4 ∨ s.fld Reg.BOOT_STATE 5 2 ≠ s.pendingSlot) ∧
    (∃ (s : State) (m : Master), s.admits m Reg.BOOT_CTL ∧ s.session = 0 ∧ s.boot.segment = none) ∧
    (∃ (s : State) (m : Master), s.admits m Reg.BOOT_CTL ∧ s.session ≠ 0 ∧ s.boot.segment = none) :=
  ⟨⟨State.reset.setBit (Reg.BOOT_SSTAT 0) 0 true, ⟨0x20, true⟩, 0, .openImage ⟨0x20, true⟩ 0, by decide +kernel⟩,
   ⟨upd 0x20000000 388 1 1 State.reset, ⟨0x20, true⟩, 0, by decide +kernel⟩,
   ⟨upd 0x20000000 8193 0 0 State.reset, ⟨0x20, true⟩, 0, by decide +kernel⟩,
   ⟨upd 0x30000000 388 0 0 State.reset, ⟨0x20, true⟩, 0, 6, by decide +kernel⟩,
   ⟨{ upd 0x20000000 388 0 0 State.reset with eccBad := [.mram 0x20000010] }, ⟨0x20, true⟩, 0, 0x20000010, by decide +kernel⟩,
   ⟨(State.setFld State.reset Reg.BOOT_SESSION 0 3 0), ⟨0x20, true⟩, 0, by decide +kernel⟩,
   ⟨(upd 0x20000000 388 0 0 State.reset).wrBytes 0x20000000 (manBytes 0 0), ⟨0x20, true⟩, 0, by decide +kernel⟩,
   ⟨State.reset, ⟨0x20, true⟩, 0, by decide +kernel⟩,
   ⟨upd 0x30000000 388 2 0 State.reset, ⟨0x20, true⟩, 0, 6, by decide +kernel⟩,
   ⟨(let s0 := (State.setFld State.reset Reg.BOOT_SESSION 0 3 2); ({ s0 with boot := { s0.boot with complete := false } } : State)), ⟨0x20, true⟩, 0, by decide +kernel⟩,
   ⟨State.reset, ⟨0x20, true⟩, 0, by decide +kernel⟩,
   ⟨(let s0 := (State.setFld State.reset Reg.BOOT_SESSION 0 3 2); ({ s0 with boot := { s0.boot with complete := true } } : State)), ⟨0x20, true⟩, 0, by decide +kernel⟩,
   ⟨(let s := upd 0x20000000 388 2 0 State.reset; { s with boot := { s.boot with complete := true, manifest := manBytes 4 0 } }), ⟨0x20, true⟩, 0, by decide +kernel⟩,
   ⟨State.reset, ⟨0x20, true⟩, 0, by decide +kernel⟩,
   ⟨(State.setFld State.reset Reg.BOOT_SESSION 0 3 3), ⟨0x20, true⟩, 0, by decide +kernel⟩,
   ⟨State.reset, ⟨0x20, true⟩, 0, by decide +kernel⟩,
   ⟨State.reset, by decide +kernel⟩,
   ⟨(let s0 := (let s0 := State.reset; ({ s0 with vlt := { s0.vlt with running := some bootPath } } : State)); ({ s0 with boot := { s0.boot with opens := [] } } : State)), by decide +kernel⟩,
   ⟨(let s0 := (let s0 := State.reset; ({ s0 with vlt := { s0.vlt with running := some bootPath } } : State)); ({ s0 with boot := { s0.boot with opens := ((0 : Nat), ([] : List Byte)) :: ([] : List (Nat × List Byte)) } } : State)), 0, [], [], by decide +kernel⟩,
   ⟨(State.setFld State.reset Reg.BOOT_SESSION 0 3 0), by decide +kernel⟩,
   ⟨({ upd 0x20000000 388 1 0 State.reset with nowNs := 100000000000000 } : State), by decide +kernel⟩,
   ⟨((upd 0 0 4 0 State.reset).setBit Reg.BOOT_STATE 2 true), ⟨0x20, true⟩, by decide +kernel⟩,
   ⟨State.reset, ⟨0x20, true⟩, by decide +kernel⟩,
   ⟨(let s0 := (State.setFld State.reset Reg.BOOT_SESSION 0 3 0); ({ s0 with boot := { s0.boot with segment := none } } : State)), ⟨0x20, true⟩, by decide +kernel⟩,
   ⟨upd 0x20000000 388 1 0 State.reset, ⟨0x20, true⟩, by decide +kernel⟩⟩

/-- States and operands that meet the hypotheses of the clauses of SegmentsInstallOnlyVerifiedBytes. -/
theorem witness_SegmentsInstallOnlyVerifiedBytes :
    (∃ (s : State), s.boot.segment = none) ∧
    (∃ (s : State) (ch : Nat) (bs : List Byte), s.boot.segment = some (ch, bs) ∧ ch < 3 ∧ (let i := s.compNow; let k := s.segNow; s.openSegment i k bs = none)) :=
  ⟨⟨(let s0 := State.reset; ({ s0 with boot := { s0.boot with segment := none } } : State)), by decide +kernel⟩,
   ⟨(let s0 := State.reset; ({ s0 with boot := { s0.boot with segment := some ((0 : Nat), ([] : List Byte)) } } : State)), 0, [], by decide +kernel⟩⟩

/-- States and operands that meet the hypotheses of the clauses of NonvolatileCommandsComplete. -/
theorem witness_NonvolatileCommandsComplete :
    (∃ (s : State) (m : Master), s.admits m Reg.NVS_WDATAH ∧ (let off := s.fld Reg.NVS_WADDR 3 20 * 8; 0x200000 ≤ off ∧ off < 0x400000)) ∧
    (∃ (s : State) (m : Master), s.admits m Reg.NVS_WDATAH ∧ (let off := s.fld Reg.NVS_WADDR 3 20 * 8; off < 0x200000 ∨ 0x400000 ≤ off)) ∧
    (∃ (s : State), s.coreHeld = true ∨ s.bbQueue = []) ∧
    (∃ (s : State) (r : BoxRecord) (rest : List BoxRecord), s.coreHeld = false ∧ s.bbQueue = r :: rest ∧ s.bbLost = 0 ∧ s.flt.resetPending = false) ∧
    (∃ (s : State) (r : BoxRecord) (rest : List BoxRecord), s.coreHeld = false ∧ s.bbQueue = r :: rest ∧ 0 < s.bbLost) ∧
    (∃ (s : State) (r : BoxRecord) (rest : List BoxRecord), s.coreHeld = false ∧ s.bbQueue = r :: rest ∧ s.flt.resetPending = true ∧ rest = []) ∧
    (∃ (s : State) (m : Master), s.admits m Reg.NVS_BBCMD ∧ s.bbQueue.length ≤ 48) ∧
    (∃ (s : State) (m : Master), s.admits m Reg.NVS_BBCMD ∧ 48 < s.bbQueue.length) ∧
    (∃ (s : State) (m : Master) (d : Word), s.admits m Reg.NVS_BBEXPORT_H ∧ (let mark := s.rdN Reg.NVS_BBEXPORT_L + 2 ^ 32 * d.toNat; s.exportMark ≤ mark ∧ mark ≤ s.boxSeq)) ∧
    (∃ (s : State) (m : Master) (d : Word), s.admits m Reg.NVS_BBEXPORT_H ∧ (let mark := s.rdN Reg.NVS_BBEXPORT_L + 2 ^ 32 * d.toNat; mark < s.exportMark ∨ s.boxSeq < mark)) ∧
    (∃ (s : State) (m : Master), s.admits m Reg.NVS_BBCMD ∧ (let msg := s.regBytes (Reg.NVS_CLRBUF 0) 236; s.clearCheck msg ≠ 0)) :=
  ⟨⟨(State.wrN State.reset Reg.NVS_WADDR 0x200000), ⟨0x20, true⟩, by decide +kernel⟩,
   ⟨State.reset, ⟨0x20, true⟩, by decide +kernel⟩,
   ⟨(let s0 := State.reset; ({ s0 with coreHeld := true } : State)), by decide +kernel⟩,
   ⟨(let s0 := (let s0 := (let s0 := (let s0 := State.reset; ({ s0 with coreHeld := false } : State)); ({ s0 with bbQueue := (⟨1, 2, false, 3, false, 4, 5, 6, []⟩ : BoxRecord) :: ([] : List BoxRecord) } : State)); ({ s0 with bbLost := 0 } : State)); ({ s0 with flt := { s0.flt with resetPending := false } } : State)), ⟨1, 2, false, 3, false, 4, 5, 6, []⟩, [], by decide +kernel⟩,
   ⟨({ State.reset with coreHeld := false, bbQueue := [⟨1, 2, false, 3, false, 4, 5, 6, []⟩], bbLost := 1 }), ⟨1, 2, false, 3, false, 4, 5, 6, []⟩, [], by decide +kernel⟩,
   ⟨(let s0 := (let s0 := (let s0 := State.reset; ({ s0 with coreHeld := false } : State)); ({ s0 with bbQueue := (⟨1, 2, false, 3, false, 4, 5, 6, []⟩ : BoxRecord) :: ([] : List BoxRecord) } : State)); ({ s0 with flt := { s0.flt with resetPending := true } } : State)), ⟨1, 2, false, 3, false, 4, 5, 6, []⟩, [], by decide +kernel⟩,
   ⟨State.reset, ⟨0x20, true⟩, by decide +kernel⟩,
   ⟨({ State.reset with bbQueue := List.replicate 49 ⟨1, 2, false, 3, false, 4, 5, 6, []⟩ }), ⟨0x20, true⟩, by decide +kernel⟩,
   ⟨State.reset, ⟨0x20, true⟩, 0, by decide +kernel⟩,
   ⟨State.reset, ⟨0x20, true⟩, 1, by decide +kernel⟩,
   ⟨State.reset, ⟨0x20, true⟩, by decide +kernel⟩⟩

/-- States and operands that meet the hypotheses of the clauses of FaultCommandsComplete. -/
theorem witness_FaultCommandsComplete :
    (∃ (s : State), s.coreHeld = true ∨ s.reports = []) ∧
    (∃ (s : State) (r : FaultReport), s.coreHeld = false ∧ s.nextReport = some r ∧ r.code < 0x5000 ∧ 1 ≤ faultSubsystem r.code ∧ faultSubsystem r.code ≤ 16 ∧ s.bbQueue.length < 64 ∧ (let w := s.rd (reactKey (faultClass r.code) (faultSubsystem r.code)); s.coalesced r = false ∧ getBit w 5 = true ∨ getBits w 2 3 = 0)) ∧
    (∃ (s : State) (r : FaultReport), s.coreHeld = false ∧ s.nextReport = some r ∧ r.code < 0x5000 ∧ 1 ≤ faultSubsystem r.code ∧ faultSubsystem r.code ≤ 16 ∧ s.bbQueue.length < 64 ∧ (let w := s.rd (reactKey (faultClass r.code) (faultSubsystem r.code)); s.coalesced r = true ∧ getBit w 5 = true ∨ getBits w 2 3 = 0)) ∧
    (∃ (s : State) (r : FaultReport), s.coreHeld = false ∧ s.nextReport = some r ∧ r.code < 0x5000 ∧ 1 ≤ faultSubsystem r.code ∧ faultSubsystem r.code ≤ 16 ∧ s.bbQueue.length < 64 ∧ (let w := s.rd (reactKey (faultClass r.code) (faultSubsystem r.code)); getBit w 5 = false ∧ getBits w 2 3 = 2 ∧ s.flt.safeStop = false)) ∧
    (∃ (s : State) (r : FaultReport), s.coreHeld = false ∧ s.nextReport = some r ∧ r.code < 0x5000 ∧ 1 ≤ faultSubsystem r.code ∧ faultSubsystem r.code ≤ 16 ∧ s.bbQueue.length < 64 ∧ (let w := s.rd (reactKey (faultClass r.code) (faultSubsystem r.code)); s.coalesced r = false ∧ getBit w 5 = false ∧ getBits w 2 3 = 4 ∧ r.code ≠ 0x3411)) ∧
    (∃ (s : State) (r : FaultReport), s.coreHeld = false ∧ s.nextReport = some r ∧ r.code < 0x5000 ∧ 1 ≤ faultSubsystem r.code ∧ faultSubsystem r.code ≤ 16 ∧ s.bbQueue.length < 64 ∧ (let w := s.rd (reactKey (faultClass r.code) (faultSubsystem r.code)); s.coalesced r = true ∧ getBit w 5 = false ∧ getBits w 2 3 = 4 ∧ r.code ≠ 0x3411 ∧ s.bbQueue = [])) ∧
    (∃ (s : State), s.coreHeld = true) ∧
    (∃ (s : State) (m : Master) (u : Fin 6), s.admits m (Reg.FLT_WDOG u.val) ∧ s.bit (Reg.FLT_WDOG u.val) 16 = false) ∧
    (∃ (s : State) (m : Master) (u : Fin 6), s.admits m (Reg.FLT_WDOG u.val) ∧ s.bit (Reg.FLT_WDOG u.val) 16 = true) ∧
    (∃ (s : State) (m : Master) (u : Fin 6), s.admits m (Reg.FLT_WDKICK u.val) ∧ s.watchdogRuns u.val = false) ∧
    (∃ (s : State) (m : Master) (u : Fin 6) (k : Word), s.admits m (Reg.FLT_WDKICK u.val) ∧ (let opened := Store.get (fun _ => false) s.flt.kickOpen u.val; s.watchdogRuns u.val = true ∧ k = (if opened = true then 0xC3A5 else 0x3C5A))) ∧
    (∃ (s : State) (m : Master) (u : Fin 6) (k : Word), s.admits m (Reg.FLT_WDKICK u.val) ∧ (let opened := Store.get (fun _ => false) s.flt.kickOpen u.val; s.watchdogRuns u.val = true ∧ k ≠ (if opened = true then 0xC3A5 else 0x3C5A))) ∧
    (∃ (s : State) (u : Fin 6), s.watchdogRuns u.val = true ∧ s.watchdogDue u.val = true) ∧
    (∃ (s : State) (u : Fin 6), s.watchdogRuns u.val = false ∨ s.watchdogDue u.val = false) ∧
    (∃ (s : State) (m : Master), s.admits m Reg.FLT_FAULTN) :=
  ⟨⟨(let s0 := State.reset; ({ s0 with coreHeld := true } : State)), by decide +kernel⟩,
   ⟨(let s0 := (let s0 := State.reset; ({ s0 with coreHeld := false } : State)); ({ s0 with reports := [(⟨0x1041, 7, 3⟩ : FaultReport)] } : State)), ⟨0x1041, 7, 3⟩, by decide +kernel⟩,
   ⟨(let s := (((State.reset.setBit (Reg.FLT_LOG_w0 63) 31 true).setFld (Reg.FLT_LOG_w0 63) 0 16 0x1041).setFld Reg.FLT_LOGHEAD 0 6 0); { s with coreHeld := false, reports := [⟨0x1041, 7, 3⟩] }), ⟨0x1041, 7, 3⟩, by decide +kernel⟩,
   ⟨(let s := State.reset.setFld (reactKey (faultClass 0x1041) (faultSubsystem 0x1041)) 0 6 8; { s with coreHeld := false, reports := [⟨0x1041, 7, 3⟩] }), ⟨0x1041, 7, 3⟩, by decide +kernel⟩,
   ⟨(let s := State.reset.setFld (reactKey (faultClass 0x1041) (faultSubsystem 0x1041)) 0 6 16; { s with coreHeld := false, reports := [⟨0x1041, 7, 3⟩] }), ⟨0x1041, 7, 3⟩, by decide +kernel⟩,
   ⟨(let s := (((State.reset.setBit (Reg.FLT_LOG_w0 63) 31 true).setFld (Reg.FLT_LOG_w0 63) 0 16 0x1041).setFld Reg.FLT_LOGHEAD 0 6 0).setFld (reactKey (faultClass 0x1041) (faultSubsystem 0x1041)) 0 6 16; { s with coreHeld := false, reports := [⟨0x1041, 7, 3⟩] }), ⟨0x1041, 7, 3⟩, by decide +kernel⟩,
   ⟨(let s0 := State.reset; ({ s0 with coreHeld := true } : State)), by decide +kernel⟩,
   ⟨(State.setBit State.reset (Reg.FLT_WDOG (0 : Fin 6).val) 16 false), ⟨0x20, true⟩, 0, by decide +kernel⟩,
   ⟨(State.setBit State.reset (Reg.FLT_WDOG (0 : Fin 6).val) 16 true), ⟨0x20, true⟩, 0, by decide +kernel⟩,
   ⟨State.reset, ⟨0x20, true⟩, 0, by decide +kernel⟩,
   ⟨(State.setBit State.reset (Reg.FLT_WDOG (0 : Fin 6).val) 16 true), ⟨0x20, true⟩, 0, 0x3C5A, by decide +kernel⟩,
   ⟨(State.setBit State.reset (Reg.FLT_WDOG (0 : Fin 6).val) 16 true), ⟨0x20, true⟩, 0, 0, by decide +kernel⟩,
   ⟨({ (State.setBit State.reset (Reg.FLT_WDOG (0 : Fin 6).val) 16 true) with nowNs := 100000000000000 } : State), 0, by decide +kernel⟩,
   ⟨State.reset, 0, by decide +kernel⟩,
   ⟨State.reset, ⟨0x20, true⟩, by decide +kernel⟩⟩

/-- States and operands that meet the hypotheses of the clauses of CounterCommandsComplete. -/
theorem witness_CounterCommandsComplete :
    (∃ (s : State) (m : Master) (v : BitVec 2), s.admits m Reg.MON_MODE ∧ m.pmid.toNat = 0x33 ∨ s.fld Reg.MON_MODE 0 2 ≠ 3 ∧ (v = 0 ∨ v = 2)) ∧
    (∃ (s : State) (m : Master) (v : BitVec 2), s.admits m Reg.MON_MODE ∧ m.pmid.toNat ≠ 0x33 ∧ s.fld Reg.MON_MODE 0 2 = 3 ∨ v = 1 ∨ v = 3) ∧
    (∃ (s : State) (m : Master), s.admits m Reg.MON_OVFCLR) ∧
    (∃ (s : State) (m : Master), s.admits m Reg.MON_SNAPCTL ∧ s.canonical = true) :=
  ⟨⟨State.reset, ⟨0x20, true⟩, 0, by decide +kernel⟩,
   ⟨(State.setFld State.reset Reg.MON_MODE 0 2 3), ⟨0x20, true⟩, 0, by decide +kernel⟩,
   ⟨State.reset, ⟨0x20, true⟩, by decide +kernel⟩,
   ⟨State.reset, ⟨0x20, true⟩, by decide +kernel⟩⟩

/-- The tag that a decrypt job computes is open; whatever it is, some expected tag differs from it. -/
theorem witness_DecryptJobReleasesOnlyVerifiedText_tag :
    ∃ (s : State) (j : Fin 160) (data aad expect : List Byte), s.jobOp j.val = 2 ∧
      (Config.gcmTag (s.keyOf (s.jobKey j.val)) ((s.jobIv j.val).take 12) aad data).take 16 ≠
        expect.take 16 := by
  refine ⟨State.reset.setFld (Reg.CIP_JOB_w0 0) 0 4 2, 0, [], [], ?_⟩
  generalize ((Config.gcmTag _ _ _ _).take 16 : List Byte) = x
  by_cases h : x = []
  · exact ⟨[0], by decide +kernel, by rw [h]; decide⟩
  · exact ⟨[], by decide +kernel, h⟩

/-- The message of a provisioning that passes, where the module's identity is zeros and every hash is
ones (the functions of Config are open). -/
def kpmMsg : List Byte :=
  bytesBE 4 0x4B504D31 ++ bytesBE 2 1 ++ bytesBE 2 0x19C ++ List.replicate 16 0 ++ bytesBE 8 1 ++
    List.replicate 380 0

/-- A passing check depends on functions that Config leaves open: the witness is stated under values of
them. -/
theorem witness_VaultChannelCommandsComplete_provision
    (hu : uidBytes = List.replicate 16 0) (hd : ∀ x, Config.sha384 x = List.replicate 48 1)
    (hv : ∀ p d g, Config.ecdsaVerify p d g = true) (hc : ∀ x, Config.onCurve x = true)
    (hk : ∀ k x, Config.keyUnwrap k x = some []) :
    ∃ (s : State) (c : Fin 4) (value : List Byte), (s.chanState c.val = 2 ∧ s.vltOp c.val = 1) ∧
      s.vaultState ≠ 2 ∧ s.vlt.noIdentity = false ∧
      s.kpmCheck ((s.vltCmd c.val).buf.take 412) = (0, value) := by
  refine ⟨anchored 0 ((vlt 1 0 0 (State.reset.setFld Reg.VLT_STAT 0 2 1)).setVltCmd 0
    { op := 1, slot := 0, arg := 0, pmid := 0x33, buf := kpmMsg }), 0, [], by decide +kernel, by decide +kernel, by decide +kernel, ?_⟩
  simp only [State.kpmCheck, State.verifyWith, hu, hd, hv, hc, hk]
  decide +kernel

/-- A certificate that passes, in the same way. -/
theorem witness_ComputeCommandsComplete_certificate
    (hu : uidBytes = List.replicate 16 0) (hd : ∀ x, Config.sha384 x = List.replicate 48 1)
    (hv : ∀ p d g, Config.ecdsaVerify p d g = true) :
    ∃ (s : State) (m : Master), s.admits m Reg.CPX_DBGCTL ∧ s.vaultState ≠ 3 ∧
      s.certCheck (s.regBytes (Reg.CPX_DBGCERT 0) 228) = 0 := by
  refine ⟨(anchored 3 (putBytes State.reset (Reg.CPX_DBGCERT 0) (wordsLE (bytesBE 4 0x44424731 ++
    bytesBE 2 1 ++ bytesBE 2 1 ++ List.replicate 16 0 ++ bytesBE 8 5 ++ List.replicate 196 0)))).setBit
    Reg.WAK_RTCSUB 31 true, ⟨0x20, true⟩, by decide +kernel, by decide +kernel, ?_⟩
  simp only [State.certCheck, State.verifyWith, hu, hd, hv]
  decide +kernel

/-- A clear message that passes, in the same way. -/
theorem witness_NonvolatileCommandsComplete_clear
    (hu : uidBytes = List.replicate 16 0) (hd : ∀ x, Config.sha384 x = List.replicate 48 1)
    (hv : ∀ p d g, Config.ecdsaVerify p d g = true) :
    ∃ (s : State) (m : Master), s.admits m Reg.NVS_BBCMD ∧
      s.clearCheck (s.regBytes (Reg.NVS_CLRBUF 0) 236) = 0 ∧ s.clearCounter + 1 < 2 ^ 32 := by
  refine ⟨anchored 4 (putBytes State.reset (Reg.NVS_CLRBUF 0) (wordsLE (bytesBE 4 0x42424331 ++
    bytesBE 2 1 ++ bytesBE 2 0 ++ List.replicate 24 0 ++ bytesBE 8 1 ++ List.replicate 196 0))),
    ⟨0x20, true⟩, by decide +kernel, ?_, by decide +kernel⟩
  simp only [State.clearCheck, State.verifyWith, hu, hd, hv]
  decide +kernel

/-- Manifests whose signature passes: one that may be installed, one for no variant. -/
theorem witness_UpdateSessionCommandsComplete_signature
    (hd : ∀ x, Config.sha384 x = List.replicate 48 1)
    (hv : ∀ p d g, Config.ecdsaVerify p d g = true) :
    (∃ (s : State) (ch : Nat) (man : List Byte) (rest : List (Nat × List Byte)),
      s.vlt.running = some bootPath ∧ s.boot.opens = (ch, man) :: rest ∧ ch < 3 ∧ (∀ o ∈ rest, o.1 < 3) ∧
      s.manVerifies man (natAt man 0xC 1) = true ∧ s.openCheck man = 0) ∧
    (∃ (s : State) (ch : Nat) (man : List Byte) (rest : List (Nat × List Byte)),
      s.vlt.running = some bootPath ∧ s.boot.opens = (ch, man) :: rest ∧ ch < 3 ∧ (∀ o ∈ rest, o.1 < 3) ∧
      s.manVerifies man (natAt man 0xC 1) = true ∧ s.openCheck man ≠ 0) := by
  refine ⟨⟨(let s := anchored 1 State.reset; { s with vlt := { s.vlt with running := some bootPath }, boot := { s.boot with opens := [(0, manBytes 0 16)] } }),
      0, manBytes 0 16, [], rfl, rfl, by decide, by decide, ?_, by decide +kernel⟩,
    ⟨(let s := anchored 1 State.reset; { s with vlt := { s.vlt with running := some bootPath }, boot := { s.boot with
        opens := [(0, setAt (setAt (manBytes 0 16) 14 0) 15 0)] } }),
      0, setAt (setAt (manBytes 0 16) 14 0) 15 0, [], rfl, rfl, by decide, by decide, ?_,
      by decide +kernel⟩⟩
  all_goals
    simp only [State.manVerifies, State.verifyWith, hd, hv]
    decide +kernel

/-- An SA of no key, its SecY, and a frame with a SecTAG of that SA. -/
def sealedKey : SaKey := ⟨0, true, false, 0, 0, []⟩
def sealedSecy : RxSecy := ⟨0, 0, 0, 0, [sealedKey]⟩
def sealedCheck : RxCheck := ⟨false, false, [sealedSecy]⟩
def sealedTag : SecTag := ⟨some 0, false, false, false, 0, 0, 1, 16⟩
def sealedFrame : Frame :=
  { tailIn := true, stage := .receiving, check := some sealedCheck
    bytes := List.replicate 12 0 ++ [0x88, 0xE5, 0x20, 0, 0, 0, 0, 1] ++ List.replicate 72 0 }

/-- A frame under verification whose ICV is right, where every GCM tag is zeros. -/
theorem witness_PortFrameCommandsComplete_verified
    (hg : ∀ k iv aad d, Config.gcmTag k iv aad d = List.replicate 16 0) :
    ∃ (s : State) (f : FrameId) (v : Frame) (k : RxCheck) (g : SecTag) (y : RxSecy) (x : SaKey)
      (bs : List Byte), s.frame f = some v ∧ v.check = some k ∧ v.stage = .receiving ∧ v.tailIn = true ∧
      s.heldUpAt f v [.retrain, .receiving] false = false ∧ (isEapol v.bytes && k.eapolClear) = false ∧
      parseSecTag v.bytes = some (some g) ∧ k.contextOf (k.frameSci v.bytes g) g = some (y, x) ∧
      (g.pn ≠ 0 ∨ x.xpn = true) ∧ s.laneUp = true ∧ x.live = true ∧ s.saRevoked x.sa = false ∧
      (let pn := if x.xpn then recoverPn (s.nextPn x.sa) g.pn else g.pn;
        (getBit y.w0 6 = true → s.nextPn x.sa ≤ pn + y.window) ∧
        openSealed y.w0 x (k.frameSci v.bytes g) pn v.bytes g = some bs) ∧ s.blkAccepts 0x0C = true := by
  obtain ⟨bs, hb⟩ : ∃ bs, openSealed 0 sealedKey (sealedCheck.frameSci sealedFrame.bytes sealedTag) 1
      sealedFrame.bytes sealedTag = some bs := by
    unfold openSealed
    simp only [hg]
    exact ⟨_, if_pos (by decide +kernel)⟩
  exact ⟨(State.reset.setFrame 0 sealedFrame).setBit (Reg.BLK_CTRL 0x0C) 0 true, 0, sealedFrame, sealedCheck,
    sealedTag, sealedSecy, sealedKey, bs, by decide +kernel, by decide +kernel, by decide +kernel,
    by decide +kernel, by decide +kernel, by decide +kernel, by decide +kernel, by decide +kernel,
    by decide +kernel, by decide +kernel, by decide +kernel, by decide +kernel, ⟨by decide +kernel, hb⟩,
    by decide +kernel⟩

/-- A full segment of a payload that goes on: its plain bytes, and the patch's output. -/
theorem full_segment (hd : ∀ x, Config.sha384 x = List.replicate 48 1) (d : List Byte)
    (h : d.length = 65536) (s : State)
    (hS : s = segState (manBytes 0 131104) (d ++ List.replicate 16 1)) :
    s.openSegment s.compNow s.segNow (d ++ List.replicate 16 1) = some d ∧
      State.patchOutput { s with boot := { s.boot with segment := none, payload := s.boot.payload ++ d } }
        s.compNow (decide (segCount (comp s.boot.manifest s.compNow 0x14 4) ≤ s.segNow + 1)) = some d ∧
      ¬ segCount (comp s.boot.manifest s.compNow 0x14 4) ≤ s.segNow + 1 ∧ s.segNow < 65535 := by
  have hl : (d ++ List.replicate 16 (1 : Byte)).length = 65552 := by
    rw [List.length_append, h, List.length_replicate]
  have hs : segLen (comp (manBytes 0 131104) 0 0x14 4) 0 = 65552 := by decide +kernel
  have hm : manFlag (manBytes 0 131104) 1 = false := by decide +kernel
  have hc : comp (manBytes 0 131104) 0 3 1 = 0 := by decide +kernel
  have hn : ¬ segCount (comp (manBytes 0 131104) 0 0x14 4) ≤ 0 + 1 := by decide +kernel
  have ht : (d ++ List.replicate 16 (1 : Byte)).take 65536 = d := List.take_left' h
  have hr : (d ++ List.replicate 16 (1 : Byte)).drop 65536 = List.replicate 16 1 := List.drop_left' h
  have he : s.boot.manifest = manBytes 0 131104 := by rw [hS]; rfl
  have hp : s.boot.payload = [] := by rw [hS]; rfl
  have h0 : s.compNow = 0 := by
    rw [hS]; exact (by decide +kernel : (segState (manBytes 0 131104) []).compNow = 0)
  have h1 : s.segNow = 0 := by
    rw [hS]; exact (by decide +kernel : (segState (manBytes 0 131104) []).segNow = 0)
  rw [h0, h1, he, hp]
  refine ⟨?_, ?_, hn, by decide⟩
  · unfold State.openSegment
    simp only [he, hl, hs, hm, hd, show 65552 - 16 = 65536 from rfl, ht, hr]
    rfl
  · unfold State.patchOutput
    simp only [he, hc]
    rfl

/-- A segment is accepted when its tag is the hash's first bytes, and then, in the order of the
statement's clauses: its plain bytes are known; its patch is no legal one; the component goes on; it ends
with the wrong length; it ends with the right hash. -/
theorem witness_SegmentsInstallOnlyVerifiedBytes_accepted
    (hd : ∀ x, Config.sha384 x = List.replicate 48 1) :
    (∃ (s : State) (bs plain : List Byte), s.boot.segment = some (0, bs) ∧
      s.openSegment s.compNow s.segNow bs = some plain) ∧
    (∃ (s : State) (bs plain : List Byte), s.boot.segment = some (0, bs) ∧
      s.openSegment s.compNow s.segNow bs = some plain ∧
      State.patchOutput { s with boot := { s.boot with segment := none, payload := s.boot.payload ++ plain } }
        s.compNow (decide (segCount (comp s.boot.manifest s.compNow 0x14 4) ≤ s.segNow + 1)) = none ∧
      s.session ≠ 0) ∧
    (∃ (s : State) (bs plain out : List Byte), s.boot.segment = some (0, bs) ∧
      s.openSegment s.compNow s.segNow bs = some plain ∧
      State.patchOutput { s with boot := { s.boot with segment := none, payload := s.boot.payload ++ plain } }
        s.compNow (decide (segCount (comp s.boot.manifest s.compNow 0x14 4) ≤ s.segNow + 1)) = some out ∧
      ¬ segCount (comp s.boot.manifest s.compNow 0x14 4) ≤ s.segNow + 1 ∧ s.segNow < 65535) ∧
    (∃ (s : State) (bs plain out : List Byte), s.boot.segment = some (0, bs) ∧
      s.openSegment s.compNow s.segNow bs = some plain ∧
      State.patchOutput { s with boot := { s.boot with segment := none, payload := s.boot.payload ++ plain } }
        s.compNow (decide (segCount (comp s.boot.manifest s.compNow 0x14 4) ≤ s.segNow + 1)) = some out ∧
      segCount (comp s.boot.manifest s.compNow 0x14 4) ≤ s.segNow + 1 ∧ s.session ≠ 0 ∧
      out.length ≠ comp s.boot.manifest s.compNow 0x18 4) ∧
    (∃ (s : State) (bs plain out : List Byte), s.boot.segment = some (0, bs) ∧
      s.openSegment s.compNow s.segNow bs = some plain ∧
      State.patchOutput { s with boot := { s.boot with segment := none, payload := s.boot.payload ++ plain } }
        s.compNow (decide (segCount (comp s.boot.manifest s.compNow 0x14 4) ≤ s.segNow + 1)) = some out ∧
      segCount (comp s.boot.manifest s.compNow 0x14 4) ≤ s.segNow + 1 ∧
      out.length = comp s.boot.manifest s.compNow 0x18 4 ∧
      Config.sha384 out = compResult s.boot.manifest s.compNow) := by
  obtain ⟨d, hlen⟩ : ∃ d : List Byte, d.length = 65536 :=
    ⟨List.replicate 65536 0, List.length_replicate⟩
  refine ⟨⟨segState (manBytes 0 16) (List.replicate 16 1), List.replicate 16 1, [], rfl, ?_⟩,
    ⟨segState (manWith 0 1 21 0) (List.replicate 5 0 ++ List.replicate 16 1),
      List.replicate 5 0 ++ List.replicate 16 1, List.replicate 5 0, rfl, ?_, by decide +kernel,
      by decide +kernel⟩,
    ⟨segState (manBytes 0 131104) (d ++ List.replicate 16 1), d ++ List.replicate 16 1, d, d, rfl,
      full_segment hd d hlen _ rfl⟩,
    ⟨segState (manBytes 0 16) (List.replicate 16 1), List.replicate 16 1, [], [], rfl, ?_,
      by decide +kernel, by decide +kernel, by decide +kernel, by decide +kernel⟩,
    ⟨segState (manWith 0 0 32 1) (List.replicate 16 0 ++ List.replicate 16 1),
      List.replicate 16 0 ++ List.replicate 16 1, List.replicate 16 0, List.replicate 16 0, rfl, ?_,
      by decide +kernel, by decide +kernel, by decide +kernel, ?_⟩⟩
  · simp only [State.openSegment, hd]; decide +kernel
  · simp only [State.openSegment, hd]; decide +kernel
  · simp only [State.openSegment, hd]; decide +kernel
  · simp only [State.openSegment, hd]; decide +kernel
  · simp only [hd]; decide +kernel

end Sys2Proof.Tests
end

section
/-!
PROOFS. The statements of spec/00_scope.md: the reset values of the register tables, and what a register
write leaves in each field (R8, R28, R29). The lemmas go from the register map (fields that lie apart, header
words without CFG fields) to the write of a word field by field, and from there to the register write.
-/

namespace Sys2Proof.Machine

open Sys2Proof

/-! ## The register map -/

/-- No bit is named by both fields. -/
abbrev FieldDesc.Apart (f g : FieldDesc) : Prop := f.lo + f.width ≤ g.lo ∨ g.lo + g.width ≤ f.lo

/-- The fields lie in a 32-bit word, and no bit belongs to two of them. -/
abbrev FieldsLaidOut (fs : List FieldDesc) : Prop :=
  (∀ f ∈ fs, f.lo + f.width ≤ 32) ∧ fs.Pairwise FieldDesc.Apart

theorem blockTable_fieldsLaidOut : ∀ e ∈ blockTable, ∀ r ∈ e.2, FieldsLaidOut r.fields := by
  decide +kernel

/-- In every block the header rows stand before any other row that could cover BLK_STATUS or BLK_DENYADDR,
and they have no CFG field. -/
theorem blockTable_header_hasCfg :
    ∀ e ∈ blockTable, ∀ off ∈ [0x8, 0xC],
      (e.2.find? (fun r => r.covers off)).all (fun r => !hasCfg r.fields) = true := by
  decide +kernel

theorem mem_blockTable_of_lookup {b : Nat} {rows : List Row} (h : blockTable.lookup b = some rows) :
    (b, rows) ∈ blockTable := by
  obtain ⟨before, after, e, -⟩ := List.lookup_eq_some_iff.mp h
  rw [e]
  exact List.mem_append_right _ List.mem_cons_self

/-- A register's row is the first of its block's rows that covers it. -/
theorem rowAt_eq_some {key : Nat} {r : Row} (h : rowAt key = some r) :
    ∃ rows, (key / 0x100000, rows) ∈ blockTable ∧
      rows.find? (fun r => r.covers (key % 0x100000)) = some r := by
  unfold rowAt rowsOf at h
  cases hl : blockTable.lookup (key / 0x100000) with
  | none => simp [hl] at h
  | some rows => exact ⟨rows, mem_blockTable_of_lookup hl, by simpa [hl] using h⟩

theorem rowAt_fieldsLaidOut {key : Nat} {r : Row} (h : rowAt key = some r) : FieldsLaidOut r.fields := by
  obtain ⟨rows, hrows, hr⟩ := rowAt_eq_some h
  exact blockTable_fieldsLaidOut _ hrows r (List.mem_of_find?_eq_some hr)

/-- A register with a CFG field is not the header word at `off`, if that is one of the two that a refused
write changes. -/
theorem ne_header_of_hasCfg {key : Nat} {r : Row} (h : rowAt key = some r) (hc : hasCfg r.fields = true)
    {off : Nat} (hoff : off ∈ [0x8, 0xC]) : regKey (key / 0x100000) off ≠ key := by
  intro e
  obtain ⟨rows, hrows, hr⟩ := rowAt_eq_some h
  have hlt : off < 0x100000 := by
    simp only [List.mem_cons, List.not_mem_nil, or_false] at hoff
    omega
  have hkey : key % 0x100000 = off := by
    unfold regKey at e
    omega
  have := blockTable_header_hasCfg _ hrows off hoff
  rw [hkey] at hr
  simp [hr, hc] at this

/-! ## A word written field by field -/

/-- The word with every listed field replaced by its value. -/
def writeFields (val : FieldDesc → Nat) (fs : List FieldDesc) (w : Word) : Word :=
  fs.foldl (fun acc f => setBits acc f.lo f.width (val f)) w

theorem writeFields_cons (val : FieldDesc → Nat) (f : FieldDesc) (fs : List FieldDesc) (w : Word) :
    writeFields val (f :: fs) w = writeFields val fs (setBits w f.lo f.width (val f)) := rfl

theorem wordAfter_eq_writeFields (fs : List FieldDesc) (cfgOpen : Bool) (old v : Word) :
    wordAfter fs cfgOpen old v = writeFields (fun f => fieldAfter f cfgOpen old v) fs old := rfl

/-- Bits that no listed field names stay. -/
theorem getBits_writeFields_apart (val : FieldDesc → Nat) {fs : List FieldDesc} {lo n : Nat} (w : Word)
    (hfs : ∀ f ∈ fs, f.lo + f.width ≤ 32) (ha : ∀ f ∈ fs, lo + n ≤ f.lo ∨ f.lo + f.width ≤ lo) :
    getBits (writeFields val fs w) lo n = getBits w lo n := by
  induction fs generalizing w with
  | nil => rfl
  | cons f fs ih =>
    rw [List.forall_mem_cons] at hfs ha
    rw [writeFields_cons, ih _ hfs.2 ha.2, getBits_setBits_apart _ _ _ _ _ _ hfs.1 ha.1]

/-- A listed field holds the low bits of its own value: no later field touches it. -/
theorem getBits_writeFields_mem (val : FieldDesc → Nat) {fs : List FieldDesc} {f : FieldDesc} (w : Word)
    (hfs : FieldsLaidOut fs) (hf : f ∈ fs) :
    getBits (writeFields val fs w) f.lo f.width = val f % 2 ^ f.width := by
  induction fs generalizing w with
  | nil => exact absurd hf List.not_mem_nil
  | cons g fs ih =>
    obtain ⟨hwidth, hapart⟩ := hfs
    rw [List.forall_mem_cons] at hwidth
    rw [List.pairwise_cons] at hapart
    rw [writeFields_cons]
    rcases List.mem_cons.mp hf with rfl | hmem
    · rw [getBits_writeFields_apart _ _ hwidth.2 hapart.1, getBits_setBits_same _ _ _ _ hwidth.1]
    · exact ih _ ⟨hwidth.2, hapart.2⟩ hmem

theorem fieldAfter_lt (f : FieldDesc) (cfgOpen : Bool) (old v : Word) :
    fieldAfter f cfgOpen old v < 2 ^ f.width := by
  have ho := getBits_lt old f.lo f.width
  have hn := getBits_lt v f.lo f.width
  unfold fieldAfter
  cases f.ty with
  | rw => exact hn
  | cfg => dsimp only; split <;> assumption
  | w1c => exact Nat.lt_of_le_of_lt Nat.and_le_left ho
  | w1s => exact Nat.or_lt_two_pow ho hn
  | ro | wo | snap | own => exact ho

/-- After a write each field holds what its access type says (R8). -/
theorem getBits_wordAfter {fs : List FieldDesc} {f : FieldDesc} (cfgOpen : Bool) (old v : Word)
    (hfs : FieldsLaidOut fs) (hf : f ∈ fs) :
    getBits (wordAfter fs cfgOpen old v) f.lo f.width = fieldAfter f cfgOpen old v := by
  rw [wordAfter_eq_writeFields, getBits_writeFields_mem _ _ hfs hf, Nat.mod_eq_of_lt (fieldAfter_lt ..)]

/-- Reserved bits of a register ignore writes (R28). -/
theorem getBit_wordAfter_reserved {fs : List FieldDesc} {b : Nat} (cfgOpen : Bool) (old v : Word)
    (hfs : FieldsLaidOut fs) (hb : ∀ g ∈ fs, b < g.lo ∨ g.lo + g.width ≤ b) :
    getBit (wordAfter fs cfgOpen old v) b = getBit old b := by
  rw [getBit_eq_getBits, getBit_eq_getBits, wordAfter_eq_writeFields,
    getBits_writeFields_apart _ _ hfs.1 hb]

section AccessTypes

variable {f : FieldDesc} {cfgOpen : Bool} {old v : Word}

theorem fieldAfter_rw (h : f.ty = .rw) : fieldAfter f cfgOpen old v = getBits v f.lo f.width := by
  simp [fieldAfter, h]

theorem fieldAfter_kept (h : f.ty = .ro ∨ f.ty = .wo ∨ f.ty = .snap ∨ f.ty = .own) :
    fieldAfter f cfgOpen old v = getBits old f.lo f.width := by
  rcases h with h | h | h | h <;> simp [fieldAfter, h]

theorem fieldAfter_cfg (h : f.ty = .cfg) :
    fieldAfter f cfgOpen old v = if cfgOpen then getBits v f.lo f.width else getBits old f.lo f.width := by
  simp [fieldAfter, h]

theorem testBit_fieldAfter_w1c (h : f.ty = .w1c) {b : Nat} (hb : b < f.width) :
    (fieldAfter f cfgOpen old v).testBit b =
      ((getBits old f.lo f.width).testBit b && !(getBits v f.lo f.width).testBit b) := by
  simp [fieldAfter, h, Nat.testBit_and, Nat.testBit_xor, Nat.testBit_two_pow_sub_one, hb]

theorem testBit_fieldAfter_w1s (h : f.ty = .w1s) (b : Nat) :
    (fieldAfter f cfgOpen old v).testBit b =
      ((getBits old f.lo f.width).testBit b || (getBits v f.lo f.width).testBit b) := by
  simp [fieldAfter, h, Nat.testBit_or]

end AccessTypes

/-! ## A refused write -/

/-- A refused write changes BLK_STATUS and BLK_DENYADDR of its block only. -/
theorem State.rd_deny_other (s : State) {key k : Nat} (pmid : Nat)
    (hs : Reg.BLK_STATUS (key / 0x100000) ≠ k) (hd : Reg.BLK_DENYADDR (key / 0x100000) ≠ k) :
    (s.deny key pmid).rd k = s.rd k := by
  unfold State.deny
  dsimp only
  split
  · rfl
  · rw [State.rd_setFld, if_neg hd, State.rd_setFld, if_neg hd, State.rd_setBit, if_neg hs]

theorem blkStatus_ne_blkDenyaddr (b : Nat) : Reg.BLK_STATUS b ≠ Reg.BLK_DENYADDR b := by
  simp [regKey]

/-- After a refused write CFGDENY is set (R29). -/
theorem State.bit_deny_status (s : State) (key pmid : Nat) :
    (s.deny key pmid).bit (Reg.BLK_STATUS (key / 0x100000)) 0 = true := by
  unfold State.deny
  dsimp only
  split
  · assumption
  · have hne := (blkStatus_ne_blkDenyaddr (key / 0x100000)).symm
    unfold State.bit
    rw [State.rd_setFld, if_neg hne, State.rd_setFld, if_neg hne]
    exact State.bit_setBit_same _ _ _ _ (by omega)

/-- The first refused write since CFGDENY was clear leaves its offset in BLK_DENYADDR (R29). -/
theorem State.fld_deny_offset (s : State) (key pmid : Nat)
    (h : s.bit (Reg.BLK_STATUS (key / 0x100000)) 0 = false) :
    (s.deny key pmid).fld (Reg.BLK_DENYADDR (key / 0x100000)) 0 20 = key % 0x100000 := by
  simp only [State.deny, h, Bool.false_eq_true, if_false]
  rw [State.fld_setFld_apart _ _ _ _ _ _ _ _ (by omega) (by omega),
    State.fld_setFld_same _ _ _ _ _ (by omega)]
  exact Nat.mod_mod key 0x100000

/-- The first refused write since CFGDENY was clear leaves its master in BLK_DENYADDR (R29). -/
theorem State.fld_deny_master (s : State) (key : Nat) (pmid : BitVec 6)
    (h : s.bit (Reg.BLK_STATUS (key / 0x100000)) 0 = false) :
    (s.deny key pmid.toNat).fld (Reg.BLK_DENYADDR (key / 0x100000)) 20 6 = pmid.toNat := by
  simp only [State.deny, h, Bool.false_eq_true, if_false]
  rw [State.fld_setFld_same _ _ _ _ _ (by omega), Nat.mod_eq_of_lt pmid.isLt]

/-! ## A register write that its gate accepts -/

/-- The state before the word is stored: CFGDENY has captured the write if it reaches a CFG field of an
enabled block (R29). -/
def State.cfgRefusal (s : State) (m : Master) (key : Nat) (fs : List FieldDesc) : State :=
  if hasCfg fs && s.blkEn (key / 0x100000) then s.deny key m.pmid.toNat else s

section AcceptedWrite

variable {s : State} {m : Master} {key : Nat} {v : Word} {r : Row}
variable (hr : rowAt key = some r) (hg : s.gateVerdict r key = .accept) (hf1 : forcedOnes key = 0)

include hr in
theorem State.rd_cfgRefusal_key (s : State) (m : Master) : (s.cfgRefusal m key r.fields).rd key = s.rd key := by
  unfold State.cfgRefusal
  split
  · next h =>
    rw [Bool.and_eq_true] at h
    have hne := @ne_header_of_hasCfg key r hr h.1
    exact State.rd_deny_other _ _ (hne (by simp)) (hne (by simp))
  · rfl

include hr hg hf1

theorem State.rd_regWrite (k : Nat) :
    (s.regWrite m key v).rd k =
      if key = k then wordAfter r.fields (!s.blkEn (key / 0x100000)) (s.rd key) v
      else (s.cfgRefusal m key r.fields).rd k := by
  have hstored : (s.regWrite m key v).rd k = ((s.cfgRefusal m key r.fields).wr key
      (wordAfter r.fields (!s.blkEn (key / 0x100000)) ((s.cfgRefusal m key r.fields).rd key) v)).rd k := by
    simp only [State.regWrite, hr, hg, hf1, Bool.not_not, BitVec.or_zero]
    rfl
  rw [hstored, State.rd_wr, State.rd_cfgRefusal_key hr]

/-- Each field of the written register (R8). -/
theorem State.fld_regWrite {f : FieldDesc} (hf : f ∈ r.fields) :
    (s.regWrite m key v).fld key f.lo f.width =
      fieldAfter f (!s.blkEn (key / 0x100000)) (s.rd key) v := by
  rw [State.fld, State.rd_regWrite hr hg hf1, if_pos rfl,
    getBits_wordAfter _ _ _ (rowAt_fieldsLaidOut hr) hf]

/-- A bit of the written register that no field names (R28). -/
theorem State.bit_regWrite_reserved {b : Nat} (hb : ∀ g ∈ r.fields, b < g.lo ∨ g.lo + g.width ≤ b) :
    (s.regWrite m key v).bit key b = s.bit key b := by
  rw [State.bit, State.rd_regWrite hr hg hf1, if_pos rfl,
    getBit_wordAfter_reserved _ _ _ (rowAt_fieldsLaidOut hr) hb, State.bit]

/-- BLK_STATUS and BLK_DENYADDR after a write that reaches a CFG field of an enabled block are what the
refusal left there. -/
theorem State.rd_regWrite_header (hc : hasCfg r.fields = true) (he : s.blkEn (key / 0x100000) = true)
    {off : Nat} (hoff : off ∈ [0x8, 0xC]) :
    (s.regWrite m key v).rd (regKey (key / 0x100000) off) =
      (s.deny key m.pmid.toNat).rd (regKey (key / 0x100000) off) := by
  rw [State.rd_regWrite hr hg hf1, if_neg (ne_header_of_hasCfg hr hc hoff).symm]
  simp [State.cfgRefusal, hc, he]

/-- A refused CFG write sets CFGDENY, and BLK_DENYADDR captures it if CFGDENY was clear (R29). -/
theorem State.regWrite_captures_refusal (hc : hasCfg r.fields = true)
    (he : s.blkEn (key / 0x100000) = true) :
    (s.regWrite m key v).bit (Reg.BLK_STATUS (key / 0x100000)) 0 = true ∧
    (s.bit (Reg.BLK_STATUS (key / 0x100000)) 0 = false →
      (s.regWrite m key v).fld (Reg.BLK_DENYADDR (key / 0x100000)) 0 20 = key % 0x100000 ∧
      (s.regWrite m key v).fld (Reg.BLK_DENYADDR (key / 0x100000)) 20 6 = m.pmid.toNat) := by
  have hheader := @State.rd_regWrite_header s m key v r hr hg hf1 hc he
  refine ⟨?_, fun hclear => ⟨?_, ?_⟩⟩
  · rw [State.bit, hheader (by simp)]
    exact State.bit_deny_status ..
  · rw [State.fld, hheader (by simp)]
    exact State.fld_deny_offset _ _ _ hclear
  · rw [State.fld, hheader (by simp)]
    exact State.fld_deny_master _ _ _ hclear

end AcceptedWrite

/-- Settles O6: the stored word is built field by field, the fields of every row lie apart, and the two header
words that a refusal changes hold no CFG field. -/
theorem fieldsFollowTheirAccessTypes : Obligations.FieldsFollowTheirAccessTypes := by
  intro s m key v r f hr hg hf1 hf
  dsimp only
  have hnow := State.fld_regWrite (m := m) (v := v) hr hg hf1 hf
  rw [hnow]
  refine ⟨fieldAfter_rw, fieldAfter_kept, fun h b hb => testBit_fieldAfter_w1c h hb,
    fun h b _ => testBit_fieldAfter_w1s h b, fun h he => ?_, fun h he => ?_,
    fun b _ hb => State.bit_regWrite_reserved hr hg hf1 hb⟩
  · rw [fieldAfter_cfg h, he]
    rfl
  · have hc : hasCfg r.fields = true := List.any_eq_true.mpr ⟨f, hf, by simpa using h⟩
    refine ⟨?_, State.regWrite_captures_refusal hr hg hf1 hc he⟩
    rw [fieldAfter_cfg h, he]
    rfl

/-! ## Reset -/

@[simp] theorem State.rd_reset (k : Nat) : State.reset.rd k = resetWord k := Store.get_nil _ _

theorem State.reset_sound : State.reset.sound = true := rfl

/-- The reset reactions of R451: none for classes 0 and 1, IRQ for class 2, IRQ and FN1 for class 3, IRQ and
SAFESTOP for class 4. -/
theorem resetWord_reactKey : ∀ n < 16,
    resetWord (reactKey 0 (n + 1)) = 0 ∧ resetWord (reactKey 1 (n + 1)) = 0 ∧
    resetWord (reactKey 2 (n + 1)) = 1 ∧ resetWord (reactKey 3 (n + 1)) = 3 ∧
    resetWord (reactKey 4 (n + 1)) = 9 := by
  decide +kernel

/-- BLK_CTRL.EN of every block is 0 at reset (R28). -/
theorem getBit_resetWord_blkCtrl : ∀ e ∈ blockTable, getBit (resetWord (Reg.BLK_CTRL e.1)) 0 = false := by
  decide +kernel

theorem State.blkEn_reset {b : Nat} (h : blockListed b = true) : State.reset.blkEn b = false := by
  obtain ⟨rows, hl⟩ := Option.isSome_iff_exists.mp h
  rw [State.blkEn, State.bit, State.rd_reset]
  exact getBit_resetWord_blkCtrl (b, rows) (mem_blockTable_of_lookup hl)

/-- Settles O2: an empty store reads as the reset words of the tables. -/
theorem resetHoldsTheResetValues : Obligations.ResetHoldsTheResetValues := by
  refine ⟨State.reset_sound, rfl, rfl, rfl, State.rd_reset, fun n hn => ?_, fun _ => State.blkEn_reset⟩
  obtain ⟨h0, h1, h2, h3, h4⟩ := resetWord_reactKey n hn
  simp [State.rdN, h0, h1, h2, h3, h4]

end Sys2Proof.Machine
end

section
/-!
PROOFS. The statements of spec/01_architecture.md. The Traverse link (R10, R11, R33, R57): the mirrors of the
Edge die's PHYs, then replay, retrain and loss.
-/

namespace Sys2Proof.Machine

open Sys2Proof

@[simp] theorem State.bit_fault (s : State) (c d k b : Nat) : (s.fault c d).bit k b = s.bit k b := by
  rw [State.bit, State.bit, State.rd_fault]

/-! ## The Traverse link: stale mirrors of the Edge die's PHYs (R57) -/

theorem State.bit_setBit (s : State) {b : Nat} (hb : b < 32) (k k' : Nat) (v : Bool) :
    (s.setBit k b v).bit k' b = if k = k' then v else s.bit k' b := by
  split
  · next e => rw [e, State.bit_setBit_same _ _ _ _ hb]
  · next hne => exact State.bit_setBit_apart _ _ _ _ _ _ hb (.inl hne)

/-- The registers of a list get one bit set to `v`. -/
theorem State.bit_foldl_setBit {b : Nat} (hb : b < 32) (v : Bool) (k : Nat) (ks : List Nat) (s : State) :
    (ks.foldl (fun acc k => acc.setBit k b v) s).bit k b = if k ∈ ks then v else s.bit k b := by
  induction ks generalizing s with
  | nil => simp
  | cons k' ks ih =>
    rw [List.foldl_cons, ih, State.bit_setBit _ hb]
    by_cases heq : k' = k
    · simp [heq]
    · simp [heq, Ne.symm heq]

theorem State.rd_foldl_setBit (b : Nat) (v : Bool) {k : Nat} {ks : List Nat} (s : State) (hk : k ∉ ks) :
    (ks.foldl (fun acc k => acc.setBit k b v) s).rd k = s.rd k := by
  induction ks generalizing s with
  | nil => rfl
  | cons k' ks ih =>
    rw [List.mem_cons, not_or] at hk
    rw [List.foldl_cons, ih _ hk.2, State.rd_setBit, if_neg (Ne.symm hk.1)]

/-- PRT_PSTAT of the ports whose PHYs are on the Edge die. -/
def edgePhyStatus : List Nat := ((List.range 32).filter (fun p => 12 ≤ p)).map (fun p => Reg.PRT_PSTAT p)

theorem mem_edgePhyStatus {k : Nat} : k ∈ edgePhyStatus ↔ ∃ p, 12 ≤ p ∧ p < 32 ∧ k = Reg.PRT_PSTAT p := by
  simp only [edgePhyStatus, List.mem_map, List.mem_filter, List.mem_range, decide_eq_true_eq]
  exact ⟨fun ⟨p, ⟨hlt, hle⟩, e⟩ => ⟨p, hle, hlt, e.symm⟩, fun ⟨p, hle, hlt, e⟩ => ⟨p, ⟨hlt, hle⟩, e.symm⟩⟩

theorem State.setPhyStale_eq_foldl (s : State) (v : Bool) :
    s.setPhyStale v = edgePhyStatus.foldl (fun acc k => acc.setBit k 11 v) s := by
  rw [edgePhyStatus, List.foldl_map, List.foldl_filter]
  simp only [decide_eq_true_eq]
  rfl

theorem State.bit_setPhyStale (s : State) (v : Bool) {p : Nat} (hle : 12 ≤ p) (hlt : p < 32) :
    (s.setPhyStale v).bit (Reg.PRT_PSTAT p) 11 = v := by
  rw [State.setPhyStale_eq_foldl, State.bit_foldl_setBit (by omega),
    if_pos (mem_edgePhyStatus.mpr ⟨p, hle, hlt, rfl⟩)]

theorem State.rd_setPhyStale_other (s : State) (v : Bool) {k : Nat}
    (hk : ∀ p, 12 ≤ p → p < 32 → k ≠ Reg.PRT_PSTAT p) : (s.setPhyStale v).rd k = s.rd k := by
  rw [State.setPhyStale_eq_foldl, State.rd_foldl_setBit]
  rw [mem_edgePhyStatus]
  exact fun ⟨p, hle, hlt, e⟩ => hk p hle hlt e

section
variable (s : State) (v : Bool)

theorem State.keeps_setPhyStale : s.Keeps (fun p => [Part.regs].contains p) (s.setPhyStale v) :=
  State.setPhyStale_keeps (all_contains _) (State.Keeps.refl _ s) v

@[simp] theorem State.setPhyStale_traverse : (s.setPhyStale v).traverse = s.traverse :=
  (State.keeps_setPhyStale s v).same .traverse rfl
@[simp] theorem State.setPhyStale_edgeQueue : (s.setPhyStale v).edgeQueue = s.edgeQueue :=
  (State.keeps_setPhyStale s v).same .edgeQueue rfl
@[simp] theorem State.setPhyStale_frames : (s.setPhyStale v).frames = s.frames :=
  (State.keeps_setPhyStale s v).same .frames rfl
@[simp] theorem State.setPhyStale_reports : (s.setPhyStale v).reports = s.reports :=
  (State.keeps_setPhyStale s v).same .reports rfl
@[simp] theorem State.setPhyStale_nowNs : (s.setPhyStale v).nowNs = s.nowNs :=
  (State.keeps_setPhyStale s v).nowNs

end

/-! ## The Traverse link: replay, retrain and loss (R11) -/

/-- What a retrain that starts leaves: the link recovering from now on, the mirrors of the Edge die's PHYs
stale, and nothing else that the Edge die would see. -/
theorem State.startRetrain_of_up {s : State} (hup : s.traverse.state = .up) :
    s.startRetrain.traverse = { s.traverse with state := .recovering, retrainSince := s.nowNs } ∧
    s.startRetrain.edgeQueue = s.edgeQueue ∧
    (∀ p, 12 ≤ p → p < 32 → s.startRetrain.bit (Reg.PRT_PSTAT p) 11 = true) ∧
    ∀ k, (∀ p, 12 ≤ p → p < 32 → k ≠ Reg.PRT_PSTAT p) → s.startRetrain.rd k = s.rd k := by
  simp only [State.startRetrain, hup, if_true]
  refine ⟨State.setPhyStale_traverse .., State.setPhyStale_edgeQueue .., fun p => State.bit_setPhyStale _ _,
    fun k hk => State.rd_setPhyStale_other _ _ hk⟩

/-- The state in which the Traverse link is up again, before what was held is applied. -/
def State.retrained (s : State) : State :=
  ({ s with
      traverse := { s.traverse with state := .up, replays := 0, held := [], recovered := s.recovered }
      tim := { s.tim with realign := true } } : State).setPhyStale false

section
variable (s : State)

@[simp] theorem State.traverse_state_retrained : s.retrained.traverse.state = .up := by simp [State.retrained]
@[simp] theorem State.retrained_edgeQueue : s.retrained.edgeQueue = s.edgeQueue := by simp [State.retrained]
@[simp] theorem State.retrained_reports : s.retrained.reports = s.reports := by simp [State.retrained]
@[simp] theorem State.retrained_nowNs : s.retrained.nowNs = s.nowNs := by simp [State.retrained]

theorem State.bit_retrained {p : Nat} (hle : 12 ≤ p) (hlt : p < 32) :
    s.retrained.bit (Reg.PRT_PSTAT p) 11 = false := State.bit_setPhyStale _ _ hle hlt

theorem State.rd_retrained_other {k : Nat} (hk : ∀ p, 12 ≤ p → p < 32 → k ≠ Reg.PRT_PSTAT p) :
    s.retrained.rd k = s.rd k := State.rd_setPhyStale_other _ _ hk

end

theorem execTraverseRetrainDone_of_recovering {s : State} (h : s.traverse.state = .recovering) :
    execTraverseRetrainDone s = .next ((s.traverse.held.foldl State.applyHeld s.retrained).fault 0x1404
      (s.nowNs - s.traverse.retrainSince)) := by
  simp only [execTraverseRetrainDone, h, if_true]
  rfl

theorem Store.mem_of_find {α : Type} {m : Store α} {k : Nat} {v : α} (h : Store.find m k = some v) :
    (k, v) ∈ m := by
  induction m with
  | nil => simp [Store.find] at h
  | cons e t ih =>
    obtain ⟨a, b⟩ := e
    simp only [Store.find] at h
    split at h
    · simp_all
    · exact List.mem_cons_of_mem _ (ih h)

/-- No frame of the retrain buffer is left. -/
theorem State.frame_dropHeld {s : State} {f : Nat} {v : Frame} (h : s.dropHeld.frame f = some v) :
    v.stage ≠ .retrain := by
  unfold State.frame Store.get at h
  split at h
  · next u hfind =>
    subst h
    have hmem := Store.mem_of_find hfind
    simpa [State.dropHeld] using (List.mem_filter.mp hmem).2
  · simp at h

/-- The link's count of replays after one more (R11). -/
def TraverseLink.replayed (t : TraverseLink) (now : Nat) : TraverseLink :=
  if now - t.replaySince < 1000000 then { t with replays := t.replays + 1 }
  else { t with replays := 1, replaySince := now }

theorem TraverseLink.replayed_state (t : TraverseLink) (now : Nat) : (t.replayed now).state = t.state := by
  unfold TraverseLink.replayed
  split <;> rfl

theorem TraverseLink.replayed_replays (t : TraverseLink) (now : Nat) :
    (t.replayed now).replays = if now - t.replaySince < 1000000 then t.replays + 1 else 1 := by
  unfold TraverseLink.replayed
  split <;> rfl

/-- A replay counts, and starts a retrain beyond 16. -/
theorem execTraverseFlitReplay_of_up {s : State} (hup : s.traverse.state = .up) :
    execTraverseFlitReplay s = .next (
      let u : State := { s with traverse := s.traverse.replayed s.nowNs }
      if 16 < u.traverse.replays then u.startRetrain else u) := by
  unfold execTraverseFlitReplay
  rw [if_neg (not_not.mpr hup)]
  rfl

theorem execTraverseLossTimeout_of_lasting {s : State}
    (h : s.traverse.state = .recovering ∨ s.traverse.state = .failed) (hns : s.retrainLasts 1100000 = true)
    {w : BusWrite} {rest : List BusWrite} (hq : s.edgeQueue = w :: rest) :
    execTraverseLossTimeout s = .next
      (({ s.dropHeld with traverse := { s.dropHeld.traverse with state := .lost }, edgeQueue := [] } : State).fault
        0x3405 w.addr) := by
  have hgo : ¬(s.traverse.state = .up ∨ s.traverse.state = .lost ∨ s.retrainLasts 1100000 = false) := by
    rcases h with h | h <;> simp [h, hns]
  simp only [execTraverseLossTimeout, if_neg hgo, hq]

theorem traverseFlitReplay_counts {s : State} (hup : s.traverse.state = .up) :
    Answers .traverseFlitReplay s fun t =>
      t.traverse.replays = (if s.nowNs - s.traverse.replaySince < 1000000 then s.traverse.replays + 1 else 1) ∧
      (t.traverse.state = .recovering ↔ 16 < t.traverse.replays) ∧
      t.edgeQueue = s.edgeQueue ∧ (t.traverse.replays ≤ 16 → t.regs = s.regs) := by
  refine ⟨_, by rw [exec_traverseFlitReplay, execTraverseFlitReplay_of_up hup], ?_⟩
  rw [← TraverseLink.replayed_replays]
  have hstate : (s.traverse.replayed s.nowNs).state = .up := by rw [TraverseLink.replayed_state, hup]
  dsimp only
  split
  · next hmany =>
    obtain ⟨htraverse, hqueue, -⟩ :=
      State.startRetrain_of_up (s := { s with traverse := s.traverse.replayed s.nowNs }) hstate
    rw [htraverse, hqueue]
    exact ⟨rfl, by simp [hmany], rfl, fun hfew => absurd hmany (by simpa using hfew)⟩
  · next hfew => exact ⟨rfl, by simp [hstate, hfew], rfl, fun _ => rfl⟩

theorem traverseRetrainDone_nothing_held {s : State} (h : s.traverse.state = .recovering)
    (hheld : s.traverse.held = []) :
    Answers .traverseRetrainDone s fun t =>
      t.traverse.state = .up ∧ t.edgeReachable = true ∧ t.edgeQueue = s.edgeQueue ∧
      t.reports = s.reports ++ [⟨0x1404, (s.nowNs - s.traverse.retrainSince) % 2 ^ 32, s.nowNs⟩] ∧
      (∀ p, 12 ≤ p → p < 32 → t.bit (Reg.PRT_PSTAT p) 11 = false) ∧
      ∀ k, (∀ p, 12 ≤ p → p < 32 → k ≠ Reg.PRT_PSTAT p) → t.rd k = s.rd k := by
  refine ⟨_, by rw [exec_traverseRetrainDone, execTraverseRetrainDone_of_recovering h], ?_⟩
  rw [hheld, List.foldl_nil]
  refine ⟨?_, ?_, ?_, ?_, fun p hle hlt => ?_, fun k hk => ?_⟩
  · rw [State.fault_traverse, State.traverse_state_retrained]
  · rw [State.edgeReachable, State.fault_traverse, State.traverse_state_retrained]
    rfl
  · rw [State.fault_edgeQueue, State.retrained_edgeQueue]
  · simp [State.fault]
  · rw [State.bit_fault, State.bit_retrained s hle hlt]
  · rw [State.rd_fault, State.rd_retrained_other s hk]

theorem traverseLossTimeout_of_lasting {s : State} {w : BusWrite} {rest : List BusWrite}
    (h : s.traverse.state = .recovering ∨ s.traverse.state = .failed)
    (hns : s.traverse.retrainSince + 1100000 ≤ s.nowNs) (hq : s.edgeQueue = w :: rest) :
    Answers .traverseLossTimeout s fun t =>
      t.traverse.state = .lost ∧ t.traverse.held = [] ∧ t.edgeQueue = [] ∧ t.regs = s.regs ∧
      (∀ f v, t.frame f = some v → v.stage ≠ .retrain) ∧
      t.reports = s.reports ++ [⟨0x3405, w.addr % 2 ^ 32, s.nowNs⟩] := by
  refine ⟨_, by rw [exec_traverseLossTimeout, execTraverseLossTimeout_of_lasting h (decide_eq_true hns) hq], ?_⟩
  refine ⟨?_, ?_, ?_, ?_, fun f v hf => State.frame_dropHeld (s := s) hf, ?_⟩ <;>
    simp [State.dropHeld, State.fault]

/-- Settles O13: a replay is counted and starts a retrain when it is the seventeenth; each further clause is
the command's one branch. -/
theorem linkCommandsComplete : Obligations.LinkCommandsComplete := by
  refine ⟨fun s hup => traverseFlitReplay_counts hup, fun s hup => ⟨s.startRetrain, rfl, ?_⟩,
    fun s h => ⟨s.retrained, ?_⟩, fun s h hheld => traverseRetrainDone_nothing_held h hheld,
    fun s h hns => ⟨{ s with traverse := { s.traverse with state := .failed, recovered := s.recovered } }, ?_⟩,
    fun s hns => ⟨s, ?_, rfl⟩, fun s w rest h hns hq => traverseLossTimeout_of_lasting h hns hq⟩
  · obtain ⟨htraverse, hqueue, hstale, hother⟩ := State.startRetrain_of_up hup
    exact ⟨by rw [htraverse], by rw [htraverse], by simp [State.edgeReachable, htraverse], hqueue, hstale, hother⟩
  · refine ⟨State.traverse_state_retrained s, by simp [State.retrained], State.retrained_edgeQueue s,
      by simp [State.retrained], fun p => State.bit_retrained s, ?_⟩
    rw [exec_traverseRetrainDone, execTraverseRetrainDone_of_recovering h]
  · have hgo : s.traverse.state = .recovering ∧ s.retrainLasts 100000 = true := ⟨h, decide_eq_true hns⟩
    rw [exec_traverseRetrainTimeout, execTraverseRetrainTimeout, if_pos hgo]
    exact ⟨rfl, rfl, rfl, rfl⟩
  · have hstay : ¬(s.traverse.state = .recovering ∧ s.retrainLasts 100000 = true) := by
      simp [State.retrainLasts, Nat.not_le.mpr hns]
    rw [exec_traverseRetrainTimeout, execTraverseRetrainTimeout, if_neg hstay]

end Sys2Proof.Machine
end

section
/-!
PROOFS. The inbound requests of the host (R20, R313, R321). What counting a request leaves alone comes first:
the window that covers it and the checks of its accesses are those of the state it arrived in.
-/

namespace Sys2Proof.Machine

open Sys2Proof

/-! ## The registers of one block -/

/-- What is stored at keys outside a test does not change the entries that pass it. -/
theorem Store.filter_set {α : Type} [DecidableEq α] (d : Nat → α) (m : Store α) {p : Nat → Bool} {k : Nat}
    (v : α) (hk : p k = false) : (Store.set d m k v).filter (fun e => p e.1) = m.filter (fun e => p e.1) := by
  unfold Store.set
  split
  · rw [Store.drop, List.filter_filter]
    refine List.filter_congr fun e _ => ?_
    by_cases he : e.1 = k <;> simp [he, hk]
  · induction m with
    | nil => simp [Store.put, hk]
    | cons e t ih =>
      obtain ⟨k', v'⟩ := e
      unfold Store.put
      split
      · simp [hk]
      · split
        · next e => simp [← e, hk]
        · simp only [List.filter_cons, ih]

/-- The listed registers of a block. -/
def State.blockRegs (s : State) (b : Nat) : Store Word := s.regs.filter (fun e => e.1 / 0x100000 == b)

section
variable (s : State) {b k : Nat}

theorem State.blockRegs_wr (w : Word) (h : k / 0x100000 ≠ b) : (s.wr k w).blockRegs b = s.blockRegs b :=
  Store.filter_set (p := fun k => k / 0x100000 == b) _ _ w (by simpa using h)

theorem State.blockRegs_wrN (v : Nat) (h : k / 0x100000 ≠ b) : (s.wrN k v).blockRegs b = s.blockRegs b :=
  State.blockRegs_wr s _ h

theorem State.blockRegs_setFld (lo n v : Nat) (h : k / 0x100000 ≠ b) :
    (s.setFld k lo n v).blockRegs b = s.blockRegs b := State.blockRegs_wr s _ h

theorem State.blockRegs_setBit (i : Nat) (v : Bool) (h : k / 0x100000 ≠ b) :
    (s.setBit k i v).blockRegs b = s.blockRegs b := State.blockRegs_wr s _ h

theorem State.blockRegs_irq (n : Nat) : (s.irq n).blockRegs b = s.blockRegs b := by
  rw [State.blockRegs, State.irq_regs, State.blockRegs]

theorem State.blockRegs_bumpBy (n : Nat) (h : k / 0x100000 ≠ b) (h4 : (k + 4) / 0x100000 ≠ b) :
    (s.bumpBy k n).blockRegs b = s.blockRegs b := by
  have red : ∀ (t : State) (x : Store Bool),
      ({ t with saturated := x } : State).blockRegs b = t.blockRegs b := fun _ _ => rfl
  unfold State.bumpBy
  dsimp only
  split
  · rfl
  · split <;> split
    · rw [State.blockRegs_setFld _ _ _ _ h4, State.blockRegs_wrN _ _ h]
    · rw [red, State.blockRegs_setFld _ _ _ _ h4, State.blockRegs_wrN _ _ h]
    · rw [State.blockRegs_wrN _ _ h]
    · rw [State.blockRegs_setBit _ _ _ h4, State.blockRegs_wrN _ _ h]

/-- A counter of MON that counts touches registers of MON only. -/
theorem State.blockRegs_monAdd (n : Nat) {i : Nat} (hi : i < 1536) (hb : b ≠ 2) :
    (s.monAdd i n).blockRegs b = s.blockRegs b := by
  have hcfg : monCfgKey i / 0x100000 ≠ b := by rw [regKey_mon]; omega
  have hval : Reg.MON_VAL i / 0x100000 ≠ b := by unfold Reg.MON_VAL regKey; omega
  have hval4 : (Reg.MON_VAL i + 4) / 0x100000 ≠ b := by unfold Reg.MON_VAL regKey; omega
  unfold State.monAdd
  dsimp only
  split
  · exact State.blockRegs_bumpBy _ _ hval hval4
  · split
    · rw [State.blockRegs_wrN _ _ hval]
    · rw [State.blockRegs_irq, State.blockRegs_setBit _ _ _ hcfg, State.blockRegs_wrN _ _ hval]

theorem State.blockRegs_monEvent (ev : Nat) (hb : b ≠ 2) : (s.monEvent ev).blockRegs b = s.blockRegs b := by
  unfold State.monEvent State.monEvents
  have hl := State.monCounters_lt s ev
  generalize s.monCounters ev = l at hl
  induction l generalizing s with
  | nil => rfl
  | cons i l ih =>
    rw [List.foldl_cons, ih _ (fun j hj => hl j (List.mem_cons_of_mem _ hj)),
      State.blockRegs_monAdd _ _ (hl i List.mem_cons_self) hb]

end

section
variable {s t : State} {b : Nat}

theorem State.rd_of_blockRegs (h : t.blockRegs b = s.blockRegs b) {k : Nat} (hk : k / 0x100000 = b) :
    t.rd k = s.rd k := by
  have hfind : ∀ u : State, Store.find (u.blockRegs b) k = Store.find u.regs k := fun u => by
    rw [State.blockRegs, Store.find_filter _ (fun k => k / 0x100000 == b), if_pos (by simpa using hk)]
  unfold State.rd Store.get
  rw [← hfind t, h, hfind s]

/-- The entries of a range of a block's registers. -/
theorem State.slice_of_blockRegs (h : t.blockRegs b = s.blockRegs b) {lo hi : Nat} (up down : Nat)
    (hlo : 0x100000 * b ≤ lo) (hhi : hi ≤ 0x100000 * (b + 1)) :
    Store.slice t.regs lo hi up down = Store.slice s.regs lo hi up down := by
  have hslice : ∀ u : State, Store.slice u.regs lo hi up down = Store.slice (u.blockRegs b) lo hi up down :=
    fun u => by
      rw [Store.slice, Store.slice, State.blockRegs, List.filter_filter]
      congr 1
      refine List.filter_congr fun e _ => ?_
      by_cases hin : lo ≤ e.1 ∧ e.1 < hi
      · have : e.1 / 0x100000 = b := by omega
        simp [hin, this]
      · rw [← Bool.decide_and, decide_eq_false hin, Bool.false_and]
  rw [hslice t, h, ← hslice s]

end

theorem State.rdLive_congr {s t : State} (h : t.live = s.live) : t.rdLive = s.rdLive := by
  funext bank k
  rw [State.rdLive, State.rdLive, h]

/-! ## The checks of an access to memory depend on the registers of SYS and the live banks -/

section
variable {s t : State} (hregs : t.blockRegs 0 = s.blockRegs 0) (hlive : t.live = s.live)

theorem State.enabledRegions_lt (s : State) : ∀ n ∈ s.enabledRegions, n < 256 := by
  intro n hn
  simp only [State.enabledRegions, Store.slice, List.mem_map, List.mem_filter, Bool.and_eq_true,
    decide_eq_true_eq] at hn
  obtain ⟨e, ⟨⟨x, ⟨-, hle, hlt⟩, rfl⟩, -⟩, rfl⟩ := hn
  simp only [regKey] at hle hlt ⊢
  omega

include hregs

theorem State.decidingRegion_congr (a : Nat) : t.decidingRegion a = s.decidingRegion a := by
  have hregions : t.enabledRegions = s.enabledRegions := by
    unfold State.enabledRegions
    rw [State.slice_of_blockRegs hregs _ _ (by simp [regKey]) (by simp [regKey])]
  unfold State.decidingRegion
  rw [hregions]
  refine List.find?_congr fun n hn => ?_
  have hlt := State.enabledRegions_lt s n hn
  rw [State.fld, State.fld, State.fld, State.fld,
    State.rd_of_blockRegs hregs (k := Reg.SYS_RGNBASE n) (by simp only [regKey]; omega),
    State.rd_of_blockRegs hregs (k := Reg.SYS_RGNLIM n) (by simp only [regKey]; omega)]

include hlive

theorem State.regionCheck_congr (m : Master) (a : Nat) (k : AccessKind) :
    t.regionCheck m a k = s.regionCheck m a k := by
  unfold State.regionCheck
  rw [State.decidingRegion_congr hregs]
  cases hn : s.decidingRegion a with
  | none => rfl
  | some n =>
    have hlt := State.enabledRegions_lt s n (List.mem_of_find?_eq_some hn)
    have hattr : ∀ b, t.bit (Reg.SYS_RGNATTR n) b = s.bit (Reg.SYS_RGNATTR n) b := fun b => by
      rw [State.bit, State.bit, State.rd_of_blockRegs hregs (by simp only [regKey]; omega)]
    cases k <;> simp only [hattr, State.rdLive_congr hlive]

end

/-- An access to one byte is checked at its address. -/
theorem State.memCheckRange_one (s : State) (m : Master) (a : Nat) (k : AccessKind) :
    s.memCheckRange m a 1 k = s.memCheck m a k := by
  unfold State.memCheckRange State.memFault
  cases h : s.memCheck m a k <;> simp [h]

theorem State.memCheck_sram (s : State) (m : Master) {a : Nat} (k : AccessKind) (h : targetOf a = .sram) :
    s.memCheck m a k = s.regionCheck m a k := by
  simp only [State.memCheck, h]

/-! ## Accesses to SRAM -/

theorem State.write_sram {s : State} {m : Master} {a : Nat} {size : AccessSize} (h : targetOf a = .sram)
    (hc : s.memCheckRange m a size.bytes .write = none) (d : BitVec 64) :
    s.write m a size d = (s.wrMem a (bytesLE size.bytes d.toNat)).reply 0 := by
  simp only [State.write, h, hc]

theorem State.read_sram {s : State} {m : Master} {a : Nat} {size : AccessSize} (h : targetOf a = .sram)
    (hc : s.memCheckRange m a size.bytes .read = none) (hb : s.badMem a size.bytes = none) :
    s.read m a size = s.reply (BitVec.ofNat 64 (natLE (s.rdBytes a size.bytes))) := by
  simp only [State.read, h, hc, hb]

/-! ## A request that the bridge takes -/

/-- The request is counted, an event of MON (R323). -/
def State.countInbound (s : State) (write : Bool) : State :=
  if write then (s.bump Cnt.HBR_IN_POSTED).monEvent 0x322 else (s.bump Cnt.HBR_IN_NP).monEvent 0x323

section
variable (s : State) (write : Bool)

@[simp] theorem State.countInbound_mem : (s.countInbound write).mem = s.mem := by
  cases write <;> simp [State.countInbound]
@[simp] theorem State.countInbound_live : (s.countInbound write).live = s.live := by
  cases write <;> simp [State.countInbound]
@[simp] theorem State.countInbound_hbr : (s.countInbound write).hbr = s.hbr := by
  cases write <;> simp [State.countInbound]
@[simp] theorem State.countInbound_reports : (s.countInbound write).reports = s.reports := by
  cases write <;> simp [State.countInbound]
@[simp] theorem State.countInbound_eccBad : (s.countInbound write).eccBad = s.eccBad := by
  cases write <;> simp [State.countInbound]
@[simp] theorem State.countInbound_nowNs : (s.countInbound write).nowNs = s.nowNs := by
  cases write <;> simp [State.countInbound]

theorem State.blockRegs_countInbound : (s.countInbound write).blockRegs 0 = s.blockRegs 0 := by
  cases write <;>
    exact (State.blockRegs_monEvent _ _ (by omega)).trans
      (State.blockRegs_bumpBy _ _ (by simp [regKey]) (by simp [regKey]))

@[simp] theorem State.rootPort_countInbound : (s.countInbound write).rootPort = s.rootPort := by
  unfold State.rootPort State.bit
  cases write <;>
    rw [State.countInbound] <;>
    simp only [if_true, Bool.false_eq_true, if_false] <;>
    rw [State.rd_monEvent _ _ _ (by simp [regKey]), State.rd_bump _ _ _ (by simp [regKey]) (by simp [regKey])]

theorem State.inboundWindow_countInbound (bar2 : Bool) (a n : Nat) :
    (s.countInbound write).inboundWindow bar2 a n = s.inboundWindow bar2 a n := by
  have hwin : (s.countInbound write).inWindow = s.inWindow := by
    funext w
    simp only [State.inWindow, State.rdLive_congr (State.countInbound_live s write)]
  rw [State.inboundWindow, State.inboundWindow, hwin, State.rootPort_countInbound]

theorem State.memCheck_countInbound (m : Master) {a : Nat} (k : AccessKind) (h : targetOf a = .sram) :
    (s.countInbound write).memCheck m a k = s.memCheck m a k := by
  rw [State.memCheck_sram _ _ _ h, State.memCheck_sram _ _ _ h,
    State.regionCheck_congr (State.blockRegs_countInbound s write) (State.countInbound_live s write)]

end

theorem State.rootPort_hbrLog (s : State) (type : Nat) (e : HbrError) :
    (s.hbrLog type e).rootPort = s.rootPort := by
  have hlt : s.fld Reg.HBR_ELOGHEAD 0 4 < 16 := getBits_lt _ _ _
  unfold State.hbrLog State.rootPort State.bit
  generalize s.fld Reg.HBR_ELOGHEAD 0 4 = h at hlt
  dsimp only
  rw [State.rd_fault, State.rd_bump _ _ _ (by simp [regKey]) (by simp [regKey]), State.rd_setFld,
    if_neg (by simp [regKey])]
  repeat rw [State.rd_wrN, if_neg (by simp only [regKey]; omega)]
  split
  · rw [State.rd_setFld, if_neg (by simp [regKey])]
  · rfl

/-! ## A refused request -/

section
variable (s : State) (type : Nat) (e : HbrError)

theorem State.keeps_hbrLog : s.Keeps (fun p => [Part.regs, .saturated, .reports].contains p) (s.hbrLog type e) :=
  State.hbrLog_keeps (all_contains _) (State.Keeps.refl _ s) type e

@[simp] theorem State.hbrLog_mem : (s.hbrLog type e).mem = s.mem := (State.keeps_hbrLog s type e).same .mem rfl
@[simp] theorem State.hbrLog_hbr : (s.hbrLog type e).hbr = s.hbr := (State.keeps_hbrLog s type e).same .hbr rfl

theorem State.hbrLog_reports : (s.hbrLog type e).reports = s.reports ++ [⟨0x0281, 0, s.nowNs⟩] := by
  unfold State.hbrLog
  dsimp only
  split <;> simp [State.fault]

end

theorem State.complete_eq (s : State) (write urgent : Bool) (rid status : Nat) (data : List Byte) :
    s.complete write urgent rid status data =
      { s with hbr := { s.hbr with
          completion := if write then s.hbr.completion else some ⟨status, rid, urgent, data⟩ } } := by
  cases write <;> rfl

/-- What the bridge keeps of a refused request. -/
def HbrState.refused (h : HbrState) (q : InboundId) (rootPort : Bool) (status : Nat) : HbrState :=
  { h with
    completion := if q.write then h.completion else some ⟨status, q.rid, q.urgent, []⟩
    aerSent := if rootPort then h.aerSent else some status }

theorem State.rootPort_with_hbr (s : State) (h : HbrState) : ({ s with hbr := h } : State).rootPort = s.rootPort :=
  rfl

theorem State.refuseInbound_eq (s : State) (q : InboundId) (type status win addr : Nat) (indigo : Bool) :
    ∃ e, s.refuseInbound q type status win addr indigo =
      { s.hbrLog type e with hbr := s.hbr.refused q s.rootPort status } := by
  refine ⟨{ inbound := true, win := win, master := bridgeMaster indigo, bus := q.bus, rid := q.rid, addr := addr },
    ?_⟩
  rw [← State.hbrLog_hbr s type, ← State.rootPort_hbrLog s type, State.refuseInbound]
  generalize s.hbrLog type _ = u
  simp only [State.complete_eq, State.rootPort_with_hbr, HbrState.refused]
  split <;> rfl

/-- A refused request: its report, its completion, and the error that the root sees in endpoint mode; memory
stays. -/
theorem State.refuseInbound_effect (s : State) (q : InboundId) (type status win addr : Nat) (indigo : Bool) :
    (s.refuseInbound q type status win addr indigo).mem = s.mem ∧
    (s.refuseInbound q type status win addr indigo).reports = s.reports ++ [⟨0x0281, 0, s.nowNs⟩] ∧
    (s.refuseInbound q type status win addr indigo).hbr = s.hbr.refused q s.rootPort status := by
  obtain ⟨e, he⟩ := State.refuseInbound_eq s q type status win addr indigo
  rw [he]
  exact ⟨State.hbrLog_mem s type e, State.hbrLog_reports s type e, rfl⟩

theorem execInboundRequest_of_refused {write urgent bar2 : Bool} {rid : BitVec 16} {addr : BitVec 64}
    {bytes : List (Option Byte)} {s : State}
    (h : s.linkUp = false ∨ s.blkAccepts 0x1E = false ∨ 512 < bytes.length) :
    execInboundRequest write urgent bar2 rid addr bytes s = .next s := by
  have hstop : (!s.linkUp || !s.blkAccepts 0x1E || decide (512 < bytes.length)) = true := by
    rcases h with h | h | h <;> simp [h]
  rw [execInboundRequest, if_pos hstop]

section
variable {s : State} {write urgent bar2 : Bool} {rid : BitVec 16} {addr : BitVec 64}
variable {bytes : List (Option Byte)}
variable (hup : s.linkUp = true) (henabled : s.blkAccepts 0x1E = true) (hlen : bytes.length ≤ 512)

include hup henabled hlen

/-- A request that no window covers is refused as unsupported. -/
theorem execInboundRequest_of_no_window (hwin : s.inboundWindow bar2 addr.toNat (max 1 bytes.length) = none) :
    execInboundRequest write urgent bar2 rid addr bytes s = .next
      ((s.countInbound write).refuseInbound ⟨write, urgent, rid.toNat, addr.toNat⟩ 9 1 0 0 true) := by
  rw [← State.inboundWindow_countInbound s write] at hwin
  rw [State.countInbound] at hwin ⊢
  rw [execInboundRequest, if_neg (by simp [hup, henabled, hlen])]
  simp only [hwin]

/-- A request whose accesses pass every check runs. -/
theorem execInboundRequest_of_passed {w : Nat} {x : Window} {loc : List (Nat × Byte)}
    (hwin : s.inboundWindow bar2 addr.toNat (max 1 bytes.length) = some (w, x))
    (hloc : localBytes x (enabledBytes addr.toNat bytes) = some loc)
    (hpass : ∀ p ∈ pieces loc, (s.countInbound write).pieceCause (bridgeMaster x.indigo) write p = none) :
    execInboundRequest write urgent bar2 rid addr bytes s = .next
      ((s.countInbound write).runInbound (bridgeMaster x.indigo) ⟨write, urgent, rid.toNat, addr.toNat⟩ x
        (enabledBytes addr.toNat bytes) (pieces loc)) := by
  have hfind : (pieces loc).find?
      (fun p => ((s.countInbound write).pieceCause (bridgeMaster x.indigo) write p).isSome) = none :=
    List.find?_eq_none.mpr fun p hp => by simp [hpass p hp]
  rw [← State.inboundWindow_countInbound s write] at hwin
  rw [State.countInbound] at hwin hfind ⊢
  rw [execInboundRequest, if_neg (by simp [hup, henabled, hlen])]
  simp only [hwin, hloc, hfind]

end

/-! ## One byte -/

/-- No access beyond one byte finds all its bytes in a request of one byte. -/
theorem cellsFrom_one (l n : Nat) (v : Byte) : cellsFrom [(l, v)] l (n + 2) = none := by
  have hnext : (l + 1 == l) = false := by simp
  simp [cellsFrom, List.range_succ_eq_map, cellAt, List.lookup, hnext]

theorem pieces_one (l : Nat) (v : Byte) : pieces [(l, v)] = [⟨l, .byte, v.toNat⟩] := by
  simp [pieces, sortBy, insertBy, piecesFrom, cellsFrom_one l 6 v, cellsFrom_one l 2 v, cellAt]

theorem enabledBytes_one (a : Nat) (v : Byte) : enabledBytes a [some v] = [(a, v)] := by
  simp [enabledBytes]

theorem localBytes_one {x : Window} (h : x.lanes = 0) (a : Nat) (v : Byte) :
    localBytes x [(a, v)] = some [(x.map a, v)] := by
  simp [localBytes, inboundLane, h]

/-- A byte travels in the low byte of the bus. -/
theorem byteOf_setWidth (v : Byte) : byteOf (v.setWidth 64).toNat 0 = v := by
  apply BitVec.eq_of_toNat_eq
  simp only [byteOf, BitVec.toNat_ofNat, BitVec.toNat_setWidth]
  omega

section
variable {s : State} {m : Master} {l : Nat} (hl : targetOf l = .sram)
include hl

theorem State.pieceCause_byte (write : Bool) (d : Nat) :
    s.pieceCause m write ⟨l, .byte, d⟩ = s.memCheck m l (if write then .write else .read) := by
  simp only [State.pieceCause, hl, AccessSize.bytes, State.memCheckRange_one]

theorem State.runInbound_byte_write {q : InboundId} {x : Window} {cells : List (Nat × Byte)} {v : Byte}
    (hq : q.write = true) (hc : s.memCheck m l .write = none) :
    s.runInbound m q x cells [⟨l, .byte, v.toNat⟩] = (s.wrMem l [v]).reply 0 := by
  rw [← State.memCheckRange_one] at hc
  have hv : bytesLE 1 (BitVec.ofNat 64 v.toNat).toNat = [v] := by
    simp only [bytesLE, List.range_one, List.map_singleton, BitVec.ofNat_toNat, byteOf_setWidth]
  simp only [State.runInbound, hq, if_true, List.foldl_cons, List.foldl_nil]
  rw [State.write_sram hl hc, AccessSize.bytes, hv]

theorem State.runInbound_byte_read {q : InboundId} {x : Window} {a : Nat} {v : Byte} (hx : x.lanes = 0)
    (hxl : x.map a = l)
    (hq : q.write = false) (hc : s.memCheck m l .read = none) (hb : s.badMem l 1 = none) :
    s.runInbound m q x [(a, v)] [⟨l, .byte, v.toNat⟩] =
      (s.reply ((s.rdByte l).setWidth 64)).complete false q.urgent q.rid 0 [s.rdByte l] := by
  rw [← State.memCheckRange_one] at hc
  have hread := State.read_sram (size := .byte) hl hc hb
  simp only [State.runInbound, hq, Bool.false_eq_true, if_false, List.foldl_cons, List.foldl_nil,
    State.readPiece, hl, hread]
  have hdata : byteOf (s.reply ((s.rdByte l).setWidth 64)).busReply.data.toNat 0 = s.rdByte l := byteOf_setWidth _
  simp [inboundLane, hx, hxl, AccessSize.bytes, State.rdBytes, natLE, natBE, hdata]

end

/-! ## The requests of the host -/

section
variable {s : State} {urgent bar2 : Bool} {rid : BitVec 16} {addr : BitVec 64}
variable (hup : s.linkUp = true) (henabled : s.blkAccepts 0x1E = true)
include hup henabled

theorem inboundRequest_no_window {bytes : List (Option Byte)} (hlen : bytes.length ≤ 512)
    (hwin : s.inboundWindow bar2 addr.toNat (max 1 bytes.length) = none) (write : Bool) :
    Answers (.inboundRequest write urgent bar2 rid addr bytes) s fun t =>
      t.mem = s.mem ∧ t.reports = s.reports ++ [⟨0x0281, 0, s.nowNs⟩] ∧
      t.hbr = s.hbr.refused ⟨write, urgent, rid.toNat, addr.toNat⟩ s.rootPort 1 := by
  refine ⟨_, by rw [exec_inboundRequest, execInboundRequest_of_no_window hup henabled hlen hwin], ?_⟩
  simpa only [State.countInbound_mem, State.countInbound_reports, State.countInbound_nowNs,
    State.countInbound_hbr, State.rootPort_countInbound] using
    State.refuseInbound_effect (s.countInbound write) ⟨write, urgent, rid.toNat, addr.toNat⟩ 9 1 0 0 true

/-- A request of one byte that goes to SRAM and passes the checks. -/
theorem execInboundRequest_byte {w : Nat} {x : Window} {v : Byte} {write : Bool}
    (hwin : s.inboundWindow bar2 addr.toNat 1 = some (w, x)) (hx : x.lanes = 0)
    (hl : targetOf (x.map addr.toNat) = .sram)
    (hc : s.memCheck (bridgeMaster x.indigo) (x.map addr.toNat) (if write then .write else .read) = none) :
    execInboundRequest write urgent bar2 rid addr [some v] s = .next
      ((s.countInbound write).runInbound (bridgeMaster x.indigo) ⟨write, urgent, rid.toNat, addr.toNat⟩ x
        [(addr.toNat, v)] [⟨x.map addr.toNat, .byte, v.toNat⟩]) := by
  have hloc := localBytes_one hx addr.toNat v
  rw [← enabledBytes_one] at hloc ⊢
  rw [← pieces_one]
  refine execInboundRequest_of_passed hup henabled (by simp) (by simpa using hwin) hloc fun p hp => ?_
  rw [pieces_one, List.mem_singleton] at hp
  rw [hp, State.pieceCause_byte hl, State.memCheck_countInbound _ _ _ _ hl, hc]

/-- A write of one byte stores it and leaves the rest of memory. -/
theorem inboundRequest_byte_write {w : Nat} {x : Window} {v : Byte}
    (hwin : s.inboundWindow bar2 addr.toNat 1 = some (w, x)) (hx : x.lanes = 0)
    (hl : targetOf (x.map addr.toNat) = .sram)
    (hc : s.memCheckRange (bridgeMaster x.indigo) (x.map addr.toNat) 1 .write = none) :
    Answers (.inboundRequest true urgent bar2 rid addr [some v]) s fun t =>
      t.rdByte (x.map addr.toNat) = v ∧ ∀ y, y ≠ x.map addr.toNat → t.rdByte y = s.rdByte y := by
  rw [State.memCheckRange_one] at hc
  have hexec := execInboundRequest_byte (urgent := urgent) (rid := rid) (v := v) (write := true)
    hup henabled hwin hx hl hc
  rw [State.runInbound_byte_write hl rfl (by rw [State.memCheck_countInbound _ _ _ _ hl, hc])] at hexec
  refine ⟨_, by rw [exec_inboundRequest, hexec], ?_⟩
  have hbyte : ∀ y, (((s.countInbound true).wrMem (x.map addr.toNat) [v]).reply 0).rdByte y =
      if x.map addr.toNat = y then v else s.rdByte y := fun y => by
    have hcount : (s.countInbound true).rdByte y = s.rdByte y := by
      rw [State.rdByte, State.countInbound_mem, State.rdByte]
    rw [← hcount]
    exact State.rdByte_wrByte _ _ _ _
  exact ⟨by rw [hbyte, if_pos rfl], fun y hy => by rw [hbyte, if_neg (Ne.symm hy)]⟩

/-- A read of one byte completes with the byte and changes no memory. -/
theorem inboundRequest_byte_read {w : Nat} {x : Window} {v : Byte}
    (hwin : s.inboundWindow bar2 addr.toNat 1 = some (w, x)) (hx : x.lanes = 0)
    (hl : targetOf (x.map addr.toNat) = .sram)
    (hc : s.memCheckRange (bridgeMaster x.indigo) (x.map addr.toNat) 1 .read = none)
    (hbad : s.badMem (x.map addr.toNat) 1 = none) :
    Answers (.inboundRequest false urgent bar2 rid addr [some v]) s fun t =>
      t.mem = s.mem ∧ t.hbr.completion = some ⟨0, rid.toNat, urgent, [s.rdByte (x.map addr.toNat)]⟩ := by
  rw [State.memCheckRange_one] at hc
  have hexec := execInboundRequest_byte (urgent := urgent) (rid := rid) (v := v) (write := false)
    hup henabled hwin hx hl hc
  rw [State.runInbound_byte_read hl hx rfl rfl (by rw [State.memCheck_countInbound _ _ _ _ hl, hc])
    (by rw [State.badMem, State.countInbound_eccBad]; exact hbad)] at hexec
  refine ⟨_, by rw [exec_inboundRequest, hexec], ?_⟩
  rw [State.complete_eq]
  exact ⟨State.countInbound_mem s false, by rw [State.rdByte, State.countInbound_mem]; rfl⟩

end

/-- Settles O51: a request that no window covers changes the bridge's record and the log only, and one byte
that passes every check is one access of one byte. -/
theorem inboundRequestsComplete : Obligations.InboundRequestsComplete := by
  refine ⟨fun s w u b rid a bs h => ⟨s, ?_, rfl⟩, fun s u b rid a bs hup hen hlen hwin => ⟨?_, ?_⟩,
    fun s u b rid a v w x hup hen hwin hx hl hwr hrd hbad =>
      ⟨inboundRequest_byte_write hup hen hwin hx hl hwr, inboundRequest_byte_read hup hen hwin hx hl hrd hbad⟩⟩
  · rw [exec_inboundRequest, execInboundRequest_of_refused h]
  · obtain ⟨t, hexec, hmem, hreports, hhbr⟩ := inboundRequest_no_window hup hen hlen hwin false
    exact ⟨t, hexec, hmem, by rw [hhbr]; rfl, by rw [hhbr]; rfl, hreports⟩
  · obtain ⟨t, hexec, hmem, hreports, hhbr⟩ := inboundRequest_no_window hup hen hlen hwin true
    exact ⟨t, hexec, hmem, hreports, by rw [hhbr]; rfl⟩

end Sys2Proof.Machine
end

section
/-!
PROOFS. The power links, the heartbeat, and the sequencers of the power dies (R12, R13, R25, R358 to R367,
R375). First what the power dies' parts read as after each basic update, then the operations that run over
all channels of a die, then the commands.
-/

namespace Sys2Proof.Machine

open Sys2Proof

/-! ## Channels, dies and links after an update -/

section
variable {s t : State}

theorem State.chan_congr (h : t.power = s.power) (n : Nat) : t.chan n = s.chan n := by
  rw [State.chan, h, State.chan]

theorem State.die_congr (h : t.power = s.power) (d : Nat) : t.die d = s.die d := by
  rw [State.die, h, State.die]

theorem State.hasDie_congr (h : t.variant = s.variant) (d : Nat) : t.hasDie d = s.hasDie d := by
  rw [State.hasDie, h, State.hasDie]

theorem State.chanHeld_congr (h : t.power = s.power) (n : Nat) : t.chanHeld n = s.chanHeld n := by
  rw [State.chanHeld, State.chan_congr h, State.die_congr h, State.chanHeld]

end

section
variable (s : State) (n : Nat) (c : Channel) (d : Nat) (v : PowerDie) (l : PowerLink)

theorem State.chan_setChan (m : Nat) :
    (s.setChan n c).chan m = if n = m then c.timed s.nowNs else s.chan m := Store.get_set _ _ _ _ _

@[simp] theorem State.chan_setChan_same : (s.setChan n c).chan n = c.timed s.nowNs := by
  rw [State.chan_setChan, if_pos rfl]

theorem State.chan_setChan_other {n m : Nat} (h : m ≠ n) : (s.setChan n c).chan m = s.chan m := by
  rw [State.chan_setChan, if_neg (Ne.symm h)]

@[simp] theorem State.die_setChan (e : Nat) : (s.setChan n c).die e = s.die e := rfl
@[simp] theorem State.setChan_regs : (s.setChan n c).regs = s.regs := rfl
@[simp] theorem State.setChan_reports : (s.setChan n c).reports = s.reports := rfl
@[simp] theorem State.setChan_nowNs : (s.setChan n c).nowNs = s.nowNs := rfl
@[simp] theorem State.rd_setChan (k : Nat) : (s.setChan n c).rd k = s.rd k := rfl

@[simp] theorem State.die_setDie_same : (s.setDie d v).die d = v := by
  unfold State.setDie State.die
  split <;> rfl

@[simp] theorem State.chan_setDie : (s.setDie d v).chan n = s.chan n := by
  unfold State.setDie
  split <;> rfl

@[simp] theorem State.setDie_regs : (s.setDie d v).regs = s.regs := by
  unfold State.setDie
  split <;> rfl

@[simp] theorem State.setDie_mem : (s.setDie d v).mem = s.mem := by
  unfold State.setDie
  split <;> rfl

@[simp] theorem State.setDie_reports : (s.setDie d v).reports = s.reports := by
  unfold State.setDie
  split <;> rfl

@[simp] theorem State.setDie_nowNs : (s.setDie d v).nowNs = s.nowNs := by
  unfold State.setDie
  split <;> rfl

@[simp] theorem State.setDie_variant : (s.setDie d v).variant = s.variant := by
  unfold State.setDie
  split <;> rfl

@[simp] theorem State.link_setLink_same : (s.setLink d l).link d = l := by
  unfold State.setLink State.link
  split <;> rfl

theorem State.keeps_setLink :
    s.Keeps (fun p => [Part.powerLinkA, .powerLinkB].contains p) (s.setLink d l) :=
  State.setLink_keeps (all_contains _) (State.Keeps.refl _ s) d l

@[simp] theorem State.setLink_power : (s.setLink d l).power = s.power := (State.keeps_setLink s d l).same .power rfl
@[simp] theorem State.setLink_rtk : (s.setLink d l).rtk = s.rtk := (State.keeps_setLink s d l).same .rtk rfl
@[simp] theorem State.setLink_regs : (s.setLink d l).regs = s.regs := (State.keeps_setLink s d l).same .regs rfl
@[simp] theorem State.setLink_reports : (s.setLink d l).reports = s.reports :=
  (State.keeps_setLink s d l).same .reports rfl
@[simp] theorem State.setLink_islands : (s.setLink d l).islands = s.islands :=
  (State.keeps_setLink s d l).same .islands rfl
@[simp] theorem State.setLink_coreHeld : (s.setLink d l).coreHeld = s.coreHeld :=
  (State.keeps_setLink s d l).same .coreHeld rfl
@[simp] theorem State.setLink_variant : (s.setLink d l).variant = s.variant := (State.keeps_setLink s d l).variant
@[simp] theorem State.setLink_nowNs : (s.setLink d l).nowNs = s.nowNs := (State.keeps_setLink s d l).nowNs

@[simp] theorem State.link_fault (c x : Nat) : (s.fault c x).link d = s.link d := rfl
@[simp] theorem State.chan_fault (c x : Nat) : (s.fault c x).chan n = s.chan n := rfl
@[simp] theorem State.die_fault (c x : Nat) : (s.fault c x).die d = s.die d := rfl

theorem State.reports_fault (c x : Nat) : (s.fault c x).reports = s.reports ++ [⟨c, x % 2 ^ 32, s.nowNs⟩] := rfl

@[simp] theorem State.wakeSeqRoom_power : (s.wakeSeqRoom d).power = s.power :=
  (State.wakeSeqRoom_keeps (all_contains [Part.rtk]) (State.Keeps.refl _ s) d).same .power rfl

end

/-! ## Supervision leaves what a channel does -/

section
variable (now : Nat) (c : Channel)

@[simp] theorem Channel.timed_on : (c.timed now).on = c.on := by unfold Channel.timed; split <;> rfl
@[simp] theorem Channel.timed_desired : (c.timed now).desired = c.desired := by unfold Channel.timed; split <;> rfl
@[simp] theorem Channel.timed_sequence : (c.timed now).sequence = c.sequence := by
  unfold Channel.timed; split <;> rfl
@[simp] theorem Channel.timed_restart : (c.timed now).restart = c.restart := by unfold Channel.timed; split <;> rfl
@[simp] theorem Channel.timed_latch : (c.timed now).latch = c.latch := by unfold Channel.timed; split <;> rfl
@[simp] theorem Channel.timed_cause : (c.timed now).cause = c.cause := by unfold Channel.timed; split <;> rfl
@[simp] theorem Channel.timed_hold : (c.timed now).hold = c.hold := by unfold Channel.timed; split <;> rfl
@[simp] theorem Channel.timed_junction : (c.timed now).junction = c.junction := by
  unfold Channel.timed; split <;> rfl
@[simp] theorem Channel.timed_voltage : (c.timed now).voltage = c.voltage := by unfold Channel.timed; split <;> rfl
@[simp] theorem Channel.timed_racc : (c.timed now).racc = c.racc := by unfold Channel.timed; split <;> rfl

end

/-! ## An operation on every channel of a die -/

/-- Steps that each update their own channel by a function of it update each channel of a list once. -/
theorem State.chan_foldl_update {g : State → Nat → State} {F : Nat → Channel → Channel} {now : Nat}
    (hnow : ∀ t n, (g t n).nowNs = t.nowNs)
    (hg : ∀ t n m, t.nowNs = now → (g t n).chan m = if n = m then F n (t.chan n) else t.chan m)
    {ns : List Nat} (hns : ns.Nodup) {s : State} (hs : s.nowNs = now) (m : Nat) :
    (ns.foldl g s).chan m = if m ∈ ns then F m (s.chan m) else s.chan m := by
  induction ns generalizing s with
  | nil => simp
  | cons n ns ih =>
    rw [List.nodup_cons] at hns
    rw [List.foldl_cons, ih hns.2 ((hnow s n).trans hs), hg s n m hs]
    by_cases hm : n = m
    · subst hm
      simp [hns.1]
    · simp [hm, Ne.symm hm]

theorem nodup_dieOuts (d : Nat) : (dieOuts d).Nodup :=
  List.Nodup.map (fun a b h => by simpa using h) List.nodup_range

theorem mem_dieOuts {d n : Nat} : n ∈ dieOuts d ↔ n / 24 = d := by
  simp only [dieOuts, List.mem_map, List.mem_range]
  exact ⟨fun ⟨c, hc, e⟩ => by omega, fun h => ⟨n % 24, by omega, by omega⟩⟩

theorem State.die_foldl {g : State → Nat → State} {d : Nat} (hg : ∀ t n, (g t n).die d = t.die d) (ns : List Nat)
    (s : State) : (ns.foldl g s).die d = s.die d := by
  induction ns generalizing s with
  | nil => rfl
  | cons n ns ih => rw [List.foldl_cons, ih, hg]

/-- Every channel of a die in last-state hold (R375). -/
def State.heldChans (s : State) (d : Nat) : State :=
  (dieOuts d).foldl (fun acc n => acc.setChan n (acc.chan n).held) s

section
variable (s : State) (d : Nat)

theorem State.keeps_heldChans : s.Keeps (fun p => [Part.power].contains p) (s.heldChans d) :=
  keeps_foldl _ _ (State.Keeps.refl _ s) fun _ _ h => State.setChan_keeps (all_contains _) h _ _

theorem State.chan_heldChans (n : Nat) :
    (s.heldChans d).chan n = if n / 24 = d then (s.chan n).held.timed s.nowNs else s.chan n := by
  have hstep : ∀ (t : State) (n m : Nat), t.nowNs = s.nowNs →
      (t.setChan n (t.chan n).held).chan m = if n = m then (t.chan n).held.timed s.nowNs else t.chan m :=
    fun t n m ht => by rw [State.chan_setChan, ht]
  rw [State.heldChans, State.chan_foldl_update (g := fun acc n => acc.setChan n (acc.chan n).held)
    (F := fun _ c => c.held.timed s.nowNs) (fun _ _ => State.setChan_nowNs ..) hstep (nodup_dieOuts d) rfl]
  simp only [mem_dieOuts]

theorem State.die_heldChans : (s.heldChans d).die d = s.die d :=
  State.die_foldl (fun t n => State.die_setChan t n (t.chan n).held d) _ _

theorem State.holdDie_eq (h : (s.die d).hold = false) :
    s.holdDie d = ((((s.heldChans d).setDie d { s.die d with hold := true, heldSince := true }).bump
      (Cnt.PWC_HOLD_ENTRY d)).fault 0x3319 d) := by
  rw [← State.die_heldChans s d]
  simp only [State.holdDie, h, Bool.false_eq_true, if_false]
  rfl

end

/-- Die-wide last-state hold: each channel of the die is held, the others stay, and the entry is counted and
reported (R375). -/
theorem State.holdDie_effect {s : State} {d : Nat} (hhold : (s.die d).hold = false) :
    ((s.holdDie d).die d).hold = true ∧
    (s.holdDie d).reports = s.reports ++ [⟨0x3319, d % 2 ^ 32, s.nowNs⟩] ∧
    (∀ n, (s.holdDie d).chan n = if n / 24 = d then (s.chan n).held.timed s.nowNs else s.chan n) ∧
    ∀ k, k ≠ Cnt.PWC_HOLD_ENTRY d → k ≠ Cnt.PWC_HOLD_ENTRY d + 4 → (s.holdDie d).rd k = s.rd k := by
  have hkeeps := State.keeps_heldChans s d
  have hregs : (s.heldChans d).regs = s.regs := hkeeps.same .regs rfl
  have hreports : (s.heldChans d).reports = s.reports := hkeeps.same .reports rfl
  rw [State.holdDie_eq s d hhold]
  refine ⟨?_, ?_, fun n => ?_, fun k hk hk4 => ?_⟩
  · rw [State.die_fault, State.die_congr (State.bump_power ..), State.die_setDie_same]
  · rw [State.reports_fault, State.bump_reports, State.bump_nowNs, State.setDie_reports, State.setDie_nowNs,
      hreports, hkeeps.nowNs]
  · rw [State.chan_fault, State.chan_congr (State.bump_power ..), State.chan_setDie, State.chan_heldChans]
  · rw [State.rd_fault, State.rd_bump _ _ _ hk hk4, State.rd, State.setDie_regs, hregs, State.rd]

/-! ## The power links (R12, R25, R359) -/

theorem powerLinkCommand_no_copy {s : State} {d : Die} {a b : LinkCopy} {cmd : PowerCmd} {rest : List PowerCmd}
    (hq : (s.die (dieNo d)).queue = cmd :: rest) (ha : a ≠ .good) (hb : b ≠ .good) :
    Answers (.powerLinkCommand d a b) s fun t =>
      t.power = s.power ∧ t.rtk = s.rtk ∧ t.reports = s.reports := by
  refine ⟨_, by rw [exec_powerLinkCommand, execPowerLinkCommand, hq], ?_⟩
  dsimp only
  rw [if_neg (by simp [ha, hb])]
  split <;> split <;> simp

/-- The state in which the die acts on its oldest command: the copies' silence counted, the command taken. -/
def State.taken (s : State) (d : Nat) (b : LinkCopy) (rest : List PowerCmd) : State :=
  (s.setLink d { s.link d with copyAOk := true, copyBOk := (s.link d).copyBOk || b != .silent }).setDie d
    { s.die d with queue := rest }

theorem execPowerLinkCommand_good {s : State} {d : Die} {b : LinkCopy} {cmd : PowerCmd} {rest : List PowerCmd}
    (hq : (s.die (dieNo d)).queue = cmd :: rest) (hb : b ≠ .bad) :
    execPowerLinkCommand d .good b s = .next
      (((s.taken (dieNo d) b rest).dieAct (dieNo d) cmd).wakeSeqRoom (dieNo d)) := by
  have hcopy : ∀ was, linkOk was .good = true := fun was => by simp [linkOk]
  rw [execPowerLinkCommand, hq]
  simp only [reduceCtorEq, if_false, hb, true_or, if_true, hcopy, State.die_congr (State.setLink_power ..)]
  rfl

/-- What the die does with OFF of a channel that is not in hold (R359). -/
theorem State.dieAct_off {s : State} {d : Nat} {c : Fin 24} {arg : Word} {th : Nat} (hworks : s.dieWorks d = true)
    (hheld : s.chanHeld (24 * d + c.val) = false) :
    s.dieAct d { code := 2, ch := c.val, arg := arg, thread := th } =
      s.setChan (24 * d + c.val)
        { (s.chan (24 * d + c.val)).off.noRetry with desired := false, dumped := false } := by
  have hch : c.val ≠ 255 := by omega
  simp [State.dieAct, hworks, hch, hheld, State.chanCmd]

theorem powerLinkCommand_off {s : State} {d : Die} {arg : Word} {th : Nat} {c : Fin 24} {rest : List PowerCmd}
    (hq : (s.die (dieNo d)).queue = { code := 2, ch := c.val, arg := arg, thread := th } :: rest)
    (hthere : s.hasDie (dieNo d) = true) (hfed : (s.die (dieNo d)).reversed = false)
    (hheld : s.chanHeld (24 * dieNo d + c.val) = false) :
    Answers (.powerLinkCommand d .good .good) s fun t =>
      (t.chan (24 * dieNo d + c.val)).on = false ∧ (t.chan (24 * dieNo d + c.val)).desired = false ∧
      (t.chan (24 * dieNo d + c.val)).sequence = false ∧ (t.chan (24 * dieNo d + c.val)).restart = none ∧
      (t.die (dieNo d)).queue = rest ∧
      ∀ n, n ≠ 24 * dieNo d + c.val → t.chan n = s.chan n := by
  generalize hN : dieNo d = D at *
  have hchan : ∀ n, (s.taken D .good rest).chan n = s.chan n := fun n => by
    rw [State.taken, State.chan_setDie, State.chan_congr (State.setLink_power ..)]
  have hdie : (s.taken D .good rest).die D = { s.die D with queue := rest } := State.die_setDie_same ..
  have hworks : (s.taken D .good rest).dieWorks D = true := by
    have hvariant : (s.taken D .good rest).variant = s.variant := by simp [State.taken]
    simp [State.dieWorks, hdie, State.hasDie_congr hvariant, hthere, hfed]
  have hheld' : (s.taken D .good rest).chanHeld (24 * D + c.val) = false := by
    have h24 : (24 * D + c.val) / 24 = D := by omega
    rw [State.chanHeld, h24] at hheld ⊢
    rw [hchan, hdie]
    exact hheld
  refine ⟨_, by rw [exec_powerLinkCommand, execPowerLinkCommand_good (by rw [hN, hq]) (by decide), hN,
    State.dieAct_off hworks hheld'], ?_⟩
  simp only [State.chan_congr (State.wakeSeqRoom_power ..), State.die_congr (State.wakeSeqRoom_power ..)]
  refine ⟨?_, ?_, ?_, ?_, ?_, fun n hn => ?_⟩
  · simp [Channel.off, Channel.noRetry]
  · simp
  · simp [Channel.off, Channel.noRetry]
  · simp [Channel.off, Channel.noRetry]
  · rw [State.die_setChan, hdie]
  · rw [State.chan_setChan_other _ _ hn, hchan]

theorem powerLinkCopySilent_of_both {s : State} {d : Die} {b : Bool} (hthere : s.hasDie (dieNo d) = true)
    (ha : (s.link (dieNo d)).copyAOk = true) (hb : (s.link (dieNo d)).copyBOk = true) :
    Answers (.powerLinkCopySilent d b) s fun t =>
      (t.link (dieNo d)).copyAOk = b ∧ (t.link (dieNo d)).copyBOk = !b ∧
      t.reports = s.reports ++ [⟨0x2312, 0, s.nowNs⟩] ∧ t.regs = s.regs := by
  rw [Answers, exec_powerLinkCopySilent]
  simp only [execPowerLinkCopySilent, hthere, ha, hb]
  cases b <;> refine ⟨_, rfl, ?_⟩ <;> simp [State.reports_fault, *]

/-- The feed of a die is in its operating range. -/
def State.fed (s : State) : Die → Bool
  | .a => s.supply.feedAOk
  | .b => s.supply.feedBOk

theorem powerLinksLost_of_some {s : State} {d : Die} (hthere : s.hasDie (dieNo d) = true)
    (hok : (s.link (dieNo d)).copyAOk = true ∨ (s.link (dieNo d)).copyBOk = true) :
    Answers (.powerLinksLost d) s fun t =>
      (t.link (dieNo d)).copyAOk = false ∧ (t.link (dieNo d)).copyBOk = false ∧
      t.reports = s.reports ++ [⟨0x331C, 0, s.nowNs⟩] ++
        (if s.fed d = true then [⟨0x331B, 0, s.nowNs⟩] else []) ∧
      t.power = s.power ∧ t.regs = s.regs := by
  have hgo : (s.hasDie (dieNo d) && ((s.link (dieNo d)).copyAOk || (s.link (dieNo d)).copyBOk)) = true := by
    simpa [hthere] using hok
  have hfed : (if d = .a then s.supply.feedAOk else s.supply.feedBOk) = s.fed d := by cases d <;> rfl
  rw [Answers, exec_powerLinksLost, execPowerLinksLost, if_pos hgo, hfed]
  refine ⟨_, rfl, ?_⟩
  dsimp only
  split <;> simp [State.reports_fault]

/-! ## The heartbeat (R12, R375) -/

theorem State.beating_setLink (s : State) (d e : Nat) (l : PowerLink) :
    (s.setLink e l).beating d = s.beating d := by
  simp only [State.beating, State.hasDie, State.blkEn, State.bit, State.rd, State.up, State.running, State.island,
    State.setLink_variant, State.setLink_regs, State.setLink_islands, State.setLink_coreHeld]

/-- A heartbeat line changes its level. -/
def PowerLink.toggled (l : PowerLink) (now : Nat) : PowerLink :=
  { l with heartbeat := !l.heartbeat, edgeAt := now }

theorem execHeartbeatToggle_eq (s : State) :
    execHeartbeatToggle s = .next (
      let t := if s.beating 0 then s.setLink 0 ((s.link 0).toggled s.nowNs) else s
      if s.beating 1 then t.setLink 1 ((s.link 1).toggled s.nowNs) else t) := by
  have hbeat : ∀ l, (s.setLink 0 l).beating 1 = s.beating 1 := State.beating_setLink s 1 0
  cases h0 : s.beating 0 <;> simp [execHeartbeatToggle, h0, hbeat, PowerLink.toggled]; all_goals rfl

theorem heartbeatToggle_both {s : State} (h0 : s.beating 0 = true) (h1 : s.beating 1 = true) :
    Answers .heartbeatToggle s fun t =>
      t.powerLinkA.heartbeat = !s.powerLinkA.heartbeat ∧ t.powerLinkB.heartbeat = !s.powerLinkB.heartbeat ∧
      t.powerLinkA.edgeAt = s.nowNs ∧ t.powerLinkB.edgeAt = s.nowNs ∧
      t.regs = s.regs ∧ t.power = s.power := by
  refine ⟨_, by rw [exec_heartbeatToggle, execHeartbeatToggle_eq], ?_⟩
  simp only [h0, h1, if_true]
  exact ⟨rfl, rfl, rfl, rfl, rfl, rfl⟩

theorem heartbeatToggle_none {s : State} (h0 : s.beating 0 = false) (h1 : s.beating 1 = false) :
    Answers .heartbeatToggle s fun t => t = s := by
  refine ⟨_, by rw [exec_heartbeatToggle, execHeartbeatToggle_eq], ?_⟩
  simp [h0, h1]

theorem heartbeatLoss_of_silence {s : State} {d : Die} (hthere : s.hasDie (dieNo d) = true)
    (hfed : (s.die (dieNo d)).reversed = false) (hhold : (s.die (dieNo d)).hold = false)
    (hedge : (s.link (dieNo d)).edgeAt + 5000000 ≤ s.nowNs) :
    Answers (.heartbeatLoss d) s fun t =>
      (t.die (dieNo d)).hold = true ∧ t.reports = s.reports ++ [⟨0x3319, dieNo d, s.nowNs⟩] ∧
      (∀ n, n / 24 = dieNo d → t.chan n = (s.chan n).held.timed s.nowNs) ∧
      (∀ n, n / 24 ≠ dieNo d → t.chan n = s.chan n) ∧
      ∀ k, k ≠ Cnt.PWC_HOLD_ENTRY (dieNo d) → k ≠ Cnt.PWC_HOLD_ENTRY (dieNo d) + 4 → t.rd k = s.rd k := by
  have hgo : (s.dieWorks (dieNo d) && decide ((s.link (dieNo d)).edgeAt + 5000000 ≤ s.nowNs)) = true := by
    simp [State.dieWorks, hthere, hfed, hedge]
  obtain ⟨hholds, hreports, hchan, hrd⟩ := State.holdDie_effect hhold
  have hno : dieNo d % 2 ^ 32 = dieNo d := by cases d <;> rfl
  rw [hno] at hreports
  exact ⟨_, by rw [exec_heartbeatLoss, execHeartbeatLoss, if_pos hgo], hholds, hreports,
    fun n hn => by rw [hchan, if_pos hn], fun n hn => by rw [hchan, if_neg hn], hrd⟩

theorem heartbeatLoss_early {s : State} {d : Die} (hedge : s.nowNs < (s.link (dieNo d)).edgeAt + 5000000) :
    Answers (.heartbeatLoss d) s fun t => t = s := by
  have hstay : ¬(s.dieWorks (dieNo d) && decide ((s.link (dieNo d)).edgeAt + 5000000 ≤ s.nowNs)) = true := by
    simp [Nat.not_le.mpr hedge]
  exact ⟨s, by rw [exec_heartbeatLoss, execHeartbeatLoss, if_neg hstay], rfl⟩

/-! ## The sequencer's copy and its tick (R13, R358, R360, R363) -/

theorem State.up_seq {s : State} (hrun : s.running .seq = true) (hheld : s.coreHeld = false) :
    s.up .seq = true := by
  simp [State.up, hrun, hheld]

/-- The channels of a die copied into their registers. -/
def State.copiedChans (s : State) (d : Nat) : State := (dieOuts d).foldl (fun acc n => acc.refreshChan n) s

theorem State.keeps_copiedChans (s : State) (d : Nat) :
    s.Keeps (fun p => [Part.regs].contains p) (s.copiedChans d) :=
  keeps_foldl _ _ (State.Keeps.refl _ s) fun _ _ h => State.refreshChan_keeps (all_contains _) h _

/-- The words of a die that the sequencer reads: feed voltage, load dump and 1 s average. -/
def State.copiedDie (s : State) (d feed avg : Nat) : State :=
  ((s.setFld (Reg.PWC_DIESTATE d) 0 16 feed).setBit (Reg.PWC_DIESTATE d) 16 (s.die d).dump).setFld
    (Reg.PWC_DIESTATE d) 24 8 avg

theorem State.rd_copiedDie (s : State) (d feed avg : Nat) :
    (s.copiedDie d feed avg).rd (Reg.PWC_DIESTATE d) =
      setBits (setBits (setBits (s.rd (Reg.PWC_DIESTATE d)) 0 16 feed) 16 1 (b2n (s.die d).dump)) 24 8 avg := by
  rw [State.copiedDie, State.rd_setFld, if_pos rfl, State.rd_setBit, if_pos rfl, State.rd_setFld, if_pos rfl]

theorem State.copiedDie_power (s : State) (d feed avg : Nat) : (s.copiedDie d feed avg).power = s.power := by
  rw [State.copiedDie, State.setFld_power, State.setBit_power, State.setFld_power]

theorem State.copiedDie_mem (s : State) (d feed avg : Nat) : (s.copiedDie d feed avg).mem = s.mem := by
  rw [State.copiedDie, State.setFld_mem, State.setBit_mem, State.setFld_mem]

theorem State.copiedDie_effect (s : State) (d : Nat) (feed : BitVec 16) (avg : BitVec 8) :
    (s.copiedDie d feed.toNat avg.toNat).fld (Reg.PWC_DIESTATE d) 0 16 = feed.toNat ∧
    (s.copiedDie d feed.toNat avg.toNat).fld (Reg.PWC_DIESTATE d) 24 8 = avg.toNat ∧
    (s.copiedDie d feed.toNat avg.toNat).bit (Reg.PWC_DIESTATE d) 16 = (s.die d).dump := by
  unfold State.fld State.bit
  rw [State.rd_copiedDie]
  refine ⟨?_, ?_, ?_⟩
  · rw [getBits_setBits_apart _ _ _ _ _ _ (by omega) (by omega),
      getBits_setBits_apart _ _ _ _ _ _ (by omega) (by omega), getBits_setBits_same _ _ _ _ (by omega),
      Nat.mod_eq_of_lt feed.isLt]
  · rw [getBits_setBits_same _ _ _ _ (by omega), Nat.mod_eq_of_lt avg.isLt]
  · rw [getBit_setBits_apart _ _ _ _ _ (by omega) (by omega), getBit_setBits_same _ _ _ (by omega)]

theorem execSeqStateRefresh_of_link {s : State} {d : Die} {feed : BitVec 16} {avg : BitVec 8}
    (hgo : (s.dieWorks (dieNo d) && s.up .seq &&
      ((s.link (dieNo d)).copyAOk || (s.link (dieNo d)).copyBOk)) = true) :
    execSeqStateRefresh d feed avg s = .next
      (((s.copiedChans (dieNo d)).copiedDie (dieNo d) feed.toNat avg.toNat).setDie (dieNo d)
        { (s.copiedChans (dieNo d)).die (dieNo d) with stateRead := true }) := by
  rw [execSeqStateRefresh, if_pos hgo, State.copiedDie, State.copiedChans]

theorem seqStateRefresh_of_link {s : State} {d : Die} {feed : BitVec 16} {avg : BitVec 8}
    (hthere : s.hasDie (dieNo d) = true) (hrun : s.running .seq = true) (hcore : s.coreHeld = false)
    (hfed : (s.die (dieNo d)).reversed = false)
    (hok : (s.link (dieNo d)).copyAOk = true ∨ (s.link (dieNo d)).copyBOk = true) :
    Answers (.seqStateRefresh d feed avg) s fun t =>
      t.fld (Reg.PWC_DIESTATE (dieNo d)) 0 16 = feed.toNat ∧
      t.fld (Reg.PWC_DIESTATE (dieNo d)) 24 8 = avg.toNat ∧
      t.bit (Reg.PWC_DIESTATE (dieNo d)) 16 = (s.die (dieNo d)).dump ∧
      (t.die (dieNo d)).stateRead = true ∧ (∀ n, t.chan n = s.chan n) ∧ t.mem = s.mem := by
  have hgo : (s.dieWorks (dieNo d) && s.up .seq &&
      ((s.link (dieNo d)).copyAOk || (s.link (dieNo d)).copyBOk)) = true := by
    simpa [State.dieWorks, hthere, hfed, State.up_seq hrun hcore] using hok
  have hkeeps := State.keeps_copiedChans s (dieNo d)
  have hpower : (s.copiedChans (dieNo d)).power = s.power := hkeeps.same .power rfl
  have hmem : (s.copiedChans (dieNo d)).mem = s.mem := hkeeps.same .mem rfl
  refine ⟨_, by rw [exec_seqStateRefresh, execSeqStateRefresh_of_link hgo], ?_⟩
  generalize s.copiedChans (dieNo d) = u at hpower hmem
  obtain ⟨hfeed, havg, hdump⟩ := State.copiedDie_effect u (dieNo d) feed avg
  have hrd : ∀ v, ((u.copiedDie (dieNo d) feed.toNat avg.toNat).setDie (dieNo d) v).rd
      = (u.copiedDie (dieNo d) feed.toNat avg.toNat).rd := fun v => by
    funext k
    rw [State.rd, State.setDie_regs, State.rd]
  unfold State.fld State.bit at *
  rw [hrd]
  refine ⟨hfeed, havg, by rw [hdump, State.die_congr hpower], by rw [State.die_setDie_same],
    fun n => ?_, ?_⟩
  · rw [State.chan_setDie, State.chan_congr (State.copiedDie_power ..), State.chan_congr hpower]
  · rw [State.setDie_mem, State.copiedDie_mem, hmem]

/-- What a tick leaves of a channel (R358, R363, R373). -/
def Channel.ticked (c : Channel) (v : ChanSample) (n : Nat) : Channel :=
  { c with
    current := v.currents.getLastD 0, junction := v.junction, voltage := v.voltage
    racc := v.dieCurrents.foldl (runoutStep (runoutOf (chanClass (n % 24))).1) c.racc }

/-- The samples of a tick stored in the channels of a die. -/
def State.tickedChans (s : State) (samples : List ChanSample) (d : Nat) : State :=
  (dieOuts d).foldl (fun acc n => acc.tickChan samples n) s

/-- The thread's part of a tick: its data words cleared, and its threads told. -/
def State.tickedUnit (s : State) (d : Nat) : State :=
  (List.range 4).foldl (fun acc i => acc.tickThread (192 + 4 * d + i))
    ((List.range 40).foldl (fun acc i => acc.wr (Reg.PWC_DMEM d (0xFD8 + i)) 0) s)

section
variable (s : State) (samples : List ChanSample)

theorem State.tickChan_eq (n : Nat) :
    s.tickChan samples n = (s.setChan n ((s.chan n).ticked (sampleOf samples n) n)).wrN
      (Reg.PWC_DMEM (n / 24) (0xFC0 + n % 24)) (meanSquare (sampleOf samples n).currents) := by
  simp only [State.tickChan, Channel.ticked]

theorem State.nowNs_tickChan (n : Nat) : (s.tickChan samples n).nowNs = s.nowNs := by
  rw [State.tickChan_eq, State.wrN_nowNs, State.setChan_nowNs]

theorem State.chan_tickChan (n m : Nat) :
    (s.tickChan samples n).chan m =
      if n = m then ((s.chan n).ticked (sampleOf samples n) n).timed s.nowNs else s.chan m := by
  rw [State.tickChan_eq, State.chan_congr (State.wrN_power ..), State.chan_setChan]

theorem State.chan_tickedChans (d n : Nat) :
    (s.tickedChans samples d).chan n =
      if n / 24 = d then ((s.chan n).ticked (sampleOf samples n) n).timed s.nowNs else s.chan n := by
  rw [State.tickedChans, State.chan_foldl_update (g := fun acc n => acc.tickChan samples n)
    (F := fun n c => (c.ticked (sampleOf samples n) n).timed s.nowNs)
    (fun t n => State.nowNs_tickChan t samples n)
    (fun t n m ht => by rw [State.chan_tickChan, ht]) (nodup_dieOuts d) rfl]
  simp only [mem_dieOuts]

theorem State.tickedUnit_power (d : Nat) : (s.tickedUnit d).power = s.power := by
  have hthreads := fun u : State => keeps_foldl (fun acc i => State.tickThread acc (192 + 4 * d + i)) (List.range 4)
    (State.Keeps.refl (fun p => [Part.rtk].contains p) u)
    fun t x h => State.tickThread_keeps (all_contains _) h _
  have hwords := keeps_foldl (fun acc i => State.wr acc (Reg.PWC_DMEM d (0xFD8 + i)) 0)
    (List.range 40) (State.Keeps.refl (fun p => [Part.regs].contains p) s)
    fun t x h => State.wr_keeps (all_contains _) h _ _
  exact ((hthreads _).same .power rfl).trans (hwords.same .power rfl)

/-- The tick of one sequencer updates each channel of its die, and no other. -/
theorem State.chan_tickSeq {d : Nat} (hthere : s.hasDie d = true) (n : Nat) :
    (s.tickSeq samples d).chan n =
      if n / 24 = d then ((s.chan n).ticked (sampleOf samples n) n).timed s.nowNs else s.chan n := by
  have heq : s.tickSeq samples d = (s.tickedChans samples d).tickedUnit d := by
    rw [State.tickSeq, if_neg (by simp [hthere])]
    simp only [State.tickedChans, State.tickedUnit]
  rw [heq, State.chan_congr (State.tickedUnit_power ..), State.chan_tickedChans]

theorem State.chan_tickSeq_other {d n : Nat} (hn : n / 24 ≠ d) : (s.tickSeq samples d).chan n = s.chan n := by
  cases hthere : s.hasDie d with
  | true => rw [State.chan_tickSeq s samples hthere, if_neg hn]
  | false => rw [State.tickSeq, if_pos (by simp [hthere])]

theorem State.keeps_tickSeq (d : Nat) :
    s.Keeps (fun p => [Part.regs, .rtk, .power].contains p) (s.tickSeq samples d) :=
  State.tickSeq_keeps (all_contains _) (State.Keeps.refl _ s) samples d

end

theorem seqTick_ticks {s : State} {samples : List ChanSample} {n : Fin 48} (hrun : s.running .seq = true)
    (hcore : s.coreHeld = false) (hthere : s.hasDie (n.val / 24) = true) :
    Answers (.seqTick samples) s fun t =>
      t.chan n.val = ((s.chan n.val).ticked (sampleOf samples n.val) n.val).timed s.nowNs := by
  refine ⟨_, by rw [exec_seqTick, execSeqTick, if_pos (State.up_seq hrun hcore)], ?_⟩
  rcases (by omega : n.val / 24 = 0 ∨ n.val / 24 = 1) with hdie | hdie
  · rw [hdie] at hthere
    rw [State.chan_tickSeq_other _ _ (by omega), State.chan_tickSeq _ _ hthere, if_pos hdie]
  · rw [hdie] at hthere
    have hkeeps := State.keeps_tickSeq s samples 0
    rw [State.chan_tickSeq _ _ (by rw [State.hasDie_congr hkeeps.variant, hthere]), if_pos hdie,
      State.chan_tickSeq_other _ _ (by omega), hkeeps.nowNs]

/-! ## The wire model (R365 to R367) -/

section
variable (s : State) (d : BitVec 64)

@[simp] theorem State.reply_power : (s.reply d).power = s.power := rfl
@[simp] theorem State.reply_nowNs : (s.reply d).nowNs = s.nowNs := rfl
@[simp] theorem State.rd_reply (k : Nat) : (s.reply d).rd k = s.rd k := rfl
theorem State.thetaStored_reply (n : Nat) (v : Word) : (s.reply d).thetaStored n v = s.thetaStored n v := rfl

end

theorem guardReg_of_admits {s : State} {m : Master} {key : Nat} {eff : State → State} (h : s.admits m key) :
    guardReg m key eff s = eff (s.reply 0) := by
  obtain ⟨hcheck, hthere⟩ := h
  simp only [guardReg, hcheck, hthere, if_true]

/-- THETA of a channel stored, and the time of it. -/
def State.storedTheta (s : State) (n : Nat) (w : Word) : State :=
  (s.wr (Reg.PWC_THETA (n / 24) (n % 24)) w).setChan n { s.chan n with thetaAt := s.nowNs }

section
variable (s : State) (n : Nat) (w : Word)

theorem State.rd_storedTheta_same : (s.storedTheta n w).rd (Reg.PWC_THETA (n / 24) (n % 24)) = w := by
  rw [State.storedTheta, State.rd_setChan, State.rd_wr_same]

theorem State.rd_storedTheta_other {k : Nat} (hk : k ≠ Reg.PWC_THETA (n / 24) (n % 24)) :
    (s.storedTheta n w).rd k = s.rd k := by
  rw [State.storedTheta, State.rd_setChan, State.rd_wr_other _ _ (Ne.symm hk)]

theorem State.chan_storedTheta_same :
    (s.storedTheta n w).chan n = ({ s.chan n with thetaAt := s.nowNs } : Channel).timed s.nowNs := by
  rw [State.storedTheta, State.chan_setChan_same, State.wr_nowNs]

theorem State.chan_storedTheta_other {j : Nat} (hj : j ≠ n) : (s.storedTheta n w).chan j = s.chan j := by
  rw [State.storedTheta, State.chan_setChan_other _ _ hj, State.chan_congr (State.wr_power ..)]

theorem State.chanHeld_storedTheta : (s.storedTheta n w).chanHeld n = s.chanHeld n := by
  rw [State.chanHeld, State.chan_storedTheta_same, State.storedTheta, State.die_setChan,
    State.die_congr (State.wr_power ..), Channel.timed_hold, State.chanHeld]

theorem State.rdN_storedTheta_limit :
    (s.storedTheta n w).rdN (Reg.PWC_THLIM (n / 24) (n % 24)) = s.rdN (Reg.PWC_THLIM (n / 24) (n % 24)) := by
  rw [State.rdN, State.rd_storedTheta_other _ _ _ (by simp [regKey]), State.rdN]

theorem State.writeTheta_eq (v : Word) :
    s.writeTheta n v =
      if s.rdN (Reg.PWC_THLIM (n / 24) (n % 24)) ≤ (s.thetaStored n v).toNat ∧ (s.chan n).latch = false ∧
          s.chanHeld n = false then
        (s.storedTheta n (s.thetaStored n v)).tripChan n .model
      else s.storedTheta n (s.thetaStored n v) := by
  rw [State.writeTheta]
  dsimp only
  rw [← State.storedTheta, State.rdN_storedTheta_limit, State.chanHeld_storedTheta, State.chan_storedTheta_same,
    Channel.timed_latch]

end

theorem thetaWrite_below {s : State} {m : Master} {n : Out} {v : Word}
    (hadm : s.admits m (Reg.PWC_THETA (n.val / 24) (n.val % 24)))
    (hlow : (s.thetaStored n.val v).toNat < s.rdN (Reg.PWC_THLIM (n.val / 24) (n.val % 24))) :
    Answers (.thetaWrite m n v) s fun t =>
      t.rd (Reg.PWC_THETA (n.val / 24) (n.val % 24)) = s.thetaStored n.val v ∧
      t.chan n.val = ({ s.chan n.val with thetaAt := s.nowNs } : Channel).timed s.nowNs ∧
      (∀ j, j ≠ n.val → t.chan j = s.chan j) ∧
      ∀ k, k ≠ Reg.PWC_THETA (n.val / 24) (n.val % 24) → t.rd k = s.rd k := by
  have hlimit : (s.reply 0).rdN (Reg.PWC_THLIM (n.val / 24) (n.val % 24)) =
      s.rdN (Reg.PWC_THLIM (n.val / 24) (n.val % 24)) := by rw [State.rdN, State.rd_reply, State.rdN]
  refine ⟨(s.reply 0).storedTheta n.val (s.thetaStored n.val v), ?_, ?_, ?_, fun j hj => ?_, fun k hk => ?_⟩
  · rw [exec_thetaWrite, execThetaWrite, guardReg_of_admits hadm, State.writeTheta_eq, if_neg,
      State.thetaStored_reply]
    rw [hlimit, State.thetaStored_reply]
    omega
  · rw [State.rd_storedTheta_same]
  · rw [State.chan_storedTheta_same, State.chan_congr (State.reply_power ..), State.reply_nowNs]
  · rw [State.chan_storedTheta_other _ _ _ hj, State.chan_congr (State.reply_power ..)]
  · rw [State.rd_storedTheta_other _ _ _ hk, State.rd_reply]

/-! ### A trip by the model, and a model that stalls (R365) -/

theorem State.keeps_countTrip (s : State) (n : Nat) (k : TripCause) :
    s.Keeps (fun p => [Part.regs, .saturated, .irqs].contains p) (s.countTrip n k) :=
  State.countTrip_keeps (all_contains _) (State.Keeps.refl _ s) n k

theorem State.rd_countTrip_theta (s : State) (n m : Nat) :
    (s.countTrip n .model).rd (Reg.PWC_THETA (m / 24) (m % 24)) = s.rd (Reg.PWC_THETA (m / 24) (m % 24)) := by
  simp only [State.countTrip, tripCounter]
  rw [State.rd_bump _ _ _ (by simp only [regKey]; omega) (by simp only [regKey]; omega),
    State.rd_monEvent _ _ _ (by simp only [regKey]; omega)]

/-- A trip by the wire model latches the channel off with cause MODEL, and touches no other channel and no
THETA (R365, R369). -/
theorem State.tripChan_model_effect (s : State) (n : Nat) :
    ((s.tripChan n .model).chan n).on = false ∧ ((s.tripChan n .model).chan n).latch = true ∧
    ((s.tripChan n .model).chan n).cause = addCause (s.chan n).cause .model ∧
    (∀ j, j ≠ n → (s.tripChan n .model).chan j = s.chan j) ∧
    ∀ m, (s.tripChan n .model).rd (Reg.PWC_THETA (m / 24) (m % 24)) =
      s.rd (Reg.PWC_THETA (m / 24) (m % 24)) := by
  have hpower : (s.countTrip n .model).power = s.power := (State.keeps_countTrip s n .model).same .power rfl
  simp only [State.tripChan]
  refine ⟨?_, ?_, ?_, fun j hj => ?_, fun m => ?_⟩
  · simp [Channel.latched, Channel.off]
  · simp [Channel.latched]
  · simp [Channel.latched, Channel.off, State.chan_congr hpower]
  · rw [State.chan_setChan_other _ _ hj, State.chan_congr hpower]
  · rw [State.rd_setChan, State.rd_countTrip_theta]

theorem thetaWrite_at_limit {s : State} {m : Master} {n : Out} {v : Word}
    (hadm : s.admits m (Reg.PWC_THETA (n.val / 24) (n.val % 24)))
    (hhigh : s.rdN (Reg.PWC_THLIM (n.val / 24) (n.val % 24)) ≤ (s.thetaStored n.val v).toNat)
    (hlatch : (s.chan n.val).latch = false) (hheld : s.chanHeld n.val = false) :
    Answers (.thetaWrite m n v) s fun t =>
      t.rd (Reg.PWC_THETA (n.val / 24) (n.val % 24)) = s.thetaStored n.val v ∧
      (t.chan n.val).on = false ∧ (t.chan n.val).latch = true ∧
      (t.chan n.val).cause = addCause (s.chan n.val).cause .model ∧
      ∀ j, j ≠ n.val → t.chan j = s.chan j := by
  have hlimit : (s.reply 0).rdN (Reg.PWC_THLIM (n.val / 24) (n.val % 24)) =
      s.rdN (Reg.PWC_THLIM (n.val / 24) (n.val % 24)) := by rw [State.rdN, State.rd_reply, State.rdN]
  have hchan := State.chan_congr (State.reply_power s 0)
  obtain ⟨hoff, hlatched, hcause, hother, htheta⟩ :=
    State.tripChan_model_effect ((s.reply 0).storedTheta n.val (s.thetaStored n.val v)) n.val
  refine ⟨_, ?_, (htheta n.val).trans (State.rd_storedTheta_same ..), hoff, hlatched, ?_, fun j hj => ?_⟩
  · rw [exec_thetaWrite, execThetaWrite, guardReg_of_admits hadm, State.writeTheta_eq, if_pos,
      State.thetaStored_reply]
    rw [hlimit, State.thetaStored_reply, hchan, State.chanHeld_congr (State.reply_power s 0)]
    exact ⟨hhigh, hlatch, hheld⟩
  · rw [hcause, State.chan_storedTheta_same, Channel.timed_cause, hchan]
  · rw [hother j hj, State.chan_storedTheta_other _ _ _ hj, hchan]

/-- A channel that enters last-state hold (R375). -/
theorem State.holdChan_effect {s : State} {n : Nat} (h : s.chanHeld n = false) :
    (s.holdChan n).chan n = ({ (s.chan n).held with hold := true } : Channel).timed s.nowNs ∧
    (s.holdChan n).reports = s.reports ++ [⟨0x2319, n % 2 ^ 32, s.nowNs⟩] ∧
    ∀ k, k ≠ Cnt.PWC_HOLD_ENTRY (n / 24) → k ≠ Cnt.PWC_HOLD_ENTRY (n / 24) + 4 → (s.holdChan n).rd k = s.rd k := by
  rw [State.holdChan, if_neg (by simp [h])]
  refine ⟨?_, ?_, fun k hk hk4 => ?_⟩
  · rw [State.chan_fault, State.chan_congr (State.bump_power ..), State.chan_setChan_same]
  · rw [State.reports_fault, State.bump_reports, State.bump_nowNs, State.setChan_reports, State.setChan_nowNs]
  · rw [State.rd_fault, State.rd_bump _ _ _ hk hk4, State.rd_setChan]

theorem modelStall_holds {s : State} {n : Out} (hstall : s.modelStalled n.val = true)
    (hheld : s.chanHeld n.val = false) (hworks : s.dieWorks (n.val / 24) = true)
    (hbeat : s.beating (n.val / 24) = true) :
    Answers (.modelStall n) s fun t =>
      (t.chan n.val).hold = true ∧ (t.chan n.val).on = true ∧
      t.bit (Reg.PWC_CHSTAT (n.val / 24) (n.val % 24)) 19 = true ∧
      t.reports = s.reports ++ [⟨0x2317, 0, s.nowNs⟩, ⟨0x2319, n.val, s.nowNs⟩] := by
  have hkeeps := State.chanFlag_keeps (all_contains [Part.regs, .irqs]) (State.Keeps.refl _ s) n.val 19
  have hpower : ((s.chanFlag n.val 19).fault 0x2317 0).power = s.power := hkeeps.same .power rfl
  have hreports : (s.chanFlag n.val 19).reports = s.reports := hkeeps.same .reports rfl
  have hnow : (s.chanFlag n.val 19).nowNs = s.nowNs := hkeeps.nowNs
  obtain ⟨hchan, hlog, hrd⟩ := State.holdChan_effect (s := (s.chanFlag n.val 19).fault 0x2317 0)
    (by rw [State.chanHeld_congr hpower, hheld])
  rw [State.chan_congr hpower] at hchan
  have hon : (s.chan n.val).on = true := by
    simp only [State.modelStalled, Bool.and_eq_true] at hstall
    exact hstall.1
  refine ⟨((s.chanFlag n.val 19).fault 0x2317 0).holdChan n.val, ?_, ?_, ?_, ?_, ?_⟩
  · rw [exec_modelStall, execModelStall, atOut, if_pos hworks, if_pos (by simp [hstall, hheld, hbeat])]
  · rw [hchan, Channel.timed_hold]
  · rw [hchan, Channel.timed_on]
    exact hon
  · rw [State.bit, hrd _ (by simp only [regKey]; omega) (by simp only [regKey]; omega), State.rd_fault,
      State.chanFlag, State.rd_irq, State.rd_setBit, if_pos rfl, getBit_setBits_same _ _ _ (by omega)]
  · have hsmall : n.val % 2 ^ 32 = n.val := Nat.mod_eq_of_lt (by omega)
    rw [hlog, State.reports_fault, hreports, State.fault_nowNs, hnow, hsmall, List.append_assoc]
    rfl

/-! ## The model snapshot (R366) -/

theorem State.rdByte_wrMem_outside (s : State) (a a' : Nat) (bs : List Byte) (h : a' < a ∨ a + bs.length ≤ a') :
    (s.wrMem a bs).rdByte a' = s.rdByte a' := State.rdByte_wrBytes_outside s a a' bs h

theorem State.keeps_wrMem (s : State) (a : Nat) (bs : List Byte) :
    s.Keeps (fun p => [Part.mem, .eccBad].contains p) (s.wrMem a bs) :=
  State.wrMem_keeps (all_contains _) (State.Keeps.refl _ s) a bs

theorem length_bytesLE (len n : Nat) : (bytesLE len n).length = len := by simp [bytesLE]

theorem State.length_snapBody (s : State) : s.snapBody.length = 32736 := by
  have hrecord : ∀ n, (s.snapRecord n).length = 32 := fun n => by simp [State.snapRecord, length_bytesLE]
  rw [State.snapBody, List.length_append, List.length_flatMap, List.length_replicate]
  simp [hrecord]

/-- The snapshot noted: its time, and which dies are in hold. -/
def State.snapped (s : State) (now : Nat) : State :=
  let u : State := { s with power := { s.power with snapAt := some now } }
  (u.setDie 0 { u.die 0 with heldSince := (u.die 0).hold }).setDie 1
    { u.die 1 with heldSince := (u.die 1).hold }

/-- A snapshot is a body and then a header, written to one of the two banks, and noted. -/
theorem State.writeSnapshot_eq (s : State) : ∃ b hd, b ≤ 1 ∧ hd.length = 32 ∧
    s.writeSnapshot = ((s.wrMem (snapBank b + 32) s.snapBody).wrMem (snapBank b) hd).snapped s.nowNs := by
  refine ⟨_, _, ?_, ?_, by rw [State.writeSnapshot]; rfl⟩
  · cases s.newestSnap with
    | none => exact Nat.zero_le _
    | some x => exact Nat.sub_le _ _
  · simp [length_bytesLE]

section
variable (s : State) (now : Nat)

theorem State.snapped_regs : (s.snapped now).regs = s.regs := by
  rw [State.snapped, State.setDie_regs, State.setDie_regs]

theorem State.snapped_mem : (s.snapped now).mem = s.mem := by
  rw [State.snapped, State.setDie_mem, State.setDie_mem]

theorem State.chan_snapped (n : Nat) : (s.snapped now).chan n = s.chan n := by
  rw [State.snapped, State.chan_setDie, State.chan_setDie]
  rfl

theorem State.heldSince_snapped :
    ((s.snapped now).die 0).heldSince = (s.die 0).hold ∧ ((s.snapped now).die 1).heldSince = (s.die 1).hold :=
  ⟨rfl, rfl⟩

end

theorem modelSnapshot_writes {s : State} (hbeat : s.beating 0 = true ∨ s.beating 1 = true)
    (hdue : s.passed s.power.snapAt (1000000 * s.snapPeriod) = true) :
    Answers .modelSnapshot s fun t =>
      t.regs = s.regs ∧ (∀ n, t.chan n = s.chan n) ∧ (t.die 0).heldSince = (s.die 0).hold ∧
      (t.die 1).heldSince = (s.die 1).hold ∧
      ∀ a, a < 0x10020000 ∨ 0x10030000 ≤ a → t.rdByte a = s.rdByte a := by
  have hgo : ((s.beating 0 || s.beating 1) && s.passed s.power.snapAt (1000000 * s.snapPeriod)) = true := by
    rcases hbeat with h | h <;> simp [h, hdue]
  obtain ⟨b, hd, hb, hlen, heq⟩ := State.writeSnapshot_eq s
  have hbody := State.length_snapBody s
  generalize s.snapBody = body at heq hbody
  have hpower : ((s.wrMem (snapBank b + 32) body).wrMem (snapBank b) hd).power = s.power :=
    ((State.keeps_wrMem _ _ _).same .power rfl).trans ((State.keeps_wrMem _ _ _).same .power rfl)
  have hregs : ((s.wrMem (snapBank b + 32) body).wrMem (snapBank b) hd).regs = s.regs :=
    ((State.keeps_wrMem _ _ _).same .regs rfl).trans ((State.keeps_wrMem _ _ _).same .regs rfl)
  obtain ⟨hheld0, hheld1⟩ := State.heldSince_snapped
    ((s.wrMem (snapBank b + 32) body).wrMem (snapBank b) hd) s.nowNs
  refine ⟨_, by rw [exec_modelSnapshot, execModelSnapshot, if_pos hgo, heq], ?_, fun n => ?_, ?_, ?_, fun a ha => ?_⟩
  · rw [State.snapped_regs, hregs]
  · rw [State.chan_snapped, State.chan_congr hpower]
  · rw [hheld0, State.die_congr hpower]
  · rw [hheld1, State.die_congr hpower]
  · have hbank : 0x10020000 ≤ snapBank b ∧ snapBank b + 0x8000 ≤ 0x10030000 := by unfold snapBank; omega
    rw [State.rdByte, State.snapped_mem, ← State.rdByte, State.rdByte_wrMem_outside _ _ _ _ (by omega),
      State.rdByte_wrMem_outside _ _ _ _ (by omega)]

/-! ## The floor timer (R367) -/

theorem floorTimerExpiry_of_passed {s : State} {n : Out} (hthere : s.hasDie (n.val / 24) = true)
    (hup : s.up .seq = true) (hdue : s.passed (s.chan n.val).floorUntil 0 = true) :
    Answers (.floorTimerExpiry n) s fun t =>
      t.floorRuns n.val = false ∧
      t.chan n.val = ({ s.chan n.val with floorUntil := none } : Channel).timed s.nowNs ∧
      ∀ k, k ≠ Reg.PWC_MODELCFG (n.val / 24) (n.val % 24) → t.rd k = s.rd k := by
  refine ⟨(s.setBit (Reg.PWC_MODELCFG (n.val / 24) (n.val % 24)) 31 false).setChan n.val
    { s.chan n.val with floorUntil := none }, ?_, ?_, ?_, fun k hk => ?_⟩
  · rw [exec_floorTimerExpiry, execFloorTimerExpiry, if_pos (by simp [hthere, hup, hdue])]
  · rw [State.floorRuns, State.bit, State.rd_setChan, ← State.bit, State.bit_setBit_same _ _ _ _ (by omega)]
  · rw [State.chan_setChan_same, State.setBit_nowNs]
  · rw [State.rd_setChan, State.rd_setBit, if_neg (Ne.symm hk)]

/-- Settles O16: each clause is one command, and each command's effect is that of the operations on channels,
dies and links above. -/
theorem sequencerCommandsComplete : Obligations.SequencerCommandsComplete := by
  refine ⟨⟨fun s d a b cmd rest => powerLinkCommand_no_copy, fun s d b cmd rest hq hb => ?_,
      fun s d arg th c rest => powerLinkCommand_off, fun s d b => powerLinkCopySilent_of_both, fun s d => ?_,
      fun s => heartbeatToggle_both, fun s => heartbeatToggle_none, fun s d => heartbeatLoss_of_silence,
      fun s d => heartbeatLoss_early⟩,
    ⟨fun s d feed avg => seqStateRefresh_of_link, fun s samples n hrun hcore hthere => ?_,
      fun s m n v => thetaWrite_below, fun s m n v => thetaWrite_at_limit, fun s n => modelStall_holds,
      fun s => modelSnapshot_writes, fun s n => floorTimerExpiry_of_passed⟩⟩
  · rw [exec_powerLinkCommand, execPowerLinkCommand_good hq hb, State.taken]
  · cases d <;> exact powerLinksLost_of_some
  · obtain ⟨t, hexec, hchan⟩ := seqTick_ticks (samples := samples) hrun hcore hthere
    refine ⟨t, hexec, ?_⟩
    dsimp only
    rw [hchan, Channel.timed_junction, Channel.timed_voltage, Channel.timed_on, Channel.timed_racc]
    exact ⟨rfl, rfl, rfl, rfl⟩

end Sys2Proof.Machine
end

section
/-!
PROOFS. MDIO, and the enable and the link states of the ports (R52, R54, R56, R57, R65, R70, R71). First what
the basic updates of a port leave of its registers, then the operations that run over them, then the commands.
-/

namespace Sys2Proof.Machine

open Sys2Proof

/-! ## What a read depends on -/

section
variable {s t : State}

theorem State.port_congr (h : t.ports = s.ports) (p : Nat) : t.port p = s.port p := by
  rw [State.port, h, State.port]

theorem State.frame_congr (h : t.frames = s.frames) (f : Nat) : t.frame f = s.frame f := by
  rw [State.frame, h, State.frame]

theorem State.hasPort_congr (h : t.variant = s.variant) (p : Nat) : t.hasPort p = s.hasPort p := by
  rw [State.hasPort, h, State.hasPort]

section
variable {k : Nat} (h : t.rd k = s.rd k)
include h

theorem State.fld_congr (lo n : Nat) : t.fld k lo n = s.fld k lo n := by rw [State.fld, h, State.fld]

theorem State.bit_congr (b : Nat) : t.bit k b = s.bit k b := by rw [State.bit, h, State.bit]

end

/-- A port is UP in two states at once that agree on the build and on its PRT_PSTAT. -/
theorem State.portUp_congr {p : Nat} (hv : t.variant = s.variant)
    (h : t.rd (Reg.PRT_PSTAT p) = s.rd (Reg.PRT_PSTAT p)) : t.portUp p = s.portUp p := by
  rw [State.portUp, State.hasPort_congr hv, State.lstate, State.fld_congr h, State.portUp, State.lstate]

end

section
variable (s : State) {k k' lo n b : Nat}

/-- A bit outside a field that is written. -/
theorem State.bit_setFld_apart (v : Nat) (h : lo + n ≤ 32) (ha : k ≠ k' ∨ b < lo ∨ lo + n ≤ b) :
    (s.setFld k lo n v).bit k' b = s.bit k' b := by
  unfold State.bit
  rw [State.rd_setFld]
  split
  · next e => exact getBit_setBits_apart _ _ _ _ _ h (ha.resolve_left (not_not.mpr e))
  · rfl

/-- A field beside a bit that is written. -/
theorem State.fld_setBit_apart (v : Bool) (h : b < 32) (ha : k ≠ k' ∨ lo + n ≤ b ∨ b < lo) :
    (s.setBit k b v).fld k' lo n = s.fld k' lo n :=
  State.fld_setFld_apart _ _ _ _ _ _ _ _ (by omega) (by omega)

theorem State.rd_setFld_other (v : Nat) (h : k' ≠ k) : (s.setFld k lo n v).rd k' = s.rd k' := by
  rw [State.rd_setFld, if_neg (Ne.symm h)]

theorem State.rd_setBit_other (v : Bool) (h : k' ≠ k) : (s.setBit k b v).rd k' = s.rd k' := by
  rw [State.rd_setBit, if_neg (Ne.symm h)]

end

/-! ## The map of the port registers -/

theorem prtPage_ge (p : Nat) : 0x410000 ≤ prtPage p := by
  unfold prtPage regKey
  split_ifs <;> omega

theorem prtPage_lt {p : Nat} (hp : p < 37) : prtPage p < 0x720000 := by
  unfold prtPage regKey
  split_ifs <;> omega

/-- PRT_PEN stands on a control page, not on a port page. -/
theorem prtPenKey_ne_page (p : Nat) {q off : Nat} (hq : q < 37) (hoff : off < 0x1000) :
    prtPenKey p ≠ prtPage q + off := by
  unfold prtPenKey prtPage regKey
  split_ifs <;> omega

theorem prtPenBit_lt {p : Nat} (hp : p < 37) : prtPenBit p < 32 := by
  unfold prtPenBit
  split_ifs <;> omega

theorem prtPenKey_ne_blkCtrl (p b : Nat) : prtPenKey p ≠ Reg.BLK_CTRL b := by
  unfold prtPenKey Reg.BLK_CTRL regKey
  split_ifs <;> omega

theorem prtPenKey_ne_pmode (p : ExtPort) : prtPenKey p.val ≠ Reg.PRT_PMODE p.val :=
  prtPenKey_ne_page _ (by omega) (by omega)

theorem prtPenKey_ne_pstat (p : ExtPort) : prtPenKey p.val ≠ Reg.PRT_PSTAT p.val :=
  prtPenKey_ne_page _ (by omega) (by omega)

/-- Registers of one port page at different offsets. -/
theorem prtPage_add_ne {p a b : Nat} (h : a ≠ b) : prtPage p + a ≠ prtPage p + b := by omega

/-! ## A port's engine state -/

section
variable (s : State) (p : Nat) (v : PortState)

@[simp] theorem State.port_setPort_same : (s.setPort p v).port p = v := Store.get_set_same _ _ _ _

theorem State.port_setPort_other {p q : Nat} (h : q ≠ p) : (s.setPort p v).port q = s.port q :=
  Store.get_set_other _ _ _ (Ne.symm h)

@[simp] theorem State.rd_setPort (k : Nat) : (s.setPort p v).rd k = s.rd k := rfl
@[simp] theorem State.lstate_setPort (q : Nat) : (s.setPort p v).lstate q = s.lstate q := rfl
@[simp] theorem State.fld_setPort (k lo n : Nat) : (s.setPort p v).fld k lo n = s.fld k lo n := rfl

end

/-! ## The link state (R70) -/

section
variable (s : State) (p l speed : Nat)

/-- LSTATE and SPEED are the only fields that a change of the link state writes. -/
theorem State.rd_setLinkState (k : Nat) :
    (s.setLinkState p l speed).rd k =
      if Reg.PRT_PSTAT p = k then setBits (setBits (s.rd k) 0 2 l) 2 4 speed else s.rd k := by
  rw [State.setLinkState, State.rd_setFld, State.rd_setFld]
  split <;> rfl

theorem State.rd_setLinkState_other {k : Nat} (hk : k ≠ Reg.PRT_PSTAT p) :
    (s.setLinkState p l speed).rd k = s.rd k := by
  rw [State.rd_setLinkState, if_neg (Ne.symm hk)]

theorem State.lstate_setLinkState {l : Nat} (hl : l < 4) : (s.setLinkState p l speed).lstate p = l := by
  rw [State.lstate, State.fld, State.rd_setLinkState, if_pos rfl,
    getBits_setBits_apart _ _ _ _ _ _ (by omega) (by omega), getBits_setBits_same _ _ _ _ (by omega)]
  exact Nat.mod_eq_of_lt hl

theorem State.speed_setLinkState {speed : Nat} (h : speed < 16) :
    (s.setLinkState p l speed).fld (Reg.PRT_PSTAT p) 2 4 = speed := by
  rw [State.fld, State.rd_setLinkState, if_pos rfl, getBits_setBits_same _ _ _ _ (by omega)]
  exact Nat.mod_eq_of_lt h

theorem State.keeps_setLinkState :
    s.Keeps (fun p => [Part.regs, .ports, .tm].contains p) (s.setLinkState p l speed) :=
  State.setLinkState_keeps (all_contains _) (State.Keeps.refl _ s) p l speed

@[simp] theorem State.setLinkState_fab : (s.setLinkState p l speed).fab = s.fab :=
  (State.keeps_setLinkState s p l speed).same .fab rfl
@[simp] theorem State.setLinkState_frames : (s.setLinkState p l speed).frames = s.frames :=
  (State.keeps_setLinkState s p l speed).same .frames rfl
@[simp] theorem State.setLinkState_mem : (s.setLinkState p l speed).mem = s.mem :=
  (State.keeps_setLinkState s p l speed).same .mem rfl

theorem State.sleepAsked_setLinkState :
    ((s.setLinkState p l speed).port p).sleepAsked = (s.port p).sleepAsked := by
  have hport : (s.setLinkState p l speed).port p =
      { s.port p with
        downAt := if s.portUp p && l != 2 then s.nowNs else (s.port p).downAt
        triedAt := if l = 1 then s.nowNs else (s.port p).triedAt } := Store.get_set_same _ _ _ _
  rw [hport]

theorem State.lstate_setFld_verify (v : Nat) :
    (s.setFld (Reg.PRT_PSTAT p) 9 2 v).lstate p = s.lstate p :=
  State.fld_setFld_apart _ _ _ _ _ _ _ _ (by omega) (by omega)

end

theorem State.linkGone_of_open {s : State} (h : s.fab.closed = false) (p : Nat) : s.linkGone p = s := by
  rw [State.linkGone, if_neg (by simp [h])]

/-- An entry of a port's error log writes the log of its page only (R76). -/
theorem State.rd_portLog (s : State) {p k : Nat} (type tc len : Nat) (hash : Word)
    (hk : ∀ off, 0x200 ≤ off → off < 0x304 → k ≠ prtPage p + off) :
    (s.portLog p type tc len hash).rd k = s.rd k := by
  have he : s.fld (Reg.PRT_ELOGHEAD p) 0 4 < 16 := getBits_lt _ _ _
  have hhead : k ≠ Reg.PRT_ELOGHEAD p := hk _ (by omega) (by omega)
  unfold State.portLog
  generalize s.fld (Reg.PRT_ELOGHEAD p) 0 4 = e at he
  dsimp only
  rw [State.rd_irq, State.rd_setFld_other _ _ hhead,
    State.rd_wr_other _ _ (hk _ (by omega) (by omega)).symm,
    State.rd_wrN, if_neg (hk _ (by omega) (by omega)).symm,
    State.rd_wrN, if_neg (hk _ (by omega) (by omega)).symm,
    State.rd_wrN, if_neg (hk _ (by omega) (by omega)).symm]
  split
  · rw [State.rd_setFld_other _ _ hhead]
  · rfl

/-! ## MDIO (R54) -/

/-- The operation code of an MDIO command. -/
theorem exec_mdio {i : Instr} {m : Master} {phyad reg : BitVec 5} {c45 : Bool} {data : BitVec 16} {op : Nat}
    (h : i = .mdioAddress m phyad reg c45 data ∧ op = 0 ∨ i = .mdioWrite m phyad reg c45 data ∧ op = 1 ∨
      i = .mdioReadIncrement m phyad reg c45 data ∧ op = 2 ∨ i = .mdioRead m phyad reg c45 data ∧ op = 3)
    (s : State) : exec i s = mdioGo m op phyad reg c45 data s ∧ op < 4 := by
  rcases h with ⟨rfl, rfl⟩ | ⟨rfl, rfl⟩ | ⟨rfl, rfl⟩ | ⟨rfl, rfl⟩ <;> exact ⟨rfl, by decide⟩

/-- PRT_MDIOCMD with a transaction started. -/
def State.mdioStarted (s : State) (op phyad reg : Nat) (c45 : Bool) (data : Nat) : State :=
  (((((s.setFld Reg.PRT_MDIOCMD 0 16 data).setFld Reg.PRT_MDIOCMD 16 5 reg).setFld
    Reg.PRT_MDIOCMD 21 5 phyad).setFld Reg.PRT_MDIOCMD 26 2 op).setBit
    Reg.PRT_MDIOCMD 28 c45).setBit Reg.PRT_MDIOCMD 30 true

theorem mdioGo_of_admits {m : Master} {op : Nat} {phyad reg : BitVec 5} {c45 : Bool} {data : BitVec 16}
    {s : State} (h : s.admits m Reg.PRT_MDIOCMD) :
    mdioGo m op phyad reg c45 data s = .next
      (if s.bit Reg.PRT_MDIOCMD 30 then (s.reply 0).setBit Reg.PRT_MDIOCMD 29 true
      else (s.reply 0).mdioStarted op phyad.toNat reg.toNat c45 data.toNat) := by
  rw [mdioGo, guardReg_of_admits h]
  rfl

section
variable (s : State) {op phyad reg data : Nat} (c45 : Bool)

theorem State.rd_mdioStarted_other {k : Nat} (hk : k ≠ Reg.PRT_MDIOCMD) :
    (s.mdioStarted op phyad reg c45 data).rd k = s.rd k := by
  unfold State.mdioStarted
  simp only [State.rd_setBit_other _ _ hk, State.rd_setFld_other _ _ hk]

/-- The fields of the command stand apart in PRT_MDIOCMD, and GO reads as BUSY. -/
theorem State.mdioStarted_fields (hop : op < 4) (hphy : phyad < 32) (hreg : reg < 32) (hdata : data < 65536) :
    (s.mdioStarted op phyad reg c45 data).bit Reg.PRT_MDIOCMD 30 = true ∧
    (s.mdioStarted op phyad reg c45 data).fld Reg.PRT_MDIOCMD 26 2 = op ∧
    (s.mdioStarted op phyad reg c45 data).fld Reg.PRT_MDIOCMD 0 16 = data ∧
    (s.mdioStarted op phyad reg c45 data).fld Reg.PRT_MDIOCMD 16 5 = reg ∧
    (s.mdioStarted op phyad reg c45 data).fld Reg.PRT_MDIOCMD 21 5 = phyad ∧
    (s.mdioStarted op phyad reg c45 data).bit Reg.PRT_MDIOCMD 28 = c45 := by
  unfold State.mdioStarted
  simp (disch := omega) only [State.bit_setBit_same, State.bit_setBit_apart, State.fld_setBit_apart,
    State.fld_setFld_same, State.fld_setFld_apart, Nat.mod_eq_of_lt, and_self]

end

theorem mdio_starts_or_collides {i : Instr} {s : State} {m : Master} {phyad reg : BitVec 5} {c45 : Bool}
    {data : BitVec 16} {op : Nat}
    (hi : i = .mdioAddress m phyad reg c45 data ∧ op = 0 ∨ i = .mdioWrite m phyad reg c45 data ∧ op = 1 ∨
      i = .mdioReadIncrement m phyad reg c45 data ∧ op = 2 ∨ i = .mdioRead m phyad reg c45 data ∧ op = 3)
    (hadm : s.admits m Reg.PRT_MDIOCMD) :
    Answers i s fun t =>
      t.bit Reg.PRT_MDIOCMD 30 = true ∧
      (if s.bit Reg.PRT_MDIOCMD 30 then
        t.bit Reg.PRT_MDIOCMD 29 = true ∧ t.fld Reg.PRT_MDIOCMD 0 29 = s.fld Reg.PRT_MDIOCMD 0 29
      else t.fld Reg.PRT_MDIOCMD 26 2 = op ∧ t.fld Reg.PRT_MDIOCMD 0 16 = data.toNat ∧
        t.fld Reg.PRT_MDIOCMD 16 5 = reg.toNat ∧ t.fld Reg.PRT_MDIOCMD 21 5 = phyad.toNat ∧
        t.bit Reg.PRT_MDIOCMD 28 = c45) ∧
      ∀ k, k ≠ Reg.PRT_MDIOCMD → t.rd k = s.rd k := by
  obtain ⟨hexec, hop⟩ := exec_mdio hi s
  refine ⟨_, by rw [hexec, mdioGo_of_admits hadm], ?_⟩
  cases hbusy : s.bit Reg.PRT_MDIOCMD 30 with
  | true =>
    simp only [if_true]
    refine ⟨?_, ⟨State.bit_setBit_same _ _ _ _ (by omega), ?_⟩, fun k hk => ?_⟩
    · rw [State.bit_setBit_apart _ _ _ _ _ _ (by omega) (by omega)]
      exact hbusy
    · rw [State.fld_setBit_apart _ _ (by omega) (by omega)]
      rfl
    · rw [State.rd_setBit_other _ _ hk, State.rd_reply]
  | false =>
    obtain ⟨hgo, hcode, hdata, hreg, hphy, hc45⟩ :=
      State.mdioStarted_fields (s.reply 0) c45 hop phyad.isLt reg.isLt data.isLt
    simp only [Bool.false_eq_true, if_false]
    exact ⟨hgo, ⟨hcode, hdata, hreg, hphy, hc45⟩, fun k hk => by
      rw [State.rd_mdioStarted_other _ _ hk, State.rd_reply]⟩

theorem mdioDone_of_busy {s : State} {data : BitVec 16} (hbusy : s.bit Reg.PRT_MDIOCMD 30 = true) :
    Answers (.mdioDone data) s fun t =>
      t.bit Reg.PRT_MDIOCMD 30 = false ∧
      (if 2 ≤ s.fld Reg.PRT_MDIOCMD 26 2 then t.fld Reg.PRT_MDIODATA 0 16 = data.toNat
        else t.rd Reg.PRT_MDIODATA = s.rd Reg.PRT_MDIODATA) ∧
      ∀ k, k ≠ Reg.PRT_MDIOCMD → k ≠ Reg.PRT_MDIODATA → t.rd k = s.rd k := by
  have hop : (s.setBit Reg.PRT_MDIOCMD 30 false).fld Reg.PRT_MDIOCMD 26 2 = s.fld Reg.PRT_MDIOCMD 26 2 :=
    State.fld_setBit_apart _ _ (by omega) (by omega)
  have hclear : (s.setBit Reg.PRT_MDIOCMD 30 false).bit Reg.PRT_MDIOCMD 30 = false :=
    State.bit_setBit_same _ _ _ _ (by omega)
  have hapart : Reg.PRT_MDIODATA ≠ Reg.PRT_MDIOCMD := by decide
  refine ⟨_, by rw [exec_mdioDone, execMdioDone, if_pos hbusy], ?_⟩
  dsimp only
  rw [hop]
  split
  · refine ⟨?_, ?_, fun k hk hk' => ?_⟩
    · rw [State.bit_setFld_apart _ _ (by omega) (.inl hapart), hclear]
    · rw [State.fld_setFld_same _ _ _ _ _ (by omega)]
      exact Nat.mod_eq_of_lt data.isLt
    · rw [State.rd_setFld_other _ _ hk', State.rd_setBit_other _ _ hk]
  · exact ⟨hclear, State.rd_setBit_other _ _ hapart, fun k hk _ => State.rd_setBit_other _ _ hk⟩

/-! ## A port is enabled (R51, R52, R70, R73) -/

/-- PEN of a port written 1. -/
def State.penned (s : State) (p : Nat) : State := (s.reply 0).setBit (prtPenKey p) (prtPenBit p) true

section
variable (s : State) (p : Nat)

theorem State.rd_penned_other {k : Nat} (hk : k ≠ prtPenKey p) : (s.penned p).rd k = s.rd k := by
  rw [State.penned, State.rd_setBit_other _ _ hk, State.rd_reply]

theorem State.pen_penned {p : Nat} (hp : p < 37) : (s.penned p).pen p = true :=
  State.bit_setBit_same _ _ _ _ (prtPenBit_lt hp)

theorem State.blkEn_penned (b : Nat) : (s.penned p).blkEn b = s.blkEn b :=
  State.bit_congr (State.rd_penned_other s p (prtPenKey_ne_blkCtrl p b).symm) 0

@[simp] theorem State.penned_ports : (s.penned p).ports = s.ports := rfl

end

/-- A PEN that is written 1 and was 0 starts the port if its block is enabled. -/
theorem execPortEnable_of_admits {m : Master} {p : Port} {s : State} (hadm : s.admits m (prtPenKey p.val))
    (hpen : s.pen p.val = false) :
    execPortEnable m p s = .next
      (if s.blkEn (prtBlk p.val) then (s.penned p.val).startPort p.val else s.penned p.val) := by
  have hpen' : (s.reply 0).pen p.val = false := hpen
  rw [execPortEnable, guardReg_of_admits hadm, if_neg (ne_true_of_eq_false hpen'), ← State.blkEn_penned s p.val]
  rfl

section
variable {s : State} {p : Nat} (hp : p < 32) (hthere : s.hasPort p = true) (hsafe : s.flt.safeStop = false)
include hp hthere hsafe

/-- An external port with legal settings trains (R70). -/
theorem State.startPort_of_legal (hmode : modeLegal p (s.fld (Reg.PRT_PMODE p) 0 4) = true)
    (hfec : fecLegal p (s.fld (Reg.PRT_PMODE p) 0 4) (s.fld (Reg.PRT_PMODE p) 4 2) = true) :
    (s.startPort p).lstate p = 1 ∧ (s.startPort p).fld (Reg.PRT_PSTAT p) 2 4 = 0 ∧
    ∀ k, k ≠ Reg.PRT_PSTAT p → (s.startPort p).rd k = s.rd k := by
  unfold State.startPort
  rw [if_neg (by simp [hthere]), if_neg (by omega), if_neg (by simp [hsafe])]
  simp only [hmode, hfec, Bool.and_self, if_true]
  refine ⟨?_, ?_, fun k hk => ?_⟩
  · rw [State.lstate_setPort, State.lstate_setLinkState _ _ _ (by omega)]
  · rw [State.fld_setPort, State.speed_setLinkState _ _ _ (by omega)]
  rw [State.rd_setPort, State.rd_setLinkState_other _ _ _ _ hk]
  split
  · rfl
  · rw [State.rd_setBit_other _ _ hk]

/-- An external port with an illegal MODE stays as it is, with BADMODE (R52). -/
theorem State.startPort_of_illegal (hmode : modeLegal p (s.fld (Reg.PRT_PMODE p) 0 4) = false) :
    s.startPort p = s.setBit (Reg.PRT_PSTAT p) 13 true := by
  unfold State.startPort
  rw [if_neg (by simp [hthere]), if_neg (by omega), if_neg (by simp [hsafe])]
  simp [hmode]

end

/-- An external port that is enabled while its block is. -/
theorem execPortEnable_starts {m : Master} {p : ExtPort} {s : State} (hadm : s.admits m (prtPenKey p.val))
    (hpen : s.pen p.val = false) (hblk : s.blkEn (prtBlk p.val) = true) :
    execPortEnable m ⟨p.val, by omega⟩ s = .next ((s.penned p.val).startPort p.val) := by
  rw [execPortEnable_of_admits (p := ⟨p.val, by omega⟩) hadm hpen, if_pos hblk]

theorem portEnable_block_off {s : State} {m : Master} {p : Port} (hadm : s.admits m (prtPenKey p.val))
    (hpen : s.pen p.val = false) (hblk : s.blkEn (prtBlk p.val) = false) :
    Answers (.portEnable m p) s fun t =>
      t.pen p.val = true ∧ t.ports = s.ports ∧ ∀ k, k ≠ prtPenKey p.val → t.rd k = s.rd k := by
  refine ⟨s.penned p.val, ?_, ?_, State.penned_ports s p.val, fun k => State.rd_penned_other s p.val⟩
  · rw [exec_portEnable, execPortEnable_of_admits hadm hpen, if_neg (by simp [hblk])]
  · exact State.pen_penned s p.isLt

section
variable {s : State} {m : Master} {p : ExtPort} (hadm : s.admits m (prtPenKey p.val))
variable (hpen : s.pen p.val = false) (hblk : s.blkEn (prtBlk p.val) = true)
variable (hthere : s.hasPort p.val = true) (hsafe : s.flt.safeStop = false)
include hadm hpen hblk hthere hsafe

theorem portEnable_trains (hmode : modeLegal p.val (s.fld (Reg.PRT_PMODE p.val) 0 4) = true)
    (hfec : fecLegal p.val (s.fld (Reg.PRT_PMODE p.val) 0 4) (s.fld (Reg.PRT_PMODE p.val) 4 2) = true) :
    Answers (.portEnable m ⟨p.val, by omega⟩) s fun t =>
      t.pen p.val = true ∧ t.lstate p.val = 1 ∧ t.fld (Reg.PRT_PSTAT p.val) 2 4 = 0 ∧
      ∀ k, k ≠ prtPenKey p.val → k ≠ Reg.PRT_PSTAT p.val → t.rd k = s.rd k := by
  have hset := State.fld_congr (State.rd_penned_other s p.val (prtPenKey_ne_pmode p).symm)
  obtain ⟨hstate, hspeed, hother⟩ := State.startPort_of_legal (s := s.penned p.val) p.isLt
    ((State.hasPort_congr rfl _).trans hthere) hsafe (by rw [hset, hmode]) (by rw [hset, hset, hfec])
  refine ⟨_, by rw [exec_portEnable, execPortEnable_starts hadm hpen hblk], ?_, hstate, hspeed,
    fun k hk hk' => ?_⟩
  · rw [State.pen, State.bit_congr (hother _ (prtPenKey_ne_pstat p))]
    exact State.pen_penned s (by omega)
  · rw [hother k hk', State.rd_penned_other _ _ hk]

theorem portEnable_bad_mode (hmode : modeLegal p.val (s.fld (Reg.PRT_PMODE p.val) 0 4) = false) :
    Answers (.portEnable m ⟨p.val, by omega⟩) s fun t =>
      t.pen p.val = true ∧ t.lstate p.val = s.lstate p.val ∧ t.bit (Reg.PRT_PSTAT p.val) 13 = true := by
  have hset := State.fld_congr (State.rd_penned_other s p.val (prtPenKey_ne_pmode p).symm)
  have hstays := State.startPort_of_illegal (s := s.penned p.val) p.isLt
    ((State.hasPort_congr rfl _).trans hthere) hsafe (by rw [hset, hmode])
  refine ⟨_, by rw [exec_portEnable, execPortEnable_starts hadm hpen hblk, hstays], ?_, ?_, ?_⟩
  · rw [State.pen, State.bit_setBit_apart _ _ _ _ _ _ (by omega) (.inl (prtPenKey_ne_pstat p).symm)]
    exact State.pen_penned s (by omega)
  · rw [State.lstate, State.fld_setBit_apart _ _ (by omega) (by omega)]
    exact State.fld_congr (State.rd_penned_other s p.val (prtPenKey_ne_pstat p).symm) _ _
  · exact State.bit_setBit_same _ _ _ _ (by omega)

end

/-! ## A port is disabled (R66, R71) -/

/-- A port whose PEN is written 0 while it reads 1. -/
def State.drained (s : State) (p : Nat) : State :=
  (s.reply 0).setPort p { s.port p with draining := true }

theorem execPortDisable_of_admits {m : Master} {p : Port} {s : State} (hadm : s.admits m (prtPenKey p.val))
    (hpen : s.pen p.val = true) :
    execPortDisable m p s = .next ((s.drained p.val).dropReassembly p.val) := by
  have hpen' : (s.reply 0).pen p.val = true := hpen
  rw [execPortDisable, guardReg_of_admits hadm, if_pos hpen']
  rfl

/-- Steps that each leave the state leave it. -/
theorem foldl_eq_self {α β : Type} {g : α → β → α} {a : α} {l : List β} (h : ∀ x ∈ l, g a x = a) :
    l.foldl g a = a := by
  induction l with
  | nil => rfl
  | cons x l ih =>
    rw [List.forall_mem_cons] at h
    rw [List.foldl_cons, h.1, ih h.2]

/-- Frames that no later frame has interrupted stay. -/
theorem State.dropReassembly_of_none {s : State} {p : Nat}
    (h : ∀ f ∈ s.openRx p, ∀ v, s.frame f = some v → v.interrupted = false) : s.dropReassembly p = s := by
  refine foldl_eq_self fun f hf => ?_
  split
  · next v hv => rw [if_neg (by simp [h f hf v hv])]
  · rfl

theorem State.dropReassembly_one {s : State} {p f : Nat} {v : Frame} (hopen : s.openRx p = [f])
    (hf : s.frame f = some v) (hint : v.interrupted = true) :
    s.dropReassembly p = s.endRx f [] .assembly := by
  rw [State.dropReassembly, hopen, List.foldl_cons, List.foldl_nil, hf]
  exact if_pos hint

/-- A draining port takes no new frame (R71). -/
theorem State.receives_of_draining {s : State} {p : Nat} (h : (s.port p).draining = true) :
    s.receives p = false := by
  simp [State.receives, h]

theorem portDisable_drains {s : State} {m : Master} {p : Port} (hadm : s.admits m (prtPenKey p.val))
    (hpen : s.pen p.val = true)
    (hopen : ∀ f ∈ s.openRx p.val, ∀ v, s.frame f = some v → v.interrupted = false) :
    Answers (.portDisable m p) s fun t =>
      (t.port p.val).draining = true ∧ t.pen p.val = true ∧ t.receives p.val = false ∧ t.regs = s.regs := by
  have hdrain : ((s.drained p.val).port p.val).draining = true := by
    rw [State.drained, State.port_setPort_same]
  refine ⟨s.drained p.val, ?_, hdrain, hpen, State.receives_of_draining hdrain, rfl⟩
  rw [exec_portDisable, execPortDisable_of_admits hadm hpen,
    State.dropReassembly_of_none (s := s.drained p.val) hopen]

theorem execPortDisable_drops {s : State} {m : Master} {p : Port} {f : Nat} {v : Frame}
    (hadm : s.admits m (prtPenKey p.val)) (hpen : s.pen p.val = true) (hopen : s.openRx p.val = [f])
    (hf : s.frame f = some v) (hint : v.interrupted = true) :
    execPortDisable m p s = .next
      (((s.reply 0).setPort p.val { s.port p.val with draining := true }).endRx f [] .assembly) := by
  rw [execPortDisable_of_admits hadm hpen, State.dropReassembly_one (s := s.drained p.val) hopen hf hint,
    State.drained]

/-- A port that is DISABLED drains no more (R70, R71). -/
theorem State.stopPort_effect {s : State} {p : Nat} (hclosed : s.fab.closed = false) :
    (s.stopPort p).lstate p = 0 ∧ ((s.stopPort p).port p).draining = false ∧
    ∀ k, k ≠ Reg.PRT_PSTAT p → k ≠ Reg.PRT_TC10 p → (s.stopPort p).rd k = s.rd k := by
  unfold State.stopPort
  dsimp only
  rw [State.linkGone_of_open (by split <;> exact hclosed)]
  split
  · refine ⟨?_, ?_, fun k hk hk' => ?_⟩
    · rw [State.lstate, State.fld_setBit_apart _ _ (by omega) (.inl (prtPage_add_ne (by omega))),
        State.fld_setBit_apart _ _ (by omega) (by omega), ← State.lstate, State.lstate_setFld_verify,
        State.lstate_setPort, State.lstate_setLinkState _ _ _ (by omega)]
    · rw [State.port_congr (State.setBit_ports ..), State.port_congr (State.setBit_ports ..),
        State.port_congr (State.setFld_ports ..), State.port_setPort_same]
    · rw [State.rd_setBit_other _ _ hk', State.rd_setBit_other _ _ hk, State.rd_setFld_other _ _ hk,
        State.rd_setPort, State.rd_setLinkState_other _ _ _ _ hk]
  · refine ⟨?_, ?_, fun k hk _ => ?_⟩
    · rw [State.lstate_setPort, State.lstate_setLinkState _ _ _ (by omega)]
    · rw [State.port_setPort_same]
    · rw [State.rd_setPort, State.rd_setLinkState_other _ _ _ _ hk]

theorem portDisableDone_of_drained {s : State} {p : Port} (hdrain : (s.port p.val).draining = true)
    (hsent : s.stagingEmpty p.val = true ∨ s.portUp p.val = false) (hclosed : s.fab.closed = false) :
    Answers (.portDisableDone p) s fun t =>
      t.pen p.val = false ∧ t.lstate p.val = 0 ∧ (t.port p.val).draining = false ∧ t.portUp p.val = false := by
  have hgo : ((s.port p.val).draining && (s.stagingEmpty p.val || !s.portUp p.val)) = true := by
    simpa [hdrain] using hsent
  obtain ⟨hstate, hdone, hother⟩ := State.stopPort_effect (p := p.val)
    (s := s.setBit (prtPenKey p.val) (prtPenBit p.val) false) hclosed
  refine ⟨_, by rw [exec_portDisableDone, execPortDisableDone, if_pos hgo], ?_, hstate, hdone, ?_⟩
  · rw [State.pen, State.bit_congr
      (hother _ (prtPenKey_ne_page _ p.isLt (by omega)) (prtPenKey_ne_page _ p.isLt (by omega)))]
    exact State.bit_setBit_same _ _ _ _ (prtPenBit_lt p.isLt)
  · simp [State.portUp, hstate]

/-! ## The link of a port (R56, R57, R70) -/

/-- A PHY whose changes are seen is not behind a retraining Traverse link. -/
theorem State.retraining_of_phySeen {s : State} {p : Nat} (h : s.phySeen p = true) : s.retraining p = false := by
  simp only [State.phySeen, State.edgeReachable, Bool.or_eq_true, decide_eq_true_eq, beq_iff_eq] at h
  rcases h with h | h
  · simp [State.retraining, Nat.not_le.mpr h]
  · simp [State.retraining, h]

theorem State.phyChange_of_seen {s : State} {p : Nat} (h : s.phySeen p = true) (e : HeldEvent)
    (f : State → State) : s.phyChange p e f = f s := by
  rw [State.phyChange, State.retraining_of_phySeen h, if_neg (by simp), if_pos h]

theorem State.phyChange_of_retraining {s : State} {p : Nat} (h : s.retraining p = true) (e : HeldEvent)
    (f : State → State) : s.phyChange p e f = s.holdEvent e := by
  rw [State.phyChange, if_pos h]

/-- A SPEED code fits its field: the mode fixes it, or it is a rate of three bits. -/
theorem State.linkSpeed_lt {s : State} {p speed : Nat} {rate : Fin 8} (h : s.linkSpeed p rate.val = some speed) :
    speed < 16 := by
  have hrate := rate.isLt
  unfold State.linkSpeed at h
  split at h <;> grind

theorem State.verifyState_lt (s : State) (p : Nat) : s.verifyState p < 4 := by
  unfold State.verifyState
  split <;> omega

/-- An external port that enters UP shows its speed, and whether verification of preemption begins (R65,
R70). -/
theorem State.enterUp_effect (s : State) {p speed : Nat} (hp : p < 32) (hspeed : speed < 16) :
    (s.enterUp p speed).lstate p = 2 ∧ (s.enterUp p speed).fld (Reg.PRT_PSTAT p) 2 4 = speed ∧
    (s.enterUp p speed).fld (Reg.PRT_PSTAT p) 9 2 = s.verifyState p ∧
    ∀ k, k ≠ Reg.PRT_PSTAT p → (s.enterUp p speed).rd k = s.rd k := by
  have hrd : ∀ v k, k ≠ Reg.PRT_PSTAT p → ((s.setLinkState p 2 speed).setPort p v).rd k = s.rd k :=
    fun v k hk => by rw [State.rd_setPort, State.rd_setLinkState_other _ _ _ _ hk]
  have hverify : ∀ v, ((s.setLinkState p 2 speed).setPort p v).verifyState p = s.verifyState p := fun v => by
    rw [State.verifyState, State.bit_congr (hrd v _ (prtPage_add_ne (by omega))),
      State.bit_congr (hrd v _ (prtPage_add_ne (by omega))), State.verifyState]
  unfold State.enterUp
  rw [if_pos hp, hverify]
  refine ⟨?_, ?_, ?_, fun k hk => ?_⟩
  · rw [State.lstate_setFld_verify, State.lstate_setPort, State.lstate_setLinkState _ _ _ (by omega)]
  · rw [State.fld_setFld_apart _ _ _ _ _ _ _ _ (by omega) (by omega), State.fld_setPort,
      State.speed_setLinkState _ _ _ hspeed]
  · rw [State.fld_setFld_same _ _ _ _ _ (by omega)]
    exact Nat.mod_eq_of_lt (State.verifyState_lt s p)
  · rw [State.rd_setFld_other _ _ hk, hrd _ k hk]

theorem linkUp_from_training {s : State} {p : ExtPort} {rate : Fin 8} {speed : Nat}
    (hthere : s.hasPort p.val = true) (htrain : s.lstate p.val = 1) (hseen : s.phySeen p.val = true)
    (hspeed : s.linkSpeed p.val rate.val = some speed) :
    Answers (.linkUp p rate) s fun t =>
      t.portUp p.val = true ∧ t.fld (Reg.PRT_PSTAT p.val) 2 4 = speed ∧
      t.fld (Reg.PRT_PSTAT p.val) 9 2 = s.verifyState p.val ∧
      ∀ k, k ≠ Reg.PRT_PSTAT p.val → t.rd k = s.rd k := by
  have hcame : s.linkCameUp p.val rate.val = s.enterUp p.val speed := by
    simp [State.linkCameUp, hthere, htrain, hspeed]
  have hvariant : (s.enterUp p.val speed).variant = s.variant :=
    (State.enterUp_keeps (all_contains _) (State.Keeps.refl _ s) p.val speed).variant
  obtain ⟨hup, hshown, hverify, hother⟩ := State.enterUp_effect s p.isLt (State.linkSpeed_lt hspeed)
  refine ⟨_, by rw [exec_linkUp, execLinkUp, State.phyChange_of_seen hseen, hcame], ?_, hshown, hverify, hother⟩
  simp [State.portUp, State.hasPort_congr hvariant, hthere, hup]

/-- A link that is lost with no frame in reception: the port trains again, at no speed and with preemption
unverified. -/
theorem State.loseLink_effect {s : State} {p : Nat} (hopen : s.openRx p = []) (hclosed : s.fab.closed = false) :
    (s.loseLink p).lstate p = 1 ∧ (s.loseLink p).fld (Reg.PRT_PSTAT p) 2 4 = 0 ∧
    (s.loseLink p).fld (Reg.PRT_PSTAT p) 9 2 = 0 ∧
    (s.loseLink p).frames = s.frames ∧ (s.loseLink p).mem = s.mem := by
  have hkeeps : s.Keeps (fun p => [Part.regs, .saturated, .irqs].contains p)
      ((s.portLog p 7 0 0 0).bump (Cnt.PRT_LINK_DOWN_CNT p)) :=
    State.bump_keeps (all_of (all_contains _) rfl)
      (State.portLog_keeps (all_of (all_contains _) rfl) (State.Keeps.refl _ s) p 7 0 0 0) _
  unfold State.loseLink
  rw [hopen, List.foldl_nil]
  dsimp only
  generalize (s.portLog p 7 0 0 0).bump (Cnt.PRT_LINK_DOWN_CNT p) = u at hkeeps
  have hfab : u.fab = s.fab := hkeeps.same .fab rfl
  rw [State.linkGone_of_open (by rw [State.setFld_fab, State.setLinkState_fab, hfab, hclosed])]
  refine ⟨?_, ?_, ?_, ?_, ?_⟩
  · rw [State.lstate_setFld_verify, State.lstate_setLinkState _ _ _ (by omega)]
  · rw [State.fld_setFld_apart _ _ _ _ _ _ _ _ (by omega) (by omega),
      State.speed_setLinkState _ _ _ (by omega)]
  · exact State.fld_setFld_same _ _ _ _ 0 (by omega)
  · rw [State.setFld_frames, State.setLinkState_frames, hkeeps.same .frames rfl]
  · rw [State.setFld_mem, State.setLinkState_mem, hkeeps.same .mem rfl]

theorem linkDown_of_up {s : State} {p : ExtPort} (hup : s.portUp p.val = true) (hseen : s.phySeen p.val = true)
    (hclosed : s.fab.closed = false) (hopen : s.openRx p.val = []) :
    Answers (.linkDown p) s fun t =>
      t.lstate p.val = 1 ∧ t.fld (Reg.PRT_PSTAT p.val) 2 4 = 0 ∧ t.fld (Reg.PRT_PSTAT p.val) 9 2 = 0 ∧
      t.frames = s.frames ∧ t.mem = s.mem := by
  refine ⟨_, ?_, State.loseLink_effect hopen hclosed⟩
  rw [exec_linkDown, execLinkDown, State.phyChange_of_seen hseen, State.linkWentDown, if_pos hup]

theorem t1SpeedTryTimeout_of_due {s : State} {p : ExtPort} (htrain : s.lstate p.val = 1)
    (hmode : s.fld (Reg.PRT_PMODE p.val) 0 4 = 8) (hdue : (s.port p.val).triedAt + 200000000 ≤ s.nowNs) :
    Answers (.t1SpeedTryTimeout p) s fun t =>
      (t.port p.val).try1000 = !(s.port p.val).try1000 ∧ t.regs = s.regs ∧
      ∀ q, q ≠ p.val → t.port q = s.port q := by
  refine ⟨s.setPort p.val { s.port p.val with try1000 := !(s.port p.val).try1000, triedAt := s.nowNs },
    ?_, ?_, rfl, fun q hq => State.port_setPort_other _ _ hq⟩
  · rw [exec_t1SpeedTryTimeout, execT1SpeedTryTimeout, if_pos (by simp [htrain, hmode, hdue])]
  · rw [State.port_setPort_same]

theorem phyMirrorRefresh_of_edge {s : State} {p : ExtPort} {sqi : Fin 8} (hp : 12 ≤ p.val) :
    Answers (.phyMirrorRefresh p sqi) s fun t =>
      t.bit (Reg.PRT_PSTAT p.val) 11 = !s.edgeReachable ∧
      (s.edgeReachable = true → p.val < 28 → t.fld (Reg.PRT_PSTAT p.val) 6 3 = sqi.val) ∧
      ∀ k, k ≠ Reg.PRT_PSTAT p.val → t.rd k = s.rd k := by
  refine ⟨_, by rw [exec_phyMirrorRefresh, execPhyMirrorRefresh, if_neg (Nat.not_lt.mpr hp)], ?_⟩
  cases hreach : s.edgeReachable with
  | false =>
    exact ⟨State.bit_setBit_same _ _ _ _ (by omega), by simp, fun k => State.rd_setBit_other _ _⟩
  | true =>
    have hfresh : (s.setBit (Reg.PRT_PSTAT p.val) 11 false).bit (Reg.PRT_PSTAT p.val) 11 = false :=
      State.bit_setBit_same _ _ _ _ (by omega)
    simp only [Bool.not_true, Bool.false_eq_true, if_false]
    split
    · refine ⟨?_, fun _ _ => ?_, fun k hk => ?_⟩
      · rw [State.bit_setFld_apart _ _ (by omega) (by omega), hfresh]
      · rw [State.fld_setFld_same _ _ _ _ _ (by omega)]
        exact Nat.mod_eq_of_lt sqi.isLt
      · rw [State.rd_setFld_other _ _ hk, State.rd_setBit_other _ _ hk]
    · next hlow => exact ⟨hfresh, fun _ h => absurd h hlow, fun k => State.rd_setBit_other _ _⟩

/-- The result of verification, which a port shows while it verifies (R65). -/
theorem verification_shows {s : State} {p v : Nat} (hv : v < 4) (hup : s.portUp p = true)
    (hverifies : s.fld (Reg.PRT_PSTAT p) 9 2 = 1) {u : State}
    (hu : u = if s.portUp p && s.fld (Reg.PRT_PSTAT p) 9 2 == 1 then s.setFld (Reg.PRT_PSTAT p) 9 2 v else s) :
    u.fld (Reg.PRT_PSTAT p) 9 2 = v ∧ ∀ k, k ≠ Reg.PRT_PSTAT p → u.rd k = s.rd k := by
  rw [hu, if_pos (by simp [hup, hverifies])]
  refine ⟨?_, fun k => State.rd_setFld_other _ _⟩
  rw [State.fld_setFld_same _ _ _ _ _ (by omega)]
  exact Nat.mod_eq_of_lt hv

/-- Settles O19: the MDIO commands write fields of the two MDIO registers that stand apart, and each command of a
port is one change of its link state or of its engine's state. -/
theorem portAndMdioCommandsComplete : Obligations.PortAndMdioCommandsComplete := by
  refine ⟨⟨fun i s m phyad reg c45 data op => mdio_starts_or_collides, fun s data => mdioDone_of_busy⟩,
    fun s m p => portEnable_block_off, fun s m p => portEnable_trains, fun s m p => portEnable_bad_mode,
    fun s m p => portDisable_drains, fun s m p f v => execPortDisable_drops,
    fun s p => portDisableDone_of_drained, fun s p rate speed => linkUp_from_training,
    fun s p rate h => ⟨?_, ?_⟩, fun s p => linkDown_of_up, fun s p => t1SpeedTryTimeout_of_due,
    fun s p hearly => ⟨s, ?_, rfl⟩, fun s p sqi => phyMirrorRefresh_of_edge, fun s p hup hverifies =>
      ⟨⟨_, rfl, verification_shows (by omega) hup hverifies rfl⟩,
        ⟨_, rfl, verification_shows (by omega) hup hverifies rfl⟩⟩⟩
  · rw [exec_linkUp, execLinkUp, State.phyChange_of_retraining h]
  · rw [exec_linkDown, execLinkDown, State.phyChange_of_retraining h]
  · rw [exec_t1SpeedTryTimeout, execT1SpeedTryTimeout, if_neg (by simp [Nat.not_le.mpr hearly])]

end Sys2Proof.Machine
end

section
/-!
PROOFS. PLCA, and sleep and wake of the ports (R59 to R63): what a handshake and a collision leave of a port, then
the commands.
-/

namespace Sys2Proof.Machine

open Sys2Proof

/-! ## PLCA (R59, R60) -/

theorem State.keeps_portLog (s : State) (p type tc len : Nat) (hash : Word) :
    s.Keeps (fun p => [Part.regs, .irqs].contains p) (s.portLog p type tc len hash) :=
  State.portLog_keeps (all_contains _) (State.Keeps.refl _ s) p type tc len hash

theorem plcaBeaconLoss_of_follower {s : State} {p : ExtPort} (hfollows : s.plcaFollower p.val = true)
    (hclear : s.bit (Reg.PRT_PSTAT p.val) 12 = false) :
    Answers (.plcaBeaconLoss p) s fun t => t.bit (Reg.PRT_PSTAT p.val) 12 = true ∧ t.ports = s.ports := by
  refine ⟨_, by rw [exec_plcaBeaconLoss, execPlcaBeaconLoss, if_pos (by simp [hfollows, hclear])], ?_, ?_⟩
  · rw [State.bit_congr (State.rd_portLog _ _ _ _ _ fun off hoff _ => prtPage_add_ne (by omega))]
    exact State.bit_setBit_same _ _ _ _ (by omega)
  · rw [(State.keeps_portLog _ p.val 9 0 0 0).same .ports rfl, State.setBit_ports]

theorem plcaBeaconReceived_of_follower {s : State} {p : ExtPort} (hfollows : s.plcaFollower p.val = true) :
    Answers (.plcaBeaconReceived p) s fun t =>
      t.bit (Reg.PRT_PSTAT p.val) 12 = false ∧ ∀ k, k ≠ Reg.PRT_PSTAT p.val → t.rd k = s.rd k := by
  refine ⟨_, by rw [exec_plcaBeaconReceived, execPlcaBeaconReceived, if_pos hfollows],
    State.bit_setBit_same _ _ _ _ (by omega), fun k => State.rd_setBit_other _ _⟩

theorem plcaCollision_retries {s : State} {p : ExtPort} (hp : 28 ≤ p.val)
    (hsends : (s.tmPort p.val).express.isSome = true) (hfew : (s.port p.val).attempts < 15) :
    Answers (.plcaCollision p) s fun t =>
      (t.port p.val).attempts = (s.port p.val).attempts + 1 ∧ t.tm = s.tm ∧ t.regs = s.regs := by
  obtain ⟨x, hx⟩ := Option.isSome_iff_exists.mp hsends
  refine ⟨s.setPort p.val { s.port p.val with attempts := (s.port p.val).attempts + 1 }, ?_, ?_, rfl, rfl⟩
  · rw [exec_plcaCollision, execPlcaCollision, hx]
    dsimp only
    rw [if_neg (by omega), if_pos (by omega)]
  · rw [State.port_setPort_same]

/-- A port whose frame in transmission is abandoned: logged with the frame's length and hash, and reported. -/
def State.abandoned (s : State) (p cls len : Nat) (hash : Word) : State :=
  ((((s.setPort p { s.port p with attempts := 0 }).setTmPort p { s.tmPort p with express := none }).bump
    (Cnt.PRT_TX_EXCESS_COL p)).portLog p 8 cls len hash).fault 0x2041 0

theorem State.report_abandoned (s : State) (p cls len : Nat) (hash : Word) :
    ⟨0x2041, 0, s.nowNs⟩ ∈ (s.abandoned p cls len hash).reports := by
  rw [State.abandoned, State.reports_fault, (State.keeps_portLog ..).nowNs, State.bump_nowNs]
  exact List.mem_append_right _ List.mem_cons_self

/-- The sixteenth collision abandons the frame (R60). -/
theorem execPlcaCollision_of_last {s : State} {p : ExtPort} {x : Sending} (hp : 28 ≤ p.val)
    (hx : (s.tmPort p.val).express = some x) (hlast : (s.port p.val).attempts = 15) :
    ∃ len hash, execPlcaCollision p s = .next
      ((((s.abandoned p.val x.cls len hash).endCopy x.frame p.val).freeDone x.frame).reap x.frame) := by
  rw [execPlcaCollision, hx]
  dsimp only
  rw [if_neg (by omega), if_neg (by omega)]
  cases s.frame x.frame with
  | none => exact ⟨0, 0, rfl⟩
  | some v => exact ⟨v.copyLen p.val, v.hash, rfl⟩

theorem plcaCollision_abandons {s : State} {p : ExtPort} (hp : 28 ≤ p.val)
    (hsends : (s.tmPort p.val).express.isSome = true) (hlast : (s.port p.val).attempts = 15) :
    Answers (.plcaCollision p) s fun t => ⟨0x2041, 0, s.nowNs⟩ ∈ t.reports := by
  obtain ⟨x, hx⟩ := Option.isSome_iff_exists.mp hsends
  obtain ⟨len, hash, hexec⟩ := execPlcaCollision_of_last hp hx hlast
  have hreports : ∀ u : State,
      (((u.endCopy x.frame p.val).freeDone x.frame).reap x.frame).reports = u.reports := fun u =>
    (State.reap_keeps (all_of (all_contains [Part.regs, .saturated, .irqs, .flowFrames, .frames, .fab, .tm]) rfl)
      (State.freeDone_keeps (all_of (all_contains _) rfl)
        (State.endCopy_keeps (all_of (all_contains _) rfl) (State.Keeps.refl _ u) x.frame p.val) x.frame)
      x.frame).same .reports rfl
  refine ⟨_, by rw [exec_plcaCollision, hexec], ?_⟩
  dsimp only
  rw [hreports]
  exact State.report_abandoned ..

/-! ## TC10 (R61 to R63) -/

theorem State.lstate_of_up {s : State} {p : Nat} (h : s.portUp p = true) : s.lstate p = 2 := by
  simp only [State.portUp, Bool.and_eq_true, beq_iff_eq] at h
  exact h.2

section
variable (s : State) (p : Nat)

theorem State.port_endHandshake :
    (s.endHandshake p).port p = { s.port p with sleepAsked := false, sleepAccepted := false } := by
  rw [State.endHandshake, State.port_congr (State.setBit_ports ..), State.port_setPort_same]

theorem State.bit_endHandshake : (s.endHandshake p).bit (Reg.PRT_TC10 p) 1 = false :=
  State.bit_setBit_same _ _ _ _ (by omega)

theorem State.rd_endHandshake_other {k : Nat} (hk : k ≠ Reg.PRT_TC10 p) : (s.endHandshake p).rd k = s.rd k := by
  rw [State.endHandshake, State.rd_setBit_other _ _ hk, State.rd_setPort]

theorem State.endHandshake_fab : (s.endHandshake p).fab = s.fab := rfl

end

theorem tc10SleepRequest_asks {s : State} {m : Master} {p : ExtPort} (hadm : s.admits m (Reg.PRT_TC10 p.val)) :
    Answers (.tc10SleepRequest m p) s fun t =>
      t.bit (Reg.PRT_TC10 p.val) 1 = true ∧
      (s.tc10 p.val = true → s.portUp p.val = true → (t.port p.val).sleepAsked = true) ∧
      ∀ k, k ≠ Reg.PRT_TC10 p.val → t.rd k = s.rd k := by
  have htc10 : ((s.reply 0).setBit (Reg.PRT_TC10 p.val) 1 true).tc10 p.val = s.tc10 p.val := by
    rw [State.tc10, State.bit_setBit_apart _ _ _ _ _ _ (by omega) (by omega)]
    rfl
  have hother : ∀ k, k ≠ Reg.PRT_TC10 p.val →
      ((s.reply 0).setBit (Reg.PRT_TC10 p.val) 1 true).rd k = s.rd k := fun k hk => by
    rw [State.rd_setBit_other _ _ hk, State.rd_reply]
  have hup := State.portUp_congr (t := (s.reply 0).setBit (Reg.PRT_TC10 p.val) 1 true) (s := s) (p := p.val) rfl
    (hother _ (prtPage_add_ne (by omega)))
  have hset : ((s.reply 0).setBit (Reg.PRT_TC10 p.val) 1 true).bit (Reg.PRT_TC10 p.val) 1 = true :=
    State.bit_setBit_same _ _ _ _ (by omega)
  refine ⟨_, by rw [exec_tc10SleepRequest, execTc10SleepRequest, guardReg_of_admits hadm], ?_⟩
  dsimp only
  rw [htc10, hup]
  split
  · refine ⟨hset, fun _ _ => ?_, hother⟩
    rw [State.port_setPort_same]
  · next hno => exact ⟨hset, fun h h' => absurd (by simp [h, h']) hno, hother⟩

theorem tc10PartnerSleepRequest_answers {s : State} {p : ExtPort} (htc10 : s.tc10 p.val = true)
    (hup : s.portUp p.val = true) :
    Answers (.tc10PartnerSleepRequest p) s fun t =>
      if s.bit (Reg.PRT_TC10 p.val) 2 && s.egressEmpty p.val then
        (t.port p.val).sleepAccepted = true ∧ t.regs = s.regs
      else t = s.bump (Cnt.PRT_TC10_DECLINE p.val) := by
  refine ⟨_, by rw [exec_tc10PartnerSleepRequest, execTc10PartnerSleepRequest, if_pos (by simp [htc10, hup])], ?_⟩
  split
  · exact ⟨by rw [State.port_setPort_same], rfl⟩
  · rfl

theorem tc10SleepComplete_of_asked {s : State} {p : ExtPort} (htc10 : s.tc10 p.val = true)
    (hup : s.portUp p.val = true) (hempty : s.egressEmpty p.val = true)
    (hasked : (s.port p.val).sleepAsked = true) (hclosed : s.fab.closed = false) :
    Answers (.tc10SleepComplete p) s fun t =>
      t.lstate p.val = 3 ∧ t.bit (Reg.PRT_TC10 p.val) 1 = false ∧ (t.port p.val).sleepAsked = false ∧
      ∀ k, k ≠ Reg.PRT_TC10 p.val → k ≠ Reg.PRT_PSTAT p.val → t.rd k = s.rd k := by
  have hapart : Reg.PRT_TC10 p.val ≠ Reg.PRT_PSTAT p.val := prtPage_add_ne (by omega)
  refine ⟨_, by rw [exec_tc10SleepComplete, execTc10SleepComplete, if_pos (by simp [htc10, hup, hempty, hasked]),
    State.linkGone_of_open (by rw [State.setFld_fab, State.setLinkState_fab, State.endHandshake_fab, hclosed])],
    ?_, ?_, ?_, fun k hk hk' => ?_⟩
  · rw [State.lstate_setFld_verify, State.lstate_setLinkState _ _ _ (by omega)]
  · rw [State.bit_congr (State.rd_setFld_other _ _ hapart),
      State.bit_congr (State.rd_setLinkState_other _ _ _ _ hapart), State.bit_endHandshake]
  · rw [State.port_congr (State.setFld_ports ..), State.sleepAsked_setLinkState, State.port_endHandshake]
  · rw [State.rd_setFld_other _ _ hk', State.rd_setLinkState_other _ _ _ _ hk', State.rd_endHandshake_other _ _ hk]

/-- A wake in the handshake ends it, and the port stays UP while its PHY sends (R63). -/
theorem tc10Wake_in_handshake {s : State} {p : ExtPort} (htc10 : s.tc10 p.val = true) (hup : s.portUp p.val = true)
    (hasked : (s.port p.val).sleepAsked = true) :
    Answers (.tc10Wake p false) s fun t =>
      t.lstate p.val = 2 ∧ (t.port p.val).sleepAsked = false ∧ (t.port p.val).sleepAccepted = false ∧
      t.bit (Reg.PRT_TC10 p.val) 1 = false := by
  have hstate : (s.endHandshake p.val).lstate p.val = s.lstate p.val :=
    State.fld_congr (State.rd_endHandshake_other _ _ (prtPage_add_ne (by omega))) _ _
  refine ⟨s.endHandshake p.val, ?_, ?_, ?_, ?_, State.bit_endHandshake s p.val⟩
  · simp [execTc10Wake, htc10, hup, hasked]
  · rw [hstate, State.lstate_of_up hup]
  · rw [State.port_endHandshake]
  · rw [State.port_endHandshake]

/-- A wake in SLEEP starts training, is forwarded and reported (R63). -/
theorem execTc10Wake_of_sleep {s : State} {p : ExtPort} (htc10 : s.tc10 p.val = true) (hsleep : s.lstate p.val = 3) :
    execTc10Wake p false s = .next (((s.wakeForwards p.val).foldl (fun a q => a.setLinkState q 1 0)
      (s.setLinkState p.val 1 0)).wakeEvent 4 p.val 0) := by
  have hdown : s.portUp p.val = false := by simp [State.portUp, hsleep]
  simp [execTc10Wake, htc10, hdown, hsleep]

end Sys2Proof.Machine
end

section
/-!
PROOFS. Frames and flow-control frames at a port (R17, R66, R68, R69, R75): a frame's number and what its head and
its tail leave of it, and the classes that PAUSE and PFC stop.
-/

namespace Sys2Proof.Machine

open Sys2Proof

/-! ## A frame written or removed -/

section
variable (s : State) (f : Nat) (v : Frame)

@[simp] theorem State.frame_setFrame_same : (s.setFrame f v).frame f = some v :=
  Store.get_set_same (fun _ => none) s.frames f (some v)

theorem State.frame_setFrame_other {f g : Nat} (h : g ≠ f) : (s.setFrame f v).frame g = s.frame g :=
  Store.get_set_other (fun _ => none) s.frames (some v) (Ne.symm h)

@[simp] theorem State.frame_delFrame_same : (s.delFrame f).frame f = none :=
  Store.get_set_same (fun _ => none) s.frames f none

theorem State.frame_delFrame_other {f g : Nat} (h : g ≠ f) : (s.delFrame f).frame g = s.frame g :=
  Store.get_set_other (fun _ => none) s.frames none (Ne.symm h)

@[simp] theorem State.rd_setFrame (k : Nat) : (s.setFrame f v).rd k = s.rd k := rfl
@[simp] theorem State.rd_delFrame (k : Nat) : (s.delFrame f).rd k = s.rd k := rfl

end

section
variable (s : State) (p : Nat) (tx : Bool) (t : Nat) (bs : List Byte)

theorem State.keeps_ptpRing : s.Keeps (fun p => [Part.regs, .saturated].contains p) (s.ptpRing p tx t bs) :=
  State.ptpRing_keeps (all_contains _) (State.Keeps.refl _ s) p tx t bs

@[simp] theorem State.ptpRing_frames : (s.ptpRing p tx t bs).frames = s.frames :=
  (State.keeps_ptpRing s p tx t bs).same .frames rfl

end

/-! ## The head of a frame (R11, R17, R66, R69, R255) -/

theorem State.retraining_of_wayOpen {s : State} {p : Nat} (h : s.wayOpen p = true) : s.retraining p = false := by
  simp only [State.wayOpen, viaTraverse, State.edgeReachable, Bool.or_eq_true, Bool.not_eq_true',
    Bool.or_eq_false_iff, Bool.and_eq_false_iff, decide_eq_false_iff_not, beq_iff_eq] at h
  rcases h with ⟨h | h, -⟩ | h <;> simp [State.retraining, h]

theorem State.ne_36_of_retraining {s : State} {p : Nat} (h : s.retraining p = true) : p ≠ 36 := by
  simp only [State.retraining, Bool.and_eq_true, decide_eq_true_eq] at h
  omega

/-- The frame that begins to arrive. -/
def State.arrival (s : State) (p : Nat) (head : List Byte) (latency : Nat) : Frame :=
  { bytes := head, inPort := p, rxTime := ((s.interruptRx p).rxStamp p latency).1, stage := .retrain }

/-- The state in which a frame has begun to arrive under the next number. -/
def State.arrived (s : State) (p : Nat) (head : List Byte) (latency : Nat) : State :=
  { ((s.interruptRx p).rxStamp p latency).2.setFrame s.nextFrame (s.arrival p head latency) with
    nextFrame := s.nextFrame + 1 }

section
variable (s : State) (p : Nat) (head : List Byte) (latency : Nat)

theorem State.keeps_rxStamp (u : State) :
    u.Keeps (fun p => [Part.regs].contains p) (u.rxStamp p latency).2 :=
  State.rxStamp_keeps (all_contains _) (State.Keeps.refl _ u) p latency

theorem State.interruptRx_traverse : (s.interruptRx p).traverse = s.traverse :=
  (State.interruptRx_keeps (all_contains [Part.frames]) (State.Keeps.refl _ s) p).same .traverse rfl

theorem State.arrived_traverse : (s.arrived p head latency).traverse = s.traverse :=
  ((State.keeps_rxStamp p latency (s.interruptRx p)).same .traverse rfl).trans (State.interruptRx_traverse s p)

theorem State.arrived_nextFrame : (s.arrived p head latency).nextFrame = s.nextFrame + 1 := rfl

theorem State.frame_arrived_new : (s.arrived p head latency).frame s.nextFrame = some (s.arrival p head latency) :=
  State.frame_setFrame_same ..

theorem State.frame_arrived_other {f : Nat} (h : f ≠ s.nextFrame) :
    (s.arrived p head latency).frame f = (s.interruptRx p).frame f :=
  (State.frame_setFrame_other _ _ h).trans
    (State.frame_congr ((State.keeps_rxStamp p latency (s.interruptRx p)).same .frames rfl) f)

theorem State.retraining_arrived : (s.arrived p head latency).retraining p = s.retraining p := by
  rw [State.retraining, State.arrived_traverse, State.retraining]

/-- A frame begins at a port that takes frames: in the retrain buffer, or on its way to the Core die (R11). -/
theorem State.beginRx_of_receives {s : State} {p : Nat} (hp : p ≠ 36) (hrecv : s.receives p = true)
    (hway : s.wayOpen p = true ∨ s.retraining p = true) :
    s.beginRx p head latency =
      if s.retraining p then (s.arrived p head latency).holdEvent (.rxBegin s.nextFrame)
      else (s.arrived p head latency).takeRx s.nextFrame (s.arrival p head latency) := by
  have hgo : ¬(decide (p = 36) || !s.receives p || !(s.wayOpen p || s.retraining p)) = true := by
    rcases hway with h | h <;> simp [hp, hrecv, h]
  rw [← State.retraining_arrived s p head latency, State.beginRx, if_neg hgo]
  rfl

theorem State.interruptRx_none {s : State} {p : Nat} (hopen : s.openRx p = []) : s.interruptRx p = s := by
  rw [State.interruptRx, hopen, List.foldl_nil]

theorem State.interruptRx_one {s : State} {p f : Nat} {v : Frame} (hopen : s.openRx p = [f])
    (hf : s.frame f = some v) : s.interruptRx p = s.setFrame f { v with interrupted := true } := by
  rw [State.interruptRx, hopen, List.foldl_cons, List.foldl_nil, hf]

end

/-- The settings an arrival at a port is checked under, if a SecY is active there (R251). -/
def State.rxCheckAt (s : State) (p : Nat) : Option RxCheck :=
  if s.secyActive p then some (s.rxCheckNow p) else none

/-- An arrival that stays at its port until its tail: one for an active SecY, or a MAC control frame. -/
def State.stays (s : State) (v : Frame) : Bool :=
  (s.rxCheckAt v.inPort).isSome || (decide (v.inPort < 32) && isMacCtrl v.bytes)

/-- An arrival that has reached the Core die. -/
def State.atCore (s : State) (v : Frame) : Frame :=
  { v with stage := if s.stays v then .receiving else .toClassify, check := s.rxCheckAt v.inPort }

theorem State.stage_atCore (s : State) (v : Frame) :
    (s.atCore v).stage = .receiving ∨ (s.atCore v).stage = .toClassify := by
  rw [State.atCore]
  cases s.stays v with
  | true => exact .inl rfl
  | false => exact .inr rfl

theorem State.takeRx_eq (s : State) (f : Nat) (v : Frame) :
    s.takeRx f v =
      if s.stays v || decide (v.bytes.length < 52) then s.setFrame f (s.atCore v)
      else (s.setFrame f (s.atCore v)).ptpRing v.inPort false v.rxTime v.bytes := rfl

theorem State.takeRx_frames (s : State) (f : Nat) (v : Frame) :
    (s.takeRx f v).frames = (s.setFrame f (s.atCore v)).frames := by
  rw [State.takeRx_eq]
  split
  · rfl
  · rw [State.ptpRing_frames]

theorem State.takeRx_nextFrame (s : State) (f : Nat) (v : Frame) : (s.takeRx f v).nextFrame = s.nextFrame :=
  (State.takeRx_keeps (all_contains [Part.regs, .saturated, .frames]) (State.Keeps.refl _ s) f v).same .nextFrame rfl

section
variable {s : State} {p : Port} {head : List Byte} {latency : BitVec 16}

/-- The command at a port whose way to the Core die is open. -/
theorem frameReceive_reaches_core (hp : p.val ≠ 36) (hrecv : s.receives p.val = true)
    (hway : s.wayOpen p.val = true) :
    Answers (.frameReceive p head latency) s fun t =>
      t.nextFrame = s.nextFrame + 1 ∧
      (∃ v, t.frame s.nextFrame = some v ∧ v.bytes = head ∧ v.inPort = p.val ∧ v.tailIn = false ∧
        (v.stage = .receiving ∨ v.stage = .toClassify)) ∧
      ∀ f, f ≠ s.nextFrame → t.frame f = (s.interruptRx p.val).frame f := by
  have hframes := State.takeRx_frames (s.arrived p.val head latency.toNat) s.nextFrame
    (s.arrival p.val head latency.toNat)
  refine ⟨_, by rw [exec_frameReceive, execFrameReceive, State.beginRx_of_receives _ _ hp hrecv (.inl hway),
    State.retraining_of_wayOpen hway, if_neg (by decide)], ?_,
    ⟨(s.arrived p.val head latency.toNat).atCore (s.arrival p.val head latency.toNat), ?_, rfl, rfl, rfl,
      State.stage_atCore ..⟩, fun f hf => ?_⟩
  · rw [State.takeRx_nextFrame, State.arrived_nextFrame]
  · rw [State.frame_congr hframes, State.frame_setFrame_same]
  · rw [State.frame_congr hframes, State.frame_setFrame_other _ _ hf, State.frame_arrived_other _ _ _ _ hf]

theorem frameReceive_first (hp : p.val ≠ 36) (hrecv : s.receives p.val = true) (hway : s.wayOpen p.val = true)
    (hopen : s.openRx p.val = []) :
    Answers (.frameReceive p head latency) s fun t =>
      t.nextFrame = s.nextFrame + 1 ∧
      (∃ v, t.frame s.nextFrame = some v ∧ v.bytes = head ∧ v.inPort = p.val ∧ v.tailIn = false ∧
        (v.stage = .receiving ∨ v.stage = .toClassify)) ∧
      ∀ f, f ≠ s.nextFrame → t.frame f = s.frame f := by
  have h := frameReceive_reaches_core (head := head) (latency := latency) hp hrecv hway
  rwa [State.interruptRx_none hopen] at h

/-- A frame that begins while another of its port arrives interrupts it (R66). -/
theorem frameReceive_interrupts {f : Nat} {v : Frame} (hp : p.val ≠ 36) (hrecv : s.receives p.val = true)
    (hway : s.wayOpen p.val = true) (hopen : s.openRx p.val = [f]) (hf : s.frame f = some v)
    (hold : f ≠ s.nextFrame) :
    Answers (.frameReceive p head latency) s fun t => t.frame f = some { v with interrupted := true } := by
  obtain ⟨t, hexec, -, -, hothers⟩ :=
    frameReceive_reaches_core (head := head) (latency := latency) hp hrecv hway
  exact ⟨t, hexec, (hothers f hold).trans (by rw [State.interruptRx_one hopen hf, State.frame_setFrame_same])⟩

/-- While the Traverse link retrains, an arrival is held at the Edge die (R11). -/
theorem frameReceive_held (hrecv : s.receives p.val = true) (hheld : s.retraining p.val = true)
    (hopen : s.openRx p.val = []) :
    Answers (.frameReceive p head latency) s fun t =>
      t.nextFrame = s.nextFrame + 1 ∧ t.traverse.held = s.traverse.held ++ [.rxBegin s.nextFrame] ∧
      (∃ v, t.frame s.nextFrame = some v ∧ v.bytes = head ∧ v.inPort = p.val ∧ v.stage = .retrain) ∧
      ∀ f, f ≠ s.nextFrame → t.frame f = s.frame f := by
  refine ⟨(s.arrived p.val head latency.toNat).holdEvent (.rxBegin s.nextFrame), ?_, rfl, ?_,
    ⟨s.arrival p.val head latency.toNat, State.frame_arrived_new .., rfl, rfl, rfl⟩, fun f hf => ?_⟩
  · rw [exec_frameReceive, execFrameReceive,
      State.beginRx_of_receives _ _ (State.ne_36_of_retraining hheld) hrecv (.inr hheld), if_pos hheld]
  · rw [State.holdEvent, State.arrived_traverse]
  · exact (State.frame_arrived_other s _ _ _ hf).trans (by rw [State.interruptRx_none hopen])

theorem frameReceive_not_taken (h : p.val = 36 ∨ s.receives p.val = false ∨
    s.wayOpen p.val = false ∧ s.retraining p.val = false) :
    Answers (.frameReceive p head latency) s fun t => t = s := by
  have hstop : (decide (p.val = 36) || !s.receives p.val || !(s.wayOpen p.val || s.retraining p.val)) = true := by
    rcases h with h | h | ⟨hway, hheld⟩
    · simp [h]
    · simp [h]
    · simp [hway, hheld]
  exact ⟨s, by rw [exec_frameReceive, execFrameReceive, State.beginRx, if_pos hstop], rfl⟩

end

/-! ## The tail of a frame (R75) -/

/-- The frame once its tail is in. -/
def Frame.whole (v : Frame) (rest : List Byte) : Frame :=
  { v with
    bytes := v.bytes ++ rest, tailIn := true, wireLen := (v.bytes ++ rest).length + 4
    storedLen := if v.stage = .queued then (v.bytes ++ rest).length + 4 else v.storedLen }

theorem State.heardFrame_frames (s : State) : s.heardFrame.frames = s.frames := rfl

/-- A good frame at an external port, counted (R75, R394). -/
def State.countGood (s : State) (p n : Nat) (all : List Byte) : State :=
  let u := ((s.bump (Cnt.PRT_RX_FRAMES p)).bumpBy (Cnt.PRT_RX_BYTES p) n).monEvent (8 * p)
  if natAt all 12 2 ≠ 0x88B5 then u.heardFrame else u

theorem State.countGood_frames (s : State) (p n : Nat) (all : List Byte) :
    (s.countGood p n all).frames = s.frames := by
  have hbytes : ∀ u : State, (u.bumpBy (Cnt.PRT_RX_BYTES p) n).frames = u.frames := fun u =>
    (State.bumpBy_keeps (all_contains [Part.regs, .saturated]) (State.Keeps.refl _ u) _ n).same .frames rfl
  have hcounted : (((s.bump (Cnt.PRT_RX_FRAMES p)).bumpBy (Cnt.PRT_RX_BYTES p) n).monEvent (8 * p)).frames =
      s.frames := by rw [State.monEvent_frames, hbytes, State.bump_frames]
  unfold State.countGood
  dsimp only
  split
  · rw [State.heardFrame_frames, hcounted]
  · exact hcounted

/-- A frame without an error that stands at its port waits there, whole. -/
theorem State.endRx_good {s : State} {f : Nat} {v : Frame} {rest : List Byte} {err : RxError}
    (hf : s.frame f = some v) (htail : v.tailIn = false) (hheld : s.retraining v.inPort = false)
    (hstage : v.stage = .receiving) (hp : v.inPort < 32) (hctrl : isMacCtrl (v.bytes ++ rest) = false)
    (hgood : s.rxVerdict v.inPort ((v.bytes ++ rest).length + 4) err = none) :
    s.endRx f rest err =
      (s.countGood v.inPort ((v.bytes ++ rest).length + 4) (v.bytes ++ rest)).setFrame f (v.whole rest) := by
  rw [State.endRx, hf]
  simp only [htail, hheld, hp, hgood, hctrl, hstage, Bool.false_eq_true, if_false, if_true, decide_true,
    Bool.and_false, true_and, bne_self_eq_false, Bool.false_and, reduceCtorEq]
  simp only [State.countGood, Frame.whole, hstage, reduceCtorEq, if_false]

theorem frameReceiveEnd_good {s : State} {f : FrameId} {v : Frame} {rest : List Byte} (hf : s.frame f = some v)
    (htail : v.tailIn = false) (hheld : s.retraining v.inPort = false) (hstage : v.stage = .receiving)
    (hp : v.inPort < 32) (hctrl : isMacCtrl (v.bytes ++ rest) = false)
    (hgood : s.rxVerdict v.inPort ((v.bytes ++ rest).length + 4) .none = none) :
    Answers (.frameReceiveEnd f rest .none) s fun t =>
      (∃ u, t.frame f = some u ∧ u.bytes = v.bytes ++ rest ∧ u.tailIn = true ∧ u.stage = .receiving) ∧
      ∀ g, g ≠ f → t.frame g = s.frame g := by
  refine ⟨_, by rw [exec_frameReceiveEnd, execFrameReceiveEnd,
    State.endRx_good hf htail hheld hstage hp hctrl hgood],
    ⟨v.whole rest, State.frame_setFrame_same .., rfl, rfl, hstage⟩, fun g hg => ?_⟩
  rw [State.frame_setFrame_other _ _ hg, State.frame_congr (State.countGood_frames ..)]

/-! ## The mask of the stopped classes (R69) -/

/-- Adding a clear bit of a number sets it. -/
theorem add_two_pow_eq_or {x c : Nat} (h : x.testBit c = false) : x + 2 ^ c = x ||| 2 ^ c := by
  have hlow : x % 2 ^ (c + 1) < 2 ^ c := Nat.lt_pow_two_of_testBit _ fun i hi => by
    rcases Nat.eq_or_lt_of_le hi with rfl | hlt
    · simp [Nat.testBit_mod_two_pow, h]
    · simp [Nat.testBit_mod_two_pow, Nat.not_lt.mpr (Nat.succ_le_of_lt hlt)]
  have hlow' : x % 2 ^ (c + 1) < 2 ^ (c + 1) := Nat.mod_lt _ (by positivity)
  have hset : x % 2 ^ (c + 1) ||| 2 ^ c < 2 ^ (c + 1) :=
    Nat.or_lt_two_pow hlow' (Nat.pow_lt_pow_right (by omega) (by omega))
  conv_lhs => rw [← Nat.div_add_mod x (2 ^ (c + 1))]
  conv_rhs => rw [← Nat.div_add_mod x (2 ^ (c + 1))]
  rw [Nat.add_assoc, ← Nat.or_two_pow_eq_add_of_lt hlow, Nat.two_pow_add_eq_or_of_lt hset,
    Nat.two_pow_add_eq_or_of_lt hlow', Nat.or_assoc]

/-- A set bit of a number is cleared by subtracting it. -/
theorem sub_two_pow_eq_xor {x c : Nat} (h : x.testBit c = true) : x - 2 ^ c = x ^^^ 2 ^ c := by
  have hclear : (x ^^^ 2 ^ c).testBit c = false := by simp [Nat.testBit_xor, h]
  have hback : (x ^^^ 2 ^ c) + 2 ^ c = x := by
    rw [add_two_pow_eq_or hclear]
    refine Nat.eq_of_testBit_eq fun i => ?_
    rw [Nat.testBit_or, Nat.testBit_xor, Nat.testBit_two_pow]
    by_cases hi : c = i
    · subst hi
      simp [h]
    · simp [hi]
  omega

/-- One bit of a mask set to a value as the stops of R69 are kept: cleared, then added again. -/
theorem testBit_replaced (x c d : Nat) (off : Bool) :
    (if off = true then x - (if x.testBit c then 2 ^ c else 0)
      else x - (if x.testBit c then 2 ^ c else 0) + 2 ^ c).testBit d =
      if d = c then !off else x.testBit d := by
  have hothers : ∀ d, (x - (if x.testBit c then 2 ^ c else 0)).testBit d = (x.testBit d && decide (d ≠ c)) := by
    intro d
    cases hc : x.testBit c with
    | true =>
      rw [if_pos rfl, sub_two_pow_eq_xor hc, Nat.testBit_xor, Nat.testBit_two_pow]
      by_cases hd : d = c
      · subst hd
        simp [hc]
      · simp [hd, Ne.symm hd]
    | false =>
      by_cases hd : d = c
      · subst hd
        simp [hc]
      · simp [hd]
  cases off with
  | true =>
    rw [if_pos rfl, hothers]
    by_cases hd : d = c <;> simp [hd]
  | false =>
    rw [if_neg (by decide), add_two_pow_eq_or (by simp [hothers]), Nat.testBit_or, hothers, Nat.testBit_two_pow]
    by_cases hd : d = c
    · simp [hd]
    · simp [hd, Ne.symm hd]

/-! ## PAUSE and PFC (R68, R69) -/

/-- Quanta other than 0 stop a class, quanta 0 release it, and the other classes stay. -/
theorem State.stopped_stopClass (s : State) (p c q d : Nat) :
    (s.stopClass p c q).stopped p d = if d = c then decide (q ≠ 0) else s.stopped p d := by
  have h := testBit_replaced (s.port p).stopped c d (decide (q = 0))
  unfold State.stopped
  rw [State.stopClass, State.port_setPort_same, decide_not]
  simpa only [decide_eq_true_eq] using h

/-- Stops of several classes. -/
theorem State.stopped_foldl_stopClass (p : Nat) (q : Nat → Nat) (d : Nat) (cs : List Nat) (s : State) :
    (cs.foldl (fun acc c => acc.stopClass p c (q c)) s).stopped p d =
      if d ∈ cs then decide (q d ≠ 0) else s.stopped p d := by
  induction cs generalizing s with
  | nil => simp
  | cons c cs ih =>
    rw [List.foldl_cons, ih, State.stopped_stopClass]
    by_cases hd : d = c
    · simp [hd]
    · simp [hd]

/-- A flow-control frame that acts stops or releases the unscheduled classes it names (R69, R86). -/
theorem State.stopped_actOnFlow (s : State) (p : Nat) (cs : List Nat) (q : Nat → Nat) {d : Nat} (hd : d ∈ cs)
    (hfree : s.scheduled d = false) : (s.actOnFlow p cs q).stopped p d = decide (q d ≠ 0) := by
  have hmem : d ∈ cs.filter (fun c => !s.scheduled c) := List.mem_filter.mpr ⟨hd, by simp [hfree]⟩
  have hstops := State.stopped_foldl_stopClass p q d (cs.filter (fun c => !s.scheduled c)) s
  rw [if_pos hmem] at hstops
  unfold State.actOnFlow
  dsimp only
  split
  · rw [State.stopped, State.port_congr (State.bump_ports ..), ← State.stopped, hstops]
  · exact hstops

theorem prtPage_block_ne_mon (p : Nat) {a : Nat} : (prtPage p + a) / 0x100000 ≠ 2 := by
  have := prtPage_ge p
  omega

theorem schedMask_ne_page {p : Nat} (hp : p < 37) {off : Nat} (hoff : off < 0x1000) :
    Reg.FAB_SCHEDMASK ≠ prtPage p + off := by
  have := prtPage_lt hp
  unfold Reg.FAB_SCHEDMASK regKey
  omega

section
variable (s : State) {p : Nat} (n : Nat)

/-- A MAC control frame counts in counters of its port page and of MON. -/
theorem State.rd_countMacCtrl {k : Nat} (hmon : k / 0x100000 ≠ 2)
    (hk : ∀ off, 0x100 ≤ off → off < 0x148 → k ≠ prtPage p + off) : (s.countMacCtrl p n).rd k = s.rd k := by
  rw [State.countMacCtrl, State.rd_monEvent _ _ _ hmon,
    State.rd_bump _ _ _ (hk _ (by omega) (by omega)) (hk 0x144 (by omega) (by omega)),
    State.rd_bumpBy _ _ _ _ (hk _ (by omega) (by omega)) (hk 0x10C (by omega) (by omega)),
    State.rd_bump _ _ _ (hk _ (by omega) (by omega)) (hk 0x104 (by omega) (by omega))]

/-- The settings of a port page stand before its counters. -/
theorem State.rd_countMacCtrl_page {a : Nat} (ha : a < 0x100) :
    (s.countMacCtrl p n).rd (prtPage p + a) = s.rd (prtPage p + a) :=
  State.rd_countMacCtrl s n (prtPage_block_ne_mon p) fun _ _ _ => prtPage_add_ne (by omega)

theorem State.fcMode_countMacCtrl : (s.countMacCtrl p n).fcMode p = s.fcMode p := by
  rw [State.fcMode, State.fld_congr (State.rd_countMacCtrl_page s n (by omega)), State.fcMode]

theorem State.scheduled_countMacCtrl (hp : p < 37) (c : Nat) :
    (s.countMacCtrl p n).scheduled c = s.scheduled c :=
  State.bit_congr (State.rd_countMacCtrl s n (by decide) fun _ _ _ => schedMask_ne_page hp (by omega)) c

theorem State.countMacCtrl_ports : (s.countMacCtrl p n).ports = s.ports :=
  (State.countMacCtrl_keeps (all_contains [Part.regs, .saturated, .irqs]) (State.Keeps.refl _ s) p n).same .ports rfl

end

section
variable {s : State} {p : ExtPort}

theorem pfcReceive_stops {en : BitVec 8} {q : List (BitVec 16)} (hrecv : s.receives p.val = true)
    (hseen : s.phySeen p.val = true) (hmode : s.fcMode p.val = 2) :
    Answers (.pfcReceive p en q) s fun t =>
      ∀ c : Fin 8, en.getLsbD c.val = true → s.bit (Reg.PRT_PFCCFG p.val) (16 + c.val) = true →
        s.scheduled c.val = false → t.stopped p.val c.val = decide ((q.getD c.val 0).toNat ≠ 0) := by
  refine ⟨_, by rw [exec_pfcReceive, execPfcReceive, State.phyChange_of_seen hseen, State.pfcArrives, if_pos hrecv,
    State.receivePfc, if_pos (by rw [State.fcMode_countMacCtrl, hmode])], fun c hen hrxen hfree => ?_⟩
  refine State.stopped_actOnFlow _ p.val _ _ (List.mem_filter.mpr ⟨List.mem_range.mpr c.isLt, ?_⟩) ?_
  · rw [State.bit_congr (State.rd_countMacCtrl_page s 64 (by omega)), hrxen, BitVec.testBit_toNat, hen]
    rfl
  · rw [State.scheduled_countMacCtrl s 64 (by omega), hfree]

theorem pfcReceive_off {en : BitVec 8} {q : List (BitVec 16)} (hrecv : s.receives p.val = true)
    (hmode : s.fcMode p.val ≠ 2) : Answers (.pfcReceive p en q) s fun t => t.ports = s.ports := by
  have harrives : s.pfcArrives p.val en.toNat q = s.countMacCtrl p.val 64 := by
    rw [State.pfcArrives, if_pos hrecv, State.receivePfc, if_neg (by rwa [State.fcMode_countMacCtrl])]
  refine ⟨_, by rw [exec_pfcReceive, execPfcReceive, State.phyChange, harrives], ?_⟩
  split
  · rfl
  · split
    · exact State.countMacCtrl_ports s 64
    · rfl

theorem pauseReceive_stops {q : BitVec 16} (hrecv : s.receives p.val = true) (hmode : s.fcMode p.val = 1)
    (hseen : s.phySeen p.val = true) :
    Answers (.pauseReceive p q) s fun t =>
      ∀ c : Fin 8, s.scheduled c.val = false → t.stopped p.val c.val = decide (q.toNat ≠ 0) := by
  refine ⟨_, by rw [exec_pauseReceive, execPauseReceive, State.phyChange_of_seen hseen, State.pauseArrives,
    if_pos hrecv, State.receivePause, if_pos (by rw [State.fcMode_countMacCtrl, hmode])], fun c hfree => ?_⟩
  exact State.stopped_actOnFlow _ p.val _ (fun _ => q.toNat) (List.mem_range.mpr c.isLt)
    (by rw [State.scheduled_countMacCtrl s 64 (by omega), hfree])

theorem flowControlStopExpiry_releases {c : TrafficClass} :
    Answers (.flowControlStopExpiry p c) s fun t =>
      if Store.get (fun _ => 0) (s.port p.val).stopEnds c.val ≤ s.nowNs then
        t.stopped p.val c.val = false ∧ (∀ d, d ≠ c.val → t.stopped p.val d = s.stopped p.val d) ∧
        t.regs = s.regs
      else t = s := by
  refine ⟨_, by rw [exec_flowControlStopExpiry, execFlowControlStopExpiry], ?_⟩
  split
  · refine ⟨?_, fun d hd => ?_, rfl⟩
    · rw [State.stopped_stopClass, if_pos rfl]
      rfl
    · rw [State.stopped_stopClass, if_neg hd]
  · rfl

theorem State.sendFlow_flowFrames (s : State) (p : Nat) (pfc : Bool) (classes quanta : Nat) :
    (s.sendFlow p pfc classes quanta).flowFrames = ⟨p, pfc, classes, quanta⟩ :: s.flowFrames := by
  have hbytes : ∀ u : State, (u.bumpBy (Cnt.PRT_TX_BYTES p) 64).flowFrames = u.flowFrames := fun u =>
    (State.bumpBy_keeps (all_contains [Part.regs, .saturated]) (State.Keeps.refl _ u) _ 64).same .flowFrames rfl
  simp only [State.sendFlow, State.monEvent_flowFrames, hbytes, State.bump_flowFrames]

theorem pfcRefresh_repeats {c : TrafficClass} (hup : s.portUp p.val = true) (hmode : s.fcMode p.val = 2)
    (hxoff : s.xoff p.val c.val = true) :
    Answers (.pfcRefresh p c) s fun t =>
      t.flowFrames = ⟨p.val, true, 2 ^ c.val, s.quanta p.val⟩ :: s.flowFrames := by
  refine ⟨_, ?_, State.sendFlow_flowFrames ..⟩
  rw [exec_pfcRefresh, execPfcRefresh, if_neg (by simp [hup]), if_pos hmode, if_pos hxoff]

theorem pfcRefresh_of_xon {c : TrafficClass} (hup : s.portUp p.val = true) (hmode : s.fcMode p.val = 2)
    (hxon : s.xoff p.val c.val = false) : Answers (.pfcRefresh p c) s fun t => t = s := by
  refine ⟨s, ?_, rfl⟩
  rw [exec_pfcRefresh, execPfcRefresh, if_neg (by simp [hup]), if_pos hmode, if_neg (by simp [hxon])]

end

end Sys2Proof.Machine
end

section
/-!
PROOFS. MACsec ingress (R248, R251, R254): what a frame under verification leaves in the registers and among the
frames, and the PN that its SA expects next.
-/

namespace Sys2Proof.Machine

open Sys2Proof

/-! ## Registers of another block -/

section
variable {k b o : Nat} (h : k / 0x100000 ≠ b)
include h

/-- A register of another block. -/
theorem ne_regKey_of_block (ho : o < 0x100000) : k ≠ regKey b o := by
  unfold regKey
  omega

theorem ne_regKey_add_of_block {a : Nat} (ho : o + a < 0x100000) : k ≠ regKey b o + a := by
  unfold regKey
  omega

end

theorem State.rd_wrN_other (s : State) {k k' : Nat} (v : Nat) (h : k' ≠ k) : (s.wrN k v).rd k' = s.rd k' :=
  State.rd_wr_other _ _ (Ne.symm h)

/-- A timestamp goes into registers of TIM (R232). -/
theorem State.rd_ptpRing (s : State) (p : Nat) (tx : Bool) (t : Nat) (bs : List Byte) {k : Nat}
    (hk : k / 0x100000 ≠ 24) : (s.ptpRing p tx t bs).rd k = s.rd k := by
  have hslot : ∀ lo, s.fld (Reg.TIM_RINGSTAT p) lo 4 < 16 := fun _ => getBits_lt _ _ _
  unfold State.ptpRing
  split
  · rfl
  · next hgo =>
    have hp : p < 32 := by
      simp only [Bool.or_eq_true, decide_eq_true_eq] at hgo
      omega
    have hstat : k ≠ Reg.TIM_RINGSTAT p := ne_regKey_of_block hk (by omega)
    split
    · rfl
    · dsimp only
      have hj := hslot (if tx then 4 else 0)
      generalize s.fld (Reg.TIM_RINGSTAT p) (if tx then 4 else 0) 4 = e at hj
      have hj' : (if tx then 16 + e else e) < 32 := by split <;> omega
      generalize (if tx then 16 + e else e) = j at hj'
      rw [State.rd_setFld_other _ _ hstat, State.rd_wrN_other _ _ (ne_regKey_of_block hk (by omega)),
        State.wrTime, State.rd_wr_other _ _ (ne_regKey_add_of_block hk (by omega)).symm,
        State.rd_wrN_other _ _ (ne_regKey_add_of_block hk (by omega)),
        State.rd_wrN_other _ _ (ne_regKey_of_block hk (by omega))]
      split
      · rw [State.rd_bump _ _ _ (ne_regKey_of_block hk (by omega)) (ne_regKey_add_of_block hk (by omega)),
          State.rd_setFld_other _ _ hstat]
      · rfl

/-! ## A frame released to classification (R106, R254) -/

theorem State.blkAccepts_congr {s t : State} {b : Nat} (hrd : t.rd (Reg.BLK_CTRL b) = s.rd (Reg.BLK_CTRL b))
    (hq : t.quiescing = s.quiescing) : t.blkAccepts b = s.blkAccepts b := by
  rw [State.blkAccepts, State.blkEn, State.bit_congr hrd, State.blkQuiescing, hq, State.blkAccepts, State.blkEn,
    State.blkQuiescing]

/-- The frame past verification. -/
def Frame.released (v : Frame) : Frame := { v with stage := .toClassify, check := none }

theorem State.classifyClosed_of_open {s : State} (h : s.blkAccepts 0xC = true) (f : Nat) (v : Frame) :
    s.classifyClosed f v = s := by
  rw [State.classifyClosed, if_neg (by simp [h])]

/-- With classification enabled, a released frame waits for it. -/
theorem State.releaseRx_of_open {s : State} (hopen : s.blkAccepts 0xC = true) (f : Nat) (v : Frame) :
    s.releaseRx f v = (s.ptpRing v.inPort false v.rxTime v.bytes).setFrame f v.released := by
  have hstill : ((s.ptpRing v.inPort false v.rxTime v.bytes).setFrame f v.released).blkAccepts 0xC = true := by
    rw [State.blkAccepts_congr (s := s), hopen]
    · rw [State.rd_setFrame, State.rd_ptpRing _ _ _ _ _ (by decide)]
    · exact (State.keeps_ptpRing s v.inPort false v.rxTime v.bytes).same .quiescing rfl
  exact State.classifyClosed_of_open hstill f v.released

section
variable {s : State} (hopen : s.blkAccepts 0xC = true) (f : Nat) (v : Frame)
include hopen

theorem State.frame_releaseRx_same : (s.releaseRx f v).frame f = some v.released := by
  rw [State.releaseRx_of_open hopen, State.frame_setFrame_same]

theorem State.frame_releaseRx_other {g : Nat} (hg : g ≠ f) : (s.releaseRx f v).frame g = s.frame g := by
  rw [State.releaseRx_of_open hopen, State.frame_setFrame_other _ _ hg, State.frame_congr (State.ptpRing_frames ..)]

theorem State.rd_releaseRx {k : Nat} (hk : k / 0x100000 ≠ 24) : (s.releaseRx f v).rd k = s.rd k := by
  rw [State.releaseRx_of_open hopen, State.rd_setFrame, State.rd_ptpRing _ _ _ _ _ hk]

end

theorem State.blkAccepts_bump (s : State) {c b : Nat} (h : Reg.BLK_CTRL b ≠ c) (h4 : Reg.BLK_CTRL b ≠ c + 4) :
    (s.bump c).blkAccepts b = s.blkAccepts b :=
  State.blkAccepts_congr (State.rd_bump _ _ _ h h4) (State.bump_quiescing ..)

/-! ## The next PN of an SA (R253) -/

theorem State.nextPn_congr {s t : State} {sa : Nat} (h0 : t.rd (Reg.CIP_SA_w0 sa) = s.rd (Reg.CIP_SA_w0 sa))
    (h1 : t.rd (Reg.CIP_SA_w1 sa) = s.rd (Reg.CIP_SA_w1 sa))
    (h2 : t.rd (Reg.CIP_SA_w2 sa) = s.rd (Reg.CIP_SA_w2 sa)) : t.nextPn sa = s.nextPn sa := by
  rw [State.nextPn, State.rdN, State.rdN, State.bit_congr h0, h1, h2, State.nextPn, State.rdN, State.rdN]

theorem State.nextPn_lt (s : State) (sa : Nat) :
    s.nextPn sa < if s.bit (Reg.CIP_SA_w0 sa) 2 then 2 ^ 64 else 2 ^ 32 := by
  have h1 := (s.rd (Reg.CIP_SA_w1 sa)).isLt
  have h2 := (s.rd (Reg.CIP_SA_w2 sa)).isLt
  unfold State.nextPn State.rdN
  split <;> omega

theorem cipSa_apart (sa : Nat) : Reg.CIP_SA_w1 sa ≠ Reg.CIP_SA_w0 sa ∧ Reg.CIP_SA_w2 sa ≠ Reg.CIP_SA_w0 sa ∧
    Reg.CIP_SA_w2 sa ≠ Reg.CIP_SA_w1 sa := by
  simp only [Reg.CIP_SA_w0, Reg.CIP_SA_w1, Reg.CIP_SA_w2, regKey]
  omega

/-- A PN that fits the SA's numbering is the one expected next once it is set. -/
theorem State.nextPn_setNextPn (s : State) {sa n : Nat}
    (hn : n < if s.bit (Reg.CIP_SA_w0 sa) 2 then 2 ^ 64 else 2 ^ 32) : (s.setNextPn sa n).nextPn sa = n := by
  obtain ⟨h10, h20, h21⟩ := cipSa_apart sa
  have hbit : ∀ v, (s.wrN (Reg.CIP_SA_w1 sa) v).bit (Reg.CIP_SA_w0 sa) 2 = s.bit (Reg.CIP_SA_w0 sa) 2 :=
    fun v => State.bit_congr (State.rd_wrN_other _ _ h10.symm) 2
  have hbit' : ∀ v w, ((s.wrN (Reg.CIP_SA_w1 sa) v).wrN (Reg.CIP_SA_w2 sa) w).bit (Reg.CIP_SA_w0 sa) 2 =
      s.bit (Reg.CIP_SA_w0 sa) 2 := fun v w => by
    rw [State.bit_congr (State.rd_wrN_other _ _ h20.symm), hbit]
  unfold State.setNextPn
  dsimp only
  rw [hbit]
  split
  · next hx =>
    rw [if_pos hx] at hn
    rw [State.nextPn, hbit', if_pos hx, State.rdN, State.rd_wrN_other _ _ h21.symm, State.rd_wrN, if_pos rfl,
      State.rdN, State.rd_wrN, if_pos rfl, BitVec.toNat_ofNat, BitVec.toNat_ofNat]
    omega
  · next hx =>
    rw [if_neg hx] at hn
    rw [State.nextPn, hbit, if_neg hx, State.rdN, State.rd_wrN, if_pos rfl, BitVec.toNat_ofNat]
    omega

/-! ## A frame that verifies (R254) -/

theorem State.countSa_good (s : State) (sa : Nat) :
    s.countSa sa false = s.bump (regKey 0x19 (0x30000 + 16 * sa)) := rfl

/-- The counts of a frame that verified under an SA, and the blocks issued for it. -/
def State.countVerified (s : State) (sa blocks : Nat) : State :=
  ((s.issueBlocks blocks).bump Cnt.CIP_IN_OK).countSa sa false

section
variable (s : State) (sa blocks : Nat)

theorem State.keeps_countVerified :
    s.Keeps (fun p => [Part.regs, .saturated, .irqs].contains p) (s.countVerified sa blocks) :=
  State.countSa_keeps (all_of (all_contains _) rfl) (State.bump_keeps (all_of (all_contains _) rfl)
    (State.issueBlocks_keeps (all_of (all_contains _) rfl) (State.Keeps.refl _ s) blocks) _) sa false

theorem State.rd_issueBlocks {k : Nat} (hk : k / 0x100000 ≠ 2) : (s.issueBlocks blocks).rd k = s.rd k := by
  unfold State.issueBlocks
  dsimp only
  split
  · rfl
  · exact State.rd_monEvents _ _ _ _ hk

theorem State.rd_countVerified {k : Nat} (hmon : k / 0x100000 ≠ 2) (hok : k ≠ Cnt.CIP_IN_OK)
    (hok4 : k ≠ Cnt.CIP_IN_OK + 4) (hsa : k ≠ regKey 0x19 (0x30000 + 16 * sa))
    (hsa4 : k ≠ regKey 0x19 (0x30000 + 16 * sa) + 4) : (s.countVerified sa blocks).rd k = s.rd k := by
  rw [State.countVerified, State.countSa_good, State.rd_bump _ _ _ hsa hsa4, State.rd_bump _ _ _ hok hok4,
    State.rd_issueBlocks _ _ hmon]

/-- The words of an SA context lie before the pairs that count for it. -/
theorem State.rd_countVerified_sa {off : Nat} (hlo : 0x20000 ≤ off) (hhi : off < 0x30000) :
    (s.countVerified sa blocks).rd (regKey 25 off) = s.rd (regKey 25 off) := by
  apply State.rd_countVerified <;> simp only [regKey] <;> omega

theorem State.nextPn_countVerified (hsa : sa < 1024) : (s.countVerified sa blocks).nextPn sa = s.nextPn sa :=
  State.nextPn_congr (State.rd_countVerified_sa _ _ _ (by omega) (by omega))
    (State.rd_countVerified_sa _ _ _ (by omega) (by omega)) (State.rd_countVerified_sa _ _ _ (by omega) (by omega))

theorem State.keeps_setNextPn (n : Nat) : s.Keeps (fun p => [Part.regs].contains p) (s.setNextPn sa n) :=
  State.setNextPn_keeps (all_contains _) (State.Keeps.refl _ s) sa n

theorem State.rd_setNextPn {n k : Nat} (h1 : k ≠ Reg.CIP_SA_w1 sa) (h2 : k ≠ Reg.CIP_SA_w2 sa) :
    (s.setNextPn sa n).rd k = s.rd k := by
  unfold State.setNextPn
  dsimp only
  split
  · rw [State.rd_wrN_other _ _ h2, State.rd_wrN_other _ _ h1]
  · rw [State.rd_wrN_other _ _ h1]

/-- The state in which a frame has verified: counted, and the SA's next PN advanced. -/
def State.verified (sa blocks pn : Nat) : State :=
  (s.countVerified sa blocks).setNextPn sa (max (s.nextPn sa) (pn + 1))

theorem State.verified_frames (pn : Nat) : (s.verified sa blocks pn).frames = s.frames :=
  ((State.keeps_setNextPn _ sa _).same .frames rfl).trans ((State.keeps_countVerified s sa blocks).same .frames rfl)

/-- Verification leaves the classification block as it was. -/
theorem State.blkAccepts_verified (pn : Nat) : (s.verified sa blocks pn).blkAccepts 0xC = s.blkAccepts 0xC := by
  refine State.blkAccepts_congr ?_ (((State.keeps_setNextPn _ sa _).same .quiescing rfl).trans
    ((State.keeps_countVerified s sa blocks).same .quiescing rfl))
  rw [State.verified, State.rd_setNextPn _ _ (by simp only [regKey]; omega) (by simp only [regKey]; omega),
    State.rd_countVerified] <;> simp only [regKey] <;> omega

theorem State.nextPn_verified {pn : Nat} (hsa : sa < 1024) (hpn : pn + 1 < 2 ^ 32) :
    (s.verified sa blocks pn).nextPn sa = max (s.nextPn sa) (pn + 1) := by
  have hlt := State.nextPn_lt (s.countVerified sa blocks) sa
  rw [State.nextPn_countVerified _ _ _ hsa] at hlt
  refine State.nextPn_setNextPn _ ?_
  split at hlt
  · next hx => rw [if_pos hx]; omega
  · next hx => rw [if_neg hx]; omega

end

/-- The PN of a frame under an SA: its own, or under XPN recovered from its low half (R253). -/
def State.framePn (s : State) (x : SaKey) (g : SecTag) : Nat :=
  if x.xpn then recoverPn (s.nextPn x.sa) g.pn else g.pn

section
variable {s : State} {f : Nat} {v : Frame} {k : RxCheck}

/-- A frame of a live SA whose PN is in the window and whose ICV is right is verified and released. -/
theorem State.checkSa_of_verified {g : SecTag} {y : RxSecy} {x : SaKey} {sci : Nat} {bs : List Byte}
    (hlive : x.live = true) (hkey : s.saRevoked x.sa = false)
    (hwin : getBit y.w0 6 = true → s.nextPn x.sa ≤ s.framePn x g + y.window)
    (hicv : openSealed y.w0 x sci (s.framePn x g) v.bytes g = some bs) :
    ∃ blocks, s.checkSa f v g y x sci = (s.verified x.sa blocks (s.framePn x g)).releaseRx f
      { v with bytes := bs, macsecV := true, wireLen := bs.length + 4 } := by
  have hlate : ¬(getBit y.w0 6 && decide (s.framePn x g + y.window < s.nextPn x.sa)) = true := by
    simp only [Bool.and_eq_true, decide_eq_true_eq]
    rintro ⟨hreplay, hlt⟩
    have := hwin hreplay
    omega
  refine ⟨gcmBlocks (v.bytes.length - if g.e then 28 + g.len + confOffset y.w0 else v.bytes.length), ?_⟩
  unfold State.framePn at hlate hicv ⊢
  unfold State.checkSa
  rw [if_neg (by simp [hlive]), if_neg (by simp [hkey])]
  dsimp only
  rw [if_neg hlate, hicv]
  rfl

theorem State.checkTagged_of_known {g : SecTag} {y : RxSecy} {x : SaKey}
    (hctx : k.contextOf (k.frameSci v.bytes g) g = some (y, x)) (hpn : g.pn ≠ 0 ∨ x.xpn = true)
    (hlane : s.laneUp = true) : s.checkTagged f v k g = s.checkSa f v g y x (k.frameSci v.bytes g) := by
  have hok : ¬(decide (g.pn = 0) && !(k.contextOf (k.frameSci v.bytes g) g).any fun x => x.2.xpn) = true := by
    rw [hctx]
    rcases hpn with h | h <;> simp [h]
  unfold State.checkTagged
  dsimp only
  rw [if_neg hok, if_neg (by simp [hlane]), hctx]

/-! ## The command -/

/-- What MACSEC_VERIFY does with a frame whose turn it is (R254). -/
def State.checkRx (s : State) (f : Nat) (v : Frame) (k : RxCheck) : State :=
  if isEapol v.bytes && k.eapolClear then (s.bump Cnt.CIP_IN_UNTAGGED).passUnverified f v
  else
    match parseSecTag v.bytes with
    | none =>
      if k.strict then (s.bump Cnt.CIP_IN_UNTAGGED_DROP).delFrame f
      else (s.bump Cnt.CIP_IN_UNTAGGED).passUnverified f v
    | some none => (s.bump Cnt.CIP_IN_BADTAG).delFrame f
    | some (some t) => s.checkTagged f v k t

theorem macsecVerify_of_unchecked (hf : s.frame f = some v) (hcheck : v.check = none) :
    Answers (.macsecVerify f) s fun t => t = s := by
  refine ⟨s, ?_, rfl⟩
  rw [exec_macsecVerify, execMacsecVerify, hf]
  dsimp only
  rw [hcheck]

section
variable (hf : s.frame f = some v) (hcheck : v.check = some k) (hstage : v.stage = .receiving)
variable (htail : v.tailIn = true) (hturn : s.heldUpAt f v [.retrain, .receiving] false = false)
include hf hcheck hstage htail hturn

theorem execMacsecVerify_of_turn : execMacsecVerify f s = .next (s.checkRx f v k) := by
  rw [execMacsecVerify, hf]
  dsimp only
  rw [hcheck]
  dsimp only
  rw [if_neg (by simp [hstage, htail, hturn])]
  rfl

theorem macsecVerify_bad_tag (hplain : (isEapol v.bytes && k.eapolClear) = false)
    (htag : parseSecTag v.bytes = some none) :
    Answers (.macsecVerify f) s fun t =>
      t.frame f = none ∧ (∀ g, g ≠ f → t.frame g = s.frame g) ∧
      ∀ k, k ≠ Cnt.CIP_IN_BADTAG → k ≠ Cnt.CIP_IN_BADTAG + 4 → t.rd k = s.rd k := by
  refine ⟨(s.bump Cnt.CIP_IN_BADTAG).delFrame f, ?_, State.frame_delFrame_same .., fun g hg => ?_,
    fun k hk hk4 => ?_⟩
  · rw [exec_macsecVerify, execMacsecVerify_of_turn hf hcheck hstage htail hturn, State.checkRx,
      if_neg (by simp [hplain]), htag]
  · rw [State.frame_delFrame_other _ hg, State.frame_congr (State.bump_frames ..)]
  · rw [State.rd_delFrame, State.rd_bump _ _ _ hk hk4]

theorem macsecVerify_untagged (htag : parseSecTag v.bytes = none) (hplain : isEapol v.bytes = false)
    (hopen : s.blkAccepts 0x0C = true) :
    Answers (.macsecVerify f) s fun t =>
      (if k.strict then t.frame f = none
        else t.frame f = some { v with stage := .toClassify, check := none }) ∧
      ∀ g, g ≠ f → t.frame g = s.frame g := by
  have hexec : execMacsecVerify f s = .next
      (if k.strict then (s.bump Cnt.CIP_IN_UNTAGGED_DROP).delFrame f
      else (s.bump Cnt.CIP_IN_UNTAGGED).passUnverified f v) := by
    rw [execMacsecVerify_of_turn hf hcheck hstage htail hturn, State.checkRx, if_neg (by simp [hplain]), htag]
  have hframes : ∀ c g, (s.bump c).frame g = s.frame g := fun c => State.frame_congr (State.bump_frames s c)
  refine ⟨_, by rw [exec_macsecVerify, hexec], ?_⟩
  split
  · refine ⟨State.frame_delFrame_same .., fun g hg => ?_⟩
    rw [State.frame_delFrame_other _ hg, hframes]
  · have hstill : (s.bump Cnt.CIP_IN_UNTAGGED).blkAccepts 0xC = true := by
      rw [State.blkAccepts_bump _ (by decide) (by decide), hopen]
    refine ⟨State.frame_releaseRx_same hstill f v, fun g hg => ?_⟩
    rw [State.passUnverified, State.frame_releaseRx_other hstill f v hg, hframes]

theorem macsecVerify_passes {g : SecTag} {y : RxSecy} {x : SaKey} {bs : List Byte}
    (hplain : (isEapol v.bytes && k.eapolClear) = false) (htag : parseSecTag v.bytes = some (some g))
    (hctx : k.contextOf (k.frameSci v.bytes g) g = some (y, x)) (hpn : g.pn ≠ 0 ∨ x.xpn = true)
    (hlane : s.laneUp = true) (hlive : x.live = true) (hkey : s.saRevoked x.sa = false)
    (hwin : getBit y.w0 6 = true → s.nextPn x.sa ≤ s.framePn x g + y.window)
    (hicv : openSealed y.w0 x (k.frameSci v.bytes g) (s.framePn x g) v.bytes g = some bs)
    (hopen : s.blkAccepts 0x0C = true) :
    Answers (.macsecVerify f) s fun t =>
      t.frame f = some { v with
        bytes := bs, macsecV := true, wireLen := bs.length + 4, stage := .toClassify, check := none } ∧
      (∀ h, h ≠ f → t.frame h = s.frame h) ∧
      (x.sa < 1024 → s.framePn x g + 1 < 2 ^ 32 →
        t.nextPn x.sa = max (s.nextPn x.sa) (s.framePn x g + 1)) := by
  obtain ⟨blocks, hcheckSa⟩ :=
    State.checkSa_of_verified (s := s) (f := f) (v := v) hlive hkey hwin hicv
  have hstill := (State.blkAccepts_verified s x.sa blocks (s.framePn x g)).trans hopen
  refine ⟨_, ?_,
    State.frame_releaseRx_same hstill f { v with bytes := bs, macsecV := true, wireLen := bs.length + 4 },
    fun h hh => ?_, fun hsa hsmall => ?_⟩
  · rw [exec_macsecVerify, execMacsecVerify_of_turn hf hcheck hstage htail hturn, State.checkRx,
      if_neg (by simp [hplain]), htag]
    dsimp only
    rw [State.checkTagged_of_known hctx hpn hlane, hcheckSa]
  · rw [State.frame_releaseRx_other hstill f _ hh, State.frame_congr (State.verified_frames ..)]
  · rw [State.nextPn_congr (s := s.verified x.sa blocks (s.framePn x g)), State.nextPn_verified _ _ _ hsa hsmall] <;>
      exact State.rd_releaseRx hstill f _ (by simp only [regKey]; omega)

end

end

/-- Settles O20: a frame is one entry of the store of frames, from its number on to its end at the port; PLCA, TC10
and flow control change the port's engine and its status only. -/
theorem portFrameCommandsComplete : Obligations.PortFrameCommandsComplete := by
  refine ⟨⟨fun s p => plcaBeaconLoss_of_follower, fun s p => plcaBeaconReceived_of_follower,
      fun s p => plcaCollision_retries, fun s p => plcaCollision_abandons, fun s m p => tc10SleepRequest_asks,
      fun s p => tc10PartnerSleepRequest_answers, fun s p => tc10SleepComplete_of_asked,
      fun s p => tc10Wake_in_handshake, fun s p htc10 hsleep => ⟨_, ?_, rfl⟩⟩,
    fun s p head lat => frameReceive_first, fun s p head lat => frameReceive_held,
    fun s p head lat f v => frameReceive_interrupts, fun s p head lat => frameReceive_not_taken,
    fun s f v rest => frameReceiveEnd_good, fun s p en q => pfcReceive_stops, fun s p en q => pfcReceive_off,
    fun s p q => pauseReceive_stops, fun s p c => flowControlStopExpiry_releases,
    fun s p c => pfcRefresh_repeats, fun s p c => pfcRefresh_of_xon, fun s f v => macsecVerify_of_unchecked,
    fun s f v k g y x bs hf hcheck hstage htail hturn hplain htag hctx hpn hlane hlive hkey hwin hicv hopen =>
      macsecVerify_passes hf hcheck hstage htail hturn hplain htag hctx hpn hlane hlive hkey hwin hicv hopen,
    fun s f v k => macsecVerify_bad_tag, fun s f v k => macsecVerify_untagged⟩
  rw [exec_tc10Wake, execTc10Wake_of_sleep htc10 hsleep]

end Sys2Proof.Machine
end

section
/-!
PROOFS. The scheduler's matching (R81): an iteration serves its ingress groups one by one, and each acceptance takes
a group and links that no earlier one has taken.
-/

namespace Sys2Proof.Machine

open Sys2Proof

theorem mem_of_pick {α : Type} {tier dist : α → Nat} {x : α} :
    ∀ {l : List α}, pick tier dist l = some x → x ∈ l := by
  intro l
  induction l with
  | nil => exact fun h => nomatch h
  | cons y t ih =>
    intro h
    rw [pick] at h
    cases hrest : pick tier dist t with
    | none =>
      rw [hrest, Option.some.injEq] at h
      exact h ▸ List.mem_cons_self
    | some z =>
      simp only [hrest] at h
      split at h <;> cases h
      · exact List.mem_cons_self
      · exact List.mem_cons_of_mem _ (ih hrest)

/-! ## One iteration, group by group -/

/-- The ingress groups that a matching serves. -/
def Matching.groups (m : Matching) : List Nat := m.accepted.map (fun a => a.1.g)

/-- The egress links that a matching uses. -/
def Matching.links (m : Matching) : List Nat := m.accepted.flatMap (fun a => a.2)

/-- The requests of groups that a matching does not serve yet. -/
def Matching.unserved (m : Matching) (rs : List XRequest) : List XRequest :=
  rs.filter (fun r => !m.groups.contains r.g)

/-- An unused link and the group to which it grants itself. -/
def Matching.grantOf (m : Matching) (rs : List XRequest) (e : Nat) : Option (Nat × Nat) :=
  if m.links.contains e then none
  else
    (pick (fun g => bestTier rs g e) (turnsFrom (ptrOf m.ptrs.grant e) 7)
      ((List.range 7).filter (fun g => rs.any (fun r => r.g == g && r.wants e)))).map (fun g => (e, g))

/-- The grants of an iteration. -/
def Matching.grants (m : Matching) (rs : List XRequest) : List (Nat × Nat) :=
  (List.range 7).filterMap (m.grantOf rs)

/-- The links granted to a group. -/
def linksGranted (grants : List (Nat × Nat)) (g : Nat) : List Nat :=
  (grants.filter (fun x => x.2 == g)).map (fun x => x.1)

/-- A group accepts one of the requests that its granted links can serve. -/
def Matching.accept (rs : List XRequest) (grants : List (Nat × Nat)) (first : Bool) (m : Matching) (g : Nat) :
    Matching :=
  let links := linksGranted grants g
  match pick (fun e => bestTier rs g e) (turnsFrom (ptrOf m.ptrs.accept g) 7) links with
  | none => m
  | some e =>
    match pick (fun r => r.tier) (fun r => turnsFrom (ptrOf m.ptrs.voq (8 * g + e)) 328 r.place)
        (rs.filter (fun r => r.g == g && r.wants e)) with
    | none => m
    | some r =>
      let es := if r.mc then links.filter r.wants else [e]
      let ptrs := if first then
          { grant := es.foldl (fun acc x => Store.set (fun _ => 0) acc x ((g + 1) % 7)) m.ptrs.grant
            accept := Store.set (fun _ => 0) m.ptrs.accept g ((e + 1) % 7)
            voq := Store.set (fun _ => 0) m.ptrs.voq (8 * g + e) ((r.place + 1) % 328) }
        else m.ptrs
      { accepted := m.accepted ++ [(r, es)], ptrs := ptrs }

theorem iterate_eq_foldl_accept (rs : List XRequest) (first : Bool) (m : Matching) :
    iterate rs first m =
      (List.range 7).foldl (Matching.accept (m.unserved rs) (m.grants (m.unserved rs)) first) m := rfl

/-- An acceptance adds at most one request: one of its group, with links granted to the group that the request
asked for. -/
theorem Matching.accept_cases (rs : List XRequest) (grants : List (Nat × Nat)) (first : Bool) (m : Matching)
    (g : Nat) :
    m.accept rs grants first g = m ∨
    ∃ r es, (m.accept rs grants first g).accepted = m.accepted ++ [(r, es)] ∧ r ∈ rs ∧ r.g = g ∧
      es ≠ [] ∧ es.Sublist (linksGranted grants g) ∧ ∀ e ∈ es, r.wants e = true := by
  unfold Matching.accept
  dsimp only
  split
  · exact .inl rfl
  · next e he =>
    split
    · exact .inl rfl
    · next r hr =>
      have he := mem_of_pick he
      have hr := mem_of_pick hr
      simp only [List.mem_filter, Bool.and_eq_true, beq_iff_eq] at hr
      obtain ⟨hrs, hg, hwants⟩ := hr
      refine .inr ⟨r, _, rfl, hrs, hg, ?_⟩
      split
      · exact ⟨List.ne_nil_of_mem (List.mem_filter.mpr ⟨he, hwants⟩), List.filter_sublist,
          fun x hx => (List.mem_filter.mp hx).2⟩
      · exact ⟨List.cons_ne_nil _ _, List.singleton_sublist.mpr he, by simpa using hwants⟩

theorem mem_linksGranted {grants : List (Nat × Nat)} {g e : Nat} :
    e ∈ linksGranted grants g ↔ (e, g) ∈ grants := by
  simp [linksGranted]

/-- Only an unused link grants, and it grants itself. -/
theorem Matching.of_grantOf {m : Matching} {rs : List XRequest} {e : Nat} {x : Nat × Nat}
    (h : m.grantOf rs e = some x) : x.1 = e ∧ x.1 ∉ m.links := by
  unfold Matching.grantOf at h
  split at h
  · cases h
  · next hunused =>
    obtain ⟨g, -, rfl⟩ := Option.map_eq_some_iff.mp h
    exact ⟨rfl, by simpa using hunused⟩

theorem Matching.nodup_grants (m : Matching) (rs : List XRequest) : ((m.grants rs).map Prod.fst).Nodup := by
  rw [Matching.grants, List.map_filterMap]
  refine List.nodup_range.filterMap fun e e' l h h' => ?_
  obtain ⟨x, hx, rfl⟩ := Option.map_eq_some_iff.mp h
  obtain ⟨y, hy, hxy⟩ := Option.map_eq_some_iff.mp h'
  exact (Matching.of_grantOf hx).1.symm.trans (hxy.symm.trans (Matching.of_grantOf hy).1)

theorem Matching.unused_of_mem_grants {m : Matching} {rs : List XRequest} {x : Nat × Nat} (h : x ∈ m.grants rs) :
    x.1 ∉ m.links := by
  obtain ⟨e, -, he⟩ := List.mem_filterMap.mp h
  exact (Matching.of_grantOf he).2

theorem Matching.mem_unserved {m : Matching} {rs : List XRequest} {r : XRequest} :
    r ∈ m.unserved rs ↔ r ∈ rs ∧ r.g ∉ m.groups := by
  simp [Matching.unserved]

/-! ## The matching -/

/-- A matching among the requests `rs`: no group and no link twice, and only links that were asked for. -/
structure Matching.Legal (rs : List XRequest) (m : Matching) : Prop where
  groups : m.groups.Nodup
  links : m.links.Nodup
  asked : ∀ a ∈ m.accepted, a.1 ∈ rs ∧ a.2 ≠ [] ∧ ∀ e ∈ a.2, a.1.wants e = true

section
variable {rs free : List XRequest} {grants : List (Nat × Nat)} {first : Bool} {m : Matching}

/-- An iteration keeps the matching legal: what remains to be served has groups and links of its own. -/
theorem Matching.Legal.foldl_accept (hfree : ∀ r ∈ free, r ∈ rs) (honce : (grants.map Prod.fst).Nodup)
    {gs : List Nat} (hgs : gs.Nodup) (hm : m.Legal rs) (hgroups : ∀ r ∈ free, r.g ∈ gs → r.g ∉ m.groups)
    (hlinks : ∀ x ∈ grants, x.2 ∈ gs → x.1 ∉ m.links) :
    (gs.foldl (Matching.accept free grants first) m).Legal rs := by
  induction gs generalizing m with
  | nil => exact hm
  | cons g gs ih =>
    obtain ⟨hg, hrest⟩ := List.nodup_cons.mp hgs
    rw [List.foldl_cons]
    rcases Matching.accept_cases free grants first m g with hsame | ⟨r, es, hadd, hr, rfl, hne, hes, hwants⟩
    · rw [hsame]
      exact ih hrest hm (fun r hr hmem => hgroups r hr (List.mem_cons_of_mem _ hmem))
        (fun x hx hmem => hlinks x hx (List.mem_cons_of_mem _ hmem))
    · have hgroups' : (m.accept free grants first r.g).groups = m.groups ++ [r.g] := by
        rw [Matching.groups, hadd, List.map_append]
        rfl
      have hlinks' : (m.accept free grants first r.g).links = m.links ++ es := by
        rw [Matching.links, hadd, List.flatMap_append]
        simp [Matching.links]
      have hgranted : ∀ e ∈ es, (e, r.g) ∈ grants := fun e he => mem_linksGranted.mp (hes.subset he)
      have hnodup : es.Nodup := (hes.trans (List.filter_sublist.map Prod.fst)).nodup honce
      refine ih hrest ⟨?_, ?_, ?_⟩ (fun r' hr' hmem => ?_) (fun x hx hmem => ?_)
      · rw [hgroups', List.nodup_append]
        refine ⟨hm.groups, List.nodup_singleton _, fun a ha b hb => ?_⟩
        rw [List.mem_singleton.mp hb]
        exact ne_of_mem_of_not_mem ha (hgroups r hr List.mem_cons_self)
      · rw [hlinks', List.nodup_append]
        exact ⟨hm.links, hnodup, fun a ha b hb =>
          ne_of_mem_of_not_mem ha (hlinks _ (hgranted b hb) List.mem_cons_self)⟩
      · rw [hadd, List.forall_mem_append]
        exact ⟨hm.asked, by simpa using ⟨hfree r hr, hne, hwants⟩⟩
      · rw [hgroups', List.mem_append, List.mem_singleton]
        rintro (hold | hnew)
        · exact hgroups r' hr' (List.mem_cons_of_mem _ hmem) hold
        · exact hg (hnew ▸ hmem)
      · rw [hlinks', List.mem_append]
        rintro (hold | hnew)
        · exact hlinks x hx (List.mem_cons_of_mem _ hmem) hold
        · have : x = (x.1, r.g) := List.inj_on_of_nodup_map honce hx (hgranted _ hnew) rfl
          rw [this] at hmem
          exact hg hmem

theorem Matching.Legal.iterate (hm : m.Legal rs) : (iterate rs first m).Legal rs := by
  rw [iterate_eq_foldl_accept]
  exact hm.foldl_accept (fun r hr => (Matching.mem_unserved.mp hr).1) (m.nodup_grants _) List.nodup_range
    (fun r hr _ => (Matching.mem_unserved.mp hr).2) (fun x hx _ => Matching.unused_of_mem_grants hx)

theorem Matching.legal_of_accepted_nil (h : m.accepted = []) : m.Legal rs := by
  constructor <;> simp [Matching.groups, Matching.links, h]

end

theorem State.legal_matching (s : State) : s.matching.Legal s.requests := by
  unfold State.matching
  exact (Matching.legal_of_accepted_nil rfl).iterate.iterate.iterate

/-- Settles O23: every acceptance takes a group that has accepted nothing and links that serve no group (R81). -/
theorem schedulerMatchingIsAMatching : Obligations.SchedulerMatchingIsAMatching :=
  fun s => ⟨s.legal_matching.groups, s.legal_matching.links, s.legal_matching.asked⟩

end Sys2Proof.Machine
end

section
/-!
PROOFS. Frames through the fabric (R77, R83, R84, R88, R97, R98, R101, R102): what the accounts and the end of a copy
leave of a frame and of the reservations, then the commands.
-/

namespace Sys2Proof.Machine

open Sys2Proof

/-! ## Accounts and frames -/

section
variable (s : State)

theorem State.keeps_countCell (ip c : Nat) (ports : List Nat) :
    s.Keeps (fun p => [Part.regs].contains p) (s.countCell ip c ports) :=
  State.countCell_keeps (all_contains _) (State.Keeps.refl _ s) ip c ports

@[simp] theorem State.countCell_fab (ip c : Nat) (ports : List Nat) : (s.countCell ip c ports).fab = s.fab :=
  (s.keeps_countCell ip c ports).same .fab rfl

@[simp] theorem State.countCell_frames (ip c : Nat) (ports : List Nat) :
    (s.countCell ip c ports).frames = s.frames := (s.keeps_countCell ip c ports).same .frames rfl

theorem State.keeps_depart (v : Frame) : s.Keeps (fun p => [Part.regs].contains p) (s.depart v) :=
  State.depart_keeps (all_contains _) (State.Keeps.refl _ s) v

@[simp] theorem State.depart_fab (v : Frame) : (s.depart v).fab = s.fab := (s.keeps_depart v).same .fab rfl

@[simp] theorem State.depart_frames (v : Frame) : (s.depart v).frames = s.frames :=
  (s.keeps_depart v).same .frames rfl

@[simp] theorem State.noAdmit_frames (p : Nat) : (s.noAdmit p).frames = s.frames := by simp [State.noAdmit]

@[simp] theorem State.setFrame_fab (f : Nat) (v : Frame) : (s.setFrame f v).fab = s.fab := rfl

@[simp] theorem State.delFrame_fab (f : Nat) : (s.delFrame f).fab = s.fab := rfl

@[simp] theorem State.reservedUsed_setReserved_same (p c n : Nat) :
    (s.setReserved p c n).reservedUsed p c = n := Store.get_set_same _ _ _ _

theorem State.reservedUsed_congr {s t : State} (h : t.fab.reserved = s.fab.reserved) (p c : Nat) :
    t.reservedUsed p c = s.reservedUsed p c := by
  rw [State.reservedUsed, h, State.reservedUsed]

end

/-! ## The end of a frame (R83, R97) -/

section
variable {s : State} {f p : Nat} {v : Frame}

/-- A dropped frame without cells that wait to be freed is gone. -/
theorem State.dropFrame_of_freed (hf : s.frame f = some v) (hfreed : v.allFreed = true) (htail : v.tailIn = true) :
    s.dropFrame f = (s.depart v).delFrame f := by
  unfold Frame.allFreed at hfreed
  simp [State.dropFrame, hf, hfreed, htail]

/-- A frame with one copy less. -/
def Frame.endCopy (v : Frame) (p : Nat) : Frame :=
  { v with
    fanout := v.fanout.filter (fun x => x != p)
    headLeft := v.headLeft.filter (fun x => x != p)
    schuss := v.schuss.filter (fun x => x != p)
    stomps := v.stomps.filter (fun x => x != p)
    crossing := v.crossing.filter (fun x => x != p)
    cells := v.cells.map (fun c => { c with copies := c.copies.filter (fun x => x != p) }) }

theorem State.endCopy_eq (hf : s.frame f = some v) :
    s.endCopy f p = ((s.unqueue f p).loseDeficit p v.tc).setFrame f (v.endCopy p) := by
  have hf' : (s.unqueue f p).frame f = some v := hf
  rw [State.endCopy, hf']
  rfl

theorem State.loseDeficit_fab (s : State) (p c : Nat) : (s.loseDeficit p c).fab = s.fab :=
  (State.loseDeficit_keeps (all_contains [Part.tm]) (State.Keeps.refl _ s) p c).same .fab rfl

theorem State.endCopy_reserved (hf : s.frame f = some v) : (s.endCopy f p).fab.reserved = s.fab.reserved := by
  rw [State.endCopy_eq hf, State.setFrame_fab, State.loseDeficit_fab]
  rfl

theorem State.freeDone_of_no_cells (hf : s.frame f = some v) (hcells : v.cells = []) :
    s.freeDone f = s.setFrame f v := by
  simp [State.freeDone, hf, hcells]

/-- A frame that no cell holds is dropped whole, and the reservations stay. -/
theorem State.dropQueued_of_no_cells (hf : s.frame f = some v) (hfan : v.fanout = [p]) (hcells : v.cells = [])
    (htail : v.tailIn = true) :
    (s.dropQueued f).frame f = none ∧ (s.dropQueued f).fab.reserved = s.fab.reserved := by
  have hcells' : (v.endCopy p).cells = [] := by simp [Frame.endCopy, hcells]
  have hend : (s.endCopy f p).frame f = some (v.endCopy p) := by
    rw [State.endCopy_eq hf, State.frame_setFrame_same]
  have hdrop : s.dropQueued f =
      (((s.endCopy f p).setFrame f (v.endCopy p)).depart (v.endCopy p)).delFrame f := by
    rw [State.dropQueued, hf]
    dsimp only
    rw [hfan, List.foldl_cons, List.foldl_nil, State.freeDone_of_no_cells hend hcells']
    exact State.dropFrame_of_freed (State.frame_setFrame_same ..) (by simp [Frame.allFreed, hcells']) htail
  rw [hdrop]
  refine ⟨State.frame_delFrame_same .., ?_⟩
  rw [State.delFrame_fab, State.depart_fab, State.setFrame_fab, State.endCopy_reserved hf]

end

/-! ## FRAME_ENQUEUE (R77, R88) -/

section
variable {s : State} {f : FrameId} {v : Frame}

theorem frameEnqueue_none (hf : s.frame f = none) : Answers (.frameEnqueue f) s fun t => t = s :=
  ⟨s, by rw [exec_frameEnqueue, execFrameEnqueue, hf], rfl⟩

section
variable (hf : s.frame f = some v) (hstage : v.stage = .toEnqueue) (hcheck : v.checkTail = false)
variable (hup : s.up .fabric = true) (hturn : s.heldUpAt f v [.toStream, .toEnqueue] true = false)
variable (hexc : v.exc = none) (htail : v.tailIn = true)
include hf hstage hcheck hup hturn hexc htail

theorem frameEnqueue_closed (hclosed : s.fabricOpen = false) (hin : v.inPort < 32) (htrap : v.trapped = false)
    (hpass : v.rcPass = false) (hrecirc : v.recirc = false) (hcells : v.cells = []) :
    Answers (.frameEnqueue f) s fun t =>
      t.frame f = none ∧ t = (s.noAdmit v.inPort).dropFrame f ∧ ∀ g, g ≠ f → t.frame g = s.frame g := by
  have hframes : ∀ g, (s.noAdmit v.inPort).frame g = s.frame g :=
    fun g => State.frame_congr (State.noAdmit_frames ..) g
  have hdrop := State.dropFrame_of_freed ((hframes f).trans hf) (by simp [Frame.allFreed, hcells]) htail
  refine ⟨(s.noAdmit v.inPort).dropFrame f, ?_, ?_, rfl, fun g hg => ?_⟩
  · rw [exec_frameEnqueue, execFrameEnqueue, hf]
    dsimp only
    rw [if_neg (by simp [hstage, hup, hcheck, hturn]), if_pos (by simp [hclosed]),
      if_pos (by simp [hin, hexc, htrap, hpass, hrecirc])]
  · rw [hdrop, State.frame_delFrame_same]
  · rw [hdrop, State.frame_delFrame_other _ hg, State.frame_congr (State.depart_frames ..), hframes]

/-- The queued record of a stored frame for one port. -/
def Frame.queuedFor (v : Frame) (p : Nat) : Frame :=
  { v with
    stage := .queued, fanout := [p], schuss := []
    storedLen := v.bytes.length + (if v.inPort < 32 && !v.rcPass then 4 else 0) }

omit hf hstage hcheck hup hturn in
/-- A stored frame whose port takes it is queued for that port. -/
theorem State.enqueue_stored {p : Nat} (hport : s.portUp p = true) (hlen : s.egressLen v p ≤ s.maxFrm p)
    (hoff : s.bit Reg.FAB_SCHUSS 0 = false) : s.enqueue f v [p] false = s.setFrame f (v.queuedFor p) := by
  have hstored : [p].filter (s.schussOk v) = [] := by simp [State.schussOk, hoff]
  have hrecord : { s.dressed v with
      stage := .queued, fanout := [p], schuss := []
      storedLen := if v.tailIn then v.bytes.length + (if v.inPort < 32 && !v.rcPass then 4 else 0) else 0 } =
      v.queuedFor p := by
    simp [State.dressed, hexc, htail, Frame.queuedFor]
  have hcopy : (s.setFrame f (v.queuedFor p)).enqueueCopy f p = s.setFrame f (v.queuedFor p) := by
    have hlen' : ¬((s.setFrame f (v.queuedFor p)).maxFrm p <
        (s.setFrame f (v.queuedFor p)).egressLen (v.queuedFor p) p) :=
      Nat.not_lt.mpr hlen
    have hkept : (s.setFrame f (v.queuedFor p)).redirects p = false := by
      have : (s.setFrame f (v.queuedFor p)).portUp p = true := hport
      simp [State.redirects, this]
    rw [State.enqueueCopy, State.frame_setFrame_same]
    dsimp only
    rw [if_neg (by simp [hkept]), if_neg (by simp [hlen'])]
  unfold State.enqueue
  dsimp only
  rw [hstored, ite_self, if_neg (by simp [htail]), if_neg (by decide), hrecord]
  exact hcopy

theorem frameEnqueue_queues (hlatched : v.latched = none) (hopen : s.fabricOpen = true) (hmc : v.mc = false)
    (hdest : v.dest ≠ 32) (hport : s.portUp v.dest = true) (hlen : s.egressLen v v.dest ≤ s.maxFrm v.dest)
    (hoff : s.bit Reg.FAB_SCHUSS 0 = false) :
    Answers (.frameEnqueue f) s fun t =>
      (∃ u, t.frame f = some u ∧ u.stage = .queued ∧ u.fanout = [v.dest] ∧
        u.storedLen = v.bytes.length + (if v.inPort < 32 && !v.rcPass then 4 else 0)) ∧
      ∀ g, g ≠ f → t.frame g = s.frame g := by
  have hfan : s.fanoutOf v = [v.dest] := by simp [State.fanoutOf, hlatched, hmc]
  have hstay : ([v.dest].contains 32 && !s.running .app) = false := by simp [Ne.symm hdest]
  have hports : ([v.dest].map (fun p => if p = 32 ∧ false = true then 33 else p)).eraseDups = [v.dest] := by
    simp [List.eraseDups_cons]
  have hreap : (s.setFrame f (v.queuedFor v.dest)).reap f = s.setFrame f (v.queuedFor v.dest) := by
    rw [State.reap, State.frame_setFrame_same]
    dsimp only
    rw [if_neg (by simp [Frame.queuedFor])]
  refine ⟨s.setFrame f (v.queuedFor v.dest), ?_, ⟨_, State.frame_setFrame_same .., rfl, rfl, rfl⟩,
    fun g hg => State.frame_setFrame_other _ _ hg⟩
  rw [exec_frameEnqueue, execFrameEnqueue, hf]
  dsimp only
  rw [if_neg (by simp [hstage, hup, hcheck, hturn]), if_neg (by simp [hopen]), if_neg (by simp [hexc]), hfan, hstay,
    hports, if_neg (by simp [hmc]), if_neg (by simp), State.enqueue_stored hexc htail hport hlen hoff, hreap]

end

end

/-! ## CELL_ADMIT of a scheduled cell (R84) -/

section
variable {s : State} {f : FrameId} {v : Frame} {p : Nat}

/-- With room left in its reservation the cell takes it. -/
theorem State.admitScheduled_room {f : Nat} (hf : s.frame f = some v)
    (hroom : s.reservedUsed p v.tc < s.egLim p v.tc) :
    s.admitScheduled f v [p] = s.placeCell f v [p] .reservation .head := by
  have hfull : [p].filter (fun p => decide (s.egLim p v.tc ≤ s.reservedUsed p v.tc)) = [] := by
    simpa using hroom
  unfold State.admitScheduled
  dsimp only
  rw [hfull]
  simp [hf]

/-- The counts of a scheduled cell that finds its reservation full. -/
def State.countOver (s : State) (p : Nat) : State :=
  ((s.bump Cnt.FAB_SCHED_OVER).bump (regKey 9 (0x5000 + 0x20 * p + 8))).monEvent 0x104

/-- A scheduled frame of which nothing has left is dropped at a full reservation. -/
theorem State.admitScheduled_full {f : Nat} (hhead : v.headLeft = [])
    (hfull : s.egLim p v.tc ≤ s.reservedUsed p v.tc) :
    s.admitScheduled f v [p] = (s.countOver p).dropQueued f := by
  have hfull : [p].filter (fun p => decide (s.egLim p v.tc ≤ s.reservedUsed p v.tc)) = [p] := by
    simpa using hfull
  unfold State.admitScheduled
  dsimp only
  rw [hfull]
  simp [hhead, State.countOver]

theorem State.countOver_frames (s : State) (p : Nat) : (s.countOver p).frames = s.frames := by
  simp [State.countOver]

theorem State.countOver_fab (s : State) (p : Nat) : (s.countOver p).fab = s.fab := by
  simp [State.countOver]

/-- The state in which a unicast cell stands in a reservation, before it is queued. -/
def State.inReservation (s : State) (f : Nat) (v : Frame) (p : Nat) : State :=
  ((s.setReserved p v.tc (s.reservedUsed p v.tc + 1)).countCell v.ingress v.tc [p]).setFrame f
    { v with cells := v.cells ++ [⟨.reservation, [p], [p], false⟩] }

theorem State.placeCell_reservation {f : Nat} (hmc : v.mc = false) :
    (s.placeCell f v [p] .reservation .head).frames = (s.inReservation f v p).frames ∧
    (s.placeCell f v [p] .reservation .head).fab.reserved = (s.inReservation f v p).fab.reserved := by
  unfold State.placeCell
  dsimp only
  rw [if_neg (by simp [hmc]), State.monEvent_frames, State.monEvent_fab]
  exact ⟨rfl, rfl⟩

section
variable (hf : s.frame f = some v) (hstage : v.stage = .queued) (hruns : s.fabricRuns = true)
variable (htrap : v.trapped = false) (hnext : v.nextCell = true) (hfan : v.fanout = [p]) (hstomps : v.stomps = [])
variable (hsched : s.scheduled v.tc = true)
include hf hstage hruns htrap hnext hfan hstomps hsched

theorem execCellAdmit_of_scheduled : execCellAdmit f s = .next (s.admitScheduled f v [p]) := by
  have hports : v.fanout.filter (fun p => !v.stomps.contains p) = [p] := by simp [hfan, hstomps]
  rw [execCellAdmit, hf]
  dsimp only
  rw [hports, if_neg (by simp [hstage, hnext, hruns]), if_pos (by simp [hsched, htrap])]

theorem cellAdmit_reserves (hmc : v.mc = false) (hroom : s.reservedUsed p v.tc < s.egLim p v.tc) :
    Answers (.cellAdmit f) s fun t =>
      (∃ u, t.frame f = some u ∧ u.cells = v.cells ++ [⟨.reservation, [p], [p], false⟩]) ∧
      t.reservedUsed p v.tc = s.reservedUsed p v.tc + 1 ∧
      ∀ g, g ≠ f → t.frame g = s.frame g := by
  obtain ⟨hframes, hreserved⟩ := State.placeCell_reservation (s := s) (f := f) (p := p) hmc
  refine ⟨_, by rw [exec_cellAdmit,
    execCellAdmit_of_scheduled hf hstage hruns htrap hnext hfan hstomps hsched, State.admitScheduled_room hf hroom],
    ⟨_, (State.frame_congr hframes f).trans (State.frame_setFrame_same ..), rfl⟩, ?_, fun g hg => ?_⟩
  · rw [State.reservedUsed_congr hreserved, State.inReservation, State.reservedUsed_congr
      (s := s.setReserved p v.tc (s.reservedUsed p v.tc + 1)) (by simp), State.reservedUsed_setReserved_same]
  · rw [State.frame_congr hframes, State.inReservation, State.frame_setFrame_other _ _ hg,
      State.frame_congr (State.countCell_frames ..)]
    rfl

theorem cellAdmit_drops (hcells : v.cells = []) (hhead : v.headLeft = []) (htail : v.tailIn = true)
    (hfull : s.egLim p v.tc ≤ s.reservedUsed p v.tc) :
    Answers (.cellAdmit f) s fun t => t.frame f = none ∧ t.fab.reserved = s.fab.reserved := by
  have hf' : (s.countOver p).frame f = some v := (State.frame_congr (s.countOver_frames p) f).trans hf
  obtain ⟨hgone, hreserved⟩ := State.dropQueued_of_no_cells hf' hfan hcells htail
  refine ⟨_, by rw [exec_cellAdmit,
    execCellAdmit_of_scheduled hf hstage hruns htrap hnext hfan hstomps hsched,
    State.admitScheduled_full hhead hfull], hgone, ?_⟩
  rw [hreserved, State.countOver_fab]

end

end

/-! ## CELL_FREE (R83, R97) -/

section
variable {s : State} {f : FrameId} {v : Frame} {i : Nat} {r : CellRec}

theorem State.freeCell_snd {v : Frame} (hr : v.cells[i]? = some r) (hheld : r.freed = false) :
    (s.freeCell v i).2 = { v with cells := setAt v.cells i { r with freed := true } } := by
  rw [State.freeCell, hr]
  dsimp only
  rw [if_neg (by simp [hheld])]

section
variable (hf : s.frame f = some v) (hr : v.cells[i]? = some r)
include hf hr

theorem cellFree_frees (hheld : r.freed = false) (hgone : s.cellGone f i v r = true ∨ v.stage = .dropped) :
    exec (.cellFree f i) s = .next
      (((((s.unstage f i v.tc r.copies).freeCell v i).1).setFrame f
        { v with cells := setAt v.cells i { r with freed := true } }).reap f) := by
  rw [exec_cellFree, execCellFree, hf]
  dsimp only
  rw [hr]
  dsimp only
  rw [if_neg (by rcases hgone with h | h <;> simp [hheld, h]), State.freeCell_snd hr hheld]

theorem cellFree_waits (hwaits : r.freed = true ∨ s.cellGone f i v r = false ∧ v.stage ≠ .dropped) :
    Answers (.cellFree f i) s fun t => t = s := by
  refine ⟨s, ?_, rfl⟩
  rw [exec_cellFree, execCellFree, hf]
  dsimp only
  rw [hr]
  dsimp only
  rw [if_pos]
  rcases hwaits with hfreed | ⟨hgone, hstage⟩
  · simp [hfreed]
  · simp [hgone, hstage]

end

end

/-! ## The link-down rule (R98) -/

section
variable {s : State} {p : Port}

theorem linkDownHoldExpiry_waits (h : s.portUp p.val = true ∨
    s.nowNs < (s.port p.val).downAt + 1000000 * s.fld Reg.FAB_LDHOLD 0 10) :
    Answers (.linkDownHoldExpiry p) s fun t => t = s :=
  ⟨s, by rw [exec_linkDownHoldExpiry, execLinkDownHoldExpiry, if_pos h], rfl⟩

theorem linkDownHoldExpiry_redirects (hdown : s.portUp p.val = false) (hnone : s.queuedFor p.val = [])
    (hdue : (s.port p.val).downAt + 1000000 * s.fld Reg.FAB_LDHOLD 0 10 ≤ s.nowNs) :
    Answers (.linkDownHoldExpiry p) s fun t =>
      (t.port p.val).redirecting = true ∧ t.redirects p.val = true ∧ t.regs = s.regs := by
  have hmark : ((s.setPort p.val { s.port p.val with redirecting := true }).port p.val).redirecting = true := by
    rw [State.port_setPort_same]
  have hstill : (s.setPort p.val { s.port p.val with redirecting := true }).portUp p.val = false := hdown
  refine ⟨s.setPort p.val { s.port p.val with redirecting := true }, ?_, hmark, ?_, rfl⟩
  · have hnone' : (s.setPort p.val { s.port p.val with redirecting := true }).queuedFor p.val = [] := hnone
    rw [exec_linkDownHoldExpiry, execLinkDownHoldExpiry, if_neg (by simp [hdown, Nat.not_lt.mpr hdue])]
    dsimp only
    rw [hnone', List.foldl_nil]
  · rw [State.redirects, hstill, hmark]
    rfl

end

/-! ## Cell-memory errors (R101, R102) -/

theorem State.badFrame_reports (s : State) (f : Nat) : (s.badFrame f).reports = s.reports :=
  (State.badFrame_keeps (all_contains [Part.regs, .saturated, .irqs, .flowFrames, .frames, .fab, .tm])
    (State.Keeps.refl _ s) f).same .reports rfl

theorem cellMemoryError_discards {s : State} {f : FrameId} {v : Frame} (hf : s.frame f = some v)
    (hstage : v.stage = .queued) :
    Answers (.cellMemoryError f) s fun t =>
      t = (((s.bump Cnt.FAB_MEM_LOSS).monEvent 0x420).fault 0x2084 0).badFrame f ∧
        ⟨0x2084, 0, s.nowNs⟩ ∈ t.reports := by
  refine ⟨_, ?_, rfl, ?_⟩
  · rw [exec_cellMemoryError, execCellMemoryError, hf]
    dsimp only
    rw [if_neg (by simp [hstage])]
  · rw [State.badFrame_reports, State.reports_fault, State.monEvent_nowNs, State.bump_nowNs]
    exact List.mem_append_right _ List.mem_cons_self

/-- Settles O21: every command is followed through the one record of its frame, and through the accounts of the
cells in reservations. -/
theorem fabricFrameCommandsComplete : Obligations.FabricFrameCommandsComplete :=
  ⟨fun _ _ _ hf hstage hcheck hup hturn hclosed hin hexc htrap hpass hrecirc hcells htail =>
      frameEnqueue_closed hf hstage hcheck hup hturn hexc htail hclosed hin htrap hpass hrecirc hcells,
    fun _ _ _ hf hstage hup hturn hlatched hcheck hopen hexc hmc htail hdest hport hlen hoff =>
      frameEnqueue_queues hf hstage hcheck hup hturn hexc htail hlatched hopen hmc hdest hport hlen hoff,
    fun _ _ => frameEnqueue_none,
    fun _ _ _ hf hstage hnext hruns htrap hmc hfan hstomps hsched hroom =>
      cellAdmit_reserves hf hstage hruns htrap hnext hfan hstomps hsched hmc hroom,
    fun _ _ _ _ hf hstage hruns htrap hnext hfan hstomps hcells hhead _ htail hsched hfull =>
      cellAdmit_drops hf hstage hruns htrap hnext hfan hstomps hsched hcells hhead htail hfull,
    fun _ _ _ _ _ => cellFree_frees,
    fun _ _ _ _ _ hf hr hgone hstage => cellFree_waits hf hr (.inr ⟨hgone, hstage⟩),
    fun _ _ _ _ _ hf hr hfreed => cellFree_waits hf hr (.inl hfreed),
    fun _ _ hup => linkDownHoldExpiry_waits (.inl hup),
    fun _ _ hearly => linkDownHoldExpiry_waits (.inr hearly),
    fun _ _ => linkDownHoldExpiry_redirects,
    fun _ _ _ => cellMemoryError_discards⟩

end Sys2Proof.Machine
end

section
/-!
PROOFS. The scheduler's two copies and the Drift region (R82, R91 to R94): what the check of the copies leaves, which
reads the fabric's accounts share, then the commands.
-/

namespace Sys2Proof.Machine

open Sys2Proof

/-! ## The scheduler's copies (R82) -/

section
variable (s : State)

theorem State.rd_setGstat_other {flag k : Nat} (v : Bool) (hk : k ≠ Reg.FLT_GSTAT) :
    (s.setGstat flag v).rd k = s.rd k := by
  unfold State.setGstat
  dsimp only
  split
  · rw [State.rd_fault, State.rd_setBit_other _ _ hk, State.rd_setBit_other _ _ hk]
  · rw [State.rd_setBit_other _ _ hk, State.rd_setBit_other _ _ hk]

theorem State.bit_setGstat_same {flag : Nat} (v : Bool) (hflag : flag < 31) :
    (s.setGstat flag v).bit Reg.FLT_GSTAT flag = v := by
  unfold State.setGstat
  dsimp only
  split
  · rw [State.bit_fault, State.bit_setBit_apart _ _ _ _ _ _ (by omega) (.inr (by omega)),
      State.bit_setBit_same _ _ _ _ (by omega)]
  · rw [State.bit_setBit_apart _ _ _ _ _ _ (by omega) (.inr (by omega)), State.bit_setBit_same _ _ _ _ (by omega)]

/-- A guarantee flag that sets adds a report and takes none away. -/
theorem State.mem_reports_setGstat {flag : Nat} {v : Bool} {x : FaultReport} (h : x ∈ s.reports) :
    x ∈ (s.setGstat flag v).reports := by
  unfold State.setGstat
  dsimp only
  split
  · rw [State.reports_fault, State.setBit_reports, State.setBit_reports]
    exact List.mem_append_left _ h
  · rw [State.setBit_reports, State.setBit_reports]
    exact h

@[simp] theorem State.copyOut_fab : s.copyOut.fab = s.fab := by simp [State.copyOut]

@[simp] theorem State.copyOut_frames : s.copyOut.frames = s.frames := by simp [State.copyOut]

theorem State.mem_reports_copyOut : ⟨0x2081, 0, s.nowNs⟩ ∈ s.copyOut.reports := by
  refine State.mem_reports_setGstat _ ?_
  rw [State.reports_fault, State.bump_nowNs, State.setBit_nowNs]
  exact List.mem_append_right _ List.mem_cons_self

theorem State.gstat_copyOut : s.copyOut.bit Reg.FLT_GSTAT 7 = true := State.bit_setGstat_same _ _ (by omega)

theorem State.rd_copyOut_sched : s.copyOut.rd Reg.FAB_SCHED = (s.setBit Reg.FAB_SCHED 1 false).rd Reg.FAB_SCHED := by
  rw [State.copyOut, State.rd_setGstat_other _ _ (by decide), State.rd_fault,
    State.rd_bump _ _ _ (by decide) (by decide)]

/-- The standby copy is out of service. -/
theorem State.standby_copyOut : s.copyOut.bit Reg.FAB_SCHED 1 = false := by
  rw [State.bit_congr s.rd_copyOut_sched, State.bit_setBit_same _ _ _ _ (by omega)]

theorem State.active_copyOut : s.copyOut.bit Reg.FAB_SCHED 0 = s.bit Reg.FAB_SCHED 0 := by
  rw [State.bit_congr s.rd_copyOut_sched, State.bit_setBit_apart _ _ _ _ _ _ (by omega) (.inr (by omega))]

theorem State.useMatching_nowNs (m : Matching) : (s.useMatching m).nowNs = s.nowNs :=
  (State.useMatching_keeps (all_contains [Part.regs, .saturated, .irqs, .frames, .fab, .tm])
    (State.Keeps.refl _ s) m).nowNs

/-- A cell time in which both copies are in service, by the outcome of their check. -/
def State.checkedCellTime : SchedCheck → State
  | .agree => s.useMatching s.matching
  | .standbyFails => (s.useMatching s.matching).copyOut
  | .activeFails => (s.setBit Reg.FAB_SCHED 0 (!s.bit Reg.FAB_SCHED 0)).copyOut
  | .differ => (s.bump Cnt.FAB_SCHED_RESYNC).fault 0x1082 0

end

section
variable {s : State} {r : SchedCheck}

theorem schedulerCellTime_stopped (hstopped : s.fabricRuns = false) :
    Answers (.schedulerCellTime r) s fun t => t = s :=
  ⟨s, by rw [exec_schedulerCellTime, execSchedulerCellTime, if_pos (by simp [hstopped])], rfl⟩

section
variable (hruns : s.fabricRuns = true) (hswap : s.fab.swapAsked = false)
include hruns hswap

theorem schedulerCellTime_unchecked (halone : s.bit Reg.FAB_SCHED 1 = false) :
    exec (.schedulerCellTime r) s = .next (s.useMatching s.matching) := by
  have hkept : s.applySwap = s := by simp [State.applySwap, hswap]
  rw [exec_schedulerCellTime, execSchedulerCellTime, if_neg (by simp [hruns])]
  dsimp only
  rw [hkept, if_pos (by simp [halone])]

theorem schedulerCellTime_checked (hboth : s.bit Reg.FAB_SCHED 1 = true) :
    exec (.schedulerCellTime r) s = .next (s.checkedCellTime r) := by
  have hkept : s.applySwap = s := by simp [State.applySwap, hswap]
  rw [exec_schedulerCellTime, execSchedulerCellTime, if_neg (by simp [hruns])]
  dsimp only
  rw [hkept, if_neg (by simp [hboth])]
  cases r <;> rfl

theorem schedulerCellTime_outcome (hboth : s.bit Reg.FAB_SCHED 1 = true) :
    Answers (.schedulerCellTime r) s fun t =>
      match r with
      | .agree => t = s.useMatching s.matching
      | .standbyFails => t = (s.useMatching s.matching).copyOut ∧ t.bit Reg.FAB_SCHED 1 = false ∧
          ⟨0x2081, 0, s.nowNs⟩ ∈ t.reports ∧ t.bit Reg.FLT_GSTAT 7 = true
      | .activeFails => t.bit Reg.FAB_SCHED 0 = !s.bit Reg.FAB_SCHED 0 ∧ t.bit Reg.FAB_SCHED 1 = false ∧
          t.fab = s.fab ∧ t.frames = s.frames ∧ t.bit Reg.FLT_GSTAT 7 = true
      | .differ => t.reports = s.reports ++ [⟨0x1082, 0, s.nowNs⟩] ∧ t.fab = s.fab ∧ t.frames = s.frames := by
  refine ⟨_, schedulerCellTime_checked hruns hswap hboth, ?_⟩
  cases r with
  | agree => rfl
  | standbyFails =>
    refine ⟨rfl, State.standby_copyOut _, ?_, State.gstat_copyOut _⟩
    rw [← s.useMatching_nowNs s.matching]
    exact State.mem_reports_copyOut _
  | activeFails =>
    refine ⟨?_, State.standby_copyOut _, State.copyOut_fab _, State.copyOut_frames _, State.gstat_copyOut _⟩
    rw [State.checkedCellTime, State.active_copyOut, State.bit_setBit_same _ _ _ _ (by omega)]
  | differ =>
    refine ⟨?_, State.bump_fab .., State.bump_frames ..⟩
    rw [State.checkedCellTime, State.reports_fault, State.bump_reports, State.bump_nowNs]
    rfl

end

theorem schedulerSwap_asks {m : Master} (hadm : s.admits m Reg.FAB_SCHED) :
    Answers (.schedulerSwap m) s fun t => t.fab.swapAsked = s.bit Reg.FAB_SCHED 1 ∧ t.regs = s.regs := by
  refine ⟨_, by rw [exec_schedulerSwap, execSchedulerSwap, guardReg_of_admits hadm], ?_, ?_⟩ <;> rfl

end

/-! ## The cells of a port in the Drift region -/

/-- A read that no step of a fold changes. -/
theorem apply_foldl_of_step {α β γ : Type} (P : α → γ) {g : α → β → α} (hg : ∀ a b, P (g a b) = P a)
    (l : List β) (a : α) : P (l.foldl g a) = P a := by
  induction l generalizing a with
  | nil => rfl
  | cons b l ih => rw [List.foldl_cons, ih, hg]

section
variable (s : State)

theorem State.driftOf_congr {s t : State} (h : t.fab.driftOf = s.fab.driftOf) (p : Nat) :
    t.driftOf p = s.driftOf p := by
  rw [State.driftOf, h, State.driftOf]

@[simp] theorem State.driftOf_setDriftOf_same (p n : Nat) : (s.setDriftOf p n).driftOf p = n :=
  Store.get_set_same _ _ _ _

theorem State.takePlace_driftOf (ip c : Nat) (ports : List Nat) (place : CellPlace) :
    (s.takePlace ip c ports place).fab.driftOf = s.fab.driftOf := by
  cases place with
  | reservation =>
    refine apply_foldl_of_step (fun t : State => t.fab.driftOf) (fun t q => ?_) ports s
    rfl
  | shared | headroom | drift => rfl

theorem State.givePlace_driftOf (ip c : Nat) (ports : List Nat) (place : CellPlace) :
    (s.givePlace ip c ports place).fab.driftOf = s.fab.driftOf := by
  cases place with
  | reservation =>
    refine apply_foldl_of_step (fun t : State => t.fab.driftOf) (fun t q => ?_) ports s
    rfl
  | shared | headroom | drift => rfl

theorem State.uncountCell_fab (ip c : Nat) (ports : List Nat) : (s.uncountCell ip c ports).fab = s.fab :=
  (State.uncountCell_keeps (all_contains [Part.regs]) (State.Keeps.refl _ s) ip c ports).same .fab rfl

theorem State.signalXon_fab (p c : Nat) : (s.signalXon p c).fab = s.fab :=
  (State.signalXon_keeps (all_contains [Part.regs, .saturated, .irqs, .flowFrames]) (State.Keeps.refl _ s) p c).same
    .fab rfl

theorem State.checkXon_driftOf (p c : Nat) : (s.checkXon p c).fab.driftOf = s.fab.driftOf := by
  unfold State.checkXon
  dsimp only
  split
  · rw [State.signalXon_fab]
    rfl
  · rfl

theorem State.release_driftOf (c : Nat) (ports : List Nat) : (s.release c ports).fab.driftOf = s.fab.driftOf := by
  unfold State.release
  dsimp only
  refine (apply_foldl_of_step (fun t : State => t.fab.driftOf) (fun t x => ?_) _ _).trans
    (apply_foldl_of_step (fun t : State => t.fab.driftOf) (fun t q => ?_) ports s)
  · exact t.checkXon_driftOf x.1 x.2
  · split <;> rfl

theorem State.release_frames (c : Nat) (ports : List Nat) : (s.release c ports).frames = s.frames :=
  (State.release_keeps (all_contains [Part.regs, .saturated, .irqs, .flowFrames, .fab]) (State.Keeps.refl _ s) c
    ports).same .frames rfl

/-- A cell of a frame moved to another place, and its queue's record of it. -/
def State.moveCell (k : Nat) (v : Voq) (q : QCell) (f : Frame) (r : CellRec) (place : CellPlace) : State :=
  (s.setFrame q.frame { f with cells := setAt f.cells q.idx { r with place := place } }).setVoq k v

/-- The number of an egress port's cells in the Drift region, and the number of all of them. -/
def State.countDrift (p n cells : Nat) : State := (s.setDriftOf p n).setFld Reg.FAB_DRIFTSTAT 0 22 cells

/-- The access of a spill or a return charged to the cap, counted and signalled. -/
def State.driftAccess (counter ev : Nat) : State := (s.chargeCap.bump counter).monEvent ev

theorem State.frame_moveCell (k : Nat) (v : Voq) (q : QCell) (f : Frame) (r : CellRec) (place : CellPlace) :
    (s.moveCell k v q f r place).frame q.frame =
      some { f with cells := setAt f.cells q.idx { r with place := place } } := State.frame_setFrame_same ..

theorem State.moveCell_driftOf (k : Nat) (v : Voq) (q : QCell) (f : Frame) (r : CellRec) (place : CellPlace) :
    (s.moveCell k v q f r place).fab.driftOf = s.fab.driftOf := rfl

theorem State.countDrift_frames (p n cells : Nat) : (s.countDrift p n cells).frames = s.frames := rfl

theorem State.driftOf_countDrift (p n cells : Nat) : (s.countDrift p n cells).driftOf p = n :=
  State.driftOf_setDriftOf_same ..

theorem State.driftAccess_frames (counter ev : Nat) : (s.driftAccess counter ev).frames = s.frames := by
  rw [State.driftAccess, State.monEvent_frames, State.bump_frames]
  rfl

theorem State.driftAccess_driftOf (counter ev : Nat) : (s.driftAccess counter ev).fab.driftOf = s.fab.driftOf := by
  rw [State.driftAccess, State.monEvent_fab, State.bump_fab]
  rfl

end

/-! ## DRIFT_SPILL (R91, R92) -/

section
variable (s : State) (k p : Nat) (q : QCell) (f : Frame) (r : CellRec)

/-- The place of a spilled cell is free again, and its queue has it in the middle. -/
def State.leavesChip : State :=
  ((s.givePlace f.ingress f.tc r.ports r.place).uncountCell f.ingress f.tc r.ports).moveCell k
    { s.voq k with cells := moveFirst .tail .middle (s.voq k).cells } q f r .drift

/-- A cell spilled to the Drift region. -/
def State.spilled : State :=
  let t := s.leavesChip k q f r
  ((t.countDrift p (t.driftOf p + 1) (t.driftCells + 1)).driftAccess Cnt.FAB_DRIFT_SPILL 0x102).release f.tc r.ports

theorem State.leavesChip_driftOf : (s.leavesChip k q f r).fab.driftOf = s.fab.driftOf := by
  rw [State.leavesChip, State.moveCell_driftOf, State.uncountCell_fab, State.givePlace_driftOf]

theorem State.driftOf_spilled : (s.spilled k p q f r).driftOf p = s.driftOf p + 1 := by
  rw [State.spilled, State.driftOf_congr (State.release_driftOf ..), State.driftOf_congr (State.driftAccess_driftOf ..),
    State.driftOf_countDrift, State.driftOf_congr (State.leavesChip_driftOf ..)]

theorem State.frame_spilled : (s.spilled k p q f r).frame q.frame =
    some { f with cells := setAt f.cells q.idx { r with place := .drift } } := by
  rw [State.spilled, State.frame_congr (State.release_frames ..), State.frame_congr (State.driftAccess_frames ..),
    State.frame_congr (State.countDrift_frames ..), State.leavesChip, State.frame_moveCell]

end

section
variable {s : State} {p c : Nat}

/-- Registers of the cell accounts stand in block 9. -/
theorem bufstat_block (hp : p < 37) (hc : c < 8) : Reg.FAB_BUFSTAT_w1 p c / 0x100000 = 9 := by
  unfold Reg.FAB_BUFSTAT_w1 regKey
  omega

/-- Capacity in the Drift region does not depend on the congestion of a queue. -/
theorem State.driftPlace_setBit (hp : p < 37) (hc : c < 8) (v : Bool) :
    (s.setBit (Reg.FAB_BUFSTAT_w1 p c) 16 v).driftPlace p = s.driftPlace p := by
  have hrd : ∀ o, o < 0x100000 → (s.setBit (Reg.FAB_BUFSTAT_w1 p c) 16 v).rd (regKey 8 o) = s.rd (regKey 8 o) :=
    fun o ho => State.rd_setBit_other _ _
      (ne_regKey_of_block (by rw [bufstat_block hp hc]; omega) ho).symm
  have hsize : (s.setBit (Reg.FAB_BUFSTAT_w1 p c) 16 v).driftSize = s.driftSize := by
    rw [State.driftSize, State.fld_congr (hrd 0x34 (by omega))]
    rfl
  have hlim : (s.setBit (Reg.FAB_BUFSTAT_w1 p c) 16 v).portFld p (Reg.FAB_DRIFTLIM p) 0 22 =
      s.portFld p (Reg.FAB_DRIFTLIM p) 0 22 := by
    rw [State.portFld, State.fld_congr (hrd _ (by omega))]
    rfl
  rw [State.driftPlace, State.driftAvail, hsize, State.bit_congr (hrd 0x3C (by omega)), hlim, State.driftCells,
    State.fld_congr (hrd 0x3C (by omega))]
  rfl

theorem State.rd_with_fab (t : State) (x : FabricState) (k : Nat) : ({ t with fab := x } : State).rd k = t.rd k := rfl

/-- A blocked spill of a queue without place in the region only makes it congested. -/
theorem State.spillBlocked_of_no_place (hp : p < 37) (hc : c < 8) (h : s.driftPlace p = false) :
    s.spillBlocked p c = s.setBit (Reg.FAB_BUFSTAT_w1 p c) 16 true := by
  unfold State.spillBlocked
  dsimp only
  rw [if_pos (by simp [State.driftPlace_setBit hp hc, h])]

/-- A blocked spill makes its queue congested; one that the cap or the in-flight bound blocks is counted, once in a
cell time (R92). -/
theorem State.spillBlocked_cases (s : State) (p c : Nat) :
    let t := s.setBit (Reg.FAB_BUFSTAT_w1 p c) 16 true
    s.spillBlocked p c = t ∧ (t.driftPlace p = true → s.fab.capHitAt = s.nowNs / 8 + 1) ∨
    s.spillBlocked p c =
      (({ t with fab := { t.fab with capHitAt := s.nowNs / 8 + 1 } } : State).bump Cnt.FAB_DRIFT_CAPHIT).monEvent
        0x106 := by
  intro t
  unfold State.spillBlocked
  dsimp only
  rw [State.setBit_nowNs, State.setBit_fab]
  split
  · next h => exact .inl ⟨rfl, fun hplace => by simpa [t, hplace] using h⟩
  · exact .inr rfl

theorem State.spillBlocked_effect (hp : p < 37) (hc : c < 8) :
    (s.spillBlocked p c).congested p c = true ∧ (s.spillBlocked p c).driftOf p = s.driftOf p ∧
    (s.spillBlocked p c).frames = s.frames ∧
    (s.driftPlace p = true → (s.spillBlocked p c).fab.capHitAt = s.nowNs / 8 + 1) := by
  have hset : (s.setBit (Reg.FAB_BUFSTAT_w1 p c) 16 true).congested p c = true :=
    State.bit_setBit_same _ _ _ _ (by omega)
  rcases s.spillBlocked_cases p c with ⟨hsame, hhit⟩ | hcount
  · rw [State.driftPlace_setBit hp hc] at hhit
    rw [hsame]
    exact ⟨hset, State.driftOf_congr (congrArg _ (State.setBit_fab ..)) p, State.setBit_frames .., hhit⟩
  · have hblock := bufstat_block hp hc
    rw [hcount]
    refine ⟨?_, ?_, ?_, fun _ => ?_⟩
    · rw [State.congested, State.bit_congr (State.rd_monEvent _ _ _ (by omega)), State.bit_congr (State.rd_bump _ _ _
        (ne_regKey_of_block (by omega) (by omega)) (ne_regKey_add_of_block (by omega) (by omega))),
        State.bit_congr (State.rd_with_fab ..)]
      exact hset
    · exact State.driftOf_congr (by rw [State.monEvent_fab, State.bump_fab, State.setBit_fab]) p
    · rw [State.monEvent_frames, State.bump_frames, State.setBit_frames]
    · rw [State.monEvent_fab, State.bump_fab]

end

section
variable {s : State} {g : Fin 7} {p : Port} {c : TrafficClass} {q : QCell} {f : Frame} {r : CellRec}

theorem driftSpill_nothing (hnone : firstOf .tail (s.voq (voqKey g.val p.val c.val)).cells = none) :
    Answers (.driftSpill g p c) s fun t => t = s := by
  refine ⟨s, ?_, rfl⟩
  rw [exec_driftSpill, execDriftSpill]
  dsimp only
  rw [hnone]

section
variable (hq : firstOf .tail (s.voq (voqKey g.val p.val c.val)).cells = some q) (hf : s.frame q.frame = some f)
variable (hr : f.cells[q.idx]? = some r) (hmay : s.maySpill c.val = true)
include hq hf hr hmay

theorem execDriftSpill_of_head : execDriftSpill g p c s = .next
    (if s.driftRoom p.val then s.spilled (voqKey g.val p.val c.val) p.val q f r
      else s.spillBlocked p.val c.val) := by
  rw [execDriftSpill]
  dsimp only
  rw [hq]
  dsimp only
  rw [hf]
  dsimp only
  rw [hr]
  dsimp only
  rw [if_neg (by simp [hmay])]
  rfl

theorem driftSpill_spills (hroom : s.driftRoom p.val = true) :
    Answers (.driftSpill g p c) s fun t =>
      t.driftOf p.val = s.driftOf p.val + 1 ∧
      ∃ u, t.frame q.frame = some u ∧ u.cells = setAt f.cells q.idx { r with place := .drift } :=
  ⟨_, by rw [exec_driftSpill, execDriftSpill_of_head hq hf hr hmay, if_pos hroom], State.driftOf_spilled ..,
    _, State.frame_spilled .., rfl⟩

theorem driftSpill_blocked (hroom : s.driftRoom p.val = false) :
    Answers (.driftSpill g p c) s fun t =>
      t.congested p.val c.val = true ∧ t.driftOf p.val = s.driftOf p.val ∧ t.frames = s.frames ∧
      (s.driftPlace p.val = false → t.fab = s.fab ∧
        ∀ k, k ≠ Reg.FAB_BUFSTAT_w1 p.val c.val → t.rd k = s.rd k) ∧
      (s.driftPlace p.val = true → t.fab.capHitAt = s.nowNs / 8 + 1) := by
  obtain ⟨hcong, hdrift, hframes, hhit⟩ := State.spillBlocked_effect (s := s) p.isLt c.isLt
  refine ⟨_, by rw [exec_driftSpill, execDriftSpill_of_head hq hf hr hmay, if_neg (by simp [hroom])], hcong, hdrift,
    hframes, fun hplace => ?_, hhit⟩
  rw [State.spillBlocked_of_no_place p.isLt c.isLt hplace]
  exact ⟨State.setBit_fab .., fun k hk => State.rd_setBit_other _ _ hk⟩

end

end

/-! ## DRIFT_RETURN (R91) -/

theorem voqKey_port {g p c : Nat} (hp : p < 40) (hc : c < 8) : voqKey g p c / 8 % 40 = p := by
  unfold voqKey
  omega

theorem voqKey_class {g p c : Nat} (hc : c < 8) : voqKey g p c % 8 = c := by
  unfold voqKey
  omega

section
variable (s : State) (k p : Nat) (q : QCell) (f : Frame) (r : CellRec)

/-- A returned cell takes a place of the shared pool, and its queue has it at the end of its head. -/
def State.reachesChip : State :=
  ((s.takePlace f.ingress f.tc r.ports .shared).countCell f.ingress f.tc r.ports).moveCell k
    ({ s.voq k with cells := moveFirst .middle .head (s.voq k).cells } : Voq).settle q f r .shared

/-- A cell returned from the Drift region. -/
def State.returned : State :=
  let t := s.reachesChip k q f r
  (t.countDrift p (t.driftOf p - 1) (t.driftCells - 1)).driftAccess Cnt.FAB_DRIFT_RETURN 0x103

theorem State.reachesChip_driftOf : (s.reachesChip k q f r).fab.driftOf = s.fab.driftOf := by
  rw [State.reachesChip, State.moveCell_driftOf, State.countCell_fab, State.takePlace_driftOf]

theorem State.driftOf_returned : (s.returned k p q f r).driftOf p = s.driftOf p - 1 := by
  rw [State.returned, State.driftOf_congr (State.driftAccess_driftOf ..), State.driftOf_countDrift,
    State.driftOf_congr (State.reachesChip_driftOf ..)]

theorem State.frame_returned : (s.returned k p q f r).frame q.frame =
    some { f with cells := setAt f.cells q.idx { r with place := .shared } } := by
  rw [State.returned, State.frame_congr (State.driftAccess_frames ..), State.frame_congr (State.countDrift_frames ..),
    State.reachesChip, State.frame_moveCell]

end

section
variable {s : State} {g : Fin 7} {p : Port} {c : TrafficClass}

theorem driftReturn_returns {q : QCell} {f : Frame} {r : CellRec}
    (hq : firstOf .middle (s.voq (voqKey g.val p.val c.val)).cells = some q) (hf : s.frame q.frame = some f)
    (hr : f.cells[q.idx]? = some r)
    (hdue : s.returnDue (voqKey g.val p.val c.val) (s.voq (voqKey g.val p.val c.val)) = true)
    (hcap : s.capRoom 1 = true) (hdram : s.dramRoom = true) :
    Answers (.driftReturn g p c) s fun t =>
      t.driftOf p.val = s.driftOf p.val - 1 ∧
      ∃ u, t.frame q.frame = some u ∧ u.cells = setAt f.cells q.idx { r with place := .shared } := by
  refine ⟨s.returned (voqKey g.val p.val c.val) p.val q f r, ?_, State.driftOf_returned .., _,
    State.frame_returned .., rfl⟩
  rw [exec_driftReturn, execDriftReturn]
  dsimp only
  rw [hq]
  dsimp only
  rw [hf]
  dsimp only
  rw [hr]
  dsimp only
  rw [if_pos (by simp [hdue, hcap, hdram])]
  rfl

/-- No return is due at or above EGRESUME. -/
theorem State.returnDue_of_resume {v : Voq} (h : s.egResume p.val c.val ≤ s.egCells p.val c.val) :
    s.returnDue (voqKey g.val p.val c.val) v = false := by
  rw [State.returnDue, voqKey_port (by omega) c.isLt, voqKey_class c.isLt]
  simp [Nat.not_lt.mpr h]

theorem driftReturn_waits (h : s.egResume p.val c.val ≤ s.egCells p.val c.val) :
    Answers (.driftReturn g p c) s fun t => t = s := by
  refine ⟨s, ?_, rfl⟩
  rw [exec_driftReturn, execDriftReturn]
  dsimp only
  rw [State.returnDue_of_resume h]
  split
  · rfl
  · split
    · rfl
    · split <;> rfl

end

/-! ## The drain of the region (R94) -/

theorem State.bit_draining (s : State) (v : Bool) : (s.setBit Reg.FAB_DRIFTSTAT 25 v).bit Reg.FAB_DRIFTSTAT 25 = v :=
  State.bit_setBit_same _ _ _ _ (by omega)

/-- While the region drains it takes no cell. -/
theorem State.driftRoom_of_draining {s : State} (h : s.bit Reg.FAB_DRIFTSTAT 25 = true) (p : Nat) :
    s.driftRoom p = false := by
  simp [State.driftRoom, State.driftPlace, h]

theorem driftDrainStart_closes (s : State) :
    Answers .driftDrainStart s fun t =>
      t.bit Reg.FAB_DRIFTSTAT 25 = true ∧ (∀ p, t.driftRoom p = false) ∧
      ∀ k, k ≠ Reg.FAB_DRIFTSTAT → t.rd k = s.rd k :=
  ⟨s.setBit Reg.FAB_DRIFTSTAT 25 true, rfl, s.bit_draining true,
    State.driftRoom_of_draining (s.bit_draining true), fun _ hk => State.rd_setBit_other _ _ hk⟩

theorem driftDrainDone_reports {s : State} (hdraining : s.bit Reg.FAB_DRIFTSTAT 25 = true) (hempty : s.driftCells = 0) :
    Answers .driftDrainDone s fun t =>
      t.bit Reg.FAB_DRIFTSTAT 25 = false ∧ t.fab = { s.fab with memReady := true } ∧
      ∀ k, k ≠ Reg.FAB_DRIFTSTAT → t.rd k = s.rd k := by
  refine ⟨{ s.setBit Reg.FAB_DRIFTSTAT 25 false with fab := { s.fab with memReady := true } }, ?_, ?_, rfl,
    fun k hk => ?_⟩
  · rw [exec_driftDrainDone, execDriftDrainDone, if_pos (by simp [hdraining, hempty])]
  · rw [State.bit_congr (State.rd_with_fab ..), State.bit_draining]
  · rw [State.rd_with_fab, State.rd_setBit_other _ _ hk]

/-- Settles O22: the check of the scheduler's copies has four outcomes; a spill and a return move one cell and
count it, and a drain only closes the region and reports it empty. -/
theorem fabricSchedulerAndDriftCommandsComplete : Obligations.FabricSchedulerAndDriftCommandsComplete :=
  ⟨fun _ _ => schedulerCellTime_stopped, fun _ _ => schedulerCellTime_outcome,
    fun _ _ => schedulerCellTime_unchecked, fun _ _ => schedulerSwap_asks, fun _ _ _ _ => driftSpill_nothing,
    fun _ _ _ _ _ _ _ hq hf hr hroom hmay => driftSpill_blocked hq hf hr hmay hroom,
    fun _ _ _ _ _ _ _ hq hf hr hroom hmay => driftSpill_spills hq hf hr hmay hroom,
    fun _ _ _ _ _ _ _ => driftReturn_returns, fun _ _ _ _ => driftReturn_waits, driftDrainStart_closes,
    fun _ => driftDrainDone_reports⟩

end Sys2Proof.Machine
end

section
/-!
PROOFS. The flow table and the TCAM as tables that are searched (R117, R121): where the candidate slots of a key
lie, and which entry a TCAM lookup finds.
-/

namespace Sys2Proof.Machine

open Sys2Proof

/-! ## Candidate slots (R121) -/

/-- The 16 bits of a hash that choose a slot choose one of the 40,960 of its way. -/
theorem flowSlot_way (h : Word) (k : Nat) :
    40960 * k ≤ flowSlot h k ∧ flowSlot h k < 40960 * (k + 1) := by
  have hh := h.isLt
  unfold flowSlot
  dsimp only
  split
  · omega
  · split
    · omega
    · split <;> omega

theorem mem_flowCandidates {h : Word} {c : Nat} : c ∈ flowCandidates h ↔ ∃ k, k < 4 ∧ flowSlot h k = c := by
  simp [flowCandidates]

theorem lt_flowSlots_of_mem {h : Word} {c : Nat} (hc : c ∈ flowCandidates h) : c < flowSlots := by
  obtain ⟨k, hk, rfl⟩ := mem_flowCandidates.mp hc
  have := (flowSlot_way h k).2
  unfold flowSlots
  omega

theorem State.flowFind_eq_some {s : State} {key : List Word} {c : Nat} (h : s.flowFind key = some c) :
    c ∈ flowCandidates (s.hashOf key) ∧ s.flowValid c = true ∧ flowKeyOf (s.flowEntry c) = key := by
  unfold State.flowFind at h
  have hfound := List.find?_some h
  rw [Bool.and_eq_true, beq_iff_eq] at hfound
  exact ⟨List.mem_of_find?_eq_some h, hfound⟩

/-- Settles O26: 5/8 of a 16-bit slice is below 40,960, and the lookup searches the candidates alone. -/
theorem flowCandidateSlots : Obligations.FlowCandidateSlots := by
  refine ⟨fun h k => flowSlot_way h k.val, fun s key c hc => ?_⟩
  obtain ⟨hmem, hvalid, hkey⟩ := State.flowFind_eq_some hc
  exact ⟨lt_flowSlots_of_mem hmem, hmem, hvalid, hkey⟩

/-! ## A search in a store finds the lowest key -/

section
variable {α : Type} {m : Store α}

/-- The entries stand by rising key. -/
abbrev Store.Sorted (m : Store α) : Prop := m.Pairwise (fun a b => a.1 < b.1)

theorem Store.sorted_of_rising (h : Store.rising m = true) : m.Sorted := by
  induction m with
  | nil => exact List.Pairwise.nil
  | cons e t ih =>
    rw [Store.rising_cons, Bool.and_eq_true, List.all_eq_true] at h
    exact List.Pairwise.cons (fun x hx => of_decide_eq_true (h.1 x hx)) (ih h.2)

/-- A slice counted from its first key is sorted as the store is. -/
theorem Store.sorted_slice (h : m.Sorted) (lo hi : Nat) : (Store.slice m lo hi 0 lo).Sorted := by
  rw [Store.slice, Store.Sorted, List.pairwise_map]
  refine (h.filter _).imp_of_mem fun {a b} ha _ hab => ?_
  have hrange := (List.mem_filter.mp ha).2
  rw [Bool.and_eq_true, decide_eq_true_eq] at hrange
  dsimp only
  omega

/-- No entry below the one that is found passes the test. -/
theorem Store.find?_least (h : m.Sorted) {q : Nat × α → Bool} {x y : Nat × α} (hx : m.find? q = some x)
    (hy : y ∈ m) (hlt : y.1 < x.1) : q y = false := by
  obtain ⟨-, before, after, rfl, hbefore⟩ := List.find?_eq_some_iff_append.mp hx
  obtain ⟨-, hafter, -⟩ := List.pairwise_append.mp h
  rcases List.mem_append.mp hy with hy | hy
  · simpa using hbefore y hy
  · rcases List.mem_cons.mp hy with rfl | hy
    · omega
    · have := List.rel_of_pairwise_cons hafter hy
      omega

theorem Store.mem_of_get_ne {d : Nat → α} {k : Nat} (h : Store.get d m k ≠ d k) : (k, Store.get d m k) ∈ m := by
  unfold Store.get at h ⊢
  split
  · next v hv => exact Store.mem_of_find hv
  · next hv => simp [hv] at h

theorem Store.mem_slice {lo hi k : Nat} {v : α} (h : (lo + k, v) ∈ m) (hk : lo + k < hi) :
    (k, v) ∈ Store.slice m lo hi 0 lo :=
  List.mem_map.mpr ⟨(lo + k, v), List.mem_filter.mpr ⟨h, by simp [hk]⟩, by simp⟩

theorem Store.lt_of_mem_slice {lo hi : Nat} {x : Nat × α} (h : x ∈ Store.slice m lo hi 0 lo) : lo + x.1 < hi := by
  obtain ⟨y, hy, rfl⟩ := List.mem_map.mp h
  have hrange := (List.mem_filter.mp hy).2
  rw [Bool.and_eq_true, decide_eq_true_eq, decide_eq_true_eq] at hrange
  dsimp only
  omega

end

/-! ## Bits of words and of little-endian numbers -/

/-- A masked difference is 0 where the two numbers agree in every masked bit. -/
theorem xor_and_eq_zero {x v m : Nat} :
    (x ^^^ v) &&& m = 0 ↔ ∀ i, m.testBit i = true → v.testBit i = x.testBit i := by
  constructor
  · intro h i hi
    have hbit := congrArg (fun n => n.testBit i) h
    rw [Nat.testBit_and, Nat.testBit_xor, hi, Nat.zero_testBit, Bool.and_true, bne_eq_false_iff_eq] at hbit
    exact hbit.symm
  · intro h
    refine Nat.eq_of_testBit_eq fun i => ?_
    cases hi : m.testBit i with
    | false => simp [hi]
    | true => simp [h i hi]

theorem natLE_cons (b : Byte) (bs : List Byte) : natLE (b :: bs) = 2 ^ 8 * natLE bs + b.toNat := by
  simp only [natLE, natBE, List.reverse_cons, List.foldl_append, List.foldl_cons, List.foldl_nil]
  omega

/-- Bit `j` of byte `c` of a little-endian number. -/
theorem testBit_natLE (bs : List Byte) (c : Nat) {j : Nat} (hj : j < 8) :
    (natLE bs).testBit (8 * c + j) = (bs.getD c 0).toNat.testBit j := by
  induction bs generalizing c with
  | nil => simp [natLE, natBE]
  | cons b bs ih =>
    rw [natLE_cons, Nat.testBit_two_pow_mul_add _ b.isLt]
    cases c with
    | zero => simp [hj]
    | succ c => rw [if_neg (by omega), show 8 * (c + 1) + j - 8 = 8 * c + j by omega, ih, List.getD_cons_succ]

theorem getD_bytesAt (bs : List Byte) (off : Nat) {len c : Nat} (h : c < len) :
    (bytesAt bs off len).getD c 0 = bs.getD (off + c) 0 := by
  simp [bytesAt, h]

theorem getBit_eq_testBit (w : Word) (i : Nat) : getBit w i = w.toNat.testBit i := rfl

/-! ## An entry that matches (R117) -/

/-- Half an entry agrees with 40 key bytes in every compared bit. -/
def State.TcamHalfAgrees (s : State) (e : Nat) (ks : List Byte) : Prop :=
  ∀ b j, b < 40 → j < 8 →
    getBit (s.rdLive liveBank (Reg.CLS_TCAM_w0_19 e (10 + b / 4))) (8 * (b % 4) + j) = true →
    getBit (s.rdLive liveBank (Reg.CLS_TCAM_w0_19 e (b / 4))) (8 * (b % 4) + j) =
      Nat.testBit (ks.getD b 0).toNat j

/-- One word of an entry agrees with the four key bytes that it is compared with. -/
theorem tcamWord_iff (ks : List Byte) (i : Nat) (v m : Word) :
    (((natLE (bytesAt ks (4 * i) 4)) ^^^ v.toNat) &&& m.toNat == 0) = true ↔
      ∀ c j, c < 4 → j < 8 → getBit m (8 * c + j) = true →
        getBit v (8 * c + j) = Nat.testBit (ks.getD (4 * i + c) 0).toNat j := by
  have hkey : ∀ c j, c < 4 → j < 8 →
      (natLE (bytesAt ks (4 * i) 4)).testBit (8 * c + j) = (ks.getD (4 * i + c) 0).toNat.testBit j :=
    fun c j hc hj => by rw [testBit_natLE _ _ hj, getD_bytesAt _ _ hc]
  simp only [getBit_eq_testBit]
  rw [beq_iff_eq, xor_and_eq_zero]
  constructor
  · intro h c j hc hj hm
    rw [h _ hm, hkey c j hc hj]
  · intro h n hn
    have hlt : n < 32 := by
      by_contra hge
      rw [Nat.testBit_lt_two_pow (m.isLt.trans_le (Nat.pow_le_pow_right (by omega) (by omega : 32 ≤ n)))] at hn
      cases hn
    rw [← Nat.div_add_mod n 8] at hn ⊢
    rw [h _ _ (by omega) (by omega) hn, hkey _ _ (by omega) (by omega)]

/-- Forty key bytes are ten words of four. -/
theorem State.tcamHalf_iff {s : State} (hpar : s.cls.badParity = []) (e : Nat) (ks : List Byte) :
    s.tcamHalf e ks = true ↔ s.TcamHalfAgrees e ks := by
  simp only [State.tcamHalf, hpar, Store.get_nil, Bool.not_false, Bool.true_and, List.all_eq_true, List.mem_range,
    tcamWord_iff]
  constructor
  · intro h b j hb hj hm
    rw [h (b / 4) (by omega) (b % 4) j (by omega) hj hm, Nat.div_add_mod]
  · intro h i hi c j hc hj hm
    have hb := h (4 * i + c) j (by omega) hj
    rw [show (4 * i + c) / 4 = i by omega, show (4 * i + c) % 4 = c by omega] at hb
    exact hb hm

/-- An entry matches by its bank, its width, its generation bit and every compared bit (R117). -/
theorem State.tcamMatches_iff {s : State} (hpar : s.cls.badParity = []) {g : Nat} (hg : g < 4) (banks : Nat)
    (wide : Bool) (key : List Byte) (e : Nat) :
    s.tcamMatches g banks wide key e = true ↔
      Nat.testBit banks (e / 512) = true ∧ s.tcamPaired e = wide ∧
      getBit (s.rdLive liveBank (Reg.CLS_TCAM_w20 e)) g = true ∧ s.TcamHalfAgrees e key ∧
      (wide = true → e / 512 % 2 = 0 ∧ s.TcamHalfAgrees (e + 512) (key.drop 40)) := by
  have hgen : Nat.testBit (s.fldLive liveBank (Reg.CLS_TCAM_w20 e) 0 4) g =
      getBit (s.rdLive liveBank (Reg.CLS_TCAM_w20 e)) g := by
    rw [State.fldLive, testBit_getBits, getBit_eq_testBit]
    simp [hg]
  rw [State.tcamMatches, hgen]
  cases wide with
  | false => simp [State.tcamHalf_iff hpar, and_assoc]
  | true =>
    simp only [Bool.true_and, Bool.not_true, Bool.false_or, Bool.and_eq_true, Bool.not_eq_true', beq_iff_eq,
      beq_eq_false_iff_ne, State.tcamHalf_iff hpar, true_imp_iff]
    have heven : e / 512 % 2 ≠ 1 ↔ e / 512 % 2 = 0 := by omega
    rw [heven]
    tauto

/-! ## The entries that a lookup searches -/

/-- Every row of the TCAM's block that is not its BLK_ID resets to 0. -/
theorem rowsOf_tcam_reset :
    ∀ r ∈ rowsOf 13, fieldsReset r.fields = 0 ∨ r.base = 0 ∧ r.s1 = 0 ∧ r.s2 = 0 := by
  decide +kernel

theorem resetWord_tcam {off : Nat} (hpos : 0 < off) (hlt : off < 0x100000) : resetWord (regKey 13 off) = 0 := by
  have hblock : regKey 13 off / 0x100000 = 13 := by unfold regKey; omega
  have hoff : regKey 13 off % 0x100000 = off := by unfold regKey; omega
  unfold resetWord
  split
  · next r hr =>
    rw [rowAt, hblock, hoff] at hr
    rcases rowsOf_tcam_reset r (List.mem_of_find?_eq_some hr) with h | ⟨hb, h1, h2⟩
    · rw [h]
      rfl
    · have hcovers := List.find?_some hr
      simp [Row.covers, hb, h1, h2] at hcovers
      omega
  · rfl

/-- The words of the live banks that a lookup searches, counted from word 20 of entry 0. -/
def State.tcamListed (s : State) : Store Word :=
  Store.slice s.live (bankSpan * liveBank + Reg.CLS_TCAM_w20 0) (bankSpan * liveBank + Reg.CLS_TCAM_w20 4096) 0
    (bankSpan * liveBank + Reg.CLS_TCAM_w20 0)

theorem State.sorted_tcamListed {s : State} (h : s.canonical = true) : s.tcamListed.Sorted := by
  simp only [State.canonical, Store.wf, Bool.and_eq_true] at h
  obtain ⟨⟨-, hrising, -⟩, -⟩ := h
  exact Store.sorted_slice (Store.sorted_of_rising hrising) _ _

theorem State.lt_of_mem_tcamListed {s : State} {x : Nat × Word} (h : x ∈ s.tcamListed) : x.1 / 128 < 4096 := by
  have := Store.lt_of_mem_slice h
  simp only [regKey] at this
  omega

/-- An entry of a generation has a GENMASK bit, and so a listed word. -/
theorem State.mem_tcamListed {s : State} {e g : Nat} (he : e < 4096)
    (h : getBit (s.rdLive liveBank (Reg.CLS_TCAM_w20 e)) g = true) :
    (128 * e, s.rdLive liveBank (Reg.CLS_TCAM_w20 e)) ∈ s.tcamListed := by
  have hdefault : liveDefault (bankSpan * liveBank + Reg.CLS_TCAM_w20 e) = 0 := by
    rw [liveDefault, Nat.mul_add_mod, Nat.mod_eq_of_lt (by simp only [regKey, bankSpan]; omega)]
    exact resetWord_tcam (by omega) (by omega)
  have hlisted := Store.mem_of_get_ne (d := liveDefault) (m := s.live)
    (k := bankSpan * liveBank + Reg.CLS_TCAM_w20 e) fun hno => by
      rw [State.rdLive, hno, hdefault] at h
      simp [getBit] at h
  have hkey : bankSpan * liveBank + Reg.CLS_TCAM_w20 0 + 128 * e = bankSpan * liveBank + Reg.CLS_TCAM_w20 e := by
    simp only [regKey]
    omega
  refine Store.mem_slice (by rw [hkey]; exact hlisted) ?_
  simp only [regKey]
  omega

/-- The test of a lookup on the listed words: the word is an entry's word 20, and the entry matches. -/
def State.tcamTest (s : State) (g p : Nat) (key : List Byte) (x : Nat × Word) : Bool :=
  x.1 % 128 == 0 && s.tcamMatches g (getBits (s.rdLive g (Reg.CLS_PROFILE_w0 p)) 0 8)
    (getBit (s.rdLive g (Reg.CLS_PROFILE_w0 p)) 8) key (x.1 / 128)

theorem State.tcamTest_entry (s : State) (g p : Nat) (key : List Byte) (e : Nat) (w : Word) :
    s.tcamTest g p key (128 * e, w) = s.tcamMatches g (getBits (s.rdLive g (Reg.CLS_PROFILE_w0 p)) 0 8)
      (getBit (s.rdLive g (Reg.CLS_PROFILE_w0 p)) 8) key e := by
  simp [State.tcamTest]

theorem State.tcamLookup_of_enabled {s : State} (hon : s.blkEn 0xD = true) (g p : Nat) (key : List Byte) :
    s.tcamLookup g p key = (s.tcamListed.find? (s.tcamTest g p key)).map (fun x => x.1 / 128) := by
  rw [State.tcamLookup, if_pos hon]
  rfl

/-- The entry that a lookup finds matches, and none below it does; where it finds none, none matches (R117). -/
theorem State.tcamLookup_lowest {s : State} (hcan : s.canonical = true) (hon : s.blkEn 0xD = true) {g p : Nat}
    {key : List Byte} {P : Nat → Prop}
    (hP : ∀ e, s.tcamMatches g (getBits (s.rdLive g (Reg.CLS_PROFILE_w0 p)) 0 8)
      (getBit (s.rdLive g (Reg.CLS_PROFILE_w0 p)) 8) key e = true ↔ P e)
    (hgen : ∀ e, P e → getBit (s.rdLive liveBank (Reg.CLS_TCAM_w20 e)) g = true) :
    (∀ e, s.tcamLookup g p key = some e → e < 4096 ∧ P e ∧ ∀ x, x < e → ¬ P x) ∧
    (s.tcamLookup g p key = none → ∀ e, e < 4096 → ¬ P e) := by
  have hlisted : ∀ e, e < 4096 → P e → (128 * e, s.rdLive liveBank (Reg.CLS_TCAM_w20 e)) ∈ s.tcamListed :=
    fun e he h => State.mem_tcamListed he (hgen e h)
  have htest : ∀ e w, s.tcamTest g p key (128 * e, w) = true ↔ P e := fun e w => by rw [State.tcamTest_entry, hP]
  rw [State.tcamLookup_of_enabled hon]
  refine ⟨fun e he => ?_, fun hnone e he h => ?_⟩
  · obtain ⟨x, hx, rfl⟩ := Option.map_eq_some_iff.mp he
    have hpass := List.find?_some hx
    have hlt := State.lt_of_mem_tcamListed (List.mem_of_find?_eq_some hx)
    rw [State.tcamTest, Bool.and_eq_true, beq_iff_eq, hP] at hpass
    refine ⟨hlt, hpass.2, fun y hy h => ?_⟩
    have hfail := Store.find?_least (State.sorted_tcamListed hcan) hx (hlisted y (by omega) h) (by dsimp only; omega)
    rw [(htest _ _).mpr h] at hfail
    cases hfail
  · exact List.find?_eq_none.mp (Option.map_eq_none_iff.mp hnone) _ (hlisted e he h) ((htest _ _).mpr h)

/-- Settles O27: the lookup searches the listed words by rising index, and every entry that matches is listed. -/
theorem tcamGivesTheLowestMatch : Obligations.TcamGivesTheLowestMatch := by
  intro s g p key hcan hon hpar hg wide banks half isMatch _
  exact State.tcamLookup_lowest hcan hon (State.tcamMatches_iff hpar hg banks wide key)
    fun e ⟨_, _, hgen, _⟩ => hgen

end Sys2Proof.Machine
end

section
/-!
PROOFS. The flow table's commands and its upkeep (R126 to R128, R136 to R138): what consecutive registers, a slot and
a store mapped entry by entry read as, then the commands.
-/

namespace Sys2Proof.Machine

open Sys2Proof

/-! ## Consecutive registers -/

theorem State.rd_wrWords_outside (s : State) (k k' : Nat) (ws : List Word) (h : k' < k ∨ k + 4 * ws.length ≤ k') :
    (s.wrWords k ws).rd k' = s.rd k' := by
  induction ws generalizing s k with
  | nil => rfl
  | cons w ws ih =>
    simp only [List.length_cons] at h
    rw [State.wrWords, ih _ _ (by omega), State.rd_wr_other _ _ (by omega)]

theorem State.rd_wrWords_inside (s : State) (k i : Nat) (ws : List Word) (h : i < ws.length) :
    (s.wrWords k ws).rd (k + 4 * i) = ws[i] := by
  induction ws generalizing s k i with
  | nil => exact absurd h (Nat.not_lt_zero i)
  | cons w ws ih =>
    rw [State.wrWords]
    cases i with
    | zero =>
      rw [State.rd_wrWords_outside _ _ _ _ (by omega), Nat.mul_zero, Nat.add_zero, State.rd_wr_same]
      rfl
    | succ i =>
      rw [show k + 4 * (i + 1) = k + 4 + 4 * i by omega, ih _ _ _ (by simpa using h)]
      rfl

/-- Words written to consecutive registers read back. -/
theorem State.rdWords_wrWords (s : State) (k : Nat) (ws : List Word) : (s.wrWords k ws).rdWords k ws.length = ws := by
  apply List.ext_getElem
  · simp [State.rdWords]
  · intro i h1 h2
    simp only [State.rdWords, List.getElem_map, List.getElem_range]
    exact State.rd_wrWords_inside _ _ _ _ h2

theorem State.rdWords_congr {s t : State} {k n : Nat} (h : ∀ i, i < n → t.rd (k + 4 * i) = s.rd (k + 4 * i)) :
    t.rdWords k n = s.rdWords k n :=
  List.map_congr_left fun i hi => h i (List.mem_range.mp hi)

/-- CLS_FLOWCMD is none of the words of CLS_FLOWDATA. -/
theorem flowdata_ne_flowcmd (i : Nat) : Reg.CLS_FLOWDATA 0 + 4 * i ≠ Reg.CLS_FLOWCMD := by
  simp only [regKey]
  omega

/-! ## A slot of the flow table -/

section
variable (s : State) (slot : Nat) (e : List Word)

@[simp] theorem State.rd_setFlow (k : Nat) : (s.setFlow slot e).rd k = s.rd k := rfl

theorem State.flowEntry_setFlow_same : (s.setFlow slot e).flowEntry slot = e := Store.get_set_same _ _ _ _

theorem State.flowEntry_setFlow_other {j : Nat} (h : j ≠ slot) : (s.setFlow slot e).flowEntry j = s.flowEntry j :=
  Store.get_set_other _ _ _ (Ne.symm h)

end

theorem State.flowEntry_congr {s t : State} (h : t.cls.flows = s.cls.flows) (slot : Nat) :
    t.flowEntry slot = s.flowEntry slot := by
  rw [State.flowEntry, h, State.flowEntry]

theorem State.rd_with_cls (t : State) (x : ClassifyState) (k : Nat) : ({ t with cls := x } : State).rd k = t.rd k := rfl

/-! ## GO (R127) -/

/-- CLS_FLOWCMD as GO leaves it. -/
def State.flowAsked (s : State) (op slot : Nat) : State :=
  ((s.setFld Reg.CLS_FLOWCMD 0 3 op).setFld Reg.CLS_FLOWCMD 3 18 slot).setBit Reg.CLS_FLOWCMD 30 true

section
variable (s : State) {op slot : Nat}

theorem State.rd_flowAsked_other {k : Nat} (hk : k ≠ Reg.CLS_FLOWCMD) : (s.flowAsked op slot).rd k = s.rd k := by
  unfold State.flowAsked
  simp only [State.rd_setBit_other _ _ hk, State.rd_setFld_other _ _ hk]

theorem State.flowAsked_cls : (s.flowAsked op slot).cls = s.cls := by
  rw [State.flowAsked, State.setBit_cls, State.setFld_cls, State.setFld_cls]

theorem State.flowAsked_fields (hop : op < 8) (hslot : slot < 2 ^ 18) :
    (s.flowAsked op slot).bit Reg.CLS_FLOWCMD 30 = true ∧ (s.flowAsked op slot).fld Reg.CLS_FLOWCMD 0 3 = op ∧
    (s.flowAsked op slot).fld Reg.CLS_FLOWCMD 3 18 = slot := by
  unfold State.flowAsked
  refine ⟨State.bit_setBit_same _ _ _ _ (by omega), ?_, ?_⟩
  · rw [State.fld_setBit_apart _ _ (by omega) (.inr (.inl (by omega))),
      State.fld_setFld_apart _ _ _ _ _ _ _ _ (by omega) (.inr (.inl (by omega))),
      State.fld_setFld_same _ _ _ _ _ (by omega)]
    exact Nat.mod_eq_of_lt hop
  · rw [State.fld_setBit_apart _ _ (by omega) (.inr (.inl (by omega))), State.fld_setFld_same _ _ _ _ _ (by omega)]
    exact Nat.mod_eq_of_lt hslot

theorem State.flowdata_flowAsked :
    (s.flowAsked op slot).rdWords (Reg.CLS_FLOWDATA 0) 16 = s.rdWords (Reg.CLS_FLOWDATA 0) 16 :=
  State.rdWords_congr fun i _ => s.rd_flowAsked_other (flowdata_ne_flowcmd i)

theorem State.flowGo_of_busy {s : State} (h : s.bit Reg.CLS_FLOWCMD 30 = true) : s.flowGo op slot = s := by
  rw [State.flowGo, if_pos h]

theorem State.flowGo_of_idle {s : State} (h : s.bit Reg.CLS_FLOWCMD 30 = false) :
    s.flowGo op slot = { s.flowAsked op slot with
      cls := { s.cls with
        queue := s.cls.queue ++ [.command op slot (s.rdWords (Reg.CLS_FLOWDATA 0) 16)] } } := by
  rw [← State.flowdata_flowAsked (op := op) (slot := slot), ← State.flowAsked_cls (op := op) (slot := slot),
    State.flowGo, if_neg (by simp [h])]
  rfl

end

/-- The operation code of a flow command. -/
theorem exec_flowcmd {i : Instr} {m : Master} {slot : BitVec 18} {op : Nat}
    (h : i = .flowcmdLookup m slot ∧ op = 1 ∨ i = .flowcmdInsert m slot ∧ op = 2 ∨
      i = .flowcmdDeleteKey m slot ∧ op = 3 ∨ i = .flowcmdReadSlot m slot ∧ op = 4 ∨
      i = .flowcmdDeleteSlot m slot ∧ op = 5 ∨ i = .flowcmdFlush m slot ∧ op = 6) (s : State) :
    exec i s = flowCommandGo m op slot s ∧ op < 8 := by
  rcases h with ⟨rfl, rfl⟩ | ⟨rfl, rfl⟩ | ⟨rfl, rfl⟩ | ⟨rfl, rfl⟩ | ⟨rfl, rfl⟩ | ⟨rfl, rfl⟩ <;>
    exact ⟨rfl, by decide⟩

theorem flowcmd_queues_or_ignored {i : Instr} {s : State} {m : Master} {slot : BitVec 18} {op : Nat}
    (hi : i = .flowcmdLookup m slot ∧ op = 1 ∨ i = .flowcmdInsert m slot ∧ op = 2 ∨
      i = .flowcmdDeleteKey m slot ∧ op = 3 ∨ i = .flowcmdReadSlot m slot ∧ op = 4 ∨
      i = .flowcmdDeleteSlot m slot ∧ op = 5 ∨ i = .flowcmdFlush m slot ∧ op = 6)
    (hadm : s.admits m Reg.CLS_FLOWCMD) :
    Answers i s fun t =>
      (if s.bit Reg.CLS_FLOWCMD 30 then t.regs = s.regs ∧ t.cls = s.cls
      else t.bit Reg.CLS_FLOWCMD 30 = true ∧ t.fld Reg.CLS_FLOWCMD 0 3 = op ∧
        t.fld Reg.CLS_FLOWCMD 3 18 = slot.toNat ∧
        t.cls.queue = s.cls.queue ++ [.command op slot.toNat (s.rdWords (Reg.CLS_FLOWDATA 0) 16)] ∧
        t.cls.flows = s.cls.flows) ∧
      ∀ k, k ≠ Reg.CLS_FLOWCMD → t.rd k = s.rd k := by
  obtain ⟨hexec, hop⟩ := exec_flowcmd hi s
  refine ⟨_, by rw [hexec, flowCommandGo, guardReg_of_admits hadm], ?_⟩
  cases hbusy : s.bit Reg.CLS_FLOWCMD 30 with
  | true =>
    rw [State.flowGo_of_busy (s := s.reply 0) hbusy]
    exact ⟨⟨rfl, rfl⟩, fun _ _ => rfl⟩
  | false =>
    obtain ⟨hgo, hcode, hslot⟩ := State.flowAsked_fields (s.reply 0) hop slot.isLt
    rw [State.flowGo_of_idle (s := s.reply 0) hbusy]
    refine ⟨⟨?_, ?_, ?_, rfl, rfl⟩, fun k hk => ?_⟩
    · rw [State.bit_congr (State.rd_with_cls ..), hgo]
    · rw [State.fld_congr (State.rd_with_cls ..), hcode]
    · rw [State.fld_congr (State.rd_with_cls ..), hslot]
    · rw [State.rd_with_cls, State.rd_flowAsked_other _ hk, State.rd_reply]

/-! ## The oldest operation executes (R126, R127) -/

/-- The state in which the oldest operation has left the queue. -/
def State.flowTaken (s : State) (rest : List FlowOp) : State := { s with cls := { s.cls with queue := rest } }

/-- CLS_FLOWCMD as the end of a command leaves it. -/
def State.flowEnded (s : State) (res : Nat) : State :=
  (s.setFld Reg.CLS_FLOWCMD 24 4 res).setBit Reg.CLS_FLOWCMD 30 false

section
variable (s : State) {res : Nat}

theorem State.rd_flowEnded_other {k : Nat} (hk : k ≠ Reg.CLS_FLOWCMD) : (s.flowEnded res).rd k = s.rd k := by
  rw [State.flowEnded, State.rd_setBit_other _ _ hk, State.rd_setFld_other _ _ hk]

theorem State.flowEnded_cls : (s.flowEnded res).cls = s.cls := by
  rw [State.flowEnded, State.setBit_cls, State.setFld_cls]

theorem State.flowEnded_fields (hres : res < 16) :
    (s.flowEnded res).bit Reg.CLS_FLOWCMD 30 = false ∧ (s.flowEnded res).fld Reg.CLS_FLOWCMD 24 4 = res := by
  unfold State.flowEnded
  refine ⟨State.bit_setBit_same _ _ _ _ (by omega), ?_⟩
  rw [State.fld_setBit_apart _ _ (by omega) (.inr (.inl (by omega))), State.fld_setFld_same _ _ _ _ _ (by omega)]
  exact Nat.mod_eq_of_lt hres

theorem State.keeps_wakeRoom : s.Keeps (fun p => [Part.rtk].contains p) s.wakeRoom :=
  State.wakeRoom_keeps (all_contains _) (State.Keeps.refl _ s)

@[simp] theorem State.wakeRoom_regs : s.wakeRoom.regs = s.regs := s.keeps_wakeRoom.same .regs rfl

@[simp] theorem State.wakeRoom_cls : s.wakeRoom.cls = s.cls := s.keeps_wakeRoom.same .cls rfl

@[simp] theorem State.rd_wakeRoom (k : Nat) : s.wakeRoom.rd k = s.rd k := by
  rw [State.rd, State.wakeRoom_regs, State.rd]

end

section
variable {s : State} {op slot : Nat} {d : List Word} {rest : List FlowOp}
variable (hq : s.cls.queue = .command op slot d :: rest) (hup : s.up .classify = true)
include hq hup

theorem execFlowQueueExecute_of_command :
    execFlowQueueExecute s = .next (((s.flowTaken rest).flowCommand op slot d).2.flowEnded
      ((s.flowTaken rest).flowCommand op slot d).1).wakeRoom := by
  rw [execFlowQueueExecute, if_pos hup, hq]
  rfl

/-- A command ends by showing its result and clearing BUSY; the rest is what the command itself leaves. -/
theorem flowQueueExecute_ends {res : Nat} {u : State} (hcmd : (s.flowTaken rest).flowCommand op slot d = (res, u))
    (hres : res < 16) :
    Answers .flowQueueExecute s fun t =>
      t.bit Reg.CLS_FLOWCMD 30 = false ∧ t.fld Reg.CLS_FLOWCMD 24 4 = res ∧ t.cls = u.cls ∧
      ∀ k, k ≠ Reg.CLS_FLOWCMD → t.rd k = u.rd k := by
  obtain ⟨hbusy, hshown⟩ := u.flowEnded_fields hres
  refine ⟨_, by rw [exec_flowQueueExecute, execFlowQueueExecute_of_command hq hup, hcmd], ?_, ?_, ?_,
    fun k hk => ?_⟩
  · rw [State.bit_congr (State.rd_wakeRoom ..), hbusy]
  · rw [State.fld_congr (State.rd_wakeRoom ..), hshown]
  · rw [State.wakeRoom_cls, State.flowEnded_cls]
  · rw [State.rd_wakeRoom, State.rd_flowEnded_other _ hk]

end

section
variable {s : State} {slot : Nat} {d : List Word} {rest : List FlowOp} (hup : s.up .classify = true)
include hup

theorem flowQueueExecute_deleteSlot (hq : s.cls.queue = .command 5 slot d :: rest) (hslot : slot < flowSlots) :
    Answers .flowQueueExecute s fun t =>
      t.cls.queue = rest ∧ t.bit Reg.CLS_FLOWCMD 30 = false ∧
      t.fld Reg.CLS_FLOWCMD 24 4 = (if s.flowValid slot then 0 else 2) ∧
      (s.flowValid slot = true → t.flowEntry slot = []) ∧
      (∀ j, j ≠ slot → t.flowEntry j = s.flowEntry j) ∧
      ∀ k, k ≠ Reg.CLS_FLOWCMD → t.rd k = s.rd k := by
  have hthere : ¬ flowSlots ≤ slot := Nat.not_le.mpr hslot
  cases hv : s.flowValid slot with
  | true =>
    have hv' : (s.flowTaken rest).flowValid slot = true := hv
    have hcmd : (s.flowTaken rest).flowCommand 5 slot d = (0, (s.flowTaken rest).setFlow slot []) := by
      rw [State.flowCommand]
      simp only [if_neg hthere, hv', if_true]
    obtain ⟨t, ht, hbusy, hres, hcls, hrd⟩ := flowQueueExecute_ends hq hup hcmd (by omega)
    have hentry := State.flowEntry_congr (congrArg ClassifyState.flows hcls)
    refine ⟨t, ht, ?_, hbusy, hres, fun _ => ?_, fun j hj => ?_, hrd⟩
    · rw [hcls]
      rfl
    · rw [hentry, State.flowEntry_setFlow_same]
    · rw [hentry, State.flowEntry_setFlow_other _ _ _ hj]
      rfl
  | false =>
    have hv' : (s.flowTaken rest).flowValid slot = false := hv
    have hcmd : (s.flowTaken rest).flowCommand 5 slot d = (2, s.flowTaken rest) := by
      rw [State.flowCommand]
      simp only [if_neg hthere, hv', Bool.false_eq_true, if_false]
    obtain ⟨t, ht, hbusy, hres, hcls, hrd⟩ := flowQueueExecute_ends hq hup hcmd (by omega)
    refine ⟨t, ht, ?_, hbusy, hres, fun h => absurd h (by simp), fun j _ => ?_, hrd⟩
    · rw [hcls]
      rfl
    · rw [State.flowEntry_congr (congrArg ClassifyState.flows hcls)]
      rfl

theorem flowQueueExecute_readSlot (hq : s.cls.queue = .command 4 slot d :: rest) (hslot : slot < flowSlots)
    (hv : s.flowValid slot = true) (hlen : (s.flowEntry slot).length = 16) :
    Answers .flowQueueExecute s fun t =>
      t.bit Reg.CLS_FLOWCMD 30 = false ∧ t.fld Reg.CLS_FLOWCMD 24 4 = 0 ∧
      t.rdWords (Reg.CLS_FLOWDATA 0) 16 = s.flowEntry slot ∧ t.cls.flows = s.cls.flows := by
  have hv' : (s.flowTaken rest).flowValid slot = true := hv
  have hcmd : (s.flowTaken rest).flowCommand 4 slot d = (0, (s.flowTaken rest).setFlowData (s.flowEntry slot)) := by
    rw [State.flowCommand]
    simp only [if_neg (Nat.not_le.mpr hslot), hv', if_true]
    rfl
  obtain ⟨t, ht, hbusy, hres, hcls, hrd⟩ := flowQueueExecute_ends hq hup hcmd (by omega)
  refine ⟨t, ht, hbusy, hres, ?_, ?_⟩
  · rw [State.rdWords_congr fun i _ => hrd _ (flowdata_ne_flowcmd i), State.setFlowData, ← hlen,
      State.rdWords_wrWords]
  · rw [hcls, (State.setFlowData_keeps (all_contains [Part.regs]) (State.Keeps.refl _ _) _).same .cls rfl]
    rfl

theorem flowQueueExecute_lookup_misses {key : List Word} (hq : s.cls.queue = .command 1 slot d :: rest)
    (hkey : flowKeyOf d = key) (hmiss : s.flowFind key = none) :
    Answers .flowQueueExecute s fun t =>
      t.bit Reg.CLS_FLOWCMD 30 = false ∧ t.fld Reg.CLS_FLOWCMD 24 4 = 2 ∧ t.cls.flows = s.cls.flows ∧
      ∀ k, k ≠ Reg.CLS_FLOWCMD → t.rd k = s.rd k := by
  have hmiss' : (s.flowTaken rest).flowFind (flowKeyOf d) = none := by
    rw [hkey]
    exact hmiss
  have hcmd : (s.flowTaken rest).flowCommand 1 slot d = (2, s.flowTaken rest) := by
    simp only [State.flowCommand, hmiss']
  obtain ⟨t, ht, hbusy, hres, hcls, hrd⟩ := flowQueueExecute_ends hq hup hcmd (by omega)
  refine ⟨t, ht, hbusy, hres, ?_, hrd⟩
  rw [hcls]
  rfl

theorem flowQueueExecute_flush (hq : s.cls.queue = .command 6 slot d :: rest) :
    Answers .flowQueueExecute s fun t =>
      t.bit Reg.CLS_FLOWCMD 30 = false ∧ t.fld Reg.CLS_FLOWCMD 24 4 = 0 ∧
      t.cls.flows = s.cls.flows.filter (fun x => getBit (x.2.getD 0 0) 26) := by
  obtain ⟨t, ht, hbusy, hres, hcls, -⟩ := flowQueueExecute_ends hq hup rfl (by omega)
  exact ⟨t, ht, hbusy, hres, congrArg ClassifyState.flows hcls⟩

end

/-! ## Aging (R128) -/

section
variable {s : State} {slot : Fin 163840}

theorem agingSweep_pinned (hpin : getBit ((s.flowEntry slot.val).getD 0 0) 26 = true) :
    Answers (.agingSweep slot) s fun t => t = s :=
  ⟨s, by rw [exec_agingSweep, execAgingSweep, if_pos (by simp only [hpin, Bool.or_true, Bool.true_or])], rfl⟩

theorem agingSweep_expires (hup : s.up .classify = true) (hon : s.fld Reg.CLS_AGECFG 0 6 ≠ 0)
    (hv : s.flowValid slot.val = true) (hpin : getBit ((s.flowEntry slot.val).getD 0 0) 26 = false)
    (hquiet : s.bit Reg.CLS_AGECFG 8 = false)
    (hage : 1000 * s.flowTimeout (getBits ((s.flowEntry slot.val).getD 0 0) 21 3) <
      (2 ^ 32 + s.classifyMs - ((s.flowEntry slot.val).getD 11 0).toNat) % 2 ^ 32) :
    Answers (.agingSweep slot) s fun t =>
      t.flowEntry slot.val = [] ∧ (∀ j, j ≠ slot.val → t.flowEntry j = s.flowEntry j) ∧
      ∀ k, k ≠ Cnt.CLS_FLOW_AGED → k ≠ Cnt.CLS_FLOW_AGED + 4 → t.rd k = s.rd k := by
  have hquiet' : ((s.setFlow slot.val []).bump Cnt.CLS_FLOW_AGED).bit Reg.CLS_AGECFG 8 = false := by
    rw [State.bit_congr (State.rd_bump _ _ _ (by decide) (by decide))]
    exact hquiet
  have hentry := State.flowEntry_congr (s := s.setFlow slot.val [])
    (congrArg ClassifyState.flows (State.bump_cls (s.setFlow slot.val []) Cnt.CLS_FLOW_AGED))
  have hexpired : ¬ _ ≤ _ := Nat.not_le.mpr hage
  refine ⟨(s.setFlow slot.val []).bump Cnt.CLS_FLOW_AGED, ?_, ?_, fun j hj => ?_, fun k hk hk' => ?_⟩
  · rw [exec_agingSweep, execAgingSweep, if_neg (by simp only [hup, hon, hv, hpin, hquiet, hexpired,
      decide_false, Bool.not_true, Bool.false_and, Bool.or_false, not_false_eq_true, Bool.false_eq_true])]
    simp only [hquiet', Bool.false_eq_true, if_false]
  · rw [hentry, State.flowEntry_setFlow_same]
  · rw [hentry, State.flowEntry_setFlow_other _ _ _ hj]
  · rw [State.rd_bump _ _ _ hk hk', State.rd_setFlow]

end

/-! ## Generations (R136, R137) -/

theorem Store.find_mapVals {α β : Type} (m : Store α) (g : α → β) (k : Nat) :
    Store.find (m.map (fun e => (e.1, g e.2))) k = (Store.find m k).map g := by
  induction m with
  | nil => rfl
  | cons e t ih =>
    simp only [List.map_cons, Store.find, ih]
    split <;> rfl

/-- The state with an operation done on every frame. -/
def State.mapFrames (s : State) (g : Frame → Frame) : State :=
  { s with frames := s.frames.map (fun e => (e.1, e.2.map g)) }

theorem State.frame_mapFrames (s : State) (g : Frame → Frame) (f : Nat) :
    (s.mapFrames g).frame f = (s.frame f).map g := by
  simp only [State.frame, State.mapFrames, Store.get, Store.find_mapVals]
  cases Store.find s.frames f <;> rfl

section
variable (s : State) (g : Gen)

theorem State.genState_setGenState {n : Nat} (hn : n < 4) : (s.setGenState g.val n).genState g.val = n := by
  rw [State.genState, State.setGenState, State.fld_setFld_same _ _ _ _ _ (by omega)]
  exact Nat.mod_eq_of_lt hn

theorem State.rd_setGenState_other (n : Nat) {k : Nat} (hk : k ≠ Reg.CLS_GENSTAT) :
    (s.setGenState g.val n).rd k = s.rd k := State.rd_setFld_other _ _ hk

theorem State.inFlight_setGenState (n : Nat) : (s.setGenState g.val n).inFlight g.val = s.inFlight g.val :=
  State.fld_setFld_apart _ _ _ _ _ _ _ _ (by omega) (.inl (by simp only [regKey]; omega))

/-- What a forced retire does to a frame: one that carries the generation becomes an orphan. -/
def State.retiredFrame (v : Frame) : Frame := if v.stamped && v.gen == g.val then s.orphaned v else v

/-- The state in which generation `g` is lost and its sweep has begun. -/
def State.retiredByForce : State :=
  (({ s.mapFrames (s.retiredFrame g) with
      cls := { s.cls with lost := Store.set (fun _ => false) s.cls.lost g.val true } } : State).setFld
    (Reg.CLS_GENINFL g.val) 0 24 0).setGenState g.val 3

theorem State.frame_retiredByForce (f : Nat) :
    (s.retiredByForce g).frame f = (s.frame f).map (s.retiredFrame g) := s.frame_mapFrames _ f

theorem State.orphaned_eq (v : Frame) : s.orphaned v = { v with
    orphan := true
    latched := if v.exc = none ∧ (v.stage = .toStream ∨ v.stage = .toEnqueue) then some (s.fanoutOf v)
      else v.latched } := by
  simp [State.orphaned]

end

section
variable {s : State} {g : Gen}

theorem forcedRetireExpiry_waits (h : s.retireDue g.val = false) :
    Answers (.forcedRetireExpiry g) s fun t => t = s :=
  ⟨s, by rw [exec_forcedRetireExpiry, execForcedRetireExpiry, if_pos (.inr (.inr h))], rfl⟩

theorem forcedRetireExpiry_orphans (hretiring : s.genState g.val = 2) (hframes : s.inFlight g.val ≠ 0)
    (hdue : s.retireDue g.val = true) :
    Answers (.forcedRetireExpiry g) s fun t =>
      t.genState g.val = 3 ∧ t.inFlight g.val = 0 ∧
      (∀ f v, s.frame f = some v → v.stamped = true → v.gen = g.val →
        t.frame f = some { v with
          orphan := true,
          latched := if v.exc = none ∧ (v.stage = .toStream ∨ v.stage = .toEnqueue) then some (s.fanoutOf v)
            else v.latched }) ∧
      (∀ f v, s.frame f = some v → (v.stamped = false ∨ v.gen ≠ g.val) → t.frame f = some v) ∧
      ∀ k, k ≠ Reg.CLS_GENSTAT → k ≠ Reg.CLS_GENINFL g.val → t.rd k = s.rd k := by
  refine ⟨s.retiredByForce g, ?_, State.genState_setGenState _ g (by omega), ?_, fun f v hf hstamped hgen => ?_,
    fun f v hf hother => ?_, fun k hk hk' => ?_⟩
  · rw [exec_forcedRetireExpiry, execForcedRetireExpiry, if_neg (by simp [hretiring, hframes, hdue])]
    rfl
  · rw [State.retiredByForce, State.inFlight_setGenState]
    exact State.fld_setFld_same _ _ _ _ _ (by omega)
  · rw [State.frame_retiredByForce, hf, Option.map_some, State.retiredFrame, if_pos (by simp [hstamped, hgen]),
      State.orphaned_eq]
  · rw [State.frame_retiredByForce, hf, Option.map_some, State.retiredFrame,
      if_neg (by rcases hother with h | h <;> simp [h])]
  · rw [State.retiredByForce, State.rd_setGenState_other _ _ _ hk, State.rd_setFld_other _ _ hk']
    rfl

end

section
variable (s : State) (g : Gen)

theorem State.keeps_clearGenmask (n : Nat) : s.Keeps (fun p => [Part.live].contains p) (s.clearGenmask n) :=
  State.clearGenmask_keeps (all_contains _) (State.Keeps.refl _ s) n

/-- The tables as the sweep of generation `g` leaves them. -/
def State.sweptTables : State :=
  ({ s with
    cls := { s.cls with
      flows := s.cls.flows.map (fun (x : Nat × List Word) => (x.1, s.sweptFlow g.val x.2))
      lost := Store.set (fun _ => false) s.cls.lost g.val false } } : State).clearGenmask g.val

theorem State.sweptTables_flows :
    (s.sweptTables g).cls.flows = s.cls.flows.map (fun x => (x.1, s.sweptFlow g.val x.2)) := by
  rw [State.sweptTables, (State.keeps_clearGenmask _ _).same .cls rfl]

theorem State.rd_sweptTables (k : Nat) : (s.sweptTables g).rd k = s.rd k := by
  rw [State.rd, State.sweptTables, (State.keeps_clearGenmask _ _).same .regs rfl, State.rd]

/-- CLS_GENSTAT with the generation FREE and RETIRED, and FORCED set where it was retired by force. -/
def State.genFreed (forced : Bool) : State :=
  let t := (s.setGenState g.val 0).setBit Reg.CLS_GENSTAT (16 + g.val) true
  if forced then t.setBit Reg.CLS_GENSTAT (20 + g.val) true else t

theorem State.genFreed_fields (forced : Bool) :
    (s.genFreed g forced).genState g.val = 0 ∧ (s.genFreed g forced).bit Reg.CLS_GENSTAT (16 + g.val) = true ∧
    (forced = true → (s.genFreed g forced).bit Reg.CLS_GENSTAT (20 + g.val) = true) := by
  have hg := g.isLt
  have hfree := s.genState_setGenState g (n := 0) (by omega)
  unfold State.genFreed State.genState at *
  cases forced <;>
    simp (disch := omega) [State.bit_setBit_same, State.bit_setBit_apart, State.fld_setBit_apart, hfree]

theorem State.rd_genFreed_other (forced : Bool) {k : Nat} (hk : k ≠ Reg.CLS_GENSTAT) :
    (s.genFreed g forced).rd k = s.rd k := by
  unfold State.genFreed
  cases forced <;> simp [State.rd_setBit_other _ _ hk, State.rd_setGenState_other _ _ _ hk]

theorem State.genFreed_cls (forced : Bool) : (s.genFreed g forced).cls = s.cls := by
  unfold State.genFreed
  cases forced <;> rfl

theorem State.mem_irqs_irq (n : Nat) : n ∈ (s.irq n).irqs := by
  unfold State.irq
  split
  · next h => simpa using h
  · simp

theorem execGenerationSweepDone_of_sweeping {s : State} (h : s.genState g.val = 3) :
    execGenerationSweepDone g s = .next
      (((s.sweptTables g).genFreed g (Store.get (fun _ => false) s.cls.lost g.val)).irq 56) := by
  rw [execGenerationSweepDone, if_neg (not_not.mpr h)]
  rfl

end

theorem generationSweepDone_frees {s : State} {g : Gen} (h : s.genState g.val = 3) :
    Answers (.generationSweepDone g) s fun t =>
      t.genState g.val = 0 ∧ t.bit Reg.CLS_GENSTAT (16 + g.val) = true ∧ 56 ∈ t.irqs ∧
      (Store.get (fun _ => false) s.cls.lost g.val = true → t.bit Reg.CLS_GENSTAT (20 + g.val) = true) ∧
      t.cls.flows = s.cls.flows.map (fun x => (x.1, s.sweptFlow g.val x.2)) ∧
      ∀ k, k ≠ Reg.CLS_GENSTAT → t.rd k = s.rd k := by
  obtain ⟨hfree, hretired, hforced⟩ :=
    (s.sweptTables g).genFreed_fields g (Store.get (fun _ => false) s.cls.lost g.val)
  refine ⟨_, by rw [exec_generationSweepDone, execGenerationSweepDone_of_sweeping g h], ?_, ?_,
    State.mem_irqs_irq _ _, fun hlost => ?_, ?_, fun k hk => ?_⟩
  · rw [State.genState, State.fld_congr (State.rd_irq ..)]
    exact hfree
  · rw [State.bit_congr (State.rd_irq ..), hretired]
  · rw [State.bit_congr (State.rd_irq ..), hforced hlost]
  · rw [State.irq_cls, State.genFreed_cls, State.sweptTables_flows]
  · rw [State.rd_irq, State.rd_genFreed_other _ _ _ hk, State.rd_sweptTables]

/-! ## Parity of the TCAM (R138) -/

theorem tcamParityCheck_good (s : State) (e : Fin 4096) :
    Answers (.tcamParityCheck e false) s fun t => t = s := ⟨s, rfl, rfl⟩

/-- The state in which entry `e` matches no key and CLS_TCAMERR names it. -/
def State.tcamExcluded (s : State) (e : Fin 4096) : State :=
  (({ s with
      cls := { s.cls with badParity := Store.set (fun _ => false) s.cls.badParity e.val true } } : State).setFld
    Reg.CLS_TCAMERR 0 12 e.val).setBit Reg.CLS_TCAMERR 31 true

theorem tcamParityCheck_bad (s : State) (e : Fin 4096) : Answers (.tcamParityCheck e true) s fun t =>
    Store.get (fun _ => false) t.cls.badParity e.val = true ∧ t.fld Reg.CLS_TCAMERR 0 12 = e.val ∧
    t.bit Reg.CLS_TCAMERR 31 = true ∧ t.reports = s.reports ++ [⟨0x20C1, 0, s.nowNs⟩] ∧
    ∀ k, k ≠ Reg.CLS_TCAMERR → t.rd k = s.rd k := by
  refine ⟨(s.tcamExcluded e).fault 0x20C1 0, rfl, ?_, ?_, ?_, ?_, fun k hk => ?_⟩
  · rw [State.fault_cls, State.tcamExcluded, State.setBit_cls, State.setFld_cls, Store.get_set_same]
  · rw [State.fld_congr (State.rd_fault ..), State.tcamExcluded, State.fld_setBit_apart _ _ (by omega) (by omega),
      State.fld_setFld_same _ _ _ _ _ (by omega)]
    exact Nat.mod_eq_of_lt e.isLt
  · exact (State.bit_fault ..).trans (State.bit_setBit_same _ _ _ _ (by omega))
  · rw [State.reports_fault, State.tcamExcluded, State.setBit_reports, State.setFld_reports, State.setBit_nowNs,
      State.setFld_nowNs]
    rfl
  · rw [State.rd_fault, State.tcamExcluded, State.rd_setBit_other _ _ hk, State.rd_setFld_other _ _ hk,
      State.rd_with_cls]

/-- Settles O25: the commands share the effect of GO and of their end on CLS_FLOWCMD; aging, the generations and
the TCAM's parity are one command each. -/
theorem flowCommandsComplete : Obligations.FlowCommandsComplete :=
  ⟨⟨fun _ _ _ _ _ => flowcmd_queues_or_ignored,
      fun _ _ _ _ hq hslot hup => flowQueueExecute_deleteSlot hup hq hslot,
      fun _ _ _ _ hq hslot hv hup => flowQueueExecute_readSlot hup hq hslot hv,
      fun _ _ _ _ _ hq hup => flowQueueExecute_lookup_misses hup hq,
      fun _ _ _ _ hq hup => flowQueueExecute_flush hup hq⟩,
    fun _ _ => agingSweep_expires, fun _ _ => agingSweep_pinned, fun _ _ => forcedRetireExpiry_orphans,
    fun _ _ => forcedRetireExpiry_waits, fun _ _ => generationSweepDone_frees, tcamParityCheck_bad,
    tcamParityCheck_good⟩

end Sys2Proof.Machine
end

section
/-!
PROOFS. Classification of a frame and the length test at its tail (R106, R108, R130, R131): what the steps of a pass
leave of the frame, then the commands.
-/

namespace Sys2Proof.Machine

open Sys2Proof

/-! ## Registers and frames that the counters of classification leave -/

section
variable (s : State)

/-- Each class counts in a pair of its own, beside the actions of CLS_EXCFG. -/
theorem State.rd_countClass_excfg (code : Nat) : (s.countClass code).rd Reg.CLS_EXCFG = s.rd Reg.CLS_EXCFG := by
  unfold State.countClass
  split <;> rw [State.rd_monEvent _ _ _ (by decide), State.rd_bump _ _ _ (by decide) (by decide)]

theorem State.malAction_countClass (cls code : Nat) : (s.countClass cls).malAction code = s.malAction code :=
  State.fld_congr (s.rd_countClass_excfg cls) _ _

theorem State.countClass_frames (code : Nat) : (s.countClass code).frames = s.frames :=
  (State.countClass_keeps (all_contains [Part.regs, .saturated, .irqs]) (State.Keeps.refl _ s) code).same .frames rfl

theorem State.flowLookup_frames (key : List Word) (gen len : Nat) (first : Bool) (tcp : Option Nat) (low : Bool) :
    (s.flowLookup key gen len first tcp low).2.frames = s.frames :=
  (State.flowLookup_keeps (all_contains [Part.regs, .saturated, .irqs, .cls]) (State.Keeps.refl _ s) key gen len first
    tcp low).same .frames rfl

end

/-! ## Steps of a pass (R108) -/

/-- The frame as step 1 of its first pass stamps it (R135). -/
def Frame.stampedBy (v : Frame) (g : Nat) : Frame := { v with gen := g, stamped := true }

section
variable {s : State} {f : Nat} {v : Frame} {r : Parsed}

theorem metadata_length (lay : Option Layers) (key : List Word) (hash : Word) (action mal : Nat) (low : Bool)
    (fl : FlowResult) (hits : List Nat) (tcam l3 : Option Nat) (l3Ok : Bool) :
    (metadata r lay key hash action mal low fl hits tcam l3 l3Ok).length = 40 := by
  simp [metadata, hitVector]

/-- Steps 4 to 7 leave the frame for dispatch, as it was stamped and received, and no other frame changed. -/
theorem State.classify_effect (s : State) (f : Nat) (v : Frame) (view : FrameView) (r : Parsed) (mal : Nat) :
    ∃ (u : State) (w : Frame), s.classify f v view r mal = u.setFrame f w ∧ u.frames = s.frames ∧
      w.stage = .toDispatch ∧ w.gen = v.gen ∧ w.stamped = v.stamped ∧ w.bytes = v.bytes ∧
      w.mwords.length = 40 ∧ (v.rcPass = false → v.tailIn = true → w.len = v.wireLen) := by
  refine ⟨_, _, rfl, ?_, rfl, rfl, rfl, rfl, metadata_length .., fun hfirst htail => ?_⟩
  · split
    · rw [State.flowLookup_frames, State.bump_frames]
    · exact State.bump_frames _ _
  · simp [hfirst, htail]

/-- A first pass is stamped with the current generation (R135). -/
theorem State.stamp_first (hfirst : v.rcPass = false) :
    s.stamp v = (s.setFld (Reg.CLS_GENINFL s.curGen) 0 24 (s.inFlight s.curGen + 1),
      v.stampedBy s.curGen) := by
  rw [State.stamp, if_neg (by simp [hfirst])]
  rfl

/-- A frame without a malformed class, a fragment or an L3 length goes on to step 4 (R129 to R131). -/
theorem State.afterParse_of_clean (view : FrameView) (hexc : r.exc = 0) (hl3 : r.l3 = none) :
    s.afterParse f v view r = s.classify f v view r 0 := by
  simp [State.afterParse, hexc, hl3]

theorem State.windowWaits_of_tail (htail : v.tailIn = true) : s.windowWaits v r = false := by
  simp [State.windowWaits, htail]

/-- The state in which a frame of the current generation is counted at its lane (R107, R135). -/
def State.passBegun (s : State) (v : Frame) : State :=
  ({ s with freeCtr := s.freeCtr + 512 } : State).monEvent (0x140 + laneOf v)

theorem State.passBegun_frames : (s.passBegun v).frames = s.frames := by
  rw [State.passBegun, State.monEvent_frames]

theorem State.curGen_passBegun : (s.passBegun v).curGen = s.curGen :=
  State.fld_congr (State.rd_monEvent _ _ _ (by decide)) _ _

/-- The state in which the frame is stamped. -/
def State.passStamped (s : State) (f : Nat) (v : Frame) : State :=
  ((s.passBegun v).setFld (Reg.CLS_GENINFL s.curGen) 0 24 ((s.passBegun v).inFlight s.curGen + 1)).setFrame f
    (v.stampedBy s.curGen)

theorem State.frame_passStamped_other {g : Nat} (hg : g ≠ f) : (s.passStamped f v).frame g = s.frame g := by
  rw [State.passStamped, State.frame_setFrame_other _ _ hg,
    State.frame_congr ((State.setFld_frames ..).trans State.passBegun_frames)]

end

/-! ## CLASSIFY_PASS (R106, R108) -/

section
variable {s : State} {f : FrameId} {v : Frame} (hf : s.frame f = some v) (hstage : v.stage = .toClassify)
variable (htail : v.tailIn = true) (hfirst : v.rcPass = false) (hup : s.up .classify = true)
variable (hturn : s.heldUpAt f v [.retrain, .receiving, .toClassify] false = false)
include hf hstage htail hup hturn

theorem execClassifyPass_of_closed (hoff : s.blkEn 0x0C = false) :
    execClassifyPass f s = .next (s.classifyClosed f v) := by
  rw [execClassifyPass, hf]
  dsimp only
  rw [if_neg (by simp [hstage, htail, hup, hturn]), if_pos (by simp [hoff]), if_pos htail]

include hfirst

theorem execClassifyPass_of_clean {r : Parsed} (hon : s.blkEn 0x0C = true)
    (hparse : s.parse s.curGen ⟨v.bytes, s.freeCtr⟩ true (s.bit Reg.CLS_EXCFG 9)
      (s.fld (Reg.CLS_PORTCFG v.inPort) 0 6) = r) (hexc : r.exc = 0) (hl3 : r.l3 = none) :
    execClassifyPass f s = .next ((s.passStamped f v).classify f (v.stampedBy s.curGen)
      ⟨v.bytes, s.freeCtr⟩ r 0) := by
  have hstamp := State.stamp_first (s := s.passBegun v) hfirst
  rw [State.curGen_passBegun] at hstamp
  rw [execClassifyPass, hf]
  dsimp only
  rw [if_neg (by simp [hstage, htail, hup, hturn]), if_neg (by simp [hon]), if_neg (by simp [hfirst])]
  simp only [hfirst, htail, Bool.false_eq_true, if_false]
  rw [hparse, State.windowWaits_of_tail rfl, if_neg Bool.false_ne_true]
  change Host.Outcome.next (State.afterParse
    ((((s.passBegun v).stamp v).1).setFrame f ((s.passBegun v).stamp v).2) f ((s.passBegun v).stamp v).2 _ r) = _
  rw [hstamp, State.afterParse_of_clean _ hexc hl3]
  rfl

theorem classifyPass_clean {r : Parsed} (hon : s.blkEn 0x0C = true)
    (hparse : s.parse s.curGen ⟨v.bytes, s.freeCtr⟩ true (s.bit Reg.CLS_EXCFG 9)
      (s.fld (Reg.CLS_PORTCFG v.inPort) 0 6) = r) (hexc : r.exc = 0) (hl3 : r.l3 = none) :
    Answers (.classifyPass f) s fun t =>
      (∃ u, t.frame f = some u ∧ u.stage = .toDispatch ∧ u.gen = s.curGen ∧ u.stamped = true ∧
        u.bytes = v.bytes ∧ u.len = v.wireLen ∧ u.mwords.length = 40) ∧
      ∀ g, g ≠ f → t.frame g = s.frame g := by
  obtain ⟨u, w, heq, hframes, hdispatch, hgen, hstamped, hbytes, hmeta, hlen⟩ :=
    (s.passStamped f v).classify_effect f (v.stampedBy s.curGen) ⟨v.bytes, s.freeCtr⟩ r 0
  refine ⟨u.setFrame f w, ?_, ⟨w, State.frame_setFrame_same .., hdispatch, hgen, hstamped, hbytes,
    hlen hfirst htail, hmeta⟩, fun g hg => ?_⟩
  · rw [exec_classifyPass, execClassifyPass_of_clean hf hstage htail hfirst hup hturn hon hparse hexc hl3, heq]
  · rw [State.frame_setFrame_other _ _ hg, State.frame_congr hframes, State.frame_passStamped_other hg]

theorem classifyPass_closed (hin : v.inPort < 32) (hoff : s.blkEn 0x0C = false) :
    Answers (.classifyPass f) s fun t =>
      t = (s.noAdmit v.inPort).delFrame f ∧ t.frame f = none ∧ ∀ g, g ≠ f → t.frame g = s.frame g := by
  refine ⟨(s.noAdmit v.inPort).delFrame f, ?_, rfl, State.frame_delFrame_same .., fun g hg => ?_⟩
  · rw [exec_classifyPass, execClassifyPass_of_closed hf hstage htail hup hturn hoff, State.classifyClosed,
      if_pos (by simp [hin, hfirst, State.blkAccepts, hoff])]
  · rw [State.frame_delFrame_other _ hg, State.frame_congr (State.noAdmit_frames ..)]

end

/-! ## L3_LENGTH_TAIL_CHECK (R130, R131) -/

/-- A malformed frame under a trap action goes to port 32 or 33 with its class as code (R130). -/
theorem State.malformed_traps {s : State} {f : Nat} {v : Frame} {code : Nat} (hf : s.frame f = some v) (hash : Word)
    (htrap : s.malAction code ≠ 0) :
    ∃ u, (s.malformed f code hash).frame f = some u ∧ u.exc = some code ∧ u.stage = .toEnqueue ∧
      u.dest = 31 + s.malAction code ∧ u.mc = false := by
  unfold State.malformed
  split
  · next h => exact absurd h htrap
  · rw [State.toException, hf]
    exact ⟨_, State.frame_setFrame_same .., rfl, rfl, rfl, rfl⟩

/-- The frame past its length test. -/
def Frame.tailChecked (v : Frame) : Frame := { v with checkTail := false }

section
variable {s : State} {f : FrameId} {v : Frame} (hf : s.frame f = some v) (hstage : v.stage = .toEnqueue)
variable (hcheck : v.checkTail = true) (htail : v.tailIn = true) (hexc : v.exc = none)
include hf hstage hcheck htail hexc

theorem execL3LengthTailCheck_of_turn :
    execL3LengthTailCheck f s = .next
      (if v.l3Len ≤ v.bytes.length then s.setFrame f v.tailChecked
      else if ((s.setFrame f v.tailChecked).countClass 1).malAction 1 = 3 then
        (s.setFrame f v.tailChecked).countClass 1
      else ((s.setFrame f v.tailChecked).countClass 1).malformed f 1 v.hash) := by
  rw [execL3LengthTailCheck, hf]
  dsimp only
  rw [if_neg (by simp [hstage, hcheck, htail, hexc])]
  rfl

theorem l3LengthTailCheck_passes (hlen : v.l3Len ≤ v.bytes.length) :
    Answers (.l3LengthTailCheck f) s fun t =>
      t.frame f = some { v with checkTail := false } ∧ t.regs = s.regs ∧ ∀ g, g ≠ f → t.frame g = s.frame g :=
  ⟨s.setFrame f v.tailChecked, by
    rw [exec_l3LengthTailCheck, execL3LengthTailCheck_of_turn hf hstage hcheck htail hexc, if_pos hlen],
    State.frame_setFrame_same .., rfl, fun _ hg => State.frame_setFrame_other _ _ hg⟩

theorem l3LengthTailCheck_traps (hshort : v.bytes.length < v.l3Len)
    (haction : s.malAction 1 = 1 ∨ s.malAction 1 = 2) :
    Answers (.l3LengthTailCheck f) s fun t =>
      ∃ u, t.frame f = some u ∧ u.exc = some 1 ∧ u.stage = .toEnqueue ∧ u.dest = 31 + s.malAction 1 ∧
        u.mc = false := by
  have hstill : ((s.setFrame f v.tailChecked).countClass 1).malAction 1 = s.malAction 1 :=
    State.malAction_countClass _ 1 1
  have hframe : ((s.setFrame f v.tailChecked).countClass 1).frame f = some v.tailChecked := by
    rw [State.frame_congr (State.countClass_frames ..), State.frame_setFrame_same]
  have htrapped := State.malformed_traps (code := 1) hframe v.hash (by rw [hstill]; omega)
  rw [hstill] at htrapped
  exact ⟨_, by rw [exec_l3LengthTailCheck, execL3LengthTailCheck_of_turn hf hstage hcheck htail hexc,
    if_neg (by omega), if_neg (by rw [hstill]; omega)], htrapped⟩

end

/-- Settles O24: a clean frame is stamped and leaves its pass for dispatch, a closed block discards it, and the
length test at the tail passes or traps a frame that waits for the fabric. -/
theorem classifyFrameCommandsComplete : Obligations.ClassifyFrameCommandsComplete :=
  ⟨fun _ _ _ _ hf hstage htail hfirst hon hup hturn =>
      classifyPass_clean hf hstage htail hfirst hup hturn hon,
    fun _ _ _ hf hstage htail hfirst hin hoff hup hturn =>
      classifyPass_closed hf hstage htail hfirst hup hturn hin hoff,
    fun _ _ _ => l3LengthTailCheck_passes, fun _ _ _ => l3LengthTailCheck_traps⟩

end Sys2Proof.Machine
end

section
/-!
PROOFS. Stream filters (R83, R97, R135, R214): a frame longer than its filter's maximum is counted in TMF_SDU_DROP and
departs from its generation. Nothing in the statement bounds the generation that the frame is stamped with, and the
departure of a frame of no generation is counted in whatever register stands where CLS_GENINFL would.
-/

namespace Sys2Proof.Machine

open Sys2Proof

/-- A frame of 100 bytes for filter 5, stamped with a number that is none of the four generations: behind
CLS_GENINFL, it is the place of TMF_SDU_DROP of filter 5. -/
def strayFrame : Frame :=
  { stage := .toStream, tailIn := true, m56 := 0x805, len := 100, stamped := true
    gen := (Cnt.TMF_SDU_DROP 5 - Reg.CLS_GENINFL 0) / 4 }

/-- The stray frame at step 6, where filter 5 takes at most 64 bytes. -/
def strayState : State :=
  ((State.reset.setFrame 0 strayFrame).setBit (Reg.BLK_CTRL 0x16) 0 true).wrLive liveBank (Reg.TM_FILTER_w0 5) 0x400000

/-- The frame's departure takes back what its drop has counted. -/
theorem streamStage_strayState :
    ∃ t, exec (.streamStage 0) strayState = .next t ∧ t.rdN (Cnt.TMF_SDU_DROP 5) = 0 :=
  ⟨_, by rw [exec_streamStage, execStreamStage], by decide +kernel⟩

theorem rdN_bump_strayState : (strayState.bump (Cnt.TMF_SDU_DROP 5)).rdN (Cnt.TMF_SDU_DROP 5) = 1 := by decide +kernel

/-- Refutes O37: the clause of a frame longer than its filter's maximum says that TMF_SDU_DROP has counted it, of a
frame with any number as its generation. The departure of `strayFrame` decrements that counter in place of a count
of CLS_GENINFL. No stamp of R135 gives such a number, and the statement has no hypothesis that excludes it. -/
theorem not_streamAndTransmitCommandsComplete : ¬ Obligations.StreamAndTransmitCommandsComplete := by
  rintro ⟨⟨-, -, hfilter, -⟩, -⟩
  obtain ⟨-, hlong, -⟩ := hfilter strayState 0 strayFrame 5 (by decide +kernel) (by decide +kernel)
    (by decide +kernel) (by decide +kernel) (by decide +kernel) (by decide +kernel) (by decide +kernel) (by decide +kernel)
    (by decide +kernel)
  obtain ⟨t, hexec, -, -, hcount⟩ := hlong (by decide +kernel) (by decide +kernel) (by decide +kernel)
  obtain ⟨u, hstage, hzero⟩ := streamStage_strayState
  obtain rfl : u = t := Host.Outcome.next.inj (hstage.symm.trans hexec)
  have hone : u.rdN (Cnt.TMF_SDU_DROP 5) = 1 := (congrArg BitVec.toNat hcount).trans rdN_bump_strayState
  omega

end Sys2Proof.Machine
end

section
/-!
PROOFS. Gate lists (R205 to R210): the words of a pending list as they become live, what an entry that begins leaves
of a port's engine, then the commands.
-/

namespace Sys2Proof.Machine

open Sys2Proof

/-! ## Words copied from one live bank to another -/

section
variable {α : Type} {m : Store α}

theorem Store.find_none_of_lt {k : Nat} (h : ∀ e ∈ m, k < e.1) : Store.find m k = none := by
  induction m with
  | nil => rfl
  | cons e t ih =>
    rw [Store.find, if_neg (Nat.ne_of_gt (h e List.mem_cons_self)), ih fun x hx => h x (List.mem_cons_of_mem _ hx)]

/-- Entries written in rising order are read before what the store held. -/
theorem Store.get_setAll_of_sorted [DecidableEq α] (d : Nat → α) (m : Store α) {es : Store α} (h : es.Sorted)
    (k : Nat) : Store.get d (Store.setAll d m es) k = (Store.find es k).getD (Store.get d m k) := by
  induction es generalizing m with
  | nil => rfl
  | cons e t ih =>
    obtain ⟨a, b⟩ := e
    obtain ⟨hfirst, hrest⟩ := List.pairwise_cons.mp h
    rw [show Store.setAll d m ((a, b) :: t) = Store.setAll d (Store.set d m a b) t from rfl, ih _ hrest, Store.find,
      Store.get_set]
    split
    · next heq => rw [Store.find_none_of_lt (heq ▸ hfirst), Option.getD_none, Option.getD_some]
    · rfl

/-- A slice from a base finds what the store has at the key behind that base. -/
theorem Store.find_slice (m : Store α) {lo hi up down k : Nat} (hlo : lo ≤ k) (hhi : k < hi) :
    Store.find (Store.slice m (down + lo) (down + hi) up down) (up + k) = Store.find m (down + k) := by
  induction m with
  | nil => rfl
  | cons e t ih =>
    obtain ⟨a, b⟩ := e
    rw [Store.slice] at ih ⊢
    rw [List.filter_cons, Store.find]
    split
    · next hin =>
      simp only [Bool.and_eq_true, decide_eq_true_eq] at hin
      rw [List.map_cons, Store.find, ih]
      simp only [show a + up - down = up + k ↔ a = down + k by omega]
    · next hout =>
      simp only [Bool.and_eq_true, decide_eq_true_eq] at hout
      rw [ih, if_neg (by omega)]

theorem Store.sorted_slice_from_base (h : m.Sorted) (lo hi up down : Nat) :
    (Store.slice m (down + lo) (down + hi) up down).Sorted := by
  rw [Store.slice, Store.Sorted, List.pairwise_map]
  refine (h.filter _).imp_of_mem fun {a b} ha _ hab => ?_
  have hrange := (List.mem_filter.mp ha).2
  rw [Bool.and_eq_true, decide_eq_true_eq] at hrange
  dsimp only
  omega

end

/-- A word of the range reads in the one bank as it read in the other. -/
theorem State.rdLive_liveToLive {s : State} (hlive : Store.wf liveDefault s.live = true) {src dst lo hi k : Nat}
    (hlo : lo ≤ k) (hhi : k < hi) :
    (s.liveToLive src dst lo hi).rdLive dst k = s.rdLive src k := by
  obtain ⟨hrising, -⟩ := Bool.and_eq_true_iff.mp hlive
  have hsorted : Store.Sorted s.live := Store.sorted_of_rising hrising
  have hcleared : Store.get liveDefault (Store.clear s.live (bankSpan * dst + lo) (bankSpan * dst + hi))
      (bankSpan * dst + k) = liveDefault (bankSpan * src + k) := by
    rw [Store.get, Store.clear,
      Store.find_filter s.live (fun x => !(decide (bankSpan * dst + lo ≤ x) && decide (x < bankSpan * dst + hi))),
      if_neg (by simp [hlo, hhi])]
    simp only [liveDefault, Nat.mul_add_mod]
  rw [State.rdLive, State.liveToLive, Store.get_setAll_of_sorted _ _ (Store.sorted_slice_from_base hsorted ..),
    Store.find_slice _ hlo hhi, hcleared, State.rdLive, Store.get]
  cases Store.find s.live (bankSpan * src + k) <;> rfl

/-! ## The engine of a port -/

section
variable (s : State) (p : Nat) (v : TmPort)

@[simp] theorem State.tmPort_setTmPort_same : (s.setTmPort p v).tmPort p = v := Store.get_set_same _ _ _ _

theorem State.tmPort_setTmPort_other {p q : Nat} (h : q ≠ p) : (s.setTmPort p v).tmPort q = s.tmPort q :=
  Store.get_set_other _ _ _ (Ne.symm h)

@[simp] theorem State.setTmPort_regs : (s.setTmPort p v).regs = s.regs := rfl
@[simp] theorem State.setTmPort_live : (s.setTmPort p v).live = s.live := rfl
@[simp] theorem State.rd_setTmPort (k : Nat) : (s.setTmPort p v).rd k = s.rd k := rfl
theorem State.entryOp_setTmPort (q e : Nat) : (s.setTmPort p v).entryOp q e = s.entryOp q e := rfl

/-- The credits of a port brought up to now change no other part of its engine (R203). -/
theorem State.settleCredits_eq : ∃ cs, s.settleCredits p =
    s.setTmPort p { s.tmPort p with credits := cs, creditAt := s.listNow p } := ⟨_, rfl⟩

@[simp] theorem State.settleCredits_regs : (s.settleCredits p).regs = s.regs := rfl
@[simp] theorem State.settleCredits_live : (s.settleCredits p).live = s.live := rfl

end

theorem State.tmPort_congr {s t : State} (h : t.tm = s.tm) (p : Nat) : t.tmPort p = s.tmPort p := by
  rw [State.tmPort, h, State.tmPort]

/-! ## The preemptable frame of a port (R66, R207) -/

/-- Nothing of the engines changes but a preemptable frame that the port was sending. -/
structure State.OnlyPreempt (p : Nat) (s t : State) : Prop where
  port : { t.tmPort p with preempt := none } = { s.tmPort p with preempt := none }
  none : (s.tmPort p).preempt = none → (t.tmPort p).preempt = none
  others : ∀ q, q ≠ p → t.tmPort q = s.tmPort q

section
variable {p : Nat} {s t u : State}

theorem State.OnlyPreempt.of_tm (h : t.tm = s.tm) : State.OnlyPreempt p s t :=
  ⟨by rw [State.tmPort_congr h], fun hn => by rw [State.tmPort_congr h, hn], fun q _ => State.tmPort_congr h q⟩

theorem State.OnlyPreempt.trans (h : State.OnlyPreempt p s t) (h' : State.OnlyPreempt p t u) :
    State.OnlyPreempt p s u :=
  ⟨h'.port.trans h.port, fun hn => h'.none (h.none hn), fun q hq => (h'.others q hq).trans (h.others q hq)⟩

theorem State.OnlyPreempt.setPreempt {x : Sending} (h : (s.tmPort p).preempt = some x) (y : Sending) :
    State.OnlyPreempt p s (s.setTmPort p { s.tmPort p with preempt := some y }) :=
  ⟨by rw [State.tmPort_setTmPort_same], fun hn => absurd (hn.symm.trans h) nofun,
    fun _ hq => State.tmPort_setTmPort_other _ _ hq⟩

theorem State.OnlyPreempt.settlePreempt (s : State) (p : Nat) : State.OnlyPreempt p s (s.settlePreempt p) := by
  unfold State.settlePreempt
  dsimp only
  split
  · exact .of_tm rfl
  · next x hx =>
    split
    · exact .of_tm rfl
    · split
      · exact .of_tm rfl
      · split
        · exact .setPreempt hx _
        · exact .of_tm rfl

theorem State.OnlyPreempt.gatePreempt (s : State) (p : Nat) : State.OnlyPreempt p s (s.gatePreempt p) := by
  refine (State.OnlyPreempt.settlePreempt s p).trans ?_
  unfold State.gatePreempt
  dsimp only
  split
  · exact .of_tm rfl
  · next x hx => exact .setPreempt hx _

end

section
variable (s : State) (p : Nat)

@[simp] theorem State.settlePreempt_regs : (s.settlePreempt p).regs = s.regs :=
  (State.settlePreempt_keeps (all_contains [Part.tm]) (State.Keeps.refl _ s) p).same .regs rfl

@[simp] theorem State.settlePreempt_live : (s.settlePreempt p).live = s.live :=
  (State.settlePreempt_keeps (all_contains [Part.tm]) (State.Keeps.refl _ s) p).same .live rfl

theorem State.gatePreempt_regs : (s.gatePreempt p).regs = s.regs :=
  (State.gatePreempt_keeps (all_contains [Part.tm]) (State.Keeps.refl _ s) p).same .regs rfl

theorem State.countOverrun_tm (was : List Bool) (x : Option Sending) : (s.countOverrun p was x).tm = s.tm :=
  (State.countOverrun_keeps (all_contains [Part.regs, .saturated, .irqs]) (State.Keeps.refl _ s) p was x).same .tm rfl

end

/-! ## An entry begins (R205, R207) -/

theorem State.rd_congr {s t : State} (h : t.regs = s.regs) (k : Nat) : t.rd k = s.rd k := by
  rw [State.rd, h, State.rd]

/-- What an entry's OP means depends on the live list and on the registers of preemption. -/
theorem State.entryOp_congr {s t : State} (hregs : t.regs = s.regs) (hlive : t.live = s.live) (p e : Nat) :
    t.entryOp p e = s.entryOp p e := by
  have hrd := State.rd_congr hregs
  rw [State.entryOp, State.fldLive, State.rdLive_congr hlive, State.preemptActive, State.bit_congr (hrd _),
    State.fld_congr (hrd _), State.bit_congr (hrd _)]
  rfl

/-- The hold once an entry of the list has begun. -/
def State.holdFrom (s : State) (p e : Nat) (hold : Bool) : Bool :=
  if s.entryOp p e = 1 then true else if s.entryOp p e = 2 then false else hold

section
variable {s : State} {p e : Nat} {hold : Bool}

theorem State.holdFrom_of_assert (h : s.entryOp p e = 1) : s.holdFrom p e hold = true := if_pos h

theorem State.holdFrom_of_release (h : s.entryOp p e = 2) : s.holdFrom p e hold = false := by
  rw [State.holdFrom, if_neg (by omega), if_pos h]

theorem State.holdFrom_of_keep (h : s.entryOp p e = 0) : s.holdFrom p e hold = hold := by
  rw [State.holdFrom, if_neg (by omega), if_neg (by omega)]

end

/-- The state in which the current entry has asserted or released the hold. -/
def State.held (s : State) (p : Nat) : State :=
  if s.entryOp p (s.tmPort p).entry = 1 then s.setTmPort p { s.tmPort p with hold := true }
  else if s.entryOp p (s.tmPort p).entry = 2 then s.setTmPort p { s.tmPort p with hold := false }
  else s

section
variable (s : State) (p : Nat)

theorem State.tmPort_held :
    (s.held p).tmPort p =
      { s.tmPort p with hold := s.holdFrom p (s.tmPort p).entry (s.tmPort p).hold } := by
  unfold State.held State.holdFrom
  split_ifs
  · rw [State.tmPort_setTmPort_same]
  · rw [State.tmPort_setTmPort_same]
  · rfl

theorem State.held_regs : (s.held p).regs = s.regs := by
  unfold State.held
  split_ifs <;> rfl

theorem State.held_live : (s.held p).live = s.live := by
  unfold State.held
  split_ifs <;> rfl

variable (was : List Bool)

theorem State.applyEntry_eq : ∃ x y, s.applyEntry p was =
    ((((s.settlePreempt p).held p).countOverrun p was x).countOverrun p was y).gatePreempt p := by
  unfold State.applyEntry State.held
  dsimp only
  split
  · next h => exact ⟨_, _, by rw [if_pos h]⟩
  · next h => exact ⟨_, _, by rw [if_neg (by omega), if_pos h]⟩
  · next h1 h2 => exact ⟨_, _, by rw [if_neg h1, if_neg h2]⟩

theorem State.OnlyPreempt.held_applyEntry :
    State.OnlyPreempt p ((s.settlePreempt p).held p) (s.applyEntry p was) := by
  obtain ⟨x, y, heq⟩ := s.applyEntry_eq p was
  rw [heq]
  exact ((State.OnlyPreempt.of_tm (State.countOverrun_tm ..)).trans
    (.of_tm (State.countOverrun_tm ..))).trans (.gatePreempt ..)

/-- A port's engine once its current entry has begun: the entry's hold, and whatever becomes of the preemptable
frame. -/
theorem State.tmPort_applyEntry :
    { (s.applyEntry p was).tmPort p with preempt := none } =
      { s.tmPort p with
        hold := s.holdFrom p (s.tmPort p).entry (s.tmPort p).hold, preempt := none } := by
  have hsettled := (State.OnlyPreempt.settlePreempt s p).port
  have hentry : ((s.settlePreempt p).tmPort p).entry = (s.tmPort p).entry := (congrArg TmPort.entry hsettled :)
  have hhold : ((s.settlePreempt p).tmPort p).hold = (s.tmPort p).hold := (congrArg TmPort.hold hsettled :)
  have hop : ∀ e, (s.settlePreempt p).entryOp p e = s.entryOp p e :=
    State.entryOp_congr (State.settlePreempt_regs s p) (State.settlePreempt_live s p) p
  rw [(State.OnlyPreempt.held_applyEntry s p was).port, State.tmPort_held, hentry, hhold, State.holdFrom, hop,
    ← State.holdFrom]
  exact congrArg (fun x : TmPort => { x with hold := s.holdFrom p (s.tmPort p).entry (s.tmPort p).hold }) hsettled

/-- Overruns count in a pair of their own, and as events of MON. -/
theorem State.rd_countOverrun (x : Option Sending) {k : Nat} (h : k ≠ Cnt.TMP_GATE_OVERRUN p)
    (h4 : k ≠ Cnt.TMP_GATE_OVERRUN p + 4) (hmon : k / 0x100000 ≠ 2) :
    (s.countOverrun p was x).rd k = s.rd k := by
  unfold State.countOverrun
  split
  · rfl
  · split
    · rfl
    · split
      · rw [State.rd_monEvent _ _ _ hmon, State.rd_bump _ _ _ h h4]
      · rfl

theorem State.rd_applyEntry {k : Nat} (h : k ≠ Cnt.TMP_GATE_OVERRUN p) (h4 : k ≠ Cnt.TMP_GATE_OVERRUN p + 4)
    (hmon : k / 0x100000 ≠ 2) : (s.applyEntry p was).rd k = s.rd k := by
  obtain ⟨x, y, heq⟩ := s.applyEntry_eq p was
  rw [heq, State.rd_congr (State.gatePreempt_regs ..), State.rd_countOverrun _ _ _ _ h h4 hmon,
    State.rd_countOverrun _ _ _ _ h h4 hmon, State.rd_congr (State.held_regs ..),
    State.rd_congr (State.settlePreempt_regs ..)]

theorem State.applyEntry_live : (s.applyEntry p was).live = s.live :=
  (State.applyEntry_keeps (all_contains [Part.regs, .saturated, .irqs, .tm]) (State.Keeps.refl _ s) p was).same
    .live rfl

end

/-! ## GATE_ENTRY_CHANGE (R205, R206, R210) -/

/-- The state in which an entry has begun on a port whose engine is then `v`. -/
def State.entryBegun (s : State) (p : Nat) (v : TmPort) : State :=
  ((s.settleCredits p).setTmPort p v).applyEntry p (s.gates p)

theorem State.tmPort_entryBegun (s : State) (p : Nat) (v : TmPort) :
    { (s.entryBegun p v).tmPort p with preempt := none } =
      { v with hold := s.holdFrom p v.entry v.hold, preempt := none } := by
  rw [State.entryBegun, State.tmPort_applyEntry, State.tmPort_setTmPort_same]
  rfl

section
variable {s : State} {p : ExtPort} {a : ListParams}

theorem gateEntryChange_idle
    (h : (s.tmPort p.val).oper = none ∨ s.hasPort p.val = false ∨ s.up .tm = false) :
    Answers (.gateEntryChange p) s fun t => t = s := by
  have hnone : (if s.hasPort p.val && s.up .tm then (s.tmPort p.val).oper else none) = none := by
    rcases h with h | h | h <;> simp [h]
  exact ⟨s, by rw [exec_gateEntryChange, execGateEntryChange]; dsimp only; rw [hnone], rfl⟩

variable (hoper : (s.tmPort p.val).oper = some a) (hport : s.hasPort p.val = true) (hup : s.up .tm = true)
include hoper hport hup

/-- The command at a port whose list runs; `cs` are the credits brought up to now. -/
theorem execGateEntryChange_of_list : ∃ cs,
    let stop := s.entryEnd p.val a (s.tmPort p.val).entry (s.tmPort p.val).offset
    let t1 : TmPort := { s.tmPort p.val with credits := cs, creditAt := s.listNow p.val }
    execGateEntryChange p s = .next
      (if t1.started = false then s.entryBegun p.val { t1 with started := true }
      else if stop < a.cycle then s.entryBegun p.val { t1 with entry := t1.entry + 1, offset := stop }
      else if t1.extended a then s.settleCredits p.val
      else s.entryBegun p.val { t1 with
        cycleStart := if t1.realign then a.firstAfter (t1.cycleEnd a - 1) else t1.cycleEnd a
        entry := 0, offset := 0, realign := false }) := by
  have hlist : (if s.hasPort p.val && s.up .tm then (s.tmPort p.val).oper else none) = some a := by
    simp [hoper, hport, hup]
  obtain ⟨cs, hcs⟩ := s.settleCredits_eq p.val
  have ht1 : (s.settleCredits p.val).tmPort p.val =
      { s.tmPort p.val with credits := cs, creditAt := s.listNow p.val } := by
    rw [hcs, State.tmPort_setTmPort_same]
  refine ⟨cs, ?_⟩
  rw [execGateEntryChange]
  dsimp only
  rw [hlist]
  dsimp only
  rw [ht1]
  simp only [Bool.not_eq_true', State.entryBegun]

/-- A list that has waited for its first cycle start begins its entry (R210). -/
theorem gateEntryChange_starts (hwait : (s.tmPort p.val).started = false) :
    Answers (.gateEntryChange p) s fun t =>
      (t.tmPort p.val).started = true ∧ (t.tmPort p.val).entry = (s.tmPort p.val).entry := by
  obtain ⟨cs, hexec⟩ := execGateEntryChange_of_list hoper hport hup
  refine ⟨_, by rw [exec_gateEntryChange, hexec, if_pos hwait], ?_⟩
  have hbegun := s.tmPort_entryBegun p.val
    { s.tmPort p.val with credits := cs, creditAt := s.listNow p.val, started := true }
  exact ⟨(congrArg TmPort.started hbegun :), (congrArg TmPort.entry hbegun :)⟩

section
variable (hstarted : (s.tmPort p.val).started = true)
include hstarted

/-- The next entry begins where the last one ends within the cycle (R205). -/
theorem gateEntryChange_next_entry
    (hstop : s.entryEnd p.val a (s.tmPort p.val).entry (s.tmPort p.val).offset < a.cycle) :
    Answers (.gateEntryChange p) s fun t =>
      (t.tmPort p.val).entry = (s.tmPort p.val).entry + 1 ∧
      (t.tmPort p.val).offset = s.entryEnd p.val a (s.tmPort p.val).entry (s.tmPort p.val).offset ∧
      (t.tmPort p.val).cycleStart = (s.tmPort p.val).cycleStart ∧
      (s.entryOp p.val ((s.tmPort p.val).entry + 1) = 1 → (t.tmPort p.val).hold = true) ∧
      (s.entryOp p.val ((s.tmPort p.val).entry + 1) = 2 → (t.tmPort p.val).hold = false) ∧
      (s.entryOp p.val ((s.tmPort p.val).entry + 1) = 0 → (t.tmPort p.val).hold = (s.tmPort p.val).hold) := by
  obtain ⟨cs, hexec⟩ := execGateEntryChange_of_list hoper hport hup
  refine ⟨_, by rw [exec_gateEntryChange, hexec, if_neg (by simp [hstarted]), if_pos hstop], ?_⟩
  have hbegun := s.tmPort_entryBegun p.val
    { s.tmPort p.val with
      credits := cs, creditAt := s.listNow p.val, entry := (s.tmPort p.val).entry + 1
      offset := s.entryEnd p.val a (s.tmPort p.val).entry (s.tmPort p.val).offset }
  have hhold := (congrArg TmPort.hold hbegun :)
  exact ⟨(congrArg TmPort.entry hbegun :), (congrArg TmPort.offset hbegun :), (congrArg TmPort.cycleStart hbegun :),
    fun h => hhold.trans (State.holdFrom_of_assert h), fun h => hhold.trans (State.holdFrom_of_release h),
    fun h => hhold.trans (State.holdFrom_of_keep h)⟩

variable (hstop : a.cycle ≤ s.entryEnd p.val a (s.tmPort p.val).entry (s.tmPort p.val).offset)
include hstop

/-- The next cycle begins, at the new time's first cycle start where the time has stepped (R205, R210). -/
theorem gateEntryChange_next_cycle (hext : (s.tmPort p.val).extended a = false) :
    Answers (.gateEntryChange p) s fun t =>
      (t.tmPort p.val).entry = 0 ∧ (t.tmPort p.val).offset = 0 ∧ (t.tmPort p.val).realign = false ∧
      ((s.tmPort p.val).realign = false →
        (t.tmPort p.val).cycleStart = (s.tmPort p.val).cycleStart + 65536 * a.cycle) := by
  obtain ⟨cs, hexec⟩ := execGateEntryChange_of_list hoper hport hup
  have hgo : ¬TmPort.extended { s.tmPort p.val with credits := cs, creditAt := s.listNow p.val } a = true :=
    ne_true_of_eq_false hext
  refine ⟨_, by rw [exec_gateEntryChange, hexec, if_neg (by simp [hstarted]), if_neg (Nat.not_lt.mpr hstop),
    if_neg hgo], ?_⟩
  have hbegun := s.tmPort_entryBegun p.val
    { s.tmPort p.val with
      credits := cs, creditAt := s.listNow p.val
      cycleStart := if (s.tmPort p.val).realign then a.firstAfter ((s.tmPort p.val).cycleEnd a - 1)
        else (s.tmPort p.val).cycleEnd a
      entry := 0, offset := 0, realign := false }
  refine ⟨(congrArg TmPort.entry hbegun :), (congrArg TmPort.offset hbegun :), (congrArg TmPort.realign hbegun :),
    fun hr => ?_⟩
  exact (congrArg TmPort.cycleStart hbegun :).trans (if_neg (ne_true_of_eq_false hr))

/-- Ahead of a change that extends the cycle, the last entry's state holds on (R206). -/
theorem gateEntryChange_extended (hext : (s.tmPort p.val).extended a = true) :
    Answers (.gateEntryChange p) s fun t =>
      (t.tmPort p.val).entry = (s.tmPort p.val).entry ∧ t.regs = s.regs := by
  obtain ⟨cs, hexec⟩ := execGateEntryChange_of_list hoper hport hup
  have hstay : TmPort.extended { s.tmPort p.val with credits := cs, creditAt := s.listNow p.val } a = true := hext
  obtain ⟨ds, hds⟩ := s.settleCredits_eq p.val
  exact ⟨s.settleCredits p.val, by rw [exec_gateEntryChange, hexec, if_neg (by simp [hstarted]),
    if_neg (Nat.not_lt.mpr hstop), if_pos hstay], by rw [hds, State.tmPort_setTmPort_same],
    State.settleCredits_regs ..⟩

end

end

/-! ## GATE_HOLD_ASSERT (R207) -/

section
variable {s : State} {p : Nat}

theorem State.nextOp_of_no_list (hpend : (s.tmPort p).pend = none)
    (h : (s.tmPort p).oper = none ∨ (s.tmPort p).started = false) : s.nextOp p = 0 := by
  unfold State.nextOp
  dsimp only
  rw [hpend]
  rcases h with h | h
  · simp [h]
  · cases (s.tmPort p).oper <;> simp [h]

/-- OP of the next entry of the list, or of the first of its next cycle. -/
theorem State.nextOp_of_list {a : ListParams} (hpend : (s.tmPort p).pend = none)
    (hoper : (s.tmPort p).oper = some a) (hstarted : (s.tmPort p).started = true) :
    s.nextOp p = s.entryOp p
      (if s.entryEnd p a (s.tmPort p).entry (s.tmPort p).offset < a.cycle then (s.tmPort p).entry + 1 else 0) := by
  have hext : (s.tmPort p).extended a = false := by rw [TmPort.extended, hpend]
  unfold State.nextOp
  dsimp only
  rw [hpend, hoper]
  simp only [hstarted, hext, Bool.not_true, Bool.false_eq_true, if_false]
  split <;> rfl

/-- OP of the first entry of a pending list whose change is due within HOLDADV (R206). -/
theorem State.nextOp_of_due {b : ListParams} {change : Nat} (hpend : (s.tmPort p).pend = some (b, change))
    (hdue : change ≤ s.listNow p + 65536 * 8 * s.fld (Reg.TM_PORTCFG p) 4 8) (hactive : s.preemptActive p = true)
    (hfirst : s.fldLive pendBank (Reg.TM_LIST_w0 p 0) 8 2 = 1) : s.nextOp p = 1 := by
  unfold State.nextOp
  dsimp only
  rw [hpend]
  simp [hdue, hactive, hfirst]

end

section
variable {s : State} {p : ExtPort}

theorem gateHoldAssert_idle (hpend : (s.tmPort p.val).pend = none)
    (h : (s.tmPort p.val).oper = none ∨ (s.tmPort p.val).started = false) :
    Answers (.gateHoldAssert p) s fun t => t = s :=
  ⟨s, by rw [exec_gateHoldAssert, execGateHoldAssert, State.nextOp_of_no_list hpend h, if_neg (by simp)], rfl⟩

/-- Ahead of an entry that asserts the hold, the hold is asserted, and nothing changes beside it but a frame that it
preempts. -/
theorem gateHoldAssert_holds (hup : s.up .tm = true) (hop : s.nextOp p.val = 1) :
    Answers (.gateHoldAssert p) s fun t =>
      { t.tmPort p.val with preempt := none } = { s.tmPort p.val with hold := true, preempt := none } ∧
      ((s.tmPort p.val).preempt = none → (t.tmPort p.val).preempt = none) ∧
      ∀ q, q ≠ p.val → t.tmPort q = s.tmPort q := by
  have hsettled := State.OnlyPreempt.settlePreempt s p.val
  have hgate := State.OnlyPreempt.gatePreempt ((s.settlePreempt p.val).setTmPort p.val
    { (s.settlePreempt p.val).tmPort p.val with hold := true }) p.val
  refine ⟨_, by rw [exec_gateHoldAssert, execGateHoldAssert, if_pos (by simp [hup, hop])], ?_, fun hnone => ?_,
    fun q hq => ?_⟩
  · rw [hgate.port, State.tmPort_setTmPort_same]
    exact congrArg (fun x : TmPort => { x with hold := true }) hsettled.port
  · exact hgate.none (by rw [State.tmPort_setTmPort_same]; exact hsettled.none hnone)
  · rw [hgate.others q hq, State.tmPort_setTmPort_other _ _ hq, hsettled.others q hq]

end

/-! ## LIST_CHANGE_TIME (R206, R209) -/

section
variable (s : State) (p : Nat)

@[simp] theorem State.refreshWindows_tm : (s.refreshWindows p).tm = s.tm :=
  (State.refreshWindows_keeps (all_contains [Part.regs]) (State.Keeps.refl _ s) p).same .tm rfl

@[simp] theorem State.refreshWindows_live : (s.refreshWindows p).live = s.live :=
  (State.refreshWindows_keeps (all_contains [Part.regs]) (State.Keeps.refl _ s) p).same .live rfl

theorem State.rdN_wrN_same (k v : Nat) : (s.wrN k v).rdN k = v % 2 ^ 32 := by
  rw [State.rdN, State.rd_wrN, if_pos rfl, BitVec.toNat_ofNat]

/-- TM_OPERCYCLE shows the cycle of the operational list (R209). -/
theorem State.rdN_opercycle_refreshWindows {s : State} {p : Nat} {a : ListParams}
    (hoper : (s.tmPort p).oper = some a) : (s.refreshWindows p).rdN (Reg.TM_OPERCYCLE p) = a.cycle % 2 ^ 32 := by
  have hwindows : s.Keeps (fun p => [Part.regs].contains p)
      ((List.range 8).foldl (fun acc c => acc.wrN (Reg.TM_MAXWIN p c) (acc.maxWin p c)) s) :=
    keeps_foldl _ _ (State.Keeps.refl _ s) fun _ _ h => State.wrN_keeps (all_contains _) h _ _
  rw [State.refreshWindows, State.tmPort_congr (hwindows.same .tm rfl), hoper]
  exact State.rdN_wrN_same ..

end

/-- A port's engine from the instant its pending list becomes operational. -/
def TmPort.changed (t : TmPort) (a : ListParams) (change : Nat) : TmPort :=
  { t with
    oper := some a, pend := none, started := true, cycleStart := change, entry := 0, offset := 0, realign := false }

/-- The state in which the pending list is operational, before its first entry acts. -/
def State.listChanged (s : State) (p : Nat) (a : ListParams) (change : Nat) : State :=
  let u := (s.settleCredits p).liveToLive pendBank liveBank (listLo p) (listHi p)
  ((u.setTmPort p ((u.tmPort p).changed a change)).bump (Cnt.TMP_LIST_CHANGE p)).refreshWindows p

section
variable (s : State) (p : Nat) (a : ListParams) (change : Nat)

theorem State.tmPort_listChanged :
    (s.listChanged p a change).tmPort p = ((s.settleCredits p).tmPort p).changed a change := by
  rw [State.listChanged, State.tmPort_congr ((State.refreshWindows_tm ..).trans (State.bump_tm ..)),
    State.tmPort_setTmPort_same]
  rfl

theorem State.rdN_opercycle_listChanged :
    (s.listChanged p a change).rdN (Reg.TM_OPERCYCLE p) = a.cycle % 2 ^ 32 := by
  refine State.rdN_opercycle_refreshWindows ?_
  rw [State.tmPort_congr (State.bump_tm ..), State.tmPort_setTmPort_same]
  rfl

theorem State.rdLive_listChanged {s : State} {p k : Nat} (hlive : Store.wf liveDefault s.live = true)
    (hlo : listLo p ≤ k) (hhi : k < listHi p) :
    (s.listChanged p a change).rdLive liveBank k = s.rdLive pendBank k := by
  have hsettled : Store.wf liveDefault (s.settleCredits p).live = true := hlive
  rw [State.listChanged, State.rdLive_congr ((State.refreshWindows_live ..).trans (State.bump_live ..)),
    State.rdLive_congr (State.setTmPort_live ..), State.rdLive_liveToLive hsettled hlo hhi,
    State.rdLive_congr (State.settleCredits_live ..)]

end

section
variable {s : State} {p : ExtPort}

theorem listChangeTime_none (hpend : (s.tmPort p.val).pend = none) :
    Answers (.listChangeTime p) s fun t => t = s :=
  ⟨s, by rw [exec_listChangeTime, execListChangeTime, hpend, ite_self], rfl⟩

theorem execListChangeTime_of_pend {a : ListParams} {change : Nat} (hup : s.up .tm = true)
    (hpend : (s.tmPort p.val).pend = some (a, change)) :
    execListChangeTime p s = .next ((s.listChanged p.val a change).applyEntry p.val (s.gates p.val)) := by
  rw [execListChangeTime, if_pos hup, hpend]
  rfl

/-- The pending list becomes operational: its first entry begins its first cycle, and the live list reads as the
pending one did. -/
theorem listChangeTime_changes {a : ListParams} {change : Nat} (hcanon : s.canonical = true) (hup : s.up .tm = true)
    (hpend : (s.tmPort p.val).pend = some (a, change)) :
    Answers (.listChangeTime p) s fun t =>
      (t.tmPort p.val).oper = some a ∧ (t.tmPort p.val).pend = none ∧ (t.tmPort p.val).started = true ∧
      (t.tmPort p.val).cycleStart = change ∧ (t.tmPort p.val).entry = 0 ∧ (t.tmPort p.val).offset = 0 ∧
      t.rdN (Reg.TM_OPERCYCLE p.val) = a.cycle % 2 ^ 32 ∧
      ∀ e < 1024,
        t.rdLive liveBank (Reg.TM_LIST_w0 p.val e) = s.rdLive pendBank (Reg.TM_LIST_w0 p.val e) ∧
        t.rdLive liveBank (Reg.TM_LIST_w1 p.val e) = s.rdLive pendBank (Reg.TM_LIST_w1 p.val e) := by
  simp only [State.canonical, Bool.and_eq_true] at hcanon
  obtain ⟨⟨-, hlive⟩, -⟩ := hcanon
  have hport := (s.listChanged p.val a change).tmPort_applyEntry p.val (s.gates p.val)
  rw [State.tmPort_listChanged] at hport
  have hwords : ∀ k, listLo p.val ≤ k → k < listHi p.val →
      ((s.listChanged p.val a change).applyEntry p.val (s.gates p.val)).rdLive liveBank k = s.rdLive pendBank k :=
    fun k hlo hhi => by
      rw [State.rdLive_congr (State.applyEntry_live ..), State.rdLive_listChanged a change hlive hlo hhi]
  refine ⟨_, by rw [exec_listChangeTime, execListChangeTime_of_pend hup hpend], (congrArg TmPort.oper hport :),
    (congrArg TmPort.pend hport :), (congrArg TmPort.started hport :), (congrArg TmPort.cycleStart hport :),
    (congrArg TmPort.entry hport :), (congrArg TmPort.offset hport :), ?_,
    fun e he => ⟨hwords _ ?_ ?_, hwords _ ?_ ?_⟩⟩
  · have hp := p.isLt
    rw [State.rdN, State.rd_applyEntry _ _ _ (by simp only [regKey]; omega) (by simp only [regKey]; omega)
      (by simp only [regKey]; omega), ← State.rdN, State.rdN_opercycle_listChanged]
  all_goals
    simp only [listLo, listHi, regKey]
    omega

end

/-- Settles O38: the engine of a port after each event is read off the entry that begins; a frame that the hold or a
gate preempts is the one part of it that the events leave open. -/
theorem gateListCommandsComplete : Obligations.GateListCommandsComplete :=
  ⟨fun _ _ => gateEntryChange_idle, fun _ _ => gateHoldAssert_idle,
    fun _ _ _ hoper hport hup =>
      ⟨gateEntryChange_starts hoper hport hup, gateEntryChange_next_entry hoper hport hup,
        gateEntryChange_next_cycle hoper hport hup, gateEntryChange_extended hoper hport hup,
        fun hstarted hpend hop =>
          gateHoldAssert_holds hup ((State.nextOp_of_list hpend hoper hstarted).trans hop),
        fun _ _ hpend hdue hactive hfirst =>
          gateHoldAssert_holds hup (State.nextOp_of_due hpend hdue hactive hfirst)⟩,
    fun _ _ => listChangeTime_none, fun _ _ _ _ => listChangeTime_changes⟩

end Sys2Proof.Machine
end

section
/-!
PROOFS. The servo of the time unit and the counter pairs (R225, R227, R457): what a clock shows at the two ends of the
interval over which a phase correction is spread, and where the pairs of each block stand.
-/

namespace Sys2Proof.Machine

open Sys2Proof

/-! ## Clocks (R225, R227) -/

/-- The steering range is symmetric: a rate within it is at most 200 ppm in either direction (R225). -/
theorem natAbs_clampRho_le (r : Int) : (clampRho r).natAbs ≤ 219902325 := by
  unfold clampRho clampInt rhoMax
  split_ifs <;> omega

/-- A clock shows its anchor at the anchor's local time (R225). -/
theorem Clock.at_lt0 (k : Clock) (h : ∀ e, k.slewEnd = some e → k.lt0 ≤ e) : k.at_ k.lt0 = k.w0 := by
  unfold Clock.at_
  cases hend : k.slewEnd with
  | none => simp
  | some e => simp [Nat.not_lt.mpr (h e hend)]

section
variable (k : Clock) (lt : Nat) (off : Int) {interval : Nat} (kp ki : Nat)

/-- The rate after an offset, without the phase correction (R227). -/
def Clock.steeredBase (off : Int) (interval ki : Nat) : Int :=
  clampRho (k.base + Int.fdiv (2 ^ 40 * off) (2 ^ ki * interval))

theorem Clock.steered_of_interval (h : interval ≠ 0) :
    k.steered lt off interval kp ki =
      { w0 := k.at_ lt, lt0 := lt
        rho := clampRho (k.steeredBase off interval ki + Int.fdiv (2 ^ 40 * off) (2 ^ kp * interval))
        base := k.steeredBase off interval ki, slewEnd := some (lt + interval) } := if_neg h

/-- The steered clock continues the clock (R225). -/
theorem Clock.at_steered (h : interval ≠ 0) : (k.steered lt off interval kp ki).at_ lt = k.at_ lt := by
  rw [k.steered_of_interval lt off kp ki h]
  exact Clock.at_lt0 _ fun e he => by
    cases he
    exact Nat.le_add_right lt interval

end

/-- A clock goes on from what it shows at the end of its phase correction (R227). -/
theorem Clock.at_settled_end {k : Clock} {e : Nat} (h : k.slewEnd = some e) : (k.settled e).at_ e = k.at_ e := by
  have hsettled : k.settled e = { w0 := k.at_ e, lt0 := e, rho := k.base, base := k.base } := by
    simp only [Clock.settled, h, Nat.le_refl, if_true]
  rw [hsettled]
  exact Clock.at_lt0 _ nofun

theorem Clock.rate_of_end_le {k : Clock} {e lt : Nat} (h : k.slewEnd = some e) (hle : e ≤ lt) :
    k.rate lt = k.base := by
  simp only [Clock.rate, h, hle, if_true]

/-- Settles O41: the steered clock is anchored at what the clock shows, the clock without the correction at what the
steered clock shows when the interval ends, and both rates pass the clamp. -/
theorem servoIsContinuousAndClamped : Obligations.ServoIsContinuousAndClamped := by
  intro k lt off interval kp ki hne
  have heq := k.steered_of_interval lt off kp ki hne
  have hend : (k.steered lt off interval kp ki).slewEnd = some (lt + interval) := by rw [heq]
  refine ⟨k.at_steered lt off kp ki hne, ?_, ?_, Clock.at_settled_end hend,
    fun x hx => Clock.rate_of_end_le hend hx⟩
  all_goals
    rw [heq]
    exact natAbs_clampRho_le _

/-! ## Counter pairs (R243, R295, R354, R441, R457) -/

/-- The HIGH words of the counter pairs of the six blocks are HIGH words of pairs that carry and wrap. -/
theorem governedHigh_counterPairs :
    ∀ e ∈ [(0x01, 7), (0x18, 8), (0x1A, 8), (0x23, 6), (0x29, 6), (0x28, 3)], ∀ k < e.2,
      governedHigh (regKey e.1 (0x104 + 8 * k)) = true := by
  decide +kernel

/-- Settles O10: the order is that of the register map, in which every HIGH word belongs to a governed pair. -/
theorem counterPairsStandInOrder : Obligations.CounterPairsStandInOrder :=
  ⟨rfl, rfl, rfl, rfl, rfl, rfl, fun _ _ he => governedHigh_counterPairs _ he⟩

end Sys2Proof.Machine
end

section
/-!
PROOFS. The domains of the time unit (R225 to R230, R236, R240): what a clock, a step and a change of STATE leave in the
registers of block TIM and in the servo's state, then the commands.
-/

namespace Sys2Proof.Machine

open Sys2Proof

/-! ## Registers of block TIM -/

theorem regKey_ne {b x y : Nat} (h : x ≠ y) : regKey b x ≠ regKey b y := by
  unfold regKey
  omega

/-- A counter of block TIM that counts touches no other register of the block. -/
theorem State.rd_timCount (s : State) {c o : Nat} (h : o ≠ c) (h4 : o ≠ c + 4) :
    (s.bump (regKey 24 c)).rd (regKey 24 o) = s.rd (regKey 24 o) :=
  State.rd_bump _ _ _ (regKey_ne h) (regKey_ne (y := c + 4) h4)

/-- An event of MON touches no register of block TIM. -/
theorem State.rd_monEvent_tim (s : State) (ev : Nat) {o : Nat} (ho : o < 0x100000) :
    (s.monEvent ev).rd (regKey 24 o) = s.rd (regKey 24 o) :=
  State.rd_monEvent _ _ _ (by unfold regKey; omega)

/-- What a bus access returns has no part in a counter. -/
theorem State.bump_reply (s : State) (d : BitVec 64) (c : Nat) : (s.reply d).bump c = (s.bump c).reply d := by
  have hrdN : ∀ k, (s.reply d).rdN k = s.rdN k := fun _ => rfl
  have hfld : ∀ k lo n, (s.reply d).fld k lo n = s.fld k lo n := fun _ _ _ => rfl
  have hmode : (s.reply d).serviceMode = s.serviceMode := rfl
  have hsat : (s.reply d).saturated = s.saturated := rfl
  have hwrN : ∀ k v, (s.reply d).wrN k v = (s.wrN k v).reply d := fun _ _ => rfl
  have hsetFld : ∀ (t : State) k lo n v, (t.reply d).setFld k lo n v = (t.setFld k lo n v).reply d :=
    fun _ _ _ _ _ => rfl
  have hsetBit : ∀ (t : State) k b v, (t.reply d).setBit k b v = (t.setBit k b v).reply d := fun _ _ _ _ => rfl
  have hsaturate : ∀ (t : State) x, { t.reply d with saturated := x } = State.reply { t with saturated := x } d :=
    fun _ _ => rfl
  unfold State.bump State.bumpBy
  simp only [hrdN, hfld, hmode, hsat, hwrN, hsetFld, hsetBit, hsaturate]
  split_ifs <;> rfl

/-! ## The time of a domain and its clock (R224, R225) -/

section
variable {s t : State}

theorem State.dom_congr (h : t.tim = s.tim) (d : Nat) : t.dom d = s.dom d := by rw [State.dom, h, State.dom]

theorem State.lt_congr (h : t.tim = s.tim) (hnow : t.nowNs = s.nowNs) : t.lt = s.lt := by
  rw [State.lt, h, hnow, State.lt]

/-- W_d of an enabled domain whose clock is anchored now. -/
theorem State.wNow_of_anchored {d : Nat} (hen : s.domEn d = true) (hlt : (s.dom d).clk.lt0 = s.lt)
    (hend : (s.dom d).clk.slewEnd = none) : s.wNow d = (s.dom d).clk.w0 := by
  rw [State.wNow, State.wAt, if_pos (show s.bit (Reg.TIM_DOMCFG d) 0 = true from hen), ← hlt]
  exact Clock.at_lt0 _ (by simp [hend])

end

section
variable (s : State) (d : Nat) (v : Domain) (c : Clock)

@[simp] theorem State.dom_setDom_same : (s.setDom d v).dom d = v := Store.get_set_same _ _ _ _

theorem State.dom_setDom_other {x : Nat} (h : x ≠ d) : (s.setDom d v).dom x = s.dom x :=
  Store.get_set_other _ _ _ (Ne.symm h)

@[simp] theorem State.rd_setDom (k : Nat) : (s.setDom d v).rd k = s.rd k := rfl

@[simp] theorem State.dom_putClock_same : (s.putClock d c).dom d = { s.dom d with clk := c } :=
  State.dom_setDom_same ..

/-- TIM_DRATE shows the rate of the clock (R225). -/
@[simp] theorem State.rd_putClock_rate : (s.putClock d c).rd (Reg.TIM_DRATE d) = wordOfInt c.rho :=
  State.rd_wr_same ..

theorem State.rd_putClock_other {k : Nat} (h : k ≠ Reg.TIM_DRATE d) : (s.putClock d c).rd k = s.rd k :=
  State.rd_wr_other _ _ (Ne.symm h)

end

/-! ## Steps and changes of STATE (R226, R228) -/

theorem State.rd_realignPort (s : State) {p : Nat} (hp : p < 32) (old new : Nat) {o : Nat} (ho : o < 0x100000) :
    (s.realignPort p old new).rd (regKey 24 o) = s.rd (regKey 24 o) := by
  unfold State.realignPort
  dsimp only
  split_ifs
  · rfl
  · rw [State.rd_bump _ _ _ (by simp only [regKey]; omega) (by simp only [regKey]; omega), State.rd_setTmPort]
    rfl
  · rfl

theorem State.lt_32_of_mem_listPorts {s : State} {d p : Nat} (h : p ∈ s.listPorts d) : p < 32 :=
  List.mem_range.mp (List.mem_filter.mp h).1

section
variable (s : State) (d old : Nat)

theorem State.keeps_stepped : s.Keeps (fun p => [Part.regs, .saturated, .irqs, .tm].contains p) (s.stepped d old) :=
  State.stepped_keeps (all_contains _) (State.Keeps.refl _ s) d old

@[simp] theorem State.stepped_tim : (s.stepped d old).tim = s.tim := (s.keeps_stepped d old).same .tim rfl

/-- Of the registers of block TIM a step changes its two counts only: STEPCNT of the domain, and STEPS. -/
theorem State.rd_stepped {o : Nat} (ho : o < 0x100000) (h : o ≠ 0x100) (h4 : o ≠ 0x104) :
    (s.stepped d old).rd (regKey 24 o) =
      (s.setFld (Reg.TIM_DSTAT d) 8 8 (s.fld (Reg.TIM_DSTAT d) 8 8 + 1)).rd (regKey 24 o) := by
  unfold State.stepped
  dsimp only
  refine List.foldlRecOn (motive := fun t : State => t.rd (regKey 24 o) = _) _ _ ?_ fun t ht p hp => ?_
  · rw [State.rd_monEvent_tim _ _ ho, State.rd_timCount _ h h4]
  · rw [State.rd_realignPort _ (State.lt_32_of_mem_listPorts hp) _ _ ho, State.rebaseCredits, State.rd_setTmPort, ht]

theorem State.rd_stepped_other {o : Nat} (ho : o < 0x100000) (h : o ≠ 0x100) (h4 : o ≠ 0x104)
    (hd : o ≠ 0x1040 + 0x100 * d) : (s.stepped d old).rd (regKey 24 o) = s.rd (regKey 24 o) := by
  rw [State.rd_stepped _ _ _ ho h h4, State.rd_setFld_other _ _ (regKey_ne hd)]

/-- A step is counted in STEPCNT (R228). -/
theorem State.stepCount_stepped (hd : d < 4) :
    (s.stepped d old).fld (Reg.TIM_DSTAT d) 8 8 = (s.fld (Reg.TIM_DSTAT d) 8 8 + 1) % 256 := by
  rw [State.fld_congr (State.rd_stepped s d old (by omega) (by omega) (by omega))]
  exact State.fld_setFld_same _ _ _ _ _ (by omega)

/-- The other fields of TIM_DSTAT. -/
theorem State.fld_stepped_apart (hd : d < 4) {lo n : Nat} (h : lo + n ≤ 8 ∨ 16 ≤ lo) :
    (s.stepped d old).fld (Reg.TIM_DSTAT d) lo n = s.fld (Reg.TIM_DSTAT d) lo n := by
  rw [State.fld_congr (State.rd_stepped s d old (by omega) (by omega) (by omega))]
  exact State.fld_setFld_apart _ _ _ _ _ _ _ _ (by omega) (by omega)

end

section
variable (s : State) (d v : Nat)

theorem State.keeps_setDomState : s.Keeps (fun p => [Part.regs, .tm].contains p) (s.setDomState d v) :=
  State.setDomState_keeps (all_contains _) (State.Keeps.refl _ s) d v

@[simp] theorem State.setDomState_tim : (s.setDomState d v).tim = s.tim := (s.keeps_setDomState d v).same .tim rfl

theorem State.keeps_foldl_settleCredits (ps : List Nat) :
    s.Keeps (fun p => [Part.tm].contains p) (ps.foldl (fun acc p => acc.settleCredits p) s) :=
  keeps_foldl _ _ (State.Keeps.refl _ s) fun _ p h => State.settleCredits_keeps (all_contains _) h p

theorem State.keeps_foldl_lockPort (ps : List Nat) :
    s.Keeps (fun p => [Part.tm].contains p) (ps.foldl (fun acc p => acc.lockPort p) s) :=
  keeps_foldl _ _ (State.Keeps.refl _ s) fun _ p h => State.lockPort_keeps (all_contains _) h p

/-- A change of STATE writes STATE and TBVALID of its domain, and no other register. -/
theorem State.rd_setDomState (k : Nat) :
    (s.setDomState d v).rd k =
      ((s.setFld (Reg.TIM_DSTAT d) 0 2 v).setBit (Reg.TIM_DSTAT d) 2 (v != 0)).rd k := by
  have hsettle : ∀ (b : Bool) (k : Nat), (if b then s else
      (s.listPorts d).foldl (fun acc p => acc.settleCredits p) s).rd k = s.rd k := fun b k => by
    cases b
    · exact State.rd_congr ((s.keeps_foldl_settleCredits _).same .regs rfl) k
    · rfl
  have hlock : ∀ (c : Bool) (u : State) (k : Nat), (if c then
      (u.listPorts d).foldl (fun acc p => acc.lockPort p) u else u).rd k = u.rd k := fun c u k => by
    cases c
    · rfl
    · exact State.rd_congr ((u.keeps_foldl_lockPort _).same .regs rfl) k
  unfold State.setDomState
  dsimp only
  rw [hlock, State.rd_setBit, State.rd_setFld, hsettle, State.rd_setBit, State.rd_setFld]

theorem State.rd_setDomState_other {k : Nat} (h : k ≠ Reg.TIM_DSTAT d) : (s.setDomState d v).rd k = s.rd k := by
  rw [State.rd_setDomState, State.rd_setBit_other _ _ h, State.rd_setFld_other _ _ h]

theorem State.domState_setDomState {v : Nat} (hv : v < 4) : (s.setDomState d v).domState d = v := by
  rw [State.domState, State.fld_congr (State.rd_setDomState ..), State.fld_setBit_apart _ _ (by omega) (by omega),
    State.fld_setFld_same _ _ _ _ _ (by omega), Nat.mod_eq_of_lt (show v < 2 ^ 2 from hv)]

theorem State.validTb_setDomState : (s.setDomState d v).bit (Reg.TIM_DSTAT d) 2 = (v != 0) := by
  rw [State.bit_congr (State.rd_setDomState ..), State.bit_setBit_same _ _ _ _ (by omega)]

/-- The fields of TIM_DSTAT above TBVALID. -/
theorem State.fld_setDomState_apart {lo n : Nat} (h : 3 ≤ lo) :
    (s.setDomState d v).fld (Reg.TIM_DSTAT d) lo n = s.fld (Reg.TIM_DSTAT d) lo n := by
  rw [State.fld_congr (State.rd_setDomState ..), State.fld_setBit_apart _ _ (by omega) (by omega),
    State.fld_setFld_apart _ _ _ _ _ _ _ _ (by omega) (by omega)]

end

/-! ## DOMAIN_ENABLE and DOMAIN_DISABLE (R225, R226) -/

/-- The domain enabled, its clock at rate 0 from LT, before GM decides its STATE (R225). -/
def State.enabledAtLt (s : State) (d : Nat) : State :=
  (s.setBit (Reg.TIM_DOMCFG d) 0 true).putClock d { w0 := s.lt, lt0 := s.lt }

section
variable (s : State) (d : Nat)

theorem State.domEn_enabledAtLt : (s.enabledAtLt d).domEn d = true := by
  rw [State.domEn, State.enabledAtLt, State.bit_congr (State.rd_putClock_other _ _ _ (regKey_ne (by omega)))]
  exact State.bit_setBit_same _ _ _ _ (by omega)

theorem State.gm_enabledAtLt :
    (s.enabledAtLt d).bit (Reg.TIM_DOMCFG d) 1 = s.bit (Reg.TIM_DOMCFG d) 1 := by
  rw [State.enabledAtLt, State.bit_congr (State.rd_putClock_other _ _ _ (regKey_ne (by omega)))]
  exact State.bit_setBit_apart _ _ _ _ _ _ (by omega) (by omega)

theorem State.domState_enabledAtLt : (s.enabledAtLt d).domState d = s.domState d := by
  rw [State.domState, State.enabledAtLt,
    State.fld_congr (State.rd_putClock_other _ _ _ (regKey_ne (by omega))),
    State.fld_congr (State.rd_setBit_other _ _ (regKey_ne (by omega))), State.domState]

theorem State.wNow_enabledAtLt : (s.enabledAtLt d).wNow d = s.lt := by
  have hclk : ((s.enabledAtLt d).dom d).clk = { w0 := s.lt, lt0 := s.lt } :=
    congrArg Domain.clk (State.dom_putClock_same ..)
  rw [State.wNow_of_anchored (s.domEn_enabledAtLt d) (by rw [hclk]; rfl) (by rw [hclk]), hclk]

theorem State.enableDomain_eq {s : State} {d : Nat} (hen : s.domEn d = false) :
    s.enableDomain d = (s.enabledAtLt d).checkGm d := if_neg (by simp [hen])

/-- An enabled domain with GM clear that is not GRANDMASTER keeps its STATE (R226). -/
theorem State.checkGm_of_follower {s : State} {d : Nat} (hgm : s.bit (Reg.TIM_DOMCFG d) 1 = false)
    (hst : s.domState d ≠ 3) : s.checkGm d = s := by
  unfold State.checkGm
  simp [hgm, hst]

/-- GM of an enabled domain makes it GRANDMASTER (R226). -/
theorem State.checkGm_of_gm {s : State} {d : Nat} (hen : s.domEn d = true)
    (hgm : s.bit (Reg.TIM_DOMCFG d) 1 = true) (hst : s.domState d ≠ 3) :
    s.checkGm d = ((s.setDom d { s.dom d with cand := none }).setLockRun d 0).setDomState d 3 := by
  unfold State.checkGm
  simp [hen, hgm, hst]

end

section
variable {s : State} {m : Master} {d : Fin 4} (hadm : s.admits m (Reg.TIM_DOMCFG d.val))
include hadm

theorem domainEnable_follower (hen : s.domEn d.val = false) (hgm : s.bit (Reg.TIM_DOMCFG d.val) 1 = false)
    (hst : s.domState d.val = 0) :
    Answers (.domainEnable m d) s fun t =>
      t.domEn d.val = true ∧ t.domState d.val = 0 ∧ t.wNow d.val = s.lt ∧ t.rd (Reg.TIM_DRATE d.val) = 0 := by
  have hst' := ((s.reply 0).domState_enabledAtLt d.val).trans hst
  refine ⟨(s.reply 0).enabledAtLt d.val, ?_, State.domEn_enabledAtLt .., hst', State.wNow_enabledAtLt ..,
    State.rd_putClock_rate ..⟩
  rw [exec_domainEnable, execDomainEnable, guardReg_of_admits hadm, State.enableDomain_eq (s := s.reply 0) hen,
    State.checkGm_of_follower (((s.reply 0).gm_enabledAtLt d.val).trans hgm) (by omega)]

theorem domainEnable_grandmaster (hen : s.domEn d.val = false) (hgm : s.bit (Reg.TIM_DOMCFG d.val) 1 = true)
    (hst : s.domState d.val ≠ 3) :
    Answers (.domainEnable m d) s fun t => t.domEn d.val = true ∧ t.domState d.val = 3 := by
  have hst' : ((s.reply 0).enabledAtLt d.val).domState d.val ≠ 3 :=
    ((s.reply 0).domState_enabledAtLt d.val).trans_ne hst
  refine ⟨_, by rw [exec_domainEnable, execDomainEnable, guardReg_of_admits hadm,
    State.enableDomain_eq (s := s.reply 0) hen,
    State.checkGm_of_gm (State.domEn_enabledAtLt ..) (((s.reply 0).gm_enabledAtLt d.val).trans hgm) hst'], ?_,
    State.domState_setDomState _ _ (by omega)⟩
  rw [State.domEn, State.bit_congr (State.rd_setDomState_other _ _ _ (regKey_ne (by omega))),
    State.setLockRun, State.bit_congr (State.rd_setFld_other _ _ (regKey_ne (by omega))),
    State.bit_congr (State.rd_setDom ..)]
  exact State.domEn_enabledAtLt ..

end

theorem State.dom_setLockRun (s : State) (d n x : Nat) : (s.setLockRun d n).dom x = s.dom x :=
  State.dom_congr (State.setFld_tim ..) x

/-- The domain disabled and its servo state cleared, before the step to LT counts (R225). -/
def State.disabledAtLt (s : State) (d : Nat) : State :=
  (((s.setBit (Reg.TIM_DOMCFG d) 0 false).putClock d {}).setDom d {}).setLockRun d 0

theorem State.disableDomain_eq {s : State} {d : Nat} (hen : s.domEn d = true) :
    s.disableDomain d = ((s.disabledAtLt d).stepped d (s.wNow d)).setDomState d 0 := if_neg (by simp [hen])

section
variable (s : State) (d : Nat)

theorem State.domEn_disabledAtLt : (s.disabledAtLt d).domEn d = false := by
  rw [State.domEn, State.disabledAtLt, State.setLockRun,
    State.bit_congr (State.rd_setFld_other _ _ (regKey_ne (by omega))), State.bit_congr (State.rd_setDom ..),
    State.bit_congr (State.rd_putClock_other _ _ _ (regKey_ne (by omega)))]
  exact State.bit_setBit_same _ _ _ _ (by omega)

theorem State.stepCount_disabledAtLt :
    (s.disabledAtLt d).fld (Reg.TIM_DSTAT d) 8 8 = s.fld (Reg.TIM_DSTAT d) 8 8 := by
  rw [State.disabledAtLt, State.setLockRun, State.fld_setFld_apart _ _ _ _ _ _ _ _ (by omega) (by omega),
    State.fld_congr (State.rd_setDom ..), State.fld_congr (State.rd_putClock_other _ _ _ (regKey_ne (by omega))),
    State.fld_congr (State.rd_setBit_other _ _ (regKey_ne (by omega)))]

theorem State.lockRun_disabledAtLt : (s.disabledAtLt d).fld (Reg.TIM_DSTAT d) 16 8 = 0 :=
  State.fld_setFld_same _ _ _ _ _ (by omega)

theorem State.dom_disabledAtLt : (s.disabledAtLt d).dom d = {} :=
  (State.dom_setLockRun ..).trans (State.dom_setDom_same ..)

end

theorem domainDisable_clears {s : State} {m : Master} {d : Fin 4} (hadm : s.admits m (Reg.TIM_DOMCFG d.val))
    (hen : s.domEn d.val = true) :
    Answers (.domainDisable m d) s fun t =>
      t.domEn d.val = false ∧ t.domState d.val = 0 ∧ t.bit (Reg.TIM_DSTAT d.val) 2 = false ∧
      t.fld (Reg.TIM_DSTAT d.val) 16 8 = 0 ∧ (t.dom d.val).cand = none ∧
      t.fld (Reg.TIM_DSTAT d.val) 8 8 = (s.fld (Reg.TIM_DSTAT d.val) 8 8 + 1) % 256 := by
  refine ⟨_, by rw [exec_domainDisable, execDomainDisable, guardReg_of_admits hadm,
    State.disableDomain_eq (s := s.reply 0) hen], ?_, State.domState_setDomState _ _ (by omega),
    State.validTb_setDomState .., ?_, ?_, ?_⟩
  · rw [State.domEn, State.bit_congr (State.rd_setDomState_other _ _ _ (regKey_ne (by omega))),
      State.bit_congr (State.rd_stepped_other _ _ _ (by omega) (by omega) (by omega) (by omega))]
    exact State.domEn_disabledAtLt ..
  · rw [State.fld_setDomState_apart _ _ _ (by omega), State.fld_stepped_apart _ _ _ d.isLt (by omega),
      State.lockRun_disabledAtLt]
  · rw [State.dom_congr ((State.setDomState_tim ..).trans (State.stepped_tim ..)), State.dom_disabledAtLt]
  · rw [State.fld_setDomState_apart _ _ _ (by omega), State.stepCount_stepped _ _ _ d.isLt,
      State.stepCount_disabledAtLt]
    rfl

/-! ## Samples (R227, R228) -/

/-- A sample that is not applied (R227). -/
def State.rejectSample (s : State) : State := (s.bump Cnt.TIM_SAMPLE_REJ).monEvent 0x242

section
variable (s : State)

theorem State.rejectSample_tim : s.rejectSample.tim = s.tim := (State.monEvent_tim ..).trans (State.bump_tim ..)

theorem State.rejected_rejectSample : (s.reply 0).rejectSample.rd Cnt.TIM_SAMPLE_REJ =
    (s.bump Cnt.TIM_SAMPLE_REJ).rd Cnt.TIM_SAMPLE_REJ := by
  rw [State.rejectSample, State.rd_monEvent_tim _ _ (by omega), State.bump_reply, State.rd_reply]

theorem State.domState_rejectSample {d : Nat} (hd : d < 4) : s.rejectSample.domState d = s.domState d := by
  rw [State.domState, State.rejectSample, State.fld_congr (State.rd_monEvent_tim _ _ (by omega)),
    State.fld_congr (State.rd_timCount _ (by omega) (by omega)), State.domState]

end

section
variable {s : State} {d : Nat}

/-- What R227 rejects. -/
theorem State.submitSample_of_rejected
    (h : s.domEn d = false ∨ s.domState d = 3 ∨ s.lt < s.rdTime (Reg.TIM_SMPLT_ns d) ∨
      1000000000 ≤ s.rdN (Reg.TIM_SMPMST_ns d) ∨ 65536000000000 + s.rdTime (Reg.TIM_SMPLT_ns d) < s.lt ∨
      (∃ x, (s.dom d).lastSample = some x ∧ s.rdTime (Reg.TIM_SMPLT_ns d) ≤ x)) :
    s.submitSample d = s.rejectSample := by
  refine if_pos ?_
  simp only [Bool.or_eq_true, Bool.not_eq_true', beq_iff_eq, decide_eq_true_eq]
  rcases h with hen | hst | hfuture | hns | hold | ⟨x, hx, hle⟩
  · simp [hen]
  · simp [hst]
  · simp [hfuture]
  · simp [hns]
  · simp [tkPerSec, hold]
  · simp [hx, hle]

/-- A first sample of a domain that follows a master, neither in the future nor older than 1 s, is accepted (R227). -/
theorem State.submitSample_of_first (hen : s.domEn d = true) (hst : s.domState d ≠ 3)
    (hpast : s.rdTime (Reg.TIM_SMPLT_ns d) ≤ s.lt) (hrecent : s.lt ≤ 65536000000000 + s.rdTime (Reg.TIM_SMPLT_ns d))
    (hfirst : (s.dom d).lastSample = none) (hns : s.rdN (Reg.TIM_SMPMST_ns d) < 1000000000) :
    s.submitSample d = s.sample d (s.rdTime (Reg.TIM_SMPLT_ns d)) (s.rdTime (Reg.TIM_SMPMST_ns d)) := by
  refine if_neg ?_
  simp [hen, hst, hfirst, tkPerSec, Nat.not_lt.mpr hpast, Nat.not_lt.mpr hrecent, Nat.not_le.mpr hns]

end

/-- A sample counted as accepted, with its offset shown, before the servo acts on it (R227). -/
def State.acceptSample (s : State) (d lt : Nat) (off : Int) : State :=
  let u := ((s.bump Cnt.TIM_SAMPLE_OK).monEvent 0x241).setOffset d off
  u.setDom d { u.dom d with lastSample := some lt, sync := u.timer }

/-- Local time from the last accepted sample to this one, 0 for a first sample. -/
def State.sampleInterval (s : State) (d lt : Nat) : Nat :=
  match (s.dom d).lastSample with
  | some x => lt - x
  | none => 0

section
variable (s : State) {d : Nat} (lt master : Nat) (off : Int)

theorem State.dom_acceptSample : ∃ x, (s.acceptSample d lt off).dom d =
    { s.dom d with lastSample := some lt, sync := x } := by
  have htim : (((s.bump Cnt.TIM_SAMPLE_OK).monEvent 0x241).setOffset d off).tim = s.tim :=
    (State.monEvent_tim ..).trans (State.bump_tim ..)
  exact ⟨_, (State.dom_setDom_same ..).trans (by rw [State.dom_congr htim])⟩

theorem State.rd_acceptSample {o : Nat} (ho : o < 0x100000) (hoff : o ≠ 0x1044 + 0x100 * d) (hcnt : o ≠ 0x108)
    (hcnt4 : o ≠ 0x10C) : (s.acceptSample d lt off).rd (regKey 24 o) = s.rd (regKey 24 o) := by
  rw [State.acceptSample, State.rd_setDom, State.setOffset, State.rd_wr_other _ _ (Ne.symm (regKey_ne hoff)),
    State.rd_monEvent_tim _ _ ho, State.rd_timCount _ hcnt hcnt4]

theorem State.domState_acceptSample (hd : d < 4) : (s.acceptSample d lt off).domState d = s.domState d := by
  rw [State.domState, State.fld_congr (State.rd_acceptSample _ _ _ (by omega) (by omega) (by omega) (by omega)),
    State.domState]

/-- A sample in FREERUN goes to the candidate clock (R228). -/
theorem State.sample_of_freerun (hd : d < 4) (hst : s.domState d = 0) :
    s.sample d lt master = (s.acceptSample d lt ((master : Int) - (s.dom d).clk.at_ lt)).candidateSample d lt master
      (s.sampleInterval d lt) := by
  have hst' := (s.domState_acceptSample lt ((master : Int) - (s.dom d).clk.at_ lt) hd).trans hst
  unfold State.sample
  dsimp only
  split
  · rfl
  · next h => exact absurd (hst'.symm.trans h) (by decide)
  · next h _ => exact absurd hst' h

/-- A sample of a GRANDMASTER corrects its clock (R230, R237). -/
theorem State.sample_of_grandmaster (hd : d < 4) (hst : s.domState d = 3) :
    s.sample d lt master = (s.acceptSample d lt ((master : Int) - (s.dom d).clk.at_ lt)).correct d lt master
      (s.sampleInterval d lt) ((master : Int) - (s.dom d).clk.at_ lt) := by
  have hst' := (s.domState_acceptSample lt ((master : Int) - (s.dom d).clk.at_ lt) hd).trans hst
  unfold State.sample
  dsimp only
  split
  · next h => exact absurd (hst'.symm.trans h) (by decide)
  · rfl
  · next h => exact absurd hst' h

end

/-- The first sample starts the candidate clock and counts as one in a row (R228). -/
theorem State.candidateSample_first {s : State} {d lt master interval : Nat} (hcand : (s.dom d).cand = none)
    (hneed : 1 < s.fld (Reg.TIM_LOCKCFG d) 16 8) :
    s.candidateSample d lt master interval =
      (s.setDom d { s.dom d with
        cand := some { w0 := master, lt0 := lt, rho := (s.dom d).clk.base, base := (s.dom d).clk.base } }).setLockRun
        d 1 := by
  unfold State.candidateSample
  simp only [hcand]
  refine if_neg ?_
  rw [State.setLockRun, State.fld_congr (State.rd_setFld_other _ _ (regKey_ne (by omega))),
    State.fld_congr (State.rd_setDom ..)]
  exact Nat.not_le.mpr (lt_max_of_lt_right hneed)

/-- A first sample in FREERUN: its candidate is anchored at the sample, LOCKRUN is 1, and the clock goes on as it
was (R228). -/
theorem State.sample_first {s : State} {d : Nat} (lt master : Nat) (hd : d < 4) (hst : s.domState d = 0)
    (hcand : (s.dom d).cand = none) (hneed : 1 < s.fld (Reg.TIM_LOCKCFG d) 16 8) :
    ((s.sample d lt master).dom d).lastSample = some lt ∧
      (s.sample d lt master).fld (Reg.TIM_DSTAT d) 16 8 = 1 ∧ (s.sample d lt master).domState d = 0 ∧
      (∃ k, ((s.sample d lt master).dom d).cand = some k ∧ k.w0 = master ∧ k.lt0 = lt) ∧
      ((s.sample d lt master).dom d).clk = (s.dom d).clk := by
  rw [State.sample_of_freerun _ _ _ hd hst]
  have hstate := (s.domState_acceptSample lt ((master : Int) - (s.dom d).clk.at_ lt) hd).trans hst
  have hlock := State.fld_congr (s.rd_acceptSample (d := d) (o := 0x1004 + 0x100 * d) lt
    ((master : Int) - (s.dom d).clk.at_ lt) (by omega) (by omega) (by omega) (by omega)) 16 8
  obtain ⟨x, hdom⟩ := s.dom_acceptSample (d := d) lt ((master : Int) - (s.dom d).clk.at_ lt)
  generalize s.acceptSample d lt ((master : Int) - (s.dom d).clk.at_ lt) = u at hstate hlock hdom ⊢
  rw [State.candidateSample_first (by rw [hdom]; exact hcand) (hneed.trans_eq hlock.symm)]
  simp only [State.dom_setLockRun, State.dom_setDom_same, hdom]
  refine ⟨trivial, State.fld_setFld_same _ _ _ _ _ (by omega), ?_, ⟨_, rfl, rfl, rfl⟩, trivial⟩
  rw [State.domState, State.setLockRun, State.fld_setFld_apart _ _ _ _ _ _ _ _ (by omega) (by omega)]
  exact hstate

section
variable {s : State} {m : Master} {d : Fin 4} (hadm : s.admits m (Reg.TIM_SMPCTL d.val))
include hadm

theorem timeSampleSubmit_rejects
    (h : s.domEn d.val = false ∨ s.domState d.val = 3 ∨ s.lt < s.rdTime (Reg.TIM_SMPLT_ns d.val) ∨
      1000000000 ≤ s.rdN (Reg.TIM_SMPMST_ns d.val) ∨
      65536000000000 + s.rdTime (Reg.TIM_SMPLT_ns d.val) < s.lt ∨
      (∃ x, (s.dom d.val).lastSample = some x ∧ s.rdTime (Reg.TIM_SMPLT_ns d.val) ≤ x)) :
    Answers (.timeSampleSubmit m d) s fun t =>
      t.tim = s.tim ∧ t.rd Cnt.TIM_SAMPLE_REJ = (s.bump Cnt.TIM_SAMPLE_REJ).rd Cnt.TIM_SAMPLE_REJ ∧
      t.domState d.val = s.domState d.val :=
  ⟨(s.reply 0).rejectSample, by rw [exec_timeSampleSubmit, execTimeSampleSubmit, guardReg_of_admits hadm,
    State.submitSample_of_rejected (s := s.reply 0) h], State.rejectSample_tim _, s.rejected_rejectSample,
    State.domState_rejectSample _ d.isLt⟩

theorem timeSampleSubmit_starts_candidate (hen : s.domEn d.val = true) (hst : s.domState d.val = 0)
    (hpast : s.rdTime (Reg.TIM_SMPLT_ns d.val) ≤ s.lt)
    (hrecent : s.lt ≤ 65536000000000 + s.rdTime (Reg.TIM_SMPLT_ns d.val))
    (hfirst : (s.dom d.val).lastSample = none) (hns : s.rdN (Reg.TIM_SMPMST_ns d.val) < 1000000000)
    (hcand : (s.dom d.val).cand = none) (hneed : 1 < s.fld (Reg.TIM_LOCKCFG d.val) 16 8) :
    Answers (.timeSampleSubmit m d) s fun t =>
      (t.dom d.val).lastSample = some (s.rdTime (Reg.TIM_SMPLT_ns d.val)) ∧
      t.fld (Reg.TIM_DSTAT d.val) 16 8 = 1 ∧ t.domState d.val = 0 ∧
      (∃ k, (t.dom d.val).cand = some k ∧ k.w0 = s.rdTime (Reg.TIM_SMPMST_ns d.val) ∧
        k.lt0 = s.rdTime (Reg.TIM_SMPLT_ns d.val)) ∧
      (t.dom d.val).clk = (s.dom d.val).clk := by
  have hst3 : s.domState d.val ≠ 3 := by omega
  refine ⟨_, by rw [exec_timeSampleSubmit, execTimeSampleSubmit, guardReg_of_admits hadm,
    State.submitSample_of_first (s := s.reply 0) hen hst3 hpast hrecent hfirst hns], ?_⟩
  exact State.sample_first (s := s.reply 0) _ _ d.isLt hst hcand hneed

end

/-! ## HOLDOVER (R229) -/

section
variable {s : State} {d : Fin 4}

theorem syncTimeout_holds_over (hst : s.domState d.val = 1) (hdue : s.syncDue d.val = true) :
    Answers (.syncTimeout d) s fun t =>
      t.domState d.val = 2 ∧ t.bit (Reg.TIM_DSTAT d.val) 2 = true ∧
      t.dom d.val = { s.dom d.val with holdAt := s.nowNs } ∧ ∀ x, x ≠ d.val → t.dom x = s.dom x := by
  have hrd := ((s.setDomState d.val 2).setDom d.val
    { (s.setDomState d.val 2).dom d.val with holdAt := s.nowNs }).rd_timCount (c := 0x118) (o := 0x1040 + 0x100 * d.val)
    (by omega) (by omega)
  have hdom := State.dom_congr (State.setDomState_tim s d.val 2)
  refine ⟨_, by rw [exec_syncTimeout, execSyncTimeout, if_neg (by simp [hst, hdue])], ?_, ?_, ?_, fun x hx => ?_⟩
  · rw [State.domState, State.fld_congr hrd]
    exact State.domState_setDomState _ _ (by omega)
  · rw [State.bit_congr hrd]
    exact State.validTb_setDomState ..
  · rw [State.dom_congr (State.bump_tim ..), State.dom_setDom_same, hdom]
  · rw [State.dom_congr (State.bump_tim ..), State.dom_setDom_other _ _ _ hx, hdom]

theorem syncTimeout_waits (h : s.domState d.val ≠ 1 ∨ s.syncDue d.val = false) :
    Answers (.syncTimeout d) s fun t => t = s :=
  ⟨s, by rw [exec_syncTimeout, execSyncTimeout, if_pos h], rfl⟩

theorem holdoverExpiry_frees (hst : s.domState d.val = 2)
    (hdue : (s.dom d.val).holdAt + 1000000000 * max 1 (s.fld (Reg.TIM_SYNCTMO d.val) 16 16) ≤ s.nowNs) :
    Answers (.holdoverExpiry d) s fun t =>
      t.domState d.val = 0 ∧ t.bit (Reg.TIM_DSTAT d.val) 2 = false ∧ t.fld (Reg.TIM_DSTAT d.val) 16 8 = 0 ∧
      t.tim = s.tim ∧ t.reports = s.reports ++ [⟨0x2181, 0, s.nowNs⟩] := by
  have hdue' : s.holdoverDue d.val = true := decide_eq_true hdue
  have hrd := ((s.setDomState d.val 0).setLockRun d.val 0).rd_timCount (c := 0x120) (o := 0x1040 + 0x100 * d.val)
    (by omega) (by omega)
  have hkeeps := s.keeps_setDomState d.val 0
  refine ⟨_, by rw [exec_holdoverExpiry, execHoldoverExpiry, if_neg (by simp [hst, hdue'])], ?_, ?_, ?_, ?_, ?_⟩
  · rw [State.domState, State.fld_congr (State.rd_fault ..), State.fld_congr hrd, State.setLockRun,
      State.fld_setFld_apart _ _ _ _ _ _ _ _ (by omega) (by omega)]
    exact State.domState_setDomState _ _ (by omega)
  · rw [State.bit_fault, State.bit_congr hrd, State.setLockRun, State.bit_setFld_apart _ _ (by omega) (by omega)]
    exact State.validTb_setDomState ..
  · rw [State.fld_congr (State.rd_fault ..), State.fld_congr hrd]
    exact State.fld_setFld_same _ _ _ _ _ (by omega)
  · rw [State.fault_tim, State.bump_tim, State.setLockRun, State.setFld_tim, State.setDomState_tim]
  · rw [State.reports_fault, State.bump_reports, State.bump_nowNs, State.setLockRun, State.setFld_reports,
      State.setFld_nowNs, hkeeps.nowNs, show (s.setDomState d.val 0).reports = s.reports from hkeeps.same .reports rfl]
    rfl

theorem holdoverExpiry_waits (h : s.domState d.val ≠ 2 ∨
      s.nowNs < (s.dom d.val).holdAt + 1000000000 * max 1 (s.fld (Reg.TIM_SYNCTMO d.val) 16 16)) :
    Answers (.holdoverExpiry d) s fun t => t = s := by
  have hwaits : s.domState d.val ≠ 2 ∨ s.holdoverDue d.val = false :=
    h.imp_right fun hearly => decide_eq_false (Nat.not_le.mpr hearly)
  exact ⟨s, by rw [exec_holdoverExpiry, execHoldoverExpiry, if_pos hwaits], rfl⟩

end

/-! ## TIME_SET (R230) -/

/-- The clock of a domain set to TIM_SETTIME now, and the cycle of it kept (R230, R240). -/
def State.clockSet (s : State) (d : Nat) : State :=
  (s.setDom d { s.dom d with setAt := some s.nowNs }).putClock d
    { w0 := s.rdTime (Reg.TIM_SETTIME_ns d), lt0 := s.lt, rho := (s.dom d).clk.base, base := (s.dom d).clk.base }

theorem State.setTime_of_grandmaster {s : State} {d : Nat} (hst : s.domState d = 3) :
    s.setTime d = (s.clockSet d).stepped d (s.wNow d) := if_neg (by simp [hst])

theorem State.setTime_of_follower {s : State} {d : Nat} (hst : s.domState d ≠ 3) : s.setTime d = s.rejectSample :=
  if_pos hst

theorem State.rd_clockSet_dstat (s : State) (d : Nat) :
    (s.clockSet d).rd (Reg.TIM_DSTAT d) = s.rd (Reg.TIM_DSTAT d) := by
  rw [State.clockSet, State.rd_putClock_other _ _ _ (regKey_ne (by omega)), State.rd_setDom]

section
variable {s : State} {m : Master} {d : Fin 4} (hadm : s.admits m (Reg.TIM_SETCTL d.val))
include hadm

theorem timeSet_steps (hst : s.domState d.val = 3) :
    Answers (.timeSet m d) s fun t =>
      (t.dom d.val).clk = { w0 := s.rdTime (Reg.TIM_SETTIME_ns d.val), lt0 := s.lt,
                            rho := (s.dom d.val).clk.base, base := (s.dom d.val).clk.base } ∧
      t.domState d.val = 3 ∧
      t.fld (Reg.TIM_DSTAT d.val) 8 8 = (s.fld (Reg.TIM_DSTAT d.val) 8 8 + 1) % 256 := by
  have hrd := (s.reply 0).rd_clockSet_dstat d.val
  refine ⟨_, by rw [exec_timeSet, execTimeSet, guardReg_of_admits hadm,
    State.setTime_of_grandmaster (s := s.reply 0) hst], ?_, ?_, ?_⟩
  · rw [State.dom_congr (State.stepped_tim ..), State.clockSet, State.dom_putClock_same]
    rfl
  · rw [State.domState, State.fld_stepped_apart _ _ _ d.isLt (by omega), State.fld_congr hrd]
    exact hst
  · rw [State.stepCount_stepped _ _ _ d.isLt, State.fld_congr hrd]
    rfl

theorem timeSet_rejects (hst : s.domState d.val ≠ 3) :
    Answers (.timeSet m d) s fun t => t.tim = s.tim ∧
      t.rd Cnt.TIM_SAMPLE_REJ = (s.bump Cnt.TIM_SAMPLE_REJ).rd Cnt.TIM_SAMPLE_REJ :=
  ⟨(s.reply 0).rejectSample, by rw [exec_timeSet, execTimeSet, guardReg_of_admits hadm,
    State.setTime_of_follower (s := s.reply 0) hst], State.rejectSample_tim _, s.rejected_rejectSample⟩

end

/-! ## Snapshots and conversions (R231, R236, R240) -/

theorem tkNs_lt (t : Nat) : tkNs t < 2 ^ 32 := (Nat.mod_lt _ (by omega)).trans (by omega)

section
variable (s : State) (k t : Nat)

theorem State.rd_wrTime_other {k' : Nat} (h : k' ≠ k) (h4 : k' ≠ k + 4) (h8 : k' ≠ k + 8) :
    (s.wrTime k t).rd k' = s.rd k' := by
  rw [State.wrTime, State.rd_wr_other _ _ (Ne.symm h8), State.rd_wrN_other _ _ h4, State.rd_wrN_other _ _ h]

/-- The first word of a time holds its nanoseconds (R231). -/
theorem State.rdN_wrTime : (s.wrTime k t).rdN k = tkNs t := by
  rw [State.rdN, State.wrTime, State.rd_wr_other _ _ (by omega), State.rd_wrN_other _ _ (by omega), ← State.rdN,
    State.rdN_wrN_same, Nat.mod_eq_of_lt (tkNs_lt t)]

@[simp] theorem State.wrTime_tim : (s.wrTime k t).tim = s.tim := by
  rw [State.wrTime, State.wr_tim, State.wrN_tim, State.wrN_tim]

end

theorem State.rdN_congr {s t : State} {k : Nat} (h : t.rd k = s.rd k) : t.rdN k = s.rdN k := by
  rw [State.rdN, h, State.rdN]

/-- A field of a word written as a number that fits. -/
theorem State.rdN_wrN_fld (s u : State) (k k' lo : Nat) {n : Nat} (hn : n ≤ 32) :
    (s.wrN k (u.fld k' lo n)).rdN k = u.fld k' lo n := by
  rw [State.rdN_wrN_same]
  exact Nat.mod_eq_of_lt ((getBits_lt _ _ _).trans_le (Nat.pow_le_pow_right (by omega) hn))

/-- The working clocks of the first `n` domains written into TIM_SNAPD, over a state `u` (R240). -/
def State.snapDomains (s u : State) (n : Nat) : State :=
  (List.range n).foldl
    (fun acc d => (acc.wrTime (Reg.TIM_SNAPD_ns d) (s.wNow d)).wrN (Reg.TIM_SNAPD_w3 d) (s.fld (Reg.TIM_DSTAT d) 8 8)) u

section
variable (s u : State) (n : Nat)

theorem State.snapDomains_succ : s.snapDomains u (n + 1) =
    ((s.snapDomains u n).wrTime (Reg.TIM_SNAPD_ns n) (s.wNow n)).wrN (Reg.TIM_SNAPD_w3 n)
      (s.fld (Reg.TIM_DSTAT n) 8 8) := by
  simp only [State.snapDomains, List.range_succ, List.foldl_append, List.foldl_cons, List.foldl_nil]

/-- The four words of a domain are the only ones that its snapshot writes. -/
theorem State.rd_snapDomains_succ_other {k : Nat} (h : k < Reg.TIM_SNAPD_ns n ∨ Reg.TIM_SNAPD_w3 n < k) :
    (s.snapDomains u (n + 1)).rd k = (s.snapDomains u n).rd k := by
  simp only [regKey] at h
  rw [State.snapDomains_succ, State.rd_wrN_other _ _ (by simp only [regKey]; omega),
    State.rd_wrTime_other _ _ _ (by simp only [regKey]; omega) (by simp only [regKey]; omega)
      (by simp only [regKey]; omega)]

theorem State.rd_snapDomains_below {k : Nat} (h : k < Reg.TIM_SNAPD_ns 0) : (s.snapDomains u n).rd k = u.rd k := by
  induction n with
  | zero => rfl
  | succ n ih =>
    simp only [regKey] at h
    rw [State.rd_snapDomains_succ_other _ _ _ (.inl (by simp only [regKey]; omega)), ih]

theorem State.rdN_snapDomains {d : Nat} (hd : d < n) :
    (s.snapDomains u n).rdN (Reg.TIM_SNAPD_ns d) = tkNs (s.wNow d) ∧
      (s.snapDomains u n).rdN (Reg.TIM_SNAPD_w3 d) = s.fld (Reg.TIM_DSTAT d) 8 8 := by
  induction n with
  | zero => exact absurd hd (Nat.not_lt_zero d)
  | succ n ih =>
    rcases Nat.lt_succ_iff_lt_or_eq.mp hd with hlt | rfl
    · rw [State.rdN_congr (State.rd_snapDomains_succ_other _ _ _ (.inl (by simp only [regKey]; omega))),
        State.rdN_congr (State.rd_snapDomains_succ_other _ _ _ (.inl (by simp only [regKey]; omega)))]
      exact ih hlt
    · rw [State.snapDomains_succ]
      refine ⟨?_, State.rdN_wrN_fld _ _ _ _ _ (by omega)⟩
      rw [State.rdN_congr (State.rd_wrN_other _ _ (regKey_ne (by omega))), State.rdN_wrTime]

theorem State.snapDomains_tim : (s.snapDomains u n).tim = u.tim := by
  induction n with
  | zero => rfl
  | succ n ih => rw [State.snapDomains_succ, State.wrN_tim, State.wrTime_tim, ih]

theorem State.snapTimes_eq : s.snapTimes = s.snapDomains (s.wrTime Reg.TIM_SNAPLT_ns s.lt) 4 := rfl

end

theorem timeSnapshot_holds {s : State} {m : Master} (hadm : s.admits m Reg.TIM_SNAPCTL) :
    Answers (.timeSnapshot m) s fun t =>
      t.rdN Reg.TIM_SNAPLT_ns = tkNs s.lt ∧
      (∀ d < 4, t.rdN (Reg.TIM_SNAPD_ns d) = tkNs (s.wNow d) ∧
        t.rdN (Reg.TIM_SNAPD_w3 d) = s.fld (Reg.TIM_DSTAT d) 8 8) ∧
      t.tim = s.tim := by
  refine ⟨_, by rw [exec_timeSnapshot, execTimeSnapshot, guardReg_of_admits hadm, State.snapTimes_eq], ?_,
    fun d hd => State.rdN_snapDomains (s.reply 0) _ _ hd, ?_⟩
  · rw [State.rdN_congr (State.rd_snapDomains_below _ _ _ (by decide)), State.rdN_wrTime]
    rfl
  · rw [State.snapDomains_tim]
    rfl

theorem timeConvert_converts {s : State} {m : Master} {d : Fin 4} (hadm : s.admits m Reg.TIM_CONVCTL) :
    Answers (.timeConvert m d) s fun t =>
      t.rdN Reg.TIM_CONVOUT_ns = tkNs (s.wAt d.val (s.rdTime Reg.TIM_CONVIN_ns)) ∧
      t.rdN Reg.TIM_CONVSTAT = s.fld (Reg.TIM_DSTAT d.val) 8 8 ∧ t.fld Reg.TIM_CONVCTL 0 2 = d.val ∧
      t.tim = s.tim := by
  refine ⟨(s.reply 0).convert d.val, by rw [exec_timeConvert, execTimeConvert, guardReg_of_admits hadm], ?_,
    State.rdN_wrN_fld _ _ _ _ _ (by omega), ?_,
    (State.wrN_tim ..).trans ((State.wrTime_tim ..).trans (State.setFld_tim ..))⟩
  · rw [State.convert, State.rdN_congr (State.rd_wrN_other _ _ (regKey_ne (by omega))), State.rdN_wrTime]
    rfl
  · rw [State.convert, State.fld_congr (State.rd_wrN_other _ _ (regKey_ne (by omega))),
      State.fld_congr (State.rd_wrTime_other _ _ _ (by decide) (by decide) (by decide)),
      State.fld_setFld_same _ _ _ _ _ (by omega), Nat.mod_eq_of_lt (show d.val < 2 ^ 2 from d.isLt)]

/-- Settles O39: each command writes the clock of its domain, its STATE, or the words that it answers in, and what else
these commands touch are counters and the lists that follow the domain. -/
theorem domainCommandsComplete : Obligations.DomainCommandsComplete :=
  ⟨fun _ _ _ => domainEnable_follower, fun _ _ _ => domainEnable_grandmaster, fun _ _ _ => domainDisable_clears,
    fun _ _ _ => timeSampleSubmit_rejects, fun _ _ _ => timeSampleSubmit_starts_candidate,
    fun _ _ => syncTimeout_holds_over, fun _ _ => syncTimeout_waits, fun _ _ => holdoverExpiry_frees,
    fun _ _ => holdoverExpiry_waits, fun _ _ _ => timeSet_steps, fun _ _ _ => timeSet_rejects,
    fun _ _ => timeSnapshot_holds, fun _ _ _ => timeConvert_converts⟩

end Sys2Proof.Machine
end

section
/-!
PROOFS. The pins of the time unit, the alignment of the Edge die and the oscillator check (R231, R233, R237, R238, R240,
R241): what the capture of an edge leaves, the sample that it gives, and the rate from the cycles of a 10 MHz input.
-/

namespace Sys2Proof.Machine

open Sys2Proof

/-! ## The alignment of the Edge die (R233) -/

section
variable {s : State} {moved residual : Int}

/-- The Edge die's copy of LT aligned. -/
def State.edgeAligned (s : State) (residual : Int) : State :=
  { s with tim := { s.tim with edgeSkew := clampInt (-65536) 65536 residual, realign := false } }

theorem execLtAlignFlit_of_up (hup : s.traverse.state = .up) :
    execLtAlignFlit moved residual s =
      .next (if s.tim.realign && decide (131072 < moved.natAbs) then (s.edgeAligned residual).fault 0x1184 0
        else s.edgeAligned residual) := by
  rw [execLtAlignFlit, if_neg (by simp [hup])]
  rfl

theorem ltAlignFlit_aligns (hup : s.traverse.state = .up) :
    Answers (.ltAlignFlit moved residual) s fun t =>
      t.tim = { s.tim with edgeSkew := clampInt (-65536) 65536 residual, realign := false } ∧
      (s.tim.realign = true → 131072 < moved.natAbs → t.reports = s.reports ++ [⟨0x1184, 0, s.nowNs⟩]) ∧
      (s.tim.realign = false ∨ moved.natAbs ≤ 131072 → t.reports = s.reports ∧ t.regs = s.regs) := by
  refine ⟨_, (exec_ltAlignFlit ..).trans (execLtAlignFlit_of_up hup), ?_⟩
  split_ifs with hfar
  · rw [Bool.and_eq_true, decide_eq_true_eq] at hfar
    obtain ⟨hrealign, hmoved⟩ := hfar
    exact ⟨rfl, fun _ _ => rfl, fun h => by
      rcases h with h | h
      · exact absurd hrealign (by simp [h])
      · exact absurd hmoved (Nat.not_lt.mpr h)⟩
  · exact ⟨rfl, fun h h' => absurd (by simp [h, h']) hfar, fun _ => ⟨rfl, rfl⟩⟩

end

/-! ## The capture of an edge (R231, R237) -/

/-- A capture is a multiple of 0.5 ns, within 2 ns and its resolution of the edge (R231). -/
theorem State.edgeTime_bounds (s : State) (error : Int) :
    s.edgeTime error % 32768 = 0 ∧ s.lt ≤ 163840 + s.edgeTime error ∧ s.edgeTime error ≤ 131072 + s.lt := by
  have herror : -131072 ≤ clampInt (-(2 * nsUnits : Int)) (2 * nsUnits) error ∧
      clampInt (-(2 * nsUnits : Int)) (2 * nsUnits) error ≤ 131072 := by
    unfold clampInt nsUnits
    split_ifs <;> omega
  unfold State.edgeTime
  omega

/-- The local time of the last edge of TIME_IN noted. -/
def State.noteEdge (s : State) : State := { s with tim := { s.tim with timeInLast := some s.lt } }

section
variable (s : State) (x : Nat)

theorem State.keeps_captureEdge : s.Keeps (fun p => [Part.regs, .saturated].contains p) (s.captureEdge x) :=
  State.captureEdge_keeps (all_contains _) (State.Keeps.refl _ s) x

@[simp] theorem State.captureEdge_tim : (s.captureEdge x).tim = s.tim := (s.keeps_captureEdge x).same .tim rfl

theorem State.captureEdge_nowNs : (s.captureEdge x).nowNs = s.nowNs := (s.keeps_captureEdge x).nowNs

/-- A capture writes TIM_INTS and TIM_INSTAT, and counts in TIME_IN_EDGES. -/
theorem State.rd_captureEdge_other {o : Nat}
    (h : o ≠ 0xA8 ∧ o ≠ 0xAC ∧ o ≠ 0xB0 ∧ o ≠ 0xB4 ∧ o ≠ 0x138 ∧ o ≠ 0x13C) :
    (s.captureEdge x).rd (regKey 24 o) = s.rd (regKey 24 o) := by
  obtain ⟨hns, hsec, hhi, hstat, hcnt, hcnt4⟩ := h
  rw [State.captureEdge, State.rd_timCount _ hcnt hcnt4, State.rd_setBit_other _ _ (regKey_ne hstat),
    State.rd_wrTime_other _ _ _ (regKey_ne hns) (regKey_ne (y := 0xAC) hsec) (regKey_ne (y := 0xB0) hhi)]

theorem State.captured_captureEdge : (s.captureEdge x).bit Reg.TIM_INSTAT 0 = true := by
  rw [State.captureEdge, State.bit_congr (State.rd_timCount _ (by omega) (by omega)),
    State.bit_setBit_same _ _ _ _ (by omega)]

theorem State.rdN_captureEdge : (s.captureEdge x).rdN Reg.TIM_INTS_ns = tkNs x := by
  rw [State.captureEdge, State.rdN_congr (State.rd_timCount _ (by omega) (by omega)),
    State.rdN_congr (State.rd_setBit_other _ _ (regKey_ne (by omega))), State.rdN_wrTime]

/-- A capture leaves the STATE of every domain. -/
theorem State.domState_captureEdge (d : Nat) : (s.captureEdge x).domState d = s.domState d := by
  rw [State.domState, State.fld_congr (State.rd_captureEdge_other _ _ (by omega)), State.domState]

/-- A capture leaves the selection of the domain that TIME_IN disciplines. -/
theorem State.disciplines_captureEdge : (s.captureEdge x).disciplines = s.disciplines := by
  have hcfg := s.rd_captureEdge_other x (o := 0xA0) (by omega)
  rw [State.disciplines, State.bit_congr hcfg, State.fld_congr hcfg, State.domState_captureEdge, State.disciplines]

end

/-! ## Corrections (R227, R228) -/

section
variable (s : State) {d : Nat} (lt master interval : Nat) (off : Int)

/-- A correction replaces the clock of its domain, and steps beyond STEPTHR. -/
theorem State.correct_eq : ∃ c, s.correct d lt master interval off = s.putClock d c ∨
    ∃ old, s.correct d lt master interval off = (s.putClock d c).stepped d old := by
  unfold State.correct
  dsimp only
  split
  · exact ⟨_, .inr ⟨_, rfl⟩⟩
  · exact ⟨_, .inl rfl⟩

theorem State.dom_correct : ∃ c, (s.correct d lt master interval off).dom d = { s.dom d with clk := c } := by
  obtain ⟨c, h | ⟨old, h⟩⟩ := s.correct_eq (d := d) lt master interval off
  · exact ⟨c, by rw [h, State.dom_putClock_same]⟩
  · exact ⟨c, by rw [h, State.dom_congr (State.stepped_tim ..), State.dom_putClock_same]⟩

theorem State.domState_correct (hd : d < 4) :
    (s.correct d lt master interval off).domState d = s.domState d := by
  have hput : ∀ c, (s.putClock d c).domState d = s.domState d := fun c =>
    State.fld_congr (State.rd_putClock_other _ _ _ (regKey_ne (by omega))) 0 2
  obtain ⟨c, h | ⟨old, h⟩⟩ := s.correct_eq (d := d) lt master interval off
  · rw [h, hput]
  · rw [h, State.domState, State.fld_stepped_apart _ _ _ hd (by omega)]
    exact hput c

/-- The pins' registers lie before those of the domains and before the counters. -/
theorem State.rd_correct_pin {o : Nat} (ho : o < 0x100) :
    (s.correct d lt master interval off).rd (regKey 24 o) = s.rd (regKey 24 o) := by
  have hput : ∀ c, (s.putClock d c).rd (regKey 24 o) = s.rd (regKey 24 o) := fun c =>
    State.rd_putClock_other _ _ _ (regKey_ne (by omega))
  obtain ⟨c, h | ⟨old, h⟩⟩ := s.correct_eq (d := d) lt master interval off
  · rw [h, hput]
  · rw [h, State.rd_stepped_other _ _ _ (by omega) (by omega) (by omega) (by omega), hput]

/-- A sample of a GRANDMASTER is its last accepted one, and leaves its STATE and the pins' registers. -/
theorem State.sample_grandmaster (hd : d < 4) (hst : s.domState d = 3) :
    ((s.sample d lt master).dom d).lastSample = some lt ∧ (s.sample d lt master).domState d = 3 ∧
      ∀ o < 0x100, (s.sample d lt master).rd (regKey 24 o) = s.rd (regKey 24 o) := by
  rw [State.sample_of_grandmaster _ _ _ hd hst]
  have hstate := (s.domState_acceptSample lt ((master : Int) - (s.dom d).clk.at_ lt) hd).trans hst
  have hrd := fun o (ho : o < 0x100) => s.rd_acceptSample (d := d) (o := o) lt ((master : Int) - (s.dom d).clk.at_ lt)
    (by omega) (by omega) (by omega) (by omega)
  obtain ⟨x, hdom⟩ := s.dom_acceptSample (d := d) lt ((master : Int) - (s.dom d).clk.at_ lt)
  generalize s.acceptSample d lt ((master : Int) - (s.dom d).clk.at_ lt) = u at hstate hrd hdom ⊢
  obtain ⟨c, hclk⟩ :=
    u.dom_correct (d := d) lt master (s.sampleInterval d lt) ((master : Int) - (s.dom d).clk.at_ lt)
  exact ⟨by rw [hclk, hdom], (State.domState_correct _ _ _ _ _ hd).trans hstate,
    fun o ho => (State.rd_correct_pin _ _ _ _ _ ho).trans (hrd o ho)⟩

end

/-! ## TIME_IN in 1PPS mode (R237, R240) -/

section
variable {s : State} {error : Int}

theorem timeInEdge_off (hmode : s.timeInMode = 0) : Answers (.timeInEdge error) s fun t => t = s :=
  ⟨s, by
    rw [exec_timeInEdge, execTimeInEdge, hmode]
    rfl, rfl⟩

theorem exec_timeInEdge_pps (hmode : s.timeInMode = 1) :
    exec (.timeInEdge error) s = .next (s.noteEdge.ppsEdge error) := by
  rw [exec_timeInEdge, execTimeInEdge, hmode]
  rfl

/-- Without DISC, without a GRANDMASTER domain, or in the cycle of a SETTIME, an edge is only captured. -/
theorem State.ppsEdge_of_captured
    (h : s.disciplines = false ∨ (s.dom (s.fld Reg.TIM_PINCFG 2 2)).setAt = some s.nowNs) :
    s.ppsEdge error = s.captureEdge (s.edgeTime error) := by
  refine if_neg ?_
  rw [State.disciplines_captureEdge, State.dom_congr (State.captureEdge_tim ..), State.captureEdge_nowNs]
  rcases h with h | h <;> simp [h]

theorem State.ppsEdge_of_sampled (hdisc : s.disciplines = true)
    (hset : (s.dom (s.fld Reg.TIM_PINCFG 2 2)).setAt ≠ some s.nowNs) :
    s.ppsEdge error = ((s.captureEdge (s.edgeTime error)).sample (s.fld Reg.TIM_PINCFG 2 2) (s.edgeTime error)
      (tkPerSec * (s.captureEdge (s.edgeTime error)).rdN Reg.TIM_TODSEC)).wr Reg.TIM_TODSEC
        ((s.captureEdge (s.edgeTime error)).rd Reg.TIM_TODSEC + 1) := by
  refine if_pos ?_
  rw [State.disciplines_captureEdge, State.dom_congr (State.captureEdge_tim ..), State.captureEdge_nowNs]
  simp [hdisc, hset]

theorem State.disciplines_of_disc (hdisc : s.bit Reg.TIM_PINCFG 4 = true)
    (hst : s.domState (s.fld Reg.TIM_PINCFG 2 2) = 3) : s.disciplines = true := by
  simp [State.disciplines, hdisc, hst]

theorem timeInEdge_captures (hmode : s.timeInMode = 1) (hdisc : s.bit Reg.TIM_PINCFG 4 = false) :
    Answers (.timeInEdge error) s fun t =>
      t.bit Reg.TIM_INSTAT 0 = true ∧ t.tim.timeInLast = some s.lt ∧ t.tim.domains = s.tim.domains ∧
      ∃ x : Nat, t.rdN Reg.TIM_INTS_ns = tkNs x ∧ x % 32768 = 0 ∧ s.lt ≤ 163840 + x ∧ x ≤ 131072 + s.lt := by
  have hoff : s.noteEdge.disciplines = false := Bool.and_eq_false_iff.mpr (.inl hdisc)
  exact ⟨_, (exec_timeInEdge_pps hmode).trans (congrArg _ (State.ppsEdge_of_captured (.inl hoff))),
    State.captured_captureEdge .., (congrArg TimeState.timeInLast (State.captureEdge_tim ..) :),
    (congrArg TimeState.domains (State.captureEdge_tim ..) :), s.edgeTime error, State.rdN_captureEdge ..,
    s.edgeTime_bounds error⟩

section
variable (hmode : s.timeInMode = 1) (hdisc : s.bit Reg.TIM_PINCFG 4 = true)
  (hst : s.domState (s.fld Reg.TIM_PINCFG 2 2) = 3)
include hmode

theorem timeInEdge_in_setTime_cycle (hset : (s.dom (s.fld Reg.TIM_PINCFG 2 2)).setAt = some s.nowNs) :
    Answers (.timeInEdge error) s fun t =>
      t.bit Reg.TIM_INSTAT 0 = true ∧ t.tim.domains = s.tim.domains ∧
      t.rd Reg.TIM_TODSEC = s.rd Reg.TIM_TODSEC :=
  ⟨_, (exec_timeInEdge_pps hmode).trans (congrArg _ (State.ppsEdge_of_captured (s := s.noteEdge) (.inr hset))),
    State.captured_captureEdge .., (congrArg TimeState.domains (State.captureEdge_tim ..) :),
    State.rd_captureEdge_other _ _ (by omega)⟩

include hdisc hst

theorem timeInEdge_samples (hset : (s.dom (s.fld Reg.TIM_PINCFG 2 2)).setAt ≠ some s.nowNs) :
    Answers (.timeInEdge error) s fun t =>
      t.bit Reg.TIM_INSTAT 0 = true ∧ t.domState (s.fld Reg.TIM_PINCFG 2 2) = 3 ∧
      (t.dom (s.fld Reg.TIM_PINCFG 2 2)).lastSample = some (s.edgeTime error) ∧
      t.rd Reg.TIM_TODSEC = s.rd Reg.TIM_TODSEC + 1 := by
  have hd : s.noteEdge.fld Reg.TIM_PINCFG 2 2 < 4 := getBits_lt _ _ _
  have hedge := State.ppsEdge_of_sampled (s := s.noteEdge) (error := error) (State.disciplines_of_disc hdisc hst) hset
  obtain ⟨hlast, hstate, hpin⟩ := (s.noteEdge.captureEdge (s.noteEdge.edgeTime error)).sample_grandmaster
    (s.noteEdge.edgeTime error) (tkPerSec * (s.noteEdge.captureEdge (s.noteEdge.edgeTime error)).rdN Reg.TIM_TODSEC)
    hd ((State.domState_captureEdge ..).trans hst)
  refine ⟨_, (exec_timeInEdge_pps hmode).trans (congrArg _ hedge), ?_, ?_, ?_, ?_⟩
  · rw [State.bit_congr (State.rd_wr_other _ _ (regKey_ne (by omega))), State.bit_congr (hpin 0xB4 (by omega))]
    exact State.captured_captureEdge ..
  · rw [State.domState, State.fld_congr (State.rd_wr_other _ _ (regKey_ne (by omega)))]
    exact hstate
  · rw [State.dom_congr (State.wr_tim ..)]
    exact hlast
  · rw [State.rd_wr_same, State.rd_captureEdge_other _ _ (by omega)]
    rfl

end

/-! ## TIME_IN in 10 MHz mode (R237) -/

theorem exec_timeInEdge_cycle (hmode : s.timeInMode = 2) :
    exec (.timeInEdge error) s = .next (s.noteEdge.cycleEdge error) := by
  rw [exec_timeInEdge, execTimeInEdge, hmode]
  rfl

theorem rateFor_eq (n : Nat) : rateFor n =
    clampInt (-219902325) 219902325 (Int.fdiv ((65536000000000 - (n : Int)) * 2 ^ 40) (max n 1 : Nat)) := by
  rw [rateFor, clampRho, Nat.cast_max]
  rfl

/-- The cycles counted from a local time on. -/
def State.setCycles (s : State) (n : Nat) (ref : Option Nat) : State :=
  { s with tim := { s.tim with cycles := n, cycleRef := ref } }

section
variable (hdisc : s.disciplines = true)
include hdisc

theorem State.cycleEdge_first (href : s.tim.cycleRef = none) :
    s.cycleEdge error = (s.captureEdge (s.edgeTime error)).setCycles 0 (some (s.edgeTime error)) := by
  unfold State.cycleEdge State.setCycles
  dsimp only
  rw [State.disciplines_captureEdge, hdisc, State.captureEdge_tim, href]
  rfl

theorem State.cycleEdge_counts {r : Nat} (href : s.tim.cycleRef = some r) (hn : s.tim.cycles + 1 < 10000000) :
    s.cycleEdge error = (s.captureEdge (s.edgeTime error)).setCycles (s.tim.cycles + 1) (some r) := by
  unfold State.cycleEdge State.setCycles
  dsimp only
  rw [State.disciplines_captureEdge, hdisc, State.captureEdge_tim, href]
  exact if_pos hn

theorem State.cycleEdge_steers {r : Nat} (href : s.tim.cycleRef = some r) (hn : 10000000 ≤ s.tim.cycles + 1) :
    s.cycleEdge error = ((s.captureEdge (s.edgeTime error)).setCycles 0 (some (s.edgeTime error))).putClock
      (s.fld Reg.TIM_PINCFG 2 2) ((s.dom (s.fld Reg.TIM_PINCFG 2 2)).clk.continued s.lt
        (rateFor (s.edgeTime error - r)) (rateFor (s.edgeTime error - r))) := by
  have htim := s.captureEdge_tim (s.edgeTime error)
  rw [← State.dom_congr htim, ← State.lt_congr htim (State.captureEdge_nowNs ..)]
  unfold State.cycleEdge State.setCycles
  dsimp only
  rw [State.disciplines_captureEdge, hdisc, htim, href]
  exact if_neg (Nat.not_lt.mpr hn)

end

section
variable (hmode : s.timeInMode = 2) (hdisc : s.bit Reg.TIM_PINCFG 4 = true)
  (hst : s.domState (s.fld Reg.TIM_PINCFG 2 2) = 3)
include hmode hdisc hst

theorem timeInEdge_first_cycle (href : s.tim.cycleRef = none) :
    Answers (.timeInEdge error) s fun t =>
      t.tim = { s.tim with timeInLast := some s.lt, cycles := 0, cycleRef := some (s.edgeTime error) } := by
  refine ⟨_, (exec_timeInEdge_cycle hmode).trans
    (congrArg _ (State.cycleEdge_first (s := s.noteEdge) (State.disciplines_of_disc hdisc hst) href)), ?_⟩
  rw [State.setCycles, State.captureEdge_tim]
  rfl

theorem timeInEdge_next_cycle {r : Nat} (href : s.tim.cycleRef = some r) (hn : s.tim.cycles + 1 < 10000000) :
    Answers (.timeInEdge error) s fun t =>
      t.tim = { s.tim with timeInLast := some s.lt, cycles := s.tim.cycles + 1 } := by
  refine ⟨_, (exec_timeInEdge_cycle hmode).trans
    (congrArg _ (State.cycleEdge_counts (s := s.noteEdge) (State.disciplines_of_disc hdisc hst) href hn)), ?_⟩
  rw [State.setCycles, State.captureEdge_tim, ← href]
  rfl

/-- After 10,000,000 cycles the clock of the domain goes on at the rate at which they are 1 s. -/
theorem timeInEdge_continues {r : Nat} (href : s.tim.cycleRef = some r) (hn : 10000000 ≤ s.tim.cycles + 1) :
    Answers (.timeInEdge error) s fun t =>
      (t.dom (s.fld Reg.TIM_PINCFG 2 2)).clk = (s.dom (s.fld Reg.TIM_PINCFG 2 2)).clk.continued s.lt
        (rateFor (s.edgeTime error - r)) (rateFor (s.edgeTime error - r)) ∧
      t.tim.timeInLast = some s.lt ∧ t.tim.cycleRef = some (s.edgeTime error) ∧ t.tim.cycles = 0 :=
  ⟨_, (exec_timeInEdge_cycle hmode).trans
      (congrArg _ (State.cycleEdge_steers (s := s.noteEdge) (State.disciplines_of_disc hdisc hst) href hn)),
    congrArg Domain.clk (State.dom_putClock_same ..), (congrArg TimeState.timeInLast (State.captureEdge_tim ..) :),
    rfl, rfl⟩

theorem timeInEdge_steers {r : Nat} (href : s.tim.cycleRef = some r) (hn : 10000000 ≤ s.tim.cycles + 1) :
    Answers (.timeInEdge error) s fun t =>
      let n := s.edgeTime error - r
      (t.dom (s.fld Reg.TIM_PINCFG 2 2)).clk.rho = clampInt (-219902325) 219902325
        (Int.fdiv ((65536000000000 - (n : Int)) * 2 ^ 40) (max n 1 : Nat)) ∧
      (t.dom (s.fld Reg.TIM_PINCFG 2 2)).clk.base = (t.dom (s.fld Reg.TIM_PINCFG 2 2)).clk.rho ∧
      (t.dom (s.fld Reg.TIM_PINCFG 2 2)).clk.lt0 = s.lt ∧
      (t.dom (s.fld Reg.TIM_PINCFG 2 2)).clk.w0 = (s.dom (s.fld Reg.TIM_PINCFG 2 2)).clk.at_ s.lt ∧
      t.tim.timeInLast = some s.lt ∧ t.tim.cycleRef = some (s.edgeTime error) ∧ t.tim.cycles = 0 := by
  obtain ⟨t, hexec, hclk, htim⟩ := timeInEdge_continues (error := error) hmode hdisc hst href hn
  refine ⟨t, hexec, ?_⟩
  dsimp only
  rw [hclk]
  exact ⟨rateFor_eq _, rfl, rfl, rfl, htim⟩

end

/-! ## Loss of TIME_IN (R237) -/

theorem timeInLoss_reports (hmode : s.timeInMode ≠ 0) (hdisc : s.bit Reg.TIM_PINCFG 4 = true)
    (hlost : s.timeInFresh = false) :
    Answers .timeInLoss s fun t =>
      t.bit Reg.TIM_INSTAT 1 = true ∧ t.tim = { s.tim with timeInLast := none, cycles := 0, cycleRef := none } ∧
      t.reports = s.reports ++ [⟨0x2182, 0, s.nowNs⟩] := by
  refine ⟨_, by rw [exec_timeInLoss, execTimeInLoss, if_neg (by simp [hmode, hdisc, hlost])], ?_, ?_, ?_⟩
  · rw [State.bit_fault]
    exact State.bit_setBit_same _ _ _ _ (by omega)
  · rw [State.fault_tim, State.setBit_tim]
  · rw [State.reports_fault, State.setBit_reports, State.setBit_nowNs]
    rfl

theorem timeInLoss_waits (h : s.timeInMode = 0 ∨ s.bit Reg.TIM_PINCFG 4 = false ∨ s.timeInFresh = true) :
    Answers .timeInLoss s fun t => t = s :=
  ⟨s, by rw [exec_timeInLoss, execTimeInLoss, if_pos h], rfl⟩

/-! ## TIME_OUT and the oscillator check (R238, R241) -/

theorem timeOutPulse_off (hmode : s.timeOutMode = 0) :
    Answers .timeOutPulse s fun t => t = { s with tim := { s.tim with timeOut := false } } :=
  ⟨_, by rw [exec_timeOutPulse, execTimeOutPulse, if_pos hmode], rfl⟩

/-- The period and the high time of TIME_OUT in units of 2^-16 ns. -/
theorem State.timeOutPeriod_eq (s : State) : s.timeOutPeriod =
    (if s.timeOutMode = 1 then 65536000000000 else 6553600,
      if s.timeOutMode = 1 then max 3276800 (65536000000 * s.fld Reg.TIM_PINCFG 16 8) else 3276800) := by
  unfold State.timeOutPeriod
  split <;> rfl

theorem State.timeOutDue_iff (s : State) : s.timeOutDue = true ↔
    (if s.tim.timeOut = true then
      s.timeOutPeriod.2 ≤ s.wNow (s.fld Reg.TIM_PINCFG 10 2) % s.timeOutPeriod.1 + 131072 ∧
        s.tim.timeOutRise + 3276800 ≤ s.lt
    else (s.wNow (s.fld Reg.TIM_PINCFG 10 2) + 131072) % s.timeOutPeriod.1 ≤ 262144) := by
  unfold State.timeOutDue nsUnits
  dsimp only
  split_ifs <;> simp

section
variable (hmode : s.timeOutMode ≠ 0)
include hmode

theorem timeOutPulse_waits (hdue : s.timeOutDue = false) : Answers .timeOutPulse s fun t => t = s :=
  ⟨s, by rw [exec_timeOutPulse, execTimeOutPulse, if_neg hmode, if_pos (by simp [hdue])], rfl⟩

theorem timeOutPulse_toggles (hdue : s.timeOutDue = true) : Answers .timeOutPulse s fun t =>
    t = { s with tim := { s.tim with
      timeOut := !s.tim.timeOut, timeOutRise := if s.tim.timeOut then s.tim.timeOutRise else s.lt } } :=
  ⟨_, by rw [exec_timeOutPulse, execTimeOutPulse, if_neg hmode, if_neg (by simp [hdue])], rfl⟩

end

theorem oscDeviation_reports : Answers .oscDeviation s fun t =>
    t.reports = s.reports ++ [⟨0x3183, 0, s.nowNs⟩] ∧ t.tim = s.tim :=
  ⟨_, (exec_oscDeviation ..).trans rfl, rfl, rfl⟩

end

/-- Settles O40: every command is followed through the capture of its edge, the clock that the edge corrects, and the
level of TIME_OUT that is due. -/
theorem timePinCommandsComplete : Obligations.TimePinCommandsComplete := by
  refine ⟨fun _ _ _ => ltAlignFlit_aligns, fun _ _ => timeInEdge_off, fun _ _ => timeInEdge_captures,
    fun _ _ hmode hdisc hst => ⟨timeInEdge_in_setTime_cycle hmode, timeInEdge_samples hmode hdisc hst⟩,
    fun _ _ hmode hdisc hst => ⟨timeInEdge_first_cycle hmode hdisc hst,
      fun _ => timeInEdge_next_cycle hmode hdisc hst, fun _ => timeInEdge_steers hmode hdisc hst⟩,
    fun _ => timeInLoss_reports, fun _ => timeInLoss_waits, fun _ => timeOutPulse_off, fun s hmode => ?_,
    fun _ => oscDeviation_reports⟩
  have hiff := s.timeOutDue_iff
  rw [State.timeOutPeriod_eq] at hiff
  exact ⟨fun h => timeOutPulse_waits hmode (Bool.eq_false_iff.mpr (h ∘ hiff.mp)),
    fun h => timeOutPulse_toggles hmode (hiff.mpr h)⟩

end Sys2Proof.Machine
end
